-- ==== Sys2Proof/Word.lean ====
section
/-!
DEFINITION. Word.lean: the word types of the SV6240 and nothing else (R3, R342).
Bit-field, byte-order and sign helpers stand in Machine/Bits.lean.
-/

namespace Sys2Proof

/-- A byte. -/
abbrev Byte := BitVec 8
/-- A Bobbin word (R342). -/
abbrev W16 := BitVec 16
/-- A 32-bit word. -/
abbrev W32 := BitVec 32
/-- A control register or CSR (R3). -/
abbrev W64 := BitVec 64

end Sys2Proof
end

