-- ==== Sys2Proof/Syntax.lean ====
section
/-!
DEFINITION. Syntax.lean: the commands the SV6240 takes, one constructor of `Instr` per row of spec/opcode_table.json,
and the operand types they carry. A command is an event at the block's boundary or the running of one of its own
engines' instructions; what an operand means is said at its type or at the command's meaning.
-/

namespace Sys2Proof

/-- A world (R298): the third value is the Selvedge attribute of R305. -/
inductive World where
  | shell | lining | selvedge
  deriving DecidableEq, Repr

/-- A requester inside the device, or the host behind a function (Table 10-1, SEAM_LOG0.CLASS). -/
inductive Agent where
  | hart (h : Nat)
  | bobbin (e : Nat)
  | localChannel (n : Nat)
  | host (f : Nat)
  | shuttle (f : Nat)
  | selvedge (p : Nat)
  | queueTile (p : Nat)
  | tape
  | debug (lining : Bool)
  deriving DecidableEq, Repr

/-- Where a register write goes: a control-space offset (R30) or an offset of a function's BAR0 (R78). -/
inductive RegTarget where
  | ctl (off : Nat)
  | bar (f off : Nat)
  deriving DecidableEq, Repr

/-- Causes of a warm reset, in TOP_RSTCAUSE (R23). -/
inductive RstCause where
  | pin | soft | wdog | safe | onafaet | clock
  deriving DecidableEq, Repr

/-- The PLLs of TOP_CLKSTAT besides ROOTPLL (R22). -/
inductive Pll where
  | eth
  | ddr (c : Nat)
  deriving DecidableEq, Repr

/-- The header fields of an Onafaet request (R36). `ch` is the channel: 0–31 the PF mailbox of that host port,
32 the management port, 33 the BMC, 34 the Shell door, 35 the Lining door (R34). -/
structure OnfReq where
  ch : Nat
  sender : Nat
  seq : Nat
  tag : Nat
  ctr : Nat
  crit : Bool
  deriving DecidableEq, Repr

/-- A queue pair: 0x0000–0xFFFF a QP of the pool (R80), 65,536 + n the local channel LCn (R151). -/
abbrev QpId := Nat

/-- What a shadow doorbell read returned (R98). -/
inductive ShadowRes where
  | value (w : BitVec 64)
  | failed
  deriving DecidableEq, Repr

/-- The ring and configuration registers of a queue window (R100). -/
inductive QwReg where
  | sqBase | cqBase | shadow | cfg | pasid
  deriving DecidableEq, Repr

/-- A personality's block request as the device read it from its ring (R118, R119): `cid` the head id or CID,
`idx` its ring index, `lba` the starting sector (virtio) or block (NVMe), `segs` its data buffers (IOVA, length),
`ranges` the ranges of a discard (start, blocks), `nsid` the NVMe namespace, `slots` the ring places it takes (the descriptors of a packed
virtqueue's chain, else 1). -/
structure BlkReq where
  cid : Nat
  idx : Nat
  nsid : Nat
  lba : Nat
  nbytes : Nat
  segs : List (Nat × Nat)
  ranges : List (Nat × Nat)
  statusAddr : Nat
  fua : Bool
  unmap : Bool
  slots : Nat
  deriving DecidableEq, Repr

/-- NVMe feature identifiers that the firmware serves (R119, R121). -/
inductive NvmeFeat where
  | numQueues | coalescing | intVector | asyncEvent | writeCache
  | other (fid : Nat)
  deriving DecidableEq, Repr

/-- A back-end response (Table 04-6) without its KIND, which the command names. -/
structure BeqRsp where
  wid : Nat
  notify : Bool
  status : Nat
  offset : Nat
  bytes : Nat
  addr : Nat
  deriving DecidableEq, Repr

/-- An ATS Translation Completion (R142, R144). -/
inductive AtsRes where
  | granted (phys size : Nat) (r w u : Bool)
  | refused
  deriving DecidableEq, Repr

/-- A Page Request Group Response (Table 05-4). -/
inductive PrgResp where
  | success | invalid | failure
  deriving DecidableEq, Repr

/-- What a dangerous fault is contained to (Table 08-8). -/
inductive FaultScope where
  | transfer (xid : Nat)
  | packet
  | qp (q : Nat)
  | function (f : Nat)
  | panel (p : Nat)
  | tape
  | device
  deriving DecidableEq, Repr

/-- A detected dangerous fault (R248, R250). -/
structure FaultInfo where
  mech : Nat
  cls : Nat
  panel : Nat
  tile : Nat
  unit : Nat
  detail : Nat
  scope : FaultScope
  deriving DecidableEq, Repr

/-- The guarded sequencers (R245). -/
inductive Sequencer where
  | queue | shuttle | selvedge | tape
  deriving DecidableEq, Repr

/-- What the peer answers to a pairing (R269). -/
structure PairInfo where
  serial : BitVec 64
  pairId : BitVec 64
  role : Nat
  schema : Nat
  feat : BitVec 64
  qpsIdle : Bool
  stateOk : Bool
  /-- HPORT_CFG_LIVE's ENABLE, WIDTH and TOTAL_VFS of each port. -/
  ports : List Nat
  /-- GALV_GATE_LIVE. -/
  gate : BitVec 64
  shadowOk : Bool
  deriving DecidableEq, Repr

/-- What a Galvel flit of this model carries (Table 09-2). The journal entries of Table 09-8 and the goodbye flit
have commands of their own. -/
inductive FlitPayload where
  | idle
  | heartbeat
  | journalAck (jseq : Nat)
  | stagingAck
  | counterAck
  | checkResult (viol : List (Nat × Nat × Nat))
  | stitchConfirm
  | handoffConfirm
  | adopted
  | pairAnswer (p : PairInfo)
  /-- Staged values of registers (by live offset) and of table entries (table, locator, image or none); whether a reply waits for its
  acknowledgement. -/
  | stage (ack : Bool) (ents : List (Nat × BitVec 64)) (tabs : List (Nat × List (BitVec 8) × Option (List (BitVec 8))))
  /-- Run the consistency rules on the mirror; discard its staged copies; the edge of a stitch and its mode, and its cancellation. -/
  | checkAsk
  | abort
  | schedule (mode edge : Nat)
  | unschedule
  | counter (slot ctr : Nat)
  | doorbell (f loc : Nat) (data : BitVec 64)
  | shadowReg (q reg : Nat) (data : BitVec 64)
  | packet (f loc : Nat) (frame : List (BitVec 8))
  /-- A connection's creation or state change, by its state code, and its removal (R189). -/
  | ctState (key rkey : List (BitVec 8)) (st : Nat)
  | ctGone (key : List (BitVec 8))
  /-- The ceiling of an outbound SA's sequence numbers, and the right edge of an inbound SA's window (R195, R196). -/
  | saCeil (sa ceil : Nat)
  | saEdge (sa edge : Nat)
  /-- A word of a function's context or personality, its MSI-X entries, a dirty log's settings (Table 09-7). -/
  | shadowFn (f reg : Nat) (data : BitVec 64)
  | shadowMsix (f vec : Nat) (addr : BitVec 64) (data : BitVec 32) (masked pend : Bool)
  | shadowLog (v : Nat) (on : Bool) (limit base0 base1 pf : Nat)
  /-- The copy that synchronisation makes (R270): the lead's registers by live offset, its table entries and epoch, its Tape counters, and a
  ring's indices. -/
  | syncCfg (regs : List (Nat × BitVec 64)) (tabs : List (Nat × List (BitVec 8) × List (BitVec 8))) (epoch : Nat)
  | syncTape (counts : List (Nat × Nat))
  | syncRing (q sqHead cqTail nextCseq : Nat) (phase : Bool)
  /-- A hand-off's schedule and its cancellation; a released ring's last trailing frame has left the MAC; the release is complete (R291–R293). -/
  | handoff (mode time : Nat)
  | unhandoff
  | netDone (q : Nat)
  | released
  /-- The lead unpaired (Table 09-6). -/
  | unpair
  deriving DecidableEq, Repr

/-- A Galvel flit (Table 09-1). -/
structure Flit where
  crcOk : Bool
  seq : Nat
  ack : Nat
  nak : Bool
  payload : FlitPayload
  deriving DecidableEq, Repr

/-- The first eight bytes of a journal entry (R280). -/
structure JHead where
  q : Nat
  jseq : Nat
  strict : Bool
  network : Bool
  write : Bool
  deriving DecidableEq, Repr

/-- The body of ADMIT (Table 09-8). -/
structure JAdmit where
  ringIdx : Nat
  count : Nat
  cid : Nat
  epoch : Nat
  time : Nat
  deriving DecidableEq, Repr

/-- The body of COMMIT (Table 09-8). -/
structure JCommit where
  ringIdx : Nat
  cseq : Nat
  status : Nat
  result : Nat
  sqhead : Nat
  account : Nat
  counts : Nat
  deriving DecidableEq, Repr

/-- Privilege modes of a hart (R326). -/
inductive Priv where
  | u | vu | s | vs | m
  deriving DecidableEq, Repr

/-- IDE_KM operations (R321). -/
inductive IdeOp where
  | query | keyProg | setGo | setStop
  deriving DecidableEq, Repr

/-- One entry of a Selvedge table command: its index and its image (Table 06-10). -/
structure TabImage where
  index : Nat
  image : List (BitVec 8)
  deriving DecidableEq, Repr

/-- What training found on one channel (R431, R432, R440): `fail` is 0, 1 no response or 2 training margin;
`noSpare` names the bank groups whose DIMM has no spare row. -/
structure DimmInfo where
  dimms : Nat
  ranks : Nat
  capGib : Nat
  rating : Nat
  fail : Nat
  noSpare : List Nat
  deriving DecidableEq, Repr

/-- An IEEE 1588 event message seen by a group (R404). -/
structure PtpMsg where
  seqId : Nat
  msgType : Nat
  domain : Nat
  port : Nat
  sent : Bool
  deriving DecidableEq, Repr

/-- The place of a DRAM error (Table 16-6). -/
structure EccLoc where
  row : Nat
  rank : Nat
  bg : Nat
  bank : Nat
  subch : Nat
  device : Nat
  deriving DecidableEq, Repr

/-- What decoding a DRAM line found (R437). -/
inductive EccErr where
  | none
  | corrected (l : EccLoc)
  | uncorrectable (l : EccLoc)
  deriving DecidableEq, Repr

/-- The compares of the time count (R323). -/
inductive TimerCmp where
  | mtimecmp | stimecmp | vstimecmp
  deriving DecidableEq, Repr

/-- Configuration-space fields with an effect the spec gives (R75, R76, R103, R142, R145, R235, R244, R405). -/
inductive CfgField where
  | numVfs (n : Nat)
  | msixEnable (b : Bool)
  | atsEnable (b : Bool)
  | priEnable (b : Bool)
  | priAlloc (n : Nat)
  | relaxedOrdering (b : Bool)
  | cplTimeout (v : Nat)
  | ptmEnable (b : Bool)
  deriving DecidableEq, Repr

/-- The invasive debug enables, by which a system-bus access is made (Table 10-4). -/
inductive DbgEnable where
  | li | si
  deriving DecidableEq, Repr


/-- The commands: the Bobbin engines' own instructions and coprocessor commands first, then the other rows, each part in the order of the table. -/
inductive Instr where
  /-- MOV (R352). Bobbin register move. -/
  | bMov (e : Nat) (d s : Fin 16)
  /-- ADD (R352). Bobbin register add. -/
  | bAdd (e : Nat) (d s : Fin 16)
  /-- ADC (R352). Bobbin register add with carry. -/
  | bAdc (e : Nat) (d s : Fin 16)
  /-- SUB (R352). Bobbin register subtract. -/
  | bSub (e : Nat) (d s : Fin 16)
  /-- SBC (R352). Bobbin register subtract with borrow. -/
  | bSbc (e : Nat) (d s : Fin 16)
  /-- AND (R352). Bobbin register AND. -/
  | bAnd (e : Nat) (d s : Fin 16)
  /-- OR (R352). Bobbin register OR. -/
  | bOr (e : Nat) (d s : Fin 16)
  /-- XOR (R352). Bobbin register XOR. -/
  | bXor (e : Nat) (d s : Fin 16)
  /-- CMP (R352). Bobbin register compare. -/
  | bCmp (e : Nat) (d s : Fin 16)
  /-- TST (R352). Bobbin register test. -/
  | bTst (e : Nat) (d s : Fin 16)
  /-- MOVI (R352). Bobbin move of a 4-bit immediate. -/
  | bMovi (e : Nat) (d imm : Fin 16)
  /-- ADDI (R352). Bobbin add of a 4-bit immediate. -/
  | bAddi (e : Nat) (d imm : Fin 16)
  /-- ADCI (R352). Bobbin add with carry of a 4-bit immediate. -/
  | bAdci (e : Nat) (d imm : Fin 16)
  /-- SUBI (R352). Bobbin subtract of a 4-bit immediate. -/
  | bSubi (e : Nat) (d imm : Fin 16)
  /-- SBCI (R352). Bobbin subtract with borrow of a 4-bit immediate. -/
  | bSbci (e : Nat) (d imm : Fin 16)
  /-- ANDI (R352). Bobbin AND with a 4-bit immediate. -/
  | bAndi (e : Nat) (d imm : Fin 16)
  /-- ORI (R352). Bobbin OR with a 4-bit immediate. -/
  | bOri (e : Nat) (d imm : Fin 16)
  /-- XORI (R352). Bobbin XOR with a 4-bit immediate. -/
  | bXori (e : Nat) (d imm : Fin 16)
  /-- CMPI (R352). Bobbin compare with a 4-bit immediate. -/
  | bCmpi (e : Nat) (d imm : Fin 16)
  /-- TSTI (R352). Bobbin test with a 4-bit immediate. -/
  | bTsti (e : Nat) (d imm : Fin 16)
  /-- BSET (R352). Bobbin bit set. -/
  | bBset (e : Nat) (d imm : Fin 16)
  /-- BCLR (R352). Bobbin bit clear. -/
  | bBclr (e : Nat) (d imm : Fin 16)
  /-- BTGL (R352). Bobbin bit toggle. -/
  | bBtgl (e : Nat) (d imm : Fin 16)
  /-- BTST (R352). Bobbin bit test into Z. -/
  | bBtst (e : Nat) (d imm : Fin 16)
  /-- NOT (R353). Bobbin one's complement. -/
  | bNot (e : Nat) (d amt : Fin 16)
  /-- NEG (R353). Bobbin negate. -/
  | bNeg (e : Nat) (d amt : Fin 16)
  /-- SHL (R353). Bobbin logical shift left. -/
  | bShl (e : Nat) (d amt : Fin 16)
  /-- SHR (R353). Bobbin logical shift right. -/
  | bShr (e : Nat) (d amt : Fin 16)
  /-- SAR (R353). Bobbin arithmetic shift right. -/
  | bSar (e : Nat) (d amt : Fin 16)
  /-- ROL (R353). Bobbin rotate left. -/
  | bRol (e : Nat) (d amt : Fin 16)
  /-- ROR (R353). Bobbin rotate right. -/
  | bRor (e : Nat) (d amt : Fin 16)
  /-- BREV (R353). Bobbin bit reversal. -/
  | bBrev (e : Nat) (d amt : Fin 16)
  /-- PAR (R353). Bobbin parity of a word. -/
  | bPar (e : Nat) (d amt : Fin 16)
  /-- CLZ (R353). Bobbin count of leading zeros. -/
  | bClz (e : Nat) (d amt : Fin 16)
  /-- SWAPB (R353). Bobbin byte exchange. -/
  | bSwapb (e : Nat) (d amt : Fin 16)
  /-- LDI (R351). Bobbin load of an 8-bit immediate. -/
  | bLdi (e : Nat) (d : Fin 16) (imm : BitVec 8)
  /-- LD (R346). Bobbin D-space load with a 4-bit displacement. -/
  | bLd (e : Nat) (d b disp : Fin 16)
  /-- ST (R364). Bobbin D-space store with a 4-bit displacement. -/
  | bSt (e : Nat) (s b disp : Fin 16)
  /-- IN (R348). Bobbin I/O-space load with a 4-bit displacement. -/
  | bIn (e : Nat) (d b disp : Fin 16)
  /-- OUT (R348). Bobbin I/O-space store with a 4-bit displacement. -/
  | bOut (e : Nat) (s b disp : Fin 16)
  /-- BCC (R354). Bobbin conditional branch. -/
  | bBcc (e : Nat) (cond : Fin 16) (disp : BitVec 8)
  /-- JMP (R355). Bobbin jump to an absolute target. -/
  | bJmp (e : Nat) (z : Fin 16) (z2 : Fin 16) (target : BitVec 16)
  /-- JMPR (R355). Bobbin jump to a register. -/
  | bJmpr (e : Nat) (z s : Fin 16)
  /-- CALL (R355). Bobbin call with a register mask. -/
  | bCall (e : Nat) (z z2 : Fin 16) (target mask : BitVec 16)
  /-- CALLR (R355). Bobbin call to a register with a register mask. -/
  | bCallr (e : Nat) (z s : Fin 16) (mask : BitVec 16)
  /-- RET (R355). Bobbin return popping masked registers. -/
  | bRet (e : Nat) (z z2 : Fin 16) (mask : BitVec 16)
  /-- IRET (R355). Bobbin return from interrupt. -/
  | bIret (e : Nat) (z z2 : Fin 16)
  /-- LD_L (R356). Bobbin D-space load with a 16-bit displacement. -/
  | bLdL (e : Nat) (d b : Fin 16) (disp : BitVec 16)
  /-- ST_L (R356). Bobbin D-space store with a 16-bit displacement. -/
  | bStL (e : Nat) (d b : Fin 16) (disp : BitVec 16)
  /-- LDD (R362). Bobbin double-word D-space load. -/
  | bLdd (e : Nat) (d b : Fin 16) (disp : BitVec 16)
  /-- STD (R362). Bobbin double-word D-space store. -/
  | bStd (e : Nat) (d b : Fin 16) (disp : BitVec 16)
  /-- IN_L (R356). Bobbin I/O load with a 16-bit displacement. -/
  | bInL (e : Nat) (d b : Fin 16) (disp : BitVec 16)
  /-- OUT_L (R356). Bobbin I/O store with a 16-bit displacement. -/
  | bOutL (e : Nat) (d b : Fin 16) (disp : BitVec 16)
  /-- IND (R362). Bobbin double-word I/O load. -/
  | bInd (e : Nat) (d b : Fin 16) (disp : BitVec 16)
  /-- OUTD (R362). Bobbin double-word I/O store. -/
  | bOutd (e : Nat) (d b : Fin 16) (disp : BitVec 16)
  /-- LDP (R356). Bobbin I-space load. -/
  | bLdp (e : Nat) (d b : Fin 16) (disp : BitVec 16)
  /-- STP (R356). Bobbin I-space store, privileged engines only. -/
  | bStp (e : Nat) (d b : Fin 16) (disp : BitVec 16)
  /-- LDI16 (R356). Bobbin load of a 16-bit immediate. -/
  | bLdi16 (e : Nat) (d z : Fin 16) (imm : BitVec 16)
  /-- ADDI16 (R356). Bobbin add of a 16-bit immediate. -/
  | bAddi16 (e : Nat) (d z : Fin 16) (imm : BitVec 16)
  /-- CMPI16 (R356). Bobbin compare with a 16-bit immediate. -/
  | bCmpi16 (e : Nat) (d z : Fin 16) (imm : BitVec 16)
  /-- CRC32C (R357). Bobbin CRC-32C step over two bytes. -/
  | bCrc32c (e : Nat) (d s : Fin 16)
  /-- CRC32CB (R357). Bobbin CRC-32C step over one byte. -/
  | bCrc32cb (e : Nat) (d s : Fin 16)
  /-- CRC16 (R357). Bobbin CRC-16 step over two bytes. -/
  | bCrc16 (e : Nat) (d s : Fin 16)
  /-- CRC16B (R357). Bobbin CRC-16 step over one byte. -/
  | bCrc16b (e : Nat) (d s : Fin 16)
  /-- PARX (R357). Bobbin parity accumulate. -/
  | bParx (e : Nat) (d s : Fin 16)
  /-- MUL (R358). Bobbin unsigned 16 × 16 multiply to a pair. -/
  | bMul (e : Nat) (d s : Fin 16)
  /-- MULS (R358). Bobbin signed multiply to a pair. -/
  | bMuls (e : Nat) (d s : Fin 16)
  /-- MULL (R358). Bobbin multiply keeping the low word. -/
  | bMull (e : Nat) (d s : Fin 16)
  /-- DIV (R358). Bobbin unsigned 32 ÷ 16 divide. -/
  | bDiv (e : Nat) (d s : Fin 16)
  /-- DIVS (R358). Bobbin signed divide. -/
  | bDivs (e : Nat) (d s : Fin 16)
  /-- SETF (R359). Bobbin set of named flags. -/
  | bSetf (e : Nat) (hi lo : Fin 16)
  /-- CLRF (R359). Bobbin clear of named flags. -/
  | bClrf (e : Nat) (hi lo : Fin 16)
  /-- EI (R359). Bobbin interrupt enable. -/
  | bEi (e : Nat) (hi lo : Fin 16)
  /-- DI (R359). Bobbin interrupt disable. -/
  | bDi (e : Nat) (hi lo : Fin 16)
  /-- WAIT (R359). Bobbin wait for an enabled line or a timeout. -/
  | bWait (e : Nat) (hi lo : Fin 16)
  /-- WAIT_TIMEOUT (R359). A WAIT with a limit reaches Ws × 16 cycles and ends with C = 0. -/
  | bWaitTimeout (e : Nat)
  /-- MVBK (R359). Bobbin read of a bank register. -/
  | bMvbk (e : Nat) (hi lo : Fin 16)
  /-- MVKB (R359). Bobbin write of a bank register. -/
  | bMvkb (e : Nat) (hi lo : Fin 16)
  /-- TRAP (R359). Bobbin software trap to vector 16 + n. -/
  | bTrap (e : Nat) (hi lo : Fin 16)
  /-- HALT (R359). Bobbin halt. -/
  | bHalt (e : Nat) (hi lo : Fin 16)
  /-- BOBBIN_NOP (R359). Bobbin no-operation 0xD900. -/
  | bNop (e : Nat) (hi lo : Fin 16)
  /-- RDF (R359). Bobbin read of FLAGS. -/
  | bRdf (e : Nat) (hi lo : Fin 16)
  /-- WRF (R359). Bobbin write of FLAGS. -/
  | bWrf (e : Nat) (hi lo : Fin 16)
  /-- SYNC (R359). Bobbin wait for an empty store buffer and accepted stores. -/
  | bSync (e : Nat) (hi lo : Fin 16)
  /-- CPW (R360). Bobbin write of a coprocessor register. -/
  | cpw (e port : Nat) (num w : Fin 16)
  /-- CPR (R360). Bobbin read of a coprocessor register. -/
  | cpr (e port : Nat) (num w : Fin 16)
  /-- SHA_INIT (R360). SHA unit INIT command. -/
  | shaInit (e : Nat) (w : Fin 16)
  /-- SHA_UPDATE (R360). SHA unit UPDATE command. -/
  | shaUpdate (e : Nat) (w : Fin 16)
  /-- SHA_FINAL (R360). SHA unit FINAL command writing the digest. -/
  | shaFinal (e : Nat) (w : Fin 16)
  /-- AES_ENCRYPT (R360). AES unit ENCRYPT command. -/
  | aesEncrypt (e : Nat) (w : Fin 16)
  /-- AES_DECRYPT (R360). AES unit DECRYPT command. -/
  | aesDecrypt (e : Nat) (w : Fin 16)
  /-- AES_TAG (R360). AES unit TAG command writing the GCM tag. -/
  | aesTag (e : Nat) (w : Fin 16)
  /-- MODMUL (R360). Big-number modular multiply. -/
  | modmul (e : Nat) (w : Fin 16)
  /-- MODEXP (R360). Big-number modular exponentiation. -/
  | modexp (e : Nat) (w : Fin 16)
  /-- MODINV (R360). Big-number modular inverse. -/
  | modinv (e : Nat) (w : Fin 16)
  /-- P384_MUL (R360). Big-number P-384 scalar multiplication. -/
  | p384Mul (e : Nat) (w : Fin 16)
  /-- NTT (R360). Big-number number-theoretic transform. -/
  | ntt (e : Nat) (w : Fin 16)
  /-- INTT (R360). Big-number inverse number-theoretic transform. -/
  | intt (e : Nat) (w : Fin 16)
  /-- POLYMUL (R360). Big-number polynomial multiply modulo 8,380,417. -/
  | polymul (e : Nat) (w : Fin 16)
  /-- CRC_RUN (R360). CRC block RUN command continuing from STATE. -/
  | crcRun (e : Nat) (w : Fin 16)
  /-- DESCRIPTOR_PARSE (R360). Descriptor parser PARSE command writing 16 words at OUT. -/
  | descriptorParse (e : Nat) (w : Fin 16)
  /-- REGISTER_WRITE (R5). A write to a control or BAR register that has no row of its own takes effect by the register's access code. -/
  | registerWrite (who : Agent) (tgt : RegTarget) (len : Nat) (data : BitVec 64)
  /-- POWER_ON_RESET (R24). POR_N rising starts the cold sequence: fuse sense, ROOTPLL start and WARM release at 60 µs. -/
  | powerOnReset
  /-- ROOTPLL_LOCK (R24). ROOTPLL reaches lock during the cold sequence and TOP_CLKSTAT.ROOT_LOCK reads 1. -/
  | rootpllLock
  /-- WARM_RELEASE (R24). The WARM domain is released, the Spool loader starts, and BIST and DDR training begin. -/
  | warmRelease
  /-- SYS_RST_PIN (R23). SYS_RST_N held low for 1 µs or more requests a warm reset with cause PIN. -/
  | sysRstPin (lowNs : Nat)
  /-- TOP_RESET_WARM (R23). A write to TOP_RESET with WARM set and key 0xA5C3 requests a warm reset with cause SOFT. -/
  | topResetWarm (who : Agent) (data : BitVec 64)
  /-- WARM_RESET (R25). A warm reset gates outputs, stops every engine, resets WARM, PANEL and FUNC registers and restarts the Spool loader. -/
  | warmReset (cause : RstCause)
  /-- REFCLK_LOSS (R22). Loss of REFCLK_100 or of ROOTPLL lock switches the AON logic to the backup oscillator, drives TWIN_FAULT_OUT and holds the device in warm reset. -/
  | refclkLoss (refLost : Bool)
  /-- ROOTPLL_RELOCK_HOLD_END (R22). ROOTPLL has been locked again for 100 µs, so the clock-monitor warm reset ends with cause CLOCK. -/
  | rootpllRelockHoldEnd
  /-- PLL_LOCK_LOSS (R22). ETH_REFCLK or a DDR PHY PLL loses lock, which sets TOP_STATUS.CLK_EVT and reports a fault without a reset. -/
  | pllLockLoss (pll : Pll)
  /-- PLL_LOCK_REGAIN (R22). A PLL in TOP_CLKSTAT regains lock and sets TOP_STATUS.CLK_EVT. -/
  | pllLockRegain (pll : Pll)
  /-- CORECLK_STEP_DOWN (R21). After each 100 µs above Tj 100 °C a panel's CORECLK drops one step, down to 2.4 GHz, and THROTTLE_EVT is set. -/
  | coreclkStepDown (p : Nat)
  /-- CORECLK_STEP_UP (R21). After each 1 ms at or below Tj 98 °C a panel's CORECLK recovers one step. -/
  | coreclkStepUp (p : Nat)
  /-- PERST_ASSERT (R27). PERST# of a host port resets the port's PF and every VF on it, and the port trains again. -/
  | perstAssert (n : Nat)
  /-- FUNCTION_LEVEL_RESET (R79). A function-level reset stops the function's QPs, releases their in-flight requests, resets the window registers and clears the MSI-X table within 1 ms. -/
  | functionLevelReset (f : Nat)
  /-- ONAFAET_PACKET_ARRIVAL (R39). An Onafaet packet arriving on a channel is checked in the order of Table 02-4 and then executed or refused. -/
  | onafaetPacketArrival (ch : Nat) (bytes : List (BitVec 8))
  /-- CEILING_WRITE_RETRY (R45). Thimble retries the anti-replay ceiling flash write at least every 100 ms until both copies are written. -/
  | ceilingWriteRetry (okInactive okActive : Bool)
  /-- MAILBOX_GO (R58). A write of 1 to ONF_MBX_CSR.GO submits the request buffer as one packet. -/
  | mailboxGo (ch : Nat) (who : Agent)
  /-- MAILBOX_DONE_CLEAR (R58). Clearing DONE releases the reply buffer so that the device writes the next reply packet. -/
  | mailboxDoneClear (ch : Nat) (who : Agent)
  /-- EVT_PACKET_SEND (R52). A waiting EVT packet of one class is sent to a subscribed channel. -/
  | evtPacketSend (ch cls : Nat)
  /-- DEV_INFO (R50). Returns identity, versions, counter floor, CFG_EPOCH, schema and device time. -/
  | devInfo (r : OnfReq)
  /-- DEV_RESET (R53). An authenticated command that schedules a warm reset DELAY_MS after its reply. -/
  | devReset (r : OnfReq) (serial : BitVec 64) (delayMs : Nat)
  /-- DEV_RESET_DELAY_EXPIRY (R53). The DEV_RESET delay expires and the warm reset with cause ONAFAET begins. -/
  | devResetDelayExpiry
  /-- EVT_SUBSCRIBE (R51). Replaces the channel's event-class mask. -/
  | evtSubscribe (r : OnfReq) (classes : BitVec 64)
  /-- FN_CONFIG (R60). Stages bifurcation, VF counts and personalities in the open session. -/
  | fnConfig (r : OnfReq) (ents : List (Nat × BitVec 64))
  /-- FN_RESET (R79). Performs a function-level reset of one VF or PF. -/
  | fnReset (r : OnfReq) (f : Nat)
  /-- QP_GRANT (R82). Stages grants of a run of FREE QPs to a function with local indices and a class. -/
  | qpGrant (r : OnfReq) (f count first firstLocal cls : Nat)
  /-- QP_REVOKE (R82). Stages revocation of a run of QPs from their function. -/
  | qpRevoke (r : OnfReq) (f count first : Nat)
  /-- QP_QUIESCE (R82). Drains named QPs to QUIESCED with HELD 1, optionally forcing parked and ERROR QPs. -/
  | qpQuiesce (r : OnfReq) (f count first : Nat) (force : Bool) (tmoMs : Nat)
  /-- QP_QUIESCE_TIMEOUT (R82). QP_QUIESCE is answered E_TIMEOUT after TIMEOUT_MS while draining continues. -/
  | qpQuiesceTimeout (ch tag : Nat)
  /-- QP_RESUME (R82). Releases HELD QUIESCED QPs not held by a session, resuming them if ENABLE is 1. -/
  | qpResume (r : OnfReq) (f count first : Nat)
  /-- QP_SCHED_FUNCTION (R106). QP_SCHED with KIND 0 stages a function's QFAB_FSCHED0 and FSCHED1. -/
  | qpSchedFunction (r : OnfReq) (index : Nat) (v0 v1 : BitVec 64)
  /-- QP_SCHED_ACCOUNT (R106). QP_SCHED with KIND 1 stages an account's QFAB_ASCHED. -/
  | qpSchedAccount (r : OnfReq) (index : Nat) (v1 : BitVec 64)
  /-- BASTE_OPEN (R59). Opens the single baste session, critical if the command is critical. -/
  | basteOpen (r : OnfReq) (idleMs : Nat)
  /-- BASTE_WRITE (R60). Stages values into RWB registers of the open session. -/
  | basteWrite (r : OnfReq) (sess : Nat) (ents : List (Nat × BitVec 64))
  /-- BASTE_CHECK (R62). Evaluates the consistency rules C01–C13 and holds quiesced QPs on a pass. -/
  | basteCheck (r : OnfReq) (sess : Nat)
  /-- STITCH_IMMEDIATE (R65). STITCH with MODE 0 arms the session for an edge within 2 µs, or 20 µs in a twin pair. -/
  | stitchImmediate (r : OnfReq) (sess : Nat)
  /-- STITCH_AT_TIME (R65). STITCH with MODE 1 arms the session for the first MESHCLK edge at or after TIME. -/
  | stitchAtTime (r : OnfReq) (sess : Nat) (time : BitVec 64)
  /-- STITCH_AT_MINUTE (R65). STITCH with MODE 2 arms the session for the edge of the next Tape minute boundary. -/
  | stitchAtMinute (r : OnfReq) (sess : Nat)
  /-- STITCH_EDGE (R66). On the armed edge every staged copy becomes live in every panel, CFG_EPOCH increments and the session closes. -/
  | stitchEdge
  /-- STITCH_CONFIRM_TIMEOUT (R70). The mirror has not confirmed the schedule 5 µs before the edge, so the lead cancels it with E_TWIN_UNSYNC. -/
  | stitchConfirmTimeout
  /-- BASTE_ABORT (R69). Discards staged copies, releases held QPs and closes the session. -/
  | basteAbort (r : OnfReq) (sess : Nat)
  /-- BASTE_STATUS (R54). Returns the session state, stitch time, epoch and idle time left. -/
  | basteStatus (r : OnfReq) (sess : Nat)
  /-- BASTE_IDLE_TIMEOUT (R61). A session without an owner baste command for IDLE_MS closes by abort and sends an E_TIMEOUT event. -/
  | basteIdleTimeout
  /-- RWB_REGISTER_WRITE (R60). A hart write to an RWB register or table window is staged, or dropped with FOREIGN_WR. -/
  | rwbRegisterWrite (h : Nat) (off len : Nat) (data : BitVec 64)
  /-- TAPE_READ (R229). Returns whole minute records between HEAD and TAIL without releasing them. -/
  | tapeRead (r : OnfReq) (firstRseq : BitVec 64) (max : Nat)
  /-- TAPE_MAP_FUNCTION (R214). TAPE_MAP KIND 0 stages a function's account in TAPE_FNACCT and, unless FN_ONLY, SELV_VPORTA. -/
  | tapeMapFunction (r : OnfReq) (index account mflags : Nat)
  /-- TAPE_MAP_TSPACE (R214). TAPE_MAP KIND 1 stages a tenant space's account. -/
  | tapeMapTspace (r : OnfReq) (index account mflags : Nat)
  /-- TAPE_MAP_ENABLE (R214). TAPE_MAP KIND 2 stages an account's ENABLE. -/
  | tapeMapEnable (r : OnfReq) (index mflags : Nat)
  /-- TAPE_RING (R227). Stages ledger ring BASE, SIZE_MIB and ENABLE in a critical Lining-door session. -/
  | tapeRing (r : OnfReq) (base : BitVec 64) (sizeMib rflags : Nat)
  /-- TWIN_PAIR_PAIR (R269). TWIN_PAIR ACTION 0 asks a solo device to pair as lead or mirror. -/
  | twinPairPair (r : OnfReq) (role : Nat) (peerSerial pairId : BitVec 64)
  /-- TWIN_PAIR_UNPAIR (R271). TWIN_PAIR ACTION 1 on the lead returns both twins to solo. -/
  | twinPairUnpair (r : OnfReq)
  /-- TWIN_PAIR_REJOIN (R273). TWIN_PAIR ACTION 2 rejoins a solo or fenced twin to a lead with SYNC 0. -/
  | twinPairRejoin (r : OnfReq) (role : Nat) (peerSerial pairId : BitVec 64)
  /-- TWIN_PAIR_TIMEOUT (R269). The peer does not answer a pairing or rejoin within 60 s, and it fails with E_TIMEOUT. -/
  | twinPairTimeout
  /-- TWIN_SYNC_COMPLETE (R270). Synchronisation ends and SYNC becomes 1 on both twins in one control-flit exchange. -/
  | twinSyncComplete
  /-- TWIN_HANDOFF_SWAP (R292). TWIN_HANDOFF MODE 0 on the lead schedules a role swap and a release of its rings. -/
  | twinHandoffSwap (r : OnfReq) (time : BitVec 64)
  /-- TWIN_HANDOFF_RELEASE (R292). TWIN_HANDOFF MODE 1 schedules a release of a twin's rings to the peer. -/
  | twinHandoffRelease (r : OnfReq) (time : BitVec 64)
  /-- TWIN_HANDOFF_RETURN (R292). TWIN_HANDOFF MODE 2 schedules return of adopted rings to their home twin. -/
  | twinHandoffReturn (r : OnfReq) (time : BitVec 64)
  /-- HANDOFF_EDGE (R293). At the scheduled edge the releasing twin stops fetching and the peer adopts the rings. -/
  | handoffEdge
  /-- RELEASE_COMPLETE (R293). The releasing twin has finished its trailing work and reports the release complete. -/
  | releaseComplete
  /-- TWIN_GATE (R296). Stages GALV_GATE in a critical session of the lead. -/
  | twinGate (r : OnfReq) (sess : Nat) (gate : BitVec 64)
  /-- FW_WRITE_IMAGE (R385). FW_WRITE REGION 0 writes data into the inactive slot. -/
  | fwWriteImage (r : OnfReq) (off : Nat) (data : List (BitVec 8)) (flashOk : Bool)
  /-- FW_WRITE_CONFIG (R385). FW_WRITE REGION 1 writes the configuration block to both slots with Thimble's CHECK and HMAC. -/
  | fwWriteConfig (r : OnfReq) (ents : List (Nat × BitVec 64)) (flashOk : Bool)
  /-- FW_ACTIVATE_SLOT (R385). FW_ACTIVATE ACTION 0 checks the inactive slot, copies ceiling and keys and writes MAGIC. -/
  | fwActivateSlot (r : OnfReq) (flashOk : Bool)
  /-- FW_ACTIVATE_WITHDRAW (R385). FW_ACTIVATE ACTION 1 erases the inactive slot's Thimble header. -/
  | fwActivateWithdraw (r : OnfReq) (flashOk : Bool)
  /-- RECOVERY (R386). Writes a slot during recovery and, once the Thimble image checks, schedules a warm reset. -/
  | recovery (r : OnfReq) (slot off : Nat) (data : List (BitVec 8)) (flashOk : Bool)
  /-- RECOVERY_RESET_DELAY (R386). 100 ms after a successful RECOVERY the warm reset with cause ONAFAET begins. -/
  | recoveryResetDelay
  /-- PWR_SET_BASK (R411). PWR_SET requests Bask for a unit. -/
  | pwrSetBask (r : OnfReq) (unit : Nat) (croak : Bool)
  /-- PWR_SET_DOZE (R411). PWR_SET requests Doze for a unit. -/
  | pwrSetDoze (r : OnfReq) (unit : Nat) (croak : Bool)
  /-- PWR_SET_BRUMATE (R411). PWR_SET requests Brumate for a unit. -/
  | pwrSetBrumate (r : OnfReq) (unit : Nat) (croak : Bool)
  /-- PWR_SET_HOLD (R411). PWR_SET requests Hold for a panel. -/
  | pwrSetHold (r : OnfReq) (unit : Nat) (croak : Bool)
  /-- PWR_STATUS (R55). Returns power states, status, claims and PWR_AVS. -/
  | pwrStatus (r : OnfReq)
  /-- MOULT_RUN_PERIOD (R427). MOULT_RUN ACTION 0 sets the Moult pass period. -/
  | moultRunPeriod (r : OnfReq) (periodS : Nat)
  /-- MOULT_RUN_SLICE (R427). MOULT_RUN ACTION 1 tests a named slice now. -/
  | moultRunSlice (r : OnfReq) (slice : Nat)
  /-- MOULT_RUN_FULLRATE (R427). MOULT_RUN ACTION 2 runs one Moult pass at full rate. -/
  | moultRunFullrate (r : OnfReq)
  /-- MOULT_STATUS (R427). Returns MOULT_STATUS and MOULT_LAST. -/
  | moultStatus (r : OnfReq)
  /-- KEY_SENDER_INSTALL (R319). KEY_SENDER OP 1 installs a wrapped sender key in a slot and stores it in both boot slots. -/
  | keySenderInstall (r : OnfReq) (slot perm sender : Nat) (wrapped : List (BitVec 8)) (okInactive okActive : Bool)
  /-- KEY_SENDER_REVOKE (R319). KEY_SENDER OP 2 revokes a sender key slot, burning FACTORY_KEY_OFF for slot 0. -/
  | keySenderRevoke (r : OnfReq) (slot : Nat) (okInactive okActive : Bool)
  /-- ATTEST (R56). Returns a signed measurement report over the nonce, with certificates optionally. -/
  | attest (r : OnfReq) (nonce : List (BitVec 8)) (certs : Nat)
  /-- DEBUG_UNLOCK_OPEN (R314). DEBUG_UNLOCK ACTION 0 opens debug enables within 1 µs. -/
  | debugUnlockOpen (r : OnfReq) (mask : Nat) (serial : BitVec 64)
  /-- DEBUG_UNLOCK_CLOSE (R314). DEBUG_UNLOCK ACTION 1 closes debug enables. -/
  | debugUnlockClose (r : OnfReq) (mask : Nat) (serial : BitVec 64)
  /-- SELV_WRITE_ADD (R205). SELV_WRITE OP 1 stages pending adds of table entries. -/
  | selvWriteAdd (r : OnfReq) (sess table : Nat) (ents : List TabImage)
  /-- SELV_WRITE_MODIFY (R206). SELV_WRITE OP 2 stages a pending add of the new image and a pending delete of the old. -/
  | selvWriteModify (r : OnfReq) (sess table : Nat) (ents : List TabImage)
  /-- SELV_WRITE_DELETE (R205). SELV_WRITE OP 3 stages pending deletes of table entries. -/
  | selvWriteDelete (r : OnfReq) (sess table : Nat) (ents : List TabImage)
  /-- SELV_READ (R204). Returns Selvedge table entries in the live or session view. -/
  | selvRead (r : OnfReq) (table : Nat) (staged : Bool) (ents : List TabImage)
  /-- OEM_COMMAND (R48). Opcodes 0x8000–0xFFFF pass to OEM handlers in the OEM-signed Pattern image. -/
  | oemCommand (r : OnfReq) (opcode : Nat) (params : List (BitVec 8))
  /-- HOST_PORT_TRAINED (R77). A host port finishes link training with its configured width and generation. -/
  | hostPortTrained (n : Nat)
  /-- DOORBELL_WRITE (R97). A host write to a QP doorbell updates SQ tail and CQ head after the range checks. -/
  | doorbellWrite (f off len : Nat) (data : BitVec 64)
  /-- SHADOW_POLL (R99). Every POLL_US µs, or every 2 µs after a takeover, the device reads a QP's shadow doorbell. -/
  | shadowPoll (q : Nat)
  /-- SHADOW_READ_RESULT (R98). A shadow doorbell read returns and its value is checked and applied, or ignored on failure. -/
  | shadowReadResult (q : Nat) (res : ShadowRes)
  /-- QP_ENABLE (R100). A write of 1 to QW_CTL.ENABLE starts a QUIESCED QP if the checks pass. -/
  | qpEnable (f loc : Nat)
  /-- QP_DISABLE (R84). A write of 0 to QW_CTL.ENABLE drains the QP, or leaves ERROR or containment, to QUIESCED with a fresh context. -/
  | qpDisable (f loc : Nat)
  /-- QUEUE_WINDOW_WRITE (R100). A write to a ring or configuration window register is taken only while the QP is QUIESCED, else it sets CFG_ERR. -/
  | queueWindowWrite (f loc : Nat) (reg : QwReg) (data : BitVec 64)
  /-- VF_FSTAT_EVT_EN_WRITE (R472). Setting EVT_EN with events pending signals vector 0 once. -/
  | vfFstatEvtEnWrite (f : Nat) (data : BitVec 64)
  /-- SQ_ENTRY_FETCH (R83). The device fetches a request's SQ entries, marks its admission epoch and begins it. -/
  | sqEntryFetch (q : QpId)
  /-- NOP (R90). Native NOP posts a completion with RESULT 0. -/
  | nop (q : QpId) (rid : Nat)
  /-- MOVE (R90). Native MOVE copies buffer A to buffer B, with an optional transform. -/
  | move (q : QpId) (rid : Nat)
  /-- FILL (R90). Native FILL writes a repeated pattern into buffer B. -/
  | fill (q : QpId) (rid : Nat)
  /-- COMPARE (R90). Native COMPARE compares buffers A and B and reports the first difference. -/
  | compare (q : QpId) (rid : Nat)
  /-- NET_TX (R198). Native NET_TX sends a frame into stage 1 of the Selvedge transmit path. -/
  | netTx (q : QpId) (rid : Nat)
  /-- NET_RX_POST (R94). Native NET_RX_POST posts a receive buffer for a frame. -/
  | netRxPost (q : QpId) (rid : Nat)
  /-- BLK_READ (R123). Native BLK_READ becomes a READ work item for the Shell back end. -/
  | blkRead (q : QpId) (rid : Nat)
  /-- BLK_WRITE (R123). Native BLK_WRITE becomes a WRITE work item. -/
  | blkWrite (q : QpId) (rid : Nat)
  /-- BLK_FLUSH (R123). Native BLK_FLUSH becomes a FLUSH work item. -/
  | blkFlush (q : QpId) (rid : Nat)
  /-- BLK_DISCARD (R123). Native BLK_DISCARD becomes a DISCARD work item. -/
  | blkDiscard (q : QpId) (rid : Nat)
  /-- DIRTY_SYNC_SYNC (R167). DIRTY_SYNC ACTION 0 flushes dirty bits and optionally swaps bitmaps. -/
  | dirtySyncSync (q : QpId) (rid : Nat)
  /-- DIRTY_SYNC_START (R165). DIRTY_SYNC ACTION 1 starts dirty logging for a VF into bitmap 0. -/
  | dirtySyncStart (q : QpId) (rid : Nat)
  /-- DIRTY_SYNC_STOP (R169). DIRTY_SYNC ACTION 2 performs a final SYNC with SWAP and ends logging. -/
  | dirtySyncStop (q : QpId) (rid : Nat)
  /-- DIRTY_UPDATE_LATE (R168). A recorded page waiting over 100 µs for its bitmap update overflows the VF's log. -/
  | dirtyUpdateLate (v : Nat)
  /-- COMPLETION_POST (R95). A request's completion is written to its CQ once space exists, in CSEQ order. -/
  | completionPost (q : QpId)
  /-- COAL_TIME_EXPIRY (R102). COAL_TIME µs after the first unsignalled completion, the CQ signals its vector. -/
  | coalTimeExpiry (q : QpId)
  /-- MSIX_VECTOR_UNMASK (R103). Unmasking a vector with its PBA bit set sends the pending message. -/
  | msixVectorUnmask (f vec : Nat)
  /-- DRAIN_COMPLETE (R85). The last completion of a draining QP becomes visible and the QP enters QUIESCED. -/
  | drainComplete (q : QpId)
  /-- BUCKET_REFILL (R105). Every 1 µs each scheduler token bucket refills by its rate up to its burst. -/
  | bucketRefill
  /-- STITCH_DISPATCH (R104). A port scheduler picks the next stitch of up to 4 KiB and hands it to a Shuttle engine. -/
  | stitchDispatch (port : Nat) (toHost : Bool)
  /-- STITCH_DATA_WRITTEN (R137). A dispatched stitch finishes writing its destination chunks. -/
  | stitchDataWritten (xid : Nat)
  /-- VIRTIO_NOTIFICATION (R109). A virtio notification makes the device read the available ring of a virtqueue. -/
  | virtioNotification (f u len : Nat) (data : BitVec 64)
  /-- NVME_SQ_DOORBELL (R109). A write to an NVMe SQ tail doorbell exposes new commands. -/
  | nvmeSqDoorbell (f u len : Nat) (data : BitVec 64)
  /-- NVME_CQ_DOORBELL (R109). A write to an NVMe CQ head doorbell frees completion slots. -/
  | nvmeCqDoorbell (f u len : Nat) (data : BitVec 64)
  /-- VIRTIO_QUEUE_ENABLE (R110). Writing queue_enable 1 starts a virtqueue, or sets DEVICE_NEEDS_RESET for a bad size. -/
  | virtioQueueEnable (f u : Nat)
  /-- VIRTIO_FEATURES_OK (R111). The driver sets FEATURES_OK, which reads 0 if required features or QPs are missing. -/
  | virtioFeaturesOk (f : Nat) (feats : BitVec 64)
  /-- VIRTIO_DEVICE_RESET (R111). A device_status write of 0 resets the function's queues as a function-level reset. -/
  | virtioDeviceReset (f : Nat)
  /-- NVME_ENABLE (R110). CC.EN set to 1 starts the NVMe controller or sets CSTS.CFS. -/
  | nvmeEnable (f : Nat) (aqa : BitVec 32)
  /-- NVME_DISABLE (R111). CC.EN changing from 1 to 0 resets the function's queues and lowers CSTS.RDY. -/
  | nvmeDisable (f : Nat)
  /-- RX_PROMISC (R116). Control virtqueue command setting promiscuous receive within Selvedge's classification. -/
  | rxPromisc (f : Nat) (on : Bool)
  /-- RX_ALLMULTI (R116). Control virtqueue command setting all-multicast receive. -/
  | rxAllmulti (f : Nat) (on : Bool)
  /-- MAC_TABLE_SET (R116). Control virtqueue command setting up to 64 multicast entries. -/
  | macTableSet (f : Nat) (uni multi : List (BitVec 48))
  /-- VLAN_ADD (R116). Control virtqueue command adding a VID within the operator's VLAN set. -/
  | vlanAdd (f vid : Nat)
  /-- MQ_VQ_PAIRS_SET (R116). Control virtqueue command setting the number of queue pairs. -/
  | mqVqPairsSet (f pairs : Nat)
  /-- MQ_RSS_CONFIG (R116). Control virtqueue command configuring RSS. -/
  | mqRssConfig (f : Nat) (types : BitVec 32) (unclassified : Nat) (table : List Nat) (key : List (BitVec 8))
  /-- MQ_HASH_CONFIG (R116). Control virtqueue command configuring hash reporting. -/
  | mqHashConfig (f : Nat) (types : BitVec 32) (key : List (BitVec 8))
  /-- CTRL_VQ_OTHER (R116). Any other control virtqueue command gets VIRTIO_NET_ERR. -/
  | ctrlVqOther (f cls cmd : Nat)
  /-- VIRTIO_BLK_IN (R118). A virtio-blk IN request is checked and becomes a READ work item. -/
  | virtioBlkIn (q : Nat) (b : BlkReq)
  /-- VIRTIO_BLK_OUT (R118). A virtio-blk OUT request is checked and becomes a WRITE work item. -/
  | virtioBlkOut (q : Nat) (b : BlkReq)
  /-- VIRTIO_BLK_FLUSH (R118). A virtio-blk FLUSH request becomes a FLUSH work item. -/
  | virtioBlkFlush (q : Nat) (b : BlkReq)
  /-- VIRTIO_BLK_DISCARD (R118). A virtio-blk DISCARD request becomes a single or multi-range work item. -/
  | virtioBlkDiscard (q : Nat) (b : BlkReq)
  /-- VIRTIO_BLK_WRITE_ZEROES (R118). A virtio-blk WRITE_ZEROES request becomes a work item. -/
  | virtioBlkWriteZeroes (q : Nat) (b : BlkReq)
  /-- VIRTIO_BLK_UNSUPPORTED (R118). GET_ID and other virtio-blk types complete with VIRTIO_BLK_S_UNSUPP. -/
  | virtioBlkUnsupported (q : Nat) (b : BlkReq)
  /-- NVME_IDENTIFY (R119). Admin Identify is served by Pattern firmware. -/
  | nvmeIdentify (f cid cns nsid : Nat) (prp : BitVec 64)
  /-- NVME_GET_LOG_PAGE (R119). Admin Get Log Page returns error, SMART, changed namespace or ANA logs. -/
  | nvmeGetLogPage (f cid lid len : Nat) (prp : BitVec 64)
  /-- NVME_SET_FEATURES (R121). Admin Set Features sets queues, coalescing, async events or write cache. -/
  | nvmeSetFeatures (f cid : Nat) (fid : NvmeFeat) (dw11 : BitVec 32)
  /-- NVME_GET_FEATURES (R121). Admin Get Features returns a feature value. -/
  | nvmeGetFeatures (f cid : Nat) (fid : NvmeFeat)
  /-- NVME_CREATE_IO_SQ (R110). Admin Create I/O SQ creates a submission queue on its paired CQ. -/
  | nvmeCreateIoSq (f cid qid cqid qsize : Nat) (prp : BitVec 64)
  /-- NVME_CREATE_IO_CQ (R110). Admin Create I/O CQ creates a completion queue. -/
  | nvmeCreateIoCq (f cid qid qsize vector : Nat) (ien : Bool) (prp : BitVec 64)
  /-- NVME_DELETE_IO_SQ (R119). Admin Delete I/O SQ removes a submission queue. -/
  | nvmeDeleteIoSq (f cid qid : Nat)
  /-- NVME_DELETE_IO_CQ (R119). Admin Delete I/O CQ removes a completion queue. -/
  | nvmeDeleteIoCq (f cid qid : Nat)
  /-- NVME_ABORT (R120). Admin Abort succeeds only for a command not yet issued as a work item. -/
  | nvmeAbort (f cid sqid acid : Nat)
  /-- NVME_ASYNC_EVENT_REQUEST (R119). Admin Asynchronous Event Request waits for an event. -/
  | nvmeAsyncEventRequest (f cid : Nat)
  /-- NVME_DOORBELL_BUFFER_CONFIG (R122). Admin Doorbell Buffer Config makes the shadow buffer the QW_SHADOW of every queue. -/
  | nvmeDoorbellBufferConfig (f cid : Nat) (shadow eventIdx : BitVec 64)
  /-- NVME_KEEP_ALIVE (R119). Admin Keep Alive is answered by Pattern firmware. -/
  | nvmeKeepAlive (f cid : Nat)
  /-- NVME_READ (R119). I/O Read becomes a READ work item. -/
  | nvmeRead (q : Nat) (b : BlkReq)
  /-- NVME_WRITE (R119). I/O Write becomes a WRITE work item. -/
  | nvmeWrite (q : Nat) (b : BlkReq)
  /-- NVME_FLUSH (R119). I/O Flush becomes a FLUSH work item. -/
  | nvmeFlush (q : Nat) (b : BlkReq)
  /-- NVME_WRITE_ZEROES (R119). I/O Write Zeroes becomes a WRITE_ZEROES work item. -/
  | nvmeWriteZeroes (q : Nat) (b : BlkReq)
  /-- NVME_DATASET_MANAGEMENT (R124). I/O Dataset Management with Deallocate becomes a DISCARD item, multi-range if needed. -/
  | nvmeDatasetManagement (q : Nat) (b : BlkReq)
  /-- NVME_INVALID_OPCODE (R119). Any other NVMe opcode fails with Invalid Command Opcode. -/
  | nvmeInvalidOpcode (q : Nat) (b : BlkReq)
  /-- BEQ_WORK_ITEM (R123). The device writes a work item and its continuation slots to a BEQ once there is room and notifies the hart. -/
  | beqWorkItem (b : Nat)
  /-- MOVE_TO_HOST (R125). A back-end response moves bytes from a back-end buffer to the request's host data. -/
  | moveToHost (b : Nat) (r : BeqRsp)
  /-- MOVE_FROM_HOST (R125). A back-end response moves bytes from the request's host data to a back-end buffer. -/
  | moveFromHost (b : Nat) (r : BeqRsp)
  /-- MOVED (R125). A move with NOTIFY posts a MOVED work item once its data has landed. -/
  | moved (b wid off bytes : Nat)
  /-- COMPLETE (R125). A COMPLETE response posts the host completion after every earlier move is visible. -/
  | complete (b : Nat) (r : BeqRsp)
  /-- ATS_COMPLETION (R144). An ATS Translation Completion fills the ATC, or sends a page request or ends the transfer. -/
  | atsCompletion (tag : Nat) (res : AtsRes)
  /-- PAGE_REQUEST_GROUP_SEND (R145). The device sends a Page Request Group, waiting in PRG-WAIT if none is free. -/
  | pageRequestGroupSend (port : Nat)
  /-- ATS_INVALIDATE (R143). An ATS Invalidate Request removes matching ATC entries and is completed once uses end. -/
  | atsInvalidate (f : Nat) (pasid : Option Nat) (addr len : Nat)
  /-- PAGE_REQUEST_RESPONSE (R146). A Page Request Group Response settles a parked transfer or is counted late. -/
  | pageRequestResponse (f prgi : Nat) (resp : PrgResp)
  /-- PRI_TIMEOUT (R146). A page request group unanswered for PRI_TMO_MS ends its transfer with E_PAGE_DENIED. -/
  | priTimeout (f prgi : Nat)
  /-- CPL_TIMEOUT (R244). A non-posted PCIe request reaches its completion timeout and is settled. -/
  | cplTimeout (tag : Nat)
  /-- IOTINVAL_VMA (R148). Device IOMMU command invalidating first-stage translations. -/
  | iotinvalVma (did : Option Nat) (pid : Option Nat) (addr : Option Nat)
  /-- IOTINVAL_GVMA (R148). Device IOMMU command invalidating second-stage translations. -/
  | iotinvalGvma (did : Option Nat) (addr : Option Nat)
  /-- IODIR_INVAL_DDT (R148). Device IOMMU command invalidating device directory entries. -/
  | iodirInvalDdt (did : Option Nat)
  /-- IODIR_INVAL_PDT (R148). Device IOMMU command invalidating process directory entries. -/
  | iodirInvalPdt (did pid : Nat)
  /-- IOFENCE_C (R148). Device IOMMU fence command. -/
  | iofenceC (av : Bool) (addr data : BitVec 64)
  /-- SHUT_LRESP (R150). A write to SHUT_LRESP retranslates or denies every parked transfer of a local channel. -/
  | shutLresp (who : Agent) (data : BitVec 64)
  /-- LFLT_TIMEOUT (R150). A device-side parked transfer unsettled for LFLT_TMO_MS ends with E_IOMMU_FAULT. -/
  | lfltTimeout (xid : Nat)
  /-- LC_DOORBELL (R152). A write to LC_DB updates a local channel's SQ tail and CQ head. -/
  | lcDoorbell (who : Agent) (n len : Nat) (data : BitVec 64)
  /-- LC_ENABLE (R152). LC_CTL.ENABLE 1 starts a local channel, or is refused with CFG_ERR. -/
  | lcEnable (who : Agent) (n : Nat) (on : Bool)
  /-- KEY_LOAD (R163). SHUT_KEYCMD OP 0b01 loads an AES-XTS key slot, refusing equal keys. -/
  | keyLoad (who : Agent) (data : BitVec 64)
  /-- KEY_CLEAR (R163). SHUT_KEYCMD OP 0b10 clears an AES-XTS key slot. -/
  | keyClear (who : Agent) (data : BitVec 64)
  /-- FRAME_RECEIVE (R170). A frame received on an Ethernet port enters the receive path of a Selvedge pipeline. -/
  | frameReceive (port : Nat) (frame : List (BitVec 8)) (fcsOk : Bool)
  /-- MISS_LOOKUP_COMPLETE (R183). A packet in the miss buffer gets its DRAM lookup and ACL result and proceeds. -/
  | missLookupComplete (pipe : Nat)
  /-- MISS_AGE (R175). A packet older than 200 µs on the miss path is dropped with MISS_AGE. -/
  | missAge (pipe idx : Nat)
  /-- LEARN_IDLE_EXPIRY (R185). A learned flow idle for LEARN_IDLE_S is removed. -/
  | learnIdleExpiry (key : List (BitVec 8))
  /-- CT_TIMEOUT (R187). A connection passes its timeout and is treated as absent. -/
  | ctTimeout (zone : Nat) (key : List (BitVec 8))
  /-- REINJECT_ENTRY (R209). The device takes a reinject entry and injects the frame by its MODE. -/
  | reinjectEntry (n : Nat)
  /-- FRAME_TRANSMIT (R201). The port scheduler sends a queued frame on an Ethernet port. -/
  | frameTransmit (port : Nat)
  /-- PFC_RECEIVE (R202). A received PFC frame pauses a class of the port. -/
  | pfcReceive (port : Nat) (classes : BitVec 8) (times : List Nat)
  /-- PFC_PAUSE_END (R202). A paused class's pause time expires and the class resumes. -/
  | pfcPauseEnd (port cls : Nat)
  /-- SELV_SWEEP_COMPLETE (R207). Once no packet stamped before the commit epoch remains, pending adds go live, deletes free and SWEEP clears. -/
  | selvSweepComplete
  /-- SELV_TW_READ_LIVE (R204). Table window OP 0 reads a live entry into SELV_TW_DATA. -/
  | selvTwReadLive (who : Agent) (table index : Nat)
  /-- SELV_TW_READ_STAGED (R204). Table window OP 4 reads a staged entry. -/
  | selvTwReadStaged (who : Agent) (table index : Nat)
  /-- SELV_TW_ADD (R205). Table window OP 1 stages an add. -/
  | selvTwAdd (who : Agent) (table index : Nat)
  /-- SELV_TW_MODIFY (R206). Table window OP 2 stages a modify. -/
  | selvTwModify (who : Agent) (table index : Nat)
  /-- SELV_TW_DELETE (R205). Table window OP 3 stages a delete. -/
  | selvTwDelete (who : Agent) (table index : Nat)
  /-- TAPE_BANK_FLIP (R218). In the ENGCLK cycle in which T00 reaches a minute boundary the bank pointer flips. -/
  | tapeBankFlip
  /-- TAPE_INCREMENT (R219). A counted increment reaches its account's home tile and is added to its bank. -/
  | tapeIncrement (account ctr bank amount : Nat)
  /-- QP_SLOT_TICK (R215). Each new whole second of T00 charges one tick per granted QP. -/
  | qpSlotTick
  /-- TAPE_DRAIN (R220). Thimble starts draining the idle bank once 10 µs, the peer marker and ring room allow. -/
  | tapeDrain
  /-- TAPE_RECORD_WRITE (R228). B06 finishes building, signing and writing a minute record and advances TAIL. -/
  | tapeRecordWrite
  /-- PEER_MARKER_TIMEOUT (R220). 1 ms after the flip without the peer's cut marker the drain may go ahead with PEER_LATE. -/
  | peerMarkerTimeout
  /-- TAPE_HEAD_WRITE (R225). A write of TAPE_RING_PTR.HEAD releases records, or sets BAD_HEAD. -/
  | tapeHeadWrite (who : Agent) (data : BitVec 64)
  /-- PEER_INCREMENT (R231). A peer twin's increment arrives and is added to the bank of its minute, or as late. -/
  | peerIncrement (account ctr minute amount : Nat)
  /-- CUT_MARKER (R231). The peer's cut marker for a closed minute arrives and skew is checked. -/
  | cutMarker (minute : Nat) (time : BitVec 64)
  /-- CORRECTED_ERROR (R249). A corrected error increments CE_COUNT and sets CE_EVT. -/
  | correctedError
  /-- DANGEROUS_FAULT_DETECT (R250). A detected dangerous fault is contained to its scope and recorded, with TWIN_FAULT_OUT for class 2 and above. -/
  | dangerousFaultDetect (flt : FaultInfo)
  /-- SEQUENCER_WATCHDOG_EXPIRY (R245). A sequencer not progressing for 6 µs is a dangerous fault. -/
  | sequencerWatchdogExpiry (seqr : Sequencer) (panel : Nat)
  /-- DEVICE_WATCHDOG_EXPIRY (R245). The device watchdog expires, drives TWIN_FAULT_OUT and warm-resets with cause WDOG. -/
  | deviceWatchdogExpiry
  /-- SAFE_WDOG_KICK (R245). Writing 0x6B1D to SAFE_WDOG.KICK restarts the device watchdog count. -/
  | safeWdogKick (who : Agent) (data : BitVec 64)
  /-- SAFE_WDOG_ENABLE (R245). Setting SAFE_WDOG.ENABLE starts the device watchdog until warm reset. -/
  | safeWdogEnable (who : Agent) (data : BitVec 64)
  /-- SAFE_INJECT (R256). SAFE_INJECT.GO injects one fault handled exactly as a real one. -/
  | safeInject (who : Agent) (data : BitVec 64)
  /-- VOLTAGE_MONITOR_TRIP (R455). A rail outside its range for 1 µs while POR_N is high is a class 5 fault. -/
  | voltageMonitorTrip (rail : Nat)
  /-- GALVEL_FLIT_RECEIVE (R259). A Galvel flit is received, checked and delivered in order, or NAKed. -/
  | galvelFlitReceive (fl : Flit)
  /-- GALVEL_ACK_TIMEOUT (R259). 10 µs without an ACK while flits are outstanding declares the link down and retrains it. -/
  | galvelAckTimeout
  /-- GALVEL_LINK_TRAINED (R260). Galvel training completes at x16 or x8, or the link stays down. -/
  | galvelLinkTrained (lo hi : Bool)
  /-- HEARTBEAT_SEND (R262). Each twin sends a heartbeat flit every 500 ns. -/
  | heartbeatSend
  /-- HEARTBEAT_TIMEOUT (R262). No flit from the peer for HB_TMO_US times the heartbeat out. -/
  | heartbeatTimeout
  /-- ADMIT (R280). Journal entry recording a request's admission is applied to the peer's shadow. -/
  | admitEntry (e : JHead) (a : JAdmit)
  /-- ISSUE (R280). Journal entry recording an effect outside host memory is applied and acknowledged. -/
  | issue (e : JHead) (ringIdx effect : Nat)
  /-- COMMIT (R280). Journal entry recording a request's commit is applied and acknowledged. -/
  | commit (e : JHead) (c : JCommit)
  /-- COUNTS (R280). Journal entry carrying the Tape increments of a COMMIT is applied. -/
  | counts (e : JHead) (pairs : List (Nat × Nat))
  /-- RELEASE (R280). Journal entry recording release of a request without completion is applied. -/
  | release (e : JHead) (ringIdx : Nat)
  /-- WMARK (R280). Every 1 µs the serving twin sends each active ring's watermark. -/
  | wmark
  /-- GOODBYE (R272). The mirror's goodbye flit sets GOODBYE_EVT and SYNC 0 on the lead, with no takeover. -/
  | goodbye
  /-- TWIN_FAULT_IN_RISE (R283). The peer's TWIN_FAULT_OUT rising makes this twin decide a takeover. -/
  | twinFaultInRise
  /-- ALIVE_LOSS (R283). No TWIN_ALIVE_IN edge for 160 ns clears ALIVE_OK; with the heartbeat timed out it decides a takeover. -/
  | aliveLoss
  /-- SETTLE_EXPIRY (R284). SETTLE_US after the fence, the survivor begins reconciliation reads of adopted rings. -/
  | settleExpiry
  /-- RECONCILE_RETRY (R285). A failed reconciliation read is repeated after 100 µs. -/
  | reconcileRetry (q : Nat)
  /-- FENCE_IN_RISE (R265). TWIN_FENCE_IN high gates host and Ethernet lanes within 50 ns and the device enters Hold. -/
  | fenceInRise
  /-- FENCE_IN_FALL (R273). The fence is released at the end of a rejoin and the device becomes mirror. -/
  | fenceInFall
  /-- FENCE_HOLD_EXPIRY (R266). FENCE_HOLD_MS after fencing, the fenced device warm-resets with cause SAFE. -/
  | fenceHoldExpiry
  /-- MWORLD_WRITE (R300). An M-mode write of mworld on a claimed hart fences and changes the hart's world. -/
  | mworldWrite (h : Nat) (mode : Priv) (data : BitVec 64)
  /-- CLAIM_HART_WRITE (R300). A write of PWR_CLAIM_HART claims or releases harts, a release clearing WORLD at once. -/
  | claimHartWrite (who : Agent) (data : BitVec 64)
  /-- CLAIM_BLK_WRITE (R302). A write of PWR_CLAIM_BLK claims or releases blocks against Shell power requests. -/
  | claimBlkWrite (who : Agent) (data : BitVec 64)
  /-- GPIO_WORLD_WRITE (R309). A write of SEAM_GPIOW that changes a pin's world returns the pin to input with its interrupt off. -/
  | gpioWorldWrite (who : Agent) (data : BitVec 64)
  /-- GET_VERSION (R320). SPDM GET_VERSION request. -/
  | getVersion (n : Nat)
  /-- GET_CAPABILITIES (R320). SPDM GET_CAPABILITIES request. -/
  | getCapabilities (n : Nat)
  /-- NEGOTIATE_ALGORITHMS (R320). SPDM NEGOTIATE_ALGORITHMS request. -/
  | negotiateAlgorithms (n : Nat) (algOk : Bool)
  /-- GET_DIGESTS (R320). SPDM GET_DIGESTS request. -/
  | getDigests (n : Nat)
  /-- GET_CERTIFICATE (R320). SPDM GET_CERTIFICATE request. -/
  | getCertificate (n slot off len : Nat)
  /-- CHALLENGE (R320). SPDM CHALLENGE request signed by Thimble. -/
  | challenge (n slot : Nat) (nonce : List (BitVec 8))
  /-- GET_MEASUREMENTS (R320). SPDM GET_MEASUREMENTS request. -/
  | getMeasurements (n op : Nat) (sign : Bool) (nonce : List (BitVec 8))
  /-- KEY_EXCHANGE (R320). SPDM KEY_EXCHANGE request. -/
  | keyExchange (n : Nat) (peerPub : List (BitVec 8))
  /-- FINISH (R320). SPDM FINISH request. -/
  | finish (n sid : Nat) (macOk : Bool)
  /-- KEY_UPDATE (R320). SPDM KEY_UPDATE request. -/
  | keyUpdate (n sid op : Nat)
  /-- SPDM_HEARTBEAT (R320). SPDM HEARTBEAT request. -/
  | spdmHeartbeat (n sid : Nat)
  /-- END_SESSION (R320). SPDM END_SESSION request. -/
  | endSession (n sid : Nat)
  /-- IDE_KM (R321). VENDOR_DEFINED_REQUEST carrying IDE_KM programs IDE stream keys. -/
  | ideKm (n sid stream : Nat) (op : IdeOp) (key : List (BitVec 8))
  /-- IDE_INTEGRITY_FAILURE (R321). A TLP failing its IDE check is dropped and its stream enters Insecure. -/
  | ideIntegrityFailure (n stream : Nat) (tag : Option Nat)
  /-- HTAPEACCT_WRITE (R327). A write of htapeacct changes the account charged for V = 1 cycles from the next cycle. -/
  | htapeacctWrite (h : Nat) (mode : Priv) (data : BitVec 64)
  /-- MCACHECTL_INV (R336). mcachectl.INV invalidates the private caches, as WBINV if a cache is enabled. -/
  | mcachectlInv (h : Nat) (mode : Priv) (data : BitVec 64)
  /-- MCACHECTL_WBINV (R336). mcachectl.WBINV writes back and invalidates the private caches. -/
  | mcachectlWbinv (h : Nat) (mode : Priv) (data : BitVec 64)
  /-- MCACHECTL_ENABLE (R336). A write of mcachectl enable bits enables or disables caches, or is refused with NOINV or NOSC. -/
  | mcachectlEnable (h : Nat) (mode : Priv) (data : BitVec 64)
  /-- MPOWERREQ_WRITE (R411). A write of mpowerreq requests a power state for the hart's core tile at its next WFI. -/
  | mpowerreqWrite (h : Nat) (mode : Priv) (data : BitVec 64)
  /-- SC_CTL_INV (R337). SC_CTL.INV invalidates all 64 system cache slices within 40 µs. -/
  | scCtlInv (who : Agent) (data : BitVec 64)
  /-- SC_CTL_ENABLE (R337). A write of SC_CTL.EN enables or disables the system cache, or is refused. -/
  | scCtlEnable (who : Agent) (data : BitVec 64)
  /-- CBO_CLEAN (R325). CBO.CLEAN writes a block back to memory from every level. -/
  | cboClean (h addr : Nat)
  /-- CBO_FLUSH (R325). CBO.FLUSH writes back and invalidates a block everywhere. -/
  | cboFlush (h addr : Nat)
  /-- CBO_INVAL (R325). CBO.INVAL performs a flush. -/
  | cboInval (h addr : Nat)
  /-- CBO_ZERO (R325). CBO.ZERO writes zeros to a block without reading memory. -/
  | cboZero (h addr : Nat)
  /-- BOB_CTL_RUN (R344). BOB_CTL.RUN starts a stopped or halted engine at the reset vector. -/
  | bobCtlRun (who : Agent) (e : Nat)
  /-- BOB_CTL_STOP (R344). BOB_CTL.STOP stops an engine at its next interrupt point after draining its store buffer. -/
  | bobCtlStop (who : Agent) (e : Nat)
  /-- BOB_IMG_WRITE (R345). A write of BOB_IMG sets a stopped engine's image region. -/
  | bobImgWrite (who : Agent) (e : Nat) (data : BitVec 64)
  /-- BOB_LMEM_WRITE (R344). A write of BOB_LMEM loads a stopped or halted engine's local memory. -/
  | bobLmemWrite (who : Agent) (e off : Nat) (data : BitVec 64)
  /-- RPORT_READ (R349). RP_CMD 1 reads a control register into RP_DATA with the engine's world. -/
  | rportRead (e : Nat)
  /-- RPORT_WRITE (R349). RP_CMD 2 writes RP_DATA to a control register with the engine's world. -/
  | rportWrite (e : Nat)
  /-- MAILBOX_SEND (R348). A write to MBX_OUT sends a word to another engine's mailbox FIFO, or drops it when full. -/
  | mailboxSend (e slot : Nat) (word : BitVec 16)
  /-- MAILBOX_RECEIVE (R348). A read of MBX_IN takes the next received word. -/
  | mailboxReceive (e : Nat)
  /-- LOCAL_TIMER_MATCH (R348). CYCLE reaching LT_CMP makes engine line 0 pending. -/
  | localTimerMatch (e : Nat)
  /-- BOBBIN_INTERRUPT (R366). A pending enabled line is taken: PC and FLAGS pushed, IE cleared, jump to the vector. -/
  | bobbinInterrupt (e line : Nat)
  /-- STORE_BUFFER_DRAIN (R364). The oldest Bobbin store buffer entry drains to its memory. -/
  | storeBufferDrain (e : Nat)
  /-- MULDIV_RESULT (R358). A pending multiply or divide writes its result 3 or 18 cycles after issue. -/
  | muldivResult (e : Nat)
  /-- COPROCESSOR_DONE (R360). A coprocessor unit finishes its command and becomes idle, or sets its error. -/
  | coprocessorDone (e port : Nat)
  /-- THIMBLE_START (R373). Once the first 4 KiB of the Thimble body has landed the Spool loader starts the four Thimble engines. -/
  | thimbleStart
  /-- THIMBLE_BODY_VERDICT (R374). The Thimble body hash is compared with BODY_DIGEST, opening keys or excluding the slot. -/
  | thimbleBodyVerdict
  /-- BIST_COMPLETE (R379). Power-on BIST ends, passing or halting with code 0x23. -/
  | bistComplete (fails : Bool)
  /-- DDR_TRAINING_COMPLETE (R434). DDR training of the controllers completes or halts the device. -/
  | ddrTrainingComplete (pop : List DimmInfo)
  /-- BOOT_WATCHDOG_EXPIRY (R380). 10 s after WARM release without UNGATE the device halts with code 0x26. -/
  | bootWatchdogExpiry
  /-- SPOOL_UNGATE (R375). SPOOL_CTL.UNGATE from a Thimble engine ungates every output in one AONCLK cycle. -/
  | spoolUngate (who : Agent) (data : BitVec 64)
  /-- SPOOL_RETRY (R378). SPOOL_CTL.RETRY excludes the slot, wipes engines and restarts slot choice. -/
  | spoolRetry (who : Agent) (data : BitVec 64)
  /-- SPOOL_FAIL (R381). A Thimble write of SPOOL_CTL.FAIL halts the device with the given failure code. -/
  | spoolFail (who : Agent) (data : BitVec 64)
  /-- FUSE_BURN_KEYHASH (R383). FUSE_PROG GO with FIELD 1 burns a key hash into an empty OEM slot. -/
  | fuseBurnKeyhash (who : Agent) (data : BitVec 64)
  /-- FUSE_BURN_REVOKE (R383). FUSE_PROG GO with FIELD 2 burns key revocation bits. -/
  | fuseBurnRevoke (who : Agent) (data : BitVec 64)
  /-- FUSE_BURN_SVN_T (R383). FUSE_PROG GO with FIELD 3 raises the Thimble SVN counter. -/
  | fuseBurnSvnT (who : Agent) (data : BitVec 64)
  /-- FUSE_BURN_SVN_P (R383). FUSE_PROG GO with FIELD 4 raises the Pattern SVN counter. -/
  | fuseBurnSvnP (who : Agent) (data : BitVec 64)
  /-- FUSE_BURN_DEBUG_POLICY (R383). FUSE_PROG GO with FIELD 5 sets debug policy bits. -/
  | fuseBurnDebugPolicy (who : Agent) (data : BitVec 64)
  /-- FUSE_BURN_FACTORY_KEY_OFF (R383). FUSE_PROG GO with FIELD 6 burns FACTORY_KEY_OFF. -/
  | fuseBurnFactoryKeyOff (who : Agent) (data : BitVec 64)
  /-- FUSE_BURN_COMPLETE (R383). A fuse burn finishes within 2 ms with read-back and up to four re-pulses. -/
  | fuseBurnComplete (took : Bool)
  /-- TIMER_TICK (R391). A running timer's prescaler expires and the timer ticks. -/
  | timerTick (t : Nat)
  /-- TIMER_MATCH (R395). An armed compare finds the count at or above TMR_CMP, sets MATCH and disarms or reloads. -/
  | timerMatch (t : Nat)
  /-- TMU_GO (R392). TMU_GO starts every named timer in one cycle. -/
  | tmuGo (who : Agent) (mask : BitVec 64)
  /-- TMU_HALT (R392). TMU_HALT stops every named timer in one cycle. -/
  | tmuHalt (who : Agent) (mask : BitVec 64)
  /-- TMU_SNAP (R394). TMU_SNAP copies the named timers' counts into TMR_SNAP and raises SNAP_SEQ. -/
  | tmuSnap (who : Agent) (mask : BitVec 64)
  /-- TMR_CMP_WRITE (R395). A write of TMR_CMP re-arms the compare for the same cycle. -/
  | tmrCmpWrite (who : Agent) (t : Nat) (data : BitVec 64)
  /-- TMR_MATCH_CLEAR (R395). Clearing TMR_STAT.MATCH re-arms the compare for the next cycle. -/
  | tmrMatchClear (who : Agent) (t : Nat)
  /-- TIMER_CAPTURE (R397). An accepted edge of the selected source latches the count into TMR_RISE or TMR_FALL. -/
  | timerCapture (t : Nat) (rising : Bool) (back : Nat)
  /-- TMR_CAPTURE_READ (R400). A hart read of TMR_RISE or TMR_FALL returns it and clears its NEW bit. -/
  | tmrCaptureRead (who : Agent) (t : Nat) (fall : Bool)
  /-- T00_STEP (R403). A write of TMU_T00_STEP adds a signed ns step to device time. -/
  | t00Step (who : Agent) (ns : BitVec 64)
  /-- PTP_TIMESTAMP (R404). A PTP event message sent or received is timestamped into its group's FIFO. -/
  | ptpTimestamp (g : Nat) (m : PtpMsg)
  /-- PTP_TIMESTAMP_POP (R404). A hart read of TMU_PTPTS_HI removes the entry. -/
  | ptpTimestampPop (who : Agent) (g : Nat)
  /-- PTM_REQUEST (R405). Every PERIOD_MS a host port sends a PTM Request. -/
  | ptmRequest (n : Nat)
  /-- PTM_RESPONSE (R405). A PTM ResponseD records T1, T4, master time and delay and raises SEQ. -/
  | ptmResponse (n : Nat) (withTime : Bool) (master : BitVec 64) (delay : BitVec 32)
  /-- PPS_FALL (R407). WIDTH_US after its rise the PPS pin falls. -/
  | ppsFall (k : Nat)
  /-- PWR_REQ_BASK (R411). PWR_REQ GO with STATE Bask requests a unit wake. -/
  | pwrReqBask (who : Agent) (data : BitVec 64)
  /-- PWR_REQ_DOZE (R411). PWR_REQ GO with STATE Doze requests Doze for a unit. -/
  | pwrReqDoze (who : Agent) (data : BitVec 64)
  /-- PWR_REQ_BRUMATE (R411). PWR_REQ GO with STATE Brumate requests Brumate for a unit. -/
  | pwrReqBrumate (who : Agent) (data : BitVec 64)
  /-- PWR_REQ_HOLD (R411). PWR_REQ GO with STATE Hold requests Hold for a panel. -/
  | pwrReqHold (who : Agent) (data : BitVec 64)
  /-- CROAK (R420). PWR_REQ.CROAK with GO sends the Croak pattern on a lane quad for 2 µs. -/
  | croak (who : Agent) (data : BitVec 64)
  /-- POWER_ENTRY_START (R410). A held sleep request whose conditions now hold begins the unit's entry. -/
  | powerEntryStart (u : Nat)
  /-- POINT_OF_NO_RETURN (R410). The power switches begin to open and the Brumate entry can no longer be cancelled. -/
  | pointOfNoReturn (u : Nat)
  /-- POWER_ENTRY_COMPLETE (R410). A unit finishes entering Doze, Brumate or Hold. -/
  | powerEntryComplete (u : Nat)
  /-- UNIT_WAKE (R416). An access, timer match or request to a sleeping unit stalls and starts its wake. -/
  | unitWake (u : Nat)
  /-- WAKE_READY (R415). A waking unit is restored and ready; harts start at PWR_WAKEVEC and stalled accesses complete. -/
  | wakeReady (u : Nat)
  /-- LANE_ACTIVITY_WAKE (R419). A signal above 75 mV for 100 ns on a Doze quad's receiver wakes it. -/
  | laneActivityWake (u : Nat)
  /-- CROAK_DETECT (R419). The Croak detector recognises the pattern and wakes an Ethernet or Galvel quad in Brumate. -/
  | croakDetect (u : Nat)
  /-- HOLD_ENTER (R422). PWR_HOLD.ENTER puts a panel in Hold until warm reset. -/
  | holdEnter (who : Agent) (data : BitVec 64)
  /-- SCAN_READ (R423). A read of PWR_SCAN_DATA returns 64 scan bits of a held panel after zeroing key registers. -/
  | scanRead (who : Agent)
  /-- MOULT_SLICE_TEST_START (R427). A scheduled Moult test of one SRAM slice starts its copy phase. -/
  | moultSliceTestStart (slice : Nat)
  /-- MOULT_REDIRECT (R425). After the copy, accesses are redirected to the spare on one MESHCLK edge. -/
  | moultRedirect (slice : Nat)
  /-- MOULT_MARCH_COMPLETE (R425). March C− on an isolated slice ends and the slice is released as spare or retired. -/
  | moultMarchComplete (slice : Nat) (fails : Bool)
  /-- MOULT_WAY_TEST (R426). A core tile tests one L1 or L2 way in place. -/
  | moultWayTest (tile level way : Nat)
  /-- SCRUB_READ (R438). Patrol scrub reads a DRAM line and writes it back corrected or poisoned. -/
  | scrubRead (c line : Nat) (err : EccErr)
  /-- DRAM_INIT_BLOCK (R435). A controller initialises the next 1 MiB block of its channel with zeros and check bits. -/
  | dramInitBlock (c : Nat)
  /-- DDR_POWER_DOWN (R436). After 1 µs without a command a controller puts its ranks in power-down. -/
  | ddrPowerDown (c : Nat)
  /-- THERMTRIP (R466). A sensor at Tj 115 °C for 10 µs drives THERMTRIP_N and TWIN_FAULT_OUT and holds the device in reset. -/
  | thermtrip
  /-- POR_N_FALL (R468). POR_N falling, at power-down or loss of supply, returns the device to power-on reset and takes precedence over a coinciding voltage-monitor trip. -/
  | porNFall
  /-- MACHINE_TIMER_INTERRUPT (R323). The 100 MHz time count reaching MTIMECMP[h], stimecmp or vstimecmp raises hart h's timer interrupt. -/
  | machineTimerInterrupt (h : Nat) (kind : TimerCmp)
  /-- HART_LOAD (R306). A hart load or fetch from memory is performed through its caches and home slice and checked by the Seam checker, taking an access fault on poison, refusal or an unbacked address. -/
  | hartLoad (h addr len : Nat) (fetch : Bool)
  /-- HART_STORE (R306). A hart store to memory retires, passes through the store buffer and is checked at its home slice, where a refusal drops it without exception and logs it. -/
  | hartStore (h addr : Nat) (bytes : List (BitVec 8))
  /-- WFI (R411). A hart executing WFI gates its clock, stops counting CORE_CYCLES and lets a pending mpowerreq or panel Doze request become eligible. -/
  | wfi (h : Nat)
  /-- CONFIG_SPACE_WRITE (R76). A host write to a function's PCIe configuration space changes NumVFs, PRI Enable, MSI-X Enable or similar capability fields, with the device effects the manual gives. -/
  | configSpaceWrite (f : Nat) (fld : CfgField)
  /-- HALT_REQUEST (R312). A debugger halt request to a hart or engine takes effect only under an open enable of its world, and otherwise has no effect. -/
  | haltRequest (t : Agent)
  /-- SYSTEM_BUS_ACCESS (R306). A Debug Module system-bus access is made with the world of the enable used and, if refused, ends with abstract command error cmderr 3. -/
  | systemBusAccess (en : DbgEnable) (addr : Nat) (wr : Option (List (BitVec 8))) (len : Nat)
  deriving DecidableEq, Repr

end Sys2Proof
end

