-- ==== Sys2Proof/Config.lean ====
section
/-!
DEFINITION. Config.lean: what the spec leaves open. Every constant here is opaque: it has no body, so no proof can
see what it is, and a statement holds whatever it is. Each is named in the assumption log.
-/

namespace Sys2Proof

/-- The n-th free value that a run takes (State.freeCtr counts them): where the spec says that some value results and not which. -/
opaque Config.free : Nat → Nat

/-- Byte `i` of the n-th free value, for values of more than one word (signatures, certificates, random draws). -/
opaque Config.freeByte : Nat → Nat → BitVec 8

/-- The host physical address that a host's own IOMMU gives an untranslated address: port, function, PASID + 1 (0: none), IOVA. -/
opaque Config.hostIommu : Nat → Nat → Nat → Nat → Nat

/-- The host physical address that an offset of a host port's outbound window reaches (R28): the spec gives the window and no mapping. -/
opaque Config.outbound : Nat → Nat → Nat

/-- The device IOMMU's walk (RISC-V IOMMU 1.0, outside the spec): local channel, process ID + 1 (0: none), IOVA, write, draw. The answer is a
cause (0: no fault) and a physical page. -/
opaque Config.iommuWalk : Nat → Nat → Nat → Bool → Nat → Nat × Nat

/-- Fused values: TOP_SERIAL, and the other fuse contents of a new part by fuse register offset. -/
opaque Config.serial : BitVec 64
opaque Config.fuse : Nat → BitVec 64

/-- The unique device secret (R317), 32 bytes by index: only the key derivation unit reads it. -/
opaque Config.uds : Nat → BitVec 8

/-- The SENDER value that the factory sender key is bound to (R319): the provisioning record gives it. -/
opaque Config.factorySender : Nat

/-- Whether a field of the fuse array reads uncorrectable (R382), and whether the board supplies VPP_FUSE (R383), at a draw. -/
opaque Config.fuseBad : Nat → Bool
opaque Config.vppOk : Nat → Bool

/-- The VDD_CORE target fused at test, and the voltage measured at the die, in mV (R453); FEC codewords that the Galvel link has corrected (Table 09-22). -/
opaque Config.avsTarget : Nat
opaque Config.avsMeas : Nat → Nat
opaque Config.fecCorr : Nat → Nat

/-- The feature mask of a firmware release beside bit 0 (R295), by its Pattern header: release notes give it. -/
opaque Config.features : List (BitVec 8) → BitVec 64

/-- The boot flash devices: capacity in MiB (none: the device does not answer or is unsuited, R368), and what their bytes first hold. -/
opaque Config.flashMiB : Nat → Option Nat
opaque Config.flashByte : Nat → Nat → BitVec 8

/-- Signature checks of FIPS 186-5 and FIPS 204, which the spec names and does not restate: public key, message, signature. -/
opaque Config.ecdsaOk : List (BitVec 8) → List (BitVec 8) → List (BitVec 8) → Bool
opaque Config.mldsaOk : List (BitVec 8) → List (BitVec 8) → List (BitVec 8) → Bool

/-- FN_CONFIG's parameter layout is not in the spec: the register values that a parameter list stages, or none where malformed. -/
opaque Config.fnConfigEntries : List (BitVec 8) → Option (List (Nat × BitVec 64))
/-- FN_RESET's parameter layout is not in the spec: the function that a parameter list names. -/
opaque Config.fnResetFunction : List (BitVec 8) → Option Nat

/-- SELV_READ's parameter layout is not in the spec: the table, whether the session's view is asked for, and the entries (index, image). -/
opaque Config.selvReadParams : List (BitVec 8) → Option (Nat × Bool × List (Nat × List (BitVec 8)))

/-- The bucket of the DRAM flow table (R181) that a flow key's first or second hash names, of so many buckets. The hash is not in the spec. -/
opaque Config.flowBucket : List (BitVec 8) → Nat → Bool → Nat

/-- What a security association's 128 B entry says (R194). -/
structure SaCfg where
  spi : Nat
  outbound : Bool
  tunnel : Bool
  esn : Bool
  key : List (BitVec 8)
  salt : List (BitVec 8)
  byteLife : Nat
  pktLife : Nat
  tunHdr : List (BitVec 8)
  tsid : Nat
  deriving DecidableEq, Repr, Inhabited

/-- The layout of an SA entry is not in the spec: its fields, and whether a byte of it is a key byte, which reads 0. -/
opaque Config.saDecode : List (BitVec 8) → SaCfg
opaque Config.saKeyByte : Nat → Bool

/-- The rate of a host port in MB/s, by lanes and PCIe generation code: rule C05 names it and the spec gives no figure. -/
opaque Config.portRate : Nat → Nat → Nat

/-- Whether the OEM image declares an opcode, and declares it critical (R48). -/
opaque Config.oemKnown : Nat → Bool
opaque Config.oemCritical : Nat → Bool

/-- Results of the big-number unit that the spec names by their standards alone (P-384 scalar multiplication, NTT, its inverse, the product of
polynomials; R360): command, byte i of the result, from the operands. -/
opaque Config.bigResult : Nat → List (BitVec 8) → Nat → BitVec 8

/-- The attestation public keys of a KEYGEN (R317), P-384 x and y then ML-DSA-65, by byte: they follow from the device secret. -/
opaque Config.attestPub : Nat → Nat → BitVec 8

/-- The DER certificates that ATTEST appends (R56) and SPDM's certificate slot 0 (R320), by KEYGEN. -/
opaque Config.attestCerts : Nat → List (BitVec 8)
opaque Config.spdmChain : Nat → List (BitVec 8)

end Sys2Proof
end

