-- ==== Sys2Proof/Machine/Map.lean ====
section
/-!
DEFINITION. Map.lean: sparse data by key in one canonical form: keys strictly rising, and no entry equal to what an
unlisted key reads as. Memory is such a map of bytes.
-/

namespace Sys2Proof.Machine

/-- Sparse data by key. -/
abbrev SMap (α : Type) : Type := List (Nat × α)

/-- What key `k` holds; `d` is what an unlisted key reads as. -/
def smGet {α : Type} (d : α) : SMap α → Nat → α
  | [], _ => d
  | (k, v) :: m, i => if i = k then v else smGet d m i

/-- The map with key `i` removed. -/
def smDel {α : Type} : SMap α → Nat → SMap α
  | [], _ => []
  | (k, v) :: m, i => if i = k then smDel m i else (k, v) :: smDel m i

/-- The map with key `i` listed with value `a`. -/
def smIns {α : Type} : SMap α → Nat → α → SMap α
  | [], i, a => [(i, a)]
  | (k, v) :: m, i, a =>
    if i = k then (i, a) :: m
    else if i < k then (i, a) :: (k, v) :: m
    else (k, v) :: smIns m i a

/-- Write key `i`: writing the value an unlisted key reads as removes the entry. -/
def smPut {α : Type} [DecidableEq α] (d : α) (m : SMap α) (i : Nat) (a : α) : SMap α :=
  if a = d then smDel m i else smIns m i a

/-- The keys rise strictly from `lo`. -/
def smRising {α : Type} : Nat → SMap α → Bool
  | _, [] => true
  | lo, (k, _) :: m => decide (lo ≤ k) && smRising (k + 1) m

/-- The canonical form over a default that can depend on the key. -/
def smWf {α : Type} [DecidableEq α] (d : Nat → α) (m : SMap α) : Bool :=
  smRising 0 m && m.all fun e => decide (e.2 ≠ d e.1)

/-- Memory: bytes by address. -/
abbrev Memory : Type := List Host.Cell

/-- What a byte that nothing has written reads as. DESIGN CHOICE (log entry 2): the spec gives no power-on content. -/
def Memory.unwritten : Byte := 0

/-- One byte of a memory. -/
def Memory.read (m : Memory) (a : Nat) : Byte := smGet Memory.unwritten m a

/-- A memory with one byte written. -/
def Memory.write (m : Memory) (a : Nat) (b : Byte) : Memory := smPut Memory.unwritten m a b

/-- The canonical form of a memory. -/
def Memory.wf (m : Memory) : Bool := smWf (fun _ => Memory.unwritten) m

/-- `n` bytes from address `a`. -/
def Memory.readN (m : Memory) (a n : Nat) : List Byte := (List.range n).map fun i => Memory.read m (a + i)

/-- Write a byte list from address `a` up. -/
def Memory.writeN (m : Memory) (a : Nat) : List Byte → Memory
  | [] => m
  | b :: bs => Memory.writeN (Memory.write m a b) (a + 1) bs

end Sys2Proof.Machine
end

