-- ==== Sys2Proof/Machine/Codes.lean ====
section
/-!
DEFINITION. Codes.lean: the status codes of 02_onafaet_baste_stitch.md, under the spec's names less the prefix E_, and
the packet reasons of Table 06-15.
-/

namespace Sys2Proof.Machine

/-- MAGIC wrong. -/
abbrev E.BAD_MAGIC : Nat := 0x0101
/-- VER not supported. -/
abbrev E.BAD_VERSION : Nat := 0x0102
/-- Header CRC wrong. -/
abbrev E.HCRC : Nat := 0x0103
/-- Parameter CRC wrong. -/
abbrev E.PCRC : Nat := 0x0104
/-- Opcode unknown. -/
abbrev E.BAD_OPCODE : Nat := 0x0105
/-- PLEN wrong. -/
abbrev E.BAD_LENGTH : Nat := 0x0106
/-- Parameter malformed. -/
abbrev E.PARAM : Nat := 0x0107
/-- Parameter out of range. -/
abbrev E.PARAM_RANGE : Nat := 0x0108
/-- Resource busy; retry. -/
abbrev E.BUSY : Nat := 0x0109
/-- Awaited response not received. -/
abbrev E.TIMEOUT : Nat := 0x010A
/-- Multi-packet sequence broken. -/
abbrev E.SEQ : Nat := 0x010B
/-- Opcode requires CRIT. -/
abbrev E.NOT_CRITICAL : Nat := 0x010C
/-- Opcode not permitted on this channel. -/
abbrev E.CHANNEL : Nat := 0x010D
/-- MAC wrong. -/
abbrev E.MAC : Nat := 0x0201
/-- CTR not above the last accepted value. -/
abbrev E.REPLAY : Nat := 0x0202
/-- Sender unknown or on the wrong channel. -/
abbrev E.SENDER : Nat := 0x0203
/-- Sender or session not entitled. -/
abbrev E.PRIVILEGE : Nat := 0x0204
/-- Key slot revoked. -/
abbrev E.KEY_REVOKED : Nat := 0x0205
/-- Debug or feature locked. -/
abbrev E.LOCKED : Nat := 0x0206
/-- QP pool exhausted. -/
abbrev E.NO_QP : Nat := 0x0301
/-- No VF context free. -/
abbrev E.NO_VF : Nat := 0x0302
/-- Billing account invalid. -/
abbrev E.NO_ACCOUNT : Nat := 0x0303
/-- Staging or table memory exhausted. -/
abbrev E.NO_MEMORY : Nat := 0x0304
/-- Selvedge table full. -/
abbrev E.TABLE_FULL : Nat := 0x0305
/-- Internal queue full. -/
abbrev E.QUEUE_FULL : Nat := 0x0306
/-- Block claimed by the Lining. -/
abbrev E.CLAIMED : Nat := 0x0307
/-- LEN exceeds the described buffer. -/
abbrev E.LEN_OVERRUN : Nat := 0x0401
/-- Page request refused. -/
abbrev E.PAGE_DENIED : Nat := 0x0402
/-- Doorbell value beyond ring depth. -/
abbrev E.DOORBELL_RANGE : Nat := 0x0403
/-- Device IOMMU fault not resolved. -/
abbrev E.IOMMU_FAULT : Nat := 0x0404
/-- Translation request failed. -/
abbrev E.ATS_FAIL : Nat := 0x0405
/-- Poisoned data reached. -/
abbrev E.POISON : Nat := 0x0406
/-- SGL malformed. -/
abbrev E.SGL_FORMAT : Nat := 0x0407
/-- SGL exceeds 256 segments. -/
abbrev E.SGL_DEPTH : Nat := 0x0408
/-- Compare transform mismatch. -/
abbrev E.COMPARE : Nat := 0x0409
/-- CRC transform mismatch. -/
abbrev E.CRC_MISMATCH : Nat := 0x040A
/-- Dirty-page log overflow. -/
abbrev E.LOG_OVERFLOW : Nat := 0x040B
/-- Received packet truncated. -/
abbrev E.TRUNCATED : Nat := 0x040C
/-- PCIe completion timeout. -/
abbrev E.CPL_TIMEOUT : Nat := 0x040D
/-- QP revoked while work was pending. -/
abbrev E.REVOKED : Nat := 0x040E
/-- Seam checker refused the access. -/
abbrev E.SEAM : Nat := 0x040F
/-- A fenced request's predecessor failed. -/
abbrev E.FENCE_ABORT : Nat := 0x0501
/-- Another session is open. -/
abbrev E.BASTE_BUSY : Nat := 0x0502
/-- No such session. -/
abbrev E.BASTE_NONE : Nat := 0x0503
/-- Staged state changed since the last check. -/
abbrev E.BASTE_STALE : Nat := 0x0504
/-- Consistency rules violated. -/
abbrev E.BASTE_CHECK : Nat := 0x0505
/-- Object held by a checked session. -/
abbrev E.BASTE_LOCKED : Nat := 0x0506
/-- Stitch time not in the future. -/
abbrev E.STITCH_LATE : Nat := 0x0507
/-- Session awaits its stitch edge. -/
abbrev E.BASTE_ARMED : Nat := 0x0508
/-- Peer twin did not confirm in time. -/
abbrev E.TWIN_UNSYNC : Nat := 0x0509
/-- Command not valid in this twin role. -/
abbrev E.TWIN_ROLE : Nat := 0x050A
/-- Mirror schema majors differ. -/
abbrev E.SCHEMA : Nat := 0x050B
/-- Device is fenced. -/
abbrev E.FENCED : Nat := 0x050C
/-- Feature outside the common feature set. -/
abbrev E.FEATURE_GATED : Nat := 0x050D
/-- Signature check failed. -/
abbrev E.SIG : Nat := 0x0601
/-- Image SVN below the fuse counter. -/
abbrev E.SVN : Nat := 0x0602
/-- Image header malformed. -/
abbrev E.IMAGE_FORMAT : Nat := 0x0603
/-- Flash access failed. -/
abbrev E.FLASH : Nat := 0x0604
/-- Configuration block failed its check word or HMAC. -/
abbrev E.CFG_CHECK : Nat := 0x0605
/-- Request not valid in the current power state. -/
abbrev E.POWER_STATE : Nat := 0x0701
/-- Refused at the current temperature. -/
abbrev E.THERMAL : Nat := 0x0702
/-- Slice failed March test. -/
abbrev E.MOULT_FAIL : Nat := 0x0801
/-- No spare slice left. -/
abbrev E.NO_SPARE : Nat := 0x0802
/-- Power-on self-test failed. -/
abbrev E.BIST : Nat := 0x0803

/-! ### Reasons (Table 06-15) -/

/-- DISABLED. -/
abbrev Rsn.DISABLED : Nat := 0x01
/-- PARSE_ERROR. -/
abbrev Rsn.PARSE_ERROR : Nat := 0x02
/-- PARSE_LIMIT. -/
abbrev Rsn.PARSE_LIMIT : Nat := 0x03
/-- TENANT_MISS. -/
abbrev Rsn.TENANT_MISS : Nat := 0x04
/-- SPOOF. -/
abbrev Rsn.SPOOF : Nat := 0x05
/-- VPORT_OFF. -/
abbrev Rsn.VPORT_OFF : Nat := 0x06
/-- NO_RULE. -/
abbrev Rsn.NO_RULE : Nat := 0x07
/-- ACL_DENY. -/
abbrev Rsn.ACL_DENY : Nat := 0x08
/-- CT_INVALID. -/
abbrev Rsn.CT_INVALID : Nat := 0x09
/-- CT_FULL. -/
abbrev Rsn.CT_FULL : Nat := 0x0A
/-- ACTION_ERR. -/
abbrev Rsn.ACTION_ERR : Nat := 0x0B
/-- TTL_EXPIRED. -/
abbrev Rsn.TTL_EXPIRED : Nat := 0x0C
/-- POLICED. -/
abbrev Rsn.POLICED : Nat := 0x0D
/-- IPSEC_AUTH. -/
abbrev Rsn.IPSEC_AUTH : Nat := 0x0E
/-- IPSEC_REPLAY. -/
abbrev Rsn.IPSEC_REPLAY : Nat := 0x0F
/-- SA_EXPIRED. -/
abbrev Rsn.SA_EXPIRED : Nat := 0x10
/-- MISS_FULL. -/
abbrev Rsn.MISS_FULL : Nat := 0x12
/-- MISS_AGE. -/
abbrev Rsn.MISS_AGE : Nat := 0x13
/-- OVERSIZE. -/
abbrev Rsn.OVERSIZE : Nat := 0x14
/-- NO_QUEUE. -/
abbrev Rsn.NO_QUEUE : Nat := 0x15
/-- HOLD_FULL. -/
abbrev Rsn.HOLD_FULL : Nat := 0x16
/-- BUF_FULL. -/
abbrev Rsn.BUF_FULL : Nat := 0x17
/-- PFC_OVERRUN. -/
abbrev Rsn.PFC_OVERRUN : Nat := 0x18
/-- EXQ_FULL. -/
abbrev Rsn.EXQ_FULL : Nat := 0x19
/-- EXQ_RATE. -/
abbrev Rsn.EXQ_RATE : Nat := 0x1A
/-- MAC_ERR. -/
abbrev Rsn.MAC_ERR : Nat := 0x1B
/-- NO_FWD. -/
abbrev Rsn.NO_FWD : Nat := 0x1C

end Sys2Proof.Machine
end

