-- ==== Sys2Proof/Machine/Bits.lean ====
section
/-!
DEFINITION. Bits.lean: bit fields of a 64-bit register, byte order, and small arithmetic helpers.
-/

namespace Sys2Proof.Machine

/-- A field of the register at control-space offset `off`: its lowest bit and its width. -/
structure Fld where
  off : Nat
  lo : Nat
  w : Nat
  deriving DecidableEq, Repr

/-- Bits `lo` to `lo + w - 1` of a number. -/
def bitsOf (x lo w : Nat) : Nat := (x >>> lo) % 2 ^ w

/-- Bits `lo` to `lo + w - 1` of a register word. -/
def getBits (x : W64) (lo w : Nat) : Nat := bitsOf x.toNat lo w

/-- One bit of a register word. -/
def getBit (x : W64) (i : Nat) : Bool := x.getLsbD i

/-- A mask of `w` ones from bit `lo`. -/
def maskOf (lo w : Nat) : W64 := BitVec.ofNat 64 ((2 ^ w - 1) <<< lo)

/-- A register word with bits `lo` to `lo + w - 1` replaced by the low bits of `v`. -/
def setBits (x : W64) (lo w v : Nat) : W64 :=
  (x &&& ~~~ maskOf lo w) ||| BitVec.ofNat 64 ((v % 2 ^ w) <<< lo)

/-- 1 for true, 0 for false. -/
def b2n (b : Bool) : Nat := if b then 1 else 0

/-- `n` little-endian bytes of a number. -/
def leBytes : Nat → Nat → List Byte
  | 0, _ => []
  | n + 1, v => BitVec.ofNat 8 v :: leBytes n (v / 256)

/-- The number that little-endian bytes spell. -/
def leNat : List Byte → Nat
  | [] => 0
  | b :: bs => b.toNat + 256 * leNat bs

/-- `n` big-endian bytes of a number. -/
def beBytes (n v : Nat) : List Byte := (leBytes n v).reverse

/-- The number that big-endian bytes spell. -/
def beNat (l : List Byte) : Nat := leNat l.reverse

/-- `n` little-endian bytes from byte `i` of a list, as a number; bytes past the end count as 0. -/
def leAt (l : List Byte) (i n : Nat) : Nat := leNat ((l.drop i).take n)

/-- `n` big-endian bytes from byte `i` of a list, as a number. -/
def beAt (l : List Byte) (i n : Nat) : Nat := beNat ((l.drop i).take n)

/-- `n` bytes of value 0. -/
def zeros (n : Nat) : List Byte := List.replicate n 0

/-- A list cut or padded with zeros to `n` bytes. -/
def padTo (n : Nat) (l : List Byte) : List Byte := l.take n ++ zeros (n - l.length)

/-- `v` rounded up to a multiple of `m`. -/
def alignUp (v m : Nat) : Nat := (v + m - 1) / m * m

/-- `v` rounded down to a multiple of `m`. -/
def alignDown (v m : Nat) : Nat := v / m * m

/-- How many bits of a number are 1, of its low `w`. -/
def popCount : Nat → Nat → Nat
  | 0, _ => 0
  | w + 1, v => v % 2 + popCount w (v / 2)

/-- The numbers of the bits that are 1, of the low `w`, lowest first. -/
def bitList (w v : Nat) : List Nat := (List.range w).filter fun i => v.testBit i

/-- Signed value of the low `w` bits. -/
def toSigned (w v : Nat) : Int :=
  let u := v % 2 ^ w
  if 2 * u < 2 ^ w then (u : Int) else (u : Int) - 2 ^ w

/-- One's complement sum of 16-bit big-endian words, an odd last byte padded with 0. -/
def onesSum : List Byte → Nat → Nat
  | a :: b :: rest, acc =>
    let t := acc + a.toNat * 256 + b.toNat
    onesSum rest (t % 65536 + t / 65536)
  | [a], acc =>
    let t := acc + a.toNat * 256
    t % 65536 + t / 65536
  | [], acc => acc

/-- The Internet checksum of a byte list. -/
def inetSum (l : List Byte) : Nat := 65535 - onesSum l 0

/-- Replace element `i` of a list, growing nothing. -/
def setAt {α : Type} (l : List α) (i : Nat) (a : α) : List α := l.set i a

end Sys2Proof.Machine
end

