-- ==== Sys2Proof/Machine/Regs.lean ====
section
/-!
DEFINITION. Regs.lean: the registers of the control space (Table 01-6): where each stands, its reset domain and world
tag (R8, R9), its fields with access code (Table 00-4) and reset value, and a name for every field. Made from the
register tables of the spec, each cited at its row. A basted register (RWB) is named by its live copy; its staged copy stands at the offset the
table gives and its live copy `live` bytes above.
-/

namespace Sys2Proof.Machine

/-- The access codes of Table 00-4. -/
inductive Acc where
  | rw | ro | wo | w1c | w1s | rws | rwb
  deriving DecidableEq, Repr

/-- Who may access a register: the world tags of Table 00-6, and the two cases where another register decides
(a local channel's window by SHUT_LCWORLD, a timer's block by TMU_WORLD). -/
inductive RegTag where
  | l | s | a | byLcWorld | byTmuWorld
  deriving DecidableEq, Repr

/-- A field: lowest bit, width, access code, reset value. -/
structure FldDef where
  lo : Nat
  w : Nat
  acc : Acc
  reset : Nat
  deriving DecidableEq, Repr

/-- A register or an array of them: base offset, (stride, count) of each index from the outermost, whether it is of the
COLD domain, its tag, how far above the staged copy the live copy stands (RWB only), and its fields. -/
structure RegDef where
  base : Nat
  dims : List (Nat × Nat)
  cold : Bool
  tag : RegTag
  live : Option Nat
  flds : List FldDef
  deriving DecidableEq, Repr

/-- Whether a distance from the base is a place of the array. -/
def inDims : List (Nat × Nat) → Nat → Bool
  | [], o => o == 0
  | (st, c) :: ds, o => decide (o / st < c) && inDims ds (o % st)

/-- Registers 1 to 20 of the table, by offset. -/
def regTable0 : List RegDef := [
  ⟨0x0, [], true, .a, none, [⟨0, 16, .ro, 0x4851⟩, ⟨16, 16, .ro, 0x6240⟩, ⟨32, 8, .ro, 0xa1⟩, ⟨40, 4, .ro, 4⟩]⟩,  -- TOP_ID, 01_panels_tiles_clocks.md Table 01-7
  ⟨0x8, [], true, .a, none, [⟨0, 64, .ro, 0⟩]⟩,  -- TOP_SERIAL, 01_panels_tiles_clocks.md Table 01-8
  ⟨0x10, [], false, .s, none, [⟨0, 6, .ro, 0⟩, ⟨6, 1, .ro, 0⟩, ⟨7, 1, .ro, 0⟩, ⟨8, 4, .ro, 0⟩, ⟨12, 1, .w1c, 0⟩, ⟨13, 1, .w1c, 0⟩, ⟨14, 1, .w1c, 0⟩, ⟨15, 1, .w1c, 0⟩, ⟨16, 2, .ro, 0⟩]⟩,  -- TOP_STATUS, 01_panels_tiles_clocks.md Table 01-9
  ⟨0x18, [], false, .l, none, [⟨0, 1, .wo, 0⟩, ⟨16, 16, .wo, 0⟩]⟩,  -- TOP_RESET, 01_panels_tiles_clocks.md Table 01-10
  ⟨0x20, [], true, .s, none, [⟨0, 1, .w1c, 1⟩, ⟨1, 1, .w1c, 0⟩, ⟨2, 1, .w1c, 0⟩, ⟨3, 1, .w1c, 0⟩, ⟨4, 1, .w1c, 0⟩, ⟨5, 1, .w1c, 0⟩, ⟨6, 1, .w1c, 0⟩]⟩,  -- TOP_RSTCAUSE, 01_panels_tiles_clocks.md Table 01-11
  ⟨0x28, [], false, .s, none, [⟨0, 1, .ro, 1⟩, ⟨1, 1, .ro, 1⟩, ⟨2, 1, .ro, 0⟩, ⟨4, 8, .ro, 0⟩, ⟨16, 4, .ro, 0⟩, ⟨20, 4, .ro, 0⟩, ⟨24, 4, .ro, 0⟩, ⟨28, 4, .ro, 0⟩]⟩,  -- TOP_CLKSTAT, 01_panels_tiles_clocks.md Table 01-12
  ⟨0x30, [], false, .s, none, [⟨0, 1, .rw, 0⟩, ⟨1, 1, .rw, 0⟩, ⟨2, 1, .rw, 0⟩, ⟨3, 1, .rw, 0⟩]⟩,  -- TOP_INTEN, 01_panels_tiles_clocks.md Table 01-13
  ⟨0x100, [], false, .l, none, [⟨0, 1, .rw, 0⟩, ⟨1, 1, .w1s, 0⟩, ⟨2, 1, .ro, 0⟩, ⟨3, 1, .ro, 0⟩, ⟨4, 1, .ro, 0⟩]⟩,  -- SC_CTL, 11_anole_cores.md Table 11-14
  ⟨0x140, [(8, 16)], false, .l, none, [⟨0, 16, .rw, 0xffff⟩]⟩,  -- SC_WAYMASK, 11_anole_cores.md Table 11-15
  ⟨0x200, [(8, 64)], false, .l, none, [⟨0, 14, .rw, 0⟩, ⟨16, 4, .rw, 0⟩, ⟨20, 1, .rw, 0⟩]⟩,  -- SC_VMAP, 11_anole_cores.md Table 11-16
  ⟨0x100000, [], false, .s, none, [⟨0, 6, .rw, 0⟩, ⟨8, 2, .rw, 0⟩, ⟨10, 1, .w1s, 0⟩, ⟨16, 1, .w1s, 0⟩, ⟨17, 1, .ro, 0⟩, ⟨32, 16, .ro, 0⟩]⟩,  -- PWR_REQ, 15_power_moult.md Table 15-9
  ⟨0x100008, [], false, .s, none, [⟨0, 1, .w1c, 0⟩, ⟨1, 1, .w1c, 0⟩, ⟨2, 1, .w1c, 0⟩, ⟨8, 1, .rw, 0⟩, ⟨16, 6, .ro, 0⟩]⟩,  -- PWR_STATUS, 15_power_moult.md Table 15-10
  ⟨0x100010, [], false, .a, none, [⟨0, 64, .ro, 0⟩]⟩,  -- PWR_STATE0, 15_power_moult.md Table 15-11
  ⟨0x100018, [], false, .a, none, [⟨0, 40, .ro, 0⟩]⟩,  -- PWR_STATE1, 15_power_moult.md Table 15-11
  ⟨0x100020, [], false, .l, none, [⟨0, 56, .rw, 0⟩]⟩,  -- PWR_WAKEVEC, 15_power_moult.md Table 15-12
  ⟨0x100028, [], false, .l, none, [⟨0, 4, .w1s, 0⟩, ⟨4, 4, .ro, 0⟩]⟩,  -- PWR_HOLD, 15_power_moult.md Table 15-13
  ⟨0x100030, [], false, .l, none, [⟨0, 2, .rw, 0⟩, ⟨8, 8, .rw, 0⟩, ⟨16, 32, .rw, 0⟩]⟩,  -- PWR_SCAN_SEL, 15_power_moult.md Table 15-14
  ⟨0x100038, [], false, .l, none, [⟨0, 64, .ro, 0⟩]⟩,  -- PWR_SCAN_DATA, 15_power_moult.md Table 15-14
  ⟨0x100040, [], true, .a, none, [⟨0, 10, .ro, 0⟩, ⟨16, 10, .ro, 0⟩]⟩,  -- PWR_AVS, 17_balls_electrical.md Table 17-9
  ⟨0x100200, [], false, .l, none, [⟨0, 64, .rw, 1⟩]⟩  -- PWR_CLAIM_HART, 10_lining_shell.md Table 10-10
]

/-- Registers 21 to 40 of the table, by offset. -/
def regTable1 : List RegDef := [
  ⟨0x100208, [], false, .l, none, [⟨0, 36, .rw, 0x402010080⟩]⟩,  -- PWR_CLAIM_BLK, 10_lining_shell.md Table 10-11
  ⟨0x200000, [], false, .s, none, [⟨0, 1, .w1c, 0⟩, ⟨1, 5, .ro, 0⟩, ⟨6, 6, .w1c, 0⟩, ⟨16, 32, .ro, 0⟩]⟩,  -- TMU_STATUS, 14_timers.md Table 14-6
  ⟨0x200008, [], false, .s, none, [⟨0, 64, .wo, 0⟩]⟩,  -- TMU_GO, 14_timers.md Table 14-7
  ⟨0x200010, [], false, .s, none, [⟨0, 64, .wo, 0⟩]⟩,  -- TMU_HALT, 14_timers.md Table 14-7
  ⟨0x200018, [], false, .s, none, [⟨0, 64, .wo, 0⟩]⟩,  -- TMU_SNAP, 14_timers.md Table 14-7
  ⟨0x200020, [], false, .s, none, [⟨0, 64, .ro, 1⟩]⟩,  -- TMU_RUN, 14_timers.md Table 14-7
  ⟨0x200028, [], false, .l, none, [⟨0, 64, .rw, 1⟩]⟩,  -- TMU_WORLD, 14_timers.md Table 14-8
  ⟨0x200040, [], true, .l, none, [⟨0, 40, .rw, 0x140000000⟩]⟩,  -- TMU_T00_RATE, 14_timers.md Table 14-9
  ⟨0x200048, [], false, .l, none, [⟨0, 64, .wo, 0⟩]⟩,  -- TMU_T00_STEP, 14_timers.md Table 14-9
  ⟨0x200050, [], false, .l, none, [⟨0, 1, .rw, 0⟩, ⟨1, 1, .ro, 1⟩]⟩,  -- TMU_T00_CTL, 14_timers.md Table 14-9
  ⟨0x200060, [(8, 2)], false, .l, none, [⟨0, 1, .rw, 0⟩, ⟨1, 1, .rw, 0⟩, ⟨16, 16, .rw, 0x64⟩]⟩,  -- TMU_PPS, 14_timers.md Table 14-10
  ⟨0x210000, [(64, 64)], false, .byTmuWorld, none, [⟨0, 16, .rw, 0⟩, ⟨16, 6, .rw, 0x3f⟩, ⟨22, 1, .rw, 0⟩, ⟨23, 4, .rw, 0⟩, ⟨27, 1, .rw, 0⟩, ⟨28, 1, .rw, 0⟩, ⟨29, 1, .rw, 0⟩, ⟨30, 1, .rw, 0⟩, ⟨32, 32, .rw, 0⟩]⟩,  -- TMR_CFG, 14_timers.md Table 14-11
  ⟨0x210008, [(64, 64)], false, .byTmuWorld, none, [⟨0, 64, .rw, 0⟩]⟩,  -- TMR_COUNT, 14_timers.md Table 14-11
  ⟨0x210010, [(64, 64)], false, .byTmuWorld, none, [⟨0, 64, .rw, 0xffffffffffffffff⟩]⟩,  -- TMR_CMP, 14_timers.md Table 14-11
  ⟨0x210018, [(64, 64)], false, .byTmuWorld, none, [⟨0, 64, .ro, 0⟩]⟩,  -- TMR_RISE, 14_timers.md Table 14-11
  ⟨0x210020, [(64, 64)], false, .byTmuWorld, none, [⟨0, 64, .ro, 0⟩]⟩,  -- TMR_FALL, 14_timers.md Table 14-11
  ⟨0x210028, [(64, 64)], false, .byTmuWorld, none, [⟨0, 64, .ro, 0⟩]⟩,  -- TMR_WIDTH, 14_timers.md Table 14-11
  ⟨0x210030, [(64, 64)], false, .byTmuWorld, none, [⟨0, 64, .ro, 0⟩]⟩,  -- TMR_SNAP, 14_timers.md Table 14-11
  ⟨0x210038, [(64, 64)], false, .byTmuWorld, none, [⟨0, 1, .w1c, 0⟩, ⟨1, 1, .w1c, 0⟩, ⟨2, 1, .w1c, 0⟩, ⟨3, 1, .w1c, 0⟩, ⟨4, 1, .w1c, 0⟩, ⟨5, 1, .w1c, 0⟩, ⟨6, 1, .w1c, 0⟩, ⟨7, 1, .ro, 0⟩]⟩,  -- TMR_STAT, 14_timers.md Table 14-11
  ⟨0x220000, [(16, 6)], false, .s, none, [⟨0, 64, .ro, 0⟩]⟩  -- TMU_PTPTS_LO, 14_timers.md Table 14-12
]

/-- Registers 41 to 60 of the table, by offset. -/
def regTable2 : List RegDef := [
  ⟨0x220008, [(16, 6)], false, .s, none, [⟨0, 16, .ro, 0⟩, ⟨16, 4, .ro, 0⟩, ⟨20, 8, .ro, 0⟩, ⟨28, 6, .ro, 0⟩, ⟨34, 1, .ro, 0⟩, ⟨35, 1, .ro, 0⟩]⟩,  -- TMU_PTPTS_HI, 14_timers.md Table 14-12
  ⟨0x230000, [(64, 32)], false, .s, none, [⟨0, 16, .rw, 0⟩]⟩,  -- TMU_PTM_CTL, 14_timers.md Table 14-13
  ⟨0x230008, [(64, 32)], false, .s, none, [⟨0, 64, .ro, 0⟩]⟩,  -- TMU_PTM_T1, 14_timers.md Table 14-13
  ⟨0x230010, [(64, 32)], false, .s, none, [⟨0, 64, .ro, 0⟩]⟩,  -- TMU_PTM_T4, 14_timers.md Table 14-13
  ⟨0x230018, [(64, 32)], false, .s, none, [⟨0, 64, .ro, 0⟩]⟩,  -- TMU_PTM_MASTER, 14_timers.md Table 14-13
  ⟨0x230020, [(64, 32)], false, .s, none, [⟨0, 32, .ro, 0⟩, ⟨32, 16, .ro, 0⟩]⟩,  -- TMU_PTM_STAT, 14_timers.md Table 14-13
  ⟨0x300000, [], false, .l, none, [⟨0, 1, .w1c, 0⟩, ⟨1, 1, .w1c, 0⟩, ⟨8, 1, .rw, 0⟩, ⟨16, 32, .ro, 0⟩]⟩,  -- SEAM_STATUS, 10_lining_shell.md Table 10-12
  ⟨0x300008, [], false, .l, none, [⟨0, 1, .w1c, 0⟩, ⟨1, 2, .ro, 0⟩, ⟨3, 1, .ro, 0⟩, ⟨4, 4, .ro, 0⟩, ⟨8, 4, .ro, 0⟩, ⟨16, 16, .ro, 0⟩, ⟨32, 7, .ro, 0⟩]⟩,  -- SEAM_LOG0, 10_lining_shell.md Table 10-13
  ⟨0x300010, [], false, .l, none, [⟨0, 64, .ro, 0⟩]⟩,  -- SEAM_LOG1, 10_lining_shell.md Table 10-14
  ⟨0x300018, [], false, .l, none, [⟨0, 64, .ro, 0⟩]⟩,  -- SEAM_LOG2, 10_lining_shell.md Table 10-14
  ⟨0x300020, [], false, .l, none, [⟨0, 48, .rw, 0⟩]⟩,  -- SEAM_GPIOW, 10_lining_shell.md Table 10-15
  ⟨0x300028, [], false, .a, none, [⟨0, 8, .ro, 0⟩, ⟨8, 4, .ro, 0⟩, ⟨12, 1, .ro, 0⟩]⟩,  -- SEAM_DEBUG, 10_lining_shell.md Table 10-16
  ⟨0x310000, [(16, 64)], false, .l, some 0x70000, [⟨0, 44, .rwb, 0⟩, ⟨44, 2, .rwb, 1⟩, ⟨46, 1, .rwb, 1⟩, ⟨47, 1, .rwb, 1⟩, ⟨48, 1, .rwb, 1⟩, ⟨49, 1, .rwb, 0⟩, ⟨50, 1, .rwb, 0⟩, ⟨51, 1, .rwb, 0⟩, ⟨52, 1, .rwb, 0⟩, ⟨53, 1, .rwb, 0⟩]⟩,  -- SEAM_RGNA, 10_lining_shell.md Table 10-17
  ⟨0x311000, [(16, 16)], false, .l, some 0x70000, [⟨0, 44, .rwb, 0⟩, ⟨44, 2, .rwb, 1⟩, ⟨46, 1, .rwb, 1⟩, ⟨47, 1, .rwb, 1⟩, ⟨48, 1, .rwb, 1⟩, ⟨49, 1, .ro, 0⟩, ⟨50, 1, .ro, 0⟩, ⟨51, 1, .ro, 0⟩, ⟨52, 1, .rwb, 0⟩, ⟨53, 1, .rwb, 0⟩]⟩,  -- SEAM_RGNA, table 1, 10_lining_shell.md Table 10-17
  ⟨0x312000, [(16, 16)], false, .l, some 0x70000, [⟨0, 44, .rwb, 0⟩, ⟨44, 2, .rwb, 1⟩, ⟨46, 1, .rwb, 1⟩, ⟨47, 1, .rwb, 1⟩, ⟨48, 1, .rwb, 1⟩, ⟨49, 1, .rwb, 0⟩, ⟨50, 1, .rwb, 0⟩, ⟨51, 1, .rwb, 0⟩, ⟨52, 1, .rwb, 0⟩, ⟨53, 1, .rwb, 0⟩]⟩,  -- SEAM_RGNA, table 2, 10_lining_shell.md Table 10-17
  ⟨0x313000, [(16, 16)], false, .l, some 0x70000, [⟨0, 44, .rwb, 0⟩, ⟨44, 2, .rwb, 1⟩, ⟨46, 1, .rwb, 1⟩, ⟨47, 1, .rwb, 1⟩, ⟨48, 1, .rwb, 1⟩, ⟨49, 1, .ro, 0⟩, ⟨50, 1, .ro, 0⟩, ⟨51, 1, .ro, 0⟩, ⟨52, 1, .rwb, 0⟩, ⟨53, 1, .rwb, 0⟩]⟩,  -- SEAM_RGNA, table 3, 10_lining_shell.md Table 10-17
  ⟨0x310008, [(16, 64)], false, .l, some 0x70000, [⟨0, 44, .rwb, 0⟩]⟩,  -- SEAM_RGNB, 10_lining_shell.md Table 10-17
  ⟨0x311008, [(4096, 3), (16, 16)], false, .l, some 0x70000, [⟨0, 44, .rwb, 0⟩]⟩,  -- SEAM_RGNB, tables 1 to 3, 10_lining_shell.md Table 10-17
  ⟨0x400000, [], false, .a, none, [⟨0, 1, .ro, 0⟩, ⟨1, 1, .ro, 0⟩, ⟨2, 1, .ro, 0⟩, ⟨3, 1, .ro, 0⟩, ⟨4, 1, .ro, 0⟩, ⟨5, 1, .ro, 0⟩, ⟨6, 1, .ro, 0⟩, ⟨7, 1, .ro, 0⟩, ⟨8, 2, .ro, 0⟩, ⟨16, 7, .ro, 0⟩, ⟨32, 32, .ro, 0⟩]⟩,  -- SPOOL_STATUS, 13_spool_boot.md Table 13-11
  ⟨0x400008, [(8, 2)], false, .a, none, [⟨0, 6, .ro, 0⟩, ⟨6, 1, .ro, 0⟩, ⟨7, 1, .ro, 0⟩, ⟨8, 7, .ro, 0⟩, ⟨16, 2, .ro, 0⟩, ⟨32, 32, .ro, 0⟩]⟩  -- SPOOL_SLOTSTAT, 13_spool_boot.md Table 13-12
]

/-- Registers 61 to 80 of the table, by offset. -/
def regTable3 : List RegDef := [
  ⟨0x400018, [], false, .l, none, [⟨0, 1, .w1s, 0⟩, ⟨1, 1, .w1s, 0⟩, ⟨8, 6, .wo, 0⟩]⟩,  -- SPOOL_CTL, 13_spool_boot.md Table 13-13
  ⟨0x400020, [], false, .l, none, [⟨0, 56, .rw, 0⟩]⟩,  -- SPOOL_HARTVEC, 13_spool_boot.md Table 13-14
  ⟨0x400028, [], false, .a, none, [⟨0, 32, .ro, 0⟩, ⟨32, 32, .ro, 0⟩]⟩,  -- SPOOL_TIME, 13_spool_boot.md Table 13-15
  ⟨0x410000, [], true, .a, none, [⟨0, 4, .ro, 0⟩, ⟨4, 4, .ro, 0⟩, ⟨8, 7, .ro, 0⟩, ⟨16, 7, .ro, 0⟩, ⟨24, 1, .ro, 0⟩]⟩,  -- FUSE_STATE, 13_spool_boot.md Table 13-16
  ⟨0x410040, [], false, .l, none, [⟨0, 4, .rw, 0⟩, ⟨4, 2, .rw, 0⟩, ⟨6, 1, .w1s, 0⟩, ⟨7, 1, .ro, 0⟩, ⟨16, 16, .ro, 0⟩]⟩,  -- FUSE_PROG, 13_spool_boot.md Table 13-17
  ⟨0x410048, [(8, 6)], false, .l, none, [⟨0, 64, .wo, 0⟩]⟩,  -- FUSE_PDATA, 13_spool_boot.md Table 13-17
  ⟨0x410100, [(64, 4), (8, 6)], true, .a, none, [⟨0, 64, .ro, 0⟩]⟩,  -- FUSE_KEYHASH, 13_spool_boot.md Table 13-17
  ⟨0x500000, [], false, .s, none, [⟨0, 17, .rw, 0xe10⟩]⟩,  -- MOULT_CFG, 15_power_moult.md Table 15-18
  ⟨0x500008, [], false, .s, none, [⟨0, 13, .ro, 0⟩, ⟨13, 3, .ro, 0⟩, ⟨16, 1, .ro, 0⟩, ⟨17, 1, .w1c, 0⟩, ⟨18, 1, .w1c, 0⟩, ⟨19, 1, .w1c, 0⟩, ⟨24, 1, .rw, 0⟩, ⟨32, 16, .ro, 0⟩]⟩,  -- MOULT_STATUS, 15_power_moult.md Table 15-19
  ⟨0x500010, [], true, .s, none, [⟨0, 16, .ro, 0⟩, ⟨16, 7, .ro, 0⟩, ⟨24, 4, .ro, 2⟩]⟩,  -- MOULT_LAST, 15_power_moult.md Table 15-20
  ⟨0x600000, [], true, .s, none, [⟨0, 16, .ro, 0⟩, ⟨16, 1, .w1c, 0⟩, ⟨17, 1, .w1c, 0⟩, ⟨18, 1, .w1c, 0⟩, ⟨19, 1, .w1c, 0⟩, ⟨24, 3, .ro, 0⟩, ⟨32, 8, .ro, 0⟩, ⟨40, 1, .rw, 0⟩]⟩,  -- SAFE_STATUS, 08_ordering_containment.md Table 08-11
  ⟨0x600010, [], true, .s, none, [⟨0, 4, .ro, 0⟩, ⟨4, 3, .ro, 0⟩, ⟨7, 1, .w1c, 0⟩, ⟨8, 2, .ro, 0⟩, ⟨10, 4, .ro, 0⟩, ⟨16, 16, .ro, 0⟩, ⟨32, 32, .ro, 0⟩]⟩,  -- SAFE_REC0, 08_ordering_containment.md Table 08-12
  ⟨0x600018, [], true, .s, none, [⟨0, 64, .ro, 0⟩]⟩,  -- SAFE_REC1, 08_ordering_containment.md Table 08-13
  ⟨0x600020, [], false, .l, none, [⟨0, 16, .wo, 0⟩, ⟨16, 20, .rw, 0x3e8⟩, ⟨36, 1, .w1s, 0⟩]⟩,  -- SAFE_WDOG, 08_ordering_containment.md Table 08-14
  ⟨0x600028, [], false, .l, none, [⟨0, 4, .rw, 0⟩, ⟨4, 2, .rw, 0⟩, ⟨6, 4, .rw, 0⟩, ⟨10, 1, .w1s, 0⟩]⟩,  -- SAFE_INJECT, 08_ordering_containment.md Table 08-15
  ⟨0x800000, [], false, .s, some 0x8, [⟨0, 13, .rwb, 0⟩, ⟨16, 13, .rwb, 0⟩]⟩,  -- TAPE_CFG, 07_tape.md Table 07-12
  ⟨0x800010, [], false, .s, none, [⟨0, 1, .ro, 0⟩, ⟨1, 1, .ro, 1⟩, ⟨2, 1, .ro, 0⟩, ⟨3, 1, .w1c, 0⟩, ⟨4, 1, .w1c, 0⟩, ⟨5, 1, .w1c, 0⟩, ⟨6, 1, .w1c, 0⟩, ⟨7, 1, .w1c, 0⟩, ⟨8, 1, .w1c, 0⟩, ⟨16, 1, .rw, 0⟩]⟩,  -- TAPE_STATUS, 07_tape.md Table 07-13
  ⟨0x800020, [], false, .l, some 0x8, [⟨0, 44, .rwb, 0⟩, ⟨44, 16, .rwb, 0⟩, ⟨63, 1, .rwb, 0⟩]⟩,  -- TAPE_RING, 07_tape.md Table 07-14
  ⟨0x800030, [], false, .s, none, [⟨0, 32, .rw, 0⟩, ⟨32, 32, .ro, 0⟩]⟩,  -- TAPE_RING_PTR, 07_tape.md Table 07-15
  ⟨0x800038, [], true, .s, none, [⟨0, 64, .ro, 0⟩]⟩  -- TAPE_RSEQ, 07_tape.md Table 07-16
]

/-- Registers 81 to 100 of the table, by offset. -/
def regTable4 : List RegDef := [
  ⟨0x810000, [(8, 4128)], false, .s, some 0x10000, [⟨0, 13, .rwb, 0⟩]⟩,  -- TAPE_FNACCT, 07_tape.md Table 07-17
  ⟨0x830000, [(8, 8192)], false, .s, some 0x10000, [⟨0, 1, .rwb, 0⟩]⟩,  -- TAPE_ACCT, 07_tape.md Table 07-18
  ⟨0xC00000, [(128, 8192), (8, 16)], true, .s, none, [⟨0, 64, .ro, 0⟩]⟩,  -- TAPE_NOW, 07_tape.md Table 07-19
  ⟨0x1000000, [], false, .s, none, [⟨0, 17, .ro, 0x10000⟩, ⟨32, 17, .ro, 0x10000⟩, ⟨56, 1, .w1c, 0⟩]⟩,  -- QFAB_STATUS, 03_functions_queues.md Table 03-6
  ⟨0x1100000, [(8, 65536)], false, .s, some 0x80000, [⟨0, 13, .rwb, 0⟩, ⟨15, 1, .rwb, 0⟩, ⟨16, 12, .rwb, 0⟩, ⟨32, 3, .rwb, 0⟩]⟩,  -- QFAB_QOWN, 03_functions_queues.md Table 03-7
  ⟨0x1200000, [(8, 4128)], false, .s, some 0x20000, [⟨0, 1, .rwb, 0⟩, ⟨1, 3, .rwb, 0⟩, ⟨8, 5, .rwb, 0⟩, ⟨16, 11, .rwb, 0⟩, ⟨32, 12, .rwb, 0⟩, ⟨48, 1, .rwb, 0⟩]⟩,  -- QFAB_FNCFG, 03_functions_queues.md Table 03-8
  ⟨0x1240000, [(16, 4128)], false, .s, some 0x20000, [⟨0, 8, .rwb, 1⟩, ⟨8, 20, .rwb, 0⟩, ⟨28, 3, .rwb, 0⟩]⟩,  -- QFAB_FSCHED0, 03_functions_queues.md Table 03-24
  ⟨0x1240008, [(16, 4128)], false, .s, some 0x20000, [⟨0, 20, .rwb, 0⟩, ⟨20, 20, .rwb, 0⟩, ⟨40, 12, .rwb, 0⟩, ⟨52, 12, .rwb, 0⟩]⟩,  -- QFAB_FSCHED1, 03_functions_queues.md Table 03-25
  ⟨0x1280000, [(8, 8192)], false, .s, some 0x10000, [⟨0, 20, .rwb, 0⟩, ⟨20, 20, .rwb, 0⟩, ⟨40, 12, .rwb, 0⟩, ⟨52, 12, .rwb, 0⟩]⟩,  -- QFAB_ASCHED, 03_functions_queues.md Table 03-25
  ⟨0x1300000, [(8, 65536)], false, .s, none, [⟨0, 3, .ro, 0⟩, ⟨3, 1, .ro, 0⟩, ⟨4, 1, .ro, 0⟩, ⟨16, 13, .ro, 0⟩, ⟨32, 12, .ro, 0⟩, ⟨48, 16, .ro, 0⟩]⟩,  -- QFAB_QSTATE, 03_functions_queues.md Table 03-9
  ⟨0x1400000, [(32, 256)], false, .s, none, [⟨0, 44, .rw, 0⟩, ⟨44, 4, .rw, 0⟩, ⟨48, 1, .rw, 0⟩]⟩,  -- QFAB_BEQ_WRING, 04_personalities.md Table 04-9
  ⟨0x1400008, [(32, 256)], false, .s, none, [⟨0, 44, .rw, 0⟩, ⟨44, 4, .rw, 0⟩, ⟨48, 1, .rw, 0⟩, ⟨49, 6, .rw, 0⟩, ⟨55, 1, .w1c, 0⟩, ⟨56, 8, .rw, 0⟩]⟩,  -- QFAB_BEQ_RRING, 04_personalities.md Table 04-10
  ⟨0x1400010, [(32, 256)], false, .s, none, [⟨0, 16, .rw, 0⟩, ⟨16, 16, .rw, 0⟩, ⟨32, 16, .ro, 0⟩, ⟨48, 16, .ro, 0⟩]⟩,  -- QFAB_BEQ_DB, 04_personalities.md Table 04-11
  ⟨0x1500000, [(256, 4128), (16, 16)], false, .s, some 0x200000, [⟨0, 32, .rwb, 0⟩, ⟨32, 8, .rwb, 0⟩, ⟨40, 1, .rwb, 0⟩, ⟨41, 1, .rwb, 0⟩]⟩,  -- QFAB_BVOLA, 04_personalities.md Table 04-8
  ⟨0x1500008, [(256, 4128), (16, 16)], false, .s, some 0x200000, [⟨0, 64, .rwb, 0⟩]⟩,  -- QFAB_BVOLB, 04_personalities.md Table 04-8
  ⟨0x2000000, [], false, .s, none, [⟨0, 16, .rw, 0x3e8⟩, ⟨16, 16, .rw, 0x3e8⟩, ⟨32, 11, .rw, 0x100⟩]⟩,  -- SHUT_CFG, 05_shuttle_translation.md Table 05-13
  ⟨0x2000008, [], false, .s, none, [⟨0, 13, .ro, 0⟩, ⟨32, 16, .ro, 0⟩, ⟨48, 1, .w1c, 0⟩, ⟨49, 1, .w1c, 0⟩]⟩,  -- SHUT_STATUS, 05_shuttle_translation.md Table 05-14
  ⟨0x2000010, [], false, .s, none, [⟨0, 13, .ro, 0⟩, ⟨13, 1, .ro, 0⟩, ⟨16, 16, .ro, 0⟩, ⟨32, 3, .ro, 0⟩, ⟨39, 25, .ro, 0⟩]⟩,  -- SHUT_FLT_INFO, 05_shuttle_translation.md Table 05-15
  ⟨0x2000018, [], false, .s, none, [⟨0, 64, .ro, 0⟩]⟩,  -- SHUT_FLT_ADDR, 05_shuttle_translation.md Table 05-16
  ⟨0x2000020, [], false, .s, none, [⟨0, 8, .wo, 0⟩, ⟨8, 1, .wo, 0⟩]⟩  -- SHUT_LRESP, 05_shuttle_translation.md Table 05-17
]

/-- Registers 101 to 120 of the table, by offset. -/
def regTable5 : List RegDef := [
  ⟨0x2010000, [(8, 32)], false, .s, none, [⟨0, 11, .ro, 0⟩, ⟨11, 1, .ro, 0⟩, ⟨16, 13, .ro, 0⟩, ⟨32, 32, .ro, 0⟩]⟩,  -- SHUT_PRI, 05_shuttle_translation.md Table 05-18
  ⟨0x2020000, [(8, 8)], false, .l, none, [⟨0, 64, .wo, 0⟩]⟩,  -- SHUT_KEYDATA, 05_shuttle_translation.md Table 05-19
  ⟨0x2020040, [], false, .l, none, [⟨0, 12, .wo, 0⟩, ⟨12, 13, .wo, 0⟩, ⟨28, 2, .wo, 0⟩]⟩,  -- SHUT_KEYCMD, 05_shuttle_translation.md Table 05-20
  ⟨0x2020048, [], false, .l, none, [⟨0, 1, .ro, 1⟩, ⟨1, 1, .w1c, 0⟩]⟩,  -- SHUT_KEYSTAT, 05_shuttle_translation.md Table 05-21
  ⟨0x2030000, [(8, 4096)], false, .s, none, [⟨0, 1, .ro, 0⟩, ⟨1, 1, .ro, 0⟩, ⟨2, 2, .ro, 0⟩, ⟨4, 1, .ro, 0⟩, ⟨32, 32, .ro, 0⟩]⟩,  -- SHUT_DLOG, 05_shuttle_translation.md Table 05-22
  ⟨0x2040000, [(8, 4)], false, .l, none, [⟨0, 64, .rw, 0⟩]⟩,  -- SHUT_LCWORLD, 05_shuttle_translation.md Table 05-23
  ⟨0x2100000, [(64, 256)], false, .byLcWorld, none, [⟨0, 64, .rw, 0⟩]⟩,  -- LC_SQBASE, 05_shuttle_translation.md R152
  ⟨0x2100008, [(64, 256)], false, .byLcWorld, none, [⟨0, 64, .rw, 0⟩]⟩,  -- LC_CQBASE, 05_shuttle_translation.md R152
  ⟨0x2100010, [(64, 256)], false, .byLcWorld, none, [⟨0, 16, .rw, 0⟩, ⟨16, 16, .rw, 0⟩, ⟨32, 1, .rw, 0⟩, ⟨33, 1, .rw, 0⟩]⟩,  -- LC_DB, 05_shuttle_translation.md R152
  ⟨0x2100018, [(64, 256)], false, .byLcWorld, none, [⟨0, 4, .rw, 0⟩, ⟨4, 4, .rw, 0⟩, ⟨8, 6, .rw, 0⟩, ⟨14, 1, .rw, 0⟩, ⟨16, 8, .rw, 0⟩, ⟨24, 8, .rw, 0⟩, ⟨32, 10, .rw, 0⟩, ⟨42, 3, .rw, 0⟩]⟩,  -- LC_CFG, 05_shuttle_translation.md Table 05-6
  ⟨0x2100020, [(64, 256)], false, .byLcWorld, none, [⟨0, 20, .rw, 0⟩, ⟨20, 1, .rw, 0⟩]⟩,  -- LC_CTX, 05_shuttle_translation.md Table 05-7
  ⟨0x2100028, [(64, 256)], false, .byLcWorld, none, [⟨0, 1, .rw, 0⟩]⟩,  -- LC_CTL, 05_shuttle_translation.md R152
  ⟨0x2100030, [(64, 256)], false, .byLcWorld, none, [⟨0, 3, .ro, 1⟩, ⟨3, 1, .ro, 0⟩, ⟨4, 1, .ro, 0⟩, ⟨5, 1, .ro, 0⟩, ⟨6, 1, .w1c, 0⟩, ⟨16, 16, .ro, 0⟩, ⟨32, 16, .ro, 0⟩, ⟨48, 16, .ro, 0⟩]⟩,  -- LC_STAT, 05_shuttle_translation.md R152
  ⟨0x2100038, [(64, 256)], false, .byLcWorld, none, [⟨0, 32, .ro, 0⟩, ⟨32, 32, .ro, 0⟩]⟩,  -- LC_CSEQ, 05_shuttle_translation.md R152
  ⟨0x3000000, [], false, .s, some 0x8, [⟨0, 1, .rwb, 0⟩, ⟨1, 6, .rwb, 0⟩, ⟨7, 1, .rwb, 0⟩, ⟨16, 16, .rwb, 0x12b5⟩, ⟨32, 16, .rwb, 0x17c1⟩, ⟨48, 16, .rwb, 0⟩]⟩,  -- SELV_CFG, 06_selvedge.md Table 06-18
  ⟨0x3000010, [], false, .s, none, [⟨0, 1, .w1c, 0⟩, ⟨1, 1, .w1c, 0⟩]⟩,  -- SELV_STATUS, 06_selvedge.md Table 06-19
  ⟨0x3000018, [], false, .s, none, [⟨0, 32, .ro, 0⟩, ⟨32, 16, .ro, 0⟩, ⟨48, 1, .ro, 0⟩]⟩,  -- SELV_COMMIT, 06_selvedge.md Table 06-20
  ⟨0x3000040, [(8, 6)], false, .s, some 0x40, [⟨0, 44, .rwb, 0⟩, ⟨48, 6, .rwb, 0⟩]⟩,  -- SELV_TBASE, 06_selvedge.md Table 06-21
  ⟨0x3010000, [(8, 16)], false, .s, none, [⟨0, 64, .rw, 0⟩]⟩,  -- SELV_TW_DATA, 06_selvedge.md Table 06-12
  ⟨0x3010080, [], false, .s, none, [⟨0, 4, .wo, 0⟩, ⟨4, 3, .wo, 0⟩, ⟨8, 24, .wo, 0⟩]⟩  -- SELV_TW_CMD, 06_selvedge.md Table 06-12
]

/-- Registers 121 to 140 of the table, by offset. -/
def regTable6 : List RegDef := [
  ⟨0x3010088, [], false, .s, none, [⟨0, 1, .ro, 0⟩, ⟨16, 16, .ro, 0⟩]⟩,  -- SELV_TW_STAT, 06_selvedge.md Table 06-12
  ⟨0x3020000, [(32, 64)], false, .s, none, [⟨0, 44, .rw, 0⟩, ⟨44, 4, .rw, 0⟩, ⟨48, 3, .rw, 0⟩, ⟨51, 1, .rw, 0⟩, ⟨52, 1, .rw, 0⟩, ⟨53, 6, .rw, 0⟩]⟩,  -- SELV_EXQ_RING, 06_selvedge.md Table 06-26
  ⟨0x3020008, [(32, 64)], false, .s, none, [⟨0, 8, .rw, 0⟩, ⟨8, 20, .rw, 0⟩]⟩,  -- SELV_EXQ_CTL, 06_selvedge.md Table 06-26
  ⟨0x3020010, [(32, 64)], false, .s, none, [⟨0, 16, .rw, 0⟩, ⟨16, 16, .ro, 0⟩, ⟨32, 16, .rw, 0⟩, ⟨48, 16, .ro, 0⟩]⟩,  -- SELV_EXQ_DB, 06_selvedge.md Table 06-26
  ⟨0x3020018, [(32, 64)], false, .s, none, [⟨0, 44, .rw, 0⟩, ⟨44, 4, .rw, 0⟩]⟩,  -- SELV_EXQ_RIRING, 06_selvedge.md Table 06-26
  ⟨0x3030000, [(1024, 4), (8, 64)], false, .s, none, [⟨0, 64, .ro, 0⟩]⟩,  -- SELV_DROP, 06_selvedge.md R210
  ⟨0x3032000, [(256, 4), (8, 10)], false, .s, none, [⟨0, 64, .ro, 0⟩]⟩,  -- SELV_PCNT, 06_selvedge.md R210
  ⟨0x3100000, [(16, 4128)], false, .s, some 0x80000, [⟨0, 12, .rwb, 0⟩, ⟨12, 1, .rwb, 0⟩, ⟨13, 13, .rwb, 0⟩, ⟨26, 1, .rwb, 1⟩, ⟨28, 12, .rwb, 0⟩, ⟨40, 14, .rwb, 0x5ea⟩, ⟨54, 10, .rwb, 0⟩]⟩,  -- SELV_VPORTA, 06_selvedge.md Table 06-22
  ⟨0x3100008, [(16, 4128)], false, .s, some 0x80000, [⟨0, 48, .rwb, 0⟩, ⟨48, 12, .rwb, 0⟩]⟩,  -- SELV_VPORTB, 06_selvedge.md Table 06-22
  ⟨0x3200000, [(8, 4096)], false, .s, some 0x20000, [⟨0, 24, .rwb, 0⟩, ⟨24, 1, .rwb, 0⟩, ⟨25, 13, .rwb, 0⟩]⟩,  -- SELV_TSPACE, 06_selvedge.md Table 06-23
  ⟨0x3240000, [(64, 48), (8, 8)], false, .s, some 0x20000, [⟨0, 1, .rwb, 0⟩, ⟨1, 8, .rwb, 1⟩, ⟨9, 20, .rwb, 0⟩, ⟨29, 1, .rwb, 0⟩, ⟨30, 12, .rwb, 0⟩, ⟨42, 12, .rwb, 0⟩]⟩,  -- SELV_ETC, 06_selvedge.md Table 06-24
  ⟨0x3400000, [(512, 4128), (8, 64)], false, .s, none, [⟨0, 64, .rw, 0⟩]⟩,  -- SELV_RSS, 06_selvedge.md Table 06-22
  ⟨0x4000000, [], false, .l, none, [⟨0, 8, .rw, 2⟩, ⟨8, 8, .rw, 0xf⟩, ⟨16, 16, .rw, 0x3e8⟩]⟩,  -- GALV_CFG, 09_twin_galvel.md Table 09-14
  ⟨0x4000008, [], false, .s, none, [⟨0, 2, .ro, 0⟩, ⟨2, 1, .ro, 0⟩, ⟨3, 1, .ro, 0⟩, ⟨4, 2, .ro, 0⟩, ⟨6, 1, .ro, 0⟩, ⟨7, 1, .ro, 0⟩, ⟨8, 1, .ro, 0⟩, ⟨9, 1, .ro, 0⟩, ⟨16, 1, .w1c, 0⟩, ⟨17, 1, .w1c, 0⟩, ⟨18, 1, .w1c, 0⟩, ⟨19, 1, .w1c, 0⟩, ⟨20, 1, .w1c, 0⟩, ⟨24, 1, .rw, 0⟩]⟩,  -- GALV_STATUS, 09_twin_galvel.md Table 09-15
  ⟨0x4000010, [], false, .s, none, [⟨0, 64, .ro, 0⟩]⟩,  -- GALV_PEER, 09_twin_galvel.md Table 09-16
  ⟨0x4000018, [], false, .s, none, [⟨0, 16, .ro, 0x100⟩, ⟨16, 16, .ro, 0⟩, ⟨32, 16, .ro, 0⟩]⟩,  -- GALV_VER, 09_twin_galvel.md Table 09-17
  ⟨0x4000020, [], false, .s, none, [⟨0, 64, .ro, 1⟩]⟩,  -- GALV_FEAT_LOCAL, 09_twin_galvel.md Table 09-18
  ⟨0x4000028, [], false, .s, none, [⟨0, 64, .ro, 1⟩]⟩,  -- GALV_FEAT_COMMON, 09_twin_galvel.md Table 09-18
  ⟨0x4000030, [], false, .l, some 0x8, [⟨0, 1, .ro, 1⟩, ⟨1, 63, .rwb, 0⟩]⟩,  -- GALV_GATE, 09_twin_galvel.md Table 09-19
  ⟨0x4000040, [], false, .l, some 0x8, [⟨0, 44, .rwb, 0⟩]⟩  -- GALV_SHADOW, 09_twin_galvel.md Table 09-20
]

/-- Registers 141 to 160 of the table, by offset. -/
def regTable7 : List RegDef := [
  ⟨0x4000050, [], true, .s, none, [⟨0, 2, .ro, 0⟩, ⟨2, 1, .ro, 0⟩, ⟨16, 16, .ro, 0⟩, ⟨32, 16, .ro, 0⟩, ⟨48, 16, .ro, 0⟩]⟩,  -- GALV_TAKEREC0, 09_twin_galvel.md Table 09-21
  ⟨0x4000058, [], true, .s, none, [⟨0, 64, .ro, 0⟩]⟩,  -- GALV_TAKEREC1, 09_twin_galvel.md Table 09-21
  ⟨0x4000060, [], false, .s, none, [⟨0, 32, .ro, 0⟩, ⟨32, 16, .ro, 0⟩, ⟨48, 16, .ro, 0⟩]⟩,  -- GALV_LINKCNT, 09_twin_galvel.md Table 09-22
  ⟨0x5000000, [(65536, 32)], false, .s, some 0x8, [⟨0, 1, .rwb, 0⟩, ⟨1, 3, .rwb, 0⟩, ⟨4, 3, .rwb, 6⟩, ⟨7, 1, .rwb, 0⟩, ⟨16, 11, .rwb, 0⟩]⟩,  -- HPORT_CFG, 03_functions_queues.md Table 03-1
  ⟨0x6000000, [(262144, 6)], false, .s, some 0x8, [⟨0, 3, .rwb, 0⟩, ⟨3, 1, .rwb, 0⟩, ⟨4, 1, .rwb, 0⟩, ⟨5, 1, .rwb, 1⟩]⟩,  -- EMAC_GCFG, 06_selvedge.md Table 06-25
  ⟨0x7000000, [(1048576, 8)], false, .s, none, [⟨0, 8, .rw, 0x18⟩, ⟨8, 8, .rw, 0x10⟩]⟩,  -- DMC_CFG, 16_dram.md Table 16-3
  ⟨0x7000008, [(1048576, 8)], false, .a, none, [⟨0, 1, .ro, 0⟩, ⟨1, 2, .ro, 0⟩, ⟨3, 3, .ro, 0⟩, ⟨6, 1, .ro, 0⟩, ⟨7, 1, .ro, 0⟩, ⟨8, 3, .ro, 0⟩, ⟨11, 3, .ro, 0⟩, ⟨16, 10, .ro, 0⟩]⟩,  -- DMC_STATUS, 16_dram.md Table 16-4
  ⟨0x7000010, [(1048576, 8)], false, .s, none, [⟨0, 16, .ro, 0⟩, ⟨16, 16, .ro, 0⟩, ⟨32, 1, .w1c, 0⟩, ⟨33, 1, .w1c, 0⟩, ⟨34, 1, .w1c, 0⟩, ⟨35, 1, .rw, 0⟩]⟩,  -- DMC_ECC, 16_dram.md Table 16-5
  ⟨0x7000018, [(1048576, 8)], false, .s, none, [⟨0, 18, .ro, 0⟩, ⟨18, 2, .ro, 0⟩, ⟨20, 3, .ro, 0⟩, ⟨23, 2, .ro, 0⟩, ⟨25, 1, .ro, 0⟩, ⟨26, 4, .ro, 0⟩, ⟨30, 1, .ro, 0⟩, ⟨31, 1, .w1c, 0⟩, ⟨32, 32, .ro, 0⟩]⟩,  -- DMC_ERRLOG0, 16_dram.md Table 16-6
  ⟨0x7000020, [(1048576, 8)], false, .s, none, [⟨0, 18, .ro, 0⟩, ⟨18, 2, .ro, 0⟩, ⟨20, 3, .ro, 0⟩, ⟨23, 2, .ro, 0⟩, ⟨25, 1, .ro, 0⟩, ⟨26, 4, .ro, 0⟩, ⟨30, 1, .ro, 0⟩, ⟨31, 1, .w1c, 0⟩, ⟨32, 32, .ro, 0⟩]⟩,  -- DMC_ERRLOG1, 16_dram.md Table 16-6
  ⟨0x7000040, [(1048576, 8), (8, 8)], true, .l, none, [⟨0, 18, .rws, 0⟩, ⟨32, 1, .rws, 0⟩, ⟨33, 1, .ro, 0⟩, ⟨34, 1, .ro, 0⟩, ⟨36, 2, .rws, 0⟩, ⟨38, 1, .rws, 0⟩, ⟨40, 2, .rws, 0⟩, ⟨42, 2, .rws, 0⟩]⟩,  -- DMC_PPR, 16_dram.md Table 16-7
  ⟨0x8000000, [(64, 32)], false, .l, none, [⟨0, 1, .w1s, 0⟩, ⟨1, 1, .w1s, 0⟩]⟩,  -- BOB_CTL, 12_bobbin_isa.md Table 12-22
  ⟨0x8000008, [(64, 32)], false, .l, none, [⟨0, 2, .ro, 0⟩, ⟨2, 1, .ro, 0⟩, ⟨4, 4, .ro, 0⟩, ⟨8, 6, .ro, 0⟩, ⟨16, 16, .ro, 0⟩, ⟨32, 32, .ro, 0⟩]⟩,  -- BOB_STAT, 12_bobbin_isa.md Table 12-23
  ⟨0x8000010, [(64, 32)], false, .l, none, [⟨0, 44, .rw, 0⟩]⟩,  -- BOB_IMG, 12_bobbin_isa.md Table 12-24
  ⟨0x8100000, [(65536, 32), (8, 8192)], false, .l, none, [⟨0, 64, .rw, 0⟩]⟩,  -- BOB_LMEM, 12_bobbin_isa.md Table 12-25
  ⟨0x9E00000, [(8, 64)], false, .l, none, [⟨0, 64, .rw, 0xffffffffffffffff⟩]⟩,  -- MTIMECMP, 11_anole_cores.md R323
  ⟨0x9E00400, [], false, .a, none, [⟨0, 64, .ro, 0⟩]⟩,  -- TIME, 11_anole_cores.md R323
  ⟨0xA000000, [], false, .a, none, [⟨0, 32, .ro, 0⟩]⟩,  -- ONF_EPOCH, 02_onafaet_baste_stitch.md Table 02-14
  ⟨0xA000008, [], false, .s, none, [⟨0, 2, .ro, 0⟩, ⟨2, 1, .ro, 0⟩, ⟨3, 1, .w1c, 0⟩, ⟨16, 16, .ro, 0⟩, ⟨32, 32, .ro, 0⟩]⟩,  -- ONF_BASTE_STAT, 02_onafaet_baste_stitch.md Table 02-15
  ⟨0xA000010, [], false, .s, none, [⟨0, 64, .ro, 0⟩]⟩  -- ONF_STITCH_AT, 02_onafaet_baste_stitch.md Table 02-16
]

/-- Registers 161 to 161 of the table, by offset. -/
def regTable8 : List RegDef := [
  ⟨0xA000018, [], false, .s, none, [⟨0, 16, .ro, 0⟩, ⟨16, 1, .w1c, 0⟩]⟩  -- ONF_STATUS, 02_onafaet_baste_stitch.md Table 02-17
]

/-- All registers of the control space. -/
def regTable : List RegDef :=
  regTable0 ++ regTable1 ++ regTable2 ++ regTable3 ++ regTable4 ++ regTable5 ++ regTable6 ++ regTable7 ++ regTable8

/-- The register at a control-space offset, and whether the offset is its live copy; none where no block implements it. -/
def regFind (off : Nat) : Option (RegDef × Bool) :=
  match regTable.find? fun d => decide (d.base ≤ off) && inDims d.dims (off - d.base) with
  | some d => some (d, false)
  | none =>
    match regTable.find? fun d =>
        match d.live with
        | some l => decide (d.base + l ≤ off) && inDims d.dims (off - d.base - l)
        | none => false with
    | some d => some (d, true)
    | none => none

/-- The value of a register whose every field holds its reset value. -/
def RegDef.resetVal (d : RegDef) : W64 :=
  d.flds.foldl (fun v f => setBits v f.lo f.w f.reset) 0

/-- What the register at an offset holds after a reset of its domain (R8). -/
def regReset (off : Nat) : W64 :=
  match regFind off with
  | some (d, _) => d.resetVal
  | none => 0

/-- The bits of a register that a warm reset does not touch: all of a COLD register, else its RWS fields (R25). -/
def RegDef.coldMask (d : RegDef) : W64 :=
  if d.cold then BitVec.allOnes 64
  else d.flds.foldl (fun v f => if f.acc = .rws then v ||| maskOf f.lo f.w else v) 0

/-- TOP_ID (01_panels_tiles_clocks.md, Table 01-7). -/
def R.TOP_ID.off : Nat := 0x0
/-- Field VENDOR. -/
def R.TOP_ID.VENDOR : Fld := ⟨R.TOP_ID.off, 0, 16⟩
/-- Field PART. -/
def R.TOP_ID.PART : Fld := ⟨R.TOP_ID.off, 16, 16⟩
/-- Field STEPPING. -/
def R.TOP_ID.STEPPING : Fld := ⟨R.TOP_ID.off, 32, 8⟩
/-- Field PANELS. -/
def R.TOP_ID.PANELS : Fld := ⟨R.TOP_ID.off, 40, 4⟩
/-- TOP_SERIAL (01_panels_tiles_clocks.md, Table 01-8). -/
def R.TOP_SERIAL.off : Nat := 0x8
/-- Field SERIAL. -/
def R.TOP_SERIAL.SERIAL : Fld := ⟨R.TOP_SERIAL.off, 0, 64⟩
/-- TOP_STATUS (01_panels_tiles_clocks.md, Table 01-9). -/
def R.TOP_STATUS.off : Nat := 0x10
/-- Field BOOT_CODE. -/
def R.TOP_STATUS.BOOT_CODE : Fld := ⟨R.TOP_STATUS.off, 0, 6⟩
/-- Field BOOT_DONE. -/
def R.TOP_STATUS.BOOT_DONE : Fld := ⟨R.TOP_STATUS.off, 6, 1⟩
/-- Field CFG_DEFAULTED. -/
def R.TOP_STATUS.CFG_DEFAULTED : Fld := ⟨R.TOP_STATUS.off, 7, 1⟩
/-- Field THROTTLE. -/
def R.TOP_STATUS.THROTTLE : Fld := ⟨R.TOP_STATUS.off, 8, 4⟩
/-- Field THROTTLE_EVT. -/
def R.TOP_STATUS.THROTTLE_EVT : Fld := ⟨R.TOP_STATUS.off, 12, 1⟩
/-- Field CLK_EVT. -/
def R.TOP_STATUS.CLK_EVT : Fld := ⟨R.TOP_STATUS.off, 13, 1⟩
/-- Field NARROW_WR. -/
def R.TOP_STATUS.NARROW_WR : Fld := ⟨R.TOP_STATUS.off, 14, 1⟩
/-- Field UNMAPPED. -/
def R.TOP_STATUS.UNMAPPED : Fld := ⟨R.TOP_STATUS.off, 15, 1⟩
/-- Field TWIN_ROLE. -/
def R.TOP_STATUS.TWIN_ROLE : Fld := ⟨R.TOP_STATUS.off, 16, 2⟩
/-- TOP_RESET (01_panels_tiles_clocks.md, Table 01-10). -/
def R.TOP_RESET.off : Nat := 0x18
/-- Field WARM. -/
def R.TOP_RESET.WARM : Fld := ⟨R.TOP_RESET.off, 0, 1⟩
/-- Field KEY. -/
def R.TOP_RESET.KEY : Fld := ⟨R.TOP_RESET.off, 16, 16⟩
/-- TOP_RSTCAUSE (01_panels_tiles_clocks.md, Table 01-11). -/
def R.TOP_RSTCAUSE.off : Nat := 0x20
/-- Field POWERON. -/
def R.TOP_RSTCAUSE.POWERON : Fld := ⟨R.TOP_RSTCAUSE.off, 0, 1⟩
/-- Field PIN. -/
def R.TOP_RSTCAUSE.PIN : Fld := ⟨R.TOP_RSTCAUSE.off, 1, 1⟩
/-- Field SOFT. -/
def R.TOP_RSTCAUSE.SOFT : Fld := ⟨R.TOP_RSTCAUSE.off, 2, 1⟩
/-- Field WDOG. -/
def R.TOP_RSTCAUSE.WDOG : Fld := ⟨R.TOP_RSTCAUSE.off, 3, 1⟩
/-- Field SAFE. -/
def R.TOP_RSTCAUSE.SAFE : Fld := ⟨R.TOP_RSTCAUSE.off, 4, 1⟩
/-- Field ONAFAET. -/
def R.TOP_RSTCAUSE.ONAFAET : Fld := ⟨R.TOP_RSTCAUSE.off, 5, 1⟩
/-- Field CLOCK. -/
def R.TOP_RSTCAUSE.CLOCK : Fld := ⟨R.TOP_RSTCAUSE.off, 6, 1⟩
/-- TOP_CLKSTAT (01_panels_tiles_clocks.md, Table 01-12). -/
def R.TOP_CLKSTAT.off : Nat := 0x28
/-- Field REF_OK. -/
def R.TOP_CLKSTAT.REF_OK : Fld := ⟨R.TOP_CLKSTAT.off, 0, 1⟩
/-- Field ROOT_LOCK. -/
def R.TOP_CLKSTAT.ROOT_LOCK : Fld := ⟨R.TOP_CLKSTAT.off, 1, 1⟩
/-- Field ETH_LOCK. -/
def R.TOP_CLKSTAT.ETH_LOCK : Fld := ⟨R.TOP_CLKSTAT.off, 2, 1⟩
/-- Field DDR_LOCK. -/
def R.TOP_CLKSTAT.DDR_LOCK : Fld := ⟨R.TOP_CLKSTAT.off, 4, 8⟩
/-- Field CORE_STEP0. -/
def R.TOP_CLKSTAT.CORE_STEP0 : Fld := ⟨R.TOP_CLKSTAT.off, 16, 4⟩
/-- Field CORE_STEP1. -/
def R.TOP_CLKSTAT.CORE_STEP1 : Fld := ⟨R.TOP_CLKSTAT.off, 20, 4⟩
/-- Field CORE_STEP2. -/
def R.TOP_CLKSTAT.CORE_STEP2 : Fld := ⟨R.TOP_CLKSTAT.off, 24, 4⟩
/-- Field CORE_STEP3. -/
def R.TOP_CLKSTAT.CORE_STEP3 : Fld := ⟨R.TOP_CLKSTAT.off, 28, 4⟩
/-- TOP_INTEN (01_panels_tiles_clocks.md, Table 01-13). -/
def R.TOP_INTEN.off : Nat := 0x30
/-- Field THROTTLE_EN. -/
def R.TOP_INTEN.THROTTLE_EN : Fld := ⟨R.TOP_INTEN.off, 0, 1⟩
/-- Field CLK_EN. -/
def R.TOP_INTEN.CLK_EN : Fld := ⟨R.TOP_INTEN.off, 1, 1⟩
/-- Field NARROW_EN. -/
def R.TOP_INTEN.NARROW_EN : Fld := ⟨R.TOP_INTEN.off, 2, 1⟩
/-- Field UNMAPPED_EN. -/
def R.TOP_INTEN.UNMAPPED_EN : Fld := ⟨R.TOP_INTEN.off, 3, 1⟩
/-- SC_CTL (11_anole_cores.md, Table 11-14). -/
def R.SC_CTL.off : Nat := 0x100
/-- Field EN. -/
def R.SC_CTL.EN : Fld := ⟨R.SC_CTL.off, 0, 1⟩
/-- Field INV. -/
def R.SC_CTL.INV : Fld := ⟨R.SC_CTL.off, 1, 1⟩
/-- Field INV_DONE. -/
def R.SC_CTL.INV_DONE : Fld := ⟨R.SC_CTL.off, 2, 1⟩
/-- Field NOINV. -/
def R.SC_CTL.NOINV : Fld := ⟨R.SC_CTL.off, 3, 1⟩
/-- Field NOPRIV. -/
def R.SC_CTL.NOPRIV : Fld := ⟨R.SC_CTL.off, 4, 1⟩
/-- SC_WAYMASK (11_anole_cores.md, Table 11-15). -/
def R.SC_WAYMASK.off (i : Nat) : Nat := 0x140 + 8 * i
/-- Field WAYS. -/
def R.SC_WAYMASK.WAYS (i : Nat) : Fld := ⟨R.SC_WAYMASK.off i, 0, 16⟩
/-- SC_VMAP (11_anole_cores.md, Table 11-16). -/
def R.SC_VMAP.off (i : Nat) : Nat := 0x200 + 8 * i
/-- Field VMID. -/
def R.SC_VMAP.VMID (i : Nat) : Fld := ⟨R.SC_VMAP.off i, 0, 14⟩
/-- Field CLASS. -/
def R.SC_VMAP.CLASS (i : Nat) : Fld := ⟨R.SC_VMAP.off i, 16, 4⟩
/-- Field VALID. -/
def R.SC_VMAP.VALID (i : Nat) : Fld := ⟨R.SC_VMAP.off i, 20, 1⟩
/-- PWR_REQ (15_power_moult.md, Table 15-9). -/
def R.PWR_REQ.off : Nat := 0x100000
/-- Field UNIT. -/
def R.PWR_REQ.UNIT : Fld := ⟨R.PWR_REQ.off, 0, 6⟩
/-- Field STATE. -/
def R.PWR_REQ.STATE : Fld := ⟨R.PWR_REQ.off, 8, 2⟩
/-- Field CROAK. -/
def R.PWR_REQ.CROAK : Fld := ⟨R.PWR_REQ.off, 10, 1⟩
/-- Field GO. -/
def R.PWR_REQ.GO : Fld := ⟨R.PWR_REQ.off, 16, 1⟩
/-- Field BUSY. -/
def R.PWR_REQ.BUSY : Fld := ⟨R.PWR_REQ.off, 17, 1⟩
/-- Field STATUS. -/
def R.PWR_REQ.STATUS : Fld := ⟨R.PWR_REQ.off, 32, 16⟩
/-- PWR_STATUS (15_power_moult.md, Table 15-10). -/
def R.PWR_STATUS.off : Nat := 0x100008
/-- Field CLAIMED. -/
def R.PWR_STATUS.CLAIMED : Fld := ⟨R.PWR_STATUS.off, 0, 1⟩
/-- Field CLAIM_WAKE. -/
def R.PWR_STATUS.CLAIM_WAKE : Fld := ⟨R.PWR_STATUS.off, 1, 1⟩
/-- Field WAKE_EVT. -/
def R.PWR_STATUS.WAKE_EVT : Fld := ⟨R.PWR_STATUS.off, 2, 1⟩
/-- Field IRQ_EN. -/
def R.PWR_STATUS.IRQ_EN : Fld := ⟨R.PWR_STATUS.off, 8, 1⟩
/-- Field LAST_UNIT. -/
def R.PWR_STATUS.LAST_UNIT : Fld := ⟨R.PWR_STATUS.off, 16, 6⟩
/-- PWR_STATE0 (15_power_moult.md, Table 15-11). -/
def R.PWR_STATE0.off : Nat := 0x100010
/-- Field STATE. -/
def R.PWR_STATE0.STATE : Fld := ⟨R.PWR_STATE0.off, 0, 64⟩
/-- PWR_STATE1 (15_power_moult.md, Table 15-11). -/
def R.PWR_STATE1.off : Nat := 0x100018
/-- Field STATE. -/
def R.PWR_STATE1.STATE : Fld := ⟨R.PWR_STATE1.off, 0, 40⟩
/-- PWR_WAKEVEC (15_power_moult.md, Table 15-12). -/
def R.PWR_WAKEVEC.off : Nat := 0x100020
/-- Field ENTRY. -/
def R.PWR_WAKEVEC.ENTRY : Fld := ⟨R.PWR_WAKEVEC.off, 0, 56⟩
/-- PWR_HOLD (15_power_moult.md, Table 15-13). -/
def R.PWR_HOLD.off : Nat := 0x100028
/-- Field ENTER. -/
def R.PWR_HOLD.ENTER : Fld := ⟨R.PWR_HOLD.off, 0, 4⟩
/-- Field IN_HOLD. -/
def R.PWR_HOLD.IN_HOLD : Fld := ⟨R.PWR_HOLD.off, 4, 4⟩
/-- PWR_SCAN_SEL (15_power_moult.md, Table 15-14). -/
def R.PWR_SCAN_SEL.off : Nat := 0x100030
/-- Field PANEL. -/
def R.PWR_SCAN_SEL.PANEL : Fld := ⟨R.PWR_SCAN_SEL.off, 0, 2⟩
/-- Field CHAIN. -/
def R.PWR_SCAN_SEL.CHAIN : Fld := ⟨R.PWR_SCAN_SEL.off, 8, 8⟩
/-- Field POS. -/
def R.PWR_SCAN_SEL.POS : Fld := ⟨R.PWR_SCAN_SEL.off, 16, 32⟩
/-- PWR_SCAN_DATA (15_power_moult.md, Table 15-14). -/
def R.PWR_SCAN_DATA.off : Nat := 0x100038
/-- Field DATA. -/
def R.PWR_SCAN_DATA.DATA : Fld := ⟨R.PWR_SCAN_DATA.off, 0, 64⟩
/-- PWR_AVS (17_balls_electrical.md, Table 17-9). -/
def R.PWR_AVS.off : Nat := 0x100040
/-- Field TARGET_MV. -/
def R.PWR_AVS.TARGET_MV : Fld := ⟨R.PWR_AVS.off, 0, 10⟩
/-- Field MEAS_MV. -/
def R.PWR_AVS.MEAS_MV : Fld := ⟨R.PWR_AVS.off, 16, 10⟩
/-- PWR_CLAIM_HART (10_lining_shell.md, Table 10-10). -/
def R.PWR_CLAIM_HART.off : Nat := 0x100200
/-- Field HART. -/
def R.PWR_CLAIM_HART.HART : Fld := ⟨R.PWR_CLAIM_HART.off, 0, 64⟩
/-- PWR_CLAIM_BLK (10_lining_shell.md, Table 10-11). -/
def R.PWR_CLAIM_BLK.off : Nat := 0x100208
/-- Field BLK. -/
def R.PWR_CLAIM_BLK.BLK : Fld := ⟨R.PWR_CLAIM_BLK.off, 0, 36⟩
/-- TMU_STATUS (14_timers.md, Table 14-6). -/
def R.TMU_STATUS.off : Nat := 0x200000
/-- Field LIVE_READ. -/
def R.TMU_STATUS.LIVE_READ : Fld := ⟨R.TMU_STATUS.off, 0, 1⟩
/-- Field LIVE_ENG. -/
def R.TMU_STATUS.LIVE_ENG : Fld := ⟨R.TMU_STATUS.off, 1, 5⟩
/-- Field PTP_OVF. -/
def R.TMU_STATUS.PTP_OVF : Fld := ⟨R.TMU_STATUS.off, 6, 6⟩
/-- Field SNAP_SEQ. -/
def R.TMU_STATUS.SNAP_SEQ : Fld := ⟨R.TMU_STATUS.off, 16, 32⟩
/-- TMU_GO (14_timers.md, Table 14-7). -/
def R.TMU_GO.off : Nat := 0x200008
/-- Field MASK. -/
def R.TMU_GO.MASK : Fld := ⟨R.TMU_GO.off, 0, 64⟩
/-- TMU_HALT (14_timers.md, Table 14-7). -/
def R.TMU_HALT.off : Nat := 0x200010
/-- Field MASK. -/
def R.TMU_HALT.MASK : Fld := ⟨R.TMU_HALT.off, 0, 64⟩
/-- TMU_SNAP (14_timers.md, Table 14-7). -/
def R.TMU_SNAP.off : Nat := 0x200018
/-- Field MASK. -/
def R.TMU_SNAP.MASK : Fld := ⟨R.TMU_SNAP.off, 0, 64⟩
/-- TMU_RUN (14_timers.md, Table 14-7). -/
def R.TMU_RUN.off : Nat := 0x200020
/-- Field MASK. -/
def R.TMU_RUN.MASK : Fld := ⟨R.TMU_RUN.off, 0, 64⟩
/-- TMU_WORLD (14_timers.md, Table 14-8). -/
def R.TMU_WORLD.off : Nat := 0x200028
/-- Field LINING. -/
def R.TMU_WORLD.LINING : Fld := ⟨R.TMU_WORLD.off, 0, 64⟩
/-- TMU_T00_RATE (14_timers.md, Table 14-9). -/
def R.TMU_T00_RATE.off : Nat := 0x200040
/-- Field RATE. -/
def R.TMU_T00_RATE.RATE : Fld := ⟨R.TMU_T00_RATE.off, 0, 40⟩
/-- TMU_T00_STEP (14_timers.md, Table 14-9). -/
def R.TMU_T00_STEP.off : Nat := 0x200048
/-- Field STEP. -/
def R.TMU_T00_STEP.STEP : Fld := ⟨R.TMU_T00_STEP.off, 0, 64⟩
/-- TMU_T00_CTL (14_timers.md, Table 14-9). -/
def R.TMU_T00_CTL.off : Nat := 0x200050
/-- Field LOCKED. -/
def R.TMU_T00_CTL.LOCKED : Fld := ⟨R.TMU_T00_CTL.off, 0, 1⟩
/-- Field ON_ENGCLK. -/
def R.TMU_T00_CTL.ON_ENGCLK : Fld := ⟨R.TMU_T00_CTL.off, 1, 1⟩
/-- TMU_PPS (14_timers.md, Table 14-10). -/
def R.TMU_PPS.off (i : Nat) : Nat := 0x200060 + 8 * i
/-- Field ENABLE. -/
def R.TMU_PPS.ENABLE (i : Nat) : Fld := ⟨R.TMU_PPS.off i, 0, 1⟩
/-- Field SRC. -/
def R.TMU_PPS.SRC (i : Nat) : Fld := ⟨R.TMU_PPS.off i, 1, 1⟩
/-- Field WIDTH_US. -/
def R.TMU_PPS.WIDTH_US (i : Nat) : Fld := ⟨R.TMU_PPS.off i, 16, 16⟩
/-- TMR_CFG (14_timers.md, Table 14-11). -/
def R.TMR_CFG.off (i : Nat) : Nat := 0x210000 + 64 * i
/-- Field PRESCALE. -/
def R.TMR_CFG.PRESCALE (i : Nat) : Fld := ⟨R.TMR_CFG.off i, 0, 16⟩
/-- Field SRC. -/
def R.TMR_CFG.SRC (i : Nat) : Fld := ⟨R.TMR_CFG.off i, 16, 6⟩
/-- Field POL. -/
def R.TMR_CFG.POL (i : Nat) : Fld := ⟨R.TMR_CFG.off i, 22, 1⟩
/-- Field FILTER. -/
def R.TMR_CFG.FILTER (i : Nat) : Fld := ⟨R.TMR_CFG.off i, 23, 4⟩
/-- Field CAP_EN. -/
def R.TMR_CFG.CAP_EN (i : Nat) : Fld := ⟨R.TMR_CFG.off i, 27, 1⟩
/-- Field IE_MATCH. -/
def R.TMR_CFG.IE_MATCH (i : Nat) : Fld := ⟨R.TMR_CFG.off i, 28, 1⟩
/-- Field IE_RISE. -/
def R.TMR_CFG.IE_RISE (i : Nat) : Fld := ⟨R.TMR_CFG.off i, 29, 1⟩
/-- Field IE_FALL. -/
def R.TMR_CFG.IE_FALL (i : Nat) : Fld := ⟨R.TMR_CFG.off i, 30, 1⟩
/-- Field RELOAD. -/
def R.TMR_CFG.RELOAD (i : Nat) : Fld := ⟨R.TMR_CFG.off i, 32, 32⟩
/-- TMR_COUNT (14_timers.md, Table 14-11). -/
def R.TMR_COUNT.off (i : Nat) : Nat := 0x210008 + 64 * i
/-- Field COUNT. -/
def R.TMR_COUNT.COUNT (i : Nat) : Fld := ⟨R.TMR_COUNT.off i, 0, 64⟩
/-- TMR_CMP (14_timers.md, Table 14-11). -/
def R.TMR_CMP.off (i : Nat) : Nat := 0x210010 + 64 * i
/-- Field CMP. -/
def R.TMR_CMP.CMP (i : Nat) : Fld := ⟨R.TMR_CMP.off i, 0, 64⟩
/-- TMR_RISE (14_timers.md, Table 14-11). -/
def R.TMR_RISE.off (i : Nat) : Nat := 0x210018 + 64 * i
/-- Field RISE. -/
def R.TMR_RISE.RISE (i : Nat) : Fld := ⟨R.TMR_RISE.off i, 0, 64⟩
/-- TMR_FALL (14_timers.md, Table 14-11). -/
def R.TMR_FALL.off (i : Nat) : Nat := 0x210020 + 64 * i
/-- Field FALL. -/
def R.TMR_FALL.FALL (i : Nat) : Fld := ⟨R.TMR_FALL.off i, 0, 64⟩
/-- TMR_WIDTH (14_timers.md, Table 14-11). -/
def R.TMR_WIDTH.off (i : Nat) : Nat := 0x210028 + 64 * i
/-- Field WIDTH. -/
def R.TMR_WIDTH.WIDTH (i : Nat) : Fld := ⟨R.TMR_WIDTH.off i, 0, 64⟩
/-- TMR_SNAP (14_timers.md, Table 14-11). -/
def R.TMR_SNAP.off (i : Nat) : Nat := 0x210030 + 64 * i
/-- Field SNAP. -/
def R.TMR_SNAP.SNAP (i : Nat) : Fld := ⟨R.TMR_SNAP.off i, 0, 64⟩
/-- TMR_STAT (14_timers.md, Table 14-11). -/
def R.TMR_STAT.off (i : Nat) : Nat := 0x210038 + 64 * i
/-- Field MATCH. -/
def R.TMR_STAT.MATCH (i : Nat) : Fld := ⟨R.TMR_STAT.off i, 0, 1⟩
/-- Field MISS. -/
def R.TMR_STAT.MISS (i : Nat) : Fld := ⟨R.TMR_STAT.off i, 1, 1⟩
/-- Field NEW_R. -/
def R.TMR_STAT.NEW_R (i : Nat) : Fld := ⟨R.TMR_STAT.off i, 2, 1⟩
/-- Field NEW_F. -/
def R.TMR_STAT.NEW_F (i : Nat) : Fld := ⟨R.TMR_STAT.off i, 3, 1⟩
/-- Field LOST_R. -/
def R.TMR_STAT.LOST_R (i : Nat) : Fld := ⟨R.TMR_STAT.off i, 4, 1⟩
/-- Field LOST_F. -/
def R.TMR_STAT.LOST_F (i : Nat) : Fld := ⟨R.TMR_STAT.off i, 5, 1⟩
/-- Field OVR. -/
def R.TMR_STAT.OVR (i : Nat) : Fld := ⟨R.TMR_STAT.off i, 6, 1⟩
/-- Field RUNNING. -/
def R.TMR_STAT.RUNNING (i : Nat) : Fld := ⟨R.TMR_STAT.off i, 7, 1⟩
/-- TMU_PTPTS_LO (14_timers.md, Table 14-12). -/
def R.TMU_PTPTS_LO.off (i : Nat) : Nat := 0x220000 + 16 * i
/-- Field TIME. -/
def R.TMU_PTPTS_LO.TIME (i : Nat) : Fld := ⟨R.TMU_PTPTS_LO.off i, 0, 64⟩
/-- TMU_PTPTS_HI (14_timers.md, Table 14-12). -/
def R.TMU_PTPTS_HI.off (i : Nat) : Nat := 0x220008 + 16 * i
/-- Field SEQID. -/
def R.TMU_PTPTS_HI.SEQID (i : Nat) : Fld := ⟨R.TMU_PTPTS_HI.off i, 0, 16⟩
/-- Field MSGTYPE. -/
def R.TMU_PTPTS_HI.MSGTYPE (i : Nat) : Fld := ⟨R.TMU_PTPTS_HI.off i, 16, 4⟩
/-- Field DOMAIN. -/
def R.TMU_PTPTS_HI.DOMAIN (i : Nat) : Fld := ⟨R.TMU_PTPTS_HI.off i, 20, 8⟩
/-- Field PORT. -/
def R.TMU_PTPTS_HI.PORT (i : Nat) : Fld := ⟨R.TMU_PTPTS_HI.off i, 28, 6⟩
/-- Field DIR. -/
def R.TMU_PTPTS_HI.DIR (i : Nat) : Fld := ⟨R.TMU_PTPTS_HI.off i, 34, 1⟩
/-- Field VALID. -/
def R.TMU_PTPTS_HI.VALID (i : Nat) : Fld := ⟨R.TMU_PTPTS_HI.off i, 35, 1⟩
/-- TMU_PTM_CTL (14_timers.md, Table 14-13). -/
def R.TMU_PTM_CTL.off (i : Nat) : Nat := 0x230000 + 64 * i
/-- Field PERIOD_MS. -/
def R.TMU_PTM_CTL.PERIOD_MS (i : Nat) : Fld := ⟨R.TMU_PTM_CTL.off i, 0, 16⟩
/-- TMU_PTM_T1 (14_timers.md, Table 14-13). -/
def R.TMU_PTM_T1.off (i : Nat) : Nat := 0x230008 + 64 * i
/-- Field T1. -/
def R.TMU_PTM_T1.T1 (i : Nat) : Fld := ⟨R.TMU_PTM_T1.off i, 0, 64⟩
/-- TMU_PTM_T4 (14_timers.md, Table 14-13). -/
def R.TMU_PTM_T4.off (i : Nat) : Nat := 0x230010 + 64 * i
/-- Field T4. -/
def R.TMU_PTM_T4.T4 (i : Nat) : Fld := ⟨R.TMU_PTM_T4.off i, 0, 64⟩
/-- TMU_PTM_MASTER (14_timers.md, Table 14-13). -/
def R.TMU_PTM_MASTER.off (i : Nat) : Nat := 0x230018 + 64 * i
/-- Field MASTER. -/
def R.TMU_PTM_MASTER.MASTER (i : Nat) : Fld := ⟨R.TMU_PTM_MASTER.off i, 0, 64⟩
/-- TMU_PTM_STAT (14_timers.md, Table 14-13). -/
def R.TMU_PTM_STAT.off (i : Nat) : Nat := 0x230020 + 64 * i
/-- Field PROP_DELAY. -/
def R.TMU_PTM_STAT.PROP_DELAY (i : Nat) : Fld := ⟨R.TMU_PTM_STAT.off i, 0, 32⟩
/-- Field SEQ. -/
def R.TMU_PTM_STAT.SEQ (i : Nat) : Fld := ⟨R.TMU_PTM_STAT.off i, 32, 16⟩
/-- SEAM_STATUS (10_lining_shell.md, Table 10-12). -/
def R.SEAM_STATUS.off : Nat := 0x300000
/-- Field VIOL_EVT. -/
def R.SEAM_STATUS.VIOL_EVT : Fld := ⟨R.SEAM_STATUS.off, 0, 1⟩
/-- Field OVF. -/
def R.SEAM_STATUS.OVF : Fld := ⟨R.SEAM_STATUS.off, 1, 1⟩
/-- Field IRQ_EN. -/
def R.SEAM_STATUS.IRQ_EN : Fld := ⟨R.SEAM_STATUS.off, 8, 1⟩
/-- Field COUNT. -/
def R.SEAM_STATUS.COUNT : Fld := ⟨R.SEAM_STATUS.off, 16, 32⟩
/-- SEAM_LOG0 (10_lining_shell.md, Table 10-13). -/
def R.SEAM_LOG0.off : Nat := 0x300008
/-- Field VALID. -/
def R.SEAM_LOG0.VALID : Fld := ⟨R.SEAM_LOG0.off, 0, 1⟩
/-- Field ACC. -/
def R.SEAM_LOG0.ACC : Fld := ⟨R.SEAM_LOG0.off, 1, 2⟩
/-- Field WORLD. -/
def R.SEAM_LOG0.WORLD : Fld := ⟨R.SEAM_LOG0.off, 3, 1⟩
/-- Field CLASS. -/
def R.SEAM_LOG0.CLASS : Fld := ⟨R.SEAM_LOG0.off, 4, 4⟩
/-- Field CHECKER. -/
def R.SEAM_LOG0.CHECKER : Fld := ⟨R.SEAM_LOG0.off, 8, 4⟩
/-- Field REQ. -/
def R.SEAM_LOG0.REQ : Fld := ⟨R.SEAM_LOG0.off, 16, 16⟩
/-- Field REGION. -/
def R.SEAM_LOG0.REGION : Fld := ⟨R.SEAM_LOG0.off, 32, 7⟩
/-- SEAM_LOG1 (10_lining_shell.md, Table 10-14). -/
def R.SEAM_LOG1.off : Nat := 0x300010
/-- Field ADDR. -/
def R.SEAM_LOG1.ADDR : Fld := ⟨R.SEAM_LOG1.off, 0, 64⟩
/-- SEAM_LOG2 (10_lining_shell.md, Table 10-14). -/
def R.SEAM_LOG2.off : Nat := 0x300018
/-- Field TIME. -/
def R.SEAM_LOG2.TIME : Fld := ⟨R.SEAM_LOG2.off, 0, 64⟩
/-- SEAM_GPIOW (10_lining_shell.md, Table 10-15). -/
def R.SEAM_GPIOW.off : Nat := 0x300020
/-- Field LINING. -/
def R.SEAM_GPIOW.LINING : Fld := ⟨R.SEAM_GPIOW.off, 0, 48⟩
/-- SEAM_DEBUG (10_lining_shell.md, Table 10-16). -/
def R.SEAM_DEBUG.off : Nat := 0x300028
/-- Field POLICY. -/
def R.SEAM_DEBUG.POLICY : Fld := ⟨R.SEAM_DEBUG.off, 0, 8⟩
/-- Field OPEN. -/
def R.SEAM_DEBUG.OPEN : Fld := ⟨R.SEAM_DEBUG.off, 8, 4⟩
/-- Field FACTORY_KEY_OFF. -/
def R.SEAM_DEBUG.FACTORY_KEY_OFF : Fld := ⟨R.SEAM_DEBUG.off, 12, 1⟩
/-- SEAM_RGNA (10_lining_shell.md, Table 10-17), the live copy. -/
def R.SEAM_RGNA.off (i j : Nat) : Nat := 0x380000 + 4096 * i + 16 * j
/-- Field BASE. -/
def R.SEAM_RGNA.BASE (i j : Nat) : Fld := ⟨R.SEAM_RGNA.off i j, 0, 44⟩
/-- Field OWNER. -/
def R.SEAM_RGNA.OWNER (i j : Nat) : Fld := ⟨R.SEAM_RGNA.off i j, 44, 2⟩
/-- Field LR. -/
def R.SEAM_RGNA.LR (i j : Nat) : Fld := ⟨R.SEAM_RGNA.off i j, 46, 1⟩
/-- Field LW. -/
def R.SEAM_RGNA.LW (i j : Nat) : Fld := ⟨R.SEAM_RGNA.off i j, 47, 1⟩
/-- Field LX. -/
def R.SEAM_RGNA.LX (i j : Nat) : Fld := ⟨R.SEAM_RGNA.off i j, 48, 1⟩
/-- Field SR. -/
def R.SEAM_RGNA.SR (i j : Nat) : Fld := ⟨R.SEAM_RGNA.off i j, 49, 1⟩
/-- Field SW. -/
def R.SEAM_RGNA.SW (i j : Nat) : Fld := ⟨R.SEAM_RGNA.off i j, 50, 1⟩
/-- Field SX. -/
def R.SEAM_RGNA.SX (i j : Nat) : Fld := ⟨R.SEAM_RGNA.off i j, 51, 1⟩
/-- Field ENC. -/
def R.SEAM_RGNA.ENC (i j : Nat) : Fld := ⟨R.SEAM_RGNA.off i j, 52, 1⟩
/-- Field ENABLE. -/
def R.SEAM_RGNA.ENABLE (i j : Nat) : Fld := ⟨R.SEAM_RGNA.off i j, 53, 1⟩
/-- SEAM_RGNB (10_lining_shell.md, Table 10-17), the live copy. -/
def R.SEAM_RGNB.off (i j : Nat) : Nat := 0x380008 + 4096 * i + 16 * j
/-- Field LIMIT. -/
def R.SEAM_RGNB.LIMIT (i j : Nat) : Fld := ⟨R.SEAM_RGNB.off i j, 0, 44⟩
/-- SPOOL_STATUS (13_spool_boot.md, Table 13-11). -/
def R.SPOOL_STATUS.off : Nat := 0x400000
/-- Field SLOT. -/
def R.SPOOL_STATUS.SLOT : Fld := ⟨R.SPOOL_STATUS.off, 0, 1⟩
/-- Field RECOVERY. -/
def R.SPOOL_STATUS.RECOVERY : Fld := ⟨R.SPOOL_STATUS.off, 1, 1⟩
/-- Field FLASH_A. -/
def R.SPOOL_STATUS.FLASH_A : Fld := ⟨R.SPOOL_STATUS.off, 2, 1⟩
/-- Field FLASH_B. -/
def R.SPOOL_STATUS.FLASH_B : Fld := ⟨R.SPOOL_STATUS.off, 3, 1⟩
/-- Field DDR_DONE. -/
def R.SPOOL_STATUS.DDR_DONE : Fld := ⟨R.SPOOL_STATUS.off, 4, 1⟩
/-- Field BIST_DONE. -/
def R.SPOOL_STATUS.BIST_DONE : Fld := ⟨R.SPOOL_STATUS.off, 5, 1⟩
/-- Field KEYS_OPEN. -/
def R.SPOOL_STATUS.KEYS_OPEN : Fld := ⟨R.SPOOL_STATUS.off, 6, 1⟩
/-- Field UNGATED. -/
def R.SPOOL_STATUS.UNGATED : Fld := ⟨R.SPOOL_STATUS.off, 7, 1⟩
/-- Field RETRIES. -/
def R.SPOOL_STATUS.RETRIES : Fld := ⟨R.SPOOL_STATUS.off, 8, 2⟩
/-- Field SVN_T. -/
def R.SPOOL_STATUS.SVN_T : Fld := ⟨R.SPOOL_STATUS.off, 16, 7⟩
/-- Field BUILD. -/
def R.SPOOL_STATUS.BUILD : Fld := ⟨R.SPOOL_STATUS.off, 32, 32⟩
/-- SPOOL_SLOTSTAT (13_spool_boot.md, Table 13-12). -/
def R.SPOOL_SLOTSTAT.off (i : Nat) : Nat := 0x400008 + 8 * i
/-- Field REASON. -/
def R.SPOOL_SLOTSTAT.REASON (i : Nat) : Fld := ⟨R.SPOOL_SLOTSTAT.off i, 0, 6⟩
/-- Field EXCLUDED. -/
def R.SPOOL_SLOTSTAT.EXCLUDED (i : Nat) : Fld := ⟨R.SPOOL_SLOTSTAT.off i, 6, 1⟩
/-- Field HDR_OK. -/
def R.SPOOL_SLOTSTAT.HDR_OK (i : Nat) : Fld := ⟨R.SPOOL_SLOTSTAT.off i, 7, 1⟩
/-- Field SVN. -/
def R.SPOOL_SLOTSTAT.SVN (i : Nat) : Fld := ⟨R.SPOOL_SLOTSTAT.off i, 8, 7⟩
/-- Field KEYSLOT. -/
def R.SPOOL_SLOTSTAT.KEYSLOT (i : Nat) : Fld := ⟨R.SPOOL_SLOTSTAT.off i, 16, 2⟩
/-- Field BUILD. -/
def R.SPOOL_SLOTSTAT.BUILD (i : Nat) : Fld := ⟨R.SPOOL_SLOTSTAT.off i, 32, 32⟩
/-- SPOOL_CTL (13_spool_boot.md, Table 13-13). -/
def R.SPOOL_CTL.off : Nat := 0x400018
/-- Field UNGATE. -/
def R.SPOOL_CTL.UNGATE : Fld := ⟨R.SPOOL_CTL.off, 0, 1⟩
/-- Field RETRY. -/
def R.SPOOL_CTL.RETRY : Fld := ⟨R.SPOOL_CTL.off, 1, 1⟩
/-- Field FAIL. -/
def R.SPOOL_CTL.FAIL : Fld := ⟨R.SPOOL_CTL.off, 8, 6⟩
/-- SPOOL_HARTVEC (13_spool_boot.md, Table 13-14). -/
def R.SPOOL_HARTVEC.off : Nat := 0x400020
/-- Field ENTRY. -/
def R.SPOOL_HARTVEC.ENTRY : Fld := ⟨R.SPOOL_HARTVEC.off, 0, 56⟩
/-- SPOOL_TIME (13_spool_boot.md, Table 13-15). -/
def R.SPOOL_TIME.off : Nat := 0x400028
/-- Field VERDICT_US. -/
def R.SPOOL_TIME.VERDICT_US : Fld := ⟨R.SPOOL_TIME.off, 0, 32⟩
/-- Field UNGATE_US. -/
def R.SPOOL_TIME.UNGATE_US : Fld := ⟨R.SPOOL_TIME.off, 32, 32⟩
/-- FUSE_STATE (13_spool_boot.md, Table 13-16). -/
def R.FUSE_STATE.off : Nat := 0x410000
/-- Field PRESENT. -/
def R.FUSE_STATE.PRESENT : Fld := ⟨R.FUSE_STATE.off, 0, 4⟩
/-- Field REVOKED. -/
def R.FUSE_STATE.REVOKED : Fld := ⟨R.FUSE_STATE.off, 4, 4⟩
/-- Field SVN_T. -/
def R.FUSE_STATE.SVN_T : Fld := ⟨R.FUSE_STATE.off, 8, 7⟩
/-- Field SVN_P. -/
def R.FUSE_STATE.SVN_P : Fld := ⟨R.FUSE_STATE.off, 16, 7⟩
/-- Field VPP_OK. -/
def R.FUSE_STATE.VPP_OK : Fld := ⟨R.FUSE_STATE.off, 24, 1⟩
/-- FUSE_PROG (13_spool_boot.md, Table 13-17). -/
def R.FUSE_PROG.off : Nat := 0x410040
/-- Field FIELD. -/
def R.FUSE_PROG.FIELD : Fld := ⟨R.FUSE_PROG.off, 0, 4⟩
/-- Field INDEX. -/
def R.FUSE_PROG.INDEX : Fld := ⟨R.FUSE_PROG.off, 4, 2⟩
/-- Field GO. -/
def R.FUSE_PROG.GO : Fld := ⟨R.FUSE_PROG.off, 6, 1⟩
/-- Field BUSY. -/
def R.FUSE_PROG.BUSY : Fld := ⟨R.FUSE_PROG.off, 7, 1⟩
/-- Field STATUS. -/
def R.FUSE_PROG.STATUS : Fld := ⟨R.FUSE_PROG.off, 16, 16⟩
/-- FUSE_PDATA (13_spool_boot.md, Table 13-17). -/
def R.FUSE_PDATA.off (i : Nat) : Nat := 0x410048 + 8 * i
/-- Field VALUE. -/
def R.FUSE_PDATA.VALUE (i : Nat) : Fld := ⟨R.FUSE_PDATA.off i, 0, 64⟩
/-- FUSE_KEYHASH (13_spool_boot.md, Table 13-17). -/
def R.FUSE_KEYHASH.off (i j : Nat) : Nat := 0x410100 + 64 * i + 8 * j
/-- Field VALUE. -/
def R.FUSE_KEYHASH.VALUE (i j : Nat) : Fld := ⟨R.FUSE_KEYHASH.off i j, 0, 64⟩
/-- MOULT_CFG (15_power_moult.md, Table 15-18). -/
def R.MOULT_CFG.off : Nat := 0x500000
/-- Field PERIOD_S. -/
def R.MOULT_CFG.PERIOD_S : Fld := ⟨R.MOULT_CFG.off, 0, 17⟩
/-- MOULT_STATUS (15_power_moult.md, Table 15-19). -/
def R.MOULT_STATUS.off : Nat := 0x500008
/-- Field DONE. -/
def R.MOULT_STATUS.DONE : Fld := ⟨R.MOULT_STATUS.off, 0, 13⟩
/-- Field ACTIVE. -/
def R.MOULT_STATUS.ACTIVE : Fld := ⟨R.MOULT_STATUS.off, 13, 3⟩
/-- Field FULLRATE. -/
def R.MOULT_STATUS.FULLRATE : Fld := ⟨R.MOULT_STATUS.off, 16, 1⟩
/-- Field PASS_EVT. -/
def R.MOULT_STATUS.PASS_EVT : Fld := ⟨R.MOULT_STATUS.off, 17, 1⟩
/-- Field RETIRE_EVT. -/
def R.MOULT_STATUS.RETIRE_EVT : Fld := ⟨R.MOULT_STATUS.off, 18, 1⟩
/-- Field NOSPARE_EVT. -/
def R.MOULT_STATUS.NOSPARE_EVT : Fld := ⟨R.MOULT_STATUS.off, 19, 1⟩
/-- Field IRQ_EN. -/
def R.MOULT_STATUS.IRQ_EN : Fld := ⟨R.MOULT_STATUS.off, 24, 1⟩
/-- Field PASSES. -/
def R.MOULT_STATUS.PASSES : Fld := ⟨R.MOULT_STATUS.off, 32, 16⟩
/-- MOULT_LAST (15_power_moult.md, Table 15-20). -/
def R.MOULT_LAST.off : Nat := 0x500010
/-- Field SLICE. -/
def R.MOULT_LAST.SLICE : Fld := ⟨R.MOULT_LAST.off, 0, 16⟩
/-- Field RETIRED. -/
def R.MOULT_LAST.RETIRED : Fld := ⟨R.MOULT_LAST.off, 16, 7⟩
/-- Field MIN_SPARES. -/
def R.MOULT_LAST.MIN_SPARES : Fld := ⟨R.MOULT_LAST.off, 24, 4⟩
/-- SAFE_STATUS (08_ordering_containment.md, Table 08-11). -/
def R.SAFE_STATUS.off : Nat := 0x600000
/-- Field CE_COUNT. -/
def R.SAFE_STATUS.CE_COUNT : Fld := ⟨R.SAFE_STATUS.off, 0, 16⟩
/-- Field CE_EVT. -/
def R.SAFE_STATUS.CE_EVT : Fld := ⟨R.SAFE_STATUS.off, 16, 1⟩
/-- Field DF_EVT. -/
def R.SAFE_STATUS.DF_EVT : Fld := ⟨R.SAFE_STATUS.off, 17, 1⟩
/-- Field LATENT_EVT. -/
def R.SAFE_STATUS.LATENT_EVT : Fld := ⟨R.SAFE_STATUS.off, 18, 1⟩
/-- Field WDOG_EVT. -/
def R.SAFE_STATUS.WDOG_EVT : Fld := ⟨R.SAFE_STATUS.off, 19, 1⟩
/-- Field LAST_CLASS. -/
def R.SAFE_STATUS.LAST_CLASS : Fld := ⟨R.SAFE_STATUS.off, 24, 3⟩
/-- Field DF_COUNT. -/
def R.SAFE_STATUS.DF_COUNT : Fld := ⟨R.SAFE_STATUS.off, 32, 8⟩
/-- Field IRQ_EN. -/
def R.SAFE_STATUS.IRQ_EN : Fld := ⟨R.SAFE_STATUS.off, 40, 1⟩
/-- SAFE_REC0 (08_ordering_containment.md, Table 08-12). -/
def R.SAFE_REC0.off : Nat := 0x600010
/-- Field MECH. -/
def R.SAFE_REC0.MECH : Fld := ⟨R.SAFE_REC0.off, 0, 4⟩
/-- Field CLASS. -/
def R.SAFE_REC0.CLASS : Fld := ⟨R.SAFE_REC0.off, 4, 3⟩
/-- Field VALID. -/
def R.SAFE_REC0.VALID : Fld := ⟨R.SAFE_REC0.off, 7, 1⟩
/-- Field PANEL. -/
def R.SAFE_REC0.PANEL : Fld := ⟨R.SAFE_REC0.off, 8, 2⟩
/-- Field TILE. -/
def R.SAFE_REC0.TILE : Fld := ⟨R.SAFE_REC0.off, 10, 4⟩
/-- Field UNIT. -/
def R.SAFE_REC0.UNIT : Fld := ⟨R.SAFE_REC0.off, 16, 16⟩
/-- Field DETAIL. -/
def R.SAFE_REC0.DETAIL : Fld := ⟨R.SAFE_REC0.off, 32, 32⟩
/-- SAFE_REC1 (08_ordering_containment.md, Table 08-13). -/
def R.SAFE_REC1.off : Nat := 0x600018
/-- Field TIME. -/
def R.SAFE_REC1.TIME : Fld := ⟨R.SAFE_REC1.off, 0, 64⟩
/-- SAFE_WDOG (08_ordering_containment.md, Table 08-14). -/
def R.SAFE_WDOG.off : Nat := 0x600020
/-- Field KICK. -/
def R.SAFE_WDOG.KICK : Fld := ⟨R.SAFE_WDOG.off, 0, 16⟩
/-- Field PERIOD_MS. -/
def R.SAFE_WDOG.PERIOD_MS : Fld := ⟨R.SAFE_WDOG.off, 16, 20⟩
/-- Field ENABLE. -/
def R.SAFE_WDOG.ENABLE : Fld := ⟨R.SAFE_WDOG.off, 36, 1⟩
/-- SAFE_INJECT (08_ordering_containment.md, Table 08-15). -/
def R.SAFE_INJECT.off : Nat := 0x600028
/-- Field MECH. -/
def R.SAFE_INJECT.MECH : Fld := ⟨R.SAFE_INJECT.off, 0, 4⟩
/-- Field PANEL. -/
def R.SAFE_INJECT.PANEL : Fld := ⟨R.SAFE_INJECT.off, 4, 2⟩
/-- Field TILE. -/
def R.SAFE_INJECT.TILE : Fld := ⟨R.SAFE_INJECT.off, 6, 4⟩
/-- Field GO. -/
def R.SAFE_INJECT.GO : Fld := ⟨R.SAFE_INJECT.off, 10, 1⟩
/-- TAPE_CFG (07_tape.md, Table 07-12), the live copy. -/
def R.TAPE_CFG.off : Nat := 0x800008
/-- Field ORPHAN_ACCT. -/
def R.TAPE_CFG.ORPHAN_ACCT : Fld := ⟨R.TAPE_CFG.off, 0, 13⟩
/-- Field HOST_ACCT. -/
def R.TAPE_CFG.HOST_ACCT : Fld := ⟨R.TAPE_CFG.off, 16, 13⟩
/-- TAPE_STATUS (07_tape.md, Table 07-13). -/
def R.TAPE_STATUS.off : Nat := 0x800010
/-- Field BANK. -/
def R.TAPE_STATUS.BANK : Fld := ⟨R.TAPE_STATUS.off, 0, 1⟩
/-- Field DRAINED. -/
def R.TAPE_STATUS.DRAINED : Fld := ⟨R.TAPE_STATUS.off, 1, 1⟩
/-- Field RING_FULL. -/
def R.TAPE_STATUS.RING_FULL : Fld := ⟨R.TAPE_STATUS.off, 2, 1⟩
/-- Field SKIP_EVT. -/
def R.TAPE_STATUS.SKIP_EVT : Fld := ⟨R.TAPE_STATUS.off, 3, 1⟩
/-- Field ORPHAN_EVT. -/
def R.TAPE_STATUS.ORPHAN_EVT : Fld := ⟨R.TAPE_STATUS.off, 4, 1⟩
/-- Field PEER_LATE_EVT. -/
def R.TAPE_STATUS.PEER_LATE_EVT : Fld := ⟨R.TAPE_STATUS.off, 5, 1⟩
/-- Field SKEW_EVT. -/
def R.TAPE_STATUS.SKEW_EVT : Fld := ⟨R.TAPE_STATUS.off, 6, 1⟩
/-- Field BAD_HEAD. -/
def R.TAPE_STATUS.BAD_HEAD : Fld := ⟨R.TAPE_STATUS.off, 7, 1⟩
/-- Field REC_EVT. -/
def R.TAPE_STATUS.REC_EVT : Fld := ⟨R.TAPE_STATUS.off, 8, 1⟩
/-- Field IRQ_EN. -/
def R.TAPE_STATUS.IRQ_EN : Fld := ⟨R.TAPE_STATUS.off, 16, 1⟩
/-- TAPE_RING (07_tape.md, Table 07-14), the live copy. -/
def R.TAPE_RING.off : Nat := 0x800028
/-- Field BASE. -/
def R.TAPE_RING.BASE : Fld := ⟨R.TAPE_RING.off, 0, 44⟩
/-- Field SIZE_MIB. -/
def R.TAPE_RING.SIZE_MIB : Fld := ⟨R.TAPE_RING.off, 44, 16⟩
/-- Field ENABLE. -/
def R.TAPE_RING.ENABLE : Fld := ⟨R.TAPE_RING.off, 63, 1⟩
/-- TAPE_RING_PTR (07_tape.md, Table 07-15). -/
def R.TAPE_RING_PTR.off : Nat := 0x800030
/-- Field HEAD. -/
def R.TAPE_RING_PTR.HEAD : Fld := ⟨R.TAPE_RING_PTR.off, 0, 32⟩
/-- Field TAIL. -/
def R.TAPE_RING_PTR.TAIL : Fld := ⟨R.TAPE_RING_PTR.off, 32, 32⟩
/-- TAPE_RSEQ (07_tape.md, Table 07-16). -/
def R.TAPE_RSEQ.off : Nat := 0x800038
/-- Field RSEQ. -/
def R.TAPE_RSEQ.RSEQ : Fld := ⟨R.TAPE_RSEQ.off, 0, 64⟩
/-- TAPE_FNACCT (07_tape.md, Table 07-17), the live copy. -/
def R.TAPE_FNACCT.off (i : Nat) : Nat := 0x820000 + 8 * i
/-- Field ACCOUNT. -/
def R.TAPE_FNACCT.ACCOUNT (i : Nat) : Fld := ⟨R.TAPE_FNACCT.off i, 0, 13⟩
/-- TAPE_ACCT (07_tape.md, Table 07-18), the live copy. -/
def R.TAPE_ACCT.off (i : Nat) : Nat := 0x840000 + 8 * i
/-- Field ENABLE. -/
def R.TAPE_ACCT.ENABLE (i : Nat) : Fld := ⟨R.TAPE_ACCT.off i, 0, 1⟩
/-- TAPE_NOW (07_tape.md, Table 07-19). -/
def R.TAPE_NOW.off (i j : Nat) : Nat := 0xc00000 + 128 * i + 8 * j
/-- Field COUNT. -/
def R.TAPE_NOW.COUNT (i j : Nat) : Fld := ⟨R.TAPE_NOW.off i j, 0, 64⟩
/-- QFAB_STATUS (03_functions_queues.md, Table 03-6). -/
def R.QFAB_STATUS.off : Nat := 0x1000000
/-- Field FREE_LIVE. -/
def R.QFAB_STATUS.FREE_LIVE : Fld := ⟨R.QFAB_STATUS.off, 0, 17⟩
/-- Field FREE_STAGED. -/
def R.QFAB_STATUS.FREE_STAGED : Fld := ⟨R.QFAB_STATUS.off, 32, 17⟩
/-- Field FN_DUP. -/
def R.QFAB_STATUS.FN_DUP : Fld := ⟨R.QFAB_STATUS.off, 56, 1⟩
/-- QFAB_QOWN (03_functions_queues.md, Table 03-7), the live copy. -/
def R.QFAB_QOWN.off (i : Nat) : Nat := 0x1180000 + 8 * i
/-- Field FUNCTION. -/
def R.QFAB_QOWN.FUNCTION (i : Nat) : Fld := ⟨R.QFAB_QOWN.off i, 0, 13⟩
/-- Field VALID. -/
def R.QFAB_QOWN.VALID (i : Nat) : Fld := ⟨R.QFAB_QOWN.off i, 15, 1⟩
/-- Field LOCAL. -/
def R.QFAB_QOWN.LOCAL (i : Nat) : Fld := ⟨R.QFAB_QOWN.off i, 16, 12⟩
/-- Field CLASS. -/
def R.QFAB_QOWN.CLASS (i : Nat) : Fld := ⟨R.QFAB_QOWN.off i, 32, 3⟩
/-- QFAB_FNCFG (03_functions_queues.md, Table 03-8), the live copy. -/
def R.QFAB_FNCFG.off (i : Nat) : Nat := 0x1220000 + 8 * i
/-- Field ENABLE. -/
def R.QFAB_FNCFG.ENABLE (i : Nat) : Fld := ⟨R.QFAB_FNCFG.off i, 0, 1⟩
/-- Field PERSONALITY. -/
def R.QFAB_FNCFG.PERSONALITY (i : Nat) : Fld := ⟨R.QFAB_FNCFG.off i, 1, 3⟩
/-- Field PORT. -/
def R.QFAB_FNCFG.PORT (i : Nat) : Fld := ⟨R.QFAB_FNCFG.off i, 8, 5⟩
/-- Field VF_INDEX. -/
def R.QFAB_FNCFG.VF_INDEX (i : Nat) : Fld := ⟨R.QFAB_FNCFG.off i, 16, 11⟩
/-- Field MSIX_COUNT. -/
def R.QFAB_FNCFG.MSIX_COUNT (i : Nat) : Fld := ⟨R.QFAB_FNCFG.off i, 32, 12⟩
/-- Field MIRROR. -/
def R.QFAB_FNCFG.MIRROR (i : Nat) : Fld := ⟨R.QFAB_FNCFG.off i, 48, 1⟩
/-- QFAB_FSCHED0 (03_functions_queues.md, Table 03-24), the live copy. -/
def R.QFAB_FSCHED0.off (i : Nat) : Nat := 0x1260000 + 16 * i
/-- Field WEIGHT. -/
def R.QFAB_FSCHED0.WEIGHT (i : Nat) : Fld := ⟨R.QFAB_FSCHED0.off i, 0, 8⟩
/-- Field GUAR. -/
def R.QFAB_FSCHED0.GUAR (i : Nat) : Fld := ⟨R.QFAB_FSCHED0.off i, 8, 20⟩
/-- Field GUAR_CLASS. -/
def R.QFAB_FSCHED0.GUAR_CLASS (i : Nat) : Fld := ⟨R.QFAB_FSCHED0.off i, 28, 3⟩
/-- QFAB_FSCHED1 (03_functions_queues.md, Table 03-25), the live copy. -/
def R.QFAB_FSCHED1.off (i : Nat) : Nat := 0x1260008 + 16 * i
/-- Field CAP_B. -/
def R.QFAB_FSCHED1.CAP_B (i : Nat) : Fld := ⟨R.QFAB_FSCHED1.off i, 0, 20⟩
/-- Field CAP_OPS. -/
def R.QFAB_FSCHED1.CAP_OPS (i : Nat) : Fld := ⟨R.QFAB_FSCHED1.off i, 20, 20⟩
/-- Field BBURST. -/
def R.QFAB_FSCHED1.BBURST (i : Nat) : Fld := ⟨R.QFAB_FSCHED1.off i, 40, 12⟩
/-- Field OBURST. -/
def R.QFAB_FSCHED1.OBURST (i : Nat) : Fld := ⟨R.QFAB_FSCHED1.off i, 52, 12⟩
/-- QFAB_ASCHED (03_functions_queues.md, Table 03-25), the live copy. -/
def R.QFAB_ASCHED.off (i : Nat) : Nat := 0x1290000 + 8 * i
/-- Field CAP_B. -/
def R.QFAB_ASCHED.CAP_B (i : Nat) : Fld := ⟨R.QFAB_ASCHED.off i, 0, 20⟩
/-- Field CAP_OPS. -/
def R.QFAB_ASCHED.CAP_OPS (i : Nat) : Fld := ⟨R.QFAB_ASCHED.off i, 20, 20⟩
/-- Field BBURST. -/
def R.QFAB_ASCHED.BBURST (i : Nat) : Fld := ⟨R.QFAB_ASCHED.off i, 40, 12⟩
/-- Field OBURST. -/
def R.QFAB_ASCHED.OBURST (i : Nat) : Fld := ⟨R.QFAB_ASCHED.off i, 52, 12⟩
/-- QFAB_QSTATE (03_functions_queues.md, Table 03-9). -/
def R.QFAB_QSTATE.off (i : Nat) : Nat := 0x1300000 + 8 * i
/-- Field STATE. -/
def R.QFAB_QSTATE.STATE (i : Nat) : Fld := ⟨R.QFAB_QSTATE.off i, 0, 3⟩
/-- Field HELD. -/
def R.QFAB_QSTATE.HELD (i : Nat) : Fld := ⟨R.QFAB_QSTATE.off i, 3, 1⟩
/-- Field DRAINING. -/
def R.QFAB_QSTATE.DRAINING (i : Nat) : Fld := ⟨R.QFAB_QSTATE.off i, 4, 1⟩
/-- Field FUNCTION. -/
def R.QFAB_QSTATE.FUNCTION (i : Nat) : Fld := ⟨R.QFAB_QSTATE.off i, 16, 13⟩
/-- Field LOCAL. -/
def R.QFAB_QSTATE.LOCAL (i : Nat) : Fld := ⟨R.QFAB_QSTATE.off i, 32, 12⟩
/-- Field ERRCODE. -/
def R.QFAB_QSTATE.ERRCODE (i : Nat) : Fld := ⟨R.QFAB_QSTATE.off i, 48, 16⟩
/-- QFAB_BEQ_WRING (04_personalities.md, Table 04-9). -/
def R.QFAB_BEQ_WRING.off (i : Nat) : Nat := 0x1400000 + 32 * i
/-- Field BASE. -/
def R.QFAB_BEQ_WRING.BASE (i : Nat) : Fld := ⟨R.QFAB_BEQ_WRING.off i, 0, 44⟩
/-- Field DEPTH. -/
def R.QFAB_BEQ_WRING.DEPTH (i : Nat) : Fld := ⟨R.QFAB_BEQ_WRING.off i, 44, 4⟩
/-- Field ENABLE. -/
def R.QFAB_BEQ_WRING.ENABLE (i : Nat) : Fld := ⟨R.QFAB_BEQ_WRING.off i, 48, 1⟩
/-- QFAB_BEQ_RRING (04_personalities.md, Table 04-10). -/
def R.QFAB_BEQ_RRING.off (i : Nat) : Nat := 0x1400008 + 32 * i
/-- Field BASE. -/
def R.QFAB_BEQ_RRING.BASE (i : Nat) : Fld := ⟨R.QFAB_BEQ_RRING.off i, 0, 44⟩
/-- Field DEPTH. -/
def R.QFAB_BEQ_RRING.DEPTH (i : Nat) : Fld := ⟨R.QFAB_BEQ_RRING.off i, 44, 4⟩
/-- Field INT_EN. -/
def R.QFAB_BEQ_RRING.INT_EN (i : Nat) : Fld := ⟨R.QFAB_BEQ_RRING.off i, 48, 1⟩
/-- Field HART. -/
def R.QFAB_BEQ_RRING.HART (i : Nat) : Fld := ⟨R.QFAB_BEQ_RRING.off i, 49, 6⟩
/-- Field BAD_RSP. -/
def R.QFAB_BEQ_RRING.BAD_RSP (i : Nat) : Fld := ⟨R.QFAB_BEQ_RRING.off i, 55, 1⟩
/-- Field EIID. -/
def R.QFAB_BEQ_RRING.EIID (i : Nat) : Fld := ⟨R.QFAB_BEQ_RRING.off i, 56, 8⟩
/-- QFAB_BEQ_DB (04_personalities.md, Table 04-11). -/
def R.QFAB_BEQ_DB.off (i : Nat) : Nat := 0x1400010 + 32 * i
/-- Field WHEAD. -/
def R.QFAB_BEQ_DB.WHEAD (i : Nat) : Fld := ⟨R.QFAB_BEQ_DB.off i, 0, 16⟩
/-- Field RTAIL. -/
def R.QFAB_BEQ_DB.RTAIL (i : Nat) : Fld := ⟨R.QFAB_BEQ_DB.off i, 16, 16⟩
/-- Field WTAIL. -/
def R.QFAB_BEQ_DB.WTAIL (i : Nat) : Fld := ⟨R.QFAB_BEQ_DB.off i, 32, 16⟩
/-- Field RHEAD. -/
def R.QFAB_BEQ_DB.RHEAD (i : Nat) : Fld := ⟨R.QFAB_BEQ_DB.off i, 48, 16⟩
/-- QFAB_BVOLA (04_personalities.md, Table 04-8), the live copy. -/
def R.QFAB_BVOLA.off (i j : Nat) : Nat := 0x1700000 + 256 * i + 16 * j
/-- Field VOLUME. -/
def R.QFAB_BVOLA.VOLUME (i j : Nat) : Fld := ⟨R.QFAB_BVOLA.off i j, 0, 32⟩
/-- Field BEQ. -/
def R.QFAB_BVOLA.BEQ (i j : Nat) : Fld := ⟨R.QFAB_BVOLA.off i j, 32, 8⟩
/-- Field BSIZE. -/
def R.QFAB_BVOLA.BSIZE (i j : Nat) : Fld := ⟨R.QFAB_BVOLA.off i j, 40, 1⟩
/-- Field VALID. -/
def R.QFAB_BVOLA.VALID (i j : Nat) : Fld := ⟨R.QFAB_BVOLA.off i j, 41, 1⟩
/-- QFAB_BVOLB (04_personalities.md, Table 04-8), the live copy. -/
def R.QFAB_BVOLB.off (i j : Nat) : Nat := 0x1700008 + 256 * i + 16 * j
/-- Field CAPACITY. -/
def R.QFAB_BVOLB.CAPACITY (i j : Nat) : Fld := ⟨R.QFAB_BVOLB.off i j, 0, 64⟩
/-- SHUT_CFG (05_shuttle_translation.md, Table 05-13). -/
def R.SHUT_CFG.off : Nat := 0x2000000
/-- Field PRI_TMO_MS. -/
def R.SHUT_CFG.PRI_TMO_MS : Fld := ⟨R.SHUT_CFG.off, 0, 16⟩
/-- Field LFLT_TMO_MS. -/
def R.SHUT_CFG.LFLT_TMO_MS : Fld := ⟨R.SHUT_CFG.off, 16, 16⟩
/-- Field CH_FN_MAX. -/
def R.SHUT_CFG.CH_FN_MAX : Fld := ⟨R.SHUT_CFG.off, 32, 11⟩
/-- SHUT_STATUS (05_shuttle_translation.md, Table 05-14). -/
def R.SHUT_STATUS.off : Nat := 0x2000008
/-- Field PARKED. -/
def R.SHUT_STATUS.PARKED : Fld := ⟨R.SHUT_STATUS.off, 0, 13⟩
/-- Field LATE. -/
def R.SHUT_STATUS.LATE : Fld := ⟨R.SHUT_STATUS.off, 32, 16⟩
/-- Field FLT_EVT. -/
def R.SHUT_STATUS.FLT_EVT : Fld := ⟨R.SHUT_STATUS.off, 48, 1⟩
/-- Field LATE_EVT. -/
def R.SHUT_STATUS.LATE_EVT : Fld := ⟨R.SHUT_STATUS.off, 49, 1⟩
/-- SHUT_FLT_INFO (05_shuttle_translation.md, Table 05-15). -/
def R.SHUT_FLT_INFO.off : Nat := 0x2000010
/-- Field SOURCE. -/
def R.SHUT_FLT_INFO.SOURCE : Fld := ⟨R.SHUT_FLT_INFO.off, 0, 13⟩
/-- Field LOCAL. -/
def R.SHUT_FLT_INFO.LOCAL : Fld := ⟨R.SHUT_FLT_INFO.off, 13, 1⟩
/-- Field QP. -/
def R.SHUT_FLT_INFO.QP : Fld := ⟨R.SHUT_FLT_INFO.off, 16, 16⟩
/-- Field CAUSE. -/
def R.SHUT_FLT_INFO.CAUSE : Fld := ⟨R.SHUT_FLT_INFO.off, 32, 3⟩
/-- Field PARK_OFFSET. -/
def R.SHUT_FLT_INFO.PARK_OFFSET : Fld := ⟨R.SHUT_FLT_INFO.off, 39, 25⟩
/-- SHUT_FLT_ADDR (05_shuttle_translation.md, Table 05-16). -/
def R.SHUT_FLT_ADDR.off : Nat := 0x2000018
/-- Field ADDR. -/
def R.SHUT_FLT_ADDR.ADDR : Fld := ⟨R.SHUT_FLT_ADDR.off, 0, 64⟩
/-- SHUT_LRESP (05_shuttle_translation.md, Table 05-17). -/
def R.SHUT_LRESP.off : Nat := 0x2000020
/-- Field LC. -/
def R.SHUT_LRESP.LC : Fld := ⟨R.SHUT_LRESP.off, 0, 8⟩
/-- Field DENY. -/
def R.SHUT_LRESP.DENY : Fld := ⟨R.SHUT_LRESP.off, 8, 1⟩
/-- SHUT_PRI (05_shuttle_translation.md, Table 05-18). -/
def R.SHUT_PRI.off (i : Nat) : Nat := 0x2010000 + 8 * i
/-- Field OUTSTANDING. -/
def R.SHUT_PRI.OUTSTANDING (i : Nat) : Fld := ⟨R.SHUT_PRI.off i, 0, 11⟩
/-- Field STOPPED. -/
def R.SHUT_PRI.STOPPED (i : Nat) : Fld := ⟨R.SHUT_PRI.off i, 11, 1⟩
/-- Field WAITING. -/
def R.SHUT_PRI.WAITING (i : Nat) : Fld := ⟨R.SHUT_PRI.off i, 16, 13⟩
/-- Field GROUPS. -/
def R.SHUT_PRI.GROUPS (i : Nat) : Fld := ⟨R.SHUT_PRI.off i, 32, 32⟩
/-- SHUT_KEYDATA (05_shuttle_translation.md, Table 05-19). -/
def R.SHUT_KEYDATA.off (i : Nat) : Nat := 0x2020000 + 8 * i
/-- Field DATA. -/
def R.SHUT_KEYDATA.DATA (i : Nat) : Fld := ⟨R.SHUT_KEYDATA.off i, 0, 64⟩
/-- SHUT_KEYCMD (05_shuttle_translation.md, Table 05-20). -/
def R.SHUT_KEYCMD.off : Nat := 0x2020040
/-- Field SLOT. -/
def R.SHUT_KEYCMD.SLOT : Fld := ⟨R.SHUT_KEYCMD.off, 0, 12⟩
/-- Field OWNER. -/
def R.SHUT_KEYCMD.OWNER : Fld := ⟨R.SHUT_KEYCMD.off, 12, 13⟩
/-- Field OP. -/
def R.SHUT_KEYCMD.OP : Fld := ⟨R.SHUT_KEYCMD.off, 28, 2⟩
/-- SHUT_KEYSTAT (05_shuttle_translation.md, Table 05-21). -/
def R.SHUT_KEYSTAT.off : Nat := 0x2020048
/-- Field DONE. -/
def R.SHUT_KEYSTAT.DONE : Fld := ⟨R.SHUT_KEYSTAT.off, 0, 1⟩
/-- Field WEAK. -/
def R.SHUT_KEYSTAT.WEAK : Fld := ⟨R.SHUT_KEYSTAT.off, 1, 1⟩
/-- SHUT_DLOG (05_shuttle_translation.md, Table 05-22). -/
def R.SHUT_DLOG.off (i : Nat) : Nat := 0x2030000 + 8 * i
/-- Field LOGGING. -/
def R.SHUT_DLOG.LOGGING (i : Nat) : Fld := ⟨R.SHUT_DLOG.off i, 0, 1⟩
/-- Field OVERFLOW. -/
def R.SHUT_DLOG.OVERFLOW (i : Nat) : Fld := ⟨R.SHUT_DLOG.off i, 1, 1⟩
/-- Field OVF_CAUSE. -/
def R.SHUT_DLOG.OVF_CAUSE (i : Nat) : Fld := ⟨R.SHUT_DLOG.off i, 2, 2⟩
/-- Field ACTIVE. -/
def R.SHUT_DLOG.ACTIVE (i : Nat) : Fld := ⟨R.SHUT_DLOG.off i, 4, 1⟩
/-- Field BITS. -/
def R.SHUT_DLOG.BITS (i : Nat) : Fld := ⟨R.SHUT_DLOG.off i, 32, 32⟩
/-- SHUT_LCWORLD (05_shuttle_translation.md, Table 05-23). -/
def R.SHUT_LCWORLD.off (i : Nat) : Nat := 0x2040000 + 8 * i
/-- Field LINING. -/
def R.SHUT_LCWORLD.LINING (i : Nat) : Fld := ⟨R.SHUT_LCWORLD.off i, 0, 64⟩
/-- LC_SQBASE (05_shuttle_translation.md, R152). -/
def R.LC_SQBASE.off (i : Nat) : Nat := 0x2100000 + 64 * i
/-- Field ADDR. -/
def R.LC_SQBASE.ADDR (i : Nat) : Fld := ⟨R.LC_SQBASE.off i, 0, 64⟩
/-- LC_CQBASE (05_shuttle_translation.md, R152). -/
def R.LC_CQBASE.off (i : Nat) : Nat := 0x2100008 + 64 * i
/-- Field ADDR. -/
def R.LC_CQBASE.ADDR (i : Nat) : Fld := ⟨R.LC_CQBASE.off i, 0, 64⟩
/-- LC_DB (05_shuttle_translation.md, R152). -/
def R.LC_DB.off (i : Nat) : Nat := 0x2100010 + 64 * i
/-- Field SQ_TAIL. -/
def R.LC_DB.SQ_TAIL (i : Nat) : Fld := ⟨R.LC_DB.off i, 0, 16⟩
/-- Field CQ_HEAD. -/
def R.LC_DB.CQ_HEAD (i : Nat) : Fld := ⟨R.LC_DB.off i, 16, 16⟩
/-- Field NO_SQ. -/
def R.LC_DB.NO_SQ (i : Nat) : Fld := ⟨R.LC_DB.off i, 32, 1⟩
/-- Field NO_CQ. -/
def R.LC_DB.NO_CQ (i : Nat) : Fld := ⟨R.LC_DB.off i, 33, 1⟩
/-- LC_CFG (05_shuttle_translation.md, Table 05-6). -/
def R.LC_CFG.off (i : Nat) : Nat := 0x2100018 + 64 * i
/-- Field SQ_DEPTH. -/
def R.LC_CFG.SQ_DEPTH (i : Nat) : Fld := ⟨R.LC_CFG.off i, 0, 4⟩
/-- Field CQ_DEPTH. -/
def R.LC_CFG.CQ_DEPTH (i : Nat) : Fld := ⟨R.LC_CFG.off i, 4, 4⟩
/-- Field HART. -/
def R.LC_CFG.HART (i : Nat) : Fld := ⟨R.LC_CFG.off i, 8, 6⟩
/-- Field INT_EN. -/
def R.LC_CFG.INT_EN (i : Nat) : Fld := ⟨R.LC_CFG.off i, 14, 1⟩
/-- Field EIID. -/
def R.LC_CFG.EIID (i : Nat) : Fld := ⟨R.LC_CFG.off i, 16, 8⟩
/-- Field COAL_COUNT. -/
def R.LC_CFG.COAL_COUNT (i : Nat) : Fld := ⟨R.LC_CFG.off i, 24, 8⟩
/-- Field COAL_TIME. -/
def R.LC_CFG.COAL_TIME (i : Nat) : Fld := ⟨R.LC_CFG.off i, 32, 10⟩
/-- Field CLASS. -/
def R.LC_CFG.CLASS (i : Nat) : Fld := ⟨R.LC_CFG.off i, 42, 3⟩
/-- LC_CTX (05_shuttle_translation.md, Table 05-7). -/
def R.LC_CTX.off (i : Nat) : Nat := 0x2100020 + 64 * i
/-- Field PROCESS_ID. -/
def R.LC_CTX.PROCESS_ID (i : Nat) : Fld := ⟨R.LC_CTX.off i, 0, 20⟩
/-- Field PV. -/
def R.LC_CTX.PV (i : Nat) : Fld := ⟨R.LC_CTX.off i, 20, 1⟩
/-- LC_CTL (05_shuttle_translation.md, R152). -/
def R.LC_CTL.off (i : Nat) : Nat := 0x2100028 + 64 * i
/-- Field ENABLE. -/
def R.LC_CTL.ENABLE (i : Nat) : Fld := ⟨R.LC_CTL.off i, 0, 1⟩
/-- LC_STAT (05_shuttle_translation.md, R152). -/
def R.LC_STAT.off (i : Nat) : Nat := 0x2100030 + 64 * i
/-- Field STATE. -/
def R.LC_STAT.STATE (i : Nat) : Fld := ⟨R.LC_STAT.off i, 0, 3⟩
/-- Field HELD. -/
def R.LC_STAT.HELD (i : Nat) : Fld := ⟨R.LC_STAT.off i, 3, 1⟩
/-- Field DRAINING. -/
def R.LC_STAT.DRAINING (i : Nat) : Fld := ⟨R.LC_STAT.off i, 4, 1⟩
/-- Field CQ_FULL. -/
def R.LC_STAT.CQ_FULL (i : Nat) : Fld := ⟨R.LC_STAT.off i, 5, 1⟩
/-- Field CFG_ERR. -/
def R.LC_STAT.CFG_ERR (i : Nat) : Fld := ⟨R.LC_STAT.off i, 6, 1⟩
/-- Field ERRCODE. -/
def R.LC_STAT.ERRCODE (i : Nat) : Fld := ⟨R.LC_STAT.off i, 16, 16⟩
/-- Field UNDONE_HEAD. -/
def R.LC_STAT.UNDONE_HEAD (i : Nat) : Fld := ⟨R.LC_STAT.off i, 32, 16⟩
/-- Field SQ_HEAD. -/
def R.LC_STAT.SQ_HEAD (i : Nat) : Fld := ⟨R.LC_STAT.off i, 48, 16⟩
/-- LC_CSEQ (05_shuttle_translation.md, R152). -/
def R.LC_CSEQ.off (i : Nat) : Nat := 0x2100038 + 64 * i
/-- Field NEXT_CSEQ. -/
def R.LC_CSEQ.NEXT_CSEQ (i : Nat) : Fld := ⟨R.LC_CSEQ.off i, 0, 32⟩
/-- Field RX_DROPS. -/
def R.LC_CSEQ.RX_DROPS (i : Nat) : Fld := ⟨R.LC_CSEQ.off i, 32, 32⟩
/-- SELV_CFG (06_selvedge.md, Table 06-18), the live copy. -/
def R.SELV_CFG.off : Nat := 0x3000008
/-- Field ENABLE. -/
def R.SELV_CFG.ENABLE : Fld := ⟨R.SELV_CFG.off, 0, 1⟩
/-- Field HW_EXQ. -/
def R.SELV_CFG.HW_EXQ : Fld := ⟨R.SELV_CFG.off, 1, 6⟩
/-- Field CT_PICKUP. -/
def R.SELV_CFG.CT_PICKUP : Fld := ⟨R.SELV_CFG.off, 7, 1⟩
/-- Field VXLAN_PORT. -/
def R.SELV_CFG.VXLAN_PORT : Fld := ⟨R.SELV_CFG.off, 16, 16⟩
/-- Field GENEVE_PORT. -/
def R.SELV_CFG.GENEVE_PORT : Fld := ⟨R.SELV_CFG.off, 32, 16⟩
/-- Field LEARN_IDLE_S. -/
def R.SELV_CFG.LEARN_IDLE_S : Fld := ⟨R.SELV_CFG.off, 48, 16⟩
/-- SELV_STATUS (06_selvedge.md, Table 06-19). -/
def R.SELV_STATUS.off : Nat := 0x3000010
/-- Field SA_EVT. -/
def R.SELV_STATUS.SA_EVT : Fld := ⟨R.SELV_STATUS.off, 0, 1⟩
/-- Field BAD_RI. -/
def R.SELV_STATUS.BAD_RI : Fld := ⟨R.SELV_STATUS.off, 1, 1⟩
/-- SELV_COMMIT (06_selvedge.md, Table 06-20). -/
def R.SELV_COMMIT.off : Nat := 0x3000018
/-- Field EPOCH. -/
def R.SELV_COMMIT.EPOCH : Fld := ⟨R.SELV_COMMIT.off, 0, 32⟩
/-- Field SESSION. -/
def R.SELV_COMMIT.SESSION : Fld := ⟨R.SELV_COMMIT.off, 32, 16⟩
/-- Field SWEEP. -/
def R.SELV_COMMIT.SWEEP : Fld := ⟨R.SELV_COMMIT.off, 48, 1⟩
/-- SELV_TBASE (06_selvedge.md, Table 06-21), the live copy. -/
def R.SELV_TBASE.off (i : Nat) : Nat := 0x3000080 + 8 * i
/-- Field BASE. -/
def R.SELV_TBASE.BASE (i : Nat) : Fld := ⟨R.SELV_TBASE.off i, 0, 44⟩
/-- Field LOG2. -/
def R.SELV_TBASE.LOG2 (i : Nat) : Fld := ⟨R.SELV_TBASE.off i, 48, 6⟩
/-- SELV_TW_DATA (06_selvedge.md, Table 06-12). -/
def R.SELV_TW_DATA.off (i : Nat) : Nat := 0x3010000 + 8 * i
/-- Field DATA. -/
def R.SELV_TW_DATA.DATA (i : Nat) : Fld := ⟨R.SELV_TW_DATA.off i, 0, 64⟩
/-- SELV_TW_CMD (06_selvedge.md, Table 06-12). -/
def R.SELV_TW_CMD.off : Nat := 0x3010080
/-- Field TABLE. -/
def R.SELV_TW_CMD.TABLE : Fld := ⟨R.SELV_TW_CMD.off, 0, 4⟩
/-- Field OP. -/
def R.SELV_TW_CMD.OP : Fld := ⟨R.SELV_TW_CMD.off, 4, 3⟩
/-- Field INDEX. -/
def R.SELV_TW_CMD.INDEX : Fld := ⟨R.SELV_TW_CMD.off, 8, 24⟩
/-- SELV_TW_STAT (06_selvedge.md, Table 06-12). -/
def R.SELV_TW_STAT.off : Nat := 0x3010088
/-- Field BUSY. -/
def R.SELV_TW_STAT.BUSY : Fld := ⟨R.SELV_TW_STAT.off, 0, 1⟩
/-- Field STATUS. -/
def R.SELV_TW_STAT.STATUS : Fld := ⟨R.SELV_TW_STAT.off, 16, 16⟩
/-- SELV_EXQ_RING (06_selvedge.md, Table 06-26). -/
def R.SELV_EXQ_RING.off (i : Nat) : Nat := 0x3020000 + 32 * i
/-- Field BASE. -/
def R.SELV_EXQ_RING.BASE (i : Nat) : Fld := ⟨R.SELV_EXQ_RING.off i, 0, 44⟩
/-- Field DEPTH. -/
def R.SELV_EXQ_RING.DEPTH (i : Nat) : Fld := ⟨R.SELV_EXQ_RING.off i, 44, 4⟩
/-- Field SLOT. -/
def R.SELV_EXQ_RING.SLOT (i : Nat) : Fld := ⟨R.SELV_EXQ_RING.off i, 48, 3⟩
/-- Field ENABLE. -/
def R.SELV_EXQ_RING.ENABLE (i : Nat) : Fld := ⟨R.SELV_EXQ_RING.off i, 51, 1⟩
/-- Field INT_EN. -/
def R.SELV_EXQ_RING.INT_EN (i : Nat) : Fld := ⟨R.SELV_EXQ_RING.off i, 52, 1⟩
/-- Field HART. -/
def R.SELV_EXQ_RING.HART (i : Nat) : Fld := ⟨R.SELV_EXQ_RING.off i, 53, 6⟩
/-- SELV_EXQ_CTL (06_selvedge.md, Table 06-26). -/
def R.SELV_EXQ_CTL.off (i : Nat) : Nat := 0x3020008 + 32 * i
/-- Field EIID. -/
def R.SELV_EXQ_CTL.EIID (i : Nat) : Fld := ⟨R.SELV_EXQ_CTL.off i, 0, 8⟩
/-- Field RATE. -/
def R.SELV_EXQ_CTL.RATE (i : Nat) : Fld := ⟨R.SELV_EXQ_CTL.off i, 8, 20⟩
/-- SELV_EXQ_DB (06_selvedge.md, Table 06-26). -/
def R.SELV_EXQ_DB.off (i : Nat) : Nat := 0x3020010 + 32 * i
/-- Field HEAD. -/
def R.SELV_EXQ_DB.HEAD (i : Nat) : Fld := ⟨R.SELV_EXQ_DB.off i, 0, 16⟩
/-- Field TAIL. -/
def R.SELV_EXQ_DB.TAIL (i : Nat) : Fld := ⟨R.SELV_EXQ_DB.off i, 16, 16⟩
/-- Field RI_TAIL. -/
def R.SELV_EXQ_DB.RI_TAIL (i : Nat) : Fld := ⟨R.SELV_EXQ_DB.off i, 32, 16⟩
/-- Field RI_HEAD. -/
def R.SELV_EXQ_DB.RI_HEAD (i : Nat) : Fld := ⟨R.SELV_EXQ_DB.off i, 48, 16⟩
/-- SELV_EXQ_RIRING (06_selvedge.md, Table 06-26). -/
def R.SELV_EXQ_RIRING.off (i : Nat) : Nat := 0x3020018 + 32 * i
/-- Field BASE. -/
def R.SELV_EXQ_RIRING.BASE (i : Nat) : Fld := ⟨R.SELV_EXQ_RIRING.off i, 0, 44⟩
/-- Field DEPTH. -/
def R.SELV_EXQ_RIRING.DEPTH (i : Nat) : Fld := ⟨R.SELV_EXQ_RIRING.off i, 44, 4⟩
/-- SELV_DROP (06_selvedge.md, R210). -/
def R.SELV_DROP.off (i j : Nat) : Nat := 0x3030000 + 1024 * i + 8 * j
/-- Field VALUE. -/
def R.SELV_DROP.VALUE (i j : Nat) : Fld := ⟨R.SELV_DROP.off i j, 0, 64⟩
/-- SELV_PCNT (06_selvedge.md, R210). -/
def R.SELV_PCNT.off (i j : Nat) : Nat := 0x3032000 + 256 * i + 8 * j
/-- Field VALUE. -/
def R.SELV_PCNT.VALUE (i j : Nat) : Fld := ⟨R.SELV_PCNT.off i j, 0, 64⟩
/-- SELV_VPORTA (06_selvedge.md, Table 06-22), the live copy. -/
def R.SELV_VPORTA.off (i : Nat) : Nat := 0x3180000 + 16 * i
/-- Field TSID. -/
def R.SELV_VPORTA.TSID (i : Nat) : Fld := ⟨R.SELV_VPORTA.off i, 0, 12⟩
/-- Field ENABLE. -/
def R.SELV_VPORTA.ENABLE (i : Nat) : Fld := ⟨R.SELV_VPORTA.off i, 12, 1⟩
/-- Field ACCOUNT. -/
def R.SELV_VPORTA.ACCOUNT (i : Nat) : Fld := ⟨R.SELV_VPORTA.off i, 13, 13⟩
/-- Field SPOOFCHK. -/
def R.SELV_VPORTA.SPOOFCHK (i : Nat) : Fld := ⟨R.SELV_VPORTA.off i, 26, 1⟩
/-- Field DEF_LOCAL. -/
def R.SELV_VPORTA.DEF_LOCAL (i : Nat) : Fld := ⟨R.SELV_VPORTA.off i, 28, 12⟩
/-- Field FRAME_MAX. -/
def R.SELV_VPORTA.FRAME_MAX (i : Nat) : Fld := ⟨R.SELV_VPORTA.off i, 40, 14⟩
/-- Field HOLD. -/
def R.SELV_VPORTA.HOLD (i : Nat) : Fld := ⟨R.SELV_VPORTA.off i, 54, 10⟩
/-- SELV_VPORTB (06_selvedge.md, Table 06-22), the live copy. -/
def R.SELV_VPORTB.off (i : Nat) : Nat := 0x3180008 + 16 * i
/-- Field MAC. -/
def R.SELV_VPORTB.MAC (i : Nat) : Fld := ⟨R.SELV_VPORTB.off i, 0, 48⟩
/-- Field VID. -/
def R.SELV_VPORTB.VID (i : Nat) : Fld := ⟨R.SELV_VPORTB.off i, 48, 12⟩
/-- SELV_TSPACE (06_selvedge.md, Table 06-23), the live copy. -/
def R.SELV_TSPACE.off (i : Nat) : Nat := 0x3220000 + 8 * i
/-- Field DEF_ACTION. -/
def R.SELV_TSPACE.DEF_ACTION (i : Nat) : Fld := ⟨R.SELV_TSPACE.off i, 0, 24⟩
/-- Field DEF_VALID. -/
def R.SELV_TSPACE.DEF_VALID (i : Nat) : Fld := ⟨R.SELV_TSPACE.off i, 24, 1⟩
/-- Field ACCOUNT. -/
def R.SELV_TSPACE.ACCOUNT (i : Nat) : Fld := ⟨R.SELV_TSPACE.off i, 25, 13⟩
/-- SELV_ETC (06_selvedge.md, Table 06-24), the live copy. -/
def R.SELV_ETC.off (i j : Nat) : Nat := 0x3260000 + 64 * i + 8 * j
/-- Field STRICT. -/
def R.SELV_ETC.STRICT (i j : Nat) : Fld := ⟨R.SELV_ETC.off i j, 0, 1⟩
/-- Field WEIGHT. -/
def R.SELV_ETC.WEIGHT (i j : Nat) : Fld := ⟨R.SELV_ETC.off i j, 1, 8⟩
/-- Field SHAPE. -/
def R.SELV_ETC.SHAPE (i j : Nat) : Fld := ⟨R.SELV_ETC.off i j, 9, 20⟩
/-- Field LOSSLESS. -/
def R.SELV_ETC.LOSSLESS (i j : Nat) : Fld := ⟨R.SELV_ETC.off i j, 29, 1⟩
/-- Field XOFF_KIB. -/
def R.SELV_ETC.XOFF_KIB (i j : Nat) : Fld := ⟨R.SELV_ETC.off i j, 30, 12⟩
/-- Field XON_KIB. -/
def R.SELV_ETC.XON_KIB (i j : Nat) : Fld := ⟨R.SELV_ETC.off i j, 42, 12⟩
/-- SELV_RSS (06_selvedge.md, Table 06-22). -/
def R.SELV_RSS.off (i j : Nat) : Nat := 0x3400000 + 512 * i + 8 * j
/-- Field VALUE. -/
def R.SELV_RSS.VALUE (i j : Nat) : Fld := ⟨R.SELV_RSS.off i j, 0, 64⟩
/-- GALV_CFG (09_twin_galvel.md, Table 09-14). -/
def R.GALV_CFG.off : Nat := 0x4000000
/-- Field HB_TMO_US. -/
def R.GALV_CFG.HB_TMO_US : Fld := ⟨R.GALV_CFG.off, 0, 8⟩
/-- Field SETTLE_US. -/
def R.GALV_CFG.SETTLE_US : Fld := ⟨R.GALV_CFG.off, 8, 8⟩
/-- Field FENCE_HOLD_MS. -/
def R.GALV_CFG.FENCE_HOLD_MS : Fld := ⟨R.GALV_CFG.off, 16, 16⟩
/-- GALV_STATUS (09_twin_galvel.md, Table 09-15). -/
def R.GALV_STATUS.off : Nat := 0x4000008
/-- Field ROLE. -/
def R.GALV_STATUS.ROLE : Fld := ⟨R.GALV_STATUS.off, 0, 2⟩
/-- Field SYNC. -/
def R.GALV_STATUS.SYNC : Fld := ⟨R.GALV_STATUS.off, 2, 1⟩
/-- Field LINK_UP. -/
def R.GALV_STATUS.LINK_UP : Fld := ⟨R.GALV_STATUS.off, 3, 1⟩
/-- Field WIDTH. -/
def R.GALV_STATUS.WIDTH : Fld := ⟨R.GALV_STATUS.off, 4, 2⟩
/-- Field ALIVE_OK. -/
def R.GALV_STATUS.ALIVE_OK : Fld := ⟨R.GALV_STATUS.off, 6, 1⟩
/-- Field FAULT_IN. -/
def R.GALV_STATUS.FAULT_IN : Fld := ⟨R.GALV_STATUS.off, 7, 1⟩
/-- Field FENCE_IN. -/
def R.GALV_STATUS.FENCE_IN : Fld := ⟨R.GALV_STATUS.off, 8, 1⟩
/-- Field FENCE_OUT. -/
def R.GALV_STATUS.FENCE_OUT : Fld := ⟨R.GALV_STATUS.off, 9, 1⟩
/-- Field TAKEOVER_EVT. -/
def R.GALV_STATUS.TAKEOVER_EVT : Fld := ⟨R.GALV_STATUS.off, 16, 1⟩
/-- Field LINK_EVT. -/
def R.GALV_STATUS.LINK_EVT : Fld := ⟨R.GALV_STATUS.off, 17, 1⟩
/-- Field SB_EVT. -/
def R.GALV_STATUS.SB_EVT : Fld := ⟨R.GALV_STATUS.off, 18, 1⟩
/-- Field UNSYNC_EVT. -/
def R.GALV_STATUS.UNSYNC_EVT : Fld := ⟨R.GALV_STATUS.off, 19, 1⟩
/-- Field GOODBYE_EVT. -/
def R.GALV_STATUS.GOODBYE_EVT : Fld := ⟨R.GALV_STATUS.off, 20, 1⟩
/-- Field IRQ_EN. -/
def R.GALV_STATUS.IRQ_EN : Fld := ⟨R.GALV_STATUS.off, 24, 1⟩
/-- GALV_PEER (09_twin_galvel.md, Table 09-16). -/
def R.GALV_PEER.off : Nat := 0x4000010
/-- Field SERIAL. -/
def R.GALV_PEER.SERIAL : Fld := ⟨R.GALV_PEER.off, 0, 64⟩
/-- GALV_VER (09_twin_galvel.md, Table 09-17). -/
def R.GALV_VER.off : Nat := 0x4000018
/-- Field LOCAL_SCHEMA. -/
def R.GALV_VER.LOCAL_SCHEMA : Fld := ⟨R.GALV_VER.off, 0, 16⟩
/-- Field PEER_SCHEMA. -/
def R.GALV_VER.PEER_SCHEMA : Fld := ⟨R.GALV_VER.off, 16, 16⟩
/-- Field USED_MINOR. -/
def R.GALV_VER.USED_MINOR : Fld := ⟨R.GALV_VER.off, 32, 16⟩
/-- GALV_FEAT_LOCAL (09_twin_galvel.md, Table 09-18). -/
def R.GALV_FEAT_LOCAL.off : Nat := 0x4000020
/-- Field MASK. -/
def R.GALV_FEAT_LOCAL.MASK : Fld := ⟨R.GALV_FEAT_LOCAL.off, 0, 64⟩
/-- GALV_FEAT_COMMON (09_twin_galvel.md, Table 09-18). -/
def R.GALV_FEAT_COMMON.off : Nat := 0x4000028
/-- Field MASK. -/
def R.GALV_FEAT_COMMON.MASK : Fld := ⟨R.GALV_FEAT_COMMON.off, 0, 64⟩
/-- GALV_GATE (09_twin_galvel.md, Table 09-19), the live copy. -/
def R.GALV_GATE.off : Nat := 0x4000038
/-- Field BASE. -/
def R.GALV_GATE.BASE : Fld := ⟨R.GALV_GATE.off, 0, 1⟩
/-- Field GATE. -/
def R.GALV_GATE.GATE : Fld := ⟨R.GALV_GATE.off, 1, 63⟩
/-- GALV_SHADOW (09_twin_galvel.md, Table 09-20), the live copy. -/
def R.GALV_SHADOW.off : Nat := 0x4000048
/-- Field BASE. -/
def R.GALV_SHADOW.BASE : Fld := ⟨R.GALV_SHADOW.off, 0, 44⟩
/-- GALV_TAKEREC0 (09_twin_galvel.md, Table 09-21). -/
def R.GALV_TAKEREC0.off : Nat := 0x4000050
/-- Field CAUSE. -/
def R.GALV_TAKEREC0.CAUSE : Fld := ⟨R.GALV_TAKEREC0.off, 0, 2⟩
/-- Field UNSYNC. -/
def R.GALV_TAKEREC0.UNSYNC : Fld := ⟨R.GALV_TAKEREC0.off, 2, 1⟩
/-- Field REPOSTED. -/
def R.GALV_TAKEREC0.REPOSTED : Fld := ⟨R.GALV_TAKEREC0.off, 16, 16⟩
/-- Field ADOPTED. -/
def R.GALV_TAKEREC0.ADOPTED : Fld := ⟨R.GALV_TAKEREC0.off, 32, 16⟩
/-- Field REDONE. -/
def R.GALV_TAKEREC0.REDONE : Fld := ⟨R.GALV_TAKEREC0.off, 48, 16⟩
/-- GALV_TAKEREC1 (09_twin_galvel.md, Table 09-21). -/
def R.GALV_TAKEREC1.off : Nat := 0x4000058
/-- Field TIME. -/
def R.GALV_TAKEREC1.TIME : Fld := ⟨R.GALV_TAKEREC1.off, 0, 64⟩
/-- GALV_LINKCNT (09_twin_galvel.md, Table 09-22). -/
def R.GALV_LINKCNT.off : Nat := 0x4000060
/-- Field FEC_CORR. -/
def R.GALV_LINKCNT.FEC_CORR : Fld := ⟨R.GALV_LINKCNT.off, 0, 32⟩
/-- Field RETRIES. -/
def R.GALV_LINKCNT.RETRIES : Fld := ⟨R.GALV_LINKCNT.off, 32, 16⟩
/-- Field DOWNS. -/
def R.GALV_LINKCNT.DOWNS : Fld := ⟨R.GALV_LINKCNT.off, 48, 16⟩
/-- HPORT_CFG (03_functions_queues.md, Table 03-1), the live copy. -/
def R.HPORT_CFG.off (i : Nat) : Nat := 0x5000008 + 65536 * i
/-- Field ENABLE. -/
def R.HPORT_CFG.ENABLE (i : Nat) : Fld := ⟨R.HPORT_CFG.off i, 0, 1⟩
/-- Field WIDTH. -/
def R.HPORT_CFG.WIDTH (i : Nat) : Fld := ⟨R.HPORT_CFG.off i, 1, 3⟩
/-- Field MAXGEN. -/
def R.HPORT_CFG.MAXGEN (i : Nat) : Fld := ⟨R.HPORT_CFG.off i, 4, 3⟩
/-- Field CLOCKING. -/
def R.HPORT_CFG.CLOCKING (i : Nat) : Fld := ⟨R.HPORT_CFG.off i, 7, 1⟩
/-- Field TOTAL_VFS. -/
def R.HPORT_CFG.TOTAL_VFS (i : Nat) : Fld := ⟨R.HPORT_CFG.off i, 16, 11⟩
/-- EMAC_GCFG (06_selvedge.md, Table 06-25), the live copy. -/
def R.EMAC_GCFG.off (i : Nat) : Nat := 0x6000008 + 262144 * i
/-- Field MODE. -/
def R.EMAC_GCFG.MODE (i : Nat) : Fld := ⟨R.EMAC_GCFG.off i, 0, 3⟩
/-- Field FEC_OFF. -/
def R.EMAC_GCFG.FEC_OFF (i : Nat) : Fld := ⟨R.EMAC_GCFG.off i, 3, 1⟩
/-- Field PFC_EN. -/
def R.EMAC_GCFG.PFC_EN (i : Nat) : Fld := ⟨R.EMAC_GCFG.off i, 4, 1⟩
/-- Field PTP_EN. -/
def R.EMAC_GCFG.PTP_EN (i : Nat) : Fld := ⟨R.EMAC_GCFG.off i, 5, 1⟩
/-- DMC_CFG (16_dram.md, Table 16-3). -/
def R.DMC_CFG.off (i : Nat) : Nat := 0x7000000 + 1048576 * i
/-- Field SCRUB_H. -/
def R.DMC_CFG.SCRUB_H (i : Nat) : Fld := ⟨R.DMC_CFG.off i, 0, 8⟩
/-- Field CE_THRESH. -/
def R.DMC_CFG.CE_THRESH (i : Nat) : Fld := ⟨R.DMC_CFG.off i, 8, 8⟩
/-- DMC_STATUS (16_dram.md, Table 16-4). -/
def R.DMC_STATUS.off (i : Nat) : Nat := 0x7000008 + 1048576 * i
/-- Field PRESENT. -/
def R.DMC_STATUS.PRESENT (i : Nat) : Fld := ⟨R.DMC_STATUS.off i, 0, 1⟩
/-- Field DIMMS. -/
def R.DMC_STATUS.DIMMS (i : Nat) : Fld := ⟨R.DMC_STATUS.off i, 1, 2⟩
/-- Field RANKS. -/
def R.DMC_STATUS.RANKS (i : Nat) : Fld := ⟨R.DMC_STATUS.off i, 3, 3⟩
/-- Field TRAINED. -/
def R.DMC_STATUS.TRAINED (i : Nat) : Fld := ⟨R.DMC_STATUS.off i, 6, 1⟩
/-- Field INIT_DONE. -/
def R.DMC_STATUS.INIT_DONE (i : Nat) : Fld := ⟨R.DMC_STATUS.off i, 7, 1⟩
/-- Field RATE. -/
def R.DMC_STATUS.RATE (i : Nat) : Fld := ⟨R.DMC_STATUS.off i, 8, 3⟩
/-- Field TRAIN_FAIL. -/
def R.DMC_STATUS.TRAIN_FAIL (i : Nat) : Fld := ⟨R.DMC_STATUS.off i, 11, 3⟩
/-- Field CAP_GIB. -/
def R.DMC_STATUS.CAP_GIB (i : Nat) : Fld := ⟨R.DMC_STATUS.off i, 16, 10⟩
/-- DMC_ECC (16_dram.md, Table 16-5). -/
def R.DMC_ECC.off (i : Nat) : Nat := 0x7000010 + 1048576 * i
/-- Field CE_COUNT. -/
def R.DMC_ECC.CE_COUNT (i : Nat) : Fld := ⟨R.DMC_ECC.off i, 0, 16⟩
/-- Field UE_COUNT. -/
def R.DMC_ECC.UE_COUNT (i : Nat) : Fld := ⟨R.DMC_ECC.off i, 16, 16⟩
/-- Field CE_EVT. -/
def R.DMC_ECC.CE_EVT (i : Nat) : Fld := ⟨R.DMC_ECC.off i, 32, 1⟩
/-- Field UE_EVT. -/
def R.DMC_ECC.UE_EVT (i : Nat) : Fld := ⟨R.DMC_ECC.off i, 33, 1⟩
/-- Field THRESH_EVT. -/
def R.DMC_ECC.THRESH_EVT (i : Nat) : Fld := ⟨R.DMC_ECC.off i, 34, 1⟩
/-- Field IRQ_EN. -/
def R.DMC_ECC.IRQ_EN (i : Nat) : Fld := ⟨R.DMC_ECC.off i, 35, 1⟩
/-- DMC_ERRLOG0 (16_dram.md, Table 16-6). -/
def R.DMC_ERRLOG0.off (i : Nat) : Nat := 0x7000018 + 1048576 * i
/-- Field ROW. -/
def R.DMC_ERRLOG0.ROW (i : Nat) : Fld := ⟨R.DMC_ERRLOG0.off i, 0, 18⟩
/-- Field RANK. -/
def R.DMC_ERRLOG0.RANK (i : Nat) : Fld := ⟨R.DMC_ERRLOG0.off i, 18, 2⟩
/-- Field BG. -/
def R.DMC_ERRLOG0.BG (i : Nat) : Fld := ⟨R.DMC_ERRLOG0.off i, 20, 3⟩
/-- Field BANK. -/
def R.DMC_ERRLOG0.BANK (i : Nat) : Fld := ⟨R.DMC_ERRLOG0.off i, 23, 2⟩
/-- Field SUBCH. -/
def R.DMC_ERRLOG0.SUBCH (i : Nat) : Fld := ⟨R.DMC_ERRLOG0.off i, 25, 1⟩
/-- Field DEVICE. -/
def R.DMC_ERRLOG0.DEVICE (i : Nat) : Fld := ⟨R.DMC_ERRLOG0.off i, 26, 4⟩
/-- Field TYPE. -/
def R.DMC_ERRLOG0.TYPE (i : Nat) : Fld := ⟨R.DMC_ERRLOG0.off i, 30, 1⟩
/-- Field VALID. -/
def R.DMC_ERRLOG0.VALID (i : Nat) : Fld := ⟨R.DMC_ERRLOG0.off i, 31, 1⟩
/-- Field ADDR. -/
def R.DMC_ERRLOG0.ADDR (i : Nat) : Fld := ⟨R.DMC_ERRLOG0.off i, 32, 32⟩
/-- DMC_ERRLOG1 (16_dram.md, Table 16-6). -/
def R.DMC_ERRLOG1.off (i : Nat) : Nat := 0x7000020 + 1048576 * i
/-- Field ROW. -/
def R.DMC_ERRLOG1.ROW (i : Nat) : Fld := ⟨R.DMC_ERRLOG1.off i, 0, 18⟩
/-- Field RANK. -/
def R.DMC_ERRLOG1.RANK (i : Nat) : Fld := ⟨R.DMC_ERRLOG1.off i, 18, 2⟩
/-- Field BG. -/
def R.DMC_ERRLOG1.BG (i : Nat) : Fld := ⟨R.DMC_ERRLOG1.off i, 20, 3⟩
/-- Field BANK. -/
def R.DMC_ERRLOG1.BANK (i : Nat) : Fld := ⟨R.DMC_ERRLOG1.off i, 23, 2⟩
/-- Field SUBCH. -/
def R.DMC_ERRLOG1.SUBCH (i : Nat) : Fld := ⟨R.DMC_ERRLOG1.off i, 25, 1⟩
/-- Field DEVICE. -/
def R.DMC_ERRLOG1.DEVICE (i : Nat) : Fld := ⟨R.DMC_ERRLOG1.off i, 26, 4⟩
/-- Field TYPE. -/
def R.DMC_ERRLOG1.TYPE (i : Nat) : Fld := ⟨R.DMC_ERRLOG1.off i, 30, 1⟩
/-- Field VALID. -/
def R.DMC_ERRLOG1.VALID (i : Nat) : Fld := ⟨R.DMC_ERRLOG1.off i, 31, 1⟩
/-- Field ADDR. -/
def R.DMC_ERRLOG1.ADDR (i : Nat) : Fld := ⟨R.DMC_ERRLOG1.off i, 32, 32⟩
/-- DMC_PPR (16_dram.md, Table 16-7). -/
def R.DMC_PPR.off (i j : Nat) : Nat := 0x7000040 + 1048576 * i + 8 * j
/-- Field ROW. -/
def R.DMC_PPR.ROW (i j : Nat) : Fld := ⟨R.DMC_PPR.off i j, 0, 18⟩
/-- Field PEND. -/
def R.DMC_PPR.PEND (i j : Nat) : Fld := ⟨R.DMC_PPR.off i j, 32, 1⟩
/-- Field DONE. -/
def R.DMC_PPR.DONE (i j : Nat) : Fld := ⟨R.DMC_PPR.off i j, 33, 1⟩
/-- Field NORES. -/
def R.DMC_PPR.NORES (i j : Nat) : Fld := ⟨R.DMC_PPR.off i j, 34, 1⟩
/-- Field BG. -/
def R.DMC_PPR.BG (i j : Nat) : Fld := ⟨R.DMC_PPR.off i j, 36, 2⟩
/-- Field BGHI. -/
def R.DMC_PPR.BGHI (i j : Nat) : Fld := ⟨R.DMC_PPR.off i j, 38, 1⟩
/-- Field BANK. -/
def R.DMC_PPR.BANK (i j : Nat) : Fld := ⟨R.DMC_PPR.off i j, 40, 2⟩
/-- Field RANK. -/
def R.DMC_PPR.RANK (i j : Nat) : Fld := ⟨R.DMC_PPR.off i j, 42, 2⟩
/-- BOB_CTL (12_bobbin_isa.md, Table 12-22). -/
def R.BOB_CTL.off (i : Nat) : Nat := 0x8000000 + 64 * i
/-- Field RUN. -/
def R.BOB_CTL.RUN (i : Nat) : Fld := ⟨R.BOB_CTL.off i, 0, 1⟩
/-- Field STOP. -/
def R.BOB_CTL.STOP (i : Nat) : Fld := ⟨R.BOB_CTL.off i, 1, 1⟩
/-- BOB_STAT (12_bobbin_isa.md, Table 12-23). -/
def R.BOB_STAT.off (i : Nat) : Nat := 0x8000008 + 64 * i
/-- Field STATE. -/
def R.BOB_STAT.STATE (i : Nat) : Fld := ⟨R.BOB_STAT.off i, 0, 2⟩
/-- Field DFAULT. -/
def R.BOB_STAT.DFAULT (i : Nat) : Fld := ⟨R.BOB_STAT.off i, 2, 1⟩
/-- Field CAUSE. -/
def R.BOB_STAT.CAUSE (i : Nat) : Fld := ⟨R.BOB_STAT.off i, 4, 4⟩
/-- Field VECTOR. -/
def R.BOB_STAT.VECTOR (i : Nat) : Fld := ⟨R.BOB_STAT.off i, 8, 6⟩
/-- Field PC. -/
def R.BOB_STAT.PC (i : Nat) : Fld := ⟨R.BOB_STAT.off i, 16, 16⟩
/-- Field FAULTS. -/
def R.BOB_STAT.FAULTS (i : Nat) : Fld := ⟨R.BOB_STAT.off i, 32, 32⟩
/-- BOB_IMG (12_bobbin_isa.md, Table 12-24). -/
def R.BOB_IMG.off (i : Nat) : Nat := 0x8000010 + 64 * i
/-- Field BASE. -/
def R.BOB_IMG.BASE (i : Nat) : Fld := ⟨R.BOB_IMG.off i, 0, 44⟩
/-- BOB_LMEM (12_bobbin_isa.md, Table 12-25). -/
def R.BOB_LMEM.off (i j : Nat) : Nat := 0x8100000 + 65536 * i + 8 * j
/-- Field DATA. -/
def R.BOB_LMEM.DATA (i j : Nat) : Fld := ⟨R.BOB_LMEM.off i j, 0, 64⟩
/-- MTIMECMP (11_anole_cores.md, R323). -/
def R.MTIMECMP.off (i : Nat) : Nat := 0x9e00000 + 8 * i
/-- Field VALUE. -/
def R.MTIMECMP.VALUE (i : Nat) : Fld := ⟨R.MTIMECMP.off i, 0, 64⟩
/-- TIME (11_anole_cores.md, R323). -/
def R.TIME.off : Nat := 0x9e00400
/-- Field VALUE. -/
def R.TIME.VALUE : Fld := ⟨R.TIME.off, 0, 64⟩
/-- ONF_EPOCH (02_onafaet_baste_stitch.md, Table 02-14). -/
def R.ONF_EPOCH.off : Nat := 0xa000000
/-- Field CFG_EPOCH. -/
def R.ONF_EPOCH.CFG_EPOCH : Fld := ⟨R.ONF_EPOCH.off, 0, 32⟩
/-- ONF_BASTE_STAT (02_onafaet_baste_stitch.md, Table 02-15). -/
def R.ONF_BASTE_STAT.off : Nat := 0xa000008
/-- Field STATE. -/
def R.ONF_BASTE_STAT.STATE : Fld := ⟨R.ONF_BASTE_STAT.off, 0, 2⟩
/-- Field CRITICAL. -/
def R.ONF_BASTE_STAT.CRITICAL : Fld := ⟨R.ONF_BASTE_STAT.off, 2, 1⟩
/-- Field FOREIGN_WR. -/
def R.ONF_BASTE_STAT.FOREIGN_WR : Fld := ⟨R.ONF_BASTE_STAT.off, 3, 1⟩
/-- Field SESSION. -/
def R.ONF_BASTE_STAT.SESSION : Fld := ⟨R.ONF_BASTE_STAT.off, 16, 16⟩
/-- Field OWNER. -/
def R.ONF_BASTE_STAT.OWNER : Fld := ⟨R.ONF_BASTE_STAT.off, 32, 32⟩
/-- ONF_STITCH_AT (02_onafaet_baste_stitch.md, Table 02-16). -/
def R.ONF_STITCH_AT.off : Nat := 0xa000010
/-- Field TIME. -/
def R.ONF_STITCH_AT.TIME : Fld := ⟨R.ONF_STITCH_AT.off, 0, 64⟩
/-- ONF_STATUS (02_onafaet_baste_stitch.md, Table 02-17). -/
def R.ONF_STATUS.off : Nat := 0xa000018
/-- Field DROPS. -/
def R.ONF_STATUS.DROPS : Fld := ⟨R.ONF_STATUS.off, 0, 16⟩
/-- Field DROP_EVT. -/
def R.ONF_STATUS.DROP_EVT : Fld := ⟨R.ONF_STATUS.off, 16, 1⟩

end Sys2Proof.Machine
end

