-- ==== Sys2Proof/Machine/State.lean ====
section
/-!
DEFINITION. State.lean: everything the spec gives the SV6240, as plain data, and State.reset. Control registers stand in one
sparse map over their reset values (Regs.lean); what is not a control register has a field of its own here. The
queue of waiting commands is `pending`; `freeCtr` and `out` are the model's own (log entries 3 and 4).
-/

namespace Sys2Proof.Machine

/-- Why the device stops with a fault. No command of this block stops the model: the spec gives each an effect, so no meaning raises
this; it is kept because the interface asks for a closed type. Safe: it never occurs. -/
inductive Fault where
  /-- Raised by no meaning. Safe. -/
  | none
  deriving DecidableEq, Repr

/-- Why a command is refused by the model. -/
inductive Refusal where
  /-- Raised by an arm of `exec` whose command has no meaning yet. Safe: the model says nothing about it. -/
  | notModelled (mnemonic : String)
  deriving DecidableEq, Repr

/-! ### Resets and clocks (01_panels_tiles_clocks.md) -/

/-- Where the device is between power-on and service (R22, R24, R25). `por`: POR_N low. `cold`: POR_N high, ROOTPLL not yet
locked. `rootLocked`: locked, WARM domain not yet released. `starting`: WARM released, verified start under way, outputs gated.
`running`: Thimble has ungated the outputs. `halted`: verified start halted with a BOOT_CODE. `clockHold`: held in warm reset by
the clock monitor (whether ROOTPLL has locked again). `thermTrip`: shut down by THERMTRIP. -/
inductive Phase where
  | por | cold | rootLocked | starting | running
  | halted (code : Nat)
  | clockHold (relocked : Bool)
  | thermTrip
  deriving DecidableEq, Repr

/-- Reset, clock and twin side-band pins. -/
structure SysState where
  phase : Phase
  /-- Every output is gated (R24, R25). -/
  gated : Bool
  /-- The always-on logic runs on the backup oscillator (R22). -/
  aonBackup : Bool
  /-- TWIN_ALIVE_OUT, TWIN_FAULT_OUT, TWIN_FENCE_OUT. -/
  aliveOut : Bool
  faultOut : Bool
  fenceOut : Bool
  deriving DecidableEq, Repr

/-! ### Onafaet (02_onafaet_baste_stitch.md) -/

/-- An Onafaet packet the device sends: a reply or an event (R36, R40, R52). `more` is FLAGS.MORE. -/
structure OnfPkt where
  opcode : Nat
  seq : Nat
  sender : Nat
  tag : Nat
  status : Nat
  ctr : Nat
  crit : Bool
  evt : Bool
  more : Bool
  params : List (BitVec 8)
  deriving DecidableEq, Repr

/-- A sender key slot (R43, R45): up to 64. -/
structure SenderKey where
  sender : Nat
  key : List (BitVec 8)
  perms : Nat
  revoked : Bool
  ctr : Nat
  deriving DecidableEq, Repr

/-- A waiting EVT packet of one class on one channel (R52). -/
structure EvtPkt where
  epoch : Nat
  time : Nat
  value : BitVec 64
  status : Nat
  deriving DecidableEq, Repr

/-- A mailbox (R58): request and reply buffers and ONF_MBX_CSR. `replies` are reply packets that wait for the buffer. -/
structure Mailbox where
  req : SMap (BitVec 8)
  reply : List (BitVec 8)
  go : Bool
  busy : Bool
  done : Bool
  overrun : Bool
  drop : Bool
  irqEn : Bool
  dropcode : Nat
  replies : List OnfPkt
  lastMore : Bool
  deriving DecidableEq, Repr

/-- Packets of a request transfer whose last packet has not come (R38). -/
structure Partial where
  ch : Nat
  sender : Nat
  tag : Nat
  opcode : Nat
  nextSeq : Nat
  bytes : List (BitVec 8)
  broken : Bool
  deriving DecidableEq, Repr

/-- Stitch modes (Table 02-9). -/
inductive StitchMode where
  | immediate | atTime | atMinute
  deriving DecidableEq, Repr

/-- An armed stitch (R65): its mode, edge time, the request that its reply answers, whether the mirror has confirmed. -/
structure Armed where
  mode : StitchMode
  time : Nat
  req : OnfReq
  confirmed : Bool
  deriving DecidableEq, Repr

/-- A Selvedge table entry staged by the session: table, locator, its new image (none: deleted), and the bucket of a flow. -/
structure TabStage where
  table : Nat
  loc : List (BitVec 8)
  image : Option (List (BitVec 8))
  bucket : Nat
  deriving DecidableEq, Repr

/-- A staging command whose reply waits for the mirror's acknowledgement, or a check that waits for the mirror's result (R70): the request,
the parameters of its reply, what the session held before it (to withdraw), and a check's own violations. -/
structure TwinWait where
  req : OnfReq
  opcode : Nat
  params : List (BitVec 8)
  undoRegs : List (Nat × Option (BitVec 64))
  undoTabs : List (Nat × List (BitVec 8) × Option TabStage)
  undoChecked : Bool
  check : Bool
  viol : List (Nat × Nat × Nat)
  deriving DecidableEq, Repr

/-- The open baste session (R59–R65). `regs` holds staged values by the register's live offset; `idleAt` is the device time at which its idle time
last began. On the mirror of a pair the copy of the lead's session has number 0. -/
structure Session where
  number : Nat
  owner : Nat
  ownerCh : Nat
  critical : Bool
  idleMs : Nat
  idleAt : Nat
  regs : SMap (BitVec 64)
  tabs : List TabStage
  checked : Bool
  held : List Nat
  armed : Option Armed
  deriving DecidableEq, Repr

/-- A QP_QUIESCE that waits for its drains (R82). -/
structure QuiesceWait where
  req : OnfReq
  qps : List Nat
  deriving DecidableEq, Repr

/-- A pending command reply that waits for something else: the peer, a unit. -/
structure PeerWait where
  req : OnfReq
  opcode : Nat
  slot : Nat
  deriving DecidableEq, Repr

/-- The Onafaet state. `subs`, `evtSeq` and `evts` are by channel, `evts` by 64 × channel + class. -/
structure OnfState where
  sessNum : Nat
  session : Option Session
  twinWaits : List TwinWait
  keys : SMap SenderKey
  /-- The reservation ceiling in the Thimble data area of each boot slot, and the floor H of this boot (R45, R46). -/
  ceil0 : Nat
  ceil1 : Nat
  floor : Nat
  /-- A ceiling that Thimble still has to write to both copies. -/
  ceilPending : Option Nat
  subs : SMap Nat
  evtSeq : SMap Nat
  evts : SMap EvtPkt
  mbx : SMap Mailbox
  partials : List Partial
  resetDelay : Option OnfReq
  quiesce : List QuiesceWait
  peer : List PeerWait
  /-- Critical requests (channel, SEQ, TAG) whose counter the peer has not acknowledged, oldest first, and replies held for it (R47). -/
  ctrWait : List (Nat × Nat × Nat)
  held : List (Nat × Nat × Nat × List OnfPkt)
  /-- A MOULT_RUN test whose reply waits for its March (R427). -/
  moultWait : List (Nat × OnfReq)
  deriving DecidableEq, Repr

/-! ### Queues (03_functions_queues.md) -/

/-- QP states (Table 03-21). -/
inductive QpSt where
  | free | quiesced | active | parked | error
  deriving DecidableEq, Repr

/-- How a drain ends (Table 03-10, R85): with a fresh or a kept context, and whether HELD is set at its end. -/
structure Drain where
  fresh : Bool
  hold : Bool
  force : Bool
  deriving DecidableEq, Repr

/-- A request's stage. `fetched`: its entries are in the device. `walking`: its buffer list waits for a page. `running`: its
transfer or work item is under way. `rxPosted`: a posted receive buffer. `done`: settled, its completion waits or is posted. -/
inductive ReqSt where
  | fetched | walking | running | rxPosted | done
  deriving DecidableEq, Repr

/-- Which ring a request came from. `native`, virtio block (its request type), NVMe (its opcode), virtio-net. -/
inductive ReqKind where
  | native
  | vblk (ty : Nat)
  | nvme (opc : Nat)
  | vnet
  deriving DecidableEq, Repr

/-- A fetched request. `idx` is the ring index of its first entry and `nEnt` how many it spans, `sqhead` the SQ head after it;
`sqe` its first entry, `inl` the bytes of its INLINE followers, `blk` a personality's block request. `fncfg`, `acct`, `volA`,
`volB` are its function's configuration, account and volume under its admission epoch (R83). `preds` are the requests a FENCE
waits for, `predBad` whether one was settled otherwise than OK (R89). -/
structure Req where
  rid : Nat
  q : Nat
  kind : ReqKind
  idx : Nat
  nEnt : Nat
  sqhead : Nat
  sqe : List (BitVec 8)
  inl : List (BitVec 8)
  blk : Option BlkReq
  epoch : Nat
  time : Nat
  fncfg : BitVec 64
  acct : Nat
  volA : BitVec 64
  volB : BitVec 64
  st : ReqSt
  preds : List Nat
  predBad : Bool
  redone : Bool
  /-- Counts gathered for the commit: (counter, increment) (R216). -/
  cnt : List (Nat × Nat)
  /-- JSEQ of its ISSUE, which a strict function waits for (R281). -/
  issueJ : Option Nat
  /-- Data its back-end moves carried, by request offset, for a CRC transform (R159). -/
  mdata : List (Nat × List (BitVec 8))
  /-- Bytes that its buffer walk had described when it parked (Table 05-9). -/
  walkOff : Nat
  deriving DecidableEq, Repr

/-- A completion that waits to be posted (R95). `extra` are bytes a personality writes before it (a status byte's address and value). -/
structure Cpl where
  rid : Nat
  q : Nat
  cid : Nat
  status : Nat
  sqhead : Nat
  result : Nat
  ts : Bool
  irq : Bool
  redone : Bool
  idx : Nat
  usedLen : Nat
  statusAddr : Option (Nat × Nat)
  /-- It has been committed (R216), under this JSEQ when its journal entry must be acknowledged first (R281). -/
  committed : Bool
  jseq : Option Nat
  deriving DecidableEq, Repr

/-- A queue pair's context and window registers (R84, R100). `cfg` is QW_CFG or LC_CFG, `pasid` is QW_PASID or LC_CTX.
Indices count modulo the ring depth. `expo` are the tails that doorbells exposed and that are not yet fetched, each with its
order stamp (R239). -/
structure QpCtx where
  st : QpSt
  held : Bool
  sessHeld : Bool
  drain : Option Drain
  contained : Bool
  cfgErr : Bool
  enable : Bool
  errcode : Nat
  undoneHead : Nat
  sqHead : Nat
  sqTail : Nat
  cqHead : Nat
  cqTail : Nat
  phase : Bool
  nextCseq : Nat
  rxDrops : Nat
  sqBase : BitVec 64
  cqBase : BitVec 64
  shadow : BitVec 64
  cfg : BitVec 64
  pasid : BitVec 64
  /-- Entries of a CHAIN request fetched so far, its whole chain not yet submitted (R93). -/
  chain : Nat
  expo : List (Nat × Nat)
  reqs : List Req
  cpls : List Cpl
  /-- Completions posted since the last signal, and whether the COAL_TIME window is open (R102). -/
  coal : Nat
  coalOpen : Bool
  /-- A shadow read is outstanding (R98). -/
  shadowOut : Bool
  /-- The world the channel had when it was last enabled (Table 10-1; local channels). -/
  world : Bool
  /-- Virtqueue or NVMe ring state of a personality: available position, used position and wrap counters, ring addresses. -/
  availIdx : Nat
  usedIdx : Nat
  availWrap : Bool
  usedWrap : Bool
  /-- Taken over from the failed twin and not yet reconciled; then polled until the next reset (R130). -/
  adopted : Bool
  recon : Bool
  deriving DecidableEq, Repr

/-- An MSI-X table entry. -/
structure MsixEnt where
  addr : BitVec 64
  data : BitVec 32
  masked : Bool
  pend : Bool
  deriving DecidableEq, Repr

/-- A virtio function's transport and device state (R109–R118). -/
structure VirtioState where
  status : Nat
  feats : BitVec 64
  needsReset : Bool
  cfgGen : Nat
  isr : Nat
  qsel : Nat
  dfSel : Nat
  drvSel : Nat
  cfgVec : Nat
  qsize : SMap Nat
  qvec : SMap Nat
  qen : SMap Bool
  qdesc : SMap Nat
  qdriver : SMap Nat
  qdevice : SMap Nat
  /-- max_virtqueue_pairs or num_queues as latched at the last reset (R112). -/
  latched : Nat
  resetBusy : Bool
  /-- Receive filter of virtio-net (R116). -/
  promisc : Bool
  allmulti : Bool
  multi : List (BitVec 48)
  vlans : List Nat
  pairs : Nat
  rssTypes : BitVec 32
  rssUncl : Nat
  rssTable : List Nat
  rssKey : List (BitVec 8)
  hashTypes : BitVec 32
  /-- Frames not sent (R114). -/
  txErrors : Nat
  deriving DecidableEq, Repr

/-- An NVMe controller's state (R109–R122). -/
structure NvmeState where
  en : Bool
  rdy : Bool
  cfs : Bool
  aqa : BitVec 32
  asq : BitVec 64
  acq : BitVec 64
  cc : BitVec 32
  intms : BitVec 32
  latched : Nat
  /-- I/O queues that exist: submission and completion, by queue ID. -/
  sqs : List Nat
  cqs : List Nat
  aers : List Nat
  aeCfg : BitVec 32
  aggThr : Nat
  aggTime : Nat
  optOut : List Nat
  vwc : Bool
  dbShadow : BitVec 64
  dbEvent : BitVec 64
  dbOn : Bool
  /-- ANA state: 1 Optimized, 2 Non-Optimized, 3 Inaccessible (R131). -/
  ana : Nat
  changedNs : List Nat
  eventsPend : List Nat
  deriving DecidableEq, Repr

/-- What a function holds beside the QFAB tables: VF_FSTAT events, MSI-X, configuration space, its personality. -/
structure FnCtx where
  grantEvt : Bool
  strayDb : Bool
  evtEn : Bool
  msix : SMap MsixEnt
  msixEn : Bool
  atsEn : Bool
  numVfs : Nat
  priEn : Bool
  priAlloc : Nat
  priStopped : Bool
  prgiNext : Nat
  relaxed : Bool
  cplTmo : Nat
  ptmEn : Bool
  virtio : VirtioState
  nvme : NvmeState
  deriving DecidableEq, Repr

/-- Where bytes of a transfer come from or go to. -/
inductive Side where
  /-- Host memory of a function's I/O virtual address space. -/
  | host (segs : List (Nat × Nat))
  /-- Device physical memory. -/
  | dev (segs : List (Nat × Nat))
  /-- Bytes the request carries: INLINE data, or a frame in the packet buffer. -/
  | bytes (b : List (BitVec 8))
  /-- An 8-byte pattern repeated (FILL). -/
  | pattern (b : List (BitVec 8))
  /-- The device's packet path (NET_TX) or nothing (COMPARE). -/
  | sink
  deriving DecidableEq, Repr

/-- A work item that waits to be written to a work ring (Table 04-5): `wid` is set for MOVED and CANCELLED, which name an earlier item. -/
structure BeqItem where
  op : Nat
  wid : Option Nat
  rid : Nat
  q : Nat
  f : Nat
  flags : Nat
  acct : Nat
  vol : Nat
  lba : Nat
  nbytes : Nat
  epoch : Nat
  time : Nat
  ranges : List (Nat × Nat)
  cls : Nat
  data : Side
  deriving DecidableEq, Repr

/-- A work item outstanding on a back-end queue (R123): its request and what it carries. -/
structure Work where
  wid : Nat
  rid : Nat
  q : Nat
  f : Nat
  op : Nat
  nbytes : Nat
  cls : Nat
  /-- Where the request's host data lies. -/
  data : Side
  /-- The status of a COMPLETE that waits for earlier moves. -/
  completeWith : Option Nat
  /-- The item as it was written; its MOVED and CANCELLED items repeat its fields. -/
  item : BeqItem
  deriving DecidableEq, Repr

/-- A back-end queue (R123): outstanding items, items that wait to be written, phase of the work ring, next WID, cancelled WIDs, and moves
with NOTIFY whose data has landed (WID, offset, bytes). -/
structure Beq where
  works : List Work
  items : List BeqItem
  phase : Bool
  nextWid : Nat
  cancelled : List Nat
  landed : List (Nat × Nat × Nat)
  deriving DecidableEq, Repr

/-- The queue fabric's own state: counters, token buckets (Int tokens: bytes, or thousandths of an operation), DRR deficits and
pointers, back-end queues. -/
structure QfabState where
  nextRid : Nat
  stamp : Nat
  buckets : SMap Int
  deficit : SMap Int
  drrPtr : SMap Nat
  rrPtr : SMap Nat
  beqs : SMap Beq
  /-- Entries abandoned before they were fetched: function, stamp of the exposure, stamp at which they were abandoned (R239). -/
  abandon : List (Nat × Nat × Nat)
  deriving DecidableEq, Repr

/-! ### Shuttle (05_shuttle_translation.md) -/

/-- Transfer states (Table 05-8). -/
inductive XfSt where
  | ready | running | prgWait | parked | failed | done
  deriving DecidableEq, Repr

/-- What a transfer serves. -/
inductive XfFor where
  | req (q rid : Nat)
  | move (b wid rid : Nat) (notify : Bool)
  /-- A received frame for a posted buffer: full frame length, whether a function sent it, the packet's account, further buffers of a merged
  virtio-net frame. -/
  | rx (q rid full : Nat) (ew : Bool) (acct : Option Nat) (more : List Nat)
  deriving DecidableEq, Repr

/-- A stitch in flight: its offset, length and the bytes read for it (after the transform), and bytes of the second buffer of a
COMPARE; `poison` when poisoned data follows its bytes (R251). -/
structure Stitch where
  off : Nat
  len : Nat
  bytes : List (BitVec 8)
  poison : Bool
  /-- Where its bytes go: translated destination pieces (address, length). -/
  dst : List (Nat × Nat)
  /-- First difference that a COMPARE found in it. -/
  diff : Option Nat
  deriving DecidableEq, Repr

/-- A transfer in a channel (R134, R153, R156). -/
structure Xfer where
  xid : Nat
  purpose : XfFor
  /-- Owning function, or local channel number when `lc`. -/
  f : Nat
  lc : Bool
  q : Nat
  panel : Nat
  port : Nat
  cls : Nat
  pasid : Option Nat
  acct : Nat
  src : Side
  dst : Side
  /-- The second source of a COMPARE. -/
  src2 : Option Side
  len : Nat
  next : Nat
  /-- Bytes written contiguously from offset 0, and the highest offset whose bytes have been counted (R153, R215). -/
  delivered : Nat
  counted : Nat
  parkOff : Nat
  flight : List Stitch
  st : XfSt
  status : Nat
  xform : Nat
  xparam : Nat
  keyslot : Nat
  crc : Nat
  diff : Option Nat
  /-- Data held in device buffers: a frame being collected, or an AES-XTS data unit not yet complete. -/
  buf : List (BitVec 8)
  /-- Translated destination pieces not yet written, in order. -/
  pieces : List (Nat × Nat)
  /-- Where the full CRC-64 is still to be written (R159). -/
  tail : Option Nat
  /-- Offset of a back-end move in its request's data. -/
  moff : Nat
  toHost : Bool
  deriving DecidableEq, Repr

/-- An ATC entry (R141): device-side entries have `dev`. -/
structure AtcEnt where
  dev : Bool
  f : Nat
  pasid : Option Nat
  base : Nat
  size : Nat
  phys : Nat
  r : Bool
  w : Bool
  u : Bool
  deriving DecidableEq, Repr

/-- What waits for a page. -/
inductive Waiter where
  | xfer (xid : Nat)
  | walk (q rid : Nat)
  | fetch (q : Nat)
  | cpl (q : Nat)
  | shadow (q : Nat)
  /-- A dirty bitmap of VF v: never parks (R168). -/
  | bitmap (v : Nat)
  deriving DecidableEq, Repr

/-- An outstanding ATS Translation Request. -/
structure AtsReq where
  tag : Nat
  f : Nat
  pasid : Option Nat
  page : Nat
  write : Bool
  by_ : Waiter
  tries : Nat
  deriving DecidableEq, Repr

/-- A page request group: outstanding, or reserved after a timeout, or late (its waiter is gone), or still to be sent. -/
structure Prg where
  f : Nat
  port : Nat
  prgi : Nat
  sent : Bool
  reserved : Bool
  late : Bool
  pasid : Option Nat
  page : Nat
  write : Bool
  by_ : Waiter
  tries : Nat
  deriving DecidableEq, Repr

/-- An AES-XTS key slot (R162). -/
structure KeySlot where
  owner : Nat
  key : List (BitVec 8)
  deriving DecidableEq, Repr

/-- An interval of a dirty log that a SYNC with SWAP or a STOP ended at its fetch (R167): the request, the bitmap just left (`active`: BASE1),
how it overflowed, its count of bits, and pages whose bit is not in the bitmap yet. -/
structure DirtyPast where
  q : Nat
  rid : Nat
  active : Bool
  overflow : Bool
  bits : Nat
  cache : List Nat
  deriving DecidableEq, Repr

/-- Dirty-page log of a VF (R164–R169). `cache` are recorded pages whose bitmap update is still to be written. -/
structure DirtyLog where
  on : Bool
  overflow : Bool
  cause : Nat
  active : Bool
  limit : Nat
  base0 : Nat
  base1 : Nat
  bits : Nat
  cache : List Nat
  pf : Nat
  past : List DirtyPast
  deriving DecidableEq, Repr

/-- An ATS Invalidate Request whose completion waits (R143) for stitches in flight (transfer, offset) and shadow reads (QP) that used the entries. -/
structure Inval where
  f : Nat
  stitches : List (Nat × Nat)
  shadows : List Nat
  deriving DecidableEq, Repr

/-- The Shuttle's state. -/
structure ShuttleState where
  nextXid : Nat
  nextTag : Nat
  xfers : List Xfer
  atc : List AtcEnt
  ats : List AtsReq
  prgs : List Prg
  /-- Groups sent since reset, by host port. -/
  groups : SMap Nat
  keyData : List (BitVec 64)
  keys : SMap KeySlot
  dlogs : SMap DirtyLog
  /-- ATS Invalidate Requests whose completion waits (R143). -/
  invals : List Inval
  deriving DecidableEq, Repr

/-! ### Containment (08_ordering_containment.md) -/

/-- Containment state: the panels held by class 4 faults, an injection (mechanism, panel, tile) that waits for its detection, poisoned byte
ranges (address, length), and the device time by which the containment of the last dangerous fault has finished (R255). -/
structure SafeState where
  panelHeld : List Nat
  inject : Option (Nat × Nat × Nat)
  poison : List (Nat × Nat)
  contUntil : Nat
  deriving DecidableEq, Repr

/-- A host port's link: trained, and the error status of its outbound window (R29, R77). -/
structure PortSt where
  trained : Bool
  err : Bool
  deriving DecidableEq, Repr

/-! ### Selvedge (06_selvedge.md) -/

/-- An entry of a Selvedge table (Table 06-9): its table, its locator (the key bytes, or the index), its image without the PEND field, and the
epochs between which packets see it (Table 06-11): from `since` on (none: live), and before `till`. A flow entry stands in a bucket. -/
structure TabEnt where
  table : Nat
  loc : List (BitVec 8)
  image : List (BitVec 8)
  since : Option Nat
  till : Option Nat
  bucket : Nat
  deriving DecidableEq, Repr

/-- A packet in a pipeline: its panel, whether it is on the transmit path, its source (a function, or 0x2000 + Ethernet port), frame without
FCS, epoch stamp (R174), time at stage 1, whether it was recirculated, the TSID of an SA's inner packet, a reinjected packet's account, its PFC class, its flow hash. -/
structure Pkt where
  pipe : Nat
  tx : Bool
  src : Nat
  frame : List (BitVec 8)
  epoch : Nat
  time : Nat
  recirc : Bool
  tsid : Option Nat
  acct : Option Nat
  cls : Nat
  hash : Nat
  deriving DecidableEq, Repr

/-- Connection states (Table 06-7). -/
inductive CtSt where
  | synSent | synRecv | established | finWait | closeWait | timeWait | closed | unreplied | assured | open_ | openReplied
  deriving DecidableEq, Repr

/-- A connection (R186): the key of its first direction and the key that replies carry, its state, its timeout in device ns, the highest
sequence seen in each direction, whether each side has sent FIN, and a stored translation (source or destination; address, port). -/
structure Conn where
  key : List (BitVec 8)
  rkey : List (BitVec 8)
  st : CtSt
  expires : Nat
  seqO : Option Nat
  seqR : Option Nat
  finO : Bool
  finR : Bool
  nat : Option (Bool × List (BitVec 8) × Nat)
  deriving DecidableEq, Repr

/-- What a security association changes as it runs (R194–R196): last outbound sequence number, mirrored ceiling, bytes and packets under its
lifetimes, whether it has stopped; right edge of the inbound window and the sequence numbers seen in it. -/
structure SaDyn where
  seq : Nat
  ceil : Nat
  bytes : Nat
  pkts : Nat
  stopped : Bool
  edge : Nat
  seen : List Nat
  deriving DecidableEq, Repr

/-- A policer's token counts, in 1/8,000,000 byte, and the time to which they are refilled (R193). -/
structure Meter where
  tc : Nat
  tp : Nat
  at_ : Nat
  deriving DecidableEq, Repr

/-- A packet that waits for a function (R200): function, local index, frame, its account (none: a mirror copy), whether a function sent it, its pipe, its hash and
the virtio hash type, whether its innermost checksums were right, its PFC class and port. -/
structure RxPkt where
  f : Nat
  loc : Nat
  frame : List (BitVec 8)
  acct : Option Nat
  ew : Bool
  pipe : Nat
  hash : Nat
  htype : Nat
  csumOk : Bool
  cls : Nat
  src : Nat
  /-- It goes to the ring that this twin adopted from its peer (R284, R293). -/
  adopt : Bool
  deriving DecidableEq, Repr

/-- A frame in a port's class queue (R201): its account, whether it came from an Ethernet port, and that port and class. `acct` is none for a
mirror copy. -/
structure TxPkt where
  frame : List (BitVec 8)
  acct : Option Nat
  fromPort : Bool
  src : Nat
  cls : Nat
  deriving DecidableEq, Repr

/-- Selvedge's state. `cache` lists the flow keys each pipeline's flow cache holds, newest first; `hist` the values SELV and EMAC registers had
before each stitch edge while older packets remain (R175); `etcDef`, `etcPtr` the DWRR state; `shape` each class's tokens and time;
`exRate` the millisecond and count of each exception queue's records; `aclEpoch` the ACL epochs of each tenant space, newest first (R182); `rx` frames that wait for functions in order. -/
structure SelvState where
  tabs : List TabEnt
  cache : List (Nat × List (BitVec 8))
  miss : List Pkt
  conns : List Conn
  sas : SMap SaDyn
  meters : SMap Meter
  rx : List RxPkt
  egress : SMap (List TxPkt)
  paused : List Nat
  xoff : List Nat
  etcDef : SMap Int
  etcPtr : SMap Nat
  shape : SMap (Nat × Nat)
  exPhase : SMap Bool
  exRate : SMap (Nat × Nat)
  aclEpoch : SMap (List Nat)
  hist : List (Nat × List (Nat × BitVec 64))
  deriving DecidableEq, Repr


/-! ### Tape (07_tape.md) -/

/-- A bank of counters (R218–R224): counts by 16 × account + counter; per account EFLAGS bits, with bit 8 for "enabled in
some cycle of the span"; first minute; header flags gathered; epochs; whether it is closed and how many minutes it spans; whether a
contained fault has made its counts void (R253). -/
structure TapeBank where
  counts : SMap Nat
  flags : SMap Nat
  first : Nat
  span : Nat
  hdr : Nat
  epochFirst : Nat
  epochLast : Nat
  closed : Bool
  roleAtCut : Nat
  void : Bool
  deriving DecidableEq, Repr

/-- A record in the ledger ring: RSEQ, first unit, bytes. -/
structure TapeRec where
  rseq : Nat
  unit : Nat
  bytes : Nat
  deriving DecidableEq, Repr

/-- The Tape's state beside its registers. `lastClosed` is the last minute closed plus 1 (0: none), `lastTick` the highest whole
second ticked, `markers` the minutes whose cut marker came from the peer with its time, `waived` the minute whose marker timed out,
`cutTime` the time of the last cut, `ringUsed` the TAPE_RING value under which the record in progress is written and `ringChanged` whether a
stitch has changed the ring since. -/
structure TapeState where
  bank0 : TapeBank
  bank1 : TapeBank
  lastClosed : Nat
  lastTick : Nat
  markers : List (Nat × Nat)
  waived : Bool
  cutTime : Nat
  draining : Bool
  nonce : Nat
  nextRseq : Nat
  recs : List TapeRec
  ringUsed : BitVec 64
  ringChanged : Bool
  deriving DecidableEq, Repr

/-! ### Galvel (09_twin_galvel.md) -/

/-- A request of the peer's ring as the journal describes it (Table 09-8). -/
structure ShadowReq where
  ringIdx : Nat
  count : Nat
  cid : Nat
  epoch : Nat
  time : Nat
  strict : Bool
  network : Bool
  write : Bool
  issued : Option Nat
  commit : Option JCommit
  counts : List (Nat × Nat)
  deriving DecidableEq, Repr

/-- The shadow of one of the peer's rings (R278). `complete` is false while it lacks state. -/
structure ShadowQp where
  complete : Bool
  regs : SMap (BitVec 64)
  st : QpSt
  held : Bool
  sqHead : Nat
  cqTail : Nat
  nextCseq : Nat
  phase : Bool
  wrap : Bool
  reqs : List ShadowReq
  deriving DecidableEq, Repr

/-- What this twin knows of its peer (R271, R290). -/
inductive PeerSt where
  | none | paired | solo | fenced | gone
  deriving DecidableEq, Repr

/-- A TWIN_PAIR under way (R269). -/
structure Pairing where
  req : OnfReq
  action : Nat
  role : Nat
  serial : BitVec 64
  pairId : BitVec 64
  /-- Every check of Table 09-5 has passed; synchronisation runs. -/
  accepted : Bool
  deriving DecidableEq, Repr

/-- A TWIN_HANDOFF scheduled, past its edge when `edge` (R291–R293). -/
structure Handoff where
  req : OnfReq
  mode : Nat
  time : Nat
  confirmed : Bool
  edge : Bool
  deriving DecidableEq, Repr

/-- The twin's state beside the GALV registers. `unacked` are the flits sent and not
acknowledged: SEQ, how often sent, payload. -/
structure GalvState where
  txSeq : Nat
  rxNext : Nat
  nak : Bool
  unacked : List (Nat × Nat × FlitPayload)
  peer : PeerSt
  pairId : BitVec 64
  pairing : Option Pairing
  /-- What the peer has said of itself for a pairing. -/
  peerInfo : Option PairInfo
  jseq : Nat
  jacked : Nat
  rxJseq : Nat
  /-- Account of the last COMMIT applied, which its COUNTS follow (Table 09-8). -/
  commitAcct : Nat
  shadows : SMap ShadowQp
  handoff : Option Handoff
  /-- The peer's hand-off in force: its mode and time. -/
  peerHandoff : Option (Nat × Nat)
  /-- A takeover whose settle interval runs (R284). -/
  settling : Bool
  /-- A fenced device waits for FENCE_HOLD_MS (R266). -/
  holding : Bool
  /-- Rings whose release edge has passed and whose trailing work is not finished (R293). -/
  releasing : List Nat
  /-- Rings the peer serves for this twin: their doorbells are forwarded. -/
  lent : List Nat
  /-- Adopted rings whose network requests wait for the peer's trailing frames (R293). -/
  netHold : List Nat
  /-- Requests of adopted rings to be executed again: ring and ring index (Table 09-10). -/
  redo : List (Nat × Nat)
  /-- The peer's dirty-log settings, by VF. -/
  peerLogs : SMap DirtyLog
  heartbeat : Bool
  /-- CNTLID of this twin's NVMe functions, fixed at pairing (R131). -/
  cntlid : Nat
  deriving DecidableEq, Repr

/-! ### Harts (11_anole_cores.md) -/

/-- A hart: mworld.WORLD, whether it has been released from reset, whether it is in WFI, held in Debug Mode, and the address at which it last
started (released or woken) with the cause of the last trap this model gave it; mcachectl, htapeacct and mpowerreq with the world of its last write; and its
machine, supervisor and VS timer interrupts pending (R300, R323, R326, R376, R415). Every other register of a hart is RISC-V's own (R322). -/
structure Hart where
  world : Bool
  released : Bool
  wfi : Bool
  debug : Bool
  startPc : Nat
  trap : Nat
  icEn : Bool
  dcEn : Bool
  l2En : Bool
  invDone : Bool
  noInv : Bool
  noSc : Bool
  account : Nat
  preq : Nat
  preqLining : Bool
  preqPending : Bool
  preqRefused : Bool
  mtip : Bool
  stip : Bool
  vstip : Bool
  deriving DecidableEq, Repr

/-- The bank of 48 GPIO pins as far as a change of world reaches it: output drivers on and interrupts enabled, a bit a pin (R309). -/
structure GpioState where
  outEn : Nat
  irqEn : Nat
  deriving DecidableEq, Repr

/-- A host port's SPDM responder and IDE streams (R320, R321): how far the connection has been negotiated (0 none, 1 version, 2 capabilities,
3 algorithms), sessions by ID (1 handshake, 2 established), the next session ID, and streams 0–3: 0 no keys, 1 keys programmed, 2 secure, 3 Insecure. -/
structure SpdmState where
  conn : Nat
  sess : SMap Nat
  nextSid : Nat
  ide : SMap Nat
  deriving DecidableEq, Repr

/-! ### Bobbin engines (12_bobbin_isa.md) -/

/-- BOB_STAT.STATE (R344). -/
inductive EngSt where
  | stopped | running | waiting | halted
  deriving DecidableEq, Repr

/-- What a WAITING engine waits for: WAIT with its limit in units of 16 cycles, SYNC, or a busy coprocessor. -/
inductive EngWait where
  | wait (ws : Nat)
  | sync
  | cop (port : Nat)
  deriving DecidableEq, Repr

/-- A store in the store buffer (R364): whether it goes through the window, its place (below 65,536 a local word, else 65,536 + half its
physical address) and its words. -/
structure StoreEnt where
  window : Bool
  loc : Nat
  words : List (BitVec 16)
  deriving DecidableEq, Repr

/-- A line of the I-cache: I-space word address / 16, and its words (R345). -/
structure ICLine where
  line : Nat
  words : List (BitVec 16)
  deriving DecidableEq, Repr

/-- A coprocessor unit (R360): its registers, STATUS bit 1, and while busy what it will write: D-space words, its own registers, its error; `raise` says
that an error still has to raise vector 6. `acc` is what a running hash or authenticated message has taken in. -/
structure CopSt where
  regs : SMap Nat
  err : Bool
  busy : Bool
  outMem : List (Nat × BitVec 16)
  outRegs : List (Nat × Nat)
  outErr : Bool
  raise : Bool
  acc : List (BitVec 8)
  acc2 : List (BitVec 8)
  deriving DecidableEq, Repr

/-- A Bobbin engine. `w` are W0–W15, `dmem` and `imem` the local SRAMs by word, `icache` the I-cache lines newest first, `sbuf` the store buffer oldest
first, `muldiv` the registers a pending multiply or divide will write, `pend` the edge lines that are pending, `rp*` the register port;
`eiHold` says that EI has just been issued, `rd` is the read holding register (offset, value, whether its copy is open), `wr` the write holding register (offset, words 0 to 2). -/
structure Engine where
  st : EngSt
  stopReq : Bool
  dfault : Bool
  cause : Nat
  vector : Nat
  faults : Nat
  faultAddr : Nat
  w : SMap (BitVec 16)
  pc : Nat
  c : Bool
  z : Bool
  n : Bool
  v : Bool
  ie : Bool
  eiHold : Bool
  bank0 : Nat
  bank1 : Nat
  bank2 : Nat
  bank3 : Nat
  dmem : SMap (BitVec 16)
  imem : SMap (BitVec 16)
  icache : List ICLine
  sbuf : List StoreEnt
  muldiv : List (Nat × BitVec 16)
  mbx : List (BitVec 16)
  mbxDrop : Bool
  pend : Nat
  irqEn : Nat
  waitEn : Nat
  ltCmp : Nat
  ltHold : Nat
  cycle : Nat
  rpOff : Nat
  rpData : Nat
  rpCmd : Nat
  rpRefused : Bool
  rd : Option (Nat × Nat × Bool)
  wr : Option (Nat × Nat)
  waitOn : Option EngWait
  cops : SMap CopSt
  deriving DecidableEq, Repr

/-! ### Verified start (13_spool_boot.md) -/

/-- The fuse cells burnt since manufacture (R382): a key slot's hash, REVOKE bits, the counters as counts, DEBUG_POLICY bits, FACTORY_KEY_OFF. -/
structure FuseState where
  hash2 : Option (List (BitVec 8))
  hash3 : Option (List (BitVec 8))
  revoke : Nat
  svnT : Nat
  svnP : Nat
  policy : Nat
  factoryOff : Bool
  deriving DecidableEq, Repr

/-- The Spool loader's and Thimble's state. `keygen` is SVN_T as sensed for this boot (R317). `loaded` says whether the first 4 KiB of the body has started
the Thimble engines, `images` whether Thimble has run steps 2 to 8 of R376, `ucode` step 1. `flash` are the bytes of both flash devices written over
their first contents (slot × 2^28 + offset; `Config.flashByte` gives those). `rec0`, `rec1` are the boot records, `store` the wrapped sender keys in
each slot's data area (64 × slot + key slot). `fuse` are burnt cells, `sensed` those that the slot checks go by (R383), `burn` a burn under way: FIELD, INDEX, words. `fwTop` is the firmware
window's end (0: not set), `recReset` the reset that a RECOVERY has scheduled, `relAt` the device time of
WARM release, `cfgDigest` the SHA-384 of the configuration block that this boot applied (empty: factory defaults). -/
structure SpoolState where
  keygen : Nat
  loaded : Bool
  ucode : Bool
  images : Bool
  flash : SMap (BitVec 8)
  rec0 : List (BitVec 8)
  rec1 : List (BitVec 8)
  store : SMap (List (BitVec 8))
  fuse : FuseState
  sensed : FuseState
  burn : Option (Nat × Nat × List (BitVec 64))
  pdata : SMap (BitVec 64)
  fwTop : Nat
  recReset : Bool
  relAt : Nat
  cfgDigest : List (BitVec 8)
  deriving DecidableEq, Repr

/-! ### Timers (14_timers.md) -/

/-- The timer unit beside its registers. `t00` is T00's accumulator in 2^-32 ns; `disarmed` the timers whose compare has matched and is not armed
again (R395); `pps0`, `pps1` the pins' levels; `ptp` each group's timestamp FIFO, oldest first, as the pairs LO and HI; `ptm` a port's outstanding PTM
Request: T00 at its transmission plus 1, 0 for none. -/
structure TmuState where
  t00 : Nat
  disarmed : SMap Bool
  pps0 : Bool
  pps1 : Bool
  ptp : SMap (List (Nat × Nat))
  ptm : SMap Nat
  deriving DecidableEq, Repr

/-! ### Power and Moult (15_power_moult.md) -/

/-- A power unit (R410): its own state (0 Bask, 1 Doze, 2 Brumate, 3 Hold), the state it is entering and whether the point of no return has passed,
a request held until its conditions allow (state, whether Lining), whether it is waking, whether the state it sleeps in or enters was asked for by the Shell, and
whether it must wake as soon as it has gone down, because a claim (1) or an access (2) came too late. -/
structure UnitSt where
  st : Nat
  target : Option Nat
  pnr : Bool
  req : Option (Nat × Bool)
  waking : Bool
  shell : Bool
  wakeAfter : Nat
  deriving DecidableEq, Repr

/-- A slice under test (R425): in its March (else copying), and the spare its contents go to (none: the slice is itself a spare). -/
structure MoultTest where
  march : Bool
  spare : Option Nat
  deriving DecidableEq, Repr

/-- The power controller's and Moult's state. `enterHold` are the panels that PWR_HOLD has put in Hold. `spares` says which physical slices are spares
now, `retired` which have been retired, `tested` which this pass has tested, `first` the slices to test first, `noTest` the groups (16 × code +
panel) no longer tested. -/
structure PowState where
  units : SMap UnitSt
  enterHold : Nat
  spares : SMap Bool
  retired : List Nat
  tests : List (Nat × MoultTest)
  tested : List Nat
  first : List Nat
  noTest : List Nat
  deriving DecidableEq, Repr

/-! ### DRAM (16_dram.md) -/

/-- The DRAM controllers beside their registers: installed capacity in bytes, found by training (R432); 1 MiB blocks initialised on each channel
(R435); corrected errors by device of a rank (R439); channels whose ranks are in power-down (R436); and ranges whose lines were stored under
another ENC setting, each with the draw that gives what they now read (R442). -/
structure DmcState where
  cap : Nat
  initBlk : SMap Nat
  ceDev : SMap Nat
  powerDown : SMap Bool
  scram : List (Nat × Nat × Nat)
  deriving DecidableEq, Repr

/-! ### The whole -/

/-- Everything that leaves the device, newest first in `State.out`. -/
inductive OutEvent where
  /-- An Onafaet reply or event packet on a channel. -/
  | onf (ch : Nat) (p : OnfPkt)
  /-- A packet dropped at step 1 or 2 of Table 02-4, or under R35. -/
  | onfDrop (ch code : Nat)
  /-- An MSI-X message. -/
  | msix (f vec : Nat) (addr : BitVec 64) (data : BitVec 32)
  /-- An MSI to an interrupt file of a hart: 0 machine, 1 supervisor, 1 + g guest file g. -/
  | imsic (hart file eiid : Nat)
  /-- An ATS Translation Request. -/
  | ats (tag f : Nat) (pasid : Option Nat) (page : Nat) (write : Bool)
  /-- A Page Request Group. -/
  | pageReq (port f prgi : Nat) (pasid : Option Nat) (page : Nat) (write : Bool)
  /-- An ATS Invalidate Completion. -/
  | invalidateDone (f : Nat)
  /-- A fault record of the device IOMMU. -/
  | iommuFault (lc cause iova : Nat)
  /-- A non-posted shadow read. -/
  | shadowRead (q : Nat)
  /-- A frame on an Ethernet port; `badFcs` when its transmission was ended with an inverted FCS. -/
  | frame (port : Nat) (bytes : List (BitVec 8)) (badFcs : Bool)
  /-- A host port starts training. -/
  | portTrain (port : Nat)
  /-- The Croak pattern on a lane quad. -/
  | croak (unit : Nat)
  /-- The lanes of an Ethernet group train again. -/
  | laneTrain (group : Nat)
  /-- A host port drops its link. -/
  | portDown (port : Nat)
  /-- A back-end completion or personality notice that has no host write: a configuration change of a virtio function. -/
  | virtioConfig (f : Nat)
  /-- A frame the device dropped, with the reason of Table 06-24. -/
  | netDrop (pipe reason : Nat)
  /-- A PFC frame that the device sends: port, class, whether XOFF. -/
  | pfc (port cls : Nat) (xoff : Bool)
  /-- The acknowledgement of a control virtqueue command: whether VIRTIO_NET_OK. -/
  | ctrlAck (f : Nat) (ok : Bool)
  /-- A Tape increment sent to the peer: account, counter, minute, amount (R231). -/
  | tapeInc (acct ctr minute amount : Nat)
  /-- The cut marker of a closed minute, with the time of the cut (R231). -/
  | tapeCut (minute time : Nat)
  /-- A flit sent to the peer. -/
  | flit (fl : Flit)
  /-- A journal entry sent to the peer: its head, kind (Table 09-8) and body words. -/
  | journal (e : JHead) (kind : Nat) (body : List Nat)
  /-- The goodbye flit. -/
  | goodbye
  /-- An SPDM response on a host port: code and fields. -/
  | spdm (port code : Nat) (params : List (BitVec 8))
  /-- A GPIO, PPS or scan output level. -/
  | pin (pin : Nat) (level : Bool)
  /-- A PTM or PTP message. -/
  | ptm (port : Nat)
  /-- A reply of an OEM handler (R48): the handler fixes it. -/
  | oem (ch opcode : Nat)
  /-- A read of a register or of memory answered with these bytes. -/
  | readData (bytes : List (BitVec 8))
  /-- A read answered with poisoned data, and whether an access fault is taken. -/
  | readPoison
  /-- A Debug Module access ended with abstract command error cmderr 3 (Table 10-3). -/
  | cmderr
  deriving DecidableEq, Repr

/-- The state of the SV6240. -/
structure State where
  /-- Commands that wait, first in, first out (the model's own). -/
  pending : List Instr
  /-- How many free values have been taken (the model's own; log entry 3). -/
  freeCtr : Nat
  /-- What has left the device, newest first (the model's own; log entry 4). -/
  out : List OutEvent
  /-- Control registers by control-space offset, over their reset values; a basted register's live copy by its live offset. -/
  regs : SMap (BitVec 64)
  /-- Device physical memory: DRAM, Lining SRAM, Bobbin shared SRAM. -/
  mem : Memory
  /-- Host memory as the device sees it: port × 2^64 + host physical address. -/
  hostMem : Memory
  sys : SysState
  onf : OnfState
  qps : SMap QpCtx
  fns : SMap FnCtx
  qf : QfabState
  shut : ShuttleState
  safe : SafeState
  selv : SelvState
  tape : TapeState
  galv : GalvState
  tmu : TmuState
  engs : SMap Engine
  harts : SMap Hart
  spool : SpoolState
  pow : PowState
  spdm : SMap SpdmState
  gpio : GpioState
  links : SMap PortSt
  dmc : DmcState
  /-- Identities pending in each interrupt file of each hart's IMSIC, a bit each, by 8 × hart + file (0 machine, 1 supervisor, 1 + g guest g; R331). -/
  imsic : SMap Nat
  /-- The 32-bit registers of the APLICs and the words of the device IOMMU's register file, by control-space offset (R148, R330). -/
  aia : SMap Nat
  deriving DecidableEq, Repr

/-- A key slot, a mailbox, a queue pair and a function as a reset leaves them. -/
def Mailbox.reset : Mailbox :=
  { req := [], reply := [], go := false, busy := false, done := false, overrun := false, drop := false, irqEn := false,
    dropcode := 0, replies := [], lastMore := false }

/-- A sender key slot that holds no key. -/
def SenderKey.none : SenderKey := { sender := 0, key := [], perms := 0, revoked := true, ctr := 0 }

/-- A QP context after a reset: FREE for a QP of the pool (R80), QUIESCED for a local channel (R151), its window registers at
their reset values. -/
def QpCtx.reset (lc : Bool) : QpCtx :=
  { st := if lc then .quiesced else .free, held := false, sessHeld := false, drain := Option.none, contained := false,
    cfgErr := false, enable := false, errcode := 0, undoneHead := 0, sqHead := 0, sqTail := 0, cqHead := 0, cqTail := 0,
    phase := true, nextCseq := 0, rxDrops := 0, sqBase := 0, cqBase := 0, shadow := 0, cfg := 0, pasid := 0, chain := 0,
    expo := [], reqs := [], cpls := [], coal := 0, coalOpen := false,
    shadowOut := false, world := false, availIdx := 0, usedIdx := 0, availWrap := true, usedWrap := true, adopted := false,
    recon := false }

/-- What an unlisted QP or local channel holds. -/
def qpDefault (q : Nat) : QpCtx := QpCtx.reset (decide (65536 ≤ q))

/-- An MSI-X entry after reset: masked (R79). -/
def MsixEnt.reset : MsixEnt := { addr := 0, data := 0, masked := true, pend := false }

/-- A virtio function after reset. -/
def VirtioState.reset : VirtioState :=
  { status := 0, feats := 0, needsReset := false, cfgGen := 0, isr := 0, qsel := 0, dfSel := 0, drvSel := 0,
    cfgVec := 65535, qsize := [], qvec := [], qen := [], qdesc := [], qdriver := [], qdevice := [], latched := 0,
    resetBusy := false, promisc := false, allmulti := false, multi := [], vlans := [], pairs := 1, rssTypes := 0,
    rssUncl := 0, rssTable := [], rssKey := [], hashTypes := 0, txErrors := 0 }

/-- An NVMe controller after reset. -/
def NvmeState.reset : NvmeState :=
  { en := false, rdy := false, cfs := false, aqa := 0, asq := 0, acq := 0, cc := 0, intms := 0, latched := 0, sqs := [],
    cqs := [], aers := [], aeCfg := 0, aggThr := 0, aggTime := 0, optOut := [], vwc := true, dbShadow := 0, dbEvent := 0,
    dbOn := false, ana := 1, changedNs := [], eventsPend := [] }

/-- A function after reset. -/
def FnCtx.reset : FnCtx :=
  { grantEvt := false, strayDb := false, evtEn := false, msix := [], msixEn := false, atsEn := false, numVfs := 0,
    priEn := false, priAlloc := 0, priStopped := false, prgiNext := 0, relaxed := false, cplTmo := 0, ptmEn := false,
    virtio := VirtioState.reset, nvme := NvmeState.reset }

/-- A back-end queue after reset. -/
def Beq.reset : Beq := { works := [], items := [], phase := true, nextWid := 0, cancelled := [], landed := [] }

/-- A dirty log that is off. -/
def DirtyLog.off : DirtyLog :=
  { on := false, overflow := false, cause := 0, active := false, limit := 0, base0 := 0, base1 := 0, bits := 0,
    cache := [], pf := 0, past := [] }

/-- A key slot that is empty. -/
def KeySlot.empty : KeySlot := { owner := 0, key := [] }

/-- A coprocessor unit after reset. -/
def CopSt.reset : CopSt :=
  { regs := [], err := false, busy := false, outMem := [], outRegs := [], outErr := false, raise := false, acc := [], acc2 := [] }

/-- A Bobbin engine at warm release (R344): STOPPED, its local memory zero. -/
def Engine.reset : Engine :=
  { st := .stopped, stopReq := false, dfault := false, cause := 0, vector := 0, faults := 0, faultAddr := 0, w := [], pc := 0,
    c := false, z := false, n := false, v := false, ie := false, eiHold := false, bank0 := 0, bank1 := 0, bank2 := 0, bank3 := 0, dmem := [], imem := [],
    icache := [], sbuf := [], muldiv := [], mbx := [], mbxDrop := false, pend := 0, irqEn := 0, waitEn := 0, ltCmp := 0, ltHold := 0,
    cycle := 0, rpOff := 0, rpData := 0, rpCmd := 0, rpRefused := false, rd := Option.none, wr := Option.none, waitOn := Option.none,
    cops := [] }

/-- A hart after reset. -/
def Hart.reset : Hart :=
  { world := false, released := false, wfi := false, debug := false, startPc := 0, trap := 0, icEn := false, dcEn := false, l2En := false,
    invDone := false, noInv := false, noSc := false, account := 0, preq := 0, preqLining := false, preqPending := false,
    preqRefused := false, mtip := false, stip := false, vstip := false }

/-- No cell burnt since manufacture. -/
def FuseState.none : FuseState :=
  { hash2 := Option.none, hash3 := Option.none, revoke := 0, svnT := 0, svnP := 0, policy := 0, factoryOff := false }

/-- A host port's link after reset. -/
def PortSt.down : PortSt := { trained := false, err := false }

/-- A power unit in Bask. -/
def UnitSt.bask : UnitSt :=
  { st := 0, target := Option.none, pnr := false, req := Option.none, waking := false, shell := false, wakeAfter := 0 }

/-- A host port's SPDM responder after reset. -/
def SpdmState.reset : SpdmState := { conn := 0, sess := [], nextSid := 1, ide := [] }

/-- Slices in use and spares of a Moult group (Table 15-15). -/
def moultInUse (g : Nat) : Nat :=
  if g = 0 then 512 else if g = 1 then 256 else if g = 2 then 128 else if g = 3 then 48 else if g = 4 then 32 else if g = 5 then 64
  else if g = 6 then 32 else 0
def moultSpareCount (g : Nat) : Nat :=
  if g = 0 then 12 else if g = 1 then 4 else if g = 2 then 2 else if g = 3 then 2 else if g = 4 then 2 else if g = 5 then 4
  else if g = 6 then 4 else 0

/-- Whether a slice is a spare at power-on: the last of its group. DESIGN CHOICE (log entry 31). -/
def moultSpare0 (slice : Nat) : Bool := decide (moultInUse (slice / 4096) ≤ slice % 1024)

/-- A bank as a cold boot leaves it (R230). -/
def TapeBank.empty : TapeBank :=
  { counts := [], flags := [], first := 0, span := 1, hdr := 0, epochFirst := 0, epochLast := 0, closed := false, roleAtCut := 0, void := false }

/-- A shadow of a ring that holds nothing. -/
def ShadowQp.empty : ShadowQp :=
  { complete := false, regs := [], st := .free, held := false, sqHead := 0, cqTail := 0, nextCseq := 0, phase := true, wrap := true, reqs := [] }

/-- The machine in power-on reset: nothing waits, every output is gated, every register at its reset value, no memory written. -/
def State.reset : State :=
  { pending := [], freeCtr := 0, out := [], regs := [], mem := [], hostMem := [],
    sys := { phase := .por, gated := true, aonBackup := false, aliveOut := false, faultOut := false, fenceOut := false },
    onf := { sessNum := 0, session := none, twinWaits := [], keys := [], ceil0 := 0, ceil1 := 0, floor := 0, ceilPending := none,
             subs := [], evtSeq := [], evts := [], mbx := [], partials := [], resetDelay := none, quiesce := [], peer := [],
             ctrWait := [], held := [], moultWait := [] },
    qps := [], fns := [],
    qf := { nextRid := 0, stamp := 0, buckets := [], deficit := [], drrPtr := [], rrPtr := [], beqs := [], abandon := [] },
    shut := { nextXid := 0, nextTag := 0, xfers := [], atc := [], ats := [], prgs := [], groups := [], keyData := [], keys := [],
              dlogs := [], invals := [] },
    safe := { panelHeld := [], inject := none, poison := [], contUntil := 0 },
    selv := { tabs := [], cache := [], miss := [], conns := [], sas := [], meters := [], rx := [], egress := [], paused := [], xoff := [],
              etcDef := [], etcPtr := [], shape := [], exPhase := [], exRate := [], aclEpoch := [], hist := [] },
    tape := { bank0 := TapeBank.empty, bank1 := TapeBank.empty, lastClosed := 0, lastTick := 0, markers := [], waived := false,
              cutTime := 0, draining := false, nonce := 0, nextRseq := 0, recs := [], ringUsed := 0, ringChanged := false },
    galv := { txSeq := 0, rxNext := 0, nak := false, unacked := [], peer := .none, pairId := 0, pairing := none, peerInfo := none,
              jseq := 0, jacked := 0, rxJseq := 0, commitAcct := 0, shadows := [], handoff := none, peerHandoff := none, settling := false, holding := false,
              releasing := [], lent := [], netHold := [], redo := [], peerLogs := [], heartbeat := false, cntlid := 0 },
    tmu := { t00 := 0, disarmed := [], pps0 := false, pps1 := false, ptp := [], ptm := [] },
    engs := [], harts := [],
    spool := { keygen := 0, loaded := false, ucode := false, images := false, flash := [], rec0 := [], rec1 := [], store := [],
               fuse := FuseState.none, sensed := FuseState.none, burn := none, pdata := [], fwTop := 0, recReset := false, relAt := 0, cfgDigest := [] },
    pow := { units := [], enterHold := 0, spares := [], retired := [], tests := [], tested := [], first := [], noTest := [] },
    spdm := [], gpio := { outEn := 0, irqEn := 0 }, links := [],
    dmc := { cap := 0, initBlk := [], ceDev := [], powerDown := [], scram := [] },
    imsic := [], aia := [] }

end Sys2Proof.Machine
end

