-- ==== Sys2Proof/Machine/Ops.lean ====
section
/-!
DEFINITION. Ops.lean: the named operations over registers, memory, worlds and outputs that the meanings share.
-/

namespace Sys2Proof.Machine

/-- The three outcomes of a command. -/
abbrev Res : Type := Host.Outcome State Fault Refusal

/-! ### Free values and outputs -/

/-- The free value that the next draw takes. -/
def State.free (s : State) : Nat := Config.free s.freeCtr

/-- `n` free bytes of the next draw. -/
def State.freeBytes (s : State) (n : Nat) : List Byte := (List.range n).map fun i => Config.freeByte s.freeCtr i

/-- The state after a draw. -/
def State.drawn (s : State) : State := { s with freeCtr := s.freeCtr + 1 }

/-- Something leaves the device. -/
def State.emit (s : State) (e : OutEvent) : State := { s with out := e :: s.out }

/-- Several things leave the device, the first of the list first. -/
def State.emitAll (s : State) : List OutEvent → State
  | [] => s
  | e :: es => State.emitAll (s.emit e) es

/-! ### Control registers -/

/-- The register at a control-space offset. -/
def State.reg (s : State) (off : Nat) : W64 := smGet (regReset off) s.regs off

/-- The register at an offset takes a value. -/
def State.setReg (s : State) (off : Nat) (v : W64) : State := { s with regs := smPut (regReset off) s.regs off v }

/-- A field of a register. -/
def State.fld (s : State) (f : Fld) : Nat := getBits (s.reg f.off) f.lo f.w

/-- A one-bit field as a truth value. -/
def State.bit (s : State) (f : Fld) : Bool := s.fld f == 1

/-- A field takes a value. -/
def State.setFld (s : State) (f : Fld) (v : Nat) : State := s.setReg f.off (setBits (s.reg f.off) f.lo f.w v)

/-- An event bit or flag is set. -/
def State.setBit (s : State) (f : Fld) : State := s.setFld f 1

/-- A flag is cleared. -/
def State.clrBit (s : State) (f : Fld) : State := s.setFld f 0

/-- A count rises by `n` and stops at the largest value of its field. -/
def State.bump (s : State) (f : Fld) (n : Nat) : State := s.setFld f (min (s.fld f + n) (2 ^ f.w - 1))

/-- The staged copy of a basted register, named by its live offset (R7). -/
def State.staged (s : State) (off : Nat) : W64 :=
  match s.onf.session with
  | some ss =>
    match ss.regs.find? fun e => e.1 == off with
    | some e => e.2
    | none => s.reg off
  | none => s.reg off

/-- A field of a staged copy. -/
def State.stagedFld (s : State) (f : Fld) : Nat := getBits (s.staged f.off) f.lo f.w

/-- A register under either view: staged, or live. -/
def State.view (s : State) (stg : Bool) (f : Fld) : Nat := if stg then s.stagedFld f else s.fld f

/-! ### Phase, time, epoch -/

/-- The core-side logic is out of reset (R24). -/
def State.up (s : State) : Bool :=
  match s.sys.phase with
  | .starting | .running | .halted _ => true
  | _ => false

/-- What happens while the core-side logic is in reset has no effect. -/
def State.whenUp (s : State) (f : State → State) : State := if s.up then f s else s

/-- Device time in ns: T00 (R218, R398). -/
def State.now (s : State) : Nat := s.tmu.t00 / 2 ^ 32

/-- The configuration epoch (R67). -/
def State.epoch (s : State) : Nat := s.fld R.ONF_EPOCH.CFG_EPOCH

/-- A minute of device time in ns. -/
def minuteNs : Nat := 60000000000

/-- The minute in which device time stands (R218). -/
def State.minute (s : State) : Nat := s.now / minuteNs

/-! ### Twin role -/

/-- TWIN_ROLE: 0 solo, 1 lead, 2 mirror, 3 fenced. -/
def State.role (s : State) : Nat := s.fld R.GALV_STATUS.ROLE

/-- SYNC. -/
def State.sync (s : State) : Bool := s.bit R.GALV_STATUS.SYNC

/-- In a pair whose mirroring runs. -/
def State.mirrored (s : State) : Bool := (s.role == 1 || s.role == 2) && s.sync

/-! ### Functions and ports -/

/-- Whether a host port is enabled at a width that the hardware has (Table 03-1), in the live or the staged state. -/
def State.portOn (s : State) (stg : Bool) (n : Nat) : Bool :=
  decide (n < 32) && s.view stg (R.HPORT_CFG.ENABLE n) == 1 &&
    (let w := s.view stg (R.HPORT_CFG.WIDTH n); decide (1 ≤ w) && decide (w ≤ 4))

/-- Lanes of a host port. -/
def portLanes (w : Nat) : Nat := if w = 1 then 2 else if w = 2 then 4 else if w = 3 then 8 else if w = 4 then 16 else 0

/-- Whether a port's position and width obey R15: it begins at a lane that is a multiple of its width, and its first lane does
not fall inside a wider port. -/
def State.portPlaced (s : State) (stg : Bool) (n : Nat) : Bool :=
  let w := portLanes (s.view stg (R.HPORT_CFG.WIDTH n))
  let lane := 2 * (n % 8)
  decide (w ≠ 0) && decide (lane % w = 0) && decide (lane + w ≤ 16) &&
    (List.range (n % 8)).all fun k =>
      let m := n / 8 * 8 + k
      !s.portOn stg m || decide (2 * k + portLanes (s.view stg (R.HPORT_CFG.WIDTH m)) ≤ lane)

/-- The link of a host port. -/
def State.link (s : State) (n : Nat) : PortSt := smGet PortSt.down s.links n

/-- The link of a host port takes a value. -/
def State.setLink (s : State) (n : Nat) (l : PortSt) : State := { s with links := smPut PortSt.down s.links n l }

/-- A host port drops its link. -/
def State.linkDrop (s : State) (n : Nat) : State := s.setLink n { s.link n with trained := false }

/-- TOTAL_VFS, values above 1,024 read as 1,024 (Table 03-1). -/
def State.totalVfs (s : State) (stg : Bool) (n : Nat) : Nat := min 1024 (s.view stg (R.HPORT_CFG.TOTAL_VFS n))

/-- A function number names a PF. -/
def isPf (f : Nat) : Bool := decide (0x1000 ≤ f) && decide (f < 0x1020)

/-- A function number names a VF context. -/
def isVf (f : Nat) : Bool := decide (f < 0x1000)

/-- The function exists: a PF while its port is enabled, a VF with ENABLE 1 (Table 03-8). -/
def State.fnExists (s : State) (stg : Bool) (f : Nat) : Bool :=
  if isPf f then s.portOn stg (f - 0x1000) else isVf f && s.view stg (R.QFAB_FNCFG.ENABLE f) == 1

/-- The function number names a VF context or an existing port (R82). -/
def State.fnNamed (s : State) (stg : Bool) (f : Nat) : Bool := isVf f || s.fnExists stg f

/-- The host port of a function. -/
def State.fnPort (s : State) (f : Nat) : Nat := if isPf f then f - 0x1000 else s.fld (R.QFAB_FNCFG.PORT f)

/-- The PF of a function's port. -/
def State.pfOf (s : State) (f : Nat) : Nat := 0x1000 + s.fnPort f

/-- What a function holds. -/
def State.fn (s : State) (f : Nat) : FnCtx := smGet FnCtx.reset s.fns f

/-- The key in `fns` of the shadow of a function of the peer (R278). -/
def peerFn (f : Nat) : Nat := 65536 + f

/-- A Galvel flit is sent: it stays in the retry buffer of 512 flits until it is acknowledged, and carries the NAK of a discarded one (R259). -/
def State.sendFlit (s : State) (p : FlitPayload) : State :=
  let g := s.galv
  let l := g.unacked ++ [(g.txSeq, 1, p)]
  { s with
    galv := { g with txSeq := (g.txSeq + 1) % 4096, unacked := l.drop (l.length - 512), nak := false }
    out := .flit { crcOk := true, seq := g.txSeq, ack := (g.rxNext + 4095) % 4096, nak := g.nak, payload := p } :: s.out }

/-- Several flits, in order. -/
def State.sendFlits (s : State) : List FlitPayload → State
  | [] => s
  | p :: ps => State.sendFlits (s.sendFlit p) ps

/-- The words of a function's context that go to the peer (Table 09-7), in order: switches, virtio status and features, NVMe CC, CSTS, AQA, ASQ,
ACQ, Doorbell Buffer Config, NumVFs. -/
def FnCtx.words (c : FnCtx) : List W64 :=
  [BitVec.ofNat 64 (b2n c.msixEn + 2 * b2n c.atsEn + 4 * b2n c.priEn + 8 * b2n c.evtEn + 16 * b2n c.virtio.needsReset + 32 * b2n c.nvme.dbOn),
   BitVec.ofNat 64 c.virtio.status, c.virtio.feats, BitVec.ofNat 64 (c.nvme.cc.toNat + 2 ^ 32 * b2n c.nvme.en),
   BitVec.ofNat 64 (b2n c.nvme.rdy + 2 * b2n c.nvme.cfs), BitVec.ofNat 64 c.nvme.aqa.toNat, c.nvme.asq, c.nvme.acq, c.nvme.dbShadow, c.nvme.dbEvent,
   BitVec.ofNat 64 c.numVfs, BitVec.ofNat 64 c.virtio.latched, BitVec.ofNat 64 c.nvme.latched]

/-- Words that differ, by number. -/
def wordDiff (k : Nat) : List W64 → List W64 → List (Nat × W64)
  | a :: x, b :: y => (if a == b then [] else [(k, b)]) ++ wordDiff (k + 1) x y
  | _, _ => []

/-- Keys of two maps, each once. -/
def keysOf {α : Type} (a b : SMap α) : List Nat := a.map (·.1) ++ (b.map (·.1)).filter fun k => !a.any fun e => e.1 == k

/-- What the peer is told of a change of a function's context: its words, the vectors of its virtqueues as word 256 + u, its MSI-X entries. -/
def fnFlits (f : Nat) (old new : FnCtx) : List FlitPayload :=
  (wordDiff 0 old.words new.words).map (fun e => FlitPayload.shadowFn f e.1 e.2) ++
    ((keysOf old.virtio.qvec new.virtio.qvec).filter fun u => smGet 65535 old.virtio.qvec u != smGet 65535 new.virtio.qvec u).map (fun u =>
      FlitPayload.shadowFn f (256 + u) (BitVec.ofNat 64 (smGet 65535 new.virtio.qvec u))) ++
    ((keysOf old.msix new.msix).filter fun v => smGet MsixEnt.reset old.msix v != smGet MsixEnt.reset new.msix v).map fun v =>
      let e := smGet MsixEnt.reset new.msix v
      FlitPayload.shadowMsix f v e.addr e.data e.masked e.pend

/-- A function takes a new context; while the pair mirrors, each change goes to the peer (Table 09-7). -/
def State.setFn (s : State) (f : Nat) (c : FnCtx) : State :=
  let s1 : State := { s with fns := smPut FnCtx.reset s.fns f c }
  if s.mirrored && decide (f < 65536) then s1.sendFlits (fnFlits f (s.fn f) c) else s1

/-- MSIX_COUNT, values above 2,048 act as 2,048 (Table 03-8). -/
def State.msixCount (s : State) (f : Nat) : Nat := min 2048 (s.fld (R.QFAB_FNCFG.MSIX_COUNT f))

/-- A VF loses its index to a lower-numbered VF of the same port and index (R76). -/
def State.fnShadowed (s : State) (f : Nat) : Bool :=
  s.regs.any fun e =>
    decide (R.QFAB_FNCFG.off 0 ≤ e.1) && decide (e.1 < R.QFAB_FNCFG.off f) &&
      getBits e.2 0 1 == 1 && getBits e.2 8 5 == s.fld (R.QFAB_FNCFG.PORT f) &&
      getBits e.2 16 11 == s.fld (R.QFAB_FNCFG.VF_INDEX f)

/-- The host reaches the function (R76): a PF of an enabled port; a VF whose index lies in 1 to NumVFs. -/
def State.fnReachable (s : State) (f : Nat) : Bool :=
  s.fnExists false f &&
    (isPf f ||
      (let i := s.fld (R.QFAB_FNCFG.VF_INDEX f)
       decide (1 ≤ i) && decide (i ≤ min (s.totalVfs false (s.fnPort f)) (s.fn (s.pfOf f)).numVfs) && s.portOn false (s.fnPort f) && !s.fnShadowed f))

/-- Personality: 0 native, 1 virtio-net, 2 virtio-blk, 3 NVMe; other values act as native, and a PF is native (Table 03-8). -/
def persOf (cfg : W64) (f : Nat) : Nat :=
  let p := getBits cfg 1 3
  if isPf f then 0 else if p ≤ 3 then p else 0

/-- The live personality of a function. -/
def State.pers (s : State) (f : Nat) : Nat := persOf (s.reg (R.QFAB_FNCFG.off f)) f

/-! ### Queue pairs -/

/-- A queue pair of the pool is numbered below 65,536; then come the local channels; an adopted ring of QP q is 131,072 + q (R283). -/
def isLc (q : Nat) : Bool := decide (65536 ≤ q) && decide (q < 131072)

/-- The number of the local channel. -/
def lcNum (q : Nat) : Nat := q - 65536

/-- A ring adopted from the peer. -/
def isAdopted (q : Nat) : Bool := decide (131072 ≤ q)

/-- The QP number of a ring of the pool or of an adopted ring. -/
def qpNum (q : Nat) : Nat := q % 65536

/-- A queue pair. -/
def State.qp (s : State) (q : Nat) : QpCtx := smGet (qpDefault q) s.qps q

/-- The mirrored words of a ring (Table 09-7): its window registers, then its state with HELD and ENABLE. -/
def QpCtx.words (c : QpCtx) : List W64 :=
  [c.sqBase, c.cqBase, c.shadow, c.cfg, c.pasid,
   BitVec.ofNat 64 ((match c.st with | .free => 0 | .quiesced => 1 | .active => 2 | .parked => 3 | .error => 4) + 16 * b2n c.held + 32 * b2n c.enable)]

/-- A queue pair takes a new context; while the pair mirrors, each change of a function's ring goes to the peer (Table 09-7). -/
def State.setQp (s : State) (q : Nat) (c : QpCtx) : State :=
  let s1 : State := { s with qps := smPut (qpDefault q) s.qps q c }
  if s.mirrored && !isLc q then s1.sendFlits ((wordDiff 0 (s.qp q).words c.words).map fun e => FlitPayload.shadowReg q e.1 e.2) else s1

/-- Owner of a QP in the live or staged state. -/
def State.qpFn (s : State) (q : Nat) : Nat := s.fld (R.QFAB_QOWN.FUNCTION (qpNum q))

/-- The class by which a ring is scheduled. -/
def State.qpClass (s : State) (q : Nat) : Nat :=
  if isLc q then getBits (s.qp q).cfg 42 3 else s.fld (R.QFAB_QOWN.CLASS (qpNum q))

/-- The live QP of a function's local index, if it holds one (R80). -/
def State.qpAt (s : State) (f loc : Nat) : Option Nat :=
  match s.regs.find? fun e =>
      decide (R.QFAB_QOWN.off 0 ≤ e.1) && decide (e.1 < R.QFAB_QOWN.off 65536) &&
        getBits e.2 15 1 == 1 && getBits e.2 0 13 == f && getBits e.2 16 12 == loc with
  | some e => some ((e.1 - R.QFAB_QOWN.off 0) / 8)
  | none => none

/-- The live QPs of a function, with their local indices, in rising QP number. -/
def State.qpsOf (s : State) (f : Nat) : List (Nat × Nat) :=
  (s.regs.filter fun e =>
      decide (R.QFAB_QOWN.off 0 ≤ e.1) && decide (e.1 < R.QFAB_QOWN.off 65536) &&
        getBits e.2 15 1 == 1 && getBits e.2 0 13 == f).map
    fun e => ((e.1 - R.QFAB_QOWN.off 0) / 8, getBits e.2 16 12)

/-- Every ring that serves a function: its own QPs and the adopted ones. -/
def State.ringsOf (s : State) (f : Nat) : List Nat :=
  (s.qpsOf f).map (·.1) ++ ((s.qpsOf f).map fun e => 131072 + e.1).filter fun q => (s.qp q).st != .free

/-- Ring depth of a submission or completion ring: 2^(field + 1). -/
def QpCtx.sqDepth (c : QpCtx) : Nat := 2 ^ (getBits c.cfg 0 4 + 1)
def QpCtx.cqDepth (c : QpCtx) : Nat := 2 ^ (getBits c.cfg 4 4 + 1)

/-- Requests of a queue pair that are not settled. -/
def QpCtx.open_ (c : QpCtx) : List Req := c.reqs.filter fun r => r.st != .done

/-! ### Hold (R422) -/

/-- A panel is in Hold: PWR_HOLD, a class 4 containment, or a fenced device. -/
def State.panelHeld (s : State) (p : Nat) : Bool := s.pow.enterHold.testBit p || s.safe.panelHeld.contains p || s.role == 3

/-- What a panel in Hold would do does not happen. -/
def State.whenPanel (s : State) (p : Nat) (f : State → State) : State := if s.up && !s.panelHeld p then f s else s

/-- The panel whose queue tile homes a ring (R80, R151). -/
def ringHome (q : Nat) : Nat := if isLc q then lcNum q / 64 else qpNum q / 16384

/-- The panel that holds a function's context: a VF's queue tile, a PF's link tile (R12). -/
def fnHome (f : Nat) : Nat := if isPf f then (f - 0x1000) / 8 else f / 1024

/-- What a ring or a function does while its panel is not in Hold. -/
def State.whenRing (s : State) (q : Nat) (f : State → State) : State := s.whenPanel (ringHome q) f
def State.whenFn (s : State) (fn : Nat) (f : State → State) : State := s.whenPanel (fnHome fn) f

/-! ### Worlds (R298) -/

/-- A hart. -/
def State.hart (s : State) (h : Nat) : Hart := smGet Hart.reset s.harts h

/-- A hart takes a new state. -/
def State.setHart (s : State) (h : Nat) (x : Hart) : State := { s with harts := smPut Hart.reset s.harts h x }

/-- The world of each requester (Table 10-1). -/
def State.world (s : State) : Agent → World
  | .hart h => if (s.hart h).world then .lining else .shell
  | .bobbin e => if 6 ≤ e % 8 then .lining else .shell
  | .localChannel n => if (s.qp (65536 + n)).world then .lining else .shell
  | .host _ => .shell
  | .shuttle _ => .shell
  | .selvedge _ => .selvedge
  | .queueTile _ => .shell
  | .tape => .lining
  | .debug l => if l then .lining else .shell

/-- SEAM_LOG0.CLASS of a requester (Table 10-13). -/
def agentClass : Agent → Nat
  | .hart _ => 0
  | .bobbin e => if e % 8 = 6 then 2 else if e % 8 = 7 then 3 else 1
  | .localChannel _ => 5
  | .host _ => 4
  | .shuttle _ => 4
  | .selvedge _ => 6
  | .queueTile _ => 7
  | .tape => 8
  | .debug _ => 9

/-- SEAM_LOG0.REQ of a requester (Table 10-13). -/
def agentReq : Agent → Nat
  | .hart h => h
  | .bobbin e => e
  | .localChannel n => n
  | .host f => f
  | .shuttle f => f
  | .selvedge p => p
  | .queueTile p => p
  | .tape => 0
  | .debug _ => 0

/-- What an access does: 0 read, 1 write, 2 fetch (SEAM_LOG0.ACC). -/
inductive AccKind where
  | read | write | fetch
  deriving DecidableEq, Repr

/-- SEAM_LOG0.ACC. -/
def AccKind.code : AccKind → Nat
  | .read => 0
  | .write => 1
  | .fetch => 2

/-- Log a refused access (R307): count it, and capture it when the log is free, else set OVF. `region` is the region matched, or 0x7F. -/
def State.logViol (s : State) (a : Agent) (k : AccKind) (checker region addr : Nat) : State :=
  let s1 := (s.bump R.SEAM_STATUS.COUNT 1).setBit R.SEAM_STATUS.VIOL_EVT
  if s.bit R.SEAM_LOG0.VALID then s1.setBit R.SEAM_STATUS.OVF
  else
    let w := if s.world a = .lining then 1 else 0
    let v := 1 + k.code * 2 + w * 8 + agentClass a * 16 + checker * 256 + agentReq a * 65536 + region * 2 ^ 32
    ((s1.setReg R.SEAM_LOG0.off (BitVec.ofNat 64 v)).setReg R.SEAM_LOG1.off (BitVec.ofNat 64 addr)).setReg
      R.SEAM_LOG2.off (BitVec.ofNat 64 s.now)

/-! ### Seam checkers (R303, R304) -/

/-- Region `r` of table `t`, live: enabled with an admitted owner, and containing the granule. -/
def State.rgnHits (s : State) (stg : Bool) (t r g : Nat) : Bool :=
  s.view stg (R.SEAM_RGNA.ENABLE t r) == 1 &&
    decide (s.view stg (R.SEAM_RGNA.BASE t r) ≤ g) && decide (g ≤ s.view stg (R.SEAM_RGNB.LIMIT t r))

/-- The owner of a region: 0 Shell, 1 Lining, 2 Selvedge; 0b11 acts as Lining. -/
def State.rgnOwner (s : State) (stg : Bool) (t r : Nat) : Nat :=
  let o := s.view stg (R.SEAM_RGNA.OWNER t r)
  if o = 3 then 1 else o

/-- The owners a table admits (Table 10-2). -/
def ownerOk (t o : Nat) : Bool := if t = 0 then true else if t = 2 then o == 0 || o == 1 else o == 1

/-- The regions a table holds. -/
def rgnCount (t : Nat) : Nat := if t = 0 then 64 else 16

/-- The enabled regions of a table that contain a granule. -/
def State.rgnMatches (s : State) (stg : Bool) (t g : Nat) : List Nat :=
  (List.range (rgnCount t)).filter fun r => s.rgnHits stg t r g && ownerOk t (s.rgnOwner stg t r)

/-- Whether a region grants an access to a world (R304). In tables 1 and 3 the Shell permission bits read 0. -/
def State.rgnGrants (s : State) (t r : Nat) (w : World) (k : AccKind) : Bool :=
  match w with
  | .selvedge => s.rgnOwner false t r == 2 && k != .fetch
  | .lining =>
    match k with
    | .read => s.bit (R.SEAM_RGNA.LR t r)
    | .write => s.bit (R.SEAM_RGNA.LW t r)
    | .fetch => s.bit (R.SEAM_RGNA.LX t r)
  | .shell =>
    s.rgnOwner false t r != 2 && t != 1 && t != 3 &&
      match k with
      | .read => s.bit (R.SEAM_RGNA.SR t r)
      | .write => s.bit (R.SEAM_RGNA.SW t r)
      | .fetch => s.bit (R.SEAM_RGNA.SX t r)

/-- Whether a Seam checker admits an access to a granule of table `t` (R304). -/
def State.seamAdmits (s : State) (t g : Nat) (w : World) (k : AccKind) : Bool :=
  let m := s.rgnMatches false t g
  if m.isEmpty then (match w with | .lining => true | _ => false)
  else m.any fun r => s.rgnGrants t r w k

/-- The kinds of physical address (Table 01-5). -/
inductive PhysKind where
  | dram | liningSram | bobSram | pktWin
  | ctl (off : Nat)
  | outbound (port : Nat)
  | none
  deriving DecidableEq, Repr

/-- What stands at a physical address; DRAM above the installed capacity is not backed (R29). -/
def State.physKind (s : State) (a : Nat) : PhysKind :=
  if a < 0x20000000000 then (if a < s.dmc.cap then .dram else .none)
  else if a < 0x20000400000 then .liningSram
  else if a < 0x20010000000 then .none
  else if a < 0x20010200000 then .bobSram
  else if a < 0x20020000000 then .none
  else if a < 0x20024000000 then .pktWin
  else if a < 0x30000000000 then .none
  else if a < 0x30010000000 then .ctl (a - 0x30000000000)
  else if a < 0x40000000000 then .none
  else if a < 0x80000000000 then .outbound ((a - 0x40000000000) / 0x2000000000)
  else .none

/-- The region table of a memory, if a checker guards it. -/
def PhysKind.table : PhysKind → Option Nat
  | .dram => some 0
  | .liningSram => some 1
  | .bobSram => some 2
  | .pktWin => some 3
  | _ => Option.none

/-- The outcome of a memory access of the device: served, refused by a Seam checker, reaching poisoned data, or not backed. -/
inductive MemRes where
  | ok | refused (checker region : Nat) | poison | unbacked
  deriving DecidableEq, Repr

/-- Whether an address range touches poisoned data (R251). -/
def State.poisoned (s : State) (a n : Nat) : Bool :=
  s.safe.poison.any fun p => decide (a < p.1 + p.2) && decide (p.1 < a + n)

/-- A granule of DRAM lies in the firmware window, which admits instruction fetches and LDP of Pattern engines, and reads and writes of the
Lining (R377). -/
def State.fwAdmits (s : State) (who : Agent) (t g : Nat) (k : AccKind) : Bool :=
  t == 0 && s.spool.fwTop != 0 && decide (s.spool.fwTop ≤ g * 4096 + 0x4000000) && decide (g * 4096 < s.spool.fwTop) &&
    match k with
    | .fetch => (match who with | .bobbin e => decide (e % 8 < 6) | _ => false)
    | _ => s.world who == .lining

/-- The lowest granule of a range that a requester is refused, if any. -/
def State.seamRefusal (s : State) (who : Agent) (a n t : Nat) (k : AccKind) : Option Nat :=
  ((List.range ((a + n - 1) / 4096 - a / 4096 + 1)).map (a / 4096 + ·)).find? fun g =>
    !s.fwAdmits who t g k && !s.seamAdmits t g (s.world who) k

/-- Judge an access to memory (not to control space): range `a` to `a + n - 1`. -/
def State.memCheck (s : State) (who : Agent) (a n : Nat) (k : AccKind) : MemRes :=
  if n = 0 then .ok else
  if s.physKind a ≠ s.physKind (a + n - 1) then .unbacked else
  match (s.physKind a).table with
  | some t =>
    match s.seamRefusal who a n t k with
    | some g => .refused t (match s.rgnMatches false t g with | r :: _ => r | [] => 0x7F)
    | none => if k ≠ .write && s.poisoned a n then .poison else .ok
  | none => .unbacked

/-- One byte of device memory. A line stored under another ENC setting reads changed data (R442): free bytes. The packet-buffer debug window reads
packet data, whose layout the spec does not give: free bytes. -/
def State.devByte (s : State) (a : Nat) : Byte :=
  if 0x20020000000 ≤ a ∧ a < 0x20024000000 then Config.freeByte s.freeCtr a
  else match s.dmc.scram.find? fun r => decide (r.1 ≤ a) && decide (a < r.1 + r.2.1) with
  | some r => Config.freeByte r.2.2 a
  | none => Memory.read s.mem a

/-- Bytes of device memory. -/
def State.devRead (s : State) (a n : Nat) : List Byte := (List.range n).map fun i => s.devByte (a + i)

/-- Ranges with `a` to `a + n - 1` taken out. -/
def rangesLess (a n : Nat) : List (Nat × Nat × Nat) → List (Nat × Nat × Nat)
  | [] => []
  | (b, m, d) :: rs =>
    let lo := if b < a then [(b, min m (a - b), d)] else []
    let hi := if a + n < b + m then [(max b (a + n), b + m - max b (a + n), d)] else []
    (if a + n ≤ b || b + m ≤ a then [(b, m, d)] else lo ++ hi) ++ rangesLess a n rs

/-- Write device memory. -/
def State.devWrite (s : State) (a : Nat) (b : List Byte) : State :=
  { s with mem := Memory.writeN s.mem a b, dmc := { s.dmc with scram := rangesLess a b.length s.dmc.scram } }

/-- A write to a line that was poisoned replaces the poison where it covers it. -/
def State.unpoison (s : State) (a n : Nat) : State :=
  { s with safe := { s.safe with poison := s.safe.poison.filter fun p => !(decide (a ≤ p.1) && decide (p.1 + p.2 ≤ a + n)) } }

/-! ### Host memory -/

/-- Key of a byte of a port's host memory. -/
def hostKey (port a : Nat) : Nat := port * 2 ^ 64 + a % 2 ^ 64

/-- Bytes of a host's memory at a host physical address. -/
def State.hostRead (s : State) (port a n : Nat) : List Byte := Memory.readN s.hostMem (hostKey port a) n

/-- Write a host's memory. -/
def State.hostWrite (s : State) (port a : Nat) (b : List Byte) : State :=
  { s with hostMem := Memory.writeN s.hostMem (hostKey port a) b }

/-! ### MSI and MSI-X -/

/-- A signal to a function's vector by the context under `key`: held in the PBA while masked, dropped while MSI-X Enable is 0 or the vector does
not exist (R101) or the host does not reach the function. -/
def State.msixOf (s : State) (key f vec : Nat) : State :=
  if vec < s.msixCount f && s.fnReachable f && (s.fn key).msixEn then
    let c := s.fn key
    let e := smGet MsixEnt.reset c.msix vec
    if e.masked then s.setFn key { c with msix := smPut MsixEnt.reset c.msix vec { e with pend := true } }
    else s.emit (.msix f vec e.addr e.data)
  else s

/-- A signal to a function's vector (R103). -/
def State.msix (s : State) (f vec : Nat) : State := s.msixOf f f vec

/-- The function context that a ring works under: its function's, or for an adopted ring the shadow of the failed twin's (R284). -/
def State.ringKey (s : State) (q : Nat) : Nat := if isAdopted q then peerFn (s.qpFn q) else s.qpFn q

/-- A ring signals a vector of its function. -/
def State.ringMsix (s : State) (q vec : Nat) : State := s.msixOf (s.ringKey q) (s.qpFn q) vec

/-- An MSI into an interrupt file of a hart: 0 machine, 1 supervisor, 1 + g guest file g. The file holds identities 1–255 (R331). -/
def State.msiFile (s : State) (hart file eiid : Nat) : State :=
  if eiid = 0 ∨ 255 < eiid then s
  else
    let k := 8 * hart + file
    { s with imsic := smPut 0 s.imsic k (smGet 0 s.imsic k ||| 2 ^ eiid), out := .imsic hart file eiid :: s.out }

/-- An MSI into a hart's supervisor interrupt file (R310). -/
def State.msi (s : State) (hart eiid : Nat) : State := s.msiFile hart 1 eiid

/-- The function events of VF_FSTAT signal vector 0 while EVT_EN is 1 (R472). -/
def State.fnEvent (s : State) (f : Nat) : State := if (s.fn f).evtEn then s.msix f 0 else s

/-- STRAY_DB is set (R97). -/
def State.strayDb (s : State) (f : Nat) : State := (s.setFn f { s.fn f with strayDb := true }).fnEvent f

/-- GRANT_EVT is set (Table 03-3). -/
def State.grantEvt (s : State) (f : Nat) : State := (s.setFn f { s.fn f with grantEvt := true }).fnEvent f

/-! ### Interrupt lines (level sources of panel P0's APLIC) -/

/-- TOP: source 1 (R33). -/
def State.irqTop (s : State) : Bool :=
  (s.bit R.TOP_STATUS.THROTTLE_EVT && s.bit R.TOP_INTEN.THROTTLE_EN) || (s.bit R.TOP_STATUS.CLK_EVT && s.bit R.TOP_INTEN.CLK_EN) ||
    (s.bit R.TOP_STATUS.NARROW_WR && s.bit R.TOP_INTEN.NARROW_EN) || (s.bit R.TOP_STATUS.UNMAPPED && s.bit R.TOP_INTEN.UNMAPPED_EN)

/-- SAFE: source 5. -/
def State.irqSafe (s : State) : Bool :=
  s.bit R.SAFE_STATUS.IRQ_EN && (s.bit R.SAFE_STATUS.CE_EVT || s.bit R.SAFE_STATUS.DF_EVT || s.bit R.SAFE_STATUS.LATENT_EVT ||
    s.bit R.SAFE_STATUS.WDOG_EVT)

/-- TAPE: source 4. -/
def State.irqTape (s : State) : Bool :=
  s.bit R.TAPE_STATUS.IRQ_EN && (s.bit R.TAPE_STATUS.SKIP_EVT || s.bit R.TAPE_STATUS.ORPHAN_EVT || s.bit R.TAPE_STATUS.PEER_LATE_EVT ||
    s.bit R.TAPE_STATUS.SKEW_EVT || s.bit R.TAPE_STATUS.BAD_HEAD || s.bit R.TAPE_STATUS.REC_EVT)

/-- GALV: source 6. -/
def State.irqGalv (s : State) : Bool :=
  s.bit R.GALV_STATUS.IRQ_EN && (s.bit R.GALV_STATUS.TAKEOVER_EVT || s.bit R.GALV_STATUS.LINK_EVT || s.bit R.GALV_STATUS.SB_EVT ||
    s.bit R.GALV_STATUS.UNSYNC_EVT || s.bit R.GALV_STATUS.GOODBYE_EVT)

/-- SEAM: source 7. -/
def State.irqSeam (s : State) : Bool :=
  s.bit R.SEAM_STATUS.IRQ_EN && (s.bit R.SEAM_STATUS.VIOL_EVT || s.bit R.SEAM_STATUS.OVF)

/-! ### Onafaet events (R52) -/

/-- TOP_STATUS as it reads: TWIN_ROLE shows GALV_STATUS.ROLE. -/
def State.topStatus (s : State) : W64 := setBits (s.reg R.TOP_STATUS.off) 16 2 s.role

/-- Register value of an event class (Table 02-19). -/
def State.evtValue (s : State) (cls : Nat) : W64 :=
  if cls = 0 then s.topStatus
  else if cls = 1 then s.reg R.SAFE_REC0.off
  else if cls = 2 then s.reg R.GALV_STATUS.off
  else if cls = 3 then s.reg R.TAPE_STATUS.off
  else if cls = 4 then s.reg R.PWR_STATUS.off
  else if cls = 5 then s.reg R.MOULT_STATUS.off
  else if cls = 6 then s.reg R.SEAM_LOG0.off
  else if cls = 7 then s.reg R.ONF_BASTE_STAT.off
  else if cls = 8 then s.topStatus
  else s.reg R.SEAM_DEBUG.off

/-- Key of a waiting EVT packet. -/
def evtKey (ch cls : Nat) : Nat := ch * 64 + cls

/-- A packet that waits for nothing (what an unlisted key holds). -/
def EvtPkt.none : EvtPkt := { epoch := 0, time := 0, value := 0, status := 0 }

/-- An event of a class on one channel: at most one unsent packet per class and channel, a later event replaces TIME, EPOCH and VALUE
of the packet and not its STATUS. -/
def State.evtOn (s : State) (ch cls : Nat) (value : W64) (status : Nat) : State :=
  let st := match s.onf.evts.find? fun e => e.1 == evtKey ch cls with
    | some e => e.2.status
    | none => status
  { s with onf := { s.onf with
      evts := smIns s.onf.evts (evtKey ch cls) { epoch := s.epoch, time := s.now, value := value, status := st } } }

/-- An event of a class on each channel of a list. -/
def State.evtOnAll (s : State) (cls : Nat) (value : W64) (status : Nat) : List Nat → State
  | [] => s
  | ch :: cs => State.evtOnAll (s.evtOn ch cls value status) cls value status cs

/-- The channels that have subscribed to a class (R51). -/
def State.subscribers (s : State) (cls : Nat) : List Nat :=
  (s.onf.subs.filter fun e => e.2.testBit cls).map (·.1)

/-- An event of a class goes to every subscriber. -/
def State.event (s : State) (cls : Nat) : State := s.evtOnAll cls (s.evtValue cls) 0 (s.subscribers cls)

/-- Set a TOP_STATUS event bit and raise event class 0. -/
def State.topEvt (s : State) (f : Fld) : State := (s.setBit f).event 0

/-- Set a SAFE_STATUS event bit and raise event class 1. -/
def State.safeEvt (s : State) (f : Fld) : State := (s.setBit f).event 1

/-- Set a GALV_STATUS event bit and raise event class 2. -/
def State.galvEvt (s : State) (f : Fld) : State := (s.setBit f).event 2

/-- Set a TAPE_STATUS event bit and raise event class 3. -/
def State.tapeEvt (s : State) (f : Fld) : State := (s.setBit f).event 3

/-- A refused access is logged and raises event class 6 (R307, Table 02-19). -/
def State.violation (s : State) (a : Agent) (k : AccKind) (checker region addr : Nat) : State :=
  (s.logViol a k checker region addr).event 6

/-- Log what an access check refused. -/
def State.logMem (s : State) (who : Agent) (k : AccKind) (a : Nat) : MemRes → State
  | .refused c r => s.violation who k c r a
  | _ => s

/-! ### Packet counters (R210) -/

/-- A 64-bit counter that wraps to 0 rises by 1 (R210). -/
def State.wrapCount (s : State) (off : Nat) : State := s.setReg off (s.reg off + 1)

/-- SELV_PCNT[p][i] rises by 1. -/
def State.pcnt (s : State) (p i : Nat) : State := s.wrapCount (R.SELV_PCNT.off p i)

/-- A packet is dropped with a reason. -/
def State.netDrop (s : State) (p r : Nat) : State := (s.wrapCount (R.SELV_DROP.off p r)).emit (.netDrop p r)

/-! ### Tape counting points (R213, R215) -/

/-- The active bank. -/
def State.bank (s : State) : TapeBank := if s.bit R.TAPE_STATUS.BANK then s.tape.bank1 else s.tape.bank0

/-- Bank number `b` takes a value. -/
def State.setBank (s : State) (b : Bool) (x : TapeBank) : State :=
  { s with tape := if b then { s.tape with bank1 := x } else { s.tape with bank0 := x } }

/-- An account counts: account 0 always (R212). -/
def State.acctOn (s : State) (a : Nat) : Bool := a == 0 || s.bit (R.TAPE_ACCT.ENABLE a)

/-- Add to a counter of a bank; it stops at 2^64 - 1 and then its entry carries SATURATED (R215). -/
def TapeBank.add (b : TapeBank) (a ctr n : Nat) : TapeBank :=
  let k := 16 * a + ctr
  let v := smGet 0 b.counts k + n
  let top := 2 ^ 64 - 1
  let b1 := { b with counts := smPut 0 b.counts k (min v top) }
  if top ≤ v && decide (0 < n) then { b1 with flags := smPut 0 b1.flags a (smGet 0 b1.flags a ||| 32) } else b1

/-- Put EFLAGS bits of an account (R224). -/
def TapeBank.flag (b : TapeBank) (a bits : Nat) : TapeBank := { b with flags := smPut 0 b.flags a (smGet 0 b.flags a ||| bits) }

/-- Count an event against an account in the active bank; an account that is not enabled is replaced by the orphan account
(R213). With `tell`, in a pair, the increment also goes to the peer (R231). -/
def State.chargeOn (s : State) (tell : Bool) (a ctr n : Nat) : State :=
  if n = 0 then s else
  let orphan := !s.acctOn a
  let acct := if orphan then s.fld R.TAPE_CFG.ORPHAN_ACCT else a
  let b := s.bit R.TAPE_STATUS.BANK
  let s0 := s.setBank b (s.bank.add acct ctr n)
  let s1 := if tell && s.mirrored then s0.emit (.tapeInc acct ctr s.minute n) else s0
  if orphan then s1.tapeEvt R.TAPE_STATUS.ORPHAN_EVT else s1

/-- A count that travels as an increment of its own. -/
def State.charge (s : State) (a ctr n : Nat) : State := s.chargeOn true a ctr n

/-- Counts of a request, whose COUNTS entries carry them (Table 09-8). -/
def State.chargeOwn (s : State) (a : Nat) : List (Nat × Nat) → State
  | [] => s
  | (c, n) :: r => State.chargeOwn (s.chargeOn false a c n) a r

/-- Several counts of one account. -/
def State.chargeAll (s : State) (a : Nat) : List (Nat × Nat) → State
  | [] => s
  | (c, n) :: r => State.chargeAll (s.charge a c n) a r

end Sys2Proof.Machine
end

