-- ==== Sys2Proof/Machine/Access.lean ====
section
/-!
DEFINITION. Access.lean: who may reach a register of control space (R9, R31) and what a write does by access code (R4, R5, R7).
-/

namespace Sys2Proof.Machine

/-- The local channel whose window an offset lies in (R152). -/
def lcOfOff (off : Nat) : Nat := (off - 0x2100000) / 64 % 256

/-- Local channel n belongs to the Lining: SHUT_LCWORLD (R151). -/
def State.lcLining (s : State) (n : Nat) : Bool := (s.reg (R.SHUT_LCWORLD.off (n / 64))).getLsbD (n % 64)

/-- Timer t belongs to the Lining: TMU_WORLD (R402). -/
def State.tmrLining (s : State) (t : Nat) : Bool := (s.reg R.TMU_WORLD.off).getLsbD t

/-- A world tag admits a requester (Table 00-6). -/
def State.tagAdmits (s : State) (tag : RegTag) (off : Nat) (who : Agent) : Bool :=
  let lining := s.world who == .lining
  let shell := lining || s.world who == .shell
  match tag with
  | .a => true
  | .s => shell
  | .l => lining
  | .byLcWorld => lining || (shell && !s.lcLining (lcOfOff off))
  | .byTmuWorld => lining || (shell && !s.tmrLining ((off - 0x210000) / 64 % 64))

/-- The tag of the register at an offset; none where no block implements the offset (R29). -/
def regTag (off : Nat) : Option RegTag := (regFind off).map fun e => e.1.tag

/-- An access to the register at an offset, if its tag admits the requester; else it is logged as a world violation (R9). -/
def State.regTry (s : State) (who : Agent) (k : AccKind) (off : Nat) (f : State → State) : State :=
  match regTag off with
  | some t => if s.tagAdmits t off who then f s else s.violation who k 4 0x7F off
  | none => s.topEvt R.TOP_STATUS.UNMAPPED

/-- A field's value after a write of `v` by its access code. RO fields, WO fields and a basted register's live copy keep theirs; W1S sets bits. -/
def accWrite (a : Acc) (old v w : Nat) : Nat :=
  match a with
  | .rw | .rws | .rwb => v % 2 ^ w
  | .w1c => old &&& (2 ^ w - 1 - v % 2 ^ w)
  | .w1s => old ||| (v % 2 ^ w)
  | .ro | .wo => old

/-- A register word after a write, field by field; reserved bits stay 0 (R4). -/
def writeFlds : List FldDef → W64 → W64 → W64
  | [], old, _ => old
  | f :: fs, old, v => writeFlds fs (setBits old f.lo f.w (accWrite f.acc (getBits old f.lo f.w) (getBits v f.lo f.w) f.w)) v

end Sys2Proof.Machine
end

