-- ==== Sys2Proof/Machine/Operands.lean ====
section
/-!
DEFINITION. Operands.lean: the fields of the forms that commands and rings carry: the native submission entry (Table 03-11), its
FLAGS (Table 03-12), SGL segments (Table 03-14), doorbells (Table 03-16), work items and responses of the back end (Table 04-5).
-/

namespace Sys2Proof.Machine

/-! ### Native submission entry -/

/-- OPC. -/
def sqeOpc (e : List Byte) : Nat := leAt e 0 1
/-- FLAGS. -/
def sqeFlags (e : List Byte) : Nat := leAt e 1 1
/-- FENCE. -/
def sqeFence (e : List Byte) : Bool := (sqeFlags e).testBit 0
/-- IRQ. -/
def sqeIrq (e : List Byte) : Bool := (sqeFlags e).testBit 1
/-- CHAIN. -/
def sqeChain (e : List Byte) : Bool := (sqeFlags e).testBit 2
/-- INLINE. -/
def sqeInline (e : List Byte) : Bool := (sqeFlags e).testBit 3
/-- TS. -/
def sqeTs (e : List Byte) : Bool := (sqeFlags e).testBit 4
/-- CID. -/
def sqeCid (e : List Byte) : Nat := leAt e 2 2
/-- The LEN field as it stands. -/
def sqeLenField (e : List Byte) : Nat := leAt e 4 3
/-- LEN: 0 means 16 MiB. -/
def sqeLen (e : List Byte) : Nat := if sqeLenField e = 0 then 16777216 else sqeLenField e
/-- XFORM. -/
def sqeXform (e : List Byte) : Nat := leAt e 7 1
/-- ADDR0. -/
def sqeAddr0 (e : List Byte) : Nat := leAt e 8 8
/-- ADDR1. -/
def sqeAddr1 (e : List Byte) : Nat := leAt e 16 8
/-- BUFMODE. -/
def sqeBufmode (e : List Byte) : Nat := leAt e 32 1
/-- FILL's pattern, and RADDR of a CRC-64 MOVE, and LBA of a block request. -/
def sqeWord40 (e : List Byte) : Nat := leAt e 40 8
/-- The volume field of a block request. -/
def sqeVolume (e : List Byte) : Nat := leAt e 48 4
/-- KEYSLOT. -/
def sqeKeyslot (e : List Byte) : Nat := leAt e 52 2
/-- XPARAM. -/
def sqeXparam (e : List Byte) : Nat := leAt e 56 8

/-- The bytes of a range of an entry are all 0. -/
def sqeZero (e : List Byte) (i n : Nat) : Bool := leAt e i n == 0

/-- Whether an opcode accepts an XFORM (Table 05-10). -/
def xformOk (opc x : Nat) : Bool :=
  if x = 0 then true
  else if x = 0x10 ∨ x = 0x11 ∨ x = 0x12 then opc == 1 || opc == 0x20 || opc == 0x21
  else if x = 0x20 ∨ x = 0x21 then opc == 1
  else if x = 0x22 then opc == 1 || opc == 0x20 || opc == 0x21
  else if x = 0x30 ∨ x = 0x32 then opc == 1 || opc == 0x21
  else if x = 0x31 ∨ x = 0x33 then opc == 1 || opc == 0x20
  else false

/-- An AES-XTS transform. -/
def xformXts (x : Nat) : Bool := x == 0x30 || x == 0x31 || x == 0x32 || x == 0x33
/-- Its data unit in bytes. -/
def xtsUnit (x : Nat) : Nat := if x = 0x30 ∨ x = 0x31 then 512 else 4096
/-- A CRC transform. -/
def xformCrc (x : Nat) : Bool := x == 0x10 || x == 0x11 || x == 0x12 || x == 0x20 || x == 0x21 || x == 0x22

/-- Whether the bytes that an opcode and transform leave reserved are 0 (R90, R159, R164): bytes 33–39 always; then 40–63 but for
the fields that the opcode or the transform defines. -/
def sqeReservedOk (e : List Byte) : Bool :=
  let opc := sqeOpc e
  let x := sqeXform e
  let w40 := opc == 2 || opc == 0x20 || opc == 0x21 || opc == 0x23 || opc == 0x30 || (opc == 1 && (x == 0x20 || x == 0x21))
  let w48 := opc == 0x20 || opc == 0x21 || opc == 0x22 || opc == 0x23 || opc == 0x30
  let w52 := xformXts x || opc == 0x30
  let w56 := (decide (0x10 ≤ x) && decide (x ≤ 0x33)) || opc == 0x30
  sqeZero e 33 7 && (w40 || sqeZero e 40 8) && (w48 || sqeZero e 48 4) && (w52 || sqeZero e 52 2) &&
    (opc == 0x30 || sqeZero e 54 2) && (w56 || sqeZero e 56 8)

/-- The opcodes of Table 03-13. -/
def opcKnown (o : Nat) : Bool :=
  o == 0 || o == 1 || o == 2 || o == 3 || o == 0x10 || o == 0x11 || o == 0x20 || o == 0x21 || o == 0x22 || o == 0x23 || o == 0x30

/-- DIRTY_SYNC's fields (Table 05-12). -/
def dsVf (e : List Byte) : Nat := leAt e 40 2
def dsAction (e : List Byte) : Nat := leAt e 42 1
def dsFlags (e : List Byte) : Nat := leAt e 43 1
def dsLimit (e : List Byte) : Nat := leAt e 44 4
def dsBase0 (e : List Byte) : Nat := leAt e 48 8
def dsBase1 (e : List Byte) : Nat := leAt e 56 8

/-- What R90 refuses in an entry: the status, if any. A local channel runs MOVE, FILL and COMPARE alone (R151), a Shell channel no
XFORM of 0x30 or above (R158); DIRTY_SYNC runs on a PF's ring alone (`vf`). -/
def sqeRefusal (lc lining vf : Bool) (e : List Byte) : Option Nat :=
  let opc := sqeOpc e
  if opc == 0x30 && vf && !lc then some E.PRIVILEGE
  else if opc == 0x30 && !lc && (decide (2 < dsAction e) || decide (1 < dsFlags e)) then some E.PARAM
  else if !opcKnown opc || (lc && !(opc == 1 || opc == 2 || opc == 3)) then some E.BAD_OPCODE
  else if !xformOk opc (sqeXform e) || (lc && !lining && decide (0x30 ≤ sqeXform e)) then some E.PARAM
  else if decide (0x20 ≤ sqeFlags e) || decide (4 ≤ sqeBufmode e) || !sqeReservedOk e then some E.PARAM
  else none

/-! ### SGL segments (Table 03-14) -/

/-- A segment: address, length, type, whether a reserved byte is set. -/
structure SglSeg where
  addr : Nat
  slen : Nat
  ty : Nat
  bad : Bool
  deriving DecidableEq, Repr

/-- Read a segment. -/
def sglSeg (b : List Byte) : SglSeg :=
  { addr := leAt b 0 8, slen := leAt b 8 4, ty := leAt b 12 1, bad := decide (leAt b 13 3 ≠ 0) }

/-- A list of (address, length) segments cut to the byte range `off` to `off + n - 1`. -/
def segsSlice : List (Nat × Nat) → Nat → Nat → List (Nat × Nat)
  | [], _, _ => []
  | (a, l) :: ss, off, n =>
    if n = 0 then []
    else if l ≤ off then segsSlice ss (off - l) n
    else
      let m := min n (l - off)
      (a + off, m) :: segsSlice ss 0 (n - m)

/-- Total length of segments. -/
def segsLen (l : List (Nat × Nat)) : Nat := (l.map (·.2)).sum

/-- Address of byte `off` of segments, and how many bytes its segment still holds. -/
def segAt : List (Nat × Nat) → Nat → Nat × Nat
  | [], _ => (0, 0)
  | (a, l) :: ss, off => if off < l then (a + off, l - off) else segAt ss (off - l)

/-! ### Doorbells (Table 03-16) -/

/-- SQ_TAIL, unless NO_SQ. -/
def dbTail (d : W64) : Option Nat := if getBit d 32 then none else some (getBits d 0 16)
/-- CQ_HEAD, unless NO_CQ. -/
def dbHead (d : W64) : Option Nat := if getBit d 33 then none else some (getBits d 16 16)

/-! ### Work items (Table 04-5) -/

/-- A range of a multi-range item: LBA [47:0] and block count [15:0]. -/
def rangeBytes (r : Nat × Nat) : List Byte := leBytes 6 r.1 ++ leBytes 2 r.2

/-- The bytes of a work item with phase `p`. -/
def workItemBytes (it : BeqItem) (wid : Nat) (p : Bool) : List Byte :=
  leBytes 4 wid ++ leBytes 2 it.f ++ leBytes 2 (qpNum it.q) ++ leBytes 1 it.op ++ leBytes 1 (it.flags + b2n p * 128) ++
    leBytes 2 it.acct ++ leBytes 4 it.vol ++ leBytes 8 it.lba ++ leBytes 4 it.nbytes ++ leBytes 4 it.epoch ++ leBytes 8 it.time ++
    padTo 24 ((it.ranges.take 3).flatMap rangeBytes)

/-- A continuation slot (Table 04-14). -/
def contSlotBytes (wid : Nat) (rs : List (Nat × Nat)) (p : Bool) : List Byte :=
  leBytes 4 wid ++ zeros 4 ++ leBytes 1 0x82 ++ leBytes 1 (b2n p * 128) ++ zeros 6 ++ padTo 48 (rs.flatMap rangeBytes)

/-- The continuation slots of ranges 3 and up, six in each (R124). -/
def contSlots : Nat → List (Nat × Nat) → List (List (Nat × Nat))
  | 0, _ => []
  | n + 1, l => if l.isEmpty then [] else l.take 6 :: contSlots n (l.drop 6)

end Sys2Proof.Machine
end

