-- ==== Sys2Proof/Machine/Crypto.lean ====
section
/-!
DEFINITION. Crypto.lean: the standard functions that rules name: the CRCs of Table 05-11 and R36, SHA-2 and SHA-3,
HMAC-SHA-256, AES with its modes (ECB, CBC, CTR, GCM, XTS, key wrap). Each is written from its standard.
-/

namespace Sys2Proof.Machine

/-! ### CRCs -/

/-- One bit of a reflected CRC with polynomial `poly` (bit-reversed). -/
def crcBitR (poly c : Nat) : Nat := if c % 2 = 1 then (c / 2) ^^^ poly else c / 2

/-- One byte of a reflected CRC. -/
def crcByteR (poly c b : Nat) : Nat :=
  let x := c ^^^ b
  crcBitR poly (crcBitR poly (crcBitR poly (crcBitR poly (crcBitR poly (crcBitR poly (crcBitR poly (crcBitR poly x)))))))

/-- A reflected CRC register run over bytes. -/
def crcRunR (poly : Nat) : Nat → List Byte → Nat
  | c, [] => c
  | c, b :: bs => crcRunR poly (crcByteR poly c b.toNat) bs

/-- CRC-32C's polynomial 0x1EDC_6F41, reflected. -/
def poly32c : Nat := 0x82F63B78
/-- CRC-64's polynomial 0xAD93_D235_94C9_3659, reflected. -/
def poly64 : Nat := 0x9A6C9329AC4BC9B5

/-- CRC-32C of bytes that follow data whose final CRC is `seed` (R160); a seed of 0 is the standard initial value. -/
def crc32cFrom (seed : Nat) (l : List Byte) : Nat := crcRunR poly32c (seed ^^^ 0xFFFFFFFF) l ^^^ 0xFFFFFFFF

/-- CRC-32C (Table 05-11). -/
def crc32c (l : List Byte) : Nat := crc32cFrom 0 l

/-- CRC-64 of bytes that follow data whose final CRC is `seed`. -/
def crc64From (seed : Nat) (l : List Byte) : Nat := crcRunR poly64 (seed ^^^ 0xFFFFFFFFFFFFFFFF) l ^^^ 0xFFFFFFFFFFFFFFFF

/-- One bit of CRC-16/CCITT, most significant bit first. -/
def crc16Bit (c : Nat) : Nat := if 0x8000 ≤ c then ((2 * c) % 65536) ^^^ 0x1021 else 2 * c

/-- One byte of CRC-16/CCITT. -/
def crc16Byte (c b : Nat) : Nat :=
  let x := c ^^^ (b * 256)
  crc16Bit (crc16Bit (crc16Bit (crc16Bit (crc16Bit (crc16Bit (crc16Bit (crc16Bit x)))))))

/-- CRC-16/CCITT from a register value. -/
def crc16Run : Nat → List Byte → Nat
  | c, [] => c
  | c, b :: bs => crc16Run (crc16Byte c b.toNat) bs

/-- CRC-16/CCITT-FALSE (R36). -/
def crc16 (l : List Byte) : Nat := crc16Run 0xFFFF l

/-! ### SHA-2 -/

/-- Round constants of SHA-256. -/
def sha256K : List W32 :=
  [0x428a2f98, 0x71374491, 0xb5c0fbcf, 0xe9b5dba5, 0x3956c25b, 0x59f111f1, 0x923f82a4, 0xab1c5ed5] ++
  [0xd807aa98, 0x12835b01, 0x243185be, 0x550c7dc3, 0x72be5d74, 0x80deb1fe, 0x9bdc06a7, 0xc19bf174] ++
  [0xe49b69c1, 0xefbe4786, 0xfc19dc6, 0x240ca1cc, 0x2de92c6f, 0x4a7484aa, 0x5cb0a9dc, 0x76f988da] ++
  [0x983e5152, 0xa831c66d, 0xb00327c8, 0xbf597fc7, 0xc6e00bf3, 0xd5a79147, 0x6ca6351, 0x14292967] ++
  [0x27b70a85, 0x2e1b2138, 0x4d2c6dfc, 0x53380d13, 0x650a7354, 0x766a0abb, 0x81c2c92e, 0x92722c85] ++
  [0xa2bfe8a1, 0xa81a664b, 0xc24b8b70, 0xc76c51a3, 0xd192e819, 0xd6990624, 0xf40e3585, 0x106aa070] ++
  [0x19a4c116, 0x1e376c08, 0x2748774c, 0x34b0bcb5, 0x391c0cb3, 0x4ed8aa4a, 0x5b9cca4f, 0x682e6ff3] ++
  [0x748f82ee, 0x78a5636f, 0x84c87814, 0x8cc70208, 0x90befffa, 0xa4506ceb, 0xbef9a3f7, 0xc67178f2]

/-- Round constants of SHA-512. -/
def sha512K : List W64 :=
  [0x428a2f98d728ae22, 0x7137449123ef65cd, 0xb5c0fbcfec4d3b2f, 0xe9b5dba58189dbbc] ++
  [0x3956c25bf348b538, 0x59f111f1b605d019, 0x923f82a4af194f9b, 0xab1c5ed5da6d8118] ++
  [0xd807aa98a3030242, 0x12835b0145706fbe, 0x243185be4ee4b28c, 0x550c7dc3d5ffb4e2] ++
  [0x72be5d74f27b896f, 0x80deb1fe3b1696b1, 0x9bdc06a725c71235, 0xc19bf174cf692694] ++
  [0xe49b69c19ef14ad2, 0xefbe4786384f25e3, 0xfc19dc68b8cd5b5, 0x240ca1cc77ac9c65] ++
  [0x2de92c6f592b0275, 0x4a7484aa6ea6e483, 0x5cb0a9dcbd41fbd4, 0x76f988da831153b5] ++
  [0x983e5152ee66dfab, 0xa831c66d2db43210, 0xb00327c898fb213f, 0xbf597fc7beef0ee4] ++
  [0xc6e00bf33da88fc2, 0xd5a79147930aa725, 0x6ca6351e003826f, 0x142929670a0e6e70] ++
  [0x27b70a8546d22ffc, 0x2e1b21385c26c926, 0x4d2c6dfc5ac42aed, 0x53380d139d95b3df] ++
  [0x650a73548baf63de, 0x766a0abb3c77b2a8, 0x81c2c92e47edaee6, 0x92722c851482353b] ++
  [0xa2bfe8a14cf10364, 0xa81a664bbc423001, 0xc24b8b70d0f89791, 0xc76c51a30654be30] ++
  [0xd192e819d6ef5218, 0xd69906245565a910, 0xf40e35855771202a, 0x106aa07032bbd1b8] ++
  [0x19a4c116b8d2d0c8, 0x1e376c085141ab53, 0x2748774cdf8eeb99, 0x34b0bcb5e19b48a8] ++
  [0x391c0cb3c5c95a63, 0x4ed8aa4ae3418acb, 0x5b9cca4f7763e373, 0x682e6ff3d6b2b8a3] ++
  [0x748f82ee5defb2fc, 0x78a5636f43172f60, 0x84c87814a1f0ab72, 0x8cc702081a6439ec] ++
  [0x90befffa23631e28, 0xa4506cebde82bde9, 0xbef9a3f7b2c67915, 0xc67178f2e372532b] ++
  [0xca273eceea26619c, 0xd186b8c721c0c207, 0xeada7dd6cde0eb1e, 0xf57d4f7fee6ed178] ++
  [0x6f067aa72176fba, 0xa637dc5a2c898a6, 0x113f9804bef90dae, 0x1b710b35131c471b] ++
  [0x28db77f523047d84, 0x32caab7b40c72493, 0x3c9ebe0a15c9bebc, 0x431d67c49c100d4c] ++
  [0x4cc5d4becb3e42b6, 0x597f299cfc657e2a, 0x5fcb6fab3ad6faec, 0x6c44198c4a475817]

/-- Initial value of SHA-256. -/
def sha256Iv : List W32 :=
  [0x6a09e667, 0xbb67ae85, 0x3c6ef372, 0xa54ff53a, 0x510e527f, 0x9b05688c, 0x1f83d9ab, 0x5be0cd19]

/-- Initial value of SHA-512. -/
def sha512Iv : List W64 :=
  [0x6a09e667f3bcc908, 0xbb67ae8584caa73b, 0x3c6ef372fe94f82b, 0xa54ff53a5f1d36f1] ++
  [0x510e527fade682d1, 0x9b05688c2b3e6c1f, 0x1f83d9abfb41bd6b, 0x5be0cd19137e2179]

/-- Initial value of SHA-384. -/
def sha384Iv : List W64 :=
  [0xcbbb9d5dc1059ed8, 0x629a292a367cd507, 0x9159015a3070dd17, 0x152fecd8f70e5939] ++
  [0x67332667ffc00b31, 0x8eb44a8768581511, 0xdb0c2e0d64f98fa7, 0x47b5481dbefa4fa4]

/-- The rotation and shift amounts of a SHA-2 of word width `w`. -/
structure ShaPar (w : Nat) where
  a : Nat × Nat × Nat
  e : Nat × Nat × Nat
  s0 : Nat × Nat × Nat
  s1 : Nat × Nat × Nat

/-- SHA-256's amounts. -/
def sha256Par : ShaPar 32 := ⟨(2, 13, 22), (6, 11, 25), (7, 18, 3), (17, 19, 10)⟩
/-- SHA-512's amounts. -/
def sha512Par : ShaPar 64 := ⟨(28, 34, 39), (14, 18, 41), (1, 8, 7), (19, 61, 6)⟩

/-- Three rotations combined. -/
def rot3 {w : Nat} (x : BitVec w) (t : Nat × Nat × Nat) : BitVec w :=
  x.rotateRight t.1 ^^^ x.rotateRight t.2.1 ^^^ x.rotateRight t.2.2

/-- Two rotations and a shift combined. -/
def rot2s {w : Nat} (x : BitVec w) (t : Nat × Nat × Nat) : BitVec w :=
  x.rotateRight t.1 ^^^ x.rotateRight t.2.1 ^^^ (x >>> t.2.2)

/-- One round of SHA-2 over the eight working words, given constant plus schedule word. -/
def shaRound {w : Nat} (p : ShaPar w) (v : List (BitVec w)) (kw : BitVec w) : List (BitVec w) :=
  match v with
  | [a, b, c, d, e, f, g, h] =>
    let t1 := h + rot3 e p.e + ((e &&& f) ^^^ (~~~ e &&& g)) + kw
    let t2 := rot3 a p.a + ((a &&& b) ^^^ (a &&& c) ^^^ (b &&& c))
    [t1 + t2, a, b, c, d + t1, e, f, g]
  | x => x

/-- All rounds: `win` is the window of the next 16 schedule words. -/
def shaRounds {w : Nat} (p : ShaPar w) : List (BitVec w) → List (BitVec w) → List (BitVec w) → List (BitVec w)
  | [], _, v => v
  | k :: ks, win, v =>
    let w0 := win.headD 0
    let nxt := rot2s (win.getD 14 0) p.s1 + win.getD 9 0 + rot2s (win.getD 1 0) p.s0 + w0
    shaRounds p ks (win.tail ++ [nxt]) (shaRound p v (k + w0))

/-- One block. -/
def shaBlock {w : Nat} (p : ShaPar w) (ks v win : List (BitVec w)) : List (BitVec w) :=
  (v.zip (shaRounds p ks win v)).map fun x => x.1 + x.2

/-- Big-endian words of a block, `n` bytes each. -/
def beWords (w n : Nat) : Nat → List Byte → List (BitVec w)
  | 0, _ => []
  | k + 1, l => BitVec.ofNat w (beNat (l.take n)) :: beWords w n k (l.drop n)

/-- The padded message of SHA-2 with blocks of `bs` bytes and a length field of `lf` bytes. -/
def shaPad (bs lf total : Nat) (l : List Byte) : List Byte :=
  let z := (bs - (l.length + 1 + lf) % bs) % bs
  l ++ [0x80] ++ zeros z ++ beBytes lf (8 * total)

/-- Run whole blocks. -/
def shaBlocks {w : Nat} (p : ShaPar w) (ks : List (BitVec w)) (bs : Nat) : Nat → List (BitVec w) → List Byte → List (BitVec w)
  | 0, v, _ => v
  | n + 1, v, l => shaBlocks p ks bs n (shaBlock p ks v (beWords w (bs / 16) 16 (l.take bs))) (l.drop bs)

/-- Big-endian bytes of words. -/
def wordsBe {w : Nat} (n : Nat) (v : List (BitVec w)) : List Byte := v.flatMap fun x => beBytes n x.toNat

/-- SHA-256. -/
def sha256 (l : List Byte) : List Byte :=
  let m := shaPad 64 8 l.length l
  wordsBe 4 (shaBlocks sha256Par sha256K 64 (m.length / 64) sha256Iv m)

/-- SHA-512. -/
def sha512 (l : List Byte) : List Byte :=
  let m := shaPad 128 16 l.length l
  wordsBe 8 (shaBlocks sha512Par sha512K 128 (m.length / 128) sha512Iv m)

/-- SHA-384. -/
def sha384 (l : List Byte) : List Byte :=
  let m := shaPad 128 16 l.length l
  (wordsBe 8 (shaBlocks sha512Par sha512K 128 (m.length / 128) sha384Iv m)).take 48

/-- HMAC-SHA-256. -/
def hmacSha256 (key msg : List Byte) : List Byte :=
  let k := padTo 64 (if 64 < key.length then sha256 key else key)
  sha256 (k.map (· ^^^ 0x5C) ++ sha256 (k.map (· ^^^ 0x36) ++ msg))

/-! ### SHA-3 -/

/-- Round constants of Keccak-f[1600]. -/
def keccakRc : List W64 :=
  [0x1, 0x8082, 0x800000000000808a, 0x8000000080008000] ++
  [0x808b, 0x80000001, 0x8000000080008081, 0x8000000000008009] ++
  [0x8a, 0x88, 0x80008009, 0x8000000a] ++
  [0x8000808b, 0x800000000000008b, 0x8000000000008089, 0x8000000000008003] ++
  [0x8000000000008002, 0x8000000000000080, 0x800a, 0x800000008000000a] ++
  [0x8000000080008081, 0x8000000000008080, 0x80000001, 0x8000000080008008]

/-- Rotation of lane x + 5 y. -/
def keccakRot : List Nat := [0, 1, 62, 28, 27, 36, 44, 6, 55, 20, 3, 10, 43, 25, 39, 41, 45, 15, 21, 8, 18, 2, 61, 56, 14]

/-- One round of Keccak-f on 25 lanes. -/
def keccakRound (a : List W64) (rc : W64) : List W64 :=
  let c := (List.range 5).map fun x => (List.range 5).foldl (fun v y => v ^^^ a.getD (x + 5 * y) 0) (0 : W64)
  let d := (List.range 5).map fun x => c.getD ((x + 4) % 5) 0 ^^^ (c.getD ((x + 1) % 5) 0).rotateLeft 1
  let t := (List.range 25).map fun i => a.getD i 0 ^^^ d.getD (i % 5) 0
  -- rho and pi: lane (x, y) goes to (y, 2x + 3y)
  let b := (List.range 25).map fun j =>
    let u := j % 5
    let v := j / 5
    let x := (u + 3 * v) % 5
    let i := x + 5 * u
    (t.getD i 0).rotateLeft (keccakRot.getD i 0)
  let e := (List.range 25).map fun i =>
    let x := i % 5
    let y := i / 5
    b.getD i 0 ^^^ (~~~ (b.getD ((x + 1) % 5 + 5 * y) 0) &&& b.getD ((x + 2) % 5 + 5 * y) 0)
  e.set 0 (e.headD 0 ^^^ rc)

/-- Keccak-f[1600]. -/
def keccakF (a : List W64) : List W64 := keccakRc.foldl keccakRound a

/-- Absorb one block of `r` bytes. -/
def keccakAbsorb (r : Nat) (a : List W64) (blk : List Byte) : List W64 :=
  keccakF ((List.range 25).map fun i => a.getD i 0 ^^^ (if 8 * i < r then BitVec.ofNat 64 (leAt blk (8 * i) 8) else 0))

/-- Absorb whole blocks. -/
def keccakBlocks (r : Nat) : Nat → List W64 → List Byte → List W64
  | 0, a, _ => a
  | n + 1, a, l => keccakBlocks r n (keccakAbsorb r a (l.take r)) (l.drop r)

/-- The 200 bytes of a Keccak state. -/
def keccakBytes (a : List W64) : List Byte := a.flatMap fun x => leBytes 8 x.toNat

/-- SHA-3 with rate `r` and domain byte `d`: the padded message absorbed. -/
def keccakPadded (r d : Nat) (l : List Byte) : List Byte :=
  let z := r - l.length % r
  if z = 1 then l ++ [BitVec.ofNat 8 (d ||| 0x80)] else l ++ [BitVec.ofNat 8 d] ++ zeros (z - 2) ++ [0x80]

/-- The final state of SHA-3 or SHAKE. -/
def keccakState (r d : Nat) (l : List Byte) : List W64 :=
  let m := keccakPadded r d l
  keccakBlocks r (m.length / r) (List.replicate 25 0) m

/-- SHA3-256, SHA3-384, SHA3-512. -/
def sha3 (bits : Nat) (l : List Byte) : List Byte := (keccakBytes (keccakState (200 - bits / 4) 6 l)).take (bits / 8)

/-! ### AES -/

/-- The AES S-box. -/
def aesSbox : List Byte :=
  [0x63, 0x7c, 0x77, 0x7b, 0xf2, 0x6b, 0x6f, 0xc5, 0x30, 0x1, 0x67, 0x2b, 0xfe, 0xd7, 0xab, 0x76] ++
  [0xca, 0x82, 0xc9, 0x7d, 0xfa, 0x59, 0x47, 0xf0, 0xad, 0xd4, 0xa2, 0xaf, 0x9c, 0xa4, 0x72, 0xc0] ++
  [0xb7, 0xfd, 0x93, 0x26, 0x36, 0x3f, 0xf7, 0xcc, 0x34, 0xa5, 0xe5, 0xf1, 0x71, 0xd8, 0x31, 0x15] ++
  [0x4, 0xc7, 0x23, 0xc3, 0x18, 0x96, 0x5, 0x9a, 0x7, 0x12, 0x80, 0xe2, 0xeb, 0x27, 0xb2, 0x75] ++
  [0x9, 0x83, 0x2c, 0x1a, 0x1b, 0x6e, 0x5a, 0xa0, 0x52, 0x3b, 0xd6, 0xb3, 0x29, 0xe3, 0x2f, 0x84] ++
  [0x53, 0xd1, 0x0, 0xed, 0x20, 0xfc, 0xb1, 0x5b, 0x6a, 0xcb, 0xbe, 0x39, 0x4a, 0x4c, 0x58, 0xcf] ++
  [0xd0, 0xef, 0xaa, 0xfb, 0x43, 0x4d, 0x33, 0x85, 0x45, 0xf9, 0x2, 0x7f, 0x50, 0x3c, 0x9f, 0xa8] ++
  [0x51, 0xa3, 0x40, 0x8f, 0x92, 0x9d, 0x38, 0xf5, 0xbc, 0xb6, 0xda, 0x21, 0x10, 0xff, 0xf3, 0xd2] ++
  [0xcd, 0xc, 0x13, 0xec, 0x5f, 0x97, 0x44, 0x17, 0xc4, 0xa7, 0x7e, 0x3d, 0x64, 0x5d, 0x19, 0x73] ++
  [0x60, 0x81, 0x4f, 0xdc, 0x22, 0x2a, 0x90, 0x88, 0x46, 0xee, 0xb8, 0x14, 0xde, 0x5e, 0xb, 0xdb] ++
  [0xe0, 0x32, 0x3a, 0xa, 0x49, 0x6, 0x24, 0x5c, 0xc2, 0xd3, 0xac, 0x62, 0x91, 0x95, 0xe4, 0x79] ++
  [0xe7, 0xc8, 0x37, 0x6d, 0x8d, 0xd5, 0x4e, 0xa9, 0x6c, 0x56, 0xf4, 0xea, 0x65, 0x7a, 0xae, 0x8] ++
  [0xba, 0x78, 0x25, 0x2e, 0x1c, 0xa6, 0xb4, 0xc6, 0xe8, 0xdd, 0x74, 0x1f, 0x4b, 0xbd, 0x8b, 0x8a] ++
  [0x70, 0x3e, 0xb5, 0x66, 0x48, 0x3, 0xf6, 0xe, 0x61, 0x35, 0x57, 0xb9, 0x86, 0xc1, 0x1d, 0x9e] ++
  [0xe1, 0xf8, 0x98, 0x11, 0x69, 0xd9, 0x8e, 0x94, 0x9b, 0x1e, 0x87, 0xe9, 0xce, 0x55, 0x28, 0xdf] ++
  [0x8c, 0xa1, 0x89, 0xd, 0xbf, 0xe6, 0x42, 0x68, 0x41, 0x99, 0x2d, 0xf, 0xb0, 0x54, 0xbb, 0x16]

/-- The inverse AES S-box. -/
def aesInvSbox : List Byte :=
  [0x52, 0x9, 0x6a, 0xd5, 0x30, 0x36, 0xa5, 0x38, 0xbf, 0x40, 0xa3, 0x9e, 0x81, 0xf3, 0xd7, 0xfb] ++
  [0x7c, 0xe3, 0x39, 0x82, 0x9b, 0x2f, 0xff, 0x87, 0x34, 0x8e, 0x43, 0x44, 0xc4, 0xde, 0xe9, 0xcb] ++
  [0x54, 0x7b, 0x94, 0x32, 0xa6, 0xc2, 0x23, 0x3d, 0xee, 0x4c, 0x95, 0xb, 0x42, 0xfa, 0xc3, 0x4e] ++
  [0x8, 0x2e, 0xa1, 0x66, 0x28, 0xd9, 0x24, 0xb2, 0x76, 0x5b, 0xa2, 0x49, 0x6d, 0x8b, 0xd1, 0x25] ++
  [0x72, 0xf8, 0xf6, 0x64, 0x86, 0x68, 0x98, 0x16, 0xd4, 0xa4, 0x5c, 0xcc, 0x5d, 0x65, 0xb6, 0x92] ++
  [0x6c, 0x70, 0x48, 0x50, 0xfd, 0xed, 0xb9, 0xda, 0x5e, 0x15, 0x46, 0x57, 0xa7, 0x8d, 0x9d, 0x84] ++
  [0x90, 0xd8, 0xab, 0x0, 0x8c, 0xbc, 0xd3, 0xa, 0xf7, 0xe4, 0x58, 0x5, 0xb8, 0xb3, 0x45, 0x6] ++
  [0xd0, 0x2c, 0x1e, 0x8f, 0xca, 0x3f, 0xf, 0x2, 0xc1, 0xaf, 0xbd, 0x3, 0x1, 0x13, 0x8a, 0x6b] ++
  [0x3a, 0x91, 0x11, 0x41, 0x4f, 0x67, 0xdc, 0xea, 0x97, 0xf2, 0xcf, 0xce, 0xf0, 0xb4, 0xe6, 0x73] ++
  [0x96, 0xac, 0x74, 0x22, 0xe7, 0xad, 0x35, 0x85, 0xe2, 0xf9, 0x37, 0xe8, 0x1c, 0x75, 0xdf, 0x6e] ++
  [0x47, 0xf1, 0x1a, 0x71, 0x1d, 0x29, 0xc5, 0x89, 0x6f, 0xb7, 0x62, 0xe, 0xaa, 0x18, 0xbe, 0x1b] ++
  [0xfc, 0x56, 0x3e, 0x4b, 0xc6, 0xd2, 0x79, 0x20, 0x9a, 0xdb, 0xc0, 0xfe, 0x78, 0xcd, 0x5a, 0xf4] ++
  [0x1f, 0xdd, 0xa8, 0x33, 0x88, 0x7, 0xc7, 0x31, 0xb1, 0x12, 0x10, 0x59, 0x27, 0x80, 0xec, 0x5f] ++
  [0x60, 0x51, 0x7f, 0xa9, 0x19, 0xb5, 0x4a, 0xd, 0x2d, 0xe5, 0x7a, 0x9f, 0x93, 0xc9, 0x9c, 0xef] ++
  [0xa0, 0xe0, 0x3b, 0x4d, 0xae, 0x2a, 0xf5, 0xb0, 0xc8, 0xeb, 0xbb, 0x3c, 0x83, 0x53, 0x99, 0x61] ++
  [0x17, 0x2b, 0x4, 0x7e, 0xba, 0x77, 0xd6, 0x26, 0xe1, 0x69, 0x14, 0x63, 0x55, 0x21, 0xc, 0x7d]

/-- S-box of a byte. -/
def subByte (b : Byte) : Byte := aesSbox.getD b.toNat 0
/-- Inverse S-box of a byte. -/
def invSubByte (b : Byte) : Byte := aesInvSbox.getD b.toNat 0

/-- Multiplication by x in GF(2^8). -/
def xtime (b : Byte) : Byte := if b.getLsbD 7 then (b <<< 1) ^^^ 0x1B else b <<< 1

/-- Multiplication by a small constant in GF(2^8), by its bits. -/
def gfMul (b : Byte) : Nat → Nat → Byte
  | 0, _ => 0
  | n + 1, k => (if k % 2 = 1 then b else 0) ^^^ gfMul (xtime b) n (k / 2)

/-- Byte lists combined by exclusive or. -/
def xorBytes (a b : List Byte) : List Byte := (a.zip b).map fun x => x.1 ^^^ x.2

/-- One column through a matrix row set `m0 m1 m2 m3`. -/
def mixCol (m0 m1 m2 m3 : Nat) (c : List Byte) : List Byte :=
  match c with
  | [a, b, d, e] =>
    let f (x y z t : Byte) : Byte := gfMul x 4 m0 ^^^ gfMul y 4 m1 ^^^ gfMul z 4 m2 ^^^ gfMul t 4 m3
    [f a b d e, f b d e a, f d e a b, f e a b d]
  | x => x

/-- All four columns. -/
def mixCols (m0 m1 m2 m3 : Nat) (s : List Byte) : List Byte :=
  (List.range 4).flatMap fun i => mixCol m0 m1 m2 m3 ((s.drop (4 * i)).take 4)

/-- ShiftRows: byte r + 4c comes from column c + r. -/
def shiftRows (s : List Byte) : List Byte := (List.range 16).map fun i => s.getD ((i + 4 * (i % 4)) % 16) 0
/-- Inverse ShiftRows. -/
def invShiftRows (s : List Byte) : List Byte := (List.range 16).map fun i => s.getD ((i + 16 - 4 * (i % 4)) % 16) 0

/-- Key expansion: words of four bytes, newest last, for a key of `nk` words; `n` words still to make, `i` the next index. -/
def aesExpand (nk : Nat) : Nat → Nat → Byte → List (List Byte) → List (List Byte)
  | 0, _, _, ws => ws
  | n + 1, i, rcon, ws =>
    let prev := ws.getD (i - 1) []
    let old := ws.getD (i - nk) []
    let t :=
      if i % nk = 0 then
        match prev with
        | [a, b, c, d] => [subByte b ^^^ rcon, subByte c, subByte d, subByte a]
        | x => x
      else if 6 < nk ∧ i % nk = 4 then prev.map subByte
      else prev
    aesExpand nk n (i + 1) (if i % nk = 0 then xtime rcon else rcon) (ws ++ [xorBytes old t])

/-- Words of a key. -/
def keyWords (key : List Byte) (nk : Nat) : List (List Byte) := (List.range nk).map fun i => (key.drop (4 * i)).take 4

/-- Round keys of AES-128 or AES-256, 16 bytes each. -/
def aesKeys (key : List Byte) : List (List Byte) :=
  let nk := key.length / 4
  let rounds := nk + 6
  let ws := aesExpand nk (4 * (rounds + 1) - nk) nk 1 (keyWords key nk)
  (List.range (rounds + 1)).map fun i => (ws.drop (4 * i)).take 4 |>.flatten

/-- AES encryption of one block under expanded round keys. -/
def aesEncKs (ks : List (List Byte)) (blk : List Byte) : List Byte :=
  let s0 := xorBytes blk (ks.headD [])
  let mid := (ks.drop 1).dropLast
  let s1 := mid.foldl (fun s k => xorBytes (mixCols 2 3 1 1 (shiftRows (s.map subByte))) k) s0
  xorBytes (shiftRows (s1.map subByte)) (ks.getLastD [])

/-- AES decryption of one block under expanded round keys. -/
def aesDecKs (ks : List (List Byte)) (blk : List Byte) : List Byte :=
  let s0 := xorBytes blk (ks.getLastD [])
  let mid := ((ks.drop 1).dropLast).reverse
  let s1 := mid.foldl (fun s k => mixCols 14 11 13 9 (xorBytes ((invShiftRows s).map invSubByte) k)) s0
  xorBytes ((invShiftRows s1).map invSubByte) (ks.headD [])

/-- Blocks of 16 bytes of a list. -/
def blocks16 : Nat → List Byte → List (List Byte)
  | 0, _ => []
  | n + 1, l => l.take 16 :: blocks16 n (l.drop 16)

/-- ECB over whole blocks. -/
def aesEcb (key : List Byte) (enc : Bool) (l : List Byte) : List Byte :=
  let ks := aesKeys key
  (blocks16 (l.length / 16) l).flatMap fun b => if enc then aesEncKs ks b else aesDecKs ks b

/-- CBC over blocks. -/
def cbcRun (ks : List (List Byte)) (enc : Bool) : List Byte → List (List Byte) → List Byte
  | _, [] => []
  | iv, b :: bs =>
    if enc then
      let c := aesEncKs ks (xorBytes b iv)
      c ++ cbcRun ks enc c bs
    else xorBytes (aesDecKs ks b) iv ++ cbcRun ks enc b bs

/-- CBC. -/
def aesCbc (key iv : List Byte) (enc : Bool) (l : List Byte) : List Byte :=
  cbcRun (aesKeys key) enc iv (blocks16 (l.length / 16) l)

/-- The next counter block: the last `w` bytes counted up, big-endian. -/
def ctrNext (w : Nat) (c : List Byte) : List Byte :=
  c.take (16 - w) ++ beBytes w ((beNat (c.drop (16 - w)) + 1) % 256 ^ w)

/-- Key stream of `n` blocks. -/
def ctrStream (ks : List (List Byte)) (w : Nat) : Nat → List Byte → List Byte
  | 0, _ => []
  | n + 1, c => aesEncKs ks c ++ ctrStream ks w n (ctrNext w c)

/-- CTR with a counter of `w` bytes at the end of the first block `c`. -/
def aesCtr (key c : List Byte) (w : Nat) (l : List Byte) : List Byte :=
  xorBytes l (ctrStream (aesKeys key) w ((l.length + 15) / 16) c)

/-- Multiplication in GF(2^128) of GHASH: bits of `x` from the most significant. -/
def ghashMul (x : Nat) : Nat → Nat → Nat → Nat
  | 0, z, _ => z
  | n + 1, z, v =>
    let z1 := if x.testBit n then z ^^^ v else z
    ghashMul x n z1 (if v % 2 = 1 then (v / 2) ^^^ (0xE1 <<< 120) else v / 2)

/-- GHASH over blocks. -/
def ghash (h : Nat) (l : List (List Byte)) : Nat :=
  l.foldl (fun y b => ghashMul (y ^^^ beNat b) 128 0 h) 0

/-- A list padded with zeros to whole blocks. -/
def pad16 (l : List Byte) : List Byte := l ++ zeros ((16 - l.length % 16) % 16)

/-- AES-GCM with a 12-byte nonce: output and 16-byte tag. -/
def aesGcm (key nonce aad : List Byte) (enc : Bool) (l : List Byte) : List Byte × List Byte :=
  let ks := aesKeys key
  let h := beNat (aesEncKs ks (zeros 16))
  let j0 := nonce ++ [0, 0, 0, 1]
  let o := xorBytes l (ctrStream ks 4 ((l.length + 15) / 16) (ctrNext 4 j0))
  let c := if enc then o else l
  let m := pad16 aad ++ pad16 c ++ beBytes 8 (8 * aad.length) ++ beBytes 8 (8 * c.length)
  let s := ghash h (blocks16 (m.length / 16) m)
  (o, xorBytes (beBytes 16 s) (aesEncKs ks j0))

/-- The tweak multiplied by x in XTS (little-endian). -/
def xtsNext (t : List Byte) : List Byte :=
  let v := leNat t
  leBytes 16 (if v.testBit 127 then ((2 * v) % 2 ^ 128) ^^^ 0x87 else 2 * v)

/-- XTS over the blocks of one data unit. -/
def xtsRun (ks : List (List Byte)) (enc : Bool) : List Byte → List (List Byte) → List Byte
  | _, [] => []
  | t, b :: bs =>
    let x := xorBytes b t
    xorBytes (if enc then aesEncKs ks x else aesDecKs ks x) t ++ xtsRun ks enc (xtsNext t) bs

/-- AES-XTS-256 of one data unit with tweak number `n` (R162). -/
def aesXts (k1 k2 : List Byte) (n : Nat) (enc : Bool) (l : List Byte) : List Byte :=
  xtsRun (aesKeys k1) enc (aesEncKs (aesKeys k2) (leBytes 16 n)) (blocks16 (l.length / 16) l)

/-- Modular exponentiation by the bits of the exponent, lowest first. -/
def modPow : Nat → Nat → Nat → Nat → Nat → Nat
  | 0, _, _, _, acc => acc
  | n + 1, b, e, m, acc => modPow n (b * b % m) (e / 2) m (if e % 2 = 1 then acc * b % m else acc)

end Sys2Proof.Machine
end

