-- ==== Sys2Proof/Machine/Reply.lean ====
section
/-!
DEFINITION. Reply.lean: the packets the device sends on Onafaet channels (R36, R37, R40), mailboxes (R58), and the table of
opcodes (Table 02-5).
-/

namespace Sys2Proof.Machine

/-! ### Packets -/

/-- The header of a packet the device sends, HCRC included (Table 02-2). -/
def onfHeader (p : OnfPkt) (plen : Nat) : List Byte :=
  let flags := b2n p.crit + b2n (!p.evt) * 2 + b2n p.evt * 4 + b2n p.more * 8
  let h := leBytes 2 0x4F4E ++ leBytes 1 2 ++ leBytes 1 flags ++ leBytes 2 p.opcode ++ leBytes 2 plen ++ leBytes 4 p.seq ++
    leBytes 4 p.sender ++ leBytes 8 p.ctr ++ leBytes 4 p.tag ++ leBytes 2 p.status
  h ++ leBytes 2 (crc16 h)

/-- The sender key of an identity, by slot: the slot number and the key. -/
def State.keyOf (s : State) (sender : Nat) : Option (Nat × SenderKey) :=
  s.onf.keys.find? fun e => e.2.sender == sender && !e.2.revoked

/-- A packet the device sends, as bytes: the parameters padded to 4 bytes, and the CRC-32C or MAC trailer (R37). -/
def State.onfBytes (s : State) (p : OnfPkt) : List Byte :=
  let ps := p.params ++ zeros ((4 - p.params.length % 4) % 4)
  if p.crit then
    let h := onfHeader p (ps.length + 16)
    let key := match s.keyOf p.sender with
      | some e => e.2.key
      | none => []
    h ++ ps ++ (hmacSha256 key (h ++ ps)).take 16
  else onfHeader p (ps.length + 4) ++ ps ++ leBytes 4 (crc32c ps)

/-! ### Mailboxes -/

/-- Whether a channel is a mailbox: the PF mailboxes and the two doors. -/
def isMbx (ch : Nat) : Bool := decide (ch < 32) || ch == 34 || ch == 35

/-- A channel's mailbox. -/
def State.mbx (s : State) (ch : Nat) : Mailbox := smGet Mailbox.reset s.onf.mbx ch

/-- A channel's mailbox takes a value. -/
def State.setMbx (s : State) (ch : Nat) (m : Mailbox) : State :=
  { s with onf := { s.onf with mbx := smPut Mailbox.reset s.onf.mbx ch m } }

/-- A mailbox's interrupt: MSI-X vector 0 of the PF for a PF mailbox (R58); a door's is the level of an APLIC source. -/
def State.mbxSignal (s : State) (ch : Nat) : State :=
  if ch < 32 && (s.mbx ch).irqEn then s.msix (0x1000 + ch) 0 else s

/-- The APLIC source of a door is asserted: IRQ_EN and DONE or DROP (Table 02-11). -/
def State.irqDoor (s : State) (ch : Nat) : Bool := (s.mbx ch).irqEn && ((s.mbx ch).done || (s.mbx ch).drop)

/-- A packet goes to a channel: into the reply buffer of a mailbox, waiting while DONE is 1, else out. -/
def State.send (s : State) (ch : Nat) (p : OnfPkt) : State :=
  if isMbx ch then
    let m := s.mbx ch
    if m.done || !m.replies.isEmpty then s.setMbx ch { m with replies := m.replies ++ [p] }
    else
      let b := s.onfBytes p
      let s1 := s.setMbx ch { m with reply := b, done := true, lastMore := p.more || p.evt }
      (s1.emit (.onf ch p)).mbxSignal ch
  else s.emit (.onf ch p)

/-- The next waiting packet of a mailbox goes into its freed reply buffer. -/
def State.mbxNext (s : State) (ch : Nat) : State :=
  let m := s.mbx ch
  match m.replies with
  | p :: ps =>
    let s1 := s.setMbx ch { m with reply := s.onfBytes p, done := true, lastMore := p.more || p.evt, replies := ps }
    (s1.emit (.onf ch p)).mbxSignal ch
  | [] => s

/-- Largest parameter bytes of one packet: PLEN is at most 4,064 (R36, R37). -/
def maxParams (crit : Bool) : Nat := if crit then 4048 else 4060

/-- A reply's packets, cut under R38: each SEQ one above the last, MORE in all but the last. -/
def replyPkts (r : OnfReq) (op status : Nat) (crit : Bool) : Nat → Nat → List Byte → List OnfPkt
  | 0, _, _ => []
  | fuel + 1, seq, l =>
    let m := maxParams crit
    let p : OnfPkt :=
      { opcode := op, seq := seq, sender := r.sender, tag := r.tag, status := status, ctr := if crit then r.ctr else 0, crit := crit,
        evt := false, more := decide (m < l.length), params := l.take m }
    if m < l.length then p :: replyPkts r op status crit fuel (seq + 1) (l.drop m) else [p]

/-- Send packets in order. -/
def State.sendAll (s : State) (ch : Nat) : List OnfPkt → State
  | [] => s
  | p :: ps => State.sendAll (s.send ch p) ch ps

/-- The request waits for the peer's acknowledgement of its counter (R47). -/
def State.ctrHeld (s : State) (r : OnfReq) : Bool := s.onf.ctrWait.contains (r.ch, r.seq, r.tag)

/-- The one reply transfer of a request (R40): critical when the request is; held while its counter is not acknowledged (R47). -/
def State.reply (s : State) (r : OnfReq) (op status : Nat) (params : List Byte) : State :=
  let ps := replyPkts r op status r.crit (params.length / 4048 + 2) r.seq params
  if s.ctrHeld r then { s with onf := { s.onf with held := s.onf.held ++ [(r.ch, r.seq, r.tag, ps)] } }
  else s.sendAll r.ch ps

/-- The peer acknowledges the oldest unacknowledged counter: a reply held for it goes out. -/
def State.ctrAck (s : State) : State :=
  match s.onf.ctrWait with
  | [] => s
  | (ch, sq, tg) :: rest =>
    let s1 := { s with onf := { s.onf with ctrWait := rest } }
    match s1.onf.held.find? fun e => e.1 == ch && e.2.1 == sq && e.2.2.1 == tg with
    | some e =>
      let s2 := { s1 with onf := { s1.onf with held := s1.onf.held.erase e } }
      s2.sendAll ch e.2.2.2
    | none => s1

/-- Every held reply goes out (the link is lost). -/
def State.ctrAckAll : Nat → State → State
  | 0, s => s
  | n + 1, s => State.ctrAckAll n s.ctrAck

/-- The reply to a request refused at steps 3 to 9: non-critical, no parameters (R40). -/
def State.refuseReply (s : State) (r : OnfReq) (op status : Nat) : State :=
  s.sendAll r.ch (replyPkts { r with crit := false } op status false 1 r.seq [])

/-! ### Opcodes (Table 02-5) -/

/-- Channel code of a channel (Table 02-1). -/
def chanCode (ch : Nat) : Nat := if ch < 32 then 0 else ch - 31

/-- An opcode's row: whether CRIT must be set, and the channel codes that carry it. -/
def opRow (op : Nat) : Option (Bool × List Nat) :=
  let all := [0, 1, 2, 3, 4]
  let cfg := [0, 1, 3, 4]
  let dev := [1, 2, 4]
  let ops := [1, 2, 3, 4]
  match op with
  | 0x0001 => some (false, all)
  | 0x0002 => some (true, dev)
  | 0x0003 => some (false, all)
  | 0x0101 => some (false, cfg)
  | 0x0102 => some (false, cfg)
  | 0x0201 => some (false, cfg)
  | 0x0202 => some (false, cfg)
  | 0x0203 => some (false, cfg)
  | 0x0204 => some (false, cfg)
  | 0x0205 => some (false, cfg)
  | 0x0301 => some (false, all)
  | 0x0302 => some (false, all)
  | 0x0303 => some (false, all)
  | 0x0304 => some (false, all)
  | 0x0305 => some (false, all)
  | 0x0306 => some (false, all)
  | 0x0401 => some (false, ops)
  | 0x0402 => some (false, [1, 3, 4])
  | 0x0403 => some (true, [4])
  | 0x0501 => some (true, dev)
  | 0x0502 => some (true, dev)
  | 0x0503 => some (true, dev)
  | 0x0601 => some (true, dev)
  | 0x0602 => some (true, dev)
  | 0x0603 => some (true, [1])
  | 0x0701 => some (false, ops)
  | 0x0702 => some (false, all)
  | 0x0801 => some (false, ops)
  | 0x0802 => some (false, all)
  | 0x0901 => some (true, dev)
  | 0x0902 => some (false, all)
  | 0x0903 => some (true, [1, 2])
  | 0x0A01 => some (false, cfg)
  | 0x0A02 => some (false, cfg)
  | _ => if 0x8000 ≤ op && decide (op < 65536) && Config.oemKnown op then some (Config.oemCritical op, all) else none

/-! ### Acceptance (steps 6–10 of Table 02-4) and the counters of R45 -/

/-- The reservation ceiling that both flash copies hold. -/
def State.ceiling (s : State) : Nat := min s.onf.ceil0 s.onf.ceil1

/-- 2^20. -/
def ceilStep : Nat := 1048576

/-- The next ceiling for a counter that would pass the present one: the next multiple of 2^20 above it, plus 2^20 (R45). -/
def nextCeiling (ctr : Nat) : Nat := (ctr / ceilStep + 1) * ceilStep + ceilStep

/-- A sender's counter takes a value. -/
def State.setCtr (s : State) (slot : Nat) (k : SenderKey) (ctr : Nat) : State :=
  { s with onf := { s.onf with keys := smPut SenderKey.none s.onf.keys slot { k with ctr := ctr } } }

/-- What acceptance came to: execute, or refused with a code before step 10 or at step 10. -/
inductive Accept where
  | go
  | refuse (code : Nat)
  | refuse10 (code : Nat)
  deriving DecidableEq, Repr

/-- The ceiling copies after a write of `h`, the inactive slot's first (R45): `ok` says how many of the two writes succeed. -/
def State.writeCeil (s : State) (h ok : Nat) : State :=
  let act := s.fld R.SPOOL_STATUS.SLOT
  let w0 := decide (2 ≤ ok) || (decide (ok = 1) && act == 1)
  let w1 := decide (2 ≤ ok) || (decide (ok = 1) && act != 1)
  { s with onf := { s.onf with ceil0 := if w0 then h else s.onf.ceil0, ceil1 := if w1 then h else s.onf.ceil1 } }

/-- Recovery is open (R386). -/
def State.recovering (s : State) : Bool := s.bit R.SPOOL_STATUS.RECOVERY

/-- A channel carries packets (R265, R375, R386): in recovery the management port; while fenced the management port and the BMC channel; while the
outputs are gated only the doors of the harts; once halted, none. -/
def State.chanOpen (s : State) (ch : Nat) : Bool :=
  if s.recovering then ch == 32
  else match s.sys.phase with
    | .halted _ => false
    | _ => if s.bit R.SPOOL_STATUS.UNGATED then (s.role != 3 || ch == 32 || ch == 33) else ch == 34 || ch == 35

/-- Steps 6, 7, 8 and 10 for a request whose header, MAC and parameter checks passed. At step 10 the sender's counter advances
before execution (R43). A counter above the ceiling first needs a flash write; how many of its two writes the flash takes is a free
value (R45; log entry 20). In recovery CTR must exceed the stored counter, which then stands at no less than every ceiling (R386). -/
def State.accept (s : State) (r : OnfReq) (op : Nat) : State × Accept :=
  match opRow op with
  | none => (s, .refuse E.BAD_OPCODE)
  | some (must, chans) =>
    if !chans.contains (chanCode r.ch) then (s, .refuse E.CHANNEL)
    else if must && !r.crit then (s, .refuse E.NOT_CRITICAL)
    else if !r.crit then (s, .go)
    else match s.keyOf r.sender with
      | none => (s, .refuse E.SENDER)
      | some (slot, k) =>
        if s.recovering then (if r.ctr ≤ k.ctr then (s, .refuse10 E.REPLAY) else (s.setCtr slot k r.ctr, .go))
        else if s.onf.ceilPending.isSome then (s, .refuse10 E.FLASH)
        else if r.ctr ≤ k.ctr then (s, .refuse10 E.REPLAY)
        else if s.ceiling < r.ctr then
          let ok := s.free % 3
          let s1 := s.drawn.writeCeil (nextCeiling r.ctr) ok
          if ok = 2 then (s1.setCtr slot k r.ctr, .go) else (s1, .refuse10 E.FLASH)
        else (s.setCtr slot k r.ctr, .go)

/-- The counter of an accepted critical request goes to the peer, and its reply will wait for the acknowledgement (R47). -/
def State.mirrorCtr (s : State) (r : OnfReq) : State :=
  if r.crit && s.mirrored then
    match s.keyOf r.sender with
    | some (slot, _) =>
      State.sendFlit { s with onf := { s.onf with ctrWait := s.onf.ctrWait ++ [(r.ch, r.seq, r.tag)] } } (.counter slot r.ctr)
    | none => s
  else s

/-- The permission that Table 10-7 names for a critical command. -/
def permOf (op : Nat) : Option Nat :=
  match op with
  | 0x0901 => some 0
  | 0x0601 => some 1
  | 0x0602 => some 1
  | 0x0603 => some 1
  | 0x0501 => some 2
  | 0x0502 => some 2
  | 0x0503 => some 2
  | 0x0002 => some 3
  | 0x0903 => some 4
  | 0x0301 => some 5
  | 0x0403 => some 5
  | _ => none

/-- The sender's key holds the permission that its critical command needs (R319). -/
def State.permitted (s : State) (r : OnfReq) (op : Nat) : Bool :=
  match permOf op with
  | none => true
  | some b =>
    !r.crit ||
      match s.keyOf r.sender with
      | some e => e.2.perms.testBit b
      | none => false

/-- Run a command: judge its acceptance, refuse it with its one reply, or execute it. A missing permission refuses it after its counter has
advanced (R319). A packet on a channel that is held off never arrives; in recovery only DEV_INFO and RECOVERY are answered. -/
def State.command (s : State) (r : OnfReq) (op : Nat) (body : State → State) : State :=
  s.whenUp fun s =>
    if !s.chanOpen r.ch then s
    else if s.recovering && op != 1 && op != 0x0603 then s.refuseReply r op E.CHANNEL
    else match s.accept r op with
    | (s1, .refuse c) => s1.refuseReply r op c
    | (s1, .refuse10 c) => s1.reply r op c []
    | (s1, .go) => if s1.permitted r op then body (s1.mirrorCtr r) else (s1.mirrorCtr r).reply r op E.PRIVILEGE []

end Sys2Proof.Machine
end

