-- ==== Sys2Proof/Machine/Translate.lean ====
section
/-!
DEFINITION. Translate.lean: how a ring or transfer reaches memory: host translation through the ATC, ATS and page requests
(R140–R146), the device IOMMU and Seam checks of local channels (R147–R149), and what waits for a page.
-/

namespace Sys2Proof.Machine

/-- Set SHUT_FLT_INFO and SHUT_FLT_ADDR (Table 05-15) for a ring's fault. -/
def State.shutFault (s : State) (q cause off addr : Nat) : State :=
  let lc := isLc q
  let src := if lc then lcNum q else s.qpFn q
  let v := src + b2n lc * 2 ^ 13 + (if lc then 0 else qpNum q) * 2 ^ 16 + cause * 2 ^ 32 + off * 2 ^ 39
  ((s.setReg R.SHUT_FLT_INFO.off (BitVec.ofNat 64 v)).setReg R.SHUT_FLT_ADDR.off
    (BitVec.ofNat 64 (alignDown addr 4096))).setBit R.SHUT_STATUS.FLT_EVT

/-- The PASID or process ID that a ring's requests carry (Table 03-19, Table 05-7). -/
def State.ringPasid (s : State) (q : Nat) : Option Nat :=
  let c := s.qp q
  if getBit c.pasid 20 && !(isLc q && c.world) then some (getBits c.pasid 0 20) else none

/-- An address range cut at 4 KiB boundaries; `fuel` bounds the pieces. -/
def pieces4k : Nat → Nat → Nat → List (Nat × Nat)
  | 0, _, _ => []
  | fuel + 1, a, n =>
    if n = 0 then []
    else
      let m := min n (4096 - a % 4096)
      (a, m) :: pieces4k fuel (a + m) (n - m)

/-- An address range cut at 4 KiB boundaries. -/
def pagePieces (a n : Nat) : List (Nat × Nat) := pieces4k (n / 4096 + 2) a n

/-- An ATC entry serves an access. -/
def AtcEnt.hits (e : AtcEnt) (dev : Bool) (f : Nat) (pasid : Option Nat) (a : Nat) (w : Bool) : Bool :=
  e.dev == dev && e.f == f && e.pasid == pasid && decide (e.base ≤ a) && decide (a < e.base + e.size) &&
    (if w then e.w else e.r)

/-- The ATC entry that serves an access (R141). -/
def State.atcFind (s : State) (dev : Bool) (f : Nat) (pasid : Option Nat) (a : Nat) (w : Bool) : Option AtcEnt :=
  s.shut.atc.find? fun e => e.hits dev f pasid a w

/-- The largest page size of the ATC that fits inside a translation (R141). -/
def atcSize (n : Nat) : Nat :=
  if 0x40000000 ≤ n then 0x40000000 else if 0x200000 ≤ n then 0x200000 else if 0x10000 ≤ n then 0x10000 else 0x1000

/-- Put a translation into the ATC, newest first; at 65,536 entries the oldest goes (log entry 12). -/
def State.atcFill (s : State) (e : AtcEnt) : State :=
  { s with shut := { s.shut with atc := (e :: s.shut.atc).take 65536 } }

/-- PASID + 1, or 0 for none. -/
def pasidCode : Option Nat → Nat
  | none => 0
  | some p => p + 1

/-- What one page of an access came to. -/
inductive PageRes where
  /-- Memory address of the piece. -/
  | at (addr : Nat)
  /-- Not in the ATC: an ATS Translation Request is needed. -/
  | miss
  /-- A device-side page fault: the access parks. -/
  | park (cause : Nat)
  /-- The access ends with this status. -/
  | fail (status cause : Nat)
  deriving DecidableEq, Repr

/-- Translate one piece of a host access of function `f` (R140–R142). -/
def State.hostPage (s : State) (f : Nat) (pasid : Option Nat) (a : Nat) (w : Bool) : PageRes :=
  let un := Config.hostIommu (s.fnPort f) f (pasidCode pasid) a
  if !(s.fn f).atsEn then .at un
  else match s.atcFind false f pasid a w with
    | some e => if e.u then .at un else .at (e.phys + (a - e.base))
    | none => .miss

/-- A status of the DMA and translation class that R29 leaves open. -/
def State.dmaFree (s : State) : Nat := 0x0401 + s.free % 15

/-- Check a device address for a ring or transfer of a local channel or of the queue tile. -/
def State.devPage (s : State) (who : Agent) (a n : Nat) (w : Bool) : State × PageRes :=
  let k := if w then AccKind.write else AccKind.read
  match s.memCheck who a n k with
  | .ok => (s, .at a)
  | .poison => (s, .fail E.POISON 5)
  | .refused c r => (s.violation who k c r a, .fail E.SEAM 5)
  | .unbacked => (s.drawn, .fail s.dmaFree 5)

/-- Translate one piece of an access of local channel `n` (R147, R149): through the device IOMMU for the Shell, physical for the Lining. -/
def State.lcPage (s : State) (n : Nat) (a len : Nat) (w : Bool) : State × PageRes :=
  let q := 65536 + n
  if (s.qp q).world then s.devPage (.localChannel n) a len w
  else
    let pasid := s.ringPasid q
    match s.atcFind true n pasid a w with
    | some e => s.devPage (.localChannel n) (e.phys + (a - e.base)) len w
    | none =>
      let r := Config.iommuWalk n (pasidCode pasid) a w s.freeCtr
      let s1 := s.drawn
      if r.1 = 0 then
        let pg := alignDown a 4096
        (s1.atcFill { dev := true, f := n, pasid := pasid, base := pg, size := 4096, phys := alignDown r.2 4096, r := !w, w := w,
                      u := false }).devPage (.localChannel n) (alignDown r.2 4096 + a % 4096) len w
      else
        let s2 := s1.emit (.iommuFault n r.1 a)
        if r.1 = 13 || r.1 = 15 || r.1 = 21 || r.1 = 23 then ((s2.shutFault q 4 0 a), .park r.1)
        else ((s2.shutFault q 5 0 a), .fail E.IOMMU_FAULT 5)

/-- Something already waits for a page by ATS. -/
def State.atsPending (s : State) (f : Nat) (pasid : Option Nat) (page : Nat) (w : Bool) (by_ : Waiter) : Bool :=
  s.shut.ats.any fun r => r.f == f && r.pasid == pasid && r.page == page && r.write == w && r.by_ == by_

/-- Send an ATS Translation Request for a page (R141). -/
def State.atsSend (s : State) (f : Nat) (pasid : Option Nat) (page : Nat) (w : Bool) (by_ : Waiter) (tries : Nat) : State :=
  let t := s.shut.nextTag
  { s with
    shut := { s.shut with
      nextTag := t + 1
      ats := s.shut.ats ++ [{ tag := t, f := f, pasid := pasid, page := page, write := w, by_ := by_, tries := tries }] }
    out := .ats t f pasid page w :: s.out }

/-- A page request group of this waiter for this page is outstanding. -/
def State.prgPending (s : State) (f page : Nat) (w : Bool) (by_ : Waiter) : Bool :=
  s.shut.prgs.any fun g => g.f == f && g.page == page && g.write == w && g.by_ == by_ && !g.late && !g.reserved

/-- What an access came to: the memory pieces it covers, or that it waits, or its failure. -/
inductive AccRes where
  | at (ps : List (Nat × Nat))
  | wait
  | park
  | fail (status cause page : Nat)
  deriving DecidableEq, Repr

/-- Combine one page's outcome with what came before. A failure or a park stands; a wait lasts until every page is there. -/
def AccRes.join (acc : AccRes) (p : PageRes) (a n : Nat) : AccRes :=
  match acc, p with
  | .fail x y z, _ => .fail x y z
  | _, .fail x y => .fail x y a
  | .park, _ => .park
  | _, .park _ => .park
  | .wait, _ => .wait
  | _, .miss => .wait
  | .at l, .at m => .at (l ++ [(m, n)])

/-- Reach a list of pieces for a ring `q` of a host function: every page missing is asked for (R141). -/
def State.hostAccess (s : State) (q : Nat) (w : Bool) (by_ : Waiter) : AccRes → List (Nat × Nat) → State × AccRes
  | acc, [] => (s, acc)
  | acc, (a, n) :: ps =>
    let f := s.qpFn q
    let pasid := s.ringPasid q
    let r := s.hostPage f pasid a w
    let pg := alignDown a 4096
    let s1 := match r with
      | .miss => if s.atsPending f pasid pg w by_ || s.prgPending f pg w by_ then s else s.atsSend f pasid pg w by_ 0
      | _ => s
    State.hostAccess s1 q w by_ (acc.join r a n) ps

/-- Reach a list of pieces for a local channel. -/
def State.lcAccess (s : State) (n : Nat) (w : Bool) : AccRes → List (Nat × Nat) → State × AccRes
  | acc, [] => (s, acc)
  | acc, (a, m) :: ps =>
    let r := s.lcPage n a m w
    State.lcAccess r.1 n w (acc.join r.2 a m) ps

/-- Reach `n` bytes at address `a` of a ring's own address space. -/
def State.access (s : State) (q a n : Nat) (w : Bool) (by_ : Waiter) : State × AccRes :=
  if isLc q then s.lcAccess (lcNum q) w (.at []) (pagePieces a n)
  else s.hostAccess q w by_ (.at []) (pagePieces a n)

/-- Read translated pieces: host memory of the ring's port, or device memory for a local channel. -/
def State.readPieces (s : State) (q : Nat) (ps : List (Nat × Nat)) : List Byte :=
  ps.flatMap fun p => if isLc q then s.devRead p.1 p.2 else s.hostRead (s.fnPort (s.qpFn q)) p.1 p.2

/-- Write bytes over translated pieces. -/
def State.writePieces (s : State) (q : Nat) : List (Nat × Nat) → List Byte → State
  | [], _ => s
  | (a, n) :: ps, b =>
    State.writePieces
      (if isLc q then s.devWrite a (b.take n) else s.hostWrite (s.fnPort (s.qpFn q)) a (b.take n)) q ps (b.drop n)

/-! ### Dirty-page logging (R166, R168) -/

/-- A VF's dirty log. -/
def State.dlog (s : State) (v : Nat) : DirtyLog := smGet DirtyLog.off s.shut.dlogs v

/-- A VF's dirty log takes a value; while the pair mirrors, its settings go to the peer (Table 09-7). -/
def State.setDlog (s : State) (v : Nat) (d : DirtyLog) : State :=
  let s1 : State := { s with shut := { s.shut with dlogs := smPut DirtyLog.off s.shut.dlogs v d } }
  let o := s.dlog v
  if s.mirrored && (o.on != d.on || o.active != d.active || o.limit != d.limit || o.base0 != d.base0 || o.base1 != d.base1) then
    s1.sendFlit (.shadowLog v d.on d.limit d.base0 d.base1 d.pf)
  else s1

/-- A log overflows: the first cause stands until the next SYNC with SWAP (R168). -/
def State.dlogOverflow (s : State) (v cause : Nat) : State :=
  let d := s.dlog v
  if d.on && !d.overflow then s.setDlog v { d with overflow := true, cause := cause, cache := [] } else s

/-- The bitmap that records now. -/
def DirtyLog.base (d : DirtyLog) : Nat := if d.active then d.base1 else d.base0

/-- Set the bit of one recorded page in a bitmap of a VF's log by a read, an OR and a write of 8 bytes, with the PF's requester ID and no
PASID (R165, R166): how many bits changed from 0 to 1. None: the page of the bitmap needs a translation first; a bitmap access never parks. -/
def State.bitmapBit (s : State) (v pf base page : Nat) : State × Option Nat :=
  let a8 := alignDown (base + page / 8) 8
  match s.hostPage pf none a8 true with
  | .at m =>
    let port := s.fnPort pf
    let old := leNat (s.hostRead port m 8)
    (s.hostWrite port m (leBytes 8 (old ||| 2 ^ (page % 64))), some (if old.testBit (page % 64) then 0 else 1))
  | _ =>
    let pg := alignDown a8 4096
    (if s.atsPending pf none pg true (.bitmap v) then s else s.atsSend pf none pg true (.bitmap v) 0, none)

/-- Write the bit of one recorded page into the active bitmap; a page that must wait stays in the cache. -/
def State.bitmapWrite (s : State) (v page : Nat) : State :=
  let d := s.dlog v
  let r := s.bitmapBit v d.pf d.base page
  match r.2 with
  | some n => r.1.setDlog v { d with bits := min (d.bits + n) 0xFFFFFFFF, cache := d.cache.erase page }
  | none => r.1

/-- Write the bits of every page of a list. -/
def State.bitmapWrites (s : State) (v : Nat) : List Nat → State
  | [] => s
  | p :: ps => State.bitmapWrites (s.bitmapWrite v p) v ps

/-- Write pages of an interval that has ended into the bitmap it left. -/
def State.pastPages (s : State) (v : Nat) (d : DirtyLog) (p : DirtyPast) : List Nat → State × DirtyPast
  | [] => (s, p)
  | g :: gs =>
    let r := s.bitmapBit v d.pf (if p.active then d.base1 else d.base0) g
    let p1 := match r.2 with
      | some n => { p with bits := min (p.bits + n) 0xFFFFFFFF, cache := p.cache.erase g }
      | none => p
    State.pastPages r.1 v d p1 gs

/-- Write what intervals that have ended still hold; one whose request is gone and that holds nothing is forgotten. -/
def State.pastFlush (s : State) (v : Nat) (d : DirtyLog) : List DirtyPast → State × List DirtyPast
  | [] => (s, [])
  | p :: ps =>
    let r := s.pastPages v d p p.cache
    let t := State.pastFlush r.1 v d ps
    let live := (s.qp p.q).reqs.any fun x => x.rid == p.rid
    (t.1, if r.2.cache.isEmpty && !live then t.2 else r.2 :: t.2)

/-- Write what the dirty cache holds for a VF. -/
def State.dlogFlush (s : State) (v : Nat) : State :=
  let d := s.dlog v
  let r := s.pastFlush v d d.past
  let s1 := if d.past.isEmpty then s else r.1.setDlog v { d with past := r.2 }
  s1.bitmapWrites v (s1.dlog v).cache

/-- A bitmap access was refused or a page waited too long (R168): the oldest interval that still holds pages overflows. -/
def State.bitmapLost (s : State) (v cause : Nat) : State :=
  let d := s.dlog v
  match d.past.find? fun p => !p.cache.isEmpty with
  | some p =>
    let f (x : DirtyPast) : DirtyPast := if x.rid == p.rid then { x with overflow := true, cache := [] } else x
    s.setDlog v { d with past := d.past.map f }
  | none => s.dlogOverflow v cause

/-- Record the page of a host write of a VF (R166). -/
def State.dirtyPage (s : State) (v : Nat) (pasid : Option Nat) (a : Nat) : State :=
  let d := s.dlog v
  if !d.on || d.overflow then s
  else if d.limit * 0x40000000 ≤ a then s.dlogOverflow v 0
  else if pasid.isSome then s.dlogOverflow v 1
  else if d.cache.contains (a / 4096) then s
  else (s.setDlog v { d with cache := d.cache ++ [a / 4096] }).dlogFlush v

/-- Record every page of a host write of a VF. -/
def State.dirtyRange (s : State) (v : Nat) (pasid : Option Nat) : List (Nat × Nat) → State
  | [] => s
  | (a, _) :: ps => State.dirtyRange (s.dirtyPage v pasid a) v pasid ps

/-- A write of a ring into host memory at an IOVA is recorded for its VF. -/
def State.dirtyWrite (s : State) (q a n : Nat) : State :=
  let f := s.qpFn q
  if isLc q || !isVf f then s else s.dirtyRange f (s.ringPasid q) (pagePieces a n)

end Sys2Proof.Machine
end

