-- ==== Sys2Proof/Machine/Queue.lean ====
section
/-!
DEFINITION. Queue.lean: what requests and queue pairs do that many commands share: settling a request, completions and their
order, draining, ERROR, function-level reset, FENCE, the journal hooks of a twin pair.
-/

namespace Sys2Proof.Machine

/-! ### Requests -/

/-- A request of a queue pair. -/
def QpCtx.req? (c : QpCtx) (rid : Nat) : Option Req := c.reqs.find? fun r => r.rid == rid

/-- A request takes a new value. -/
def State.putReq (s : State) (r : Req) : State :=
  s.setQp r.q { s.qp r.q with reqs := (s.qp r.q).reqs.map fun x => if x.rid == r.rid then r else x }

/-- A request carries a network frame (R280 NETWORK). -/
def Req.isNet (r : Req) : Bool :=
  match r.kind with
  | .native => sqeOpc r.sqe == 0x10 || sqeOpc r.sqe == 0x11
  | .vnet => true
  | _ => false

/-- A block request that writes, discards, zeroes or flushes (R280 WRITE). -/
def Req.isWrite (r : Req) : Bool :=
  match r.kind with
  | .native => sqeOpc r.sqe == 0x21 || sqeOpc r.sqe == 0x22 || sqeOpc r.sqe == 0x23
  | .vblk t => t != 0
  | .nvme o => o != 2 && decide (o < 256)
  | .vnet => false

/-- The request's function runs strict (R281). -/
def Req.strict (r : Req) : Bool := getBit r.fncfg 48

/-- CID, or the virtio head id, or the NVMe command identifier. -/
def Req.cid (r : Req) : Nat :=
  match r.blk with
  | some b => b.cid
  | none => sqeCid r.sqe

/-! ### The journal (R280) -/

/-- Send a journal entry about a request, when the pair mirrors and the ring is a function's. -/
def State.jsend (s : State) (r : Req) (kind : Nat) (body : List Nat) : State :=
  if s.mirrored && !isLc r.q then
    { s with
      galv := { s.galv with jseq := s.galv.jseq + 1 }
      out := .journal { q := r.q, jseq := s.galv.jseq, strict := r.strict, network := r.isNet, write := r.isWrite } kind body ::
        s.out }
  else s

/-- JSEQ that the next journal entry of a strict request must be acknowledged by; none when nothing waits (R281). Every entry of a ring that is
being released waits (R293). -/
def State.jwait (s : State) (r : Req) : Option Nat :=
  if s.mirrored && !isLc r.q && (r.strict || s.galv.releasing.contains r.q) then some s.galv.jseq else none

/-- The peer has acknowledged a JSEQ, or no longer mirrors (R290). -/
def State.jdone (s : State) : Option Nat → Bool
  | none => true
  | some j => decide (j < s.galv.jacked) || !s.mirrored

/-! ### FENCE (R89, R239) -/

/-- A request leaves the predecessors of a FENCE; otherwise than OK marks it. -/
def Req.unfence (r : Req) (rid : Nat) (ok : Bool) : Req :=
  if r.preds.contains rid then { r with preds := r.preds.erase rid, predBad := r.predBad || !ok } else r

/-- A request is settled: every FENCE request that waited for it is told. -/
def State.settle (s : State) (rid : Nat) (ok : Bool) : State :=
  { s with qps := s.qps.map fun e => (e.1, { e.2 with reqs := e.2.reqs.map fun r => r.unfence rid ok }) }

/-! ### Commit and release (R216, R237) -/

/-- Block counters of a request completed with OK. -/
def Req.blkCounts (r : Req) : List (Nat × Nat) :=
  match r.kind, r.blk with
  | .native, _ =>
    if sqeOpc r.sqe = 0x20 then [(7, sqeLen r.sqe)] else if sqeOpc r.sqe = 0x21 then [(8, sqeLen r.sqe)] else []
  | .vblk t, some b => if t = 0 then [(7, b.nbytes)] else if t = 1 then [(8, b.nbytes)] else []
  | .nvme o, some b => if o = 2 then [(7, b.nbytes)] else if o = 1 then [(8, b.nbytes)] else []
  | _, _ => []

/-- The account of a request's counts: the host account for a local channel (Table 07-1). -/
def State.reqAcct (s : State) (r : Req) : Nat := if isLc r.q then s.fld R.TAPE_CFG.HOST_ACCT else r.acct

/-- A request's counts are charged at its commit; a function's request sends them in its journal entry (R231). -/
def State.chargeReq (s : State) (r : Req) (ok : Bool) : State :=
  let l := r.cnt ++ if ok then r.blkCounts else []
  if isLc r.q then s.chargeAll (s.reqAcct r) l else s.chargeOwn (s.reqAcct r) l

/-- Transfers of a request. -/
def Xfer.ofReq (x : Xfer) (q rid : Nat) : Bool :=
  match x.purpose with
  | .req q' r' => q' == q && r' == rid
  | .rx q' r' _ _ _ m => q' == q && (r' == rid || m.contains rid)
  | .move _ _ r' _ => x.q == q && r' == rid

/-- What a page wait belongs to. -/
def Waiter.ofReq (w : Waiter) (xids : List Nat) (q rid : Nat) : Bool :=
  match w with
  | .xfer x => xids.contains x
  | .walk q' r' => q' == q && r' == rid
  | _ => false

/-- Drop a request's transfers; page groups sent for them stay outstanding and their responses will be late. -/
def State.dropWork (s : State) (q rid : Nat) : State :=
  let xids := (s.shut.xfers.filter fun x => x.ofReq q rid).map (·.xid)
  { s with shut := { s.shut with
      xfers := s.shut.xfers.filter fun x => !x.ofReq q rid
      ats := s.shut.ats.filter fun a => !a.by_.ofReq xids q rid
      prgs := (s.shut.prgs.filter fun g => g.sent || !g.by_.ofReq xids q rid).map fun g =>
        if g.by_.ofReq xids q rid then { g with late := true } else g } }

/-- The back-end queue of a volume entry. -/
def volBeq (va : W64) : Nat := getBits va 32 8

/-- A back-end queue. -/
def State.beq (s : State) (b : Nat) : Beq := smGet Beq.reset s.qf.beqs b

/-- A back-end queue takes a value. -/
def State.setBeq (s : State) (b : Nat) (x : Beq) : State :=
  { s with qf := { s.qf with beqs := smPut Beq.reset s.qf.beqs b x } }

/-- The work items of a request leave its back-end queue: an outstanding WID is cancelled with a CANCELLED item when `note`, an unwritten
item is dropped (R128). -/
def Beq.cancel (x : Beq) (rid : Nat) (note : Bool) : Beq :=
  let ws := x.works.filter fun w => w.rid == rid
  if note then
    { x with
      works := x.works.filter fun w => w.rid != rid
      cancelled := x.cancelled ++ ws.map (·.wid)
      items := (x.items.filter fun i => i.rid != rid || i.wid.isSome) ++ ws.map fun w =>
        { w.item with op := 0x81, wid := some w.wid, ranges := w.item.ranges.take 3, data := .sink } }
  else { x with items := x.items.filter fun i => i.rid != rid || i.wid.isSome }

/-- Release a request without a completion (R237): its counts are committed, its FENCE followers fail, its work ends. -/
def State.releaseReq (s : State) (r : Req) (note : Bool) : State :=
  let s1 := ((s.jsend r 5 [r.idx]).chargeAll (s.reqAcct r) r.cnt).settle r.rid false
  let s2 := s1.dropWork r.q r.rid
  { s2 with qf := { s2.qf with beqs := s2.qf.beqs.map fun e => (e.1, e.2.cancel r.rid note) } }

/-- Release a list of requests. -/
def State.releaseList (s : State) (note : Bool) : List Req → State
  | [] => s
  | r :: rs => State.releaseList (s.releaseReq r note) note rs

/-- Release every request of a ring that has no posted completion. -/
def State.releaseAll (s : State) (q : Nat) (note : Bool) : State :=
  let s1 := s.releaseList note (s.qp q).reqs
  s1.setQp q { s1.qp q with reqs := [], cpls := [] }

/-! ### Contexts (R84) -/

/-- A fresh context: indices 0, phase 1, CSEQ 0, ENABLE 0; the ring addresses and QW_CFG stay. -/
def QpCtx.fresh (c : QpCtx) : QpCtx :=
  { c with
    sqHead := 0, sqTail := 0, cqHead := 0, cqTail := 0, phase := true, nextCseq := 0, enable := false, chain := 0, expo := [],
    reqs := [], cpls := [], coal := 0, coalOpen := false, errcode := 0, undoneHead := 0, drain := none, contained := false,
    shadowOut := false, availIdx := 0, usedIdx := 0, availWrap := true, usedWrap := true }

/-- The window registers at their reset values (R79). -/
def QpCtx.windowReset (c : QpCtx) : QpCtx :=
  { c with sqBase := 0, cqBase := 0, shadow := 0, cfg := 0, pasid := 0, enable := false, cfgErr := false, rxDrops := 0 }

/-- Whether a live page request holds the ring: a group of one of its accesses, or a parked transfer (R154). -/
def State.hasParked (s : State) (q : Nat) : Bool :=
  (s.shut.xfers.any fun x => x.q == q && (x.st == .parked || x.st == .prgWait)) ||
    s.shut.prgs.any fun g =>
      !g.late && !g.reserved &&
        match g.by_ with
        | .fetch q' => q' == q
        | .cpl q' => q' == q
        | .walk q' _ => q' == q
        | _ => false

/-- ACTIVE and PARKED follow the parked accesses (Table 03-10); containment is left alone. -/
def State.refreshPark (s : State) (q : Nat) : State :=
  let c := s.qp q
  if c.contained then s
  else if c.st = .active && s.hasParked q then s.setQp q { c with st := .parked }
  else if c.st = .parked && !s.hasParked q then s.setQp q { c with st := .active }
  else s

/-- Entries of an incomplete chain go back to the ring (R85). -/
def QpCtx.unchain (c : QpCtx) : QpCtx :=
  { c with sqHead := (c.sqHead + c.sqDepth - c.chain) % c.sqDepth, chain := 0 }

/-- Exposures that will never be fetched are noted for FENCE entries exposed after them (R239). -/
def State.abandon (s : State) (q : Nat) : State :=
  { s with qf := { s.qf with
      abandon := s.qf.abandon ++ (s.qp q).expo.map fun e => (s.qpFn q, e.2, s.qf.stamp) } }

/-- Start a drain, or widen one under way (R85, R87). -/
def State.drainStart (s : State) (q : Nat) (d : Drain) : State :=
  let c := (s.qp q).unchain
  let d' := match c.drain with
    | some e => { fresh := e.fresh || d.fresh, hold := e.hold || d.hold, force := e.force || d.force }
    | none => d
  s.setQp q { c with drain := some d' }

/-- The ring enters QUIESCED at the end of a drain (Table 03-10). -/
def State.quiesced (s : State) (q : Nat) (d : Drain) : State :=
  let s1 := if d.fresh then s.abandon q else s
  let c := s1.qp q
  let c1 := if d.fresh then c.fresh else { c with drain := none, errcode := 0, contained := false }
  s1.setQp q { c1 with st := .quiesced, held := c.held || d.hold, drain := none }

/-- Enter ERROR (R86). After a refused completion write every request without a posted completion is released, and UNDONE_HEAD is the
oldest of them. -/
def State.ringError (s : State) (q code : Nat) (cplRefused : Bool) : State :=
  let c := (s.qp q).unchain
  let undone :=
    if cplRefused then
      match (c.reqs.map fun r => (c.sqHead + c.sqDepth - r.idx) % c.sqDepth).max? with
      | some m => (c.sqHead + c.sqDepth - m) % c.sqDepth
      | none => c.sqHead
    else c.sqHead
  let s1 := s.setQp q { c with st := .error, errcode := code, undoneHead := undone, shadowOut := false }
  let s2 := if cplRefused then s1.releaseAll q false else s1
  { s2 with shut := { s2.shut with
      ats := s2.shut.ats.filter fun a => a.by_ != .fetch q && a.by_ != .cpl q && a.by_ != .shadow q
      prgs := (s2.shut.prgs.filter fun g => g.sent || !(g.by_ == .fetch q || g.by_ == .cpl q)).map fun g =>
        if g.by_ == .fetch q || g.by_ == .cpl q then { g with late := true } else g } }

/-- The ring's page waits end; their groups stay outstanding and will be late. -/
def State.dropRingWaits (s : State) (q : Nat) : State :=
  { s with shut := { s.shut with
      ats := s.shut.ats.filter fun a => a.by_ != .fetch q && a.by_ != .cpl q && a.by_ != .shadow q
      prgs := (s.shut.prgs.filter fun g => g.sent || !(g.by_ == .fetch q || g.by_ == .cpl q)).map fun g =>
        if g.by_ == .fetch q || g.by_ == .cpl q then { g with late := true } else g } }

/-- A function-level reset of one ring (R79): its requests are released, it is QUIESCED with a fresh context and reset window registers,
HELD as it stood, or set where a QP_QUIESCE was draining the ring (log entry 219, DEDUCED). An adopted ring ends (R286). -/
def State.flrRing (s : State) (q : Nat) : State :=
  let s1 := ((s.abandon q).releaseAll q true).dropRingWaits q
  if isAdopted q then s1.setQp q (qpDefault q)
  else
    let c := s1.qp q
    let hold := match c.drain with
      | some d => d.hold
      | none => false
    if c.st = .free then s1 else s1.setQp q { c.fresh.windowReset with st := .quiesced, held := c.held || hold }

/-- Reset every ring of a list. -/
def State.flrRings (s : State) : List Nat → State
  | [] => s
  | q :: qs => State.flrRings (s.flrRing q) qs

/-! ### QP_QUIESCE replies (R82) -/

/-- The named QPs that are not QUIESCED. -/
def State.notDone (s : State) (qps : List Nat) : List Nat := qps.filter fun q => (s.qp q).st != .quiesced || (s.qp q).drain.isSome

/-- Answer every waiting QP_QUIESCE whose QPs are all QUIESCED. -/
def State.quiesceReplies (s : State) : List QuiesceWait → State
  | [] => s
  | w :: ws =>
    let s1 := State.quiesceReplies s ws
    if (s1.notDone w.qps).isEmpty then
      let s2 := { s1 with onf := { s1.onf with quiesce := s1.onf.quiesce.erase w } }
      s2.reply w.req 0x0203 0 (zeros 4)
    else s1

/-- After a ring became QUIESCED. -/
def State.quiesceCheck (s : State) : State := s.quiesceReplies s.onf.quiesce

/-! ### Function-level reset of a function (R79) -/

/-- End dirty logging for every VF whose log a PF runs (R169). -/
def State.dlogEnd (s : State) (pf : Nat) : State :=
  ((s.shut.dlogs.filter fun e => e.2.pf == pf).map (·.1)).foldl (fun (s : State) v => s.setDlog v DirtyLog.off) s

/-- Packets that wait for a function are dropped as NO_QUEUE (Table 06-17). -/
def State.rxFlush (s : State) (f : Nat) : State :=
  let gone := s.selv.rx.filter fun x => x.f == f
  let s1 := { s with selv := { s.selv with rx := s.selv.rx.filter fun x => x.f != f } }
  gone.foldl (fun s x => s.netDrop x.pipe Rsn.NO_QUEUE) s1

/-- The longest run of local indices from `a` that hold QPs, of at most `n`. -/
def State.heldRun (s : State) (f a : Nat) : Nat → Nat
  | 0 => 0
  | n + 1 => if (s.qpAt f a).isSome then State.heldRun s f (a + 1) n + 1 else 0

/-- What a personality latches at its reset (R112, R115, R117, Table 04-4): max_virtqueue_pairs, num_queues or the number of I/O queues. -/
def State.latch (s : State) (f : Nat) : Nat :=
  let p := s.pers f
  if p = 1 then (s.heldRun f 0 513 - 1) / 2
  else if p = 2 then s.heldRun f 0 256
  else if p = 3 then s.heldRun f 0x201 3583
  else 0

/-- Both personalities of a function as its reset leaves them. -/
def State.personaReset (s : State) (f : Nat) : State :=
  let c := s.fn f
  let n := s.latch f
  s.setFn f { c with virtio := { VirtioState.reset with latched := n }, nvme := { NvmeState.reset with ana := c.nvme.ana, latched := n } }

/-- Everything a function-level reset does to one function. -/
def State.flrOne (s : State) (f : Nat) : State :=
  let s1 := (s.rxFlush f).flrRings (s.ringsOf f)
  let c := s1.fn f
  let keep : FnCtx := { FnCtx.reset with numVfs := 0, nvme := { NvmeState.reset with ana := c.nvme.ana } }
  let s2 := s1.setFn f keep
  let s3 := { s2 with shut := { s2.shut with
      atc := s2.shut.atc.filter fun e => e.dev || e.f != f
      ats := s2.shut.ats.filter fun a => a.f != f
      prgs := (s2.shut.prgs.filter fun (g : Prg) => g.f != f || g.sent).map fun (g : Prg) => if g.f == f then { g with late := true } else g } }
  let s4 := if isPf f then (s3.dlogEnd f).setMbx (f - 0x1000) Mailbox.reset else s3.personaReset f
  s4.quiesceCheck

/-- Invalidations that nothing uses any more are completed; the others keep what they wait for (R143). -/
def State.invalSweep (s : State) : State :=
  let inFlight (e : Nat × Nat) : Bool := match s.shut.xfers.find? fun x => x.xid == e.1 with
    | some x => x.flight.any fun st => st.off == e.2
    | none => false
  let now := s.shut.invals.map fun i => { i with stitches := i.stitches.filter inFlight, shadows := i.shadows.filter fun q => (s.qp q).shadowOut }
  let idle (i : Inval) : Bool := i.stitches.isEmpty && i.shadows.isEmpty
  { s with
    shut := { s.shut with invals := now.filter fun i => !idle i }
    out := ((now.filter idle).map fun i => OutEvent.invalidateDone i.f).reverse ++ s.out }

/-- Reset a list of functions. -/
def State.flrMany (s : State) : List Nat → State
  | [] => s
  | f :: fs => State.flrMany (s.flrOne f) fs

/-- The VFs that exist on a port. -/
def State.vfsOn (s : State) (n : Nat) : List Nat :=
  ((s.regs.filter fun e =>
      decide (R.QFAB_FNCFG.off 0 ≤ e.1) && decide (e.1 < R.QFAB_FNCFG.off 0x1000) && getBits e.2 0 1 == 1 &&
        getBits e.2 8 5 == n).map fun e => (e.1 - R.QFAB_FNCFG.off 0) / 8)

/-- A function-level reset: of a PF, also of the VFs that its NumVFs of 0 leaves unreachable (R76). -/
def State.flr (s : State) (f : Nat) : State :=
  (if isPf f then s.flrMany (((s.vfsOn (f - 0x1000)).filter fun v => s.fnReachable v) ++ [f]) else s.flrOne f).invalSweep

/-! ### Exposure of entries (R96, R97, R239) -/

/-- Whether a CQ head is in range: below the depth and not past the tail that the device has posted (R96). -/
def QpCtx.cqHeadOk (c : QpCtx) (h : Nat) : Bool :=
  decide (h < c.cqDepth) && decide ((h + c.cqDepth - c.cqHead) % c.cqDepth ≤ (c.cqTail + c.cqDepth - c.cqHead) % c.cqDepth)

/-- A new SQ tail exposes entries, with the next order stamp. -/
def State.expose (s : State) (q tail : Nat) : State :=
  let c := s.qp q
  let s1 := { s with qf := { s.qf with stamp := s.qf.stamp + 1 } }
  s1.setQp q { c with sqTail := tail, expo := c.expo ++ [(tail, s.qf.stamp)] }

/-- Apply doorbell fields to a ring that runs (ACTIVE or PARKED): each is checked as R96 says. A CQ_HEAD in range is taken even where the SQ_TAIL
beside it puts the ring in ERROR, as R97 takes it there (log entry 218, DEDUCED). -/
def State.ringIndices (s : State) (q : Nat) (tail head : Option Nat) : State :=
  let c := s.qp q
  let badT := match tail with
    | some t => decide (c.sqDepth ≤ t)
    | none => false
  let badH := match head with
    | some h => !c.cqHeadOk h
    | none => false
  if badT || badH then
    let s1 := match head with
      | some h => if badH then s else s.setQp q { c with cqHead := h }
      | none => s
    s1.ringError q E.DOORBELL_RANGE false
  else
    let s1 := match head with
      | some h => s.setQp q { c with cqHead := h }
      | none => s
    match tail with
    | some t => if t = c.sqTail then s1 else s1.expose q t
    | none => s1

/-- Take a doorbell value on a ring in any state (R97). -/
def State.doorbell (s : State) (q : Nat) (d : W64) : State :=
  let c := s.qp q
  if c.contained then s
  else match c.st with
    | .free => s
    | .quiesced =>
      s.setQp q { c with sqTail := (dbTail d).getD c.sqTail, cqHead := (dbHead d).getD c.cqHead }
    | .error =>
      match dbHead d with
      | some h => if c.cqHeadOk h then s.setQp q { c with cqHead := h } else s
      | none => s
    | _ => s.ringIndices q (dbTail d) (dbHead d)

/-! ### Completions (R95) -/

/-- The CQ is full (R88). -/
def QpCtx.cqFull (c : QpCtx) : Bool := (c.cqTail + 1) % c.cqDepth == c.cqHead

/-- TS applies to an entry (Table 03-12). -/
def sqeStamped (e : List Byte) : Bool :=
  let o := sqeOpc e
  sqeTs e && (o == 0 || o == 1 || o == 2 || o == 0x10 || o == 0x20 || o == 0x21 || o == 0x22 || o == 0x23) &&
    (sqeXform e == 0 || xformXts (sqeXform e))

/-- A request ends with a status and a result: its completion joins those that wait (R95). TS applies where Table 03-12 says. -/
def State.finish (s : State) (r : Req) (status result usedLen : Nat) : State :=
  let tsOp := match r.kind with
    | .native => sqeStamped r.sqe
    | _ => false
  let cpl : Cpl :=
    { rid := r.rid, q := r.q, cid := r.cid, status := status, sqhead := r.sqhead, result := result, ts := tsOp,
      irq := (match r.kind with | .native => sqeIrq r.sqe | _ => false), redone := r.redone, idx := r.idx, usedLen := usedLen,
      statusAddr := (match r.kind, r.blk with | .vblk _, some b => some (b.statusAddr, 0) | _, _ => none),
      committed := false, jseq := none }
  let s1 := s.dropWork r.q r.rid
  let c := s1.qp r.q
  (s1.setQp r.q { c with
    reqs := c.reqs.map fun x => if x.rid == r.rid then { r with st := .done } else x
    cpls := c.cpls ++ [cpl] }).refreshPark r.q

end Sys2Proof.Machine
end

