-- ==== Sys2Proof/Machine/Native.lean ====
section
/-!
DEFINITION. Native.lean: fetching submission entries (R83, R93, R239), starting native requests (R89–R92), posting completions
(R95), interrupts (R102, R103) and the queue-pair commands of 03_functions_queues.md that act on rings.
-/

namespace Sys2Proof.Machine

/-! ### Token buckets (R105, R106) -/

/-- Bucket keys: 0 function bytes, 1 function operations (thousandths), 2 guarantee, 3 account bytes, 4 account operations. -/
def bucketKey (kind idx : Nat) : Nat := kind * 65536 + idx

/-- Tokens of a bucket. -/
def State.tokens (s : State) (k : Nat) : Int := smGet 0 s.qf.buckets k

/-- A bucket takes a value. -/
def State.setTokens (s : State) (k : Nat) (v : Int) : State :=
  { s with qf := { s.qf with buckets := smPut 0 s.qf.buckets k v } }

/-- Draw from a bucket whose cap is in force. -/
def State.drawTokens (s : State) (on : Bool) (k n : Nat) : State := if on then s.setTokens k (s.tokens k - n) else s

/-- A bucket holds tokens, or its cap is 0 (R104, R106). -/
def State.hasTokens (s : State) (cap k : Nat) : Bool := cap == 0 || decide (0 < s.tokens k)

/-- The account to which a function is mapped. -/
def State.fnAcct (s : State) (f : Nat) : Nat := s.fld (R.TAPE_FNACCT.ACCOUNT f)

/-- A function's own cap buckets and its account's all hold tokens (R104). -/
def State.capsOpen (s : State) (f : Nat) : Bool :=
  let a := s.fnAcct f
  s.hasTokens (s.fld (R.QFAB_FSCHED1.CAP_B f)) (bucketKey 0 f) && s.hasTokens (s.fld (R.QFAB_FSCHED1.CAP_OPS f)) (bucketKey 1 f) &&
    s.hasTokens (s.fld (R.QFAB_ASCHED.CAP_B a)) (bucketKey 3 a) && s.hasTokens (s.fld (R.QFAB_ASCHED.CAP_OPS a)) (bucketKey 4 a)

/-- One operation is drawn when a request is fetched (R105). -/
def State.drawOp (s : State) (f : Nat) : State :=
  let a := s.fnAcct f
  (s.drawTokens (s.fld (R.QFAB_FSCHED1.CAP_OPS f) != 0) (bucketKey 1 f) 1000).drawTokens
    (s.fld (R.QFAB_ASCHED.CAP_OPS a) != 0) (bucketKey 4 a) 1000

/-- Refill one bucket by `n`, up to its burst. -/
def State.refill (s : State) (k n burst : Nat) : State := s.setTokens k (min (s.tokens k + n) burst)

/-- Byte burst: 0 acts as 64 KiB; operation burst: 0 acts as 64 operations (R106). -/
def byteBurst (v : Nat) : Nat := if v = 0 then 65536 else v * 4096
def opBurst (v : Nat) : Nat := (if v = 0 then 64 else v) * 1000

/-- Refill a function's buckets for 1 µs: 1 MB/s is one byte, 1 kop/s a thousandth of an operation. -/
def State.refillFn (s : State) (f : Nat) : State :=
  let s1 := s.refill (bucketKey 0 f) (s.fld (R.QFAB_FSCHED1.CAP_B f)) (byteBurst (s.fld (R.QFAB_FSCHED1.BBURST f)))
  let s2 := s1.refill (bucketKey 1 f) (s.fld (R.QFAB_FSCHED1.CAP_OPS f)) (opBurst (s.fld (R.QFAB_FSCHED1.OBURST f)))
  s2.refill (bucketKey 2 f) (s.fld (R.QFAB_FSCHED0.GUAR f)) 65536

/-- Refill an account's buckets for 1 µs. -/
def State.refillAcct (s : State) (a : Nat) : State :=
  let s1 := s.refill (bucketKey 3 a) (s.fld (R.QFAB_ASCHED.CAP_B a)) (byteBurst (s.fld (R.QFAB_ASCHED.BBURST a)))
  s1.refill (bucketKey 4 a) (s.fld (R.QFAB_ASCHED.CAP_OPS a)) (opBurst (s.fld (R.QFAB_ASCHED.OBURST a)))

/-- Refill a list of functions. -/
def State.refillFns (s : State) : List Nat → State
  | [] => s
  | f :: fs => State.refillFns (s.refillFn f) fs

/-- Refill a list of accounts. -/
def State.refillAccts (s : State) : List Nat → State
  | [] => s
  | a :: as => State.refillAccts (s.refillAcct a) as

/-- Live registers of an array that differ from reset, as indices. -/
def State.listed (s : State) (base stride count : Nat) : List Nat :=
  ((s.regs.filter fun e => decide (base ≤ e.1) && decide (e.1 < base + stride * count) && (e.1 - base) % stride == 0).map
    fun e => (e.1 - base) / stride)

/-- BUCKET_REFILL (R105): the buckets of every function and account with scheduler state take 1 µs of their rate. -/
def execBucketRefill (s : State) : Res :=
  .next (s.whenUp fun s =>
    let fs := (s.listed (R.QFAB_FSCHED0.off 0) 16 0x1020 ++ s.listed (R.QFAB_FSCHED1.off 0) 16 0x1020).dedup
    (s.refillFns fs).refillAccts (s.listed (R.QFAB_ASCHED.off 0) 8 8192))

/-! ### Fetching (R83, R93) -/

/-- A park of a local channel's access (R149) is held like a page request of its own, with port 1000 + n. -/
def State.parkLc (s : State) (q page : Nat) (w : Bool) (by_ : Waiter) : State :=
  { s with shut := { s.shut with prgs := s.shut.prgs ++
      [{ f := lcNum q, port := 1000 + lcNum q, prgi := 0, sent := true, reserved := false, late := false, pasid := s.ringPasid q,
         page := page, write := w, by_ := by_, tries := 0 }] } }

/-- Something of this waiter is still awaited. -/
def State.waiting (s : State) (w : Waiter) : Bool :=
  (s.shut.ats.any fun a => a.by_ == w) || s.shut.prgs.any fun g => g.by_ == w && !g.late && !g.reserved

/-- What scanning a request's entries came to: complete with its number of entries, its followers' bytes and whether it is too long;
waiting for a doorbell; waiting for a page; parked; refused. -/
inductive ScanRes where
  | done (n : Nat) (inl : List Byte) (long : Bool)
  | more | wait | park
  | fail (status : Nat)
  deriving DecidableEq, Repr

/-- Read one ring entry of `n` bytes at a ring base. -/
def State.ringEntry (s : State) (q base size idx : Nat) : State × AccRes :=
  s.access q (base + size * idx) size false (.fetch q)

/-- Scan the followers of a request from entry `k` on. `h0` is its first entry, `avail` how many entries are exposed from there,
`fixed` the followers that INLINE needs (R93). -/
def State.scanChain (s : State) (q h0 avail : Nat) (fixed : Option Nat) : Nat → Nat → List Byte → State × ScanRes
  | 0, k, acc => (s, .done k acc true)
  | fuel + 1, k, acc =>
    if avail ≤ k then (s, .more)
    else
      let c := s.qp q
      let r := s.ringEntry q c.sqBase.toNat 64 ((h0 + k) % c.sqDepth)
      match r.2 with
      | .at ps =>
        let e := r.1.readPieces q ps
        match fixed with
        | some m => if k + 1 = 1 + m then (r.1, .done (k + 1) (acc ++ e) false) else State.scanChain r.1 q h0 avail fixed fuel (k + 1) (acc ++ e)
        | none => if sqeChain e then State.scanChain r.1 q h0 avail fixed fuel (k + 1) acc else (r.1, .done (k + 1) acc false)
      | .wait => (r.1, .wait)
      | .park => (r.1, .park)
      | .fail st _ _ => (r.1, .fail st)

/-- Whether INLINE's LEN is out of range (R93). -/
def inlineBad (e : List Byte) : Bool := sqeInline e && (!sqeChain e || sqeLenField e == 0 || decide (960 < sqeLenField e))

/-- Scan a whole request from its first entry, already read. -/
def State.scanReq (s : State) (q h0 avail : Nat) (e : List Byte) : State × ScanRes :=
  if sqeInline e then
    if !sqeChain e then (s, .done 1 [] false)
    else
      let m := if inlineBad e then 15 else (sqeLenField e + 63) / 64
      s.scanChain q h0 avail (some m) 15 1 []
  else if sqeChain e then s.scanChain q h0 avail none 15 1 []
  else (s, .done 1 [] false)

/-- The stamp of the exposure that covers the ring's next entry. -/
def QpCtx.stampOf (c : QpCtx) : Nat :=
  match c.expo with
  | e :: _ => e.2
  | [] => 0

/-- Exposures that the ring has passed leave the list. -/
def dropExpo (head : Nat) : List (Nat × Nat) → List (Nat × Nat)
  | [] => []
  | e :: es => if e.1 = head then es else e :: es

/-- Another ring of the function has entries exposed before stamp `st` that it can still fetch. -/
def State.fencePending (s : State) (f q st : Nat) : Bool :=
  (s.ringsOf f).any fun r =>
    let c := s.qp r
    r != q && c.st != .error && c.st != .free && c.expo.any fun e => decide (e.2 < st)

/-- Such entries will never be fetched: their ring is in ERROR, or they were abandoned while this one was exposed (R239). -/
def State.fenceLost (s : State) (f q st : Nat) : Bool :=
  ((s.ringsOf f).any fun r =>
    let c := s.qp r
    r != q && c.st == .error && c.expo.any fun e => decide (e.2 < st)) ||
    s.qf.abandon.any fun a => a.1 == f && decide (a.2.1 < st) && decide (st < a.2.2)

/-- Free places of a back-end queue's work ring (R123): full as in R88. -/
def State.beqRoom (s : State) (b : Nat) : Nat :=
  let d := 2 ^ (s.fld (R.QFAB_BEQ_WRING.DEPTH b) + 1)
  (s.fld (R.QFAB_BEQ_DB.WHEAD b) + 2 * d - s.fld (R.QFAB_BEQ_DB.WTAIL b) - 1) % d

/-- Slots of the work ring that an item takes, its continuation slots among them (R124). -/
def BeqItem.slots (i : BeqItem) : Nat := 1 + (i.ranges.length - 3 + 5) / 6

/-- A work item of the ring waits for space in its work ring: fetching pauses (R126). -/
def State.beqBlocked (s : State) (q : Nat) : Bool :=
  s.qf.beqs.any fun e => e.2.items.any fun i => i.q == q && i.wid.isNone && decide (s.beqRoom e.1 < i.slots)

/-- The ring can fetch: it runs, is not draining, parked by containment or waiting for a page or for a CQ that 64 completions wait for,
no work item of it waits for ring space, and its operation caps hold tokens (R85, R95, R105, R126, R155); a released ring stops at its edge (R293). -/
def State.canFetch (s : State) (q : Nat) : Bool :=
  let c := s.qp q
  (c.st == .active || c.st == .parked) && c.drain.isNone && !c.contained && !c.recon && !s.galv.lent.contains q && !s.galv.releasing.contains q && decide (c.cpls.length < 64) &&
    !s.waiting (.fetch q) && !s.beqBlocked q && (isLc q || s.capsOpen (s.qpFn q))

/-- The SQ index of the first entry that is not part of a whole request. -/
def QpCtx.firstIdx (c : QpCtx) : Nat := (c.sqHead + c.sqDepth - c.chain) % c.sqDepth

/-- The next request of an adopted ring that is executed again: its ring index (Table 09-10). -/
def State.redoNext (s : State) (q : Nat) : Option Nat := (s.galv.redo.find? fun e => e.1 == q).map (·.2)

/-- Put a newly fetched request into the ring, with what its admission epoch fixes (R83), and send ADMIT. A request taken
again after a takeover is marked (R285). -/
def State.admitReq (s : State) (q : Nat) (kind : ReqKind) (idx n sqhead : Nat) (e inl : List Byte) (blk : Option BlkReq)
    (preds : List Nat) (bad : Bool) (volIdx : Nat) : State × Req :=
  let f := s.qpFn q
  let r : Req :=
    { rid := s.qf.nextRid, q := q, kind := kind, idx := idx, nEnt := n, sqhead := sqhead, sqe := e, inl := inl, blk := blk,
      epoch := s.epoch, time := s.now, fncfg := if isLc q then 0 else s.reg (R.QFAB_FNCFG.off f), acct := if isLc q then 0 else s.fnAcct f,
      volA := if isLc q then 0 else s.reg (R.QFAB_BVOLA.off f volIdx), volB := if isLc q then 0 else s.reg (R.QFAB_BVOLB.off f volIdx),
      st := .fetched, preds := preds, predBad := bad, redone := s.galv.redo.contains (q, idx), cnt := [], issueJ := none, mdata := [], walkOff := 0 }
  let s1 : State := { s with qf := { s.qf with nextRid := s.qf.nextRid + 1 }, galv := { s.galv with redo := s.galv.redo.erase (q, idx) } }
  let s2 := s1.setQp q { s1.qp q with reqs := (s1.qp q).reqs ++ [r] }
  let s3 := if isLc q then s2 else s2.drawOp f
  (s3.jsend r 1 [idx, n, r.cid, r.epoch, r.time], r)

/-- Rids of every request of a function's rings that has no posted completion. -/
def State.unsettled (s : State) (f : Nat) : List Nat := (s.ringsOf f).flatMap fun r => (s.qp r).reqs.map (·.rid)

/-- A ring access of the ring itself was refused: ERROR (R86). -/
def State.fetchFailed (s : State) (q st : Nat) : State := s.ringError q st false

/-- The VF that a DIRTY_SYNC names exists on the PF's port. -/
def State.dsVfOk (s : State) (r : Req) : Bool :=
  isVf (dsVf r.sqe) && s.fnExists false (dsVf r.sqe) && s.fnPort (dsVf r.sqe) == s.fnPort (s.qpFn r.q)

/-- The active bitmap changes at the fetch of a DIRTY_SYNC that ends an interval (R167): SYNC with SWAP, or STOP. -/
def State.dirtyFetched (s : State) (r : Req) : State :=
  let v := dsVf r.sqe
  let d := s.dlog v
  let ends := dsAction r.sqe == 2 || (dsAction r.sqe == 0 && (dsFlags r.sqe).testBit 0)
  if sqeOpc r.sqe == 0x30 && !isLc r.q && ends && s.dsVfOk r && d.on then
    s.setDlog v { d with
      active := !d.active, bits := 0, overflow := false, cause := 0, cache := []
      past := d.past ++ [{ q := r.q, rid := r.rid, active := d.active, overflow := d.overflow, bits := d.bits, cache := d.cache }] }
  else s

/-- Fetch the next request of a native ring or local channel. -/
def State.fetchNative (s : State) (q : Nat) : State :=
  let c := s.qp q
  let again := s.redoNext q
  let h0 := again.getD c.firstIdx
  let avail := if again.isSome then c.sqDepth - 1 else (c.sqTail + c.sqDepth - h0) % c.sqDepth
  if again.isNone && (avail = 0 || avail = c.chain) then s
  else
    let r0 := s.ringEntry q c.sqBase.toNat 64 h0
    match r0.2 with
    | .wait => r0.1
    | .park => (r0.1.parkLc q (c.sqBase.toNat + 64 * h0) false (.fetch q)).refreshPark q
    | .fail st _ _ => r0.1.fetchFailed q st
    | .at ps =>
      let e := r0.1.readPieces q ps
      let f := r0.1.qpFn q
      let fence := sqeFence e && !isLc q
      if fence && r0.1.fencePending f q c.stampOf then s
      else
        let r1 := r0.1.scanReq q h0 avail e
        match r1.2 with
        | .wait => r1.1
        | .park => (r1.1.parkLc q (c.sqBase.toNat + 64 * h0) false (.fetch q)).refreshPark q
        | .fail st => r1.1.fetchFailed q st
        | .more => r1.1.setQp q { r1.1.qp q with sqHead := c.sqTail, chain := avail }
        | .done n inl long =>
          let head := (h0 + n) % c.sqDepth
          let s1 := if again.isSome then r1.1 else r1.1.setQp q { r1.1.qp q with sqHead := head, chain := 0, expo := dropExpo head c.expo }
          let bad := fence && s1.fenceLost f q c.stampOf
          let preds := if fence then s1.unsettled f else []
          let vol := sqeVolume e
          let a := s1.admitReq q .native h0 n head e inl none preds bad (if vol < 16 then vol else 0)
          match sqeRefusal (isLc q) c.world (isVf f) e with
          | some code => a.1.finish a.2 code 0 0
          | none =>
            if long then a.1.finish a.2 E.PARAM 0 0
            else if inlineBad e then a.1.finish a.2 E.LEN_OVERRUN 0 0
            else a.1.dirtyFetched a.2

/-! ### Buffers (R91, R92) -/

/-- What walking a buffer came to. -/
inductive WalkRes where
  | segs (l : List (Nat × Nat))
  | wait (off : Nat)
  | park (off page : Nat)
  | fail (status : Nat)
  deriving DecidableEq, Repr

/-- Bytes that segments describe. -/
def segsTotal (l : List (Nat × Nat)) : Nat := (l.map (·.2)).sum

/-- Walk an SGL from `a`: `nd` data and `nc` CHAIN segments so far. A walk that stops says how many bytes it had described. -/
def State.walkSgl (s : State) (q rid : Nat) : Nat → Nat → Nat → Nat → List (Nat × Nat) → State × WalkRes
  | 0, _, _, _, _ => (s, .fail E.SGL_DEPTH)
  | fuel + 1, a, nd, nc, acc =>
    let r := s.access q a 16 false (.walk q rid)
    match r.2 with
    | .wait => (r.1, .wait (segsTotal acc))
    | .park => (r.1, .park (segsTotal acc) a)
    | .fail st _ _ => (r.1, .fail st)
    | .at ps =>
      let g := sglSeg (r.1.readPieces q ps)
      if g.bad || decide (2 < g.ty) then (r.1, .fail E.SGL_FORMAT)
      else if g.ty = 2 then
        if g.slen ≠ 0 || g.addr % 16 ≠ 0 then (r.1, .fail E.SGL_FORMAT)
        else if 16 ≤ nc then (r.1, .fail E.SGL_DEPTH)
        else State.walkSgl r.1 q rid fuel g.addr nd (nc + 1) acc
      else if g.slen = 0 || decide (16777216 < g.slen) then (r.1, .fail E.SGL_FORMAT)
      else if 256 ≤ nd then (r.1, .fail E.SGL_DEPTH)
      else if g.ty = 1 then (r.1, .segs (acc ++ [(g.addr, g.slen)]))
      else State.walkSgl r.1 q rid fuel (a + 16) (nd + 1) nc (acc ++ [(g.addr, g.slen)])

/-- The segments of buffer A (bit 0 of BUFMODE) or B (bit 1) of a native request. -/
def State.bufWalk (s : State) (r : Req) (b : Bool) : State × WalkRes :=
  let a := if b then sqeAddr1 r.sqe else sqeAddr0 r.sqe
  if (sqeBufmode r.sqe).testBit (if b then 1 else 0) then
    if a % 16 ≠ 0 then (s, .fail E.SGL_FORMAT) else s.walkSgl r.q r.rid 274 a 0 0 []
  else (s, .segs [(a, sqeLen r.sqe)])

/-- The request writes host memory (of a local channel, memory that it reaches like a host's): its SGL is walked before the first byte (R92). -/
def Req.toHostMem (r : Req) : Bool :=
  let o := sqeOpc r.sqe
  o == 1 || o == 2 || o == 0x11 || o == 0x20

/-- A request whose buffer walk did not finish: it waits, parks, or completes. A walk that runs beside the reads parks at the offset of the first
byte that it had not reached (Table 05-9). -/
def State.walkStop (s : State) (r : Req) (w : WalkRes) : State :=
  match w with
  | .fail st => s.finish r st 0 0
  | .park off pg =>
    let o := if r.toHostMem then 0 else off
    (((s.setFld R.SHUT_FLT_INFO.PARK_OFFSET o).putReq { r with st := .walking, walkOff := o }).parkLc r.q pg false (.walk r.q r.rid)).refreshPark r.q
  | .wait off => s.putReq { r with st := .walking, walkOff := if r.toHostMem then 0 else off }
  | .segs _ => s.putReq { r with st := .walking }

/-- Walk a buffer and hand its segments on; LEN above their sum completes with E_LEN_OVERRUN (R92). -/
def State.withBuf (s : State) (r : Req) (b : Bool) (k : State → List (Nat × Nat) → State) : State :=
  let w := s.bufWalk r b
  match w.2 with
  | .segs l => if segsLen l < sqeLen r.sqe then w.1.finish r E.LEN_OVERRUN 0 0 else k w.1 (segsSlice l 0 (sqeLen r.sqe))
  | x => w.1.walkStop r x

/-! ### Starting a request -/

/-- Start a native request of opcode `opc`: it must be fetched, and every predecessor of its FENCE settled; a FENCE with a badly settled
predecessor completes with E_FENCE_ABORT (R89). -/
def State.start (s : State) (q rid opc : Nat) (k : State → Req → State) : State :=
  s.whenRing q fun s =>
    let c := s.qp q
    match c.req? rid with
    | none => s
    | some r =>
      let ready := r.st == .fetched || (r.st == .walking && !s.waiting (.walk q rid))
      if !ready || c.contained || r.kind != .native || sqeOpc r.sqe != opc || !r.preds.isEmpty then s
      else if r.predBad then s.finish r E.FENCE_ABORT 0 0
      else k (s.putReq { r with st := .fetched }) { r with st := .fetched }

/-- The panel whose engines carry a ring's transfers (R133). -/
def State.ringPanel (s : State) (q : Nat) : Nat := if isLc q then lcNum q / 64 else s.fnPort (s.qpFn q) / 8

/-- The channel limit of a function in a panel; 0 and values above 1,024 act as 1,024 (Table 05-13). -/
def State.chMax (s : State) : Nat :=
  let v := s.fld R.SHUT_CFG.CH_FN_MAX
  if v = 0 || decide (1024 < v) then 1024 else v

/-- A channel is free for a ring's owner (R135). -/
def State.channelFree (s : State) (q : Nat) : Bool :=
  let p := s.ringPanel q
  let f := if isLc q then lcNum q else s.qpFn q
  decide ((s.shut.xfers.filter fun x => x.panel == p).length < 1024) &&
    (isLc q || decide ((s.shut.xfers.filter fun x => x.panel == p && !x.lc && x.f == f).length < s.chMax))

/-- Put a transfer of a ring into a channel (R134). -/
def State.addXfer (s : State) (q : Nat) (p : XfFor) (acct : Nat) (src dst : Side) (src2 : Option Side) (len xform xparam keyslot : Nat)
    (tail : Option Nat) (toHost : Bool) : State :=
  let x : Xfer :=
    { xid := s.shut.nextXid, purpose := p, f := if isLc q then lcNum q else s.qpFn q, lc := isLc q, q := q, panel := s.ringPanel q,
      port := if isLc q then 32 + lcNum q / 64 else s.fnPort (s.qpFn q), cls := s.qpClass q, pasid := s.ringPasid q, acct := acct,
      src := src, dst := dst, src2 := src2, len := len, next := 0, delivered := 0, counted := 0, parkOff := 0, flight := [], st := .ready, status := 0,
      xform := xform, xparam := xparam, keyslot := keyslot,
      crc := if xform = 0x11 then xparam % 2 ^ 32 else if xform = 0x21 then xparam else 0, diff := none, buf := [], pieces := [],
      tail := tail, moff := 0, toHost := toHost }
  { s with shut := { s.shut with nextXid := s.shut.nextXid + 1, xfers := s.shut.xfers ++ [x] } }

/-- A side of a transfer in a ring's own address space: host memory, or device memory for a local channel. -/
def ringSide (q : Nat) (l : List (Nat × Nat)) : Side := if isLc q then .dev l else .host l

/-- Whether an AES-XTS request may use its key slot: the status that refuses it (R162). -/
def State.keyRefusal (s : State) (q : Nat) (e : List Byte) : Option Nat :=
  if !xformXts (sqeXform e) then none
  else if sqeLen e % xtsUnit (sqeXform e) ≠ 0 then some E.PARAM
  else
    let k := smGet KeySlot.empty s.shut.keys (sqeKeyslot e)
    if decide (4096 ≤ sqeKeyslot e) || k.key.isEmpty then some E.PARAM
    else if k.owner = (if isLc q then 0x1100 + lcNum q else s.qpFn q) then none
    else some E.PRIVILEGE

/-- The source of a request's buffer A: INLINE bytes, or its segments. -/
def State.withSrc (s : State) (r : Req) (k : State → Side → State) : State :=
  if sqeInline r.sqe then k s (.bytes (r.inl.take (sqeLen r.sqe)))
  else s.withBuf r false fun s l => k s (ringSide r.q l)

/-- A request's transfer starts when a channel is free; until then the request waits. -/
def State.launch (s : State) (r : Req) (src dst : Side) (src2 : Option Side) (tail : Option Nat) (toHost : Bool) : State :=
  if s.channelFree r.q then
    (s.putReq { r with st := .running }).addXfer r.q (.req r.q r.rid) r.acct src dst src2 (sqeLen r.sqe) (sqeXform r.sqe)
      (sqeXparam r.sqe) (sqeKeyslot r.sqe) tail toHost
  else s

/-- MOVE of a fetched request. -/
def State.startMove (s : State) (r : Req) : State :=
  let x := sqeXform r.sqe
  let raddr := if x = 0x20 ∨ x = 0x21 then some (sqeWord40 r.sqe) else none
  match s.keyRefusal r.q r.sqe with
  | some c => s.finish r c 0 0
  | none =>
    if (raddr.getD 0) % 8 ≠ 0 then s.finish r E.PARAM 0 0
    else s.withSrc r fun s src => s.withBuf r true fun s dst => s.launch r src (ringSide r.q dst) none raddr true

/-- FILL of a fetched request. -/
def State.startFill (s : State) (r : Req) : State :=
  s.withBuf r true fun s dst => s.launch r (.pattern ((r.sqe.drop 40).take 8)) (ringSide r.q dst) none none true

/-- COMPARE of a fetched request. -/
def State.startCompare (s : State) (r : Req) : State :=
  s.withSrc r fun s a => s.withBuf r true fun s b => s.launch r a .sink (some (ringSide r.q b)) none false

/-- No earlier network request of the ring is unfinished (R155), and no trailing frame of the peer's (R293). -/
def State.netTurn (s : State) (r : Req) : Bool :=
  !s.galv.netHold.contains r.q && !(s.qp r.q).reqs.any fun x => decide (x.rid < r.rid) && x.isNet && (x.st == .fetched || x.st == .walking || x.st == .running)

/-- NET_TX of a fetched request: its LEN is 14 B to FRAME_MAX (R198). -/
def State.startNetTx (s : State) (r : Req) : State :=
  if sqeLen r.sqe < 14 then s.finish r E.PARAM 0 0
  else if s.fld (R.SELV_VPORTA.FRAME_MAX (s.qpFn r.q)) < sqeLen r.sqe then s.finish r E.PARAM_RANGE 0 0
  else if s.netTurn r then s.withSrc r fun s a => s.launch r a .sink none none false
  else s

/-- NET_RX_POST of a fetched request: its buffer waits for a frame; the buffer is walked now, as every request that writes host memory is
(R92). The segments are kept in `blk`. -/
def State.startNetRx (s : State) (r : Req) : State :=
  s.withBuf r false fun s l =>
    s.putReq { r with
      st := .rxPosted
      blk := some { cid := sqeCid r.sqe, idx := r.idx, nsid := 0, lba := 0, nbytes := sqeLen r.sqe, segs := l, ranges := [],
                    statusAddr := 0, fua := false, unmap := false, slots := 1 } }

/-- NOP (Table 03-13). -/
def execNop (q : QpId) (rid : Nat) (s : State) : Res := .next (s.start q rid 0 fun s r => s.finish r 0 0 0)
/-- MOVE (Table 03-13, R92, R158–R162). -/
def execMove (q : QpId) (rid : Nat) (s : State) : Res := .next (s.start q rid 1 State.startMove)
/-- FILL (Table 03-13). -/
def execFill (q : QpId) (rid : Nat) (s : State) : Res := .next (s.start q rid 2 State.startFill)
/-- COMPARE (Table 03-13). -/
def execCompare (q : QpId) (rid : Nat) (s : State) : Res := .next (s.start q rid 3 State.startCompare)
/-- NET_TX (Table 03-13, R155). -/
def execNetTx (q : QpId) (rid : Nat) (s : State) : Res := .next (s.start q rid 0x10 State.startNetTx)
/-- NET_RX_POST (Table 03-13, R94). -/
def execNetRxPost (q : QpId) (rid : Nat) (s : State) : Res := .next (s.start q rid 0x11 State.startNetRx)

end Sys2Proof.Machine
end

