-- ==== Sys2Proof/Machine/Complete.lean ====
section
/-!
DEFINITION. Complete.lean: posting completions in CSEQ order (R95, R233–R238), their interrupts (R102), drains (R85), doorbells and the
queue window (R96–R100), DIRTY_SYNC (R164–R169).
-/

namespace Sys2Proof.Machine

/-! ### Interrupts of a completion queue (R102, R152) -/

/-- INT_EN, COAL_COUNT and COAL_TIME of a ring: QW_CFG, or LC_CFG. -/
def QpCtx.intEn (c : QpCtx) (lc : Bool) : Bool := if lc then getBit c.cfg 14 else getBit c.cfg 19
def QpCtx.coalCount (c : QpCtx) (lc : Bool) : Nat := if lc then getBits c.cfg 24 8 else getBits c.cfg 20 8
def QpCtx.coalTime (c : QpCtx) (lc : Bool) : Nat := if lc then getBits c.cfg 32 10 else getBits c.cfg 28 10

/-- Signal a ring's vector, or a local channel's interrupt identity. The signal resets count and time. -/
def State.ringSignal (s : State) (q : Nat) : State :=
  let c := s.qp q
  let s1 := s.setQp q { c with coal := 0, coalOpen := false }
  if isLc q then s1.msi (getBits c.cfg 8 6) (getBits c.cfg 16 8) else s1.ringMsix q (getBits c.cfg 8 11)

/-- A completion was posted: count it, and signal on COAL_COUNT or an IRQ completion (R102). -/
def State.ringPosted (s : State) (q : Nat) (irq : Bool) : State :=
  let c := s.qp q
  if !c.intEn (isLc q) then s
  else
    let s1 := s.setQp q { c with coal := c.coal + 1, coalOpen := true }
    if irq || decide (max 1 (c.coalCount (isLc q)) ≤ c.coal + 1) then s1.ringSignal q else s1

/-- COAL_TIME_EXPIRY (R102): COAL_TIME µs after the first unsignalled completion. -/
def execCoalTimeExpiry (q : QpId) (s : State) : Res :=
  .next (s.whenRing q fun s =>
    let c := s.qp q
    if c.coalOpen && c.intEn (isLc q) && c.coalTime (isLc q) != 0 && !c.contained then s.ringSignal q else s)

/-! ### Completion entries -/

/-- RESULT of a completion: device time where TS asks for it. -/
def State.cplResult (s : State) (c : Cpl) : Nat := if c.ts then s.now % 2 ^ 32 else c.result

/-- A native completion entry (Table 03-15). -/
def nativeCqe (c : Cpl) (result cseq : Nat) (phase : Bool) : List Byte :=
  leBytes 2 c.cid ++ leBytes 2 c.status ++ leBytes 2 c.sqhead ++
    leBytes 2 (b2n c.ts + b2n c.redone * 2 + b2n phase * 2 ^ 15) ++ leBytes 4 result ++ leBytes 4 cseq

/-- NVMe status of a device status (Table 04-7), as SCT × 256 + SC; a status of 0x10000 and above is an NVMe status already. -/
def nvmeStatus (st : Nat) : Nat :=
  if 0x10000 ≤ st then st - 0x10000
  else if st = 0 then 0
  else if st = E.PARAM_RANGE then 0x80
  else if st = E.BAD_OPCODE then 0x01
  else if st = E.POISON then 0x281
  else if st / 256 = 4 then 0x04
  else 0x06

/-- An NVMe completion entry. -/
def nvmeCqe (c : Cpl) (qid : Nat) (phase : Bool) : List Byte :=
  leBytes 4 c.result ++ zeros 4 ++ leBytes 2 c.sqhead ++ leBytes 2 qid ++ leBytes 2 c.cid ++
    leBytes 2 (nvmeStatus c.status * 2 + b2n phase)

/-- virtio-blk status byte of a device status (Table 04-7). -/
def vblkStatus (st : Nat) : Nat := if st = 0 then 0 else if st = E.BAD_OPCODE then 2 else 1

/-- NVMe queue ID of a ring: its local index less 0x200 (Table 04-1). -/
def State.ringQid (s : State) (q : Nat) : Nat := s.fld (R.QFAB_QOWN.LOCAL (qpNum q)) - 0x200

/-- Write pieces of a completion and record them as dirty. -/
def State.cplWrite (s : State) (q a : Nat) (ps : List (Nat × Nat)) (b : List Byte) : State :=
  (s.writePieces q ps b).dirtyWrite q a b.length

/-- The completion leaves the waiting list, its request leaves the ring, FENCE followers are told, the CQ index moves. -/
def State.posted (s : State) (q : Nat) (c : Cpl) (r : Req) : State :=
  let x := s.qp q
  let x1 : QpCtx :=
    match r.kind with
    | .vblk _ => { x with usedIdx := x.usedIdx }
    | .vnet => x
    | _ =>
      let t := (x.cqTail + 1) % x.cqDepth
      { x with cqTail := t, phase := if t = 0 then !x.phase else x.phase, nextCseq := (x.nextCseq + 1) % 2 ^ 32 }
  (s.setQp q { x1 with
    cpls := x1.cpls.filter fun y => y.rid != c.rid
    reqs := x1.reqs.filter fun y => y.rid != c.rid }).settle c.rid (c.status == 0)

/-- A virtio function runs packed rings. -/
def State.packed (s : State) (q : Nat) : Bool := getBit (s.fn (s.ringKey q)).virtio.feats 34

/-- Post to a CQ in memory: native, local channel or NVMe. -/
def State.postCq (s : State) (q : Nat) (c : Cpl) (r : Req) (b : List Byte) : State :=
  let x := s.qp q
  let a := x.cqBase.toNat + 16 * x.cqTail
  let w := s.access q a 16 true (.cpl q)
  match w.2 with
  | .wait => w.1
  | .park => (w.1.parkLc q a true (.cpl q)).refreshPark q
  | .fail st _ _ => w.1.ringError q st true
  | .at ps => ((w.1.cplWrite q a ps b).posted q c r).ringPosted q c.irq

/-- Parts of a virtio completion in order (Table 08-2): status byte, used element or descriptor, and what makes it visible. -/
def State.virtioParts (s : State) (q : Nat) (c : Cpl) : List (Nat × List Byte) :=
  let x := s.qp q
  let st := match c.statusAddr with
    | some e => [(e.1, leBytes 1 (vblkStatus c.status))]
    | none => []
  if s.packed q then
    let a := x.sqBase.toNat + 16 * x.usedIdx
    let fl := if x.usedWrap then 0x8080 else 0
    st ++ [(a + 8, leBytes 4 c.usedLen ++ leBytes 2 c.cid), (a + 14, leBytes 2 fl)]
  else
    let a := x.cqBase.toNat + 4 + 8 * (x.usedIdx % x.sqDepth)
    st ++ [(a, leBytes 4 c.cid ++ leBytes 4 c.usedLen), (x.cqBase.toNat + 2, leBytes 2 ((x.usedIdx + 1) % 65536))]


/-- Reach every part of a completion before any is written. -/
def State.reachParts (s : State) (q : Nat) : List (Nat × List Byte) → List (Nat × List (Nat × Nat) × List Byte) → State × Option (List (Nat × List (Nat × Nat) × List Byte)) × Option Nat
  | [], acc => (s, some acc, none)
  | (a, b) :: ps, acc =>
    let w := s.access q a b.length true (.cpl q)
    match w.2 with
    | .at l => State.reachParts w.1 q ps (acc ++ [(a, l, b)])
    | .fail st _ _ => (w.1, none, some st)
    | _ => (w.1, none, none)

/-- Write parts in order. -/
def State.writeParts (s : State) (q : Nat) : List (Nat × List (Nat × Nat) × List Byte) → State
  | [] => s
  | (a, l, b) :: ps => State.writeParts (s.cplWrite q a l b) q ps

/-- Read `n` bytes of a virtqueue's driver area, where they lie translated; such a read never parks. -/
def State.driverArea (s : State) (q a n : Nat) : State × Option (List Byte) :=
  let r := s.access q ((s.qp q).shadow.toNat + a) n false (.shadow q)
  match r.2 with
  | .at ps => (r.1, some (r.1.readPieces q ps))
  | _ => (r.1, none)

/-- An index that moves from `old` to `new` passes the event index `ev` (16-bit arithmetic). -/
def eventPassed (ev old new : Nat) : Bool :=
  decide ((new + 65536 * 2 - ev - 1) % 65536 < (new + 65536 - old) % 65536)

/-- Whether the driver wants to hear of used entries `old` to `new` of a virtqueue (virtio 1.2, PRESUMED in log entry 114): the flags of the
driver area, or its event index where RING_EVENT_IDX was negotiated. An unreadable driver area asks for the notification. -/
def State.usedWanted (s : State) (q old new : Nat) : State × Bool :=
  let c := s.qp q
  let ev := getBit (s.fn (s.ringKey q)).virtio.feats 29
  if s.packed q then
    let r := s.driverArea q 0 4
    match r.2 with
    | none => (r.1, true)
    | some b =>
      let fl := leAt b 2 2 % 4
      let off := leAt b 0 2 % 32768
      let wrap := decide (32768 ≤ leAt b 0 2)
      let pos := if wrap == c.usedWrap then off else off + 65536 - c.sqDepth
      (r.1, if fl = 1 then false else if ev && fl == 2 then eventPassed (pos % 65536) old new else true)
  else if ev then
    let r := s.driverArea q (4 + 2 * c.sqDepth) 2
    (r.1, match r.2 with
      | none => true
      | some b => eventPassed (leAt b 0 2) old new)
  else
    let r := s.driverArea q 0 2
    (r.1, match r.2 with
      | none => true
      | some b => !(leAt b 0 2).testBit 0)

/-- Post to a virtio used ring. -/
def State.postVirtio (s : State) (q : Nat) (c : Cpl) (r : Req) : State :=
  let w := s.reachParts q (s.virtioParts q c) []
  match w.2 with
  | (some parts, _) =>
    let s1 := (w.1.writeParts q parts).posted q c r
    let x := s1.qp q
    let pos := x.usedIdx + r.nEnt
    let x1 := if s.packed q then
        (if x.sqDepth ≤ pos then { x with usedIdx := pos - x.sqDepth, usedWrap := !x.usedWrap } else { x with usedIdx := pos })
      else { x with usedIdx := (x.usedIdx + 1) % 65536 }
    let n := (s1.setQp q x1).usedWanted q (if s.packed q && x1.usedWrap != x.usedWrap then x.usedIdx + 65536 - x.sqDepth else x.usedIdx) x1.usedIdx
    let u := s.fld (R.QFAB_QOWN.LOCAL (qpNum q))
    if n.2 then n.1.ringMsix q (smGet 65535 (s.fn (s.ringKey q)).virtio.qvec u) else n.1
  | (none, some st) => w.1.ringError q st true
  | (none, none) => w.1

/-- COUNTS entries, three pairs each (Table 09-8). -/
def State.jcounts (s : State) (r : Req) : Nat → List (Nat × Nat) → State
  | 0, _ => s
  | n + 1, l => if l.isEmpty then s else State.jcounts (s.jsend r 4 ((l.take 3).flatMap fun e => [e.1, e.2])) r n (l.drop 3)

/-- The journal's COMMIT with its COUNTS (Table 09-8); strict work then waits for its acknowledgement. -/
def State.commitCpl (s : State) (q : Nat) (c : Cpl) (r : Req) : State :=
  if c.committed then s
  else
    let ok := c.status == 0
    let counts := r.cnt ++ if ok then r.blkCounts else []
    let w := s.jwait r
    let s1 := s.jsend r 3 [r.idx, (match r.kind with | .vblk _ => (s.qp q).usedIdx | .vnet => (s.qp q).usedIdx | _ => (s.qp q).nextCseq), c.status, (match r.kind with | .vblk _ => c.usedLen | .vnet => c.usedLen | _ => s.cplResult c), c.sqhead, s.reqAcct r, (counts.length + 2) / 3]
    let s2 := s1.jcounts r counts.length counts
    let s3 := s2.chargeReq r ok
    s3.setQp q { s3.qp q with cpls := (s3.qp q).cpls.map fun y => if y.rid == c.rid then { y with committed := true, jseq := w } else y }

/-- The waiting completion of a rid. -/
def QpCtx.cpl? (c : QpCtx) (rid : Nat) : Option Cpl := c.cpls.find? fun y => y.rid == rid

/-- A trailing request of a released ring has sent its COMMIT: the adopting twin posts its completion (R293). -/
def State.trailed (s : State) (q : Nat) (c : Cpl) : State :=
  let x := s.qp q
  (s.setQp q { x with
    cpls := x.cpls.filter fun y => y.rid != c.rid
    reqs := x.reqs.filter fun y => y.rid != c.rid }).settle c.rid (c.status == 0)

/-- Post the oldest waiting completion of a ring (R95). -/
def State.postNext (s : State) (q : Nat) : State :=
  let x := s.qp q
  match x.cpls with
  | [] => s
  | c :: _ =>
    match x.req? c.rid with
    | none => s
    | some r =>
      let virtio := match r.kind with
        | .vblk _ => true
        | .vnet => true
        | _ => false
      if x.contained || x.recon || x.st == .free || x.st == .quiesced || s.waiting (.cpl q) || (!virtio && x.cqFull) then s
      else
        let s1 := s.commitCpl q c r
        match (s1.qp q).cpl? c.rid with
        | none => s1
        | some c1 =>
          if !s1.jdone c1.jseq then s1
          else if s1.galv.releasing.contains q then s1.trailed q c1
          else match r.kind with
            | .vblk _ => s1.postVirtio q c1 r
            | .vnet => s1.postVirtio q c1 r
            | .nvme _ => s1.postCq q c1 r (nvmeCqe c1 (s1.ringQid q) (s1.qp q).phase)
            | .native => s1.postCq q c1 r (nativeCqe c1 (s1.cplResult c1) (s1.qp q).nextCseq (s1.qp q).phase)

/-- COMPLETION_POST (R95, R233, R234). -/
def execCompletionPost (q : QpId) (s : State) : Res := .next (s.whenRing q fun s => s.postNext q)

/-- SQ_ENTRY_FETCH (R83, R93) of a native ring or local channel; a virtio-net ring's fetch is in VirtioNet.lean. -/
def State.fetchRing (s : State) (q : Nat) : State := if s.canFetch q then s.fetchNative q else s

/-- Unmask a vector: a message held in the PBA is sent (R103). -/
def State.unmask (s : State) (f vec : Nat) : State :=
  let c := s.fn f
  let e := smGet MsixEnt.reset c.msix vec
  let send := e.pend && s.fnReachable f && c.msixEn
  let s1 := s.setFn f { c with msix := smPut MsixEnt.reset c.msix vec { e with masked := false, pend := e.pend && !send } }
  if send then s1.emit (.msix f vec e.addr e.data) else s1

/-- MSIX_VECTOR_UNMASK (R103). An entry at or above MSIX_COUNT takes no write (R101). -/
def execMsixVectorUnmask (f vec : Nat) (s : State) : Res :=
  .next (s.whenFn f fun s => if vec < s.msixCount f && s.fnReachable f then s.unmask f vec else s)

/-! ### Doorbells (R97) -/

/-- The value of a doorbell write of 8 or 4 bytes at its first byte; any other write has none. -/
def dbValue (off len : Nat) (data : W64) : Option W64 :=
  if off % 8 ≠ 0 then none
  else if len = 8 then some data
  else if len = 4 then some (data &&& 0xFFFFFFFF)
  else none

/-- The ring that a doorbell of a function's local index reaches: its own, or the ring the peer serves for it. -/
def State.ringDoorbell (s : State) (f loc : Nat) (d : W64) : State :=
  match s.qpAt f loc with
  | none => s.strayDb f
  | some q =>
    if s.galv.lent.contains q then s.sendFlit (.doorbell f loc d)
    else s.doorbell q d

/-- DOORBELL_WRITE (R96, R97): a host write of `len` bytes at BAR0 offset `off` below 0x8000 of a native function. -/
def execDoorbellWrite (f off len : Nat) (data : W64) (s : State) : Res :=
  .next (s.whenFn f fun s =>
    if !s.fnReachable f || decide (0x8000 ≤ off) || s.pers f != 0 then s
    else match dbValue off len data with
      | none => s
      | some d => s.ringDoorbell f (off / 8) d)

/-! ### Shadow doorbells (R98, R99) -/

/-- SHADOW_POLL (R99): a scheduled read of the shadow of an ACTIVE or PARKED ring in poll mode, or of an adopted ring (R130). A miss asks for
the page and reads next time; a shadow read never parks. Of an adopted split virtqueue the avail index is read at its next fetch. -/
def execShadowPoll (q : QpId) (s : State) : Res :=
  .next (s.whenRing q fun s =>
    let c := s.qp q
    let p := s.pers (s.qpFn q)
    if !isLc q && (p == 1 || p == 2) then (if c.adopted && !c.recon && !s.packed q then s.setQp q { c with chain := 1 } else s)
    else if isLc q || !(c.st == .active || c.st == .parked) || c.contained || c.recon || c.shadowOut || (getBits c.cfg 38 10 == 0 && !c.adopted) then s
    else
      let w := s.access q c.shadow.toNat 8 false (.shadow q)
      match w.2 with
      | .at _ => (w.1.setQp q { w.1.qp q with shadowOut := true }).emit (.shadowRead q)
      | _ => w.1)

/-- SHADOW_READ_RESULT (R98): the value an outstanding shadow read returned, checked as a doorbell is, its NO_SQ and NO_CQ bits ignored; under
NVMe the words are the SQ tail and the CQ head of the shadow doorbell buffer (R122). A failed read changes nothing. -/
def execShadowReadResult (q : QpId) (res : ShadowRes) (s : State) : Res :=
  .next (s.whenRing q fun s =>
    let c := s.qp q
    if !c.shadowOut then s
    else
      let s1 := (s.setQp q { c with shadowOut := false }).invalSweep
      match res with
      | .failed => s1
      | .value w =>
        let head := if s.pers (s.qpFn q) = 3 then getBits w 32 16 else getBits w 16 16
        if c.st == .active || c.st == .parked then s1.ringIndices q (some (getBits w 0 16)) (some head) else s1)

/-! ### The queue window (R100) -/

/-- The checks of R100 for a function's ring. -/
def State.enableOk (s : State) (q : Nat) : Bool :=
  let c := s.qp q
  if isLc q then
    decide (c.sqBase.toNat % 4096 = 0) && decide (c.cqBase.toNat % 4096 = 0) && !(getBit c.cfg 14 && getBits c.cfg 16 8 == 0) &&
      decide (c.sqTail < c.sqDepth) && c.cqHeadOk c.cqHead
  else
    decide (c.sqBase.toNat % 4096 = 0) && decide (c.cqBase.toNat % 4096 = 0) && c.shadow != 0 && decide (c.shadow.toNat % 8 = 0) &&
      (decide (getBits c.cfg 8 11 < s.msixCount (s.qpFn q)) || !getBit c.cfg 19) && decide (c.sqTail < c.sqDepth) &&
      c.cqHeadOk c.cqHead

/-- The ring starts: entries exposed by the latched tail are exposed now. -/
def State.activate (s : State) (q : Nat) : State :=
  let c := s.qp q
  let s1 := s.setQp q { c with st := .active, enable := true }
  if c.sqTail = c.sqHead then s1 else s1.expose q c.sqTail

/-- ENABLE written 1 on a ring. While HELD it only reads 1 (R87). -/
def State.ringEnable (s : State) (q : Nat) : State :=
  let c := s.qp q
  if c.st != .quiesced || c.drain.isSome then (if c.st == .quiesced then s.setQp q { c with enable := true } else s)
  else if !s.enableOk q then s.setQp q { c with enable := false, cfgErr := true }
  else if c.held || c.sessHeld then s.setQp q { c with enable := true }
  else s.activate q

/-- ENABLE written 0 on a ring (Table 03-10). -/
def State.ringDisable (s : State) (q : Nat) : State :=
  let c := s.qp q
  let s1 := s.setQp q { c with enable := false }
  if c.contained then
    let s2 := (s1.releaseAll q false).dropRingWaits q
    (s2.quiesced q { fresh := true, hold := false, force := false }).quiesceCheck
  else match c.st with
    | .active => s1.drainStart q { fresh := true, hold := false, force := false }
    | .parked => s1.drainStart q { fresh := true, hold := false, force := false }
    | .error => s1.drainStart q { fresh := true, hold := false, force := false }
    | _ => s1

/-- A local index of a function whose ring this twin serves. -/
def State.windowQp (s : State) (f loc : Nat) : Option Nat := if s.pers f = 0 then s.qpAt f loc else none

/-- QP_ENABLE (R100): ENABLE written 1 in a function's queue window. -/
def execQpEnable (f loc : Nat) (s : State) : Res :=
  .next (s.whenFn f fun s =>
    if !s.fnReachable f then s
    else match s.windowQp f loc with
      | none => s
      | some q => s.ringEnable q)

/-- QP_DISABLE (Table 03-10): ENABLE written 0. -/
def execQpDisable (f loc : Nat) (s : State) : Res :=
  .next (s.whenFn f fun s =>
    if !s.fnReachable f then s
    else match s.windowQp f loc with
      | none => s
      | some q => s.ringDisable q)

/-- A window register takes a value, its reserved bits 0. -/
def QpCtx.setWindow (c : QpCtx) (reg : QwReg) (d : W64) : QpCtx :=
  match reg with
  | .sqBase => { c with sqBase := d }
  | .cqBase => { c with cqBase := d }
  | .shadow => { c with shadow := d }
  | .cfg => { c with cfg := d &&& maskOf 0 28 ||| (d &&& maskOf 28 21) }
  | .pasid => { c with pasid := d &&& maskOf 0 21 }

/-- QUEUE_WINDOW_WRITE (R100): taken only while QUIESCED, else CFG_ERR. -/
def execQueueWindowWrite (f loc : Nat) (reg : QwReg) (data : W64) (s : State) : Res :=
  .next (s.whenFn f fun s =>
    if !s.fnReachable f then s
    else match s.windowQp f loc with
      | none => s
      | some q =>
        let c := s.qp q
        if c.st = .quiesced then
          s.setQp q (c.setWindow reg data)
        else s.setQp q { c with cfgErr := true })

/-- VF_FSTAT_EVT_EN_WRITE (R472): the W1C bits clear first, then EVT_EN; enabling it with an event pending signals vector 0 once. -/
def execVfFstatEvtEnWrite (f : Nat) (data : W64) (s : State) : Res :=
  .next (s.whenFn f fun s =>
    if !s.fnReachable f || s.pers f != 0 then s
    else
      let c := s.fn f
      let g := c.grantEvt && !getBit data 32
      let t := c.strayDb && !getBit data 33
      let en := getBit data 34
      let s1 := s.setFn f { c with grantEvt := g, strayDb := t, evtEn := en }
      if en && !c.evtEn && (g || t) then s1.msix f 0 else s1)

/-! ### DIRTY_SYNC (R164–R169) -/

/-- Start a DIRTY_SYNC of action `act` on a PF's ring. -/
def State.startDirty (s : State) (q rid act : Nat) (k : State → Req → State) : State :=
  s.start q rid 0x30 fun s r =>
    if dsAction r.sqe != act then s
    else if !s.dsVfOk r then s.finish r E.PRIVILEGE 0 0
    else k s r

/-- A SYNC without SWAP (R167): flush; RESULT counts the bits of the interval so far. The request waits while a page of the cache waits for its
bitmap's translation. -/
def State.dirtyFlush (s : State) (r : Req) : State :=
  let v := dsVf r.sqe
  if !(s.dlog v).on then s.finish r E.PARAM 0 0
  else
    let s1 := s.dlogFlush v
    let d := s1.dlog v
    if !d.cache.isEmpty || d.past.any (fun p => !p.cache.isEmpty) then s1 else s1.finish r 0 d.bits 0

/-- The interval that a SYNC with SWAP or a STOP ended at its fetch is flushed and answered (R167, R168): E_LOG_OVERFLOW when it overflowed. -/
def State.dirtyEnd (s : State) (r : Req) (stop : Bool) : State :=
  let v := dsVf r.sqe
  if !(s.dlog v).on then s.finish r E.PARAM 0 0
  else
    let s1 := s.dlogFlush v
    let d := s1.dlog v
    match d.past.find? fun p => p.rid == r.rid with
    | none => s1.finish r E.PARAM 0 0
    | some p =>
      if d.past.any fun x => !x.cache.isEmpty then s1
      else
        let st := if p.overflow then E.LOG_OVERFLOW else 0
        (s1.setDlog v (if stop then DirtyLog.off else { d with past := d.past.erase p })).finish r st p.bits 0

/-- DIRTY_SYNC_SYNC (R167). -/
def execDirtySyncSync (q : QpId) (rid : Nat) (s : State) : Res :=
  .next (s.startDirty q rid 0 fun s r => if (dsFlags r.sqe).testBit 0 then s.dirtyEnd r false else s.dirtyFlush r)

/-- DIRTY_SYNC_START (R165). -/
def execDirtySyncStart (q : QpId) (rid : Nat) (s : State) : Res :=
  .next (s.startDirty q rid 1 fun s r =>
    let v := dsVf r.sqe
    if (s.dlog v).on || decide (dsLimit r.sqe < 1) || decide (16384 < dsLimit r.sqe) || decide (dsBase0 r.sqe % 4096 ≠ 0) ||
        decide (dsBase1 r.sqe % 4096 ≠ 0) then s.finish r E.PARAM 0 0
    else
      (s.setDlog v { DirtyLog.off with on := true, limit := dsLimit r.sqe, base0 := dsBase0 r.sqe, base1 := dsBase1 r.sqe,
                                       pf := s.qpFn r.q }).finish r 0 0 0)

/-- DIRTY_SYNC_STOP (R169): a final SYNC with SWAP, then logging ends. -/
def execDirtySyncStop (q : QpId) (rid : Nat) (s : State) : Res := .next (s.startDirty q rid 2 fun s r => s.dirtyEnd r true)

/-- DIRTY_UPDATE_LATE (R168): a recorded page has waited more than 100 µs for its bitmap update. -/
def execDirtyUpdateLate (v : Nat) (s : State) : Res :=
  .next (s.whenUp fun s =>
    let d := s.dlog v
    if d.cache.isEmpty && d.past.all (fun p => p.cache.isEmpty) then s else s.bitmapLost v 3)

end Sys2Proof.Machine
end

