-- ==== Sys2Proof/Machine/Parse.lean ====
section
/-!
DEFINITION. Parse.lean: what stage 1 of a Selvedge pipeline reads from a frame (R176, R177), the flow key (R180), and the frame edits that
action words make (Table 06-8).
-/

namespace Sys2Proof.Machine

/-- One layer of a frame: an optional Ethernet header at `eth` with its VLAN tags, and what it carries. `ver` is 4, 6 or 0; `l4` the offset of
the transport header. `tun` is how the next layer is reached: 0 none, 1 VXLAN, 2 Geneve, 3 GRE, 4 IP in IP; `vni` its VNI or key; `endAt` where the
next layer begins, or where the transport header ends. -/
structure Layer where
  eth : Option Nat
  tags : List Nat
  etype : Nat
  ver : Nat
  l3 : Nat
  proto : Nat
  l4 : Nat
  frag : Bool
  sport : Nat
  dport : Nat
  tun : Nat
  vni : Nat
  endAt : Nat
  deriving DecidableEq, Repr

/-- What parsing found: the layers, outermost first, and a reason (Table 06-15) when it failed. -/
structure Parsed where
  layers : List Layer
  reason : Option Nat
  deriving DecidableEq, Repr

/-- The VLAN tags after an Ethernet header's addresses: up to two; the tag values, the EtherType and the offset after it. -/
def vlanTags (fr : List Byte) : Nat → Nat → List Nat × Nat × Nat
  | 0, o => ([], beAt fr o 2, o + 2)
  | n + 1, o =>
    let t := beAt fr o 2
    if t = 0x8100 || t = 0x88A8 then
      let r := vlanTags fr n (o + 4)
      (beAt fr (o + 2) 2 :: r.1, r.2)
    else ([], t, o + 2)

/-- Skip IPv6 extension headers, up to four: the next header, its offset, whether a Fragment header was among them. -/
def ip6Ext (fr : List Byte) : Nat → Nat → Nat → Bool → Nat × Nat × Bool
  | 0, nh, o, fg => (nh, o, fg)
  | n + 1, nh, o, fg =>
    if nh = 0 || nh = 43 || nh = 60 then ip6Ext fr n (leAt fr o 1) (o + 8 + 8 * leAt fr (o + 1) 1) fg
    else if nh = 44 then ip6Ext fr n (leAt fr o 1) (o + 8) true
    else (nh, o, fg)

/-- A layer, or a reason. The UDP ports that name VXLAN and Geneve are `vx` and `gn`. -/
def parseL4 (fr : List Byte) (vx gn : Nat) (b : Layer) : Layer × Option Nat :=
  let n := fr.length
  let o := b.l4
  if b.frag then ({ b with endAt := o }, none)
  else if b.proto = 6 then
    if n < o + 20 then (b, some 2)
    else
      let d := bitsOf (leAt fr (o + 12) 1) 4 4
      if d < 5 || n < o + 4 * d then (b, some 2)
      else ({ b with sport := beAt fr o 2, dport := beAt fr (o + 2) 2, endAt := o + 4 * d }, none)
  else if b.proto = 17 then
    if n < o + 8 then (b, some 2)
    else
      let c := { b with sport := beAt fr o 2, dport := beAt fr (o + 2) 2, endAt := o + 8 }
      if c.dport = vx then
        if n < o + 16 then (c, some 2) else ({ c with tun := 1, vni := beAt fr (o + 12) 3, endAt := o + 16 }, none)
      else if c.dport = gn then
        let h := o + 16 + 4 * bitsOf (leAt fr (o + 8) 1) 0 6
        if n < h then (c, some 2) else ({ c with tun := 2, vni := beAt fr (o + 12) 3, etype := beAt fr (o + 10) 2, endAt := h }, none)
      else (c, none)
  else if b.proto = 47 then
    let fl := beAt fr o 2
    let h := o + 4 + (if fl.testBit 15 then 4 else 0) + (if fl.testBit 13 then 4 else 0) + (if fl.testBit 12 then 4 else 0)
    if n < h then (b, some 2)
    else ({ b with tun := 3, vni := if fl.testBit 13 then beAt fr (o + 4 + (if fl.testBit 15 then 4 else 0)) 4 else 0,
                   etype := beAt fr (o + 2) 2, endAt := h }, none)
  else if b.proto = 4 || b.proto = 41 then ({ b with tun := 4, etype := if b.proto = 4 then 0x0800 else 0x86DD, endAt := o }, none)
  else if b.proto = 1 || b.proto = 58 then
    if n < o + 8 then (b, some 2)
    else ({ b with sport := beAt fr (o + 4) 2, dport := beAt fr o 2, endAt := o + 8 }, none)
  else if b.proto = 50 then
    if n < o + 8 then (b, some 2) else ({ b with sport := beAt fr o 2, dport := beAt fr (o + 2) 2, endAt := o + 8 }, none)
  else ({ b with endAt := o }, none)

/-- The IP header of a layer. -/
def parseIp (fr : List Byte) (vx gn : Nat) (b : Layer) : Layer × Option Nat :=
  let n := fr.length
  let o := b.l3
  if b.ver = 4 then
    if n < o + 20 then (b, some 2)
    else
      let ihl := 4 * bitsOf (leAt fr o 1) 0 4
      let tot := beAt fr (o + 2) 2
      if ihl < 20 || n < o + ihl || bitsOf (leAt fr o 1) 4 4 ≠ 4 || inetSum ((fr.drop o).take ihl) ≠ 0 || tot < ihl || n < o + tot then (b, some 2)
      else
        let fo := beAt fr (o + 6) 2
        parseL4 fr vx gn { b with proto := leAt fr (o + 9) 1, l4 := o + ihl, frag := decide (fo % 0x4000 ≠ 0) }
  else if b.ver = 6 then
    if n < o + 40 || bitsOf (leAt fr o 1) 4 4 ≠ 6 || n < o + 40 + beAt fr (o + 4) 2 then (b, some 2)
    else
      let e := ip6Ext fr 4 (leAt fr (o + 6) 1) (o + 40) false
      if n < e.2.1 then (b, some 2)
      else parseL4 fr vx gn { b with proto := e.1, l4 := e.2.1, frag := e.2.2 }
  else ({ b with endAt := o }, none)

/-- IP version of an EtherType. -/
def verOf (etype : Nat) : Nat := if etype = 0x0800 then 4 else if etype = 0x86DD then 6 else 0

/-- Parse layers from offset `o`: `eth` says whether an Ethernet header stands there, else `etype` names the IP header. More than four
encapsulations give PARSE_LIMIT (R177). -/
def parseFrom (fr : List Byte) (vx gn : Nat) : Nat → Nat → Bool → Nat → List Layer → Parsed
  | 0, _, _, _, acc => { layers := acc, reason := some 3 }
  | fuel + 1, o, eth, etype, acc =>
    let b0 : Layer := { eth := none, tags := [], etype := etype, ver := verOf etype, l3 := o, proto := 0, l4 := o, frag := false,
                        sport := 0, dport := 0, tun := 0, vni := 0, endAt := o }
    let v := vlanTags fr 2 (o + 12)
    let b := if eth then { b0 with eth := some o, tags := v.1, etype := v.2.1, ver := verOf v.2.1, l3 := v.2.2, l4 := v.2.2, endAt := v.2.2 }
      else b0
    if eth && decide (fr.length < v.2.2) then { layers := acc, reason := some 2 }
    else
      let r := parseIp fr vx gn b
      let acc1 := acc ++ [r.1]
      match r.2 with
      | some c => { layers := acc1, reason := some c }
      | none =>
        let t := r.1.tun
        if t = 0 then { layers := acc1, reason := if 512 < r.1.endAt then some 3 else none }
        else if t = 1 || (t ≠ 4 && r.1.etype = 0x6558) then parseFrom fr vx gn fuel r.1.endAt true 0 acc1
        else if t = 4 || r.1.etype = 0x0800 || r.1.etype = 0x86DD then parseFrom fr vx gn fuel r.1.endAt false r.1.etype acc1
        else { layers := acc1, reason := if 512 < r.1.endAt then some 3 else none }

/-- Stage 1 (R176, R177). -/
def parseFrame (vx gn : Nat) (fr : List Byte) : Parsed := parseFrom fr vx gn 5 0 true 0 []

/-- What an absent layer reads as. -/
def Layer.none : Layer :=
  { eth := Option.none, tags := [], etype := 0, ver := 0, l3 := 0, proto := 0, l4 := 0, frag := false, sport := 0, dport := 0, tun := 0, vni := 0,
    endAt := 0 }

/-- The outermost and the innermost layer. -/
def Parsed.outer (p : Parsed) : Layer := (p.layers.head?).getD Layer.none
def Parsed.inner (p : Parsed) : Layer := (p.layers.getLast?).getD Layer.none

/-- Addresses of a layer's IP header, 16 bytes each, IPv4 in the first four. -/
def Layer.saddr (l : Layer) (fr : List Byte) : List Byte :=
  if l.ver = 4 then padTo 16 ((fr.drop (l.l3 + 12)).take 4) else if l.ver = 6 then (fr.drop (l.l3 + 8)).take 16
  else padTo 16 ((fr.drop ((l.eth.getD 0) + 6)).take 6)
def Layer.daddr (l : Layer) (fr : List Byte) : List Byte :=
  if l.ver = 4 then padTo 16 ((fr.drop (l.l3 + 16)).take 4) else if l.ver = 6 then (fr.drop (l.l3 + 24)).take 16
  else padTo 16 ((fr.drop (l.eth.getD 0)).take 6 ++ leBytes 2 l.etype)

/-- The flow key, bytes 0–39 of Table 06-5, of the innermost layer. -/
def flowKey (tsid : Nat) (tx : Bool) (l : Layer) (fr : List Byte) : List Byte :=
  let kt := if l.ver = 4 then 0 else if l.ver = 6 then 1 else 2
  let ports := l.proto == 6 || l.proto == 17 || l.proto == 1 || l.proto == 58 || l.proto == 50
  let sp := if l.frag || !ports || l.ver = 0 then 0 else l.sport
  let dp := if l.frag || !ports || l.ver = 0 then 0 else l.dport
  leBytes 2 (tsid % 4096 + kt * 4096) ++ leBytes 1 (if l.ver = 0 then 0 else l.proto) ++ leBytes 1 (b2n tx + b2n l.frag * 2) ++
    leBytes 2 sp ++ leBytes 2 dp ++ padTo 16 (l.saddr fr) ++ padTo 16 (l.daddr fr)

/-- The flow hash: CRC-32C over the key (R180). -/
def flowHash (key : List Byte) : Nat := crc32c key

/-! ### Frame edits -/

/-- A frame with `n` bytes at `o` replaced. -/
def splice (fr : List Byte) (o n : Nat) (b : List Byte) : List Byte := fr.take o ++ b ++ fr.drop (o + n)

/-- A frame with the bytes at `o` overwritten. -/
def patch (fr : List Byte) (o : Nat) (b : List Byte) : List Byte := splice fr o b.length b

/-- An Internet checksum after bytes it covers changed (RFC 1624), both at an even offset. -/
def csumFix (c : Nat) (old new : List Byte) : Nat :=
  let t := onesSum new (onesSum (old.map fun b => ~~~ b) (65535 - c))
  65535 - t

/-- Offset of the transport checksum of a layer, when it has one that is in use. -/
def Layer.csumAt (l : Layer) (fr : List Byte) : Option Nat :=
  if l.frag then Option.none
  else if l.proto = 6 then some (l.l4 + 16)
  else if l.proto = 17 then (if beAt fr (l.l4 + 6) 2 = 0 then Option.none else some (l.l4 + 6))
  else if l.proto = 58 then some (l.l4 + 2)
  else Option.none

/-- Rewrite bytes of a layer's IP header: the IPv4 header checksum follows, and the transport checksum where the pseudo-header covers them. -/
def editIp (fr : List Byte) (l : Layer) (o : Nat) (b : List Byte) (pseudo : Bool) : List Byte :=
  let old := (fr.drop o).take b.length
  let f1 := patch fr o b
  let even (x : List Byte) : List Byte := if (o - l.l3) % 2 = 0 then x else 0 :: x
  let f2 := if l.ver = 4 then patch f1 (l.l3 + 10) (beBytes 2 (csumFix (beAt fr (l.l3 + 10) 2) (even old) (even b))) else f1
  match (if pseudo then l.csumAt fr else Option.none) with
  | some c => patch f2 c (beBytes 2 (csumFix (beAt fr c 2) old b))
  | Option.none => f2

/-- Rewrite a transport port of a layer. -/
def editPort (fr : List Byte) (l : Layer) (o v : Nat) : List Byte :=
  let old := (fr.drop o).take 2
  let f1 := patch fr o (beBytes 2 v)
  match l.csumAt fr with
  | some c => patch f1 c (beBytes 2 (csumFix (beAt fr c 2) old (beBytes 2 v)))
  | Option.none => f1

/-- The transport checksum over a layer's pseudo-header and payload, with the checksum field as it stands. -/
def l4Sum (fr : List Byte) (l : Layer) : Nat :=
  let len := if l.ver = 4 then beAt fr (l.l3 + 2) 2 - (l.l4 - l.l3) else beAt fr (l.l3 + 4) 2 - (l.l4 - l.l3 - 40)
  let seg := (fr.drop l.l4).take len
  let n := if l.ver = 4 then 4 else 16
  onesSum seg (onesSum ((l.saddr fr).take n ++ (l.daddr fr).take n ++ beBytes 4 len ++ beBytes 4 l.proto) 0)

/-- The innermost transport checksum is right (R177). -/
def csumRight (fr : List Byte) (l : Layer) : Bool :=
  (l.proto == 6 || l.proto == 17) && !l.frag && l.ver != 0 && (l.csumAt fr).isSome && l4Sum fr l == 65535

/-- Fill a TCP or UDP checksum of a layer. -/
def csumFill (fr : List Byte) (l : Layer) : List Byte :=
  if (l.proto = 6 || l.proto = 17) && !l.frag && l.ver ≠ 0 then
    let c := if l.proto = 6 then l.l4 + 16 else l.l4 + 6
    let f0 := patch fr c [0, 0]
    let v := 65535 - l4Sum f0 l
    patch f0 c (beBytes 2 (if v = 0 && l.proto = 17 then 65535 else v))
  else fr

/-- Fill an IPv4 header checksum. -/
def ip4Fill (fr : List Byte) (l3 : Nat) : List Byte :=
  let ihl := 4 * bitsOf (leAt fr l3 1) 0 4
  let f0 := patch fr (l3 + 10) [0, 0]
  patch f0 (l3 + 10) (beBytes 2 (inetSum ((f0.drop l3).take ihl)))

/-- Push a VLAN tag after the addresses. -/
def vlanPush (fr : List Byte) (vid pcp : Nat) : List Byte :=
  fr.take 12 ++ beBytes 2 0x8100 ++ beBytes 2 (vid % 4096 + pcp % 8 * 8192) ++ fr.drop 12

/-- Pop the outer VLAN tag, if there is one. -/
def vlanPop (fr : List Byte) : List Byte :=
  let t := beAt fr 12 2
  if t = 0x8100 || t = 0x88A8 then splice fr 12 4 [] else fr

/-- Set the outer VLAN tag, if there is one. -/
def vlanSet (fr : List Byte) (vid pcp : Nat) : List Byte :=
  let t := beAt fr 12 2
  if t = 0x8100 || t = 0x88A8 then patch fr 14 (beBytes 2 (vid % 4096 + pcp % 8 * 8192 + beAt fr 14 2 / 4096 % 2 * 4096)) else fr

/-- Remove `n` outer encapsulations: the inner layer's frame, under the outer Ethernet addresses where it has no Ethernet header of its own. -/
def decap (fr : List Byte) (p : Parsed) (n : Nat) : Option (List Byte) :=
  match p.layers[n]? with
  | some l =>
    match l.eth with
    | some e => some (fr.drop e)
    | Option.none => some (fr.take 12 ++ beBytes 2 (if l.ver = 4 then 0x0800 else 0x86DD) ++ fr.drop l.l3)
  | Option.none => Option.none

/-- Toeplitz hash of bytes under a key, from bit `i` (RSS). -/
def toeplitz (key : List Byte) (data : List Byte) : Nat :=
  let k := beNat key
  let kb := 8 * key.length
  let n := 8 * data.length
  let d := beNat data
  (List.range n).foldl (fun h i => if d.testBit (n - 1 - i) then h ^^^ (k >>> (kb - 32 - i)) % 2 ^ 32 else h) 0

end Sys2Proof.Machine
end

