-- ==== Sys2Proof/Machine/Shuttle.lean ====
section
/-!
DEFINITION. Shuttle.lean: the Shuttle's transfers (05_shuttle_translation.md): the port schedulers (R104, R138, R139), stitches (R136, R137),
parking (R153, R154), ATS, page requests and their answers (R142–R146), device-side faults (R149, R150), local channels (R152),
AES-XTS key slots (R163).
-/

namespace Sys2Proof.Machine

/-! ### Transfers -/

/-- A transfer of the Shuttle. -/
def State.xfer? (s : State) (xid : Nat) : Option Xfer := s.shut.xfers.find? fun x => x.xid == xid

/-- A transfer takes a value. -/
def State.putXfer (s : State) (x : Xfer) : State :=
  { s with shut := { s.shut with xfers := s.shut.xfers.map fun y => if y.xid == x.xid then x else y } }

/-- A transfer frees its channel. -/
def State.dropXfer (s : State) (xid : Nat) : State :=
  { s with shut := { s.shut with xfers := s.shut.xfers.filter fun y => y.xid != xid } }

/-- Add to the counts that a request gathers for its commit. -/
def addCount : List (Nat × Nat) → Nat → Nat → List (Nat × Nat)
  | [], c, n => [(c, n)]
  | (c', m) :: l, c, n => if c = c' then (c, m + n) :: l else (c', m) :: addCount l c n

/-- A request gathers a count (R215). -/
def State.countReq (s : State) (q rid c n : Nat) : State :=
  if n = 0 then s
  else match (s.qp q).req? rid with
    | some r => s.putReq { r with cnt := addCount r.cnt c n }
    | none => s

/-- The request a transfer serves. -/
def XfFor.rid : XfFor → Nat
  | .req _ r => r
  | .move _ _ r _ => r
  | .rx _ r _ _ _ _ => r

/-- A side lies in host memory. -/
def Side.isHost : Side → Bool
  | .host _ => true
  | _ => false

/-- Bytes a side still holds before its segment ends at offset `off`, and before the next 4 KiB boundary of its address. -/
def Side.room (x : Side) (off : Nat) : Nat × Nat :=
  match x with
  | .host l | .dev l => let e := segAt l off; (e.2, 4096 - e.1 % 4096)
  | _ => (4096, 4096)

/-- The length of the next stitch (R136): at most 4 KiB, cut at a 4 KiB boundary of the destination in host memory, else of the source,
and where a segment ends. -/
def Xfer.stitchLen (x : Xfer) : Nat :=
  let d := x.dst.room x.next
  let c := x.src.room x.next
  let c2 := match x.src2 with
    | some y => y.room x.next
    | none => (4096, 4096)
  let cut := if x.dst.isHost then d.2 else match x.src with
    | .host _ | .dev _ => c.2
    | _ => d.2
  min (x.len - x.next) (min (min d.1 c.1) (min c2.1 cut))

/-- The segments of a side. -/
def Side.segs : Side → List (Nat × Nat)
  | .host l | .dev l => l
  | _ => []

/-! ### Reaching a stitch's pages -/

/-- What stops a stitch: a page missing from the ATC, a device-side page fault, a failure; with its offset and its address. -/
inductive Stop where
  | none
  | wait
  | park (off addr : Nat) (w : Bool)
  | fail (status cause off addr : Nat)
  deriving DecidableEq, Repr

/-- The graver of two stops; of two alike, the first. -/
def Stop.join : Stop → Stop → Stop
  | .fail a b c d, _ => .fail a b c d
  | _, .fail a b c d => .fail a b c d
  | .park a b c, _ => .park a b c
  | _, .park a b c => .park a b c
  | .wait, _ => .wait
  | _, .wait => .wait
  | .none, .none => .none

/-- Reach one piece of a transfer: host memory through its function's translation, device memory with its world. -/
def State.reachPiece (s : State) (x : Xfer) (host w : Bool) (off a n : Nat) : State × Stop × Nat :=
  if host then
    let pg := alignDown a 4096
    match s.hostPage x.f x.pasid a w with
    | .at m => (s, .none, m)
    | .miss =>
      (if s.atsPending x.f x.pasid pg w (.xfer x.xid) || s.prgPending x.f pg w (.xfer x.xid) then s
       else s.atsSend x.f x.pasid pg w (.xfer x.xid) 0, .wait, 0)
    | .park _ => (s, .park off a w, 0)
    | .fail st c => (s, .fail st c off a, 0)
  else
    let r := if x.lc then s.lcPage x.f a n w else s.devPage (.shuttle x.f) a n w
    match r.2 with
    | .at m => (r.1, .none, m)
    | .miss => (r.1, .wait, 0)
    | .park _ => (r.1, .park off a w, 0)
    | .fail st c => (r.1, .fail st c off a, 0)

/-- Reach pieces in order, gathering translated pieces and the gravest stop. -/
def State.reachPieces (s : State) (x : Xfer) (host w : Bool) : Nat → List (Nat × Nat) → List (Nat × Nat) → Stop →
    State × Stop × List (Nat × Nat)
  | _, [], acc, st => (s, st, acc)
  | off, (a, n) :: ps, acc, st =>
    let r := s.reachPiece x host w off a n
    State.reachPieces r.1 x host w (off + n) ps (acc ++ [(r.2.2, n)]) (st.join r.2.1)

/-- Reach bytes `off` to `off + n - 1` of a side. -/
def State.reachSide (s : State) (x : Xfer) (d : Side) (w : Bool) (off n : Nat) : State × Stop × List (Nat × Nat) :=
  match d with
  | .host l => s.reachPieces x true w off ((segsSlice l off n).flatMap fun e => pagePieces e.1 e.2) [] .none
  | .dev l => s.reachPieces x false w off ((segsSlice l off n).flatMap fun e => pagePieces e.1 e.2) [] .none
  | _ => (s, .none, [])

/-- Bytes of translated pieces of a side. -/
def State.readSide (s : State) (x : Xfer) (d : Side) (ps : List (Nat × Nat)) (off n : Nat) : List Byte :=
  match d with
  | .host _ => ps.flatMap fun p => s.hostRead (s.fnPort x.f) p.1 p.2
  | .dev _ => ps.flatMap fun p => s.devRead p.1 p.2
  | .bytes b => (b.drop off).take n
  | .pattern b => (List.range n).map fun i => b.getD ((off + i) % 8) 0
  | .sink => []

/-- Write bytes over translated pieces of a side, in order. -/
def State.writeSide (s : State) (x : Xfer) (host : Bool) : List (Nat × Nat) → List Byte → State
  | [], _ => s
  | (a, n) :: ps, b =>
    State.writeSide
      (if host then s.hostWrite (s.fnPort x.f) a (b.take n) else (s.devWrite a (b.take n)).unpoison a n) x host ps (b.drop n)

/-- Pieces cut after `n` bytes: the first part and the rest. -/
def cutPieces : List (Nat × Nat) → Nat → List (Nat × Nat) × List (Nat × Nat)
  | [], _ => ([], [])
  | (a, m) :: ps, n =>
    if n = 0 then ([], (a, m) :: ps)
    else if m ≤ n then
      let r := cutPieces ps (n - m)
      ((a, m) :: r.1, r.2)
    else ([(a, n)], (a + n, m - n) :: ps)

/-! ### Ends of transfers -/

/-- The requests that a transfer serves. -/
def XfFor.rids : XfFor → List Nat
  | .rx _ r _ _ _ m => r :: m
  | p => [p.rid]

/-- The ring of a waiting packet. -/
def State.rxRing (s : State) (x : RxPkt) : Option Nat := (s.qpAt x.f x.loc).map fun q => if x.adopt then 131072 + q else q

/-- The first packet that waits for a ring leaves the packet buffer. -/
def State.rxPop (s : State) (q : Nat) : State :=
  match s.selv.rx.find? fun x => s.rxRing x == some q with
  | some x => { s with selv := { s.selv with rx := s.selv.rx.erase x } }
  | none => s

/-- End a list of requests of a ring with a status. -/
def State.finishAll (s : State) (q status : Nat) : List Nat → State
  | [] => s
  | rid :: rs =>
    State.finishAll (match (s.qp q).req? rid with
      | some r => s.finish r status 0 0
      | none => s) q status rs

/-- A failed transfer of a request or a move ends its request with a status; a received frame's buffers complete with it. A work item whose
COMPLETE has come is answered by it. -/
def State.failDone (s : State) (x : Xfer) : State :=
  let s0 := s.dropXfer x.xid
  let s1 := match x.purpose with
    | .move b wid _ _ =>
      s0.setBeq b { s0.beq b with works := (s0.beq b).works.filter fun w => w.wid != wid || w.completeWith.isNone }
    | .rx _ _ _ _ _ _ => s0.rxPop x.q
    | _ => s0
  (s1.finishAll x.q x.status x.purpose.rids).refreshPark x.q

/-- A transfer fails. Stitches in flight still complete (R138); then its channel frees and its request completes (R154). -/
def State.failXfer (s : State) (x : Xfer) (status : Nat) : State :=
  let y := { x with st := .failed, status := status }
  let xs := [x.xid]
  let s1 := { s with shut := { s.shut with
      ats := s.shut.ats.filter fun a => !a.by_.ofReq xs x.q x.purpose.rid
      prgs := (s.shut.prgs.filter fun (g : Prg) => g.sent || !g.by_.ofReq xs x.q x.purpose.rid).map fun (g : Prg) =>
        if g.by_.ofReq xs x.q x.purpose.rid then { g with late := true } else g } }
  if x.flight.isEmpty then s1.failDone y else s1.putXfer y

/-- The offset, from the start of the transfer's data, of the first byte of its next stitch that lies on a page (R153). -/
def Xfer.offsetOf (x : Xfer) (page : Nat) : Nat :=
  let n := x.stitchLen
  let find (d : Side) : List Nat :=
    ((segsSlice d.segs x.next n).foldl (fun (acc : Nat × List Nat) e =>
        (acc.1 + e.2,
          if alignDown e.1 4096 ≤ page && page < e.1 + e.2 then acc.2 ++ [acc.1 + (max page e.1 - e.1)] else acc.2)) (x.next, [])).2
  ((find x.src ++ find x.dst ++ (match x.src2 with | some y => find y | none => [])).min?).getD x.next

/-- DELIVERED when a transfer stops before its next stitch (R153): under AES-XTS a data-unit boundary (R162). -/
def Xfer.deliveredAt (x : Xfer) : Nat := if xformXts x.xform then alignDown x.next (xtsUnit x.xform) else x.next

/-- The transfer waits for a page: parked with a group sent, or waiting for a group (R145, R153). -/
def State.parkXfer (s : State) (x : Xfer) (st : XfSt) (off : Nat) : State :=
  (s.putXfer { x with st := st, parkOff := off }).refreshPark x.q

/-- A transfer whose pages have all been granted is READY at DELIVERED: under AES-XTS the bytes beyond the last whole data unit are read
again (R153). -/
def State.readyXfer (s : State) (x : Xfer) : State :=
  let y := if x.flight.isEmpty && !x.buf.isEmpty && xformXts x.xform then
      { x with st := .ready, next := x.deliveredAt, buf := [], pieces := [] }
    else { x with st := .ready }
  (s.putXfer y).refreshPark x.q

/-! ### Dispatch -/

/-- Nothing holds a transfer: it runs or is ready, waits for no page, has a stitch slot, and bytes or its CRC-64 left. -/
def State.dispatchable (s : State) (x : Xfer) : Bool :=
  (x.st == .ready || x.st == .running) && !s.panelHeld x.panel && !s.waiting (.xfer x.xid) && decide (x.flight.length < 8) && !(x.flight.any (·.poison)) &&
    (decide (x.next < x.len) || (x.flight.isEmpty && x.tail.isSome)) && !(s.qp x.q).contained && (x.lc || s.capsOpen x.f) &&
    (match x.purpose with
     | .move b wid _ _ => s.shut.xfers.all fun y => match y.purpose with
        | .move b' wid' _ _ => !(b' == b && wid' == wid && decide (y.xid < x.xid))
        | _ => true
     | _ => true)

/-- The transfers a scheduler can pick: of a host port in one direction, or of the local channels of a panel (port 32 + p). -/
def State.candidates (s : State) (port : Nat) (toHost : Bool) : List Xfer :=
  s.shut.xfers.filter fun x => x.port == port && (decide (32 ≤ port) || x.toHost == toHost) && s.dispatchable x

/-- Key of a scheduler's level: port, direction, pass, class. -/
def schedKey (port : Nat) (toHost guar : Bool) (cls : Nat) : Nat := ((port * 2 + b2n toHost) * 2 + b2n guar) * 8 + cls

/-- The least number of a list at or above `p`, else its least number. -/
def nextAfter (l : List Nat) (p : Nat) : Nat :=
  match (l.filter fun x => decide (p ≤ x)).min? with
  | some m => m
  | none => (l.min?).getD 0

/-- Within one function and class: the next ring in turn, and its oldest transfer. -/
def State.pickRing (s : State) (key f : Nat) (xs : List Xfer) : Option Xfer :=
  let q := nextAfter (xs.map (·.q)) (smGet 0 s.qf.rrPtr (key * 8192 + f))
  xs.find? fun x => x.q == q

/-- Deficit round robin between owners (R104): the owner in turn is served while its deficit covers its next stitch; else the turn passes on
and the next owner gains a quantum of WEIGHT × 4 KiB. Local channels go round robin (R152). -/
def State.drr (s : State) (key : Nat) (lc : Bool) (xs : List Xfer) : Option (State × Xfer) :=
  let fs := xs.map (·.f)
  let cur := smGet 0 s.qf.drrPtr key
  let own (f : Nat) : Option Xfer := s.pickRing key f (xs.filter fun x => x.f == f)
  let dk (f : Nat) : Nat := key * 8192 + f
  let keep := s.qf.deficit.filter fun e => e.1 / 8192 != key || fs.contains (e.1 % 8192)
  let serve (f : Nat) (x : Xfer) (d : Int) : State × Xfer :=
    ({ s with qf := { s.qf with
        drrPtr := smPut 0 s.qf.drrPtr key f
        deficit := smPut 0 keep (dk f) (d - x.stitchLen)
        rrPtr := smPut 0 s.qf.rrPtr (dk f) (x.q + 1) } }, x)
  let turn : Option (State × Xfer) :=
    let f := nextAfter fs (cur + 1)
    match own f with
    | some x =>
      let w := max 1 (s.fld (R.QFAB_FSCHED0.WEIGHT f))
      some (serve f x (if lc then x.stitchLen else smGet 0 keep (dk f) + (w * 4096 : Nat)))
    | none => none
  match (if fs.contains cur && !lc then own cur else none) with
  | some x => if (x.stitchLen : Int) ≤ smGet 0 keep (dk cur) then some (serve cur x (smGet 0 keep (dk cur))) else turn
  | none => turn

/-- The highest class of a list of transfers, under the live class of each ring (Table 05-9). -/
def State.topClass (s : State) (xs : List Xfer) : Nat := ((xs.map fun x => s.qpClass x.q).max?).getD 0

/-- What a scheduler picks: the guarantee pass, then the class pass (R104). -/
def State.pick (s : State) (port : Nat) (toHost : Bool) : Option (State × Xfer × Bool) :=
  let xs := s.candidates port toHost
  let gs := if 32 ≤ port then [] else xs.filter fun x =>
    decide (0 < s.tokens (bucketKey 2 x.f)) && s.fld (R.QFAB_FSCHED0.GUAR x.f) != 0 &&
      s.qpClass x.q == s.fld (R.QFAB_FSCHED0.GUAR_CLASS x.f)
  if gs.isEmpty then
    let c := s.topClass xs
    (s.drr (schedKey port toHost false c) (decide (32 ≤ port)) (xs.filter fun x => s.qpClass x.q == c)).map fun r => (r.1, r.2, false)
  else
    let c := s.topClass gs
    (s.drr (schedKey port toHost true c) false (gs.filter fun x => s.qpClass x.q == c)).map fun r => (r.1, r.2, true)

/-- A running transfer of a lower class on the same scheduler goes back to READY (R138). -/
def State.preempt (s : State) (x : Xfer) : State :=
  let f (y : Xfer) : Xfer :=
      if y.xid != x.xid && y.port == x.port && y.toHost == x.toHost && y.st == .running && !s.waiting (.xfer y.xid) &&
          decide (s.qpClass y.q < s.qpClass x.q) then { y with st := .ready }
      else y
  { s with shut := { s.shut with xfers := s.shut.xfers.map f } }

/-- Draw a stitch's bytes from its buckets (R104, R105). -/
def State.drawStitch (s : State) (x : Xfer) (guar : Bool) (n : Nat) : State :=
  if x.lc then s
  else
    let a := s.fnAcct x.f
    ((s.drawTokens guar (bucketKey 2 x.f) n).drawTokens (s.fld (R.QFAB_FSCHED1.CAP_B x.f) != 0) (bucketKey 0 x.f) n).drawTokens
      (s.fld (R.QFAB_ASCHED.CAP_B a) != 0) (bucketKey 3 a) n

/-- First offset at which two byte lists differ. -/
def firstDiff : Nat → List Byte → List Byte → Option Nat
  | i, a :: as, b :: bs => if a = b then firstDiff (i + 1) as bs else some i
  | _, _, _ => none

/-- The transfer stops at a page: device-side faults park with a record (R149); failures end it. -/
def State.stopXfer (s : State) (x : Xfer) (st : Stop) : State :=
  match st with
  | .none => s
  | .wait => s.putXfer { x with st := .running }
  | .park off addr w =>
    let s1 := s.setFld R.SHUT_FLT_INFO.PARK_OFFSET off
    (s1.parkLc x.q addr w (.xfer x.xid)).parkXfer { x with st := .parked } .parked off
  | .fail status cause off addr =>
    let s1 := if status = E.POISON || status = E.SEAM then s else s.shutFault x.q cause off addr
    s1.failXfer x status

/-- RESULT and status of a finished transfer of a request. -/
def Xfer.outcome (x : Xfer) : Nat × Nat :=
  match x.diff with
  | some d => (E.COMPARE, d % 2 ^ 32)
  | none =>
    if x.xform = 0x12 then (if x.crc = x.xparam % 2 ^ 32 then (0, x.crc % 2 ^ 32) else (E.CRC_MISMATCH, x.crc % 2 ^ 32))
    else if x.xform = 0x22 then (if x.crc = x.xparam then (0, x.crc % 2 ^ 32) else (E.CRC_MISMATCH, x.crc % 2 ^ 32))
    else if xformCrc x.xform then (0, x.crc % 2 ^ 32)
    else (0, 0)

/-- A request's own transfer is done: its completion joins those that wait. -/
def State.reqDone (s : State) (x : Xfer) : State :=
  let s1 := s.dropXfer x.xid
  match (s1.qp x.q).req? x.purpose.rid with
  | some r => s1.finish r x.outcome.1 (if x.outcome.1 = 0 && (x.xform = 0x12 || x.xform = 0x22) then 0 else x.outcome.2) 0
  | none => s1

/-- Write the full CRC-64 of a MOVE (R159), then finish. -/
def State.tailWrite (s : State) (x : Xfer) (a : Nat) : State :=
  let d := ringSide x.q [(a, 8)]
  let r := s.reachSide x d true 0 8
  match r.2.1 with
  | .none =>
    let s1 := (r.1.writeSide x d.isHost r.2.2 (leBytes 8 x.crc)).dirtyWrite x.q a 8
    (s1.putXfer { x with tail := none }).reqDone { x with tail := none }
  | .park _ addr w => r.1.stopXfer x (.park x.len addr w)
  | .fail st c _ addr => r.1.stopXfer x (.fail st c x.len addr)
  | .wait => r.1.stopXfer x .wait

/-- The next `n` bytes of a transfer: the pages they touch are reached, the source is read, and the stitch is in flight unless something stops it. -/
def State.stitchGo (s : State) (x : Xfer) (guar : Bool) (n : Nat) (poison : Bool) : State × Stop :=
  let r1 := s.reachSide x x.src false x.next n
  let r2 := match x.src2 with
    | some y => r1.1.reachSide x y false x.next n
    | none => (r1.1, .none, [])
  let r3 := r2.1.reachSide x x.dst true x.next n
  match (r1.2.1.join r2.2.1).join r3.2.1 with
  | .none =>
    let s1 := r3.1
    let b := s1.readSide x x.src r1.2.2 x.next n
    let diff := match x.src2 with
      | some y => firstDiff x.next b (s1.readSide x y r2.2.2 x.next n)
      | none => none
    let st : Stitch := { off := x.next, len := n, bytes := b, poison := poison, dst := r3.2.2, diff := diff }
    let y := { x with st := .running, next := x.next + n, flight := x.flight ++ [st] }
    ((((s1.putXfer y).preempt y).drawStitch y guar n), .none)
  | stop => (r3.1, stop)

/-- The same, with what stops the stitch carried out. -/
def State.stitchDo (s : State) (x : Xfer) (guar : Bool) (n : Nat) (poison : Bool) : State :=
  let r := s.stitchGo x guar n poison
  match r.2 with
  | .none => r.1
  | stop => r.1.stopXfer x stop

/-- How many whole 64 B chunks of the next `n` bytes come before poisoned data. -/
def State.cleanLen (s : State) (x : Xfer) (n : Nat) : Nat :=
  (((List.range (n / 64)).map fun i => 64 * (i + 1)).filter fun k =>
    match (s.stitchGo x false k false).2 with
    | .fail st _ _ _ => st != E.POISON
    | _ => true).foldl max 0

/-- Dispatch the next stitch of a transfer (R137). One that meets poisoned data ends at the last clean chunk (R251). -/
def State.stitchOut (s : State) (x : Xfer) (guar : Bool) : State :=
  let n := x.stitchLen
  match (s.stitchGo x guar n false).2 with
  | .fail st _ _ _ =>
    if st = E.POISON && decide (0 < s.cleanLen x n) then s.stitchDo x guar (s.cleanLen x n) true else s.stitchDo x guar n false
  | _ => s.stitchDo x guar n false

/-! ### Stitches written (R137, R158–R162) -/

/-- The CRC of a transfer after more source bytes. -/
def Xfer.crcOver (x : Xfer) (b : List Byte) : Nat :=
  if x.xform = 0x10 || x.xform = 0x11 || x.xform = 0x12 then crc32cFrom x.crc b
  else if x.xform = 0x20 || x.xform = 0x21 || x.xform = 0x22 then crc64From x.crc b
  else x.crc

/-- AES-XTS over whole data units, from data unit `k` of the request. -/
def xtsUnits (key : List Byte) (unit : Nat) (enc : Bool) : Nat → Nat → List Byte → List Byte
  | 0, _, _ => []
  | fuel + 1, k, l =>
    if l.length < unit then []
    else aesXts (key.take 32) ((key.drop 32).take 32) k enc (l.take unit) ++ xtsUnits key unit enc fuel (k + 1) (l.drop unit)

/-- The bytes ready to be written and those kept back, of what a transfer has gathered: under AES-XTS whole data units, transformed. -/
def State.transform (s : State) (x : Xfer) (l : List Byte) : List Byte × List Byte :=
  if xformXts x.xform then
    let u := xtsUnit x.xform
    let n := l.length / u
    let key := (smGet KeySlot.empty s.shut.keys x.keyslot).key
    (xtsUnits key u (x.xform == 0x30 || x.xform == 0x32) n (x.xparam + x.delivered / u) l, l.drop (n * u))
  else (l, [])

/-- The counts of newly moved bytes: host reads, host writes, bytes through AES-XTS (R215). -/
def State.countStitch (s : State) (x : Xfer) (st : Stitch) : State :=
  let n := st.off + st.len - max x.counted st.off
  let rid := x.purpose.rid
  let tx := (if x.src.isHost then n else 0) + (match x.src2 with | some y => if y.isHost then n else 0 | none => 0)
  let rx := if x.dst.isHost then n else 0
  ((s.countReq x.q rid 0 tx).countReq x.q rid 1 rx).countReq x.q rid 10 (if xformXts x.xform then n else 0)

/-- The oldest stitch of a transfer completes: its bytes are transformed and written, a frame's or a checksum's gathered. -/
def State.stitchIn (s : State) (x : Xfer) (st : Stitch) (rest : List Stitch) : State × Xfer :=
  let l := x.buf ++ st.bytes
  let sink := match x.dst with
    | .sink => true
    | _ => false
  let keepFrame := sink && x.src2.isNone
  let t := if sink then (([] : List Byte), l) else s.transform x l
  let pieces := x.pieces ++ st.dst
  let c := cutPieces pieces t.1.length
  let at_ := segsSlice x.dst.segs x.delivered t.1.length
  let s1 := s.writeSide x x.dst.isHost c.1 t.1
  let s2 := at_.foldl (fun s e => if x.dst.isHost then s.dirtyWrite x.q e.1 e.2 else s) s1
  let y := { x with
    flight := rest, buf := if sink && !keepFrame then [] else t.2, pieces := c.2, crc := x.crcOver st.bytes
    diff := x.diff.or st.diff, counted := max x.counted (st.off + st.len)
    delivered := if sink then st.off + st.len else x.delivered + t.1.length }
  ((s2.putXfer y).countStitch x st, y)

/-! ### ATS and page requests -/

/-- Set the waiter of a page free of an ATS request or a page group. -/
def State.wakeWaiter (s : State) (w : Waiter) : State :=
  if s.waiting w then s
  else match w with
    | .xfer xid =>
      match s.xfer? xid with
      | some x => if x.st == .failed || x.st == .done then s else s.readyXfer x
      | none => s
    | .walk q _ => s.refreshPark q
    | .fetch q => s.refreshPark q
    | .cpl q => s.refreshPark q
    | .shadow _ => s
    | .bitmap v => s.dlogFlush v

/-- What waited for a page ends with a status (Table 05-9): a transfer or a buffer walk completes with it, a ring fetch or a
completion write takes the ring to ERROR, a shadow read is ignored, a bitmap access overflows its log. -/
def State.failWaiter (s : State) (w : Waiter) (status : Nat) : State :=
  match w with
  | .xfer xid =>
    match s.xfer? xid with
    | some x => s.failXfer x status
    | none => s
  | .walk q rid =>
    match (s.qp q).req? rid with
    | some r => s.finish r status 0 0
    | none => s
  | .fetch q => if (s.qp q).contained then s else s.ringError q status false
  | .cpl q => if (s.qp q).contained then s else s.ringError q status true
  | .shadow _ => s
  | .bitmap v => s.bitmapLost v 2

/-- The ring that a waiter belongs to. -/
def State.waiterRing (s : State) : Waiter → Nat
  | .xfer xid => match s.xfer? xid with
    | some x => x.q
    | none => 0
  | .walk q _ => q
  | .fetch q => q
  | .cpl q => q
  | .shadow q => q
  | .bitmap _ => 0

/-- Whether a waiter parks when its page is not granted: shadow reads and bitmap accesses never do (R98, R168). -/
def Waiter.parks : Waiter → Bool
  | .shadow _ => false
  | .bitmap _ => false
  | _ => true

/-- Groups outstanding on a port, reserved PRGIs among them (Table 05-18). -/
def State.prgOut (s : State) (port : Nat) : List Prg := s.shut.prgs.filter fun g => g.port == port && g.sent

/-- A group can be sent on a port: below 1,024 and below the PF's allocation (R145). -/
def State.prgFree (s : State) (port : Nat) : Bool :=
  decide ((s.prgOut port).length < min 1024 (s.fn (0x1000 + port)).priAlloc)

/-- The next PRGI of a function that is not outstanding, rising and wrapping at 511 (R145). -/
def State.prgiFree (s : State) (f : Nat) : Nat → Nat → Nat
  | 0, k => k
  | fuel + 1, k =>
    if s.shut.prgs.any fun g => g.f == f && g.sent && g.prgi == k then State.prgiFree s f fuel ((k + 1) % 512) else k

/-- A page request group is sent (R144, R145). -/
def State.prgSend (s : State) (g : Prg) : State :=
  let k := s.prgiFree g.f 512 (s.fn g.f).prgiNext
  let s1 := s.setFn g.f { s.fn g.f with prgiNext := (k + 1) % 512 }
  { s1 with
    shut := { s1.shut with
      prgs := s1.shut.prgs ++ [{ g with prgi := k, sent := true }]
      groups := smPut 0 s1.shut.groups g.port (min (smGet 0 s1.shut.groups g.port + 1) 0xFFFFFFFF) }
    out := .pageReq g.port g.f k g.pasid g.page g.write :: s1.out }

/-- Offset in its transfer of the page that a waiter needs. -/
def State.waitOffset (s : State) (w : Waiter) (page : Nat) : Nat :=
  match w with
  | .xfer xid => match s.xfer? xid with
    | some x => if x.next < x.len then x.offsetOf page else x.len
    | none => 0
  | .walk q rid => match (s.qp q).req? rid with
    | some r => r.walkOff
    | none => 0
  | _ => 0

/-- A page was granted without the access needed (R144): a page request, a wait for one (R145), or E_PAGE_DENIED. -/
def State.notGranted (s : State) (a : AtsReq) : State :=
  let q := s.waiterRing a.by_
  let off := s.waitOffset a.by_ a.page
  if !a.by_.parks then s.failWaiter a.by_ E.PAGE_DENIED
  else
    let port := s.fnPort a.f
    let pf := s.fn (0x1000 + port)
    if pf.priEn && !pf.priStopped && a.tries < 3 then
      let g : Prg := { f := a.f, port := port, prgi := 0, sent := false, reserved := false, late := false, pasid := a.pasid, page := a.page,
                       write := a.write, by_ := a.by_, tries := a.tries + 1 }
      let s1 := s.shutFault q (b2n a.write) off a.page
      let free := s1.prgFree port
      let s2 := if free then s1.prgSend g else { s1 with shut := { s1.shut with prgs := s1.shut.prgs ++ [g] } }
      match a.by_ with
      | .xfer xid => match s2.xfer? xid with
        | some x => s2.parkXfer x (if free then .parked else .prgWait) off
        | none => s2
      | _ => s2.refreshPark q
    else
      ((s.shutFault q (if a.tries < 3 then b2n a.write else 2) off a.page).failWaiter a.by_ E.PAGE_DENIED)

/-- The ATC takes a granted translation: entries of the largest of its page sizes that fit (R141); of several, the one that holds the page. -/
def State.atcGrant (s : State) (a : AtsReq) (phys size : Nat) (r w u : Bool) : State :=
  let n := atcSize size
  let base := alignDown a.page n
  s.atcFill { dev := false, f := a.f, pasid := a.pasid, base := base, size := n,
              phys := phys + (base - alignDown a.page (max size 4096)), r := r, w := w, u := u }

/-- ATS_COMPLETION (R142, R144): an ATS Translation Completion. -/
def execAtsCompletion (tag : Nat) (res : AtsRes) (s : State) : Res :=
  .next (s.whenUp fun s =>
    match s.shut.ats.find? fun a => a.tag == tag with
    | none => s
    | some a =>
      let s1 := { s with shut := { s.shut with ats := s.shut.ats.erase a } }
      match res with
      | .refused =>
        let q := s1.waiterRing a.by_
        (s1.shutFault q 6 (s1.waitOffset a.by_ a.page) a.page).failWaiter a.by_ E.ATS_FAIL
      | .granted phys size r w u =>
        if (if a.write then w else r) then (s1.atcGrant a phys size r w u).wakeWaiter a.by_
        else s1.notGranted a)

/-- PAGE_REQUEST_GROUP_SEND (R145): the oldest waiting group of a port is sent once one is free. -/
def execPageRequestGroupSend (port : Nat) (s : State) : Res :=
  .next (s.whenUp fun s =>
    match s.shut.prgs.find? fun g => g.port == port && !g.sent && !g.late with
    | none => s
    | some g =>
      if !s.prgFree port then s
      else
        let s1 := { s with shut := { s.shut with prgs := s.shut.prgs.erase g } }
        let s2 := s1.prgSend g
        match g.by_ with
        | .xfer xid => match s2.xfer? xid with
          | some x => s2.parkXfer x .parked x.parkOff
          | none => s2
        | w => s2.refreshPark (s2.waiterRing w))

/-- Bytes `off` to `off + n - 1` of a side in host memory touch an IOVA range. -/
def Side.touches (d : Side) (off n a len : Nat) : Bool :=
  match d with
  | .host l => (segsSlice l off n).any fun e => decide (e.1 < a + len) && decide (a < e.1 + e.2)
  | _ => false

/-- A stitch in flight of a transfer uses translations of an IOVA range of its function. -/
def Xfer.uses (x : Xfer) (st : Stitch) (f : Nat) (pasid : Option Nat) (a len : Nat) : Bool :=
  !x.lc && x.f == f && (pasid.isNone || x.pasid == pasid) &&
    (x.src.touches st.off st.len a len || x.dst.touches st.off st.len a len ||
      match x.src2 with
      | some y => y.touches st.off st.len a len
      | none => false)

/-- ATS_INVALIDATE (R143): matching entries leave the ATC at once; the completion follows when the stitches in flight and the shadow reads that
used them have ended. -/
def execAtsInvalidate (f : Nat) (pasid : Option Nat) (addr len : Nat) (s : State) : Res :=
  .next (s.whenUp fun s =>
    let hit (e : AtcEnt) : Bool := !e.dev && e.f == f && (pasid.isNone || e.pasid == pasid) &&
      decide (e.base < addr + len) && decide (addr < e.base + e.size)
    let st : List (Nat × Nat) := s.shut.xfers.flatMap fun (x : Xfer) => ((x.flight.filter fun t => x.uses t f pasid addr len).map fun t => (x.xid, t.off))
    let sh : List Nat := (s.ringsOf f).filter fun q =>
      let c := s.qp q
      c.shadowOut && (pasid.isNone || s.ringPasid q == pasid) && decide (c.shadow.toNat < addr + len) && decide (addr < c.shadow.toNat + 8)
    let s1 : State := { s with shut := { s.shut with
      atc := s.shut.atc.filter fun e => !hit e, invals := s.shut.invals ++ [{ f := f, stitches := st, shadows := sh }] } }
    s1.invalSweep)

/-- Count a late page response (Table 05-14). -/
def State.lateResp (s : State) : State := (s.bump R.SHUT_STATUS.LATE 1).setBit R.SHUT_STATUS.LATE_EVT

/-- The waiter of a settled group translates its page again (Table 05-4). -/
def State.retranslate (s : State) (g : Prg) : State :=
  let s1 := s.atsSend g.f g.pasid g.page g.write g.by_ g.tries
  s1

/-- PAGE_REQUEST_RESPONSE (R146). -/
def execPageRequestResponse (f prgi : Nat) (resp : PrgResp) (s : State) : Res :=
  .next (s.whenUp fun s =>
    match s.shut.prgs.find? fun g => g.f == f && g.sent && g.prgi == prgi && decide (g.port < 32) with
    | none => s.lateResp
    | some g =>
      let s1 := { s with shut := { s.shut with prgs := s.shut.prgs.erase g } }
      if g.reserved || g.late then s1.lateResp
      else
        let q := s1.waiterRing g.by_
        let deny (s : State) : State :=
          (s.shutFault q 2 (s.waitOffset g.by_ g.page) g.page).failWaiter g.by_ E.PAGE_DENIED
        match resp with
        | .success => s1.retranslate g
        | .invalid => deny s1
        | .failure =>
          let pf := 0x1000 + g.port
          deny (s1.setFn pf { s1.fn pf with priStopped := true }))

/-- PRI_TIMEOUT (R146): the group's waiter ends with E_PAGE_DENIED, cause 3; its PRGI stays reserved. -/
def execPriTimeout (f prgi : Nat) (s : State) : Res :=
  .next (s.whenUp fun s =>
    match s.shut.prgs.find? fun g => g.f == f && g.sent && g.prgi == prgi && decide (g.port < 32) && !g.reserved && !g.late with
    | none => s
    | some g =>
      let s1 := { s with shut := { s.shut with
        prgs := s.shut.prgs.map fun h => if h == g then { h with reserved := true } else h } }
      let q := s1.waiterRing g.by_
      (s1.shutFault q 3 (s1.waitOffset g.by_ g.page) g.page).failWaiter g.by_ E.PAGE_DENIED)

/-- A non-posted read of the device timed out (R244). The tag names the read: 4x + 0 a stitch read of transfer x, + 1 a ring fetch of QP x, + 2 a
shadow read of QP x, + 3 a PRP or SGL list fetch of the request with rid x (log entry 21). -/
def State.cplTimeout (s : State) (tag : Nat) : State :=
  let n := tag / 4
  if tag % 4 = 0 then
    match s.xfer? n with
    | some x => if x.flight.isEmpty && !(x.st == .running) then s else
        let y := { x with flight := x.flight.take (x.flight.length - 1) }
        s.failXfer y E.CPL_TIMEOUT
    | none => s
  else if tag % 4 = 1 then
    (if (s.qp n).st == .active || (s.qp n).st == .parked then s.failWaiter (.fetch n) E.CPL_TIMEOUT else s)
  else if tag % 4 = 2 then s.setQp n { s.qp n with shadowOut := false }
  else
    match s.qps.findSome? fun e => (e.2.req? n) with
    | some r => if r.st == .walking then s.failWaiter (.walk r.q n) E.CPL_TIMEOUT else s
    | none => s

/-- CPL_TIMEOUT (R244). -/
def execCplTimeout (tag : Nat) (s : State) : Res := .next (s.whenUp fun s => (s.cplTimeout tag).invalSweep)

/-! ### Device IOMMU commands (R148) -/

/-- Remove device-side ATC entries. -/
def State.iommuDrop (s : State) (hit : AtcEnt → Bool) : State :=
  { s with shut := { s.shut with atc := s.shut.atc.filter fun e => !(e.dev && hit e) } }

/-- The local channel of a device ID (R147): 0x0100 + n. -/
def didHits (did : Option Nat) (e : AtcEnt) : Bool :=
  match did with
  | some d => d == 0x100 + e.f
  | none => true

/-- The page of an address, when an operand names one. -/
def addrHits (addr : Option Nat) (e : AtcEnt) : Bool :=
  match addr with
  | some a => decide (e.base ≤ a) && decide (a < e.base + e.size)
  | none => true

/-- IOTINVAL_VMA (R148): first-stage translations leave the ATC. The operand is the device whose context holds them. -/
def execIotinvalVma (did pid addr : Option Nat) (s : State) : Res :=
  .next (s.whenUp fun s => s.iommuDrop fun e => didHits did e && (pid.isNone || e.pasid == pid) && addrHits addr e)
/-- IOTINVAL_GVMA (R148): second-stage translations leave the ATC; an entry holds both stages together, so an address alone names none of
them and every entry of the device goes. -/
def execIotinvalGvma (did _addr : Option Nat) (s : State) : Res :=
  .next (s.whenUp fun s => s.iommuDrop (didHits did))
/-- IODIR_INVAL_DDT (R148): what was translated through the directory entry leaves the ATC. -/
def execIodirInvalDdt (did : Option Nat) (s : State) : Res := .next (s.whenUp fun s => s.iommuDrop (didHits did))
/-- IODIR_INVAL_PDT (R148). -/
def execIodirInvalPdt (did pid : Nat) (s : State) : Res :=
  .next (s.whenUp fun s => s.iommuDrop fun e => didHits (some did) e && e.pasid == some pid)
/-- IOFENCE_C (R148): earlier commands are complete; with AV set the data word is written to memory at ADDR. -/
def execIofenceC (av : Bool) (addr data : BitVec 64) (s : State) : Res :=
  .next (s.whenUp fun s =>
    if !av then s
    else match s.memCheck (.queueTile 0) addr.toNat 4 .write with
      | .ok => s.devWrite addr.toNat (leBytes 4 data.toNat)
      | m => s.logMem (.queueTile 0) .write addr.toNat m)

/-! ### Local channels (R150–R152) -/

/-- The parks of a local channel. -/
def State.lcParks (s : State) (n : Nat) : List Prg := s.shut.prgs.filter fun g => g.port == 1000 + n

/-- Remove the parks of a local channel. -/
def State.lcUnpark (s : State) (n : Nat) : State :=
  { s with shut := { s.shut with prgs := s.shut.prgs.filter fun g => g.port != 1000 + n } }

/-- Settle a list of waiters: run on, or end with E_IOMMU_FAULT. -/
def State.lcSettle (s : State) (deny : Bool) : List Waiter → State
  | [] => s
  | w :: ws => State.lcSettle (if deny then s.failWaiter w E.IOMMU_FAULT else s.wakeWaiter w) deny ws

/-- SHUT_LRESP (R150). -/
def execShutLresp (who : Agent) (data : BitVec 64) (s : State) : Res :=
  .next (s.whenUp fun s =>
    s.regTry who .write R.SHUT_LRESP.off fun s =>
      let n := getBits data 0 8
      let ws := (s.lcParks n).map (·.by_)
      (s.lcUnpark n).lcSettle (getBit data 8) ws)

/-- LFLT_TIMEOUT (R150): a device-side parked transfer ends with E_IOMMU_FAULT. -/
def execLfltTimeout (xid : Nat) (s : State) : Res :=
  .next (s.whenUp fun s =>
    match s.xfer? xid with
    | some x =>
      if x.lc && x.st == .parked then
        let s1 := { s with shut := { s.shut with prgs := s.shut.prgs.filter fun (g : Prg) => g.by_ != Waiter.xfer xid } }
        s1.failXfer x E.IOMMU_FAULT
      else s
    | none => s)

/-- LC_DOORBELL (R152): LC_DB carries the fields of Table 03-16. A narrow store has no effect (R31). -/
def execLcDoorbell (who : Agent) (n len : Nat) (data : BitVec 64) (s : State) : Res :=
  .next (s.whenUp fun s =>
    s.regTry who .write (R.LC_DB.off n) fun s =>
      if len = 8 then s.doorbell (65536 + n) data else s.topEvt R.TOP_STATUS.NARROW_WR)

/-- LC_ENABLE (R152): LC_CTL.ENABLE. The channel runs with the world that SHUT_LCWORLD gives it then. -/
def execLcEnable (who : Agent) (n : Nat) (on : Bool) (s : State) : Res :=
  .next (s.whenUp fun s =>
    s.regTry who .write (R.LC_CTL.off n) fun s =>
      let q := 65536 + n
      if on then
        let c := s.qp q
        (if c.st == .quiesced then s.setQp q { c with world := s.lcLining n } else s).ringEnable q
      else s.ringDisable q)

/-! ### Key slots (R162, R163) -/

/-- Carry out a key command and clear the data registers. -/
def State.keyCmd (s : State) (who : Agent) (data : W64) (load : Bool) : State :=
  s.regTry who .write R.SHUT_KEYCMD.off fun s =>
    let key := (List.range 8).flatMap fun i => leBytes 8 (s.shut.keyData.getD i 0).toNat
    let weak := load && key.take 32 == key.drop 32
    let k : KeySlot := if load && !weak then { owner := getBits data 12 13, key := key } else KeySlot.empty
    let s1 := { s with shut := { s.shut with
      keys := smPut KeySlot.empty s.shut.keys (getBits data 0 12) k, keyData := [] } }
    if weak then s1.setBit R.SHUT_KEYSTAT.WEAK else s1

/-- KEY_LOAD (R163). -/
def execKeyLoad (who : Agent) (data : BitVec 64) (s : State) : Res := .next (s.whenUp fun s => s.keyCmd who data true)
/-- KEY_CLEAR (R163). -/
def execKeyClear (who : Agent) (data : BitVec 64) (s : State) : Res := .next (s.whenUp fun s => s.keyCmd who data false)

/-! ### End of a drain (R85) -/

/-- What QP_QUIESCE with FORCE does not wait for (R85): requests with a parked transfer or buffer walk end with E_REVOKED; a parked fetch is
abandoned; a parked completion write is abandoned with every completion behind it, their requests released. -/
def State.forceDrain (s : State) (q : Nat) : State :=
  let live := s.shut.prgs.filter fun g => !g.late && !g.reserved
  let cplParked := live.any fun g => g.by_ == .cpl q
  let walks := live.filterMap fun g => match g.by_ with
    | .walk q' rid => if q' == q then (s.qp q).req? rid else none
    | _ => none
  let s1 := s.dropRingWaits q
  let s2 := if cplParked then
      let gone := (s1.qp q).reqs.filter fun r => (s1.qp q).cpls.any fun c => c.rid == r.rid
      let t := s1.releaseList true gone
      t.setQp q { t.qp q with cpls := [], reqs := (t.qp q).reqs.filter fun r => !gone.contains r }
    else s1
  let s3 := walks.foldl (fun (s : State) (r : Req) => if ((s.qp q).req? r.rid).isSome then s.finish r E.REVOKED 0 0 else s) s2
  let parked := s3.shut.xfers.filter fun x => x.q == q && (x.st == .parked || x.st == .prgWait)
  (parked.foldl (fun (s : State) (x : Xfer) => s.failXfer x E.REVOKED) s3).refreshPark q

/-- DRAIN_COMPLETE (R85): the last completion of a draining ring is visible. With FORCE, completions that wait behind a parked
completion write are released first. -/
def execDrainComplete (q : QpId) (s : State) : Res :=
  .next (s.whenRing q fun s =>
    match (s.qp q).drain with
    | some d =>
      let s := if d.force then s.forceDrain q else s
      let c := s.qp q
      if c.reqs.all (fun r => r.st == .rxPosted) && c.cpls.isEmpty && !c.contained then
        ((s.releaseAll q false).quiesced q d).quiesceCheck
      else s
    | none => s)

end Sys2Proof.Machine
end

