-- ==== Sys2Proof/Machine/SelvTables.lean ====
section
/-!
DEFINITION. SelvTables.lean: the configured tables of 06_selvedge.md (R204–R207), registers and entries as of a packet's epoch (R174, R175), the
tenant classification table, the flow table, the wildcard ACL, the policers, the exception queues.
-/

namespace Sys2Proof.Machine

/-! ### Epochs -/

/-- Epoch `e` is not older than `E`, in 32-bit serial-number arithmetic (R182). -/
def epochGe (e E : Nat) : Bool := decide ((e + 2 ^ 32 - E % 2 ^ 32) % 2 ^ 32 < 2 ^ 31)

/-- A SELV or EMAC register as it stood under epoch `e` (R174, R175). `hist` holds, newest first, what each stitch edge replaced. -/
def State.regE (s : State) (e off : Nat) : W64 :=
  (s.selv.hist.foldl (fun (acc : W64) h =>
      if epochGe e h.1 then acc
      else match h.2.find? fun r => r.1 == off with
        | some r => r.2
        | none => acc) (s.reg off))

/-- A field of it. -/
def State.fldE (s : State) (e : Nat) (f : Fld) : Nat := getBits (s.regE e f.off) f.lo f.w

/-- An entry is visible to a packet stamped `e` (Table 06-11). -/
def TabEnt.visible (t : TabEnt) (e : Nat) : Bool :=
  (match t.since with
   | some E => epochGe e E
   | none => true) &&
    (match t.till with
     | some E => !epochGe e E
     | none => true)

/-- The entry at a locator that a packet stamped `e` sees. -/
def State.tabAt (s : State) (e table : Nat) (loc : List Byte) : Option TabEnt :=
  s.selv.tabs.find? fun t => t.table == table && t.loc == loc && t.visible e

/-- The live entry at a locator: the one that no commit has removed. -/
def State.tabLive (s : State) (table : Nat) (loc : List Byte) : Option TabEnt :=
  s.selv.tabs.find? fun t => t.table == table && t.loc == loc && t.till.isNone

/-- A table's entry by index (tables 4 to 7), all bytes 0 where there is none. -/
def State.tabIdx (s : State) (e table idx size : Nat) : List Byte :=
  match s.tabAt e table (leBytes 4 idx) with
  | some t => t.image
  | none => zeros size

/-! ### Reasons (Table 06-15) -/

/-- A reason is marked E. -/
def reasonExc (r : Nat) : Bool := r == Rsn.PARSE_LIMIT || r == Rsn.TENANT_MISS || r == Rsn.TTL_EXPIRED || r == Rsn.SA_EXPIRED

/-! ### What the pipeline knows of a packet -/

/-- A packet on its way through stages 1 to 8: TSID (none before stage 2), flow key and hash, action list, winning rule, class after stage 5
(0xFF: not run), accounts of the last COUNT word and of the flow entry, drop precedence, mirrors made, its connection (its key, whether this packet is in
the reply direction), and whether its action list has a committing CT word. -/
structure PCtx where
  p : Pkt
  tsid : Option Nat
  key : List Byte
  hash : Nat
  act : Nat
  rule : Nat
  cls : Nat
  count : Option Nat
  flowAcct : Option Nat
  yellow : Bool
  mirrors : Nat
  conn : Option (List Byte × Bool)
  commits : Bool
  l3 : Nat
  l4 : Nat
  deriving DecidableEq, Repr

/-- A packet that enters stage 1. -/
def PCtx.start (p : Pkt) : PCtx :=
  { p := p, tsid := none, key := [], hash := 0, act := 0, rule := 0xFFFFFFFF, cls := 0xFF, count := none, flowAcct := none, yellow := false,
    mirrors := 0, conn := none, commits := false, l3 := 0, l4 := 0 }

/-- A packet comes from an Ethernet port. -/
def Pkt.fromPort (p : Pkt) : Bool := decide (0x2000 ≤ p.src)

/-- The account of a packet (R192), with the receiving function when there is one. Where R192 names none, the orphan account (log entry 26). -/
def State.pktAcct (s : State) (c : PCtx) (recv : Option Nat) : Nat :=
  match c.p.acct with
  | some a => a
  | none =>
    match c.count with
    | some a => a
    | none =>
      match c.flowAcct with
      | some a => a
      | none =>
        if !c.p.fromPort then s.fldE c.p.epoch (R.SELV_VPORTA.ACCOUNT c.p.src)
        else match recv with
          | some f => s.fldE c.p.epoch (R.SELV_VPORTA.ACCOUNT f)
          | none =>
            match c.tsid with
            | some t => s.fldE c.p.epoch (R.SELV_TSPACE.ACCOUNT t)
            | none => s.fld R.TAPE_CFG.ORPHAN_ACCT

/-! ### Exception queues (R208) -/

/-- The record of Table 06-13. -/
def excRecord (c : PCtx) (reason acct : Nat) (trunc mirror phase : Bool) : List Byte :=
  leBytes 1 reason ++ leBytes 1 c.p.pipe ++
    leBytes 1 (b2n c.p.tx + 2 * b2n trunc + 4 * b2n mirror + 8 * b2n c.p.recirc + 128 * b2n phase) ++ leBytes 1 c.cls ++
    leBytes 2 (c.tsid.getD 0xFFFF) ++ leBytes 2 c.p.src ++ leBytes 2 acct ++ leBytes 2 c.p.frame.length ++ leBytes 4 c.p.epoch ++
    leBytes 8 c.p.time ++ leBytes 4 c.hash ++ leBytes 4 c.rule ++ leBytes 4 (c.act % 2 ^ 24) ++ leBytes 1 c.l3 ++ leBytes 1 c.l4 ++ zeros 26

/-- Above RATE thousand packets per second: the millisecond already holds RATE records. -/
def State.exqOver (s : State) (q : Nat) : Bool :=
  let r := s.fld (R.SELV_EXQ_CTL.RATE q)
  let e := smGet (0, 0) s.selv.exRate q
  r != 0 && e.1 == s.now / 1000000 && decide (r ≤ e.2)

/-- Write a record and its packet into the next slot; the state and a reason when the queue does not take it. -/
def State.exqWrite (s : State) (q : Nat) (c : PCtx) (reason : Nat) (mirror : Bool) : State × Option Nat :=
  let depth := 2 ^ (s.fld (R.SELV_EXQ_RING.DEPTH q) + 1)
  let size := 256 * 2 ^ min 6 (s.fld (R.SELV_EXQ_RING.SLOT q))
  let tail := s.fld (R.SELV_EXQ_DB.TAIL q) % depth
  let a := s.fld (R.SELV_EXQ_RING.BASE q) * 4096 + tail * size
  if !s.bit (R.SELV_EXQ_RING.ENABLE q) || (tail + 1) % depth == s.fld (R.SELV_EXQ_DB.HEAD q) % depth then (s, some Rsn.EXQ_FULL)
  else if s.exqOver q then (s, some Rsn.EXQ_RATE)
  else
    let m := s.memCheck (.queueTile c.p.pipe) a size .write
    if m ≠ .ok then (s.logMem (.queueTile c.p.pipe) .write a m, some Rsn.EXQ_FULL)
    else
      let ph := smGet true s.selv.exPhase q
      let fr := c.p.frame.take (size - 64)
      let rec_ := excRecord c reason (s.pktAcct c none) (decide (size - 64 < c.p.frame.length)) mirror ph
      let s1 := (s.devWrite a (rec_ ++ fr)).unpoison a (64 + fr.length)
      let t := (tail + 1) % depth
      let ms := s.now / 1000000
      let e := smGet (0, 0) s.selv.exRate q
      let s2 := s1.setFld (R.SELV_EXQ_DB.TAIL q) t
      let s3 := { s2 with selv := { s2.selv with
        exPhase := smPut true s2.selv.exPhase q (if t = 0 then !ph else ph)
        exRate := smPut (0, 0) s2.selv.exRate q (ms, if e.1 = ms then e.2 + 1 else 1) } }
      let s4 := s3.pcnt c.p.pipe 8
      (if s.bit (R.SELV_EXQ_RING.INT_EN q) then s4.msi (s.fld (R.SELV_EXQ_RING.HART q)) (s.fld (R.SELV_EXQ_CTL.EIID q)) else s4, none)

/-- A packet goes to an exception queue; a queue that does not take it drops it (R208). -/
def State.toExq (s : State) (q : Nat) (c : PCtx) (reason : Nat) (mirror : Bool) : State :=
  match s.exqWrite q c reason mirror with
  | (s1, none) => s1
  | (s1, some r) => s1.netDrop c.p.pipe r

/-- A packet takes a hardware reason (R208, R210): an exception with its record where the reason is marked E and queue HW_EXQ is enabled, else a
drop. Either is counted. -/
def State.pktReason (s : State) (c : PCtx) (r : Nat) : State :=
  let q := s.fldE c.p.epoch R.SELV_CFG.HW_EXQ
  if reasonExc r && s.bit (R.SELV_EXQ_RING.ENABLE q) then
    match s.exqWrite q c r false with
    | (s1, none) => s1.wrapCount (R.SELV_DROP.off c.p.pipe r)
    | (s1, some x) => s1.netDrop c.p.pipe x
  else s.netDrop c.p.pipe r

/-! ### Tenant classification (R178) -/

/-- The locator of a TCT entry: KIND, PORT, VALUE0, VALUE1. -/
def tctLoc (image : List Byte) : List Byte := image.take 2 ++ (image.drop 4).take 8

/-- The TCT keys of a received packet in the order of KIND 1 to 6: kind, VALUE0 and VALUE1. -/
def tctKeys (p : Parsed) (fr : List Byte) : List (Nat × List Byte) :=
  let o := p.outer
  let tun (k v : Nat) : List (Nat × List Byte) := if o.tun = k then [(k, leBytes 4 v ++ zeros 4)] else []
  let vids := o.tags.map fun t => t % 4096
  tun 1 o.vni ++ tun 2 o.vni ++ tun 3 o.vni ++
    (match vids with
     | a :: _ => [(4, leBytes 4 a ++ zeros 4)]
     | [] => []) ++
    (match vids with
     | a :: b :: _ => [(5, leBytes 4 a ++ leBytes 4 b)]
     | _ => []) ++
    [(6, fr.take 4 ++ (fr.drop 4).take 2 ++ zeros 2)]

/-- The first entry that matches: for each key the entry of its port, then the entry of any port. -/
def State.tctFind (s : State) (e port : Nat) (keys : List (Nat × List Byte)) : Option (Nat × TabEnt) :=
  keys.findSome? fun k =>
    let at_ (pt : Nat) : Option TabEnt := s.tabAt e 1 (leBytes 1 k.1 ++ leBytes 1 pt ++ k.2)
    match (at_ port).or (at_ 0xFF) with
    | some t => some (k.1, t)
    | none => none

/-- Stage 2 of a received packet: its TSID and its frame after STRIP. -/
def State.tctClassify (s : State) (e port : Nat) (p : Parsed) (fr : List Byte) : Option (Nat × List Byte) :=
  match s.tctFind e port (tctKeys p fr) with
  | none => none
  | some (k, t) =>
    let strip := (leAt t.image 14 1).testBit 0
    let fr1 :=
      if !strip then fr
      else if k ≤ 3 then (decap fr p 1).getD fr
      else if k = 4 then vlanPop fr
      else if k = 5 then vlanPop (vlanPop fr)
      else fr
    some (leAt t.image 12 2 % 4096, fr1)

/-! ### Flow table (R180–R183) -/

/-- Fields of a flow entry. -/
def flowAction (im : List Byte) : Nat := leAt im 40 3
def flowLearned (im : List Byte) : Bool := (leAt im 43 1).testBit 0
def flowAcl (im : List Byte) : Bool := (leAt im 43 1).testBit 1
def flowAcct (im : List Byte) : Option Nat := if (leAt im 43 1).testBit 4 then some (leAt im 44 2 % 8192) else none
def flowLearnEpoch (im : List Byte) : Nat := leAt im 48 4
def flowLastHit (im : List Byte) : Nat := leAt im 56 4

/-- Seconds of device time, as entries keep them. -/
def State.secs (s : State) : Nat := s.now / 1000000000 % 2 ^ 32

/-- ACL_EPOCH of a tenant space as a packet stamped `e` sees it (R182). -/
def State.aclEpochE (s : State) (e t : Nat) : Option Nat := (smGet [] s.selv.aclEpoch t).find? fun E => epochGe e E

/-- A learned entry older than ACL_EPOCH is treated as absent (R182). -/
def State.flowFresh (s : State) (e t : Nat) (im : List Byte) : Bool :=
  !flowLearned im ||
    match s.aclEpochE e t with
    | some E => epochGe (flowLearnEpoch im) E
    | none => true

/-- The flow entry that a packet's key hits. A configured entry goes before a learned one (Table 06-17). -/
def State.flowFind (s : State) (e t : Nat) (key : List Byte) : Option TabEnt :=
  match s.selv.tabs.find? fun x => x.table == 2 && x.loc == key && !flowLearned x.image && x.visible e with
  | some x => some x
  | none => s.selv.tabs.find? fun x => x.table == 2 && x.loc == key && flowLearned x.image && s.flowFresh e t x.image

/-- A packet matched an entry: HITS and LAST_HIT. -/
def State.flowHit (s : State) (x : TabEnt) : State :=
  let im := x.image.take 52 ++ leBytes 4 (min (leAt x.image 52 4 + 1) 0xFFFFFFFF) ++ leBytes 4 s.secs ++ x.image.drop 60
  { s with selv := { s.selv with tabs := s.selv.tabs.map fun y => if y = x then { x with image := im } else y } }

/-- Slots of the flow cache that a key takes (R181). -/
def keySlots (key : List Byte) : Nat := if leAt key 0 2 / 4096 = 1 then 2 else 1

/-- Keep as many keys as fit, the newest. -/
def cacheFit : Nat → List (Nat × List Byte) → List (Nat × List Byte)
  | _, [] => []
  | n, k :: ks => if n < keySlots k.2 then [] else k :: cacheFit (n - keySlots k.2) ks

/-- A pipeline's flow cache takes a key: 262,144 slots less the pinned ones (R181; which entry goes is log entry 27). -/
def State.cacheFill (s : State) (p : Nat) (key : List Byte) : State :=
  let pinned := (s.selv.tabs.filter fun t => t.table == 1 || (t.table == 7 && leNat t.loc / 65536 == p)).length
  let mine := (p, key) :: s.selv.cache.filter fun e => e.1 == p && e.2 != key
  { s with selv := { s.selv with cache := cacheFit (262144 - pinned) mine ++ s.selv.cache.filter fun e => e.1 != p } }

/-- The key is in a pipeline's cache. -/
def State.cached (s : State) (p : Nat) (key : List Byte) : Bool := s.selv.cache.any fun e => e.1 == p && e.2 == key

/-- Entries that the flow table's region holds buckets of four for. -/
def flowBuckets (log2 : Nat) : Nat := min 67108864 (2 ^ log2 / 64) / 4

/-- Entries of a bucket that are configured, or that the session has staged. -/
def State.bucketCfg (s : State) (b : Nat) : Nat :=
  (s.selv.tabs.filter fun t => t.table == 2 && t.bucket == b && !flowLearned t.image).length +
    (match s.onf.session with
     | some ss => (ss.tabs.filter fun t => t.table == 2 && t.bucket == b && t.image.isSome).length
     | none => 0)

/-- Learned entries of a bucket. -/
def State.bucketLearned (s : State) (b : Nat) : List TabEnt := s.selv.tabs.filter fun t => t.table == 2 && t.bucket == b && flowLearned t.image

/-- The bucket of a key with a slot that no configured entry takes. -/
def State.bucketFor (s : State) (log2 : Nat) (key : List Byte) : Option Nat :=
  let n := flowBuckets log2
  let b0 := Config.flowBucket key n false % max n 1
  let b1 := Config.flowBucket key n true % max n 1
  if n = 0 then none else if s.bucketCfg b0 < 4 then some b0 else if s.bucketCfg b1 < 4 then some b1 else none

/-- A bucket with more than four entries loses learned ones, the one that a free value picks first. -/
def State.bucketTrim (s : State) (b : Nat) : State :=
  let l := s.bucketLearned b
  if 4 < s.bucketCfg b + l.length then
    match l[s.free % max 1 l.length]? with
    | some x => let s1 := s.drawn; { s1 with selv := { s1.selv with tabs := s1.selv.tabs.erase x } }
    | none => s
  else s

/-- Install a learned flow (R185): LEARN_FULL rises when both buckets hold configured entries. -/
def State.learn (s : State) (c : PCtx) (action : Nat) : State :=
  match s.bucketFor (s.fldE c.p.epoch (R.SELV_TBASE.LOG2 0)) c.key with
  | none => s.pcnt c.p.pipe 6
  | some b =>
    let im := c.key ++ leBytes 3 action ++ leBytes 1 1 ++ zeros 4 ++ leBytes 4 c.p.epoch ++ zeros 4 ++ leBytes 4 s.secs ++ zeros 4
    let old := s.selv.tabs.filter fun t => !(t.table == 2 && t.loc == c.key && flowLearned t.image)
    let x : TabEnt := { table := 2, loc := c.key, image := im, since := none, till := none, bucket := b }
    let s1 : State := { s with selv := { s.selv with tabs := old ++ [x] } }
    ((s1.bucketTrim b).pcnt c.p.pipe 5).cacheFill c.p.pipe c.key

/-! ### Wildcard ACL (R184, R185) -/

/-- The leading `n` bits of two addresses agree. -/
def prefixEq (n : Nat) (a b : List Byte) : Bool :=
  let w := 8 * a.length
  let m := min n w
  beNat a / 2 ^ (w - m) == beNat b / 2 ^ (w - m)

/-- A rule's fields. -/
def aclPrio (im : List Byte) : Nat := leAt im 0 2
def aclRule (im : List Byte) : Nat := leAt im 52 4
def aclAction (im : List Byte) : Nat := leAt im 48 3
def aclLearn (im : List Byte) : Bool := (leAt im 51 1).testBit 0

/-- A rule matches a flow key of type `kt`. -/
def aclMatches (im key : List Byte) : Bool :=
  let kt := leAt key 0 2 / 4096
  let dir := leAt key 3 1 % 2
  let n := if kt = 0 then 4 else if kt = 1 then 16 else 14
  let rk := leAt im 2 1
  (rk % 16 == 15 || rk % 16 == kt) && (leAt im 3 1).testBit dir &&
    decide (leAt im 4 2 ≤ leAt key 4 2) && decide (leAt key 4 2 ≤ leAt im 6 2) && decide (leAt im 8 2 ≤ leAt key 6 2) &&
    decide (leAt key 6 2 ≤ leAt im 10 2) && (leAt im 12 1 &&& leAt im 13 1) == (leAt key 2 1 &&& leAt im 13 1) &&
    prefixEq (leAt im 14 1) ((im.drop 16).take n) ((key.drop 8).take n) && prefixEq (leAt im 15 1) ((im.drop 32).take n) ((key.drop 24).take n)

/-- One rule goes before another: higher PRIO, then lower RULE_ID. -/
def aclBefore (a b : List Byte) : Bool :=
  decide (aclPrio b < aclPrio a) || (aclPrio a == aclPrio b && decide (aclRule a < aclRule b))

/-- The winning rule of a tenant space. -/
def State.aclFind (s : State) (e tsid : Nat) (key : List Byte) : Option (List Byte) :=
  (s.selv.tabs.filter fun t => t.table == 3 && leAt t.loc 0 2 == tsid && t.visible e && aclMatches t.image key).foldl
    (fun (best : Option (List Byte)) t => match best with
      | some b => if aclBefore t.image b then some t.image else some b
      | none => some t.image) none

/-! ### Policers (R193) -/

/-- The fields of a policer: CIR and PIR in kbit/s, CBS and PBS in bytes. -/
def polField (im : List Byte) (i : Nat) : Nat := leAt im (8 * i) 8

/-- 1/8,000,000 byte: what 1 kbit/s brings in 1 ns is one of them. -/
def meterUnit : Nat := 8000000

/-- A policer refilled to now; it starts with both buckets full (R193, RFC 2698). -/
def State.meterNow (s : State) (i : Nat) (im : List Byte) : Meter :=
  let m := smGet (Meter.mk (polField im 2 * meterUnit) (polField im 3 * meterUnit) 0) s.selv.meters i
  let dt := s.now - m.at_
  { tc := min (m.tc + dt * polField im 0) (polField im 2 * meterUnit), tp := min (m.tp + dt * polField im 1) (polField im 3 * meterUnit), at_ := s.now }

/-- The conformance check of a two-rate three-colour meter, colour-blind: 0 green, 1 yellow, 2 red. -/
def State.police (s : State) (i : Nat) (im : List Byte) (len : Nat) : State × Nat :=
  let m := s.meterNow i im
  let b := len * meterUnit
  let put (x : Meter) : State :=
    { s with
      selv := { s.selv with meters := smIns s.selv.meters i x } }
  if m.tp < b then (put m, 2)
  else if m.tc < b then (put { m with tp := m.tp - b }, 1)
  else (put { m with tp := m.tp - b, tc := m.tc - b }, 0)

/-! ### Packet buffer (R197) -/

/-- Cells of 256 B that a frame takes. -/
def cells (fr : List Byte) : Nat := (fr.length + 255) / 256

/-- Panel of an Ethernet port's MAC: the lower panel of a spanning group (R16). -/
def macPanel (port : Nat) : Nat := if port / 8 = 1 then 0 else if port / 8 = 4 then 2 else port / 12

/-- Key of a port's class queue. -/
def classKey (port cls : Nat) : Nat := 8 * port + cls

/-- A port's class queue. -/
def State.classQ (s : State) (port cls : Nat) : List TxPkt := smGet [] s.selv.egress (classKey port cls)

/-- Cells that packets in a panel's buffer take. -/
def State.cellsUsed (s : State) (p : Nat) : Nat :=
  ((s.selv.miss.filter fun x => x.pipe == p).map fun x => cells x.frame).sum +
    ((s.selv.rx.filter fun x => x.pipe == p).map fun x => cells x.frame).sum +
    ((s.selv.egress.filter fun e => macPanel (e.1 / 8) == p).map fun e => (e.2.map fun x => cells x.frame).sum).sum

/-- Free cells of a panel's 16 MiB. -/
def State.cellsFree (s : State) (p : Nat) : Nat := 65536 - s.cellsUsed p

/-- Cells held for a class of a port's received traffic. -/
def State.cellsHeld (s : State) (port cls : Nat) : Nat :=
  ((s.selv.miss.filter fun x => x.src == 0x2000 + port && x.cls == cls).map fun x => cells x.frame).sum +
    ((s.selv.rx.filter fun x => x.src == 0x2000 + port && x.cls == cls).map fun x => cells x.frame).sum +
    (s.selv.egress.map fun e => ((e.2.filter fun x => x.src == 0x2000 + port && x.cls == cls).map fun x => cells x.frame).sum).sum

/-- A port's class is lossless: LOSSLESS with PFC on (R202). -/
def State.lossless (s : State) (port cls : Nat) : Bool := s.bit (R.EMAC_GCFG.PFC_EN (port / 8)) && s.bit (R.SELV_ETC.LOSSLESS port cls)

/-- PFC XOFF above XOFF_KIB and XON below XON_KIB for one class of a port (R202). -/
def State.pfcUpdate (s : State) (port cls : Nat) : State :=
  let k := classKey port cls
  let held := s.cellsHeld port cls * 256
  let off := s.selv.xoff.contains k
  if !s.lossless port cls then s
  else if !off && decide (s.fld (R.SELV_ETC.XOFF_KIB port cls) * 1024 < held) then
    ({ s with selv := { s.selv with xoff := s.selv.xoff ++ [k] } }).emit (.pfc port cls true)
  else if off && decide (held < s.fld (R.SELV_ETC.XON_KIB port cls) * 1024) then
    ({ s with selv := { s.selv with xoff := s.selv.xoff.erase k } }).emit (.pfc port cls false)
  else s

/-- The classes that a packet leaving the buffer may release. -/
def State.pfcLeft (s : State) (src cls : Nat) : State := if 0x2000 ≤ src then s.pfcUpdate (src - 0x2000) cls else s

/-- The port exists in its group's mode (Table 06-1). -/
def State.ethPort (s : State) (e port : Nat) : Bool :=
  let m := s.fldE e (R.EMAC_GCFG.MODE (port / 8))
  decide (port < 48) &&
    (if m = 1 then port % 8 == 0 else if m = 2 then port % 4 == 0 else if m = 3 then port % 2 == 0 else m == 4 || m == 5)

/-- Queue a frame for a port and class (R201): not beyond half of the free cells, a quarter for drop precedence 1; a lossless class takes no
BUF_FULL. -/
def State.egressPut (s : State) (c : PCtx) (port cls : Nat) (x : TxPkt) (yellow : Bool) : State :=
  let q := s.classQ port cls
  let occ := (q.map fun y => cells y.frame).sum + cells x.frame
  let free := s.cellsFree (macPanel port)
  if !s.lossless port cls && decide (free ≤ occ * (if yellow then 4 else 2)) then s.pktReason c Rsn.BUF_FULL
  else { s with selv := { s.selv with egress := smPut [] s.selv.egress (classKey port cls) (q ++ [x]) } }

end Sys2Proof.Machine
end

