-- ==== Sys2Proof/Machine/Session.lean ====
section
/-!
DEFINITION. Session.lean: the baste session (R59–R64): who may act on it, what a command or a hart write stages, the staged view of
registers and tables, and the mirroring of staged values to the twin (R70).
-/

namespace Sys2Proof.Machine

/-! ### RWB registers -/

/-- The live offset of the RWB register whose staged copy stands at an offset. -/
def rwbLive (off : Nat) : Option Nat :=
  match regFind off with
  | some (d, false) =>
    match d.live with
    | some l => some (off + l)
    | none => none
  | _ => none

/-- The offset of the staged copy of the register whose live copy stands at an offset. -/
def rwbStaged (live : Nat) : Nat :=
  match regFind live with
  | some (d, true) => live - d.live.getD 0
  | _ => live

/-- The world tag L. -/
def lTagged (off : Nat) : Bool := regTag off == some RegTag.l

/-- Whether a staged write has an effect: account 0 is always enabled, SELV_TBASE moves only while Selvedge is stopped, GALV_SHADOW only on a
solo device. -/
def State.stageable (s : State) (live : Nat) : Bool :=
  if live == R.TAPE_ACCT.off 0 then false
  else if decide (R.SELV_TBASE.off 0 ≤ live) && decide (live < R.SELV_TBASE.off 6) then !s.bit R.SELV_CFG.ENABLE
  else if live == R.GALV_SHADOW.off then s.role == 0
  else true

/-- The staged copy after a write of `v`. -/
def State.stageVal (s : State) (live : Nat) (v : W64) : W64 :=
  match regFind live with
  | some (d, _) => if s.stageable live then writeFlds d.flds (s.staged live) v else s.staged live
  | none => s.staged live

/-! ### The session -/

/-- The open session takes a value. -/
def State.setSession (s : State) (x : Option Session) : State := { s with onf := { s.onf with session := x } }

/-- The session that a client of this device opened (the mirror's copy of the lead's session has number 0). -/
def State.openSession (s : State) : Option Session :=
  match s.onf.session with
  | some ss => if ss.number = 0 then none else some ss
  | none => none

/-- ONF_BASTE_STAT.STATE follows the session. -/
def State.showSession (s : State) : State :=
  match s.openSession with
  | none => ((s.setFld R.ONF_BASTE_STAT.STATE 0).setFld R.ONF_BASTE_STAT.CRITICAL 0).setFld R.ONF_BASTE_STAT.OWNER 0
  | some ss =>
    (((s.setFld R.ONF_BASTE_STAT.STATE (if ss.armed.isSome then 3 else if ss.checked then 2 else 1)).setFld
      R.ONF_BASTE_STAT.CRITICAL (b2n ss.critical)).setFld R.ONF_BASTE_STAT.SESSION ss.number).setFld R.ONF_BASTE_STAT.OWNER ss.owner

/-- QPs held under R63 are released; one with ENABLE 1 and HELD 0 starts (R87). -/
def State.unholdAll (s : State) : List Nat → State
  | [] => s
  | q :: qs =>
    let c := { s.qp q with sessHeld := false }
    let s1 := s.setQp q c
    State.unholdAll (if c.st == .quiesced && c.enable && !c.held && c.drain.isNone then s1.activate q else s1) qs

/-- The session closes: its staged copies are gone, its holds end. -/
def State.closeSession (s : State) : State :=
  match s.onf.session with
  | some ss => (((s.setSession none).setReg R.ONF_STITCH_AT.off 0).unholdAll ss.held).showSession
  | none => s

/-- An owner's command restarts the idle time (R61); an armed session has none. -/
def State.heard (s : State) (r : OnfReq) (named : Option Nat) : State :=
  match s.openSession with
  | some ss =>
    if ss.owner == r.sender && (r.crit || !ss.critical) && ss.armed.isNone && (named.getD ss.number == ss.number) then
      s.setSession (some { ss with idleAt := s.now })
    else s
  | none => s

/-- A lead whose link to a paired peer is lost takes no staging command (R290). -/
def State.linkLost (s : State) : Bool := s.role == 1 && !s.sync && s.galv.peer == .paired

/-- Judge a command of the session and run it (R59, R61, R65, R290): `foreign` is the code for a sender other than the owner. -/
def State.inSession (s : State) (r : OnfReq) (op : Nat) (named : Option Nat) (foreign : Nat) (staging : Bool)
    (k : State → Session → State) : State :=
  match s.openSession with
  | none => s.reply r op E.BASTE_NONE []
  | some ss =>
    if named.getD ss.number != ss.number then s.reply r op E.BASTE_NONE []
    else if ss.owner != r.sender then s.reply r op foreign []
    else if ss.critical && !r.crit then s.reply r op E.NOT_CRITICAL []
    else
      let s1 := s.heard r named
      if staging && ss.armed.isSome then s1.reply r op E.BASTE_ARMED []
      else if staging && s.linkLost then s1.reply r op E.TWIN_UNSYNC []
      else k s1 ss

/-- A command of the session is refused for its parameters; it restarts the idle time all the same. -/
def State.sessNo (s : State) (r : OnfReq) (op : Nat) (named : Option Nat) (code : Nat) : State := (s.heard r named).reply r op code []

/-! ### Staging -/

/-- What a session holds of a table entry. -/
def Session.tab? (ss : Session) (table : Nat) (loc : List Byte) : Option TabStage :=
  ss.tabs.find? fun t => t.table == table && t.loc == loc

/-- The session's staged entries without one. -/
def Session.dropTab (ss : Session) (table : Nat) (loc : List Byte) : List TabStage :=
  ss.tabs.filter fun t => !(t.table == table && t.loc == loc)

/-- Stage one register value in the open session. -/
def State.stageReg (s : State) (e : Nat × W64) : State :=
  match s.onf.session with
  | some ss => s.setSession (some { ss with regs := smIns ss.regs e.1 (s.stageVal e.1 e.2), checked := false })
  | none => s

/-- Stage several. -/
def State.stageRegs (s : State) : List (Nat × W64) → State
  | [] => s
  | e :: es => State.stageRegs (s.stageReg e) es

/-- Stage one table entry. A staged delete of an entry that only the session added drops the add. -/
def State.stageTab (s : State) (t : TabStage) : State :=
  match s.onf.session with
  | some ss =>
    let rest := ss.dropTab t.table t.loc
    let keep := t.image.isSome || (s.tabLive t.table t.loc).isSome
    s.setSession (some { ss with tabs := if keep then rest ++ [t] else rest, checked := false })
  | none => s

/-- Stage several. -/
def State.stageTabs (s : State) : List TabStage → State
  | [] => s
  | t :: ts => State.stageTabs (s.stageTab t) ts

/-- Registers of one device's own pins, staged on that device alone (R70): HPORT, EMAC and DMC. -/
def ownPins (off : Nat) : Bool :=
  (decide (0x5000000 ≤ off) && decide (off < 0x5200000)) || (decide (0x6000000 ≤ off) && decide (off < 0x6180000)) ||
    (decide (0x7000000 ≤ off) && decide (off < 0x7800000))

/-- What a session held of registers, newest value per offset, to be put back. -/
def State.undoRegs (s : State) (l : List (Nat × W64)) : List (Nat × Option W64) :=
  match s.onf.session with
  | some ss => l.map fun e => (e.1, (ss.regs.find? fun x => x.1 == e.1).map (·.2))
  | none => []

/-- What it held of table entries. -/
def State.undoTabs (s : State) (l : List TabStage) : List (Nat × List Byte × Option TabStage) :=
  match s.onf.session with
  | some ss => l.map fun t => (t.table, t.loc, ss.tab? t.table t.loc)
  | none => []

/-- Stage what one command carries and answer it; in a mirroring pair the reply waits for the mirror's acknowledgement (R70). -/
def State.stageAnd (s : State) (r : OnfReq) (op : Nat) (regs : List (Nat × W64)) (tabs : List TabStage) (params : List Byte) : State :=
  let chk := match s.onf.session with
    | some ss => ss.checked
    | none => false
  let w : TwinWait := { req := r, opcode := op, params := params, undoRegs := s.undoRegs regs, undoTabs := s.undoTabs tabs, undoChecked := chk, check := false, viol := [] }
  let s1 := ((s.stageRegs regs).stageTabs tabs).showSession
  let far := regs.filter fun e => !ownPins e.1
  if s.mirrored && !(far.isEmpty && tabs.isEmpty) then
    ({ s1 with onf := { s1.onf with twinWaits := s1.onf.twinWaits ++ [w] } }).sendFlit
      (.stage true (far.map fun (e : Nat × W64) => (e.1, s1.staged e.1)) (tabs.map fun (t : TabStage) => (t.table, t.loc, t.image)))
  else s1.reply r op 0 params

/-- Withdraw what a command staged. -/
def State.unstage (s : State) (w : TwinWait) : State :=
  match s.onf.session with
  | some ss =>
    let regs := w.undoRegs.foldl (fun (m : SMap W64) e => match e.2 with
      | some v => smIns m e.1 v
      | none => smDel m e.1) ss.regs
    let tabs := w.undoTabs.foldl (fun (l : List TabStage) e =>
      let rest := l.filter fun t => !(t.table == e.1 && t.loc == e.2.1)
      match e.2.2 with
      | some t => rest ++ [t]
      | none => rest) ss.tabs
    (s.setSession (some { ss with regs := regs, tabs := tabs, checked := w.undoChecked })).showSession
  | none => s

/-! ### The staged view -/

/-- Insert a number into a rising list. -/
def insUp (x : Nat) : List Nat → List Nat
  | [] => [x]
  | y :: ys => if x < y then x :: y :: ys else if x = y then y :: ys else y :: insUp x ys

/-- A list in rising order without repeats. -/
def sortUp (l : List Nat) : List Nat := l.foldr insUp []

/-- The live offsets from `lo` up to `hi` that hold something in the live or the staged state, rising. -/
def State.named (s : State) (lo hi : Nat) : List Nat :=
  let pick (m : SMap W64) : List Nat := (m.filter fun e => decide (lo ≤ e.1) && decide (e.1 < hi)).map (·.1)
  let a := pick s.regs
  match s.onf.session with
  | some ss => (pick ss.regs).foldr insUp a
  | none => a

/-- The granted QPs, in a view: QP, function, local index. -/
def State.owners (s : State) (stg : Bool) : List (Nat × Nat × Nat) :=
  ((s.named (R.QFAB_QOWN.off 0) (R.QFAB_QOWN.off 65536)).map fun o => (o - R.QFAB_QOWN.off 0) / 8).filterMap fun q =>
    if s.view stg (R.QFAB_QOWN.VALID q) == 1 then some (q, s.view stg (R.QFAB_QOWN.FUNCTION q), s.view stg (R.QFAB_QOWN.LOCAL q)) else none

/-- The functions that exist in a view, rising: VFs with ENABLE 1, PFs of enabled ports. -/
def State.fnList (s : State) (stg : Bool) : List Nat :=
  (((s.named (R.QFAB_FNCFG.off 0) (R.QFAB_FNCFG.off 0x1000)).map fun o => (o - R.QFAB_FNCFG.off 0) / 8).filter fun f =>
    s.view stg (R.QFAB_FNCFG.ENABLE f) == 1) ++ ((List.range 32).map (0x1000 + ·)).filter fun f => s.fnExists stg f

/-- The host port of a function in a view. -/
def State.fnPortV (s : State) (stg : Bool) (f : Nat) : Nat := if isPf f then f - 0x1000 else s.view stg (R.QFAB_FNCFG.PORT f)

/-- The entries of a configured table in a view: locator and image. Learned flows are not configuration. -/
def State.tabView (s : State) (stg : Bool) (table : Nat) : List (List Byte × List Byte) :=
  let live := (s.selv.tabs.filter fun t => t.table == table && t.till.isNone && !(table == 2 && flowLearned t.image)).map fun t => (t.loc, t.image)
  match stg, s.onf.session with
  | true, some ss =>
    (live.filter fun e => (ss.tab? table e.1).isNone) ++ (ss.tabs.filter fun t => t.table == table).filterMap fun t => t.image.map fun im => (t.loc, im)
  | _, _ => live

/-! ### R49: the PF mailbox -/

/-- Whether a command on a PF mailbox may act on a function: the PF of that port and its VFs. -/
def State.mine (s : State) (stg : Bool) (r : OnfReq) (f : Nat) : Bool :=
  !decide (r.ch < 32) || (if isPf f then f == 0x1000 + r.ch else s.fnExists stg f && s.fnPortV stg f == r.ch)

/-- Whether a command on a PF mailbox may stage a value in a register: one that names a function of the port, or the port. Every other register
is state shared beyond the port. -/
def State.minePort (s : State) (r : OnfReq) (e : Nat × W64) : Bool :=
  let inArr (base last : Nat) : Bool := decide (base ≤ e.1) && decide (e.1 < last)
  let own (f : Nat) : Bool := s.mine true r f
  if !decide (r.ch < 32) then true
  else if e.1 == R.HPORT_CFG.off r.ch then true
  else if inArr (R.QFAB_FNCFG.off 0) (R.QFAB_FNCFG.off 0x1020) then
    let f := (e.1 - R.QFAB_FNCFG.off 0) / 8
    if isPf f then own f else (!s.fnExists true f || own f) && getBits e.2 8 5 == r.ch
  else if inArr (R.QFAB_FSCHED0.off 0) (R.QFAB_FSCHED0.off 0x1020) then own ((e.1 - R.QFAB_FSCHED0.off 0) / 16)
  else if inArr (R.QFAB_QOWN.off 0) (R.QFAB_QOWN.off 65536) then
    let q := (e.1 - R.QFAB_QOWN.off 0) / 8
    (s.stagedFld (R.QFAB_QOWN.VALID q) == 0 || own (s.stagedFld (R.QFAB_QOWN.FUNCTION q))) && (!getBit e.2 15 || own (getBits e.2 0 13))
  else false

end Sys2Proof.Machine
end

