-- ==== Sys2Proof/Machine/Tape.lean ====
section
/-!
DEFINITION. Tape.lean: the Tape of 07_tape.md: counters and banks, the minute cut, records and the ledger ring, the twin's increments, and the
TAPE commands of Onafaet.
-/

namespace Sys2Proof.Machine

/-! ### Banks -/

/-- The idle bank. -/
def State.idleBank (s : State) : TapeBank := if s.bit R.TAPE_STATUS.BANK then s.tape.bank0 else s.tape.bank1

/-- The active bank takes a value. -/
def State.setActive (s : State) (x : TapeBank) : State := s.setBank (s.bit R.TAPE_STATUS.BANK) x

/-- The idle bank takes a value. -/
def State.setIdle (s : State) (x : TapeBank) : State := s.setBank (!s.bit R.TAPE_STATUS.BANK) x

/-- Header FLAGS bits (Table 07-7). -/
abbrev TapeFlag.merged : Nat := 1
abbrev TapeFlag.reset : Nat := 2
abbrev TapeFlag.coldStart : Nat := 4
abbrev TapeFlag.timeStep : Nat := 8
abbrev TapeFlag.holdover : Nat := 16
abbrev TapeFlag.takeover : Nat := 32
abbrev TapeFlag.peerLate : Nat := 64
abbrev TapeFlag.skew : Nat := 128
abbrev TapeFlag.lateAdded : Nat := 256

/-- A bank's record gets header flags. -/
def TapeBank.mark (b : TapeBank) (bits : Nat) : TapeBank := { b with hdr := b.hdr ||| bits }

/-- The active bank's record gets header flags. -/
def State.tapeMark (s : State) (bits : Nat) : State := s.setActive (s.bank.mark bits)

/-- The accounts enabled in the live state. -/
def State.enabledAccts (s : State) : List Nat :=
  0 :: ((s.regs.filter fun e => decide (R.TAPE_ACCT.off 1 ≤ e.1) && decide (e.1 < R.TAPE_ACCT.off 8192) && getBits e.2 0 1 == 1).map fun e =>
    (e.1 - R.TAPE_ACCT.off 0) / 8)

/-- EFLAGS bits put on each account of a list. -/
def TapeBank.flagAll (b : TapeBank) (bits : Nat) : List Nat → TapeBank
  | [] => b
  | a :: as => TapeBank.flagAll (b.flag a bits) bits as

/-- The last cycle of a bank's span: the accounts then enabled (mark 256) and the orphan account then named take their marks (R224). -/
def State.sealed (s : State) (b : TapeBank) : TapeBank :=
  { (b.flagAll 256 s.enabledAccts).flag (s.fld R.TAPE_CFG.ORPHAN_ACCT) 4 with epochLast := s.epoch }

/-- A bank that begins to count in a minute. -/
def State.openBank (s : State) (minute : Nat) : TapeBank :=
  { TapeBank.empty with
    first := minute, hdr := (if s.bit R.TMU_T00_CTL.LOCKED then 0 else TapeFlag.holdover), epochFirst := s.epoch, epochLast := s.epoch }

/-- The peer's cut marker of a minute, if it has come. -/
def State.peerCut (s : State) (minute : Nat) : Option Nat := (s.tape.markers.find? fun e => e.1 == minute).map (·.2)

/-- In a twin pair. -/
def State.paired (s : State) : Bool := s.role == 1 || s.role == 2

/-- Cuts more than 100 ns apart. -/
def skewed (a b : Nat) : Bool := decide (a + 100 < b) || decide (b + 100 < a)

/-- Compare this twin's cut of a minute with the peer's (R231). -/
def State.skewCheck (s : State) (minute : Nat) : State :=
  match s.peerCut minute with
  | some t =>
    let b := s.idleBank
    if b.closed && b.first + b.span == minute + 1 && skewed t s.tape.cutTime then
      (s.setIdle (b.mark TapeFlag.skew)).tapeEvt R.TAPE_STATUS.SKEW_EVT
    else s
  | none => s

/-- Device time has passed the end of the open span. -/
def State.minuteDue (s : State) : Bool := decide (s.bank.first + s.bank.span ≤ s.minute)

/-- The flip of the bank pointer, or the skip when the idle bank is not drained (R218, R220, R221). -/
def State.bankFlip (s : State) : State :=
  let m := s.minute
  let b := s.bank
  if s.bit R.TAPE_STATUS.DRAINED then
    let shut : TapeBank :=
      { s.sealed b with
        span := m - b.first, closed := true, roleAtCut := s.role, hdr := if m = b.first + 1 then b.hdr else b.hdr ||| TapeFlag.merged }
    let s1 := s.setActive shut
    let s2 := (s1.setFld R.TAPE_STATUS.BANK (1 - s1.fld R.TAPE_STATUS.BANK)).setFld R.TAPE_STATUS.DRAINED 0
    let s3 := s2.setActive (s2.openBank m)
    let s4 := { s3 with tape := { s3.tape with lastClosed := m, cutTime := s3.now, waived := false } }
    let s5 := if s4.paired then s4.emit (.tapeCut (m - 1) s4.now) else s4
    s5.skewCheck (m - 1)
  else (s.setActive { b with span := m - b.first + 1 }).tapeEvt R.TAPE_STATUS.SKIP_EVT

/-- The active bank's span begins under the epoch that now is live (after a stitch on the flip edge). -/
def State.restartEpoch (s : State) : State := s.setActive { s.bank with epochFirst := s.epoch }

/-! ### Counting points -/

/-- Add to the idle bank while it is not drained, else to the active bank as late (Table 07-5). -/
def State.addIdle (s : State) (a ctr n : Nat) : State :=
  if s.idleBank.closed && !s.bit R.TAPE_STATUS.DRAINED then s.setIdle (s.idleBank.add a ctr n)
  else s.setActive (((s.bank.add a ctr n).flag a 8).mark TapeFlag.lateAdded)

/-- TAPE_INCREMENT (R219): an increment stamped with a bank arrives. -/
def execTapeIncrement (account ctr bank amount : Nat) (s : State) : Res :=
  .next (s.whenUp fun s =>
    if 14 ≤ ctr || amount == 0 then s
    else if bank == s.fld R.TAPE_STATUS.BANK then s.charge account ctr amount
    else
      let orphan := !s.acctOn account
      let a := if orphan then s.fld R.TAPE_CFG.ORPHAN_ACCT else account
      let s1 := s.addIdle a ctr amount
      let s2 := if s.mirrored then s1.emit (.tapeInc a ctr (s.bank.first - 1) amount) else s1
      if orphan then s2.tapeEvt R.TAPE_STATUS.ORPHAN_EVT else s2)

/-- Charge ticks to the owners of granted QPs. -/
def State.tickAll (s : State) (k : Nat) : List (Nat × Nat × Nat) → State
  | [] => s
  | e :: es => State.tickAll (s.charge (s.fld (R.TAPE_FNACCT.ACCOUNT e.2.1)) 12 k) k es

/-- The whole seconds that device time has reached for the first time (R215): the mirror leaves them to the lead (R231). -/
def State.slotTick (s : State) : State :=
  let sec := s.now / 1000000000
  if s.tape.lastTick < sec then
    let s1 := { s with tape := { s.tape with lastTick := sec } }
    if s.role = 2 then s1 else s1.tickAll (sec - s.tape.lastTick) (s1.owners false)
  else s

/-- QP_SLOT_TICK (R215). -/
def execQpSlotTick (s : State) : Res := .next (s.whenUp State.slotTick)

/-- A peer's increment: added to the bank of its minute while that bank is not drained, else late to the active bank (R231). -/
def State.peerInc (s : State) (account ctr minute amount : Nat) : State :=
  if 14 ≤ ctr || amount == 0 then s
  else if s.bank.first ≤ minute then s.setActive (s.bank.add account ctr amount)
  else if s.idleBank.closed && !s.bit R.TAPE_STATUS.DRAINED && decide (s.idleBank.first ≤ minute) then
    s.setIdle (s.idleBank.add account ctr amount)
  else s.setActive (((s.bank.add account ctr amount).flag account 8).mark TapeFlag.lateAdded)

/-- PEER_INCREMENT (R231). -/
def execPeerIncrement (account ctr minute amount : Nat) (s : State) : Res :=
  .next (s.whenUp fun s => if s.paired then s.peerInc account ctr minute amount else s)

/-- CUT_MARKER (R231). -/
def execCutMarker (minute : Nat) (time : BitVec 64) (s : State) : Res :=
  .next (s.whenUp fun s =>
    if !s.paired then s
    else
      let s1 := { s with
        tape := { s.tape with markers := (s.tape.markers.filter fun (e : Nat × Nat) => e.1 != minute && decide (minute ≤ e.1 + 1)) ++ [(minute, time.toNat)] } }
      s1.skewCheck minute)

/-- PEER_MARKER_TIMEOUT (R220): 1 ms after the flip. -/
def execPeerMarkerTimeout (s : State) : Res :=
  .next (s.whenUp fun s =>
    let b := s.idleBank
    if s.paired && b.closed && !s.bit R.TAPE_STATUS.DRAINED && !s.tape.draining && (s.peerCut (b.first + b.span - 1)).isNone &&
        decide (s.tape.cutTime + 1000000 ≤ s.now) then
      { s with tape := { s.tape with waived := true } }
    else s)

/-! ### The ledger ring (R225) -/

/-- Size of the ledger ring in MiB: 0 acts as 256 and 1 to 3 act as 4 (Table 07-14). -/
def ringMib (v : Nat) : Nat := if v = 0 then 256 else max 4 v

/-- Units of 4 KiB in a ring. -/
def ringUnits (ring : W64) : Nat := ringMib (getBits ring 44 16) * 256

/-- Units that a record takes. -/
def recUnits (bytes : Nat) : Nat := (bytes + 4095) / 4096

/-- The accounts of a bank's record: enabled in some cycle of its span, or with a count that is not 0 (R224). -/
def TapeBank.accounts (b : TapeBank) : List Nat :=
  sortUp (((b.flags.filter fun e => e.2.testBit 8).map (·.1)) ++ b.counts.map fun e => e.1 / 16)

/-- An account entry (Table 07-8). -/
def TapeBank.entry (b : TapeBank) (a : Nat) : List Byte :=
  leBytes 4 a ++ leBytes 4 (smGet 0 b.flags a % 64) ++ (List.range 14).flatMap (fun i => leBytes 8 (smGet 0 b.counts (16 * a + i))) ++ zeros 8

/-- Bytes of a bank's record. -/
def TapeBank.recBytes (b : TapeBank) : Nat := 64 + 128 * b.accounts.length + 3456

/-- A record header (Table 07-6). -/
def State.recHeader (s : State) (b : TapeBank) (flags count rseq : Nat) : List Byte :=
  leBytes 4 0x45504154 ++ leBytes 2 1 ++ leBytes 2 flags ++ leBytes 8 Config.serial.toNat ++ leBytes 8 b.first ++ leBytes 4 b.span ++
    leBytes 4 b.epochFirst ++ leBytes 4 b.epochLast ++ leBytes 4 count ++ leBytes 1 b.roleAtCut ++ leBytes 1 s.spool.keygen ++ zeros 2 ++
    leBytes 4 s.tape.nonce ++ leBytes 8 rseq ++ leBytes 8 (s.reg R.GALV_PEER.off).toNat

/-- The record of a bank: header, entries and a trailer whose two signatures are free values. -/
def State.recordOf (s : State) (b : TapeBank) : List Byte :=
  let body := s.recHeader b b.hdr b.accounts.length s.tape.nextRseq ++ b.accounts.flatMap b.entry
  body ++ sha384 body ++ s.freeBytes 3405 ++ zeros 3

/-- Distance from HEAD to a unit. -/
def fromHead (head n u : Nat) : Nat := (u + n - head % n) % n

/-- A record of `need` units finds room behind TAIL, one unit staying free so that a full ring does not read as an empty one. -/
def State.ringRoom (s : State) (need : Nat) : Bool :=
  let n := ringUnits (s.reg R.TAPE_RING.off)
  let head := s.fld R.TAPE_RING_PTR.HEAD
  let tail := s.fld R.TAPE_RING_PTR.TAIL
  let used := fromHead head n tail
  decide (used + (if tail + need ≤ n then need else n - tail + need) < n)

/-- The conditions of R220 for a drain, but for the room. -/
def State.drainReady (s : State) : Bool :=
  let b := s.idleBank
  b.closed && !s.bit R.TAPE_STATUS.DRAINED && !s.tape.draining && s.bit R.TAPE_RING.ENABLE && decide (s.tape.cutTime + 10000 ≤ s.now) &&
    (!s.paired || s.tape.waived || (s.peerCut (b.first + b.span - 1)).isSome)

/-- TAPE_DRAIN (R220): the drain starts, or waits for room. -/
def execTapeDrain (s : State) : Res :=
  .next (s.whenUp fun s =>
    if !s.drainReady then s
    else if !s.ringRoom (recUnits s.idleBank.recBytes) then s.setBit R.TAPE_STATUS.RING_FULL
    else
      let late := s.paired && (s.peerCut (s.idleBank.first + s.idleBank.span - 1)).isNone
      let s1 := s.clrBit R.TAPE_STATUS.RING_FULL
      let s2 := if late then (s1.setIdle (s1.idleBank.mark TapeFlag.peerLate)).tapeEvt R.TAPE_STATUS.PEER_LATE_EVT else s1
      { s2 with tape := { s2.tape with draining := true, ringUsed := s2.reg R.TAPE_RING.off } })

/-- A stitch that changed the ring takes effect: HEAD and TAIL read 0 and no record is held (R227). -/
def State.ringRestart (s : State) : State :=
  let s1 := s.setReg R.TAPE_RING_PTR.off 0
  { s1 with tape := { s1.tape with recs := [], ringChanged := false } }

/-- The place of a record of `need` units: where a pad header goes, if anywhere, and its first unit. -/
def State.recPlace (s : State) (need : Nat) : Option Nat × Nat :=
  let tail := s.fld R.TAPE_RING_PTR.TAIL
  if tail + need ≤ ringUnits s.tape.ringUsed then (none, tail) else (some tail, 0)

/-- TAPE_RECORD_WRITE (R225, R228): the record is in the ring, TAIL passes it, the bank is zeroed. A void bank gets no record and uses up one
RSEQ (R253). A write that the Seam checker does not admit
is logged and the drain goes on waiting. -/
def execTapeRecordWrite (s : State) : Res :=
  .next (s.whenUp fun s =>
    if !s.tape.draining then s
    else if s.idleBank.void then
      let s1 := (s.setIdle TapeBank.empty).setFld R.TAPE_STATUS.DRAINED 1
      { s1 with tape := { s1.tape with draining := false, nextRseq := s1.tape.nextRseq + 1 } }
    else
      let b := s.idleBank
      let rec_ := s.recordOf b
      let need := recUnits rec_.length
      let n := ringUnits s.tape.ringUsed
      let base := getBits s.tape.ringUsed 0 44 * 4096
      let (pad, unit) := s.recPlace need
      let chk := s.memCheck .tape (base + unit * 4096) rec_.length .write
      if chk ≠ .ok then s.logMem .tape .write (base + unit * 4096) chk
      else
        let s1 := s.drawn
        let s2 := match pad with
          | some u => s1.devWrite (base + u * 4096) (s.recHeader b 0x8000 0 s.tape.nextRseq)
          | none => s1
        let s3 := (s2.devWrite (base + unit * 4096) rec_).unpoison (base + unit * 4096) rec_.length
        let s4 := s3.setFld R.TAPE_RING_PTR.TAIL ((unit + need) % n)
        let s5 := ((s4.setReg R.TAPE_RSEQ.off (BitVec.ofNat 64 s4.tape.nextRseq)).setIdle TapeBank.empty).setFld R.TAPE_STATUS.DRAINED 1
        let s6 := { s5 with
          tape := { s5.tape with
            draining := false, nextRseq := s5.tape.nextRseq + 1,
            recs := s5.tape.recs ++ [TapeRec.mk s5.tape.nextRseq unit rec_.length] } }
        let s7 := if s6.tape.ringChanged then s6.ringRestart else s6
        s7.tapeEvt R.TAPE_STATUS.REC_EVT)

/-- HEAD moves on, releasing records; a move backwards or past TAIL is refused (R225). -/
def State.headWrite (s : State) (h : Nat) : State :=
  let n := ringUnits (s.reg R.TAPE_RING.off)
  let head := s.fld R.TAPE_RING_PTR.HEAD
  let tail := s.fld R.TAPE_RING_PTR.TAIL
  if decide (h < n) && decide (fromHead head n h ≤ fromHead head n tail) then
    let s1 := s.setFld R.TAPE_RING_PTR.HEAD h
    let s2 := { s1 with tape := { s1.tape with recs := s1.tape.recs.filter fun r => decide (fromHead head n h ≤ fromHead head n r.unit) } }
    if s2.bit R.TAPE_STATUS.RING_FULL && s2.ringRoom (recUnits s2.idleBank.recBytes) then s2.clrBit R.TAPE_STATUS.RING_FULL else s2
  else s.tapeEvt R.TAPE_STATUS.BAD_HEAD

/-- TAPE_HEAD_WRITE (R225). -/
def execTapeHeadWrite (who : Agent) (data : BitVec 64) (s : State) : Res :=
  .next (s.whenUp fun s => s.regTry who .write R.TAPE_RING_PTR.off fun s => s.headWrite (getBits data 0 32))

/-! ### Onafaet commands -/

/-- The records of a reply: up to `max` from a RSEQ on. -/
def State.tapeRecords (s : State) (first : Option Nat) (max : Nat) : Option (List TapeRec) :=
  match first with
  | none => some (s.tape.recs.take max)
  | some r =>
    if s.tape.recs.any fun x => x.rseq == r then some ((s.tape.recs.filter fun x => decide (r ≤ x.rseq)).take max) else none

/-- TAPE_READ (R229). -/
def execTapeRead (r : OnfReq) (firstRseq : BitVec 64) (max : Nat) (s : State) : Res :=
  .next (s.command r 0x0401 fun s =>
    if max = 0 || 16 < max then s.reply r 0x0401 E.PARAM_RANGE []
    else
      let base := s.fld R.TAPE_RING.BASE * 4096
      match s.tapeRecords (if firstRseq = BitVec.allOnes 64 then none else some firstRseq.toNat) max with
      | none => s.reply r 0x0401 E.PARAM_RANGE []
      | some rs => s.reply r 0x0401 0 (rs.flatMap fun x => s.devRead (base + x.unit * 4096) x.bytes))

/-- TAPE_MAP: the checks of R214 in their order, then the mapping is staged. Another sender than the owner gets E_BASTE_NONE. -/
def State.tapeMap (s : State) (r : OnfReq) (reserved range other : Bool) (regs : State → List (Nat × W64)) : State :=
  if reserved then s.sessNo r 0x0402 none E.PARAM
  else if range then s.sessNo r 0x0402 none E.PARAM_RANGE
  else if other then s.sessNo r 0x0402 none E.PARAM
  else s.inSession r 0x0402 none E.BASTE_NONE true fun s _ => s.stageAnd r 0x0402 (regs s) [] []

/-- TAPE_MAP_FUNCTION (R214). -/
def execTapeMapFunction (r : OnfReq) (index account mflags : Nat) (s : State) : Res :=
  .next (s.command r 0x0402 fun s =>
    s.tapeMap r (decide (2 ≤ mflags)) (decide (0x1020 ≤ index) || decide (8192 ≤ account)) false fun s =>
      (R.TAPE_FNACCT.off index, BitVec.ofNat 64 account) ::
        if mflags = 1 then []
        else [(R.SELV_VPORTA.off index, setBits (s.staged (R.SELV_VPORTA.off index)) 13 13 account)])

/-- TAPE_MAP_TSPACE (R214). -/
def execTapeMapTspace (r : OnfReq) (index account mflags : Nat) (s : State) : Res :=
  .next (s.command r 0x0402 fun s =>
    s.tapeMap r (decide (1 ≤ mflags)) (decide (4096 ≤ index) || decide (8192 ≤ account)) false fun s =>
      [(R.SELV_TSPACE.off index, setBits (s.staged (R.SELV_TSPACE.off index)) 25 13 account)])

/-- TAPE_MAP_ENABLE (R214). -/
def execTapeMapEnable (r : OnfReq) (index mflags : Nat) (s : State) : Res :=
  .next (s.command r 0x0402 fun s =>
    s.tapeMap r (decide (2 ≤ mflags)) (decide (8192 ≤ index)) (index == 0) fun _ => [(R.TAPE_ACCT.off index, BitVec.ofNat 64 mflags)])

/-- TAPE_RING (R227): a critical session from the Lining door stages the whole register. -/
def execTapeRing (r : OnfReq) (base : BitVec 64) (sizeMib rflags : Nat) (s : State) : Res :=
  .next (s.command r 0x0403 fun s =>
    if decide (2 ≤ rflags) || base.toNat % 4096 != 0 then s.sessNo r 0x0403 none E.PARAM
    else if 65536 ≤ sizeMib || 2 ^ 56 ≤ base.toNat then s.sessNo r 0x0403 none E.PARAM_RANGE
    else s.inSession r 0x0403 none E.PRIVILEGE true fun s ss =>
      if !ss.critical || ss.ownerCh != 35 then s.reply r 0x0403 E.PRIVILEGE []
      else s.stageAnd r 0x0403 [(R.TAPE_RING.off, BitVec.ofNat 64 (base.toNat / 4096 + sizeMib * 2 ^ 44 + rflags * 2 ^ 63))] [] [])

end Sys2Proof.Machine
end

