-- ==== Sys2Proof/Machine/Check.lean ====
section
/-!
DEFINITION. Check.lean: the consistency rules C01 to C13 of Table 02-12 over the live state as the staged state would change it (R62, R473). A
violation is (rule, type of object, object).
-/

namespace Sys2Proof.Machine

/-- A violation. -/
abbrev Viol : Type := Nat × Nat × Nat

/-- Functions of granted QPs with how many each holds. -/
def State.grantCounts (s : State) : SMap Nat :=
  (s.owners true).foldl (fun (m : SMap Nat) e => smIns m e.2.1 (smGet 0 m e.2.1 + 1)) []

/-- C01: at most 4,096 QPs for a function. The pool total cannot pass 65,536. -/
def State.viol1 (s : State) : List Viol := (s.grantCounts.filter fun e => decide (4096 < e.2)).map fun e => (1, 2, e.1)

/-- A QP staged for revocation or move: granted in the live state, and then free or under another owner or local index. -/
def State.leaves (s : State) (q : Nat) : Bool :=
  s.fld (R.QFAB_QOWN.VALID q) == 1 &&
    (s.stagedFld (R.QFAB_QOWN.VALID q) == 0 || s.stagedFld (R.QFAB_QOWN.FUNCTION q) != s.fld (R.QFAB_QOWN.FUNCTION q) ||
      s.stagedFld (R.QFAB_QOWN.LOCAL q) != s.fld (R.QFAB_QOWN.LOCAL q))

/-- The QPs staged for revocation or move. -/
def State.leaving (s : State) : List Nat :=
  ((s.named (R.QFAB_QOWN.off 0) (R.QFAB_QOWN.off 65536)).map fun o => (o - R.QFAB_QOWN.off 0) / 8).filter fun q => s.leaves q

/-- C02: each of them is QUIESCED. -/
def State.viol2 (s : State) : List Viol :=
  (s.leaving.filter fun q => (s.qp q).st != .quiesced || (s.qp q).drain.isSome).map fun q => (2, 1, q)

/-- The regions of a Seam table that can match, staged: number, owner, first and last granule. -/
def State.regions (s : State) (t : Nat) : List (Nat × Nat × Nat × Nat) :=
  ((List.range (rgnCount t)).filter fun r => s.stagedFld (R.SEAM_RGNA.ENABLE t r) == 1 && ownerOk t (s.rgnOwner true t r) &&
      decide (s.stagedFld (R.SEAM_RGNA.BASE t r) ≤ s.stagedFld (R.SEAM_RGNB.LIMIT t r))).map
    fun r => (r, s.rgnOwner true t r, s.stagedFld (R.SEAM_RGNA.BASE t r), s.stagedFld (R.SEAM_RGNB.LIMIT t r))

/-- Two granule ranges meet. -/
def meets (a b c d : Nat) : Bool := decide (a ≤ d) && decide (c ≤ b)

/-- C03: regions of different owners in one table do not overlap. -/
def State.viol3 (s : State) : List Viol :=
  (List.range 4).flatMap fun t =>
    let rs := s.regions t
    (rs.filter fun a => rs.any fun b => a.2.1 != b.2.1 && meets a.2.2.1 a.2.2.2 b.2.2.1 b.2.2.2).map fun a => (3, 5, t * 65536 + a.1)

/-- Granules `lo` to `hi` lie wholly in ranges of a list. -/
def covered (rs : List (Nat × Nat)) : Nat → Nat → Nat → Bool
  | 0, lo, hi => decide (hi < lo)
  | n + 1, lo, hi =>
    decide (hi < lo) ||
      match rs.find? fun e => decide (e.1 ≤ lo) && decide (lo ≤ e.2) with
      | some e => covered rs n (e.2 + 1) hi
      | none => false

/-- C04: the ledger ring, when it is on, lies wholly inside Lining regions (R473). -/
def State.viol4 (s : State) : List Viol :=
  if s.stagedFld R.TAPE_RING.ENABLE = 0 then []
  else
    let lo := s.stagedFld R.TAPE_RING.BASE
    let hi := lo + ringMib (s.stagedFld R.TAPE_RING.SIZE_MIB) * 256 - 1
    let rs := s.regions 0
    ((rs.filter fun a => a.2.1 != 1 && meets a.2.2.1 a.2.2.2 lo hi).map fun a => (4, 5, a.1)) ++
      if covered (rs.map (·.2.2)) 64 lo hi then [] else [(4, 5, 0x7F)]

/-- The function at which a running total first passes a limit. -/
def firstOver (limit : Nat) : Nat → List (Nat × Nat) → Option Nat
  | _, [] => none
  | acc, (f, n) :: l => if limit < acc + n then some f else firstOver limit (acc + n) l

/-- C05 for one port and class: the guarantees of its functions. -/
def State.guars (s : State) (fs : List Nat) (port cls : Nat) : List (Nat × Nat) :=
  (fs.filter fun f => s.fnPortV true f == port && s.stagedFld (R.QFAB_FSCHED0.GUAR_CLASS f) == cls).map fun f =>
    (f, s.stagedFld (R.QFAB_FSCHED0.GUAR f))

/-- C05: the guarantees of a port and class against its rate, and every cap against its guarantee. A cap of 0 is no cap (R106). -/
def State.viol5 (s : State) : List Viol :=
  let fs := s.fnList true
  let past := ((List.range 32).filter fun n => s.portOn true n).flatMap fun n =>
    (List.range 8).filterMap fun c =>
      firstOver (Config.portRate (portLanes (s.stagedFld (R.HPORT_CFG.WIDTH n))) (s.stagedFld (R.HPORT_CFG.MAXGEN n))) 0 (s.guars fs n c)
  let caps := fs.filter fun f =>
    s.stagedFld (R.QFAB_FSCHED1.CAP_B f) != 0 && decide (s.stagedFld (R.QFAB_FSCHED1.CAP_B f) < s.stagedFld (R.QFAB_FSCHED0.GUAR f))
  (sortUp (past ++ caps)).map fun f => (5, 2, f)

/-- C06: an account's cap against the guarantees of the VFs mapped to it. -/
def State.viol6 (s : State) : List Viol :=
  let fs := (s.fnList true).filter isVf
  let accts := sortUp (fs.map fun f => s.stagedFld (R.TAPE_FNACCT.ACCOUNT f))
  (accts.filter fun a =>
    let cap := s.stagedFld (R.QFAB_ASCHED.CAP_B a)
    let sum := ((fs.filter fun f => s.stagedFld (R.TAPE_FNACCT.ACCOUNT f) == a).map fun f => s.stagedFld (R.QFAB_FSCHED0.GUAR f)).sum
    cap != 0 && decide (cap < sum)).map fun a => (6, 4, a)

/-- C07: every Selvedge table region lies inside DRAM owned by Selvedge. -/
def State.viol7 (s : State) : List Viol :=
  let rs := ((s.regions 0).filter fun a => a.2.1 == 2).map (·.2.2)
  ((List.range 6).filter fun t =>
    let log2 := s.stagedFld (R.SELV_TBASE.LOG2 t)
    let lo := s.stagedFld (R.SELV_TBASE.BASE t)
    let hi := lo + (2 ^ log2 + 4095) / 4096 - 1
    log2 != 0 && !(decide (hi < 2 ^ 29) && covered rs 64 lo hi)).map fun t => (7, 6, t)

/-- The tenant spaces that something names: the VPORT of a function that exists, or a TCT entry. -/
def State.namedTsids (s : State) (fs : List Nat) : List Nat :=
  sortUp ((fs.map fun f => s.stagedFld (R.SELV_VPORTA.TSID f)) ++ (s.tabView true 1).map fun e => leAt e.2 12 2 % 4096)

/-- C08: every mapping that can charge an account names one that is enabled. -/
def State.viol8 (s : State) : List Viol :=
  let fs := s.fnList true
  let accts := sortUp ((fs.map fun f => s.stagedFld (R.TAPE_FNACCT.ACCOUNT f)) ++ (fs.map fun f => s.stagedFld (R.SELV_VPORTA.ACCOUNT f)) ++
    ((s.namedTsids fs).map fun t => s.stagedFld (R.SELV_TSPACE.ACCOUNT t)) ++ (s.tabView true 2).filterMap fun e => flowAcct e.2)
  (accts.filter fun a => a != 0 && s.stagedFld (R.TAPE_ACCT.ENABLE a) == 0).map fun a => (8, 4, a)

/-- C09: vectors per function and in total; the running total takes a function's vectors up to 2,048. -/
def State.viol9 (s : State) : List Viol :=
  let vs := (s.fnList true).map fun f => (f, s.stagedFld (R.QFAB_FNCFG.MSIX_COUNT f))
  let own := (vs.filter fun e => decide (2048 < e.2)).map (·.1)
  let tot := match firstOver 131072 0 (vs.map fun e => (e.1, min 2048 e.2)) with
    | some f => [f]
    | none => []
  (sortUp (own ++ tot)).map fun f => (9, 2, f)

/-- C10: widths and positions obey R15. -/
def State.viol10 (s : State) : List Viol :=
  ((List.range 32).filter fun n => s.portOn true n && !s.portPlaced true n).map fun n => (10, 3, n)

/-- C11: registers tagged L are staged by a critical session. -/
def State.viol11 (s : State) : List Viol :=
  match s.onf.session with
  | some ss => if ss.critical then [] else ((ss.regs.map (·.1)).filter lTagged).map fun o => (11, 7, rwbStaged o)
  | none => []

/-- C12: every feature that the gate raises lies in the common feature set. -/
def State.viol12 (s : State) : List Viol :=
  if s.staged R.GALV_GATE.off &&& ~~~(s.reg R.GALV_FEAT_COMMON.off) != 0 then [(12, 7, rwbStaged R.GALV_GATE.off)] else []

/-- All violations, in rule order. C13 holds for every host function by construction (R298), and nothing that a session stages touches a local
channel, so it lists none. -/
def State.violations (s : State) : List Viol :=
  s.viol1 ++ s.viol2 ++ s.viol3 ++ s.viol4 ++ s.viol5 ++ s.viol6 ++ s.viol7 ++ s.viol8 ++ s.viol9 ++ s.viol10 ++ s.viol11 ++ s.viol12

/-- The QPs of C02 that are QUIESCED: a passing check holds them (R63). -/
def State.holdable (s : State) : List Nat := s.leaving.filter fun q => (s.qp q).st == .quiesced

/-- Hold QPs in QUIESCED until the session closes. -/
def State.holdQps (s : State) : List Nat → State
  | [] => s
  | q :: qs => State.holdQps (s.setQp q { s.qp q with sessHeld := true }) qs

/-- BASTE_CHECK's reply parameters (Table 02-13). -/
def violBytes (n : Nat) (vs : List Viol) : List Byte :=
  leBytes 2 n ++ leBytes 2 (min 500 vs.length) ++ leBytes 1 (b2n (decide (500 < vs.length))) ++ zeros 3 ++
    (vs.take 500).flatMap fun v => leBytes 2 v.1 ++ leBytes 2 v.2.1 ++ leBytes 4 v.2.2

/-- A check is answered with its violations. One without violations makes an unarmed session checked and holds its QPs. -/
def State.checkDone (s : State) (r : OnfReq) (vs : List Viol) : State :=
  match s.onf.session with
  | none => s.reply r 0x0303 E.BASTE_NONE []
  | some ss =>
    let pass := vs.isEmpty && ss.armed.isNone
    let hs := s.holdable
    let s1 := if pass then
        ((s.setSession (some { ss with checked := true, held := sortUp (ss.held ++ hs) })).holdQps hs).showSession
      else s
    s1.reply r 0x0303 (if vs.isEmpty then 0 else E.BASTE_CHECK) (violBytes ss.number vs)

/-- The union of two lists of violations, the first one's first. -/
def violUnion (a b : List Viol) : List Viol := a ++ b.filter fun v => !a.contains v

end Sys2Proof.Machine
end

