-- ==== Sys2Proof/Machine/Block.lean ====
section
/-!
DEFINITION. Block.lean: block requests of the native rings, virtio-blk and NVMe, their work items, and the responses of the Shell back end
(04_personalities.md, R117–R129).
-/

namespace Sys2Proof.Machine

/-! ### Work items (R123, R124, R126) -/

/-- The back-end queue of a request's volume accepts work. -/
def State.beqOn (s : State) (r : Req) : Bool := s.bit (R.QFAB_BEQ_WRING.ENABLE (volBeq r.volA))

/-- The volume entry of a request is in use, its block size, its capacity in blocks; all under its admission epoch (R83). -/
def Req.volValid (r : Req) : Bool := getBit r.volA 41
def Req.bsize (r : Req) : Nat := if getBit r.volA 40 then 4096 else 512
def Req.capacity (r : Req) : Nat := r.volB.toNat

/-- A request's work item joins those that wait for its back-end queue. -/
def State.enqueue (s : State) (r : Req) (op flags lba nbytes : Nat) (ranges : List (Nat × Nat)) (data : Side) : State :=
  let b := volBeq r.volA
  let x := s.beq b
  let it : BeqItem :=
    { op := op, wid := none, rid := r.rid, q := r.q, f := s.qpFn r.q, flags := flags + b2n r.redone * 2, acct := r.acct,
      vol := getBits r.volA 0 32, lba := lba, nbytes := nbytes, epoch := r.epoch, time := r.time, ranges := ranges,
      cls := s.qpClass r.q, data := data }
  (s.putReq { r with st := .running }).setBeq b { x with items := x.items ++ [it] }

/-- The gate of an effect outside host memory (R280, R281): a strict request's ISSUE is sent once, and the effect waits for its
acknowledgement. -/
def State.issueGate (s : State) (r : Req) (effect : Nat) : State × Bool :=
  match r.issueJ with
  | some j => (s, s.jdone (some j))
  | none =>
    if r.strict && s.mirrored && !isLc r.q then
      ((s.jsend r 2 [r.idx, effect]).putReq { r with issueJ := some s.galv.jseq }, false)
    else (s, true)

/-- The lowest work ID from `n` up that no outstanding or cancelled item holds. -/
def Beq.freeWid (x : Beq) : Nat → Nat → Nat
  | 0, n => n
  | fuel + 1, n => if x.cancelled.contains n || x.works.any fun w => w.wid == n then Beq.freeWid x fuel ((n + 1) % 2 ^ 32) else n

/-- Physical address of slot `i` of a work ring, and its phase: it flips at each wrap. -/
def State.workSlot (s : State) (b i : Nat) : Nat × Bool :=
  let d := 2 ^ (s.fld (R.QFAB_BEQ_WRING.DEPTH b) + 1)
  (s.fld (R.QFAB_BEQ_WRING.BASE b) * 4096 + 64 * (i % d), if i < d then (s.beq b).phase else !(s.beq b).phase)

/-- Write to a ring of the back end with the queue tile's world; a refused write is dropped and logged (R304, R307). -/
def State.beqWrite (s : State) (b a : Nat) (l : List Byte) : State :=
  let who := Agent.queueTile (b / 64)
  match s.memCheck who a l.length .write with
  | .ok => (s.devWrite a l).unpoison a l.length
  | .refused c r => s.violation who .write c r a
  | _ => s

/-- Write continuation slots from slot `i` up. -/
def State.writeConts (s : State) (b wid : Nat) : Nat → List (List (Nat × Nat)) → State
  | _, [] => s
  | i, rs :: l =>
    let p := s.workSlot b i
    State.writeConts (s.beqWrite b p.1 (contSlotBytes wid rs p.2)) b wid (i + 1) l

/-- Write the item at the front of a back-end queue. -/
def State.writeItem (s : State) (b : Nat) (it : BeqItem) (rest : List BeqItem) : State :=
  let x := s.beq b
  let t := s.fld (R.QFAB_BEQ_DB.WTAIL b)
  let d := 2 ^ (s.fld (R.QFAB_BEQ_WRING.DEPTH b) + 1)
  let wid := it.wid.getD (x.freeWid (x.works.length + x.cancelled.length + 1) x.nextWid)
  let s1 := s.writeConts b wid (t + 1) (contSlots 3 (it.ranges.drop 3))
  let p := s1.workSlot b t
  let s2 := s1.beqWrite b p.1 (workItemBytes it wid p.2)
  let n := t + it.slots
  let x1 : Beq := { x with items := rest, phase := if d ≤ n then !x.phase else x.phase }
  let x2 : Beq := match it.wid with
    | some _ => x1
    | none => { x1 with
        nextWid := (wid + 1) % 2 ^ 32
        works := x1.works ++ [{ wid := wid, rid := it.rid, q := it.q, f := it.f, op := it.op, nbytes := it.nbytes, cls := it.cls,
                                data := it.data, completeWith := none, item := it }] }
  let s3 := (s2.setBeq b x2).setFld (R.QFAB_BEQ_DB.WTAIL b) (n % d)
  let s4 := if it.wid.isNone then s3.countReq it.q it.rid 9 1 else s3
  if s4.bit (R.QFAB_BEQ_RRING.INT_EN b) then s4.msi (s4.fld (R.QFAB_BEQ_RRING.HART b)) (s4.fld (R.QFAB_BEQ_RRING.EIID b)) else s4

/-- BEQ_WORK_ITEM (R123, R124, R281): the next item is written once its ring has room for all its slots, and a strict write once the peer has
acknowledged its ISSUE. -/
def execBeqWorkItem (b : Nat) (s : State) : Res :=
  .next (s.whenPanel (b / 64) fun s =>
    let x := s.beq b
    match x.items with
    | [] => s
    | it :: rest =>
      if !s.bit (R.QFAB_BEQ_WRING.ENABLE b) || decide (s.beqRoom b < it.slots) then s
      else match (if it.wid.isNone then (s.qp it.q).req? it.rid else none) with
        | some r =>
          if it.op = 0 then s.writeItem b it rest
          else
            let g := s.issueGate r 2
            if g.2 then g.1.writeItem b it rest else g.1
        | none => s.writeItem b it rest)

/-! ### Starting block requests -/

/-- What every block request meets first: a volume in use (else `invalid`), a back-end queue that accepts work (R126). -/
def State.withVolume (s : State) (r : Req) (invalid : Nat) (k : State → State) : State :=
  if !r.volValid then s.finish r invalid 0 1
  else if !s.beqOn r then s.finish r E.QUEUE_FULL 0 1
  else k s

/-- A native block request (R123, R126): volume fields above 15 name no entry. -/
def State.startBlk (s : State) (r : Req) (k : State → State) : State :=
  if 15 < sqeVolume r.sqe then s.finish r E.PARAM_RANGE 0 0
  else s.withVolume r E.PARAM fun s =>
    match s.keyRefusal r.q r.sqe with
    | some c => s.finish r c 0 0
    | none => k s

/-- BLK_READ (R123). -/
def execBlkRead (q : QpId) (rid : Nat) (s : State) : Res :=
  .next (s.start q rid 0x20 fun s r => s.startBlk r fun s =>
    s.withSrc r fun s d => s.enqueue r 0 0 (sqeWord40 r.sqe) (sqeLen r.sqe) [] d)
/-- BLK_WRITE (R123). -/
def execBlkWrite (q : QpId) (rid : Nat) (s : State) : Res :=
  .next (s.start q rid 0x21 fun s r => s.startBlk r fun s =>
    s.withSrc r fun s d => s.enqueue r 1 0 (sqeWord40 r.sqe) (sqeLen r.sqe) [] d)
/-- BLK_FLUSH (R123). -/
def execBlkFlush (q : QpId) (rid : Nat) (s : State) : Res :=
  .next (s.start q rid 0x22 fun s r => s.startBlk r fun s => s.enqueue r 2 0 0 0 [] .sink)
/-- BLK_DISCARD (R123): LEN counts bytes. -/
def execBlkDiscard (q : QpId) (rid : Nat) (s : State) : Res :=
  .next (s.start q rid 0x23 fun s r => s.startBlk r fun s => s.enqueue r 3 0 (sqeWord40 r.sqe) (sqeLen r.sqe) [] .sink)

/-- A virtio function has accepted its driver: device_status holds DRIVER_OK (bit 2) and not DEVICE_NEEDS_RESET. -/
def VirtioState.live (v : VirtioState) : Bool := v.status.testBit 2 && !v.needsReset

/-- Take a virtio-blk request from its ring (R113, R118). -/
def State.takeVblk (s : State) (q ty : Nat) (b : BlkReq) (k : State → Req → State) : State :=
  s.whenRing q fun s =>
    let f := s.qpFn q
    let c := s.qp q
    if isLc q || s.pers f != 2 || !s.canFetch q || !(s.fn (s.ringKey q)).virtio.live then s
    else
      let n := b.slots
      let pos := c.availIdx + n
      let wrap := s.packed q && decide (c.sqDepth ≤ pos)
      let c1 := if s.galv.redo.contains (q, b.idx) then c else { c with
        availIdx := if s.packed q then (if wrap then pos - c.sqDepth else pos) else (c.availIdx + 1) % 65536
        availWrap := if wrap then !c.availWrap else c.availWrap }
      let a := (s.setQp q c1).admitReq q (.vblk ty) b.idx n 0 [] [] (some b) [] false 0
      k a.1 a.2

/-- The checks of R118 before the back end: alignment, length, capacity. -/
def vblkBad (r : Req) (b : BlkReq) : Bool :=
  let per := r.bsize / 512
  decide (b.lba % per ≠ 0) || decide (b.nbytes % r.bsize ≠ 0) || decide (16777216 < b.nbytes) ||
    decide (r.capacity < b.lba / per + b.nbytes / r.bsize)

/-- A range of a discard lies on blocks, within 32,768 sectors and within the volume. -/
def vrangeBad (r : Req) (e : Nat × Nat) : Bool :=
  let per := r.bsize / 512
  decide (e.1 % per ≠ 0) || decide (e.2 % per ≠ 0) || decide (32768 < e.2) || decide (r.capacity < (e.1 + e.2) / per)

/-- NBYTES of a multi-range item (Table 04-5). -/
def multiBytes (n : Nat) : Nat := 0xFFFFFF00 + n

/-- Ranges in blocks become one item: a single range by LBA and NBYTES, several as a multi-range item (R124). -/
def State.enqueueRanges (s : State) (r : Req) (op flags : Nat) (rs : List (Nat × Nat)) : State :=
  match rs with
  | [(a, n)] => s.enqueue r op flags a (n * r.bsize) [] .sink
  | _ => s.enqueue r op flags 0 (multiBytes rs.length) rs .sink

/-- A virtio-blk data request (R118): E_PARAM stands for VIRTIO_BLK_S_IOERR (Table 04-7). -/
def State.vblkData (s : State) (r : Req) (b : BlkReq) (op : Nat) : State :=
  s.withVolume r E.PARAM fun s =>
    if vblkBad r b then s.finish r E.PARAM 0 1
    else s.enqueue r op (b2n b.fua) (b.lba / (r.bsize / 512)) b.nbytes [] (.host (segsSlice b.segs 0 b.nbytes))

/-- A virtio-blk DISCARD or WRITE_ZEROES (R117, R118). -/
def State.vblkRanges (s : State) (r : Req) (b : BlkReq) (op : Nat) : State :=
  s.withVolume r E.PARAM fun s =>
    if decide (16 < b.ranges.length) || b.ranges.isEmpty || b.ranges.any (vrangeBad r) then s.finish r E.PARAM 0 1
    else s.enqueueRanges r op (if op = 4 then b2n b.unmap * 4 else 0)
      (b.ranges.map fun e => (e.1 / (r.bsize / 512), e.2 / (r.bsize / 512)))

/-- VIRTIO_BLK_IN (R118). -/
def execVirtioBlkIn (q : Nat) (b : BlkReq) (s : State) : Res := .next (s.takeVblk q 0 b fun s r => s.vblkData r b 0)
/-- VIRTIO_BLK_OUT (R118). -/
def execVirtioBlkOut (q : Nat) (b : BlkReq) (s : State) : Res := .next (s.takeVblk q 1 b fun s r => s.vblkData r b 1)
/-- VIRTIO_BLK_FLUSH (R118). -/
def execVirtioBlkFlush (q : Nat) (b : BlkReq) (s : State) : Res :=
  .next (s.takeVblk q 4 b fun s r => s.withVolume r E.PARAM fun s => s.enqueue r 2 0 0 0 [] .sink)
/-- VIRTIO_BLK_DISCARD (R118, R124). -/
def execVirtioBlkDiscard (q : Nat) (b : BlkReq) (s : State) : Res := .next (s.takeVblk q 11 b fun s r => s.vblkRanges r b 3)
/-- VIRTIO_BLK_WRITE_ZEROES (R118, R124). -/
def execVirtioBlkWriteZeroes (q : Nat) (b : BlkReq) (s : State) : Res := .next (s.takeVblk q 13 b fun s r => s.vblkRanges r b 4)
/-- VIRTIO_BLK_UNSUPPORTED (R118): VIRTIO_BLK_S_UNSUPP. -/
def execVirtioBlkUnsupported (q : Nat) (b : BlkReq) (s : State) : Res :=
  .next (s.takeVblk q 8 b fun s r => s.finish r E.BAD_OPCODE 0 1)

/-- An NVMe status as the completion carries it: SCT × 256 + SC, above 0x10000 (Complete.nvmeStatus). -/
def nvmeSt (sctSc : Nat) : Nat := 0x10000 + sctSc

/-- After Doorbell Buffer Config the device writes a queue's EventIdx entries, the SQ tail's and the CQ head's, to the last index it has consumed
(R122). -/
def State.nvmeEventIdx (s : State) (q : Nat) : State :=
  let v := (s.fn (s.ringKey q)).nvme
  if !v.dbOn then s
  else
    let a := v.dbEvent.toNat + 8 * s.ringQid q
    let w := s.access q a 8 true (.shadow q)
    match w.2 with
    | .at ps => (w.1.writePieces q ps (leBytes 4 (s.qp q).sqHead ++ leBytes 4 (s.qp q).cqHead)).dirtyWrite q a 8
    | _ => s

/-- Take an NVMe I/O command from its submission queue (R113, R119). -/
def State.takeNvme (s : State) (q opc : Nat) (b : BlkReq) (k : State → Req → State) : State :=
  s.whenRing q fun s =>
    let f := s.qpFn q
    let c := s.qp q
    if isLc q || s.pers f != 3 || !s.canFetch q || !(s.fn (s.ringKey q)).nvme.rdy || ((s.redoNext q).isNone && c.sqHead == c.sqTail) then s
    else
      let h0 := (s.redoNext q).getD c.sqHead
      let h := (h0 + 1) % c.sqDepth
      let s0 := if (s.redoNext q).isSome then s else s.setQp q { c with sqHead := h, expo := dropExpo h c.expo }
      let v := if 1 ≤ b.nsid && b.nsid ≤ 16 then b.nsid - 1 else 0
      let a := (s0.nvmeEventIdx q).admitReq q (.nvme opc) h0 1 h [] [] (some b) [] false v
      k a.1 a.2

/-- The namespace of an NVMe command, and its range: Invalid Namespace or Format, LBA Out of Range, Invalid Field above MDTS. -/
def State.nvmeVol (s : State) (r : Req) (b : BlkReq) (k : State → State) : State :=
  if b.nsid = 0 || decide (16 < b.nsid) then s.finish r (nvmeSt 0x0B) 0 0
  else s.withVolume r (nvmeSt 0x0B) k

/-- An NVMe command over one range of blocks. -/
def State.nvmeData (s : State) (r : Req) (b : BlkReq) (op flags : Nat) (data : Side) : State :=
  s.nvmeVol r b fun s =>
    if op ≤ 1 && 16777216 < b.nbytes then s.finish r (nvmeSt 0x02) 0 0
    else if r.capacity < b.lba + b.nbytes / r.bsize then s.finish r E.PARAM_RANGE 0 0
    else s.enqueue r op flags b.lba b.nbytes [] data

/-- NVME_READ (R119). -/
def execNvmeRead (q : Nat) (b : BlkReq) (s : State) : Res :=
  .next (s.takeNvme q 2 b fun s r => s.nvmeData r b 0 (b2n b.fua) (.host (segsSlice b.segs 0 b.nbytes)))
/-- NVME_WRITE (R119). -/
def execNvmeWrite (q : Nat) (b : BlkReq) (s : State) : Res :=
  .next (s.takeNvme q 1 b fun s r => s.nvmeData r b 1 (b2n b.fua) (.host (segsSlice b.segs 0 b.nbytes)))
/-- NVME_FLUSH (R119). -/
def execNvmeFlush (q : Nat) (b : BlkReq) (s : State) : Res :=
  .next (s.takeNvme q 0 b fun s r => s.nvmeVol r b fun s => s.enqueue r 2 0 0 0 [] .sink)
/-- NVME_WRITE_ZEROES (R119). -/
def execNvmeWriteZeroes (q : Nat) (b : BlkReq) (s : State) : Res :=
  .next (s.takeNvme q 8 b fun s r => s.nvmeData r b 4 (b2n b.fua + b2n b.unmap * 4) .sink)
/-- NVME_DATASET_MANAGEMENT (R119, R124): with Deallocate, up to 16 ranges. Without Deallocate there is nothing to hand on (log entry 22). -/
def execNvmeDatasetManagement (q : Nat) (b : BlkReq) (s : State) : Res :=
  .next (s.takeNvme q 9 b fun s r => s.nvmeVol r b fun s =>
    if !b.unmap then s.finish r 0 0 0
    else if decide (16 < b.ranges.length) || b.ranges.isEmpty then s.finish r (nvmeSt 0x02) 0 0
    else if b.ranges.any fun e => decide (r.capacity < e.1 + e.2) then s.finish r E.PARAM_RANGE 0 0
    else s.enqueueRanges r 3 0 b.ranges)
/-- NVME_INVALID_OPCODE (R119). -/
def execNvmeInvalidOpcode (q : Nat) (b : BlkReq) (s : State) : Res :=
  .next (s.takeNvme q 0x7F b fun s r => s.finish r E.BAD_OPCODE 0 0)

/-! ### Responses (R125, R128) -/

/-- A response has been taken: RHEAD moves on. -/
def State.rspTaken (s : State) (b : Nat) : State :=
  let d := 2 ^ (s.fld (R.QFAB_BEQ_RRING.DEPTH b) + 1)
  s.setFld (R.QFAB_BEQ_DB.RHEAD b) ((s.fld (R.QFAB_BEQ_DB.RHEAD b) + 1) % d)

/-- Responses of a back-end queue that carry data lie in DRAM that the Seam admits to the Shell. -/
def State.beqAddrOk (s : State) (b a n : Nat) (k : AccKind) : Bool :=
  s.physKind a == .dram && (match s.memCheck (.queueTile (b / 64)) a n k with
    | .refused _ _ => false
    | .unbacked => false
    | _ => true)

/-- Judge a response's WID: cancelled ones are ignored, unknown ones set BAD_RSP. -/
def State.withWork (s : State) (b : Nat) (r : BeqRsp) (k : State → Work → State) : State :=
  let x := s.beq b
  if !s.bit (R.QFAB_BEQ_WRING.ENABLE b) then s
  else if x.cancelled.contains r.wid then s.rspTaken b
  else match x.works.find? fun w => w.wid == r.wid with
    | none => (s.rspTaken b).setBit (R.QFAB_BEQ_RRING.BAD_RSP b)
    | some w => k s w

/-- The data of a back-end move as the request's transform takes it: whole AES-XTS units keep the transform; a move that cuts a unit has no
result in the spec and carries free bytes (log entry 23); CRCs are taken over the request when it completes (R159). -/
def moveXform (r : Req) (rsp : BeqRsp) : Nat × Nat × Bool :=
  let x := match r.kind with
    | .native => sqeXform r.sqe
    | _ => 0
  if !xformXts x then (0, 0, false)
  else
    let u := xtsUnit x
    if rsp.offset % u = 0 && rsp.bytes % u = 0 then (x, sqeXparam r.sqe + rsp.offset / u, false) else (0, 0, true)

/-- Start a move of a response, when a channel is free (R135). -/
def State.moveStart (s : State) (b : Nat) (rsp : BeqRsp) (w : Work) (toHost : Bool) : State :=
  match (s.qp w.q).req? w.rid with
  | none => s.rspTaken b
  | some r =>
    if !s.channelFree w.q then s
    else
      let t := moveXform r rsp
      let host : Side := match w.data with
        | .host l => .host (segsSlice l rsp.offset rsp.bytes)
        | .bytes l => .bytes ((l.drop rsp.offset).take rsp.bytes)
        | d => d
      let dev : Side := .dev [(rsp.addr, rsp.bytes)]
      let src := if toHost then dev else host
      let src1 := if t.2.2 then Side.bytes (s.freeBytes rsp.bytes) else src
      let s0 := if t.2.2 then s.drawn else s
      let s1 := s0.addXfer w.q (.move b w.wid w.rid rsp.notify) r.acct src1 (if toHost then host else dev) none rsp.bytes t.1 t.2.1
        (sqeKeyslot r.sqe) none toHost
      let f (x : Xfer) : Xfer := if x.xid == s0.shut.nextXid then { x with moff := rsp.offset } else x
      ({ s1 with shut := { s1.shut with xfers := s1.shut.xfers.map f } }).rspTaken b

/-- A move response: it needs an item that carries data, a range inside it, a buffer that the back end may use (R125). -/
def State.moveRsp (s : State) (b : Nat) (rsp : BeqRsp) (toHost : Bool) : State :=
  s.whenPanel (b / 64) fun s => s.withWork b rsp fun s w =>
    if decide (1 < w.op) || decide (w.nbytes < rsp.offset + rsp.bytes) || rsp.bytes == 0 || w.completeWith.isSome ||
        !s.beqAddrOk b rsp.addr rsp.bytes (if toHost then .read else .write) then
      (s.rspTaken b).setBit (R.QFAB_BEQ_RRING.BAD_RSP b)
    else s.moveStart b rsp w toHost

/-- MOVE_TO_HOST (R125). -/
def execMoveToHost (b : Nat) (r : BeqRsp) (s : State) : Res := .next (s.moveRsp b r true)
/-- MOVE_FROM_HOST (R125). -/
def execMoveFromHost (b : Nat) (r : BeqRsp) (s : State) : Res := .next (s.moveRsp b r false)

/-- MOVED (R125): a move with NOTIFY whose data has landed posts a MOVED work item: the item's fields, with LBA the moved OFFSET and NBYTES the moved
bytes (Table 04-5, log entry 221). -/
def execMoved (b wid off bytes : Nat) (s : State) : Res :=
  .next (s.whenPanel (b / 64) fun s =>
    let x := s.beq b
    match x.works.find? fun w => w.wid == wid with
    | none => s
    | some w =>
      if !x.landed.contains (wid, off, bytes) then s
      else s.setBeq b { x with
        landed := x.landed.erase (wid, off, bytes)
        items := x.items ++ [{ w.item with op := 0x80, wid := some wid, lba := off, nbytes := bytes, data := .sink }] })

/-- Data that back-end moves carried, in request-offset order (R159). -/
def insertData : Nat × List Byte → List (Nat × List Byte) → List (Nat × List Byte)
  | e, [] => [e]
  | e, x :: xs => if e.1 < x.1 then e :: x :: xs else x :: insertData e xs

/-- Status and RESULT of a block request whose back end answered `status`: a CRC transform's result or failed check (R160, R161). -/
def Req.blkOutcome (r : Req) (status : Nat) : Nat × Nat :=
  match r.kind with
  | .native =>
    let x := sqeXform r.sqe
    let d := r.mdata.flatMap (·.2)
    if x = 0x10 then (status, crc32c d)
    else if x = 0x11 then (status, crc32cFrom (sqeXparam r.sqe % 2 ^ 32) d)
    else if x = 0x12 then (if crc32c d = sqeXparam r.sqe % 2 ^ 32 then (status, 0) else (E.CRC_MISMATCH, crc32c d))
    else if x = 0x22 then (if crc64From 0 d = sqeXparam r.sqe then (status, 0) else (E.CRC_MISMATCH, crc64From 0 d % 2 ^ 32))
    else (status, 0)
  | _ => (status, 0)

/-- Bytes of a request's data that have been written to host memory. -/
def Req.hostWritten (r : Req) : Nat := ((r.cnt.filter fun e => e.1 == 1).map (·.2)).sum

/-- A work item is answered and no move of it runs: its request completes and its WID frees. -/
def State.workDone (s : State) (b : Nat) (w : Work) (status : Nat) : State :=
  let x := s.beq b
  let s1 := s.setBeq b { x with works := x.works.filter fun y => y.wid != w.wid }
  match (s1.qp w.q).req? w.rid with
  | some r =>
    if r.st == .done then s1
    else
      let o := r.blkOutcome status
      s1.finish r o.1 (if o.1 = 0 || o.1 = E.CRC_MISMATCH then o.2 else 0) (r.hostWritten + 1)
  | none => s1

/-- A move of a work item is still in the Shuttle. -/
def State.movesOpen (s : State) (b wid : Nat) : Bool :=
  s.shut.xfers.any fun x => match x.purpose with
    | .move b' w' _ _ => b' == b && w' == wid
    | _ => false

/-- COMPLETE (R125): the host completion follows once the data of every earlier move is visible. -/
def execComplete (b : Nat) (r : BeqRsp) (s : State) : Res :=
  .next (s.whenPanel (b / 64) fun s => s.withWork b r fun s w =>
    let s1 := s.rspTaken b
    if s1.movesOpen b w.wid then
      s1.setBeq b { s1.beq b with works := (s1.beq b).works.map fun y => if y.wid == w.wid then { y with completeWith := some r.status } else y }
    else s1.workDone b w r.status)

/-- A back-end move has landed: its data joins the request's CRC, a NOTIFY waits to be posted, a waiting COMPLETE goes on. -/
def State.moveDone (s : State) (x : Xfer) (b wid : Nat) (notify : Bool) : State :=
  let s1 := s.dropXfer x.xid
  let y := s1.beq b
  let s2 := if notify then s1.setBeq b { y with landed := y.landed ++ [(wid, x.moff, x.len)] } else s1
  match y.works.find? fun w => w.wid == wid with
  | none => s2
  | some w =>
    match w.completeWith with
    | some st => if s2.movesOpen b wid then s2 else s2.workDone b w st
    | none => s2

/-- Bytes of a stitch of a back-end move join the data its request's CRC is taken over. -/
def State.moveData (s : State) (x : Xfer) (st : Stitch) : State :=
  match x.purpose with
  | .move _ _ rid _ =>
    match (s.qp x.q).req? rid with
    | some r => if r.kind == .native && xformCrc (sqeXform r.sqe) then
        s.putReq { r with mdata := insertData (x.moff + st.off, st.bytes) r.mdata } else s
    | none => s
  | _ => s

end Sys2Proof.Machine
end

