-- ==== Sys2Proof/Machine/Conntrack.lean ====
section
/-!
DEFINITION. Conntrack.lean: connection tracking (R186–R190) and inline IPsec (R194–R196) of a Selvedge pipeline.
-/

namespace Sys2Proof.Machine

/-! ### Connections -/

/-- The class of a state: 0 NEW, 1 EST, 2 CLOSING (Table 06-7). -/
def CtSt.cls : CtSt → Nat
  | .synSent | .synRecv | .unreplied | .open_ => 0
  | .established | .assured | .openReplied => 1
  | .finWait | .closeWait | .timeWait | .closed => 2

/-- The timeout of a state in seconds (Table 06-7). -/
def CtSt.timeout : CtSt → Nat
  | .synSent | .synRecv | .unreplied | .open_ | .openReplied => 30
  | .established => 3600
  | .finWait | .timeWait => 120
  | .closeWait => 60
  | .closed => 10
  | .assured => 180

/-- A number for a state, in what goes to the peer. -/
def CtSt.code : CtSt → Nat
  | .synSent => 0
  | .synRecv => 1
  | .established => 2
  | .finWait => 3
  | .closeWait => 4
  | .timeWait => 5
  | .closed => 6
  | .unreplied => 7
  | .assured => 8
  | .open_ => 9
  | .openReplied => 10

/-- The state of a number. -/
def ctOfCode (n : Nat) : CtSt :=
  if n = 0 then .synSent else if n = 1 then .synRecv else if n = 2 then .established else if n = 3 then .finWait
  else if n = 4 then .closeWait else if n = 5 then .timeWait else if n = 6 then .closed else if n = 7 then .unreplied
  else if n = 8 then .assured else if n = 9 then .open_ else .openReplied

/-- The connection key of a packet (R186): its flow key with the TSID replaced by the ZONE, and the direction, which a connection is found
without, 0. -/
def ctKey (zone : Nat) (key : List Byte) : List Byte :=
  leBytes 2 (zone % 4096 + leAt key 0 2 / 4096 * 4096) ++ leBytes 1 (leAt key 2 1) ++ leBytes 1 (leAt key 3 1 &&& 2) ++ leBytes 2 (zone / 4096) ++
    key.drop 4

/-- The key that a reply carries: addresses exchanged, TCP and UDP ports exchanged, an echo request's type made the reply's. -/
def ctReverse (k : List Byte) : List Byte :=
  let proto := leAt k 2 1
  let sp := (k.drop 6).take 2
  let dp := (k.drop 8).take 2
  let ports :=
    if proto = 6 || proto = 17 then dp ++ sp
    else if proto = 1 && leNat dp = 0x0800 then sp ++ [0, 0]
    else if proto = 58 && leNat dp = 0x8000 then sp ++ leBytes 2 0x8100
    else sp ++ dp
  k.take 6 ++ ports ++ (k.drop 26).take 16 ++ (k.drop 10).take 16

/-- A connection's stored translation, seen by its reply key: a source translation changes where replies go, a destination translation where they
come from. -/
def ctNatKey (k : List Byte) (dst : Bool) (addr : List Byte) (port : Nat) : List Byte :=
  let r := ctReverse k
  let proto := leAt k 2 1
  let hasPort := proto = 6 || proto = 17
  let p := leBytes 2 port
  let ports (sp dp : List Byte) : List Byte := sp ++ dp
  let sp := (r.drop 6).take 2
  let dp := (r.drop 8).take 2
  if dst then r.take 6 ++ (if hasPort then ports p dp else ports sp dp) ++ addr ++ (r.drop 26).take 16
  else r.take 6 ++ (if hasPort then ports sp p else ports sp dp) ++ (r.drop 10).take 16 ++ addr

/-- The unexpired connection of a key, and whether the packet is in its reply direction. A packet at the timeout still finds it (Table 06-17). -/
def State.ctFind (s : State) (key : List Byte) : Option (Conn × Bool) :=
  match s.selv.conns.find? fun c => c.key == key && decide (s.now ≤ c.expires) with
  | some c => some (c, false)
  | none =>
    match s.selv.conns.find? fun c => c.rkey == key && decide (s.now ≤ c.expires) with
    | some c => some (c, true)
    | none => none

/-- A connection is stored, and its creation or state change goes to the peer (R189). -/
def State.ctPut (s : State) (c : Conn) (tell : Bool) : State :=
  let s1 := { s with selv := { s.selv with conns := (s.selv.conns.filter fun x => x.key != c.key) ++ [c] } }
  if tell && s.mirrored then s1.sendFlit (.ctState c.key c.rkey c.st.code) else s1

/-- A connection is removed, and the removal goes to the peer. -/
def State.ctDrop (s : State) (key : List Byte) : State :=
  let s1 := { s with selv := { s.selv with conns := s.selv.conns.filter fun x => x.key != key } }
  if s.mirrored then s1.sendFlit (.ctGone key) else s1

/-- What connection tracking reads of a transport header: TCP flags and sequence number. -/
structure Seg where
  proto : Nat
  flags : Nat
  seq : Nat
  icmp : Nat
  deriving DecidableEq, Repr

/-- Read it from a frame's innermost layer. -/
def segOf (fr : List Byte) (l : Layer) : Seg :=
  { proto := if l.frag then 0 else l.proto, flags := if l.proto = 6 then leAt fr (l.l4 + 13) 1 else 0, seq := beAt fr (l.l4 + 4) 4, icmp := leAt fr l.l4 1 }

def Seg.fin (g : Seg) : Bool := g.flags.testBit 0
def Seg.syn (g : Seg) : Bool := g.flags.testBit 1
def Seg.rst (g : Seg) : Bool := g.flags.testBit 2
def Seg.ack (g : Seg) : Bool := g.flags.testBit 4

/-- A segment lies within 2^30 of the sequence tracked in its direction. -/
def seqNear (tracked : Option Nat) (seq : Nat) : Bool :=
  match tracked with
  | none => true
  | some t => decide ((seq + 2 ^ 32 - t) % 2 ^ 32 ≤ 2 ^ 30) || decide ((t + 2 ^ 32 - seq) % 2 ^ 32 ≤ 2 ^ 30)

/-- The later of a tracked sequence and a segment's. -/
def seqMax (tracked : Option Nat) (seq : Nat) : Nat :=
  match tracked with
  | none => seq
  | some t => if (seq + 2 ^ 32 - t) % 2 ^ 32 < 2 ^ 31 then seq else t

/-- The state of a TCP connection after a segment (Table 06-7). -/
def tcpNext (c : Conn) (reply : Bool) (g : Seg) : Conn :=
  let fo := c.finO || (g.fin && !reply)
  let fr := c.finR || (g.fin && reply)
  let st :=
    if c.st = .closed then .closed
    else if g.rst then .closed
    else if fo && fr then .timeWait
    else if g.fin && !(c.finO || c.finR) then (if reply then .closeWait else .finWait)
    else if c.st = .synSent && reply && g.syn && g.ack then .synRecv
    else if c.st = .synRecv && !reply && g.ack && !g.syn then .established
    else c.st
  { c with st := st, finO := fo, finR := fr, seqO := if reply then c.seqO else some (seqMax c.seqO g.seq),
           seqR := if reply then some (seqMax c.seqR g.seq) else c.seqR }

/-- A connection after a packet; none when the packet is INVALID. -/
def Conn.next (c : Conn) (reply : Bool) (g : Seg) : Option Conn :=
  if g.proto = 6 then (if seqNear (if reply then c.seqR else c.seqO) g.seq then some (tcpNext c reply g) else none)
  else if g.proto = 1 || g.proto = 58 then some (if reply && c.st = .open_ then { c with st := .openReplied } else c)
  else some (if reply && c.st = .unreplied then { c with st := .assured } else c)

/-- The state in which a packet opens a connection, or none when it cannot: a TCP segment that is no SYN opens one only by pickup (R190). Protocols
that Table 06-7 does not name open as UDP does (log entry 28). -/
def ctOpen (g : Seg) (pickup : Bool) : Option CtSt :=
  if g.proto = 6 then (if g.syn && !g.ack then some .synSent else if !g.syn && pickup then some .established else none)
  else if g.proto = 1 || g.proto = 58 then some .open_
  else some .unreplied

/-- Connections that the table's region has room for. -/
def ctCapacity (log2 : Nat) : Nat := min 33554432 (2 ^ log2 / 128)

/-- Stage 5 (R186–R190): the class of the packet (3 INVALID), the state after, the connection with its direction, and a reason. -/
def State.ctStage (s : State) (e : Nat) (key : List Byte) (g : Seg) (commit : Bool) (allow : Nat) :
    State × Nat × Option (Conn × Bool) × Option Nat :=
  let ends (c : Conn) : Conn := { c with expires := s.now + c.st.timeout * 1000000000 }
  match s.ctFind key with
  | some (c, reply) =>
    match c.next reply g with
    | none => (s, 3, some (c, reply), if allow.testBit 3 then none else some Rsn.CT_INVALID)
    | some c1 =>
      if allow.testBit c1.st.cls then (s.ctPut (ends c1) (c1.st != c.st), c1.st.cls, some (ends c1, reply), none)
      else (s, c1.st.cls, some (c, reply), some Rsn.CT_INVALID)
  | none =>
    match ctOpen g (s.fldE e R.SELV_CFG.CT_PICKUP == 1) with
    | none => (s, 3, none, if allow.testBit 3 then none else some Rsn.CT_INVALID)
    | some st =>
      if !allow.testBit st.cls then (s, st.cls, none, some Rsn.CT_INVALID)
      else if !commit then (s, st.cls, none, none)
      else
        let live := s.selv.conns.filter fun c => c.key != key && c.rkey != key
        if ctCapacity (s.fldE e (R.SELV_TBASE.LOG2 1)) ≤ live.length then (s, st.cls, none, some Rsn.CT_FULL)
        else
          let c : Conn :=
            { key := key, rkey := ctReverse key, st := st, expires := 0, seqO := if g.proto = 6 then some g.seq else none, seqR := none,
              finO := g.fin && g.proto == 6, finR := false, nat := none }
          let s1 : State := { s with selv := { s.selv with conns := live } }
          (s1.ctPut (ends c) true, st.cls, some (ends c, false), none)

/-- Rewrite an address and port of the innermost layer: its source, or its destination. -/
def natEdit (fr : List Byte) (p : Parsed) (dst : Bool) (addr : List Byte) (port : Nat) : List Byte :=
  let l := p.inner
  if l.ver = 0 then fr
  else
    let f1 :=
      if l.ver = 4 then editIp fr l (l.l3 + if dst then 16 else 12) (addr.take 4) true
      else editIp fr l (l.l3 + if dst then 24 else 8) addr true
    if l.frag || (l.proto ≠ 6 && l.proto ≠ 17) then f1 else editPort f1 l (l.l4 + if dst then 2 else 0) port

/-- The reverse of a stored translation, on a packet in the reply direction (R188). -/
def natReverse (fr : List Byte) (p : Parsed) (c : Conn) : List Byte :=
  match c.nat with
  | none => fr
  | some (false, _, _) => natEdit fr p true ((c.key.drop 10).take 16) (leAt c.key 6 2)
  | some (true, _, _) => natEdit fr p false ((c.key.drop 26).take 16) (leAt c.key 8 2)

/-! ### Inline IPsec -/

/-- What a security association has come to. -/
def State.saDyn (s : State) (i : Nat) : SaDyn :=
  smGet { seq := 0, ceil := 0, bytes := 0, pkts := 0, stopped := false, edge := 0, seen := [] } s.selv.sas i

/-- It takes a value. -/
def State.setSa (s : State) (i : Nat) (d : SaDyn) : State := { s with selv := { s.selv with sas := smIns s.selv.sas i d } }

/-- Lengths and checksum of an IP header whose payload is `n` bytes. -/
def ipLen (h : List Byte) (n : Nat) : List Byte :=
  if bitsOf (leAt h 0 1) 4 4 = 4 then ip4Fill (patch h 2 (beBytes 2 (h.length + n))) 0
  else patch h 4 (beBytes 2 (h.length - 40 + n))

/-- The same IP header with another protocol or next header. -/
def ipProto (h : List Byte) (proto : Nat) : List Byte :=
  if bitsOf (leAt h 0 1) 4 4 = 4 then patch h 9 (leBytes 1 proto) else patch h 6 (leBytes 1 proto)

/-- Additional data of ESP: SPI and sequence number, in full when extended (RFC 4106). -/
def espAad (sa : SaCfg) (seq : Nat) : List Byte :=
  if sa.esn then beBytes 4 sa.spi ++ beBytes 8 seq else beBytes 4 sa.spi ++ beBytes 4 (seq % 2 ^ 32)

/-- ESP around a payload of next header `nh` (R194, RFC 4303): header, IV, ciphertext, ICV. -/
def espSeal (sa : SaCfg) (seq nh : Nat) (pl : List Byte) : List Byte :=
  let pad := (4 - (pl.length + 2) % 4) % 4
  let t := pl ++ ((List.range pad).map fun i => BitVec.ofNat 8 (i + 1)) ++ leBytes 1 pad ++ leBytes 1 nh
  let iv := beBytes 8 seq
  let r := aesGcm sa.key (sa.salt ++ iv) (espAad sa seq) true t
  beBytes 4 sa.spi ++ beBytes 4 (seq % 2 ^ 32) ++ iv ++ r.1 ++ r.2

/-- Open ESP: next header and payload, or none when the ICV fails. -/
def espOpen (sa : SaCfg) (seq : Nat) (b : List Byte) : Option (Nat × List Byte) :=
  let n := b.length
  if n < 34 then none
  else
    let iv := (b.drop 8).take 8
    let ct := (b.drop 16).take (n - 32)
    let r := aesGcm sa.key (sa.salt ++ iv) (espAad sa seq) false ct
    if r.2 ≠ b.drop (n - 16) then none
    else
      let pad := leAt r.1 (r.1.length - 2) 1
      some (leAt r.1 (r.1.length - 1) 1, r.1.take (r.1.length - 2 - pad))

/-- A frame under an outbound SA with sequence number `seq`: transport mode wraps the outermost IP payload, tunnel mode the outermost IP packet. -/
def espFrame (sa : SaCfg) (seq : Nat) (fr : List Byte) (l : Layer) : List Byte :=
  if sa.tunnel then
    let e := espSeal sa seq (if l.ver = 4 then 4 else 41) (fr.drop l.l3)
    let h := ipLen (ipProto sa.tunHdr 50) e.length
    fr.take 12 ++ beBytes 2 (if bitsOf (leAt h 0 1) 4 4 = 4 then 0x0800 else 0x86DD) ++ h ++ e
  else
    let e := espSeal sa seq l.proto (fr.drop l.l4)
    fr.take l.l3 ++ ipLen (ipProto ((fr.drop l.l3).take (l.l4 - l.l3)) 50) e.length ++ e

/-- A frame's ESP opened: transport mode puts the payload back under its IP header, tunnel mode leaves the inner packet. -/
def espUnframe (sa : SaCfg) (fr : List Byte) (l : Layer) (nh : Nat) (pl : List Byte) : List Byte :=
  if sa.tunnel then fr.take 12 ++ beBytes 2 (if nh = 4 then 0x0800 else 0x86DD) ++ pl
  else fr.take l.l3 ++ ipLen (ipProto ((fr.drop l.l3).take (l.l4 - l.l3)) nh) pl.length ++ pl

/-- An SA's next sequence number, in a pair under a ceiling that has been mirrored (R195). -/
def State.saNext (s : State) (i : Nat) : State × Nat :=
  let d := s.saDyn i
  let n := d.seq + 1
  if s.mirrored && decide (d.ceil < n) then
    let c := d.ceil + 2 ^ 20
    ((s.setSa i { d with seq := n, ceil := max c n }).sendFlit (.saCeil i (max c n)), n)
  else (s.setSa i { d with seq := n }, n)

/-- Count a packet under an SA's lifetimes; the packet that reaches one completes, and the SA stops (R195, Table 06-17). -/
def State.saCount (s : State) (i : Nat) (sa : SaCfg) (n : Nat) : State :=
  let d := s.saDyn i
  let b := d.bytes + n
  let k := d.pkts + 1
  let stop := (sa.byteLife != 0 && decide (sa.byteLife ≤ b)) || (sa.pktLife != 0 && decide (sa.pktLife ≤ k)) ||
    (sa.outbound && !sa.esn && decide (0xFFFFFFFF ≤ d.seq))
  let s1 := s.setSa i { d with bytes := b, pkts := k, stopped := d.stopped || stop }
  if stop && !d.stopped then s1.setBit R.SELV_STATUS.SA_EVT else s1

/-- Stage 7 outbound: the frame, or a reason. -/
def State.ipsecEnc (s : State) (e i : Nat) (fr : List Byte) (p : Parsed) : State × (List Byte ⊕ Nat) :=
  let sa := Config.saDecode (s.tabIdx e 6 i 128)
  if (s.saDyn i).stopped then (s, .inr Rsn.SA_EXPIRED)
  else if p.outer.ver = 0 then (s, .inr Rsn.ACTION_ERR)
  else
    let r := s.saNext i
    (r.1.saCount i sa fr.length, .inl (espFrame sa r.2 fr p.outer))

/-- The full sequence number of an inbound packet: with ESN the one nearest above the window's lower end. -/
def inboundSeq (sa : SaCfg) (edge lo : Nat) : Nat :=
  if !sa.esn then lo
  else
    let base := edge / 2 ^ 32 * 2 ^ 32
    let low := edge - 1023
    if low ≤ base + lo then (if 2 ^ 32 ≤ base + lo - low && 2 ^ 32 ≤ base + lo then base + lo - 2 ^ 32 else base + lo) else base + 2 ^ 32 + lo

/-- The replay window admits a sequence number (R196). -/
def SaDyn.fresh (d : SaDyn) (seq : Nat) : Bool := decide (d.edge < seq + 1024) && !d.seen.contains seq

/-- The window after a sequence number. -/
def SaDyn.see (d : SaDyn) (seq : Nat) : SaDyn :=
  let e := max d.edge seq
  { d with edge := e, seen := (seq :: d.seen).filter fun x => decide (e < x + 1024) }

/-- Stage 7 inbound: the inner frame and, in tunnel mode, its TSID; or a reason. -/
def State.ipsecDec (s : State) (e i : Nat) (fr : List Byte) (p : Parsed) : State × ((List Byte × Option Nat) ⊕ Nat) :=
  let sa := Config.saDecode (s.tabIdx e 6 i 128)
  let d := s.saDyn i
  let l := p.outer
  if d.stopped then (s, .inr Rsn.SA_EXPIRED)
  else if l.proto ≠ 50 || l.frag then (s, .inr Rsn.ACTION_ERR)
  else
    let b := fr.drop l.l4
    let b1 := if l.ver = 4 then b.take (beAt fr (l.l3 + 2) 2 - (l.l4 - l.l3)) else b.take (beAt fr (l.l3 + 4) 2 + 40 - (l.l4 - l.l3))
    let seq := inboundSeq sa d.edge (beAt b1 4 4)
    if !d.fresh seq then (s, .inr Rsn.IPSEC_REPLAY)
    else match espOpen sa seq b1 with
      | none => (s, .inr Rsn.IPSEC_AUTH)
      | some (nh, pl) =>
        let d1 := d.see seq
        let s1 := s.setSa i d1
        let s2 := if s.mirrored && d.edge / 1024 != d1.edge / 1024 then s1.sendFlit (.saEdge i d1.edge) else s1
        (s2.saCount i sa fr.length, .inl (espUnframe sa fr l nh pl, if sa.tunnel then some sa.tsid else none))

end Sys2Proof.Machine
end

