-- ==== Sys2Proof/Machine/Selvedge.lean ====
section
/-!
DEFINITION. Selvedge.lean: the pipeline of 06_selvedge.md: stages 1 to 8, delivery, egress, reinjection, PFC, and the commands that are its
events.
-/

namespace Sys2Proof.Machine

/-- Parse a frame under a packet's epoch. -/
def State.parseE (s : State) (e : Nat) (fr : List Byte) : Parsed :=
  parseFrame (s.fldE e R.SELV_CFG.VXLAN_PORT) (s.fldE e R.SELV_CFG.GENEVE_PORT) fr

/-- The packet takes another frame. -/
def PCtx.withFrame (c : PCtx) (fr : List Byte) : PCtx := { c with p := { c.p with frame := fr } }

/-! ### Delivery to a function (R198–R200) -/

/-- Bytes 0 to 303 of SELV_RSS[f]. -/
def State.rssBytes (s : State) (f : Nat) : List Byte := (List.range 38).flatMap fun i => leBytes 8 (s.reg (R.SELV_RSS.off f i)).toNat

/-- The hash type that covers a layer, of those enabled: bit number 0 to 5 (IPv4, TCPv4, UDPv4, IPv6, TCPv6, UDPv6). -/
def rssType (types : Nat) (l : Layer) : Option Nat :=
  let b := if l.ver = 4 then 0 else 3
  if l.ver = 0 then none
  else if l.proto = 6 && !l.frag && types.testBit (b + 1) then some (b + 1)
  else if l.proto = 17 && !l.frag && types.testBit (b + 2) then some (b + 2)
  else if types.testBit b then some b
  else none

/-- The hash input of a layer under a type: addresses, and ports where the type has them. -/
def rssInput (t : Nat) (fr : List Byte) (l : Layer) : List Byte :=
  let n := if l.ver = 4 then 4 else 16
  (l.saddr fr).take n ++ (l.daddr fr).take n ++ if t % 3 = 0 then [] else beBytes 2 l.sport ++ beBytes 2 l.dport

/-- The local index that RSS chooses (of a virtio-net function without MQ_RSS_CONFIG one of its set pairs, log entry 220), with the hash and its type number (0: none). -/
def State.rssPick (s : State) (e f : Nat) (fr : List Byte) (l : Layer) : Nat × Nat × Nat :=
  let b := s.rssBytes f
  let n := leAt b 40 2
  let def_ := s.fldE e (R.SELV_VPORTA.DEF_LOCAL f)
  let v := (s.fn f).virtio
  let other := if s.pers f = 1 && !v.rssTable.isEmpty then 2 * v.rssUncl else def_
  match rssType (leAt b 42 2) l with
  | none => (other, 0, 0)
  | some t =>
    let h := toeplitz (b.take 40) (rssInput t fr l)
    let k := leAt b (48 + 2 * (h % n)) 2
    if n = 0 || decide (128 < n) then (def_, h, t + 1)
    else if s.pers f = 1 && v.rssTable.isEmpty then (2 * (k / 2 % max 1 v.pairs), h, t + 1)
    else (k, h, t + 1)

/-- A virtio-net function's receive filter passes a frame (R116). -/
def State.rxFilter (s : State) (f : Nat) (fr : List Byte) : Bool :=
  let v := (s.fn f).virtio
  let d := beAt fr 0 6
  let mac := s.fld (R.SELV_VPORTB.MAC f)
  let own := d == beNat (leBytes 6 mac)
  let mc := d / 2 ^ 40 % 2 == 1
  let tag := beAt fr 12 2 == 0x8100
  s.pers f != 1 || !getBit v.feats 18 ||
    ((own || v.promisc || d == 2 ^ 48 - 1 || (mc && (v.allmulti || v.multi.any fun m => m.toNat == d))) &&
      (!getBit v.feats 19 || !tag || v.vlans.contains (beAt fr 14 2 % 4096)))

/-- A packet for a function's local index goes to the ring adopted from the peer when this twin's own ring of the pair does not run. -/
def State.rxAdopts (s : State) (q : Nat) : Bool :=
  (s.qp (131072 + q)).st != .free && !((s.qp q).st == .active || (s.qp q).st == .parked)

/-- Stage 8 of a packet for a function: VID, FRAME_MAX, local index, HOLD; then it waits for its QP (R198–R200). -/
def State.toFunction (s : State) (c : PCtx) (f : Nat) (fixed : Option Nat) (acct : Option Nat) : State :=
  let e := c.p.epoch
  let vid := s.fldE e (R.SELV_VPORTB.VID f)
  let l0 := (s.parseE e c.p.frame).inner
  let ok := csumRight c.p.frame l0
  let pk := s.rssPick e f c.p.frame l0
  let fr := if vid = 0 then c.p.frame else vlanPush c.p.frame vid 0
  let loc := fixed.getD pk.1
  let room := max 1 (s.fldE e (R.SELV_VPORTA.HOLD f)) * 65536
  let waits := ((s.selv.rx.filter fun x => x.f == f).map fun x => cells x.frame * 256).sum
  if s.fldE e (R.SELV_VPORTA.FRAME_MAX f) < fr.length then s.pktReason c Rsn.OVERSIZE
  else if !s.rxFilter f fr then s.emit (.netDrop c.p.pipe 0)
  else match s.qpAt f loc with
    | none => s.pktReason c Rsn.NO_QUEUE
    | some q =>
      if s.galv.lent.contains q then s.sendFlit (.packet f loc fr)
      else if room < waits + cells fr * 256 then s.pktReason c Rsn.HOLD_FULL
      else
        let x : RxPkt :=
          { f := f, loc := loc, frame := fr, acct := acct, ew := !c.p.fromPort, pipe := c.p.pipe, hash := pk.2.1, htype := pk.2.2, csumOk := ok,
            cls := c.p.cls, src := c.p.src, adopt := s.rxAdopts q }
        { s with selv := { s.selv with rx := s.selv.rx ++ [x] } }

/-- Stage 8 of a packet for an Ethernet port. A port that does not exist gives ACTION_ERR (R172). -/
def State.toPort (s : State) (c : PCtx) (port cls : Nat) (acct : Option Nat) : State :=
  if !s.ethPort c.p.epoch port then s.pktReason c Rsn.ACTION_ERR
  else s.egressPut c port cls { frame := c.p.frame, acct := acct, fromPort := c.p.fromPort, src := c.p.src, cls := c.p.cls } c.yellow

/-! ### Actions (R191) -/

/-- The words of an action list: the slots from its index on. -/
def State.actWords (s : State) (e idx : Nat) : List Nat :=
  (List.range 5).flatMap fun k => let b := s.tabIdx e 4 (idx + k) 64; (List.range 8).map fun i => leAt b (8 * i) 8

/-- SET_FIELD on the outermost headers: the frame, and whether the TTL reached 0. Values stand in memory order. -/
def setField (fr : List Byte) (l : Layer) (f : Nat) (v : List Byte) : List Byte × Bool :=
  let ports := (l.proto = 6 || l.proto = 17) && !l.frag && l.ver ≠ 0
  if f = 0 then (patch fr 0 (v.take 6), false)
  else if f = 1 then (patch fr 6 (v.take 6), false)
  else if f = 2 then
    let d := leAt v 0 1 % 64
    if l.ver = 4 then (editIp fr l l.l3 (leBytes 1 (leAt fr l.l3 1) ++ leBytes 1 (d * 4 + leAt fr (l.l3 + 1) 1 % 4)) false, false)
    else if l.ver = 6 then
      let w := beAt fr l.l3 2
      (patch fr l.l3 (beBytes 2 (w / 4096 * 4096 + (d * 4 + w / 16 % 4) * 16 + w % 16)), false)
    else (fr, false)
  else if f = 3 then
    if l.ver = 4 then
      let t := leAt fr (l.l3 + 8) 1 - 1
      (editIp fr l (l.l3 + 8) (leBytes 1 t ++ leBytes 1 (leAt fr (l.l3 + 9) 1)) false, decide (t = 0))
    else if l.ver = 6 then
      let t := leAt fr (l.l3 + 7) 1 - 1
      (patch fr (l.l3 + 7) (leBytes 1 t), decide (t = 0))
    else (fr, false)
  else if f = 4 || f = 5 then (if l.ver = 4 then editIp fr l (l.l3 + (if f = 4 then 12 else 16)) (v.take 4) true else fr, false)
  else if f = 6 || f = 7 then (if ports then editPort fr l (l.l4 + (if f = 6 then 0 else 2)) (beAt v 0 2) else fr, false)
  else if f = 8 || f = 9 then (if l.ver = 6 then editIp fr l (l.l3 + (if f = 8 then 8 else 24)) v true else fr, false)
  else (fr, false)

/-- ENCAP with a 128 B template (R193): the header image before the frame, VNI, UDP source port, DF, lengths and checksums filled in. -/
def encap (fr : List Byte) (outer : Layer) (tpl : List Byte) (vni hash : Nat) : Option (List Byte) :=
  let ty := leAt tpl 0 1
  let n := leAt tpl 1 1
  let fl := leAt tpl 2 1
  let h0 := (tpl.drop 8).take n
  let vl := vlanTags h0 2 12
  let l3 := vl.2.2
  let ver := verOf vl.2.1
  let l4 := if ver = 4 then l3 + 4 * bitsOf (leAt h0 l3 1) 0 4 else l3 + 40
  let ethIn := ty = 1 || (ty = 2 && beAt h0 (l4 + 10) 2 = 0x6558) || (ty = 3 && beAt h0 (l4 + 2) 2 = 0x6558)
  let pl := if ethIn then fr else fr.drop outer.l3
  if ty = 0 || decide (5 < ty) || n < 8 || 120 < n || ver = 0 || (!ethIn && outer.ver = 0) then none
  else
    let h1 := if vni = 0 then h0
      else if ty = 1 || ty = 2 then patch h0 (l4 + 12) (beBytes 3 vni)
      else if ty = 3 && (beAt h0 l4 2).testBit 13 then patch h0 (l4 + 4 + if (beAt h0 l4 2).testBit 15 then 4 else 0) (beBytes 4 vni)
      else h0
    let h2 := if fl.testBit 0 && (ty = 1 || ty = 2) then patch h1 l4 (beBytes 2 (49152 + hash % 16384)) else h1
    let h3 := if fl.testBit 1 && ver = 4 && outer.ver = 4 then
        patch h2 (l3 + 6) (beBytes 2 (beAt h2 (l3 + 6) 2 % 0x4000 + beAt fr (outer.l3 + 6) 2 / 0x4000 % 2 * 0x4000)) else h2
    let f0 := h3 ++ pl
    let len := f0.length
    let f1 := if ver = 4 then ip4Fill (patch f0 (l3 + 2) (beBytes 2 (len - l3))) l3 else patch f0 (l3 + 4) (beBytes 2 (len - l3 - 40))
    if ty = 1 || ty = 2 then
      let f2 := patch f1 (l4 + 4) (beBytes 2 (len - l4))
      some (csumFill f2 { Layer.none with ver := ver, l3 := l3, proto := 17, l4 := l4 })
    else some f1

/-- The outer tag's priority. -/
def outerPcp (fr : List Byte) : Nat := if (vlanTags fr 2 12).1.isEmpty then 0 else beAt fr 14 2 / 8192

/-- NAT of a packet of a connection (R188): the stored translation, or a new one with a port of its range that a free value picks, is applied to
the packet in the first direction. -/
def State.natWord (s : State) (c : PCtx) (par : Parsed) (dst : Bool) (addr : List Byte) (lo hi : Nat) : State × PCtx :=
  match c.conn with
  | none => (s, c)
  | some (key, reply) =>
    match s.selv.conns.find? fun x => x.key == key with
    | none => (s, c)
    | some x =>
      if reply then (s, c)
      else match x.nat with
        | some (d, a, p) => (s, c.withFrame (natEdit c.p.frame par d a p))
        | none =>
          let port := lo + s.free % (hi - lo + 1)
          let y := { x with nat := some (dst, addr, port), rkey := ctNatKey key dst addr port }
          ((s.drawn).ctPut y true, c.withFrame (natEdit c.p.frame par dst addr port))

/-- A mirror copy of the packet as it stands (MIRROR). -/
def State.mirror (s : State) (c : PCtx) (target idx snap : Nat) : State :=
  let m := if snap = 0 then c else c.withFrame (c.p.frame.take snap)
  let s1 := s.pcnt c.p.pipe 9
  if target = 0 then s1.toPort m idx 0 none
  else if target = 1 then s1.toFunction m idx none none
  else (s1.drawn).toExq (idx % 64) m (s1.free % 256) true

/-- What one action word came to: on with the list, the end of the packet, or recirculation. -/
inductive ActStep where
  | on (s : State) (c : PCtx)
  | end_ (s : State)
  | recirc (s : State) (p : Pkt)

/-- A CT word, in stage 5 (R186–R190). -/
def State.ctWord (s : State) (c : PCtx) (w : Nat) : ActStep :=
  let par := s.parseE c.p.epoch c.p.frame
  let key := ctKey (bitsOf w 12 16) c.key
  let r := s.ctStage c.p.epoch key (segOf c.p.frame par.inner) (w.testBit 28) (bitsOf w 32 4)
  let conn := r.2.2.1
  let c1 := { c with cls := r.2.1, conn := conn.map fun x => (x.1.key, x.2), commits := w.testBit 28 }
  match r.2.2.2 with
  | some reason => .end_ (r.1.pktReason c1 reason)
  | none =>
    match conn with
    | some (x, true) => .on r.1 (c1.withFrame (natReverse c.p.frame par x))
    | _ => .on r.1 c1

/-- One action word with its extension words (Table 06-8). -/
def State.actWord (s : State) (c : PCtx) (first : Bool) (w : Nat) (ext : List Nat) : ActStep :=
  let e := c.p.epoch
  let op := w % 256
  let par := s.parseE e c.p.frame
  let bad : ActStep := .end_ (s.pktReason c Rsn.ACTION_ERR)
  let v := (ext.flatMap fun x => leBytes 8 x) ++ zeros 24
  if op = 0x00 then .end_ (s.pktReason c Rsn.NO_FWD)
  else if op = 0x01 then
    let r := bitsOf w 12 8
    if r ≠ 0 && decide (r < 0x80) then bad else .end_ (s.pktReason c Rsn.ACL_DENY)
  else if op = 0x02 then
    let f := bitsOf w 12 13
    .end_ (s.toFunction c f (if w.testBit 25 then some (bitsOf w 26 12) else none) (some (s.pktAcct c (some f))))
  else if op = 0x03 then
    .end_ (s.toPort c (bitsOf w 12 6) (if w.testBit 21 then outerPcp c.p.frame else bitsOf w 18 3) (some (s.pktAcct c none)))
  else if op = 0x04 then
    match decap c.p.frame par (bitsOf w 12 2 + 1) with
    | some fr => .on s (c.withFrame fr)
    | none => bad
  else if op = 0x05 then
    match encap c.p.frame par.outer (s.tabIdx e 5 (bitsOf w 12 16) 128) (bitsOf w 28 24) c.hash with
    | some fr => .on s (c.withFrame fr)
    | none => bad
  else if op = 0x06 then
    let r := setField c.p.frame par.outer (bitsOf w 12 8) v
    if r.2 then .end_ (s.pktReason (c.withFrame r.1) Rsn.TTL_EXPIRED) else if 9 < bitsOf w 12 8 then bad else .on s (c.withFrame r.1)
  else if op = 0x07 then
    let m := bitsOf w 12 2
    .on s (c.withFrame (if m = 0 then vlanPop c.p.frame else if m = 1 then vlanPush c.p.frame (bitsOf w 14 12) (bitsOf w 26 3)
      else if m = 2 then vlanSet c.p.frame (bitsOf w 14 12) (bitsOf w 26 3) else c.p.frame))
  else if op = 0x08 then
    if !c.commits then bad
    else
      let r := s.natWord c par (w.testBit 12) (v.take 16) (leAt v 16 2) (leAt v 18 2)
      .on r.1 r.2
  else if op = 0x09 then (if first then s.ctWord c w else bad)
  else if op = 0x0A then
    let t := bitsOf w 12 2
    let i := bitsOf w 14 13
    if 2 ≤ c.mirrors || t = 3 || (t = 0 && !s.ethPort e i) then bad
    else .on (s.mirror c t i (bitsOf w 32 16)) { c with mirrors := c.mirrors + 1 }
  else if op = 0x0B then
    let i := bitsOf w 12 18
    let r := s.police i (s.tabIdx e 7 i 32) c.p.frame.length
    if r.2 = 2 then .end_ ((r.1.charge (r.1.pktAcct c none) 13 1).pktReason c Rsn.POLICED)
    else .on r.1 { c with yellow := c.yellow || r.2 == 1 }
  else if op = 0x0C then .on s { c with count := some (bitsOf w 12 13) }
  else if op = 0x0D then
    let r := bitsOf w 18 8
    if r < 0x80 then bad else .end_ (s.toExq (bitsOf w 12 6) c r false)
  else if op = 0x0E then
    let r := s.ipsecEnc e (bitsOf w 12 18) c.p.frame par
    match r.2 with
    | .inl fr => .on (r.1.charge (r.1.pktAcct c none) 10 c.p.frame.length) (c.withFrame fr)
    | .inr x => .end_ (r.1.pktReason c x)
  else if op = 0x0F then
    if c.p.recirc then bad
    else
      let r := s.ipsecDec e (bitsOf w 12 18) c.p.frame par
      match r.2 with
      | .inl (fr, t) =>
        .recirc ((r.1.charge (r.1.pktAcct c none) 10 c.p.frame.length).pcnt c.p.pipe 7)
          { c.p with frame := fr, tx := false, recirc := true, tsid := t.or c.tsid }
      | .inr x => .end_ (r.1.pktReason c x)
  else bad

/-- The words of a list in order, at most 32 of them with their extension words. -/
def State.runWords (s : State) (c : PCtx) : Nat → Bool → List Nat → State × Option Pkt
  | 0, _, _ => (s.pktReason c Rsn.ACTION_ERR, none)
  | fuel + 1, first, ws =>
    match ws with
    | [] => (s.pktReason c Rsn.ACTION_ERR, none)
    | w :: rest =>
      let n := bitsOf w 8 4
      if 3 < n || fuel < n then (s.pktReason c Rsn.ACTION_ERR, none)
      else match s.actWord c first w (rest.take n) with
        | .on s1 c1 => State.runWords s1 c1 (fuel - n) false (rest.drop n)
        | .end_ s1 => (s1, none)
        | .recirc s1 p => (s1, some p)

/-- Stages 5 to 8 under an action list. -/
def State.runAction (s : State) (c : PCtx) : State × Option Pkt := s.runWords c 32 true (s.actWords c.p.epoch c.act)

/-! ### Stages 1 to 4 -/

/-- Stages 1 and 2: what is known of the packet, or a reason. -/
def State.stage12 (s : State) (p : Pkt) : PCtx × Option Nat :=
  let e := p.epoch
  let c0 := PCtx.start p
  let par := s.parseE e p.frame
  let offs (c : PCtx) (q : Parsed) : PCtx := { c with l3 := q.inner.l3, l4 := q.inner.l4 }
  let known (t : Nat) (fr : List Byte) : PCtx × Option Nat :=
    let q := s.parseE e fr
    let key := flowKey t p.tx q.inner fr
    ({ (offs c0 q) with p := { p with frame := fr, hash := flowHash key }, tsid := some t, key := key, hash := flowHash key }, none)
  if s.fldE e R.SELV_CFG.ENABLE = 0 then (c0, some Rsn.DISABLED)
  else match par.reason with
    | some r => (offs c0 par, some r)
    | none =>
      match p.tsid with
      | some t => known t p.frame
      | none =>
        if p.fromPort then
          match s.tctClassify e (p.src - 0x2000) par p.frame with
          | some (t, fr) => known t fr
          | none => (offs c0 par, some Rsn.TENANT_MISS)
        else
          let f := p.src
          let mac := leBytes 6 (s.fldE e (R.SELV_VPORTB.MAC f))
          let vid := s.fldE e (R.SELV_VPORTB.VID f)
          if s.fldE e (R.SELV_VPORTA.ENABLE f) = 0 then (offs c0 par, some Rsn.VPORT_OFF)
          else if s.fldE e (R.SELV_VPORTA.SPOOFCHK f) = 1 && (p.frame.drop 6).take 6 != mac then (offs c0 par, some Rsn.SPOOF)
          else known (s.fldE e (R.SELV_VPORTA.TSID f))
            (if vid ≠ 0 && (vlanTags p.frame 2 12).1.head? == some (beAt p.frame 14 2) && beAt p.frame 14 2 % 4096 = vid then vlanPop p.frame
             else p.frame)

/-- A packet of the same flow hash waits in the pipeline's miss buffer (R183). -/
def State.missBehind (s : State) (p hash : Nat) : Bool := s.selv.miss.any fun x => x.pipe == p && x.hash == hash

/-- A packet enters the miss buffer, or finds it full. -/
def State.missPut (s : State) (p : Pkt) (c : PCtx) : State :=
  if 65536 ≤ (s.selv.miss.filter fun x => x.pipe == p.pipe).length then s.pktReason c Rsn.MISS_FULL
  else { s with selv := { s.selv with miss := s.selv.miss ++ [{ p with hash := c.hash }] } }

/-- A flow entry's decision on a packet. -/
def State.takeFlow (s : State) (c : PCtx) (x : TabEnt) : State × Option Pkt :=
  (s.flowHit x).runAction { c with act := flowAction x.image, flowAcct := flowAcct x.image }

/-- One pass of a packet from stage 1 on. It leaves a packet to recirculate, if any. -/
def State.passOnce (s : State) (p : Pkt) : State × Option Pkt :=
  let s0 := s.pcnt p.pipe (b2n p.tx)
  match s0.stage12 p with
  | (c, some r) => (s0.pktReason c r, none)
  | (c, none) =>
    let t := c.tsid.getD 0
    if s0.missBehind p.pipe c.hash then (s0.missPut p c, none)
    else match (if s0.cached p.pipe c.key then s0.flowFind p.epoch t c.key else none) with
      | some x => if flowAcl x.image then (s0.missPut p c, none) else s0.takeFlow c x
      | none => ((s0.pcnt p.pipe 2).missPut p c, none)

/-- A packet through its pipeline, and once more where IPSEC_DEC recirculates it. -/
def State.pipeline (s : State) (p : Pkt) : State :=
  match s.passOnce p with
  | (s1, none) => s1
  | (s1, some p1) => (s1.passOnce p1).1

/-- A packet stamped now. -/
def State.newPkt (s : State) (pipe : Nat) (tx : Bool) (src : Nat) (fr : List Byte) (acct : Option Nat) (cls : Nat) : Pkt :=
  { pipe := pipe, tx := tx, src := src, frame := fr, epoch := s.epoch, time := s.now, recirc := false, tsid := none, acct := acct, cls := cls, hash := 0 }

/-- A frame that a function sends enters stage 1 of its panel's transmit path (R170). -/
def State.sendFrame (s : State) (f : Nat) (fr : List Byte) : State := s.pipeline (s.newPkt (s.fnPort f / 8) true f fr none 0)

/-- What stage 4 makes of a packet (R184, R185). -/
def State.aclStage (s : State) (c : PCtx) (configured : Bool) : State × Option Pkt :=
  let t := c.tsid.getD 0
  let s1 := s.pcnt c.p.pipe 4
  match s1.aclFind c.p.epoch t c.key with
  | some im =>
    let c1 := { c with act := aclAction im, rule := aclRule im }
    (if aclLearn im && !configured then s1.learn c1 (aclAction im) else s1).runAction c1
  | none =>
    if s1.fldE c.p.epoch (R.SELV_TSPACE.DEF_VALID t) = 1 then s1.runAction { c with act := s1.fldE c.p.epoch (R.SELV_TSPACE.DEF_ACTION t) }
    else (s1.pktReason c Rsn.NO_RULE, none)

/-- The old copies and commit epochs that no packet needs any more are released (R175). -/
def State.histTrim (s : State) : State :=
  { s with selv := { s.selv with hist := s.selv.hist.filter fun h => s.selv.miss.any fun p => !epochGe p.epoch h.1 } }

/-- A packet leaves the miss buffer. -/
def State.missTake (s : State) (p : Pkt) : State := { s with selv := { s.selv with miss := s.selv.miss.erase p } }

/-- MISS_LOOKUP_COMPLETE (R182–R185): the oldest packet of a pipeline's miss buffer gets its DRAM lookup and, where that has no decision, its ACL
result. -/
def execMissLookupComplete (pipe : Nat) (s : State) : Res :=
  .next (s.whenPanel pipe fun s =>
    match s.selv.miss.find? fun x => x.pipe == pipe with
    | none => s
    | some p =>
      let s0 := s.missTake p
      let r := match s0.stage12 p with
        | (c, some x) => (s0.pktReason c x, none)
        | (c, none) =>
          match s0.flowFind p.epoch (c.tsid.getD 0) c.key with
          | some x =>
            if flowAcl x.image then
              (s0.flowHit x).aclStage { c with flowAcct := flowAcct x.image } (!flowLearned x.image)
            else (s0.cacheFill pipe c.key).takeFlow c x
          | none => (s0.pcnt pipe 3).aclStage c false
      let s1 := match r.2 with
        | some p1 => (r.1.passOnce p1).1
        | none => r.1
      (s1.pfcLeft p.src p.cls).histTrim)

/-- MISS_AGE (R175): a packet of the miss buffer, by its place among its pipeline's, is older than 200 µs. -/
def execMissAge (pipe idx : Nat) (s : State) : Res :=
  .next (s.whenPanel pipe fun s =>
    match (s.selv.miss.filter fun x => x.pipe == pipe)[idx]? with
    | none => s
    | some p =>
      if s.now - p.time ≤ 200000 then s
      else (((s.missTake p).pktReason (s.stage12 p).1 Rsn.MISS_AGE).pfcLeft p.src p.cls).histTrim)

/-- LEARN_IDLE_EXPIRY (R185): a learned flow whose LAST_HIT is more than LEARN_IDLE_S ago is removed. -/
def execLearnIdleExpiry (key : List (BitVec 8)) (s : State) : Res :=
  .next (s.whenUp fun s =>
    let idle := s.fld R.SELV_CFG.LEARN_IDLE_S
    let lim := if idle = 0 then 300 else idle
    let dead (x : TabEnt) : Bool := x.table == 2 && x.loc == key && flowLearned x.image &&
      decide (lim < (s.secs + 2 ^ 32 - flowLastHit x.image) % 2 ^ 32)
    { s with selv := { s.selv with tabs := s.selv.tabs.filter fun x => !dead x } })

/-- CT_TIMEOUT (R187): a connection past its timeout is removed. -/
def execCtTimeout (zone : Nat) (key : List (BitVec 8)) (s : State) : Res :=
  .next (s.whenUp fun s =>
    match s.selv.conns.find? fun c => c.key == ctKey zone key with
    | some c => if c.expires < s.now then s.ctDrop c.key else s
    | none => s)

/-! ### Frames from and to Ethernet ports -/

/-- The pipeline that takes a received frame (R16): the port's panel, or for a spanning group one of its two panels by flow hash. -/
def State.rxPipe (s : State) (port : Nat) (fr : List Byte) : Nat :=
  let k := port / 8
  if k = 1 || k = 4 then
    let p0 := s.newPkt 0 false (0x2000 + port) fr none 0
    let h := (s.stage12 p0).1.hash
    (if k = 1 then 0 else 2) + h % 2
  else macPanel port

/-- FRAME_RECEIVE (R170, R202): a frame arrives on an Ethernet port. A bad FCS or a runt takes MAC_ERR. -/
def execFrameReceive (port : Nat) (frame : List (BitVec 8)) (fcsOk : Bool) (s : State) : Res :=
  .next (s.whenPanel (macPanel port) fun s =>
    if s.sys.gated || s.role == 3 || !s.ethPort s.epoch port then s
    else
      let pipe := s.rxPipe port frame
      let cls := outerPcp frame
      if !fcsOk || decide (frame.length < 60) then s.netDrop pipe Rsn.MAC_ERR
      else if s.cellsFree pipe < cells frame then s.netDrop pipe (if s.lossless port cls then Rsn.PFC_OVERRUN else Rsn.BUF_FULL)
      else (s.pipeline (s.newPkt pipe false (0x2000 + port) frame none cls)).pfcUpdate port cls)

/-- Shaper tokens of a class in bits, refilled to now: SHAPE Mbit/s with a burst of 64 KiB (R201). -/
def State.shapeNow (s : State) (port cls : Nat) : Nat :=
  let e := smGet (0, 0) s.selv.shape (classKey port cls)
  min (e.1 + (s.now - e.2) * s.fld (R.SELV_ETC.SHAPE port cls) / 1000) 524288

/-- Bits of a class's oldest frame. -/
def State.headBits (s : State) (port cls : Nat) : Nat :=
  match s.classQ port cls with
  | x :: _ => 8 * x.frame.length
  | [] => 0

/-- A class can be served: it holds a frame, is not paused, and its shaper admits the frame. -/
def State.classReady (s : State) (port cls : Nat) : Bool :=
  !(s.classQ port cls).isEmpty && !s.selv.paused.contains (classKey port cls) &&
    (s.fld (R.SELV_ETC.SHAPE port cls) == 0 || decide (s.headBits port cls ≤ s.shapeNow port cls))

/-- Deficit weighted round robin among classes: from the class in turn on, the first whose deficit covers its frame; each visit brings WEIGHT × 2 KiB. -/
def State.dwrr (s : State) (port : Nat) (ready : List Nat) : Nat → Nat → State × Option Nat
  | 0, _ => (s, none)
  | fuel + 1, c =>
    let k := classKey port c
    let len := s.headBits port c / 8
    let put (d : Int) : State := { s with
      selv := { s.selv with etcDef := smPut 0 s.selv.etcDef k d, etcPtr := smPut 0 s.selv.etcPtr port c } }
    let d := smGet 0 s.selv.etcDef k
    let q : Int := ((max 1 (s.fld (R.SELV_ETC.WEIGHT port c)) * 2048 : Nat) : Int)
    if !ready.contains c then State.dwrr (put 0) port ready fuel ((c + 1) % 8)
    else if (len : Int) ≤ d then (put (d - len), some c)
    else State.dwrr (put (d + q)) port ready fuel (if (len : Int) ≤ d + q then c else (c + 1) % 8)

/-- The class that a port's scheduler serves next (R201). -/
def State.etcPick (s : State) (port : Nat) : State × Option Nat :=
  let ready := (List.range 8).filter fun c => s.classReady port c
  match (ready.filter fun c => s.bit (R.SELV_ETC.STRICT port c)).max? with
  | some c => (s, some c)
  | none => if ready.isEmpty then (s, none) else s.dwrr port ready 128 (smGet 0 s.selv.etcPtr port)

/-- Count a frame whose first byte leaves the MAC (R215, R217). -/
def State.countTx (s : State) (x : TxPkt) : State :=
  match x.acct with
  | none => s
  | some a =>
    let n := x.frame.length
    s.chargeAll a ([(2, n), (4, 1)] ++ if x.fromPort then [(3, n), (5, 1)] else [])

/-- FRAME_TRANSMIT (R201): the port's scheduler sends a frame, padded to 60 B (R198). -/
def execFrameTransmit (port : Nat) (s : State) : Res :=
  .next (s.whenPanel (macPanel port) fun s =>
    if s.sys.gated || s.role == 3 || !s.ethPort s.epoch port then s
    else match s.etcPick port with
      | (s1, none) => s1
      | (s1, some c) =>
        match s1.classQ port c with
        | [] => s1
        | x :: rest =>
          let k := classKey port c
          let s2 := { s1 with selv := { s1.selv with
            egress := smPut [] s1.selv.egress k rest
            shape := smPut (0, 0) s1.selv.shape k (s1.shapeNow port c - 8 * x.frame.length, s1.now) } }
          ((s2.countTx x).emit (.frame port (x.frame ++ zeros (60 - x.frame.length)) false)).pfcLeft x.src x.cls)

/-- PFC_RECEIVE (R202): each class named with a time above 0 pauses; a time of 0 resumes it. -/
def execPfcReceive (port : Nat) (classes : BitVec 8) (times : List Nat) (s : State) : Res :=
  .next (s.whenPanel (macPanel port) fun s =>
    if !s.ethPort s.epoch port || !s.bit (R.EMAC_GCFG.PFC_EN (port / 8)) then s
    else
      let named := bitList 8 classes.toNat
      let ks (p : Nat → Bool) : List Nat := (named.filter fun c => p (times.getD c 0)).map fun c => classKey port c
      let on := ks fun t => t != 0
      let off := ks fun t => t == 0
      { s with selv := { s.selv with paused := (s.selv.paused.filter fun k => !off.contains k && !on.contains k) ++ on } })

/-- PFC_PAUSE_END (R202). -/
def execPfcPauseEnd (port cls : Nat) (s : State) : Res :=
  .next (s.whenUp fun s => { s with selv := { s.selv with paused := s.selv.paused.filter fun k => k != classKey port cls } })

/-! ### Reinjection (R209) -/

/-- A reinject entry runs by its MODE. -/
def State.reinject (s : State) (mode tc target : Nat) (acct : Option Nat) (fr : List Byte) : State :=
  if mode = 0 then s.pipeline (s.newPkt (s.rxPipe target fr) false (0x2000 + target) fr acct 0)
  else if mode = 1 then s.pipeline (s.newPkt (s.fnPort target / 8 % 4) true target fr acct 0)
  else if mode = 2 then
    let c := PCtx.start (s.newPkt (macPanel target % 4) true 0 fr acct 0)
    let x : TxPkt := { frame := fr, acct := some (acct.getD (s.fld R.TAPE_CFG.ORPHAN_ACCT)), fromPort := false, src := 0, cls := 0 }
    if s.ethPort s.epoch target then s.egressPut c target (tc % 8) x false else s.pktReason c Rsn.ACTION_ERR
  else
    let c := PCtx.start (s.newPkt (s.fnPort target / 8 % 4) false 0x2FFF fr acct 0)
    s.toFunction c target none (some (s.pktAcct c (some target)))

/-- REINJECT_ENTRY (R209): the next entry of queue n's reinject ring. RI_HEAD advances once the packet has been read; a refused entry is
skipped with BAD_RI. -/
def execReinjectEntry (n : Nat) (s : State) : Res :=
  .next (s.whenPanel 0 fun s =>
    let depth := 2 ^ (s.fld (R.SELV_EXQ_RIRING.DEPTH n) + 1)
    let head := s.fld (R.SELV_EXQ_DB.RI_HEAD n) % depth
    if decide (64 ≤ n) || head == s.fld (R.SELV_EXQ_DB.RI_TAIL n) % depth then s
    else
      let a := s.fld (R.SELV_EXQ_RIRING.BASE n) * 4096 + 32 * head
      let who := Agent.queueTile 0
      let s1 := s.setFld (R.SELV_EXQ_DB.RI_HEAD n) ((head + 1) % depth)
      let m := s.memCheck who a 32 .read
      if m ≠ .ok then (s1.logMem who .read a m).setBit R.SELV_STATUS.BAD_RI
      else
        let e := s.devRead a 32
        let adr := leAt e 0 8
        let len := leAt e 8 2
        let mf := s.memCheck who adr len .read
        if len < 14 || 9216 < len then s1.setBit R.SELV_STATUS.BAD_RI
        else if mf ≠ .ok then (s1.logMem who .read adr mf).setBit R.SELV_STATUS.BAD_RI
        else
          let acc := leAt e 14 2
          s1.reinject (leAt e 10 1) (leAt e 11 1) (leAt e 12 2) (if acc.testBit 15 then some (acc % 8192) else none) (s.devRead adr len))

/-- SELV_SWEEP_COMPLETE (R207): once no packet stamped before E remains, pending adds are live, pending deletes are free, SWEEP clears. -/
def execSelvSweepComplete (s : State) : Res :=
  .next (s.whenUp fun s =>
    let E := s.fld R.SELV_COMMIT.EPOCH
    if !s.bit R.SELV_COMMIT.SWEEP || s.selv.miss.any fun p => !epochGe p.epoch E then s
    else
      let cut (m : SMap (List Nat)) : SMap (List Nat) := m.map fun e => (e.1, e.2.take 1)
      let keep := (s.selv.tabs.filter fun t => t.till.isNone).map fun t => { t with since := none }
      let s1 := { s with selv := { s.selv with tabs := keep, aclEpoch := cut s.selv.aclEpoch } }
      (s1.clrBit R.SELV_COMMIT.SWEEP).histTrim)

end Sys2Proof.Machine
end

