-- ==== Sys2Proof/Machine/VirtioNet.lean ====
section
/-!
DEFINITION. VirtioNet.lean: the rings and frames of virtio-net (R109, R114–R116): descriptor walks of split and packed rings, transmit
offloads, receive headers.
-/

namespace Sys2Proof.Machine

/-- The feature bits that a virtio-net VF offers (Table 04-3). -/
def vnetFeats : Nat :=
  [0, 1, 3, 5, 11, 12, 15, 16, 17, 18, 19, 22, 28, 29, 32, 33, 34, 35, 38, 56, 57, 60].foldl (fun a b => a + 2 ^ b) 0

/-- A feature of a function has been negotiated. -/
def State.feat (s : State) (f b : Nat) : Bool := getBit (s.fn f).virtio.feats b

/-- The local index of a ring of the pool. -/
def State.qpLoc (s : State) (q : Nat) : Nat := s.fld (R.QFAB_QOWN.LOCAL (qpNum q))

/-- The control virtqueue's local index (R115). -/
def State.ctrlIdx (s : State) (f : Nat) : Nat := if s.feat f 22 then 2 * (s.fn f).virtio.latched else 2

/-- DEVICE_NEEDS_RESET and a configuration change (R112, R114). -/
def State.needsReset (s : State) (f : Nat) : State :=
  let c := s.fn f
  let s1 := s.setFn f { c with virtio := { c.virtio with needsReset := true, isr := c.virtio.isr ||| 2, cfgGen := c.virtio.cfgGen + 1 } }
  (s1.emit (.virtioConfig f)).msix f c.virtio.cfgVec

/-! ### Descriptors -/

/-- A descriptor of a split table: address, length, flags, next. -/
structure VDesc where
  addr : Nat
  len : Nat
  flags : Nat
  next : Nat
  deriving DecidableEq, Repr

/-- Read it from 16 bytes. -/
def vdescOf (b : List Byte) : VDesc := { addr := leAt b 0 8, len := leAt b 8 4, flags := leAt b 12 2, next := leAt b 14 2 }

/-- The packed form: the buffer ID stands before the flags. -/
def pdescOf (b : List Byte) : VDesc := { addr := leAt b 0 8, len := leAt b 8 4, flags := leAt b 14 2, next := leAt b 12 2 }

/-- A walk of a chain: its readable and writable segments, descriptors read, whether it is too long. -/
structure VChain where
  rd : List (Nat × Nat)
  wr : List (Nat × Nat)
  n : Nat
  id : Nat
  deriving DecidableEq, Repr

/-- What a walk came to. -/
inductive VWalk where
  | done (c : VChain)
  | wait
  | long
  | fail (status : Nat)
  deriving DecidableEq, Repr

/-- Put a descriptor's buffer at the end of a chain. -/
def VChain.push (c : VChain) (d : VDesc) : VChain :=
  if d.flags.testBit 1 then { c with wr := c.wr ++ [(d.addr, d.len)], n := c.n + 1 } else { c with rd := c.rd ++ [(d.addr, d.len)], n := c.n + 1 }

/-- Read `n` bytes of a ring's own structures. -/
def State.ringRead (s : State) (q a n : Nat) : State × (List Byte ⊕ AccRes) :=
  let r := s.access q a n false (.fetch q)
  match r.2 with
  | .at ps => (r.1, .inl (r.1.readPieces q ps))
  | x => (r.1, .inr x)

/-- A read that did not give its bytes. -/
def AccRes.vwalk : AccRes → VWalk
  | .fail st _ _ => .fail st
  | _ => .wait

/-- Walk an indirect table: in order for a packed ring, by NEXT for a split ring; 256 entries at most. -/
def State.walkIndirect (s : State) (q base entries : Nat) (packed : Bool) : Nat → Nat → VChain → State × VWalk
  | 0, _, _ => (s, .long)
  | fuel + 1, i, c =>
    if entries ≤ i then (s, .done c)
    else
      let r := s.ringRead q (base + 16 * i) 16
      match r.2 with
      | .inr x => (r.1, x.vwalk)
      | .inl b =>
        let d := if packed then pdescOf b else vdescOf b
        let c1 := c.push d
        if packed then State.walkIndirect r.1 q base entries packed fuel (i + 1) c1
        else if d.flags.testBit 0 then State.walkIndirect r.1 q base entries packed fuel d.next c1
        else (r.1, .done c1)

/-- Walk a split chain from descriptor `i`. -/
def State.walkSplit (s : State) (q base size : Nat) : Nat → Nat → VChain → State × VWalk
  | 0, _, _ => (s, .long)
  | fuel + 1, i, c =>
    let r := s.ringRead q (base + 16 * (i % size)) 16
    match r.2 with
    | .inr x => (r.1, x.vwalk)
    | .inl b =>
      let d := vdescOf b
      if d.flags.testBit 2 then (if 4096 < d.len then (r.1, .long) else r.1.walkIndirect q d.addr (d.len / 16) false 257 0 c)
      else
        let c1 := c.push d
        if d.flags.testBit 0 then State.walkSplit r.1 q base size fuel d.next c1 else (r.1, .done c1)

/-- Walk a packed chain from position `i`; `k` descriptors of the ring have been read. The chain takes the ID of its last descriptor. -/
def State.walkPacked (s : State) (q base size : Nat) : Nat → Nat → Nat → VChain → State × VWalk × Nat
  | 0, _, k, _ => (s, .long, k)
  | fuel + 1, i, k, c =>
    let r := s.ringRead q (base + 16 * (i % size)) 16
    match r.2 with
    | .inr x => (r.1, x.vwalk, k)
    | .inl b =>
      let d := pdescOf b
      if d.flags.testBit 2 then
        let w := if 4096 < d.len then (r.1, VWalk.long) else r.1.walkIndirect q d.addr (d.len / 16) true 257 0 { c with id := d.next }
        (w.1, w.2, k + 1)
      else
        let c1 := { (c.push d) with id := d.next }
        if d.flags.testBit 0 then State.walkPacked r.1 q base size fuel (i + 1) (k + 1) c1 else (r.1, .done c1, k + 1)

/-- The next available chain of a virtqueue: its head position, how many ring places it takes, and the walk; none when nothing is available. -/
def State.vnext (s : State) (q : Nat) : State × Option (Nat × Nat × VWalk) :=
  let c := s.qp q
  let size := c.sqDepth
  let empty : VChain := { rd := [], wr := [], n := 0, id := 0 }
  if s.packed q then
    let r := s.ringRead q (c.sqBase.toNat + 16 * c.availIdx) 16
    match r.2 with
    | .inr .park => (r.1, some (c.availIdx, 0, .wait))
    | .inr x => (r.1, some (c.availIdx, 0, x.vwalk))
    | .inl b =>
      let fl := leAt b 14 2
      if fl.testBit 7 == c.availWrap && fl.testBit 15 != c.availWrap then
        let w := r.1.walkPacked q c.sqBase.toNat size 257 c.availIdx 0 empty
        (w.1, some (c.availIdx, w.2.2, w.2.1))
      else (r.1, none)
  else if c.availIdx = c.sqTail then (s, none)
  else
    let r := s.ringRead q (c.shadow.toNat + 4 + 2 * (c.availIdx % size)) 2
    match r.2 with
    | .inr x => (r.1, some (c.availIdx % size, 1, x.vwalk))
    | .inl b =>
      let h := leAt b 0 2
      let w := r.1.walkSplit q c.sqBase.toNat size 257 h { empty with id := h }
      (w.1, some (c.availIdx % size, 1, match w.2 with
        | .done ch => .done { ch with id := h }
        | x => x))

/-- The next chain to fetch: one that is executed again after a takeover, read at its own ring position, else the next available one. -/
def State.vnextAgain (s : State) (q : Nat) : State × Option (Nat × Nat × VWalk) :=
  match s.redoNext q with
  | none => s.vnext q
  | some i =>
    let c := s.qp q
    let w := (s.setQp q { c with availIdx := i, sqTail := i + 1, availWrap := if c.availIdx ≤ i then !c.availWrap else c.availWrap }).vnext q
    let c1 := w.1.qp q
    (w.1.setQp q { c1 with availIdx := c.availIdx, sqTail := c.sqTail, availWrap := c.availWrap }, w.2)

/-- The available position moves past `n` places. -/
def QpCtx.advance (c : QpCtx) (packed : Bool) (n : Nat) : QpCtx :=
  if packed then
    (let pos := c.availIdx + n
     if c.sqDepth ≤ pos then { c with availIdx := pos - c.sqDepth, availWrap := !c.availWrap } else { c with availIdx := pos })
  else { c with availIdx := (c.availIdx + n) % 65536 }

/-- Start the oldest transmit chain that has not started, in ring order (R155). -/
def State.vnetStart (s : State) (q : Nat) : State :=
  match (s.qp q).reqs.find? fun r => r.kind == .vnet && r.st == .fetched with
  | none => s
  | some r =>
    if !s.netTurn r || !s.channelFree q then s
    else
      let segs := match r.blk with
        | some b => b.segs
        | none => []
      if segsLen segs = 0 then s.finish r 0 0 0
      else (s.putReq { r with st := .running }).addXfer q (.req q r.rid) r.acct (.host segs) .sink none (segsLen segs) 0 0 0 none false

/-- Under RING_EVENT_IDX the device asks for a notification of the next available entry: avail_event after the used ring of a split virtqueue
(virtio 1.2, PRESUMED in log entry 114). A page that is not translated takes no hint. -/
def State.availHint (s : State) (q : Nat) : State :=
  let c := s.qp q
  if !s.feat (s.ringKey q) 29 || s.packed q then s
  else
    let a := c.cqBase.toNat + 4 + 8 * c.sqDepth
    let w := s.access q a 2 true (.shadow q)
    match w.2 with
    | .at ps => w.1.cplWrite q a ps (leBytes 2 c.sqTail)
    | _ => w.1

/-- The device reads avail.idx of a split ring (R109); a read that waits for its page is repeated at the next fetch. -/
def State.readAvail (s : State) (q : Nat) : State :=
  let r := s.ringRead q ((s.qp q).shadow.toNat + 2) 2
  match r.2 with
  | .inl b => (r.1.setQp q { r.1.qp q with sqTail := leAt b 0 2, chain := 0 }).availHint q
  | .inr (.fail st _ _) => r.1.ringError q st false
  | .inr _ => (r.1.setQp q { r.1.qp q with chain := 1 }).refreshPark q

/-- Fetch the next chain of a virtio-net receive or transmit queue. -/
def State.fetchVnet (s : State) (q : Nat) : State :=
  let f := s.qpFn q
  let u := s.qpLoc q
  let s00 := s.vnetStart q
  let s0 := if (s00.qp q).chain = 1 && !s00.packed q && s00.canFetch q then s00.readAvail q else s00
  if !(s0.fn (s0.ringKey q)).virtio.live || !s0.canFetch q || u = s0.ctrlIdx (s0.ringKey q) then s0
  else
    let w := s0.vnextAgain q
    match w.2 with
    | none => w.1
    | some (_, _, .wait) => w.1.refreshPark q
    | some (_, _, .fail st) => w.1.ringError q st false
    | some (_, _, .long) => (w.1.ringError q E.SGL_DEPTH false).needsReset f
    | some (idx, n, .done ch) =>
      if 256 < ch.n then (w.1.ringError q E.SGL_DEPTH false).needsReset f
      else
        let tx := u % 2 = 1
        let segs := if tx then ch.rd else ch.wr
        let b : BlkReq := { cid := ch.id, idx := idx, nsid := 0, lba := 0, nbytes := segsLen segs, segs := segs, ranges := [], statusAddr := 0,
                            fua := false, unmap := false, slots := n }
        let s1 := if (s0.redoNext q).isSome then w.1 else w.1.setQp q ((w.1.qp q).advance (w.1.packed q) n)
        let a := s1.admitReq q .vnet idx n 0 [] [] (some b) [] false 0
        if tx then a.1.vnetStart q else a.1.putReq { a.2 with st := .rxPosted }

/-- SQ_ENTRY_FETCH (R83, R93): the next request of a native ring, of a local channel or of a virtio-net queue is fetched. The rings of virtio-blk and
NVMe are fetched by the rows of their requests (log entry 29). -/
def execSqEntryFetch (q : QpId) (s : State) : Res :=
  .next (s.whenRing q fun s =>
    if isLc q then s.fetchRing q
    else
      let p := s.pers (s.qpFn q)
      if p = 0 then s.fetchRing q else if p = 1 then s.fetchVnet q else s)

/-! ### Transmit offloads -/

/-- Bytes of the virtio-net header: 12, or 20 with HASH_REPORT. -/
def State.vhdrLen (s : State) (f : Nat) : Nat := if s.feat f 57 then 20 else 12

/-- Fill the checksum that NEEDS_CSUM asks for. -/
def partialCsum (fr : List Byte) (start off : Nat) : List Byte :=
  let c := 65535 - onesSum (fr.drop start) 0
  patch fr (start + off) (beBytes 2 (if c = 0 then 65535 else c))

/-- One segment of a GSO frame: headers of `hl` bytes, then payload from `o`; the transport header is at `l4`. -/
def gsoSegment (fr : List Byte) (l : Layer) (tcp : Bool) (hl o n k : Nat) (last : Bool) : List Byte :=
  let h0 := fr.take hl
  let pl := (fr.drop (hl + o)).take n
  let h1 := if l.ver = 4 then
      patch (patch h0 (l.l3 + 2) (beBytes 2 (hl - l.l3 + n))) (l.l3 + 4) (beBytes 2 ((beAt h0 (l.l3 + 4) 2 + k) % 65536))
    else patch h0 (l.l3 + 4) (beBytes 2 (hl - l.l3 - 40 + n))
  let h2 := if tcp then
      let fl := leAt h1 (l.l4 + 13) 1
      let fl1 := if last then fl else fl &&& 0xF6
      patch (patch h1 (l.l4 + 4) (beBytes 4 ((beAt h1 (l.l4 + 4) 4 + o) % 2 ^ 32))) (l.l4 + 13) (leBytes 1 (if k = 0 then fl1 else fl1 &&& 0x7F))
    else patch h1 (l.l4 + 4) (beBytes 2 (hl - l.l4 + n))
  let f0 := if l.ver = 4 then ip4Fill (h2 ++ pl) l.l3 else h2 ++ pl
  csumFill f0 l

/-- The segments of a GSO frame in order. -/
def gsoSplit (fr : List Byte) (l : Layer) (tcp : Bool) (hl mss : Nat) : Nat → Nat → Nat → List (List Byte)
  | 0, _, _ => []
  | fuel + 1, o, k =>
    let left := fr.length - hl - o
    if left = 0 then []
    else
      let n := min mss left
      gsoSegment fr l tcp hl o n k (decide (left ≤ mss)) :: gsoSplit fr l tcp hl mss fuel (o + n) (k + 1)

/-- The frames that a virtio-net transmit chain sends; none when it is not sent (R114, R198). -/
def State.vnetFrames (s : State) (key f : Nat) (buf : List Byte) : Option (List (List Byte)) :=
  let hl := s.vhdrLen key
  let fr := buf.drop hl
  let fl := leAt buf 0 1
  let gso := leAt buf 1 1 % 128
  let mss := leAt buf 4 2
  let par := parseFrame 0 0 fr
  let l := par.outer
  let tcp := gso = 1 || gso = 4
  let th := if tcp then l.l4 + 4 * bitsOf (leAt fr (l.l4 + 12) 1) 4 4 else l.l4 + 8
  let limit (l : List (List Byte)) : Option (List (List Byte)) :=
    if l.any fun x => decide (s.fld (R.SELV_VPORTA.FRAME_MAX f) < x.length) || decide (x.length < 14) then none else some l
  if gso = 0 then limit [if fl.testBit 0 then partialCsum fr (leAt buf 6 2) (leAt buf 8 2) else fr]
  else if mss = 0 || 65535 < fr.length - th || l.ver = 0 || !(tcp || gso = 5) then none
  else limit (gsoSplit fr l tcp th mss (fr.length / mss + 1) 0 0)

/-- Frames enter stage 1 in order. -/
def State.sendFrames (s : State) (f : Nat) : List (List Byte) → State
  | [] => s
  | x :: xs => State.sendFrames (s.sendFrame f x) f xs

/-- A gathered transmit request sends its frame into stage 1 and completes (R198); a strict one waits for its ISSUE (R281). -/
def State.netOut (s : State) (x : Xfer) : State :=
  match (s.qp x.q).req? x.purpose.rid with
  | none => s.dropXfer x.xid
  | some r =>
    let g := s.issueGate r 1
    if !g.2 then g.1
    else
      let s1 := g.1.dropXfer x.xid
      let f := s1.qpFn x.q
      match r.kind with
      | .vnet =>
        match s1.vnetFrames (s1.ringKey x.q) f x.buf with
        | some l => (s1.finish r 0 0 0).sendFrames f l
        | none =>
          let c := s1.fn f
          (s1.finish r 0 0 0).setFn f { c with virtio := { c.virtio with txErrors := c.virtio.txErrors + 1 } }
      | _ => (s1.finish r 0 0 0).sendFrame f x.buf

/-! ### Receive -/

/-- The header before a received frame: DATA_VALID when its checksums were right and GUEST_CSUM is negotiated, num_buffers, the hash report. -/
def State.vnetHeader (s : State) (key : Nat) (x : RxPkt) (bufs : Nat) : List Byte :=
  let h := leBytes 1 (if x.csumOk && s.feat key 1 then 2 else 0) ++ zeros 9 ++ leBytes 2 bufs
  if s.feat key 57 then
    let t := (s.fn key).virtio.hashTypes.toNat
    let on := x.htype != 0 && t.testBit (x.htype - 1)
    h ++ leBytes 4 (if on then x.hash else 0) ++ leBytes 2 (if on then x.htype else 0) ++ zeros 2
  else h

/-- Posted buffers of a ring, oldest first. -/
def QpCtx.posted? (c : QpCtx) : List Req := c.reqs.filter fun r => r.st == .rxPosted

/-- Size and segments of a posted buffer. -/
def Req.bufSegs (r : Req) : List (Nat × Nat) :=
  match r.blk with
  | some b => b.segs
  | none => []

/-- The fewest of the oldest buffers that hold `n` bytes, at most `k` of them. -/
def takeBufs : Nat → Nat → List Req → Option (List Req)
  | _, 0, _ => some []
  | 0, _, _ => none
  | _, _, [] => none
  | k + 1, n, r :: rs => (takeBufs k (n - segsLen r.bufSegs) rs).map fun l => r :: l

/-- A frame is dropped for want of a buffer that holds it: RX_DROPS counts it (R94, R114). -/
def State.rxDropped (s : State) (q : Nat) : State :=
  let s1 := s.rxPop q
  let c := s1.qp q
  s1.setQp q { c with rxDrops := min (c.rxDrops + 1) 0xFFFFFFFF }

/-- The first waiting packet of a ring goes to its posted buffers (R94, R114, R200). -/
def State.rxStart (s : State) (q : Nat) (x : RxPkt) : State :=
  let c := s.qp q
  let busy := s.shut.xfers.any fun y => match y.purpose with
    | .rx q' _ _ _ _ _ => q' == q
    | _ => false
  let bufs := c.posted?
  if busy || bufs.isEmpty || c.st != .active || c.held || c.contained || c.drain.isSome || c.recon || !s.capsOpen x.f || !s.channelFree q then s
  else if s.pers x.f = 1 then
    let n := s.vhdrLen (s.ringKey q) + x.frame.length
    match takeBufs (if s.feat (s.ringKey q) 15 then 64 else 1) n bufs with
    | none => s.rxDropped q
    | some l =>
      match l with
      | [] => s
      | r :: rest =>
        let segs := segsSlice (l.flatMap Req.bufSegs) 0 n
        let s1 := l.foldl (fun s r => s.putReq { r with st := .running }) s
        s1.addXfer q (.rx q r.rid x.frame.length x.ew x.acct (rest.map (·.rid))) r.acct (.bytes (s.vnetHeader (s.ringKey q) x l.length ++ x.frame)) (.host segs) none n 0 0
          0 none true
  else
    match bufs with
    | [] => s
    | r :: _ =>
      let len := sqeLen r.sqe
      if len < x.frame.length && !getBit c.cfg 48 then s.rxDropped q
      else
        let n := min len x.frame.length
        (s.putReq { r with st := .running }).addXfer q (.rx q r.rid x.frame.length x.ew x.acct []) r.acct (.bytes (x.frame.take n))
          (.host (segsSlice r.bufSegs 0 n)) none n 0 0 0 none true

/-- The first waiting packet of each ring of a host port is started; a local index that has lost its QP drops its packets. -/
def State.rxKick (s : State) (port : Nat) : List RxPkt → List (Nat × Nat) → State
  | [], _ => s
  | x :: xs, seen =>
    if s.fnPort x.f ≠ port || seen.contains (x.f, x.loc) then State.rxKick s port xs seen
    else match s.rxRing x with
      | none => State.rxKick (({ s with selv := { s.selv with rx := s.selv.rx.erase x } }).netDrop x.pipe Rsn.NO_QUEUE) port xs seen
      | some q => State.rxKick (s.rxStart q x) port xs ((x.f, x.loc) :: seen)

/-- Completions of a merged frame's buffers: each with the bytes written to it. -/
def State.rxFinishAll (s : State) (q : Nat) : List Nat → Nat → State
  | [], _ => s
  | rid :: rs, n =>
    match (s.qp q).req? rid with
    | none => State.rxFinishAll s q rs n
    | some r =>
      let m := min n (segsLen r.bufSegs)
      State.rxFinishAll (s.finish r 0 0 m) q rs (n - m)

/-- A received frame lies whole in host memory: its packet is counted (R217) and its buffers complete (R94). -/
def State.rxDone (s : State) (x : Xfer) (q full : Nat) (ew : Bool) (acct : Option Nat) (rids : List Nat) : State :=
  let s1 := (s.dropXfer x.xid).rxPop q
  let s2 := match acct with
    | some a => s1.chargeAll a (if ew then [(6, full)] else [(3, full), (5, 1)])
    | none => s1
  let s3 := match rids with
    | rid :: _ =>
      match (s2.qp q).req? rid with
      | some r =>
        if r.kind == .vnet then s2.rxFinishAll q rids x.len
        else s2.finish r (if x.len < full then E.TRUNCATED else 0) full 0
      | none => s2
    | [] => s2
  s3

end Sys2Proof.Machine
end

