-- ==== Sys2Proof/Machine/Persona.lean ====
section
/-!
DEFINITION. Persona.lean: the personalities of 04_personalities.md: virtio notifications and queue start, the virtio-net control virtqueue,
NVMe doorbells, controller enable and admin commands. Status codes, feature and structure layouts of virtio 1.2 and NVMe 1.4, which the spec names
and does not print, are PRESUMED (log entry 30).
-/

namespace Sys2Proof.Machine

/-! ### virtio transport (R109–R112) -/

/-- VIRTIO_NOTIFICATION (R109): a 2-byte write of the index, or under NOTIFICATION_DATA a 4-byte write, to the doorbell of virtqueue u. -/
def execVirtioNotification (f u len : Nat) (data : BitVec 64) (s : State) : Res :=
  .next (s.whenFn f fun s =>
    let p := s.pers f
    let form := len == 2 || (len == 4 && s.feat f 38)
    if !s.fnReachable f || !(p == 1 || p == 2) || !form || getBits data 0 16 != u then s
    else match s.qpAt f u with
      | none => s.strayDb f
      | some q =>
        let c := s.qp q
        if s.galv.lent.contains q then s.sendFlit (.doorbell f u data)
        else if !(c.st == .active || c.st == .parked) || c.contained || s.packed q then s
        else s.readAvail q)

/-- A ring size is a power of two from 2 to `top`. -/
def sizeOk (n top : Nat) : Bool := decide (2 ≤ n) && decide (n ≤ top) && 2 ^ n.log2 == n

/-- QW_CFG with both depths of a power of two. -/
def depthCfg (sq cq : Nat) : W64 := BitVec.ofNat 64 (sq.log2 - 1 + (cq.log2 - 1) * 16)

/-- A ring starts with a fresh context, unless it is held (R87). -/
def State.ringBegin (s : State) (q : Nat) : State :=
  let c := s.qp q
  if c.held || c.sessHeld then s.setQp q { c with enable := true } else s.activate q

/-- VIRTIO_QUEUE_ENABLE (R110). -/
def execVirtioQueueEnable (f u : Nat) (s : State) : Res :=
  .next (s.whenFn f fun s =>
    let p := s.pers f
    let v := (s.fn f).virtio
    if !s.fnReachable f || !(p == 1 || p == 2) then s
    else
      let n := smGet 32768 v.qsize u
      if !sizeOk n 32768 then s.needsReset f
      else match s.qpAt f u with
        | none => s
        | some q =>
          let c := s.qp q
          if c.st != .quiesced || c.drain.isSome then s
          else
            let c1 := { c.fresh with
              sqBase := BitVec.ofNat 64 (smGet 0 v.qdesc u), shadow := BitVec.ofNat 64 (smGet 0 v.qdriver u)
              cqBase := BitVec.ofNat 64 (smGet 0 v.qdevice u), cfg := depthCfg n n, st := .quiesced }
            let fc := s.fn f
            let s1 := s.setFn f { fc with virtio := { fc.virtio with qen := smPut false fc.virtio.qen u true } }
            (s1.setQp q c1).ringBegin q)

/-- The feature bits that a virtio-blk VF offers (R117). -/
def vblkFeats : Nat := [2, 6, 9, 12, 13, 14, 28, 29, 32, 33, 34, 35, 38].foldl (fun a b => a + 2 ^ b) 0

/-- The QPs without which the device refuses to start (R112). -/
def State.personaQps (s : State) (f : Nat) : Bool :=
  if s.pers f = 1 then (s.qpAt f 0).isSome && (s.qpAt f 1).isSome && (s.qpAt f 2).isSome else (s.qpAt f 0).isSome

/-- VIRTIO_FEATURES_OK (R111, R112, R114): FEATURES_OK reads 0 unless the driver takes both required features, no feature that is not offered, and
the QPs are there. -/
def execVirtioFeaturesOk (f : Nat) (feats : BitVec 64) (s : State) : Res :=
  .next (s.whenFn f fun s =>
    let p := s.pers f
    if !s.fnReachable f || !(p == 1 || p == 2) then s
    else
      let offered := if p = 1 then vnetFeats else vblkFeats
      let ok := getBit feats 32 && getBit feats 33 && (feats.toNat &&& offered) == feats.toNat && s.personaQps f
      let c := s.fn f
      let v := c.virtio
      s.setFn f { c with virtio := if ok then { v with feats := feats, status := v.status ||| 8 } else { v with status := v.status &&& 0xF7 } })

/-- VIRTIO_DEVICE_RESET (R111): the function's queues as under a function-level reset; device_status then reads 0. -/
def execVirtioDeviceReset (f : Nat) (s : State) : Res :=
  .next (s.whenFn f fun s =>
    let p := s.pers f
    if !s.fnReachable f || !(p == 1 || p == 2) then s
    else (((s.rxFlush f).flrRings (s.ringsOf f)).personaReset f).quiesceCheck)

/-! ### The control virtqueue (R115, R116) -/

/-- A control command of a virtio-net VF: Pattern firmware answers it. -/
def State.ctrl (s : State) (f : Nat) (ok : Bool) (k : VirtioState → VirtioState) : State :=
  s.whenFn f fun s =>
    let c := s.fn f
    if !s.fnReachable f || s.pers f != 1 || !c.virtio.live then s
    else (if ok then s.setFn f { c with virtio := k c.virtio } else s).emit (.ctrlAck f ok)

/-- RX_PROMISC (R116). -/
def execRxPromisc (f : Nat) (on : Bool) (s : State) : Res := .next (s.ctrl f true fun v => { v with promisc := on })
/-- RX_ALLMULTI (R116). -/
def execRxAllmulti (f : Nat) (on : Bool) (s : State) : Res := .next (s.ctrl f true fun v => { v with allmulti := on })

/-- The assigned address of a function as frames carry it. -/
def State.vportMac (s : State) (f : Nat) : Nat := beNat (leBytes 6 (s.fld (R.SELV_VPORTB.MAC f)))

/-- MAC_TABLE_SET (R116): up to 64 multicast entries; a unicast entry other than the assigned address is refused. -/
def execMacTableSet (f : Nat) (uni multi : List (BitVec 48)) (s : State) : Res :=
  .next (s.ctrl f (decide (multi.length ≤ 64) && uni.all fun m => m.toNat == s.vportMac f) fun v => { v with multi := multi })

/-- A VID lies in a function's VLAN set (R179). -/
def State.vlanAllowed (s : State) (f vid : Nat) : Bool :=
  let t := s.fld (R.SELV_VPORTA.TSID f)
  s.selv.tabs.any fun x => x.table == 1 && x.visible s.epoch && leAt x.image 0 1 == 4 && leAt x.image 4 4 % 4096 == vid &&
    leAt x.image 12 2 % 4096 == t

/-- VLAN_ADD (R116, R179). -/
def execVlanAdd (f vid : Nat) (s : State) : Res :=
  .next (s.ctrl f (s.vlanAllowed f vid) fun v => { v with vlans := if v.vlans.contains vid then v.vlans else v.vlans ++ [vid] })

/-- MQ_VQ_PAIRS_SET (R115, R116): receive queues 0 to `pairs` − 1 take packets from then on, until MQ_RSS_CONFIG names others. -/
def execMqVqPairsSet (f pairs : Nat) (s : State) : Res :=
  .next (s.ctrl f (decide (1 ≤ pairs) && decide (pairs ≤ (s.fn f).virtio.latched)) fun v => { v with pairs := pairs, rssTable := [] })

/-- Write bytes of SELV_RSS[f] from byte 8 × i up (R199). -/
def State.rssWrite (s : State) (f : Nat) : Nat → List Byte → State
  | _, [] => s
  | i, b :: bs =>
    let off := R.SELV_RSS.off f (i / 8)
    State.rssWrite (s.setReg off (setBits (s.reg off) (i % 8 * 8) 8 b.toNat)) f (i + 1) bs

/-- MQ_RSS_CONFIG (R114–R116): an indirection table of 1 to 128 receive queues, a key of 40 B, the six hash types. Pattern firmware writes
SELV_RSS; receive queue k is local index 2k. -/
def execMqRssConfig (f : Nat) (types : BitVec 32) (unclassified : Nat) (table : List Nat) (key : List (BitVec 8)) (s : State) : Res :=
  let n := (s.fn f).virtio.latched
  let ok := decide (1 ≤ table.length) && decide (table.length ≤ 128) && key.length == 40 && decide (types.toNat < 64) &&
    table.all (fun k => decide (k < n)) && decide (unclassified < n)
  let t := s.ctrl f ok fun v => { v with rssTypes := types, rssUncl := unclassified, rssTable := table, rssKey := key }
  let go := ok && s.up && s.fnReachable f && s.pers f == 1 && (s.fn f).virtio.live
  .next (if go then
      (t.rssWrite f 0 (key ++ leBytes 2 table.length ++ leBytes 2 types.toNat)).rssWrite f 48 (table.flatMap fun k => leBytes 2 (2 * k))
    else t)

/-- MQ_HASH_CONFIG (R114, R116): the hash types that are reported, and their key. -/
def execMqHashConfig (f : Nat) (types : BitVec 32) (key : List (BitVec 8)) (s : State) : Res :=
  let ok := key.length == 40 && decide (types.toNat < 64)
  let t := s.ctrl f ok fun v => { v with hashTypes := types, rssKey := key }
  let go := ok && s.up && s.fnReachable f && s.pers f == 1 && (s.fn f).virtio.live
  .next (if go then (t.rssWrite f 0 key).rssWrite f 42 (leBytes 2 types.toNat) else t)

/-- CTRL_VQ_OTHER (R116): VIRTIO_NET_ERR. -/
def execCtrlVqOther (f _cls _cmd : Nat) (s : State) : Res := .next (s.ctrl f false fun v => v)

/-! ### NVMe doorbells and controller (R109–R112) -/

/-- An NVMe doorbell of queue `u`: a 4-byte write whose value is bits [15:0]. Queue 0 is the admin queue; another needs its I/O queue to exist. -/
def State.nvmeDoorbell (s : State) (f u len : Nat) (has : List Nat) (d : W64) : State :=
  if !s.fnReachable f || s.pers f != 3 || len != 4 || !(u == 0 || has.contains u) then s else s.ringDoorbell f (0x200 + u) d

/-- NVME_SQ_DOORBELL (R109). -/
def execNvmeSqDoorbell (f u len : Nat) (data : BitVec 64) (s : State) : Res :=
  .next (s.whenFn f fun s => s.nvmeDoorbell f u len (s.fn f).nvme.sqs (BitVec.ofNat 64 (getBits data 0 16 + 2 ^ 33)))
/-- NVME_CQ_DOORBELL (R109). -/
def execNvmeCqDoorbell (f u len : Nat) (data : BitVec 64) (s : State) : Res :=
  .next (s.whenFn f fun s => s.nvmeDoorbell f u len (s.fn f).nvme.cqs (BitVec.ofNat 64 (getBits data 0 16 * 65536 + 2 ^ 32)))

/-- A controller takes a new state. -/
def State.setNvme (s : State) (f : Nat) (v : NvmeState) : State := s.setFn f { s.fn f with nvme := v }

/-- NVME_ENABLE (R110, R112): CC.EN 1 starts the controller, or sets CSTS.CFS. -/
def execNvmeEnable (f : Nat) (aqa : BitVec 32) (s : State) : Res :=
  .next (s.whenFn f fun s =>
    let v := (s.fn f).nvme
    if !s.fnReachable f || s.pers f != 3 || v.en then s
    else
      let a := aqa.toNat % 4096 + 1
      let c := aqa.toNat / 65536 % 4096 + 1
      let v1 := { v with en := true, aqa := aqa }
      match s.qpAt f 0x200 with
      | none => s.setNvme f { v1 with cfs := true }
      | some q =>
        let x := s.qp q
        if !sizeOk a 4096 || !sizeOk c 4096 || x.st != .quiesced then s.setNvme f { v1 with cfs := true }
        else
          let x1 := { x.fresh with sqBase := v.asq, cqBase := v.acq, cfg := depthCfg a c ||| maskOf 19 1, st := .quiesced }
          ((s.setNvme f { v1 with rdy := true }).setQp q x1).ringBegin q)

/-- NVME_DISABLE (R111): CC.EN from 1 to 0 acts as a function-level reset on the queues; CSTS.RDY falls. -/
def execNvmeDisable (f : Nat) (s : State) : Res :=
  .next (s.whenFn f fun s =>
    let v := (s.fn f).nvme
    if !s.fnReachable f || s.pers f != 3 || !v.en then s
    else
      let s1 := (s.flrRings (s.ringsOf f)).personaReset f
      (s1.setNvme f { (s1.fn f).nvme with aqa := v.aqa, asq := v.asq, acq := v.acq }).quiesceCheck)

/-! ### NVMe admin commands (R119–R122) -/

/-- Take an admin command from the admin queue, or go on with one whose buffer waited for a page. Admin opcodes are numbered from 0x100. -/
def State.takeAdmin (s : State) (f cid opc : Nat) (k : State → Req → State) : State :=
  s.whenFn f fun s =>
    match (if s.fnReachable f && s.pers f = 3 then s.qpAt f 0x200 else none) with
    | none => s
    | some q =>
      let same (r : Req) : Bool := r.kind == .nvme (0x100 + opc) && r.cid == cid && r.st == .walking
      match (s.qp q).reqs.find? same with
      | some r => if s.waiting (.walk q r.rid) then s else k s r
      | none =>
        let b : BlkReq := { cid := cid, idx := 0, nsid := 0, lba := 0, nbytes := 0, segs := [], ranges := [], statusAddr := 0, fua := false,
                            unmap := false, slots := 1 }
        s.takeNvme q (0x100 + opc) b k

/-- Write an admin command's data to its buffer and complete it. -/
def State.adminData (s : State) (r : Req) (prp : Nat) (b : List Byte) : State :=
  let w := s.access r.q prp b.length true (.walk r.q r.rid)
  match w.2 with
  | .at ps => ((w.1.writePieces r.q ps b).dirtyWrite r.q prp b.length).finish r 0 0 0
  | .fail st _ _ => w.1.finish r st 0 0
  | _ => (w.1.putReq { r with st := .walking }).refreshPark r.q

/-- Overlay fields on bytes: offset and value bytes. -/
def overlay (b : List Byte) (l : List (Nat × List Byte)) : List Byte := l.foldl (fun b e => patch b e.1 e.2) b

/-- Whether namespace n of a function is active, and its volume entry. -/
def State.nsActive (s : State) (f n : Nat) : Bool := decide (1 ≤ n) && decide (n ≤ 16) && getBit (s.reg (R.QFAB_BVOLA.off f (n - 1))) 41

/-- Identify data: the fields that the spec fixes over free bytes. -/
def State.identify (s : State) (f cns nsid : Nat) : Option (List Byte) :=
  let fb := s.freeBytes 4096
  if cns = 1 then
    some (overlay fb [(76, [0x0A]), (77, [12]), (78, if s.galv.cntlid = 0 then [] else leBytes 2 s.galv.cntlid), (256, leBytes 2 0x100), (343, [0x07]), (344, leBytes 4 1),
      (348, leBytes 4 1), (512, [0x66]), (513, [0x44]), (516, leBytes 4 16), (520, leBytes 2 0x0C), (525, [0x01])])
  else if cns = 0 then
    if !(decide (1 ≤ nsid) && decide (nsid ≤ 16)) then none
    else if !s.nsActive f nsid then some (zeros 4096)
    else
      let cap := (s.reg (R.QFAB_BVOLB.off f (nsid - 1))).toNat
      let fmt := getBits (s.reg (R.QFAB_BVOLA.off f (nsid - 1))) 40 1
      some (overlay fb [(0, leBytes 8 cap), (8, leBytes 8 cap), (25, [1]), (26, leBytes 1 fmt), (92, leBytes 4 1), (128, leBytes 4 (9 * 65536)),
        (132, leBytes 4 (12 * 65536))])
  else if cns = 2 then
    let l := ((List.range 16).map (· + 1)).filter fun n => decide (nsid < n) && s.nsActive f n
    some (padTo 4096 (l.flatMap fun n => leBytes 4 n))
  else if cns = 3 then (if s.nsActive f nsid then some fb else none)
  else none

/-- NVME_IDENTIFY (R119). -/
def execNvmeIdentify (f cid cns nsid : Nat) (prp : BitVec 64) (s : State) : Res :=
  .next (s.takeAdmin f cid 0x06 fun s r =>
    match s.identify f cns nsid with
    | some b => s.drawn.adminData r prp.toNat b
    | none => s.finish r (nvmeSt (if cns ≤ 3 then 0x0B else 0x02)) 0 0)

/-- NVME_GET_LOG_PAGE (R119): error information, SMART, changed namespaces, ANA. -/
def execNvmeGetLogPage (f cid lid len : Nat) (prp : BitVec 64) (s : State) : Res :=
  .next (s.takeAdmin f cid 0x02 fun s r =>
    let v := (s.fn f).nvme
    if lid = 1 || lid = 2 then s.drawn.adminData r prp.toNat (s.freeBytes len)
    else if lid = 4 then
      (s.setNvme f { v with changedNs := [] }).adminData r prp.toNat (padTo len (v.changedNs.flatMap fun n => leBytes 4 n))
    else if lid = 12 then
      let ns := ((List.range 16).map (· + 1)).filter fun n => s.nsActive f n
      let b := overlay (s.freeBytes (48 + 4 * ns.length)) [(8, leBytes 2 1), (16, leBytes 4 1), (20, leBytes 4 ns.length), (32, leBytes 1 v.ana),
        (48, ns.flatMap fun n => leBytes 4 n)]
      s.drawn.adminData r prp.toNat (padTo len b)
    else s.finish r (nvmeSt 0x109) 0 0)

/-- A ring's COAL_COUNT and COAL_TIME under the Interrupt Coalescing feature (R121). -/
def coalCfg (cfg : W64) (v : NvmeState) : W64 :=
  if v.optOut.contains (getBits cfg 8 11) then cfg
  else setBits (setBits cfg 20 8 (min (v.aggThr + 1) 255)) 28 10 (min (100 * v.aggTime) 1023)

/-- Apply the feature to every I/O completion queue of a function. -/
def State.coalAll (s : State) (f : Nat) : List Nat → State
  | [] => s
  | u :: us =>
    State.coalAll (match s.qpAt f (0x200 + u) with
      | some q => s.setQp q { s.qp q with cfg := coalCfg (s.qp q).cfg (s.fn f).nvme }
      | none => s) f us

/-- Number of Queues as the controller reports it: n − 1 in both halves. -/
def NvmeState.numQueues (v : NvmeState) : Nat := (v.latched - 1) * 65537

/-- NVME_SET_FEATURES (R119, R121). -/
def execNvmeSetFeatures (f cid : Nat) (fid : NvmeFeat) (dw11 : BitVec 32) (s : State) : Res :=
  .next (s.takeAdmin f cid 0x09 fun s r =>
    let v := (s.fn f).nvme
    let d := dw11.toNat
    match fid with
    | .numQueues => s.finish r 0 v.numQueues 0
    | .coalescing =>
      let s1 := s.setNvme f { v with aggThr := d % 256, aggTime := d / 256 % 256 }
      (s1.coalAll f v.cqs).finish r 0 0 0
    | .intVector =>
      let iv := d % 65536
      let out := v.optOut.filter fun x => x != iv
      let s1 := s.setNvme f { v with optOut := if d.testBit 16 then out ++ [iv] else out }
      (s1.coalAll f v.cqs).finish r 0 0 0
    | .asyncEvent => (s.setNvme f { v with aeCfg := dw11 }).finish r 0 0 0
    | .writeCache => (s.setNvme f { v with vwc := d.testBit 0 }).finish r 0 0 0
    | .other _ => s.finish r (nvmeSt 0x02) 0 0)

/-- NVME_GET_FEATURES (R121): the Aggregation Threshold reads as the host last set it. -/
def execNvmeGetFeatures (f cid : Nat) (fid : NvmeFeat) (s : State) : Res :=
  .next (s.takeAdmin f cid 0x0A fun s r =>
    let v := (s.fn f).nvme
    match fid with
    | .numQueues => s.finish r 0 v.numQueues 0
    | .coalescing => s.finish r 0 (v.aggThr + v.aggTime * 256) 0
    | .intVector => s.finish r 0 (b2n !v.optOut.isEmpty * 65536) 0
    | .asyncEvent => s.finish r 0 v.aeCfg.toNat 0
    | .writeCache => s.finish r 0 (b2n v.vwc) 0
    | .other _ => s.finish r (nvmeSt 0x02) 0 0)

/-- The ring of I/O queue `u`, when the controller has it. -/
def State.ioRing (s : State) (f u : Nat) : Option Nat :=
  if 1 ≤ u && decide (u ≤ (s.fn f).nvme.latched) then s.qpAt f (0x200 + u) else none

/-- NVME_CREATE_IO_CQ (R110). -/
def execNvmeCreateIoCq (f cid qid qsize vector : Nat) (ien : Bool) (prp : BitVec 64) (s : State) : Res :=
  .next (s.takeAdmin f cid 0x05 fun s r =>
    let v := (s.fn f).nvme
    match (if v.cqs.contains qid then none else s.ioRing f qid) with
    | none => s.finish r (nvmeSt 0x101) 0 0
    | some q =>
      if !sizeOk (qsize + 1) 65536 then s.finish r (nvmeSt 0x102) 0 0
      else if s.msixCount f ≤ vector then s.finish r (nvmeSt 0x108) 0 0
      else
        let c := s.qp q
        let cfg := setBits (setBits (setBits c.cfg 4 4 ((qsize + 1).log2 - 1)) 8 11 vector) 19 1 (b2n ien)
        let s1 := s.setNvme f { v with cqs := v.cqs ++ [qid] }
        (s1.setQp q { c with cqBase := prp, cfg := coalCfg cfg v, cqHead := 0, cqTail := 0, phase := true }).finish r 0 0 0)

/-- NVME_CREATE_IO_SQ (R110): SQ u must name CQ u. -/
def execNvmeCreateIoSq (f cid qid cqid qsize : Nat) (prp : BitVec 64) (s : State) : Res :=
  .next (s.takeAdmin f cid 0x01 fun s r =>
    let v := (s.fn f).nvme
    match (if v.sqs.contains qid then none else s.ioRing f qid) with
    | none => s.finish r (nvmeSt 0x101) 0 0
    | some q =>
      if cqid != qid || !v.cqs.contains cqid then s.finish r (nvmeSt 0x100) 0 0
      else if !sizeOk (qsize + 1) 65536 then s.finish r (nvmeSt 0x102) 0 0
      else
        let c := s.qp q
        let c1 := { c with
          sqBase := prp, cfg := setBits c.cfg 0 4 ((qsize + 1).log2 - 1), sqHead := 0, sqTail := 0, expo := []
          shadow := if v.dbOn then v.dbShadow + BitVec.ofNat 64 (8 * qid) else 0 }
        let s1 := (s.setNvme f { v with sqs := v.sqs ++ [qid] }).setQp q c1
        (s1.ringBegin q).finish r 0 0 0)

/-- NVME_DELETE_IO_SQ (R119): its outstanding commands end with it; its completion queue stays. -/
def execNvmeDeleteIoSq (f cid qid : Nat) (s : State) : Res :=
  .next (s.takeAdmin f cid 0x00 fun s r =>
    let v := (s.fn f).nvme
    match (if v.sqs.contains qid then s.ioRing f qid else none) with
    | none => s.finish r (nvmeSt 0x101) 0 0
    | some q =>
      let s1 := ((s.setNvme f { v with sqs := v.sqs.filter fun x => x != qid }).releaseAll q true).dropRingWaits q
      let c := s1.qp q
      (s1.setQp q { c with st := .quiesced, enable := false, sqHead := 0, sqTail := 0, expo := [], drain := none }).finish r 0 0 0)

/-- NVME_DELETE_IO_CQ (R119): refused while its submission queue exists. -/
def execNvmeDeleteIoCq (f cid qid : Nat) (s : State) : Res :=
  .next (s.takeAdmin f cid 0x04 fun s r =>
    let v := (s.fn f).nvme
    match (if v.cqs.contains qid then s.ioRing f qid else none) with
    | none => s.finish r (nvmeSt 0x101) 0 0
    | some q =>
      if v.sqs.contains qid then s.finish r (nvmeSt 0x10C) 0 0
      else
        let s1 := s.setNvme f { v with cqs := v.cqs.filter fun x => x != qid }
        (s1.setQp q (s1.qp q).fresh.windowReset).finish r 0 0 0)

/-- A request's work item has not been written yet. -/
def State.unissued (s : State) (rid : Nat) : Bool := s.qf.beqs.any fun e => e.2.items.any fun i => i.rid == rid && i.wid.isNone

/-- NVME_ABORT (R120). -/
def execNvmeAbort (f cid sqid acid : Nat) (s : State) : Res :=
  .next (s.takeAdmin f cid 0x08 fun s r =>
    let hit : Option Req := match s.qpAt f (0x200 + sqid) with
      | some q => (s.qp q).reqs.find? fun (x : Req) => x.cid == acid && x.rid != r.rid && s.unissued x.rid
      | none => none
    match hit with
    | some x =>
      let gone (e : Nat × Beq) : Nat × Beq := (e.1, e.2.cancel x.rid false)
      let s1 := { s with qf := { s.qf with beqs := s.qf.beqs.map gone } }
      (s1.finish x (nvmeSt 0x07) 0 0).finish r 0 0 0
    | none => s.finish r 0 1 0)

/-- An asynchronous event: it completes the oldest waiting request, or waits for one. -/
def State.nvmeEvent (s : State) (f ev : Nat) : State :=
  let v := (s.fn f).nvme
  match v.aers with
  | rid :: rest =>
    match s.qpAt f 0x200 with
    | some q =>
      match (s.qp q).req? rid with
      | some r => (s.setNvme f { v with aers := rest }).finish r 0 ev 0
      | none => s.setNvme f { v with aers := rest, eventsPend := v.eventsPend ++ [ev] }
    | none => s
  | [] => if v.eventsPend.contains ev then s else s.setNvme f { v with eventsPend := v.eventsPend ++ [ev] }

/-- NVME_ASYNC_EVENT_REQUEST (R119): it waits for an event. -/
def execNvmeAsyncEventRequest (f cid : Nat) (s : State) : Res :=
  .next (s.takeAdmin f cid 0x0C fun s r =>
    let v := (s.fn f).nvme
    match v.eventsPend with
    | ev :: rest => (s.setNvme f { v with eventsPend := rest }).finish r 0 ev 0
    | [] => (s.putReq { r with st := .running }).setNvme f { v with aers := v.aers ++ [r.rid] })

/-- Every existing queue takes the shadow doorbell buffer as its QW_SHADOW (R122). -/
def State.shadowAll (s : State) (f : Nat) (base : W64) : List Nat → State
  | [] => s
  | u :: us =>
    State.shadowAll (match s.qpAt f (0x200 + u) with
      | some q => s.setQp q { s.qp q with shadow := base + BitVec.ofNat 64 (8 * u) }
      | none => s) f base us

/-- NVME_DOORBELL_BUFFER_CONFIG (R122): both buffers are page-aligned. -/
def execNvmeDoorbellBufferConfig (f cid : Nat) (shadow eventIdx : BitVec 64) (s : State) : Res :=
  .next (s.takeAdmin f cid 0x7C fun s r =>
    let v := (s.fn f).nvme
    if shadow.toNat % 4096 ≠ 0 || eventIdx.toNat % 4096 ≠ 0 then s.finish r (nvmeSt 0x02) 0 0
    else
      let s1 := s.setNvme f { v with dbShadow := shadow, dbEvent := eventIdx, dbOn := true }
      (s1.shadowAll f shadow (0 :: v.sqs)).finish r 0 0 0)

/-- NVME_KEEP_ALIVE (R119). -/
def execNvmeKeepAlive (f cid : Nat) (s : State) : Res := .next (s.takeAdmin f cid 0x18 fun s r => s.finish r 0 0 0)

end Sys2Proof.Machine
end

