-- ==== Sys2Proof/Machine/Engines.lean ====
section
/-!
DEFINITION. Engines.lean: the named operations over a Bobbin engine's state that other blocks use: its lines, its waits, its mailbox (R344, R348, R366).
-/

namespace Sys2Proof.Machine

/-- An engine's state. -/
def State.eng (s : State) (e : Nat) : Engine := smGet Engine.reset s.engs e

/-- An engine takes a state. -/
def State.setEng (s : State) (e : Nat) (x : Engine) : State := { s with engs := smPut Engine.reset s.engs e x }

/-- A privileged engine: slots 6 and 7 (R343). -/
def engPriv (e : Nat) : Bool := decide (6 ≤ e % 8)

/-- The Thimble engine and the service engine of an engine's panel. -/
def thimbleOf (e : Nat) : Nat := e / 8 * 8 + 6
def serviceOf (e : Nat) : Nat := e / 8 * 8 + 7

/-- A line that is an edge, kept in IRQ_PEND (R366): line 0, line 4, and line 5 on a service engine. -/
def lineEdge (e n : Nat) : Bool := n == 0 || n == 4 || (n == 5 && e % 8 == 7)

/-- A line is pending (R366). Lines 2 and 3 of Pattern engines, line 2 of Thimble and service engines stand for work that this model's firmware has done
within its commands, so they hold none between commands (log entry 32). -/
def State.linePending (s : State) (e n : Nat) : Bool :=
  let x := s.eng e
  if lineEdge e n then x.pend.testBit n
  else if n = 1 then !x.mbx.isEmpty
  else if n = 3 && e % 8 == 6 then !s.bit R.TAPE_STATUS.DRAINED
  else if n = 3 && e % 8 == 7 then
    s.bit R.SAFE_STATUS.CE_EVT || s.bit R.SAFE_STATUS.DF_EVT || s.bit R.SAFE_STATUS.LATENT_EVT || s.bit R.SAFE_STATUS.WDOG_EVT
  else false

/-- IRQ_PEND. -/
def State.irqPend (s : State) (e : Nat) : Nat := ((List.range 16).map fun n => if s.linePending e n then 2 ^ n else 0).sum

/-- A WAIT ends: C says whether a line ended it. -/
def Engine.waitEnds (x : Engine) (line : Bool) : Engine :=
  { x with st := .running, waitOn := none, c := line, pc := (x.pc + 1) % 65536 }

/-- An engine in WAIT goes on when a line of WAIT_EN is pending (R359). -/
def State.endWait (s : State) (e : Nat) : State :=
  let x := s.eng e
  match x.waitOn with
  | some (.wait _) => if x.st == .waiting && s.irqPend e &&& x.waitEn != 0 then s.setEng e (x.waitEnds true) else s
  | _ => s

/-- Every engine's WAIT is judged. -/
def State.endWaits (s : State) : State := (s.engs.map (·.1)).foldl State.endWait s

/-- An edge line of an engine becomes pending. -/
def State.engLine (s : State) (e n : Nat) : State :=
  let x := s.eng e
  (s.setEng e { x with pend := x.pend ||| 2 ^ n }).endWait e

/-- A word goes to an engine's mailbox; the sender's drop flag is set when its eight words are taken (R348). -/
def State.mboxPush (s : State) (fromE toE : Nat) (w : W16) : State :=
  let x := s.eng toE
  if 8 ≤ x.mbx.length then s.setEng fromE { s.eng fromE with mbxDrop := true }
  else (s.setEng toE { x with mbx := x.mbx ++ [w] }).endWait toE

/-- An engine halts: line 4 of its panel's Thimble engine, or line 5 of the service engine for a halted Thimble engine (R344). -/
def State.engHalt (s : State) (e : Nat) (dfault : Bool) : State :=
  let x := s.eng e
  let s1 := s.setEng e { x with st := .halted, stopReq := false, waitOn := none, dfault := x.dfault || dfault }
  if e % 8 = 6 then s1.engLine (serviceOf e) 5 else s1.engLine (thimbleOf e) 4

/-- An engine as a reset of its panel leaves it: STOPPED, its local memory zeroed. -/
def State.engReset (s : State) (e : Nat) : State := s.setEng e Engine.reset

/-- Every engine of a list. -/
def State.engResets (s : State) : List Nat → State
  | [] => s
  | e :: es => State.engResets (s.engReset e) es

end Sys2Proof.Machine
end

