-- ==== Sys2Proof/Machine/Power.lean ====
section
/-!
DEFINITION. Power.lean: the power units and their states, requests, claims and Hold of 15_power_moult.md (R410–R423). A row that names a unit above 51
or a hart above 63 has no effect.
-/

namespace Sys2Proof.Machine

/-! ### Units (R410) -/

/-- The power units: 16 core tiles, 4 panels, 32 lane quads. -/
def unitCount : Nat := 52

/-- A unit's own state. -/
def State.unit (s : State) (u : Nat) : UnitSt := smGet UnitSt.bask s.pow.units u

/-- A unit takes a state. -/
def State.setUnit (s : State) (u : Nat) (x : UnitSt) : State := { s with pow := { s.pow with units := smPut UnitSt.bask s.pow.units u x } }

/-- Kinds of unit. -/
def isTile (u : Nat) : Bool := decide (u < 16)
def isPanel (u : Nat) : Bool := decide (16 ≤ u) && decide (u < 20)
def isQuad (u : Nat) : Bool := decide (20 ≤ u) && decide (u < 52)

/-- The panel of a unit. -/
def unitPanel (u : Nat) : Nat := if u < 16 then u / 4 else if u < 20 then u - 16 else (u - 20) / 8

/-- A quad's number in its panel: 0–3 host, 4–6 Ethernet, 7 Galvel. -/
def quadNum (u : Nat) : Nat := (u - 20) % 8

/-- A panel's engine tile is in Hold: not when the device is only fenced (R422). -/
def State.engHeld (s : State) (e : Nat) : Bool := s.pow.enterHold.testBit (e / 8) || s.safe.panelHeld.contains (e / 8)

/-- The state a unit is actually in: at least that of its panel; the Galvel quad of a held panel keeps its own. -/
def State.unitState (s : State) (u : Nat) : Nat :=
  let own := (s.unit u).st
  let pan := (s.unit (16 + unitPanel u)).st
  if s.panelHeld (unitPanel u) && !(isQuad u && quadNum u == 7) then 3 else if isPanel u then own else max own pan

/-- PWR_STATE0 or PWR_STATE1. -/
def State.powerWord (s : State) (k : Nat) : W64 :=
  BitVec.ofNat 64 (((List.range (if k = 0 then 32 else 20)).map fun i => s.unitState (32 * k + i) * 4 ^ i).sum)

/-- The four harts of a tile, and the sixteen of a panel. -/
def tileHarts (u : Nat) : List Nat := (List.range 4).map (4 * u + ·)
def panelHarts (p : Nat) : List Nat := (List.range 16).map (16 * p + ·)

/-- A unit counts as claimed for the Lining (R411). -/
def State.unitClaimed (s : State) (u : Nat) : Bool :=
  let blk := s.reg R.PWR_CLAIM_BLK.off
  if u < 16 then
    blk.getLsbD (9 * (u / 4) + u % 4) || (tileHarts u).any fun h => (s.reg R.PWR_CLAIM_HART.off).getLsbD h
  else if u < 20 then true
  else blk.getLsbD (9 * unitPanel u + 8)

/-- Lane ranges: a host quad's four lanes meet an enabled port; an Ethernet quad's group. -/
def State.quadPorts (s : State) (u : Nat) : List Nat :=
  let p := unitPanel u
  let q := quadNum u
  ((List.range 8).map (8 * p + ·)).filter fun n =>
    s.portOn false n &&
      (let lo := 2 * (n % 8)
       decide (lo < 4 * q + 4) && decide (4 * q < lo + portLanes (s.view false (R.HPORT_CFG.WIDTH n))))

/-- The Ethernet group of an Ethernet quad. -/
def quadGroup (u : Nat) : Nat := (12 * unitPanel u + 4 * (quadNum u - 4)) / 8

/-- A lane of the quad is enabled (R412). -/
def State.quadOn (s : State) (u : Nat) : Bool :=
  if quadNum u < 4 then !(s.quadPorts u).isEmpty
  else if quadNum u < 7 then s.fld (R.EMAC_GCFG.MODE (quadGroup u)) != 0
  else s.role != 0 || s.bit R.GALV_STATUS.LINK_UP

/-- No lane of the quad carries a trained link (Table 15-3). An Ethernet group that is enabled counts as trained. -/
def State.quadIdle (s : State) (u : Nat) : Bool :=
  if quadNum u < 4 then (s.quadPorts u).all fun n => !(s.link n).trained
  else if quadNum u < 7 then s.fld (R.EMAC_GCFG.MODE (quadGroup u)) == 0
  else s.role == 0 && !s.bit R.GALV_STATUS.LINK_UP

/-- An Ethernet group has a lane in a panel. -/
def groupIn (g p : Nat) : Bool := decide (8 * g < 12 * p + 12) && decide (12 * p < 8 * g + 8)

/-- What Table 15-3 asks of a panel before Brumate, its harts apart. -/
def State.panelIdle (s : State) (p : Nat) : Bool :=
  p != 0 && s.onf.session.isNone && s.role == 0 &&
    (s.qps.all fun e =>
      if isLc e.1 then lcNum e.1 / 64 != p || e.2.st == .quiesced
      else qpNum e.1 / 16384 != p || e.2.st == .free || !e.2.enable) &&
    ((List.range 1024).all fun i => s.fld (R.QFAB_FNCFG.ENABLE (1024 * p + i)) == 0) &&
    ((List.range 8).all fun i => !s.portOn false (8 * p + i)) &&
    ((List.range 6).all fun g => !groupIn g p || s.fld (R.EMAC_GCFG.MODE g) == 0) &&
    ((List.range 64).all fun i => s.fld (R.QFAB_BEQ_WRING.ENABLE (64 * p + i)) == 0) &&
    ((List.range 16).all fun i => s.fld (R.SELV_EXQ_RING.ENABLE (16 * p + i)) == 0) &&
    ((List.range 2048).all fun i => !s.acctOn (2048 * p + i)) && s.bit R.TAPE_STATUS.DRAINED

/-! ### Reporting (R417) -/

/-- APLIC source 8 of panel P0. -/
def State.irqPwr (s : State) : Bool :=
  s.bit R.PWR_STATUS.IRQ_EN && (s.bit R.PWR_STATUS.CLAIMED || s.bit R.PWR_STATUS.CLAIM_WAKE || s.bit R.PWR_STATUS.WAKE_EVT)

/-- Set a PWR_STATUS event bit and raise event class 4. -/
def State.pwrEvt (s : State) (f : Fld) : State := (s.setBit f).event 4

/-- A Shell request is refused or cancelled for a claim. -/
def State.claimRefuse (s : State) (u : Nat) : State := (s.setFld R.PWR_STATUS.LAST_UNIT u).pwrEvt R.PWR_STATUS.CLAIMED

/-! ### Requests (R411) -/

/-- How the power controller judges a request. -/
def State.judgePower (s : State) (u st : Nat) (lining : Bool) : Option Nat :=
  if unitCount ≤ u || (st == 3 && (!isPanel u || !lining)) then some E.PARAM
  else if !lining && s.unitClaimed u then some E.CLAIMED
  else if isPanel u && st == 2 && !s.panelIdle (u - 16) then some E.POWER_STATE
  else if isQuad u && (st == 1 || st == 2) && !s.quadIdle u then some E.POWER_STATE
  else none

/-- Each hart of a list has asked for a state; `on` says whether the request now waits. -/
def State.hartsAsk (s : State) (st : Nat) (lining on : Bool) : List Nat → State
  | [] => s
  | h :: hs =>
    State.hartsAsk (s.setHart h { s.hart h with preq := st, preqLining := lining, preqPending := on, preqRefused := false }) st lining on hs

/-- The requests of harts that wait are withdrawn. -/
def State.hartsDrop (s : State) (refused : Bool) : List Nat → State
  | [] => s
  | h :: hs =>
    let x := s.hart h
    State.hartsDrop (s.setHart h { x with preqPending := false, preqRefused := x.preqRefused || (refused && x.preqPending) }) refused hs

/-- A unit is asked to go to Bask: its held request goes, an entry that can be is cancelled, and a sleeping unit starts to wake. -/
def State.unitBask (s : State) (u : Nat) : State :=
  let x := s.unit u
  let s1 := if isTile u then s.hartsDrop false (tileHarts u) else s
  if x.target.isSome then
    (if x.pnr then s1.setUnit u { x with req := none, wakeAfter := max x.wakeAfter 2 } else s1.setUnit u { x with req := none, target := none })
  else s1.setUnit u { x with req := none, waking := decide (x.st = 1 ∨ x.st = 2) }

/-- An accepted request takes effect. The panel's service engine gets line 4 (R366). -/
def State.takePower (s : State) (u st : Nat) (lining : Bool) : State :=
  let s1 :=
    if st = 0 then s.unitBask u
    else if st = 3 then s.setUnit u { s.unit u with target := some 3, pnr := true, req := none, shell := false }
    else if isTile u then s.hartsAsk st lining true (tileHarts u)
    else s.setUnit u { s.unit u with req := some (st, lining) }
  s1.engLine (8 * unitPanel u + 7) 4

/-- A request is judged and, if accepted, taken; the answer is its code. -/
def State.askPower (s : State) (u st : Nat) (lining : Bool) : State × Nat :=
  match s.judgePower u st lining with
  | some c => (if c = E.CLAIMED then s.claimRefuse u else s, c)
  | none => (s.takePower u st lining, 0)

/-- The Croak pattern goes out on a lane quad (R420). -/
def State.croakOut (s : State) (u : Nat) : State := if isQuad u && !s.sys.gated then s.emit (.croak u) else s

/-- A write of PWR_REQ (Table 15-9): the fields, then with GO the Croak pattern and the request. -/
def State.pwrReqWrite (s : State) (who : Agent) (data : W64) : State :=
  let u := getBits data 0 6
  let st := getBits data 8 2
  let s1 := (s.setFld R.PWR_REQ.UNIT u).setFld R.PWR_REQ.STATE st
  if getBit data 16 then
    let s2 := if getBit data 10 then s1.croakOut u else s1
    let r := s2.askPower u st (s.world who == .lining)
    r.1.setFld R.PWR_REQ.STATUS r.2
  else s1

/-- A PWR_REQ write with GO and one STATE. -/
def State.pwrReqGo (s : State) (who : Agent) (data : W64) (st : Nat) : State :=
  s.regTry who .write R.PWR_REQ.off fun s => s.pwrReqWrite who (setBits (setBits data 8 2 st) 16 1 1)

/-- PWR_REQ_BASK (R411). -/
def execPwrReqBask (who : Agent) (data : BitVec 64) (s : State) : Res := .next (s.whenUp fun s => s.pwrReqGo who data 0)
/-- PWR_REQ_DOZE (R411). -/
def execPwrReqDoze (who : Agent) (data : BitVec 64) (s : State) : Res := .next (s.whenUp fun s => s.pwrReqGo who data 1)
/-- PWR_REQ_BRUMATE (R411). -/
def execPwrReqBrumate (who : Agent) (data : BitVec 64) (s : State) : Res := .next (s.whenUp fun s => s.pwrReqGo who data 2)
/-- PWR_REQ_HOLD (R411). -/
def execPwrReqHold (who : Agent) (data : BitVec 64) (s : State) : Res := .next (s.whenUp fun s => s.pwrReqGo who data 3)

/-- CROAK (R420): PWR_REQ.CROAK with GO. -/
def execCroak (who : Agent) (data : BitVec 64) (s : State) : Res :=
  .next (s.whenUp fun s =>
    s.regTry who .write R.PWR_REQ.off fun s => s.pwrReqWrite who (setBits (setBits data 10 1 1) 16 1 1))

/-- A PWR_SET request counts as Lining from the Lining door or when critical (R411). -/
def onfLining (r : OnfReq) : Bool := r.ch == 35 || r.crit

/-- PWR_SET with one STATE. -/
def State.pwrSet (s : State) (r : OnfReq) (u st : Nat) (croak : Bool) : State :=
  s.command r 0x0701 fun s =>
    let s1 := if croak then s.croakOut u else s
    let a := s1.askPower u st (onfLining r)
    a.1.reply r 0x0701 a.2 []

/-- PWR_SET_BASK (R411). -/
def execPwrSetBask (r : OnfReq) (unit : Nat) (croak : Bool) (s : State) : Res := .next (s.pwrSet r unit 0 croak)
/-- PWR_SET_DOZE (R411). -/
def execPwrSetDoze (r : OnfReq) (unit : Nat) (croak : Bool) (s : State) : Res := .next (s.pwrSet r unit 1 croak)
/-- PWR_SET_BRUMATE (R411). -/
def execPwrSetBrumate (r : OnfReq) (unit : Nat) (croak : Bool) (s : State) : Res := .next (s.pwrSet r unit 2 croak)
/-- PWR_SET_HOLD (R411). -/
def execPwrSetHold (r : OnfReq) (unit : Nat) (croak : Bool) (s : State) : Res := .next (s.pwrSet r unit 3 croak)

/-- PWR_AVS (R453, Table 17-9): the fused target of 650 to 850 mV, and the voltage at the die. -/
def State.avsWord (s : State) : W64 := BitVec.ofNat 64 (650 + Config.avsTarget % 201 + 65536 * (Config.avsMeas s.freeCtr % 1024))

/-- PWR_STATUS (R55, Table 02-22). -/
def execPwrStatus (r : OnfReq) (s : State) : Res :=
  .next (s.command r 0x0702 fun s =>
    let w (v : W64) : List Byte := leBytes 8 v.toNat
    s.reply r 0x0702 0 (w (s.powerWord 0) ++ w (s.powerWord 1) ++ w (s.reg R.PWR_STATUS.off) ++ w (s.reg R.PWR_CLAIM_HART.off) ++
      w (s.reg R.PWR_CLAIM_BLK.off) ++ w s.avsWord))

/-! ### mpowerreq and WFI -/

/-- A hart takes a trap that this device gives it: its cause is kept (R251, R326). -/
def State.hartTrap (s : State) (h cause : Nat) : State := s.setHart h { s.hart h with trap := cause }

/-- An illegal-instruction exception, and a virtual-instruction exception. -/
abbrev trapIllegal : Nat := 2
abbrev trapVirtual : Nat := 22

/-- The custom CSRs at 0x7C0–0x7C2 admit M-mode alone (R326). -/
def State.mCsr (s : State) (h : Nat) (mode : Priv) (f : State → State) : State :=
  if 64 ≤ h then s else if mode == .m then f s else s.hartTrap h trapIllegal

/-- A write of mpowerreq: a request from the hart's world for its core tile; 0b11 acts as 0b00. -/
def State.mpowerreq (s : State) (h st : Nat) : State :=
  let x := s.hart h
  let u := h / 4
  if st = 1 ∨ st = 2 then
    if !x.world && s.unitClaimed u then
      (s.setHart h { x with preq := st, preqLining := false, preqPending := false, preqRefused := true }).claimRefuse u
    else s.setHart h { x with preq := st, preqLining := x.world, preqPending := true, preqRefused := false }
  else s.setHart h { x with preq := st, preqLining := x.world, preqPending := false, preqRefused := false }

/-- MPOWERREQ_WRITE (R411). -/
def execMpowerreqWrite (h : Nat) (mode : Priv) (data : BitVec 64) (s : State) : Res :=
  .next (s.whenUp fun s => s.mCsr h mode fun s => s.mpowerreq h (getBits data 0 2))

/-- WFI (R411): the hart's clock is gated. -/
def execWfi (h : Nat) (s : State) : Res :=
  .next (s.whenUp fun s =>
    let x := s.hart h
    if h < 64 && x.released && !x.debug then s.setHart h { x with wfi := true } else s)

/-! ### Entry (R410, Table 15-3) -/

/-- The state that the four harts of a tile have asked for together: the lightest of theirs. -/
def State.tileAsk (s : State) (u : Nat) : Nat :=
  if (tileHarts u).all fun h => (s.hart h).preqPending && (s.hart h).wfi then
    (tileHarts u).foldl (fun (m : Nat) h => min m ((s.hart h).preq % 3)) 2
  else 0

/-- The request of a unit whose conditions now hold: the state and whether the Shell asked. -/
def State.readyEntry (s : State) (u : Nat) : Option (Nat × Bool) :=
  if isTile u then
    (let t := s.tileAsk u
     if t = 0 then none else some (t, (tileHarts u).any fun h => !(s.hart h).preqLining))
  else
    match (s.unit u).req with
    | none => none
    | some (t, lining) =>
      let ok :=
        if isPanel u then
          ((panelHarts (u - 16)).all fun h => (s.hart h).wfi || (s.unit (h / 4)).st == 2) && (t != 2 || s.panelIdle (u - 16))
        else s.quadIdle u
      if ok then some (t, !lining) else none

/-- POWER_ENTRY_START (R410): a held request whose conditions now hold begins the unit's entry. -/
def execPowerEntryStart (u : Nat) (s : State) : Res :=
  .next (s.whenUp fun s =>
    let x := s.unit u
    if unitCount ≤ u || x.target.isSome || x.waking || s.panelHeld (unitPanel u) then s
    else
      match s.readyEntry u with
      | some (t, shell) => if x.st < t then s.setUnit u { x with target := some t, pnr := false, shell := shell, wakeAfter := 0 } else s
      | none => s)

/-- Moult tests of slices of a panel meet the point of no return of its Brumate (Table 15-17): before the redirect a test is abandoned; after it
the slice becomes the spare untested and is tested first after the wake. -/
def State.moultAbandon (s : State) (p : Nat) : State :=
  let hit := s.pow.tests.filter fun e => decide (e.1 / 4096 < 5) && e.1 / 1024 % 4 == p
  let keep := s.pow.tests.filter fun e => !(decide (e.1 / 4096 < 5) && e.1 / 1024 % 4 == p)
  let late := hit.filter fun e => e.2.march
  let sp := late.foldl (fun (m : SMap Bool) e => smPut (moultSpare0 e.1) m e.1 true) s.pow.spares
  let s1 : State := { s with pow := { s.pow with tests := keep, spares := sp, first := s.pow.first ++ late.map (·.1) } }
  s1.setFld R.MOULT_STATUS.ACTIVE keep.length

/-- POINT_OF_NO_RETURN (R410): the power switches of a Brumate entry begin to open. -/
def execPointOfNoReturn (u : Nat) (s : State) : Res :=
  .next (s.whenUp fun s =>
    let x := s.unit u
    if u < unitCount && x.target == some 2 then
      (let s1 := s.setUnit u { x with pnr := true }
       if isPanel u then s1.moultAbandon (u - 16) else s1)
    else s)

/-- A hart's caches after Brumate of its tile: disabled, contents undefined (R336). -/
def Hart.cacheLost (x : Hart) : Hart :=
  { x with icEn := false, dcEn := false, l2En := false, invDone := false, noInv := false, noSc := false }

/-- Each hart of a list. -/
def State.cachesLost (s : State) : List Nat → State
  | [] => s
  | h :: hs => State.cachesLost (s.setHart h (s.hart h).cacheLost) hs

/-- A range of device memory goes back to what unwritten memory reads as. -/
def State.memClear (s : State) (a n : Nat) : State :=
  { s with
    mem := s.mem.filter fun c => !(decide (a ≤ c.1) && decide (c.1 < a + n))
    safe := { s.safe with poison := s.safe.poison.filter fun q => !(decide (a ≤ q.1) && decide (q.1 + q.2 ≤ a + n)) } }

/-- A panel's power goes off (R414): engines, its Bobbin shared SRAM, caches of its harts, its quarter of the ATC, its flow cache. -/
def State.panelOff (s : State) (p : Nat) : State :=
  let s1 := (s.engResets ((List.range 8).map (8 * p + ·))).memClear (0x20010000000 + p * 0x80000) 0x80000
  let s2 := s1.cachesLost (panelHarts p)
  { s2 with
    shut := { s2.shut with atc := s2.shut.atc.filter fun e => (if e.dev then e.f / 64 else s2.fnPort e.f / 8) != p }
    selv := { s2.selv with cache := s2.selv.cache.filter fun e => e.1 != p } }

/-! ### Entering Hold (R422) -/

/-- The host lanes of a panel go into electrical idle: trained ports drop their links. -/
def State.panelQuiet (s : State) (p : Nat) : State :=
  ((List.range 8).map (8 * p + ·)).foldl
    (fun (s : State) n => if (s.link n).trained then (s.linkDrop n).emit (.portDown n) else s) s

/-- The panels of a mask go into Hold. -/
def State.holdPanels (s : State) (m : Nat) : State :=
  let new := (List.range 4).filter fun p => m.testBit p && !s.panelHeld p
  new.foldl State.panelQuiet { s with pow := { s.pow with enterHold := s.pow.enterHold ||| m % 16 } }

/-- POWER_ENTRY_COMPLETE (R410): the unit is in its state. A claim or an access that came after the point of no return wakes it at once. -/
def execPowerEntryComplete (u : Nat) (s : State) : Res :=
  .next (s.whenUp fun s =>
    let x := s.unit u
    match x.target with
    | none => s
    | some t =>
      if t = 3 then (s.setUnit u { x with target := none, pnr := false }).holdPanels (2 ^ unitPanel u)
      else if t = 2 && !x.pnr then s
      else
        let s1 := if isTile u then s.hartsDrop false (tileHarts u) else s
        let s2 := s1.setUnit u { x with st := t, target := none, pnr := false, req := none, waking := decide (0 < x.wakeAfter), wakeAfter := 0 }
        let s3 := if t = 2 && isTile u then s2.cachesLost (tileHarts u) else if t = 2 && isPanel u then s2.panelOff (u - 16) else s2
        if x.wakeAfter = 1 then s3.pwrEvt R.PWR_STATUS.CLAIM_WAKE else if x.wakeAfter = 2 then s3.pwrEvt R.PWR_STATUS.WAKE_EVT else s3)

/-! ### Wake (R415, R416, R419) -/

/-- A unit starts to wake: an entry before its point of no return is cancelled with its request kept; after it the unit wakes when it is down. -/
def State.unitStir (s : State) (u : Nat) : State :=
  let x := s.unit u
  if x.target.isSome then (if x.pnr then s.setUnit u { x with wakeAfter := max x.wakeAfter 2 } else s.setUnit u { x with target := none })
  else if x.st = 1 ∨ x.st = 2 then (s.setUnit u { x with waking := true }).pwrEvt R.PWR_STATUS.WAKE_EVT
  else s

/-- An access to a unit wakes it and its panel; a held panel is not woken (R416, R422). A lane quad in Brumate has no access that wakes it. -/
def State.wakeUnit (s : State) (u : Nat) : State :=
  if s.panelHeld (unitPanel u) || (isQuad u && (s.unit u).st == 2) then s
  else if isPanel u then s.unitStir u
  else (s.unitStir (16 + unitPanel u)).unitStir u

/-- UNIT_WAKE (R416). -/
def execUnitWake (u : Nat) (s : State) : Res := .next (s.whenUp fun s => if u < unitCount then s.wakeUnit u else s)

/-- The harts of a tile that wakes: from Doze each goes on after its WFI; from Brumate each starts at PWR_WAKEVEC as by a trap of cause 24. -/
def State.wakeHarts (s : State) (deep : Bool) : List Nat → State
  | [] => s
  | h :: hs =>
    let x := s.hart h
    let y : Hart :=
      if deep then
        { x with wfi := false, startPc := s.fld R.PWR_WAKEVEC.ENTRY / 4 * 4, trap := 0x8000000000000018 }
      else { x with wfi := false }
    State.wakeHarts (if x.released then s.setHart h y else s) deep hs

/-- A waking unit is ready. -/
def State.unitReady (s : State) (u : Nat) : State :=
  let x := s.unit u
  if !x.waking then s
  else
    let s1 := s.setUnit u { x with st := 0, waking := false, shell := false }
    if isTile u then (if (s1.unit (16 + unitPanel u)).st = 0 then s1.wakeHarts (x.st == 2) (tileHarts u) else s1)
    else if isPanel u then
      s1.wakeHarts (x.st == 2) ((panelHarts (u - 16)).filter fun h => (s1.unit (h / 4)).st == 0)
    else s1

/-- WAKE_READY (R415). -/
def execWakeReady (u : Nat) (s : State) : Res := .next (s.whenUp fun s => if u < unitCount then s.unitReady u else s)

/-- A quad starts to wake by its own receivers. -/
def State.quadWake (s : State) (u : Nat) : State :=
  let x := s.unit u
  if s.panelHeld (unitPanel u) || x.target.isSome then s else s.setUnit u { x with waking := true }

/-- LANE_ACTIVITY_WAKE (R419): a quad in Doze. -/
def execLaneActivityWake (u : Nat) (s : State) : Res :=
  .next (s.whenUp fun s => if isQuad u && (s.unit u).st == 1 then s.quadWake u else s)

/-- CROAK_DETECT (R419): an Ethernet or Galvel quad in Brumate. -/
def execCroakDetect (u : Nat) (s : State) : Res :=
  .next (s.whenUp fun s => if isQuad u && decide (4 ≤ quadNum u) && (s.unit u).st == 2 then s.quadWake u else s)

/-- A quad follows its lanes (R412): all disabled, it enters Brumate without a request; one enabled, it returns to Bask. -/
def State.quadAuto (s : State) (u : Nat) : State :=
  let x := s.unit u
  if s.quadOn u then (if x.st = 0 then s else s.setUnit u { x with waking := true })
  else if x.st = 2 || x.waking then s
  else s.setUnit u { x with st := 2, target := none, pnr := false, req := none }

/-- Every quad. -/
def State.quadsAuto (s : State) : State := ((List.range 32).map (20 + ·)).foldl State.quadAuto s

/-! ### Claims (R300, R302, Table 15-5) -/

/-- A newly claimed unit meets what the Shell has asked of it: a held request or an entry before its point of no return is cancelled; after it
the unit wakes when it is down. -/
def State.claimMeets (s : State) (u : Nat) : State :=
  let x := s.unit u
  let asked := (isTile u && (tileHarts u).any fun h => (s.hart h).preqPending && !(s.hart h).preqLining) ||
    (match x.req with | some (_, l) => !l | none => false)
  if x.target.isSome && x.pnr then (if x.shell then s.setUnit u { x with wakeAfter := 1 } else s)
  else if (x.target.isSome && x.shell) || asked then
    let s1 := s.setUnit u { x with target := none, req := none }
    (if isTile u then s1.hartsDrop true (tileHarts u) else s1).claimRefuse u
  else s

/-- Every unit that is claimed now and was not in `old`. -/
def State.claimEdges (s old : State) : State :=
  ((List.range unitCount).filter fun u => s.unitClaimed u && !old.unitClaimed u).foldl State.claimMeets s

/-- Harts whose claim is released: WORLD becomes 0 in the same cycle (R300). -/
def State.worldsOff (s : State) : List Nat → State
  | [] => s
  | h :: hs => State.worldsOff (s.setHart h { s.hart h with world := false }) hs

/-- A claim that falls on a hart held in Debug Mode while LI is closed makes it leave Debug Mode (R315). -/
def State.debugOff (s : State) : List Nat → State
  | [] => s
  | h :: hs => State.debugOff (s.setHart h { s.hart h with debug := false }) hs

/-- A write of PWR_CLAIM_HART. -/
def State.claimHartSet (s : State) (data : W64) : State :=
  let old := s.reg R.PWR_CLAIM_HART.off
  let s1 := s.setReg R.PWR_CLAIM_HART.off data
  let s2 := s1.worldsOff (bitList 64 (old &&& ~~~ data).toNat)
  let s3 := if (s2.fld R.SEAM_DEBUG.OPEN).testBit 0 then s2 else s2.debugOff (bitList 64 (data &&& ~~~ old).toNat)
  s3.claimEdges s

/-- CLAIM_HART_WRITE (R300). -/
def execClaimHartWrite (who : Agent) (data : BitVec 64) (s : State) : Res :=
  .next (s.whenUp fun s => s.regTry who .write R.PWR_CLAIM_HART.off fun s => s.claimHartSet data)

/-- The engine tiles' bits of PWR_CLAIM_BLK, which read 1. -/
def engineTiles : W64 := 0x402010080

/-- A write of PWR_CLAIM_BLK. -/
def State.claimBlkSet (s : State) (data : W64) : State :=
  (s.setReg R.PWR_CLAIM_BLK.off ((data &&& maskOf 0 36) ||| engineTiles)).claimEdges s

/-- CLAIM_BLK_WRITE (R302). -/
def execClaimBlkWrite (who : Agent) (data : BitVec 64) (s : State) : Res :=
  .next (s.whenUp fun s => s.regTry who .write R.PWR_CLAIM_BLK.off fun s => s.claimBlkSet data)

/-! ### Hold and scan reads (R422, R423) -/

/-- A write of PWR_HOLD. -/
def State.holdSet (s : State) (data : W64) : State := s.holdPanels (getBits data 0 4)

/-- HOLD_ENTER (R422). -/
def execHoldEnter (who : Agent) (data : BitVec 64) (s : State) : Res :=
  .next (s.whenUp fun s => s.regTry who .write R.PWR_HOLD.off fun s => s.holdSet data)

/-- Key registers are zeroed (R316): the AES-XTS key slots and their staging words, and IDE keys. -/
def State.zeroKeys (s : State) : State :=
  { s with shut := { s.shut with keys := [], keyData := [] }, spdm := s.spdm.map fun e => (e.1, { e.2 with ide := [] }) }

/-- What a read of PWR_SCAN_DATA does and gives: 64 scan bits of a held panel, which are free, after zeroing the key registers; else 0. -/
def State.scanRead (s : State) : State × W64 :=
  if s.panelHeld (s.fld R.PWR_SCAN_SEL.PANEL) then (s.zeroKeys.drawn, BitVec.ofNat 64 s.free) else (s, 0)

/-- SCAN_READ (R423). -/
def execScanRead (who : Agent) (s : State) : Res :=
  .next (s.whenUp fun s =>
    s.regTry who .read R.PWR_SCAN_DATA.off fun s => (let r := s.scanRead; r.1.emit (.readData (leBytes 8 r.2.toNat))))

end Sys2Proof.Machine
end

