-- ==== Sys2Proof/Machine/Edge.lean ====
section
/-!
DEFINITION. Edge.lean: what happens on a stitch edge (R66): every staged copy becomes the live copy, the configuration epoch rises, and each
block takes its changes (R76, R77, R79, R81, R101, R112, R182, R205–R207, R224, R227).
-/

namespace Sys2Proof.Machine

/-- The registers that an edge changes: live offset, old and new value. -/
abbrev Changes : Type := List (Nat × W64 × W64)

/-- The changes of a session's staged values. -/
def State.changes (s : State) (regs : SMap W64) : Changes :=
  (regs.filter fun e => s.reg e.1 != e.2).map fun e => (e.1, s.reg e.1, e.2)

/-- The new values become live. -/
def State.commitRegs (s : State) : Changes → State
  | [] => s
  | c :: cs => State.commitRegs (s.setReg c.1 c.2.2) cs

/-- The changes of an array of registers, as (index, old, new). -/
def Changes.arr (cs : Changes) (base stride count : Nat) : List (Nat × W64 × W64) :=
  (cs.filter fun c => decide (base ≤ c.1) && decide (c.1 < base + stride * count) && (c.1 - base) % stride == 0).map fun c =>
    ((c.1 - base) / stride, c.2)

/-- The configuration epoch after an edge (R67). -/
def nextEpoch (e : Nat) : Nat := if e = 0xFFFFFFFF then 1 else e + 1

/-! ### Functions and ports -/

/-- A field of a register value differs. -/
def fieldDiff (a b : W64) (lo w : Nat) : Bool := getBits a lo w != getBits b lo w

/-- The ports whose ENABLE, WIDTH, MAXGEN or CLOCKING changes (R77). -/
def Changes.ports (cs : Changes) : List Nat := ((cs.arr (R.HPORT_CFG.off 0) 65536 32).filter fun c => fieldDiff c.2.1 c.2.2 0 8).map (·.1)

/-- The VFs that a stitch disables or gives another personality (R79). -/
def Changes.vfReset (cs : Changes) : List Nat :=
  ((cs.arr (R.QFAB_FNCFG.off 0) 8 0x1000).filter fun c =>
    getBit c.2.1 0 && (!getBit c.2.2 0 || persOf c.2.1 c.1 != persOf c.2.2 c.1)).map (·.1)

/-- The VFs that a stitch makes exist, or gives another personality: their personality starts from its reset. -/
def Changes.vfNew (cs : Changes) : List Nat :=
  ((cs.arr (R.QFAB_FNCFG.off 0) 8 0x1000).filter fun c =>
    getBit c.2.2 0 && (!getBit c.2.1 0 || persOf c.2.1 c.1 != persOf c.2.2 c.1)).map (·.1)

/-- A port's PF and every VF on it (R27). -/
def State.portFns (s : State) (n : Nat) : List Nat := s.vfsOn n ++ [0x1000 + n]

/-- A port drops its link and trains again with its new settings (R77); one placed against R15 never trains. -/
def State.portCycle (s : State) (wasOn : Bool) (n : Nat) : State :=
  let s1 := if wasOn then (s.linkDrop n).emit (.portDown n) else s
  if s1.portOn false n && s1.portPlaced false n then s1.emit (.portTrain n) else s1

/-- Cycle the changed ports; `old` is the state before the edge. -/
def State.portCycles (s old : State) : List Nat → State
  | [] => s
  | n :: ns => State.portCycles (s.portCycle (old.portOn false n) n) old ns

/-- The MSI-X table follows MSIX_COUNT (R101): entries that go return to their reset values, and a CQ whose vector goes loses INT_EN. -/
def State.vectorEdge (s : State) (f : Nat) (old new : W64) : State :=
  let cnt (v : W64) : Nat := min 2048 (getBits v 32 12)
  if cnt old = cnt new then s
  else
    let c := s.fn f
    let s1 := s.setFn f { c with msix := c.msix.filter fun e => decide (e.1 < cnt new) }
    let hit := (s1.qpsOf f).filter fun e =>
      let v := getBits (s1.qp e.1).cfg 8 11
      getBit (s1.qp e.1).cfg 19 && decide (cnt new ≤ v) && decide (v < cnt old)
    hit.foldl (fun (s : State) e => s.setQp e.1 { s.qp e.1 with cfg := setBits (s.qp e.1).cfg 19 1 0, cfgErr := true }) s1

/-- The vectors of every changed function. -/
def State.vectorEdges (s : State) : List (Nat × W64 × W64) → State
  | [] => s
  | c :: cs => State.vectorEdges (s.vectorEdge c.1 c.2.1 c.2.2) cs

/-- Two VFs stand on one port and index (R76). -/
def State.fnDup (s : State) : Bool := (s.fnList false).any fun f => isVf f && s.fld (R.QFAB_FNCFG.VF_INDEX f) != 0 && s.fnShadowed f

/-! ### Queue pairs (R81) -/

/-- A granted QP leaves its owner: its requests are released and its context is fresh. -/
def State.qpLeave (s : State) (q : Nat) (st : QpSt) : State :=
  let s1 := ((s.abandon q).releaseAll q true).dropRingWaits q
  s1.setQp q { (s1.qp q).fresh with st := st, held := false, sessHeld := false, adopted := false, recon := false }

/-- One change of ownership. -/
def State.qpEdge (s : State) (c : Nat × W64 × W64) : State :=
  match getBit c.2.1 15, getBit c.2.2 15 with
  | false, true => s.setQp c.1 { (s.qp c.1).fresh with st := .quiesced, held := false, sessHeld := false }
  | true, false => s.qpLeave c.1 .free
  | true, true => if fieldDiff c.2.1 c.2.2 0 13 || fieldDiff c.2.1 c.2.2 16 12 then s.qpLeave c.1 .quiesced else s
  | false, false => s

/-- Every change of ownership. -/
def State.qpEdges (s : State) : List (Nat × W64 × W64) → State
  | [] => s
  | c :: cs => State.qpEdges (s.qpEdge c) cs

/-- The functions whose grants, classes or vector count a stitch changes (Table 03-3). -/
def Changes.evtFns (cs : Changes) : List Nat :=
  let own := (cs.arr (R.QFAB_QOWN.off 0) 8 65536).flatMap fun c =>
    (if getBit c.2.1 15 then [getBits c.2.1 0 13] else []) ++ if getBit c.2.2 15 then [getBits c.2.2 0 13] else []
  let vec := ((cs.arr (R.QFAB_FNCFG.off 0) 8 0x1020).filter fun c => min 2048 (getBits c.2.1 32 12) != min 2048 (getBits c.2.2 32 12)).map (·.1)
  sortUp (own ++ vec)

/-- GRANT_EVT of each function of a list. -/
def State.grantEvts (s : State) : List Nat → State
  | [] => s
  | f :: fs => State.grantEvts (s.grantEvt f) fs

/-- A local index that a running personality latched at its reset (R112). -/
def State.latchedIdx (s : State) (f loc : Nat) : Bool :=
  let p := s.pers f
  let c := s.fn f
  if p = 1 then c.virtio.status.testBit 2 && decide (loc < 2 * c.virtio.latched + 1)
  else if p = 2 then c.virtio.status.testBit 2 && decide (loc < c.virtio.latched)
  else if p = 3 then c.nvme.en && (loc == 0x200 || (decide (0x201 ≤ loc) && decide (loc < 0x201 + c.nvme.latched)))
  else false

/-- The functions whose driver is initialised and that lose a latched QP (R112). -/
def State.latchLost (s : State) (cs : Changes) : List Nat :=
  sortUp (((cs.arr (R.QFAB_QOWN.off 0) 8 65536).filter fun c =>
    getBit c.2.1 15 && (!getBit c.2.2 15 || fieldDiff c.2.1 c.2.2 0 13 || fieldDiff c.2.1 c.2.2 16 12) &&
      s.latchedIdx (getBits c.2.1 0 13) (getBits c.2.1 16 12)).map fun c => getBits c.2.1 0 13)

/-- They need a reset: DEVICE_NEEDS_RESET with a configuration change, or CSTS.CFS. -/
def State.latchStops (s : State) : List Nat → State
  | [] => s
  | f :: fs =>
    let c := s.fn f
    State.latchStops (if s.pers f = 3 then s.setFn f { c with nvme := { c.nvme with cfs := true } } else s.needsReset f) fs

/-- Personalities that start from their reset. -/
def State.personaResets (s : State) : List Nat → State
  | [] => s
  | f :: fs => State.personaResets (s.personaReset f) fs

/-! ### Tape -/

/-- The accounts whose mapping a stitch changes: the old and the new one of each entry (EFLAGS REMAPPED). -/
def Changes.remapped (cs : Changes) : List Nat :=
  let two (base stride count lo : Nat) : List Nat :=
    ((cs.arr base stride count).filter fun c => fieldDiff c.2.1 c.2.2 lo 13).flatMap fun c => [getBits c.2.1 lo 13, getBits c.2.2 lo 13]
  two (R.TAPE_FNACCT.off 0) 8 0x1020 0 ++ two (R.SELV_VPORTA.off 0) 16 0x1020 13 ++ two (R.SELV_TSPACE.off 0) 8 4096 25

/-- The accounts whose ENABLE a stitch changes. -/
def Changes.acctFlips (cs : Changes) : List Nat := (cs.arr (R.TAPE_ACCT.off 0) 8 8192).map (·.1)

/-- Accounts that entries of the staged tables name, before and after (EFLAGS REMAPPED). -/
def State.tabRemapped (s : State) (tabs : List TabStage) : List Nat :=
  (tabs.filter fun t => t.table == 2).flatMap fun t =>
    let old := (s.tabLive 2 t.loc).bind fun x => flowAcct x.image
    let new := t.image.bind flowAcct
    if old = new then [] else old.toList ++ new.toList

/-- The marks that a stitch inside a span leaves on its accounts. On the flip edge itself the new bank has run no cycle under the old
configuration, so `inside` is false and no change falls in it. -/
def State.tapeEdge (s : State) (cs : Changes) (tabs : List TabStage) (inside : Bool) : State :=
  if !inside then s
  else
    let b := s.bank
    let b1 := ((b.flagAll 2 (cs.remapped ++ s.tabRemapped tabs)).flagAll 257 cs.acctFlips).flagAll 4
      ((cs.filter fun c => c.1 == R.TAPE_CFG.off).flatMap fun c => [getBits c.2.1 0 13, getBits c.2.2 0 13])
    s.setActive b1

/-- A stitch that changes the ledger ring takes effect after the record in progress (R227). -/
def State.ringEdge (s : State) (cs : Changes) : State :=
  if cs.any fun c => c.1 == R.TAPE_RING.off then
    (if s.tape.draining then { s with tape := { s.tape with ringChanged := true } } else s.ringRestart)
  else s

/-! ### Selvedge -/

/-- The SELV and EMAC registers that an edge changes keep their old values for packets stamped before it (R174, R175). -/
def State.histEdge (s : State) (cs : Changes) (e : Nat) : State :=
  let l := (cs.filter fun c => (decide (0x3000000 ≤ c.1) && decide (c.1 < 0x4000000)) || (decide (0x6000000 ≤ c.1) && decide (c.1 < 0x6180000))).map
    fun c => (c.1, c.2.1)
  if l.isEmpty then s else { s with selv := { s.selv with hist := (e, l) :: s.selv.hist } }

/-- One staged table entry commits at epoch `e` (R206): the old image until then, the new one from then on. A configured flow displaces a learned
entry of its key or of its slot (R205, Table 06-17); a new SA starts its sequence numbers afresh. -/
def State.tabCommit (s : State) (e : Nat) (t : TabStage) : State :=
  let old := s.selv.tabs.map fun x => if x.table == t.table && x.loc == t.loc && x.till.isNone && !(x.table == 2 && flowLearned x.image) then { x with till := some e } else x
  match t.image with
  | none => { s with selv := { s.selv with tabs := old } }
  | some im =>
    let keep := old.filter fun x => !(t.table == 2 && x.table == 2 && x.loc == t.loc && flowLearned x.image)
    let x : TabEnt := { table := t.table, loc := t.loc, image := im, since := some e, till := none, bucket := t.bucket }
    let s1 : State := { s with selv := { s.selv with tabs := keep ++ [x] } }
    let s2 : State := if t.table = 6 then { s1 with selv := { s1.selv with sas := smDel s1.selv.sas (leNat t.loc) } } else s1
    if t.table = 2 then s2.bucketTrim t.bucket else s2

/-- All of them. -/
def State.tabCommits (s : State) (e : Nat) : List TabStage → State
  | [] => s
  | t :: ts => State.tabCommits (s.tabCommit e t) e ts

/-- The tenant spaces whose rules or SELV_TSPACE entry an edge changes: their ACL epoch becomes the new one (R182). -/
def aclTouched (cs : Changes) (tabs : List TabStage) : List Nat :=
  sortUp (((tabs.filter fun t => t.table == 3).map fun t => leAt t.loc 0 2) ++ (cs.arr (R.SELV_TSPACE.off 0) 8 4096).map (·.1))

/-- Their ACL epochs. -/
def State.aclEdge (s : State) (e : Nat) : List Nat → State
  | [] => s
  | t :: ts =>
    State.aclEdge { s with selv := { s.selv with aclEpoch := smIns s.selv.aclEpoch t (e :: smGet [] s.selv.aclEpoch t) } } e ts

/-- SELV_COMMIT of a session that staged Selvedge entries (R207). -/
def State.commitEdge (s : State) (e number : Nat) (tabs : List TabStage) : State :=
  if tabs.isEmpty then s
  else ((s.setFld R.SELV_COMMIT.EPOCH e).setFld R.SELV_COMMIT.SESSION number).setFld R.SELV_COMMIT.SWEEP 1

/-- The groups whose MODE changes train their lanes again (Table 06-25). -/
def State.laneEdge (s : State) (cs : Changes) : State :=
  ((cs.arr (R.EMAC_GCFG.off 0) 0x40000 6).filter fun c => fieldDiff c.2.1 c.2.2 0 3).foldl (fun (s : State) c => s.emit (.laneTrain c.1)) s

/-! ### DRAM encryption (R441, R442) -/

/-- The granules that a DRAM region's words store encrypted: first and last, if any. ENC acts only for owners Lining and Selvedge. -/
def encRange (a b : W64) : Option (Nat × Nat) :=
  let lo := getBits a 0 44
  let hi := getBits b 0 44
  if getBit a 52 && getBit a 53 && getBits a 44 2 != 0 && decide (lo ≤ hi) then some (lo, hi) else none

/-- The bytes of one range of granules that lie outside another. -/
def encLess (x : Option (Nat × Nat)) (y : Option (Nat × Nat)) (d : Nat) : List (Nat × Nat × Nat) :=
  match x with
  | none => []
  | some (lo, hi) =>
    let r := [(lo * 4096, (hi - lo + 1) * 4096, d)]
    match y with
    | none => r
    | some (l, h) => rangesLess (l * 4096) ((h - l + 1) * 4096) r

/-- A DRAM region whose ENC coverage an edge changes: lines stored before it read changed data (R442). -/
def State.encRegion (s : State) (old : State) (r : Nat) : State :=
  let was := encRange (old.reg (R.SEAM_RGNA.off 0 r)) (old.reg (R.SEAM_RGNB.off 0 r))
  let now := encRange (s.reg (R.SEAM_RGNA.off 0 r)) (s.reg (R.SEAM_RGNB.off 0 r))
  if was = now then s
  else
    let d := s.freeCtr
    { s.drawn with dmc := { s.dmc with scram := encLess was now d ++ encLess now was d ++ s.dmc.scram } }

/-- Every region. -/
def State.encEdge (s old : State) : State := (List.range 64).foldl (fun (s : State) r => s.encRegion old r) s

/-! ### The edge -/

/-- Every staged copy becomes the live copy (R66). `inside`: the edge does not fall on a flip of the Tape banks. -/
def State.applyStitch (s : State) (number : Nat) (regs : SMap W64) (tabs : List TabStage) (inside : Bool) : State :=
  let cs := s.changes regs
  let e := nextEpoch s.epoch
  let ports := cs.ports
  let after := s.commitRegs cs
  let unreach := (s.fnList false).filter fun f => isVf f && s.fnReachable f && !after.fnReachable f
  let gone := sortUp (cs.vfReset ++ unreach ++ ports.flatMap fun n => s.portFns n)
  let lost := s.latchLost cs
  let s1 := s.flrMany gone
  let s2 := (s1.tapeEdge cs tabs inside).histEdge cs e
  let s3 := s2.commitRegs cs
  let s4 := (s3.qpEdges (cs.arr (R.QFAB_QOWN.off 0) 8 65536)).vectorEdges (cs.arr (R.QFAB_FNCFG.off 0) 8 0x1020)
  let s5 := (s4.personaResets (cs.vfNew ++ gone.filter isVf)).latchStops (lost.filter fun f => !gone.contains f)
  let s6 := (s5.portCycles s ports).laneEdge cs
  let s7 := ((s6.tabCommits e tabs).aclEdge e (aclTouched cs tabs)).commitEdge e number tabs
  let s8 := s7.setFld R.ONF_EPOCH.CFG_EPOCH e
  let s9 := if s8.fnDup then s8.setBit R.QFAB_STATUS.FN_DUP else s8
  (((s9.ringEdge cs).grantEvts cs.evtFns).encEdge s).quadsAuto

/-- The armed stitch applies: the session's event, the closed session, the one reply to STITCH (R66, Table 02-9). -/
def State.edgeNow (s : State) (inside : Bool) : State :=
  match s.onf.session with
  | none => s
  | some ss =>
    match ss.armed with
    | none => s
    | some a =>
      let stat := s.reg R.ONF_BASTE_STAT.off
      let t := s.now
      let s1 := (s.applyStitch ss.number ss.regs ss.tabs inside).closeSession
      if ss.number = 0 then s1
      else
        let s2 := s1.evtOnAll 7 stat 0 (s1.subscribers 7)
        s2.reply a.req 0x0304 0 (leBytes 4 s2.epoch ++ zeros 4 ++ leBytes 8 t)

/-- The lead cancels a schedule that the mirror has not confirmed: the session stays open and checked (R70). -/
def State.edgeCancel (s : State) : State :=
  match s.onf.session with
  | some ss =>
    match ss.armed with
    | some a =>
      let stat := s.reg R.ONF_BASTE_STAT.off
      let s1 := ((s.setSession (some { ss with armed := none, idleAt := s.now })).setReg R.ONF_STITCH_AT.off 0).showSession
      let s2 := (s1.sendFlit .unschedule).evtOnAll 7 stat 0 (s1.subscribers 7)
      s2.reply a.req 0x0304 E.TWIN_UNSYNC []
    | none => s
  | none => s

/-- The armed stitch of a session whose edge has come: cancelled if the mirror has not confirmed it. -/
def State.edgeDue (s : State) (inside : Bool) : State :=
  match s.onf.session with
  | some ss =>
    match ss.armed with
    | some a => if a.confirmed then s.edgeNow inside else s.edgeCancel
    | none => s
  | none => s

/-- The session's armed stitch, if its mode lets it fall on this minute boundary (R65, R68). -/
def State.edgeOnMinute (s : State) : Bool :=
  match s.onf.session with
  | some ss =>
    match ss.armed with
    | some a =>
      match a.mode with
      | .immediate => false
      | .atTime => decide (a.time ≤ s.now)
      | .atMinute => true
    | none => false
  | none => false

/-- The ENGCLK cycle in which device time reaches or passes a minute boundary: the flip or its skip, and a stitch on the same edge (R65, R218). -/
def State.minuteEdge (s : State) : State :=
  if !s.minuteDue then s
  else
    let flips := s.bit R.TAPE_STATUS.DRAINED
    let s1 := s.bankFlip
    if s1.edgeOnMinute then (let s2 := s1.edgeDue (!flips); if flips then s2.restartEpoch else s2) else s1

/-- TAPE_BANK_FLIP (R218): it runs on always-on logic, so also while the panels are in reset. -/
def execTapeBankFlip (s : State) : Res := .next (if s.sys.phase = .por then s else s.minuteEdge.endWaits)

/-- STITCH_EDGE (R66): the armed edge. Mode 2 shares the edge of the minute boundary. -/
def execStitchEdge (s : State) : Res :=
  .next (s.whenUp fun s =>
    match s.onf.session with
    | some ss =>
      match ss.armed with
      | some a =>
        match a.mode with
        | .immediate => s.edgeDue true
        | .atTime => if s.now < a.time then s else if s.minuteDue then s.minuteEdge else s.edgeDue true
        | .atMinute => s.minuteEdge
      | none => s
    | none => s)

/-- STITCH_CONFIRM_TIMEOUT (R70). -/
def execStitchConfirmTimeout (s : State) : Res :=
  .next (s.whenUp fun s =>
    match s.openSession with
    | some ss =>
      match ss.armed with
      | some a => if a.confirmed then s else s.edgeCancel
      | none => s
    | none => s)

end Sys2Proof.Machine
end

