-- ==== Sys2Proof/Machine/Keys.lean ====
section
/-!
DEFINITION. Keys.lean: the device's derived keys (R317, RFC 5869), key wrapping (R319, RFC 3394), the fuse fields (R382), and the bytes of
the boot flash (R368, R369).
-/

namespace Sys2Proof.Machine

/-! ### Derivation -/

/-- HMAC-SHA-384. -/
def hmacSha384 (key msg : List Byte) : List Byte :=
  let k := padTo 128 (if 128 < key.length then sha384 key else key)
  sha384 (k.map (· ^^^ 0x5C) ++ sha384 (k.map (· ^^^ 0x36) ++ msg))

/-- The unique device secret. -/
def uds : List Byte := (List.range 32).map Config.uds

/-- HKDF-SHA-384 for 32 bytes: one block of expansion is enough. The salt is TOP_SERIAL as eight little-endian bytes. -/
def deriveKey (info : List Byte) : List Byte := (hmacSha384 (hmacSha384 (leBytes 8 Config.serial.toNat) uds) (info ++ [1])).take 32

/-- The info strings of Table 10-5: "SKV-CFG", "SKV-WRAP", "SKV-FSK". -/
def infoSkv : List Byte := [0x53, 0x4B, 0x56, 0x2D]
def configKey : List Byte := deriveKey (infoSkv ++ [0x43, 0x46, 0x47])
def wrapKey : List Byte := deriveKey (infoSkv ++ [0x57, 0x52, 0x41, 0x50])
def factoryKey : List Byte := deriveKey (infoSkv ++ [0x46, 0x53, 0x4B])

/-! ### Key wrap -/

/-- One step of wrapping: the register A and the blocks R, block `i` (from 0) at step `t`. -/
def wrapStep (ks : List (List Byte)) (st : List Byte × List (List Byte)) (i t : Nat) : List Byte × List (List Byte) :=
  let b := aesEncKs ks (st.1 ++ st.2.getD i [])
  (xorBytes (b.take 8) (beBytes 8 t), st.2.set i (b.drop 8))

/-- One step of unwrapping. -/
def unwrapStep (ks : List (List Byte)) (st : List Byte × List (List Byte)) (i t : Nat) : List Byte × List (List Byte) :=
  let b := aesDecKs ks (xorBytes st.1 (beBytes 8 t) ++ st.2.getD i [])
  (b.take 8, st.2.set i (b.drop 8))

/-- The default initial value of RFC 3394. -/
def wrapIv : List Byte := List.replicate 8 0xA6

/-- Wrap data of whole 64-bit blocks. -/
def keyWrap (kek data : List Byte) : List Byte :=
  let ks := aesKeys kek
  let n := data.length / 8
  let r := (List.range n).map fun i => (data.drop (8 * i)).take 8
  let out := (List.range (6 * n)).foldl (fun (st : List Byte × List (List Byte)) k => wrapStep ks st (k % n) (k + 1)) (wrapIv, r)
  out.1 ++ out.2.flatten

/-- Unwrap data of whole blocks, if the integrity check passes. -/
def blocksUnwrap (kek wrapped : List Byte) : Option (List Byte) :=
  let ks := aesKeys kek
  let n := wrapped.length / 8 - 1
  let r := (List.range n).map fun i => (wrapped.drop (8 + 8 * i)).take 8
  let out := ((List.range (6 * n)).reverse).foldl (fun (st : List Byte × List (List Byte)) k => unwrapStep ks st (k % n) (k + 1))
    (wrapped.take 8, r)
  if out.1 = wrapIv then some out.2.flatten else none

/-- Unwrap a key of 32 bytes from 40. -/
def keyUnwrap (kek wrapped : List Byte) : Option (List Byte) := if wrapped.length = 40 then blocksUnwrap kek wrapped else none

/-! ### Fuses (R382, R383) -/

/-- Fuse contents at manufacture. -/
def fuse0 : W64 := Config.fuse R.FUSE_STATE.off

/-- A key slot's hash at manufacture. -/
def fuseHash0 (k : Nat) : List Byte := (List.range 6).flatMap fun i => leBytes 8 (Config.fuse (R.FUSE_KEYHASH.off k i)).toNat

/-- A key slot's hash under burnt cells, if it holds one. -/
def FuseState.hash (x : FuseState) (k : Nat) : Option (List Byte) :=
  if fuse0.getLsbD k then some (fuseHash0 k) else if k = 2 then x.hash2 else if k = 3 then x.hash3 else Option.none

/-- REVOKE bits, counters and DEBUG_POLICY under burnt cells; an A1 device ships with every policy at 0b01 (R313). -/
def FuseState.revoked (x : FuseState) : Nat := getBits fuse0 4 4 ||| x.revoke
def FuseState.svnOfT (x : FuseState) : Nat := max (min 64 (getBits fuse0 8 7)) x.svnT
def FuseState.svnOfP (x : FuseState) : Nat := max (min 64 (getBits fuse0 16 7)) x.svnP
def FuseState.policies (x : FuseState) : Nat := 0x55 ||| x.policy

/-- FUSE_STATE (Table 13-16). VPP_FUSE is off but for a burn. -/
def State.fuseWord (s : State) : W64 :=
  let x := s.spool.fuse
  BitVec.ofNat 64 ((((List.range 4).map fun k => if (x.hash k).isSome then 2 ^ k else 0).sum) + x.revoked * 16 + x.svnOfT * 256 + x.svnOfP * 65536)

/-- FUSE_KEYHASH[k][i]. -/
def State.fuseHashWord (s : State) (k i : Nat) : W64 :=
  match s.spool.fuse.hash k with
  | some h => BitVec.ofNat 64 (leAt h (8 * i) 8)
  | none => 0

/-- The policy of a debug enable: 0 open, 1 closed, 2 or 3 closed for good (R313). -/
def State.dbgPolicy (s : State) (i : Nat) : Nat := s.spool.fuse.policies / 4 ^ i % 4

/-- SEAM_DEBUG shows the policies and FACTORY_KEY_OFF as burnt (Table 10-16). -/
def State.debugSync (s : State) : State :=
  (s.setFld R.SEAM_DEBUG.POLICY s.spool.fuse.policies).setFld R.SEAM_DEBUG.FACTORY_KEY_OFF (b2n s.spool.fuse.factoryOff)

/-- An open invasive enable implies its non-invasive one (R312). -/
def debugImplied (m : Nat) : Nat := m % 16 ||| (if m.testBit 0 then 2 else 0) ||| (if m.testBit 2 then 8 else 0)

/-- Cells that a burn adds to a number of `w` bits: all of `new`, or those of them that a free value picks. -/
def burnBits (w new : Nat) (whole : Bool) (d : Nat) : Nat := if whole then new % 2 ^ w else new &&& Config.free d % 2 ^ w

/-- The cells after a burn of a field: the whole of it, or (power or a reset cut it short) any part of it (Table 13-9): a counter then reads a count
between the two, a key hash is partly burnt. `d` is the draw that says which part. -/
def FuseState.burnt (x : FuseState) (field idx : Nat) (v : List W64) (whole : Bool) (d : Nat) : FuseState :=
  let w0 := (v.headD 0).toNat
  let count (old new : Nat) : Nat := if whole then max old new else old + Config.free d % (max old new - old + 1)
  let bytes := (v.flatMap fun y => leBytes 8 y.toNat).take 48
  let hash := if whole then bytes else (bytes.zip ((List.range 48).map fun i => Config.freeByte d i)).map fun e => e.1 &&& e.2
  if field = 1 then (if idx = 2 then { x with hash2 := some hash } else if idx = 3 then { x with hash3 := some hash } else x)
  else if field = 2 then { x with revoke := x.revoke ||| burnBits 4 w0 whole d }
  else if field = 3 then { x with svnT := count x.svnOfT (w0 % 128) }
  else if field = 4 then { x with svnP := count x.svnOfP (w0 % 128) }
  else if field = 5 then { x with policy := x.policy ||| burnBits 8 w0 whole d }
  else if field = 6 then { x with factoryOff := x.factoryOff || whole || Config.free d % 2 == 1 }
  else x

/-! ### Boot flash -/

/-- Capacity of a slot's device in bytes; 0 when it does not answer or is unsuited (R368). -/
def flashCap (slot : Nat) : Nat :=
  match Config.flashMiB slot with
  | some m => if 64 ≤ m && m ≤ 128 then m * 1048576 else 0
  | none => 0

/-- One byte of a slot's flash. -/
def State.flashByte (s : State) (slot off : Nat) : Byte := smGet (Config.flashByte slot off) s.spool.flash (slot * 2 ^ 28 + off)

/-- Bytes of a slot's flash. -/
def State.flashRead (s : State) (slot off n : Nat) : List Byte := (List.range n).map fun i => s.flashByte slot (off + i)

/-- Write bytes of a slot's flash. -/
def State.flashWrite (s : State) (slot off : Nat) : List Byte → State
  | [] => s
  | b :: bs =>
    State.flashWrite { s with spool := { s.spool with flash := smPut (Config.flashByte slot off) s.spool.flash (slot * 2 ^ 28 + off) b } } slot (off + 1) bs

/-- The images of a slot (Table 13-1): KIND, offset and size of the region. -/
def imgBase (kind : Nat) : Nat := if kind = 1 then 0 else if kind = 2 then 0x1100000 else if kind = 3 then 0x100000 else 0x500000
def imgSize (kind : Nat) : Nat := if kind = 1 then 0x40000 else if kind = 2 then 0x2800000 else if kind = 3 then 0x400000 else 0xC00000

/-- Slots of the configuration block and of the Thimble data area. -/
def cfgBase (slot : Nat) : Nat := flashCap slot - 1048576
def dataAreaLo : Nat := 0x40000
def dataAreaHi : Nat := 0x100000

/-- The header of an image. -/
def State.imgHdr (s : State) (slot kind : Nat) : List Byte := s.flashRead slot (imgBase kind) 8192

/-- Header fields (Table 13-2). -/
def hdrKeyslot (h : List Byte) : Nat := leAt h 7 1
def hdrSvn (h : List Byte) : Nat := leAt h 8 4
def hdrBuild (h : List Byte) : Nat := leAt h 12 4
def hdrVersion (h : List Byte) : Nat := leAt h 16 4
def hdrBodyLen (h : List Byte) : Nat := leAt h 20 4
def hdrLoad (h : List Byte) : Nat := leAt h 24 8
def hdrEntry (h : List Byte) : Nat := leAt h 32 8
def hdrSchema (h : List Byte) : Nat := leAt h 40 2
def hdrFlags (h : List Byte) : Nat := leAt h 44 4
def hdrCommit (h : List Byte) : Bool := (hdrFlags h).testBit 0
def hdrRevoke (h : List Byte) : Nat := hdrFlags h / 16 % 16
def hdrDigest (h : List Byte) : List Byte := (h.drop 48).take 48

/-- Reserved bytes and bits of a header are 0, and so are the fields that belong to other kinds. LOAD must be aligned to 4 KiB. -/
def hdrReserved (kind : Nat) (h : List Byte) : Bool :=
  leAt h 42 2 == 0 && (h.drop 5549).all (· == 0) && hdrFlags h / 256 == 0 && hdrFlags h / 2 % 8 == 0 &&
    (kind == 1 || hdrRevoke h == 0) && (kind == 2 || hdrSchema h == 0) &&
    (if kind = 4 then hdrLoad h % 4096 == 0 else hdrLoad h == 0 && hdrEntry h == 0)

/-- Check 1 of R371. MAGIC may be given, for a header whose MAGIC is still to be written (R385). -/
def hdrFormat (kind : Nat) (magic : Nat) (h : List Byte) : Bool :=
  magic == 0x4C4F5053 && leAt h 4 2 == 1 && leAt h 6 1 == kind && hdrReserved kind h && decide (1 ≤ hdrBodyLen h) &&
    decide (hdrBodyLen h + 8192 ≤ imgSize kind)

/-- Check 2: the key slot is permitted for the KIND, present, and matches. -/
def State.hdrKey (s : State) (kind : Nat) (h : List Byte) : Bool :=
  let k := hdrKeyslot h
  (decide (k < 2) || (decide (k < 4) && (kind == 2 || kind == 4))) && s.spool.sensed.hash k == some (sha384 ((h.drop 96).take 2048))

/-- Check 4: both signatures. -/
def hdrSigs (h : List Byte) : Bool :=
  Config.ecdsaOk ((h.drop 96).take 96) (h.take 2144) ((h.drop 2144).take 96) &&
    Config.mldsaOk ((h.drop 192).take 1952) (sha384 (h.take 2144)) ((h.drop 2240).take 3309)

/-- Check 5: the SVN against the fuse counter of the KIND. -/
def State.hdrSvnOk (s : State) (kind : Nat) (h : List Byte) : Bool :=
  decide ((if kind = 1 || kind = 3 then s.spool.sensed.svnOfT else s.spool.sensed.svnOfP) ≤ hdrSvn h) && decide (hdrSvn h ≤ 64)

/-- R371: the first check that a header fails, as a reason of Table 13-6. -/
def State.hdrReason (s : State) (kind magic : Nat) (h : List Byte) : Option Nat :=
  if !hdrFormat kind magic h then some 0x30
  else if !s.hdrKey kind h then some 0x31
  else if s.spool.sensed.revoked.testBit (hdrKeyslot h) then some 0x35
  else if !hdrSigs h then some 0x32
  else if !s.hdrSvnOk kind h then some 0x34
  else none

/-- The body of an image. -/
def State.imgBody (s : State) (slot kind : Nat) (h : List Byte) : List Byte := s.flashRead slot (imgBase kind + 8192) (hdrBodyLen h)

/-- The body hashes to BODY_DIGEST. -/
def State.bodyOk (s : State) (slot kind : Nat) (h : List Byte) : Bool := sha384 (s.imgBody slot kind h) == hdrDigest h

/-- An image is valid (R371). -/
def State.imgOk (s : State) (slot kind : Nat) : Bool :=
  let h := s.imgHdr slot kind
  (s.hdrReason kind (leAt h 0 4) h).isNone && s.bodyOk slot kind h

/-- An image failed only for its revoked key (R372). -/
def State.onlyRevoked (s : State) (slot : Nat) : Bool :=
  let h := s.imgHdr slot 1
  s.hdrReason 1 (leAt h 0 4) h == some 0x35 && hdrSigs h && s.hdrSvnOk 1 h && s.bodyOk slot 1 h

end Sys2Proof.Machine
end

