-- ==== Sys2Proof/Machine/Boot.lean ====
section
/-!
DEFINITION. Boot.lean: the Spool loader's slot choice, the early start of Thimble, its verdict, and Thimble's steps up to the ungating of the
outputs (R72, R73, R372–R378, R381, R384). What Thimble does on its own stands in the commands that let it go on.
-/

namespace Sys2Proof.Machine

/-! ### Codes and halts (R381) -/

/-- BOOT_CODE. -/
def State.bootCode (s : State) (c : Nat) : State := s.setFld R.TOP_STATUS.BOOT_CODE c

/-- Every hart is as a reset leaves it. -/
def State.hartsStop (s : State) : State := { s with harts := [] }

/-- Every engine stops (R381). Its registers stay. -/
def State.enginesStop (s : State) : State :=
  { s with engs := s.engs.map fun e => (e.1, { e.2 with st := .stopped, stopReq := false, waitOn := none }) }

/-- The active slot. -/
def State.slot (s : State) : Nat := s.fld R.SPOOL_STATUS.SLOT

/-- A sender key slot with its key, from a stored entry: PERM, SENDER and the wrapped key. -/
def storedKey (b : List Byte) (ctr : Nat) : Option SenderKey :=
  match keyUnwrap wrapKey (b.drop 6) with
  | some k => some { sender := leAt b 2 4, key := k, perms := leAt b 0 2, revoked := false, ctr := ctr }
  | none => none

/-- The factory sender key, unless it has been retired (R319): it holds every permission. -/
def State.factorySlot (s : State) (ctr : Nat) : Option SenderKey :=
  if s.spool.sensed.factoryOff then none
  else some { sender := Config.factorySender, key := factoryKey, perms := 0x3F, revoked := false, ctr := ctr }

/-- The counter that a key slot starts from: never below the floor, and above what the AON save area holds for the same sender (R45). -/
def State.startCtr (s : State) (k sender lo : Nat) : Nat :=
  let o := smGet SenderKey.none s.onf.keys k
  if o.sender == sender then max lo o.ctr else lo

/-- Key slot k as a boot from `slot` finds it. -/
def State.bootKey (s : State) (slot k lo : Nat) : Option SenderKey :=
  let raw := if k = 0 then s.factorySlot lo else
    match s.spool.store.find? fun e => e.1 == 64 * slot + k with
    | some e => storedKey e.2 lo
    | none => none
  raw.map fun x => { x with ctr := s.startCtr k x.sender lo }

/-- The sender keys of a slot's data area are loaded, counters no lower than `lo`. -/
def State.loadKeys (s : State) (slot lo : Nat) : State :=
  let ks : SMap SenderKey := (List.range 64).filterMap fun k => (s.bootKey slot k lo).map fun x => (k, x)
  { s with onf := { s.onf with keys := ks } }

/-- The keys that recovery accepts (R386): the factory key, and keys with the FIRMWARE permission in either slot. Their counters are no lower than
any ceiling that either slot holds. Other keys answer to nothing and keep their counters. -/
def State.recoveryKeys (s : State) : State :=
  let lo := max s.onf.ceil0 s.onf.ceil1
  let ks : SMap SenderKey := (List.range 64).filterMap fun k =>
    let a := s.bootKey 0 k lo
    let b := s.bootKey 1 k lo
    match a.filter (fun y => y.perms.testBit 1), b.filter (fun y => y.perms.testBit 1) with
    | some x, _ => some (k, x)
    | none, some x => some (k, x)
    | none, none => (a.or b).map fun x => (k, { x with revoked := true })
  { s with onf := { s.onf with keys := ks } }

/-- The device halts with a failure code (R381). Codes 0x27 and 0x2E open recovery (R386). -/
def State.bootHalt (s : State) (c : Nat) : State :=
  let s1 := (s.enginesStop.hartsStop).bootCode c
  let s2 : State := { s1 with sys := { s1.sys with phase := .halted c, gated := true, aliveOut := false } }
  if c = 0x27 || c = 0x2E then (s2.setBit R.SPOOL_STATUS.RECOVERY).recoveryKeys else s2

/-! ### Slot choice (R372) -/

/-- A slot's header is read and checked: SPOOL_SLOTSTAT shows the result. -/
def State.judgeSlot (s : State) (k : Nat) : State :=
  if s.bit (R.SPOOL_SLOTSTAT.EXCLUDED k) then s
  else if flashCap k = 0 then (s.setFld (R.SPOOL_SLOTSTAT.REASON k) 0x39).setFld (R.SPOOL_SLOTSTAT.HDR_OK k) 0
  else
    let h := s.imgHdr k 1
    let r := s.hdrReason 1 (leAt h 0 4) h
    let s1 := (s.setFld (R.SPOOL_SLOTSTAT.REASON k) (r.getD 0)).setFld (R.SPOOL_SLOTSTAT.HDR_OK k) (b2n r.isNone)
    ((s1.setFld (R.SPOOL_SLOTSTAT.SVN k) (hdrSvn h)).setFld (R.SPOOL_SLOTSTAT.KEYSLOT k) (hdrKeyslot h)).setFld
      (R.SPOOL_SLOTSTAT.BUILD k) (hdrBuild h)

/-- A slot whose header is valid and which is not excluded. -/
def State.slotFit (s : State) (k : Nat) : Bool := !s.bit (R.SPOOL_SLOTSTAT.EXCLUDED k) && s.bit (R.SPOOL_SLOTSTAT.HDR_OK k)

/-- The slot that wins among the valid ones: SVN, then BUILD, then slot A. -/
def State.bestSlot (s : State) : Option Nat :=
  match s.slotFit 0, s.slotFit 1 with
  | true, true =>
    let a := (hdrSvn (s.imgHdr 0 1), hdrBuild (s.imgHdr 0 1))
    let b := (hdrSvn (s.imgHdr 1 1), hdrBuild (s.imgHdr 1 1))
    some (if a.1 < b.1 || (decide (a.1 = b.1) && decide (a.2 < b.2)) then 1 else 0)
  | true, false => some 0
  | false, true => some 1
  | false, false => none

/-- Some key slot is both present and unrevoked. -/
def FuseState.usable (x : FuseState) : Bool := (List.range 4).any fun k => (x.hash k).isSome && !x.revoked.testBit k

/-- The loader chooses a slot and starts to stream its Thimble body (code 0x04), or halts. The cells sensed now govern the slot checks (R383). -/
def State.slotChoice (s0 : State) : State :=
  let s : State := { s0 with spool := { s0.spool with sensed := s0.spool.fuse, loaded := false, ucode := false, images := false } }
  if flashCap 0 = 0 && flashCap 1 = 0 then s.bootHalt 0x21
  else if !s.spool.sensed.usable then s.bootHalt 0x29
  else
    let s1 := (s.judgeSlot 0).judgeSlot 1
    match s1.bestSlot with
    | some k =>
      let h := s1.imgHdr k 1
      (((s1.setFld R.SPOOL_STATUS.SLOT k).setFld R.SPOOL_STATUS.SVN_T (hdrSvn h)).setFld R.SPOOL_STATUS.BUILD (hdrBuild h)).bootCode 4
    | none =>
      let rev := [0, 1].any fun k => !s1.bit (R.SPOOL_SLOTSTAT.EXCLUDED k) && flashCap k != 0 && s1.onlyRevoked k
      s1.bootHalt (if rev then 0x27 else 0x2E)

/-- The loader starts: fuses are sensed, debug enables take their policies (R312, R313, R317), the flash devices are identified. A fuse field that
reads uncorrectable halts the device (R382); whether one does is a free value. -/
def State.loaderStart (s : State) : State :=
  let s1 : State := { s with
    sys := { s.sys with phase := .starting, gated := true }
    spool := { s.spool with keygen := s.spool.fuse.svnOfT, relAt := s.now } }
  let s2 := s1.debugSync.setFld R.SEAM_DEBUG.OPEN (debugImplied ((List.range 4).map fun i => if s1.dbgPolicy i = 0 then 2 ^ i else 0).sum)
  let s3 := ((s2.setFld R.SPOOL_STATUS.FLASH_A (b2n (decide (flashCap 0 ≠ 0)))).setFld R.SPOOL_STATUS.FLASH_B (b2n (decide (flashCap 1 ≠ 0)))).bootCode 1
  if Config.fuseBad s3.freeCtr then s3.drawn.bootHalt 0x20 else s3.drawn.slotChoice

/-! ### Early execution (R373, R374) -/

/-- The Thimble engines. -/
def thimbleEngs : List Nat := [6, 14, 22, 30]

/-- A byte list as 16-bit words from a word address on. -/
def imgWords (n : Nat) (b : List Byte) : SMap W16 :=
  ((List.range n).map fun i => (i, BitVec.ofNat 16 (leAt b (2 * i) 2))).filter fun e => e.2 != 0

/-- Lining SRAM: its place and size. -/
def liningSram : Nat := 0x20000000000
def liningSramLen : Nat := 0x400000

/-- RUN from STOPPED or HALTED (R344): at the reset vector, W0–W15 and FLAGS 0, I-cache invalid. -/
def Engine.run (x : Engine) : Engine :=
  { x with st := .running, stopReq := false, dfault := false, w := [], pc := 0, c := false, z := false, n := false, v := false, ie := false,
           eiHold := false, icache := [], muldiv := [], waitOn := none }

/-- RUN of an engine. -/
def State.engRun (s : State) (e : Nat) : State := s.setEng e (s.eng e).run

/-- A Thimble engine is loaded and started. -/
def State.thimbleLoad (s : State) (body : List Byte) (e : Nat) : State :=
  let s1 := s.setEng e { s.eng e with imem := imgWords 4096 body }
  (s1.setFld (R.BOB_IMG.BASE e) (liningSram / 4096)).engRun e

/-- THIMBLE_START (R373). The body stands as if it had landed whole; a fetch of a word that has not landed only waits. -/
def execThimbleStart (s : State) : Res :=
  .next (if s.sys.phase = .starting && s.fld R.TOP_STATUS.BOOT_CODE == 4 then
      let body := s.imgBody s.slot 1 (s.imgHdr s.slot 1)
      let s1 := (s.memClear liningSram liningSramLen).devWrite liningSram ((body.drop 8192).take liningSramLen)
      let s2 := thimbleEngs.foldl (fun (s : State) e => s.thimbleLoad body e) s1
      ({ s2 with spool := { s2.spool with loaded := true } }).bootCode 5
    else s)

/-- Engines stop, Lining SRAM and every engine's local memory read 0. -/
def State.wipe (s : State) : State := ({ s with engs := [] }).memClear liningSram liningSramLen

/-- A slot is excluded with a reason, RETRIES counts it, the device is locked again, and the slot is chosen anew (R372, R378). -/
def State.excludeSlot (s : State) (reason : Option Nat) : State :=
  let k := s.slot
  let s1 := s.setBit (R.SPOOL_SLOTSTAT.EXCLUDED k)
  let s2 := match reason with
    | some r => s1.setFld (R.SPOOL_SLOTSTAT.REASON k) r
    | none => s1
  (((s2.wipe.zeroKeys).clrBit R.SPOOL_STATUS.KEYS_OPEN).bump R.SPOOL_STATUS.RETRIES 1).slotChoice

/-! ### Configuration (R71–R73) -/

/-- An entry of the configuration block: its RWB register by its live offset, and the value; reserved bytes are 0. -/
def cfgEntry (b : List Byte) : Option (Nat × W64) :=
  if leAt b 4 4 != 0 then none
  else match rwbLive (leAt b 0 4) with
    | some l => some (l, BitVec.ofNat 64 (leAt b 8 8))
    | none => none

/-- Every entry, if all are right. -/
def cfgEntries (b : List Byte) : Nat → Option (List (Nat × W64))
  | 0 => some []
  | n + 1 =>
    match cfgEntry (b.take 16), cfgEntries (b.drop 16) n with
    | some e, some r => some (e :: r)
    | _, _ => none

/-- The block of a slot, if MAGIC, VERSION, COUNT, CHECK, HMAC and every entry are right (R72). -/
def State.cfgBlock (s : State) (slot : Nat) : Option (List (Nat × W64)) :=
  let h := s.flashRead slot (cfgBase slot) 16
  let n := leAt h 8 4
  if leAt h 0 4 != 0x42435653 || leAt h 4 2 != 1 || n == 0 || decide (65000 < n) then none
  else
    let l := 16 + 16 * n
    let b := s.flashRead slot (cfgBase slot) (l + 36)
    if leAt b l 4 != crc32c (b.take l) || (b.drop (l + 4)).take 32 != hmacSha256 configKey (b.take (l + 4)) then none
    else cfgEntries (b.drop 16) n

/-- Factory defaults (R73): each panel has one x16 host port; every other basted register stands at its reset value. -/
def factoryRegs : List (Nat × W64) := [0, 8, 16, 24].map fun n => (R.HPORT_CFG.off n, setBits (setBits (regReset (R.HPORT_CFG.off n)) 0 1 1) 1 3 4)

/-- The internal critical session (R72). It has no number. -/
def bootSession : Session :=
  { number := 0, owner := 0, ownerCh := 35, critical := true, idleMs := 0, idleAt := 0, regs := [], tabs := [], checked := false, held := [], armed := none }

/-- The session with entries staged. -/
def State.bootStage (s : State) (l : List (Nat × W64)) : State := (s.setSession (some bootSession)).stageRegs l

/-- The staged values of the open session become live. -/
def State.bootStitch (s : State) : State :=
  match s.onf.session with
  | some ss => (s.applyStitch 0 ss.regs ss.tabs true).setSession none
  | none => s

/-- Thimble applies the configuration block, or the factory defaults in its place with the configuration-defaulted event (R41, R72). -/
def State.applyConfig (s : State) : State :=
  let dflt (code : Nat) : State :=
    let s0 := ((s.bootStage factoryRegs).bootStitch).setBit R.TOP_STATUS.CFG_DEFAULTED
    let s1 : State := { s0 with spool := { s0.spool with cfgDigest := [] } }
    s1.evtOnAll 8 (s1.evtValue 8) code ((s1.subscribers 8).filter (fun c => c != 32 && c != 33) ++ [32, 33])
  match s.cfgBlock s.slot with
  | none => dflt E.CFG_CHECK
  | some l =>
    let t := s.bootStage l
    let d := sha384 (s.flashRead s.slot (cfgBase s.slot) (52 + 16 * l.length))
    if t.violations.isEmpty then { t.bootStitch with spool := { t.bootStitch.spool with cfgDigest := d } } else dflt E.BASTE_CHECK

/-! ### Thimble's steps (R376, R384) -/

/-- Pending fuse updates (step 5): only for an image that has come up before. A counter or a revocation that VPP_FUSE is missing for is not
burnt; whether it is there is the board's doing. -/
def State.fuseUpdates (s : State) : State :=
  let h := s.imgHdr s.slot 1
  let hp := s.imgHdr s.slot 2
  let rec_ := if s.slot = 0 then s.spool.rec0 else s.spool.rec1
  if rec_ != sha384 h || !Config.vppOk s.freeCtr then s.drawn
  else
    let x := s.spool.fuse
    let t := if hdrCommit h then max x.svnOfT (hdrSvn h) else x.svnT
    let p := if hdrCommit hp then max x.svnOfP (hdrSvn hp) else x.svnP
    let r := if hdrKeyslot h < 4 then hdrRevoke h &&& (15 - 2 ^ hdrKeyslot h) else hdrRevoke h
    { s.drawn with spool := { s.spool with fuse := { x with svnT := t, svnP := p, revoke := x.revoke ||| r } } }

/-- The Lining monitor at LOAD (step 3): its range must lie in installed DRAM. -/
def State.liningLoads (s : State) (h : List Byte) : Bool := decide (hdrLoad h + hdrBodyLen h ≤ s.dmc.cap)

/-- The Pattern engines. -/
def patternEngs : List Nat := (List.range 32).filter fun e => decide (e % 8 < 6)

/-- Hart h leaves reset at an address (R376). -/
def State.hartStart (s : State) (h a : Nat) : State := s.setHart h { Hart.reset with released := true, startPc := a }

/-- Thimble invalidates and enables the system cache before it starts any hart (R337). -/
def State.cacheStart (s : State) : State := (s.setBit R.SC_CTL.INV_DONE).setBit R.SC_CTL.EN

/-- What the release of a Pattern image says of itself: its mirror schema and its feature mask, of which bit 0 is always 1 (R294, R295). A device
that boots has no peer, so the common set is its own. -/
def State.releaseSet (s : State) (hp : List Byte) : State :=
  let m := Config.features hp ||| 1
  ((s.setFld R.GALV_VER.LOCAL_SCHEMA (hdrSchema hp)).setReg R.GALV_FEAT_LOCAL.off m).setReg R.GALV_FEAT_COMMON.off m

/-- Steps 3 to 8: images, fuse updates, configuration, Pattern engines, the system cache, hart 0. A failing image excludes the slot. -/
def State.runImages (s : State) : State :=
  let k := s.slot
  let hm := s.imgHdr k 4
  let hp := s.imgHdr k 2
  let s1 := if s.liningLoads hm then s.devWrite (hdrLoad hm) (s.imgBody k 4 hm) else s
  if !s.liningLoads hm || !s.imgOk k 4 then s1.excludeSlot (some 0x37)
  else
    let area := s.dmc.cap - 0x4000000
    let s2 : State := { s1 with spool := { s1.spool with fwTop := s.dmc.cap } }
    let s3 := s2.devWrite area (s.imgBody k 2 hp)
    if !s.imgOk k 2 || hdrSchema hp / 256 != 1 then s3.excludeSlot (some 0x38)
    else
      let s4 := ((s3.releaseSet hp).fuseUpdates).applyConfig
      let s5 := patternEngs.foldl (fun (s : State) e => (s.setFld (R.BOB_IMG.BASE e) (area / 4096)).engRun e) s4
      let s6 := (s5.cacheStart.setFld R.SPOOL_HARTVEC.ENTRY (hdrEntry hm / 4 * 4)).hartStart 0 (hdrEntry hm / 4 * 4)
      ({ s6 with spool := { s6.spool with images := true } }).bootCode 0x0E

/-- Thimble goes on when DDR training and BIST have completed (step 2). -/
def State.bootGoOn (s : State) : State :=
  if s.sys.phase = .starting && s.bit R.SPOOL_STATUS.KEYS_OPEN && s.spool.ucode && !s.spool.images then
    (if s.bit R.SPOOL_STATUS.DDR_DONE && s.bit R.SPOOL_STATUS.BIST_DONE then s.runImages else s.bootCode 8)
  else s

/-- Microseconds since WARM release. -/
def State.bootUs (s : State) : Nat := (s.now - s.spool.relAt) / 1000

/-- THIMBLE_BODY_VERDICT (R374), and Thimble's step 1. A slot that fails after the verdict leads to a new choice, which runs on from there. -/
def execThimbleBodyVerdict (s : State) : Res :=
  .next (if s.sys.phase = .starting && s.fld R.TOP_STATUS.BOOT_CODE == 5 then
      if !s.bodyOk s.slot 1 (s.imgHdr s.slot 1) then s.excludeSlot (some 0x33)
      else
        let s1 := ((s.setBit R.SPOOL_STATUS.KEYS_OPEN).setFld R.SPOOL_TIME.VERDICT_US s.bootUs).bootCode 6
        let s2 := s1.loadKeys s1.slot s1.onf.floor
        if !s2.imgOk s2.slot 3 then s2.excludeSlot (some 0x36)
        else (({ s2 with spool := { s2.spool with ucode := true } }).bootCode 7).bootGoOn
    else s)

/-- BIST_COMPLETE (R379). -/
def execBistComplete (fails : Bool) (s : State) : Res :=
  .next (if s.sys.phase = .starting && !s.bit R.SPOOL_STATUS.BIST_DONE then
      (if fails then s.bootHalt 0x23 else (s.setBit R.SPOOL_STATUS.BIST_DONE).bootGoOn)
    else s)

/-- BOOT_WATCHDOG_EXPIRY (R380): UNGATE in the same cycle wins, so it must come first. -/
def execBootWatchdogExpiry (s : State) : Res :=
  .next (if s.sys.phase = .starting && !s.bit R.SPOOL_STATUS.UNGATED then s.bootHalt 0x26 else s)

/-! ### SPOOL_CTL (R375, R378, R381) -/

/-- A host port begins to train if it is on and rightly placed. -/
def State.portsTrain (s : State) : State :=
  (List.range 32).foldl (fun (s : State) n => if s.portOn false n && s.portPlaced false n then s.emit (.portTrain n) else s) s

/-- Outputs are ungated, unless the device is fenced (R265); a host port begins to train; the boot record names the image (R384). -/
def State.ungate (s : State) : State :=
  let fenced := s.role == 3
  let h := sha384 (s.imgHdr s.slot 1)
  let s1 := ((((s.setBit R.SPOOL_STATUS.UNGATED).setFld R.SPOOL_TIME.UNGATE_US s.bootUs).bootCode 0x3F).setFld R.TOP_STATUS.BOOT_DONE 1)
  let s2 : State := { s1 with
    sys := { s1.sys with phase := .running, gated := fenced, aliveOut := !fenced }
    spool := if s1.slot = 0 then { s1.spool with rec0 := h } else { s1.spool with rec1 := h } }
  if fenced then s2 else s2.portsTrain

/-- The failure codes that FAIL can name (Table 13-5). -/
def failCode (c : Nat) : Bool := (decide (0x20 ≤ c) && decide (c ≤ 0x29)) || c == 0x2E

/-- A write of SPOOL_CTL: it takes a Thimble engine. -/
def State.spoolWrite (s : State) (who : Agent) (d : W64) : State :=
  match who with
  | .bobbin e =>
    if e % 8 != 6 then s
    else if failCode (getBits d 8 6) then s.bootHalt (getBits d 8 6)
    else if getBit d 1 && s.sys.phase = .starting && !s.bit R.SPOOL_STATUS.UNGATED then s.excludeSlot none
    else if getBit d 0 && s.sys.phase = .starting && s.bit R.SPOOL_STATUS.KEYS_OPEN then s.ungate
    else s
  | _ => s

/-- SPOOL_UNGATE (R375). -/
def execSpoolUngate (who : Agent) (data : BitVec 64) (s : State) : Res :=
  .next (s.whenUp fun s => s.regTry who .write R.SPOOL_CTL.off fun s => s.spoolWrite who data)

/-- SPOOL_RETRY (R378). -/
def execSpoolRetry (who : Agent) (data : BitVec 64) (s : State) : Res :=
  .next (s.whenUp fun s => s.regTry who .write R.SPOOL_CTL.off fun s => s.spoolWrite who data)

/-- SPOOL_FAIL (R381). -/
def execSpoolFail (who : Agent) (data : BitVec 64) (s : State) : Res :=
  .next (s.whenUp fun s => s.regTry who .write R.SPOOL_CTL.off fun s => s.spoolWrite who data)

end Sys2Proof.Machine
end

