-- ==== Sys2Proof/Machine/Reset.lean ====
section
/-!
DEFINITION. Reset.lean: the reset domains and sources of 01_panels_tiles_clocks.md (R8, R22–R27, R230, R389, R403), the cold sequence, and the
CORECLK steps of R21. A warm reset is over, and the Spool loader at work, in the command that asked for it.
-/

namespace Sys2Proof.Machine

/-! ### What a warm reset leaves -/

/-- A register's value after a warm reset: COLD registers and RWS fields keep theirs (R8, R25). -/
def coldPart (off : Nat) (v : W64) : W64 :=
  match regFind off with
  | some (d, _) => (v &&& d.coldMask) ||| (regReset off &&& ~~~ d.coldMask)
  | none => v

/-- The control registers after a warm reset. In TAPE_STATUS the fields BANK and DRAINED are COLD (Table 07-13); the sideband pins are sampled by the
always-on logic throughout (R263), and a fenced device stays fenced (R265). -/
def State.regsReset (s : State) : State :=
  let s1 := s.regs.foldl (fun (t : State) e => t.setReg e.1 (coldPart e.1 e.2)) { s with regs := [] }
  let s2 := (s1.setFld R.TAPE_STATUS.BANK (s.fld R.TAPE_STATUS.BANK)).setFld R.TAPE_STATUS.DRAINED (s.fld R.TAPE_STATUS.DRAINED)
  let s3 := ((s2.setFld R.GALV_STATUS.FAULT_IN (s.fld R.GALV_STATUS.FAULT_IN)).setFld R.GALV_STATUS.FENCE_IN (s.fld R.GALV_STATUS.FENCE_IN)).setFld
    R.GALV_STATUS.ALIVE_OK (s.fld R.GALV_STATUS.ALIVE_OK)
  if s.bit R.GALV_STATUS.FENCE_IN then s3.setFld R.GALV_STATUS.ROLE 3 else s3

/-- The Onafaet state: the AON save area keeps sender keys' counters, the flash its ceilings (R45). -/
def OnfState.reset (o : OnfState) : OnfState :=
  { State.reset.onf with keys := o.keys, ceil0 := o.ceil0, ceil1 := o.ceil1, floor := o.floor, ceilPending := o.ceilPending }

/-- The Tape keeps its banks, RSEQ and BOOT_NONCE; the open span carries RESET, and HOLDOVER, since LOCKED is 0 until the servo locks again (R221,
R230). Records in the ring are not recovered. -/
def State.tapeReset (s : State) : State :=
  let s1 := s.tapeMark (TapeFlag.reset + TapeFlag.holdover)
  { s1 with tape := { s1.tape with draining := false, recs := [], ringUsed := 0, ringChanged := false, markers := [], waived := false } }

/-- A fuse burn under way is cut short: the pulse in progress completes (Table 13-9). -/
def State.burnCut (s : State) : State :=
  match s.spool.burn with
  | some (f, i, v) => { s.drawn with spool := { s.spool with fuse := s.spool.fuse.burnt f i v false s.freeCtr, burn := none } }
  | none => s

/-- Trained host ports drop their links. -/
def State.portsDown (s : State) : State := s.links.foldl (fun (t : State) e => if e.2.trained then t.emit (.portDown e.1) else t) s

/-- Everything a warm reset resets (R25). Host memory is the hosts'; DRAM and the SRAMs hold nothing afterwards. -/
def State.coreReset (s : State) : State :=
  let s1 := (((s.portsDown).burnCut).tapeReset).regsReset
  let z := State.reset
  { s1 with
    mem := [], onf := s1.onf.reset, qps := [], fns := [], qf := z.qf, shut := z.shut, safe := z.safe, selv := z.selv, galv := z.galv
    sys := { s1.sys with gated := true, aliveOut := false, fenceOut := false }
    tmu := { z.tmu with t00 := s1.tmu.t00 }
    engs := [], harts := [], spdm := [], gpio := z.gpio, links := [], imsic := [], aia := []
    spool := { s1.spool with loaded := false, ucode := false, images := false, pdata := [], fwTop := 0, recReset := false, cfgDigest := [] }
    pow := { z.pow with spares := s1.pow.spares, retired := s1.pow.retired, noTest := s1.pow.noTest }
    dmc := z.dmc }

/-- A warm reset ends: TWIN_FAULT_OUT goes low unless the device is fenced (Table 09-3), and the Spool loader starts. -/
def State.resetEnds (s : State) : State :=
  ({ s with sys := { s.sys with faultOut := s.sys.faultOut && s.role == 3 } }).loaderStart

/-! ### Warm reset -/

/-- The cause bit of a source (Table 01-3). -/
def causeFld : RstCause → Fld
  | .pin => R.TOP_RSTCAUSE.PIN
  | .soft => R.TOP_RSTCAUSE.SOFT
  | .wdog => R.TOP_RSTCAUSE.WDOG
  | .safe => R.TOP_RSTCAUSE.SAFE
  | .onafaet => R.TOP_RSTCAUSE.ONAFAET
  | .clock => R.TOP_RSTCAUSE.CLOCK

/-- A request for a warm reset. Its cause bit is set; before the Spool loader has started it is ignored, and one that meets a reset that is held
merges with it (R26). -/
def State.warmReset (s : State) (c : RstCause) : State :=
  match s.sys.phase with
  | .por => s
  | .cold | .rootLocked | .clockHold _ | .thermTrip => s.setBit (causeFld c)
  | .starting | .running | .halted _ => ((s.setBit (causeFld c)).coreReset).resetEnds

/-- WARM_RESET (R25). -/
def execWarmReset (cause : RstCause) (s : State) : Res := .next (s.warmReset cause)

/-- SYS_RST_PIN (R23): whether a pulse shorter than 1 µs is taken is a free value. -/
def execSysRstPin (lowNs : Nat) (s : State) : Res :=
  .next (if 1000 ≤ lowNs then s.warmReset .pin else if s.free % 2 = 1 then s.drawn.warmReset .pin else s.drawn)

/-- TOP_RESET_WARM (R23, Table 01-10). -/
def execTopResetWarm (who : Agent) (data : BitVec 64) (s : State) : Res :=
  .next (s.whenUp fun s => s.regTry who .write R.TOP_RESET.off fun s =>
    if getBit data 0 && getBits data 16 16 == 0xA5C3 then s.warmReset .soft else s)

/-! ### The cold sequence (R24) -/

/-- POWER_ON_RESET: POR_N rises. -/
def execPowerOnReset (s : State) : Res :=
  .next (if s.sys.phase = .por then { s with sys := { s.sys with phase := .cold } } else s)

/-- ROOTPLL_LOCK: in the cold sequence, and after a loss of clock. -/
def execRootpllLock (s : State) : Res :=
  .next (match s.sys.phase with
    | .cold => ({ s with sys := { s.sys with phase := .rootLocked } }).setBit R.TOP_CLKSTAT.ROOT_LOCK
    | .clockHold _ => { s with sys := { s.sys with phase := .clockHold true } }
    | _ => s)

/-- What a cold boot begins with (R45, R230): every stored counter stands at H, no critical packet is accepted until a ceiling above it is in both
slots, and the Tape starts from zero with a new BOOT_NONCE. -/
def State.coldStart (s : State) : State :=
  let h := max s.onf.ceil0 s.onf.ceil1
  let bank : TapeBank := { TapeBank.empty with first := s.minute, hdr := TapeFlag.coldStart + TapeFlag.holdover }
  { s.drawn with
    onf := { s.onf with keys := [], floor := h, ceilPending := some (h + ceilStep) }
    tape := { State.reset.tape with bank0 := bank, nonce := s.free % 2 ^ 32 } }

/-- WARM_RELEASE. -/
def execWarmRelease (s : State) : Res :=
  .next (if s.sys.phase = .rootLocked then s.coldStart.loaderStart else s)

/-- POR_N falls: everything is as power-on leaves it, but for the flash devices, the fuses, and hosts' memory. A fuse burn under way is cut
short. -/
def State.powerOff (s0 : State) : State :=
  let s := s0.burnCut
  let z := State.reset
  { z with
    pending := s.pending, freeCtr := s.freeCtr, out := s.out, hostMem := s.hostMem
    onf := { z.onf with ceil0 := s.onf.ceil0, ceil1 := s.onf.ceil1 }
    spool := { z.spool with flash := s.spool.flash, rec0 := s.spool.rec0, rec1 := s.spool.rec1, store := s.spool.store, fuse := s.spool.fuse } }

/-- POR_N_FALL (R468). -/
def execPorNFall (s : State) : Res := .next s.portsDown.powerOff

/-- THERMTRIP (R466): outputs gated, held in warm reset until the supplies are removed. -/
def execThermtrip (s : State) : Res :=
  .next (if s.sys.phase = .por then s
    else
      let s1 := s.coreReset
      { s1 with sys := { s1.sys with phase := .thermTrip, faultOut := true } })

/-! ### Clocks (R21, R22) -/

/-- CORE_STEP of a panel. -/
def coreStep (p : Nat) : Fld := ⟨R.TOP_CLKSTAT.off, 16 + 4 * p, 4⟩

/-- TOP_STATUS.THROTTLE of a panel. -/
def throttleBit (p : Nat) : Fld := ⟨R.TOP_STATUS.off, 8 + p, 1⟩

/-- CORECLK_STEP_DOWN: down to the floor of eight steps. -/
def execCoreclkStepDown (p : Nat) (s : State) : Res :=
  .next (s.whenUp fun s =>
    if p < 4 && decide (s.fld (coreStep p) < 8) then
      ((s.setFld (coreStep p) (s.fld (coreStep p) + 1)).setBit (throttleBit p)).topEvt R.TOP_STATUS.THROTTLE_EVT
    else s)

/-- CORECLK_STEP_UP: a panel at 3.2 GHz again throttles no more. -/
def execCoreclkStepUp (p : Nat) (s : State) : Res :=
  .next (s.whenUp fun s =>
    if p < 4 && decide (0 < s.fld (coreStep p)) then
      let n := s.fld (coreStep p) - 1
      (s.setFld (coreStep p) n).setFld (throttleBit p) (b2n (decide (0 < n)))
    else s)

/-- The lock bit of a PLL. -/
def pllFld : Pll → Fld
  | .eth => R.TOP_CLKSTAT.ETH_LOCK
  | .ddr c => ⟨R.TOP_CLKSTAT.off, 4 + c % 8, 1⟩

/-- PLL_LOCK_LOSS: the fault that the safety monitors then detect is a command of its own (mechanism 8). -/
def execPllLockLoss (pll : Pll) (s : State) : Res :=
  .next (s.whenUp fun s => (s.clrBit (pllFld pll)).topEvt R.TOP_STATUS.CLK_EVT)

/-- PLL_LOCK_REGAIN. -/
def execPllLockRegain (pll : Pll) (s : State) : Res :=
  .next (s.whenUp fun s => (s.setBit (pllFld pll)).topEvt R.TOP_STATUS.CLK_EVT)

/-- Write SAFE_REC0 and SAFE_REC1 while no record is held (Table 08-12). -/
def State.safeCapture (s : State) (mech cls panel tile unit detail : Nat) : State :=
  if s.bit R.SAFE_REC0.VALID then s
  else
    let v := mech % 16 + cls % 8 * 16 + 128 + panel % 4 * 256 + tile % 16 * 1024 + unit % 65536 * 65536 + detail % 2 ^ 32 * 2 ^ 32
    (s.setReg R.SAFE_REC0.off (BitVec.ofNat 64 v)).setReg R.SAFE_REC1.off (BitVec.ofNat 64 s.now)

/-- A dangerous fault is recorded (R250). -/
def State.safeRecord (s : State) (mech cls panel tile unit detail : Nat) : State :=
  let s1 := ((s.bump R.SAFE_STATUS.DF_COUNT 1).setFld R.SAFE_STATUS.LAST_CLASS cls).safeCapture mech cls panel tile unit detail
  let s2 := if mech = 10 then s1.setBit R.SAFE_STATUS.WDOG_EVT else s1
  s2.safeEvt R.SAFE_STATUS.DF_EVT

/-- The loss of REFCLK_100 or of ROOTPLL's lock: backup oscillator, TWIN_FAULT_OUT, and a warm reset that is held (R22). It is a class 5 fault of the
always-on logic. -/
def State.clockLoss (s : State) : State :=
  let s0 : State := { s with sys := { s.sys with aonBackup := true } }
  match s.sys.phase with
  | .por | .thermTrip => s
  | .cold => s0
  | .rootLocked => { s0 with sys := { s0.sys with phase := .cold } }
  | _ =>
    let s1 := (((s0.safeRecord 8 5 0 9 0 0).setBit R.TOP_RSTCAUSE.CLOCK).coreReset)
    { s1 with sys := { s1.sys with phase := .clockHold false, faultOut := true } }

/-- REFCLK_LOSS (R22): `refLost` tells the loss of REFCLK_100 from that of lock; both act alike. -/
def execRefclkLoss (_refLost : Bool) (s : State) : Res := .next s.clockLoss

/-- ROOTPLL_RELOCK_HOLD_END (R22). -/
def execRootpllRelockHoldEnd (s : State) : Res :=
  .next (match s.sys.phase with
    | .clockHold _ =>
      let s1 : State := { s with sys := { s.sys with aonBackup := false } }
      s1.resetEnds
    | _ => s)

/-! ### PERST# (R27) -/

/-- PERST_ASSERT: a function-level reset of the port's PF and of every VF on it; the port trains again unless it is gated. -/
def execPerstAssert (n : Nat) (s : State) : Res :=
  .next (s.whenUp fun s =>
    if s.portOn false n then
      let s1 := s.flrMany (s.portFns n)
      let s2 := (s1.linkDrop n).emit (.portDown n)
      if s2.sys.gated || !s2.portPlaced false n then s2 else s2.emit (.portTrain n)
    else s)

end Sys2Proof.Machine
end

