-- ==== Sys2Proof/Machine/Firmware.lean ====
section
/-!
DEFINITION. Firmware.lean: fuse burns (R383), the writing and activating of images (R385), recovery (R386).
-/

namespace Sys2Proof.Machine

/-! ### FUSE_PROG (R383) -/

/-- A Thimble engine. -/
def isThimble : Agent → Bool
  | .bobbin e => decide (e < 32) && e % 8 == 6
  | _ => false

/-- FUSE_PDATA word i. -/
def State.pdataWord (s : State) (i : Nat) : W64 := smGet 0 s.spool.pdata i

/-- The words that a burn takes. -/
def State.burnWords (s : State) : List W64 := (List.range 6).map s.pdataWord

/-- The value of a burn would clear a burnt cell, lower a counter, or name a key slot that is taken or Haique's own. -/
def State.burnClears (s : State) (field idx : Nat) : Bool :=
  let x := s.spool.fuse
  let v := (s.pdataWord 0).toNat
  match field with
  | 1 => decide (idx < 2) || (x.hash idx).isSome
  | 2 => v % 16 &&& x.revoked != x.revoked
  | 3 => decide (v % 128 < x.svnOfT)
  | 4 => decide (v % 128 < x.svnOfP)
  | _ => false

/-- How FUSE_PROG judges a GO: 0, or the code that refuses it. The supply is the board's; whether it stands is a free value. -/
def State.burnJudge (s : State) (who : Agent) (field idx : Nat) : Nat :=
  if field = 0 || decide (6 < field) then E.PARAM
  else if (field == 2 || field == 3 || field == 4 || field == 6) && !isThimble who then E.PRIVILEGE
  else if (field == 1 || field == 5) && !s.bit R.SPOOL_STATUS.UNGATED then E.LOCKED
  else if (field == 3 || field == 4) && decide (64 < (s.pdataWord 0).toNat % 128) then E.PARAM
  else if s.burnClears field idx then E.LOCKED
  else if !Config.vppOk s.freeCtr then E.POWER_STATE
  else 0

/-- A write of FUSE_PROG. Before the Thimble body has been verified every write is refused (R374); a write while a burn runs has no effect. -/
def State.fuseProgWrite (s : State) (who : Agent) (data : W64) : State :=
  if !s.bit R.SPOOL_STATUS.KEYS_OPEN then s.setFld R.FUSE_PROG.STATUS E.LOCKED
  else if s.bit R.FUSE_PROG.BUSY then s
  else
    let f := getBits data 0 4
    let i := getBits data 4 2
    let s1 := (s.setFld R.FUSE_PROG.FIELD f).setFld R.FUSE_PROG.INDEX i
    if !getBit data 6 then s1
    else
      let c := s1.burnJudge who f i
      let s2 := s1.drawn
      if c = 0 then
        { (s2.setBit R.FUSE_PROG.GO).setBit R.FUSE_PROG.BUSY with spool := { s2.spool with burn := some (f, i, s2.burnWords) } }
      else s2.setFld R.FUSE_PROG.STATUS c

/-- A write of FUSE_PROG that starts a burn of a field. -/
def State.fuseGo (s : State) (who : Agent) (data : W64) (field : Nat) : State :=
  s.whenUp fun s => s.regTry who .write R.FUSE_PROG.off fun s => s.fuseProgWrite who (setBits (setBits data 0 4 field) 6 1 1)

/-- FUSE_BURN_KEYHASH. -/
def execFuseBurnKeyhash (who : Agent) (data : BitVec 64) (s : State) : Res := .next (s.fuseGo who data 1)
/-- FUSE_BURN_REVOKE. -/
def execFuseBurnRevoke (who : Agent) (data : BitVec 64) (s : State) : Res := .next (s.fuseGo who data 2)
/-- FUSE_BURN_SVN_T. -/
def execFuseBurnSvnT (who : Agent) (data : BitVec 64) (s : State) : Res := .next (s.fuseGo who data 3)
/-- FUSE_BURN_SVN_P. -/
def execFuseBurnSvnP (who : Agent) (data : BitVec 64) (s : State) : Res := .next (s.fuseGo who data 4)
/-- FUSE_BURN_DEBUG_POLICY. -/
def execFuseBurnDebugPolicy (who : Agent) (data : BitVec 64) (s : State) : Res := .next (s.fuseGo who data 5)
/-- FUSE_BURN_FACTORY_KEY_OFF. -/
def execFuseBurnFactoryKeyOff (who : Agent) (data : BitVec 64) (s : State) : Res := .next (s.fuseGo who data 6)

/-- FUSE_BURN_COMPLETE: every cell took, or some are still unburnt after the fourth pulse (E_BIST); which ones is free. -/
def execFuseBurnComplete (took : Bool) (s : State) : Res :=
  .next (s.whenUp fun s =>
    match s.spool.burn with
    | none => s
    | some (f, i, v) =>
      let s1 : State := { s.drawn with spool := { s.spool with fuse := s.spool.fuse.burnt f i v took s.freeCtr, burn := none } }
      (((s1.clrBit R.FUSE_PROG.BUSY).clrBit R.FUSE_PROG.GO).setFld R.FUSE_PROG.STATUS (if took then 0 else E.BIST)).debugSync)

/-! ### FW_WRITE (R385) -/

/-- The slot that is not running. -/
def State.otherSlot (s : State) : Nat := 1 - s.slot

/-- A flash write that the device does not confirm leaves free bytes. -/
def State.flashPut (s : State) (slot off : Nat) (b : List Byte) (ok : Bool) : State :=
  if ok then s.flashWrite slot off b else s.drawn.flashWrite slot off (s.freeBytes b.length)

/-- A range lies in a slot and outside its Thimble data area. -/
def imgRange (slot off n : Nat) : Bool := decide (off + n ≤ flashCap slot) && (decide (off + n ≤ dataAreaLo) || decide (dataAreaHi ≤ off))

/-- FW_WRITE_IMAGE: bytes 0–3 of the Thimble header are never written; a write into that header leaves them erased. -/
def execFwWriteImage (r : OnfReq) (off : Nat) (data : List (BitVec 8)) (flashOk : Bool) (s : State) : Res :=
  .next (s.command r 0x0601 fun s =>
    let k := s.otherSlot
    if !imgRange k off data.length || data.isEmpty then s.reply r 0x0601 E.PARAM []
    else
      let s1 := s.flashPut k off data flashOk
      let s2 := if off < 8192 then s1.flashWrite k 0 (List.replicate 4 0xFF) else s1
      s2.reply r 0x0601 (if flashOk then 0 else E.FLASH) [])

/-- The configuration block of entries: header, entries, CHECK and HMAC (R71, R318). -/
def cfgBytes (ents : List (Nat × W64)) : List Byte :=
  let h := leBytes 4 0x42435653 ++ leBytes 2 1 ++ zeros 2 ++ leBytes 4 ents.length ++ zeros 4
  let b := h ++ ents.flatMap fun e => leBytes 4 e.1 ++ zeros 4 ++ leBytes 8 e.2.toNat
  let c := b ++ leBytes 4 (crc32c b)
  c ++ hmacSha256 configKey c

/-- FW_WRITE_CONFIG: both slots, the inactive one first. -/
def execFwWriteConfig (r : OnfReq) (ents : List (Nat × BitVec 64)) (flashOk : Bool) (s : State) : Res :=
  .next (s.command r 0x0601 fun s =>
    if ents.isEmpty || decide (65000 < ents.length) then s.reply r 0x0601 E.PARAM []
    else
      let b := cfgBytes ents
      let s1 := s.flashPut s.otherSlot (cfgBase s.otherSlot) b flashOk
      if flashOk then (s1.flashWrite s.slot (cfgBase s.slot) b).reply r 0x0601 0 [] else s1.reply r 0x0601 E.FLASH [])

/-! ### FW_ACTIVATE (R385) -/

/-- MAGIC of an image header. -/
def imgMagic : Nat := 0x4C4F5053

/-- The code that a failed header check gives. -/
def reasonCode (r : Nat) : Nat :=
  if r = 0x30 then E.IMAGE_FORMAT else if r = 0x34 then E.SVN else if r = 0x35 then E.KEY_REVOKED else E.SIG

/-- The code that an image of a slot fails with under R371, 0 if it is valid; the Thimble header's MAGIC is as given. -/
def State.imgCode (s : State) (slot kind magic : Nat) : Nat :=
  let h := s.imgHdr slot kind
  match s.hdrReason kind magic h with
  | some r => reasonCode r
  | none => if s.bodyOk slot kind h then 0 else E.SIG

/-- All four images of the inactive slot, as if its MAGIC stood. -/
def State.slotCode (s : State) (slot : Nat) : Nat :=
  let cs := [s.imgCode slot 1 imgMagic, s.imgCode slot 3 (leAt (s.imgHdr slot 3) 0 4), s.imgCode slot 4 (leAt (s.imgHdr slot 4) 0 4),
    s.imgCode slot 2 (leAt (s.imgHdr slot 2) 0 4)]
  (cs.find? (· != 0)).getD 0

/-- The inactive slot's Thimble data area takes the current ceiling and every wrapped sender key, and loses its boot record. -/
def State.dataAreaCopy (s : State) : State :=
  let k := s.otherSlot
  let own := (s.spool.store.filter fun e => e.1 / 64 == s.slot).map fun e => (64 * k + e.1 % 64, e.2)
  let keep := s.spool.store.filter fun e => e.1 / 64 != k
  let c := if s.slot = 0 then s.onf.ceil0 else s.onf.ceil1
  { s with
    onf := if k = 0 then { s.onf with ceil0 := c } else { s.onf with ceil1 := c }
    spool := { s.spool with
      store := own.foldl (fun (m : SMap (List Byte)) e => smIns m e.1 e.2) keep
      rec0 := if k = 0 then [] else s.spool.rec0
      rec1 := if k = 1 then [] else s.spool.rec1 } }

/-- FW_ACTIVATE_SLOT. -/
def execFwActivateSlot (r : OnfReq) (flashOk : Bool) (s : State) : Res :=
  .next (s.command r 0x0602 fun s =>
    let k := s.otherSlot
    if flashCap k = 0 then s.reply r 0x0602 E.FLASH []
    else
      let c := s.slotCode k
      if c ≠ 0 then s.reply r 0x0602 c []
      else if !flashOk then s.reply r 0x0602 E.FLASH []
      else ((s.dataAreaCopy).flashWrite k 0 (leBytes 4 imgMagic)).reply r 0x0602 0 [])

/-- FW_ACTIVATE_WITHDRAW. -/
def execFwActivateWithdraw (r : OnfReq) (flashOk : Bool) (s : State) : Res :=
  .next (s.command r 0x0602 fun s =>
    (s.flashPut s.otherSlot 0 (List.replicate 8192 0xFF) flashOk).reply r 0x0602 (if flashOk then 0 else E.FLASH) [])

/-! ### RECOVERY (R386) -/

/-- RECOVERY: outside recovery it is refused. -/
def execRecovery (r : OnfReq) (slot off : Nat) (data : List (BitVec 8)) (flashOk : Bool) (s : State) : Res :=
  .next (s.command r 0x0603 fun s =>
    if !s.recovering || decide (1 < slot) then s.reply r 0x0603 E.PARAM []
    else if flashCap slot = 0 then s.reply r 0x0603 E.FLASH []
    else if flashCap slot < off + data.length then s.reply r 0x0603 E.PARAM []
    else
      let s1 := s.flashPut slot off data flashOk
      if !flashOk then s1.reply r 0x0603 E.FLASH []
      else
        let c := s1.imgCode slot 1 (leAt (s1.imgHdr slot 1) 0 4)
        if c ≠ 0 then s1.reply r 0x0603 c []
        else ({ s1 with spool := { s1.spool with recReset := true } }).reply r 0x0603 0 [])

/-- RECOVERY_RESET_DELAY. -/
def execRecoveryResetDelay (s : State) : Res :=
  .next (if s.spool.recReset then s.warmReset .onafaet else s)

end Sys2Proof.Machine
end

