-- ==== Sys2Proof/Machine/Attest.lean ====
section
/-!
DEFINITION. Attest.lean: sender keys (R319), debug enables (R312–R315), ATTEST (R56), the SPDM responder and IDE streams (R320, R321), and
the worlds of harts and GPIO pins (R300, R309).
-/

namespace Sys2Proof.Machine

/-! ### Worlds -/

/-- MWORLD_WRITE (R300): M-mode of a claimed hart. -/
def execMworldWrite (h : Nat) (mode : Priv) (data : BitVec 64) (s : State) : Res :=
  .next (s.whenUp fun s => s.mCsr h mode fun s =>
    if (s.reg R.PWR_CLAIM_HART.off).getLsbD h then s.setHart h { s.hart h with world := getBit data 0 } else s)

/-- A write of SEAM_GPIOW: a pin that changes its world becomes an input with its interrupt off (R309). -/
def State.gpiowWrite (s : State) (data : W64) : State :=
  let new := getBits data 0 48
  let keep := (2 ^ 48 - 1) ^^^ (s.fld R.SEAM_GPIOW.LINING ^^^ new)
  { s.setFld R.SEAM_GPIOW.LINING new with gpio := { s.gpio with outEn := s.gpio.outEn &&& keep, irqEn := s.gpio.irqEn &&& keep } }

/-- GPIO_WORLD_WRITE. -/
def execGpioWorldWrite (who : Agent) (data : BitVec 64) (s : State) : Res :=
  .next (s.whenUp fun s => s.regTry who .write R.SEAM_GPIOW.off fun s => s.gpiowWrite data)

/-! ### KEY_SENDER (R319) -/

/-- The stored entry of a key slot in a boot slot's data area. -/
def storedEntry (k : SenderKey) : List Byte := leBytes 2 k.perms ++ leBytes 4 k.sender ++ keyWrap wrapKey k.key

/-- A stored entry is written or, with none, removed, in one boot slot. -/
def State.storePut (s : State) (slot k : Nat) (e : Option (List Byte)) : State :=
  { s with spool := { s.spool with store := match e with
      | some b => smIns s.spool.store (64 * slot + k) b
      | none => smDel s.spool.store (64 * slot + k) } }

/-- The change of a key slot is written to both boot slots, the inactive one first, and with both done takes effect; else E_FLASH. -/
def State.keyStore (s : State) (r : OnfReq) (k : Nat) (e : Option (List Byte)) (okI okA : Bool) (effect : State → State) : State :=
  if !okI then s.reply r 0x0901 E.FLASH []
  else
    let s1 := s.storePut s.otherSlot k e
    if !okA then s1.reply r 0x0901 E.FLASH [] else (effect (s1.storePut s1.slot k e)).reply r 0x0901 0 []

/-- A sender key slot takes a value. -/
def State.setKey (s : State) (k : Nat) (x : SenderKey) : State :=
  { s with onf := { s.onf with keys := smPut SenderKey.none s.onf.keys k x } }

/-- KEY_SENDER_INSTALL. -/
def execKeySenderInstall (r : OnfReq) (slot perm sender : Nat) (wrapped : List (BitVec 8)) (okInactive okActive : Bool) (s : State) : Res :=
  .next (s.command r 0x0901 fun s =>
    if slot = 0 || decide (63 < slot) || decide (63 < perm) || decide (2 ^ 32 ≤ sender) then s.reply r 0x0901 E.PARAM []
    else match s.keyOf r.sender with
      | none => s.reply r 0x0901 E.SENDER []
      | some own =>
        match keyUnwrap own.2.key wrapped with
        | none => s.reply r 0x0901 E.PARAM []
        | some key =>
          let x : SenderKey := { sender := sender, key := key, perms := perm, revoked := false, ctr := s.startCtr slot sender s.onf.floor }
          s.keyStore r slot (some (storedEntry x)) okInactive okActive fun s => s.setKey slot x)

/-- Some key but that of a slot holds the KEYS permission. -/
def State.keysLeft (s : State) (slot : Nat) : Bool := s.onf.keys.any fun e => e.1 != slot && !e.2.revoked && e.2.perms.testBit 0

/-- The factory key is retired: its fuse is burnt (R319). -/
def State.factoryRetire (s : State) (r : OnfReq) (k : SenderKey) : State :=
  if s.bit R.FUSE_PROG.BUSY then s.reply r 0x0901 E.BUSY []
  else if !Config.vppOk s.freeCtr then s.drawn.reply r 0x0901 E.POWER_STATE []
  else
    let s1 := ((s.drawn.setFld R.FUSE_PROG.FIELD 6).setBit R.FUSE_PROG.GO).setBit R.FUSE_PROG.BUSY
    (({ s1 with spool := { s1.spool with burn := some (6, 0, []) } }).setKey 0 { k with revoked := true }).reply r 0x0901 0 []

/-- KEY_SENDER_REVOKE. -/
def execKeySenderRevoke (r : OnfReq) (slot : Nat) (okInactive okActive : Bool) (s : State) : Res :=
  .next (s.command r 0x0901 fun s =>
    match (s.onf.keys.find? fun e => e.1 == slot && !e.2.revoked) with
    | none => s.reply r 0x0901 E.PARAM []
    | some e =>
      if !s.keysLeft slot then s.reply r 0x0901 E.PARAM []
      else if slot = 0 then s.factoryRetire r e.2
      else s.keyStore r slot none okInactive okActive fun s => s.setKey slot { e.2 with revoked := true })

/-! ### DEBUG_UNLOCK (R314) -/

/-- The open enables become `m`: each change is an event, to the BMC channel in any case. -/
def State.debugSet (s : State) (m : Nat) : State :=
  if s.fld R.SEAM_DEBUG.OPEN = m then s
  else
    let s1 := s.setFld R.SEAM_DEBUG.OPEN m
    s1.evtOnAll 9 (s1.evtValue 9) 0 ((s1.subscribers 9).filter (· != 33) ++ [33])

/-- DEBUG_UNLOCK_OPEN: a policy of 0b10 acts as 0b11. -/
def execDebugUnlockOpen (r : OnfReq) (mask : Nat) (serial : BitVec 64) (s : State) : Res :=
  .next (s.command r 0x0903 fun s =>
    if serial ≠ Config.serial || decide (15 < mask) then s.reply r 0x0903 E.PARAM []
    else if (List.range 4).any fun i => mask.testBit i && decide (2 ≤ s.dbgPolicy i) then s.reply r 0x0903 E.LOCKED []
    else (s.debugSet (debugImplied (s.fld R.SEAM_DEBUG.OPEN ||| mask))).reply r 0x0903 0 [])

/-- DEBUG_UNLOCK_CLOSE. -/
def execDebugUnlockClose (r : OnfReq) (mask : Nat) (serial : BitVec 64) (s : State) : Res :=
  .next (s.command r 0x0903 fun s =>
    if serial ≠ Config.serial || decide (15 < mask) then s.reply r 0x0903 E.PARAM []
    else
      let o := s.fld R.SEAM_DEBUG.OPEN
      (s.debugSet (debugImplied (o &&& (15 ^^^ mask)))).reply r 0x0903 0 [])

/-- An invasive enable is open: 0 for the Lining, 2 for the Shell. -/
def State.debugOpen (s : State) (i : Nat) : Bool := (s.fld R.SEAM_DEBUG.OPEN).testBit i

/-- HALT_REQUEST (R312): a claimed hart, a Thimble engine and a service engine need LI, the others SI. -/
def execHaltRequest (t : Agent) (s : State) : Res :=
  .next (s.whenUp fun s =>
    match t with
    | .hart h =>
      let i := if (s.reg R.PWR_CLAIM_HART.off).getLsbD h then 0 else 2
      if h < 64 && s.debugOpen i && (s.hart h).released then s.setHart h { s.hart h with debug := true, wfi := false } else s
    | .bobbin e =>
      let x := s.eng e
      if e < 32 && s.debugOpen (if engPriv e then 0 else 2) && (x.st == .running || x.st == .waiting) then
        s.setEng e { x with st := .stopped, stopReq := false }
      else s
    | _ => s)

/-! ### Measurements (R56, Table 10-8) -/

/-- Measurement k. Item 5 is a free digest when the factory defaults are in force. -/
def State.measurement (s : State) (k : Nat) : List Byte :=
  let w (v : W64) : List Byte := leBytes 8 v.toNat
  let dbg := s.reg R.SEAM_DEBUG.off
  if k = 1 then sha384 (s.imgHdr s.slot 1)
  else if k = 2 then sha384 (s.imgHdr s.slot 2)
  else if k = 3 then sha384 (s.imgHdr s.slot 3)
  else if k = 4 then sha384 (s.imgHdr s.slot 4)
  else if k = 5 then (if s.spool.cfgDigest.isEmpty then (List.range 48).map fun i => Config.freeByte s.freeCtr (8192 + i) else s.spool.cfgDigest)
  else if k = 6 then sha384 (w s.fuseWord ++ w (setBits dbg 8 4 0))
  else sha384 (w dbg)

/-- The bytes that ATTEST signs. -/
def State.report (s : State) (nonce : List Byte) : List Byte :=
  let g := s.spool.keygen
  (nonce.take 32) ++ leBytes 8 Config.serial.toNat ++ leBytes 1 g ++ zeros 7 ++ ((List.range 7).flatMap fun i => s.measurement (i + 1)) ++
    leBytes 8 s.now ++ leBytes 4 s.epoch ++ zeros 4 ++ (List.range 2048).map (Config.attestPub g)

/-- ATTEST (R56): both signatures are free. -/
def execAttest (r : OnfReq) (nonce : List (BitVec 8)) (certs : Nat) (s : State) : Res :=
  .next (s.command r 0x0902 fun s =>
    if 1 < certs || nonce.length != 32 then s.reply r 0x0902 E.PARAM []
    else
      let c := Config.attestCerts s.spool.keygen
      let rep := s.report nonce ++ s.freeBytes 3405 ++ zeros 3
      s.drawn.reply r 0x0902 0 (rep ++ if certs = 1 then leBytes 4 c.length ++ c else []))

/-! ### SPDM (R320): request and response codes of SPDM 1.2 -/

/-- A port's responder, and the same with a new value. -/
def State.spdmOf (s : State) (n : Nat) : SpdmState := smGet SpdmState.reset s.spdm n
def State.setSpdm (s : State) (n : Nat) (x : SpdmState) : State := { s with spdm := smPut SpdmState.reset s.spdm n x }

/-- A response on a port's DOE mailbox. -/
def State.spdmSend (s : State) (n code : Nat) (b : List Byte) : State := s.emit (.spdm n code b)

/-- An ERROR response with its error code: 1 InvalidRequest, 2 InvalidSession, 4 UnexpectedRequest, 6 DecryptError. -/
def State.spdmErr (s : State) (n code : Nat) : State := s.spdmSend n 0x7F [BitVec.ofNat 8 code, 0]

/-- A request on the DOE mailbox of a port's PF, the connection negotiated at least to level `lvl`. -/
def State.spdmReq (s : State) (n lvl : Nat) (f : State → State) : State :=
  s.whenFn (0x1000 + n) fun s =>
    if n < 32 && s.portOn false n && (s.link n).trained then (if (s.spdmOf n).conn < lvl then s.spdmErr n 4 else f s) else s

/-- GET_VERSION: version 1.2; the connection starts anew and its sessions end. -/
def execGetVersion (n : Nat) (s : State) : Res :=
  .next (s.spdmReq n 0 fun s => (s.setSpdm n { s.spdmOf n with conn := 1, sess := [] }).spdmSend n 0x04 [0, 1, 0, 0x12])

/-- CAPABILITIES flags: CERT, CHAL, MEAS with signature, ENCRYPT, MAC, KEY_EX, HBEAT, KEY_UPD. -/
def spdmCaps : Nat := 2 + 4 + 16 + 64 + 128 + 512 + 8192 + 16384

/-- GET_CAPABILITIES. -/
def execGetCapabilities (n : Nat) (s : State) : Res :=
  .next (s.spdmReq n 1 fun s => (s.setSpdm n { s.spdmOf n with conn := max 2 (s.spdmOf n).conn }).spdmSend n 0x61 (leBytes 4 spdmCaps))

/-- NEGOTIATE_ALGORITHMS: `algOk` says that the requester offers ECDSA P-384, SHA-384, secp384r1 and AES-256-GCM. -/
def execNegotiateAlgorithms (n : Nat) (algOk : Bool) (s : State) : Res :=
  .next (s.spdmReq n 2 fun s =>
    if algOk then (s.setSpdm n { s.spdmOf n with conn := 3 }).spdmSend n 0x63 (leBytes 4 0x80 ++ leBytes 4 2 ++ leBytes 2 0x10 ++ leBytes 2 2)
    else s.spdmErr n 1)

/-- GET_DIGESTS: certificate slot 0. -/
def execGetDigests (n : Nat) (s : State) : Res :=
  .next (s.spdmReq n 3 fun s => s.spdmSend n 0x01 (1 :: sha384 (Config.spdmChain s.spool.keygen)))

/-- GET_CERTIFICATE. -/
def execGetCertificate (n slot off len : Nat) (s : State) : Res :=
  .next (s.spdmReq n 3 fun s =>
    let c := Config.spdmChain s.spool.keygen
    if slot ≠ 0 || decide (c.length ≤ off) then s.spdmErr n 1
    else
      let b := (c.drop off).take len
      s.spdmSend n 0x02 (leBytes 2 b.length ++ leBytes 2 (c.length - off - b.length) ++ b))

/-- CHALLENGE: Thimble's nonce and signature are free. -/
def execChallenge (n slot : Nat) (nonce : List (BitVec 8)) (s : State) : Res :=
  .next (s.spdmReq n 3 fun s =>
    if slot ≠ 0 || nonce.length != 32 then s.spdmErr n 1
    else s.drawn.spdmSend n 0x03 (sha384 (Config.spdmChain s.spool.keygen) ++ s.freeBytes 128))

/-- Measurements that an operation names: 0 their number, 1–7 one, 0xFF all. -/
def State.measured (s : State) (op : Nat) : Option (List Byte) :=
  if op = 0 then some []
  else if op = 0xFF then some ((List.range 7).flatMap fun i => leBytes 1 (i + 1) ++ s.measurement (i + 1))
  else if op ≤ 7 then some (leBytes 1 op ++ s.measurement op)
  else none

/-- GET_MEASUREMENTS. -/
def execGetMeasurements (n op : Nat) (sign : Bool) (_nonce : List (BitVec 8)) (s : State) : Res :=
  .next (s.spdmReq n 3 fun s =>
    match s.measured op with
    | none => s.spdmErr n 1
    | some b =>
      let c := if op = 0 then 7 else b.length / 49
      s.drawn.spdmSend n 0x60 (leBytes 1 c ++ b ++ if sign then s.freeBytes 128 else []))

/-- KEY_EXCHANGE: a session with a new ID begins its handshake. -/
def execKeyExchange (n : Nat) (peerPub : List (BitVec 8)) (s : State) : Res :=
  .next (s.spdmReq n 3 fun s =>
    let x := s.spdmOf n
    if peerPub.length != 96 then s.spdmErr n 1
    else ((s.setSpdm n { x with sess := smIns x.sess x.nextSid 1, nextSid := x.nextSid + 1 }).drawn).spdmSend n 0x64
        (leBytes 2 x.nextSid ++ s.freeBytes 224))

/-- FINISH: the session is established, or with a wrong HMAC ends. -/
def execFinish (n sid : Nat) (macOk : Bool) (s : State) : Res :=
  .next (s.spdmReq n 3 fun s =>
    let x := s.spdmOf n
    if smGet 0 x.sess sid ≠ 1 then s.spdmErr n 4
    else if macOk then (s.setSpdm n { x with sess := smIns x.sess sid 2 }).spdmSend n 0x65 []
    else (s.setSpdm n { x with sess := smDel x.sess sid }).spdmErr n 6)

/-- A request inside an established session. -/
def State.spdmIn (s : State) (n sid : Nat) (f : State → State) : State :=
  s.spdmReq n 3 fun s => if smGet 0 (s.spdmOf n).sess sid = 2 then f s else s.spdmErr n 2

/-- KEY_UPDATE: operation 1 updates one key, 2 both, 3 verifies. -/
def execKeyUpdate (n sid op : Nat) (s : State) : Res :=
  .next (s.spdmIn n sid fun s => if 1 ≤ op ∧ op ≤ 3 then s.spdmSend n 0x69 (leBytes 1 op) else s.spdmErr n 1)

/-- SPDM_HEARTBEAT. -/
def execSpdmHeartbeat (n sid : Nat) (s : State) : Res := .next (s.spdmIn n sid fun s => s.spdmSend n 0x68 [])

/-- END_SESSION. -/
def execEndSession (n sid : Nat) (s : State) : Res :=
  .next (s.spdmIn n sid fun s => (s.setSpdm n { s.spdmOf n with sess := smDel (s.spdmOf n).sess sid }).spdmSend n 0x6C [])

/-! ### IDE (R321) -/

/-- The state of a selective stream: 0 no keys, 1 keys programmed, 2 secure, 3 Insecure. -/
def State.ideOf (s : State) (n k : Nat) : Nat := smGet 0 (s.spdmOf n).ide k
def State.setIde (s : State) (n k v : Nat) : State := s.setSpdm n { s.spdmOf n with ide := smPut 0 (s.spdmOf n).ide k v }

/-- An IDE_KM object of the device, in a vendor-defined response. -/
def State.ideAck (s : State) (n obj k status : Nat) : State :=
  s.spdmSend n 0x7E [BitVec.ofNat 8 obj, BitVec.ofNat 8 k, BitVec.ofNat 8 status]

/-- IDE_KM: KP_ACK carries status 1 for a wrong key length and 3 for an unsupported stream. -/
def execIdeKm (n sid stream : Nat) (op : IdeOp) (key : List (BitVec 8)) (s : State) : Res :=
  .next (s.spdmIn n sid fun s =>
    match op with
    | .query => s.spdmSend n 0x7E (1 :: (List.range 4).map fun k => BitVec.ofNat 8 (s.ideOf n k))
    | .keyProg =>
      if 4 ≤ stream then s.ideAck n 3 stream 3
      else if key.length != 32 then s.ideAck n 3 stream 1
      else (s.setIde n stream 1).ideAck n 3 stream 0
    | .setGo => if stream < 4 && decide (1 ≤ s.ideOf n stream) then (s.setIde n stream 2).ideAck n 6 stream 0 else s.ideAck n 6 stream 3
    | .setStop => if stream < 4 && s.ideOf n stream == 2 then (s.setIde n stream 3).ideAck n 6 stream 0 else s.ideAck n 6 stream 3)

/-- IDE_INTEGRITY_FAILURE: the stream becomes Insecure; a transfer whose read completion was lost ends as by a timeout. -/
def execIdeIntegrityFailure (n stream : Nat) (tag : Option Nat) (s : State) : Res :=
  .next (s.whenUp fun s =>
    if n < 32 && decide (stream < 4) && s.ideOf n stream == 2 then
      let s1 := s.setIde n stream 3
      match tag with
      | some t => s1.cplTimeout t
      | none => s1
    else s)

end Sys2Proof.Machine
end

