-- ==== Sys2Proof/Machine/Baste.lean ====
section
/-!
DEFINITION. Baste.lean: the commands of a baste session (R59–R70) and the commands of functions and queue pairs (R79, R82, R106).
-/

namespace Sys2Proof.Machine

/-! ### The session -/

/-- BASTE_OPEN (R59): refused on the mirror (R70) and while a session is open. -/
def execBasteOpen (r : OnfReq) (idleMs : Nat) (s : State) : Res :=
  .next (s.command r 0x0301 fun s =>
    if idleMs != 0 && (decide (idleMs < 100) || decide (600000 < idleMs)) then s.reply r 0x0301 E.PARAM_RANGE []
    else if s.role = 2 then s.reply r 0x0301 E.TWIN_ROLE []
    else if s.onf.session.isSome then s.reply r 0x0301 E.BASTE_BUSY []
    else
      let n := if s.onf.sessNum = 65535 then 1 else s.onf.sessNum + 1
      let ss : Session :=
        { number := n, owner := r.sender, ownerCh := r.ch, critical := r.crit, idleMs := if idleMs = 0 then 10000 else idleMs, idleAt := s.now,
          regs := [], tabs := [], checked := false, held := [], armed := none }
      let s1 : State := { s with onf := { s.onf with sessNum := n, session := some ss } }
      s1.showSession.reply r 0x0301 0 (leBytes 2 n ++ zeros 2))

/-- The entries of a BASTE_WRITE as live offsets, if each names an RWB register. -/
def rwbEntries : List (Nat × W64) → Option (List (Nat × W64))
  | [] => some []
  | e :: es =>
    match rwbLive e.1, rwbEntries es with
    | some l, some r => some ((l, e.2) :: r)
    | _, _ => none

/-- What a staging command that names registers may not stage: shared state through a PF mailbox (R49), L-tagged state outside a critical session,
the ledger ring outside a critical session of the Lining door (R227). -/
def State.stageDenied (s : State) (r : OnfReq) (ss : Session) (l : List (Nat × W64)) : Bool :=
  l.any fun e => !s.minePort r e || (lTagged e.1 && !ss.critical) || (e.1 == R.TAPE_RING.off && !(ss.critical && ss.ownerCh == 35))

/-- BASTE_WRITE (R60, Table 02-8). -/
def execBasteWrite (r : OnfReq) (sess : Nat) (ents : List (Nat × BitVec 64)) (s : State) : Res :=
  .next (s.command r 0x0302 fun s =>
    if ents.isEmpty || decide (252 < ents.length) then s.sessNo r 0x0302 (some sess) E.PARAM_RANGE
    else match rwbEntries ents with
      | none => s.sessNo r 0x0302 (some sess) E.PARAM
      | some l =>
        s.inSession r 0x0302 (some sess) E.PRIVILEGE true fun s ss =>
          if s.stageDenied r ss l then s.reply r 0x0302 E.PRIVILEGE [] else s.stageAnd r 0x0302 l [] [])

/-- BASTE_CHECK (R62, R70): in a mirrored pair the mirror's violations join. -/
def execBasteCheck (r : OnfReq) (sess : Nat) (s : State) : Res :=
  .next (s.command r 0x0303 fun s =>
    s.inSession r 0x0303 (some sess) E.PRIVILEGE false fun s ss =>
      if s.linkLost then s.reply r 0x0303 E.TWIN_UNSYNC []
      else if s.mirrored then
        let w : TwinWait := { req := r, opcode := 0x0303, params := [], undoRegs := [], undoTabs := [], undoChecked := ss.checked, check := true, viol := s.violations }
        let s1 : State := { s with onf := { s.onf with twinWaits := s.onf.twinWaits ++ [w] } }
        s1.sendFlit .checkAsk
      else s.checkDone r s.violations)

/-- Arm a checked session (R64, R65): a pair schedules the edge on the mirror, which then has to confirm it. -/
def State.arm (s : State) (r : OnfReq) (ss : Session) (mode : StitchMode) (code edge : Nat) : State :=
  let pair := s.role == 1 && s.galv.peer == .paired
  let a : Armed := { mode := mode, time := edge, req := r, confirmed := !pair }
  let s1 := ((s.setSession (some { ss with armed := some a })).setReg R.ONF_STITCH_AT.off (BitVec.ofNat 64 edge)).showSession
  if pair then s1.sendFlit (.schedule code edge) else s1

/-- STITCH: the session's conditions, then the mode's own. -/
def State.stitch (s : State) (r : OnfReq) (sess : Nat) (k : State → Session → State) : State :=
  s.command r 0x0304 fun s =>
    s.inSession r 0x0304 (some sess) E.PRIVILEGE false fun s ss =>
      if ss.armed.isSome then s.reply r 0x0304 E.BASTE_ARMED []
      else if !ss.checked then s.reply r 0x0304 E.BASTE_STALE []
      else if s.linkLost then s.reply r 0x0304 E.TWIN_UNSYNC []
      else k s { ss with idleAt := s.now }

/-- STITCH_IMMEDIATE (R65): within 2 µs of acceptance on a solo device, how soon is open; 20 µs after it in a pair. -/
def execStitchImmediate (r : OnfReq) (sess : Nat) (s : State) : Res :=
  .next (s.stitch r sess fun s ss =>
    if s.paired then s.arm r ss .immediate 0 (s.now + 20000) else s.drawn.arm r ss .immediate 0 (s.now + s.free % 2001))

/-- STITCH_AT_TIME (R65). -/
def execStitchAtTime (r : OnfReq) (sess : Nat) (time : BitVec 64) (s : State) : Res :=
  .next (s.stitch r sess fun s ss =>
    let t := time.toNat
    if t ≤ s.now then s.reply r 0x0304 E.STITCH_LATE []
    else if s.now + 3600000000000 < t then s.reply r 0x0304 E.PARAM_RANGE []
    else s.arm r ss .atTime 1 t)

/-- STITCH_AT_MINUTE (R65): the next minute boundary. -/
def execStitchAtMinute (r : OnfReq) (sess : Nat) (s : State) : Res :=
  .next (s.stitch r sess fun s ss => s.arm r ss .atMinute 2 ((s.minute + 1) * minuteNs))

/-- The session closes by abort: an armed STITCH gets its one reply (R68), and an event says that it was cancelled (Table 02-19). -/
def State.abortSession (s : State) (stat : W64) : State :=
  match s.onf.session with
  | none => s
  | some ss =>
    let s1 := s.closeSession
    let s2 := if s1.mirrored then s1.sendFlit .abort else s1
    match ss.armed with
    | none => s2
    | some a => (s2.evtOnAll 7 stat 0 (s2.subscribers 7)).reply a.req 0x0304 E.BASTE_NONE []

/-- BASTE_ABORT (R69). -/
def execBasteAbort (r : OnfReq) (sess : Nat) (s : State) : Res :=
  .next (s.command r 0x0305 fun s =>
    s.inSession r 0x0305 (some sess) E.PRIVILEGE false fun s _ =>
      (s.abortSession (s.reg R.ONF_BASTE_STAT.off)).reply r 0x0305 0 [])

/-- Milliseconds left until the idle timeout (R54): all ones while armed. With no session the spec names no value. -/
def State.idleLeft (s : State) : Nat :=
  match s.openSession with
  | some ss => if ss.armed.isSome then 0xFFFFFFFF else ss.idleMs - (s.now - ss.idleAt) / 1000000
  | none => s.free % 2 ^ 32

/-- BASTE_STATUS (R54, Table 02-21). -/
def execBasteStatus (r : OnfReq) (sess : Nat) (s : State) : Res :=
  .next (s.command r 0x0306 fun s =>
    let num := (s.openSession.map (·.number)).getD 0
    if sess != 0 && sess != num then s.reply r 0x0306 E.BASTE_NONE []
    else
      let staged := match s.openSession with
        | some ss => ss.regs.length + ss.tabs.length
        | none => 0
      let p := leBytes 8 (s.reg R.ONF_BASTE_STAT.off).toNat ++ leBytes 8 (s.reg R.ONF_STITCH_AT.off).toNat ++ leBytes 4 s.epoch ++
        leBytes 4 staged ++ leBytes 4 s.idleLeft ++ zeros 4
      (if s.openSession.isNone then s.drawn else s).reply r 0x0306 0 p)

/-- BASTE_IDLE_TIMEOUT (R61): the session that has been idle for IDLE_MS closes by abort; the owner's channel hears of it whatever its mask. -/
def execBasteIdleTimeout (s : State) : Res :=
  .next (s.whenUp fun s =>
    match s.openSession with
    | none => s
    | some ss =>
      if ss.armed.isSome || decide (s.now < ss.idleAt + ss.idleMs * 1000000) then s
      else
        let stat := s.reg R.ONF_BASTE_STAT.off
        let chs := sortUp (ss.ownerCh :: s.subscribers 7)
        (s.abortSession stat).evtOnAll 7 stat E.TIMEOUT chs)

/-! ### Functions (R60, R79) -/

/-- FN_CONFIG stages host port and function configuration: HPORT_CFG and QFAB_FNCFG registers and no other (its layout is not in the spec). -/
def fnConfigReg (live : Nat) : Bool :=
  (decide (R.HPORT_CFG.off 0 ≤ live) && decide (live < R.HPORT_CFG.off 32) && (live - R.HPORT_CFG.off 0) % 65536 == 0) ||
    (decide (R.QFAB_FNCFG.off 0 ≤ live) && decide (live < R.QFAB_FNCFG.off 0x1020))

/-- FN_CONFIG (R60). -/
def execFnConfig (r : OnfReq) (ents : List (Nat × BitVec 64)) (s : State) : Res :=
  .next (s.command r 0x0101 fun s =>
    match rwbEntries ents with
    | none => s.sessNo r 0x0101 none E.PARAM
    | some l =>
      if !(l.all fun e => fnConfigReg e.1) then s.sessNo r 0x0101 none E.PARAM
      else s.inSession r 0x0101 none E.PRIVILEGE true fun s ss =>
        if s.stageDenied r ss l then s.reply r 0x0101 E.PRIVILEGE [] else s.stageAnd r 0x0101 l [] [])

/-- FN_RESET (R79): a function-level reset of one VF or PF, at once. -/
def execFnReset (r : OnfReq) (f : Nat) (s : State) : Res :=
  .next (s.command r 0x0102 fun s =>
    if !s.fnNamed false f then s.reply r 0x0102 E.PARAM []
    else if !s.mine false r f then s.reply r 0x0102 E.PRIVILEGE []
    else (s.flr f).reply r 0x0102 0 [])

/-- FUNCTION_LEVEL_RESET (R79) through the PCIe capability of a function that its host reaches. -/
def execFunctionLevelReset (f : Nat) (s : State) : Res := .next (s.whenUp fun s => if s.fnReachable f then s.flr f else s)

/-! ### Queue pairs (R82, Table 03-4) -/

/-- COUNT and FIRST_QP are out of range. -/
def qpRangeBad (count first : Nat) : Bool := count == 0 || decide (4096 < count) || decide (65536 < first + count)

/-- The QPs that a command names. -/
def qpRun (count first : Nat) : List Nat := (List.range count).map (first + ·)

/-- A QP is granted to a function, in a view. -/
def State.qpOf (s : State) (stg : Bool) (f q : Nat) : Bool :=
  s.view stg (R.QFAB_QOWN.VALID q) == 1 && s.view stg (R.QFAB_QOWN.FUNCTION q) == f

/-- The QFAB_QOWN value of a grant. -/
def qownVal (f loc cls : Nat) : W64 := BitVec.ofNat 64 (f + 32768 + loc * 65536 + cls * 2 ^ 32)

/-- QP_GRANT (R82): the QPs are FREE and the local indices unused in the staged state. -/
def execQpGrant (r : OnfReq) (f count first firstLocal cls : Nat) (s : State) : Res :=
  .next (s.command r 0x0201 fun s =>
    if qpRangeBad count first || decide (4096 < firstLocal + count) || decide (7 < cls) then s.sessNo r 0x0201 none E.PARAM_RANGE
    else if !s.fnNamed true f then s.sessNo r 0x0201 none E.PARAM
    else if !s.mine true r f then s.sessNo r 0x0201 none E.PRIVILEGE
    else s.inSession r 0x0201 none E.PRIVILEGE true fun s _ =>
      let qs := qpRun count first
      let locs := ((s.owners true).filter fun e => e.2.1 == f).map fun e => e.2.2
      if (qs.any fun q => s.stagedFld (R.QFAB_QOWN.VALID q) == 1) ||
          (List.range count).any fun i => locs.contains (firstLocal + i) then s.reply r 0x0201 E.PARAM []
      else s.stageAnd r 0x0201 (qs.map fun q => (R.QFAB_QOWN.off q, qownVal f (firstLocal + (q - first)) cls)) [] [])

/-- QP_REVOKE (R82): each named QP is granted to the function in the staged state; its whole entry becomes 0. -/
def execQpRevoke (r : OnfReq) (f count first : Nat) (s : State) : Res :=
  .next (s.command r 0x0202 fun s =>
    if qpRangeBad count first then s.sessNo r 0x0202 none E.PARAM_RANGE
    else if !s.fnNamed true f then s.sessNo r 0x0202 none E.PARAM
    else if !s.mine true r f then s.sessNo r 0x0202 none E.PRIVILEGE
    else s.inSession r 0x0202 none E.PRIVILEGE true fun s _ =>
      let qs := qpRun count first
      if qs.any fun q => !s.qpOf true f q then s.reply r 0x0202 E.PARAM []
      else s.stageAnd r 0x0202 (qs.map fun q => (R.QFAB_QOWN.off q, 0)) [] [])

/-- QP_QUIESCE of one QP (R82, R85). -/
def State.quiesceOne (s : State) (force : Bool) (q : Nat) : State :=
  let c := s.qp q
  if c.contained then
    if force then ((s.releaseAll q false).dropRingWaits q).quiesced q { fresh := true, hold := true, force := true } else s
  else match c.st with
    | .quiesced => s.setQp q { c with held := true }
    | .active => if force then (s.drainStart q { fresh := false, hold := true, force := true }).forceDrain q
        else s.drainStart q { fresh := false, hold := true, force := false }
    | .parked => if force then (s.drainStart q { fresh := false, hold := true, force := true }).forceDrain q
        else s.drainStart q { fresh := false, hold := true, force := false }
    | .error => if force then (s.drainStart q { fresh := true, hold := true, force := true }).forceDrain q else s
    | .free => s

/-- QP_QUIESCE of a list. -/
def State.quiesceMany (s : State) (force : Bool) : List Nat → State
  | [] => s
  | q :: qs => State.quiesceMany (s.quiesceOne force q) force qs

/-- QP_QUIESCE (R82): the reply comes when every named QP is QUIESCED. -/
def execQpQuiesce (r : OnfReq) (f count first : Nat) (force : Bool) (tmoMs : Nat) (s : State) : Res :=
  .next (s.command r 0x0203 fun s =>
    if qpRangeBad count first || decide (60000 < tmoMs) then s.reply r 0x0203 E.PARAM_RANGE []
    else if !s.fnNamed false f then s.reply r 0x0203 E.PARAM []
    else if !s.mine false r f then s.reply r 0x0203 E.PRIVILEGE []
    else
      let qs := qpRun count first
      if qs.any fun q => !s.qpOf false f q then s.reply r 0x0203 E.PARAM []
      else
        let s1 := s.quiesceMany force qs
        let s2 : State := { s1 with onf := { s1.onf with quiesce := s1.onf.quiesce ++ [QuiesceWait.mk r qs] } }
        s2.quiesceCheck)

/-- QP_QUIESCE_TIMEOUT (R82): draining continues. -/
def execQpQuiesceTimeout (ch tag : Nat) (s : State) : Res :=
  .next (s.whenUp fun s =>
    match s.onf.quiesce.find? fun w => w.req.ch == ch && w.req.tag == tag with
    | none => s
    | some w =>
      let nd := s.notDone w.qps
      let s1 : State := { s with onf := { s.onf with quiesce := s.onf.quiesce.erase w } }
      s1.reply w.req 0x0203 E.TIMEOUT (leBytes 2 nd.length ++ leBytes 2 (nd.headD 0)))

/-- QP_RESUME of one QP: QUIESCED with HELD 1 leaves HELD, and starts if ENABLE is 1 (Table 03-10). -/
def State.resumeOne (s : State) (q : Nat) : State :=
  let c := s.qp q
  if c.st == .quiesced && c.held && c.drain.isNone then
    let s1 := s.setQp q { c with held := false }
    if c.enable then s1.activate q else s1
  else s

/-- QP_RESUME of a list. -/
def State.resumeMany (s : State) : List Nat → State
  | [] => s
  | q :: qs => State.resumeMany (s.resumeOne q) qs

/-- QP_RESUME (R82, R63). -/
def execQpResume (r : OnfReq) (f count first : Nat) (s : State) : Res :=
  .next (s.command r 0x0204 fun s =>
    if qpRangeBad count first then s.reply r 0x0204 E.PARAM_RANGE []
    else if !s.fnNamed false f then s.reply r 0x0204 E.PARAM []
    else if !s.mine false r f then s.reply r 0x0204 E.PRIVILEGE []
    else
      let qs := qpRun count first
      if qs.any fun q => !s.qpOf false f q then s.reply r 0x0204 E.PARAM []
      else if qs.any fun q => (s.qp q).sessHeld then s.reply r 0x0204 E.BASTE_LOCKED []
      else (s.resumeMany qs).reply r 0x0204 0 [])

/-- QP_SCHED_FUNCTION (R106): QFAB_FSCHED0 and FSCHED1 of a function. -/
def execQpSchedFunction (r : OnfReq) (index : Nat) (v0 v1 : BitVec 64) (s : State) : Res :=
  .next (s.command r 0x0205 fun s =>
    if 0x1020 ≤ index then s.sessNo r 0x0205 none E.PARAM_RANGE
    else if !s.mine true r index then s.sessNo r 0x0205 none E.PRIVILEGE
    else s.inSession r 0x0205 none E.PRIVILEGE true fun s _ =>
      s.stageAnd r 0x0205 [(R.QFAB_FSCHED0.off index, v0), (R.QFAB_FSCHED1.off index, v1)] [] [])

/-- QP_SCHED_ACCOUNT (R106): QFAB_ASCHED of an account, which a PF mailbox may not reach (R49). -/
def execQpSchedAccount (r : OnfReq) (index : Nat) (v1 : BitVec 64) (s : State) : Res :=
  .next (s.command r 0x0205 fun s =>
    if 8192 ≤ index then s.sessNo r 0x0205 none E.PARAM_RANGE
    else if r.ch < 32 then s.sessNo r 0x0205 none E.PRIVILEGE
    else s.inSession r 0x0205 none E.PRIVILEGE true fun s _ => s.stageAnd r 0x0205 [(R.QFAB_ASCHED.off index, v1)] [] [])

end Sys2Proof.Machine
end

