-- ==== Sys2Proof/Machine/Galvel.lean ====
section
/-!
DEFINITION. Galvel.lean: the Galvel link (R257–R262), pairing and synchronisation (R267–R274, R294–R296), mirrored state as it arrives (R278) and
the journal (R280–R282).
-/

namespace Sys2Proof.Machine

/-! ### The link (R259, R260) -/

/-- The link is trained. -/
def State.linkUp (s : State) : Bool := s.bit R.GALV_STATUS.LINK_UP

/-- The link is declared down; both ends train again. -/
def State.linkDown (s : State) : State :=
  if s.linkUp then
    (((s.clrBit R.GALV_STATUS.LINK_UP).setFld R.GALV_STATUS.WIDTH 0).bump R.GALV_LINKCNT.DOWNS 1).galvEvt R.GALV_STATUS.LINK_EVT
  else s

/-- A number of the 12-bit sequence stands at or before another. -/
def seqUpTo (a b : Nat) : Bool := decide ((b + 4096 - a) % 4096 < 2048)

/-- Flits up to an acknowledged SEQ leave the retry buffer. -/
def State.takeAck (s : State) (ack : Nat) : State :=
  { s with galv := { s.galv with unacked := s.galv.unacked.dropWhile fun e => seqUpTo e.1 ack } }

/-- Every flit of the retry buffer goes out again. -/
def State.resendAll (s : State) : List (Nat × Nat × FlitPayload) → State
  | [] => s
  | e :: es =>
    State.resendAll (s.emit (.flit { crcOk := true, seq := e.1, ack := (s.galv.rxNext + 4095) % 4096, nak := s.galv.nak, payload := e.2.2 })) es

/-- The sender sends again everything that is not acknowledged; a flit that would go out more than eight times takes the link down. -/
def State.retryFlits (s : State) : State :=
  let l := s.galv.unacked
  if l.isEmpty then s
  else if l.any fun e => decide (8 ≤ e.2.1) then s.linkDown
  else
    let s1 : State := { s with galv := { s.galv with unacked := l.map fun e => (e.1, e.2.1 + 1, e.2.2) } }
    let s2 := s1.resendAll l
    ({ s2 with galv := { s2.galv with nak := false } }).bump R.GALV_LINKCNT.RETRIES l.length

/-- GALVEL_ACK_TIMEOUT (R259): 10 µs without an ACK while flits are outstanding. -/
def execGalvelAckTimeout (s : State) : Res :=
  .next (s.whenUp fun s => if s.galv.unacked.isEmpty then s else s.linkDown)

/-- GALVEL_LINK_TRAINED (R260): all sixteen lanes, or one half of them; else the link stays down. Outstanding flits go out again. -/
def execGalvelLinkTrained (lo hi : Bool) (s : State) : Res :=
  .next (s.whenUp fun s =>
    if s.linkUp || !(lo || hi) then s
    else
      let s1 := ((s.setBit R.GALV_STATUS.LINK_UP).setFld R.GALV_STATUS.WIDTH (if lo && hi then 2 else 1)).galvEvt R.GALV_STATUS.LINK_EVT
      let l := s1.galv.unacked.map fun (e : Nat × Nat × FlitPayload) => (e.1, 1, e.2.2)
      (({ s1 with galv := { s1.galv with unacked := l } }).resendAll l).quadsAuto)

/-- HEARTBEAT_SEND (R262). -/
def execHeartbeatSend (s : State) : Res :=
  .next (s.whenUp fun s => if s.linkUp && s.role != 0 then s.sendFlit .heartbeat else s)

/-! ### Roles -/

/-- The twin takes a role. -/
def State.setRole (s : State) (r : Nat) : State := (s.setFld R.GALV_STATUS.ROLE r).quadsAuto

/-- The NVMe functions that exist. -/
def State.nvmeFns (s : State) : List Nat := (s.fnList false).filter fun f => s.pers f == 3

/-- The ANA state of every NVMe function, with its change event when `tell` (R131): an asynchronous event of type notice, ANA change, log page 0x0C. -/
def State.anaSet (s : State) (st : Nat) (tell : Bool) : State :=
  s.nvmeFns.foldl (fun (s : State) f =>
    let s1 := s.setNvme f { (s.fn f).nvme with ana := st }
    if tell then s1.nvmeEvent f 0x0C0302 else s1) s

/-- Staging commands that wait for the mirror, newest first, are answered with E_TWIN_UNSYNC and what they staged is withdrawn (R70). -/
def State.waitsFail (s : State) : List TwinWait → State
  | [] => s
  | w :: ws => State.waitsFail ((if w.check then s else s.unstage w).reply w.req w.opcode E.TWIN_UNSYNC []) ws

/-- Nothing waits for the peer any longer. -/
def State.waitsEnd (s : State) : State :=
  let l := s.onf.twinWaits
  let s1 : State := { s with onf := { s.onf with twinWaits := [] } }
  let s2 := s1.waitsFail l.reverse
  let s3 : State := { s2 with galv := { s2.galv with unacked := [], jacked := s2.galv.jseq } }
  State.ctrAckAll s3.onf.ctrWait.length s3

/-- The mirror's copy of the lead's session goes. -/
def State.mirrorDrop (s : State) : State :=
  match s.onf.session with
  | some ss => if ss.number = 0 then s.setSession none else s
  | none => s

/-- The device is solo. -/
def State.goSolo (s : State) : State :=
  let s1 := ((((s.waitsEnd).mirrorDrop).clrBit R.GALV_STATUS.SYNC).setReg R.GALV_PEER.off 0)
  let s2 := (s1.setFld R.GALV_VER.PEER_SCHEMA 0).setFld R.GALV_VER.USED_MINOR 0
  let s3 := s2.setReg R.GALV_FEAT_COMMON.off (s2.reg R.GALV_FEAT_LOCAL.off)
  let s4 : State := { s3 with galv := { s3.galv with peer := .none, pairId := 0, shadows := [], lent := [], releasing := [], peerHandoff := none } }
  s4.setRole 0

/-! ### Pairing (R268–R270, Table 09-5) -/

/-- GALV_SHADOW_LIVE names 64 MiB of DRAM that only Lining regions cover. -/
def State.shadowOk (s : State) : Bool :=
  let lo := s.fld R.GALV_SHADOW.BASE
  let hi := lo + 16383
  let rs := ((List.range 64).filter fun r => s.bit (R.SEAM_RGNA.ENABLE 0 r)).map fun r =>
    (s.rgnOwner false 0 r, s.fld (R.SEAM_RGNA.BASE 0 r), s.fld (R.SEAM_RGNB.LIMIT 0 r))
  decide (lo % 16384 = 0) && decide ((hi + 1) * 4096 ≤ s.dmc.cap) && (rs.all fun e => e.1 == 1 || !meets e.2.1 e.2.2 lo hi) &&
    covered (rs.map (·.2)) 64 lo hi

/-- ENABLE, WIDTH and TOTAL_VFS of each host port, as one number each. -/
def State.portWords (s : State) : List Nat :=
  (List.range 32).map fun n => s.fld (R.HPORT_CFG.ENABLE n) + 2 * s.fld (R.HPORT_CFG.WIDTH n) + 64 * s.fld (R.HPORT_CFG.TOTAL_VFS n)

/-- Every granted QP is FREE or QUIESCED. -/
def State.qpsIdle (s : State) : Bool := s.qps.all fun e => isLc e.1 || e.2.st == .free || e.2.st == .quiesced

/-- What this twin says of itself. -/
def State.ownInfo (s : State) (p : Pairing) : PairInfo :=
  { serial := Config.serial, pairId := p.pairId, role := p.role, schema := s.fld R.GALV_VER.LOCAL_SCHEMA, feat := s.reg R.GALV_FEAT_LOCAL.off,
    qpsIdle := s.qpsIdle, stateOk := true, ports := s.portWords, gate := s.reg R.GALV_GATE.off, shadowOk := s.shadowOk }

/-- The first check of Table 09-5 that fails between the two twins, as its code. -/
def State.pairFault (s : State) (p : Pairing) (i : PairInfo) : Option Nat :=
  let me := s.ownInfo p
  let gate := if p.role = 1 then me.gate else i.gate
  if !i.stateOk then some E.TWIN_ROLE
  else if !(if p.role = 2 then me.qpsIdle else i.qpsIdle) then some E.BUSY
  else if i.serial != p.serial || i.pairId != p.pairId then some E.PARAM
  else if i.role == p.role then some E.TWIN_ROLE
  else if i.schema / 256 != me.schema / 256 then some E.SCHEMA
  else if (gate &&& ~~~ (me.feat &&& i.feat)) != 0 then some E.FEATURE_GATED
  else if i.ports != me.ports then some E.PARAM
  else if !(me.shadowOk && i.shadowOk) then some E.SEAM
  else none

/-- A pairing fails: it is answered, and both twins stay as they were. -/
def State.pairFail (s : State) (p : Pairing) (code : Nat) : State :=
  ({ s with galv := { s.galv with pairing := none, peerInfo := none } }).reply p.req 0x0501 code []

/-- The checks run once both twins have spoken. -/
def State.pairJudge (s : State) : State :=
  match s.galv.pairing, s.galv.peerInfo with
  | some p, some i =>
    if p.accepted then s
    else match s.pairFault p i with
      | some c => s.pairFail p c
      | none => { s with galv := { s.galv with pairing := some { p with accepted := true } } }
  | _, _ => s

/-- TWIN_PAIR ACTION 0 or 2 (R268): the requesting twin's own part of Table 09-5, then the peer is asked. -/
def State.pairAsk (s : State) (r : OnfReq) (action role : Nat) (peer pairId : W64) (roleOk : State → Bool) : State :=
  s.command r 0x0501 fun s =>
    if !(role == 1 || role == 2) then s.reply r 0x0501 E.PARAM []
    else if s.galv.pairing.isSome then s.reply r 0x0501 E.BUSY []
    else if !roleOk s then s.reply r 0x0501 E.TWIN_ROLE []
    else if (action == 0 || role == 1) && s.openSession.isSome then s.reply r 0x0501 E.BASTE_BUSY []
    else if role == 2 && !s.qpsIdle then s.reply r 0x0501 E.BUSY []
    else
      let p : Pairing := { req := r, action := action, role := role, serial := peer, pairId := pairId, accepted := false }
      let s1 : State := { s with galv := { s.galv with pairing := some p } }
      let s2 := (((List.range 4).map fun k => 27 + 8 * k).foldl State.croakOut s1).sendFlit (.pairAnswer (s1.ownInfo p))
      s2.pairJudge

/-- TWIN_PAIR_PAIR (R269). -/
def execTwinPairPair (r : OnfReq) (role : Nat) (peerSerial pairId : BitVec 64) (s : State) : Res :=
  .next (s.pairAsk r 0 role peerSerial pairId fun s => s.role == 0)

/-- TWIN_PAIR_REJOIN (R269, R273): on a lead with SYNC 0 whose peer has left, and on a solo or fenced device. -/
def execTwinPairRejoin (r : OnfReq) (role : Nat) (peerSerial pairId : BitVec 64) (s : State) : Res :=
  .next (s.pairAsk r 2 role peerSerial pairId fun s =>
    if role = 1 then s.role == 1 && !s.sync && s.galv.peer != .paired else s.role == 0 || s.role == 3)

/-- TWIN_PAIR_UNPAIR (Table 09-6): on the lead. -/
def execTwinPairUnpair (r : OnfReq) (s : State) : Res :=
  .next (s.command r 0x0501 fun s =>
    if s.role != 1 then s.reply r 0x0501 E.TWIN_ROLE [] else ((s.sendFlit .unpair).goSolo).reply r 0x0501 0 [])

/-- TWIN_PAIR_TIMEOUT (Table 09-5): the peer has not answered within 60 s. -/
def execTwinPairTimeout (s : State) : Res :=
  .next (s.whenUp fun s =>
    match s.galv.pairing with
    | some p => if p.accepted then s else s.pairFail p E.TIMEOUT
    | none => s)

/-! ### Synchronisation (R270) -/

/-- The live offset of an RWB register that goes to the peer. -/
def copied (off : Nat) : Bool :=
  match regFind off with
  | some (_, true) => !ownPins off
  | _ => false

/-- The lead's configuration, connections and Tape counters. -/
def State.leadFlits (s : State) : List FlitPayload :=
  let tabs := (s.selv.tabs.filter fun t => t.till.isNone && !(t.table == 2 && flowLearned t.image)).map fun t => (t.table, t.loc, t.image)
  [FlitPayload.syncCfg (s.regs.filter fun e => copied e.1) tabs s.epoch, FlitPayload.syncTape s.bank.counts] ++
    s.selv.conns.map (fun c => FlitPayload.ctState c.key c.rkey c.st.code) ++
    s.selv.sas.flatMap fun e => [FlitPayload.saCeil e.1 e.2.ceil, FlitPayload.saEdge e.1 e.2.edge]

/-- A ring's indices as a watermark gives them (Table 09-8): heads of packed rings carry their wrap bit. -/
def State.markOf (s : State) (q : Nat) : FlitPayload :=
  let c := s.qp q
  let p := s.pers (s.qpFn q)
  if p = 1 || p = 2 then
    .syncRing q (if s.packed q then c.availIdx + 32768 * b2n c.availWrap else c.availIdx) c.usedIdx c.nextCseq c.usedWrap
  else .syncRing q c.sqHead c.cqTail c.nextCseq c.phase

/-- A ring's context. -/
def State.ringFlits (s : State) (q : Nat) : List FlitPayload :=
  (List.zip (List.range 6) (s.qp q).words).map (fun e => FlitPayload.shadowReg q e.1 e.2) ++ [s.markOf q]

/-- The function rings that this twin serves. -/
def State.servedRings (s : State) : List Nat :=
  (s.qps.filter fun e => !isLc e.1 && e.2.st != .free && !s.galv.lent.contains e.1).map (·.1)

/-- Everything that fills the peer's shadow (Table 09-7). -/
def State.shadowFlits (s : State) : List FlitPayload :=
  s.servedRings.flatMap s.ringFlits ++ ((s.fns.filter fun e => decide (e.1 < 65536)).flatMap fun e => fnFlits e.1 FnCtx.reset e.2) ++
    (s.shut.dlogs.filter fun e => e.2.on).map fun e => FlitPayload.shadowLog e.1 true e.2.limit e.2.base0 e.2.base1 e.2.pf

/-- The copy goes out: the lead's configuration, then each twin's shadow. -/
def State.syncOut (s : State) (lead : Bool) : State := s.sendFlits ((if lead then s.leadFlits else []) ++ s.shadowFlits)

/-- SYNC becomes 1. -/
def State.synced (s : State) (lead : Bool) : State :=
  let s1 := s.syncOut lead
  let s2 : State := { s1 with galv := { s1.galv with heartbeat := true, jacked := s1.galv.jseq } }
  s2.setBit R.GALV_STATUS.SYNC

/-- What a completed pairing records of the peer. -/
def State.peerKnown (s : State) (p : Pairing) (i : PairInfo) : State :=
  let me := s.fld R.GALV_VER.LOCAL_SCHEMA
  let s1 := (s.setReg R.GALV_PEER.off i.serial).setReg R.GALV_FEAT_COMMON.off (s.reg R.GALV_FEAT_LOCAL.off &&& i.feat)
  let s2 := (s1.setFld R.GALV_VER.PEER_SCHEMA i.schema).setFld R.GALV_VER.USED_MINOR (min (me % 256) (i.schema % 256))
  { s2 with galv := { s2.galv with
      pairing := none, peerInfo := none, peer := .paired, pairId := p.pairId
      cntlid := if p.action = 0 || s.galv.cntlid = 0 then p.role else s.galv.cntlid } }

/-- TWIN_SYNC_COMPLETE (R270): a pairing or rejoin ends, or a pair whose link came back is in step again (R290). A rejoining lead then drives
TWIN_FENCE_OUT low (R273), and the level of TWIN_FAULT_IN and TWIN_ALIVE_IN is the peer's. A fenced rejoiner stays fenced until the pin falls. -/
def execTwinSyncComplete (s : State) : Res :=
  .next (s.whenUp fun s =>
    if !s.linkUp then s
    else match s.galv.pairing, s.galv.peerInfo with
      | some p, some i =>
        if !p.accepted then s
        else
          let s1 := s.peerKnown p i
          let s2 := if s1.role = 3 then s1 else (s1.setRole p.role).anaSet (if p.role = 1 then 1 else 2) false
          let s3 : State := if p.role = 1 && p.action = 2 then
              ({ s2 with sys := { s2.sys with fenceOut := false } }).clrBit R.GALV_STATUS.FENCE_OUT else s2
          let s4 := (s3.clrBit R.GALV_STATUS.FAULT_IN).setBit R.GALV_STATUS.ALIVE_OK
          (s4.synced (p.role == 1)).reply p.req 0x0501 0 []
      | _, _ => if s.paired && !s.sync && s.galv.peer == .paired then s.synced (s.role == 1) else s)

/-! ### Shadows of the peer's rings (R278, R280) -/

/-- A shadow. -/
def State.shadow (s : State) (q : Nat) : ShadowQp := smGet ShadowQp.empty s.galv.shadows q

/-- A shadow takes a value. -/
def State.setShadow (s : State) (q : Nat) (x : ShadowQp) : State :=
  { s with galv := { s.galv with shadows := smPut ShadowQp.empty s.galv.shadows q x } }

/-- The state of a ring from its mirrored word. -/
def stOf (v : W64) : QpSt :=
  match getBits v 0 4 with
  | 1 => .quiesced
  | 2 => .active
  | 3 => .parked
  | 4 => .error
  | _ => .free

/-- A mirrored word of a ring. -/
def ShadowQp.word (x : ShadowQp) (reg : Nat) (d : W64) : ShadowQp :=
  let x1 := { x with regs := smPut 0 x.regs reg d }
  if reg = 5 then
    (let st := stOf d
     if st = .quiesced || st = .free then { x1 with st := st, held := getBit d 4, reqs := [] } else { x1 with st := st, held := getBit d 4 })
  else x1

/-- The function context under a key takes a mirrored word. -/
def FnCtx.setWord (c : FnCtx) (reg : Nat) (d : W64) : FnCtx :=
  if reg = 0 then { c with
      msixEn := getBit d 0, atsEn := getBit d 1, priEn := getBit d 2, evtEn := getBit d 3
      virtio := { c.virtio with needsReset := getBit d 4 }, nvme := { c.nvme with dbOn := getBit d 5 } }
  else if reg = 1 then { c with virtio := { c.virtio with status := d.toNat } }
  else if reg = 2 then { c with virtio := { c.virtio with feats := d } }
  else if reg = 3 then { c with nvme := { c.nvme with cc := BitVec.ofNat 32 d.toNat, en := getBit d 32 } }
  else if reg = 4 then { c with nvme := { c.nvme with rdy := getBit d 0, cfs := getBit d 1 } }
  else if reg = 5 then { c with nvme := { c.nvme with aqa := BitVec.ofNat 32 d.toNat } }
  else if reg = 6 then { c with nvme := { c.nvme with asq := d } }
  else if reg = 7 then { c with nvme := { c.nvme with acq := d } }
  else if reg = 8 then { c with nvme := { c.nvme with dbShadow := d } }
  else if reg = 9 then { c with nvme := { c.nvme with dbEvent := d } }
  else if reg = 10 then { c with numVfs := d.toNat }
  else if reg = 11 then { c with virtio := { c.virtio with latched := d.toNat } }
  else if reg = 12 then { c with nvme := { c.nvme with latched := d.toNat } }
  else if 256 ≤ reg then { c with virtio := { c.virtio with qvec := smPut 65535 c.virtio.qvec (reg - 256) d.toNat } }
  else c

/-- Depth of a shadow's submission ring. -/
def ShadowQp.depth (x : ShadowQp) : Nat := 2 ^ (getBits (smGet 0 x.regs 3) 0 4 + 1)

/-- A watermark or the copied indices of a ring: commits that it covers are behind it. A virtqueue's commits carry used positions. -/
def ShadowQp.mark (x : ShadowQp) (head tail cseq : Nat) (phase : Bool) (virtio packed : Bool) : ShadowQp :=
  let m := if !virtio then 2 ^ 32 else if packed then x.depth else 65536
  let ref := if virtio then tail else cseq
  let behind (r : ShadowReq) : Bool :=
    match r.commit with
    | some c => (ref + m - c.cseq % m) % m != 0 && decide ((ref + m - c.cseq % m) % m < m / 2)
    | none => false
  { x with
    complete := true, sqHead := if packed then head % 32768 else head, wrap := if packed then decide (32768 ≤ head) else x.wrap
    cqTail := tail, nextCseq := cseq, phase := phase, reqs := x.reqs.filter fun r => !behind r }

/-- A ring of the peer by the function its number names. -/
def State.shadowPacked (s : State) (q : Nat) : Bool := getBit (s.fn (peerFn (s.qpFn q))).virtio.feats 34

/-- A function's virtio personality. -/
def State.isVirtio (s : State) (q : Nat) : Bool := s.pers (s.qpFn q) == 1 || s.pers (s.qpFn q) == 2

/-! ### Configuration as it arrives (R70, R270) -/

/-- The mirror's copy of the lead's session. -/
def mirrorSession : Session :=
  { number := 0, owner := 0, ownerCh := 35, critical := true, idleMs := 0, idleAt := 0, regs := [], tabs := [], checked := false, held := [], armed := none }

/-- The mirror holds a copy of the lead's session. -/
def State.mirrorOpen (s : State) : State := if s.onf.session.isSome then s else s.setSession (some mirrorSession)

/-- A table entry that arrives, as this twin stages it. -/
def State.tabArrive (s : State) (t : Nat) (loc : List Byte) (im : Option (List Byte)) : TabStage :=
  let b := if t != 2 then 0
    else match s.onf.session.bind fun ss => ss.tab? t loc with
      | some x => x.bucket
      | none =>
        match s.selv.tabs.find? fun x => x.table == 2 && x.loc == loc && x.till.isNone && !flowLearned x.image with
        | some x => x.bucket
        | none => (s.bucketFor (s.stagedFld (R.SELV_TBASE.LOG2 0)) loc).getD 0
  { table := t, loc := loc, image := im, bucket := b }

/-- Several. -/
def State.tabsArrive (s : State) : List (Nat × List Byte × Option (List Byte)) → State
  | [] => s
  | (t, loc, im) :: r => State.tabsArrive (s.stageTab (s.tabArrive t loc im)) r

/-- Values as a session stages them; the fields that no write reaches come over too. -/
def State.regsArrive (s : State) : List (Nat × W64) → State
  | [] => s
  | e :: es =>
    State.regsArrive (match s.onf.session with
      | some ss => s.setSession (some { ss with regs := smIns ss.regs e.1 e.2 })
      | none => s) es

/-- The lead's whole configuration becomes this twin's (R270): what the lead does not list stands at its reset value. -/
def State.copyConfig (s : State) (regs : List (Nat × W64)) (tabs : List (Nat × List Byte × List Byte)) (epoch : Nat) : State :=
  let mine := (s.regs.filter fun e => copied e.1 && !regs.any fun x => x.1 == e.1).map fun (e : Nat × W64) => (e.1, regReset e.1)
  let live := s.selv.tabs.filter fun t => t.till.isNone && !(t.table == 2 && flowLearned t.image)
  let gone := (live.filter fun t => !tabs.any fun x => x.1 == t.table && x.2.1 == t.loc).map fun t => (t.table, t.loc, (none : Option (List Byte)))
  let new := (tabs.filter fun x => !live.any fun t => x.1 == t.table && x.2.1 == t.loc && x.2.2 == t.image).map fun x => (x.1, x.2.1, some x.2.2)
  let s1 := ((s.setSession (some mirrorSession)).regsArrive (regs ++ mine)).tabsArrive (gone ++ new)
  match s1.onf.session with
  | some ss => ((s1.setSession none).applyStitch 0 ss.regs ss.tabs true).setFld R.ONF_EPOCH.CFG_EPOCH epoch
  | none => s1

/-! ### Delivery (R259, Table 09-2) -/

/-- A staging command's reply waited for the mirror (R70). -/
def State.stageAcked (s : State) : State :=
  match s.onf.twinWaits.find? fun w => !w.check with
  | some w => ({ s with onf := { s.onf with twinWaits := s.onf.twinWaits.erase w } }).reply w.req w.opcode 0 w.params
  | none => s

/-- The mirror's violations join the lead's (R70). -/
def State.checkCame (s : State) (v : List (Nat × Nat × Nat)) : State :=
  match s.onf.twinWaits.find? fun w => w.check with
  | some w => ({ s with onf := { s.onf with twinWaits := s.onf.twinWaits.erase w } }).checkDone w.req (violUnion w.viol v)
  | none => s

/-- The mirror notes the edge of the lead's stitch, and confirms it. -/
def State.scheduleCame (s : State) (mode edge : Nat) : State :=
  match s.onf.session with
  | some ss =>
    if ss.number ≠ 0 then s
    else
      let m := if mode = 0 then StitchMode.immediate else if mode = 1 then .atTime else .atMinute
      let a : Armed := { mode := m, time := edge, req := { ch := 35, sender := 0, seq := 0, tag := 0, ctr := 0, crit := false }, confirmed := true }
      (s.setSession (some { ss with armed := some a })).sendFlit .stitchConfirm
  | none => s

/-- The session's armed stitch changes. -/
def State.armedMap (s : State) (f : Armed → Option Armed) : State :=
  match s.onf.session with
  | some ss =>
    match ss.armed with
    | some a => s.setSession (some { ss with armed := f a })
    | none => s
  | none => s

/-- A counter arrives: the AON save area keeps the larger (R47). -/
def State.counterCame (s : State) (slot ctr : Nat) : State :=
  let k := smGet SenderKey.none s.onf.keys slot
  (s.setCtr slot k (max k.ctr ctr)).sendFlit .counterAck

/-- A forwarded doorbell of a ring that this twin serves for its peer. -/
def State.doorbellCame (s : State) (f loc : Nat) (d : W64) : State :=
  match s.qpAt f loc with
  | none => s
  | some q0 =>
    let q := 131072 + q0
    if s.isVirtio q then
      (let c := s.qp q
       if !(c.st == .active || c.st == .parked) || c.contained || s.packed q then s else s.readAvail q)
    else s.doorbell q d

/-- A packet that the peer received for a released ring (R293); without room for it in the ring's hold it is dropped (R172). -/
def State.packetCame (s : State) (f loc : Nat) (fr : List Byte) : State :=
  match s.qpAt f loc with
  | none => s.netDrop 0 Rsn.NO_QUEUE
  | some _ =>
    let l0 := (parseFrame 0 0 fr).inner
    let pk := s.rssPick s.epoch f fr l0
    let x : RxPkt :=
      { f := f, loc := loc, frame := fr, acct := none, ew := false, pipe := 0, hash := pk.2.1, htype := pk.2.2, csumOk := csumRight fr l0,
        cls := 0, src := 0x2040, adopt := true }
    { s with selv := { s.selv with rx := s.selv.rx ++ [x] } }

/-- A connection as the peer has it (R189). -/
def State.connCame (s : State) (key rkey : List Byte) (st : Nat) : State :=
  let t := ctOfCode st
  let old := s.selv.conns.find? fun c => c.key == key
  let c : Conn := match old with
    | some c => { c with rkey := rkey, st := t, expires := s.now + t.timeout * 1000000000 }
    | none => { key := key, rkey := rkey, st := t, expires := s.now + t.timeout * 1000000000, nat := none, seqO := none, seqR := none, finO := false, finR := false }
  s.ctPut c false

/-- What the payload of a delivered flit does. -/
def State.deliver (s : State) (p : FlitPayload) : State :=
  match p with
  | .idle => s
  | .heartbeat => s
  | .journalAck j => { s with galv := { s.galv with jacked := max s.galv.jacked (j + 1) } }
  | .stagingAck => s.stageAcked
  | .counterAck => s.ctrAck
  | .checkResult v => s.checkCame v
  | .stitchConfirm => s.armedMap fun a => some { a with confirmed := true }
  | .handoffConfirm =>
    match s.galv.handoff with
    | some h => { s with galv := { s.galv with handoff := some { h with confirmed := true } } }
    | none => s
  | .adopted =>
    match s.galv.handoff with
    | some h => if h.edge then ({ s with galv := { s.galv with handoff := none } }).reply h.req 0x0502 0 [] else s
    | none => s
  | .pairAnswer i => ({ s with galv := { s.galv with peerInfo := some i } }).pairJudge
  | .stage ack regs tabs =>
    let s1 := ((s.mirrorOpen).regsArrive regs).tabsArrive tabs
    if ack then s1.sendFlit .stagingAck else s1
  | .checkAsk => s.sendFlit (.checkResult s.mirrorOpen.violations)
  | .abort => s.mirrorDrop
  | .schedule mode edge => s.mirrorOpen.scheduleCame mode edge
  | .unschedule => s.armedMap fun _ => none
  | .counter slot ctr => s.counterCame slot ctr
  | .doorbell f loc d => s.doorbellCame f loc d
  | .shadowReg q reg d => s.setShadow q ((s.shadow q).word reg d)
  | .packet f loc fr => s.packetCame f loc fr
  | .ctState k rk st => s.connCame k rk st
  | .ctGone k => { s with selv := { s.selv with conns := s.selv.conns.filter fun c => c.key != k } }
  | .saCeil i c => s.setSa i { s.saDyn i with ceil := max (s.saDyn i).ceil c }
  | .saEdge i e => s.setSa i { s.saDyn i with edge := max (s.saDyn i).edge e }
  | .shadowFn f reg d => s.setFn (peerFn f) ((s.fn (peerFn f)).setWord reg d)
  | .shadowMsix f v a d m pd =>
    let c := s.fn (peerFn f)
    s.setFn (peerFn f) { c with msix := smPut MsixEnt.reset c.msix v { addr := a, data := d, masked := m, pend := pd } }
  | .shadowLog v on lim b0 b1 pf =>
    { s with galv := { s.galv with
        peerLogs := smPut DirtyLog.off s.galv.peerLogs v { DirtyLog.off with on := on, limit := lim, base0 := b0, base1 := b1, pf := pf } } }
  | .syncCfg regs tabs e => s.copyConfig regs tabs e
  | .syncTape l => s.setActive { s.bank with counts := l.foldl (fun m e => smPut 0 m e.1 e.2) [] }
  | .syncRing q h t c ph => s.setShadow q ((s.shadow q).mark h t c ph (s.isVirtio q) (s.shadowPacked q))
  | .handoff mode t => ({ s with galv := { s.galv with peerHandoff := some (mode, t) } }).sendFlit .handoffConfirm
  | .unhandoff => { s with galv := { s.galv with peerHandoff := none } }
  | .netDone q => { s with galv := { s.galv with netHold := s.galv.netHold.filter fun x => x != q } }
  | .released => { s with galv := { s.galv with netHold := [], peerHandoff := none } }
  | .unpair => if s.paired then s.goSolo else s

/-- A delivered payload acts in a pair; a solo device hears only pairing answers, and while it synchronises the copy. -/
def State.hears (s : State) (p : FlitPayload) : Bool :=
  s.role != 0 || s.galv.pairing.isSome ||
    match p with
    | .pairAnswer _ => true
    | _ => false

/-- GALVEL_FLIT_RECEIVE (R259): a flit that fails its CRC or is not the next expected is discarded and NAKed; any other is delivered once, in
order. -/
def execGalvelFlitReceive (fl : Flit) (s : State) : Res :=
  .next (s.whenUp fun s =>
    if !s.linkUp then s
    else if !fl.crcOk || fl.seq != s.galv.rxNext then
      { s with galv := { s.galv with nak := true, heartbeat := s.galv.heartbeat || fl.crcOk } }
    else
      let s1 : State := { s with galv := { s.galv with rxNext := (fl.seq + 1) % 4096, nak := false, heartbeat := true } }
      let s2 := s1.takeAck fl.ack
      let s3 := if fl.nak then s2.retryFlits else s2
      if s3.hears fl.payload then s3.deliver fl.payload else s3)

/-! ### The journal (R280–R282) -/

/-- A journal entry is applied to the shadow of its ring and acknowledged. -/
def State.journal (s : State) (e : JHead) (f : ShadowQp → ShadowQp) : State :=
  s.whenUp fun s =>
    if !s.paired || s.galv.peer != .paired then s
    else
      let s1 := s.setShadow e.q (f (s.shadow e.q))
      ({ s1 with galv := { s1.galv with rxJseq := e.jseq } }).sendFlit (.journalAck e.jseq)

/-- A request of a shadow by ring index that has no commit yet. -/
def ShadowQp.update (x : ShadowQp) (idx : Nat) (f : ShadowReq → ShadowReq) : ShadowQp :=
  { x with reqs := x.reqs.map fun r => if r.ringIdx == idx && r.commit.isNone then f r else r }

/-- The head after a request of `n` entries at `idx`. -/
def ShadowQp.headAfter (x : ShadowQp) (idx n : Nat) (virtio packed : Bool) : ShadowQp :=
  let d := x.depth
  if virtio && !packed then { x with sqHead := (x.sqHead + 1) % 65536 }
  else { x with sqHead := (idx + n) % d, wrap := if packed && decide (d ≤ idx + n) then !x.wrap else x.wrap }

/-- ADMIT (Table 09-8). -/
def execAdmitEntry (e : JHead) (a : JAdmit) (s : State) : Res :=
  .next (s.journal e fun x =>
    let r : ShadowReq :=
      { ringIdx := a.ringIdx, count := a.count, cid := a.cid, epoch := a.epoch, time := a.time, strict := e.strict, network := e.network,
        write := e.write, issued := none, commit := none, counts := [] }
    ({ x with reqs := x.reqs ++ [r] }).headAfter a.ringIdx a.count (s.isVirtio e.q) (s.shadowPacked e.q))

/-- ISSUE (Table 09-8): effect 1 a frame into stage 1, 2 a back-end work item. -/
def execIssue (e : JHead) (ringIdx effect : Nat) (s : State) : Res :=
  .next (s.journal e fun x => x.update ringIdx fun r => { r with issued := some effect })

/-- RELEASE (Table 09-8). -/
def execRelease (e : JHead) (ringIdx : Nat) (s : State) : Res :=
  .next (s.journal e fun x => { x with reqs := x.reqs.filter fun r => !(r.ringIdx == ringIdx && r.commit.isNone) })

/-- Counts of the peer's request, in the minute of its commit (R231). -/
def State.countsCame (s : State) (acct : Nat) : List (Nat × Nat) → State
  | [] => s
  | (c, n) :: r => State.countsCame (s.peerInc acct c s.minute n) acct r

/-- COUNTS (Table 09-8): directly after its COMMIT, whose account they count against. -/
def execCounts (e : JHead) (pairs : List (Nat × Nat)) (s : State) : Res :=
  .next (if s.up && s.paired && s.galv.peer == .paired then (s.journal e id).countsCame s.galv.commitAcct pairs else s)

/-- WMARK (Table 09-8): each ring of a function with activity sends its watermark. -/
def State.wmarks (s : State) : List Nat → State
  | [] => s
  | q :: qs =>
    let c := s.qp q
    let h : JHead := { q := q, jseq := s.galv.jseq, strict := false, network := false, write := false }
    let body := match s.markOf q with
      | .syncRing _ hd t cs ph => [hd, t, cs, b2n ph]
      | _ => []
    State.wmarks (if c.st == .active || c.st == .parked then
      { s with galv := { s.galv with jseq := s.galv.jseq + 1 }, out := .journal h 6 body :: s.out } else s) qs

/-- WMARK (R280): every 1 µs. -/
def execWmark (s : State) : Res :=
  .next (s.whenUp fun s => if s.mirrored then s.wmarks s.servedRings else s)

end Sys2Proof.Machine
end

