-- ==== Sys2Proof/Machine/Device.lean ====
section
/-!
DEFINITION. Device.lean: the device commands (R45, R46, R48, R50, R51, R53), event packets (R41, R52) and the mailboxes' GO and DONE (R58).
-/

namespace Sys2Proof.Machine

/-! ### Device commands -/

/-- The version that an image header of the active slot holds; in recovery no image runs and it reads 0. -/
def State.imgVersion (s : State) (kind : Nat) : List Byte := if s.recovering then zeros 4 else ((s.imgHdr s.slot kind).drop 16).take 4

/-- DEV_INFO's reply parameters (Table 02-6). -/
def State.devInfoBytes (s : State) : List Byte :=
  leBytes 8 (s.reg R.TOP_ID.off).toNat ++ leBytes 8 Config.serial.toNat ++ leBytes 8 s.onf.floor ++ s.imgVersion 1 ++ s.imgVersion 2 ++
    leBytes 4 s.epoch ++ leBytes 2 (s.fld R.GALV_VER.LOCAL_SCHEMA) ++ leBytes 2 (s.topStatus.toNat % 65536) ++ leBytes 8 s.now

/-- DEV_INFO (R50). -/
def execDevInfo (r : OnfReq) (s : State) : Res := .next (s.command r 0x0001 fun s => s.reply r 0x0001 0 s.devInfoBytes)

/-- R272 refuses a DEV_RESET: a paired lead, and a mirror that serves any ring. -/
def State.resetRole (s : State) : Bool := (s.role == 1 && s.galv.peer == .paired) || (s.role == 2 && !s.servedRings.isEmpty)

/-- DEV_RESET (R53): the reply goes first; the reset waits for its delay. -/
def execDevReset (r : OnfReq) (serial : BitVec 64) (delayMs : Nat) (s : State) : Res :=
  .next (s.command r 0x0002 fun s =>
    if serial ≠ Config.serial then s.reply r 0x0002 E.PARAM []
    else if 60000 < delayMs then s.reply r 0x0002 E.PARAM_RANGE []
    else if s.resetRole then s.reply r 0x0002 E.TWIN_ROLE []
    else if s.onf.resetDelay.isSome then s.reply r 0x0002 E.BUSY []
    else
      let s1 := s.reply r 0x0002 0 []
      { s1 with onf := { s1.onf with resetDelay := some r } })

/-- DEV_RESET_DELAY_EXPIRY (R53): a mirror says goodbye before it resets (R272). -/
def execDevResetDelayExpiry (s : State) : Res :=
  .next (s.whenUp fun s =>
    if s.onf.resetDelay.isNone then s
    else (if s.role = 2 then s.emit .goodbye else s).warmReset .onafaet)

/-- A channel's event mask takes a value. -/
def State.setMask (s : State) (ch m : Nat) : State := { s with onf := { s.onf with subs := smPut 0 s.onf.subs ch m } }

/-- EVT_SUBSCRIBE (R51): bit 6 asks for a critical request or the Lining door. -/
def execEvtSubscribe (r : OnfReq) (classes : BitVec 64) (s : State) : Res :=
  .next (s.command r 0x0003 fun s =>
    if 1024 ≤ classes.toNat then s.reply r 0x0003 E.PARAM []
    else if classes.getLsbD 6 && !r.crit && r.ch != 35 then s.reply r 0x0003 E.PRIVILEGE []
    else (s.setMask r.ch classes.toNat).reply r 0x0003 0 (leBytes 8 classes.toNat))

/-- OEM_COMMAND (R48): the handler of the OEM's image fixes the one reply, so its status and its parameters are free. -/
def execOemCommand (r : OnfReq) (opcode : Nat) (_params : List (BitVec 8)) (s : State) : Res :=
  .next (if 0x8000 ≤ opcode ∧ opcode < 0x10000 then
      s.command r opcode fun s =>
        let st := s.free % 65536
        let s1 := s.drawn.emit (.oem r.ch opcode)
        s1.drawn.reply r opcode st (s1.freeBytes (4 * (s1.free % 1012)))
    else s)

/-! ### The ceiling (R45) -/

/-- CEILING_WRITE_RETRY (R45): each copy that the flash takes holds the waiting ceiling; critical packets are accepted once both do. -/
def execCeilingWriteRetry (okInactive okActive : Bool) (s : State) : Res :=
  .next (s.whenUp fun s =>
    match s.onf.ceilPending with
    | none => s
    | some h =>
      let w0 := if s.slot = 0 then okActive else okInactive
      let w1 := if s.slot = 0 then okInactive else okActive
      let c0 := if w0 then h else s.onf.ceil0
      let c1 := if w1 then h else s.onf.ceil1
      { s with onf := { s.onf with ceil0 := c0, ceil1 := c1, ceilPending := if c0 = h ∧ c1 = h then none else some h } })

/-! ### Event packets (R41, R52) -/

/-- An EVT packet's parameters (Table 02-20). -/
def evtParams (cls : Nat) (e : EvtPkt) : List Byte :=
  leBytes 2 cls ++ zeros 2 ++ leBytes 4 e.epoch ++ leBytes 8 e.time ++ leBytes 8 e.value.toNat

/-- EVT_PACKET_SEND (R52): SEQ counts the packets that a channel was sent. -/
def execEvtPacketSend (ch cls : Nat) (s : State) : Res :=
  .next (s.whenUp fun s =>
    match s.onf.evts.find? fun e => e.1 == evtKey ch cls with
    | none => s
    | some e =>
      if !s.chanOpen ch then s
      else
        let n := smGet 0 s.onf.evtSeq ch
        let s1 : State := { s with onf := { s.onf with
            evts := smDel s.onf.evts (evtKey ch cls), evtSeq := smPut 0 s.onf.evtSeq ch ((n + 1) % 2 ^ 32) } }
        s1.send ch
          { opcode := 3, seq := n, sender := 0xF0000000, tag := 0, status := e.2.status, ctr := 0, crit := false, evt := true, more := false
            params := evtParams cls e.2 })

/-! ### Mailboxes (R58) -/

/-- Control-space offset of a door's mailbox (Table 02-1). -/
def doorBase (ch : Nat) : Nat := if ch = 34 then 0xA010000 else 0xA020000

/-- The world tag of a door. -/
def doorTag (ch : Nat) : RegTag := if ch = 34 then .s else .l

/-- An access to a mailbox by someone who reaches it: a PF mailbox through its PF's BAR, a door as its world tag admits. -/
def State.mbxTry (s : State) (ch : Nat) (who : Agent) (k : AccKind) (off : Nat) (f : State → State) : State :=
  if ch < 32 then
    match who with
    | .host g => if s.fnReachable (0x1000 + ch) && g == 0x1000 + ch then f s else s
    | _ => s
  else if s.tagAdmits (doorTag ch) 0 who then f s
  else s.violation who k 4 0x7F (doorBase ch + off)

/-- A write of 1 to GO: the request buffer is submitted; while BUSY is 1 it only sets OVERRUN. -/
def State.mbxGo (s : State) (ch : Nat) : State :=
  let m := s.mbx ch
  s.setMbx ch (if m.busy then { m with overrun := true } else { m with go := true, busy := true })

/-- MAILBOX_GO (R58). The device then takes the packet as ONAFAET_PACKET_ARRIVAL. -/
def execMailboxGo (ch : Nat) (who : Agent) (s : State) : Res :=
  .next (s.whenUp fun s => if isMbx ch then s.mbxTry ch who .write 0x2000 fun s => s.mbxGo ch else s)

/-- A write of 1 to DONE: the reply buffer is free. BUSY falls with the last packet of a reply; the next packet that waits goes in. -/
def State.mbxDone (s : State) (ch : Nat) : State :=
  let m := s.mbx ch
  if m.done then (s.setMbx ch { m with done := false, busy := m.busy && m.lastMore }).mbxNext ch else s

/-- MAILBOX_DONE_CLEAR (R58). -/
def execMailboxDoneClear (ch : Nat) (who : Agent) (s : State) : Res :=
  .next (s.whenUp fun s => if isMbx ch then s.mbxTry ch who .write 0x2000 fun s => s.mbxDone ch else s)

end Sys2Proof.Machine
end

