-- ==== Sys2Proof/Machine/Header.lean ====
section
/-!
DEFINITION. Header.lean: the fields of an Onafaet header (Table 02-2), and the checks that its bytes alone decide: steps 1 to 3 of Table 02-4 (R39, R474).
-/

namespace Sys2Proof.Machine

/-- FLAGS and PLEN of a header. -/
def onfFlags (b : List Byte) : Nat := leAt b 3 1
def onfPlen (b : List Byte) : Nat := leAt b 6 2

/-- CRIT of a header. -/
def onfCrit (b : List Byte) : Bool := (onfFlags b).testBit 0

/-- Steps 1 and 2: the code of a packet that is dropped. -/
def hdrDrop (b : List Byte) : Option Nat :=
  if leAt b 0 2 ≠ 0x4F4E then some E.BAD_MAGIC
  else if leAt b 2 1 ≠ 2 then some E.BAD_VERSION
  else if leAt b 30 2 ≠ crc16 (padTo 30 b) then some E.HCRC
  else none

/-- PLEN lies within its limits: a multiple of 4, at most 4,064, at least the trailer (R36, R37). -/
def plenOk (b : List Byte) : Bool :=
  decide (onfPlen b % 4 = 0) && decide (onfPlen b ≤ 4064) && decide ((if onfCrit b then 16 else 4) ≤ onfPlen b)

/-- R474: header fields that no request may have. -/
def hdrBad (b : List Byte) : Bool :=
  let f := onfFlags b
  f.testBit 1 || f.testBit 2 || decide (16 ≤ f) || decide (leAt b 28 2 ≠ 0) || (!onfCrit b && decide (leAt b 16 8 ≠ 0))

end Sys2Proof.Machine
end

