-- ==== Sys2Proof/Machine/Stitch.lean ====
section
/-!
DEFINITION. Stitch.lean: STITCH_DISPATCH and STITCH_DATA_WRITTEN: how transfers advance and end (R104, R136–R139, R153–R162).
-/

namespace Sys2Proof.Machine

/-- STITCH_DISPATCH (R104, R136–R139): frames that wait for functions of the port get their transfers; then the scheduler of a host port and
direction, or of a panel's local channels (port 32 + panel), picks the next stitch. -/
def execStitchDispatch (port : Nat) (toHost : Bool) (s : State) : Res :=
  .next (s.whenUp fun s =>
    let s0 := if toHost then s.rxKick port s.selv.rx [] else s
    match s0.pick port toHost with
    | none => s0
    | some (s1, x, guar) =>
      if x.next < x.len then s1.stitchOut x guar
      else match x.tail with
        | some a => s1.tailWrite x a
        | none => s1)

/-- Every stitch of a transfer has been written. -/
def State.xferEnd (s : State) (x : Xfer) : State :=
  match x.purpose with
  | .req _ _ =>
    let net := match (s.qp x.q).req? x.purpose.rid with
      | some r => r.isNet
      | none => false
    if net then s.netOut x else s.reqDone x
  | .move b wid _ n => s.moveDone x b wid n
  | .rx q rid full ew acct more => s.rxDone x q full ew acct (rid :: more)

/-- STITCH_DATA_WRITTEN (R137): the oldest stitch of a transfer in flight is written; with the last one the transfer ends. -/
def execStitchDataWritten (xid : Nat) (s : State) : Res :=
  .next (s.whenUp fun s =>
    match s.xfer? xid with
    | none => s
    | some x =>
      if s.panelHeld x.panel then s
      else match x.flight with
      | [] => s
      | st :: rest =>
        let r := (s.moveData x st).stitchIn x st rest
        let y := r.2
        State.invalSweep <|
        if y.st = .failed then (if rest.isEmpty then r.1.failDone y else r.1)
        else if st.poison then r.1.failDone { y with st := .failed, status := E.POISON, flight := [] }
        else if rest.isEmpty && decide (y.len ≤ y.next) && y.tail.isNone then r.1.xferEnd y
        else r.1)

/-- Transmit requests whose ISSUE has been acknowledged go on (R281). -/
def State.netResume (s : State) : List Xfer → State
  | [] => s
  | x :: xs =>
    let go : Bool := match s.xfer? x.xid with
      | some y => y.flight.isEmpty && decide (y.len ≤ y.next) && y.st != .failed && (match y.purpose with
        | .req _ rid => (match (s.qp y.q).req? rid with
          | some r => r.isNet && r.issueJ.isSome && s.jdone r.issueJ
          | none => false)
        | _ => false)
      | none => false
    State.netResume (if go then s.netOut x else s) xs

end Sys2Proof.Machine
end

