-- ==== Sys2Proof/Machine/Safe.lean ====
section
/-!
DEFINITION. Safe.lean: dangerous faults, their containment and record, the watchdogs, injection (R245–R256, R455).
-/

namespace Sys2Proof.Machine

/-! ### Parking by containment (R252) -/

/-- A ring is parked by containment: it reads PARKED with E_POISON, and nothing of its transfers is written any more. -/
def State.contain (s : State) (q : Nat) : State :=
  let c := s.qp q
  let s1 := s.setQp q { c with st := .parked, contained := true, errcode := E.POISON, drain := none, shadowOut := false }
  { s1 with shut := { s1.shut with xfers := s1.shut.xfers.map fun x => if x.q == q then { x with flight := [] } else x } }

/-- Every ring of a list. -/
def State.containAll (s : State) (qs : List Nat) : State := qs.foldl State.contain s

/-- The granted QPs, adopted rings and running local channels that are homed in a panel. -/
def State.ringsHomed (s : State) (p : Nat) : List Nat :=
  let own := (s.regs.filter fun e =>
      decide (R.QFAB_QOWN.off 0 ≤ e.1) && decide (e.1 < R.QFAB_QOWN.off 65536) && getBits e.2 15 1 == 1).map
    fun e => (e.1 - R.QFAB_QOWN.off 0) / 8
  let more := (s.qps.filter fun e => (isLc e.1 && e.2.st != .quiesced) || (isAdopted e.1 && e.2.st != .free)).map (·.1)
  (own ++ more).filter fun q => ringHome q == p

/-- The rings of the functions of a panel's host ports. -/
def State.ringsPorted (s : State) (p : Nat) : List Nat :=
  ((List.range 8).map (8 * p + ·)).flatMap fun n => (s.portFns n).flatMap fun f => s.ringsOf f

/-! ### Scopes (Table 08-8) -/

/-- The mechanism, class and scope of a fault are those of Tables 08-7 and 08-8. -/
def faultFits (x : FaultInfo) : Bool :=
  decide (1 ≤ x.mech) && decide (x.mech ≤ 10) && decide (x.panel < 4) && decide (x.tile ≤ 9) &&
    match x.cls, x.scope with
    | 1, .transfer _ => true
    | 1, .packet => true
    | 2, .qp _ => true
    | 2, .function _ => true
    | 3, .panel p => p == x.panel
    | 3, .tape => true
    | 4, .panel p => p == x.panel
    | 5, .device => true
    | _, _ => false

/-- A stitch in flight keeps its first `k` chunks, and poison follows. -/
def Stitch.cut (st : Stitch) (k : Nat) : Stitch :=
  { st with len := min st.len (64 * k), bytes := st.bytes.take (64 * k), dst := (cutPieces st.dst (64 * k)).1, diff := none, poison := true }

/-- Poison in a transfer's data: the oldest stitch in flight stops at its last clean chunk, which is free; with none in flight the transfer fails. -/
def State.poisonXfer (s : State) (xid : Nat) : State :=
  match s.xfer? xid with
  | none => s
  | some x =>
    match x.flight with
    | [] => if x.st = .failed || x.st = .done then s else s.failXfer x E.POISON
    | st :: _ => s.drawn.putXfer { x with flight := [st.cut (s.free % (st.len / 64 + 1))] }

/-- A packet that carries poison is dropped; on a wire it ends with an inverted FCS. Which of those in a panel's buffers it is, is free. -/
def State.poisonPacket (s : State) (p : Nat) : State :=
  let a := s.selv.miss.filter fun k => k.pipe == p
  let b := s.selv.rx.filter fun k => k.pipe == p
  let c := s.selv.egress.filter fun e => macPanel (e.1 / 8) == p && !e.2.isEmpty
  let i := s.free % (a.length + b.length + c.length)
  let s1 := s.drawn
  if a.length + b.length + c.length = 0 then s1
  else if i < a.length then
    match (a.drop i).head? with
    | some k => { s1 with selv := { s1.selv with miss := s1.selv.miss.erase k } }
    | none => s1
  else if i < a.length + b.length then
    match (b.drop (i - a.length)).head? with
    | some k => { s1 with selv := { s1.selv with rx := s1.selv.rx.erase k } }
    | none => s1
  else
    match (c.drop (i - a.length - b.length)).head? with
    | some e =>
      match e.2 with
      | k :: ks => ({ s1 with selv := { s1.selv with egress := smPut [] s1.selv.egress e.1 ks } }).emit (.frame (e.1 / 8) k.frame true)
      | [] => s1
    | none => s1

/-- A fault of the Tape (R253): without a twin the affected bank, named by UNIT's low bit, is zeroed and its counts are void. -/
def State.poisonTape (s : State) (unit : Nat) : State :=
  if s.paired then s
  else
    let b := unit % 2 == 1
    let x := if b then s.tape.bank1 else s.tape.bank0
    s.setBank b { x with counts := [], void := true }

/-- What the containment of a class 1 to 4 fault does. -/
def State.containFault (s : State) (x : FaultInfo) : State :=
  match x.cls, x.scope with
  | 1, .transfer xid => s.poisonXfer xid
  | 1, _ => s.poisonPacket x.panel
  | 2, .qp q => if (s.qp q).st = .free then s else s.contain q
  | 2, .function f => s.containAll (s.ringsOf f)
  | 3, .tape => s.poisonTape x.unit
  | 3, _ =>
    s.containAll (s.ringsHomed x.panel ++ (s.shut.xfers.filter fun y => y.panel == x.panel).map (·.q))
  | 4, _ =>
    let s1 := (s.panelQuiet x.panel).containAll (s.ringsHomed x.panel ++ s.ringsPorted x.panel)
    { s1 with safe := { s1.safe with panelHeld := if s1.safe.panelHeld.contains x.panel then s1.safe.panelHeld else x.panel :: s1.safe.panelHeld } }
  | _, _ => s

/-- TWIN_FAULT_OUT is driven. -/
def State.faultOut (s : State) : State := { s with sys := { s.sys with faultOut := true } }

/-- An injection that waits for this detection is over (Table 08-15). -/
def State.injectSeen (s : State) (mech panel tile : Nat) : State :=
  if s.safe.inject == some (mech, panel, tile) then
    ({ s with safe := { s.safe with inject := none } }).clrBit R.SAFE_INJECT.GO
  else s

/-! ### Detection (R250, R255, R381) -/

/-- A class 5 fault: outputs gated, TWIN_FAULT_OUT, then a warm reset. The loss of a reference clock has its own (R22). -/
def State.deviceFault (s : State) (mech : Nat) : State :=
  if mech = 8 then
    { ((s.faultOut).setBit R.TOP_RSTCAUSE.CLOCK).coreReset with
      sys := { (((s.faultOut).setBit R.TOP_RSTCAUSE.CLOCK).coreReset).sys with phase := .clockHold false, aonBackup := true } }
  else s.faultOut.warmReset .safe

/-- A dangerous fault is detected: recorded, contained, reported. While the containment of an earlier one runs, for at most 1 µs, it counts as class 5. In
verified start a mismatch of the Thimble lockstep pair and an uncorrectable word of Lining SRAM halt the device with codes of their own. -/
def State.detect (s : State) (x : FaultInfo) : State :=
  let s0 := s.injectSeen x.mech x.panel x.tile
  if s.sys.phase = .starting && x.mech = 6 then (s0.safeRecord x.mech x.cls x.panel x.tile x.unit x.detail).bootHalt 0x22
  else if s.sys.phase = .starting && x.mech = 1 && x.tile = 9 then (s0.safeRecord x.mech x.cls x.panel x.tile x.unit x.detail).bootHalt 0x28
  else
    let again := decide (s.now < s.safe.contUntil)
    let s1 := s0.safeRecord x.mech (if again then 5 else x.cls) x.panel x.tile x.unit x.detail
    if again then s1.faultOut.warmReset .safe
    else if x.cls = 5 then s1.deviceFault x.mech
    else
      let s2 := s1.containFault x
      let s3 := if 2 ≤ x.cls then s2.faultOut else s2
      ({ s3.drawn with safe := { s3.safe with contUntil := s3.now + s3.free % 1001 } }).endWaits

/-- DANGEROUS_FAULT_DETECT (R250). -/
def execDangerousFaultDetect (flt : FaultInfo) (s : State) : Res :=
  .next (s.whenUp fun s => if faultFits flt then s.detect flt else s)

/-- CORRECTED_ERROR (R249). -/
def execCorrectedError (s : State) : Res :=
  .next (s.whenUp fun s => ((s.bump R.SAFE_STATUS.CE_COUNT 1).safeEvt R.SAFE_STATUS.CE_EVT).endWaits)

/-- The fault of a sequencer that has not progressed for 6 µs: class 3, mechanism 10, in its tile. -/
def seqFault (q : Sequencer) (panel : Nat) : FaultInfo :=
  { mech := 10, cls := 3, panel := panel, unit := 0, detail := 0
    tile := match q with | .queue => 4 | .shuttle => 4 | .selvedge => 5 | .tape => 7
    scope := match q with | .tape => .tape | _ => .panel panel }

/-- SEQUENCER_WATCHDOG_EXPIRY (R245). -/
def execSequencerWatchdogExpiry (seqr : Sequencer) (panel : Nat) (s : State) : Res :=
  .next (s.whenUp fun s => if panel < 4 then s.detect (seqFault seqr panel) else s)

/-- VOLTAGE_MONITOR_TRIP (R455): the rails in the order of Table 17-8; VPP_FUSE, number 8, is exempt. -/
def execVoltageMonitorTrip (rail : Nat) (s : State) : Res :=
  .next (s.whenUp fun s =>
    if rail < 8 then s.detect { mech := 9, cls := 5, panel := 0, tile := 9, unit := rail, detail := 0, scope := .device } else s)

/-! ### The device watchdog (R245, Table 08-14) -/

/-- A write of SAFE_WDOG: PERIOD_MS while ENABLE is 0, and ENABLE, which only sets. A kick restarts a count whose length is time. -/
def State.wdogWrite (s : State) (data : W64) : State :=
  let s1 := if s.bit R.SAFE_WDOG.ENABLE then s else s.setFld R.SAFE_WDOG.PERIOD_MS (getBits data 16 20)
  if getBit data 36 then s1.setBit R.SAFE_WDOG.ENABLE else s1

/-- SAFE_WDOG_KICK (R245). -/
def execSafeWdogKick (who : Agent) (data : BitVec 64) (s : State) : Res :=
  .next (s.whenUp fun s => s.regTry who .write R.SAFE_WDOG.off fun s => s.wdogWrite data)

/-- SAFE_WDOG_ENABLE (R245). -/
def execSafeWdogEnable (who : Agent) (data : BitVec 64) (s : State) : Res :=
  .next (s.whenUp fun s => s.regTry who .write R.SAFE_WDOG.off fun s => s.wdogWrite data)

/-- DEVICE_WATCHDOG_EXPIRY (R245): TWIN_FAULT_OUT, then a warm reset with cause WDOG. -/
def execDeviceWatchdogExpiry (s : State) : Res :=
  .next (s.whenUp fun s => if s.bit R.SAFE_WDOG.ENABLE then s.faultOut.warmReset .wdog else s)

/-! ### Injection (R256, Table 08-15) -/

/-- A write of SAFE_INJECT: MECH, PANEL and TILE, and with GO one fault to come. Its detection is a command like that of a real one. -/
def State.injectWrite (s : State) (data : W64) : State :=
  let s1 := ((s.setFld R.SAFE_INJECT.MECH (getBits data 0 4)).setFld R.SAFE_INJECT.PANEL (getBits data 4 2)).setFld R.SAFE_INJECT.TILE (getBits data 6 4)
  let m := getBits data 0 4
  if getBit data 10 && decide (1 ≤ m) && decide (m ≤ 10) && s1.safe.inject.isNone then
    { s1.setBit R.SAFE_INJECT.GO with safe := { s1.safe with inject := some (m, getBits data 4 2, getBits data 6 4) } }
  else s1

/-- SAFE_INJECT (R256). -/
def execSafeInject (who : Agent) (data : BitVec 64) (s : State) : Res :=
  .next (s.whenUp fun s => s.regTry who .write R.SAFE_INJECT.off fun s => s.injectWrite data)

end Sys2Proof.Machine
end

