-- ==== Sys2Proof/Machine/Moult.lean ====
section
/-!
DEFINITION. Moult.lean: the self-test of SRAM slices and cache ways (R424–R430).
-/

namespace Sys2Proof.Machine

/-! ### Slices (R424) -/

/-- Group code, panel and index of a slice ID. -/
def sliceGroup (s : Nat) : Nat := s / 4096
def slicePanel (s : Nat) : Nat := s / 1024 % 4
def sliceIndex (s : Nat) : Nat := s % 1024

/-- A slice ID names a slice: groups 5 and 6 stand in the always-on logic, with panel 0. -/
def sliceExists (s : Nat) : Bool :=
  decide (sliceGroup s < 7) && decide (sliceIndex s < moultInUse (sliceGroup s) + moultSpareCount (sliceGroup s)) &&
    (decide (sliceGroup s < 5) || slicePanel s == 0)

/-- A group of a panel, as `noTest` names it. -/
def sliceKey (s : Nat) : Nat := 16 * sliceGroup s + slicePanel s

/-- The groups: 0 to 4 in each panel, 5 and 6 once. -/
def sliceKeys : List Nat := ((List.range 20).map fun i => 16 * (i / 4) + i % 4) ++ [80, 96]

/-- The first slice ID of a group, and its slices. -/
def keyBase (k : Nat) : Nat := k / 16 * 4096 + k % 16 * 1024
def keySlices (k : Nat) : List Nat := (List.range (moultInUse (k / 16) + moultSpareCount (k / 16))).map (keyBase k + ·)

/-- A slice is a spare now. -/
def State.isSpare (s : State) (x : Nat) : Bool := smGet (moultSpare0 x) s.pow.spares x

/-- A slice becomes a spare or goes into use. -/
def State.setSpare (s : State) (x : Nat) (b : Bool) : State :=
  { s with pow := { s.pow with spares := smPut (moultSpare0 x) s.pow.spares x b } }

/-- The test of a slice. -/
def State.sliceTest (s : State) (x : Nat) : Option MoultTest := (s.pow.tests.find? fun e => e.1 == x).map (·.2)

/-- Tests are replaced; ACTIVE counts them. -/
def State.setTests (s : State) (l : List (Nat × MoultTest)) : State :=
  ({ s with pow := { s.pow with tests := l } }).setFld R.MOULT_STATUS.ACTIVE l.length

/-- The lowest-numbered spare of a slice's group that is neither retired, under test, nor taken by another copy. -/
def State.freeSpare (s : State) (x : Nat) : Option Nat :=
  (keySlices (sliceKey x)).find? fun y =>
    s.isSpare y && !s.pow.retired.contains y && (s.pow.tests.all fun e => e.1 != y && e.2.spare != some y)

/-- Retired slices of a group, and spares it has left. -/
def State.retiredOf (s : State) (k : Nat) : Nat := (s.pow.retired.filter fun x => sliceKey x == k).length
def State.sparesLeft (s : State) (k : Nat) : Nat := moultSpareCount (k / 16) - s.retiredOf k

/-- The power state of a slice's unit: its panel; the always-on logic is always in Bask. -/
def State.sliceState (s : State) (x : Nat) : Nat := if sliceGroup x < 5 then s.unitState (16 + slicePanel x) else 0

/-- The tile in which a slice stands, coded as SAFE_REC0.TILE (R12). -/
def sliceTile (x : Nat) : Nat :=
  match sliceGroup x with
  | 0 => 6
  | 1 => 5
  | 2 => 5
  | 3 => 4
  | 4 => 7
  | _ => 9

/-! ### Reporting -/

/-- Set a MOULT_STATUS event bit and raise event class 5. -/
def State.moultEvt (s : State) (f : Fld) : State := (s.setBit f).event 5

/-- APLIC source 9 of panel P0 (Table 15-19). -/
def State.irqMoult (s : State) : Bool :=
  s.bit R.MOULT_STATUS.IRQ_EN &&
    (s.bit R.MOULT_STATUS.PASS_EVT || s.bit R.MOULT_STATUS.RETIRE_EVT || s.bit R.MOULT_STATUS.NOSPARE_EVT)

/-- Slices that a pass tests: every one that is not retired, in groups that are still tested. -/
def State.passTotal (s : State) : Nat :=
  ((sliceKeys.filter fun k => !s.pow.noTest.contains k).map fun k =>
    moultInUse (k / 16) + moultSpareCount (k / 16) - s.retiredOf k).sum

/-- A pass whose slices have all been tested, or skipped in a sleeping unit, is over. -/
def State.passCheck (s : State) : State :=
  let live := fun x => !s.pow.retired.contains x && !s.pow.noTest.contains (sliceKey x)
  if s.passTotal ≤ ((s.pow.tested ++ s.pow.first).filter live).length then
    ((({ s with pow := { s.pow with tested := [] } }).setFld R.MOULT_STATUS.DONE 0).clrBit R.MOULT_STATUS.FULLRATE |>.bump
      R.MOULT_STATUS.PASSES 1).moultEvt R.MOULT_STATUS.PASS_EVT
  else s

/-! ### Tests (R425) -/

/-- The test of a slice begins: at the March for a spare, else with a copy to a spare. -/
def State.testBegin (s : State) (x : Nat) (spare : Option Nat) : State :=
  let s1 := if sliceGroup x < 5 && s.sliceState x == 1 then s.wakeUnit (16 + slicePanel x) else s
  let s2 := s1.setTests (s1.pow.tests ++ [(x, { march := s.isSpare x, spare := spare })])
  { s2 with pow := { s2.pow with first := s2.pow.first.filter (· != x) } }

/-- How a test that is asked for stands: the code that refuses it, or the spare it takes. -/
def State.testJudge (s : State) (x : Nat) : Nat × Option Nat :=
  if !sliceExists x then (E.PARAM_RANGE, none)
  else if s.pow.retired.contains x || s.pow.noTest.contains (sliceKey x) then (E.NO_SPARE, none)
  else if (s.sliceTest x).isSome || decide (4 ≤ s.pow.tests.length) then (E.BUSY, none)
  else if 2 ≤ s.sliceState x then (E.POWER_STATE, none)
  else if s.isSpare x then (if s.pow.tests.any fun e => e.2.spare == some x then (E.BUSY, none) else (0, none))
  else match s.freeSpare x with
    | some y => (0, some y)
    | none => (E.BUSY, none)

/-- MOULT_SLICE_TEST_START (R427): each slice once in a pass. A slice of a unit in Brumate is skipped and tested first after the wake. -/
def execMoultSliceTestStart (slice : Nat) (s : State) : Res :=
  .next (s.whenUp fun s =>
    if s.pow.tested.contains slice then s
    else
      let r := s.testJudge slice
      if r.1 = E.POWER_STATE && s.sliceState slice == 2 then
        (if s.pow.first.contains slice then s else { s with pow := { s.pow with first := s.pow.first ++ [slice] } })
      else if r.1 = 0 then s.testBegin slice r.2
      else s)

/-- MOULT_REDIRECT (R425): from this edge on the spare is in use and the slice is isolated. -/
def execMoultRedirect (slice : Nat) (s : State) : Res :=
  .next (s.whenUp fun s =>
    match s.sliceTest slice with
    | some t =>
      match t.march, t.spare with
      | false, some y =>
        (s.setSpare y false).setTests (s.pow.tests.map fun e => if e.1 == slice then (e.1, { march := true, spare := none }) else e)
      | _, _ => s
    | none => s)

/-- Answer the MOULT_RUN commands that wait for a slice's test. -/
def State.moultAnswer (s : State) (x code : Nat) : State :=
  let w := s.onf.moultWait.filter fun e => e.1 == x
  let s1 : State := { s with onf := { s.onf with moultWait := s.onf.moultWait.filter fun e => e.1 != x } }
  w.foldl (fun (s : State) e => s.reply e.2 0x0801 code []) s1

/-- The group of a slice is left with no spare (R428). -/
def State.noSpare (s : State) (x : Nat) : State :=
  let s1 := ({ s with pow := { s.pow with noTest := s.pow.noTest ++ [sliceKey x] } }).moultEvt R.MOULT_STATUS.NOSPARE_EVT
  let p := slicePanel x
  s1.detect { mech := 11, cls := if sliceGroup x < 5 then 3 else 5, panel := p, tile := sliceTile x, unit := x, detail := 0
              scope := if sliceGroup x < 5 then .panel p else .device }

/-- A slice that fails is retired (R428). -/
def State.retireSlice (s : State) (x : Nat) : State :=
  let s0 : State := { s with pow := { s.pow with
    retired := s.pow.retired ++ [x], tested := s.pow.tested.filter (· != x), first := s.pow.first.filter (· != x) } }
  let s1 := (s0.setSpare x false).safeCapture 11 0 (slicePanel x) (sliceTile x) x 0
  let s2 := ((s1.setFld R.MOULT_LAST.SLICE x).bump R.MOULT_LAST.RETIRED 1).setFld R.MOULT_LAST.MIN_SPARES
    (((sliceKeys.map s1.sparesLeft).min?).getD 0)
  let s3 := ((s2.safeEvt R.SAFE_STATUS.LATENT_EVT).moultEvt R.MOULT_STATUS.RETIRE_EVT).moultAnswer x E.MOULT_FAIL
  if s3.sparesLeft (sliceKey x) = 0 then s3.noSpare x else s3.endWaits

/-- MOULT_MARCH_COMPLETE (R425, R428): a slice that passes becomes a spare. -/
def execMoultMarchComplete (slice : Nat) (fails : Bool) (s : State) : Res :=
  .next (s.whenUp fun s =>
    match s.sliceTest slice with
    | some t =>
      if !t.march then s
      else
        let s1 := s.setTests (s.pow.tests.filter fun e => e.1 != slice)
        if fails then (s1.retireSlice slice).passCheck
        else
          let tested := if s1.pow.tested.contains slice then s1.pow.tested else s1.pow.tested ++ [slice]
          let s2 := (({ s1 with pow := { s1.pow with tested := tested } }).setSpare slice true).setFld R.MOULT_STATUS.DONE tested.length
          (s2.moultAnswer slice 0).passCheck
    | none => s)

/-- MOULT_WAY_TEST (R426): caches hold nothing that this model does not see in memory, so the test of a way shows only in that it wakes a core tile
from Doze. Level 0 is L1I, 1 L1D, 2 L2. -/
def execMoultWayTest (tile level _way : Nat) (s : State) : Res :=
  .next (s.whenUp fun s => if tile < 16 && decide (level < 3) && s.unitState tile == 1 then s.wakeUnit tile else s)

/-! ### MOULT_RUN, MOULT_STATUS (R427) -/

/-- MOULT_RUN_PERIOD: a period that PERIOD_S cannot hold acts as 86,400 s like its greatest value. -/
def execMoultRunPeriod (r : OnfReq) (periodS : Nat) (s : State) : Res :=
  .next (s.command r 0x0801 fun s => (s.setFld R.MOULT_CFG.PERIOD_S (min periodS 0x1FFFF)).reply r 0x0801 0 [])

/-- MOULT_RUN_SLICE: the reply waits for the end of the test. -/
def execMoultRunSlice (r : OnfReq) (slice : Nat) (s : State) : Res :=
  .next (s.command r 0x0801 fun s =>
    let j := s.testJudge slice
    if j.1 = 0 then
      { s.testBegin slice j.2 with onf := { (s.testBegin slice j.2).onf with moultWait := s.onf.moultWait ++ [(slice, r)] } }
    else s.reply r 0x0801 j.1 [])

/-- MOULT_RUN_FULLRATE: a pass begins. -/
def execMoultRunFullrate (r : OnfReq) (s : State) : Res :=
  .next (s.command r 0x0801 fun s =>
    if (List.range 4).any fun p => s.bit (throttleBit p) then s.reply r 0x0801 E.THERMAL []
    else ((({ s with pow := { s.pow with tested := [] } }).setFld R.MOULT_STATUS.DONE 0).setBit R.MOULT_STATUS.FULLRATE).reply r 0x0801 0 [])

/-- MOULT_STATUS. -/
def execMoultStatus (r : OnfReq) (s : State) : Res :=
  .next (s.command r 0x0802 fun s =>
    s.reply r 0x0802 0 (leBytes 8 (s.reg R.MOULT_STATUS.off).toNat ++ leBytes 8 (s.reg R.MOULT_LAST.off).toNat))

end Sys2Proof.Machine
end

