-- ==== Sys2Proof/Machine/TableCmd.lean ====
section
/-!
DEFINITION. TableCmd.lean: SELV_WRITE, SELV_READ and the table window (R204–R206): staging and reading the entries of Selvedge's tables.
-/

namespace Sys2Proof.Machine

/-- Entry size (Table 06-9); 0 where there is no such table. -/
def tabSize (t : Nat) : Nat :=
  if t = 1 then 16 else if t = 2 ∨ t = 3 ∨ t = 4 then 64 else if t = 5 ∨ t = 6 then 128 else if t = 7 then 32 else 0

/-- The locator of an entry (Table 06-9). -/
def tabLoc (t : Nat) (e : TabImage) : List Byte :=
  if t = 1 then tctLoc e.image
  else if t = 2 then e.image.take 40
  else if t = 3 then leBytes 2 (e.index / 65536) ++ (e.image.drop 52).take 4
  else leBytes 4 e.index

/-- The index lies in the table's range (Table 06-9). -/
def tabIndexOk (t i : Nat) : Bool :=
  if t = 4 then decide (i < 16777216)
  else if t = 5 then decide (i < 65536)
  else if t = 6 ∨ t = 7 then decide (i < 262144)
  else decide (i < 2 ^ 32)

/-- An entry is well formed: its image has the table's size and its reserved bits are 0. -/
def tabFormOk (t : Nat) (e : TabImage) : Bool :=
  e.image.length == tabSize t &&
    (if t = 1 then leAt e.image 2 2 == 0 && leAt e.image 14 1 % 64 < 2 && leAt e.image 15 1 == 0
     else if t = 3 then e.index % 65536 == 0 && decide (e.index < 2 ^ 28)
     else true)

/-- Replace a byte of a list. -/
def setByte (l : List Byte) (i : Nat) (f : Nat → Nat) : List Byte := setAt l i (BitVec.ofNat 8 (f (leAt l i 1)))

/-- The image that the device keeps: without PEND and SESSION, and a configured flow is not LEARNED. -/
def tabKeep (t : Nat) (im : List Byte) : List Byte :=
  if t = 1 then setByte im 14 (· % 64)
  else if t = 2 then setAt (setAt (setByte im 43 fun b => b &&& 0xF2) 46 0) 47 0
  else if t = 3 then setAt (setAt (setByte im 51 fun b => b &&& 0xF3) 56 0) 57 0
  else im

/-- An image as it reads: with PEND and SESSION in their fields, and a security association's key bytes 0. -/
def tabShow (t pend sess : Nat) (im : List Byte) : List Byte :=
  let b0 : Byte := BitVec.ofNat 8 sess
  let b1 : Byte := BitVec.ofNat 8 (sess / 256)
  if t = 1 then setByte im 14 (· + pend * 64)
  else if t = 2 then setAt (setAt (setByte im 43 (· + pend * 4)) 46 b0) 47 b1
  else if t = 3 then setAt (setAt (setByte im 51 (· + pend * 4)) 56 b0) 57 b1
  else if t = 6 then im.mapIdx fun i b => if Config.saKeyByte i then 0 else b
  else im

/-- The locator exists in the session's view. -/
def State.tabHas (s : State) (t : Nat) (loc : List Byte) : Bool := (s.tabView true t).any fun e => e.1 == loc

/-- The region of a table in SELV_TBASE. -/
def tabRegion (t : Nat) : Option Nat :=
  if t = 2 then some 0 else if t = 3 then some 2 else if t = 4 then some 3 else if t = 5 then some 4 else if t = 6 then some 5 else none

/-- An add would pass the size of its table (R205): the region of SELV_TBASE, the TCT's 65,536 entries, 65,536 rules of a tenant space
and 4,194,304 in all. For a flow, both of its buckets hold only configured entries. -/
def State.tabFull (s : State) (t : Nat) (e : TabImage) : Bool :=
  let log2 (r : Nat) : Nat := s.stagedFld (R.SELV_TBASE.LOG2 r)
  let n := (s.tabView true t).length
  match tabRegion t with
  | none => t == 1 && decide (65536 ≤ n)
  | some r =>
    if t = 2 then (s.bucketFor (log2 0) (e.image.take 40)).isNone
    else if t = 3 then
      decide (4194304 ≤ n) || decide (2 ^ log2 r / 64 ≤ n) ||
        decide (65536 ≤ ((s.tabView true 3).filter fun x => leAt x.1 0 2 == e.index / 65536).length)
    else decide (2 ^ log2 r / tabSize t ≤ e.index)

/-- What stands in the way of one entry (R205): `op` 1 add, 2 modify, 3 delete. -/
def State.tabRefusal (s : State) (t op : Nat) (e : TabImage) : Nat :=
  if !tabFormOk t e then E.PARAM
  else if !tabIndexOk t e.index then E.PARAM_RANGE
  else
    let there := s.tabHas t (tabLoc t e)
    if op = 1 then (if there then E.PARAM else if s.tabFull t e then E.TABLE_FULL else 0)
    else if there then 0
    else E.PARAM

/-- The bucket of a flow entry in the session's view: its present one, or a free one. -/
def State.tabBucket (s : State) (t : Nat) (e : TabImage) : Nat :=
  if t != 2 then 0
  else
    let loc := tabLoc t e
    match s.onf.session.bind fun ss => ss.tab? t loc with
    | some x => x.bucket
    | none =>
      match s.selv.tabs.find? fun x => x.table == 2 && x.loc == loc && x.till.isNone && !flowLearned x.image with
      | some x => x.bucket
      | none => (s.bucketFor (s.stagedFld (R.SELV_TBASE.LOG2 0)) loc).getD 0

/-- What staging an entry adds to the session. -/
def State.tabStage (s : State) (t op : Nat) (e : TabImage) : TabStage :=
  { table := t, loc := tabLoc t e, image := if op = 3 then none else some (tabKeep t e.image), bucket := s.tabBucket t e }

/-- Judge a packet's entries in order, each against the view that those before it leave: what they stage, or the first failing entry and its
code. -/
def State.tabPlan (s : State) (t op i : Nat) : List TabImage → List TabStage → Except (Nat × Nat) (List TabStage)
  | [], acc => .ok acc
  | e :: es, acc =>
    let c := s.tabRefusal t op e
    if c ≠ 0 then .error (i, c)
    else
      let x := s.tabStage t op e
      (s.stageTab x).tabPlan t op (i + 1) es (acc ++ [x])

/-- SELV_WRITE (R205). On a PF mailbox it acts on state shared beyond the port (R49). -/
def State.selvWrite (s : State) (r : OnfReq) (op sess table : Nat) (ents : List TabImage) : State :=
  let fail (i : Nat) : List Byte := leBytes 2 i
  s.command r 0x0A01 fun s =>
    if r.ch < 32 then (s.heard r (some sess)).reply r 0x0A01 E.PRIVILEGE (fail 0xFFFF)
    else if tabSize table = 0 then (s.heard r (some sess)).reply r 0x0A01 E.PARAM (fail 0xFFFF)
    else if ents.isEmpty then (s.heard r (some sess)).reply r 0x0A01 E.PARAM_RANGE (fail 0xFFFF)
    else s.inSession r 0x0A01 (some sess) E.PRIVILEGE true fun s _ =>
      if s.bit R.SELV_COMMIT.SWEEP then s.reply r 0x0A01 E.BUSY (fail 0xFFFF)
      else match s.tabPlan table op 0 ents [] with
        | .error (i, c) => s.reply r 0x0A01 c (fail i)
        | .ok tabs => s.stageAnd r 0x0A01 [] tabs (fail 0xFFFF)

/-- SELV_WRITE_ADD (R205). -/
def execSelvWriteAdd (r : OnfReq) (sess table : Nat) (ents : List TabImage) (s : State) : Res := .next (s.selvWrite r 1 sess table ents)

/-- SELV_WRITE_MODIFY (R205, R206). -/
def execSelvWriteModify (r : OnfReq) (sess table : Nat) (ents : List TabImage) (s : State) : Res := .next (s.selvWrite r 2 sess table ents)

/-- SELV_WRITE_DELETE (R205). -/
def execSelvWriteDelete (r : OnfReq) (sess table : Nat) (ents : List TabImage) (s : State) : Res := .next (s.selvWrite r 3 sess table ents)

/-- An entry as it reads in the live or the session's view (R204): the live view shows a staged modify or delete as a pending delete, the
session's view shows a staged add as a pending add. -/
def State.tabReadAt (s : State) (stg : Bool) (t : Nat) (loc : List Byte) : Option (List Byte) :=
  let live := (s.tabLive t loc).map (·.image)
  let num := (s.onf.session.map (·.number)).getD 0
  let commit := s.fld R.SELV_COMMIT.SESSION
  let liveShow := live.map fun im =>
    match s.tabLive t loc with
    | some x => if x.since.isSome then tabShow t 1 commit im else tabShow t 0 0 im
    | none => im
  match s.onf.session.bind fun ss => ss.tab? t loc with
  | none => liveShow
  | some x =>
    if stg then x.image.map fun im => tabShow t 1 num im
    else live.map fun im => tabShow t 2 num im

/-- SELV_READ: a key or index that holds no entry gives E_PARAM; an indexed table reads zeros there. -/
def State.tabRead (s : State) (stg : Bool) (t : Nat) (e : TabImage) : Except Nat (List Byte) :=
  if !tabIndexOk t e.index then .error E.PARAM_RANGE
  else match s.tabReadAt stg t (tabLoc t e) with
    | some im => .ok im
    | none => if 4 ≤ t then .ok (zeros (tabSize t)) else .error E.PARAM

/-- Read a packet's entries in order. -/
def State.tabReads (s : State) (stg : Bool) (t : Nat) : List TabImage → Except Nat (List Byte)
  | [] => .ok []
  | e :: es =>
    match s.tabRead stg t e, State.tabReads s stg t es with
    | .ok a, .ok b => .ok (a ++ b)
    | .error c, _ => .error c
    | _, .error c => .error c

/-- SELV_READ (R204). -/
def execSelvRead (r : OnfReq) (table : Nat) (staged : Bool) (ents : List TabImage) (s : State) : Res :=
  .next (s.command r 0x0A02 fun s =>
    if r.ch < 32 then s.reply r 0x0A02 E.PRIVILEGE []
    else if tabSize table = 0 then s.reply r 0x0A02 E.PARAM []
    else if ents.isEmpty then s.reply r 0x0A02 E.PARAM_RANGE []
    else if staged && s.onf.session.isNone then s.reply r 0x0A02 E.BASTE_NONE []
    else match s.tabReads staged table ents with
      | .error c => s.reply r 0x0A02 c []
      | .ok b => s.reply r 0x0A02 0 b)

/-! ### Table window (Table 06-12) -/

/-- Whether a hart write is staged, by R60: the session is open and not armed, its owner came through a door that admits the hart, and an L-tagged
register needs a critical session. -/
inductive HartStage where
  | staged | ignored | foreign
  deriving DecidableEq, Repr

/-- Judge a hart write to an RWB register or a table window. Nothing is staged without a session, in an armed one, or while the link to a paired
peer is lost. -/
def State.hartStage (s : State) (who : Agent) (ltag : Bool) : HartStage :=
  match s.openSession with
  | none => .ignored
  | some ss =>
    if ss.ownerCh != 34 && ss.ownerCh != 35 then .foreign
    else if ss.armed.isSome then .ignored
    else if s.linkLost then .ignored
    else if ss.ownerCh == 35 && s.world who != .lining then .foreign
    else if ltag && !ss.critical then .foreign
    else .staged

/-- The entry that SELV_TW_DATA holds. -/
def State.twImage (s : State) (t : Nat) : List Byte :=
  ((List.range 16).flatMap fun i => leBytes 8 (s.reg (R.SELV_TW_DATA.off i)).toNat).take (tabSize t)

/-- Bytes go into SELV_TW_DATA. -/
def State.twPut (s : State) (b : List Byte) : State :=
  (List.range 16).foldl (fun (s : State) i =>
    if 8 * i < b.length then s.setReg (R.SELV_TW_DATA.off i) (BitVec.ofNat 64 (leAt b (8 * i) 8)) else s) s

/-- The window's STATUS. -/
def State.twStatus (s : State) (code : Nat) : State := s.setFld R.SELV_TW_STAT.STATUS code

/-- The window stages an entry. On the lead the entry is mirrored without a wait. -/
def State.twStage (s : State) (who : Agent) (op table index : Nat) : State :=
  s.regTry who .write R.SELV_TW_CMD.off fun s =>
    match s.hartStage who false with
    | .foreign => s.setBit R.ONF_BASTE_STAT.FOREIGN_WR
    | .ignored => s
    | .staged =>
      let e : TabImage := { index := index, image := s.twImage table }
      if tabSize table = 0 then s.twStatus E.PARAM
      else if s.bit R.SELV_COMMIT.SWEEP then s.twStatus E.BUSY
      else
        let c := s.tabRefusal table op e
        if c ≠ 0 then s.twStatus c
        else
          let x := s.tabStage table op e
          let s1 := ((s.stageTab x).showSession).twStatus 0
          if s.mirrored then s1.sendFlit (.stage false [] [(x.table, x.loc, x.image)]) else s1

/-- The window reads an entry into SELV_TW_DATA. -/
def State.twRead (s : State) (who : Agent) (stg : Bool) (table index : Nat) : State :=
  s.regTry who .write R.SELV_TW_CMD.off fun s =>
    if tabSize table = 0 then s.twStatus E.PARAM
    else match s.tabRead stg table { index := index, image := s.twImage table } with
      | .error c => s.twStatus c
      | .ok b => (s.twPut b).twStatus 0

/-- SELV_TW_READ_LIVE (R204). -/
def execSelvTwReadLive (who : Agent) (table index : Nat) (s : State) : Res := .next (s.whenUp fun s => s.twRead who false table index)

/-- SELV_TW_READ_STAGED (R204). -/
def execSelvTwReadStaged (who : Agent) (table index : Nat) (s : State) : Res := .next (s.whenUp fun s => s.twRead who true table index)

/-- SELV_TW_ADD (R205). -/
def execSelvTwAdd (who : Agent) (table index : Nat) (s : State) : Res := .next (s.whenUp fun s => s.twStage who 1 table index)

/-- SELV_TW_MODIFY (R206). -/
def execSelvTwModify (who : Agent) (table index : Nat) (s : State) : Res := .next (s.whenUp fun s => s.twStage who 2 table index)

/-- SELV_TW_DELETE (R205). -/
def execSelvTwDelete (who : Agent) (table index : Nat) (s : State) : Res := .next (s.whenUp fun s => s.twStage who 3 table index)

end Sys2Proof.Machine
end

