-- ==== Sys2Proof/Machine/Takeover.lean ====
section
/-!
DEFINITION. Takeover.lean: the sideband pins (R263–R266), takeover and reconciliation (R283–R290), planned hand-off and release (R291–R293), the
goodbye (R272) and TWIN_GATE (R296).
-/

namespace Sys2Proof.Machine

/-! ### Adopted rings (R283, R288, R293) -/

/-- The ring under which this twin serves a ring that its peer served: a ring of the peer's own is adopted, a ring that was lent comes home. -/
def homeOf (k : Nat) : Nat := if isAdopted k then k - 131072 else k + 131072

/-- A shadow's context as a ring of this twin. -/
def ShadowQp.ring (x : ShadowQp) (q : Nat) (virtio : Bool) (old : QpCtx) : QpCtx :=
  let v := smGet 0 x.regs
  { qpDefault q with
    st := x.st, held := x.held, enable := getBit (v 5) 5, sqBase := v 0, cqBase := v 1, shadow := v 2, cfg := v 3, pasid := v 4
    sqHead := if virtio then 0 else x.sqHead, sqTail := x.sqHead, cqHead := if virtio then 0 else x.cqTail, cqTail := if virtio then 0 else x.cqTail
    phase := x.phase, nextCseq := x.nextCseq, availIdx := x.sqHead, usedIdx := x.cqTail, availWrap := x.wrap, usedWrap := x.phase
    adopted := isAdopted q, recon := x.st == .active || x.st == .parked, reqs := old.reqs, cpls := old.cpls }

/-- This twin takes a ring over: one that it serves already is only reconciled. -/
def State.adoptRing (s : State) (k : Nat) (x : ShadowQp) : State :=
  let q := homeOf k
  let c := s.qp q
  if isAdopted q && c.st != .free then s.setQp q { c with recon := c.st == .active || c.st == .parked }
  else if x.st = .free then s
  else
    let s1 : State := { s with galv := { s.galv with lent := s.galv.lent.filter fun l => l != q } }
    s1.setQp q (x.ring q (s.isVirtio k) c)

/-- A ring whose shadow is incomplete goes to ERROR with E_TWIN_UNSYNC (R288). -/
def State.adoptBlind (s : State) (k : Nat) (x : ShadowQp) : State :=
  let q := homeOf k
  let c := x.ring q (s.isVirtio k) (qpDefault q)
  s.setQp q { c with st := .error, errcode := E.TWIN_UNSYNC, undoneHead := x.sqHead, recon := false }

/-- Every ring that the peer served. Without SYNC every function is handled as relaxed. -/
def State.adoptAll (s : State) (sync : Bool) : SMap ShadowQp → State
  | [] => s
  | (k, x) :: r =>
    let y : ShadowQp := if sync then x else { x with reqs := x.reqs.map fun (q : ShadowReq) => { q with strict := false, issued := none } }
    State.adoptAll (if x.complete then (s.setShadow k y).adoptRing k y else if x.st = .free then s else s.adoptBlind k y) sync r

/-! ### Takeover (R283–R288) -/

/-- Dirty logs of the failed twin's VFs overflow (R169). -/
def State.logsLost (s : State) : SMap DirtyLog → State
  | [] => s
  | (v, d) :: r =>
    let own := s.dlog v
    State.logsLost (if own.on then s.dlogOverflow v 0 else if d.on then s.setDlog v { d with overflow := true, cause := 0 } else s) r

/-- A mirror that survives starts outbound SAs at their ceilings, and inbound windows 1,024 past the mirrored edge (R195, R196). -/
def State.sasJump (s : State) : State :=
  { s with selv := { s.selv with sas := s.selv.sas.map fun e =>
      (e.1, if (Config.saDecode (s.tabIdx s.epoch 6 e.1 128)).outbound then { e.2 with seq := max e.2.seq e.2.ceil }
        else { e.2 with edge := e.2.edge + 1024, seen := [] }) } }

/-- A session that the failed lead had not armed is discarded; an armed stitch stays (R70, R286). -/
def State.sessionLost (s : State) : State :=
  match s.onf.session with
  | some ss => if ss.number = 0 && ss.armed.isNone then s.setSession none else s
  | none => s

/-- A hand-off that has not completed is answered (Table 09-12). -/
def State.handoffFail (s : State) : State :=
  match s.galv.handoff with
  | some h => ({ s with galv := { s.galv with handoff := none } }).reply h.req 0x0502 E.TWIN_UNSYNC []
  | none => s

/-- A released ring with requests that are not finished. -/
def State.trailingWork (s : State) : Bool := s.galv.releasing.any fun q => !(s.qp q).reqs.isEmpty

/-- A twin may decide on takeover: paired, its peer not gone, not faulted or fenced itself (R283). -/
def State.mayTake (s : State) : Bool :=
  s.paired && s.galv.peer == .paired && !s.sys.faultOut && !s.bit R.GALV_STATUS.FENCE_IN

/-- The survivor fences its peer and adopts its rings. -/
def State.takeover (s : State) (cause : Nat) : State :=
  if !s.mayTake then s
  else
    let mirror := s.role == 2
    let sync := s.sync
    let s0 : State := { s with sys := { s.sys with fenceOut := true } }
    let s1 := ((s0.setBit R.GALV_STATUS.FENCE_OUT).setFld R.GALV_STATUS.SYNC 0).setRole 1
    let s2 := (s1.setReg R.GALV_TAKEREC0.off (BitVec.ofNat 64 (cause + 4 * b2n !sync))).setReg R.GALV_TAKEREC1.off (BitVec.ofNat 64 s1.now)
    let s3 := ((s2.waitsEnd).sessionLost).handoffFail
    let s4 : State := { s3 with galv := { s3.galv with
        peer := .fenced, settling := true, releasing := [], peerHandoff := none, netHold := [], redo := [], heartbeat := false } }
    let s5 := ((s4.adoptAll sync s4.galv.shadows).logsLost s4.galv.peerLogs).tapeMark TapeFlag.takeover
    let s6 := if mirror then s5.sasJump else s5
    (s6.anaSet 1 true).galvEvt R.GALV_STATUS.TAKEOVER_EVT

/-- Link loss (R290): no takeover; nothing waits for the peer. With trailing work of a release outstanding this twin drives TWIN_FAULT_OUT (Table 09-12). -/
def State.linkLoss (s : State) : State :=
  if !s.paired || s.galv.peer != .paired then s
  else
    let s1 := ((s.clrBit R.GALV_STATUS.SYNC).waitsEnd).galvEvt R.GALV_STATUS.UNSYNC_EVT
    if s1.trailingWork then s1.faultOut else s1

/-- HEARTBEAT_TIMEOUT (R262, Table 09-9). -/
def execHeartbeatTimeout (s : State) : Res :=
  .next (s.whenUp fun s =>
    let s1 : State := { s with galv := { s.galv with heartbeat := false } }
    if !s.paired || s.galv.peer != .paired then s1
    else if s.bit R.GALV_STATUS.FAULT_IN then s1.takeover 1
    else if !s.bit R.GALV_STATUS.ALIVE_OK then s1.takeover 2
    else if s.galv.heartbeat then s1.linkLoss
    else s1)

/-- TWIN_FAULT_IN_RISE (Table 09-9). -/
def execTwinFaultInRise (s : State) : Res :=
  .next (if s.sys.phase = .por then s else (s.setBit R.GALV_STATUS.FAULT_IN).whenUp fun s => s.takeover 1)

/-- ALIVE_LOSS (Table 09-9): with the heartbeat timed out it decides; with it arriving, SB_EVT. -/
def execAliveLoss (s : State) : Res :=
  .next (if s.sys.phase = .por then s
    else (s.clrBit R.GALV_STATUS.ALIVE_OK).whenUp fun s =>
      if !s.paired || s.galv.peer != .paired then s
      else if s.bit R.GALV_STATUS.FAULT_IN then s.takeover 1
      else if s.galv.heartbeat then s.galvEvt R.GALV_STATUS.SB_EVT
      else s.takeover 2)

/-- GOODBYE (R272): the mirror leaves; the lead neither fences it nor adopts anything. -/
def execGoodbye (s : State) : Res :=
  .next (s.whenUp fun s =>
    if s.role != 1 || s.galv.peer != .paired then s
    else
      let s1 := ((s.clrBit R.GALV_STATUS.SYNC).waitsEnd).handoffFail
      ({ s1 with galv := { s1.galv with peer := .gone } }).galvEvt R.GALV_STATUS.GOODBYE_EVT)

/-! ### Reconciliation (R285, R286, Table 09-10) -/

/-- Completions found visible: (CID or head, CSEQ), and the position after them. -/
structure Visible where
  seen : List (Nat × Nat)
  tail : Nat
  phase : Bool
  cseq : Nat
  deriving DecidableEq, Repr

/-- A reconciliation read: a ring access whose failure is repeated later. -/
def State.recRead (s : State) (q a n : Nat) : State × Option (List Byte) :=
  let r := s.access q a n false (.fetch q)
  match r.2 with
  | .at ps => (r.1, some (r.1.readPieces q ps))
  | _ => (r.1, none)

/-- Read a CQ forward while its entries show a completion: the current phase, and for a native ring the next CSEQ. -/
def State.scanCq (s : State) (q : Nat) (nvme : Bool) : Nat → Visible → State × Option Visible
  | 0, v => (s, some v)
  | fuel + 1, v =>
    let c := s.qp q
    let r := s.recRead q (c.cqBase.toNat + 16 * v.tail) 16
    match r.2 with
    | none => (r.1, none)
    | some b =>
      let ph := if nvme then (leAt b 14 1).testBit 0 else (leAt b 6 2).testBit 15
      let cid := if nvme then leAt b 12 2 else leAt b 0 2
      let sq := if nvme then v.cseq else leAt b 12 4
      if ph != v.phase || sq != v.cseq then (r.1, some v)
      else
        let t := (v.tail + 1) % c.cqDepth
        State.scanCq r.1 q nvme fuel
          { seen := v.seen ++ [(cid, v.cseq)], tail := t, phase := if t = 0 then !v.phase else v.phase, cseq := (v.cseq + 1) % 2 ^ 32 }

/-- Read `n` elements of a split used ring from position `i`. -/
def State.scanUsed (s : State) (q : Nat) : Nat → Visible → State × Option Visible
  | 0, v => (s, some v)
  | n + 1, v =>
    let c := s.qp q
    let r := s.recRead q (c.cqBase.toNat + 4 + 8 * (v.tail % c.sqDepth)) 4
    match r.2 with
    | none => (r.1, none)
    | some b => State.scanUsed r.1 q n { v with seen := v.seen ++ [(leAt b 0 4, v.tail)], tail := (v.tail + 1) % 65536 }

/-- Read a packed ring forward while its descriptors are marked used; a chain spans the descriptors its ADMIT counted. -/
def State.scanPacked (s : State) (q : Nat) (reqs : List ShadowReq) : Nat → Visible → State × Option Visible
  | 0, v => (s, some v)
  | fuel + 1, v =>
    let c := s.qp q
    let r := s.recRead q (c.sqBase.toNat + 16 * v.tail) 16
    match r.2 with
    | none => (r.1, none)
    | some b =>
      let fl := leAt b 14 2
      if fl.testBit 7 != v.phase || fl.testBit 15 != v.phase then (r.1, some v)
      else
        let id := leAt b 12 2
        let n := match reqs.find? fun x => x.cid == id with
          | some x => max 1 x.count
          | none => 1
        let wrap := decide (c.sqDepth ≤ v.tail + n)
        State.scanPacked r.1 q reqs fuel
          { v with seen := v.seen ++ [(id, v.tail)], tail := if wrap then v.tail + n - c.sqDepth else v.tail + n, phase := if wrap then !v.phase else v.phase }

/-- Find the completions that the host can already see. -/
def State.findVisible (s : State) (q : Nat) (reqs : List ShadowReq) : State × Option Visible :=
  let c := s.qp q
  if s.isVirtio q then
    let v : Visible := { seen := [], tail := c.usedIdx, phase := c.usedWrap, cseq := 0 }
    if s.packed q then s.scanPacked q reqs c.sqDepth v
    else
      let r := s.recRead q (c.cqBase.toNat + 2) 2
      match r.2 with
      | none => (r.1, none)
      | some b => r.1.scanUsed q (min c.sqDepth ((leAt b 0 2 + 65536 - c.usedIdx) % 65536)) v
  else s.scanCq q (s.pers (s.qpFn q) == 3) c.cqDepth { seen := [], tail := c.cqTail, phase := c.phase, cseq := c.nextCseq }

/-- What the host has exposed: the shadow doorbell, or NVMe's shadow buffer; a virtqueue's source is read when it is next fetched. -/
def State.readSource (s : State) (q : Nat) : State × Option (Option (Nat × Nat)) :=
  let c := s.qp q
  let p := s.pers (s.qpFn q)
  if p = 1 || p = 2 || c.shadow = 0 then (s, some none)
  else
    let r := s.recRead q c.shadow.toNat 8
    match r.2 with
    | none => (r.1, none)
    | some b => (r.1, some (some (if p = 3 then (leAt b 0 2, leAt b 4 2) else (leAt b 0 2, leAt b 2 2))))

/-- What a completion needs beside its journal entry: the flags of a native entry, or where a virtio-blk status byte lies; and whether the request is
a posted receive buffer. -/
structure ReqNote where
  ts : Bool
  irq : Bool
  status : Option (Nat × Nat)
  rxPost : Bool
  deriving DecidableEq, Repr

/-- Read it from the ring. -/
def State.noteOf (s : State) (q : Nat) (x : ShadowReq) : State × Option ReqNote :=
  let c := s.qp q
  let p := s.pers (s.qpFn q)
  if p = 0 then
    let r := s.recRead q (c.sqBase.toNat + 64 * x.ringIdx) 64
    (r.1, r.2.map fun e => { ts := sqeStamped e, irq := sqeIrq e, status := none, rxPost := sqeOpc e == 0x11 })
  else if p = 1 then (s, some { ts := false, irq := false, status := none, rxPost := s.qpLoc q % 2 == 0 })
  else if p = 2 then
    let e : VChain := { rd := [], wr := [], n := 0, id := 0 }
    let w := if s.packed q then
        (let r := s.walkPacked q c.sqBase.toNat c.sqDepth 257 x.ringIdx 0 e
         (r.1, r.2.1))
      else s.walkSplit q c.sqBase.toNat c.sqDepth 257 x.cid e
    match w.2 with
    | .done ch =>
      (w.1, some { ts := false, irq := false, rxPost := false, status := (ch.wr.getLast?).map fun g => (g.1 + g.2 - 1, 0) })
    | _ => (w.1, none)
  else (s, some { ts := false, irq := false, status := none, rxPost := false })

/-- Notes of every request of a list. -/
def State.notesOf (s : State) (q : Nat) : List ShadowReq → State × Option (List (ShadowReq × ReqNote))
  | [] => (s, some [])
  | x :: xs =>
    let a := s.noteOf q x
    match a.2 with
    | none => (a.1, none)
    | some n =>
      let b := State.notesOf a.1 q xs
      (b.1, b.2.map fun l => (x, n) :: l)

/-- A ring's kind of request, for a completion that stands for one the peer executed. -/
def State.kindOf (s : State) (q : Nat) : ReqKind :=
  match s.pers (s.qpFn q) with
  | 1 => .vnet
  | 2 => .vblk 0
  | 3 => .nvme 2
  | _ => .native

/-- A completion of a request that is not executed here joins those that wait: journalled, or OK for a frame that may have left. -/
def State.standIn (s : State) (q : Nat) (x : ShadowReq) (n : ReqNote) (status result sqhead : Nat) (committed : Bool) : State :=
  let rid := s.qf.nextRid
  let f := s.qpFn q
  let r : Req :=
    { rid := rid, q := q, kind := s.kindOf q, idx := x.ringIdx, nEnt := x.count, sqhead := sqhead, sqe := [], inl := [], blk := none, epoch := x.epoch,
      time := x.time, fncfg := s.reg (R.QFAB_FNCFG.off f), acct := s.fnAcct f, volA := 0, volB := 0, st := .done, preds := [], predBad := false,
      redone := false, cnt := [], issueJ := none, mdata := [], walkOff := 0 }
  let v := s.isVirtio q
  let c : Cpl :=
    { rid := rid, q := q, cid := x.cid, status := status, sqhead := sqhead, result := if v then 0 else result, ts := false, irq := n.irq, redone := false,
      idx := x.ringIdx, usedLen := if v then result else 0, statusAddr := n.status, committed := committed, jseq := none }
  let s1 : State := { s with qf := { s.qf with nextRid := rid + 1 } }
  let y := s1.qp q
  s1.setQp q { y with reqs := y.reqs ++ [r], cpls := y.cpls ++ [{ c with ts := committed && n.ts }] }

/-- How a request without a journalled commit is settled. -/
inductive Fate where
  | okFrame | redo | adopt | wait
  deriving DecidableEq, Repr

/-- Table 09-10. While the peer still works (a release), everything but posted receive buffers is left to it (R293). -/
def fateOf (x : ShadowReq) (n : ReqNote) (vis : List Nat) (live : Bool) : Fate :=
  if live then (if n.rxPost && x.issued.isNone then .redo else .wait)
  else if x.strict then (if x.issued == some 1 then .okFrame else .redo)
  else if vis.contains x.cid then .adopt
  else .redo

/-- Insert a committed request by its distance from the ring's next number. -/
def insCommit (m base : Nat) (e : ShadowReq × ReqNote × JCommit) : List (ShadowReq × ReqNote × JCommit) → List (ShadowReq × ReqNote × JCommit)
  | [] => [e]
  | x :: xs => if (e.2.2.cseq + m - base % m) % m < (x.2.2.cseq + m - base % m) % m then e :: x :: xs else x :: insCommit m base e xs

/-- Post the journalled completions that are not visible, in order. -/
def State.repost (s : State) (q : Nat) (live : Bool) : List (ShadowReq × ReqNote × JCommit) → State
  | [] => s
  | (x, n, c) :: r =>
    let s1 := s.standIn q x n c.status c.result c.sqhead true
    State.repost (if live then s1 else s1.bump R.GALV_TAKEREC0.REPOSTED 1) q live r

/-- Settle the requests without a commit, in order: what remains with the peer is answered back. -/
def State.settleOpen (s : State) (q : Nat) (vis : List Nat) (live : Bool) : List (ShadowReq × ReqNote) → List ShadowReq → State × List ShadowReq
  | [], left => (s, left)
  | (x, n) :: r, left =>
    let d := (s.qp q).sqDepth
    match fateOf x n vis live with
    | .wait => State.settleOpen s q vis live r (left ++ [x])
    | .okFrame => State.settleOpen (s.standIn q x n 0 0 ((x.ringIdx + x.count) % d) false) q vis live r left
    | .adopt =>
      let a := s.fnAcct (s.qpFn q)
      let s1 := s.setActive (s.bank.flag a 16)
      State.settleOpen ((s1.chargeAll a x.counts).bump R.GALV_TAKEREC0.ADOPTED 1) q vis live r left
    | .redo =>
      let s1 : State := { s with galv := { s.galv with redo := s.galv.redo ++ [(q, x.ringIdx)] } }
      State.settleOpen (if live then s1 else s1.bump R.GALV_TAKEREC0.REDONE 1) q vis live r left

/-- The ring goes on from what is visible; what the host has exposed beyond is exposed here. -/
def State.ringGoOn (s : State) (q : Nat) (v : Visible) (src : Option (Nat × Nat)) : State :=
  let c := s.qp q
  let virtio := s.isVirtio q
  let c1 : QpCtx := if virtio then { c with usedIdx := v.tail, usedWrap := v.phase, recon := false, chain := if s.packed q then 0 else 1 }
    else { c with cqTail := v.tail, phase := v.phase, nextCseq := v.cseq, recon := false }
  let s1 := s.setQp q c1
  match src with
  | none => s1
  | some (t, h) =>
    let s2 := s1.setQp q { s1.qp q with cqHead := if h < c1.cqDepth then h else c1.cqHead }
    if t < c1.sqDepth && t != c1.sqHead then s2.expose q t else s2

/-- Every interrupt-enabled ring is signalled once (R286). -/
def State.signalOnce (s : State) (q : Nat) : State :=
  if s.isVirtio q then s.ringMsix q (smGet 65535 (s.fn (s.ringKey q)).virtio.qvec (s.qpLoc q))
  else if (s.qp q).intEn false then s.ringSignal q
  else s

/-- Reconcile a ring. A read that fails leaves it for a later try, and never puts it in ERROR (R285). -/
def State.reconcile (s : State) (q : Nat) : State :=
  if !(s.qp q).recon then s
  else
    let k := homeOf q
    let x := s.shadow k
    let live := s.galv.peer == .paired
    let a := s.findVisible q x.reqs
    match a.2 with
    | none => a.1
    | some v =>
      let b := a.1.readSource q
      match b.2 with
      | none => b.1
      | some src =>
        let n := b.1.notesOf q x.reqs
        match n.2 with
        | none => n.1
        | some l =>
          let native := s.pers (s.qpFn q) == 0
          let commits : List (ShadowReq × ReqNote × JCommit) := l.filterMap fun e => e.1.commit.map fun c => (e.1, e.2, c)
          let shown (e : ShadowReq × ReqNote × JCommit) : Bool :=
            if native then v.seen.any fun y => y.2 == e.2.2.cseq else v.seen.any fun y => y.1 == e.1.cid
          let m := if s.isVirtio q then 65536 else 2 ^ 32
          let post := (commits.filter fun e => !shown e).foldr (insCommit m (if s.isVirtio q then v.tail else v.cseq)) []
          let rest := (v.seen.filter fun y => !commits.any fun e => if native then e.2.2.cseq == y.2 else e.1.cid == y.1).map (·.1)
          let s1 := (n.1.ringGoOn q v src).repost q live post
          let t := s1.settleOpen q rest live (l.filter fun e => e.1.commit.isNone) []
          let s2 := t.1.setShadow k { t.1.shadow k with reqs := t.2 }
          if live then s2 else s2.signalOnce q

/-- Reconcile every ring of a list. -/
def State.reconcileAll (s : State) : List Nat → State
  | [] => s
  | q :: qs => State.reconcileAll (s.reconcile q) qs

/-- The rings that wait for reconciliation. -/
def State.reconRings (s : State) : List Nat := (s.qps.filter fun e => e.2.recon).map (·.1)

/-- SETTLE_EXPIRY (R284): the settle interval is over. -/
def execSettleExpiry (s : State) : Res :=
  .next (s.whenUp fun s =>
    if !s.galv.settling then s
    else
      let s1 : State := { s with galv := { s.galv with settling := false } }
      s1.reconcileAll s1.reconRings)

/-- The peer's commits of trailing work: this twin posts their completions (R293). -/
def State.trailIn (s : State) (q : Nat) : State :=
  let k := homeOf q
  let x := s.shadow k
  let n := s.notesOf q (x.reqs.filter fun r => r.commit.isSome)
  match n.2 with
  | none => n.1
  | some l =>
    let s1 := n.1.repost q true (l.filterMap fun e => e.1.commit.map fun c => (e.1, e.2, c))
    s1.setShadow k { s1.shadow k with reqs := x.reqs.filter fun r => r.commit.isNone }

/-- RECONCILE_RETRY (R285): 100 µs after a read that failed. -/
def execReconcileRetry (q : Nat) (s : State) : Res :=
  .next (s.whenRing q fun s =>
    if s.galv.settling then s
    else if (s.qp q).recon then s.reconcile q
    else if s.galv.peer == .paired && (s.qp q).st != .free then s.trailIn q
    else s)

/-- COMMIT (Table 09-8). On a ring that this twin has adopted from a releasing peer it brings a completion to post (R293). -/
def execCommit (e : JHead) (c : JCommit) (s : State) : Res :=
  .next (s.whenUp fun s =>
    if !s.paired || s.galv.peer != .paired then s
    else
      let s1 := s.journal e fun x => x.update c.ringIdx fun r => { r with commit := some c }
      let s2 : State := { s1 with galv := { s1.galv with commitAcct := c.account } }
      let q := homeOf e.q
      let y := s2.qp q
      if s2.galv.peerHandoff.isSome && y.st != .free && !y.recon && !s2.galv.lent.contains q then s2.trailIn q else s2)

/-! ### Hand-off and release (R291–R293) -/

/-- TWIN_HANDOFF: the refusals of R291, then the schedule goes to the peer. -/
def State.handoffAsk (s : State) (r : OnfReq) (mode : Nat) (time : W64) : State :=
  s.command r 0x0502 fun s =>
    let t := if time = 0 then s.now + 100000 else time.toNat
    if t < s.now + 50000 then s.reply r 0x0502 E.STITCH_LATE []
    else if mode == 0 && s.role != 1 then s.reply r 0x0502 E.TWIN_ROLE []
    else if !s.sync then s.reply r 0x0502 E.TWIN_UNSYNC []
    else if s.onf.session.isSome then s.reply r 0x0502 E.BASTE_BUSY []
    else if s.galv.handoff.isSome || s.galv.peerHandoff.isSome then s.reply r 0x0502 E.BUSY []
    else
      let h : Handoff := { req := r, mode := mode, time := t, confirmed := false, edge := false }
      ({ s with galv := { s.galv with handoff := some h } }).sendFlit (.handoff mode t)

/-- TWIN_HANDOFF_SWAP (R292). -/
def execTwinHandoffSwap (r : OnfReq) (time : BitVec 64) (s : State) : Res := .next (s.handoffAsk r 0 time)
/-- TWIN_HANDOFF_RELEASE (R292). -/
def execTwinHandoffRelease (r : OnfReq) (time : BitVec 64) (s : State) : Res := .next (s.handoffAsk r 1 time)
/-- TWIN_HANDOFF_RETURN (R292). -/
def execTwinHandoffReturn (r : OnfReq) (time : BitVec 64) (s : State) : Res := .next (s.handoffAsk r 2 time)

/-- The rings that a mode releases. -/
def State.toRelease (s : State) (mode : Nat) : List Nat :=
  s.servedRings.filter fun q => if mode = 0 then true else if mode = 1 then !isAdopted q else isAdopted q

/-- The releasing twin's side of one ring: its last watermark goes out, posted receive buffers go with the ring. -/
def State.releaseRing (s : State) (q : Nat) : State :=
  let c := (s.qp q).unchain
  let s1 := s.setQp q { c with reqs := c.reqs.filter fun r => r.st != .rxPosted }
  let s2 := s1.sendFlit (s1.markOf q)
  let s3 : State := { s2 with galv := { s2.galv with
      releasing := s2.galv.releasing ++ [q], lent := if isAdopted q then s2.galv.lent else s2.galv.lent ++ [q] } }
  if (s3.qp q).reqs.any Req.isNet then s3 else s3.sendFlit (.netDone q)

/-- Every ring of a list. -/
def State.releaseRings (s : State) : List Nat → State
  | [] => s
  | q :: qs => State.releaseRings (s.releaseRing q) qs

/-- The adopting twin's side: it takes the shadows of the released rings, and their network requests wait for the peer's trailing frames. -/
def State.takeRings (s : State) : List (Nat × ShadowQp) → State
  | [] => s
  | (k, x) :: r =>
    let s1 := s.adoptRing k x
    State.takeRings { s1 with galv := { s1.galv with netHold := s1.galv.netHold ++ [homeOf k] } } r

/-- HANDOFF_EDGE (R292, R293). A schedule that the peer has not confirmed, or that SYNC no longer covers, is cancelled (R70). -/
def execHandoffEdge (s : State) : Res :=
  .next (s.whenUp fun s =>
    match s.galv.handoff with
    | some h =>
      if h.edge || decide (s.now < h.time) then s
      else if !h.confirmed || !s.sync then (s.handoffFail).sendFlit .unhandoff
      else
        let s1 : State := { s with galv := { s.galv with handoff := some { h with edge := true } } }
        let s2 := s1.releaseRings (s1.toRelease h.mode)
        if h.mode = 0 then (s2.setRole 2).anaSet 2 true else s2
    | none =>
      match s.galv.peerHandoff with
      | some (mode, t) =>
        if s.now < t || !s.sync then s
        else
          let s1 := if mode = 0 then (s.setRole 1).anaSet 1 true else s
          let l := s1.galv.shadows.filter fun e => e.2.st != .free && (if mode = 0 then true else if mode = 1 then !isAdopted e.1 else isAdopted e.1)
          let s2 := s1.takeRings l
          (s2.reconcileAll (l.map fun e => homeOf e.1)).sendFlit .adopted
      | none => s)

/-- The rings that have finished are gone from this twin when they were adopted. -/
def State.releaseEnd (s : State) : List Nat → State
  | [] => s
  | q :: qs =>
    let s1 := s.sendFlit (.netDone q)
    State.releaseEnd (if isAdopted q then s1.setQp q (qpDefault q) else s1) qs

/-- RELEASE_COMPLETE (R293): the releasing twin holds no trailing work. -/
def execReleaseComplete (s : State) : Res :=
  .next (s.whenUp fun s =>
    if s.galv.releasing.isEmpty || s.trailingWork then s
    else
      let s1 := s.releaseEnd s.galv.releasing
      ({ s1 with galv := { s1.galv with releasing := [] } }).sendFlit .released)

/-! ### Fencing (R265, R266, R273) -/

/-- The panels of a fenced device fall still: every trained host link drops. -/
def State.quietAll (s : State) : State := (List.range 4).foldl State.panelQuiet s

/-- FENCE_IN_RISE (R265, R266): the device is fenced and in Hold; with FENCE_HOLD_MS 0 it resets at once. -/
def execFenceInRise (s : State) : Res :=
  .next (if s.sys.phase = .por then s
    else
      let s1 := (((s.setBit R.GALV_STATUS.FENCE_IN).clrBit R.GALV_STATUS.FENCE_OUT).clrBit R.GALV_STATUS.SYNC).setFld R.GALV_STATUS.ROLE 3
      let s2 : State := { s1 with sys := { s1.sys with gated := true, aliveOut := false, fenceOut := false } }
      s2.whenUp fun s =>
        let s3 : State := { s.quietAll with galv := { s.quietAll.galv with holding := true } }
        if s3.fld R.GALV_CFG.FENCE_HOLD_MS = 0 then s3.warmReset .safe else s3)

/-- FENCE_HOLD_EXPIRY (R266). -/
def execFenceHoldExpiry (s : State) : Res :=
  .next (s.whenUp fun s => if s.galv.holding && s.role == 3 then s.warmReset .safe else s)

/-- FENCE_IN_FALL (R273): at the end of a rejoin the device becomes mirror and its ports train. -/
def execFenceInFall (s : State) : Res :=
  .next (if s.sys.phase = .por then s
    else
      let s1 := s.clrBit R.GALV_STATUS.FENCE_IN
      s1.whenUp fun s =>
        if s.role != 3 || !s.sync || s.galv.peer != .paired then s
        else
          let open_ := s.bit R.SPOOL_STATUS.UNGATED
          let s2 : State := { s with sys := { s.sys with gated := !open_, aliveOut := open_ }, galv := { s.galv with holding := false } }
          let s3 := (s2.setRole 2).anaSet 2 false
          if open_ then s3.portsTrain else s3)

/-! ### Feature gates (R296) -/

/-- TWIN_GATE (R296): in an open critical session of the lead. -/
def execTwinGate (r : OnfReq) (sess : Nat) (gate : BitVec 64) (s : State) : Res :=
  .next (s.command r 0x0503 fun s =>
    if s.role != 1 || !(match s.openSession with | some ss => ss.critical | none => false) then s.sessNo r 0x0503 (some sess) E.BASTE_NONE
    else s.inSession r 0x0503 (some sess) E.PRIVILEGE true fun s _ => s.stageAnd r 0x0503 [(R.GALV_GATE.off, gate)] [] [])

end Sys2Proof.Machine
end

