-- ==== Sys2Proof/Machine/Arrival.lean ====
section
/-!
DEFINITION. Arrival.lean: an Onafaet packet as bytes (R35–R39, R474): the checks of Table 02-4 in order, transfers of several packets (R38), and the reading of each
command's parameters, which then run by the meaning of that command.
-/

namespace Sys2Proof.Machine

/-! ### Parameters -/

/-- The state that a meaning goes on in. -/
def afterRes (r : Res) (s : State) : State :=
  match r with
  | .next t => t
  | _ => s

/-- Bytes `o` to `o + n - 1` of parameters are 0, as reserved bytes must be. -/
def parZero (p : List Byte) (o n : Nat) : Bool := leAt p o n == 0

/-- A 64-bit field. -/
def par64 (p : List Byte) (o : Nat) : W64 := BitVec.ofNat 64 (leAt p o 8)

/-- Parameters that are malformed (step 12). -/
def State.parBad (s : State) (r : OnfReq) (op : Nat) : State := s.command r op fun s => s.reply r op E.PARAM []

/-- The same for a command of a session, whose idle time restarts (R61). -/
def State.parBadIn (s : State) (r : OnfReq) (op : Nat) (sess : Option Nat) : State := s.command r op fun s => s.sessNo r op sess E.PARAM

/-- OFFSET and VALUE entries of 16 bytes, if no reserved byte is set (Table 02-8). -/
def parEntries : Nat → List Byte → Option (List (Nat × W64))
  | 0, _ => some []
  | n + 1, p =>
    if parZero p 4 4 then (parEntries n (p.drop 16)).map ((leAt p 0 4, par64 p 8) :: ·) else none

/-- Entries of a Selvedge table (Table 06-10). -/
def parImages (size : Nat) : Nat → List Byte → Option (List TabImage)
  | 0, _ => some []
  | n + 1, p =>
    if parZero p 4 4 then
      (parImages size n (p.drop (8 + size))).map (({ index := leAt p 0 4, image := (p.drop 8).take size } : TabImage) :: ·)
    else none

/-- DEV_RESET. -/
def State.parDevReset (s : State) (r : OnfReq) (p : List Byte) : State :=
  if p.length = 16 ∧ parZero p 12 4 then afterRes (execDevReset r (par64 p 0) (leAt p 8 4) s) s else s.parBad r 2

/-- EVT_SUBSCRIBE. -/
def State.parSubscribe (s : State) (r : OnfReq) (p : List Byte) : State :=
  if p.length = 16 ∧ parZero p 8 8 then afterRes (execEvtSubscribe r (par64 p 0) s) s else s.parBad r 3

/-- FN_CONFIG and FN_RESET: their layouts are not in the spec. -/
def State.parFnConfig (s : State) (r : OnfReq) (p : List Byte) : State :=
  match Config.fnConfigEntries p with
  | some l => afterRes (execFnConfig r l s) s
  | none => s.parBadIn r 0x0101 none
def State.parFnReset (s : State) (r : OnfReq) (p : List Byte) : State :=
  match Config.fnResetFunction p with
  | some f => afterRes (execFnReset r f s) s
  | none => s.parBad r 0x0102

/-- QP_GRANT, QP_REVOKE, QP_QUIESCE, QP_RESUME (Table 03-4). -/
def State.parQp (s : State) (r : OnfReq) (op : Nat) (p : List Byte) : State :=
  let f := leAt p 0 2
  let n := leAt p 2 2
  let q := leAt p 4 2
  if op = 0x0201 then
    if p.length = 12 ∧ parZero p 9 3 then afterRes (execQpGrant r f n q (leAt p 6 2) (leAt p 8 1) s) s else s.parBadIn r op none
  else if op = 0x0202 then
    if p.length = 8 ∧ parZero p 6 2 then afterRes (execQpRevoke r f n q s) s else s.parBadIn r op none
  else if op = 0x0203 then
    if p.length = 12 ∧ leAt p 6 1 < 2 ∧ parZero p 7 1 then afterRes (execQpQuiesce r f n q (leAt p 6 1 == 1) (leAt p 8 4) s) s
    else s.parBad r op
  else if p.length = 12 ∧ parZero p 6 2 then
    if 60000 < leAt p 8 4 then s.command r op fun s => s.reply r op E.PARAM_RANGE [] else afterRes (execQpResume r f n q s) s
  else s.parBad r op

/-- QP_SCHED (Table 03-23). -/
def State.parSched (s : State) (r : OnfReq) (p : List Byte) : State :=
  if p.length = 24 ∧ parZero p 4 4 ∧ leAt p 0 2 < 2 then
    if leAt p 0 2 = 0 then afterRes (execQpSchedFunction r (leAt p 2 2) (par64 p 8) (par64 p 16) s) s
    else afterRes (execQpSchedAccount r (leAt p 2 2) (par64 p 16) s) s
  else s.parBadIn r 0x0205 none

/-- BASTE_OPEN (Table 02-7). -/
def State.parOpen (s : State) (r : OnfReq) (p : List Byte) : State :=
  if p.length = 8 ∧ parZero p 4 4 then afterRes (execBasteOpen r (leAt p 0 4) s) s else s.parBad r 0x0301

/-- BASTE_WRITE (Table 02-8). -/
def State.parWrite (s : State) (r : OnfReq) (p : List Byte) : State :=
  let n := leAt p 2 2
  let sess := leAt p 0 2
  if p.length = 8 + 16 * n ∧ parZero p 4 4 then
    match parEntries n (p.drop 8) with
    | some l => afterRes (execBasteWrite r sess l s) s
    | none => s.parBadIn r 0x0302 (some sess)
  else s.parBadIn r 0x0302 (some sess)

/-- BASTE_CHECK, BASTE_ABORT, BASTE_STATUS: the session in bytes 0–1, the rest reserved. -/
def State.parSession (s : State) (r : OnfReq) (op : Nat) (p : List Byte) : State :=
  let sess := leAt p 0 2
  if p.length = 8 ∧ parZero p 2 6 then
    if op = 0x0303 then afterRes (execBasteCheck r sess s) s
    else if op = 0x0305 then afterRes (execBasteAbort r sess s) s
    else afterRes (execBasteStatus r sess s) s
  else if op = 0x0303 then s.parBadIn r op (some sess)
  else s.parBad r op

/-- STITCH (Table 02-9). -/
def State.parStitch (s : State) (r : OnfReq) (p : List Byte) : State :=
  let sess := leAt p 0 2
  if p.length = 16 ∧ parZero p 3 5 ∧ leAt p 2 1 < 3 then
    if leAt p 2 1 = 0 then afterRes (execStitchImmediate r sess s) s
    else if leAt p 2 1 = 1 then afterRes (execStitchAtTime r sess (par64 p 8) s) s
    else afterRes (execStitchAtMinute r sess s) s
  else s.parBadIn r 0x0304 (some sess)

/-- TAPE_READ (R229). -/
def State.parTapeRead (s : State) (r : OnfReq) (p : List Byte) : State :=
  if p.length = 16 ∧ parZero p 12 4 then afterRes (execTapeRead r (par64 p 0) (leAt p 8 4) s) s else s.parBad r 0x0401

/-- TAPE_MAP (Table 07-2): reserved bits that are set are handed on as a bit of MFLAGS that no kind has, so that R214's order of checks holds. -/
def State.parTapeMap (s : State) (r : OnfReq) (p : List Byte) : State :=
  let bad := if parZero p 7 1 then 0 else 256
  let i := leAt p 2 2
  let a := leAt p 4 2
  let m := leAt p 6 1 + bad
  if p.length ≠ 8 then s.parBadIn r 0x0402 none
  else if leAt p 0 2 = 0 then afterRes (execTapeMapFunction r i a m s) s
  else if leAt p 0 2 = 1 then afterRes (execTapeMapTspace r i a m s) s
  else if leAt p 0 2 = 2 then afterRes (execTapeMapEnable r i (if a = 0 then m else m + 256) s) s
  else s.parBadIn r 0x0402 none

/-- TAPE_RING (R227). -/
def State.parTapeRing (s : State) (r : OnfReq) (p : List Byte) : State :=
  if p.length = 16 ∧ parZero p 13 3 then afterRes (execTapeRing r (par64 p 0) (leAt p 8 4) (leAt p 12 1) s) s else s.parBadIn r 0x0403 none

/-- TWIN_PAIR (Table 09-4). -/
def State.parPair (s : State) (r : OnfReq) (p : List Byte) : State :=
  if p.length = 24 ∧ parZero p 2 6 ∧ leAt p 0 1 < 3 then
    if leAt p 0 1 = 0 then afterRes (execTwinPairPair r (leAt p 1 1) (par64 p 8) (par64 p 16) s) s
    else if leAt p 0 1 = 1 then afterRes (execTwinPairUnpair r s) s
    else afterRes (execTwinPairRejoin r (leAt p 1 1) (par64 p 8) (par64 p 16) s) s
  else s.parBad r 0x0501

/-- TWIN_HANDOFF (R291). -/
def State.parHandoff (s : State) (r : OnfReq) (p : List Byte) : State :=
  if p.length = 16 ∧ parZero p 1 7 ∧ leAt p 0 1 < 3 then
    if leAt p 0 1 = 0 then afterRes (execTwinHandoffSwap r (par64 p 8) s) s
    else if leAt p 0 1 = 1 then afterRes (execTwinHandoffRelease r (par64 p 8) s) s
    else afterRes (execTwinHandoffReturn r (par64 p 8) s) s
  else s.parBad r 0x0502

/-- TWIN_GATE (R296). -/
def State.parGate (s : State) (r : OnfReq) (p : List Byte) : State :=
  if p.length = 16 ∧ parZero p 2 6 then afterRes (execTwinGate r (leAt p 0 2) (par64 p 8) s) s
  else s.parBadIn r 0x0503 (some (leAt p 0 2))

/-- FW_WRITE (R385). For the configuration block the data are its header and entries (Table 02-18); whether the flash takes the write is free. -/
def State.parFwWrite (s : State) (r : OnfReq) (p : List Byte) : State :=
  let ok := s.free % 2 == 1
  let d := p.drop 8
  if p.length < 8 then s.parBad r 0x0601
  else if leAt p 0 1 = 0 then afterRes (execFwWriteImage r (leAt p 4 4) d ok s.drawn) s
  else if leAt p 0 1 = 1 ∧ leAt d 0 4 = 0x42435653 ∧ leAt d 4 2 = 1 ∧ d.length = 16 + 16 * leAt d 8 4 then
    match parEntries (leAt d 8 4) (d.drop 16) with
    | some l => afterRes (execFwWriteConfig r l ok s.drawn) s
    | none => s.parBad r 0x0601
  else s.parBad r 0x0601

/-- FW_ACTIVATE (R385). -/
def State.parActivate (s : State) (r : OnfReq) (p : List Byte) : State :=
  let ok := s.free % 2 == 1
  if p.length ≠ 4 then s.parBad r 0x0602
  else if leAt p 0 1 = 0 then afterRes (execFwActivateSlot r ok s.drawn) s
  else if leAt p 0 1 = 1 then afterRes (execFwActivateWithdraw r ok s.drawn) s
  else s.parBad r 0x0602

/-- RECOVERY (R386). -/
def State.parRecovery (s : State) (r : OnfReq) (p : List Byte) : State :=
  if p.length < 8 then s.parBad r 0x0603
  else afterRes (execRecovery r (leAt p 0 1) (leAt p 4 4) (p.drop 8) (s.free % 2 == 1) s.drawn) s

/-- PWR_SET (R411). -/
def State.parPwrSet (s : State) (r : OnfReq) (p : List Byte) : State :=
  let u := leAt p 0 1
  let c := (leAt p 2 1).testBit 0
  if p.length ≠ 4 then s.parBad r 0x0701
  else match leAt p 1 1 with
    | 0 => afterRes (execPwrSetBask r u c s) s
    | 1 => afterRes (execPwrSetDoze r u c s) s
    | 2 => afterRes (execPwrSetBrumate r u c s) s
    | 3 => afterRes (execPwrSetHold r u c s) s
    | _ => s.parBad r 0x0701

/-- MOULT_RUN (R427). -/
def State.parMoultRun (s : State) (r : OnfReq) (p : List Byte) : State :=
  if p.length ≠ 4 ∧ p.length ≠ 8 then s.parBad r 0x0801
  else match leAt p 0 1 with
    | 0 => if p.length = 8 then afterRes (execMoultRunPeriod r (leAt p 4 4) s) s else s.parBad r 0x0801
    | 1 => afterRes (execMoultRunSlice r (leAt p 2 2) s) s
    | 2 => afterRes (execMoultRunFullrate r s) s
    | _ => s.parBad r 0x0801

/-- KEY_SENDER (Table 10-6). -/
def State.parKeySender (s : State) (r : OnfReq) (p : List Byte) : State :=
  let a := s.free % 2 == 1
  let b := s.free / 2 % 2 == 1
  if p.length ≠ 48 then s.parBad r 0x0901
  else if leAt p 1 1 = 1 then
    afterRes (execKeySenderInstall r (leAt p 0 1) (leAt p 2 2) (leAt p 4 4) ((p.drop 8).take 40) a b s.drawn) s
  else if leAt p 1 1 = 2 ∧ parZero p 8 40 then afterRes (execKeySenderRevoke r (leAt p 0 1) a b s.drawn) s
  else s.parBad r 0x0901

/-- ATTEST (R56). -/
def State.parAttest (s : State) (r : OnfReq) (p : List Byte) : State :=
  if p.length = 40 ∧ parZero p 33 7 then afterRes (execAttest r (p.take 32) (leAt p 32 1) s) s else s.parBad r 0x0902

/-- DEBUG_UNLOCK (R314). -/
def State.parDebug (s : State) (r : OnfReq) (p : List Byte) : State :=
  if p.length = 16 ∧ parZero p 2 6 ∧ leAt p 1 1 < 2 then
    if leAt p 1 1 = 0 then afterRes (execDebugUnlockOpen r (leAt p 0 1) (par64 p 8) s) s
    else afterRes (execDebugUnlockClose r (leAt p 0 1) (par64 p 8) s) s
  else s.parBad r 0x0903

/-- SELV_WRITE (Table 06-10). -/
def State.parSelvWrite (s : State) (r : OnfReq) (p : List Byte) : State :=
  let sess := leAt p 0 2
  let t := leAt p 2 1
  let n := leAt p 4 2
  let size := leAt p 6 2
  let bad := s.command r 0x0A01 fun s => (s.heard r (some sess)).reply r 0x0A01 E.PARAM (leBytes 2 0xFFFF)
  if tabSize t = 0 ∨ size ≠ tabSize t ∨ p.length ≠ 8 + n * (8 + size) then bad
  else match parImages size n (p.drop 8) with
    | none => bad
    | some l =>
      if leAt p 3 1 = 1 then afterRes (execSelvWriteAdd r sess t l s) s
      else if leAt p 3 1 = 2 then afterRes (execSelvWriteModify r sess t l s) s
      else if leAt p 3 1 = 3 then afterRes (execSelvWriteDelete r sess t l s) s
      else bad

/-- SELV_READ: its layout is not in the spec. -/
def State.parSelvRead (s : State) (r : OnfReq) (p : List Byte) : State :=
  match Config.selvReadParams p with
  | some (t, stg, l) => afterRes (execSelvRead r t stg (l.map fun e => { index := e.1, image := e.2 }) s) s
  | none => s.parBad r 0x0A02

/-- The status commands: PWR_STATUS takes no parameters (R55). -/
def State.parStatus (s : State) (r : OnfReq) (op : Nat) (p : List Byte) : State :=
  if op = 0x0001 then afterRes (execDevInfo r s) s
  else if op = 0x0802 then afterRes (execMoultStatus r s) s
  else if p.isEmpty then afterRes (execPwrStatus r s) s
  else s.parBad r op

/-- A request by its opcode; an unknown one is refused at step 5. -/
def State.onfRun (s : State) (r : OnfReq) (op : Nat) (p : List Byte) : State :=
  match op with
  | 0x0001 => s.parStatus r op p
  | 0x0002 => s.parDevReset r p
  | 0x0003 => s.parSubscribe r p
  | 0x0101 => s.parFnConfig r p
  | 0x0102 => s.parFnReset r p
  | 0x0201 => s.parQp r op p
  | 0x0202 => s.parQp r op p
  | 0x0203 => s.parQp r op p
  | 0x0204 => s.parQp r op p
  | 0x0205 => s.parSched r p
  | 0x0301 => s.parOpen r p
  | 0x0302 => s.parWrite r p
  | 0x0303 => s.parSession r op p
  | 0x0304 => s.parStitch r p
  | 0x0305 => s.parSession r op p
  | 0x0306 => s.parSession r op p
  | 0x0401 => s.parTapeRead r p
  | 0x0402 => s.parTapeMap r p
  | 0x0403 => s.parTapeRing r p
  | 0x0501 => s.parPair r p
  | 0x0502 => s.parHandoff r p
  | 0x0503 => s.parGate r p
  | 0x0601 => s.parFwWrite r p
  | 0x0602 => s.parActivate r p
  | 0x0603 => s.parRecovery r p
  | 0x0701 => s.parPwrSet r p
  | 0x0702 => s.parStatus r op p
  | 0x0801 => s.parMoultRun r p
  | 0x0802 => s.parStatus r op p
  | 0x0901 => s.parKeySender r p
  | 0x0902 => s.parAttest r p
  | 0x0903 => s.parDebug r p
  | 0x0A01 => s.parSelvWrite r p
  | 0x0A02 => s.parSelvRead r p
  | _ => if 0x8000 ≤ op then afterRes (execOemCommand r op p s) s else s.parBad r op

/-! ### Transfers of several packets (R38) -/

/-- The transfer under way that a packet belongs to. -/
def State.partialOf (s : State) (r : OnfReq) : Option Partial :=
  s.onf.partials.find? fun x => x.ch == r.ch && x.sender == r.sender && x.tag == r.tag

/-- The transfers take a value for one of them. -/
def State.setPartial (s : State) (r : OnfReq) (x : Option Partial) : State :=
  let rest := s.onf.partials.filter fun x => !(x.ch == r.ch && x.sender == r.sender && x.tag == r.tag)
  { s with onf := { s.onf with partials := rest ++ x.toList } }

/-- The next SEQ. -/
def seqNext (n : Nat) : Nat := (n + 1) % 2 ^ 32

/-- A packet that another follows: its parameters are kept; a broken run spoils the transfer. -/
def State.onfMore (s : State) (r : OnfReq) (op : Nat) (p : List Byte) : State :=
  match s.partialOf r with
  | none =>
    s.setPartial r (some { ch := r.ch, sender := r.sender, tag := r.tag, opcode := op, nextSeq := seqNext r.seq, bytes := p, broken := false })
  | some x =>
    let broken := x.broken || x.nextSeq != r.seq || x.opcode != op
    s.setPartial r (some { x with nextSeq := seqNext r.seq, bytes := if broken then [] else x.bytes ++ p, broken := broken })

/-- A transfer is spoilt: its last packet will be answered with E_SEQ. -/
def State.onfSpoil (s : State) (r : OnfReq) : State :=
  match s.partialOf r with
  | none => s
  | some x => s.setPartial r (some { x with bytes := [], broken := true })

/-! ### Arrival (R39) -/

/-- A packet is dropped (R35, steps 1 and 2). -/
def State.onfDrop (s : State) (ch code : Nat) : State :=
  let s1 := ((s.bump R.ONF_STATUS.DROPS 1).setBit R.ONF_STATUS.DROP_EVT).emit (.onfDrop ch code)
  if isMbx ch then (s1.setMbx ch { s1.mbx ch with drop := true, dropcode := code, go := false, busy := false }).mbxSignal ch else s1

/-- The header fields of a request. -/
def onfReqOf (ch : Nat) (b : List Byte) : OnfReq :=
  { ch := ch, sender := leAt b 12 4, seq := leAt b 8 4, tag := leAt b 24 4, ctr := leAt b 16 8, crit := onfCrit b }

/-- The MAC of a critical packet (R37). -/
def State.macOk (s : State) (r : OnfReq) (b : List Byte) : Bool :=
  match s.keyOf r.sender with
  | none => true
  | some e => (hmacSha256 e.2.key (b.take (b.length - 16))).take 16 == b.drop (b.length - 16)

/-- The device takes a mailbox's packet: GO falls. -/
def State.mbxTake (s : State) (ch : Nat) : State := if isMbx ch then s.setMbx ch { s.mbx ch with go := false } else s

/-- A packet that no reply will follow leaves its mailbox free for the next. -/
def State.mbxFree (s : State) (ch : Nat) : State := if isMbx ch then s.setMbx ch { s.mbx ch with busy := false } else s

/-- Steps 3 to 12 of Table 02-4. -/
def State.onfJudge (s : State) (ch : Nat) (b : List Byte) : State :=
  let r := onfReqOf ch b
  let op := leAt b 4 2
  let trailer := if r.crit then 16 else 4
  let p := (b.drop 32).take (onfPlen b - trailer)
  let more := (onfFlags b).testBit 3
  if !plenOk b || b.length != 32 + onfPlen b then s.refuseReply r op E.BAD_LENGTH
  else if hdrBad b then s.refuseReply r op E.PARAM
  else if r.sender / 2 ^ 28 ≠ chanCode ch then s.refuseReply r op E.SENDER
  else match (s.accept r op).2 with
    | .refuse _ => (s.onfSpoil r).command r op id
    | a =>
      if r.crit && !s.macOk r b then (s.onfSpoil r).refuseReply r op E.MAC
      else if a != .go then (s.onfSpoil r).command r op id
      else if !r.crit && crc32c p != leAt b (b.length - 4) 4 then (s.onfSpoil r).reply r op E.PCRC []
      else if more then ((s.command r op fun s => s.onfMore r op p)).mbxFree ch
      else match s.partialOf r with
        | none => s.onfRun r op p
        | some x =>
          let t := s.setPartial r none
          if x.broken || x.nextSeq != r.seq || x.opcode != op then t.command r op fun s => s.reply r op E.SEQ []
          else t.onfRun r op (x.bytes ++ p)

/-- The bytes that arrive: a mailbox whose GO is 1 gives its request buffer's packet. -/
def State.onfBytesIn (s : State) (ch : Nat) (b : List Byte) : List Byte :=
  let m := s.mbx ch
  if isMbx ch && m.go then
    let at8 := fun i => smGet 0 m.req i
    let plen := (at8 6).toNat + 256 * (at8 7).toNat
    (List.range (min 4096 (32 + plen))).map at8
  else b

/-- ONAFAET_PACKET_ARRIVAL (R39). A channel that is held off gives nothing. -/
def execOnafaetPacketArrival (ch : Nat) (bytes : List (BitVec 8)) (s : State) : Res :=
  .next (s.whenUp fun s =>
    if !s.chanOpen ch || decide (36 ≤ ch) then s
    else
      let b := s.onfBytesIn ch bytes
      if 4096 < b.length then s.onfDrop ch E.BAD_LENGTH
      else match hdrDrop b with
        | some c => s.onfDrop ch c
        | none => (s.mbxTake ch).onfJudge ch b)

end Sys2Proof.Machine
end

