-- ==== Sys2Proof/Machine/BobCtl.lean ====
section
/-!
DEFINITION. BobCtl.lean: the BOB registers (R344, R345, Tables 12-22 to 12-25), an engine's local memories, and the draining of its store
buffer (R364).
-/

namespace Sys2Proof.Machine

/-! ### Local memories -/

/-- A word of local D SRAM, and of local instruction SRAM. -/
def Engine.dRead (x : Engine) (a : Nat) : W16 := smGet 0 x.dmem a
def Engine.iRead (x : Engine) (a : Nat) : W16 := smGet 0 x.imem a

/-- Write a word of local D SRAM, and of local instruction SRAM. -/
def Engine.dWrite (x : Engine) (a : Nat) (v : W16) : Engine := { x with dmem := smPut 0 x.dmem a v }
def Engine.iWrite (x : Engine) (a : Nat) (v : W16) : Engine := { x with imem := smPut 0 x.imem a v }

/-- Words into local D SRAM, from a word address up. -/
def Engine.dWrites (x : Engine) (a : Nat) : List W16 → Engine
  | [] => x
  | v :: vs => Engine.dWrites (x.dWrite a v) (a + 1) vs

/-- Words as bytes, and bytes as words, the low byte first. -/
def wordBytes (l : List W16) : List Byte := l.flatMap fun v => leBytes 2 v.toNat
def bytesWords : List Byte → List W16
  | a :: b :: r => BitVec.ofNat 16 (a.toNat + 256 * b.toNat) :: bytesWords r
  | [a] => [BitVec.ofNat 16 a.toNat]
  | [] => []

/-! ### The store buffer -/

/-- A buffered store takes effect: on local SRAM, or at the physical address that it was given at issue. -/
def State.storeLand (s : State) (e : Nat) (t : StoreEnt) : State :=
  if t.loc < 65536 then s.setEng e ((s.eng e).dWrites t.loc t.words)
  else
    let a := 2 * (t.loc - 65536)
    let b := wordBytes t.words
    (s.devWrite a b).unpoison a b.length

/-- A stopping engine whose store buffer is empty is STOPPED; one in SYNC with an empty buffer goes on. -/
def State.engSettle (s : State) (e : Nat) : State :=
  let x := s.eng e
  if !x.sbuf.isEmpty then s
  else if x.stopReq then s.setEng e { x with st := .stopped, stopReq := false, waitOn := none }
  else if x.st == .waiting && x.waitOn == some .sync then s.setEng e { x with st := .running, waitOn := none, pc := (x.pc + 1) % 65536 }
  else s

/-- The oldest entry drains. -/
def State.drainOne (s : State) (e : Nat) : State :=
  let x := s.eng e
  match x.sbuf with
  | [] => s
  | t :: ts => ((s.setEng e { x with sbuf := ts }).storeLand e t).engSettle e

/-- The oldest `n` entries drain. -/
def State.drainN (s : State) (e : Nat) : Nat → State
  | 0 => s
  | n + 1 => State.drainN (s.drainOne e) e n

/-- Every entry drains. -/
def State.drainAll (s : State) (e : Nat) : State := s.drainN e (s.eng e).sbuf.length

/-- STORE_BUFFER_DRAIN (R364). -/
def execStoreBufferDrain (e : Nat) (s : State) : Res := .next (s.whenUp fun s => if e < 32 then s.drainOne e else s)

/-! ### BOB_CTL, BOB_IMG, BOB_LMEM -/

/-- RUN: from STOPPED or HALTED, at the reset vector (R344). -/
def State.bobRun (s : State) (e : Nat) : State :=
  let st := (s.eng e).st
  if st == .stopped || st == .halted then s.engRun e else s

/-- STOP: the engine issues nothing more, a wait is abandoned, and it is STOPPED once its store buffer has drained (R344). -/
def State.bobStop (s : State) (e : Nat) : State :=
  let x := s.eng e
  if x.st == .running || x.st == .waiting then
    (s.setEng e { x with st := .running, stopReq := true, waitOn := none }).engSettle e
  else s

/-- A write of BOB_CTL. -/
def State.bobCtlWrite (s : State) (e : Nat) (data : W64) : State :=
  let s1 := if getBit data 0 then s.bobRun e else s
  if getBit data 1 then s1.bobStop e else s1

/-- A write of BOB_IMG: none unless the engine is STOPPED. -/
def State.bobImgSet (s : State) (e : Nat) (data : W64) : State :=
  if (s.eng e).st == .stopped then s.setFld (R.BOB_IMG.BASE e) (getBits data 0 44) else s

/-- Word `k` of a 64-bit value. -/
def word16 (data : W64) (k : Nat) : W16 := BitVec.ofNat 16 (getBits data (16 * k) 16)

/-- A write of BOB_LMEM at a byte offset of the engine's 64 KiB: none unless STOPPED or HALTED. -/
def State.bobLmemSet (s : State) (e off : Nat) (data : W64) : State :=
  let x := s.eng e
  if !(x.st == .stopped || x.st == .halted) then s
  else if off < 0xC000 then
    s.setEng e ((List.range 4).foldl (fun (x : Engine) k => x.dWrite (off / 8 * 4 + k) (word16 data k)) x)
  else if off < 0xE000 then
    s.setEng e ((List.range 4).foldl (fun (x : Engine) k => x.iWrite ((off - 0xC000) / 8 * 4 + k) (word16 data k)) x)
  else s

/-- Four words as a 64-bit value, lowest first. -/
def words64 (l : List W16) : W64 := BitVec.ofNat 64 (leNat (wordBytes l))

/-- A read of BOB_LMEM. -/
def State.bobLmemGet (s : State) (e off : Nat) : W64 :=
  let x := s.eng e
  if !(x.st == .stopped || x.st == .halted) then 0
  else if off < 0xC000 then words64 ((List.range 4).map fun k => x.dRead (off / 8 * 4 + k))
  else if off < 0xE000 then words64 ((List.range 4).map fun k => x.iRead ((off - 0xC000) / 8 * 4 + k))
  else 0

/-- BOB_STAT.STATE (Table 12-23). -/
def EngSt.code : EngSt → Nat
  | .stopped => 0
  | .running => 1
  | .waiting => 2
  | .halted => 3

/-- BOB_STAT. PC is valid while the engine is STOPPED or HALTED. -/
def State.bobStat (s : State) (e : Nat) : W64 :=
  let x := s.eng e
  BitVec.ofNat 64 (x.st.code + 4 * b2n x.dfault + 16 * x.cause + 256 * x.vector + 65536 * x.pc + 2 ^ 32 * x.faults)

/-- BOB_CTL_RUN (R344). -/
def execBobCtlRun (who : Agent) (e : Nat) (s : State) : Res :=
  .next (s.whenUp fun s => if e < 32 then s.regTry who .write (R.BOB_CTL.off e) fun s => s.bobRun e else s)

/-- BOB_CTL_STOP (R344). -/
def execBobCtlStop (who : Agent) (e : Nat) (s : State) : Res :=
  .next (s.whenUp fun s => if e < 32 then s.regTry who .write (R.BOB_CTL.off e) fun s => s.bobStop e else s)

/-- BOB_IMG_WRITE (R345). -/
def execBobImgWrite (who : Agent) (e : Nat) (data : BitVec 64) (s : State) : Res :=
  .next (s.whenUp fun s => if e < 32 then s.regTry who .write (R.BOB_IMG.off e) fun s => s.bobImgSet e data else s)

/-- BOB_LMEM_WRITE (R344): `off` is the byte offset in the engine's 64 KiB, of an aligned word of 64 bits. -/
def execBobLmemWrite (who : Agent) (e off : Nat) (data : BitVec 64) (s : State) : Res :=
  .next (s.whenUp fun s =>
    if e < 32 ∧ off < 65536 ∧ off % 8 = 0 then s.regTry who .write (R.BOB_LMEM.off e (off / 8)) fun s => s.bobLmemSet e off data else s)

end Sys2Proof.Machine
end

