-- ==== Sys2Proof/Machine/Harts.lean ====
section
/-!
DEFINITION. Harts.lean: what the spec adds to a RISC-V hart (11_anole_cores.md): the custom CSRs, the cache enables, cache-block operations and
the timer compares. RISC-V's own state is out of scope (R322). Caches hold nothing here that memory does not.
-/

namespace Sys2Proof.Machine

/-! ### htapeacct (R326, R327) -/

/-- HTAPEACCT_WRITE: from HS-mode and M-mode; U-mode takes an illegal-instruction exception, VS- and VU-mode a virtual-instruction exception. -/
def execHtapeacctWrite (h : Nat) (mode : Priv) (data : BitVec 64) (s : State) : Res :=
  .next (s.whenUp fun s =>
    if 64 ≤ h then s
    else match mode with
      | .m => s.setHart h { s.hart h with account := getBits data 0 13 }
      | .s => s.setHart h { s.hart h with account := getBits data 0 13 }
      | .u => s.hartTrap h trapIllegal
      | .vs => s.hartTrap h trapVirtual
      | .vu => s.hartTrap h trapVirtual)

/-! ### mcachectl (R336) -/

/-- One write of mcachectl: the invalidation first, then the enables; a refused enable keeps its bit at 0 and is told by NOINV or NOSC. -/
def State.mcachectl (s : State) (h : Nat) (data : W64) : State :=
  let x := s.hart h
  let inv := x.invDone || getBit data 4 || getBit data 5
  let sc := s.bit R.SC_CTL.EN
  let ic := getBit data 0
  let dc := getBit data 1
  let l2 := getBit data 2
  let newIc := ic && !x.icEn
  let newDc := dc && !x.dcEn
  let newL2 := l2 && !x.l2En
  let noInv := (newIc || newDc || newL2) && !inv
  let noSc := (newDc || newL2) && !sc
  let y : Hart := { x with
    invDone := inv
    icEn := ic && (x.icEn || inv)
    dcEn := dc && (x.dcEn || (inv && sc))
    l2En := l2 && (x.l2En || (inv && sc))
    noInv := if noInv || noSc then x.noInv || noInv else false
    noSc := if noInv || noSc then x.noSc || noSc else false }
  s.setHart h y

/-- MCACHECTL_INV. -/
def execMcachectlInv (h : Nat) (mode : Priv) (data : BitVec 64) (s : State) : Res :=
  .next (s.whenUp fun s => s.mCsr h mode fun s => s.mcachectl h (setBits data 4 1 1))

/-- MCACHECTL_WBINV. -/
def execMcachectlWbinv (h : Nat) (mode : Priv) (data : BitVec 64) (s : State) : Res :=
  .next (s.whenUp fun s => s.mCsr h mode fun s => s.mcachectl h (setBits data 5 1 1))

/-- MCACHECTL_ENABLE. -/
def execMcachectlEnable (h : Nat) (mode : Priv) (data : BitVec 64) (s : State) : Res :=
  .next (s.whenUp fun s => s.mCsr h mode fun s => s.mcachectl h data)

/-! ### SC_CTL (R337) -/

/-- One write of SC_CTL. EN is judged by INV_DONE as it stood; an invalidation is over in the command that asks for it. -/
def State.scCtlWrite (s : State) (data : W64) : State :=
  let en := s.bit R.SC_CTL.EN
  let priv := s.harts.any fun e => e.2.dcEn || e.2.l2En
  let s1 :=
    if getBit data 0 && !en then
      (if s.bit R.SC_CTL.INV_DONE then (s.setBit R.SC_CTL.EN).clrBit R.SC_CTL.NOINV else s.setBit R.SC_CTL.NOINV)
    else if !getBit data 0 && en then
      (if priv then s.setBit R.SC_CTL.NOPRIV else (s.clrBit R.SC_CTL.EN).clrBit R.SC_CTL.NOPRIV)
    else s
  if getBit data 1 then s1.setBit R.SC_CTL.INV_DONE else s1

/-- SC_CTL_INV. -/
def execScCtlInv (who : Agent) (data : BitVec 64) (s : State) : Res :=
  .next (s.whenUp fun s => s.regTry who .write R.SC_CTL.off fun s => s.scCtlWrite (setBits data 1 1 1))

/-- SC_CTL_ENABLE. -/
def execScCtlEnable (who : Agent) (data : BitVec 64) (s : State) : Res :=
  .next (s.whenUp fun s => s.regTry who .write R.SC_CTL.off fun s => s.scCtlWrite data)

/-! ### Cache-block operations (R325) -/

/-- A hart runs: released, neither waiting nor held in Debug Mode, its tile awake, its panel not in Hold. -/
def State.hartRuns (s : State) (h : Nat) : Bool :=
  decide (h < 64) && (s.hart h).released && !(s.hart h).wfi && !(s.hart h).debug && s.unitState (h / 4) == 0

/-- The region of a physical address is cacheable (Table 11-2). -/
def State.cacheable (s : State) (a : Nat) : Bool :=
  match s.physKind a with
  | .dram => true
  | .liningSram => true
  | _ => false

/-- A cache-block operation that moves no data is checked as a read of its block; a refusal is logged. -/
def State.cboRead (s : State) (h addr : Nat) : State :=
  s.whenUp fun s =>
    let a := addr / 64 * 64
    if s.hartRuns h && s.cacheable a then
      match s.memCheck (.hart h) a 64 .read with
      | .refused c r => s.violation (.hart h) .read c r a
      | _ => s
    else s

/-- CBO_CLEAN. -/
def execCboClean (h addr : Nat) (s : State) : Res := .next (s.cboRead h addr)
/-- CBO_FLUSH. -/
def execCboFlush (h addr : Nat) (s : State) : Res := .next (s.cboRead h addr)
/-- CBO_INVAL: a flush. -/
def execCboInval (h addr : Nat) (s : State) : Res := .next (s.cboRead h addr)

/-- Access-fault causes. -/
abbrev trapFetch : Nat := 1
abbrev trapLoad : Nat := 5
abbrev trapStore : Nat := 7

/-- CBO_ZERO: checked as a write; a store/AMO access fault where the region is not cacheable. -/
def execCboZero (h addr : Nat) (s : State) : Res :=
  .next (s.whenUp fun s =>
    let a := addr / 64 * 64
    if !s.hartRuns h then s
    else if !s.cacheable a then s.hartTrap h trapStore
    else match s.memCheck (.hart h) a 64 .write with
      | .ok => (s.devWrite a (zeros 64)).unpoison a 64
      | .refused c r => s.violation (.hart h) .write c r a
      | _ => s)

/-! ### Timer compares (R323) -/

/-- MACHINE_TIMER_INTERRUPT: the interrupt of a hart is pending; it ends a WFI, and wakes the hart's core tile from a sleep. -/
def execMachineTimerInterrupt (h : Nat) (kind : TimerCmp) (s : State) : Res :=
  .next (s.whenUp fun s =>
    if 64 ≤ h then s
    else
      let x := s.hart h
      let y : Hart := match kind with
        | .mtimecmp => { x with mtip := true }
        | .stimecmp => { x with stip := true }
        | .vstimecmp => { x with vstip := true }
      let asleep := s.unitState (h / 4) == 1 || s.unitState (h / 4) == 2
      if asleep then (s.setHart h y).wakeUnit (h / 4) else s.setHart h { y with wfi := false })

end Sys2Proof.Machine
end

