-- ==== Sys2Proof/Machine/Timers.lean ====
section
/-!
DEFINITION. Timers.lean: the timer unit of 14_timers.md. A row that names a timer above 63, a group above 5 or a port above 31 has no effect.
-/

namespace Sys2Proof.Machine

/-- 2^64. -/
abbrev two64 : Nat := 18446744073709551616

/-! ### Counts and running timers (R389, R391) -/

/-- A timer's count: T00 shows the integer ns of device time (R403). -/
def State.tmrCount (s : State) (t : Nat) : Nat :=
  if t = 0 then s.now % two64 else (s.reg (R.TMR_COUNT.off t)).toNat

/-- A timer is running: T00 always. -/
def State.tmrRunning (s : State) (t : Nat) : Bool := t == 0 || (s.reg R.TMU_RUN.off).getLsbD t

/-- Set or clear a timer's RUN bit. -/
def State.setRun (s : State) (t : Nat) (on : Bool) : State :=
  s.setReg R.TMU_RUN.off (setBits (s.reg R.TMU_RUN.off) t 1 (b2n on))

/-- A timer's interrupt: APLIC source 16 + t mod 16 of panel t / 16 (R402). -/
def State.irqTimer (s : State) (t : Nat) : Bool :=
  (s.bit (R.TMR_STAT.MATCH t) && s.bit (R.TMR_CFG.IE_MATCH t)) || (s.bit (R.TMR_STAT.NEW_R t) && s.bit (R.TMR_CFG.IE_RISE t)) ||
    (s.bit (R.TMR_STAT.NEW_F t) && s.bit (R.TMR_CFG.IE_FALL t))

/-! ### PPS pins (R407, R408) -/

/-- The level of PPS0 or PPS1. -/
def State.ppsLevel (s : State) (k : Nat) : Bool := if k = 0 then s.tmu.pps0 else s.tmu.pps1

/-- A PPS pin takes a level. -/
def State.setPps (s : State) (k : Nat) (on : Bool) : State :=
  let s1 : State := { s with tmu := if k = 0 then { s.tmu with pps0 := on } else { s.tmu with pps1 := on } }
  s1.emit (.pin (100 + k) on)

/-- A rising event of a PPS pin: none while it is disabled, high already, or gated. -/
def State.ppsRise (s : State) (k : Nat) : State :=
  if s.bit (R.TMU_PPS.ENABLE k) && !s.ppsLevel k && !s.sys.gated then s.setPps k true else s

/-- T00 reaches or passes a whole second: the PPS pins under SRC 0 rise. -/
def State.ppsSecond (s : State) : State :=
  let s1 := if s.bit (R.TMU_PPS.SRC 0) then s else s.ppsRise 0
  if s1.bit (R.TMU_PPS.SRC 1) then s1 else s1.ppsRise 1

/-! ### Compare (R395, R396) -/

/-- A timer's compare is armed. -/
def State.tmrArmed (s : State) (t : Nat) : Bool := !smGet false s.tmu.disarmed t

/-- Arm or disarm a compare. -/
def State.setArmed (s : State) (t : Nat) (on : Bool) : State :=
  { s with tmu := { s.tmu with disarmed := smPut false s.tmu.disarmed t (!on) } }

/-- The compare condition holds. -/
def State.tmrDue (s : State) (t : Nat) : Bool := decide ((s.reg (R.TMR_CMP.off t)).toNat ≤ s.tmrCount t)

/-- A match. RELOAD is added unless the compare was written in this cycle (`wrote`); it has no effect on T00. -/
def State.tmrMatch (s : State) (t : Nat) (wrote : Bool) : State :=
  let s1 := if s.bit (R.TMR_STAT.MATCH t) then s.setBit (R.TMR_STAT.MISS t) else s
  let s2 := s1.setBit (R.TMR_STAT.MATCH t)
  let reload := if t = 0 then 0 else s2.fld (R.TMR_CFG.RELOAD t)
  let s3 :=
    if reload ≠ 0 && !wrote then
      s2.setReg (R.TMR_CMP.off t) (s2.reg (R.TMR_CMP.off t) + BitVec.ofNat 64 reload)
    else s2.setArmed t false
  if (t == 62 || t == 63) && s3.bit (R.TMU_PPS.SRC (t - 62)) then s3.ppsRise (t - 62) else s3

/-- Evaluate a compare. -/
def State.tmrEval (s : State) (t : Nat) (wrote : Bool) : State :=
  if s.tmrArmed t && s.tmrDue t then s.tmrMatch t wrote else s

/-- TIMER_MATCH (R395). -/
def execTimerMatch (t : Nat) (s : State) : Res := .next (s.whenUp fun s => if 64 ≤ t then s else s.tmrEval t false)

/-- TMR_CMP is written: armed again, and evaluated in the same cycle against the count (R395, Table 14-2). -/
def State.tmrCmpSet (s : State) (t : Nat) (data : W64) : State :=
  ((s.setReg (R.TMR_CMP.off t) data).setArmed t true).tmrEval t true

/-- TMR_CMP_WRITE (R395). -/
def execTmrCmpWrite (who : Agent) (t : Nat) (data : BitVec 64) (s : State) : Res :=
  .next (s.whenUp fun s => if 64 ≤ t then s else s.regTry who .write (R.TMR_CMP.off t) fun s => s.tmrCmpSet t data)

/-- MATCH is cleared: the compare is armed for the next cycle. -/
def State.tmrMatchOff (s : State) (t : Nat) : State :=
  if s.bit (R.TMR_STAT.MATCH t) then (s.clrBit (R.TMR_STAT.MATCH t)).setArmed t true else s

/-- TMR_MATCH_CLEAR (R395). -/
def execTmrMatchClear (who : Agent) (t : Nat) (s : State) : Res :=
  .next (s.whenUp fun s => if 64 ≤ t then s else s.regTry who .write (R.TMR_STAT.off t) fun s => s.tmrMatchOff t)

/-! ### Ticks (R391, R403) -/

/-- RATE as it acts: within ±1,000 ppm (R403). -/
def State.t00Rate (s : State) : Nat := min (max (s.fld R.TMU_T00_RATE.RATE) 0x13FAE147B) 0x14051EB85

/-- T00's accumulator moves to a value; a whole second passed on the way up is a PPS event. -/
def State.setT00 (s : State) (v : Nat) : State :=
  let s1 : State := { s with tmu := { s.tmu with t00 := v } }
  if s.now / 1000000000 < s1.now / 1000000000 then s1.ppsSecond else s1

/-- T00 advances by one clock cycle: an ENGCLK cycle while ROOTPLL is locked, else an AONCLK cycle of 40 ns, scaled by RATE (R403). It starts when
ROOTPLL first locks. -/
def State.t00Tick (s : State) : State :=
  match s.sys.phase with
  | .por | .cold => s
  | .clockHold false => s.setT00 (s.tmu.t00 + 32 * s.t00Rate)
  | _ => s.setT00 (s.tmu.t00 + s.t00Rate)

/-- TIMER_TICK (R391): the prescaler of a running timer expires. -/
def execTimerTick (t : Nat) (s : State) : Res :=
  .next (if t = 0 then s.t00Tick
    else s.whenUp fun s =>
      if t < 64 && s.tmrRunning t then s.setReg (R.TMR_COUNT.off t) (s.reg (R.TMR_COUNT.off t) + 1) else s)

/-! ### Groups (R392, R394) -/

/-- The timers of a mask that a requester may start or stop: not T00, and a Lining timer only for the Lining. -/
def State.groupOf (s : State) (who : Agent) (mask : W64) : List Nat :=
  (bitList 64 mask.toNat).filter fun t => t != 0 && (s.world who == .lining || !s.tmrLining t)

/-- Start or stop each timer of a list. -/
def State.runAll (s : State) (on : Bool) : List Nat → State
  | [] => s
  | t :: ts => State.runAll (s.setRun t on) on ts

/-- A mask written to TMU_GO. -/
def State.tmuGo (s : State) (who : Agent) (mask : W64) : State := s.runAll true (s.groupOf who mask)

/-- A mask written to TMU_HALT. -/
def State.tmuHalt (s : State) (who : Agent) (mask : W64) : State := s.runAll false (s.groupOf who mask)

/-- Copy each timer's count into its snapshot. -/
def State.snapAll (s : State) : List Nat → State
  | [] => s
  | t :: ts => State.snapAll (s.setReg (R.TMR_SNAP.off t) (BitVec.ofNat 64 (s.tmrCount t))) ts

/-- A mask written to TMU_SNAP. -/
def State.tmuSnap (s : State) (mask : W64) : State :=
  let s1 := s.snapAll (bitList 64 mask.toNat)
  s1.setFld R.TMU_STATUS.SNAP_SEQ (s1.fld R.TMU_STATUS.SNAP_SEQ + 1)

/-- TMU_GO (R392). -/
def execTmuGo (who : Agent) (mask : BitVec 64) (s : State) : Res :=
  .next (s.whenUp fun s => s.regTry who .write R.TMU_GO.off fun s => s.tmuGo who mask)

/-- TMU_HALT (R392). -/
def execTmuHalt (who : Agent) (mask : BitVec 64) (s : State) : Res :=
  .next (s.whenUp fun s => s.regTry who .write R.TMU_HALT.off fun s => s.tmuHalt who mask)

/-- TMU_SNAP (R394). -/
def execTmuSnap (who : Agent) (mask : BitVec 64) (s : State) : Res :=
  .next (s.whenUp fun s => s.regTry who .write R.TMU_SNAP.off fun s => s.tmuSnap mask)

/-! ### Capture (R397–R401) -/

/-- An engine holds an open copy of a register: from its word-0 read until it reads word 3 (R401). -/
def State.copyOpen (s : State) (off : Nat) : Bool :=
  s.engs.any fun e => match e.2.rd with | some (o, _, true) => o == off | _ => false

/-- A source that can pulse: a pin while the outputs are ungated (R408), an internal source. -/
def State.srcLive (s : State) (src : Nat) : Bool := if src < 16 then !s.sys.gated else decide (src < 42)

/-- The capture of one value into TMR_RISE or TMR_FALL (R399, R401). -/
def State.capture (s : State) (t : Nat) (fall : Bool) (v : W64) : State :=
  if fall then
    let s1 := if s.bit (R.TMR_STAT.NEW_F t) then s.setBit (R.TMR_STAT.LOST_F t) else s
    let s2 := if s1.copyOpen (R.TMR_FALL.off t) || s1.copyOpen (R.TMR_WIDTH.off t) then s1.setBit (R.TMR_STAT.OVR t) else s1
    let s3 := (s2.setReg (R.TMR_FALL.off t) v).setBit (R.TMR_STAT.NEW_F t)
    s3.setReg (R.TMR_WIDTH.off t) (v - s3.reg (R.TMR_RISE.off t))
  else
    let s1 := if s.bit (R.TMR_STAT.NEW_R t) then s.setBit (R.TMR_STAT.LOST_R t) else s
    let s2 := if s1.copyOpen (R.TMR_RISE.off t) then s1.setBit (R.TMR_STAT.OVR t) else s1
    (s2.setReg (R.TMR_RISE.off t) v).setBit (R.TMR_STAT.NEW_R t)

/-- TIMER_CAPTURE (R397): an accepted edge of the timer's source; `back` is by how much the count has moved since the edge's first agreeing
sample (R398), for a pin alone. -/
def execTimerCapture (t : Nat) (rising : Bool) (back : Nat) (s : State) : Res :=
  .next (s.whenUp fun s =>
    let src := s.fld (R.TMR_CFG.SRC t)
    if 64 ≤ t || !s.bit (R.TMR_CFG.CAP_EN t) || !s.srcLive src then s
    else
      let ago := if src < 16 then back else 0
      s.capture t (rising == s.bit (R.TMR_CFG.POL t)) (BitVec.ofNat 64 (s.tmrCount t) - BitVec.ofNat 64 ago))

/-- A read of TMR_RISE or TMR_FALL clears its NEW bit (R400). -/
def State.newOff (s : State) (t : Nat) (fall : Bool) : State :=
  s.clrBit (if fall then R.TMR_STAT.NEW_F t else R.TMR_STAT.NEW_R t)

/-- The capture registers and counts of T00 admit any world for reading (R402). -/
def t00Open (off : Nat) : Bool :=
  off == R.TMR_COUNT.off 0 || off == R.TMR_SNAP.off 0 || off == R.TMR_RISE.off 0 || off == R.TMR_FALL.off 0 || off == R.TMR_WIDTH.off 0

/-- TMR_CAPTURE_READ (R400). -/
def execTmrCaptureRead (who : Agent) (t : Nat) (fall : Bool) (s : State) : Res :=
  .next (s.whenUp fun s =>
    if 64 ≤ t then s
    else
      let off := if fall then R.TMR_FALL.off t else R.TMR_RISE.off t
      let f := fun (s : State) => (s.emit (.readData (leBytes 8 (s.reg off).toNat))).newOff t fall
      if t = 0 then f s else s.regTry who .read off f)

/-! ### Device time (R403, R68, R221) -/

/-- An armed stitch at a time that has been reached applies at once (R68). -/
def State.stitchReached (s : State) : State :=
  match s.onf.session with
  | some ss =>
    match ss.armed with
    | some a =>
      if a.mode == .atTime && decide (a.time ≤ s.now) then (if s.minuteDue then s.minuteEdge else s.edgeDue true) else s
    | none => s
  | none => s

/-- A step of device time by a signed number of ns: the Tape marks a backward step and a forward step past a boundary (R221), T00's compare is evaluated,
and a stitch whose time has been passed applies. -/
def State.t00Step (s : State) (ns : W64) : State :=
  let d := ns.toInt
  let v := ((s.tmu.t00 : Int) + d * 4294967296) % 79228162514264337593543950336
  let s1 := s.setT00 v.toNat
  let s2 := if d < 0 || s1.minuteDue then s1.tapeMark TapeFlag.timeStep else s1
  (s2.tmrEval 0 false).stitchReached

/-- T00_STEP (R403). -/
def execT00Step (who : Agent) (ns : BitVec 64) (s : State) : Res :=
  .next (s.whenUp fun s => s.regTry who .write R.TMU_T00_STEP.off fun s => s.t00Step ns)

/-! ### PTP and PTM (R404, R405) -/

/-- A group's timestamp FIFO. -/
def State.ptpFifo (s : State) (g : Nat) : List (Nat × Nat) := smGet [] s.tmu.ptp g

/-- A group's timestamp FIFO takes a value. -/
def State.setPtp (s : State) (g : Nat) (l : List (Nat × Nat)) : State :=
  { s with tmu := { s.tmu with ptp := smPut [] s.tmu.ptp g l } }

/-- TMU_PTPTS_HI of an entry. -/
def ptpHi (m : PtpMsg) : Nat :=
  m.seqId % 65536 + m.msgType % 16 * 65536 + m.domain % 256 * 1048576 + m.port % 64 * 268435456 + b2n m.sent * 17179869184 + 34359738368

/-- A recognised event message: Sync, Delay_Req, Pdelay_Req, Pdelay_Resp. -/
def ptpEvent (m : PtpMsg) : Bool := decide (m.msgType < 4)

/-- PTP_TIMESTAMP (R404). -/
def execPtpTimestamp (g : Nat) (m : PtpMsg) (s : State) : Res :=
  .next (s.whenUp fun s =>
    if 6 ≤ g || !s.bit (R.EMAC_GCFG.PTP_EN g) || !ptpEvent m then s
    else if 64 ≤ (s.ptpFifo g).length then s.setBit ⟨R.TMU_STATUS.off, 6 + g, 1⟩
    else s.setPtp g (s.ptpFifo g ++ [(s.now % two64, ptpHi m)]))

/-- The oldest entry leaves the FIFO. -/
def State.ptpPop (s : State) (g : Nat) : State := s.setPtp g (s.ptpFifo g).tail

/-- The HI word of the oldest entry; 0 with none. -/
def State.ptpHead (s : State) (g : Nat) : Nat × Nat := match s.ptpFifo g with | e :: _ => e | [] => (0, 0)

/-- PTP_TIMESTAMP_POP (R404). -/
def execPtpTimestampPop (who : Agent) (g : Nat) (s : State) : Res :=
  .next (s.whenUp fun s =>
    if 6 ≤ g then s
    else s.regTry who .read (R.TMU_PTPTS_HI.off g) fun s => (s.emit (.readData (leBytes 8 (s.ptpHead g).2))).ptpPop g)

/-- PTM_REQUEST (R405): while the capability is enabled and PERIOD_MS is not 0. -/
def execPtmRequest (n : Nat) (s : State) : Res :=
  .next (s.whenUp fun s =>
    if 32 ≤ n || !(s.fn (0x1000 + n)).ptmEn || s.fld (R.TMU_PTM_CTL.PERIOD_MS n) = 0 || s.sys.gated then s
    else
      let s1 : State := { s with tmu := { s.tmu with ptm := smPut 0 s.tmu.ptm n (s.now + 1) } }
      s1.emit (.ptm n))

/-- PTM_RESPONSE (R405): the four values of a ResponseD in one cycle, and SEQ. -/
def execPtmResponse (n : Nat) (withTime : Bool) (master : BitVec 64) (delay : BitVec 32) (s : State) : Res :=
  .next (s.whenUp fun s =>
    let t1 := smGet 0 s.tmu.ptm n
    if 32 ≤ n || t1 = 0 || !withTime then s
    else
      let s1 : State := { s with tmu := { s.tmu with ptm := smPut 0 s.tmu.ptm n 0 } }
      let s2 := (s1.setReg (R.TMU_PTM_T1.off n) (BitVec.ofNat 64 (t1 - 1))).setReg (R.TMU_PTM_T4.off n) (BitVec.ofNat 64 s.now)
      let s3 := (s2.setReg (R.TMU_PTM_MASTER.off n) master).setFld (R.TMU_PTM_STAT.PROP_DELAY n) delay.toNat
      s3.setFld (R.TMU_PTM_STAT.SEQ n) (s3.fld (R.TMU_PTM_STAT.SEQ n) + 1))

/-- PPS_FALL (R407): WIDTH_US after its rise. -/
def execPpsFall (k : Nat) (s : State) : Res :=
  .next (s.whenUp fun s => if k < 2 && s.ppsLevel k then s.setPps k false else s)

/-! ### Writes of the timer's other registers -/

/-- A write of TMR_CFG (Table 14-11): PRESCALE only while halted; SRC, POL and FILTER only while CAP_EN reads 0. -/
def State.tmrCfgWrite (s : State) (t : Nat) (data : W64) : State :=
  let old := s.reg (R.TMR_CFG.off t)
  let a := if s.tmrRunning t then setBits data 0 16 (getBits old 0 16) else data
  let b := if getBit old 27 then setBits a 16 11 (getBits old 16 11) else a
  s.setReg (R.TMR_CFG.off t) (setBits b 31 1 0)

/-- A write of TMR_COUNT loads the count only while the timer is halted; none to T00 (R391, R403). -/
def State.tmrCountWrite (s : State) (t : Nat) (data : W64) : State :=
  if s.tmrRunning t then s else s.setReg (R.TMR_COUNT.off t) data

/-- A write of TMR_STAT: W1C bits; clearing MATCH arms the compare. -/
def State.tmrStatWrite (s : State) (t : Nat) (data : W64) : State :=
  let s1 := if getBit data 0 then s.tmrMatchOff t else s
  s1.setReg (R.TMR_STAT.off t) (s1.reg (R.TMR_STAT.off t) &&& ~~~ (data &&& 0x7E))

/-- A write of TMU_WORLD: bit 0 keeps 1; another bit changes only while its timer is halted (Table 14-8). -/
def State.tmuWorldWrite (s : State) (data : W64) : State :=
  let old := s.reg R.TMU_WORLD.off
  let run := s.reg R.TMU_RUN.off ||| 1
  s.setReg R.TMU_WORLD.off ((old &&& run) ||| (data &&& ~~~ run) ||| 1)

/-- A write of TMU_T00_CTL: while LOCKED is 0 the Tape marks its record HOLDOVER (R221). -/
def State.t00CtlWrite (s : State) (data : W64) : State :=
  let s1 := s.setFld R.TMU_T00_CTL.LOCKED (getBits data 0 1)
  if getBit data 0 then s1 else s1.tapeMark TapeFlag.holdover

end Sys2Proof.Machine
end

