-- ==== Sys2Proof/Machine/CtlRead.lean ====
section
/-!
DEFINITION. CtlRead.lean: who reaches an offset of control space (R9, R29–R31, R310), and what a read of it gives: the register's value, worked out where
it shows state that is held elsewhere, and the side effects of a read.
-/

namespace Sys2Proof.Machine

/-! ### Areas of control space (Table 01-6) -/

/-- Where a control-space offset leads: a register of Regs.lean; a byte of a door's mailbox (Table 02-1, R58); a byte of the machine or supervisor
domain of a panel's APLIC (R330); an interrupt file of a hart (R331); the IOMMU's register file (R148); or nothing. -/
inductive CtlArea where
  | reg
  | mbx (ch off : Nat)
  | aplic (machine : Bool) (off : Nat)
  | imsic (hart file off : Nat)
  | iommu (off : Nat)
  | none
  deriving DecidableEq, Repr

/-- The area of an offset. -/
def ctlArea (off : Nat) : CtlArea :=
  if 0xA010000 ≤ off ∧ off < 0xA012008 then .mbx 34 (off - 0xA010000)
  else if 0xA020000 ≤ off ∧ off < 0xA022008 then .mbx 35 (off - 0xA020000)
  else if 0x9000000 ≤ off ∧ off < 0x9040000 then
    let o := (off - 0x9000000) % 0x10000
    if o < 0x4000 then .aplic true o else if 0x8000 ≤ o ∧ o < 0xC000 then .aplic false (o - 0x8000) else .none
  else if 0x9800000 ≤ off ∧ off < 0x9840000 then .imsic ((off - 0x9800000) / 0x1000) 0 (off % 0x1000)
  else if 0x9900000 ≤ off ∧ off < 0x9B00000 then .imsic ((off - 0x9900000) / 0x8000) ((off - 0x9900000) % 0x8000 / 0x1000 + 1) (off % 0x1000)
  else if 0x9F00000 ≤ off ∧ off < 0x9F01000 then .iommu (off - 0x9F00000)
  else if (regTag (off / 8 * 8)).isSome then .reg
  else .none

/-- How an access to control space is judged: taken; refused by a checker (SEAM_LOG0.CHECKER); or to an offset that no block implements. -/
inductive CtlJudge where
  | ok
  | refused (checker : Nat)
  | absent
  deriving DecidableEq, Repr

/-- Taken or refused by a world tag. -/
def CtlJudge.byTag (b : Bool) : CtlJudge := if b then .ok else .refused 4

/-- Judge an access. The tag is judged first, whatever the width (R31); T00's counts admit any world for reading (R402); an interrupt file admits under R310. -/
def State.ctlJudge (s : State) (who : Agent) (wr : Bool) (off : Nat) : CtlJudge :=
  match ctlArea off with
  | .reg =>
    let o := off / 8 * 8
    match regTag o with
    | some t => .byTag (s.tagAdmits t o who || (!wr && t00Open o))
    | none => .absent
  | .mbx ch _ => .byTag (s.tagAdmits (doorTag ch) off who)
  | .aplic m _ => .byTag (s.tagAdmits (if m then .l else .s) off who)
  | .imsic h f _ =>
    if f = 0 && !(s.world who == .lining && (s.reg R.PWR_CLAIM_HART.off).getLsbD h) then .refused 5 else .ok
  | .iommu _ => .byTag (s.tagAdmits .s off who)
  | .none => .absent

/-! ### Values that show other state -/

/-- The index of an offset in an array of `n` places `st` bytes apart from `base`. -/
def arrAt (base st n off : Nat) : Option Nat :=
  if base ≤ off ∧ off < base + st * n ∧ (off - base) % st = 0 then some ((off - base) / st) else none

/-- The first value that a list offers. -/
def firstSome {α : Type} : List (Option α) → Option α
  | [] => none
  | some a :: _ => some a
  | none :: l => firstSome l

/-- QP states as QW_STAT.STATE shows them (Table 03-21). -/
def QpSt.code : QpSt → Nat
  | .free => 0
  | .quiesced => 1
  | .active => 2
  | .parked => 3
  | .error => 4

/-- QW_STAT, LC_STAT (Table 03-21). -/
def QpCtx.statWord (c : QpCtx) : W64 :=
  BitVec.ofNat 64 (c.st.code + 8 * b2n (c.held || c.sessHeld) + 16 * b2n c.drain.isSome + 32 * b2n (c.cqFull && !c.cpls.isEmpty) + 64 * b2n c.cfgErr +
    2 ^ 16 * c.errcode + 2 ^ 32 * c.undoneHead + 2 ^ 48 * c.sqHead)

/-- QW_CSEQ, LC_CSEQ (Table 03-22). -/
def QpCtx.cseqWord (c : QpCtx) (lc : Bool) : W64 := BitVec.ofNat 64 (c.nextCseq % 2 ^ 32 + (if lc then 0 else 2 ^ 32 * min c.rxDrops 0xFFFFFFFF))

/-- A register of a queue window, by its byte offset in the window (R100, R152). A doorbell reads 0. -/
def QpCtx.window (c : QpCtx) (lc : Bool) (o : Nat) : W64 :=
  if o = 0 then c.sqBase
  else if o = 8 then c.cqBase
  else if o = 0x10 then (if lc then 0 else c.shadow)
  else if o = 0x18 then c.cfg
  else if o = 0x20 then c.pasid
  else if o = 0x28 then BitVec.ofNat 64 (b2n c.enable)
  else if o = 0x30 then c.statWord
  else c.cseqWord lc

/-- QFAB_QSTATE (Table 03-9). -/
def State.qstateWord (s : State) (q : Nat) : W64 :=
  let c := s.qp q
  BitVec.ofNat 64 (c.st.code + 8 * b2n (c.held || c.sessHeld) + 16 * b2n c.drain.isSome + 2 ^ 16 * s.fld (R.QFAB_QOWN.FUNCTION q) +
    2 ^ 32 * s.fld (R.QFAB_QOWN.LOCAL q) + 2 ^ 48 * c.errcode)

/-- Entries of QFAB_QOWN among registers with VALID 1. -/
def grantsIn (l : SMap W64) : Nat :=
  (l.filter fun e => decide (R.QFAB_QOWN.off 0 ≤ e.1) && decide (e.1 < R.QFAB_QOWN.off 65536) && getBit e.2 15).length

/-- QPs granted in the staged state: the live ones, and those whose staged copy differs. -/
def State.grantsStaged (s : State) : Nat :=
  match s.onf.session with
  | none => grantsIn s.regs
  | some ss =>
    let l := ss.regs.filter fun e => decide (R.QFAB_QOWN.off 0 ≤ e.1) && decide (e.1 < R.QFAB_QOWN.off 65536)
    grantsIn s.regs + grantsIn l - (l.filter fun e => getBit (s.reg e.1) 15).length

/-- QFAB_STATUS (Table 03-6). -/
def State.qfabStatus (s : State) : W64 :=
  setBits (setBits (s.reg R.QFAB_STATUS.off) 0 17 (65536 - grantsIn s.regs)) 32 17 (65536 - s.grantsStaged)

/-- SHUT_STATUS (Table 05-14): transfers PARKED or in PRG-WAIT. -/
def State.shutStatus (s : State) : W64 :=
  setBits (s.reg R.SHUT_STATUS.off) 0 13 (s.shut.xfers.filter fun x => x.st == .parked || x.st == .prgWait).length

/-- SHUT_PRI (Table 05-18). -/
def State.shutPri (s : State) (n : Nat) : W64 :=
  BitVec.ofNat 64 ((s.prgOut n).length + 2 ^ 11 * b2n (s.fn (0x1000 + n)).priStopped +
    2 ^ 16 * (s.shut.xfers.filter fun x => x.port == n && !x.lc && x.st == .prgWait).length + 2 ^ 32 * min (smGet 0 s.shut.groups n) 0xFFFFFFFF)

/-- SHUT_DLOG (Table 05-22). -/
def State.shutDlog (s : State) (v : Nat) : W64 :=
  let d := smGet DirtyLog.off s.shut.dlogs v
  BitVec.ofNat 64 (b2n d.on + 2 * b2n d.overflow + 4 * d.cause + 16 * b2n d.active + 2 ^ 32 * min d.bits 0xFFFFFFFF)

/-- ONF_MBX_CSR (Table 02-11). -/
def Mailbox.csr (m : Mailbox) : W64 :=
  BitVec.ofNat 64 (b2n m.go + 2 * b2n m.busy + 4 * b2n m.done + 8 * b2n m.overrun + 16 * b2n m.drop + 256 * b2n m.irqEn + 65536 * m.dropcode)

/-- PWR_HOLD.IN_HOLD. -/
def State.holdWord (s : State) : W64 := BitVec.ofNat 64 (((List.range 4).map fun p => if s.panelHeld p then 2 ^ (4 + p) else 0).sum)

/-- What a register shows whose value this model holds elsewhere. -/
def State.ctlShown (s : State) (off : Nat) : Option W64 :=
  firstSome [
    if off = R.TOP_SERIAL.off then some Config.serial else none,
    if off = R.TOP_STATUS.off then some s.topStatus else none,
    if off = R.PWR_STATE0.off then some (s.powerWord 0) else none,
    if off = R.PWR_STATE1.off then some (s.powerWord 1) else none,
    if off = R.PWR_HOLD.off then some s.holdWord else none,
    if off = R.TMU_RUN.off then some (s.reg off ||| 1) else none,
    (arrAt (R.TMR_COUNT.off 0) 64 64 off).map fun t => BitVec.ofNat 64 (s.tmrCount t),
    (arrAt (R.TMR_STAT.off 0) 64 64 off).map fun t => setBits (s.reg off) 7 1 (b2n (s.tmrRunning t)),
    (arrAt (R.TMU_PTPTS_LO.off 0) 16 6 off).map fun g => BitVec.ofNat 64 (s.ptpHead g).1,
    (arrAt (R.TMU_PTPTS_HI.off 0) 16 6 off).map fun g => BitVec.ofNat 64 (s.ptpHead g).2,
    if off = R.PWR_AVS.off then some s.avsWord else none,
    if off = R.GALV_LINKCNT.off then some (setBits (s.reg off) 0 32 (Config.fecCorr s.freeCtr)) else none,
    if off = R.FUSE_STATE.off then some (setBits s.fuseWord 24 1 (b2n (Config.vppOk s.freeCtr))) else none,
    (arrAt (R.FUSE_KEYHASH.off 0 0) 8 32 off).bind fun i => if i % 8 < 6 then some (s.fuseHashWord (i / 8) (i % 8)) else none,
    (arrAt (R.TAPE_ACCT.off 0) 8 1 off).map fun _ => s.reg off ||| 1,
    (arrAt 0xC00000 8 131072 off).map fun j => if j % 16 < 14 then BitVec.ofNat 64 (smGet 0 s.bank.counts j) else 0,
    if off = R.QFAB_STATUS.off then some s.qfabStatus else none,
    (arrAt (R.QFAB_QSTATE.off 0) 8 65536 off).map fun q => s.qstateWord q,
    if off = R.SHUT_STATUS.off then some s.shutStatus else none,
    (arrAt (R.SHUT_PRI.off 0) 8 32 off).map fun n => s.shutPri n,
    (arrAt (R.SHUT_DLOG.off 0) 8 4096 off).map fun v => s.shutDlog v,
    (arrAt (R.LC_SQBASE.off 0) 8 2048 off).map fun i => (s.qp (65536 + i / 8)).window true (8 * (i % 8)),
    (arrAt (R.BOB_CTL.off 0) 64 32 off).map fun e => BitVec.ofNat 64 (2 * b2n (s.eng e).stopReq),
    (arrAt (R.BOB_STAT.off 0) 64 32 off).map fun e => s.bobStat e,
    (arrAt (R.BOB_LMEM.off 0 0) 8 262144 off).map fun i => s.bobLmemGet (i / 8192) (8 * (i % 8192))]

/-- The value of a register: a staged copy by its live offset, else what it shows (R5, R7). -/
def State.regShown (s : State) (off : Nat) : W64 :=
  match regFind off with
  | some (d, isLive) =>
    match d.live with
    | some k => if isLive then (s.ctlShown off).getD (s.reg off)
                else if off + k = R.TAPE_ACCT.off 0 then s.staged (off + k) ||| 1 else s.staged (off + k)
    | none => (s.ctlShown off).getD (s.reg off)
  | none => 0

/-! ### The AIA and the IOMMU (R148, R330) -/

/-- A 32-bit register of an APLIC, as it reads: domaincfg shows DM 1 (bit 2) and the fixed top byte; sources 64 and up are not implemented. -/
def State.aplicWord (s : State) (off : Nat) : Nat :=
  match ctlArea off with
  | .aplic _ o => if o = 0 then smGet 0 s.aia off ||| 0x80000004 else if 0x100 ≤ o ∧ o < 0x1000 then 0 else smGet 0 s.aia off
  | _ => 0

/-- The capabilities register: exactly the subset of Table 05-5. Its layout is that of the RISC-V IOMMU Specification 1.0 (PRESUMED): version 1.0,
Sv39, Sv48, Sv57, Sv39x4, Sv48x4, Sv57x4, AMO_HWAD, IGS 0 (MSI), PAS 56, PD8, PD17, PD20. -/
def iommuCaps : Nat := 0x10 + 0xE00 + 0xE0000 + 2 ^ 24 + 56 * 2 ^ 32 + 7 * 2 ^ 38

/-- 64 bits of the IOMMU's register file. -/
def State.iommuWord (s : State) (off : Nat) : W64 :=
  if off = 0x9F00000 then BitVec.ofNat 64 iommuCaps
  else BitVec.ofNat 64 (smGet 0 s.aia off + 2 ^ 32 * smGet 0 s.aia (off + 4))

/-! ### Reads -/

/-- The 64 bits at an aligned offset, and what reading them does: the scan path and the timestamp FIFO move, NEW bits clear, a running count refuses an
engine (R393, R400, R401, R404, R423). -/
def State.ctlWord (s : State) (who : Agent) (off : Nat) : State × W64 :=
  match ctlArea off with
  | .reg =>
    if off = R.PWR_SCAN_DATA.off then s.scanRead
    else if off = R.TIME.off then (s.drawn, BitVec.ofNat 64 s.free)
    else match arrAt (R.TMU_PTPTS_HI.off 0) 16 6 off, who with
      | some g, .hart _ => (s.ptpPop g, s.regShown off)
      | _, _ =>
        match arrAt (R.TMR_RISE.off 0) 64 64 off, arrAt (R.TMR_FALL.off 0) 64 64 off, arrAt (R.TMR_COUNT.off 0) 64 64 off, who with
        | some t, _, _, _ => (s.newOff t false, s.regShown off)
        | _, some t, _, _ => (s.newOff t true, s.regShown off)
        | _, _, some t, .bobbin e =>
          if s.tmrRunning t then ((s.setBit R.TMU_STATUS.LIVE_READ).setFld R.TMU_STATUS.LIVE_ENG e, 0) else (s, s.regShown off)
        | _, _, _, _ => (s, s.regShown off)
  | .mbx ch o =>
    let m := s.mbx ch
    if o = 0x2000 then (s, m.csr)
    else if o < 0x1000 then (s, BitVec.ofNat 64 (leNat ((List.range 8).map fun i => smGet 0 m.req (o + i))))
    else (s, BitVec.ofNat 64 (leAt m.reply (o - 0x1000) 8))
  | .aplic _ _ => (s, BitVec.ofNat 64 (s.aplicWord off + 2 ^ 32 * s.aplicWord (off + 4)))
  | .imsic _ _ _ => (s, 0)
  | .iommu _ => (s, s.iommuWord off)
  | .none => (s, 0)

/-- A read of `len` bytes of control space that lie in one aligned 64-bit word: the state after it, its value, and whether the tag admitted it. A
refused read gives 0 and is logged (R9); an offset that no block implements gives 0 and sets UNMAPPED (R29). -/
def State.ctlRead (s : State) (who : Agent) (off len : Nat) : State × Nat × Bool :=
  match s.ctlJudge who false off with
  | .ok => let r := s.ctlWord who (off / 8 * 8); (r.1, r.2.toNat / 2 ^ (8 * (off % 8)) % 2 ^ (8 * len), true)
  | .refused c => (s.violation who .read c 0x7F off, 0, false)
  | .absent => (s.topEvt R.TOP_STATUS.UNMAPPED, 0, true)

end Sys2Proof.Machine
end

