-- ==== Sys2Proof/Machine/CtlWrite.lean ====
section
/-!
DEFINITION. CtlWrite.lean: what a 64-bit write to a register of control space does (R5, R7, R31): by its access codes, or for a register that acts on a
write by the operation of its own rule.
-/

namespace Sys2Proof.Machine

/-! ### Basted registers (R7, R60) -/

/-- A write to the staged copy of a register, named by its live offset: staged where R60 admits it, on a mirrored lead with its copy to the mirror. -/
def State.hartPut (s : State) (who : Agent) (tag : RegTag) (live : Nat) (data : W64) : State :=
  match s.hartStage who (tag == .l) with
  | .foreign => s.setBit R.ONF_BASTE_STAT.FOREIGN_WR
  | .ignored => s
  | .staged =>
    let s1 := (s.stageReg (live, data)).showSession
    if s.mirrored && !ownPins live then s1.sendFlit (.stage false [(live, s1.staged live)] []) else s1

/-! ### Windows and doors -/

/-- A write to the window of a local channel (R152); LC_CFG and LC_CTX keep their reserved bits 0. -/
def State.lcPut (s : State) (n o : Nat) (data : W64) : State :=
  let q := 65536 + n
  let c := s.qp q
  if o = 0x10 then s.doorbell q data
  else if o = 0x28 then
    (if getBit data 0 then (if c.st == .quiesced then s.setQp q { c with world := s.lcLining n } else s).ringEnable q else s.ringDisable q)
  else if o = 0x30 then (if getBit data 6 then s.setQp q { c with cfgErr := false } else s)
  else if o = 0x38 then s
  else if c.st != .quiesced then s.setQp q { c with cfgErr := true }
  else if o = 0 then s.setQp q { c with sqBase := data }
  else if o = 8 then s.setQp q { c with cqBase := data }
  else if o = 0x18 then s.setQp q { c with cfg := (data &&& maskOf 0 15) ||| (data &&& maskOf 16 26) ||| (data &&& maskOf 42 3) }
  else s.setQp q { c with pasid := data &&& maskOf 0 21 }

/-- Bytes into a mailbox's request buffer; while BUSY is 1 they only set OVERRUN. -/
def State.mbxPut (s : State) (ch o : Nat) (b : List Byte) : State :=
  let m := s.mbx ch
  if m.busy then s.setMbx ch { m with overrun := true }
  else s.setMbx ch { m with req := Memory.writeN m.req o b }

/-- A write of ONF_MBX_CSR: its flags, then DONE, then GO. -/
def State.mbxCsr (s : State) (ch : Nat) (d : W64) : State :=
  let m := s.mbx ch
  let s1 := s.setMbx ch { m with overrun := m.overrun && !getBit d 3, drop := m.drop && !getBit d 4, irqEn := getBit d 8 }
  let s2 := if getBit d 2 then s1.mbxDone ch else s1
  if getBit d 0 then s2.mbxGo ch else s2

/-- A 64-bit write to a mailbox. The reply buffer is read-only. -/
def State.mbxWrite (s : State) (ch o : Nat) (d : W64) : State :=
  if o = 0x2000 then s.mbxCsr ch d else if o < 0x1000 then s.mbxPut ch o (leBytes 8 d.toNat) else s

/-- A 32-bit write to an APLIC or to the IOMMU: the word holds what was written; a source of 64 or more, and the capabilities, take none. -/
def State.aiaPut (s : State) (off v : Nat) : State :=
  match ctlArea off with
  | .aplic _ o => if 0x100 ≤ o ∧ o < 0x1000 then s else { s with aia := smPut 0 s.aia off (v % 2 ^ 32) }
  | .iommu o => if o < 8 then s else { s with aia := smPut 0 s.aia off (v % 2 ^ 32) }
  | _ => s

/-! ### Registers that act on a write -/

/-- Fields of a register that take writes only while its ENABLE reads 0: a write keeps them else. -/
def keepWhile (en : Bool) (old d : W64) (free : W64) : W64 := if en then (old &&& ~~~ free) ||| (d &&& free) else d

/-- A write by the access codes of a register's fields (R5). -/
def State.plainPut (s : State) (off : Nat) (d : W64) : State :=
  match regFind off with
  | some (r, _) => s.setReg off (writeFlds r.flds (s.reg off) d)
  | none => s

/-- A write of a PPS register (R407): disabled, its pin falls. -/
def State.ppsWrite (s : State) (k off : Nat) (d : W64) : State :=
  let s1 := s.plainPut off d
  if !getBit d 0 && s1.ppsLevel k then s1.setPps k false else s1

/-- A write of SHUT_KEYDATA. -/
def State.keyDataWrite (s : State) (i : Nat) (d : W64) : State :=
  { s with shut := { s.shut with keyData := (padList s.shut.keyData).set i d } }
where
  /-- Eight words. -/
  padList (l : List W64) : List W64 := l ++ List.replicate (8 - l.length) 0

/-- A write of SHUT_KEYCMD (Table 05-20). -/
def State.keyCmdWrite (s : State) (who : Agent) (d : W64) : State :=
  let op := getBits d 28 2
  if op = 1 then s.keyCmd who d true else if op = 2 then s.keyCmd who d false else s

/-- A write of SHUT_LRESP (R150). -/
def State.lrespWrite (s : State) (d : W64) : State :=
  let n := getBits d 0 8
  (s.lcUnpark n).lcSettle (getBit d 8) ((s.lcParks n).map (·.by_))

/-- A write of SHUT_LCWORLD: it takes effect for a channel that is QUIESCED (Table 05-23). -/
def State.lcWorldWrite (s : State) (i off : Nat) (d : W64) : State :=
  let can := ((List.range 64).map fun j => if (s.qp (65536 + 64 * i + j)).st == .quiesced then 2 ^ j else 0).sum
  s.setReg off ((s.reg off &&& ~~~ BitVec.ofNat 64 can) ||| (d &&& BitVec.ofNat 64 can))

/-- A write of SELV_TW_CMD (Table 06-12). -/
def State.twCmdWrite (s : State) (who : Agent) (d : W64) : State :=
  let t := getBits d 0 4
  let op := getBits d 4 3
  let i := getBits d 8 24
  if op = 0 then s.twRead who false t i
  else if op = 4 then s.twRead who true t i
  else if op ≤ 3 then s.twStage who op t i
  else s

/-- What a write does to a register that acts on it; none for a register that only takes the value. -/
def State.ctlAct (s : State) (who : Agent) (off : Nat) (d : W64) : Option State :=
  firstSome [
    if off = R.TOP_RESET.off then some (if getBit d 0 && getBits d 16 16 == 0xA5C3 then s.warmReset .soft else s) else none,
    if off = R.SC_CTL.off then some (s.scCtlWrite d) else none,
    if off = R.PWR_REQ.off then some (s.pwrReqWrite who d) else none,
    if off = R.PWR_HOLD.off then some (s.holdSet d) else none,
    if off = R.PWR_CLAIM_HART.off then some (s.claimHartSet d) else none,
    if off = R.PWR_CLAIM_BLK.off then some (s.claimBlkSet d) else none,
    if off = R.TMU_GO.off then some (s.tmuGo who d) else none,
    if off = R.TMU_HALT.off then some (s.tmuHalt who d) else none,
    if off = R.TMU_SNAP.off then some (s.tmuSnap d) else none,
    if off = R.TMU_WORLD.off then some (s.tmuWorldWrite d) else none,
    if off = R.TMU_T00_STEP.off then some (s.t00Step d) else none,
    if off = R.TMU_T00_CTL.off then some (s.t00CtlWrite d) else none,
    (arrAt (R.TMU_PPS.off 0) 8 2 off).map fun k => s.ppsWrite k off d,
    (arrAt (R.TMR_CFG.off 0) 64 64 off).map fun t => s.tmrCfgWrite t d,
    (arrAt (R.TMR_COUNT.off 0) 64 64 off).map fun t => s.tmrCountWrite t d,
    (arrAt (R.TMR_CMP.off 0) 64 64 off).map fun t => s.tmrCmpSet t d,
    (arrAt (R.TMR_STAT.off 0) 64 64 off).map fun t => s.tmrStatWrite t d,
    if off = R.SEAM_GPIOW.off then some (s.gpiowWrite d) else none,
    if off = R.SPOOL_CTL.off then some (s.spoolWrite who d) else none,
    if off = R.FUSE_PROG.off then some (s.fuseProgWrite who d) else none,
    (arrAt (R.FUSE_PDATA.off 0) 8 6 off).map fun i => { s with spool := { s.spool with pdata := smPut 0 s.spool.pdata i d } },
    if off = R.SAFE_WDOG.off then some (s.wdogWrite d) else none,
    if off = R.SAFE_INJECT.off then some (s.injectWrite d) else none,
    if off = R.TAPE_RING_PTR.off then some (s.headWrite (getBits d 0 32)) else none,
    (arrAt (R.QFAB_BEQ_WRING.off 0) 32 256 off).map fun b => s.plainPut off (keepWhile (s.bit (R.QFAB_BEQ_WRING.ENABLE b)) (s.reg off) d (maskOf 48 1)),
    (arrAt (R.QFAB_BEQ_RRING.off 0) 32 256 off).map fun b =>
      s.plainPut off (keepWhile (s.bit (R.QFAB_BEQ_WRING.ENABLE b)) (setBits (s.reg off) 55 1 0) d (maskOf 55 1)),
    (arrAt (R.SELV_EXQ_RING.off 0) 32 64 off).map fun n => s.plainPut off (keepWhile (s.bit (R.SELV_EXQ_RING.ENABLE n)) (s.reg off) d (maskOf 51 1)),
    (arrAt (R.SELV_EXQ_RIRING.off 0) 32 64 off).map fun n => s.plainPut off (keepWhile (s.bit (R.SELV_EXQ_RING.ENABLE n)) (s.reg off) d 0),
    if off = R.SHUT_LRESP.off then some (s.lrespWrite d) else none,
    (arrAt (R.SHUT_KEYDATA.off 0) 8 8 off).map fun i => s.keyDataWrite i d,
    if off = R.SHUT_KEYCMD.off then some (s.keyCmdWrite who d) else none,
    (arrAt (R.SHUT_LCWORLD.off 0) 8 4 off).map fun i => s.lcWorldWrite i off d,
    (arrAt (R.LC_SQBASE.off 0) 8 2048 off).map fun i => s.lcPut (i / 8) (8 * (i % 8)) d,
    if off = R.SELV_TW_CMD.off then some (s.twCmdWrite who d) else none,
    (arrAt (R.BOB_CTL.off 0) 64 32 off).map fun e => s.bobCtlWrite e d,
    (arrAt (R.BOB_IMG.off 0) 64 32 off).map fun e => s.bobImgSet e d,
    (arrAt (R.BOB_LMEM.off 0 0) 8 262144 off).map fun i => s.bobLmemSet (i / 8192) (8 * (i % 8192)) d,
    (arrAt (R.MTIMECMP.off 0) 8 64 off).map fun h => (s.setReg off d).setHart h { s.hart h with mtip := false }]

/-- A 64-bit write to a register that its tag admits. A live copy takes none. -/
def State.regPut (s : State) (who : Agent) (off : Nat) (d : W64) : State :=
  match regFind off with
  | none => s
  | some (r, isLive) =>
    match r.live with
    | some k => if isLive then s else s.hartPut who r.tag (off + k) d
    | none => (s.ctlAct who off d).getD (s.plainPut off d)

/-- A write of `len` bytes at an offset of control space, after the tag has admitted it. A narrow or misaligned store is dropped with NARROW_WR (R31), but for
the 32-bit registers of the AIA and the IOMMU. A message into an interrupt file is a write of its identity at offset 0. -/
def State.ctlPut (s : State) (who : Agent) (off len : Nat) (d : W64) : State :=
  let whole := decide (len = 8) && decide (off % 8 = 0)
  let half := decide (len = 4) && decide (off % 4 = 0)
  match ctlArea off with
  | .reg => if whole then s.regPut who off d else s.topEvt R.TOP_STATUS.NARROW_WR
  | .mbx ch o => if whole then s.mbxWrite ch o d else s.topEvt R.TOP_STATUS.NARROW_WR
  | .imsic h f o => if whole || half then (if o = 0 then s.msiFile h f (getBits d 0 32) else s) else s.topEvt R.TOP_STATUS.NARROW_WR
  | .none => s
  | _ =>
    if half then s.aiaPut off (getBits d 0 32)
    else if whole then (s.aiaPut off (getBits d 0 32)).aiaPut (off + 4) (getBits d 32 32)
    else s.topEvt R.TOP_STATUS.NARROW_WR

/-- A write to control space: refused by its tag it is logged and has no effect (R9); where no block implements the offset it sets UNMAPPED (R29). -/
def State.ctlStore (s : State) (who : Agent) (off len : Nat) (d : W64) : State :=
  match s.ctlJudge who true off with
  | .ok => s.ctlPut who off len d
  | .refused c => s.violation who .write c 0x7F off
  | .absent => s.topEvt R.TOP_STATUS.UNMAPPED

end Sys2Proof.Machine
end

