-- ==== Sys2Proof/Machine/Bar.lean ====
section
/-!
DEFINITION. Bar.lean: REGISTER_WRITE (R5): writes to control registers and to a function's BAR0 (R78, R109, R471) that have no row of their own.
-/

namespace Sys2Proof.Machine

/-- The state that a command leaves. -/
def resState (s : State) : Res → State
  | .next t => t
  | _ => s

/-- A 4-byte half of a 64-bit value, or all of it. -/
def putHalf (old : Nat) (high : Bool) (len v : Nat) : Nat :=
  if len = 8 then v % 2 ^ 64 else if high then old % 2 ^ 32 + v % 2 ^ 32 * 2 ^ 32 else old / 2 ^ 32 * 2 ^ 32 + v % 2 ^ 32

/-! ### NVMe controller registers (the layout of NVMe 1.4: PRESUMED, log entry 30) -/

/-- A write of CC: EN starts or resets the controller (R110, R111). -/
def State.nvmeCc (s : State) (f : Nat) (v : Nat) : State :=
  let c := (s.fn f).nvme
  let s1 :=
    if v % 2 = 1 && !c.en then resState s (execNvmeEnable f c.aqa s)
    else if v % 2 = 0 && c.en then resState s (execNvmeDisable f s)
    else s
  s1.setNvme f { (s1.fn f).nvme with cc := BitVec.ofNat 32 v }

/-- A write of an NVMe controller register. -/
def State.nvmeReg (s : State) (f o len v : Nat) : State :=
  let c := (s.fn f).nvme
  if o = 0x0C && len == 4 then s.setNvme f { c with intms := c.intms ||| BitVec.ofNat 32 v }
  else if o = 0x10 && len == 4 then s.setNvme f { c with intms := c.intms &&& ~~~ BitVec.ofNat 32 v }
  else if o = 0x14 && len == 4 then s.nvmeCc f v
  else if o = 0x24 && len == 4 then s.setNvme f { c with aqa := BitVec.ofNat 32 v }
  else if (o = 0x28 ∨ o = 0x2C) ∧ (len = 4 ∨ (len = 8 ∧ o = 0x28)) then
    s.setNvme f { c with asq := BitVec.ofNat 64 (putHalf c.asq.toNat (o == 0x2C) len v) }
  else if (o = 0x30 ∨ o = 0x34) ∧ (len = 4 ∨ (len = 8 ∧ o = 0x30)) then
    s.setNvme f { c with acq := BitVec.ofNat 64 (putHalf c.acq.toNat (o == 0x34) len v) }
  else s

/-! ### virtio common configuration (the layout of virtio 1.2: PRESUMED, log entry 30) -/

/-- A function's virtio state takes a value. -/
def State.setVirtio (s : State) (f : Nat) (v : VirtioState) : State := s.setFn f { s.fn f with virtio := v }

/-- A write of device_status: 0 resets the device; FEATURES_OK is judged; the driver's other bits are kept. -/
def State.virtioStatus (s : State) (f v : Nat) : State :=
  if v % 256 = 0 then resState s (execVirtioDeviceReset f s)
  else
    let c := (s.fn f).virtio
    let s1 := s.setVirtio f { c with status := (v &&& 0xB7) ||| (c.status &&& v &&& 8) }
    if v.testBit 3 && !c.status.testBit 3 then resState s1 (execVirtioFeaturesOk f c.feats s1) else s1

/-- A ring address of the selected virtqueue. -/
def putAddr (m : SMap Nat) (u : Nat) (high : Bool) (len v : Nat) : SMap Nat := smPut 0 m u (putHalf (smGet 0 m u) high len v)

/-- A vector that a driver names; one that does not exist reads NO_VECTOR. -/
def State.virtioVec (s : State) (f v : Nat) : Nat := if v < s.msixCount f then v else 65535

/-- A write of the common configuration. -/
def State.virtioCommon (s : State) (f o len v : Nat) : State :=
  let c := (s.fn f).virtio
  let u := c.qsel
  if o = 0 && len == 4 then s.setVirtio f { c with dfSel := v }
  else if o = 8 && len == 4 then s.setVirtio f { c with drvSel := v }
  else if o = 12 && len == 4 then
    (if c.status.testBit 3 || decide (2 ≤ c.drvSel) then s
     else s.setVirtio f { c with feats := setBits c.feats (32 * c.drvSel) 32 v })
  else if o = 16 && len == 2 then s.setVirtio f { c with cfgVec := s.virtioVec f v }
  else if o = 20 && len == 1 then s.virtioStatus f v
  else if o = 22 && len == 2 then s.setVirtio f { c with qsel := v }
  else if o = 24 && len == 2 then s.setVirtio f { c with qsize := smPut 32768 c.qsize u v }
  else if o = 26 && len == 2 then s.setVirtio f { c with qvec := smPut 65535 c.qvec u (s.virtioVec f v) }
  else if o = 28 && len == 2 then (if v = 1 then resState s (execVirtioQueueEnable f u s) else s)
  else if (o = 32 ∨ o = 36) ∧ (len = 4 ∨ (len = 8 ∧ o = 32)) then s.setVirtio f { c with qdesc := putAddr c.qdesc u (o == 36) len v }
  else if (o = 40 ∨ o = 44) ∧ (len = 4 ∨ (len = 8 ∧ o = 40)) then s.setVirtio f { c with qdriver := putAddr c.qdriver u (o == 44) len v }
  else if (o = 48 ∨ o = 52) ∧ (len = 4 ∨ (len = 8 ∧ o = 48)) then s.setVirtio f { c with qdevice := putAddr c.qdevice u (o == 52) len v }
  else s

/-! ### MSI-X (R101, R103) -/

/-- One dword of an MSI-X entry takes a value: address low and high, data, mask. -/
def MsixEnt.dword (e : MsixEnt) (k v : Nat) : MsixEnt :=
  if k = 0 then { e with addr := setBits e.addr 0 32 v }
  else if k = 1 then { e with addr := setBits e.addr 32 32 v }
  else if k = 2 then { e with data := BitVec.ofNat 32 v }
  else { e with masked := v % 2 == 1 }

/-- A dword or qword write to the MSI-X table; an entry at or above MSIX_COUNT takes none. Clearing the mask sends what the PBA holds. -/
def State.msixWrite (s : State) (f o len v : Nat) : State :=
  let i := o / 16
  let k := o % 16 / 4
  if i < s.msixCount f ∧ (len = 4 ∨ len = 8) ∧ o % len = 0 then
    let e := smGet MsixEnt.reset (s.fn f).msix i
    let e1 := if len = 4 then e.dword k v else (e.dword k (v % 2 ^ 32)).dword (k + 1) (v / 2 ^ 32)
    let s1 := s.setFn f { s.fn f with msix := smPut MsixEnt.reset (s.fn f).msix i e1 }
    if e.masked && !e1.masked then s1.unmask f i else s1
  else s

/-! ### BAR0 (Table 03-2) -/

/-- A write below 0x8000: doorbells, or an NVMe controller's registers. -/
def State.barDoorbell (s : State) (f off len : Nat) (d : W64) : State :=
  let p := s.pers f
  if p = 0 then resState s (execDoorbellWrite f off len d s)
  else if p = 1 ∨ p = 2 then (if off % 8 = 0 then resState s (execVirtioNotification f (off / 8) len d s) else s)
  else if off < 0x1000 then s.nvmeReg f off len d.toNat
  else if off % 8 = 0 then resState s (execNvmeSqDoorbell f ((off - 0x1000) / 8) len d s)
  else if off % 8 = 4 then resState s (execNvmeCqDoorbell f ((off - 0x1000) / 8) len d s)
  else s

/-- A queue window register by its byte offset. -/
def qwReg (o : Nat) : Option QwReg :=
  if o = 0 then some .sqBase else if o = 8 then some .cqBase else if o = 0x10 then some .shadow else if o = 0x18 then some .cfg
  else if o = 0x20 then some .pasid else none

/-- A write to the queue windows of a native function: one aligned 8-byte write (R471). -/
def State.barWindow (s : State) (f off len : Nat) (d : W64) : State :=
  if len ≠ 8 ∨ off % 8 ≠ 0 then s
  else
    let loc := (off - 0x40000) / 64
    let o := off % 64
    match qwReg o with
    | some reg => resState s (execQueueWindowWrite f loc reg d s)
    | none =>
      if o = 0x28 then resState s (if getBit d 0 then execQpEnable f loc s else execQpDisable f loc s)
      else if o = 0x30 && getBit d 6 then
        match s.windowQp f loc with
        | some q => s.setQp q { s.qp q with cfgErr := false }
        | none => s
      else s

/-- A host write to a function's BAR0. The mailbox of a PF takes bytes in its request buffer as the write enables give, and its CSR whole; an offset
that holds nothing takes none. -/
def State.barWrite (s : State) (f off len : Nat) (d : W64) : State :=
  if off < 0x8000 then s.barDoorbell f off len d
  else if off = 0x8000 then (if len = 8 then resState s (execVfFstatEvtEnWrite f d s) else s)
  else if 0x10000 ≤ off ∧ off < 0x18000 then s.msixWrite f (off - 0x10000) len d.toNat
  else if 0x20000 ≤ off ∧ off < 0x24000 ∧ isPf f then
    let o := off - 0x20000
    if o < 0x1000 then s.mbxPut (f - 0x1000) o ((leBytes (min len 8) d.toNat).take (0x1000 - o))
    else if o = 0x2000 ∧ len = 8 then s.mbxCsr (f - 0x1000) d
    else s
  else if 0x40000 ≤ off ∧ off < 0x80000 then
    let p := s.pers f
    if p = 0 then s.barWindow f off len d
    else if (p = 1 ∨ p = 2) ∧ off < 0x41000 then s.virtioCommon f (off - 0x40000) len d.toNat
    else s
  else s

/-- REGISTER_WRITE (R5). A control register takes a write of any requester its tag admits; BAR0 those of the host that reaches the function (R76). -/
def execRegisterWrite (who : Agent) (tgt : RegTarget) (len : Nat) (data : BitVec 64) (s : State) : Res :=
  .next (match tgt with
    | .ctl off => s.whenUp fun s => s.ctlStore who off len data
    | .bar f off =>
      match who with
      | .host _ => s.whenFn f fun s =>
        if s.fnReachable f then s.barWrite f off len (BitVec.ofNat 64 (data.toNat % 2 ^ (8 * min len 8))) else s
      | _ => s)

/-- RWB_REGISTER_WRITE (R60): a hart's store to a basted register or a table window. -/
def execRwbRegisterWrite (h : Nat) (off len : Nat) (data : BitVec 64) (s : State) : Res :=
  .next (s.whenUp fun s => s.ctlStore (.hart h) off len data)

end Sys2Proof.Machine
end

