-- ==== Sys2Proof/Machine/BobCodec.lean ====
section
/-!
DEFINITION. BobCodec.lean: the words of the Bobbin instructions (R351, Tables 12-6 to 12-13): an encoder, and a decoder that rejects every word of no listed
instruction.
-/

namespace Sys2Proof.Machine

/-- A word of four 4-bit fields, the highest first. -/
def bw (g : Nat) (a b c : Fin 16) : W16 := BitVec.ofNat 16 (g * 4096 + a.val * 256 + b.val * 16 + c.val)

/-- A word of two 4-bit fields and an 8-bit immediate. -/
def bw8 (g : Nat) (a : Fin 16) (m : BitVec 8) : W16 := BitVec.ofNat 16 (g * 4096 + a.val * 256 + m.toNat)

/-- A coprocessor word: port, form, number, register. -/
def bwc (port form : Nat) (n w : Fin 16) : W16 := BitVec.ofNat 16 (0xE000 + port % 4 * 1024 + form * 256 + n.val * 16 + w.val)

/-- The engine and the words of a Bobbin instruction; none for any other command. -/
def bobWords : Instr → Option (Nat × List W16)
  | .bMov e d s => some (e, [bw 0x0 0 d s])
  | .bAdd e d s => some (e, [bw 0x0 1 d s])
  | .bAdc e d s => some (e, [bw 0x0 2 d s])
  | .bSub e d s => some (e, [bw 0x0 3 d s])
  | .bSbc e d s => some (e, [bw 0x0 4 d s])
  | .bAnd e d s => some (e, [bw 0x0 5 d s])
  | .bOr e d s => some (e, [bw 0x0 6 d s])
  | .bXor e d s => some (e, [bw 0x0 7 d s])
  | .bCmp e d s => some (e, [bw 0x0 8 d s])
  | .bTst e d s => some (e, [bw 0x0 9 d s])
  | .bMovi e d m => some (e, [bw 0x1 0 d m])
  | .bAddi e d m => some (e, [bw 0x1 1 d m])
  | .bAdci e d m => some (e, [bw 0x1 2 d m])
  | .bSubi e d m => some (e, [bw 0x1 3 d m])
  | .bSbci e d m => some (e, [bw 0x1 4 d m])
  | .bAndi e d m => some (e, [bw 0x1 5 d m])
  | .bOri e d m => some (e, [bw 0x1 6 d m])
  | .bXori e d m => some (e, [bw 0x1 7 d m])
  | .bCmpi e d m => some (e, [bw 0x1 8 d m])
  | .bTsti e d m => some (e, [bw 0x1 9 d m])
  | .bBset e d m => some (e, [bw 0x1 10 d m])
  | .bBclr e d m => some (e, [bw 0x1 11 d m])
  | .bBtgl e d m => some (e, [bw 0x1 12 d m])
  | .bBtst e d m => some (e, [bw 0x1 13 d m])
  | .bNot e d m => some (e, [bw 0x2 0 d m])
  | .bNeg e d m => some (e, [bw 0x2 1 d m])
  | .bShl e d m => some (e, [bw 0x2 2 d m])
  | .bShr e d m => some (e, [bw 0x2 3 d m])
  | .bSar e d m => some (e, [bw 0x2 4 d m])
  | .bRol e d m => some (e, [bw 0x2 5 d m])
  | .bRor e d m => some (e, [bw 0x2 6 d m])
  | .bBrev e d m => some (e, [bw 0x2 7 d m])
  | .bPar e d m => some (e, [bw 0x2 8 d m])
  | .bClz e d m => some (e, [bw 0x2 9 d m])
  | .bSwapb e d m => some (e, [bw 0x2 10 d m])
  | .bLdi e d m => some (e, [bw8 0x3 d m])
  | .bLd e d b p => some (e, [bw 0x4 d b p])
  | .bSt e d b p => some (e, [bw 0x5 d b p])
  | .bIn e d b p => some (e, [bw 0x6 d b p])
  | .bOut e d b p => some (e, [bw 0x7 d b p])
  | .bBcc e c m => some (e, [bw8 0x8 c m])
  | .bJmp e y z t => some (e, [bw 0x9 0 y z, t])
  | .bJmpr e y z => some (e, [bw 0x9 1 y z])
  | .bCall e y z t m => some (e, [bw 0x9 2 y z, t, m])
  | .bCallr e y z m => some (e, [bw 0x9 3 y z, m])
  | .bRet e y z m => some (e, [bw 0x9 4 y z, m])
  | .bIret e y z => some (e, [bw 0x9 5 y z])
  | .bLdL e d b m => some (e, [bw 0xA 0 d b, m])
  | .bStL e d b m => some (e, [bw 0xA 1 d b, m])
  | .bLdd e d b m => some (e, [bw 0xA 2 d b, m])
  | .bStd e d b m => some (e, [bw 0xA 3 d b, m])
  | .bInL e d b m => some (e, [bw 0xA 4 d b, m])
  | .bOutL e d b m => some (e, [bw 0xA 5 d b, m])
  | .bInd e d b m => some (e, [bw 0xA 6 d b, m])
  | .bOutd e d b m => some (e, [bw 0xA 7 d b, m])
  | .bLdp e d b m => some (e, [bw 0xA 8 d b, m])
  | .bStp e d b m => some (e, [bw 0xA 9 d b, m])
  | .bLdi16 e d b m => some (e, [bw 0xA 10 d b, m])
  | .bAddi16 e d b m => some (e, [bw 0xA 11 d b, m])
  | .bCmpi16 e d b m => some (e, [bw 0xA 12 d b, m])
  | .bCrc32c e d s => some (e, [bw 0xB 0 d s])
  | .bCrc32cb e d s => some (e, [bw 0xB 1 d s])
  | .bCrc16 e d s => some (e, [bw 0xB 2 d s])
  | .bCrc16b e d s => some (e, [bw 0xB 3 d s])
  | .bParx e d s => some (e, [bw 0xB 4 d s])
  | .bMul e d s => some (e, [bw 0xC 0 d s])
  | .bMuls e d s => some (e, [bw 0xC 1 d s])
  | .bMull e d s => some (e, [bw 0xC 2 d s])
  | .bDiv e d s => some (e, [bw 0xC 3 d s])
  | .bDivs e d s => some (e, [bw 0xC 4 d s])
  | .bSetf e y z => some (e, [bw 0xD 0 y z])
  | .bClrf e y z => some (e, [bw 0xD 1 y z])
  | .bEi e y z => some (e, [bw 0xD 2 y z])
  | .bDi e y z => some (e, [bw 0xD 3 y z])
  | .bWait e y z => some (e, [bw 0xD 4 y z])
  | .bMvbk e y z => some (e, [bw 0xD 5 y z])
  | .bMvkb e y z => some (e, [bw 0xD 6 y z])
  | .bTrap e y z => some (e, [bw 0xD 7 y z])
  | .bHalt e y z => some (e, [bw 0xD 8 y z])
  | .bNop e y z => some (e, [bw 0xD 9 y z])
  | .bRdf e y z => some (e, [bw 0xD 10 y z])
  | .bWrf e y z => some (e, [bw 0xD 11 y z])
  | .bSync e y z => some (e, [bw 0xD 12 y z])
  | .cpw e p n w => some (e, [bwc p 0 n w])
  | .cpr e p n w => some (e, [bwc p 1 n w])
  | .shaInit e w => some (e, [bwc 0 2 0 w])
  | .shaUpdate e w => some (e, [bwc 0 2 1 w])
  | .shaFinal e w => some (e, [bwc 0 2 2 w])
  | .aesEncrypt e w => some (e, [bwc 1 2 0 w])
  | .aesDecrypt e w => some (e, [bwc 1 2 1 w])
  | .aesTag e w => some (e, [bwc 1 2 2 w])
  | .modmul e w => some (e, [bwc 2 2 0 w])
  | .modexp e w => some (e, [bwc 2 2 1 w])
  | .modinv e w => some (e, [bwc 2 2 2 w])
  | .p384Mul e w => some (e, [bwc 2 2 3 w])
  | .ntt e w => some (e, [bwc 2 2 4 w])
  | .intt e w => some (e, [bwc 2 2 5 w])
  | .polymul e w => some (e, [bwc 2 2 6 w])
  | .crcRun e w => some (e, [bwc 0 2 0 w])
  | .descriptorParse e w => some (e, [bwc 1 2 0 w])
  | _ => none

/-- Field `k` of a word: 0 the lowest four bits. -/
def nib (w : W16) (k : Nat) : Fin 16 := ⟨w.toNat / 16 ^ k % 16, Nat.mod_lt _ (by decide)⟩

/-- The low byte of a word. -/
def lowByte (w : W16) : BitVec 8 := BitVec.ofNat 8 w.toNat

/-- Group 0x0, by its op code. -/
def decG0 (e op : Nat) (d s : Fin 16) : Option Instr :=
  match op with
  | 0 => some (.bMov e d s)
  | 1 => some (.bAdd e d s)
  | 2 => some (.bAdc e d s)
  | 3 => some (.bSub e d s)
  | 4 => some (.bSbc e d s)
  | 5 => some (.bAnd e d s)
  | 6 => some (.bOr e d s)
  | 7 => some (.bXor e d s)
  | 8 => some (.bCmp e d s)
  | 9 => some (.bTst e d s)
  | _ => none

/-- Group 0x1. -/
def decG1 (e op : Nat) (d m : Fin 16) : Option Instr :=
  match op with
  | 0 => some (.bMovi e d m)
  | 1 => some (.bAddi e d m)
  | 2 => some (.bAdci e d m)
  | 3 => some (.bSubi e d m)
  | 4 => some (.bSbci e d m)
  | 5 => some (.bAndi e d m)
  | 6 => some (.bOri e d m)
  | 7 => some (.bXori e d m)
  | 8 => some (.bCmpi e d m)
  | 9 => some (.bTsti e d m)
  | 10 => some (.bBset e d m)
  | 11 => some (.bBclr e d m)
  | 12 => some (.bBtgl e d m)
  | 13 => some (.bBtst e d m)
  | _ => none

/-- Group 0x2. -/
def decG2 (e op : Nat) (d m : Fin 16) : Option Instr :=
  match op with
  | 0 => some (.bNot e d m)
  | 1 => some (.bNeg e d m)
  | 2 => some (.bShl e d m)
  | 3 => some (.bShr e d m)
  | 4 => some (.bSar e d m)
  | 5 => some (.bRol e d m)
  | 6 => some (.bRor e d m)
  | 7 => some (.bBrev e d m)
  | 8 => some (.bPar e d m)
  | 9 => some (.bClz e d m)
  | 10 => some (.bSwapb e d m)
  | _ => none

/-- Group 0x9, with the words that follow. -/
def decG9 (e op : Nat) (y z : Fin 16) (ext : List W16) : Option Instr :=
  match op, ext with
  | 0, [t] => some (.bJmp e y z t)
  | 1, [] => some (.bJmpr e y z)
  | 2, [t, m] => some (.bCall e y z t m)
  | 3, [m] => some (.bCallr e y z m)
  | 4, [m] => some (.bRet e y z m)
  | 5, [] => some (.bIret e y z)
  | _, _ => none

/-- Group 0xA. -/
def decGA (e op : Nat) (d b : Fin 16) (m : W16) : Option Instr :=
  match op with
  | 0 => some (.bLdL e d b m)
  | 1 => some (.bStL e d b m)
  | 2 => some (.bLdd e d b m)
  | 3 => some (.bStd e d b m)
  | 4 => some (.bInL e d b m)
  | 5 => some (.bOutL e d b m)
  | 6 => some (.bInd e d b m)
  | 7 => some (.bOutd e d b m)
  | 8 => some (.bLdp e d b m)
  | 9 => some (.bStp e d b m)
  | 10 => some (.bLdi16 e d b m)
  | 11 => some (.bAddi16 e d b m)
  | 12 => some (.bCmpi16 e d b m)
  | _ => none

/-- Group 0xB. -/
def decGB (e op : Nat) (d s : Fin 16) : Option Instr :=
  match op with
  | 0 => some (.bCrc32c e d s)
  | 1 => some (.bCrc32cb e d s)
  | 2 => some (.bCrc16 e d s)
  | 3 => some (.bCrc16b e d s)
  | 4 => some (.bParx e d s)
  | _ => none

/-- Group 0xC. -/
def decGC (e op : Nat) (d s : Fin 16) : Option Instr :=
  match op with
  | 0 => some (.bMul e d s)
  | 1 => some (.bMuls e d s)
  | 2 => some (.bMull e d s)
  | 3 => some (.bDiv e d s)
  | 4 => some (.bDivs e d s)
  | _ => none

/-- Group 0xD. -/
def decGD (e op : Nat) (y z : Fin 16) : Option Instr :=
  match op with
  | 0 => some (.bSetf e y z)
  | 1 => some (.bClrf e y z)
  | 2 => some (.bEi e y z)
  | 3 => some (.bDi e y z)
  | 4 => some (.bWait e y z)
  | 5 => some (.bMvbk e y z)
  | 6 => some (.bMvkb e y z)
  | 7 => some (.bTrap e y z)
  | 8 => some (.bHalt e y z)
  | 9 => some (.bNop e y z)
  | 10 => some (.bRdf e y z)
  | 11 => some (.bWrf e y z)
  | 12 => some (.bSync e y z)
  | _ => none

/-- The commands of cp0: the SHA unit of a Thimble engine, the CRC block of another. -/
def decCp0 (e n : Nat) (w : Fin 16) : Option Instr :=
  if e % 8 = 6 then
    match n with
    | 0 => some (.shaInit e w)
    | 1 => some (.shaUpdate e w)
    | 2 => some (.shaFinal e w)
    | _ => none
  else if n = 0 then some (.crcRun e w)
  else none

/-- The commands of cp1: the AES unit of a Thimble engine, the descriptor parser of another. -/
def decCp1 (e n : Nat) (w : Fin 16) : Option Instr :=
  if e % 8 = 6 then
    match n with
    | 0 => some (.aesEncrypt e w)
    | 1 => some (.aesDecrypt e w)
    | 2 => some (.aesTag e w)
    | _ => none
  else if n = 0 then some (.descriptorParse e w)
  else none

/-- The commands of cp2. -/
def decCp2 (e n : Nat) (w : Fin 16) : Option Instr :=
  match n with
  | 0 => some (.modmul e w)
  | 1 => some (.modexp e w)
  | 2 => some (.modinv e w)
  | 3 => some (.p384Mul e w)
  | 4 => some (.ntt e w)
  | 5 => some (.intt e w)
  | 6 => some (.polymul e w)
  | _ => none

/-- Group 0xE: CPW, CPR and CPC. -/
def decGE (e pf : Nat) (n w : Fin 16) : Option Instr :=
  let port := pf / 4
  match pf % 4 with
  | 0 => some (.cpw e port n w)
  | 1 => some (.cpr e port n w)
  | 2 => if port = 0 then decCp0 e n.val w else if port = 1 then decCp1 e n.val w else if port = 2 then decCp2 e n.val w else none
  | _ => none

/-- The instruction that words spell on an engine; none where they are not one listed instruction. -/
def bobDecode (e : Nat) : List W16 → Option Instr
  | [] => none
  | w :: ext =>
    let a := nib w 2
    let b := nib w 1
    let c := nib w 0
    match (nib w 3).val, ext with
    | 0x0, [] => decG0 e a.val b c
    | 0x1, [] => decG1 e a.val b c
    | 0x2, [] => decG2 e a.val b c
    | 0x3, [] => some (.bLdi e a (lowByte w))
    | 0x4, [] => some (.bLd e a b c)
    | 0x5, [] => some (.bSt e a b c)
    | 0x6, [] => some (.bIn e a b c)
    | 0x7, [] => some (.bOut e a b c)
    | 0x8, [] => some (.bBcc e a (lowByte w))
    | 0x9, x => decG9 e a.val b c x
    | 0xA, [m] => decGA e a.val b c m
    | 0xB, [] => decGB e a.val b c
    | 0xC, [] => decGC e a.val b c
    | 0xD, [] => decGD e a.val b c
    | 0xE, [] => decGE e a.val b c
    | _, _ => none

end Sys2Proof.Machine
end

