-- ==== Sys2Proof/Machine/Flags.lean ====
section
/-!
DEFINITION. Flags.lean: the results and flags of a Bobbin engine's arithmetic (R352, R353, R358): carry is the inverse of borrow.
-/

namespace Sys2Proof.Machine

/-- A 16-bit result with its four flags. -/
structure AluRes where
  val : W16
  c : Bool
  z : Bool
  n : Bool
  v : Bool
  deriving DecidableEq, Repr

/-- The sum of two words and a carry: C is the carry out, V the signed overflow. -/
def addFlags (a b : W16) (cin : Bool) : AluRes :=
  let t := a.toNat + b.toNat + b2n cin
  let r := BitVec.ofNat 16 t
  { val := r, c := decide (65536 ≤ t), z := r == 0, n := r.msb, v := a.msb == b.msb && r.msb != a.msb }

/-- The difference `a - b - (1 - cin)`: C is 1 when nothing is borrowed. -/
def subFlags (a b : W16) (cin : Bool) : AluRes := addFlags a (~~~b) cin

/-- A word with the flags Z and N of its value; C and V as given. -/
def logicFlags (r : W16) (c v : Bool) : AluRes := { val := r, c := c, z := r == 0, n := r.msb, v := v }

/-- Shifts and rotates by 1 to 16 places; C is the last bit out, or the last bit moved. -/
def shlFlags (a : W16) (k : Nat) (v : Bool) : AluRes := logicFlags (a <<< k) (a.getLsbD (16 - k)) v
def shrFlags (a : W16) (k : Nat) (v : Bool) : AluRes := logicFlags (a >>> k) (a.getLsbD (k - 1)) v
def sarFlags (a : W16) (k : Nat) (v : Bool) : AluRes := logicFlags (a.sshiftRight k) (a.getLsbD (k - 1)) v
def rolFlags (a : W16) (k : Nat) (v : Bool) : AluRes := logicFlags (a.rotateLeft k) ((a.rotateLeft k).getLsbD 0) v
def rorFlags (a : W16) (k : Nat) (v : Bool) : AluRes := logicFlags (a.rotateRight k) ((a.rotateRight k).getLsbD 15) v

/-- Bit i and bit 15 - i exchanged. -/
def brev16 (a : W16) : W16 := BitVec.ofNat 16 (((List.range 16).map fun i => if a.getLsbD i then 2 ^ (15 - i) else 0).sum)

/-- 1 for an odd number of 1 bits. -/
def par16 (a : W16) : Nat := popCount 16 a.toNat % 2

/-- Leading zeros of the low `n` bits. -/
def clzFrom (a : W16) : Nat → Nat
  | 0 => 0
  | n + 1 => if a.getLsbD n then 0 else 1 + clzFrom a n

/-- Leading zeros, 0 to 16. -/
def clz16 (a : W16) : Nat := clzFrom a 16

/-- Bytes exchanged. -/
def swapb16 (a : W16) : W16 := a.rotateLeft 8

/-- A product's low and high words. -/
def mulWords (p : Nat) : W16 × W16 := (BitVec.ofNat 16 p, BitVec.ofNat 16 (p / 65536))

/-- MUL: unsigned; MULS: signed. -/
def mulU (a b : W16) : W16 × W16 := mulWords (a.toNat * b.toNat)
def mulS (a b : W16) : W16 × W16 := mulWords ((a.toInt * b.toInt) % 4294967296).toNat

/-- DIV: a 32-bit dividend by a word. A zero divisor, or a quotient above 0xFFFF, gives 0xFFFF in both. -/
def divU (n : Nat) (d : W16) : W16 × W16 :=
  if d.toNat = 0 ∨ 65535 < n / d.toNat then (0xFFFF, 0xFFFF) else (BitVec.ofNat 16 (n / d.toNat), BitVec.ofNat 16 (n % d.toNat))

/-- DIVS: rounded toward 0, the remainder with the dividend's sign. A zero divisor, or a quotient outside -32,768 to 32,767, gives 0x7FFF and 0. -/
def divS (n : Nat) (d : W16) : W16 × W16 :=
  let a := toSigned 32 n
  let q := a.tdiv d.toInt
  if d.toNat = 0 ∨ q < -32768 ∨ 32767 < q then (0x7FFF, 0) else (BitVec.ofInt 16 q, BitVec.ofInt 16 (a.tmod d.toInt))

/-- Whether a condition holds (Table 12-9); 0xF names none. -/
def condHolds (cond : Nat) (c z n v : Bool) : Bool :=
  match cond with
  | 0x0 => z
  | 0x1 => !z
  | 0x2 => c
  | 0x3 => !c
  | 0x4 => n
  | 0x5 => !n
  | 0x6 => v
  | 0x7 => !v
  | 0x8 => c && !z
  | 0x9 => !c || z
  | 0xA => n == v
  | 0xB => n != v
  | 0xC => !z && n == v
  | 0xD => z || n != v
  | 0xE => true
  | _ => false

end Sys2Proof.Machine
end

