-- ==== Sys2Proof/Machine/Bob.lean ====
section
/-!
DEFINITION. Bob.lean: the named operations of a Bobbin engine (12_bobbin_isa.md): registers and flags, fetch, faults and vectors, the stack, D-space, I/O space.
-/

namespace Sys2Proof.Machine

/-! ### Registers and flags (R350) -/

/-- A W register. -/
def Engine.getW (x : Engine) (i : Nat) : W16 := smGet 0 x.w i

/-- A W register takes a value. -/
def Engine.setW (x : Engine) (i : Nat) (v : W16) : Engine := { x with w := smPut 0 x.w i v }

/-- A pair takes two words, the low one first. -/
def Engine.setPair (x : Engine) (i : Nat) (v : W16 × W16) : Engine := (x.setW i v.1).setW (i + 1) v.2

/-- FLAGS. -/
def Engine.flags (x : Engine) (e : Nat) : W16 :=
  BitVec.ofNat 16 (b2n x.c + 2 * b2n x.z + 4 * b2n x.n + 8 * b2n x.v + 16 * b2n x.ie + 32 * b2n (engPriv e))

/-- FLAGS takes a word; PRIV is unchanged. -/
def Engine.setFlags (x : Engine) (f : W16) : Engine :=
  { x with c := f.getLsbD 0, z := f.getLsbD 1, n := f.getLsbD 2, v := f.getLsbD 3, ie := f.getLsbD 4 }

/-- All four flags of a result. -/
def Engine.setCznv (x : Engine) (r : AluRes) : Engine := { x with c := r.c, z := r.z, n := r.n, v := r.v }

/-- The PC moves on by `n` words. -/
def Engine.step (x : Engine) (n : Nat) : Engine := { x with pc := (x.pc + n) % 65536, eiHold := false }

/-- Results of the multiply and divide unit land (R358). -/
def Engine.land (x : Engine) : Engine := { x.muldiv.foldl (fun (x : Engine) e => x.setW e.1 e.2) x with muldiv := [] }

/-- A bank register. -/
def Engine.bank (x : Engine) (b : Nat) : W16 :=
  BitVec.ofNat 16 (if b = 0 then x.bank0 else if b = 1 then x.bank1 else if b = 2 then x.bank2 else x.bank3)

/-- A bank register takes a value, in its width. -/
def Engine.setBank (x : Engine) (b : Nat) (v : W16) : Engine :=
  if b = 0 then { x with bank0 := v.toNat }
  else if b = 1 then { x with bank1 := v.toNat }
  else if b = 2 then { x with bank2 := v.toNat % 4096 }
  else { x with bank3 := v.toNat % 128 }

/-! ### Stores (R364) -/

/-- A store enters the buffer of four entries; a full buffer lets its oldest drain first. -/
def State.bufPut (s : State) (e : Nat) (t : StoreEnt) : State :=
  let s1 := if 4 ≤ (s.eng e).sbuf.length then s.drainOne e else s
  s1.setEng e { s1.eng e with sbuf := (s1.eng e).sbuf ++ [t] }

/-- A word goes to local D SRAM through the buffer. -/
def State.putLocal (s : State) (e a : Nat) (v : W16) : State := s.bufPut e { window := false, loc := a, words := [v] }

/-- An entry overlaps `n` words from a place; it covers them all. -/
def StoreEnt.overlaps (t : StoreEnt) (loc n : Nat) : Bool := decide (t.loc < loc + n) && decide (loc < t.loc + t.words.length)
def StoreEnt.covers (t : StoreEnt) (loc n : Nat) : Bool := decide (t.loc ≤ loc) && decide (loc + n ≤ t.loc + t.words.length)

/-- How many entries, from the oldest, reach up to the youngest of a kind. -/
def upTo (p : StoreEnt → Bool) (l : List StoreEnt) : Nat := ((List.range l.length).map fun i => if (l[i]?.map p).getD false then i + 1 else 0).foldl max 0

/-- What a load of `n` words meets in the buffer: the words that one entry covers, it being the youngest that overlaps them; else the state after every
overlapping entry has drained, and for a load through the window every window store. -/
def State.bufMeet (s : State) (e : Nat) (window : Bool) (loc n : Nat) : State × Option (List W16) :=
  let l := (s.eng e).sbuf
  let k := upTo (fun t => t.overlaps loc n) l
  match l[k - 1]? with
  | some t =>
    if 0 < k ∧ t.covers loc n then (s, some ((t.words.drop (loc - t.loc)).take n))
    else (s.drainN e (max k (if window then upTo (·.window) l else 0)), none)
  | none => (s.drainN e (if window then upTo (·.window) l else 0), none)

/-! ### Faults and vectors (R365) -/

/-- The two words of an entry have their places in local D SRAM. -/
def Engine.stackOk (x : Engine) (n : Nat) : Bool :=
  let sp := (x.getW 15).toNat
  decide (n ≤ sp) && decide (sp ≤ 0x6000)

/-- The word address of the first push of several that does not lie in local D SRAM. -/
def Engine.pushFault (x : Engine) : Nat := if 0x6000 < (x.getW 15).toNat then (x.getW 15).toNat - 1 else 0xFFFF

/-- A word is pushed. -/
def State.push (s : State) (e : Nat) (v : W16) : State :=
  let sp := (s.eng e).getW 15 - 1
  let s1 := s.putLocal e sp.toNat v
  s1.setEng e ((s1.eng e).setW 15 sp)

/-- What a fault leaves in FAULT_CAUSE, FAULT_ADDR and BOB_STAT. -/
def Engine.note (x : Engine) (v cause addr : Nat) : Engine :=
  { x with cause := cause, vector := v, faultAddr := addr % 2 ^ 48, faults := min (x.faults + 1) 0xFFFFFFFF }

/-- Entry to a vector: the PC and FLAGS are pushed, IE falls. A fault during entry halts the engine (double fault). -/
def State.enter (s : State) (e v ret : Nat) : State :=
  let x := s.eng e
  if x.stackOk 2 then
    let s1 := (s.push e (BitVec.ofNat 16 ret)).push e (x.flags e)
    s1.setEng e { s1.eng e with ie := false, eiHold := false, pc := 2 * v, st := .running, waitOn := none }
  else (s.setEng e (x.note 3 7 x.pushFault)).engHalt e true

/-- A fault of the instruction at the PC: a vector, a cause, a faulting address. -/
def State.bobFault (s : State) (e v cause addr : Nat) : State := (s.setEng e ((s.eng e).note v cause addr)).enter e v (s.eng e).pc

/-- An illegal instruction (vector 1) and a privilege trap (vector 2): the spec gives them no cause code. -/
def State.bobIllegal (s : State) (e : Nat) : State := (s.drawn).bobFault e 1 (s.free % 16) (s.eng e).pc
def State.bobPriv (s : State) (e : Nat) : State := (s.drawn).bobFault e 2 (s.free % 16) (s.eng e).pc

/-! ### I-space (R345) -/

/-- A word of the I-cache. -/
def Engine.icGet (x : Engine) (line : Nat) : Option (List W16) := (x.icache.find? fun l => l.line == line).map (·.words)

/-- A line enters its set of two, in front. -/
def Engine.icPut (x : Engine) (line : Nat) (w : List W16) : Engine :=
  let rest := x.icache.filter fun l => l.line != line
  let mates := (rest.filter fun l => l.line % 128 == line % 128).take 1
  { x with icache := { line := line, words := w } :: rest.filter fun l => l.line % 128 != line % 128 || mates.contains l }

/-- A word of I-space: the state after a line fill, and the word, or a fault's cause. -/
def State.iSpace (s : State) (e a : Nat) : State × Except Nat W16 :=
  let x := s.eng e
  if a < 0x1000 then (s, .ok (x.iRead a))
  else
    let line := a / 16
    match x.icGet line with
    | some w => (s.setEng e (x.icPut line w), .ok (w.getD (a % 16) 0))
    | none =>
      let p := s.fld (R.BOB_IMG.BASE e) * 4096 + 32 * (line - 0x100)
      match s.memCheck (.bobbin e) p 32 .fetch with
      | .ok =>
        let w := bytesWords (s.devRead p 32)
        (s.setEng e (x.icPut line w), .ok (w.getD (a % 16) 0))
      | .refused c r => (s.violation (.bobbin e) .fetch c r p, .error 3)
      | .poison => (s, .error 8)
      | .unbacked => (s, .error 2)

/-- How fetching words at the PC ends: they are the ones that the command names; they are others; or a word faults. -/
inductive Fetched where
  | same | other
  | fault (cause addr : Nat)
  deriving DecidableEq, Repr

/-- Fetch words from an address up. -/
def State.fetchAll (s : State) (e a : Nat) : List W16 → State × Fetched
  | [] => (s, .same)
  | w :: ws =>
    let r := s.iSpace e (a % 65536)
    match r.2 with
    | .ok v => if v = w then State.fetchAll r.1 e (a + 1) ws else (r.1, .other)
    | .error c => (r.1, .fault c (a % 65536))

/-! ### Issue -/

/-- An engine issues instructions: running, not stopping, its panel not in Hold. -/
def State.bobLive (s : State) (e : Nat) : Bool := decide (e < 32) && (s.eng e).st == .running && !(s.eng e).stopReq && !s.engHeld e

/-- An instruction that reads or writes a register which the multiply unit will write, or that uses the unit itself, waits for it. -/
def State.stall (s : State) (e : Nat) (uses : List Nat) (md : Bool) : State :=
  let x := s.eng e
  if !x.muldiv.isEmpty && (md || x.muldiv.any fun p => uses.contains p.1) then s.setEng e x.land else s

/-- An engine issues an instruction of these words: it must stand at the PC. `k` is what it does; a fault of the fetch takes vector 5. -/
def State.issue (s : State) (i : Instr) (uses : List Nat) (md : Bool) (k : Nat → State → State) : State :=
  match bobWords i with
  | none => s
  | some (e, ws) =>
    s.whenUp fun s =>
      if !s.bobLive e then s
      else
        let r := s.fetchAll e (s.eng e).pc ws
        match r.2 with
        | .same => k ws.length (r.1.stall e uses md)
        | .other => s
        | .fault c a => r.1.bobFault e 5 c a

/-- An instruction that changes only the engine's registers and flags. -/
def State.issueReg (s : State) (e : Nat) (i : Instr) (uses : List Nat) (f : Engine → Engine) : State :=
  s.issue i uses false fun n s => s.setEng e ((f (s.eng e)).step n)

/-- The same, illegal unless its fields are as the tables require. -/
def State.issueIf (s : State) (e : Nat) (i : Instr) (ok : Bool) (uses : List Nat) (f : Engine → Engine) : State :=
  s.issue i uses false fun n s => if ok then s.setEng e ((f (s.eng e)).step n) else s.bobIllegal e

/-! ### D-space (R346, R347, R362, R363) -/

/-- Where a D-space word lies, or the cause of a fault that is decided before any access. -/
inductive DLoc where
  | loc (a : Nat)
  | mem (window : Bool) (phys : Nat)
  | fault (cause addr : Nat)
  deriving DecidableEq, Repr

/-- Map a D-space word address. -/
def State.dLoc (s : State) (e a : Nat) : DLoc :=
  let x := s.eng e
  if a < 0x6000 then .loc a
  else if a < 0x8000 then .mem false (0x20010000000 + x.bank3 * 0x4000 + 2 * (a - 0x6000))
  else if !engPriv e then .fault 1 a
  else
    let p := (x.bank0 + 65536 * x.bank1) * 65536 + 2 * (a - 0x8000)
    match (s.physKind p).table with
    | some _ => .mem true p
    | none => .fault 2 p

/-- The place of a word in the store buffer's numbering. -/
def memLoc (phys : Nat) : Nat := 65536 + phys / 2

/-- Load `n` words that lie together. -/
def State.dLoadAt (s : State) (e n : Nat) : DLoc → State × Except (Nat × Nat) (List W16)
  | .fault c a => (s, .error (c, a))
  | .loc a =>
    match s.bufMeet e false a n with
    | (s1, some w) => (s1, .ok w)
    | (s1, none) => (s1, .ok ((List.range n).map fun i => (s1.eng e).dRead (a + i)))
  | .mem win p =>
    match s.bufMeet e win (memLoc p) n with
    | (s1, some w) => (s1, .ok w)
    | (s1, none) =>
      match s1.memCheck (.bobbin e) p (2 * n) .read with
      | .ok => (s1, .ok (bytesWords (s1.devRead p (2 * n))))
      | .refused c r => (s1.violation (.bobbin e) .read c r p, .error (3, p))
      | .poison => (s1, .error (8, p))
      | .unbacked => (s1, .error (2, p))

/-- Store words that lie together: judged at issue, then buffered. -/
def State.dStoreAt (s : State) (e : Nat) (w : List W16) : DLoc → State × Option (Nat × Nat)
  | .fault c a => (s, some (c, a))
  | .loc a => (s.bufPut e { window := false, loc := a, words := w }, none)
  | .mem win p =>
    match s.memCheck (.bobbin e) p (2 * w.length) .write with
    | .refused c r => (s.violation (.bobbin e) .write c r p, some (3, p))
    | .unbacked => (s, some (2, p))
    | _ => (s.bufPut e { window := win, loc := memLoc p, words := w }, none)

/-- The fault of a pair that is decided before either half is accessed. -/
def State.dPairFault (s : State) (e a : Nat) : Option (Nat × Nat) :=
  if a = 0xFFFF then some (6, a)
  else match s.dLoc e a, s.dLoc e (a + 1) with
    | .fault c b, _ => some (c, b)
    | _, .fault c b => some (c, b)
    | _, _ => none

/-- Load a pair: split at an odd address. -/
def State.dLoadPair (s : State) (e a : Nat) : State × Except (Nat × Nat) (List W16) :=
  match s.dPairFault e a with
  | some f => (s, .error f)
  | none =>
    if a % 2 = 0 then s.dLoadAt e 2 (s.dLoc e a)
    else
      let r := s.dLoadAt e 1 (s.dLoc e a)
      match r.2 with
      | .error f => (r.1, .error f)
      | .ok lo =>
        let t := r.1.dLoadAt e 1 (r.1.dLoc e (a + 1))
        match t.2 with
        | .error f => (t.1, .error f)
        | .ok hi => (t.1, .ok (lo ++ hi))

/-- Store a pair: split at an odd address, where the first half can have been written when the second faults. -/
def State.dStorePair (s : State) (e a : Nat) (lo hi : W16) : State × Option (Nat × Nat) :=
  match s.dPairFault e a with
  | some f => (s, some f)
  | none =>
    if a % 2 = 0 then s.dStoreAt e [lo, hi] (s.dLoc e a)
    else
      let r := s.dStoreAt e [lo] (s.dLoc e a)
      match r.2 with
      | some f => (r.1, some f)
      | none => r.1.dStoreAt e [hi] (r.1.dLoc e (a + 1))

/-- An address of a register and a displacement wraps. -/
def Engine.addr (x : Engine) (b disp : Nat) : Nat := ((x.getW b).toNat + disp) % 65536

/-! ### Local I/O (Table 12-4, R349) -/

/-- Word `k` of a 64-bit number. -/
def wordOf (v k : Nat) : W16 := BitVec.ofNat 16 (v / 65536 ^ k)

/-- A 64-bit number with word `k` replaced. -/
def putWord (v k : Nat) (w : W16) : Nat := v / 65536 ^ (k + 1) * 65536 ^ (k + 1) + w.toNat * 65536 ^ k + v % 65536 ^ k

/-- A read of local I/O; none where the table lists nothing. -/
def State.ioGet (s : State) (e a : Nat) : Option (State × W16) :=
  let x := s.eng e
  if a = 0x0 then some (s, BitVec.ofNat 16 (e + 32 * b2n (engPriv e)))
  else if a = 0x1 then some (s, BitVec.ofNat 16 x.cause)
  else if 0x2 ≤ a ∧ a ≤ 0x4 then some (s, wordOf x.faultAddr (a - 2))
  else if a = 0x8 then
    let v := s.free % 2 ^ 64
    some (s.drawn.setEng e { x with cycle := v }, wordOf v 0)
  else if 0x9 ≤ a ∧ a ≤ 0xB then some (s, wordOf x.cycle (a - 8))
  else if a = 0x10 then some (s, BitVec.ofNat 16 (s.irqPend e))
  else if a = 0x11 then some (s, BitVec.ofNat 16 x.irqEn)
  else if a = 0x12 ∨ a = 0x13 then some (s, 0)
  else if a = 0x18 then some (s, BitVec.ofNat 16 x.waitEn)
  else if 0x20 ≤ a ∧ a ≤ 0x23 then some (s, wordOf x.ltCmp (a - 0x20))
  else if a = 0x40 ∨ a = 0x41 then some (s, wordOf x.rpOff (a - 0x40))
  else if 0x44 ≤ a ∧ a ≤ 0x47 then some (s, wordOf x.rpData (a - 0x44))
  else if a = 0x49 then some (s, BitVec.ofNat 16 (b2n (x.rpCmd != 0) + 2 * b2n x.rpRefused))
  else if 0x40 ≤ a ∧ a ≤ 0x4A then some (s, 0)
  else if 0x100 ≤ a ∧ a ≤ 0x107 then some (s, 0)
  else if a = 0x108 then
    match x.mbx with
    | v :: r => some (s.setEng e { x with mbx := r }, v)
    | [] => some (s, 0)
  else if a = 0x109 then some (s, BitVec.ofNat 16 (x.mbx.length ||| b2n x.mbxDrop))
  else none

/-- Bits of the edge lines of an engine. -/
def edgeMask (e : Nat) : Nat := ((List.range 16).map fun n => if lineEdge e n then 2 ^ n else 0).sum

/-- A write of local I/O; none where the table lists nothing. -/
def State.ioPut (s : State) (e a : Nat) (v : W16) : Option State :=
  let x := s.eng e
  let idle := x.rpCmd == 0
  if a ≤ 0x4 ∨ (0x8 ≤ a ∧ a ≤ 0xB) ∨ a = 0x10 then some s
  else if a = 0x11 then some (s.setEng e { x with irqEn := v.toNat })
  else if a = 0x12 then some (s.setEng e { x with pend := x.pend ||| (v.toNat &&& edgeMask e) })
  else if a = 0x13 then some (s.setEng e { x with pend := x.pend &&& (0xFFFF ^^^ v.toNat) })
  else if a = 0x18 then some (s.setEng e { x with waitEn := v.toNat })
  else if 0x20 ≤ a ∧ a ≤ 0x22 then some (s.setEng e { x with ltHold := putWord x.ltHold (a - 0x20) v })
  else if a = 0x23 then
    some (s.setEng e { x with ltHold := putWord x.ltHold 3 v, ltCmp := putWord x.ltHold 3 v })
  else if a = 0x40 ∨ a = 0x41 then
    some (if idle then s.setEng e { x with rpOff := putWord x.rpOff (a - 0x40) v % 2 ^ 28 } else s)
  else if 0x44 ≤ a ∧ a ≤ 0x47 then some (if idle then s.setEng e { x with rpData := putWord x.rpData (a - 0x44) v } else s)
  else if a = 0x48 then some (if idle && (v == 1 || v == 2) then s.setEng e { x with rpCmd := v.toNat } else s)
  else if 0x40 ≤ a ∧ a ≤ 0x4A then some s
  else if 0x100 ≤ a ∧ a ≤ 0x107 then some (s.mboxPush e (e / 8 * 8 + (a - 0x100)) v)
  else if a = 0x108 then some s
  else if a = 0x109 then some (s.setEng e { x with mbxDrop := x.mbxDrop && !v.getLsbD 0 })
  else none

/-! ### The control-space window (R32, R348) -/

/-- A word of a control register read: word 0 latches the register, words 1 to 3 come from that copy. -/
def State.ctlIn (s : State) (e off : Nat) : State × W16 :=
  let o := off / 8 * 8
  let k := off / 2 % 4
  if k = 0 then
    let r := s.ctlRead (.bobbin e) o 8
    (r.1.setEng e { r.1.eng e with rd := some (o, r.2.1, true) }, wordOf r.2.1 0)
  else
    let x := s.eng e
    match x.rd with
    | some (h, v, op) => (s.setEng e { x with rd := some (h, v, op && !(k == 3 && h == o)) }, wordOf v k)
    | none => (s.drawn, BitVec.ofNat 16 s.free)

/-- A word of a control register written: word 0 opens the holding register, word 3 commits; none where the sequence breaks (cause SEQ). -/
def State.ctlOut (s : State) (e off : Nat) (v : W16) : State × Bool :=
  let o := off / 8 * 8
  let k := off / 2 % 4
  let x := s.eng e
  let broken := s.setEng e { x with wr := none }
  match x.wr with
  | some (h, d) =>
    if k = 0 then (if h = o then (s.setEng e { x with wr := some (o, v.toNat) }, true) else (broken, false))
    else if k = 3 then (if h = o then (broken.ctlStore (.bobbin e) o 8 (BitVec.ofNat 64 (putWord d 3 v)), true) else (broken, false))
    else if h = o then (s.setEng e { x with wr := some (o, putWord d k v) }, true)
    else (s, true)
  | none =>
    if k = 0 then (s.setEng e { x with wr := some (o, v.toNat) }, true)
    else if k = 3 then (s, false)
    else (s, true)

/-- An I/O-space address of the window, or the cause of a fault. -/
def State.ioWin (s : State) (e a : Nat) : Except Nat Nat :=
  if !engPriv e then .error 1
  else
    let off := (s.eng e).bank2 * 65536 + 2 * (a - 0x4000)
    if 0xFFFFFFF < off then .error 2 else .ok off

/-- IN of one word: the state and the word, or a fault's cause. Control space waits for an empty store buffer. -/
def State.ioIn (s : State) (e a : Nat) : State × Except Nat W16 :=
  if a < 0x4000 then
    match s.ioGet e a with
    | some r => (r.1, .ok r.2)
    | none => (s, .error 2)
  else match s.ioWin e a with
    | .error c => (s, .error c)
    | .ok off => let r := (s.drainAll e).ctlIn e off; (r.1, .ok r.2)

/-- OUT of one word, or a fault's cause. -/
def State.ioOut (s : State) (e a : Nat) (v : W16) : State × Option Nat :=
  if a < 0x4000 then
    match s.ioPut e a v with
    | some t => (t, none)
    | none => (s, some 2)
  else match s.ioWin e a with
    | .error c => (s, some c)
    | .ok off => let r := (s.drainAll e).ctlOut e off v; (r.1, if r.2 then none else some 5)

end Sys2Proof.Machine
end

