-- ==== Sys2Proof/Machine/BobIsa.lean ====
section
/-!
DEFINITION. BobIsa.lean: the Bobbin instructions (R351–R359) and the events of an engine (R348, R349, R358, R359, R366). An instruction is issued by a running engine at
whose PC its words stand; a command that names another is without effect.
-/

namespace Sys2Proof.Machine

/-! ### Register ALU (Table 12-7) -/

/-- Wd takes a result with all four flags, or with Z and N; or the flags alone change. -/
def Engine.aluCznv (x : Engine) (d : Nat) (r : AluRes) : Engine := (x.setW d r.val).setCznv r
def Engine.aluZn (x : Engine) (d : Nat) (v : W16) : Engine := (x.setW d v).setCznv (logicFlags v x.c x.v)
def Engine.tstZn (x : Engine) (v : W16) : Engine := x.setCznv (logicFlags v x.c x.v)

/-- MOV. -/
def execBMov (e : Nat) (d src : Fin 16) (s : State) : Res :=
  .next (s.issueReg e (.bMov e d src) [d.val, src.val] fun x => x.setW d.val (x.getW src.val))
/-- ADD. -/
def execBAdd (e : Nat) (d src : Fin 16) (s : State) : Res :=
  .next (s.issueReg e (.bAdd e d src) [d.val, src.val] fun x => x.aluCznv d.val (addFlags (x.getW d.val) (x.getW src.val) false))
/-- ADC. -/
def execBAdc (e : Nat) (d src : Fin 16) (s : State) : Res :=
  .next (s.issueReg e (.bAdc e d src) [d.val, src.val] fun x => x.aluCznv d.val (addFlags (x.getW d.val) (x.getW src.val) x.c))
/-- SUB. -/
def execBSub (e : Nat) (d src : Fin 16) (s : State) : Res :=
  .next (s.issueReg e (.bSub e d src) [d.val, src.val] fun x => x.aluCznv d.val (subFlags (x.getW d.val) (x.getW src.val) true))
/-- SBC. -/
def execBSbc (e : Nat) (d src : Fin 16) (s : State) : Res :=
  .next (s.issueReg e (.bSbc e d src) [d.val, src.val] fun x => x.aluCznv d.val (subFlags (x.getW d.val) (x.getW src.val) x.c))
/-- AND. -/
def execBAnd (e : Nat) (d src : Fin 16) (s : State) : Res :=
  .next (s.issueReg e (.bAnd e d src) [d.val, src.val] fun x => x.aluZn d.val (x.getW d.val &&& (x.getW src.val)))
/-- OR. -/
def execBOr (e : Nat) (d src : Fin 16) (s : State) : Res :=
  .next (s.issueReg e (.bOr e d src) [d.val, src.val] fun x => x.aluZn d.val (x.getW d.val ||| (x.getW src.val)))
/-- XOR. -/
def execBXor (e : Nat) (d src : Fin 16) (s : State) : Res :=
  .next (s.issueReg e (.bXor e d src) [d.val, src.val] fun x => x.aluZn d.val (x.getW d.val ^^^ (x.getW src.val)))
/-- CMP. -/
def execBCmp (e : Nat) (d src : Fin 16) (s : State) : Res :=
  .next (s.issueReg e (.bCmp e d src) [d.val, src.val] fun x => x.setCznv (subFlags (x.getW d.val) (x.getW src.val) true))
/-- TST. -/
def execBTst (e : Nat) (d src : Fin 16) (s : State) : Res :=
  .next (s.issueReg e (.bTst e d src) [d.val, src.val] fun x => x.tstZn (x.getW d.val &&& (x.getW src.val)))

/-! ### ALU with a 4-bit immediate (Table 12-7) -/

/-- imm4, zero-extended. -/
def imm4 (m : Fin 16) : W16 := BitVec.ofNat 16 m.val

/-- MOVI. -/
def execBMovi (e : Nat) (d m : Fin 16) (s : State) : Res :=
  .next (s.issueReg e (.bMovi e d m) [d.val] fun x => x.setW d.val (imm4 m))
/-- ADDI. -/
def execBAddi (e : Nat) (d m : Fin 16) (s : State) : Res :=
  .next (s.issueReg e (.bAddi e d m) [d.val] fun x => x.aluCznv d.val (addFlags (x.getW d.val) (imm4 m) false))
/-- ADCI. -/
def execBAdci (e : Nat) (d m : Fin 16) (s : State) : Res :=
  .next (s.issueReg e (.bAdci e d m) [d.val] fun x => x.aluCznv d.val (addFlags (x.getW d.val) (imm4 m) x.c))
/-- SUBI. -/
def execBSubi (e : Nat) (d m : Fin 16) (s : State) : Res :=
  .next (s.issueReg e (.bSubi e d m) [d.val] fun x => x.aluCznv d.val (subFlags (x.getW d.val) (imm4 m) true))
/-- SBCI. -/
def execBSbci (e : Nat) (d m : Fin 16) (s : State) : Res :=
  .next (s.issueReg e (.bSbci e d m) [d.val] fun x => x.aluCznv d.val (subFlags (x.getW d.val) (imm4 m) x.c))
/-- ANDI. -/
def execBAndi (e : Nat) (d m : Fin 16) (s : State) : Res :=
  .next (s.issueReg e (.bAndi e d m) [d.val] fun x => x.aluZn d.val (x.getW d.val &&& (imm4 m)))
/-- ORI. -/
def execBOri (e : Nat) (d m : Fin 16) (s : State) : Res :=
  .next (s.issueReg e (.bOri e d m) [d.val] fun x => x.aluZn d.val (x.getW d.val ||| (imm4 m)))
/-- XORI. -/
def execBXori (e : Nat) (d m : Fin 16) (s : State) : Res :=
  .next (s.issueReg e (.bXori e d m) [d.val] fun x => x.aluZn d.val (x.getW d.val ^^^ (imm4 m)))
/-- CMPI. -/
def execBCmpi (e : Nat) (d m : Fin 16) (s : State) : Res :=
  .next (s.issueReg e (.bCmpi e d m) [d.val] fun x => x.setCznv (subFlags (x.getW d.val) (imm4 m) true))
/-- TSTI. -/
def execBTsti (e : Nat) (d m : Fin 16) (s : State) : Res :=
  .next (s.issueReg e (.bTsti e d m) [d.val] fun x => x.tstZn (x.getW d.val &&& (imm4 m)))
/-- BSET. -/
def execBBset (e : Nat) (d m : Fin 16) (s : State) : Res :=
  .next (s.issueReg e (.bBset e d m) [d.val] fun x => x.setW d.val (x.getW d.val ||| ((1 : W16) <<< m.val)))
/-- BCLR. -/
def execBBclr (e : Nat) (d m : Fin 16) (s : State) : Res :=
  .next (s.issueReg e (.bBclr e d m) [d.val] fun x => x.setW d.val (x.getW d.val &&& ~~~((1 : W16) <<< m.val)))
/-- BTGL. -/
def execBBtgl (e : Nat) (d m : Fin 16) (s : State) : Res :=
  .next (s.issueReg e (.bBtgl e d m) [d.val] fun x => x.setW d.val (x.getW d.val ^^^ ((1 : W16) <<< m.val)))
/-- BTST: Z is the inverse of the bit. -/
def execBBtst (e : Nat) (d m : Fin 16) (s : State) : Res :=
  .next (s.issueReg e (.bBtst e d m) [d.val] fun x => { x with z := !(x.getW d.val).getLsbD m.val })

/-! ### Single operand (Table 12-8); every op but a shift or rotate requires AMT 0 -/

/-- NOT. -/
def execBNot (e : Nat) (d amt : Fin 16) (s : State) : Res :=
  .next (s.issueIf e (.bNot e d amt) (amt.val == 0) [d.val] fun x => x.aluZn d.val (~~~(x.getW d.val)))
/-- NEG. -/
def execBNeg (e : Nat) (d amt : Fin 16) (s : State) : Res :=
  .next (s.issueIf e (.bNeg e d amt) (amt.val == 0) [d.val] fun x => x.aluCznv d.val (subFlags 0 (x.getW d.val) true))
/-- BREV. -/
def execBBrev (e : Nat) (d amt : Fin 16) (s : State) : Res :=
  .next (s.issueIf e (.bBrev e d amt) (amt.val == 0) [d.val] fun x => x.aluZn d.val (brev16 (x.getW d.val)))
/-- PAR. -/
def execBPar (e : Nat) (d amt : Fin 16) (s : State) : Res :=
  .next (s.issueIf e (.bPar e d amt) (amt.val == 0) [d.val] fun x => x.aluZn d.val (BitVec.ofNat 16 (par16 (x.getW d.val))))
/-- CLZ. -/
def execBClz (e : Nat) (d amt : Fin 16) (s : State) : Res :=
  .next (s.issueIf e (.bClz e d amt) (amt.val == 0) [d.val] fun x => x.aluZn d.val (BitVec.ofNat 16 (clz16 (x.getW d.val))))
/-- SWAPB. -/
def execBSwapb (e : Nat) (d amt : Fin 16) (s : State) : Res :=
  .next (s.issueIf e (.bSwapb e d amt) (amt.val == 0) [d.val] fun x => x.aluZn d.val (swapb16 (x.getW d.val)))
/-- SHL by AMT + 1; V is unchanged. -/
def execBShl (e : Nat) (d amt : Fin 16) (s : State) : Res :=
  .next (s.issueReg e (.bShl e d amt) [d.val] fun x => x.aluCznv d.val (shlFlags (x.getW d.val) (amt.val + 1) x.v))
/-- SHR by AMT + 1; V is unchanged. -/
def execBShr (e : Nat) (d amt : Fin 16) (s : State) : Res :=
  .next (s.issueReg e (.bShr e d amt) [d.val] fun x => x.aluCznv d.val (shrFlags (x.getW d.val) (amt.val + 1) x.v))
/-- SAR by AMT + 1; V is unchanged. -/
def execBSar (e : Nat) (d amt : Fin 16) (s : State) : Res :=
  .next (s.issueReg e (.bSar e d amt) [d.val] fun x => x.aluCznv d.val (sarFlags (x.getW d.val) (amt.val + 1) x.v))
/-- ROL by AMT + 1; V is unchanged. -/
def execBRol (e : Nat) (d amt : Fin 16) (s : State) : Res :=
  .next (s.issueReg e (.bRol e d amt) [d.val] fun x => x.aluCznv d.val (rolFlags (x.getW d.val) (amt.val + 1) x.v))
/-- ROR by AMT + 1; V is unchanged. -/
def execBRor (e : Nat) (d amt : Fin 16) (s : State) : Res :=
  .next (s.issueReg e (.bRor e d amt) [d.val] fun x => x.aluCznv d.val (rorFlags (x.getW d.val) (amt.val + 1) x.v))
/-- LDI: imm8, zero-extended. -/
def execBLdi (e : Nat) (d : Fin 16) (imm : BitVec 8) (s : State) : Res :=
  .next (s.issueReg e (.bLdi e d imm) [d.val] fun x => x.setW d.val (imm.setWidth 16))

/-! ### Loads and stores (R346, R356, R364) -/

/-- A load of one word into Wd. -/
def State.bobLoad (s : State) (e n d a : Nat) : State :=
  let r := s.dLoadAt e 1 (s.dLoc e a)
  match r.2 with
  | .ok w => r.1.setEng e (((r.1.eng e).setW d (w.getD 0 0)).step n)
  | .error f => r.1.bobFault e 3 f.1 f.2

/-- A store of one word. -/
def State.bobStore (s : State) (e n a : Nat) (v : W16) : State :=
  let r := s.dStoreAt e [v] (s.dLoc e a)
  match r.2 with
  | none => r.1.setEng e ((r.1.eng e).step n)
  | some f => r.1.bobFault e 3 f.1 f.2

/-- LD. -/
def execBLd (e : Nat) (d b disp : Fin 16) (s : State) : Res :=
  .next (s.issue (.bLd e d b disp) [d.val, b.val] false fun n s => s.bobLoad e n d.val ((s.eng e).addr b.val disp.val))
/-- ST. -/
def execBSt (e : Nat) (src b disp : Fin 16) (s : State) : Res :=
  .next (s.issue (.bSt e src b disp) [src.val, b.val] false fun n s => s.bobStore e n ((s.eng e).addr b.val disp.val) ((s.eng e).getW src.val))
/-- LD.L. -/
def execBLdL (e : Nat) (d b : Fin 16) (disp : BitVec 16) (s : State) : Res :=
  .next (s.issue (.bLdL e d b disp) [d.val, b.val] false fun n s => s.bobLoad e n d.val ((s.eng e).addr b.val disp.toNat))
/-- ST.L. -/
def execBStL (e : Nat) (d b : Fin 16) (disp : BitVec 16) (s : State) : Res :=
  .next (s.issue (.bStL e d b disp) [d.val, b.val] false fun n s => s.bobStore e n ((s.eng e).addr b.val disp.toNat) ((s.eng e).getW d.val))

/-- A pair starts at an even register. -/
def evenReg (d : Fin 16) : Bool := d.val % 2 == 0

/-- LDD (R362, R363): on a fault neither register is written. -/
def execBLdd (e : Nat) (d b : Fin 16) (disp : BitVec 16) (s : State) : Res :=
  .next (s.issue (.bLdd e d b disp) [d.val, d.val + 1, b.val] false fun n s =>
    if !evenReg d then s.bobIllegal e
    else
      let r := s.dLoadPair e ((s.eng e).addr b.val disp.toNat)
      match r.2 with
      | .ok w => r.1.setEng e (((r.1.eng e).setPair d.val (w.getD 0 0, w.getD 1 0)).step n)
      | .error f => r.1.bobFault e 3 f.1 f.2)
/-- STD (R362, R363). -/
def execBStd (e : Nat) (d b : Fin 16) (disp : BitVec 16) (s : State) : Res :=
  .next (s.issue (.bStd e d b disp) [d.val, d.val + 1, b.val] false fun n s =>
    if !evenReg d then s.bobIllegal e
    else
      let x := s.eng e
      let r := s.dStorePair e (x.addr b.val disp.toNat) (x.getW d.val) (x.getW (d.val + 1))
      match r.2 with
      | none => r.1.setEng e ((r.1.eng e).step n)
      | some f => r.1.bobFault e 3 f.1 f.2)

/-! ### IN and OUT (R348, R356) -/

/-- IN of one word into Wd. -/
def State.bobIn (s : State) (e n d a : Nat) : State :=
  let r := s.ioIn e a
  match r.2 with
  | .ok v => r.1.setEng e (((r.1.eng e).setW d v).step n)
  | .error c => r.1.bobFault e 4 c a

/-- OUT of one word. -/
def State.bobOut (s : State) (e n a : Nat) (v : W16) : State :=
  let r := s.ioOut e a v
  match r.2 with
  | none => r.1.setEng e ((r.1.eng e).step n)
  | some c => r.1.bobFault e 4 c a

/-- IN. -/
def execBIn (e : Nat) (d b disp : Fin 16) (s : State) : Res :=
  .next (s.issue (.bIn e d b disp) [d.val, b.val] false fun n s => s.bobIn e n d.val ((s.eng e).addr b.val disp.val))
/-- OUT. -/
def execBOut (e : Nat) (src b disp : Fin 16) (s : State) : Res :=
  .next (s.issue (.bOut e src b disp) [src.val, b.val] false fun n s => s.bobOut e n ((s.eng e).addr b.val disp.val) ((s.eng e).getW src.val))
/-- IN.L. -/
def execBInL (e : Nat) (d b : Fin 16) (disp : BitVec 16) (s : State) : Res :=
  .next (s.issue (.bInL e d b disp) [d.val, b.val] false fun n s => s.bobIn e n d.val ((s.eng e).addr b.val disp.toNat))
/-- OUT.L. -/
def execBOutL (e : Nat) (d b : Fin 16) (disp : BitVec 16) (s : State) : Res :=
  .next (s.issue (.bOutL e d b disp) [d.val, b.val] false fun n s => s.bobOut e n ((s.eng e).addr b.val disp.toNat) ((s.eng e).getW d.val))

/-- IND (R362): an odd address faults with cause ODD. -/
def execBInd (e : Nat) (d b : Fin 16) (disp : BitVec 16) (s : State) : Res :=
  .next (s.issue (.bInd e d b disp) [d.val, d.val + 1, b.val] false fun n s =>
    let a := (s.eng e).addr b.val disp.toNat
    if !evenReg d then s.bobIllegal e
    else if a % 2 = 1 then s.bobFault e 4 4 a
    else
      let r := s.ioIn e a
      match r.2 with
      | .error c => r.1.bobFault e 4 c a
      | .ok lo =>
        let t := r.1.ioIn e (a + 1)
        match t.2 with
        | .error c => t.1.bobFault e 4 c (a + 1)
        | .ok hi => t.1.setEng e (((t.1.eng e).setPair d.val (lo, hi)).step n))
/-- OUTD (R362). -/
def execBOutd (e : Nat) (d b : Fin 16) (disp : BitVec 16) (s : State) : Res :=
  .next (s.issue (.bOutd e d b disp) [d.val, d.val + 1, b.val] false fun n s =>
    let x := s.eng e
    let a := x.addr b.val disp.toNat
    if !evenReg d then s.bobIllegal e
    else if a % 2 = 1 then s.bobFault e 4 4 a
    else
      let r := s.ioOut e a (x.getW d.val)
      match r.2 with
      | some c => r.1.bobFault e 4 c a
      | none =>
        let t := r.1.ioOut e (a + 1) (x.getW (d.val + 1))
        match t.2 with
        | some c => t.1.bobFault e 4 c (a + 1)
        | none => t.1.setEng e ((t.1.eng e).step n))

/-! ### I-space (R345, R356) -/

/-- LDP. -/
def execBLdp (e : Nat) (d b : Fin 16) (disp : BitVec 16) (s : State) : Res :=
  .next (s.issue (.bLdp e d b disp) [d.val, b.val] false fun n s =>
    let a := (s.eng e).addr b.val disp.toNat
    let r := s.iSpace e a
    match r.2 with
    | .ok v => r.1.setEng e (((r.1.eng e).setW d.val v).step n)
    | .error c => r.1.bobFault e 5 c a)
/-- STP: privileged; local instruction SRAM alone. -/
def execBStp (e : Nat) (d b : Fin 16) (disp : BitVec 16) (s : State) : Res :=
  .next (s.issue (.bStp e d b disp) [d.val, b.val] false fun n s =>
    let x := s.eng e
    let a := x.addr b.val disp.toNat
    if !engPriv e then s.bobPriv e
    else if 0x1000 ≤ a then s.bobFault e 5 9 a
    else s.setEng e ((x.iWrite a (x.getW d.val)).step n))

/-! ### Long immediates (Table 12-11): bits [3:0] must be 0 -/

/-- LDI16. -/
def execBLdi16 (e : Nat) (d z : Fin 16) (imm : BitVec 16) (s : State) : Res :=
  .next (s.issueIf e (.bLdi16 e d z imm) (z.val == 0) [d.val] fun x => x.setW d.val imm)
/-- ADDI16. -/
def execBAddi16 (e : Nat) (d z : Fin 16) (imm : BitVec 16) (s : State) : Res :=
  .next (s.issueIf e (.bAddi16 e d z imm) (z.val == 0) [d.val] fun x => x.aluCznv d.val (addFlags (x.getW d.val) imm false))
/-- CMPI16. -/
def execBCmpi16 (e : Nat) (d z : Fin 16) (imm : BitVec 16) (s : State) : Res :=
  .next (s.issueIf e (.bCmpi16 e d z imm) (z.val == 0) [d.val] fun x => x.setCznv (subFlags (x.getW d.val) imm true))

/-! ### Branches, jumps and calls (R354, R355) -/

/-- Bcc: to the next word plus disp8, sign-extended. -/
def execBBcc (e : Nat) (cond : Fin 16) (disp : BitVec 8) (s : State) : Res :=
  .next (s.issue (.bBcc e cond disp) [] false fun n s =>
    let x := s.eng e
    if cond.val = 15 then s.bobIllegal e
    else if condHolds cond.val x.c x.z x.n x.v then s.setEng e { x with pc := (x.pc + 1 + (disp.signExtend 16).toNat) % 65536, eiHold := false }
    else s.setEng e (x.step n))

/-- The PC takes a target. -/
def Engine.jump (x : Engine) (t : W16) : Engine := { x with pc := t.toNat, eiHold := false }

/-- JMP: bits [7:0] must be 0. -/
def execBJmp (e : Nat) (z z2 : Fin 16) (target : BitVec 16) (s : State) : Res :=
  .next (s.issue (.bJmp e z z2 target) [] false fun _ s => if z.val = 0 ∧ z2.val = 0 then s.setEng e ((s.eng e).jump target) else s.bobIllegal e)
/-- JMPR. -/
def execBJmpr (e : Nat) (z src : Fin 16) (s : State) : Res :=
  .next (s.issue (.bJmpr e z src) [src.val] false fun _ s =>
    if z.val = 0 then s.setEng e ((s.eng e).jump ((s.eng e).getW src.val)) else s.bobIllegal e)

/-- Numbers of the bits of a mask, highest first. -/
def maskDown (m : W16) : List Nat := (bitList 16 m.toNat).reverse

/-- Push the registers of a list: 15 is FLAGS. -/
def State.pushAll (s : State) (e : Nat) : List Nat → State
  | [] => s
  | i :: l => State.pushAll (s.push e (if i = 15 then (s.eng e).flags e else (s.eng e).getW i)) e l

/-- CALL and CALLR: the return address, then the registers of the mask from bit 15 down. A push that would leave local D SRAM faults before any is made. -/
def State.bobCall (s : State) (e ret : Nat) (t mask : W16) : State :=
  let l := maskDown mask
  let x := s.eng e
  if !x.stackOk (l.length + 1) then s.bobFault e 3 7 x.pushFault
  else
    let s1 := (s.push e (BitVec.ofNat 16 ret)).pushAll e l
    s1.setEng e ((s1.eng e).jump t)

/-- The registers that a mask and the stack pointer name. -/
def maskUses (m : W16) : List Nat := 15 :: bitList 15 m.toNat

/-- CALL. -/
def execBCall (e : Nat) (z z2 : Fin 16) (target mask : BitVec 16) (s : State) : Res :=
  .next (s.issue (.bCall e z z2 target mask) (maskUses mask) false fun n s =>
    if z.val = 0 ∧ z2.val = 0 then s.bobCall e (((s.eng e).pc + n) % 65536) target mask else s.bobIllegal e)
/-- CALLR. -/
def execBCallr (e : Nat) (z src : Fin 16) (mask : BitVec 16) (s : State) : Res :=
  .next (s.issue (.bCallr e z src mask) (src.val :: maskUses mask) false fun n s =>
    if z.val = 0 then s.bobCall e (((s.eng e).pc + n) % 65536) ((s.eng e).getW src.val) mask else s.bobIllegal e)

/-- Pop a word of local D SRAM. -/
def State.pop (s : State) (e : Nat) : State × W16 :=
  let sp := (s.eng e).getW 15
  let r := s.dLoadAt e 1 (.loc sp.toNat)
  let v := match r.2 with
    | .ok w => w.getD 0 0
    | .error _ => 0
  (r.1.setEng e ((r.1.eng e).setW 15 (sp + 1)), v)

/-- Pop the registers of a list: 15 is FLAGS. -/
def State.popAll (s : State) (e : Nat) : List Nat → State
  | [] => s
  | i :: l =>
    let r := s.pop e
    State.popAll (r.1.setEng e (if i = 15 then (r.1.eng e).setFlags r.2 else (r.1.eng e).setW i r.2)) e l

/-- `n` pops lie in local D SRAM. -/
def Engine.popOk (x : Engine) (n : Nat) : Bool := decide ((x.getW 15).toNat + n ≤ 0x6000)

/-- Pop registers, then the PC. -/
def State.bobRet (s : State) (e : Nat) (l : List Nat) : State :=
  let x := s.eng e
  if !x.popOk (l.length + 1) then s.bobFault e 3 7 (max 0x6000 (x.getW 15).toNat)
  else
    let r := (s.popAll e l).pop e
    r.1.setEng e ((r.1.eng e).jump r.2)

/-- RET. -/
def execBRet (e : Nat) (z z2 : Fin 16) (mask : BitVec 16) (s : State) : Res :=
  .next (s.issue (.bRet e z z2 mask) (maskUses mask) false fun _ s =>
    if z.val = 0 ∧ z2.val = 0 then s.bobRet e (bitList 16 mask.toNat) else s.bobIllegal e)
/-- IRET: FLAGS, then the PC. -/
def execBIret (e : Nat) (z z2 : Fin 16) (s : State) : Res :=
  .next (s.issue (.bIret e z z2) [15] false fun _ s => if z.val = 0 ∧ z2.val = 0 then s.bobRet e [15] else s.bobIllegal e)

/-! ### CRC and parity steps (R357) -/

/-- A pair as a number, the low word first. -/
def Engine.pair (x : Engine) (d : Nat) : Nat := (x.getW d).toNat + 65536 * (x.getW (d + 1)).toNat

/-- A CRC-32C step over bytes. -/
def Engine.crcStep (x : Engine) (d : Nat) (b : List Byte) : Engine := x.setPair d (mulWords (crcRunR poly32c (x.pair d) b))

/-- CRC32C: both bytes of Ws. -/
def execBCrc32c (e : Nat) (d src : Fin 16) (s : State) : Res :=
  .next (s.issueIf e (.bCrc32c e d src) (evenReg d) [d.val, d.val + 1, src.val] fun x => x.crcStep d.val (leBytes 2 (x.getW src.val).toNat))
/-- CRC32CB: the low byte. -/
def execBCrc32cb (e : Nat) (d src : Fin 16) (s : State) : Res :=
  .next (s.issueIf e (.bCrc32cb e d src) (evenReg d) [d.val, d.val + 1, src.val] fun x => x.crcStep d.val (leBytes 1 (x.getW src.val).toNat))
/-- CRC16. -/
def execBCrc16 (e : Nat) (d src : Fin 16) (s : State) : Res :=
  .next (s.issueReg e (.bCrc16 e d src) [d.val, src.val] fun x =>
    x.setW d.val (BitVec.ofNat 16 (crc16Run (x.getW d.val).toNat (leBytes 2 (x.getW src.val).toNat))))
/-- CRC16B. -/
def execBCrc16b (e : Nat) (d src : Fin 16) (s : State) : Res :=
  .next (s.issueReg e (.bCrc16b e d src) [d.val, src.val] fun x =>
    x.setW d.val (BitVec.ofNat 16 (crc16Run (x.getW d.val).toNat (leBytes 1 (x.getW src.val).toNat))))
/-- PARX. -/
def execBParx (e : Nat) (d src : Fin 16) (s : State) : Res :=
  .next (s.issueReg e (.bParx e d src) [d.val, src.val] fun x => x.setW d.val (x.getW d.val ^^^ BitVec.ofNat 16 (par16 (x.getW src.val))))

/-! ### Multiply and divide (R358) -/

/-- Issue an op of the unit: its result waits to land. -/
def State.mulDiv (s : State) (e : Nat) (i : Instr) (ok : Bool) (uses : List Nat) (res : Engine → List (Nat × W16)) : State :=
  s.issue i uses true fun n s => if ok then s.setEng e { (s.eng e).step n with muldiv := res (s.eng e) } else s.bobIllegal e

/-- Wd is even, and is not 14. -/
def mdPair (d : Fin 16) : Bool := evenReg d && d.val != 14

/-- A pair result. -/
def pairRes (d : Nat) (p : W16 × W16) : List (Nat × W16) := [(d, p.1), (d + 1, p.2)]

/-- MUL. -/
def execBMul (e : Nat) (d src : Fin 16) (s : State) : Res :=
  .next (s.mulDiv e (.bMul e d src) (mdPair d) [d.val, d.val + 1, src.val] fun x => pairRes d.val (mulU (x.getW d.val) (x.getW src.val)))
/-- MULS. -/
def execBMuls (e : Nat) (d src : Fin 16) (s : State) : Res :=
  .next (s.mulDiv e (.bMuls e d src) (mdPair d) [d.val, d.val + 1, src.val] fun x => pairRes d.val (mulS (x.getW d.val) (x.getW src.val)))
/-- MULL. -/
def execBMull (e : Nat) (d src : Fin 16) (s : State) : Res :=
  .next (s.mulDiv e (.bMull e d src) true [d.val, src.val] fun x => [(d.val, (mulU (x.getW d.val) (x.getW src.val)).1)])
/-- DIV. -/
def execBDiv (e : Nat) (d src : Fin 16) (s : State) : Res :=
  .next (s.mulDiv e (.bDiv e d src) (mdPair d) [d.val, d.val + 1, src.val] fun x => pairRes d.val (divU (x.pair d.val) (x.getW src.val)))
/-- DIVS. -/
def execBDivs (e : Nat) (d src : Fin 16) (s : State) : Res :=
  .next (s.mulDiv e (.bDivs e d src) (mdPair d) [d.val, d.val + 1, src.val] fun x => pairRes d.val (divS (x.pair d.val) (x.getW src.val)))

/-- MULDIV_RESULT: the pending op writes its result. -/
def execMuldivResult (e : Nat) (s : State) : Res := .next (s.whenUp fun s => if e < 32 && !s.engHeld e then s.setEng e (s.eng e).land else s)

/-! ### System ops (R359) -/

/-- Set or clear the flags that a mask names. -/
def Engine.maskFlags (x : Engine) (m : Nat) (b : Bool) : Engine :=
  { x with c := if m.testBit 0 then b else x.c, z := if m.testBit 1 then b else x.z, n := if m.testBit 2 then b else x.n, v := if m.testBit 3 then b else x.v }

/-- SETF. -/
def execBSetf (e : Nat) (hi lo : Fin 16) (s : State) : Res :=
  .next (s.issueIf e (.bSetf e hi lo) (hi.val == 0) [] fun x => x.maskFlags lo.val true)
/-- CLRF. -/
def execBClrf (e : Nat) (hi lo : Fin 16) (s : State) : Res :=
  .next (s.issueIf e (.bClrf e hi lo) (hi.val == 0) [] fun x => x.maskFlags lo.val false)

/-- Both fields are 0. -/
def noFields (hi lo : Fin 16) : Bool := hi.val == 0 && lo.val == 0

/-- EI: effective from the next instruction, after which an interrupt can be taken (Table 12-19). -/
def execBEi (e : Nat) (hi lo : Fin 16) (s : State) : Res :=
  .next (s.issue (.bEi e hi lo) [] false fun n s =>
    if noFields hi lo then s.setEng e { (s.eng e).step n with ie := true, eiHold := !(s.eng e).ie } else s.bobIllegal e)
/-- DI. -/
def execBDi (e : Nat) (hi lo : Fin 16) (s : State) : Res :=
  .next (s.issueIf e (.bDi e hi lo) (noFields hi lo) [] fun x => { x with ie := false })
/-- WAIT: ends at once while a line of WAIT_EN is pending. -/
def execBWait (e : Nat) (hi lo : Fin 16) (s : State) : Res :=
  .next (s.issue (.bWait e hi lo) [lo.val] false fun n s =>
    let x := s.eng e
    if hi.val ≠ 0 then s.bobIllegal e
    else if s.irqPend e &&& x.waitEn ≠ 0 then s.setEng e { x.step n with c := true }
    else s.setEng e { x with st := .waiting, waitOn := some (.wait (x.getW lo.val).toNat), eiHold := false })
/-- WAIT_TIMEOUT: a WAIT with a limit ends with C 0; a line that is pending ends it with C 1 (R243). -/
def execBWaitTimeout (e : Nat) (s : State) : Res :=
  .next (s.whenUp fun s =>
    let x := s.eng e
    match x.waitOn with
    | some (.wait ws) =>
      if e < 32 && x.st == .waiting && ws != 0 && !s.engHeld e then s.setEng e (x.waitEnds (s.irqPend e &&& x.waitEn != 0)) else s
    | _ => s)
/-- MVBK. -/
def execBMvbk (e : Nat) (hi lo : Fin 16) (s : State) : Res :=
  .next (s.issueIf e (.bMvbk e hi lo) (decide (lo.val < 4)) [hi.val] fun x => x.setW hi.val (x.bank lo.val))
/-- MVKB: banks 0 to 2 are privileged (R343). -/
def execBMvkb (e : Nat) (hi lo : Fin 16) (s : State) : Res :=
  .next (s.issue (.bMvkb e hi lo) [lo.val] false fun n s =>
    let x := s.eng e
    if 4 ≤ hi.val then s.bobIllegal e
    else if hi.val < 3 ∧ engPriv e = false then s.bobPriv e
    else s.setEng e ((x.setBank hi.val (x.getW lo.val)).step n))
/-- TRAP n: vector 16 + n; the next instruction's address is pushed. -/
def execBTrap (e : Nat) (hi lo : Fin 16) (s : State) : Res :=
  .next (s.issue (.bTrap e hi lo) [15] false fun n s =>
    let x := s.eng e
    if hi.val ≠ 0 then s.bobIllegal e
    else (s.setEng e { x with vector := 16 + lo.val }).enter e (16 + lo.val) ((x.pc + n) % 65536))
/-- HALT. -/
def execBHalt (e : Nat) (hi lo : Fin 16) (s : State) : Res :=
  .next (s.issue (.bHalt e hi lo) [] false fun _ s => if noFields hi lo then s.engHalt e false else s.bobIllegal e)
/-- NOP. -/
def execBNop (e : Nat) (hi lo : Fin 16) (s : State) : Res := .next (s.issueIf e (.bNop e hi lo) (noFields hi lo) [] fun x => x)
/-- RDF. -/
def execBRdf (e : Nat) (hi lo : Fin 16) (s : State) : Res :=
  .next (s.issueIf e (.bRdf e hi lo) (lo.val == 0) [hi.val] fun x => x.setW hi.val (x.flags e))
/-- WRF. -/
def execBWrf (e : Nat) (hi lo : Fin 16) (s : State) : Res :=
  .next (s.issueIf e (.bWrf e hi lo) (hi.val == 0) [lo.val] fun x => x.setFlags (x.getW lo.val))
/-- SYNC: over at once with an empty store buffer; else the engine waits, and goes on when the last entry has drained. -/
def execBSync (e : Nat) (hi lo : Fin 16) (s : State) : Res :=
  .next (s.issue (.bSync e hi lo) [] false fun n s =>
    let x := s.eng e
    if !noFields hi lo then s.bobIllegal e
    else if x.sbuf.isEmpty then s.setEng e (x.step n)
    else s.setEng e { x with st := .waiting, waitOn := some .sync, eiHold := false })

/-! ### Events of an engine -/

/-- The lowest line that is pending and enabled. -/
def State.lineDue (s : State) (e : Nat) : Option Nat := (List.range 16).find? fun n => s.linePending e n && (s.eng e).irqEn.testBit n

/-- BOBBIN_INTERRUPT (R366): the lowest pending enabled line is taken between instructions, or out of a wait, which is abandoned; not right after EI. -/
def execBobbinInterrupt (e line : Nat) (s : State) : Res :=
  .next (s.whenUp fun s =>
    let x := s.eng e
    if e < 32 && (x.st == .running || x.st == .waiting) && !x.stopReq && !s.engHeld e && x.ie && !x.eiHold && s.lineDue e == some line then
      s.enter e (32 + line) x.pc
    else s)

/-- LOCAL_TIMER_MATCH (R348): line 0. -/
def execLocalTimerMatch (e : Nat) (s : State) : Res := .next (s.whenUp fun s => if e < 32 then s.engLine e 0 else s)

/-- MAILBOX_SEND (R348): a write to MBX_OUT. -/
def execMailboxSend (e slot : Nat) (word : BitVec 16) (s : State) : Res :=
  .next (s.whenUp fun s => if s.bobLive e && decide (slot < 8) then s.mboxPush e (e / 8 * 8 + slot) word else s)

/-- MAILBOX_RECEIVE (R348): a read of MBX_IN; 0 from an empty FIFO. -/
def execMailboxReceive (e : Nat) (s : State) : Res :=
  .next (s.whenUp fun s =>
    let x := s.eng e
    if !s.bobLive e then s
    else match x.mbx with
      | v :: r => (s.setEng e { x with mbx := r }).emit (.readData (wordBytes [v]))
      | [] => s.emit (.readData (wordBytes [0])))

/-- The register port may run a command: it was started by RP_CMD, or RP_CMD is written now. -/
def State.rportOn (s : State) (e cmd : Nat) : Bool :=
  decide (e < 32) && !s.engHeld e && ((s.eng e).rpCmd == cmd || ((s.eng e).rpCmd == 0 && s.bobLive e))

/-- RPORT_READ (R349): with the engine's own world; bits [2:0] of RP_OFF must be 0. -/
def execRportRead (e : Nat) (s : State) : Res :=
  .next (s.whenUp fun s =>
    if !s.rportOn e 1 then s
    else
      let r := s.ctlRead (.bobbin e) ((s.eng e).rpOff / 8 * 8) 8
      r.1.setEng e { r.1.eng e with rpData := r.2.1, rpRefused := !r.2.2, rpCmd := 0 })

/-- RPORT_WRITE (R349). -/
def execRportWrite (e : Nat) (s : State) : Res :=
  .next (s.whenUp fun s =>
    if !s.rportOn e 2 then s
    else
      let off := (s.eng e).rpOff / 8 * 8
      let refused := match s.ctlJudge (.bobbin e) true off with
        | .refused _ => true
        | _ => false
      let s1 := s.ctlStore (.bobbin e) off 8 (BitVec.ofNat 64 (s.eng e).rpData)
      s1.setEng e { s1.eng e with rpRefused := refused, rpCmd := 0 })

end Sys2Proof.Machine
end

