-- ==== Sys2Proof/Machine/BobCop.lean ====
section
/-!
DEFINITION. BobCop.lean: the coprocessor units of the Bobbin engines (R360, Tables 12-1 and 12-13). A command computes when it issues; what it leaves in memory and
registers lands when the unit is done (COPROCESSOR_DONE).
-/

namespace Sys2Proof.Machine

/-- The units. -/
inductive CopUnit where
  | sha | aes | big | crc | parse
  deriving DecidableEq, Repr

/-- The unit at a port (Table 12-1). -/
def copUnit (e port : Nat) : Option CopUnit :=
  let slot := e % 8
  if slot = 6 then (if port = 0 then some .sha else if port = 1 then some .aes else if port = 2 then some .big else none)
  else if port = 0 then some .crc
  else if port = 1 ∧ slot < 6 then some .parse
  else none

/-- Its highest register below STATUS. -/
def CopUnit.last : CopUnit → Nat
  | .sha => 4
  | .aes => 7
  | .big => 4
  | .crc => 6
  | .parse => 2

/-- A result register: STATE of the CRC block. -/
def CopUnit.result : CopUnit → Nat → Bool
  | .crc, n => decide (3 ≤ n) && decide (n ≤ 6)
  | _, _ => false

/-- The unit at a port takes a state. -/
def State.cop (s : State) (e port : Nat) : CopSt := smGet CopSt.reset (s.eng e).cops port
def State.setCop (s : State) (e port : Nat) (c : CopSt) : State :=
  s.setEng e { s.eng e with cops := smPut CopSt.reset (s.eng e).cops port c }

/-- A register of a unit. -/
def CopSt.reg (c : CopSt) (n : Nat) : Nat := smGet 0 c.regs n

/-- STATUS: bit 0 busy, bit 1 error. -/
def CopSt.status (c : CopSt) : Nat := b2n c.busy + 2 * b2n c.err

/-! ### Operand memory -/

/-- The physical address of a D-space word of the shared range. -/
def State.shPhys (s : State) (e a : Nat) : Nat := 0x20010000000 + (s.eng e).bank3 * 0x4000 + 2 * (a - 0x6000)

/-- Words of a range that lie in local D SRAM. -/
def localWords (ptr n : Nat) : Nat := min n (0x6000 - ptr)

/-- An operand of `n` bytes at a word address; none beyond 0x7FFF or where shared SRAM does not give it. -/
def State.copIn (s : State) (e ptr n : Nat) : State × Option (List Byte) :=
  let w := (n + 1) / 2
  let nl := localWords ptr w
  if 0x8000 < ptr + w then (s, none)
  else
    let loc := wordBytes ((List.range nl).map fun i => (s.eng e).dRead (ptr + i))
    let p := s.shPhys e (ptr + nl)
    let m := 2 * (w - nl)
    match s.memCheck (.bobbin e) p m .read with
    | .ok => (s, some ((loc ++ s.devRead p m).take n))
    | .refused c r => (s.violation (.bobbin e) .read c r p, none)
    | _ => (s, none)

/-- Several operands. -/
def State.copIns (s : State) (e : Nat) : List (Nat × Nat) → State × Option (List (List Byte))
  | [] => (s, some [])
  | (ptr, n) :: l =>
    let r := s.copIn e ptr n
    match r.2 with
    | none => (r.1, none)
    | some b =>
      let t := State.copIns r.1 e l
      (t.1, t.2.map (b :: ·))

/-- Where bytes of a result will land: places in the store buffer's numbering, with their words. The other half of a last odd byte's word is kept. -/
def State.copOut (s : State) (e ptr : Nat) (b : List Byte) : State × Option (List (Nat × W16)) :=
  let w := (b.length + 1) / 2
  let nl := localWords ptr w
  let p := s.shPhys e (ptr + nl)
  if 0x8000 < ptr + w then (s, none)
  else
    let at16 := fun i => if i < nl then ptr + i else memLoc (p + 2 * (i - nl))
    match s.memCheck (.bobbin e) p (2 * (w - nl)) .write with
    | .refused c r => (s.violation (.bobbin e) .write c r p, none)
    | .unbacked => (s, none)
    | _ =>
      let last := ptr + b.length / 2
      let keep := if b.length % 2 = 0 then [] else
        ((if last < 0x6000 then wordBytes [(s.eng e).dRead last] else s.devRead (s.shPhys e last) 2).drop 1)
      (s, some ((bytesWords (b ++ keep)).zipIdx.map fun x => (at16 x.2, x.1)))

/-! ### A command -/

/-- The unit starts: what it will leave. -/
def State.copStart (s : State) (e port : Nat) (mem : List (Nat × W16)) (regs : List (Nat × Nat)) (acc acc2 : List Byte) : State :=
  s.setCop e port
    { s.cop e port with busy := true, err := false, outMem := mem, outRegs := regs, outErr := false, acc := acc, acc2 := acc2 }

/-- The unit starts and will end in error. -/
def State.copErr (s : State) (e port : Nat) : State :=
  s.setCop e port { s.cop e port with busy := true, err := false, outMem := [], outRegs := [], outErr := true }

/-- The unit starts a command that writes bytes. -/
def State.copWrite (s : State) (e port ptr : Nat) (b acc acc2 : List Byte) : State :=
  let r := s.copOut e ptr b
  match r.2 with
  | some m => r.1.copStart e port m [] acc acc2
  | none => r.1.copErr e port

/-! ### SHA-2/SHA-3 -/

/-- Output of SHAKE256, block by block. -/
def shakeOut : Nat → List W64 → List Byte
  | 0, _ => []
  | n + 1, a => (keccakBytes a).take 136 ++ shakeOut n (keccakF a)

/-- SHAKE256 of `n` bytes. -/
def shake256 (n : Nat) (l : List Byte) : List Byte := (shakeOut (n / 136 + 1) (keccakState 136 0x1F l)).take n

/-- The digest of an algorithm. -/
def copDigest (alg n : Nat) (l : List Byte) : Option (List Byte) :=
  match alg with
  | 0 => some (sha256 l)
  | 1 => some (sha384 l)
  | 2 => some (sha512 l)
  | 3 => some (sha3 256 l)
  | 4 => some (sha3 384 l)
  | 5 => some (shake256 n l)
  | _ => none

/-- INIT, UPDATE, FINAL. -/
def State.shaCmd (s : State) (e port num : Nat) : State :=
  let c := s.cop e port
  match num with
  | 0 => s.copStart e port [] [] [] []
  | 1 =>
    match s.copIn e (c.reg 0) (c.reg 1) with
    | (t, some b) => t.copStart e port [] [] (c.acc ++ b) []
    | (t, none) => t.copErr e port
  | 2 =>
    match copDigest (c.reg 2) (c.reg 4) c.acc with
    | some d => s.copWrite e port (c.reg 3) d c.acc []
    | none => s.copErr e port
  | _ => s.copErr e port

/-! ### AES -/

/-- Bytes of the initial value of a mode. -/
def ivBytes (mode : Nat) : Nat := if mode = 1 ∨ mode = 2 then 16 else if mode = 3 then 12 else 0

/-- ENCRYPT or DECRYPT: the output, and a tag in GCM; none where the length does not suit the mode or an unwrap fails. -/
def copAes (mode : Nat) (enc : Bool) (key iv aad src : List Byte) : Option (List Byte × List Byte) :=
  let whole := decide (src.length % 16 = 0)
  match mode with
  | 0 => if whole then some (aesEcb key enc src, []) else none
  | 1 => if whole then some (aesCbc key iv enc src, []) else none
  | 2 => some (aesCtr key iv 16 src, [])
  | 3 => some (aesGcm key iv aad enc src)
  | 4 =>
    if src.length % 8 ≠ 0 ∨ src.length < (if enc then 16 else 24) then none
    else if enc then some (keyWrap key src, [])
    else (blocksUnwrap key src).map fun d => (d, [])
  | _ => none

/-- ENCRYPT, DECRYPT, TAG. -/
def State.aesCmd (s : State) (e port num : Nat) : State :=
  let c := s.cop e port
  let mode := c.reg 5
  if num = 0 ∨ num = 1 then
    let src := (c.reg 0, c.reg 1)
    match s.copIns e [(c.reg 3, 32), (c.reg 4, ivBytes mode), (c.reg 6, if mode = 3 then c.reg 7 else 0), src] with
    | (t, some [k, iv, aad, d]) =>
      match copAes mode (num == 0) k iv aad d with
      | some o => t.copWrite e port (c.reg 2) o.1 o.2 []
      | none => t.copErr e port
    | (t, _) => t.copErr e port
  else if num = 2 ∧ mode = 3 ∧ c.acc.length = 16 then s.copWrite e port (c.reg 2) c.acc c.acc []
  else s.copErr e port

/-! ### Big numbers -/

/-- The extended Euclidean algorithm: remainders and the coefficients of `a`, until a remainder is 0. -/
def egcd : Nat → Nat → Nat → Int → Int → Nat × Int
  | 0, r0, _, t0, _ => (r0, t0)
  | n + 1, r0, r1, t0, t1 => if r1 = 0 then (r0, t0) else egcd n r1 (r0 % r1) t1 (t0 - (r0 / r1 : Nat) * t1)

/-- The inverse of `a` modulo `m` of at most `bits` bits, if there is one. -/
def modInverse (bits a m : Nat) : Option Nat :=
  let r := egcd (2 * bits + 4) m (a % m) 0 1
  if r.1 = 1 then some (r.2 % (m : Int)).toNat else none

/-- A result of the big-number unit over operand bytes, of `n` words; none where it has none. -/
def copBig (num n : Nat) (ops : List (List Byte)) : Option (List Byte) :=
  let a := leNat (ops.getD 0 [])
  let b := leNat (ops.getD 1 [])
  let m := leNat (ops.getD 2 [])
  match num with
  | 0 => if m = 0 then none else some (leBytes (2 * n) (a * b % m))
  | 1 => if m = 0 then none else some (leBytes (2 * n) (modPow (16 * n) (a % m) b m (1 % m)))
  | 2 => if m = 0 then none else (modInverse (16 * n) a m).map (leBytes (2 * n))
  | 3 => some ((List.range (4 * n)).map (Config.bigResult 3 ops.flatten))
  | k => if k ≤ 6 then some ((List.range (2 * n)).map (Config.bigResult k ops.flatten)) else none

/-- Operands of a command: pointer and bytes. A point has two coordinates. -/
def bigOperands (c : CopSt) (num : Nat) : List (Nat × Nat) :=
  let n := 2 * c.reg 4
  let a := (c.reg 0, n)
  let b := (c.reg 1, n)
  let m := (c.reg 2, n)
  match num with
  | 0 => [a, b, m]
  | 1 => [a, b, m]
  | 2 => [a, (c.reg 1, 0), m]
  | 3 => [a, (c.reg 1, 2 * n)]
  | 6 => [a, b]
  | _ => [a]

/-- A command of the big-number unit. -/
def State.bigCmd (s : State) (e port num : Nat) : State :=
  let c := s.cop e port
  match s.copIns e (bigOperands c num) with
  | (t, some ops) =>
    match copBig num (c.reg 4) ops with
    | some o => t.copWrite e port (c.reg 3) o [] []
    | none => t.copErr e port
  | (t, none) => t.copErr e port

/-! ### CRC block -/

/-- STATE as a number. -/
def CopSt.crcState (c : CopSt) (words : Nat) : Nat := ((List.range words).map fun i => c.reg (3 + i) * 65536 ^ i).sum

/-- STATE words of a number. -/
def crcRegs (words v : Nat) : List (Nat × Nat) := (List.range words).map fun i => (3 + i, v / 65536 ^ i % 65536)

/-- RUN: continues from STATE. -/
def State.crcCmd (s : State) (e port num : Nat) : State :=
  let c := s.cop e port
  let alg := c.reg 2
  let words := if alg = 0 then 2 else if alg = 1 then 1 else 4
  match s.copIn e (c.reg 0) (c.reg 1) with
  | (t, some b) =>
    let v := c.crcState words
    let o := if alg = 0 then crcRunR poly32c v b else if alg = 1 then crc16Run v b else crcRunR poly64 v b
    if num = 0 ∧ alg < 3 then t.copStart e port [] (crcRegs words o) [] [] else t.copErr e port
  | (t, none) => t.copErr e port

/-! ### Descriptor parser -/

/-- Fields of an entry as words: `(offset, bytes)` of each, a field above 16 bits in consecutive words. -/
def fieldWords (b : List Byte) : List (Nat × Nat) → List W16
  | [] => []
  | (o, n) :: l => (List.range ((n + 1) / 2)).map (fun i => BitVec.ofNat 16 (leAt b (o + 2 * i) (min 2 (n - 2 * i)))) ++ fieldWords b l

/-- The fields of Table 03-11. -/
def sqeFields : List (Nat × Nat) := [(0, 1), (1, 1), (2, 2), (4, 3), (7, 1), (8, 8), (16, 8), (24, 8)]
/-- A virtio descriptor: address, length, flags, next. -/
def vdescFields : List (Nat × Nat) := [(0, 8), (8, 4), (12, 2), (14, 2)]
/-- An NVMe submission entry: opcode, fuse and PSDT, CID, NSID, CDW2, CDW3, MPTR, DPTR. -/
def nvmeFields : List (Nat × Nat) := [(0, 1), (1, 1), (2, 2), (4, 4), (8, 4), (12, 4), (16, 8), (24, 16)]
/-- The fields of Table 02-2. -/
def onfFields : List (Nat × Nat) := [(0, 2), (2, 1), (3, 1), (4, 2), (6, 2), (8, 4), (12, 4), (16, 8), (24, 4), (28, 2), (30, 2)]

/-- Opcodes of R119: I/O and admin commands. -/
def nvmeOpcodes : List Nat := [0x00, 0x01, 0x02, 0x08, 0x09, 0x04, 0x05, 0x06, 0x0A, 0x0C, 0x18, 0x7C]

/-- What the first failing rule gives for an Onafaet header. -/
def onfHeaderCode (b : List Byte) : Nat :=
  match hdrDrop b with
  | some c => c
  | none => if !plenOk b then E.BAD_LENGTH else if hdrBad b then E.PARAM else 0

/-- Word 0, and the fields. -/
def parseWords (fmt : Nat) (b : List Byte) : Nat × List W16 :=
  match fmt with
  | 0 => ((sqeRefusal false true false b).getD 0, fieldWords b sqeFields)
  | 1 => (0, fieldWords b vdescFields)
  | 2 => (if nvmeOpcodes.contains (leAt b 0 1) then 0 else 1, fieldWords b nvmeFields)
  | _ => (onfHeaderCode b, fieldWords b onfFields)

/-- Bytes of an entry of a format. -/
def parseLen (fmt : Nat) : Nat := if fmt = 1 then 16 else if fmt = 3 then 32 else 64

/-- PARSE: 16 words at OUT. Words beyond the last field are free. -/
def State.parseCmd (s : State) (e port num : Nat) : State :=
  let c := s.cop e port
  let fmt := c.reg 1
  match s.copIn e (c.reg 0) (parseLen fmt) with
  | (t, some b) =>
    let r := parseWords fmt b
    let tail := bytesWords (t.freeBytes 30)
    let out := (BitVec.ofNat 16 r.1 :: r.2 ++ tail.drop r.2.length).take 16
    if num = 0 ∧ fmt < 4 then t.drawn.copWrite e port (c.reg 2) (wordBytes out) [] [] else t.copErr e port
  | (t, none) => t.copErr e port

/-! ### Group 0xE -/

/-- A command of a unit. -/
def State.copCmd (s : State) (e port num : Nat) : CopUnit → State
  | .sha => s.shaCmd e port num
  | .aes => s.aesCmd e port num
  | .big => s.bigCmd e port num
  | .crc => s.crcCmd e port num
  | .parse => s.parseCmd e port num

/-- Vector 6. -/
def State.copFault (s : State) (e cause : Nat) : State := s.bobFault e 6 cause (s.eng e).pc

/-- The engine waits for the unit, and runs the instruction again when it is free. -/
def State.copWait (s : State) (e port : Nat) : State :=
  s.setEng e { s.eng e with st := .waiting, waitOn := some (.cop port), eiHold := false }

/-- A unit's error raises vector 6 once. -/
def State.copRaise (s : State) (e port : Nat) : State := (s.setCop e port { s.cop e port with raise := false }).copFault e 0xA

/-- CPC. -/
def State.cpc (s : State) (i : Instr) (e port num w : Nat) : State :=
  s.issue i [w] false fun n s =>
    match copUnit e port with
    | none => s.copFault e 2
    | some u =>
      let c := s.cop e port
      if c.busy then s.copWait e port
      else if c.raise then s.copRaise e port
      else
        let t := s.copCmd e port num u
        t.setEng e ((t.eng e).step n)

/-- CPW: STATUS is read-only; a number of no register is without effect. -/
def execCpw (e port : Nat) (num w : Fin 16) (s : State) : Res :=
  .next (s.issue (.cpw e port num w) [w.val] false fun n s =>
    match copUnit e (port % 4) with
    | none => s.copFault e 2
    | some u =>
      let p := port % 4
      let c := s.cop e p
      let t := if num.val ≤ u.last then s.setCop e p { c with regs := smPut 0 c.regs num.val ((s.eng e).getW w.val).toNat } else s
      t.setEng e ((t.eng e).step n))

/-- CPR. -/
def execCpr (e port : Nat) (num w : Fin 16) (s : State) : Res :=
  .next (s.issue (.cpr e port num w) [w.val] false fun n s =>
    match copUnit e (port % 4) with
    | none => s.copFault e 2
    | some u =>
      let p := port % 4
      let c := s.cop e p
      if u.result num.val && c.busy then s.copWait e p
      else if c.raise then s.copRaise e p
      else
        let v := if num.val = 15 then c.status else if num.val ≤ u.last then c.reg num.val else 0
        s.setEng e (((s.eng e).setW w.val (BitVec.ofNat 16 v)).step n))

/-- SHA_INIT. -/
def execShaInit (e : Nat) (w : Fin 16) (s : State) : Res := .next (s.cpc (.shaInit e w) e 0 0 w.val)
/-- SHA_UPDATE. -/
def execShaUpdate (e : Nat) (w : Fin 16) (s : State) : Res := .next (s.cpc (.shaUpdate e w) e 0 1 w.val)
/-- SHA_FINAL. -/
def execShaFinal (e : Nat) (w : Fin 16) (s : State) : Res := .next (s.cpc (.shaFinal e w) e 0 2 w.val)
/-- AES_ENCRYPT. -/
def execAesEncrypt (e : Nat) (w : Fin 16) (s : State) : Res := .next (s.cpc (.aesEncrypt e w) e 1 0 w.val)
/-- AES_DECRYPT. -/
def execAesDecrypt (e : Nat) (w : Fin 16) (s : State) : Res := .next (s.cpc (.aesDecrypt e w) e 1 1 w.val)
/-- AES_TAG. -/
def execAesTag (e : Nat) (w : Fin 16) (s : State) : Res := .next (s.cpc (.aesTag e w) e 1 2 w.val)
/-- MODMUL. -/
def execModmul (e : Nat) (w : Fin 16) (s : State) : Res := .next (s.cpc (.modmul e w) e 2 0 w.val)
/-- MODEXP. -/
def execModexp (e : Nat) (w : Fin 16) (s : State) : Res := .next (s.cpc (.modexp e w) e 2 1 w.val)
/-- MODINV. -/
def execModinv (e : Nat) (w : Fin 16) (s : State) : Res := .next (s.cpc (.modinv e w) e 2 2 w.val)
/-- P384_MUL. -/
def execP384Mul (e : Nat) (w : Fin 16) (s : State) : Res := .next (s.cpc (.p384Mul e w) e 2 3 w.val)
/-- NTT. -/
def execNtt (e : Nat) (w : Fin 16) (s : State) : Res := .next (s.cpc (.ntt e w) e 2 4 w.val)
/-- INTT. -/
def execIntt (e : Nat) (w : Fin 16) (s : State) : Res := .next (s.cpc (.intt e w) e 2 5 w.val)
/-- POLYMUL. -/
def execPolymul (e : Nat) (w : Fin 16) (s : State) : Res := .next (s.cpc (.polymul e w) e 2 6 w.val)
/-- CRC_RUN. -/
def execCrcRun (e : Nat) (w : Fin 16) (s : State) : Res := .next (s.cpc (.crcRun e w) e 0 0 w.val)
/-- DESCRIPTOR_PARSE. -/
def execDescriptorParse (e : Nat) (w : Fin 16) (s : State) : Res := .next (s.cpc (.descriptorParse e w) e 1 0 w.val)

/-! ### COPROCESSOR_DONE -/

/-- Words of a result land. -/
def State.copLand (s : State) (e : Nat) : List (Nat × W16) → State
  | [] => s
  | (a, v) :: l => State.copLand (s.storeLand e { window := false, loc := a, words := [v] }) e l

/-- Registers of a result. -/
def CopSt.putRegs (c : CopSt) : List (Nat × Nat) → CopSt
  | [] => c
  | (n, v) :: l => CopSt.putRegs { c with regs := smPut 0 c.regs n v } l

/-- An engine that waits for the unit goes on. -/
def State.copFree (s : State) (e port : Nat) : State :=
  let x := s.eng e
  if x.st == .waiting && x.waitOn == some (.cop port) then s.setEng e { x with st := .running, waitOn := none } else s

/-- COPROCESSOR_DONE (R360). -/
def execCoprocessorDone (e port : Nat) (s : State) : Res :=
  .next (s.whenUp fun s =>
    let c := s.cop e port
    if e < 32 && c.busy && !s.engHeld e then
      let t := s.copLand e c.outMem
      let d := c.putRegs c.outRegs
      (t.setCop e port { d with busy := false, err := c.outErr, raise := c.outErr, outMem := [], outRegs := [], outErr := false }).copFree e port
    else s)

end Sys2Proof.Machine
end

