-- ==== Sys2Proof/Machine/Dram.lean ====
section
/-!
DEFINITION. Dram.lean: the DRAM controllers (R431–R443): populations, training and repair, initialisation, scrub and its logs, power-down.
-/

namespace Sys2Proof.Machine

/-! ### Interleave (R433) -/

/-- The XOR of the 3-bit fields of an address from bit 8 to bit 40. -/
def chanHash (a : Nat) : Nat := (List.range 11).foldl (fun (x : Nat) i => x ^^^ (a / 2 ^ (8 + 3 * i) % 8)) 0

/-- A channel is populated. -/
def State.chanPresent (s : State) (c : Nat) : Bool := s.bit (R.DMC_STATUS.PRESENT c)

/-- The channel of a DRAM address. -/
def State.chanOf (s : State) (a : Nat) : Nat := if s.chanPresent 1 then chanHash a else 2 * (chanHash a % 4)

/-- DC c's interrupt: APLIC source 44 + c mod 2 of panel c / 2 (R439). -/
def State.irqDmc (s : State) (c : Nat) : Bool :=
  s.bit (R.DMC_ECC.IRQ_EN c) && (s.bit (R.DMC_ECC.CE_EVT c) || s.bit (R.DMC_ECC.UE_EVT c) || s.bit (R.DMC_ECC.THRESH_EVT c))

/-! ### Populations (R431, R432) -/

/-- What channel c holds. -/
def dimmAt (pop : List DimmInfo) (c : Nat) : DimmInfo :=
  pop.getD c { dimms := 0, ranks := 0, capGib := 0, rating := 0, fail := 0, noSpare := [] }

/-- The populated channels. -/
def populated (pop : List DimmInfo) : List Nat := (List.range 8).filter fun c => (dimmAt pop c).dimms != 0

/-- Two channels hold DIMMs of the same number, capacity, ranks and rating. -/
def sameDimms (a b : DimmInfo) : Bool := a.dimms == b.dimms && a.ranks == b.ranks && a.capGib == b.capGib && a.rating == b.rating

/-- The data rate: the highest of the set within the population's limit and the DIMMs' rating; its code, 0 for none. -/
def rateCode (d : DimmInfo) : Nat :=
  let top := min d.rating (if d.dimms = 1 then 8000 else 6400)
  if 8000 ≤ top then 5 else if 7200 ≤ top then 4 else if 6400 ≤ top then 3 else if 5600 ≤ top then 2 else if 4800 ≤ top then 1 else 0

/-- A channel's own DIMMs are of a supported kind. -/
def dimmOk (d : DimmInfo) : Bool :=
  (d.dimms == 1 || d.dimms == 2) && decide (1 ≤ d.ranks) && decide (d.ranks ≤ 4) && decide (1 ≤ d.capGib) && rateCode d != 0

/-- The controllers whose population is not one of Table 16-1; none for a supported population. -/
def offending (pop : List DimmInfo) : List Nat :=
  let p := populated pop
  let d := dimmAt pop (p.headD 0)
  let odd := p.filter fun c => !dimmOk (dimmAt pop c) || !sameDimms (dimmAt pop c) d
  if !odd.isEmpty then odd
  else if p == List.range 8 || p == [0, 2, 4, 6] then []
  else
    let out := p.filter fun c => c % 2 == 1
    if out.isEmpty then [0, 2, 4, 6].filter fun c => !p.contains c else out

/-! ### Training (R434, R440) -/

/-- A PPR entry of a controller: its bank group with its rank. -/
def State.pprGroup (s : State) (c i : Nat) : Nat :=
  s.fld (R.DMC_PPR.RANK c i) * 8 + s.fld (R.DMC_PPR.BGHI c i) * 4 + s.fld (R.DMC_PPR.BG c i)

/-- The repairs of a channel: the first pending entry of each bank group; one whose group has no spare row is marked so. -/
def State.pprRun (s : State) (c : Nat) (noSpare done : List Nat) : List Nat → State
  | [] => s
  | i :: is =>
    let g := s.pprGroup c i
    if s.bit (R.DMC_PPR.PEND c i) && !done.contains g then
      let s1 := s.clrBit (R.DMC_PPR.PEND c i)
      State.pprRun (if noSpare.contains g then s1.setBit (R.DMC_PPR.NORES c i) else s1.setBit (R.DMC_PPR.DONE c i)) c noSpare (g :: done) is
    else State.pprRun s c noSpare done is

/-- The mapped capacity of a channel among n: the device maps 2 TiB. -/
def mappedGib (d : DimmInfo) (n : Nat) : Nat := min d.capGib (2048 / n)

/-- A channel that has trained. -/
def State.chanTrain (s : State) (pop : List DimmInfo) (c : Nat) : State :=
  let d := dimmAt pop c
  let s1 := s.pprRun c d.noSpare [] (List.range 8)
  let s2 := (((s1.setBit (R.DMC_STATUS.PRESENT c)).setFld (R.DMC_STATUS.DIMMS c) d.dimms).setFld (R.DMC_STATUS.RANKS c) d.ranks).setBit
    (R.DMC_STATUS.TRAINED c)
  ((s2.setFld (R.DMC_STATUS.RATE c) (rateCode d)).setFld (R.DMC_STATUS.CAP_GIB c) (mappedGib d (populated pop).length)).setBit (pllFld (.ddr c))

/-- DDR_TRAINING_COMPLETE: the device halts without DIMMs (0x25), with an unsupported population or with a channel that fails (0x24). -/
def execDdrTrainingComplete (pop : List DimmInfo) (s : State) : Res :=
  .next (if s.sys.phase = .starting && !s.bit R.SPOOL_STATUS.DDR_DONE then
      let p := populated pop
      let bad := offending pop
      let fail := p.filter fun c => (dimmAt pop c).fail != 0
      if p.isEmpty then s.bootHalt 0x25
      else if !bad.isEmpty then (bad.foldl (fun (s : State) c => s.setFld (R.DMC_STATUS.TRAIN_FAIL c) 3) s).bootHalt 0x24
      else if !fail.isEmpty then
        (fail.foldl (fun (s : State) c => s.setFld (R.DMC_STATUS.TRAIN_FAIL c) (dimmAt pop c).fail) s).bootHalt 0x24
      else
        let s1 := p.foldl (fun (s : State) c => s.chanTrain pop c) s
        let cap := (p.map fun c => mappedGib (dimmAt pop c) p.length).sum * 2 ^ 30
        (({ s1 with dmc := { s1.dmc with cap := cap } }).setBit R.SPOOL_STATUS.DDR_DONE).bootGoOn
    else s)

/-! ### Initialisation and power-down (R435, R436) -/

/-- A controller runs: trained, and its panel not in Brumate. -/
def State.chanRuns (s : State) (c : Nat) : Bool := decide (c < 8) && s.bit (R.DMC_STATUS.TRAINED c) && s.unitState (16 + c / 2) != 2

/-- DRAM_INIT_BLOCK: the next block of the sweep. A block that an access has reached was initialised before it, so nothing that was written is lost. -/
def execDramInitBlock (c : Nat) (s : State) : Res :=
  .next (s.whenUp fun s =>
    if s.chanRuns c && !s.bit (R.DMC_STATUS.INIT_DONE c) then
      let n := smGet 0 s.dmc.initBlk c + 1
      let s1 : State := { s with dmc := { s.dmc with initBlk := smPut 0 s.dmc.initBlk c n, powerDown := smPut false s.dmc.powerDown c false } }
      if s.fld (R.DMC_STATUS.CAP_GIB c) * 1024 ≤ n then s1.setBit (R.DMC_STATUS.INIT_DONE c) else s1
    else s)

/-- DDR_POWER_DOWN. -/
def execDdrPowerDown (c : Nat) (s : State) : Res :=
  .next (s.whenUp fun s =>
    if s.chanRuns c then { s with dmc := { s.dmc with powerDown := smPut false s.dmc.powerDown c true } } else s)

/-! ### Scrub (R437–R439) -/

/-- An error log word. -/
def eccWord (l : EccLoc) (scrub : Bool) (line : Nat) : W64 :=
  BitVec.ofNat 64 (l.row % 2 ^ 18 + l.rank % 4 * 2 ^ 18 + l.bg % 8 * 2 ^ 20 + l.bank % 4 * 2 ^ 23 + l.subch % 2 * 2 ^ 25 + l.device % 16 * 2 ^ 26 +
    b2n scrub * 2 ^ 30 + 2 ^ 31 + line / 1024 % 2 ^ 32 * 2 ^ 32)

/-- CE_THRESH in force. -/
def State.ceThresh (s : State) (c : Nat) : Nat := if s.fld (R.DMC_CFG.CE_THRESH c) = 0 then 16 else s.fld (R.DMC_CFG.CE_THRESH c)

/-- A corrected error of a channel is counted and logged. -/
def State.eccCorrected (s : State) (c line : Nat) (l : EccLoc) : State :=
  let k := ((c * 4 + l.rank % 4) * 2 + l.subch % 2) * 16 + l.device % 16
  let n := smGet 0 s.dmc.ceDev k + 1
  let w := eccWord l true line
  let s1 : State := { s with dmc := { s.dmc with ceDev := smPut 0 s.dmc.ceDev k n } }
  let first := !s.bit (R.DMC_ECC.CE_EVT c) || !s.bit (R.DMC_ERRLOG0.VALID c)
  let s2 := ((s1.bump (R.DMC_ECC.CE_COUNT c) 1).setBit (R.DMC_ECC.CE_EVT c))
  let s3 := if first then s2.setReg (R.DMC_ERRLOG0.off c) w else s2
  let s4 := if n = s.ceThresh c then (s3.setReg (R.DMC_ERRLOG0.off c) w).setBit (R.DMC_ECC.THRESH_EVT c) else s3
  ((s4.bump R.SAFE_STATUS.CE_COUNT 1).safeEvt R.SAFE_STATUS.CE_EVT).endWaits

/-- An uncorrectable line of a channel is logged, and written back poisoned. -/
def State.eccUncorrectable (s : State) (c line : Nat) (l : EccLoc) : State :=
  let first := !s.bit (R.DMC_ECC.UE_EVT c) || !s.bit (R.DMC_ERRLOG1.VALID c)
  let s1 := (s.bump (R.DMC_ECC.UE_COUNT c) 1).setBit (R.DMC_ECC.UE_EVT c)
  let s2 := if first then s1.setReg (R.DMC_ERRLOG1.off c) (eccWord l true line) else s1
  if s2.poisoned line 64 then s2 else { s2 with safe := { s2.safe with poison := (line, 64) :: s2.safe.poison } }

/-- SCRUB_READ: a line of the channel, once the channel is initialised. -/
def execScrubRead (c line : Nat) (err : EccErr) (s : State) : Res :=
  .next (s.whenUp fun s =>
    let a := line / 64 * 64
    if s.chanRuns c && s.bit (R.DMC_STATUS.INIT_DONE c) && decide (a < s.dmc.cap) && s.chanOf a == c then
      let s1 : State := { s with dmc := { s.dmc with powerDown := smPut false s.dmc.powerDown c false } }
      match err with
      | .none => s1
      | .corrected l => s1.eccCorrected c a l
      | .uncorrectable l => s1.eccUncorrectable c a l
    else s)

end Sys2Proof.Machine
end

