-- ==== Sys2Proof/Machine/HartMem.lean ====
section
/-!
DEFINITION. HartMem.lean: loads, fetches and stores of harts, and the Debug Module's system-bus accesses (R29, R31, R306, R324, Tables 10-3 and 11-2). The
order in which buffered stores reach their home slices is that of the commands.
-/

namespace Sys2Proof.Machine

/-- How an access to a physical address ends: the state after it, the bytes read, and whether it is refused, reaches poison, or meets nothing. -/
inductive BusRes where
  | data (b : List Byte)
  | refused
  | poison
  | unbacked
  deriving DecidableEq, Repr

/-- `n` bytes of value 0xFF. -/
def onesBytes (n : Nat) : List Byte := List.replicate n 0xFF

/-- An access through an outbound window marks the error status of a port that is not trained (R29). -/
def State.portErr (s : State) (n : Nat) : State := s.setLink n { s.link n with err := true }

/-- A read of `n` bytes by a requester, refusals logged. -/
def State.busRead (s : State) (who : Agent) (k : AccKind) (a n : Nat) : State × BusRes :=
  match s.physKind a with
  | .ctl off =>
    if off % 8 + n ≤ 8 then
      let r := s.ctlRead who off n
      (r.1, .data (leBytes n r.2.1))
    else (s, .unbacked)
  | .outbound p =>
    if (s.link p).trained then (s, .data (s.hostRead p (Config.outbound p (a % 2 ^ 37)) n)) else (s.portErr p, .data (onesBytes n))
  | .none => (s, .unbacked)
  | _ =>
    match s.memCheck who a n k with
    | .ok => (s.drawn, .data (s.devRead a n))
    | .refused c r => (s.violation who k c r a, .refused)
    | .poison => (s, .poison)
    | .unbacked => (s, .unbacked)

/-- A write of bytes by a requester, refusals logged; none means that the write met nothing, and true that a Seam checker refused it. -/
def State.busWrite (s : State) (who : Agent) (a : Nat) (b : List Byte) : State × Option Bool :=
  match s.physKind a with
  | .ctl off => (s.ctlStore who off b.length (BitVec.ofNat 64 (leNat b)), some false)
  | .outbound p =>
    (if (s.link p).trained then s.hostWrite p (Config.outbound p (a % 2 ^ 37)) b else s.portErr p, some false)
  | .none => (s, none)
  | _ =>
    match s.memCheck who a b.length .write with
    | .refused c r => (s.violation who .write c r a, some true)
    | .unbacked => (s, none)
    | _ => ((s.devWrite a b).unpoison a b.length, some false)

/-- A region from which harts fetch: the cacheable ones (Table 11-2). -/
def State.fetchable (s : State) (a : Nat) : Bool := s.cacheable a

/-- HART_LOAD (R306): a load, or a fetch when `fetch`. A misaligned access outside the cacheable regions, a fetch outside them, a refusal, poison and an
address that nothing backs take the access fault of their kind. -/
def execHartLoad (h addr len : Nat) (fetch : Bool) (s : State) : Res :=
  .next (s.whenUp fun s =>
    let trap := if fetch then trapFetch else trapLoad
    if !s.hartRuns h || len == 0 then s
    else if fetch && !s.fetchable addr then s.hartTrap h trap
    else if !s.cacheable addr && addr % len != 0 then s.hartTrap h trap
    else
      let r := s.busRead (.hart h) (if fetch then .fetch else .read) addr len
      match r.2 with
      | .data b => r.1.emit (.readData b)
      | .unbacked => r.1.hartTrap h trap
      | _ => (r.1.emit .readPoison).hartTrap h trap)

/-- HART_STORE (R306): a refused store is dropped without an exception; a store that meets nothing, or is misaligned outside the cacheable regions, takes
a store access fault. -/
def execHartStore (h addr : Nat) (bytes : List (BitVec 8)) (s : State) : Res :=
  .next (s.whenUp fun s =>
    if !s.hartRuns h || bytes.isEmpty then s
    else if !s.cacheable addr && addr % bytes.length != 0 then s.hartTrap h trapStore
    else
      let r := s.busWrite (.hart h) addr bytes
      match r.2 with
      | none => r.1.hartTrap h trapStore
      | some _ => r.1)

/-- The bit of SEAM_DEBUG.OPEN of an invasive enable (Table 10-4). -/
def dbgBit : DbgEnable → Nat
  | .li => 0
  | .si => 2

/-- SYSTEM_BUS_ACCESS (R306, Table 10-4): with the world of the enable used, which must be open. -/
def execSystemBusAccess (en : DbgEnable) (addr : Nat) (wr : Option (List (BitVec 8))) (len : Nat) (s : State) : Res :=
  .next (s.whenUp fun s =>
    let who : Agent := .debug (en == .li)
    if !(s.fld R.SEAM_DEBUG.OPEN).testBit (dbgBit en) then s
    else match wr with
      | some b =>
        let r := s.busWrite who addr b
        if r.2 == some false then r.1 else r.1.emit .cmderr
      | none =>
        let r := s.busRead who .read addr len
        match r.2 with
        | .data b => r.1.emit (.readData b)
        | _ => r.1.emit .cmderr)

end Sys2Proof.Machine
end

