-- ==== Sys2Proof/Machine/Port.lean ====
section
/-!
DEFINITION. Port.lean: host ports: the end of link training (R15, R77) and host writes of a function's PCIe configuration space (R76, R101, R103,
R142, R145, R146, R235, R244, R405).
-/

namespace Sys2Proof.Machine

/-- HOST_PORT_TRAINED (R77): a port that is on trains, unless its lanes break R15 or the outputs are gated. -/
def execHostPortTrained (n : Nat) (s : State) : Res :=
  .next (s.whenUp fun s =>
    if decide (n < 32) && s.portOn false n && s.portPlaced false n && !s.sys.gated then s.setLink n { s.link n with trained := true } else s)

/-- NumVFs takes a value: VFs that it leaves beyond reach are reset (R76). -/
def State.setNumVfs (s : State) (f n : Nat) : State :=
  let before := (s.vfsOn (f - 0x1000)).filter fun v => s.fnReachable v
  let s1 := s.setFn f { s.fn f with numVfs := n }
  s1.flrMany (before.filter fun v => !s1.fnReachable v)

/-- MSI-X Enable takes a value. Messages held for vectors that are not masked are sent when it rises (R103). -/
def State.setMsixEn (s : State) (f : Nat) (b : Bool) : State :=
  let c := s.fn f
  let s1 := s.setFn f { c with msixEn := b }
  if b then (c.msix.filter fun e => e.2.pend && !e.2.masked).foldl (fun (s : State) e => s.unmask f e.1) s1 else s1

/-- ATS Enable takes a value: cached translations of the function end with it. -/
def State.setAtsEn (s : State) (f : Nat) (b : Bool) : State :=
  let s1 := s.setFn f { s.fn f with atsEn := b }
  if b then s1 else { s1 with shut := { s1.shut with atc := s1.shut.atc.filter fun e => e.dev || e.f != f } }

/-- PRI Enable takes a value: cleared, it frees the PRGIs that are reserved after timeouts; set again, PRI is no longer stopped (R146). -/
def State.setPriEn (s : State) (f : Nat) (b : Bool) : State :=
  let c := s.fn f
  let s1 := s.setFn f { c with priEn := b, priStopped := c.priStopped && (c.priEn || !b) }
  if b then s1 else { s1 with shut := { s1.shut with prgs := s1.shut.prgs.filter fun g => !(g.port == f - 0x1000 && g.reserved) } }

/-- A configuration write that reaches its function. The fields of a PF's own capabilities take no write on a VF. -/
def State.cfgWrite (s : State) (f : Nat) : CfgField → State
  | .numVfs n => if isPf f then s.setNumVfs f n else s
  | .msixEnable b => s.setMsixEn f b
  | .atsEnable b => s.setAtsEn f b
  | .priEnable b => if isPf f then s.setPriEn f b else s
  | .priAlloc n => if isPf f then s.setFn f { s.fn f with priAlloc := n } else s
  | .relaxedOrdering b => s.setFn f { s.fn f with relaxed := b }
  | .cplTimeout v => if isPf f then s.setFn f { s.fn f with cplTmo := v % 16 } else s
  | .ptmEnable b => if isPf f then s.setFn f { s.fn f with ptmEn := b } else s

/-- CONFIG_SPACE_WRITE (R76). -/
def execConfigSpaceWrite (f : Nat) (fld : CfgField) (s : State) : Res :=
  .next (s.whenFn f fun s => if s.fnReachable f then s.cfgWrite f fld else s)

end Sys2Proof.Machine
end

