-- ==== Sys2Proof/Machine/Dispatch.lean ====
section
/-!
DEFINITION. Dispatch.lean: one arm for each constructor of Instr; each calls the meaning of its command.
-/

namespace Sys2Proof.Machine

/-- The effect of a command on everything but the queue. -/
def exec (i : Instr) (s : State) : Host.Outcome State Fault Refusal :=
  match i with
  | .bMov e d x => Sys2Proof.Machine.execBMov e d x s
  | .bAdd e d x => Sys2Proof.Machine.execBAdd e d x s
  | .bAdc e d x => Sys2Proof.Machine.execBAdc e d x s
  | .bSub e d x => Sys2Proof.Machine.execBSub e d x s
  | .bSbc e d x => Sys2Proof.Machine.execBSbc e d x s
  | .bAnd e d x => Sys2Proof.Machine.execBAnd e d x s
  | .bOr e d x => Sys2Proof.Machine.execBOr e d x s
  | .bXor e d x => Sys2Proof.Machine.execBXor e d x s
  | .bCmp e d x => Sys2Proof.Machine.execBCmp e d x s
  | .bTst e d x => Sys2Proof.Machine.execBTst e d x s
  | .bMovi e d imm => Sys2Proof.Machine.execBMovi e d imm s
  | .bAddi e d imm => Sys2Proof.Machine.execBAddi e d imm s
  | .bAdci e d imm => Sys2Proof.Machine.execBAdci e d imm s
  | .bSubi e d imm => Sys2Proof.Machine.execBSubi e d imm s
  | .bSbci e d imm => Sys2Proof.Machine.execBSbci e d imm s
  | .bAndi e d imm => Sys2Proof.Machine.execBAndi e d imm s
  | .bOri e d imm => Sys2Proof.Machine.execBOri e d imm s
  | .bXori e d imm => Sys2Proof.Machine.execBXori e d imm s
  | .bCmpi e d imm => Sys2Proof.Machine.execBCmpi e d imm s
  | .bTsti e d imm => Sys2Proof.Machine.execBTsti e d imm s
  | .bBset e d imm => Sys2Proof.Machine.execBBset e d imm s
  | .bBclr e d imm => Sys2Proof.Machine.execBBclr e d imm s
  | .bBtgl e d imm => Sys2Proof.Machine.execBBtgl e d imm s
  | .bBtst e d imm => Sys2Proof.Machine.execBBtst e d imm s
  | .bNot e d amt => Sys2Proof.Machine.execBNot e d amt s
  | .bNeg e d amt => Sys2Proof.Machine.execBNeg e d amt s
  | .bShl e d amt => Sys2Proof.Machine.execBShl e d amt s
  | .bShr e d amt => Sys2Proof.Machine.execBShr e d amt s
  | .bSar e d amt => Sys2Proof.Machine.execBSar e d amt s
  | .bRol e d amt => Sys2Proof.Machine.execBRol e d amt s
  | .bRor e d amt => Sys2Proof.Machine.execBRor e d amt s
  | .bBrev e d amt => Sys2Proof.Machine.execBBrev e d amt s
  | .bPar e d amt => Sys2Proof.Machine.execBPar e d amt s
  | .bClz e d amt => Sys2Proof.Machine.execBClz e d amt s
  | .bSwapb e d amt => Sys2Proof.Machine.execBSwapb e d amt s
  | .bLdi e d imm => Sys2Proof.Machine.execBLdi e d imm s
  | .bLd e d b disp => Sys2Proof.Machine.execBLd e d b disp s
  | .bSt e x b disp => Sys2Proof.Machine.execBSt e x b disp s
  | .bIn e d b disp => Sys2Proof.Machine.execBIn e d b disp s
  | .bOut e x b disp => Sys2Proof.Machine.execBOut e x b disp s
  | .bBcc e cond disp => Sys2Proof.Machine.execBBcc e cond disp s
  | .bJmp e z z2 target => Sys2Proof.Machine.execBJmp e z z2 target s
  | .bJmpr e z x => Sys2Proof.Machine.execBJmpr e z x s
  | .bCall e z z2 target mask => Sys2Proof.Machine.execBCall e z z2 target mask s
  | .bCallr e z x mask => Sys2Proof.Machine.execBCallr e z x mask s
  | .bRet e z z2 mask => Sys2Proof.Machine.execBRet e z z2 mask s
  | .bIret e z z2 => Sys2Proof.Machine.execBIret e z z2 s
  | .bLdL e d b disp => Sys2Proof.Machine.execBLdL e d b disp s
  | .bStL e d b disp => Sys2Proof.Machine.execBStL e d b disp s
  | .bLdd e d b disp => Sys2Proof.Machine.execBLdd e d b disp s
  | .bStd e d b disp => Sys2Proof.Machine.execBStd e d b disp s
  | .bInL e d b disp => Sys2Proof.Machine.execBInL e d b disp s
  | .bOutL e d b disp => Sys2Proof.Machine.execBOutL e d b disp s
  | .bInd e d b disp => Sys2Proof.Machine.execBInd e d b disp s
  | .bOutd e d b disp => Sys2Proof.Machine.execBOutd e d b disp s
  | .bLdp e d b disp => Sys2Proof.Machine.execBLdp e d b disp s
  | .bStp e d b disp => Sys2Proof.Machine.execBStp e d b disp s
  | .bLdi16 e d z imm => Sys2Proof.Machine.execBLdi16 e d z imm s
  | .bAddi16 e d z imm => Sys2Proof.Machine.execBAddi16 e d z imm s
  | .bCmpi16 e d z imm => Sys2Proof.Machine.execBCmpi16 e d z imm s
  | .bCrc32c e d x => Sys2Proof.Machine.execBCrc32c e d x s
  | .bCrc32cb e d x => Sys2Proof.Machine.execBCrc32cb e d x s
  | .bCrc16 e d x => Sys2Proof.Machine.execBCrc16 e d x s
  | .bCrc16b e d x => Sys2Proof.Machine.execBCrc16b e d x s
  | .bParx e d x => Sys2Proof.Machine.execBParx e d x s
  | .bMul e d x => Sys2Proof.Machine.execBMul e d x s
  | .bMuls e d x => Sys2Proof.Machine.execBMuls e d x s
  | .bMull e d x => Sys2Proof.Machine.execBMull e d x s
  | .bDiv e d x => Sys2Proof.Machine.execBDiv e d x s
  | .bDivs e d x => Sys2Proof.Machine.execBDivs e d x s
  | .bSetf e hi lo => Sys2Proof.Machine.execBSetf e hi lo s
  | .bClrf e hi lo => Sys2Proof.Machine.execBClrf e hi lo s
  | .bEi e hi lo => Sys2Proof.Machine.execBEi e hi lo s
  | .bDi e hi lo => Sys2Proof.Machine.execBDi e hi lo s
  | .bWait e hi lo => Sys2Proof.Machine.execBWait e hi lo s
  | .bWaitTimeout e => Sys2Proof.Machine.execBWaitTimeout e s
  | .bMvbk e hi lo => Sys2Proof.Machine.execBMvbk e hi lo s
  | .bMvkb e hi lo => Sys2Proof.Machine.execBMvkb e hi lo s
  | .bTrap e hi lo => Sys2Proof.Machine.execBTrap e hi lo s
  | .bHalt e hi lo => Sys2Proof.Machine.execBHalt e hi lo s
  | .bNop e hi lo => Sys2Proof.Machine.execBNop e hi lo s
  | .bRdf e hi lo => Sys2Proof.Machine.execBRdf e hi lo s
  | .bWrf e hi lo => Sys2Proof.Machine.execBWrf e hi lo s
  | .bSync e hi lo => Sys2Proof.Machine.execBSync e hi lo s
  | .cpw e port num w => Sys2Proof.Machine.execCpw e port num w s
  | .cpr e port num w => Sys2Proof.Machine.execCpr e port num w s
  | .shaInit e w => Sys2Proof.Machine.execShaInit e w s
  | .shaUpdate e w => Sys2Proof.Machine.execShaUpdate e w s
  | .shaFinal e w => Sys2Proof.Machine.execShaFinal e w s
  | .aesEncrypt e w => Sys2Proof.Machine.execAesEncrypt e w s
  | .aesDecrypt e w => Sys2Proof.Machine.execAesDecrypt e w s
  | .aesTag e w => Sys2Proof.Machine.execAesTag e w s
  | .modmul e w => Sys2Proof.Machine.execModmul e w s
  | .modexp e w => Sys2Proof.Machine.execModexp e w s
  | .modinv e w => Sys2Proof.Machine.execModinv e w s
  | .p384Mul e w => Sys2Proof.Machine.execP384Mul e w s
  | .ntt e w => Sys2Proof.Machine.execNtt e w s
  | .intt e w => Sys2Proof.Machine.execIntt e w s
  | .polymul e w => Sys2Proof.Machine.execPolymul e w s
  | .crcRun e w => Sys2Proof.Machine.execCrcRun e w s
  | .descriptorParse e w => Sys2Proof.Machine.execDescriptorParse e w s
  | .registerWrite who tgt len data => Sys2Proof.Machine.execRegisterWrite who tgt len data s
  | .powerOnReset => Sys2Proof.Machine.execPowerOnReset s
  | .rootpllLock => Sys2Proof.Machine.execRootpllLock s
  | .warmRelease => Sys2Proof.Machine.execWarmRelease s
  | .sysRstPin lowNs => Sys2Proof.Machine.execSysRstPin lowNs s
  | .topResetWarm who data => Sys2Proof.Machine.execTopResetWarm who data s
  | .warmReset cause => Sys2Proof.Machine.execWarmReset cause s
  | .refclkLoss refLost => Sys2Proof.Machine.execRefclkLoss refLost s
  | .rootpllRelockHoldEnd => Sys2Proof.Machine.execRootpllRelockHoldEnd s
  | .pllLockLoss pll => Sys2Proof.Machine.execPllLockLoss pll s
  | .pllLockRegain pll => Sys2Proof.Machine.execPllLockRegain pll s
  | .coreclkStepDown p => Sys2Proof.Machine.execCoreclkStepDown p s
  | .coreclkStepUp p => Sys2Proof.Machine.execCoreclkStepUp p s
  | .perstAssert n => Sys2Proof.Machine.execPerstAssert n s
  | .functionLevelReset f => Sys2Proof.Machine.execFunctionLevelReset f s
  | .onafaetPacketArrival ch bytes => Sys2Proof.Machine.execOnafaetPacketArrival ch bytes s
  | .ceilingWriteRetry okInactive okActive => Sys2Proof.Machine.execCeilingWriteRetry okInactive okActive s
  | .mailboxGo ch who => Sys2Proof.Machine.execMailboxGo ch who s
  | .mailboxDoneClear ch who => Sys2Proof.Machine.execMailboxDoneClear ch who s
  | .evtPacketSend ch cls => Sys2Proof.Machine.execEvtPacketSend ch cls s
  | .devInfo r => Sys2Proof.Machine.execDevInfo r s
  | .devReset r serial delayMs => Sys2Proof.Machine.execDevReset r serial delayMs s
  | .devResetDelayExpiry => Sys2Proof.Machine.execDevResetDelayExpiry s
  | .evtSubscribe r classes => Sys2Proof.Machine.execEvtSubscribe r classes s
  | .fnConfig r ents => Sys2Proof.Machine.execFnConfig r ents s
  | .fnReset r f => Sys2Proof.Machine.execFnReset r f s
  | .qpGrant r f count first firstLocal cls => Sys2Proof.Machine.execQpGrant r f count first firstLocal cls s
  | .qpRevoke r f count first => Sys2Proof.Machine.execQpRevoke r f count first s
  | .qpQuiesce r f count first force tmoMs => Sys2Proof.Machine.execQpQuiesce r f count first force tmoMs s
  | .qpQuiesceTimeout ch tag => Sys2Proof.Machine.execQpQuiesceTimeout ch tag s
  | .qpResume r f count first => Sys2Proof.Machine.execQpResume r f count first s
  | .qpSchedFunction r index v0 v1 => Sys2Proof.Machine.execQpSchedFunction r index v0 v1 s
  | .qpSchedAccount r index v1 => Sys2Proof.Machine.execQpSchedAccount r index v1 s
  | .basteOpen r idleMs => Sys2Proof.Machine.execBasteOpen r idleMs s
  | .basteWrite r sess ents => Sys2Proof.Machine.execBasteWrite r sess ents s
  | .basteCheck r sess => Sys2Proof.Machine.execBasteCheck r sess s
  | .stitchImmediate r sess => Sys2Proof.Machine.execStitchImmediate r sess s
  | .stitchAtTime r sess time => Sys2Proof.Machine.execStitchAtTime r sess time s
  | .stitchAtMinute r sess => Sys2Proof.Machine.execStitchAtMinute r sess s
  | .stitchEdge => Sys2Proof.Machine.execStitchEdge s
  | .stitchConfirmTimeout => Sys2Proof.Machine.execStitchConfirmTimeout s
  | .basteAbort r sess => Sys2Proof.Machine.execBasteAbort r sess s
  | .basteStatus r sess => Sys2Proof.Machine.execBasteStatus r sess s
  | .basteIdleTimeout => Sys2Proof.Machine.execBasteIdleTimeout s
  | .rwbRegisterWrite h off len data => Sys2Proof.Machine.execRwbRegisterWrite h off len data s
  | .tapeRead r firstRseq max => Sys2Proof.Machine.execTapeRead r firstRseq max s
  | .tapeMapFunction r index account mflags => Sys2Proof.Machine.execTapeMapFunction r index account mflags s
  | .tapeMapTspace r index account mflags => Sys2Proof.Machine.execTapeMapTspace r index account mflags s
  | .tapeMapEnable r index mflags => Sys2Proof.Machine.execTapeMapEnable r index mflags s
  | .tapeRing r base sizeMib rflags => Sys2Proof.Machine.execTapeRing r base sizeMib rflags s
  | .twinPairPair r role peerSerial pairId => Sys2Proof.Machine.execTwinPairPair r role peerSerial pairId s
  | .twinPairUnpair r => Sys2Proof.Machine.execTwinPairUnpair r s
  | .twinPairRejoin r role peerSerial pairId => Sys2Proof.Machine.execTwinPairRejoin r role peerSerial pairId s
  | .twinPairTimeout => Sys2Proof.Machine.execTwinPairTimeout s
  | .twinSyncComplete => Sys2Proof.Machine.execTwinSyncComplete s
  | .twinHandoffSwap r time => Sys2Proof.Machine.execTwinHandoffSwap r time s
  | .twinHandoffRelease r time => Sys2Proof.Machine.execTwinHandoffRelease r time s
  | .twinHandoffReturn r time => Sys2Proof.Machine.execTwinHandoffReturn r time s
  | .handoffEdge => Sys2Proof.Machine.execHandoffEdge s
  | .releaseComplete => Sys2Proof.Machine.execReleaseComplete s
  | .twinGate r sess gate => Sys2Proof.Machine.execTwinGate r sess gate s
  | .fwWriteImage r off data flashOk => Sys2Proof.Machine.execFwWriteImage r off data flashOk s
  | .fwWriteConfig r ents flashOk => Sys2Proof.Machine.execFwWriteConfig r ents flashOk s
  | .fwActivateSlot r flashOk => Sys2Proof.Machine.execFwActivateSlot r flashOk s
  | .fwActivateWithdraw r flashOk => Sys2Proof.Machine.execFwActivateWithdraw r flashOk s
  | .recovery r slot off data flashOk => Sys2Proof.Machine.execRecovery r slot off data flashOk s
  | .recoveryResetDelay => Sys2Proof.Machine.execRecoveryResetDelay s
  | .pwrSetBask r unit croak => Sys2Proof.Machine.execPwrSetBask r unit croak s
  | .pwrSetDoze r unit croak => Sys2Proof.Machine.execPwrSetDoze r unit croak s
  | .pwrSetBrumate r unit croak => Sys2Proof.Machine.execPwrSetBrumate r unit croak s
  | .pwrSetHold r unit croak => Sys2Proof.Machine.execPwrSetHold r unit croak s
  | .pwrStatus r => Sys2Proof.Machine.execPwrStatus r s
  | .moultRunPeriod r periodS => Sys2Proof.Machine.execMoultRunPeriod r periodS s
  | .moultRunSlice r slice => Sys2Proof.Machine.execMoultRunSlice r slice s
  | .moultRunFullrate r => Sys2Proof.Machine.execMoultRunFullrate r s
  | .moultStatus r => Sys2Proof.Machine.execMoultStatus r s
  | .keySenderInstall r slot perm sender wrapped okInactive okActive => Sys2Proof.Machine.execKeySenderInstall r slot perm sender wrapped okInactive okActive s
  | .keySenderRevoke r slot okInactive okActive => Sys2Proof.Machine.execKeySenderRevoke r slot okInactive okActive s
  | .attest r nonce certs => Sys2Proof.Machine.execAttest r nonce certs s
  | .debugUnlockOpen r mask serial => Sys2Proof.Machine.execDebugUnlockOpen r mask serial s
  | .debugUnlockClose r mask serial => Sys2Proof.Machine.execDebugUnlockClose r mask serial s
  | .selvWriteAdd r sess table ents => Sys2Proof.Machine.execSelvWriteAdd r sess table ents s
  | .selvWriteModify r sess table ents => Sys2Proof.Machine.execSelvWriteModify r sess table ents s
  | .selvWriteDelete r sess table ents => Sys2Proof.Machine.execSelvWriteDelete r sess table ents s
  | .selvRead r table staged ents => Sys2Proof.Machine.execSelvRead r table staged ents s
  | .oemCommand r opcode params => Sys2Proof.Machine.execOemCommand r opcode params s
  | .hostPortTrained n => Sys2Proof.Machine.execHostPortTrained n s
  | .doorbellWrite f off len data => Sys2Proof.Machine.execDoorbellWrite f off len data s
  | .shadowPoll q => Sys2Proof.Machine.execShadowPoll q s
  | .shadowReadResult q res => Sys2Proof.Machine.execShadowReadResult q res s
  | .qpEnable f loc => Sys2Proof.Machine.execQpEnable f loc s
  | .qpDisable f loc => Sys2Proof.Machine.execQpDisable f loc s
  | .queueWindowWrite f loc reg data => Sys2Proof.Machine.execQueueWindowWrite f loc reg data s
  | .vfFstatEvtEnWrite f data => Sys2Proof.Machine.execVfFstatEvtEnWrite f data s
  | .sqEntryFetch q => Sys2Proof.Machine.execSqEntryFetch q s
  | .nop q rid => Sys2Proof.Machine.execNop q rid s
  | .move q rid => Sys2Proof.Machine.execMove q rid s
  | .fill q rid => Sys2Proof.Machine.execFill q rid s
  | .compare q rid => Sys2Proof.Machine.execCompare q rid s
  | .netTx q rid => Sys2Proof.Machine.execNetTx q rid s
  | .netRxPost q rid => Sys2Proof.Machine.execNetRxPost q rid s
  | .blkRead q rid => Sys2Proof.Machine.execBlkRead q rid s
  | .blkWrite q rid => Sys2Proof.Machine.execBlkWrite q rid s
  | .blkFlush q rid => Sys2Proof.Machine.execBlkFlush q rid s
  | .blkDiscard q rid => Sys2Proof.Machine.execBlkDiscard q rid s
  | .dirtySyncSync q rid => Sys2Proof.Machine.execDirtySyncSync q rid s
  | .dirtySyncStart q rid => Sys2Proof.Machine.execDirtySyncStart q rid s
  | .dirtySyncStop q rid => Sys2Proof.Machine.execDirtySyncStop q rid s
  | .dirtyUpdateLate v => Sys2Proof.Machine.execDirtyUpdateLate v s
  | .completionPost q => Sys2Proof.Machine.execCompletionPost q s
  | .coalTimeExpiry q => Sys2Proof.Machine.execCoalTimeExpiry q s
  | .msixVectorUnmask f vec => Sys2Proof.Machine.execMsixVectorUnmask f vec s
  | .drainComplete q => Sys2Proof.Machine.execDrainComplete q s
  | .bucketRefill => Sys2Proof.Machine.execBucketRefill s
  | .stitchDispatch port toHost => Sys2Proof.Machine.execStitchDispatch port toHost s
  | .stitchDataWritten xid => Sys2Proof.Machine.execStitchDataWritten xid s
  | .virtioNotification f u len data => Sys2Proof.Machine.execVirtioNotification f u len data s
  | .nvmeSqDoorbell f u len data => Sys2Proof.Machine.execNvmeSqDoorbell f u len data s
  | .nvmeCqDoorbell f u len data => Sys2Proof.Machine.execNvmeCqDoorbell f u len data s
  | .virtioQueueEnable f u => Sys2Proof.Machine.execVirtioQueueEnable f u s
  | .virtioFeaturesOk f feats => Sys2Proof.Machine.execVirtioFeaturesOk f feats s
  | .virtioDeviceReset f => Sys2Proof.Machine.execVirtioDeviceReset f s
  | .nvmeEnable f aqa => Sys2Proof.Machine.execNvmeEnable f aqa s
  | .nvmeDisable f => Sys2Proof.Machine.execNvmeDisable f s
  | .rxPromisc f on => Sys2Proof.Machine.execRxPromisc f on s
  | .rxAllmulti f on => Sys2Proof.Machine.execRxAllmulti f on s
  | .macTableSet f uni multi => Sys2Proof.Machine.execMacTableSet f uni multi s
  | .vlanAdd f vid => Sys2Proof.Machine.execVlanAdd f vid s
  | .mqVqPairsSet f pairs => Sys2Proof.Machine.execMqVqPairsSet f pairs s
  | .mqRssConfig f types unclassified table key => Sys2Proof.Machine.execMqRssConfig f types unclassified table key s
  | .mqHashConfig f types key => Sys2Proof.Machine.execMqHashConfig f types key s
  | .ctrlVqOther f cls cmd => Sys2Proof.Machine.execCtrlVqOther f cls cmd s
  | .virtioBlkIn q b => Sys2Proof.Machine.execVirtioBlkIn q b s
  | .virtioBlkOut q b => Sys2Proof.Machine.execVirtioBlkOut q b s
  | .virtioBlkFlush q b => Sys2Proof.Machine.execVirtioBlkFlush q b s
  | .virtioBlkDiscard q b => Sys2Proof.Machine.execVirtioBlkDiscard q b s
  | .virtioBlkWriteZeroes q b => Sys2Proof.Machine.execVirtioBlkWriteZeroes q b s
  | .virtioBlkUnsupported q b => Sys2Proof.Machine.execVirtioBlkUnsupported q b s
  | .nvmeIdentify f cid cns nsid prp => Sys2Proof.Machine.execNvmeIdentify f cid cns nsid prp s
  | .nvmeGetLogPage f cid lid len prp => Sys2Proof.Machine.execNvmeGetLogPage f cid lid len prp s
  | .nvmeSetFeatures f cid fid dw11 => Sys2Proof.Machine.execNvmeSetFeatures f cid fid dw11 s
  | .nvmeGetFeatures f cid fid => Sys2Proof.Machine.execNvmeGetFeatures f cid fid s
  | .nvmeCreateIoSq f cid qid cqid qsize prp => Sys2Proof.Machine.execNvmeCreateIoSq f cid qid cqid qsize prp s
  | .nvmeCreateIoCq f cid qid qsize vector ien prp => Sys2Proof.Machine.execNvmeCreateIoCq f cid qid qsize vector ien prp s
  | .nvmeDeleteIoSq f cid qid => Sys2Proof.Machine.execNvmeDeleteIoSq f cid qid s
  | .nvmeDeleteIoCq f cid qid => Sys2Proof.Machine.execNvmeDeleteIoCq f cid qid s
  | .nvmeAbort f cid sqid acid => Sys2Proof.Machine.execNvmeAbort f cid sqid acid s
  | .nvmeAsyncEventRequest f cid => Sys2Proof.Machine.execNvmeAsyncEventRequest f cid s
  | .nvmeDoorbellBufferConfig f cid shadow eventIdx => Sys2Proof.Machine.execNvmeDoorbellBufferConfig f cid shadow eventIdx s
  | .nvmeKeepAlive f cid => Sys2Proof.Machine.execNvmeKeepAlive f cid s
  | .nvmeRead q b => Sys2Proof.Machine.execNvmeRead q b s
  | .nvmeWrite q b => Sys2Proof.Machine.execNvmeWrite q b s
  | .nvmeFlush q b => Sys2Proof.Machine.execNvmeFlush q b s
  | .nvmeWriteZeroes q b => Sys2Proof.Machine.execNvmeWriteZeroes q b s
  | .nvmeDatasetManagement q b => Sys2Proof.Machine.execNvmeDatasetManagement q b s
  | .nvmeInvalidOpcode q b => Sys2Proof.Machine.execNvmeInvalidOpcode q b s
  | .beqWorkItem b => Sys2Proof.Machine.execBeqWorkItem b s
  | .moveToHost b r => Sys2Proof.Machine.execMoveToHost b r s
  | .moveFromHost b r => Sys2Proof.Machine.execMoveFromHost b r s
  | .moved b wid off bytes => Sys2Proof.Machine.execMoved b wid off bytes s
  | .complete b r => Sys2Proof.Machine.execComplete b r s
  | .atsCompletion tag res => Sys2Proof.Machine.execAtsCompletion tag res s
  | .pageRequestGroupSend port => Sys2Proof.Machine.execPageRequestGroupSend port s
  | .atsInvalidate f pasid addr len => Sys2Proof.Machine.execAtsInvalidate f pasid addr len s
  | .pageRequestResponse f prgi resp => Sys2Proof.Machine.execPageRequestResponse f prgi resp s
  | .priTimeout f prgi => Sys2Proof.Machine.execPriTimeout f prgi s
  | .cplTimeout tag => Sys2Proof.Machine.execCplTimeout tag s
  | .iotinvalVma did pid addr => Sys2Proof.Machine.execIotinvalVma did pid addr s
  | .iotinvalGvma did addr => Sys2Proof.Machine.execIotinvalGvma did addr s
  | .iodirInvalDdt did => Sys2Proof.Machine.execIodirInvalDdt did s
  | .iodirInvalPdt did pid => Sys2Proof.Machine.execIodirInvalPdt did pid s
  | .iofenceC av addr data => Sys2Proof.Machine.execIofenceC av addr data s
  | .shutLresp who data => Sys2Proof.Machine.execShutLresp who data s
  | .lfltTimeout xid => Sys2Proof.Machine.execLfltTimeout xid s
  | .lcDoorbell who n len data => Sys2Proof.Machine.execLcDoorbell who n len data s
  | .lcEnable who n on => Sys2Proof.Machine.execLcEnable who n on s
  | .keyLoad who data => Sys2Proof.Machine.execKeyLoad who data s
  | .keyClear who data => Sys2Proof.Machine.execKeyClear who data s
  | .frameReceive port frame fcsOk => Sys2Proof.Machine.execFrameReceive port frame fcsOk s
  | .missLookupComplete pipe => Sys2Proof.Machine.execMissLookupComplete pipe s
  | .missAge pipe idx => Sys2Proof.Machine.execMissAge pipe idx s
  | .learnIdleExpiry key => Sys2Proof.Machine.execLearnIdleExpiry key s
  | .ctTimeout zone key => Sys2Proof.Machine.execCtTimeout zone key s
  | .reinjectEntry n => Sys2Proof.Machine.execReinjectEntry n s
  | .frameTransmit port => Sys2Proof.Machine.execFrameTransmit port s
  | .pfcReceive port classes times => Sys2Proof.Machine.execPfcReceive port classes times s
  | .pfcPauseEnd port cls => Sys2Proof.Machine.execPfcPauseEnd port cls s
  | .selvSweepComplete => Sys2Proof.Machine.execSelvSweepComplete s
  | .selvTwReadLive who table index => Sys2Proof.Machine.execSelvTwReadLive who table index s
  | .selvTwReadStaged who table index => Sys2Proof.Machine.execSelvTwReadStaged who table index s
  | .selvTwAdd who table index => Sys2Proof.Machine.execSelvTwAdd who table index s
  | .selvTwModify who table index => Sys2Proof.Machine.execSelvTwModify who table index s
  | .selvTwDelete who table index => Sys2Proof.Machine.execSelvTwDelete who table index s
  | .tapeBankFlip => Sys2Proof.Machine.execTapeBankFlip s
  | .tapeIncrement account ctr bank amount => Sys2Proof.Machine.execTapeIncrement account ctr bank amount s
  | .qpSlotTick => Sys2Proof.Machine.execQpSlotTick s
  | .tapeDrain => Sys2Proof.Machine.execTapeDrain s
  | .tapeRecordWrite => Sys2Proof.Machine.execTapeRecordWrite s
  | .peerMarkerTimeout => Sys2Proof.Machine.execPeerMarkerTimeout s
  | .tapeHeadWrite who data => Sys2Proof.Machine.execTapeHeadWrite who data s
  | .peerIncrement account ctr minute amount => Sys2Proof.Machine.execPeerIncrement account ctr minute amount s
  | .cutMarker minute time => Sys2Proof.Machine.execCutMarker minute time s
  | .correctedError => Sys2Proof.Machine.execCorrectedError s
  | .dangerousFaultDetect flt => Sys2Proof.Machine.execDangerousFaultDetect flt s
  | .sequencerWatchdogExpiry seqr panel => Sys2Proof.Machine.execSequencerWatchdogExpiry seqr panel s
  | .deviceWatchdogExpiry => Sys2Proof.Machine.execDeviceWatchdogExpiry s
  | .safeWdogKick who data => Sys2Proof.Machine.execSafeWdogKick who data s
  | .safeWdogEnable who data => Sys2Proof.Machine.execSafeWdogEnable who data s
  | .safeInject who data => Sys2Proof.Machine.execSafeInject who data s
  | .voltageMonitorTrip rail => Sys2Proof.Machine.execVoltageMonitorTrip rail s
  | .galvelFlitReceive fl => Sys2Proof.Machine.execGalvelFlitReceive fl s
  | .galvelAckTimeout => Sys2Proof.Machine.execGalvelAckTimeout s
  | .galvelLinkTrained lo hi => Sys2Proof.Machine.execGalvelLinkTrained lo hi s
  | .heartbeatSend => Sys2Proof.Machine.execHeartbeatSend s
  | .heartbeatTimeout => Sys2Proof.Machine.execHeartbeatTimeout s
  | .admitEntry e a => Sys2Proof.Machine.execAdmitEntry e a s
  | .issue e ringIdx effect => Sys2Proof.Machine.execIssue e ringIdx effect s
  | .commit e c => Sys2Proof.Machine.execCommit e c s
  | .counts e pairs => Sys2Proof.Machine.execCounts e pairs s
  | .release e ringIdx => Sys2Proof.Machine.execRelease e ringIdx s
  | .wmark => Sys2Proof.Machine.execWmark s
  | .goodbye => Sys2Proof.Machine.execGoodbye s
  | .twinFaultInRise => Sys2Proof.Machine.execTwinFaultInRise s
  | .aliveLoss => Sys2Proof.Machine.execAliveLoss s
  | .settleExpiry => Sys2Proof.Machine.execSettleExpiry s
  | .reconcileRetry q => Sys2Proof.Machine.execReconcileRetry q s
  | .fenceInRise => Sys2Proof.Machine.execFenceInRise s
  | .fenceInFall => Sys2Proof.Machine.execFenceInFall s
  | .fenceHoldExpiry => Sys2Proof.Machine.execFenceHoldExpiry s
  | .mworldWrite h mode data => Sys2Proof.Machine.execMworldWrite h mode data s
  | .claimHartWrite who data => Sys2Proof.Machine.execClaimHartWrite who data s
  | .claimBlkWrite who data => Sys2Proof.Machine.execClaimBlkWrite who data s
  | .gpioWorldWrite who data => Sys2Proof.Machine.execGpioWorldWrite who data s
  | .getVersion n => Sys2Proof.Machine.execGetVersion n s
  | .getCapabilities n => Sys2Proof.Machine.execGetCapabilities n s
  | .negotiateAlgorithms n algOk => Sys2Proof.Machine.execNegotiateAlgorithms n algOk s
  | .getDigests n => Sys2Proof.Machine.execGetDigests n s
  | .getCertificate n slot off len => Sys2Proof.Machine.execGetCertificate n slot off len s
  | .challenge n slot nonce => Sys2Proof.Machine.execChallenge n slot nonce s
  | .getMeasurements n op sign nonce => Sys2Proof.Machine.execGetMeasurements n op sign nonce s
  | .keyExchange n peerPub => Sys2Proof.Machine.execKeyExchange n peerPub s
  | .finish n sid macOk => Sys2Proof.Machine.execFinish n sid macOk s
  | .keyUpdate n sid op => Sys2Proof.Machine.execKeyUpdate n sid op s
  | .spdmHeartbeat n sid => Sys2Proof.Machine.execSpdmHeartbeat n sid s
  | .endSession n sid => Sys2Proof.Machine.execEndSession n sid s
  | .ideKm n sid stream op key => Sys2Proof.Machine.execIdeKm n sid stream op key s
  | .ideIntegrityFailure n stream tag => Sys2Proof.Machine.execIdeIntegrityFailure n stream tag s
  | .htapeacctWrite h mode data => Sys2Proof.Machine.execHtapeacctWrite h mode data s
  | .mcachectlInv h mode data => Sys2Proof.Machine.execMcachectlInv h mode data s
  | .mcachectlWbinv h mode data => Sys2Proof.Machine.execMcachectlWbinv h mode data s
  | .mcachectlEnable h mode data => Sys2Proof.Machine.execMcachectlEnable h mode data s
  | .mpowerreqWrite h mode data => Sys2Proof.Machine.execMpowerreqWrite h mode data s
  | .scCtlInv who data => Sys2Proof.Machine.execScCtlInv who data s
  | .scCtlEnable who data => Sys2Proof.Machine.execScCtlEnable who data s
  | .cboClean h addr => Sys2Proof.Machine.execCboClean h addr s
  | .cboFlush h addr => Sys2Proof.Machine.execCboFlush h addr s
  | .cboInval h addr => Sys2Proof.Machine.execCboInval h addr s
  | .cboZero h addr => Sys2Proof.Machine.execCboZero h addr s
  | .bobCtlRun who e => Sys2Proof.Machine.execBobCtlRun who e s
  | .bobCtlStop who e => Sys2Proof.Machine.execBobCtlStop who e s
  | .bobImgWrite who e data => Sys2Proof.Machine.execBobImgWrite who e data s
  | .bobLmemWrite who e off data => Sys2Proof.Machine.execBobLmemWrite who e off data s
  | .rportRead e => Sys2Proof.Machine.execRportRead e s
  | .rportWrite e => Sys2Proof.Machine.execRportWrite e s
  | .mailboxSend e slot word => Sys2Proof.Machine.execMailboxSend e slot word s
  | .mailboxReceive e => Sys2Proof.Machine.execMailboxReceive e s
  | .localTimerMatch e => Sys2Proof.Machine.execLocalTimerMatch e s
  | .bobbinInterrupt e line => Sys2Proof.Machine.execBobbinInterrupt e line s
  | .storeBufferDrain e => Sys2Proof.Machine.execStoreBufferDrain e s
  | .muldivResult e => Sys2Proof.Machine.execMuldivResult e s
  | .coprocessorDone e port => Sys2Proof.Machine.execCoprocessorDone e port s
  | .thimbleStart => Sys2Proof.Machine.execThimbleStart s
  | .thimbleBodyVerdict => Sys2Proof.Machine.execThimbleBodyVerdict s
  | .bistComplete fails => Sys2Proof.Machine.execBistComplete fails s
  | .ddrTrainingComplete pop => Sys2Proof.Machine.execDdrTrainingComplete pop s
  | .bootWatchdogExpiry => Sys2Proof.Machine.execBootWatchdogExpiry s
  | .spoolUngate who data => Sys2Proof.Machine.execSpoolUngate who data s
  | .spoolRetry who data => Sys2Proof.Machine.execSpoolRetry who data s
  | .spoolFail who data => Sys2Proof.Machine.execSpoolFail who data s
  | .fuseBurnKeyhash who data => Sys2Proof.Machine.execFuseBurnKeyhash who data s
  | .fuseBurnRevoke who data => Sys2Proof.Machine.execFuseBurnRevoke who data s
  | .fuseBurnSvnT who data => Sys2Proof.Machine.execFuseBurnSvnT who data s
  | .fuseBurnSvnP who data => Sys2Proof.Machine.execFuseBurnSvnP who data s
  | .fuseBurnDebugPolicy who data => Sys2Proof.Machine.execFuseBurnDebugPolicy who data s
  | .fuseBurnFactoryKeyOff who data => Sys2Proof.Machine.execFuseBurnFactoryKeyOff who data s
  | .fuseBurnComplete took => Sys2Proof.Machine.execFuseBurnComplete took s
  | .timerTick t => Sys2Proof.Machine.execTimerTick t s
  | .timerMatch t => Sys2Proof.Machine.execTimerMatch t s
  | .tmuGo who mask => Sys2Proof.Machine.execTmuGo who mask s
  | .tmuHalt who mask => Sys2Proof.Machine.execTmuHalt who mask s
  | .tmuSnap who mask => Sys2Proof.Machine.execTmuSnap who mask s
  | .tmrCmpWrite who t data => Sys2Proof.Machine.execTmrCmpWrite who t data s
  | .tmrMatchClear who t => Sys2Proof.Machine.execTmrMatchClear who t s
  | .timerCapture t rising back => Sys2Proof.Machine.execTimerCapture t rising back s
  | .tmrCaptureRead who t fall => Sys2Proof.Machine.execTmrCaptureRead who t fall s
  | .t00Step who ns => Sys2Proof.Machine.execT00Step who ns s
  | .ptpTimestamp g m => Sys2Proof.Machine.execPtpTimestamp g m s
  | .ptpTimestampPop who g => Sys2Proof.Machine.execPtpTimestampPop who g s
  | .ptmRequest n => Sys2Proof.Machine.execPtmRequest n s
  | .ptmResponse n withTime master delay => Sys2Proof.Machine.execPtmResponse n withTime master delay s
  | .ppsFall k => Sys2Proof.Machine.execPpsFall k s
  | .pwrReqBask who data => Sys2Proof.Machine.execPwrReqBask who data s
  | .pwrReqDoze who data => Sys2Proof.Machine.execPwrReqDoze who data s
  | .pwrReqBrumate who data => Sys2Proof.Machine.execPwrReqBrumate who data s
  | .pwrReqHold who data => Sys2Proof.Machine.execPwrReqHold who data s
  | .croak who data => Sys2Proof.Machine.execCroak who data s
  | .powerEntryStart u => Sys2Proof.Machine.execPowerEntryStart u s
  | .pointOfNoReturn u => Sys2Proof.Machine.execPointOfNoReturn u s
  | .powerEntryComplete u => Sys2Proof.Machine.execPowerEntryComplete u s
  | .unitWake u => Sys2Proof.Machine.execUnitWake u s
  | .wakeReady u => Sys2Proof.Machine.execWakeReady u s
  | .laneActivityWake u => Sys2Proof.Machine.execLaneActivityWake u s
  | .croakDetect u => Sys2Proof.Machine.execCroakDetect u s
  | .holdEnter who data => Sys2Proof.Machine.execHoldEnter who data s
  | .scanRead who => Sys2Proof.Machine.execScanRead who s
  | .moultSliceTestStart slice => Sys2Proof.Machine.execMoultSliceTestStart slice s
  | .moultRedirect slice => Sys2Proof.Machine.execMoultRedirect slice s
  | .moultMarchComplete slice fails => Sys2Proof.Machine.execMoultMarchComplete slice fails s
  | .moultWayTest tile level way => Sys2Proof.Machine.execMoultWayTest tile level way s
  | .scrubRead c line err => Sys2Proof.Machine.execScrubRead c line err s
  | .dramInitBlock c => Sys2Proof.Machine.execDramInitBlock c s
  | .ddrPowerDown c => Sys2Proof.Machine.execDdrPowerDown c s
  | .thermtrip => Sys2Proof.Machine.execThermtrip s
  | .porNFall => Sys2Proof.Machine.execPorNFall s
  | .machineTimerInterrupt h kind => Sys2Proof.Machine.execMachineTimerInterrupt h kind s
  | .hartLoad h addr len fetch => Sys2Proof.Machine.execHartLoad h addr len fetch s
  | .hartStore h addr bytes => Sys2Proof.Machine.execHartStore h addr bytes s
  | .wfi h => Sys2Proof.Machine.execWfi h s
  | .configSpaceWrite f fld => Sys2Proof.Machine.execConfigSpaceWrite f fld s
  | .haltRequest t => Sys2Proof.Machine.execHaltRequest t s
  | .systemBusAccess en addr wr len => Sys2Proof.Machine.execSystemBusAccess en addr wr len s

end Sys2Proof.Machine
end

