-- ==== Sys2Proof/Safety.lean ====
section
/-!
DEFINITION. Safety.lean: the words in which statements speak: states in canonical form, a command that completes, a request that is accepted,
and what a list of commands leaves as it was.
-/

namespace Sys2Proof.Machine

/-- Device memory, host memory and the control registers are in canonical form: keys rise, and no entry holds what an unlisted key reads as. -/
def State.tidy (s : State) : Bool := s.mem.wf && s.hostMem.wf && smWf regReset s.regs

/-- A command completes: exec answers a next state, which has a property. -/
def Completes (i : Instr) (s : State) (p : State → Prop) : Prop := ∃ t : State, exec i s = .next t ∧ p t

/-- Commands leave a part of the state as it was, whenever they answer a next state. -/
def Keeps {α : Type} (is : Instr → Bool) (part : State → α) : Prop :=
  ∀ (i : Instr) (s t : State), is i = true → exec i s = .next t → part t = part s

/-- A request reaches execution: the channel is open and carries the opcode, a critical request has a key with the permission and a counter above the
stored one and within the reservation ceiling (Table 02-4, R45, R319). -/
def State.admits (s : State) (r : OnfReq) (op : Nat) : Bool :=
  s.up && s.chanOpen r.ch && (!s.recovering || op == 1 || op == 0x0603) &&
    (match opRow op with
      | some (must, chans) => chans.contains (chanCode r.ch) && (!must || r.crit)
      | none => false) &&
    (!r.crit ||
      match s.keyOf r.sender with
      | some (_, k) => decide (k.ctr < r.ctr) && (s.recovering || (s.onf.ceilPending.isNone && decide (r.ctr ≤ s.ceiling))) && s.permitted r op
      | none => false)

/-- The state in which an accepted request is executed: the sender's counter has advanced, and is on its way to the mirror (R43, R47). -/
def State.taken (s : State) (r : OnfReq) : State :=
  if r.crit then
    match s.keyOf r.sender with
    | some (slot, k) => (s.setCtr slot k r.ctr).mirrorCtr r
    | none => s
  else s

/-- An accepted request is answered once, with a status and parameters, after its effect. -/
def Answers (i : Instr) (s : State) (r : OnfReq) (op status : Nat) (params : List Byte) (p : State → Prop) : Prop :=
  ∃ u : State, exec i s = .next (u.reply r op status params) ∧ p u

/-- The session that a client opened is the one that a request names or means, and the request's sender owns it (R59, R60). -/
def State.owns (s : State) (r : OnfReq) (named : Option Nat) (ss : Session) : Prop :=
  s.openSession = some ss ∧ named.getD ss.number = ss.number ∧ ss.owner = r.sender ∧ (ss.critical = true → r.crit = true)

/-- Its staged state may change: no stitch is armed, and no paired peer is out of reach (R65, R290). -/
def State.stages (s : State) (r : OnfReq) (named : Option Nat) (ss : Session) : Prop :=
  s.owns r named ss ∧ ss.armed = none ∧ s.linkLost = false

/-- Its stitch may be asked for: checked, not armed, no peer out of reach (R64). -/
def State.stitches (s : State) (r : OnfReq) (sess : Nat) (ss : Session) : Prop :=
  s.owns r (some sess) ss ∧ ss.armed = none ∧ ss.checked = true ∧ s.linkLost = false

/-- Someone reaches a mailbox: its PF's host, or for a door whoever its tag admits (R58). -/
def State.reaches (s : State) (ch : Nat) (who : Agent) : Prop :=
  ch < 32 ∧ who = .host (0x1000 + ch) ∧ s.fnReachable (0x1000 + ch) = true ∨ (ch = 34 ∨ ch = 35) ∧ s.tagAdmits (doorTag ch) 0 who = true

/-! ### Functions and queues -/

/-- A function that its host reaches, in a panel that runs. -/
def State.fnReady (s : State) (f : Nat) : Prop := s.up = true ∧ s.panelHeld (fnHome f) = false ∧ s.fnReachable f = true

/-- A ring in a panel that runs, and not contained. -/
def State.ringReady (s : State) (q : Nat) : Prop := s.up = true ∧ s.panelHeld (ringHome q) = false ∧ (s.qp q).contained = false

/-- A native request of an opcode is fetched and may start: nothing that its FENCE waits for is open. -/
def State.starts (s : State) (q rid opc : Nat) (r : Req) : Prop :=
  s.ringReady q ∧ (s.qp q).req? rid = some r ∧ r.q = q ∧ r.rid = rid ∧ r.st = .fetched ∧ r.kind = .native ∧ sqeOpc r.sqe = opc ∧ r.preds = []

/-- A completion of a request waits on its ring. -/
def State.answered (s : State) (q rid status result : Nat) : Prop :=
  ∃ c : Cpl, c ∈ (s.qp q).cpls ∧ c.rid = rid ∧ c.status = status ∧ c.result = result

/-- The work of a function's request: a panel that runs, a personality, a ring that can fetch, and nothing that is executed again. -/
def State.takes (s : State) (q pers : Nat) : Prop :=
  s.up = true ∧ s.panelHeld (ringHome q) = false ∧ isLc q = false ∧ s.pers (s.qpFn q) = pers ∧ s.canFetch q = true ∧ s.galv.redo = []

/-- The next virtio-blk request of a split ring is taken: the avail index moves, and the request joins its ring (R83, R113). -/
def State.vblkTaken (s : State) (q ty : Nat) (b : BlkReq) : State × Req :=
  let c := s.qp q
  (s.setQp q { c with availIdx := (c.availIdx + 1) % 65536 }).admitReq q (.vblk ty) b.idx b.slots 0 [] [] (some b) [] false 0

/-- A virtio-blk driver has set DRIVER_OK, on a split ring. -/
def State.vblkTakes (s : State) (q : Nat) : Prop := s.takes q 2 ∧ s.packed q = false ∧ (s.fn (s.ringKey q)).virtio.live = true

/-- The next NVMe command of a submission queue is taken: the head moves, and the request joins its ring (R83, R113). -/
def State.nvmeTaken (s : State) (q opc : Nat) (b : BlkReq) : State × Req :=
  let c := s.qp q
  let h := (c.sqHead + 1) % c.sqDepth
  (s.setQp q { c with sqHead := h, expo := dropExpo h c.expo }).admitReq q (.nvme opc) c.sqHead 1 h [] [] (some b) [] false
    (if 1 ≤ b.nsid && b.nsid ≤ 16 then b.nsid - 1 else 0)

/-- An NVMe controller is ready, has no shadow doorbell buffer, and its queue has a command. -/
def State.nvmeTakes (s : State) (q : Nat) : Prop :=
  s.takes q 3 ∧ (s.fn (s.ringKey q)).nvme.rdy = true ∧ (s.fn (s.ringKey q)).nvme.dbOn = false ∧ (s.qp q).sqHead ≠ (s.qp q).sqTail

/-- An admin command's request. -/
def adminReq (cid : Nat) : BlkReq :=
  { cid := cid, idx := 0, nsid := 0, lba := 0, nbytes := 0, segs := [], ranges := [], statusAddr := 0, fua := false, unmap := false, slots := 1 }

/-- An admin command is taken from ring `q` of function `f`, which leaves a state `t` with its request `r`. -/
def State.adminTakes (s : State) (f cid opc q : Nat) (t : State) (r : Req) : Prop :=
  s.fnReady f ∧ s.pers f = 3 ∧ s.qpAt f 0x200 = some q ∧ s.nvmeTakes q ∧ (∀ x, x ∈ (s.qp q).reqs → x.st ≠ .walking) ∧
    s.nvmeTaken q (0x100 + opc) (adminReq cid) = (t, r)

/-! ### Registers -/

/-- The tag of the register at an offset admits a requester (R9). -/
def State.opens (s : State) (who : Agent) (off : Nat) : Prop := ∃ t : RegTag, regTag off = some t ∧ s.tagAdmits t off who = true

/-! ### Bobbin engines -/

/-- An instruction stands at the PC of an engine that issues: its words are read without a fault, which leaves a state `u` (an I-cache line may have been
filled), and nothing is under way in the multiply unit. -/
def State.stands (s : State) (e : Nat) (i : Instr) (u : State) : Prop :=
  s.up = true ∧ s.bobLive e = true ∧ (s.eng e).muldiv = [] ∧
    ∃ ws : List W16, bobWords i = some (e, ws) ∧ s.fetchAll e (s.eng e).pc ws = (u, .same)

/-- An instruction that stands at the PC has an effect. -/
def Issues (i : Instr) (s : State) (e : Nat) (k : State → State) : Prop := ∀ u : State, s.stands e i u → exec i s = .next (k u)

/-- An issued instruction of `n` words changes the registers and flags of its engine alone, and the PC moves past it. -/
def Steps (i : Instr) (s : State) (e n : Nat) (f : Engine → Engine) : Prop := Issues i s e fun u => u.setEng e ((f (u.eng e)).step n)

/-- The four flags of an engine. -/
def Engine.withFlags (x : Engine) (c z n v : Bool) : Engine := { x with c := c, z := z, n := n, v := v }

/-- Z and N of a result; C and V stay. -/
def Engine.withZn (x : Engine) (r : W16) : Engine := { x with z := decide (r = 0), n := r.msb }

end Sys2Proof.Machine
end

