-- ==== Sys2Proof/Certificates/Slice0/Obligations.lean ====
section
/-!
DEFINITION. Obligations.lean: the statements about this model. Each docstring names the rules of spec/ that the statement rests on. `Completes`,
`Answers`, `Issues`, `Steps` and the other words are those of Safety.lean.
-/

open Sys2Proof Sys2Proof.Machine

/-- A step runs the command at the front of the queue on the state with the queue's rest; on an empty queue the block idles (log entry 5, a design
choice). Every command answers a next state: no command of this table stops. The table gives no bits, so no word spells a command. -/
def Obligations.StepRunsFrontCommand : Prop :=
  ∀ (s : State) (c : Instr) (cs : List Instr) (nbits w : Nat),
    (s.pending = c :: cs → step s = exec c { s with pending := cs }) ∧
    (s.pending = [] → step s = .next s) ∧
    (∃ t : State, step s = .next t) ∧
    decodeTableWord nbits w = none ∧ s.withFetchWord nbits w = s

/-- R8, R24, R300, R389, R395, R403, R410, R431: the machine at power-on: nothing waits, every register reads its reset value, T00 reads 0 and the other
timers are halted with count 0 and an armed compare, engines are stopped, every unit is in Bask, no DRAM is mapped, hart 0 is claimed; memory and
registers are in canonical form. -/
def Obligations.ResetState : Prop :=
  let s := State.reset
  s.pending = [] ∧ s.tidy = true ∧ s.up = false ∧ s.sys.phase = .por ∧ s.sys.gated = true ∧ s.dmc.cap = 0 ∧ s.onf.session = none ∧ s.now = 0 ∧ s.role = 0 ∧
  (∀ off, s.reg off = regReset off) ∧
  s.reg R.PWR_CLAIM_HART.off = 1 ∧ s.fld R.TOP_STATUS.BOOT_CODE = 0 ∧ s.fld R.SEAM_DEBUG.OPEN = 0 ∧
  (∀ t, 1 ≤ t → t < 64 → s.tmrRunning t = false ∧ s.reg (R.TMR_COUNT.off t) = 0 ∧ s.tmrArmed t = true) ∧
  (∀ e, (s.eng e).st = .stopped ∧ (s.eng e).pc = 0) ∧
  (∀ h, (s.hart h).released = false ∧ (s.hart h).world = false) ∧
  (∀ u, s.unitState u = 0) ∧ (∀ p, s.panelHeld p = false) ∧
  (∀ q, (s.qp q).sqHead = 0 ∧ (s.qp q).reqs = [] ∧ (s.qp q).phase = true)

/-- Every step keeps the canonical form of device memory, host memory and the control registers, and takes exactly one command off the queue. -/
def Obligations.StepsKeepCanonicalForm : Prop :=
  ∀ s t : State, step s = .next t → t.pending = s.pending.drop 1 ∧ (s.tidy = true → t.tidy = true)

/-- Frames, over whole groups of commands: what a group may change; every other part of the state stays, in whatever state the command meets. A refused
register access is logged (registers) and reported (Onafaet events). -/
def Obligations.CommandFrames : Prop :=
  ∀ (i : Instr) (s t : State), exec i s = .next t →
    let bobbin : Bool := match i with
      | .bMov .. | .bAdd .. | .bAdc .. | .bSub .. | .bSbc .. | .bAnd .. | .bOr .. | .bXor .. | .bCmp .. | .bTst .. => true
      | .bMovi .. | .bAddi .. | .bAdci .. | .bSubi .. | .bSbci .. | .bAndi .. | .bOri .. | .bXori .. | .bCmpi .. => true
      | _ => false
    let timer : Bool := match i with
      | .timerTick _ | .timerMatch _ | .tmuGo .. | .tmuHalt .. | .tmuSnap .. | .tmrCmpWrite .. | .tmrMatchClear .. | .timerCapture .. | .tmrCaptureRead .. => true
      | .ptpTimestamp .. | .ptpTimestampPop .. | .ptmRequest .. | .ptmResponse .. | .ppsFall _ => true
      | _ => false
    let hart : Bool := match i with
      | .mworldWrite .. | .htapeacctWrite .. | .mcachectlInv .. | .mcachectlWbinv .. | .mcachectlEnable .. | .wfi _ => true
      | _ => false
    let spdm : Bool := match i with
      | .getVersion _ | .getCapabilities _ | .negotiateAlgorithms .. | .getDigests _ | .getCertificate .. | .challenge .. | .getMeasurements .. => true
      | .keyExchange .. | .finish .. | .keyUpdate .. | .spdmHeartbeat .. | .endSession .. | .ideKm .. => true
      | _ => false
    let unit : Bool := match i with
      | .powerEntryStart _ | .laneActivityWake _ | .croakDetect _ => true
      | _ => false
    (bobbin = true → t = { s with engs := t.engs, regs := t.regs, onf := t.onf, freeCtr := t.freeCtr }) ∧
    (timer = true → t = { s with tmu := t.tmu, regs := t.regs, onf := t.onf, out := t.out }) ∧
    (hart = true → t = { s with harts := t.harts }) ∧
    (spdm = true → t = { s with spdm := t.spdm, out := t.out, freeCtr := t.freeCtr }) ∧
    (unit = true → t = { s with pow := { s.pow with units := t.pow.units } })

/-- R352, Table 12-7, group 0x0: each register ALU operation leaves in Wd the result of its row and in C, Z, N, V the flags of its row; a flag that the
row does not list keeps its value. Carry is the inverse of borrow; V is signed overflow. R352, Table 12-7, group 0x1: the same with the second operand
imm4, zero-extended, and the bit operations, whose one flag is Z of BTST. R353, Table 12-8: the single-operand operations with AMT 0, the shifts and
rotates by AMT + 1, and the long immediates of R356. -/
def Obligations.BobbinAlu : Prop :=
  (∀ (s : State) (e : Nat) (d x : Fin 16),
    let g := s.eng e
    let a := g.getW d.val
    let b := g.getW x.val
    let ci := b2n g.c
    Steps (.bMov e d x) s e 1 (fun g => g.setW d.val b) ∧
    Steps (.bAdd e d x) s e 1 (fun g => (g.setW d.val (a + b)).withFlags (decide (65536 ≤ a.toNat + b.toNat)) (decide (a + b = 0)) (a + b).msb
      (decide ((a + b).toInt ≠ a.toInt + b.toInt))) ∧
    Steps (.bAdc e d x) s e 1 (fun g =>
      let r := a + b + BitVec.ofNat 16 ci
      (g.setW d.val r).withFlags (decide (65536 ≤ a.toNat + b.toNat + ci)) (decide (r = 0)) r.msb (decide (r.toInt ≠ a.toInt + b.toInt + ci))) ∧
    Steps (.bSub e d x) s e 1 (fun g => (g.setW d.val (a - b)).withFlags (decide (b.toNat ≤ a.toNat)) (decide (a = b)) (a - b).msb
      (decide ((a - b).toInt ≠ a.toInt - b.toInt))) ∧
    Steps (.bSbc e d x) s e 1 (fun g =>
      let r := a - b - BitVec.ofNat 16 (1 - ci)
      (g.setW d.val r).withFlags (decide (b.toNat + (1 - ci) ≤ a.toNat)) (decide (r = 0)) r.msb
        (decide (r.toInt ≠ a.toInt - b.toInt - (1 - ci : Nat)))) ∧
    Steps (.bAnd e d x) s e 1 (fun g => (g.setW d.val (a &&& b)).withZn (a &&& b)) ∧
    Steps (.bOr e d x) s e 1 (fun g => (g.setW d.val (a ||| b)).withZn (a ||| b)) ∧
    Steps (.bXor e d x) s e 1 (fun g => (g.setW d.val (a ^^^ b)).withZn (a ^^^ b)) ∧
    Steps (.bCmp e d x) s e 1 (fun g => g.withFlags (decide (b.toNat ≤ a.toNat)) (decide (a = b)) (a - b).msb
      (decide ((a - b).toInt ≠ a.toInt - b.toInt))) ∧
    Steps (.bTst e d x) s e 1 (fun g => g.withZn (a &&& b))) ∧
  (∀ (s : State) (e : Nat) (d m : Fin 16),
    let g := s.eng e
    let a := g.getW d.val
    let b := BitVec.ofNat 16 m.val
    let ci := b2n g.c
    Steps (.bMovi e d m) s e 1 (fun g => g.setW d.val b) ∧
    Steps (.bAddi e d m) s e 1 (fun g => (g.setW d.val (a + b)).withFlags (decide (65536 ≤ a.toNat + m.val)) (decide (a + b = 0)) (a + b).msb
      (decide ((a + b).toInt ≠ a.toInt + m.val))) ∧
    Steps (.bAdci e d m) s e 1 (fun g =>
      let r := a + b + BitVec.ofNat 16 ci
      (g.setW d.val r).withFlags (decide (65536 ≤ a.toNat + m.val + ci)) (decide (r = 0)) r.msb (decide (r.toInt ≠ a.toInt + m.val + ci))) ∧
    Steps (.bSubi e d m) s e 1 (fun g => (g.setW d.val (a - b)).withFlags (decide (m.val ≤ a.toNat)) (decide (a = b)) (a - b).msb
      (decide ((a - b).toInt ≠ a.toInt - m.val))) ∧
    Steps (.bSbci e d m) s e 1 (fun g =>
      let r := a - b - BitVec.ofNat 16 (1 - ci)
      (g.setW d.val r).withFlags (decide (m.val + (1 - ci) ≤ a.toNat)) (decide (r = 0)) r.msb (decide (r.toInt ≠ a.toInt - m.val - (1 - ci : Nat)))) ∧
    Steps (.bAndi e d m) s e 1 (fun g => (g.setW d.val (a &&& b)).withZn (a &&& b)) ∧
    Steps (.bOri e d m) s e 1 (fun g => (g.setW d.val (a ||| b)).withZn (a ||| b)) ∧
    Steps (.bXori e d m) s e 1 (fun g => (g.setW d.val (a ^^^ b)).withZn (a ^^^ b)) ∧
    Steps (.bCmpi e d m) s e 1 (fun g => g.withFlags (decide (m.val ≤ a.toNat)) (decide (a = b)) (a - b).msb
      (decide ((a - b).toInt ≠ a.toInt - m.val))) ∧
    Steps (.bTsti e d m) s e 1 (fun g => g.withZn (a &&& b)) ∧
    Steps (.bBset e d m) s e 1 (fun g => g.setW d.val (a ||| BitVec.twoPow 16 m.val)) ∧
    Steps (.bBclr e d m) s e 1 (fun g => g.setW d.val (a &&& ~~~ BitVec.twoPow 16 m.val)) ∧
    Steps (.bBtgl e d m) s e 1 (fun g => g.setW d.val (a ^^^ BitVec.twoPow 16 m.val)) ∧
    Steps (.bBtst e d m) s e 1 (fun g => { g with z := !a.getLsbD m.val })) ∧
  (∀ (s : State) (e : Nat) (d m : Fin 16) (i8 : BitVec 8) (imm : BitVec 16),
    let g := s.eng e
    let a := g.getW d.val
    let k := m.val + 1
    Steps (.bNot e d 0) s e 1 (fun g => (g.setW d.val (~~~ a)).withZn (~~~ a)) ∧
    Steps (.bNeg e d 0) s e 1 (fun g => (g.setW d.val (-a)).withFlags (decide (a = 0)) (decide (a = 0)) (-a).msb (decide (a = 0x8000))) ∧
    Steps (.bShl e d m) s e 1 (fun g =>
      let r := BitVec.ofNat 16 (a.toNat * 2 ^ k)
      { (g.setW d.val r).withZn r with c := a.getLsbD (16 - k) }) ∧
    Steps (.bShr e d m) s e 1 (fun g =>
      let r := BitVec.ofNat 16 (a.toNat / 2 ^ k)
      { (g.setW d.val r).withZn r with c := a.getLsbD (k - 1) }) ∧
    Steps (.bSar e d m) s e 1 (fun g =>
      let r := BitVec.ofInt 16 (a.toInt / 2 ^ k)
      { (g.setW d.val r).withZn r with c := a.getLsbD (k - 1) }) ∧
    Steps (.bRol e d m) s e 1 (fun g => { (g.setW d.val (a.rotateLeft k)).withZn (a.rotateLeft k) with c := a.getLsbD (16 - k) }) ∧
    Steps (.bRor e d m) s e 1 (fun g => { (g.setW d.val (a.rotateRight k)).withZn (a.rotateRight k) with c := a.getLsbD (k - 1) }) ∧
    Steps (.bBrev e d 0) s e 1 (fun g => (g.setW d.val a.reverse).withZn a.reverse) ∧
    Steps (.bPar e d 0) s e 1 (fun g => (g.setW d.val (BitVec.ofNat 16 (par16 a))).withZn (BitVec.ofNat 16 (par16 a))) ∧
    Steps (.bClz e d 0) s e 1 (fun g => (g.setW d.val (BitVec.ofNat 16 (clz16 a))).withZn (BitVec.ofNat 16 (clz16 a))) ∧
    Steps (.bSwapb e d 0) s e 1 (fun g =>
      let r := a.extractLsb' 0 8 ++ a.extractLsb' 8 8
      (g.setW d.val r).withZn r) ∧
    Steps (.bLdi e d i8) s e 1 (fun g => g.setW d.val (i8.zeroExtend 16)) ∧
    Steps (.bLdi16 e d 0 imm) s e 2 (fun g => g.setW d.val imm) ∧
    Steps (.bAddi16 e d 0 imm) s e 2 (fun g => (g.setW d.val (a + imm)).withFlags (decide (65536 ≤ a.toNat + imm.toNat)) (decide (a + imm = 0)) (a + imm).msb
      (decide ((a + imm).toInt ≠ a.toInt + imm.toInt))) ∧
    Steps (.bCmpi16 e d 0 imm) s e 2 (fun g => g.withFlags (decide (imm.toNat ≤ a.toNat)) (decide (a = imm)) (a - imm).msb
      (decide ((a - imm).toInt ≠ a.toInt - imm.toInt))))

/-- R357: the CRC and parity steps take the bytes of Ws, low byte first, and change no flag. R358: an op of group 0xC issues, and its result waits in the
unit until MULDIV_RESULT writes it; the flags stay. R358: an instruction that names a register with a result under way, and a second op of the group,
first lets the result land. -/
def Obligations.BobbinMultiplyAndCrc : Prop :=
  (∀ (s : State) (e : Nat) (d x : Fin 16),
    let g := s.eng e
    let lo : Byte := (g.getW x.val).extractLsb' 0 8
    let hi : Byte := (g.getW x.val).extractLsb' 8 8
    let pair : Nat := (g.getW d.val).toNat + 65536 * (g.getW (d.val + 1)).toNat
    let put : Nat → Engine → Engine := fun v g => (g.setW d.val (BitVec.ofNat 16 v)).setW (d.val + 1) (BitVec.ofNat 16 (v / 65536))
    let one : Nat → Nat := fun v => if v % 2 = 1 then v / 2 ^^^ 0x82F63B78 else v / 2
    let eight : Nat → Nat := fun v => one (one (one (one (one (one (one (one v)))))))
    let onel : Nat → Nat := fun v => if v / 32768 % 2 = 1 then v * 2 % 65536 ^^^ 0x1021 else v * 2 % 65536
    let eightl : Nat → Nat := fun v => onel (onel (onel (onel (onel (onel (onel (onel v)))))))
    let w := (g.getW d.val).toNat
    (d.val % 2 = 0 → Steps (.bCrc32c e d x) s e 1 (put (eight (eight (pair ^^^ lo.toNat) ^^^ hi.toNat)))) ∧
    (d.val % 2 = 0 → Steps (.bCrc32cb e d x) s e 1 (put (eight (pair ^^^ lo.toNat)))) ∧
    Steps (.bCrc16 e d x) s e 1 (fun g => g.setW d.val (BitVec.ofNat 16 (eightl (eightl (w ^^^ lo.toNat * 256) ^^^ hi.toNat * 256)))) ∧
    Steps (.bCrc16b e d x) s e 1 (fun g => g.setW d.val (BitVec.ofNat 16 (eightl (w ^^^ lo.toNat * 256)))) ∧
    Steps (.bParx e d x) s e 1 (fun g => g.setW d.val (g.getW d.val ^^^ BitVec.ofNat 16 (popCount 16 (s.eng e |>.getW x.val).toNat % 2)))) ∧
  (∀ (s : State) (e : Nat) (d x : Fin 16),
    let g := s.eng e
    let a := g.getW d.val
    let b := g.getW x.val
    let n := a.toNat + 65536 * (g.getW (d.val + 1)).toNat
    let sn : Int := if n < 2 ^ 31 then n else (n : Int) - 2 ^ 32
    let pend : W16 → W16 → Engine → Engine := fun lo hi g => { g with muldiv := [(d.val, lo), (d.val + 1, hi)] }
    (d.val % 2 = 0 → d.val ≠ 14 →
      Steps (.bMul e d x) s e 1 (pend (BitVec.ofNat 16 (a.toNat * b.toNat)) (BitVec.ofNat 16 (a.toNat * b.toNat / 65536))) ∧
      Steps (.bMuls e d x) s e 1 (pend (BitVec.ofInt 16 (a.toInt * b.toInt)) (BitVec.ofInt 16 (a.toInt * b.toInt / 65536))) ∧
      Steps (.bDiv e d x) s e 1 (if b = 0 ∨ 0xFFFF < n / b.toNat then pend 0xFFFF 0xFFFF
        else pend (BitVec.ofNat 16 (n / b.toNat)) (BitVec.ofNat 16 (n % b.toNat))) ∧
      Steps (.bDivs e d x) s e 1 (if b = 0 ∨ sn.tdiv b.toInt < -32768 ∨ 32767 < sn.tdiv b.toInt then pend 0x7FFF 0
        else pend (BitVec.ofInt 16 (sn.tdiv b.toInt)) (BitVec.ofInt 16 (sn.tmod b.toInt)))) ∧
    Steps (.bMull e d x) s e 1 (fun g => { g with muldiv := [(d.val, BitVec.ofNat 16 (a.toNat * b.toNat))] }) ∧
    (s.up = true → e < 32 → s.engHeld e = false → g.muldiv = [(d.val, a), (d.val + 1, b)] →
      exec (.muldivResult e) s = .next (s.setEng e { (g.setW d.val a).setW (d.val + 1) b with muldiv := [] }))) ∧
  (∀ (s u : State) (e : Nat) (d x : Fin 16) (r : Nat) (v : W16),
    s.up = true → s.bobLive e = true → (u.eng e).muldiv = [(r, v)] →
    let landed := u.setEng e { (u.eng e).setW r v with muldiv := [] }
    (s.fetchAll e (s.eng e).pc [bw 0 0 d x] = (u, .same) →
      (r = d.val ∨ r = x.val → exec (.bMov e d x) s = .next (landed.setEng e (((landed.eng e).setW d.val ((landed.eng e).getW x.val)).step 1))) ∧
      (r ≠ d.val → r ≠ x.val → exec (.bMov e d x) s = .next (u.setEng e (((u.eng e).setW d.val ((u.eng e).getW x.val)).step 1)))) ∧
    (s.fetchAll e (s.eng e).pc [bw 0xC 2 d x] = (u, .same) →
      exec (.bMull e d x) s = .next (landed.setEng e { (landed.eng e).step 1 with
        muldiv := [(d.val, BitVec.ofNat 16 (((landed.eng e).getW d.val).toNat * ((landed.eng e).getW x.val).toNat))] })))

/-- R346, R356, R362 to R364: every load and store, at its address of Wb and the displacement: what the access gives is loaded, a store enters the buffer,
and a fault of the access takes vector 3 with its cause and address and changes no register. R345, R356: LDP reads I-space, local SRAM below 0x1000;
STP on a privileged engine writes local instruction SRAM, above it faults with cause IMAGE (9), and on a Pattern engine it takes vector 2. R346, R347:
where a D-space word lies. -/
def Obligations.BobbinMemory : Prop :=
  (∀ (s u : State) (e : Nat) (d b disp : Fin 16) (long : BitVec 16),
    let x := s.eng e
    let sh := ((x.getW b.val).toNat + disp.val) % 65536
    let lg := ((x.getW b.val).toNat + long.toNat) % 65536
    (s.stands e (.bLd e d b disp) u → ∀ v : State,
      (∀ w, u.dLoadAt e 1 (u.dLoc e sh) = (v, .ok [w]) → exec (.bLd e d b disp) s = .next (v.setEng e (((v.eng e).setW d.val w).step 1))) ∧
      (∀ c a, u.dLoadAt e 1 (u.dLoc e sh) = (v, .error (c, a)) → exec (.bLd e d b disp) s = .next (v.bobFault e 3 c a))) ∧
    (s.stands e (.bLdL e d b long) u → ∀ v : State,
      (∀ w, u.dLoadAt e 1 (u.dLoc e lg) = (v, .ok [w]) → exec (.bLdL e d b long) s = .next (v.setEng e (((v.eng e).setW d.val w).step 2))) ∧
      (∀ c a, u.dLoadAt e 1 (u.dLoc e lg) = (v, .error (c, a)) → exec (.bLdL e d b long) s = .next (v.bobFault e 3 c a))) ∧
    (s.stands e (.bSt e d b disp) u → ∀ v : State,
      (u.dStoreAt e [x.getW d.val] (u.dLoc e sh) = (v, none) → exec (.bSt e d b disp) s = .next (v.setEng e ((v.eng e).step 1))) ∧
      (∀ c a, u.dStoreAt e [x.getW d.val] (u.dLoc e sh) = (v, some (c, a)) → exec (.bSt e d b disp) s = .next (v.bobFault e 3 c a))) ∧
    (s.stands e (.bStL e d b long) u → ∀ v : State,
      (u.dStoreAt e [x.getW d.val] (u.dLoc e lg) = (v, none) → exec (.bStL e d b long) s = .next (v.setEng e ((v.eng e).step 2))) ∧
      (∀ c a, u.dStoreAt e [x.getW d.val] (u.dLoc e lg) = (v, some (c, a)) → exec (.bStL e d b long) s = .next (v.bobFault e 3 c a))) ∧
    (d.val % 2 = 0 →
      (s.stands e (.bLdd e d b long) u → ∀ v : State,
        (∀ lo hi, u.dLoadPair e lg = (v, .ok [lo, hi]) →
          exec (.bLdd e d b long) s = .next (v.setEng e ((((v.eng e).setW d.val lo).setW (d.val + 1) hi).step 2))) ∧
        (∀ c a, u.dLoadPair e lg = (v, .error (c, a)) → exec (.bLdd e d b long) s = .next (v.bobFault e 3 c a))) ∧
      (s.stands e (.bStd e d b long) u → ∀ v : State,
        (u.dStorePair e lg (x.getW d.val) (x.getW (d.val + 1)) = (v, none) → exec (.bStd e d b long) s = .next (v.setEng e ((v.eng e).step 2))) ∧
        (∀ c a, u.dStorePair e lg (x.getW d.val) (x.getW (d.val + 1)) = (v, some (c, a)) →
          exec (.bStd e d b long) s = .next (v.bobFault e 3 c a))))) ∧
  (∀ (s u : State) (e : Nat) (d b : Fin 16) (disp : BitVec 16),
    let x := s.eng e
    let a := ((x.getW b.val).toNat + disp.toNat) % 65536
    (s.stands e (.bLdp e d b disp) u →
      (a < 0x1000 → exec (.bLdp e d b disp) s = .next (u.setEng e (((u.eng e).setW d.val (smGet 0 x.imem a)).step 2))) ∧
      (∀ (v : State) (w : W16), u.iSpace e a = (v, .ok w) → exec (.bLdp e d b disp) s = .next (v.setEng e (((v.eng e).setW d.val w).step 2))) ∧
      (∀ (v : State) (c : Nat), u.iSpace e a = (v, .error c) → exec (.bLdp e d b disp) s = .next (v.bobFault e 5 c a))) ∧
    (s.stands e (.bStp e d b disp) u →
      (6 ≤ e % 8 → a < 0x1000 →
        exec (.bStp e d b disp) s = .next (u.setEng e ({ u.eng e with imem := smPut 0 (u.eng e).imem a (x.getW d.val) }.step 2))) ∧
      (6 ≤ e % 8 → 0x1000 ≤ a → exec (.bStp e d b disp) s = .next (u.bobFault e 5 9 a)) ∧
      (e % 8 < 6 → exec (.bStp e d b disp) s = .next (u.bobPriv e)))) ∧
  (∀ (s : State) (e a : Nat), a < 0x10000 →
    let x := s.eng e
    let p := (x.bank0 + 65536 * x.bank1) * 0x10000 + 2 * (a - 0x8000)
    (a < 0x6000 → s.dLoc e a = .loc a) ∧
    (0x6000 ≤ a → a < 0x8000 → s.dLoc e a = .mem false (0x20010000000 + x.bank3 * 0x4000 + 2 * (a - 0x6000))) ∧
    (0x8000 ≤ a → e % 8 < 6 → s.dLoc e a = .fault 1 a) ∧
    (0x8000 ≤ a → 6 ≤ e % 8 →
      s.dLoc e a = if p < 0x20000000000 ∧ p < s.dmc.cap ∨ 0x20000000000 ≤ p ∧ p < 0x20000400000 ∨ 0x20010000000 ≤ p ∧ p < 0x20010200000 ∨
        0x20020000000 ≤ p ∧ p < 0x20024000000 then .mem true p else .fault 2 p))

/-- R364: a load of words that were just stored gives them, from the buffer, and the oldest entry of the buffer drains to local SRAM or to memory. R364:
STORE_BUFFER_DRAIN: the oldest entry leaves the buffer of a running engine and is written at the place it was given at issue. -/
def Obligations.BobbinStoreBuffer : Prop :=
  (∀ (s t : State) (e : Nat) (ws : List W16) (l : DLoc), ws ≠ [] → s.dStoreAt e ws l = (t, none) →
    t.dLoadAt e ws.length l = (t, .ok ws)) ∧
  (∀ (s : State) (e a : Nat) (w : W16) (win : Bool) (rest : List StoreEnt), s.up = true → e < 32 → (s.eng e).st = .running → (s.eng e).stopReq = false →
    (a < 65536 → (s.eng e).sbuf = { window := win, loc := a, words := [w] } :: rest →
      ∃ t, exec (.storeBufferDrain e) s = .next t ∧ t.eng e = { s.eng e with sbuf := rest, dmem := smPut 0 (s.eng e).dmem a w } ∧
        t.mem = s.mem ∧ t.regs = s.regs ∧ ∀ i, i ≠ e → t.eng i = s.eng i) ∧
    ((s.eng e).sbuf = { window := win, loc := 65536 + a, words := [w] } :: rest →
      ∃ t, exec (.storeBufferDrain e) s = .next t ∧ (t.eng e).sbuf = rest ∧ (t.eng e).dmem = (s.eng e).dmem ∧ t.regs = s.regs ∧
        t.mem = Memory.writeN s.mem (2 * a) [w.extractLsb' 0 8, w.extractLsb' 8 8]) ∧
    ((s.eng e).sbuf = [{ window := win, loc := 65536 + a, words := [w] }] →
      ∃ t, exec (.storeBufferDrain e) (s.setEng e { s.eng e with st := .waiting, waitOn := some .sync }) = .next t ∧
        (t.eng e).st = .running ∧ (t.eng e).waitOn = none ∧ (t.eng e).pc = ((s.eng e).pc + 1) % 65536 ∧ (t.eng e).sbuf = []) ∧
    ((s.eng e).sbuf = [{ window := win, loc := 65536 + a, words := [w] }] →
      ∃ t, exec (.storeBufferDrain e) (s.setEng e { s.eng e with stopReq := true }) = .next t ∧ (t.eng e).st = .stopped ∧ (t.eng e).sbuf = []))

/-- R348, R356, R362: IN and OUT at the I/O-space address of Wb and the displacement; a fault takes vector 4. A pair at an odd address faults with cause
ODD (4). R348, Table 12-4: what local I/O words read, and what writing them does; R343, R348: the window of control space, by engine and by offset.
R348, R349: the mailbox and the register port of an engine. -/
def Obligations.BobbinInputOutput : Prop :=
  (∀ (s u : State) (e : Nat) (d b disp : Fin 16) (long : BitVec 16),
    let x := s.eng e
    let sh := ((x.getW b.val).toNat + disp.val) % 65536
    let lg := ((x.getW b.val).toNat + long.toNat) % 65536
    (s.stands e (.bIn e d b disp) u → ∀ v : State,
      (∀ w, u.ioIn e sh = (v, .ok w) → exec (.bIn e d b disp) s = .next (v.setEng e (((v.eng e).setW d.val w).step 1))) ∧
      (∀ c, u.ioIn e sh = (v, .error c) → exec (.bIn e d b disp) s = .next (v.bobFault e 4 c sh))) ∧
    (s.stands e (.bInL e d b long) u → ∀ v : State,
      (∀ w, u.ioIn e lg = (v, .ok w) → exec (.bInL e d b long) s = .next (v.setEng e (((v.eng e).setW d.val w).step 2))) ∧
      (∀ c, u.ioIn e lg = (v, .error c) → exec (.bInL e d b long) s = .next (v.bobFault e 4 c lg))) ∧
    (s.stands e (.bOut e d b disp) u → ∀ v : State,
      (u.ioOut e sh (x.getW d.val) = (v, none) → exec (.bOut e d b disp) s = .next (v.setEng e ((v.eng e).step 1))) ∧
      (∀ c, u.ioOut e sh (x.getW d.val) = (v, some c) → exec (.bOut e d b disp) s = .next (v.bobFault e 4 c sh))) ∧
    (s.stands e (.bOutL e d b long) u → ∀ v : State,
      (u.ioOut e lg (x.getW d.val) = (v, none) → exec (.bOutL e d b long) s = .next (v.setEng e ((v.eng e).step 2))) ∧
      (∀ c, u.ioOut e lg (x.getW d.val) = (v, some c) → exec (.bOutL e d b long) s = .next (v.bobFault e 4 c lg))) ∧
    (d.val % 2 = 0 →
      (s.stands e (.bInd e d b long) u →
        (lg % 2 = 1 → exec (.bInd e d b long) s = .next (u.bobFault e 4 4 lg)) ∧
        (lg % 2 = 0 → ∀ (v z : State) (lo hi : W16), u.ioIn e lg = (v, .ok lo) → v.ioIn e (lg + 1) = (z, .ok hi) →
          exec (.bInd e d b long) s = .next (z.setEng e ((((z.eng e).setW d.val lo).setW (d.val + 1) hi).step 2)))) ∧
      (s.stands e (.bOutd e d b long) u →
        (lg % 2 = 1 → exec (.bOutd e d b long) s = .next (u.bobFault e 4 4 lg)) ∧
        (lg % 2 = 0 → ∀ (v z : State), u.ioOut e lg (x.getW d.val) = (v, none) → v.ioOut e (lg + 1) (x.getW (d.val + 1)) = (z, none) →
          exec (.bOutd e d b long) s = .next (z.setEng e ((z.eng e).step 2)))))) ∧
  (∀ (s : State) (e : Nat) (v : W16), e < 32 →
    let x := s.eng e
    let p := b2n (decide (6 ≤ e % 8))
    s.ioIn e 0x0000 = (s, .ok (BitVec.ofNat 16 (e + 32 * p))) ∧
    s.ioIn e 0x0001 = (s, .ok (BitVec.ofNat 16 x.cause)) ∧
    s.ioIn e 0x0002 = (s, .ok (BitVec.ofNat 16 x.faultAddr)) ∧
    s.ioIn e 0x0003 = (s, .ok (BitVec.ofNat 16 (x.faultAddr / 65536))) ∧
    s.ioIn e 0x0011 = (s, .ok (BitVec.ofNat 16 x.irqEn)) ∧
    s.ioOut e 0x0011 v = (s.setEng e { x with irqEn := v.toNat }, none) ∧
    s.ioOut e 0x0018 v = (s.setEng e { x with waitEn := v.toNat }, none) ∧
    (∀ a, (0x5 ≤ a ∧ a ≤ 0x7 ∨ 0xC ≤ a ∧ a ≤ 0xF ∨ 0x14 ≤ a ∧ a ≤ 0x17 ∨ 0x19 ≤ a ∧ a ≤ 0x1F ∨ 0x24 ≤ a ∧ a ≤ 0x3F ∨ 0x4B ≤ a ∧ a ≤ 0xFF ∨ 0x10A ≤ a ∧ a < 0x4000) →
      s.ioIn e a = (s, .error 2) ∧ s.ioOut e a v = (s, some 2)) ∧
    (∀ a, 0x4000 ≤ a → a < 0x10000 →
      (e % 8 < 6 → s.ioIn e a = (s, .error 1) ∧ s.ioOut e a v = (s, some 1)) ∧
      (6 ≤ e % 8 → 0xFFFFFFF < x.bank2 * 0x10000 + 2 * (a - 0x4000) → s.ioIn e a = (s, .error 2) ∧ s.ioOut e a v = (s, some 2)))) ∧
  (∀ (s : State) (e slot : Nat) (w : W16), s.up = true → s.bobLive e = true → slot < 8 →
    let dst := e / 8 * 8 + slot
    let x := s.eng e
    (e ≠ dst → (s.eng dst).mbx.length < 8 → ∃ t, exec (.mailboxSend e slot w) s = .next t ∧ (t.eng dst).mbx = (s.eng dst).mbx ++ [w] ∧ t.eng e = x) ∧
    (e ≠ dst → 8 ≤ (s.eng dst).mbx.length → exec (.mailboxSend e slot w) s = .next (s.setEng e { x with mbxDrop := true })) ∧
    (∀ r, x.mbx = w :: r → ∃ t, exec (.mailboxReceive e) s = .next t ∧ t.eng e = { x with mbx := r } ∧
      t.out = .readData [w.extractLsb' 0 8, w.extractLsb' 8 8] :: s.out) ∧
    (x.mbx = [] → exec (.mailboxReceive e) s = .next (s.emit (.readData [0, 0]))) ∧
    (x.rpCmd = 1 → ∀ (t : State) (d : Nat) (ok : Bool), s.ctlRead (.bobbin e) (x.rpOff / 8 * 8) 8 = (t, d, ok) →
      exec (.rportRead e) s = .next (t.setEng e { t.eng e with rpData := d, rpRefused := !ok, rpCmd := 0 })) ∧
    (x.rpCmd = 2 → (∃ g, s.ctlJudge (.bobbin e) true (x.rpOff / 8 * 8) = .refused g) →
      ∃ t, exec (.rportWrite e) s = .next t ∧ (t.eng e).rpRefused = true ∧ (t.eng e).rpCmd = 0) ∧
    (x.rpCmd = 2 → s.ctlJudge (.bobbin e) true (x.rpOff / 8 * 8) = .ok → ∀ t : State,
      s.ctlStore (.bobbin e) (x.rpOff / 8 * 8) 8 (BitVec.ofNat 64 x.rpData) = t →
      exec (.rportWrite e) s = .next (t.setEng e { t.eng e with rpRefused := false, rpCmd := 0 })))

/-- R354, R355: branches and jumps; the fifteen conditions of Table 12-9. R355, R350: CALL and CALLR push the return address, then the registers that the
mask names from bit 15 down; RET pops them from bit 0 up and then the PC; IRET pops FLAGS and the PC. What does not fit local D SRAM faults with cause
STACK (7). -/
def Obligations.BobbinControlFlow : Prop :=
  (∀ (s : State) (e : Nat) (c d : Fin 16) (disp : BitVec 8) (target : BitVec 16),
    let g := s.eng e
    let holds : Bool := [g.z, !g.z, g.c, !g.c, g.n, !g.n, g.v, !g.v, g.c && !g.z, !g.c || g.z, g.n == g.v, g.n != g.v,
      !g.z && g.n == g.v, g.z || g.n != g.v, true].getD c.val false
    (c.val ≠ 15 → Issues (.bBcc e c disp) s e fun u => u.setEng e { u.eng e with
      pc := if holds then (((g.pc : Int) + 1 + disp.toInt) % 65536).toNat else (g.pc + 1) % 65536, eiHold := false }) ∧
    (c.val = 15 → Issues (.bBcc e c disp) s e fun u => u.bobIllegal e) ∧
    Issues (.bJmp e 0 0 target) s e (fun u => u.setEng e { u.eng e with pc := target.toNat, eiHold := false }) ∧
    Issues (.bJmpr e 0 d) s e (fun u => u.setEng e { u.eng e with pc := (g.getW d.val).toNat, eiHold := false })) ∧
  (∀ (s u : State) (e : Nat) (d : Fin 16) (target mask : BitVec 16),
    let x := s.eng e
    let sp := (x.getW 15).toNat
    let named := (List.range 16).filter fun i => mask.getLsbD i
    (s.stands e (.bCall e 0 0 target mask) u →
      let t := (u.push e (BitVec.ofNat 16 (x.pc + 3))).pushAll e named.reverse
      (named.length + 1 ≤ sp → sp ≤ 0x6000 →
        exec (.bCall e 0 0 target mask) s = .next (t.setEng e { t.eng e with pc := target.toNat, eiHold := false })) ∧
      (sp < named.length + 1 ∨ 0x6000 < sp → exec (.bCall e 0 0 target mask) s = .next (u.bobFault e 3 7 (if 0x6000 < sp then sp - 1 else 0xFFFF)))) ∧
    (s.stands e (.bCallr e 0 d mask) u →
      let t := (u.push e (BitVec.ofNat 16 (x.pc + 2))).pushAll e named.reverse
      named.length + 1 ≤ sp → sp ≤ 0x6000 →
        exec (.bCallr e 0 d mask) s = .next (t.setEng e { t.eng e with pc := (x.getW d.val).toNat, eiHold := false })) ∧
    (s.stands e (.bRet e 0 0 mask) u →
      let r := (u.popAll e named).pop e
      (sp + named.length + 1 ≤ 0x6000 → exec (.bRet e 0 0 mask) s = .next (r.1.setEng e { r.1.eng e with pc := r.2.toNat, eiHold := false })) ∧
      (0x6000 < sp + named.length + 1 → exec (.bRet e 0 0 mask) s = .next (u.bobFault e 3 7 (max 0x6000 sp)))) ∧
    (s.stands e (.bIret e 0 0) u → sp + 2 ≤ 0x6000 →
      let f := u.pop e
      let r := (f.1.setEng e ((f.1.eng e).setFlags f.2)).pop e
      exec (.bIret e 0 0) s = .next (r.1.setEng e { r.1.eng e with pc := r.2.toNat, eiHold := false })))

/-- R350, R355: the registers and flags that a CALL saves are those that a RET with its mask restores, whatever the registers and flags hold by then, and
the PC popped is the return address. -/
def Obligations.BobbinCallThenReturn : Prop :=
  ∀ (s : State) (e : Nat) (mask ret : BitVec 16) (ws : SMap W16) (c z n v ie : Bool),
    let x := s.eng e
    let named := (List.range 16).filter fun i => mask.getLsbD i
    named.length + 1 ≤ (x.getW 15).toNat → (x.getW 15).toNat ≤ 0x6000 →
    let t := (s.push e ret).pushAll e named.reverse
    let body := t.setEng e { t.eng e with w := smPut 0 ws 15 ((t.eng e).getW 15), c := c, z := z, n := n, v := v, ie := ie }
    let r := (body.popAll e named).pop e
    r.2 = ret ∧ (r.1.eng e).getW 15 = x.getW 15 ∧ (∀ i, i < 15 → mask.getLsbD i = true → (r.1.eng e).getW i = x.getW i) ∧
      (mask.getLsbD 15 = true → ((r.1.eng e).c, (r.1.eng e).z, (r.1.eng e).n, (r.1.eng e).v, (r.1.eng e).ie) = (x.c, x.z, x.n, x.v, x.ie))

/-- R359, Table 12-12: the system ops. R344, R348, R359, R365, R366: the events of an engine: a WAIT's timeout, a pending enabled line that is taken, the
local timer's line; and entry to a vector: PC and FLAGS pushed, IE cleared; without room for them a double fault halts the engine. -/
def Obligations.BobbinSystem : Prop :=
  (∀ (s : State) (e : Nat) (a m : Fin 16),
    let g := s.eng e
    let named : Nat → Bool → Bool → Bool := fun i old new => if m.val.testBit i then new else old
    let ready := s.irqPend e &&& g.waitEn ≠ 0
    Steps (.bSetf e 0 m) s e 1 (fun g => g.withFlags (named 0 g.c true) (named 1 g.z true) (named 2 g.n true) (named 3 g.v true)) ∧
    Steps (.bClrf e 0 m) s e 1 (fun g => g.withFlags (named 0 g.c false) (named 1 g.z false) (named 2 g.n false) (named 3 g.v false)) ∧
    Issues (.bEi e 0 0) s e (fun u => u.setEng e { (u.eng e).step 1 with ie := true, eiHold := !g.ie }) ∧
    Steps (.bDi e 0 0) s e 1 (fun g => { g with ie := false }) ∧
    (ready → Steps (.bWait e 0 m) s e 1 (fun g => { g with c := true })) ∧
    (¬ ready → Issues (.bWait e 0 m) s e fun u => u.setEng e { u.eng e with
      st := .waiting, waitOn := some (.wait (g.getW m.val).toNat), eiHold := false }) ∧
    (m.val < 4 → Steps (.bMvbk e a m) s e 1 fun x => x.setW a.val (BitVec.ofNat 16 ([g.bank0, g.bank1, g.bank2, g.bank3].getD m.val 0))) ∧
    (a.val = 3 → Steps (.bMvkb e a m) s e 1 fun x => { x with bank3 := (g.getW m.val).toNat % 128 }) ∧
    (6 ≤ e % 8 → (a.val = 0 → Steps (.bMvkb e a m) s e 1 fun x => { x with bank0 := (g.getW m.val).toNat }) ∧
      (a.val = 1 → Steps (.bMvkb e a m) s e 1 fun x => { x with bank1 := (g.getW m.val).toNat }) ∧
      (a.val = 2 → Steps (.bMvkb e a m) s e 1 fun x => { x with bank2 := (g.getW m.val).toNat % 4096 })) ∧
    (e % 8 < 6 → a.val < 3 → Issues (.bMvkb e a m) s e fun u => u.bobPriv e) ∧
    (4 ≤ a.val → Issues (.bMvkb e a m) s e fun u => u.bobIllegal e) ∧
    Issues (.bTrap e 0 m) s e (fun u => (u.setEng e { u.eng e with vector := 16 + m.val }).enter e (16 + m.val) ((g.pc + 1) % 65536)) ∧
    Issues (.bHalt e 0 0) s e (fun u => u.engHalt e false) ∧
    Steps (.bNop e 0 0) s e 1 (fun g => g) ∧
    Steps (.bRdf e a 0) s e 1 (fun x => x.setW a.val (BitVec.ofNat 16 (b2n g.c + 2 * b2n g.z + 4 * b2n g.n + 8 * b2n g.v + 16 * b2n g.ie +
      32 * b2n (decide (6 ≤ e % 8))))) ∧
    Steps (.bWrf e 0 m) s e 1 (fun x => let w := g.getW m.val
      { x with c := w.getLsbD 0, z := w.getLsbD 1, n := w.getLsbD 2, v := w.getLsbD 3, ie := w.getLsbD 4 }) ∧
    (g.sbuf = [] → Steps (.bSync e 0 0) s e 1 (fun g => g)) ∧
    (g.sbuf ≠ [] → Issues (.bSync e 0 0) s e fun u => u.setEng e { u.eng e with st := .waiting, waitOn := some .sync, eiHold := false })) ∧
  (∀ (s : State) (e line v ret cause addr : Nat), s.up = true → e < 32 → s.engHeld e = false →
    let x := s.eng e
    let sp := (x.getW 15).toNat
    (∀ ws, x.waitOn = some (.wait ws) → x.st = .waiting → ws ≠ 0 → s.irqPend e &&& x.waitEn = 0 →
      exec (.bWaitTimeout e) s = .next (s.setEng e { x with st := .running, waitOn := none, c := false, pc := (x.pc + 1) % 65536 })) ∧
    (x.st = .running → x.stopReq = false → x.ie = true → x.eiHold = false → line < 16 → s.linePending e line = true → x.irqEn.testBit line = true →
      (∀ k, k < line → s.linePending e k = false ∨ x.irqEn.testBit k = false) →
      exec (.bobbinInterrupt e line) s = .next (s.enter e (32 + line) x.pc)) ∧
    (∃ t, exec (.localTimerMatch e) s = .next t ∧ (t.eng e).pend = x.pend ||| 1) ∧
    (2 ≤ sp → sp ≤ 0x6000 → ((s.enter e v ret).eng e).pc = 2 * v ∧ ((s.enter e v ret).eng e).ie = false ∧ ((s.enter e v ret).eng e).st = .running ∧
      ((s.enter e v ret).eng e).getW 15 = x.getW 15 - 2 ∧
      ((s.enter e v ret).dLoadAt e 1 (.loc (sp - 1))).2 = .ok [BitVec.ofNat 16 ret] ∧
      ((s.enter e v ret).dLoadAt e 1 (.loc (sp - 2))).2 = .ok [x.flags e]) ∧
    (sp < 2 ∨ 0x6000 < sp → ((s.enter e v ret).eng e).st = .halted ∧ ((s.enter e v ret).eng e).dfault = true) ∧
    (2 ≤ sp → sp ≤ 0x6000 → ((s.bobFault e v cause addr).eng e).cause = cause ∧ ((s.bobFault e v cause addr).eng e).vector = v ∧
      ((s.bobFault e v cause addr).eng e).pc = 2 * v ∧ ((s.bobFault e v cause addr).eng e).faultAddr = addr % 2 ^ 48 ∧
      ((s.bobFault e v cause addr).eng e).faults = min (x.faults + 1) 0xFFFFFFFF))

/-- R360, Tables 12-1 and 12-13: CPW and CPR of a unit's registers, and the errors of a port without a unit. R360: a command of a unit that is free starts
it: it is busy, its error bit falls, and the PC moves on; a busy unit makes the engine wait, and an earlier error takes vector 6 with cause COP (0xA).
R360, Table 12-13: what units compute over operands in D-space, and COPROCESSOR_DONE: results land, BUSY falls, a waiting engine goes on. -/
def Obligations.BobbinCoprocessors : Prop :=
  (∀ (s : State) (e port : Nat) (num w : Fin 16) (un : CopUnit), port < 4 →
    let g := s.eng e
    let c := s.cop e port
    (copUnit e port = some un → num.val ≤ un.last →
      Issues (.cpw e port num w) s e fun u => u.setEng e ({ u.eng e with
        cops := smPut CopSt.reset (u.eng e).cops port { c with regs := smPut 0 c.regs num.val (g.getW w.val).toNat } }.step 1)) ∧
    (copUnit e port = some un → num.val ≤ un.last → c.raise = false → (c.busy = true → un.result num.val = false) →
      Steps (.cpr e port num w) s e 1 fun x => x.setW w.val (BitVec.ofNat 16 (smGet 0 c.regs num.val))) ∧
    (copUnit e port = some un → c.raise = false → Steps (.cpr e port 15 w) s e 1 fun x => x.setW w.val (BitVec.ofNat 16 (b2n c.busy + 2 * b2n c.err))) ∧
    (copUnit e port = some un → un.result num.val = true → c.busy = true →
      Issues (.cpr e port num w) s e fun u => u.setEng e { u.eng e with st := .waiting, waitOn := some (.cop port), eiHold := false }) ∧
    (copUnit e port = none → Issues (.cpw e port num w) s e (fun u => u.bobFault e 6 2 (u.eng e).pc) ∧
      Issues (.cpr e port num w) s e (fun u => u.bobFault e 6 2 (u.eng e).pc)) ∧
    (e % 8 = 6 → copUnit e 0 = some .sha ∧ copUnit e 1 = some .aes ∧ copUnit e 2 = some .big) ∧ copUnit e 3 = none ∧
    (e % 8 < 6 → copUnit e 0 = some .crc ∧ copUnit e 1 = some .parse ∧ copUnit e 2 = none) ∧
    (e % 8 = 7 → copUnit e 0 = some .crc ∧ copUnit e 1 = none ∧ copUnit e 2 = none)) ∧
  (∀ (s u : State) (e port : Nat) (w : Fin 16) (i : Instr),
    (e % 8 = 6 ∧ port = 0 ∧ (i = .shaInit e w ∨ i = .shaUpdate e w ∨ i = .shaFinal e w) ∨
      e % 8 = 6 ∧ port = 1 ∧ (i = .aesEncrypt e w ∨ i = .aesDecrypt e w ∨ i = .aesTag e w) ∨
      e % 8 = 6 ∧ port = 2 ∧ (i = .modmul e w ∨ i = .modexp e w ∨ i = .modinv e w ∨ i = .p384Mul e w ∨ i = .ntt e w ∨ i = .intt e w ∨ i = .polymul e w) ∨
      e % 8 ≠ 6 ∧ port = 0 ∧ i = .crcRun e w ∨ e % 8 < 6 ∧ port = 1 ∧ i = .descriptorParse e w) →
    s.stands e i u →
    let c := u.cop e port
    (c.busy = false → c.raise = false → Completes i s fun t =>
      (t.cop e port).busy = true ∧ (t.cop e port).err = false ∧ (t.cop e port).regs = c.regs ∧ (t.eng e).pc = ((u.eng e).pc + 1) % 65536 ∧
        t.mem = s.mem ∧ (t.eng e).dmem = (u.eng e).dmem ∧ (t.eng e).w = (u.eng e).w) ∧
    (c.busy = true → exec i s = .next (u.setEng e { u.eng e with st := .waiting, waitOn := some (.cop port), eiHold := false })) ∧
    (c.busy = false → c.raise = true → exec i s = .next
      ((u.setEng e { u.eng e with cops := smPut CopSt.reset (u.eng e).cops port { c with raise := false } }).bobFault e 6 0xA (u.eng e).pc))) ∧
  (∀ (s u : State) (e : Nat) (w : Fin 16),
    (e % 8 = 6 → ∀ (b : List Byte) (v : State),
      let c := u.cop e 0
      c.busy = false → c.raise = false → u.copIn e (c.reg 0) (c.reg 1) = (v, some b) → s.stands e (.shaUpdate e w) u →
        Completes (.shaUpdate e w) s fun t => (t.cop e 0).acc = c.acc ++ b ∧ (t.cop e 0).outErr = false) ∧
    (e % 8 = 6 → ∀ (v : State) (m : List (Nat × W16)),
      let c := u.cop e 0
      c.busy = false → c.raise = false → c.reg 2 = 1 → u.copOut e (c.reg 3) (sha384 c.acc) = (v, some m) → s.stands e (.shaFinal e w) u →
        Completes (.shaFinal e w) s fun t => (t.cop e 0).outMem = m ∧ (t.cop e 0).outErr = false) ∧
    (e % 8 = 6 → ∀ (a b m : List Byte) (v z : State) (o : List (Nat × W16)),
      let c := u.cop e 2
      let n := c.reg 4
      c.busy = false → c.raise = false → u.copIns e [(c.reg 0, 2 * n), (c.reg 1, 2 * n), (c.reg 2, 2 * n)] = (v, some [a, b, m]) → leNat m ≠ 0 →
        v.copOut e (c.reg 3) (leBytes (2 * n) (leNat a * leNat b % leNat m)) = (z, some o) → s.stands e (.modmul e w) u →
        Completes (.modmul e w) s fun t => (t.cop e 2).outMem = o) ∧
    (e % 8 ≠ 6 → ∀ (b : List Byte) (v : State),
      let c := u.cop e 0
      let r := crcRunR poly32c (c.reg 3 + 65536 * c.reg 4) b
      c.busy = false → c.raise = false → c.reg 2 = 0 → u.copIn e (c.reg 0) (c.reg 1) = (v, some b) → s.stands e (.crcRun e w) u →
        Completes (.crcRun e w) s fun t => (t.cop e 0).outRegs = [(3, r % 65536), (4, r / 65536 % 65536)] ∧ (t.cop e 0).outMem = []) ∧
    (∀ (port a : Nat) (v : W16), s.up = true → e < 32 → s.engHeld e = false → a < 0x6000 → (s.cop e port).busy = true →
      (s.cop e port).outMem = [(a, v)] → (s.cop e port).outRegs = [(3, 7)] →
      Completes (.coprocessorDone e port) s fun t => (t.cop e port).busy = false ∧ (t.cop e port).err = (s.cop e port).outErr ∧ (t.cop e port).reg 3 = 7 ∧
        (t.eng e).dmem = smPut 0 (s.eng e).dmem a v ∧
        ((s.eng e).st = .waiting → (s.eng e).waitOn = some (.cop port) → (t.eng e).st = .running ∧ (t.eng e).waitOn = none)))

/-- R351, R353, R355, R356, R358, R359: a field that must be 0 and is not, and an odd register for a pair, take vector 1; the PC pushed is the
instruction's. -/
def Obligations.BobbinIllegalForms : Prop :=
  ∀ (s u : State) (e : Nat) (d z : Fin 16) (x16 : BitVec 16) (i : Instr),
    (z.val ≠ 0 ∧ (i = .bNot e d z ∨ i = .bNeg e d z ∨ i = .bBrev e d z ∨ i = .bPar e d z ∨ i = .bClz e d z ∨ i = .bSwapb e d z ∨ i = .bLdi16 e d z x16 ∨
        i = .bAddi16 e d z x16 ∨ i = .bCmpi16 e d z x16 ∨ i = .bJmp e z d x16 ∨ i = .bJmp e d z x16 ∨ i = .bJmpr e z d ∨ i = .bCallr e z d x16 ∨
        i = .bRet e z d x16 ∨ i = .bIret e d z ∨ i = .bSetf e z d ∨ i = .bClrf e z d ∨ i = .bEi e z d ∨ i = .bDi e d z ∨ i = .bWait e z d ∨
        i = .bTrap e z d ∨ i = .bHalt e d z ∨ i = .bNop e z d ∨ i = .bRdf e d z ∨ i = .bWrf e z d ∨ i = .bSync e d z) ∨
      d.val % 2 = 1 ∧ (i = .bLdd e d z x16 ∨ i = .bStd e d z x16 ∨ i = .bInd e d z x16 ∨ i = .bOutd e d z x16 ∨ i = .bCrc32c e d z ∨ i = .bCrc32cb e d z) ∨
      (d.val % 2 = 1 ∨ d.val = 14) ∧ (i = .bMul e d z ∨ i = .bMuls e d z ∨ i = .bDiv e d z ∨ i = .bDivs e d z) ∨
      4 ≤ z.val ∧ i = .bMvbk e d z) →
    s.stands e i u → 2 ≤ ((s.eng e).getW 15).toNat → ((s.eng e).getW 15).toNat ≤ 0x6000 →
      Completes i s fun t => (t.eng e).pc = 2 ∧ (t.eng e).vector = 1 ∧ (t.eng e).ie = false ∧ (t.eng e).getW 15 = (s.eng e).getW 15 - 2 ∧
        (t.dLoadAt e 1 (.loc (((s.eng e).getW 15).toNat - 1))).2 = .ok [BitVec.ofNat 16 (s.eng e).pc]

/-- R343 to R345, Tables 12-22 to 12-25: the BOB registers start and stop an engine, set its image and load its local memory, in the states that allow it. -/
def Obligations.BobRegisters : Prop :=
  ∀ (s : State) (who : Agent) (e off : Nat) (data : W64), s.up = true → e < 32 →
    let x := s.eng e
    (s.opens who (R.BOB_CTL.off e) → x.st = .stopped ∨ x.st = .halted →
      exec (.bobCtlRun who e) s = .next (s.setEng e { x with
        st := .running, stopReq := false, dfault := false, w := [], pc := 0, c := false, z := false, n := false, v := false, ie := false
        eiHold := false, icache := [], muldiv := [], waitOn := none })) ∧
    (s.opens who (R.BOB_CTL.off e) → x.st = .running ∨ x.st = .waiting → x.sbuf = [] → Completes (.bobCtlStop who e) s fun t =>
      t.eng e = { x with st := .stopped, stopReq := false, waitOn := none } ∧ t.regs = s.regs ∧ t.mem = s.mem) ∧
    (s.opens who (R.BOB_CTL.off e) → x.st = .running ∨ x.st = .waiting → x.sbuf ≠ [] → Completes (.bobCtlStop who e) s fun t =>
      t.eng e = { x with st := .running, stopReq := true, waitOn := none }) ∧
    (s.opens who (R.BOB_IMG.off e) → x.st = .stopped → exec (.bobImgWrite who e data) s = .next (s.setFld (R.BOB_IMG.BASE e) (data.toNat % 2 ^ 44))) ∧
    (s.opens who (R.BOB_IMG.off e) → x.st ≠ .stopped → exec (.bobImgWrite who e data) s = .next s) ∧
    (off % 8 = 0 → off < 0xC000 → s.opens who (R.BOB_LMEM.off e (off / 8)) → x.st = .stopped ∨ x.st = .halted → Completes (.bobLmemWrite who e off data) s fun t =>
      (∀ k, k < 4 → (t.eng e).dRead (off / 2 + k) = data.extractLsb' (16 * k) 16) ∧ (∀ a, a < off / 2 ∨ off / 2 + 4 ≤ a → (t.eng e).dRead a = x.dRead a) ∧
        (t.eng e).imem = x.imem) ∧
    (off % 8 = 0 → 0xC000 ≤ off → off < 0xE000 → s.opens who (R.BOB_LMEM.off e (off / 8)) → x.st = .stopped ∨ x.st = .halted →
      Completes (.bobLmemWrite who e off data) s fun t => (∀ k, k < 4 → (t.eng e).iRead ((off - 0xC000) / 2 + k) = data.extractLsb' (16 * k) 16) ∧
        (t.eng e).dmem = x.dmem) ∧
    (off % 8 = 0 → off < 65536 → s.opens who (R.BOB_LMEM.off e (off / 8)) → x.st = .running ∨ x.st = .waiting →
      exec (.bobLmemWrite who e off data) s = .next s)

/-- R351 to R360, Tables 12-6 to 12-13: the words of every Bobbin instruction that the engine has decode to it, whatever its fields hold. -/
def Obligations.BobbinRoundTrip : Prop :=
  ∀ (i : Instr) (e : Nat) (ws : List W16), bobWords i = some (e, ws) → (∀ n p r w, (i = .cpw n p r w ∨ i = .cpr n p r w) → p < 4) →
    (∀ n w, (i = .shaInit n w ∨ i = .shaUpdate n w ∨ i = .shaFinal n w ∨ i = .aesEncrypt n w ∨ i = .aesDecrypt n w ∨ i = .aesTag n w) → n % 8 = 6) →
    (∀ n w, (i = .crcRun n w ∨ i = .descriptorParse n w) → n % 8 ≠ 6) →
    bobDecode e ws = some i

/-- R351, Table 12-6: no word of group 0xF, and none that follows words of a whole instruction, decodes. Table 12-20: words of the routine that checks an
Onafaet header. -/
def Obligations.BobbinWords : Prop :=
  (∀ (e : Nat) (w : W16) (ws : List W16),
    (0xF000 ≤ w.toNat → bobDecode e (w :: ws) = none) ∧
    (∀ i, bobDecode e (w :: ws) = some i → bobWords i = some (e, w :: ws))) ∧
  (bobDecode 3 [0xAA20, 0xFFFF] = some (.bLdi16 3 2 0 0xFFFF) ∧
  bobDecode 3 [0x0031] = some (.bMov 3 3 1) ∧
  bobDecode 3 [0x3607] = some (.bLdi 3 6 7) ∧
  bobDecode 3 [0xA243, 0x0000] = some (.bLdd 3 4 3 0) ∧
  bobDecode 3 [0xB224] = some (.bCrc16 3 2 4) ∧
  bobDecode 3 [0x1132] = some (.bAddi 3 3 2) ∧
  bobDecode 3 [0x1361] = some (.bSubi 3 6 1) ∧
  bobDecode 3 [0x81F9] = some (.bBcc 3 1 0xF9) ∧
  bobDecode 3 [0x4430] = some (.bLd 3 4 3 0) ∧
  bobDecode 3 [0x0827] = some (.bCmp 3 2 7) ∧
  bobDecode 3 [0xD900] = some (.bNop 3 0 0))

/-- R24, R45, R230: the cold sequence: each command starts the next phase, ROOT_LOCK is set, and at WARM release keys' counters start from the larger
stored ceiling, no session is open, and the Tape starts anew. R21, R22, R27, R79: clock events, PERST# and a function-level reset. -/
def Obligations.ColdSequenceAndClocks : Prop :=
  (∀ s : State,
    (s.sys.phase = .por → exec .powerOnReset s = .next { s with sys := { s.sys with phase := .cold } }) ∧
    (s.sys.phase = .cold → Completes .rootpllLock s fun t => t.sys.phase = .rootLocked ∧ t.bit R.TOP_CLKSTAT.ROOT_LOCK = true ∧ t.mem = s.mem) ∧
    (s.sys.phase = .rootLocked → Completes .warmRelease s fun t =>
      (t.sys.phase = .starting ∨ ∃ c, t.sys.phase = .halted c) ∧ t.sys.gated = true ∧ t.onf.floor = max s.onf.ceil0 s.onf.ceil1 ∧
        t.onf.ceil0 = s.onf.ceil0 ∧ t.onf.ceilPending.isSome = true ∧ t.tape.nonce < 2 ^ 32 ∧ t.tape.recs = [] ∧ t.hostMem = s.hostMem) ∧
    (Completes .porNFall s fun t => t.sys.phase = .por ∧ t.sys.gated = true ∧ t.mem = [] ∧ t.regs = [] ∧ t.engs = [] ∧ t.onf.keys = [] ∧
      t.hostMem = s.hostMem ∧ t.spool.flash = s.spool.flash ∧ (s.spool.burn = none → t.spool.fuse = s.spool.fuse))) ∧
  (∀ (s : State) (pll : Pll) (p f n : Nat), s.up = true →
    (Completes (.pllLockLoss pll) s fun t => t.bit (pllFld pll) = false ∧ t.bit R.TOP_STATUS.CLK_EVT = true ∧ t.mem = s.mem) ∧
    (Completes (.pllLockRegain pll) s fun t => t.bit (pllFld pll) = true ∧ t.bit R.TOP_STATUS.CLK_EVT = true ∧ t.mem = s.mem) ∧
    (p < 4 → s.fld (coreStep p) < 8 → Completes (.coreclkStepDown p) s fun t => t.fld (coreStep p) = s.fld (coreStep p) + 1 ∧ t.bit (throttleBit p) = true ∧
      t.bit R.TOP_STATUS.THROTTLE_EVT = true) ∧
    (p < 4 → 0 < s.fld (coreStep p) → Completes (.coreclkStepUp p) s fun t => t.fld (coreStep p) = s.fld (coreStep p) - 1 ∧
      (t.bit (throttleBit p) = true ↔ 1 < s.fld (coreStep p))) ∧
    (s.fnReachable f = true → Completes (.functionLevelReset f) s fun t =>
      (t.fn f).msixEn = false ∧ (t.fn f).atsEn = false ∧ (t.fn f).numVfs = 0 ∧ (t.fn f).grantEvt = false ∧ (t.fn f).msix = []) ∧
    (s.portOn false n = true → Completes (.perstAssert n) s fun t =>
      (t.fn (0x1000 + n)).msixEn = false ∧ (t.fn (0x1000 + n)).numVfs = 0 ∧ (t.link n).trained = false ∧ .portDown n ∈ t.out))

/-- R22, R23, R25, R53, R466: the commands that reset the device: what each source leaves, and its cause bit in TOP_RSTCAUSE. -/
def Obligations.WarmResetSources : Prop :=
  ∀ (s : State) (c : RstCause) (who : Agent) (data : W64) (lowNs : Nat) (refLost : Bool), s.up = true → s.tidy = true →
    let blank : State → Prop := fun t => t.mem = [] ∧ t.fns = [] ∧ t.qps = [] ∧ t.engs = [] ∧ t.harts = [] ∧ t.spdm = [] ∧ t.hostMem = s.hostMem ∧
      t.sys.gated = true ∧ t.sys.aliveOut = false ∧ t.tmu.t00 = s.tmu.t00 ∧ t.tape.nonce = s.tape.nonce
    let again : State → Prop := fun t => (t.sys.phase = .starting ∨ ∃ k, t.sys.phase = .halted k)
    (Completes (.warmReset c) s fun t => blank t ∧ again t ∧ t.bit (causeFld c) = true) ∧
    (1000 ≤ lowNs → Completes (.sysRstPin lowNs) s fun t => blank t ∧ again t ∧ t.bit R.TOP_RSTCAUSE.PIN = true) ∧
    (s.opens who R.TOP_RESET.off → data.getLsbD 0 = true → data.extractLsb' 16 16 = 0xA5C3 →
      Completes (.topResetWarm who data) s fun t => blank t ∧ again t ∧ t.bit R.TOP_RSTCAUSE.SOFT = true) ∧
    (s.opens who R.TOP_RESET.off → data.extractLsb' 16 16 ≠ 0xA5C3 → exec (.topResetWarm who data) s = .next s) ∧
    (s.onf.resetDelay.isSome = true → Completes .devResetDelayExpiry s fun t => blank t ∧ again t ∧ t.bit R.TOP_RSTCAUSE.ONAFAET = true) ∧
    (Completes (.refclkLoss refLost) s fun t => blank t ∧ t.sys.phase = .clockHold false ∧ t.sys.faultOut = true ∧ t.sys.aonBackup = true ∧
      t.bit R.TOP_RSTCAUSE.CLOCK = true) ∧
    (Completes .thermtrip s fun t => blank t ∧ t.sys.phase = .thermTrip ∧ t.sys.faultOut = true) ∧
    (∀ b, Completes .rootpllRelockHoldEnd { s with sys := { s.sys with phase := .clockHold b } } fun t => again t ∧ t.sys.aonBackup = false)

/-- R8, R25: what a warm reset does to the control registers and to what is kept: COLD registers and RWS fields keep their values, every other field takes
its reset value; host memory, T00, the Tape's nonce, the flash, the fuses, key counters and Moult's spares stay. TAPE_STATUS and GALV_STATUS, of which
parts are kept, stand apart. -/
def Obligations.WarmResetRegisters : Prop :=
  ∀ s : State, s.tidy = true →
    let t := s.coreReset
    (∀ off, off ≠ R.TAPE_STATUS.off → off ≠ R.GALV_STATUS.off → t.reg off = coldPart off (s.reg off)) ∧
    t.hostMem = s.hostMem ∧ t.tmu.t00 = s.tmu.t00 ∧ t.tape.nonce = s.tape.nonce ∧ t.onf.keys = s.onf.keys ∧ t.onf.ceil0 = s.onf.ceil0 ∧
    t.onf.ceil1 = s.onf.ceil1 ∧ t.spool.flash = s.spool.flash ∧ t.pow.spares = s.pow.spares ∧ t.onf.session = none ∧ t.onf.evts = [] ∧ t.mem = []

/-- R45, R48, R50 to R53, R58: the device commands, the ceiling's retry, an event packet, and the mailboxes' GO and DONE. -/
def Obligations.DeviceCommands : Prop :=
  ∀ (s : State) (r : OnfReq) (cls : W64) (delayMs : Nat),
    let u := s.taken r
    (s.admits r 1 = true → exec (.devInfo r) s = .next (u.reply r 1 0 (leBytes 8 (u.reg R.TOP_ID.off).toNat ++ leBytes 8 Config.serial.toNat ++
      leBytes 8 u.onf.floor ++ u.imgVersion 1 ++ u.imgVersion 2 ++ leBytes 4 (u.fld R.ONF_EPOCH.CFG_EPOCH) ++ leBytes 2 (u.fld R.GALV_VER.LOCAL_SCHEMA) ++
      leBytes 2 (u.topStatus.toNat % 65536) ++ leBytes 8 (u.tmu.t00 / 2 ^ 32)))) ∧
    (s.admits r 2 = true → delayMs ≤ 60000 → u.role = 0 → u.onf.resetDelay = none →
      let v := u.reply r 2 0 []
      exec (.devReset r Config.serial delayMs) s = .next { v with onf := { v.onf with resetDelay := some r } }) ∧
    (s.admits r 3 = true → cls.toNat < 1024 → (cls.getLsbD 6 = true → r.crit = true ∨ r.ch = 35) →
      exec (.evtSubscribe r cls) s = .next ({ u with onf := { u.onf with subs := smPut 0 u.onf.subs r.ch cls.toNat } }.reply r 3 0 (leBytes 8 cls.toNat))) ∧
    (∀ (op : Nat) (params : List Byte), 0x8000 ≤ op → op < 0x10000 → s.admits r op = true →
      ∃ (status : Nat) (l : List Byte), Answers (.oemCommand r op params) s r op status l fun v => .oem r.ch op ∈ v.out ∧ v.regs = u.regs ∧ v.mem = u.mem) ∧
    (s.up = true → ∀ h, s.onf.ceilPending = some h →
      exec (.ceilingWriteRetry true true) s = .next { s with onf := { s.onf with ceil0 := h, ceil1 := h, ceilPending := none } } ∧
      Completes (.ceilingWriteRetry true false) s fun t => (s.slot = 0 → t.onf.ceil1 = h ∧ t.onf.ceil0 = s.onf.ceil0) ∧
        (s.slot ≠ 0 → t.onf.ceil0 = h ∧ t.onf.ceil1 = s.onf.ceil1)) ∧
    (∀ (ch n : Nat) (e : EvtPkt) (k : Nat), s.up = true → s.chanOpen ch = true → s.onf.evts.find? (fun e => e.1 == ch * 64 + n) = some (k, e) →
      ∃ v : State, exec (.evtPacketSend ch n) s = .next (v.send ch {
          opcode := 3, seq := smGet 0 s.onf.evtSeq ch, sender := 0xF0000000, tag := 0, status := e.status, ctr := 0, crit := false, evt := true, more := false
          params := leBytes 2 n ++ zeros 2 ++ leBytes 4 e.epoch ++ leBytes 8 e.time ++ leBytes 8 e.value.toNat }) ∧
        smGet EvtPkt.none v.onf.evts (ch * 64 + n) = EvtPkt.none ∧ smGet 0 v.onf.evtSeq ch = (smGet 0 s.onf.evtSeq ch + 1) % 2 ^ 32 ∧ v.regs = s.regs)

/-- R58, Table 02-11: GO submits a request unless BUSY is 1, when it only sets OVERRUN; DONE cleared frees the reply buffer, and BUSY falls with the last
packet. R39, Table 02-4 steps 1 and 2: a packet whose header does not stand is dropped: DROPS counts it and no reply goes; on a mailbox DROP and its
code show it. A packet that stands is taken from its mailbox, and judged. -/
def Obligations.PacketsAndMailboxes : Prop :=
  (∀ (s : State) (ch : Nat) (who : Agent), s.up = true → s.reaches ch who →
    let m := s.mbx ch
    (m.busy = false → exec (.mailboxGo ch who) s = .next (s.setMbx ch { m with go := true, busy := true })) ∧
    (m.busy = true → exec (.mailboxGo ch who) s = .next (s.setMbx ch { m with overrun := true })) ∧
    (m.done = true → m.replies = [] → exec (.mailboxDoneClear ch who) s = .next (s.setMbx ch { m with done := false, busy := m.busy && m.lastMore })) ∧
    (m.done = true → ∀ p ps, m.replies = p :: ps → Completes (.mailboxDoneClear ch who) s fun t =>
      (t.mbx ch).done = true ∧ (t.mbx ch).replies = ps ∧ (t.mbx ch).reply = s.onfBytes p ∧ .onf ch p ∈ t.out) ∧
    (m.done = false → exec (.mailboxDoneClear ch who) s = .next s)) ∧
  (∀ (s : State) (ch code : Nat) (b : List Byte), s.up = true → s.chanOpen ch = true → ch < 36 → b.length ≤ 4096 → (s.mbx ch).go = false →
    (hdrDrop b = some code → Completes (.onafaetPacketArrival ch b) s fun t =>
      t.fld R.ONF_STATUS.DROPS = min (s.fld R.ONF_STATUS.DROPS + 1) (2 ^ R.ONF_STATUS.DROPS.w - 1) ∧ t.bit R.ONF_STATUS.DROP_EVT = true ∧
        .onfDrop ch code ∈ t.out ∧ (isMbx ch = true → (t.mbx ch).drop = true ∧ (t.mbx ch).dropcode = code ∧ (t.mbx ch).busy = false)) ∧
    (∀ r : OnfReq, hdrDrop b = none → plenOk b = true → b.length = 32 + onfPlen b → hdrBad b = true →
      r = onfReqOf ch b → exec (.onafaetPacketArrival ch b) s = .next ((s.mbxTake ch).refuseReply r (leAt b 4 2) E.PARAM)) ∧
    (let r := onfReqOf ch b
     hdrDrop b = none → plenOk b = true → b.length = 32 + onfPlen b → hdrBad b = false → r.sender / 2 ^ 28 = chanCode ch → leAt b 4 2 = 1 →
      onfCrit b = false → (onfFlags b).testBit 3 = false → crc32c ((b.drop 32).take (onfPlen b - 4)) = leAt b (b.length - 4) 4 →
      s.recovering = false → s.partialOf r = none → exec (.onafaetPacketArrival ch b) s = exec (.devInfo r) (s.mbxTake ch)))

/-- R59 to R62, R69, R70: BASTE_OPEN, BASTE_CHECK, BASTE_ABORT, BASTE_STATUS and the idle timeout. -/
def Obligations.BasteSession : Prop :=
  ∀ (s : State) (r : OnfReq) (sess idleMs : Nat) (ss : Session),
    let u := s.taken r
    let n := if u.onf.sessNum = 65535 then 1 else u.onf.sessNum + 1
    (s.admits r 0x0301 = true → idleMs = 0 ∨ 100 ≤ idleMs ∧ idleMs ≤ 600000 → u.role ≠ 2 → u.onf.session = none →
      Answers (.basteOpen r idleMs) s r 0x0301 0 (leBytes 2 n ++ zeros 2) fun t =>
        t.onf.session = some { number := n, owner := r.sender, ownerCh := r.ch, critical := r.crit, idleMs := if idleMs = 0 then 10000 else idleMs, idleAt := s.now, regs := [], tabs := [], checked := false, held := [], armed := none } ∧
        t.fld R.ONF_BASTE_STAT.STATE = 1 ∧ t.fld R.ONF_BASTE_STAT.SESSION = n % 65536) ∧
    (s.admits r 0x0303 = true → u.owns r (some sess) ss → u.linkLost = false → u.mirrored = false →
      exec (.basteCheck r sess) s = .next ((u.heard r (some sess)).checkDone r (u.heard r (some sess)).violations)) ∧
    (s.admits r 0x0303 = true → u.owns r (some sess) ss → u.linkLost = false → u.mirrored = true → Completes (.basteCheck r sess) s fun t =>
      t.onf.twinWaits.length = u.onf.twinWaits.length + 1 ∧ t.regs = u.regs) ∧
    (s.admits r 0x0305 = true → u.owns r (some sess) ss → Answers (.basteAbort r sess) s r 0x0305 0 [] fun t =>
      t.onf.session = none ∧ t.fld R.ONF_BASTE_STAT.STATE = 0 ∧ t.epoch = s.epoch) ∧
    (s.admits r 0x0306 = true → u.openSession = some ss → sess = 0 ∨ sess = ss.number →
      exec (.basteStatus r sess) s = .next (u.reply r 0x0306 0 (leBytes 8 (u.reg R.ONF_BASTE_STAT.off).toNat ++ leBytes 8 (u.reg R.ONF_STITCH_AT.off).toNat ++
        leBytes 4 (u.fld R.ONF_EPOCH.CFG_EPOCH) ++ leBytes 4 (ss.regs.length + ss.tabs.length) ++
        leBytes 4 (if ss.armed.isSome then 0xFFFFFFFF else ss.idleMs - (s.now - ss.idleAt) / 1000000) ++ zeros 4))) ∧
    (s.admits r 0x0306 = true → u.openSession = none → sess = 0 → ∃ left : List Byte, left.length = 4 ∧
      Answers (.basteStatus r 0) s r 0x0306 0 (leBytes 8 (u.reg R.ONF_BASTE_STAT.off).toNat ++ leBytes 8 (u.reg R.ONF_STITCH_AT.off).toNat ++
        leBytes 4 (u.fld R.ONF_EPOCH.CFG_EPOCH) ++ leBytes 4 0 ++ left ++ zeros 4) fun t => t.regs = u.regs) ∧
    (s.up = true → s.openSession = some ss → ss.armed = none → ss.idleAt + ss.idleMs * 1000000 ≤ s.now → Completes .basteIdleTimeout s fun t =>
      t.onf.session = none ∧ t.fld R.ONF_BASTE_STAT.STATE = 0 ∧ t.epoch = s.epoch ∧ (t.onf.evts.find? fun e => e.1 == evtKey ss.ownerCh 7).isSome = true) ∧
    (s.up = true → s.openSession = some ss → ss.armed = none → s.now < ss.idleAt + ss.idleMs * 1000000 → exec .basteIdleTimeout s = .next s)

/-- R69: BASTE_ABORT discards every staged copy, releases every QP that the session held under R63, and closes the session; it is answered with OK, or
with E_BASTE_NONE when no such session exists. -/
def Obligations.AbortDiscards : Prop :=
  ∀ (s : State) (r : OnfReq) (sess : Nat) (ss : Session), s.admits r 0x0305 = true →
    let u := s.taken r
    (u.owns r (some sess) ss → Answers (.basteAbort r sess) s r 0x0305 0 [] fun t =>
      t.onf.session = none ∧ (∀ off, t.staged off = t.reg off) ∧ (∀ q, q ∈ ss.held → (t.qp q).sessHeld = false) ∧ t.epoch = u.epoch) ∧
    (u.openSession = none → exec (.basteAbort r sess) s = .next (u.reply r 0x0305 E.BASTE_NONE [])) ∧
    (u.openSession = some ss → ss.number ≠ sess → exec (.basteAbort r sess) s = .next (u.reply r 0x0305 E.BASTE_NONE []))

/-- R60, R82, R106, R214, R227: what each staging command stages, in the open session of its sender, and its one reply. R60, R64, R70: staging leaves
every live register but ONF_BASTE_STAT, makes the session unchecked, and shows in the staged view; outside a mirroring pair the reply follows at once,
inside one it waits for the mirror. -/
def Obligations.Staging : Prop :=
  (∀ (s : State) (r : OnfReq) (sess f count first loc cls : Nat) (ss : Session) (ents : List (Nat × W64)) (l : List (Nat × W64)) (v0 v1 : W64),
    let u := s.taken r
    let h := u.heard r none
    let hs := u.heard r (some sess)
    let qs := (List.range count).map (first + ·)
    (s.admits r 0x0302 = true → u.stages r (some sess) ss → ents ≠ [] → ents.length ≤ 252 → rwbEntries ents = some l → hs.stageDenied r ss l = false →
      exec (.basteWrite r sess ents) s = .next (hs.stageAnd r 0x0302 l [] [])) ∧
    (s.admits r 0x0101 = true → u.stages r none ss → rwbEntries ents = some l → (l.all fun e => fnConfigReg e.1) = true → h.stageDenied r ss l = false →
      exec (.fnConfig r ents) s = .next (h.stageAnd r 0x0101 l [] [])) ∧
    (s.admits r 0x0201 = true → u.stages r none ss → 0 < count → count ≤ 4096 → first + count ≤ 65536 → loc + count ≤ 4096 → cls ≤ 7 →
      u.fnNamed true f = true → u.mine true r f = true → (∀ q ∈ qs, h.stagedFld (R.QFAB_QOWN.VALID q) ≠ 1) →
      (∀ e ∈ h.owners true, e.2.1 = f → e.2.2 < loc ∨ loc + count ≤ e.2.2) →
      exec (.qpGrant r f count first loc cls) s = .next (h.stageAnd r 0x0201
        (qs.map fun q => (R.QFAB_QOWN.off q, BitVec.ofNat 64 (f + 2 ^ 15 + (loc + (q - first)) * 2 ^ 16 + cls * 2 ^ 32))) [] [])) ∧
    (s.admits r 0x0202 = true → u.stages r none ss → 0 < count → count ≤ 4096 → first + count ≤ 65536 → u.fnNamed true f = true → u.mine true r f = true →
      (∀ q ∈ qs, h.qpOf true f q = true) →
      exec (.qpRevoke r f count first) s = .next (h.stageAnd r 0x0202 (qs.map fun q => (R.QFAB_QOWN.off q, 0)) [] [])) ∧
    (s.admits r 0x0205 = true → u.stages r none ss → f < 0x1020 → u.mine true r f = true →
      exec (.qpSchedFunction r f v0 v1) s = .next (h.stageAnd r 0x0205 [(R.QFAB_FSCHED0.off f, v0), (R.QFAB_FSCHED1.off f, v1)] [] [])) ∧
    (s.admits r 0x0205 = true → u.stages r none ss → f < 8192 → 32 ≤ r.ch →
      exec (.qpSchedAccount r f v1) s = .next (h.stageAnd r 0x0205 [(R.QFAB_ASCHED.off f, v1)] [] []))) ∧
  (∀ (s : State) (r : OnfReq) (op live : Nat) (v : W64) (params : List Byte) (ss : Session), s.onf.session = some ss → live ≠ R.ONF_BASTE_STAT.off →
    (s.mirrored = false → ∃ t : State, s.stageAnd r op [(live, v)] [] params = t.reply r op 0 params ∧ t.staged live = s.stageVal live v ∧
      (∀ o, o ≠ R.ONF_BASTE_STAT.off → t.reg o = s.reg o) ∧ (∀ o, o ≠ live → o ≠ R.ONF_BASTE_STAT.off → t.staged o = s.staged o) ∧
      t.onf.session.map (·.checked) = some false) ∧
    (s.mirrored = true → ownPins live = false → let t := s.stageAnd r op [(live, v)] [] params
      t.staged live = s.stageVal live v ∧ t.out.length = s.out.length + 1 ∧ t.onf.mbx = s.onf.mbx ∧ t.onf.twinWaits.length = s.onf.twinWaits.length + 1))

/-- R65 to R68, R70: STITCH arms a checked session for its edge, and the edge that comes makes it live: the configuration epoch rises by 1, from
0xFFFF_FFFF to 1, the session closes and STITCH has its reply; a schedule that the mirror did not confirm is cancelled. -/
def Obligations.Stitching : Prop :=
  ∀ (s : State) (r : OnfReq) (sess : Nat) (time : W64) (ss : Session) (a : Armed),
    let u := s.taken r
    let armedAt : Nat → StitchMode → State → Prop := fun at_ mode t =>
      t.onf.session.bind (·.armed) = some { mode := mode, time := at_, req := r, confirmed := true } ∧ t.reg R.ONF_STITCH_AT.off = BitVec.ofNat 64 at_ ∧
        t.fld R.ONF_BASTE_STAT.STATE = 3 ∧ t.epoch = s.epoch
    (s.admits r 0x0304 = true → u.stitches r sess ss → u.paired = false →
      (Completes (.stitchImmediate r sess) s fun t => ∃ d, d ≤ 2000 ∧ armedAt (s.now + d) .immediate t) ∧
      (s.now < time.toNat → time.toNat ≤ s.now + 3600000000000 → Completes (.stitchAtTime r sess time) s (armedAt time.toNat .atTime)) ∧
      (time.toNat ≤ s.now → exec (.stitchAtTime r sess time) s = .next ((u.heard r (some sess)).reply r 0x0304 E.STITCH_LATE [])) ∧
      Completes (.stitchAtMinute r sess) s (armedAt ((s.now / 60000000000 + 1) * 60000000000) .atMinute)) ∧
    (s.up = true → s.onf.session = some ss → ss.number ≠ 0 → ss.armed = some a → a.mode = .immediate → a.confirmed = true →
      ∃ t : State, exec .stitchEdge s = .next (t.reply a.req 0x0304 0 (leBytes 4 t.epoch ++ zeros 4 ++ leBytes 8 s.now)) ∧
        t.epoch = (if s.epoch = 0xFFFFFFFF then 1 else s.epoch + 1) ∧ t.onf.session = none) ∧
    (s.up = true → s.onf.session = some ss → ss.number ≠ 0 → ss.armed = some a → a.confirmed = false →
      ∃ t : State, exec .stitchConfirmTimeout s = .next (t.reply a.req 0x0304 E.TWIN_UNSYNC []) ∧ t.epoch = s.epoch ∧
        t.onf.session.bind (·.armed) = none ∧ t.onf.session.map (·.checked) = some ss.checked ∧ t.reg R.ONF_STITCH_AT.off = 0)

/-- R79, R82, R85, R87: the commands on granted queue pairs that act at once. -/
def Obligations.QueuePairCommands : Prop :=
  ∀ (s : State) (r : OnfReq) (f q tmoMs : Nat) (force : Bool),
    let u := s.taken r
    let c := u.qp q
    let named : Nat → Prop := fun op => s.admits r op = true ∧ u.fnNamed false f = true ∧ u.mine false r f = true
    (named 0x0102 → Answers (.fnReset r f) s r 0x0102 0 [] fun t => (t.fn f).msixEn = false ∧ (t.fn f).numVfs = 0 ∧ (t.fn f).grantEvt = false) ∧
    (named 0x0203 → q < 65536 → tmoMs ≤ 60000 → u.qpOf false f q = true → c.st = .quiesced → c.drain = none → c.contained = false → u.onf.quiesce = [] →
      Answers (.qpQuiesce r f 1 q force tmoMs) s r 0x0203 0 (zeros 4) fun t => (t.qp q).held = true ∧ (t.qp q).st = .quiesced ∧ t.onf.quiesce = []) ∧
    (named 0x0203 → q < 65536 → tmoMs ≤ 60000 → u.qpOf false f q = true → c.st = .active → c.contained = false → u.onf.quiesce = [] →
      Completes (.qpQuiesce r f 1 q false tmoMs) s fun t => (t.qp q).drain.isSome = true ∧ t.onf.quiesce = [⟨r, [q]⟩]) ∧
    (named 0x0204 → q < 65536 → u.qpOf false f q = true → c.st = .quiesced → c.held = true → c.drain = none → c.sessHeld = false → c.enable = false →
      Answers (.qpResume r f 1 q) s r 0x0204 0 [] fun t => t.qp q = { c with held := false }) ∧
    (named 0x0204 → q < 65536 → u.qpOf false f q = true → c.st = .quiesced → c.held = true → c.drain = none → c.sessHeld = false → c.enable = true →
      c.sqTail = c.sqHead → Answers (.qpResume r f 1 q) s r 0x0204 0 [] fun t => t.qp q = { c with held := false, st := .active }) ∧
    (named 0x0204 → q < 65536 → u.qpOf false f q = true → c.sessHeld = true → exec (.qpResume r f 1 q) s = .next (u.reply r 0x0204 E.BASTE_LOCKED [])) ∧
    (s.up = true → ∀ w, s.onf.quiesce = [w] → exec (.qpQuiesceTimeout w.req.ch w.req.tag) s = .next ({ s with onf := { s.onf with quiesce := [] } }.reply
      w.req 0x0203 E.TIMEOUT (leBytes 2 (s.notDone w.qps).length ++ leBytes 2 ((s.notDone w.qps).headD 0))))

/-- R96 to R103, R472: doorbells, shadow doorbells, the queue window, the vector unmask and the function-event switch. R85, R102, R105, R168: the
time-driven events of queues: coalescing, bucket refill, a late bitmap, the end of a drain. -/
def Obligations.QueueRegistersAndEvents : Prop :=
  (∀ (s v : State) (f loc q len vec : Nat) (d : W64),
    let c := s.qp q
    let x := s.fn f
    let tail := d.toNat % 65536
    (s.fnReady f → loc < 0x1000 → s.pers f = 0 →
      (s.qpAt f loc = none → x.evtEn = false → exec (.doorbellWrite f (8 * loc) 8 d) s = .next (s.setFn f { x with strayDb := true })) ∧
      (s.qpAt f loc = some q → s.galv.lent.contains q = false → c.contained = false → d.getLsbD 32 = false → d.getLsbD 33 = true →
        (c.st = .quiesced → exec (.doorbellWrite f (8 * loc) 8 d) s = .next (s.setQp q { c with sqTail := tail })) ∧
        (c.st = .active → tail < c.sqDepth → tail ≠ c.sqTail → Completes (.doorbellWrite f (8 * loc) 8 d) s fun t =>
          t.qp q = { c with sqTail := tail, expo := c.expo ++ [(tail, s.qf.stamp)] } ∧ t.qf.stamp = s.qf.stamp + 1 ∧ t.regs = s.regs ∧ t.hostMem = s.hostMem) ∧
        (c.st = .active → c.sqDepth ≤ tail → Completes (.doorbellWrite f (8 * loc) 8 d) s fun t =>
          (t.qp q).st = .error ∧ (t.qp q).errcode = E.DOORBELL_RANGE)) ∧
      (len ≠ 4 → len ≠ 8 → exec (.doorbellWrite f (8 * loc) len d) s = .next s)) ∧
    (s.fnReady f → s.pers f = 0 → s.qpAt f loc = some q →
      (c.st = .quiesced → c.drain = none → s.enableOk q = true → c.held = false → c.sessHeld = false → c.sqTail = c.sqHead →
        exec (.qpEnable f loc) s = .next (s.setQp q { c with st := .active, enable := true })) ∧
      (c.st = .quiesced → c.drain = none → s.enableOk q = false → exec (.qpEnable f loc) s = .next (s.setQp q { c with enable := false, cfgErr := true })) ∧
      (c.contained = false → c.st = .active → Completes (.qpDisable f loc) s fun t =>
        (t.qp q).enable = false ∧ (t.qp q).drain.map (·.fresh) = some true ∧ t.regs = s.regs) ∧
      (c.st = .quiesced → exec (.queueWindowWrite f loc .sqBase d) s = .next (s.setQp q { c with sqBase := d })) ∧
      (∀ reg, c.st = .active → exec (.queueWindowWrite f loc reg d) s = .next (s.setQp q { c with cfgErr := true }))) ∧
    (s.fnReady f → vec < s.msixCount f → x.msixEn = true →
      let e := smGet MsixEnt.reset x.msix vec
      (e.pend = true → exec (.msixVectorUnmask f vec) s =
        .next ((s.setFn f { x with msix := smPut MsixEnt.reset x.msix vec { e with masked := false, pend := false } }).emit (.msix f vec e.addr e.data))) ∧
      (e.pend = false → exec (.msixVectorUnmask f vec) s =
        .next (s.setFn f { x with msix := smPut MsixEnt.reset x.msix vec { e with masked := false } }))) ∧
    (s.fnReady f → s.pers f = 0 → d.getLsbD 34 = false →
      exec (.vfFstatEvtEnWrite f d) s = .next (s.setFn f { x with
        grantEvt := x.grantEvt && !d.getLsbD 32, strayDb := x.strayDb && !d.getLsbD 33, evtEn := false })) ∧
    (s.ringReady q → isLc q = false → s.pers (s.qpFn q) = 0 → c.st = .active → c.recon = false → c.shadowOut = false → getBits c.cfg 38 10 ≠ 0 →
      ∀ ps, s.access q c.shadow.toNat 8 false (.shadow q) = (v, .at ps) →
        exec (.shadowPoll q) s = .next ((v.setQp q { v.qp q with shadowOut := true }).emit (.shadowRead q))) ∧
    (s.ringReady q → c.shadowOut = true → exec (.shadowReadResult q .failed) s = .next (s.setQp q { c with shadowOut := false }).invalSweep) ∧
    (s.ringReady q → c.shadowOut = true → s.pers (s.qpFn q) = 0 → c.st = .active → tail < c.sqDepth → d.toNat / 65536 % 65536 = c.cqHead → c.cqHead < c.cqDepth →
      Completes (.shadowReadResult q (.value d)) s fun t => (t.qp q).sqTail = tail ∧ (t.qp q).shadowOut = false ∧ (t.qp q).cqHead = c.cqHead)) ∧
  (∀ (s : State) (q f v : Nat) (d : Drain),
    let c := s.qp q
    (s.ringReady q → c.coalOpen = true → c.intEn (isLc q) = true → c.coalTime (isLc q) ≠ 0 → Completes (.coalTimeExpiry q) s fun t =>
      (t.qp q).coal = 0 ∧ (t.qp q).coalOpen = false ∧ t.regs = s.regs ∧ t.mem = s.mem ∧ t.hostMem = s.hostMem) ∧
    (s.up = true → f < 0x1020 → f ∈ s.listed (R.QFAB_FSCHED1.off 0) 16 0x1020 → Completes .bucketRefill s fun t =>
      t.tokens (bucketKey 0 f) = min (s.tokens (bucketKey 0 f) + (s.fld (R.QFAB_FSCHED1.CAP_B f) : Int)) (byteBurst (s.fld (R.QFAB_FSCHED1.BBURST f)) : Int) ∧
      t.tokens (bucketKey 1 f) = min (s.tokens (bucketKey 1 f) + (s.fld (R.QFAB_FSCHED1.CAP_OPS f) : Int)) (opBurst (s.fld (R.QFAB_FSCHED1.OBURST f)) : Int) ∧
      t.regs = s.regs ∧ t.qps = s.qps) ∧
    (s.up = true → (s.dlog v).on = true → (s.dlog v).past = [] → (s.dlog v).cache ≠ [] → Completes (.dirtyUpdateLate v) s fun t => (t.dlog v).overflow = true ∧ t.hostMem = s.hostMem) ∧
    (s.ringReady q → c.drain = some d → d.force = false → c.reqs = [] → c.cpls = [] → s.onf.quiesce = [] → Completes (.drainComplete q) s fun t =>
      (t.qp q).st = .quiesced ∧ (t.qp q).drain = none ∧ (t.qp q).held = (c.held || d.hold) ∧ (d.fresh = true → (t.qp q).sqHead = 0 ∧ (t.qp q).enable = false) ∧
        (d.fresh = false → (t.qp q).sqHead = c.sqHead ∧ (t.qp q).sqTail = c.sqTail)))

/-- R89 to R94, R123, Table 03-13: a fetched native request starts: NOP completes with OK; a data request gets its transfer, from its buffer to its
buffer; a frame buffer waits; a block request's work item joins its back-end queue; what a request may not do completes with the code that the spec
names. -/
def Obligations.NativeRequests : Prop :=
  ∀ (s : State) (q rid : Nat) (r : Req),
    let a := sqeAddr0 r.sqe
    let b := sqeAddr1 r.sqe
    let n := sqeLen r.sqe
    let plain : Nat → Prop := fun opc => s.starts q rid opc r ∧ r.predBad = false ∧ sqeInline r.sqe = false ∧ sqeBufmode r.sqe = 0 ∧ sqeXform r.sqe = 0 ∧ 0 < n ∧
      s.channelFree q = true
    let moves : Side → Side → Option Side → State → Prop := fun src dst src2 t =>
      ∃ x : Xfer, x ∈ t.shut.xfers ∧ x.xid = s.shut.nextXid ∧ x.purpose = .req q rid ∧ x.len = n ∧ x.src = src ∧ x.dst = dst ∧ x.src2 = src2 ∧ x.st = .ready ∧ x.next = 0
    let item : Nat → Nat → Nat → Side → State → Prop := fun op lba nbytes data t =>
      ∃ i : BeqItem, i ∈ (t.beq (volBeq r.volA)).items ∧ i.rid = rid ∧ i.q = q ∧ i.op = op ∧ i.lba = lba ∧ i.nbytes = nbytes ∧ i.data = data ∧
        i.vol = getBits r.volA 0 32 ∧ i.acct = r.acct ∧ i.epoch = r.epoch ∧ t.regs = s.regs
    let blk : Nat → Prop := fun opc => plain opc ∧ sqeVolume r.sqe ≤ 15 ∧ r.volValid = true ∧ s.beqOn r = true
    (s.starts q rid 0 r → r.predBad = false → Completes (.nop q rid) s fun t => t.answered q rid 0 0 ∧ t.regs = s.regs ∧ t.hostMem = s.hostMem ∧ t.mem = s.mem) ∧
    (s.starts q rid 0 r → r.predBad = true → Completes (.nop q rid) s fun t => t.answered q rid E.FENCE_ABORT 0) ∧
    (plain 1 → Completes (.move q rid) s (moves (ringSide q [(a, n)]) (ringSide q [(b, n)]) none)) ∧
    (plain 2 → Completes (.fill q rid) s (moves (.pattern ((r.sqe.drop 40).take 8)) (ringSide q [(b, n)]) none)) ∧
    (plain 3 → Completes (.compare q rid) s (moves (ringSide q [(a, n)]) .sink (some (ringSide q [(b, n)])))) ∧
    (plain 0x10 → 14 ≤ n → n ≤ s.fld (R.SELV_VPORTA.FRAME_MAX (s.qpFn q)) → s.netTurn r = true → Completes (.netTx q rid) s (moves (ringSide q [(a, n)]) .sink none)) ∧
    (plain 0x10 → n < 14 → Completes (.netTx q rid) s fun t => t.answered q rid E.PARAM 0) ∧
    (plain 0x11 → Completes (.netRxPost q rid) s fun t => ((t.qp q).req? rid).map (·.st) = some .rxPosted ∧ t.regs = s.regs) ∧
    (blk 0x20 → Completes (.blkRead q rid) s (item 0 (sqeWord40 r.sqe) n (ringSide q [(a, n)]))) ∧
    (blk 0x21 → Completes (.blkWrite q rid) s (item 1 (sqeWord40 r.sqe) n (ringSide q [(a, n)]))) ∧
    (blk 0x22 → Completes (.blkFlush q rid) s (item 2 0 0 .sink)) ∧
    (blk 0x23 → Completes (.blkDiscard q rid) s (item 3 (sqeWord40 r.sqe) n .sink)) ∧
    (plain 0x20 → sqeVolume r.sqe ≤ 15 → r.volValid = true → s.beqOn r = false → Completes (.blkRead q rid) s fun t => t.answered q rid E.QUEUE_FULL 0)

/-- R164 to R169: DIRTY_SYNC starts logging for a VF of the PF's port, counts its interval, and ends it. -/
def Obligations.DirtyLogging : Prop :=
  ∀ (s : State) (q rid : Nat) (r : Req),
    let v := dsVf r.sqe
    let d := s.dlog v
    let at_ : Nat → Prop := fun act => s.starts q rid 0x30 r ∧ r.predBad = false ∧ dsAction r.sqe = act ∧ s.dsVfOk r = true
    (at_ 1 → d.on = false → 1 ≤ dsLimit r.sqe → dsLimit r.sqe ≤ 16384 → dsBase0 r.sqe % 4096 = 0 → dsBase1 r.sqe % 4096 = 0 →
      Completes (.dirtySyncStart q rid) s fun t => t.answered q rid 0 0 ∧ (t.dlog v).on = true ∧ (t.dlog v).limit = dsLimit r.sqe ∧
        (t.dlog v).base0 = dsBase0 r.sqe ∧ (t.dlog v).base1 = dsBase1 r.sqe ∧ (t.dlog v).bits = 0) ∧
    (at_ 1 → d.on = true → Completes (.dirtySyncStart q rid) s fun t => t.answered q rid E.PARAM 0 ∧ t.dlog v = d) ∧
    (at_ 0 → (dsFlags r.sqe).testBit 0 = false → d.on = true → d.cache = [] → d.past = [] → Completes (.dirtySyncSync q rid) s fun t => t.answered q rid 0 d.bits) ∧
    (∀ p, at_ 2 → d.on = true → d.cache = [] → d.past = [p] → p.q = q → p.rid = rid → p.cache = [] → Completes (.dirtySyncStop q rid) s fun t =>
      t.answered q rid (if p.overflow then E.LOG_OVERFLOW else 0) p.bits ∧ (t.dlog v).on = false) ∧
    (s.starts q rid 0x30 r → r.predBad = false → dsAction r.sqe = 2 → s.dsVfOk r = false → Completes (.dirtySyncStop q rid) s fun t => t.answered q rid E.PRIVILEGE 0)

/-- R5, R9, R29, R31, R60: a 64-bit write to a register takes effect by its field access codes; its tag is judged first; an offset that no block
implements and a narrow store only set their TOP_STATUS bits; a hart's write to a basted register is staged in a door's session, or sets FOREIGN_WR.
R15, R76, R77, R103: configuration-space writes reach a function that its host reaches; a port that is on trains. -/
def Obligations.RegisterAndConfigWrites : Prop :=
  (∀ (s : State) (who : Agent) (off len h k : Nat) (d : W64) (def_ : RegDef) (t : RegTag) (ss : Session), s.up = true → off % 8 = 0 →
    (ctlArea off = .none → exec (.registerWrite who (.ctl off) len d) s = .next ((s.setBit R.TOP_STATUS.UNMAPPED).event 0)) ∧
    (ctlArea off = .reg →
    (regFind off = some (def_, false) → def_.live = none → s.tagAdmits def_.tag off who = true → s.ctlAct who off d = none →
      exec (.registerWrite who (.ctl off) 8 d) s = .next (s.setReg off (writeFlds def_.flds (s.reg off) d))) ∧
    (regTag off = some t → s.tagAdmits t off who = false → exec (.registerWrite who (.ctl off) len d) s = .next (s.violation who .write 4 0x7F off)) ∧
    (s.opens who off → len ≠ 8 → exec (.registerWrite who (.ctl off) len d) s = .next ((s.setBit R.TOP_STATUS.NARROW_WR).event 0)) ∧
    (regFind off = some (def_, false) → def_.live = some k → s.tagAdmits def_.tag off (.hart h) = true → s.openSession = some ss →
      (ss.ownerCh = 34 → ss.armed = none → s.linkLost = false → def_.tag ≠ .l → s.mirrored = false →
        exec (.rwbRegisterWrite h off 8 d) s = .next ((s.stageReg (off + k, d)).showSession)) ∧
      (ss.ownerCh ≠ 34 → ss.ownerCh ≠ 35 → exec (.rwbRegisterWrite h off 8 d) s = .next (s.setBit R.ONF_BASTE_STAT.FOREIGN_WR)) ∧
      (ss.armed.isSome = true → ss.ownerCh = 34 → exec (.rwbRegisterWrite h off 8 d) s = .next s)) ∧
    (regFind off = some (def_, false) → def_.live = some k → s.tagAdmits def_.tag off (.hart h) = true → s.openSession = none →
      exec (.rwbRegisterWrite h off 8 d) s = .next s))) ∧
  (∀ (s : State) (f n : Nat) (b : Bool), let x := s.fn f
    (s.fnReady f → exec (.configSpaceWrite f (.msixEnable false)) s = .next (s.setFn f { x with msixEn := false })) ∧
    (s.fnReady f → exec (.configSpaceWrite f (.relaxedOrdering b)) s = .next (s.setFn f { x with relaxed := b })) ∧
    (s.fnReady f → isPf f = true → exec (.configSpaceWrite f (.ptmEnable b)) s = .next (s.setFn f { x with ptmEn := b })) ∧
    (s.fnReady f → isPf f = true → (∀ v, v ∈ s.vfsOn (f - 0x1000) → s.fnReachable v = false) →
      exec (.configSpaceWrite f (.numVfs n)) s = .next (s.setFn f { x with numVfs := n })) ∧
    (s.fnReady f → isPf f = false → exec (.configSpaceWrite f (.numVfs n)) s = .next s) ∧
    (s.up = true → s.fnReachable f = false → exec (.configSpaceWrite f (.msixEnable b)) s = .next s) ∧
    (s.up = true → n < 32 → s.portOn false n = true → s.portPlaced false n = true → s.sys.gated = false →
      exec (.hostPortTrained n) s = .next (s.setLink n { s.link n with trained := true })) ∧
    (s.up = true → s.portOn false n = false → exec (.hostPortTrained n) s = .next s))

/-- R83, R95, R104, R137: a native request is fetched whole with what its admission fixes; the oldest completion is written to the CQ; the scheduler's
pick is dispatched; a stitch in flight is written, and with the last one the transfer ends. -/
def Obligations.QueueData : Prop :=
  ∀ (s v w : State) (q port xid : Nat) (ps : List (Nat × Nat)) (c0 : Cpl) (cs : List Cpl) (r : Req) (x : Xfer) (g : Bool) (st : Stitch) (rest : List Stitch),
    let c := s.qp q
    let h0 := c.firstIdx
    let e := v.readPieces q ps
    let plain := sqeFence e = false ∧ sqeInline e = false ∧ sqeChain e = false ∧ sqeOpc e ≠ 0x30 ∧ sqeRefusal (isLc q) c.world (isVf (v.qpFn q)) e = none
    (s.ringReady q → isLc q = true ∨ s.pers (s.qpFn q) = 0 → s.canFetch q = true → s.redoNext q = none → c.chain = 0 → (c.sqTail + c.sqDepth - h0) % c.sqDepth ≠ 0 →
      s.access q (c.sqBase.toNat + 64 * h0) 64 false (.fetch q) = (v, .at ps) → plain →
      Completes (.sqEntryFetch q) s fun t => (t.qp q).sqHead = (h0 + 1) % c.sqDepth ∧ t.qf.nextRid = v.qf.nextRid + 1 ∧ t.regs = v.regs ∧
        ∃ y : Req, (t.qp q).reqs = (v.qp q).reqs ++ [y] ∧ y.rid = v.qf.nextRid ∧ y.st = .fetched ∧ y.kind = .native ∧ y.sqe = e ∧ y.idx = h0 ∧ y.nEnt = 1 ∧
          y.epoch = v.epoch ∧ y.time = v.now) ∧
    (s.ringReady q → isLc q = true ∨ s.pers (s.qpFn q) = 0 → s.canFetch q = false → exec (.sqEntryFetch q) s = .next s) ∧
    (s.ringReady q → c.recon = false → c.st = .active → c.cpls = c0 :: cs → c.req? c0.rid = some r → r.kind = .native → s.waiting (.cpl q) = false → c.cqFull = false →
      c0.committed = true → c0.jseq = none → s.galv.releasing.contains q = false →
      s.access q (c.cqBase.toNat + 16 * c.cqTail) 16 true (.cpl q) = (v, .at ps) →
      exec (.completionPost q) s = .next (((v.cplWrite q (c.cqBase.toNat + 16 * c.cqTail) ps
        (nativeCqe c0 (s.cplResult c0) c.nextCseq c.phase)).posted q c0 r).ringPosted q c0.irq)) ∧
    (s.ringReady q → c.cpls = [] → exec (.completionPost q) s = .next s) ∧
    (s.ringReady q → c.cpls = c0 :: cs → c.req? c0.rid = some r → r.kind = .native → c.cqFull = true → exec (.completionPost q) s = .next s) ∧
    (s.up = true → s.pick port false = some (v, x, g) → x.next < x.len → v.stitchGo x g x.stitchLen false = (w, .none) →
      exec (.stitchDispatch port false) s = .next w) ∧
    (s.up = true → s.pick port false = none → exec (.stitchDispatch port false) s = .next s) ∧
    (s.up = true → s.xfer? xid = some x → s.panelHeld x.panel = false → x.flight = st :: rest →
      let y := (s.moveData x st).stitchIn x st rest
      (st.poison = false → y.2.st ≠ .failed → rest ≠ [] → exec (.stitchDataWritten xid) s = .next y.1.invalSweep) ∧
      (st.poison = false → y.2.st ≠ .failed → rest = [] → y.2.len ≤ y.2.next → y.2.tail = none →
        exec (.stitchDataWritten xid) s = .next (y.1.xferEnd y.2).invalSweep)) ∧
    (s.up = true → s.xfer? xid = none → exec (.stitchDataWritten xid) s = .next s)

/-- R109 to R112: virtio notifications, queue start, FEATURES_OK and reset; NVMe doorbells, CC.EN set and cleared. R114 to R116, R199: the control
virtqueue of a virtio-net function: a command that is taken changes the receive filter, and is acknowledged. -/
def Obligations.PersonalitiesAndNetControl : Prop :=
  (∀ (s v : State) (f u q len : Nat) (d : W64) (feats : BitVec 64) (aqa : BitVec 32) (b : List Byte),
    let x := s.fn f
    let c := s.qp q
    let n := smGet 32768 x.virtio.qsize u
    let offered := if s.pers f = 1 then vnetFeats else vblkFeats
    let ok := feats.getLsbD 32 = true ∧ feats.getLsbD 33 = true ∧ feats.toNat &&& offered = feats.toNat ∧ s.personaQps f = true
    (s.fnReady f → s.pers f = 1 ∨ s.pers f = 2 →
      (s.qpAt f u = some q → s.galv.lent.contains q = false → c.st = .active → c.contained = false → s.packed q = false → d.toNat % 65536 = u →
        s.ringRead q (c.shadow.toNat + 2) 2 = (v, .inl b) →
        exec (.virtioNotification f u 2 d) s = .next ((v.setQp q { v.qp q with sqTail := leAt b 0 2, chain := 0 }).availHint q)) ∧
      (s.qpAt f u = none → d.toNat % 65536 = u → exec (.virtioNotification f u 2 d) s = .next (s.strayDb f)) ∧
      (d.toNat % 65536 ≠ u → exec (.virtioNotification f u len d) s = .next s) ∧
      (sizeOk n 32768 = true → s.qpAt f u = some q → c.st = .quiesced → c.drain = none → c.held = false → c.sessHeld = false →
        Completes (.virtioQueueEnable f u) s fun t =>
          (t.qp q).st = .active ∧ (t.qp q).sqBase = BitVec.ofNat 64 (smGet 0 x.virtio.qdesc u) ∧ (t.qp q).shadow = BitVec.ofNat 64 (smGet 0 x.virtio.qdriver u) ∧
            (t.qp q).cqBase = BitVec.ofNat 64 (smGet 0 x.virtio.qdevice u) ∧ (t.qp q).sqHead = 0 ∧ (t.qp q).cqTail = 0 ∧ (t.qp q).phase = true ∧
            smGet false (t.fn f).virtio.qen u = true ∧ t.regs = s.regs) ∧
      (sizeOk n 32768 = false → exec (.virtioQueueEnable f u) s = .next (s.needsReset f)) ∧
      (ok → exec (.virtioFeaturesOk f feats) s = .next (s.setFn f { x with virtio := { x.virtio with feats := feats, status := x.virtio.status ||| 8 } })) ∧
      (¬ ok → exec (.virtioFeaturesOk f feats) s = .next (s.setFn f { x with virtio := { x.virtio with status := x.virtio.status &&& 0xF7 } })) ∧
      exec (.virtioDeviceReset f) s = .next (((s.rxFlush f).flrRings (s.ringsOf f)).personaReset f).quiesceCheck) ∧
    (s.fnReady f → s.pers f = 3 →
      (u = 0 ∨ u ∈ x.nvme.sqs → exec (.nvmeSqDoorbell f u 4 d) s = .next (s.ringDoorbell f (0x200 + u) (BitVec.ofNat 64 (d.toNat % 65536 + 2 ^ 33)))) ∧
      (u = 0 ∨ u ∈ x.nvme.cqs → exec (.nvmeCqDoorbell f u 4 d) s = .next (s.ringDoorbell f (0x200 + u) (BitVec.ofNat 64 (d.toNat % 65536 * 65536 + 2 ^ 32)))) ∧
      (u ≠ 0 → u ∉ x.nvme.sqs → exec (.nvmeSqDoorbell f u len d) s = .next s) ∧
      (len ≠ 4 → exec (.nvmeCqDoorbell f u len d) s = .next s) ∧
      (x.nvme.en = false → s.qpAt f 0x200 = some q → sizeOk (aqa.toNat % 4096 + 1) 4096 = true → sizeOk (aqa.toNat / 65536 % 4096 + 1) 4096 = true →
        c.st = .quiesced → c.held = false → c.sessHeld = false → Completes (.nvmeEnable f aqa) s fun t =>
          (t.fn f).nvme = { x.nvme with en := true, rdy := true, aqa := aqa } ∧ (t.qp q).st = .active ∧ (t.qp q).sqBase = x.nvme.asq ∧ (t.qp q).cqBase = x.nvme.acq) ∧
      (x.nvme.en = false → s.qpAt f 0x200 = none →
        exec (.nvmeEnable f aqa) s = .next (s.setNvme f { x.nvme with en := true, aqa := aqa, cfs := true })) ∧
      (x.nvme.en = true → let w := (s.flrRings (s.ringsOf f)).personaReset f
        exec (.nvmeDisable f) s = .next (w.setNvme f { (w.fn f).nvme with aqa := x.nvme.aqa, asq := x.nvme.asq, acq := x.nvme.acq }).quiesceCheck) ∧
      (x.nvme.en = false → exec (.nvmeDisable f) s = .next s))) ∧
  (∀ (s : State) (f vid pairs cls cmd uncl : Nat) (on : Bool) (uni multi : List (BitVec 48)) (types : BitVec 32) (table : List Nat) (key : List Byte),
    s.fnReady f → s.pers f = 1 → (s.fn f).virtio.live = true →
    let x := s.fn f
    let v := x.virtio
    let acked : VirtioState → State := fun w => (s.setFn f { x with virtio := w }).emit (.ctrlAck f true)
    let refused : State := s.emit (.ctrlAck f false)
    let hashed := key.length = 40 ∧ types.toNat < 64
    exec (.rxPromisc f on) s = .next (acked { v with promisc := on }) ∧
    exec (.rxAllmulti f on) s = .next (acked { v with allmulti := on }) ∧
    (multi.length ≤ 64 → (∀ m, m ∈ uni → m.toNat = s.vportMac f) → exec (.macTableSet f uni multi) s = .next (acked { v with multi := multi })) ∧
    (64 < multi.length → exec (.macTableSet f uni multi) s = .next refused) ∧
    (s.vlanAllowed f vid = true → vid ∉ v.vlans → exec (.vlanAdd f vid) s = .next (acked { v with vlans := v.vlans ++ [vid] })) ∧
    (s.vlanAllowed f vid = false → exec (.vlanAdd f vid) s = .next refused) ∧
    (1 ≤ pairs → pairs ≤ v.latched → exec (.mqVqPairsSet f pairs) s = .next (acked { v with pairs := pairs, rssTable := [] })) ∧
    (pairs = 0 ∨ v.latched < pairs → exec (.mqVqPairsSet f pairs) s = .next refused) ∧
    (hashed → 1 ≤ table.length → table.length ≤ 128 → (∀ k, k ∈ table → k < v.latched) → uncl < v.latched →
      exec (.mqRssConfig f types uncl table key) s = .next (((acked { v with rssTypes := types, rssUncl := uncl, rssTable := table, rssKey := key }).rssWrite f 0
        (key ++ leBytes 2 table.length ++ leBytes 2 types.toNat)).rssWrite f 48 (table.flatMap fun k => leBytes 2 (2 * k)))) ∧
    (v.latched ≤ uncl → exec (.mqRssConfig f types uncl table key) s = .next refused) ∧
    (hashed → exec (.mqHashConfig f types key) s =
      .next (((acked { v with hashTypes := types, rssKey := key }).rssWrite f 0 key).rssWrite f 42 (leBytes 2 types.toNat))) ∧
    (key.length ≠ 40 → exec (.mqHashConfig f types key) s = .next refused) ∧
    exec (.ctrlVqOther f cls cmd) s = .next refused)

/-- R113, R118, R119, R124: a virtio-blk or NVMe I/O command is taken from its ring and put to its volume's back-end queue, or completes with the status
that the spec names. -/
def Obligations.BlockCommands : Prop :=
  ∀ (s : State) (q : Nat) (b : BlkReq),
    let v : Nat → State × Req := fun ty => s.vblkTaken q ty b
    let n : Nat → State × Req := fun opc => s.nvmeTaken q opc b
    let vol : State × Req → Prop := fun a => a.2.volValid = true ∧ a.1.beqOn a.2 = true
    let data : Side := .host (segsSlice b.segs 0 b.nbytes)
    let ranges : Req → List (Nat × Nat) := fun r => b.ranges.map fun e => (e.1 / (r.bsize / 512), e.2 / (r.bsize / 512))
    let nv : State × Req → Prop := fun a => vol a ∧ 1 ≤ b.nsid ∧ b.nsid ≤ 16
    (s.vblkTakes q →
      (vol (v 0) → vblkBad (v 0).2 b = false →
        exec (.virtioBlkIn q b) s = .next ((v 0).1.enqueue (v 0).2 0 (b2n b.fua) (b.lba / ((v 0).2.bsize / 512)) b.nbytes [] data)) ∧
      (vol (v 1) → vblkBad (v 1).2 b = false →
        exec (.virtioBlkOut q b) s = .next ((v 1).1.enqueue (v 1).2 1 (b2n b.fua) (b.lba / ((v 1).2.bsize / 512)) b.nbytes [] data)) ∧
      (vol (v 1) → vblkBad (v 1).2 b = true → exec (.virtioBlkOut q b) s = .next ((v 1).1.finish (v 1).2 E.PARAM 0 1)) ∧
      ((v 0).2.volValid = false → exec (.virtioBlkIn q b) s = .next ((v 0).1.finish (v 0).2 E.PARAM 0 1)) ∧
      (vol (v 4) → exec (.virtioBlkFlush q b) s = .next ((v 4).1.enqueue (v 4).2 2 0 0 0 [] .sink)) ∧
      (vol (v 11) → b.ranges ≠ [] → b.ranges.length ≤ 16 → (∀ e, e ∈ b.ranges → vrangeBad (v 11).2 e = false) →
        exec (.virtioBlkDiscard q b) s = .next ((v 11).1.enqueueRanges (v 11).2 3 0 (ranges (v 11).2))) ∧
      (vol (v 13) → b.ranges ≠ [] → b.ranges.length ≤ 16 → (∀ e, e ∈ b.ranges → vrangeBad (v 13).2 e = false) →
        exec (.virtioBlkWriteZeroes q b) s = .next ((v 13).1.enqueueRanges (v 13).2 4 (b2n b.unmap * 4) (ranges (v 13).2))) ∧
      (vol (v 11) → 16 < b.ranges.length → exec (.virtioBlkDiscard q b) s = .next ((v 11).1.finish (v 11).2 E.PARAM 0 1)) ∧
      exec (.virtioBlkUnsupported q b) s = .next ((v 8).1.finish (v 8).2 E.BAD_OPCODE 0 1)) ∧
    (s.nvmeTakes q →
      (nv (n 2) → b.nbytes ≤ 16777216 → b.lba + b.nbytes / (n 2).2.bsize ≤ (n 2).2.capacity →
        exec (.nvmeRead q b) s = .next ((n 2).1.enqueue (n 2).2 0 (b2n b.fua) b.lba b.nbytes [] data)) ∧
      (nv (n 1) → b.nbytes ≤ 16777216 → b.lba + b.nbytes / (n 1).2.bsize ≤ (n 1).2.capacity →
        exec (.nvmeWrite q b) s = .next ((n 1).1.enqueue (n 1).2 1 (b2n b.fua) b.lba b.nbytes [] data)) ∧
      (nv (n 1) → b.nbytes ≤ 16777216 → (n 1).2.capacity < b.lba + b.nbytes / (n 1).2.bsize →
        exec (.nvmeWrite q b) s = .next ((n 1).1.finish (n 1).2 E.PARAM_RANGE 0 0)) ∧
      (nv (n 0) → exec (.nvmeFlush q b) s = .next ((n 0).1.enqueue (n 0).2 2 0 0 0 [] .sink)) ∧
      (nv (n 8) → b.lba + b.nbytes / (n 8).2.bsize ≤ (n 8).2.capacity →
        exec (.nvmeWriteZeroes q b) s = .next ((n 8).1.enqueue (n 8).2 4 (b2n b.fua + b2n b.unmap * 4) b.lba b.nbytes [] .sink)) ∧
      (nv (n 9) → b.unmap = true → b.ranges ≠ [] → b.ranges.length ≤ 16 → (∀ e, e ∈ b.ranges → e.1 + e.2 ≤ (n 9).2.capacity) →
        exec (.nvmeDatasetManagement q b) s = .next ((n 9).1.enqueueRanges (n 9).2 3 0 b.ranges)) ∧
      (b.nsid = 0 ∨ 16 < b.nsid → exec (.nvmeRead q b) s = .next ((n 2).1.finish (n 2).2 0x1000B 0 0)) ∧
      exec (.nvmeInvalidOpcode q b) s = .next ((n 0x7F).1.finish (n 0x7F).2 E.BAD_OPCODE 0 0))

/-- R110, R119 to R122: the NVMe admin commands, each taken from the admin queue and completed with its result; an Asynchronous Event Request waits for an
event. -/
def Obligations.NvmeAdmin : Prop :=
  ∀ (s w v : State) (f cid q qi qid cqid qsize vector cns nsid len sqid acid : Nat) (r x : Req) (prp shadow ev : W64) (dw11 : BitVec 32) (ps : List (Nat × Nat)) (b : List Byte),
    let n := (w.fn f).nvme
    let set : NvmeState → State := fun m => w.setNvme f m
    let done : Instr → State → Prop := fun i t => exec i s = .next (t.finish r 0 0 0)
    (s.adminTakes f cid 0x06 q w r → w.identify f cns nsid = some b → w.drawn.access q prp.toNat b.length true (.walk q r.rid) = (v, .at ps) →
      done (.nvmeIdentify f cid cns nsid prp) ((v.writePieces q ps b).dirtyWrite q prp.toNat b.length)) ∧
    (s.adminTakes f cid 0x06 q w r → 4 ≤ cns → exec (.nvmeIdentify f cid cns nsid prp) s = .next (w.finish r 0x10002 0 0)) ∧
    (s.adminTakes f cid 0x02 q w r →
      (let l := padTo len (n.changedNs.flatMap fun k => leBytes 4 k)
       (set { n with changedNs := [] }).access q prp.toNat l.length true (.walk q r.rid) = (v, .at ps) →
        done (.nvmeGetLogPage f cid 4 len prp) ((v.writePieces q ps l).dirtyWrite q prp.toNat l.length)) ∧
      exec (.nvmeGetLogPage f cid 5 len prp) s = .next (w.finish r 0x10109 0 0)) ∧
    (s.adminTakes f cid 0x09 q w r →
      exec (.nvmeSetFeatures f cid .numQueues dw11) s = .next (w.finish r 0 ((n.latched - 1) * 65537) 0) ∧
      done (.nvmeSetFeatures f cid .coalescing dw11)
        ((set { n with aggThr := dw11.toNat % 256, aggTime := dw11.toNat / 256 % 256 }).coalAll f n.cqs) ∧
      done (.nvmeSetFeatures f cid .asyncEvent dw11) (set { n with aeCfg := dw11 }) ∧
      done (.nvmeSetFeatures f cid .writeCache dw11) (set { n with vwc := dw11.getLsbD 0 }) ∧
      exec (.nvmeSetFeatures f cid (.other 0) dw11) s = .next (w.finish r 0x10002 0 0)) ∧
    (s.adminTakes f cid 0x0A q w r →
      exec (.nvmeGetFeatures f cid .coalescing) s = .next (w.finish r 0 (n.aggThr + n.aggTime * 256) 0) ∧
      exec (.nvmeGetFeatures f cid .asyncEvent) s = .next (w.finish r 0 n.aeCfg.toNat 0) ∧
      exec (.nvmeGetFeatures f cid .writeCache) s = .next (w.finish r 0 (if n.vwc then 1 else 0) 0)) ∧
    (s.adminTakes f cid 0x05 q w r → qid ∉ n.cqs → w.ioRing f qid = some qi →
      let c := w.qp qi
      (sizeOk (qsize + 1) 65536 = true → vector < w.msixCount f → ∀ ien, done (.nvmeCreateIoCq f cid qid qsize vector ien prp)
        ((set { n with cqs := n.cqs ++ [qid] }).setQp qi { c with
          cqBase := prp, cfg := coalCfg (setBits (setBits (setBits c.cfg 4 4 ((qsize + 1).log2 - 1)) 8 11 vector) 19 1 (b2n ien)) n
          cqHead := 0, cqTail := 0, phase := true })) ∧
      (sizeOk (qsize + 1) 65536 = false → ∀ ien, exec (.nvmeCreateIoCq f cid qid qsize vector ien prp) s = .next (w.finish r 0x10102 0 0))) ∧
    (s.adminTakes f cid 0x01 q w r → qid ∉ n.sqs → w.ioRing f qid = some qi →
      let c := w.qp qi
      (qid ∈ n.cqs → sizeOk (qsize + 1) 65536 = true → done (.nvmeCreateIoSq f cid qid qid qsize prp)
        (((set { n with sqs := n.sqs ++ [qid] }).setQp qi { c with
          sqBase := prp, cfg := setBits c.cfg 0 4 ((qsize + 1).log2 - 1), sqHead := 0, sqTail := 0, expo := []
          shadow := if n.dbOn then n.dbShadow + BitVec.ofNat 64 (8 * qid) else 0 }).ringBegin qi)) ∧
      (cqid ≠ qid → exec (.nvmeCreateIoSq f cid qid cqid qsize prp) s = .next (w.finish r 0x10100 0 0))) ∧
    (s.adminTakes f cid 0x00 q w r → qid ∈ n.sqs → w.ioRing f qid = some qi →
      let t := ((set { n with sqs := n.sqs.filter fun y => y != qid }).releaseAll qi true).dropRingWaits qi
      done (.nvmeDeleteIoSq f cid qid) (t.setQp qi { t.qp qi with st := .quiesced, enable := false, sqHead := 0, sqTail := 0, expo := [], drain := none })) ∧
    (s.adminTakes f cid 0x04 q w r → qid ∈ n.cqs → w.ioRing f qid = some qi →
      (qid ∈ n.sqs → exec (.nvmeDeleteIoCq f cid qid) s = .next (w.finish r 0x1010C 0 0)) ∧
      (qid ∉ n.sqs → done (.nvmeDeleteIoCq f cid qid)
        ((set { n with cqs := n.cqs.filter fun y => y != qid }).setQp qi (w.qp qi).fresh.windowReset))) ∧
    (s.adminTakes f cid 0x08 q w r → w.qpAt f (0x200 + sqid) = some qi →
      ((w.qp qi).reqs.find? (fun y => y.cid == acid && y.rid != r.rid && w.unissued y.rid) = some x →
        done (.nvmeAbort f cid sqid acid) (({ w with qf := { w.qf with beqs := w.qf.beqs.map fun (e : Nat × Beq) => (e.1, e.2.cancel x.rid false) } }).finish x 0x10007 0 0)) ∧
      ((w.qp qi).reqs.find? (fun y => y.cid == acid && y.rid != r.rid && w.unissued y.rid) = none →
        exec (.nvmeAbort f cid sqid acid) s = .next (w.finish r 0 1 0))) ∧
    (s.adminTakes f cid 0x0C q w r →
      (n.eventsPend = [] → exec (.nvmeAsyncEventRequest f cid) s = .next ((w.putReq { r with st := .running }).setNvme f { n with aers := n.aers ++ [r.rid] })) ∧
      (∀ e es, n.eventsPend = e :: es → exec (.nvmeAsyncEventRequest f cid) s = .next ((set { n with eventsPend := es }).finish r 0 e 0))) ∧
    (s.adminTakes f cid 0x7C q w r →
      (shadow.toNat % 4096 = 0 → ev.toNat % 4096 = 0 → done (.nvmeDoorbellBufferConfig f cid shadow ev)
        ((set { n with dbShadow := shadow, dbEvent := ev, dbOn := true }).shadowAll f shadow (0 :: n.sqs))) ∧
      (shadow.toNat % 4096 ≠ 0 → exec (.nvmeDoorbellBufferConfig f cid shadow ev) s = .next (w.finish r 0x10002 0 0))) ∧
    (s.adminTakes f cid 0x18 q w r → done (.nvmeKeepAlive f cid) w)

/-- R123 to R128: a work item is written to its ring when it has room; a response moves data, completes its request, or sets BAD_RSP. -/
def Obligations.BackEndQueues : Prop :=
  ∀ (s : State) (b wid off n : Nat) (it : BeqItem) (rest : List BeqItem) (r : BeqRsp) (k : Work) (y : Req), s.up = true → s.panelHeld (b / 64) = false →
    let x := s.beq b
    let taken := s.rspTaken b
    let known := s.bit (R.QFAB_BEQ_WRING.ENABLE b) = true ∧ x.cancelled.contains r.wid = false ∧ x.works.find? (fun w => w.wid == r.wid) = some k
    let fits := k.op ≤ 1 ∧ 0 < r.bytes ∧ r.offset + r.bytes ≤ k.nbytes ∧ k.completeWith = none
    (x.items = it :: rest → s.bit (R.QFAB_BEQ_WRING.ENABLE b) = true → it.slots ≤ s.beqRoom b → it.wid.isSome = true ∨ it.op = 0 →
      exec (.beqWorkItem b) s = .next (s.writeItem b it rest)) ∧
    (x.items = it :: rest → s.beqRoom b < it.slots → exec (.beqWorkItem b) s = .next s) ∧
    (x.items = [] → exec (.beqWorkItem b) s = .next s) ∧
    (known → fits → s.beqAddrOk b r.addr r.bytes .read = true → (s.qp k.q).req? k.rid = some y → s.channelFree k.q = true →
      exec (.moveToHost b r) s = .next (s.moveStart b r k true) ∧ (s.moveStart b r k true).shut.xfers.length = s.shut.xfers.length + 1) ∧
    (known → fits → s.beqAddrOk b r.addr r.bytes .write = true → (s.qp k.q).req? k.rid = some y → s.channelFree k.q = true →
      exec (.moveFromHost b r) s = .next (s.moveStart b r k false) ∧ (s.moveStart b r k false).shut.xfers.length = s.shut.xfers.length + 1) ∧
    (known → k.nbytes < r.offset + r.bytes → exec (.moveToHost b r) s = .next (taken.setBit (R.QFAB_BEQ_RRING.BAD_RSP b))) ∧
    (s.bit (R.QFAB_BEQ_WRING.ENABLE b) = true → x.cancelled.contains r.wid = false → x.works.find? (fun w => w.wid == r.wid) = none →
      exec (.moveFromHost b r) s = .next (taken.setBit (R.QFAB_BEQ_RRING.BAD_RSP b)) ∧ exec (.complete b r) s = .next (taken.setBit (R.QFAB_BEQ_RRING.BAD_RSP b))) ∧
    (s.bit (R.QFAB_BEQ_WRING.ENABLE b) = true → x.cancelled.contains r.wid = true → exec (.complete b r) s = .next taken) ∧
    (known → taken.movesOpen b k.wid = false → exec (.complete b r) s = .next (taken.workDone b k r.status)) ∧
    (known → taken.movesOpen b k.wid = false → (taken.qp k.q).req? k.rid = some y → y.st ≠ .done → y.q = k.q → y.rid = k.rid → y.kind ≠ .native → Completes (.complete b r) s fun t =>
      t.answered k.q k.rid r.status 0) ∧
    (x.works.find? (fun w => w.wid == wid) = some k → x.landed.contains (wid, off, n) = true → exec (.moved b wid off n) s =
      .next (s.setBeq b { x with
        landed := x.landed.erase (wid, off, n)
        items := x.items ++ [{ k.item with op := 0x80, wid := some wid, lba := off, nbytes := n, data := .sink }] })) ∧
    (x.works.find? (fun w => w.wid == wid) = none → exec (.moved b wid off n) s = .next s)

/-- R142 to R146, R244: translations and page requests of host accesses: a completion that grants fills the ATC, one that refuses ends what waited; a
group is sent once one is free; its response, its time-out and a completion time-out settle it. R143, R148: invalidation. After an ATS Invalidate no
host-side entry of the range stays, and it is answered at once when nothing in flight uses it; the device IOMMU's commands remove device-side entries;
a fence with AV writes its word. -/
def Obligations.TranslationAndInvalidation : Prop :=
  (∀ (s : State) (tag f prgi port phys size : Nat) (a : AtsReq) (g : Prg) (r w u : Bool) (q : Nat), s.up = true →
    let s1 : State := { s with shut := { s.shut with ats := s.shut.ats.erase a } }
    let s2 : State := { s with shut := { s.shut with prgs := s.shut.prgs.erase g } }
    let deny : State → Nat → State := fun t cause => (t.shutFault (t.waiterRing g.by_) cause (t.waitOffset g.by_ g.page) g.page).failWaiter g.by_ E.PAGE_DENIED
    (s.shut.ats.find? (fun x => x.tag == tag) = some a →
      ((if a.write then w else r) = true → exec (.atsCompletion tag (.granted phys size r w u)) s = .next ((s1.atcGrant a phys size r w u).wakeWaiter a.by_)) ∧
      ((if a.write then w else r) = false → exec (.atsCompletion tag (.granted phys size r w u)) s = .next (s1.notGranted a)) ∧
      exec (.atsCompletion tag .refused) s =
        .next ((s1.shutFault (s1.waiterRing a.by_) 6 (s1.waitOffset a.by_ a.page) a.page).failWaiter a.by_ E.ATS_FAIL)) ∧
    (s.shut.ats.find? (fun x => x.tag == tag) = none → exec (.atsCompletion tag .refused) s = .next s) ∧
    (s.shut.prgs.find? (fun x => x.port == port && !x.sent && !x.late) = some g → g.by_ = .fetch q → s.prgFree port = true →
      exec (.pageRequestGroupSend port) s = .next ((s2.prgSend g).refreshPark q) ∧
        .pageReq g.port g.f ((s2.prgiFree g.f 512 (s2.fn g.f).prgiNext)) g.pasid g.page g.write ∈ (s2.prgSend g).out) ∧
    (s.shut.prgs.find? (fun x => x.port == port && !x.sent && !x.late) = some g → s.prgFree port = false → exec (.pageRequestGroupSend port) s = .next s) ∧
    (s.shut.prgs.find? (fun x => x.f == f && x.sent && x.prgi == prgi && decide (x.port < 32)) = some g → g.reserved = false → g.late = false →
      exec (.pageRequestResponse f prgi .success) s = .next (s2.atsSend g.f g.pasid g.page g.write g.by_ g.tries) ∧
      exec (.pageRequestResponse f prgi .invalid) s = .next (deny s2 2) ∧
      exec (.pageRequestResponse f prgi .failure) s = .next (deny (s2.setFn (0x1000 + g.port) { s2.fn (0x1000 + g.port) with priStopped := true }) 2)) ∧
    (s.shut.prgs.find? (fun x => x.f == f && x.sent && x.prgi == prgi && decide (x.port < 32)) = none →
      exec (.pageRequestResponse f prgi .success) s = .next ((s.bump R.SHUT_STATUS.LATE 1).setBit R.SHUT_STATUS.LATE_EVT)) ∧
    (s.shut.prgs.find? (fun x => x.f == f && x.sent && x.prgi == prgi && decide (x.port < 32) && !x.reserved && !x.late) = some g →
      exec (.priTimeout f prgi) s =
        .next (deny { s with shut := { s.shut with prgs := s.shut.prgs.map fun (h : Prg) => if h == g then { h with reserved := true } else h } } 3)) ∧
    ((s.qp q).st = .active → (s.qp q).contained = false → exec (.cplTimeout (4 * q + 1)) s = .next (s.ringError q E.CPL_TIMEOUT false).invalSweep) ∧
    exec (.cplTimeout (4 * q + 2)) s = .next (s.setQp q { s.qp q with shadowOut := false }).invalSweep) ∧
  (∀ (s : State) (f addr len did pid : Nat) (a d : W64), s.up = true →
    let keepsHost : State → Prop := fun t => (t.shut.atc.filter fun e => !e.dev) = s.shut.atc.filter fun e => !e.dev
    let rest : State → Prop := fun t => t.regs = s.regs ∧ t.mem = s.mem ∧ t.hostMem = s.hostMem ∧ t.qps = s.qps
    Completes (.atsInvalidate f none addr len) s (fun t => rest t ∧ (t.shut.atc.filter fun e => e.dev) = s.shut.atc.filter (fun e => e.dev) ∧
      ∀ e, e ∈ t.shut.atc ↔ e ∈ s.shut.atc ∧ (e.dev = true ∨ e.f ≠ f ∨ addr + len ≤ e.base ∨ e.base + e.size ≤ addr)) ∧
    (s.shut.xfers = [] → s.ringsOf f = [] → s.shut.invals = [] → Completes (.atsInvalidate f none addr len) s fun t =>
      t.shut.invals = [] ∧ t.out = .invalidateDone f :: s.out) ∧
    Completes (.iotinvalVma (some did) (some pid) (some addr)) s (fun t => rest t ∧ keepsHost t ∧
      ∀ e, e ∈ t.shut.atc ↔ e ∈ s.shut.atc ∧ (e.dev = false ∨ did ≠ 0x100 + e.f ∨ e.pasid ≠ some pid ∨ addr < e.base ∨ e.base + e.size ≤ addr)) ∧
    Completes (.iotinvalGvma (some did) (some addr)) s (fun t => rest t ∧ keepsHost t ∧
      ∀ e, e ∈ t.shut.atc ↔ e ∈ s.shut.atc ∧ (e.dev = false ∨ did ≠ 0x100 + e.f)) ∧
    Completes (.iodirInvalDdt none) s (fun t => rest t ∧ keepsHost t ∧ ∀ e, e ∈ t.shut.atc ↔ e ∈ s.shut.atc ∧ e.dev = false) ∧
    Completes (.iodirInvalPdt did pid) s (fun t => rest t ∧ keepsHost t ∧
      ∀ e, e ∈ t.shut.atc ↔ e ∈ s.shut.atc ∧ (e.dev = false ∨ did ≠ 0x100 + e.f ∨ e.pasid ≠ some pid)) ∧
    exec (.iofenceC false a d) s = .next s ∧
    (s.memCheck (.queueTile 0) a.toNat 4 .write = .ok → exec (.iofenceC true a d) s = .next (s.devWrite a.toNat (leBytes 4 d.toNat))))

/-- R150, R152, R163: the Shuttle's registers: SHUT_LRESP settles a channel's parks, a park times out, LC_DB and LC_CTL reach the channel's ring, a key
slot is loaded or cleared; whom a tag does not admit is logged. -/
def Obligations.LocalChannelsAndKeys : Prop :=
  ∀ (s : State) (who : Agent) (n xid : Nat) (d : W64) (x : Xfer), s.up = true →
    let q := 65536 + n
    let c := s.qp q
    let key := (List.range 8).flatMap fun i => leBytes 8 (s.shut.keyData.getD i 0).toNat
    let ws := (s.lcParks (d.toNat % 256)).map fun g => g.by_
    (s.opens who R.SHUT_LRESP.off → exec (.shutLresp who d) s = .next ((s.lcUnpark (d.toNat % 256)).lcSettle (d.getLsbD 8) ws)) ∧
    (s.xfer? xid = some x → x.lc = true → x.st = .parked → exec (.lfltTimeout xid) s =
      .next ({ s with shut := { s.shut with prgs := s.shut.prgs.filter fun (g : Prg) => g.by_ != Waiter.xfer xid } }.failXfer x E.IOMMU_FAULT)) ∧
    (s.xfer? xid = none → exec (.lfltTimeout xid) s = .next s) ∧
    (s.opens who (R.LC_DB.off n) → exec (.lcDoorbell who n 8 d) s = .next (s.doorbell q d)) ∧
    (s.opens who (R.LC_DB.off n) → exec (.lcDoorbell who n 4 d) s = .next ((s.setBit R.TOP_STATUS.NARROW_WR).event 0)) ∧
    (s.opens who (R.LC_CTL.off n) → n < 256 → c.st = .quiesced → c.drain = none → (s.setQp q { c with world := s.lcLining n }).enableOk q = true →
      c.held = false → c.sessHeld = false → Completes (.lcEnable who n true) s fun t =>
        (t.qp q).st = .active ∧ (t.qp q).enable = true ∧ (t.qp q).world = s.lcLining n ∧ t.regs = s.regs) ∧
    (s.opens who (R.LC_CTL.off n) → n < 256 → c.st = .quiesced → c.drain = none → (s.setQp q { c with world := s.lcLining n }).enableOk q = false →
      Completes (.lcEnable who n true) s fun t => t.qp q = { c with world := s.lcLining n, enable := false, cfgErr := true } ∧ t.regs = s.regs) ∧
    (s.opens who (R.LC_CTL.off n) → n < 256 → c.st = .active → c.contained = false → Completes (.lcEnable who n false) s fun t =>
      (t.qp q).enable = false ∧ (t.qp q).drain.isSome = true) ∧
    (s.opens who R.SHUT_KEYCMD.off → key.take 32 ≠ key.drop 32 → exec (.keyLoad who d) s = .next { s with shut := { s.shut with
      keys := smPut KeySlot.empty s.shut.keys (d.toNat % 4096) { owner := getBits d 12 13, key := key }, keyData := [] } }) ∧
    (s.opens who R.SHUT_KEYCMD.off → key.take 32 = key.drop 32 → Completes (.keyLoad who d) s fun t =>
      smGet KeySlot.empty t.shut.keys (d.toNat % 4096) = KeySlot.empty ∧ t.bit R.SHUT_KEYSTAT.WEAK = true ∧ t.shut.keyData = []) ∧
    (s.opens who R.SHUT_KEYCMD.off → exec (.keyClear who d) s = .next { s with shut := { s.shut with
      keys := smPut KeySlot.empty s.shut.keys (d.toNat % 4096) KeySlot.empty, keyData := [] } }) ∧
    (∀ t, regTag R.SHUT_KEYCMD.off = some t → s.tagAdmits t R.SHUT_KEYCMD.off who = false → exec (.keyClear who d) s = .next (s.violation who .write 4 0x7F R.SHUT_KEYCMD.off))

/-- R170, R175, R182 to R187, R201, R202, R209: frames: received on a port, completed from the miss buffer or dropped from it with MISS_AGE, transmitted
by the class scheduler, paused and resumed by PFC, reinjected; a learned flow and a connection end when idle. -/
def Obligations.SelvedgeFrames : Prop :=
  ∀ (s v : State) (port pipe idx n cls zone : Nat) (fr key : List Byte) (p : Pkt) (c : PCtx) (x : TabEnt) (cn : Conn) (k : Nat) (tp : TxPkt) (rest : List TxPkt)
    (classes : BitVec 8) (times : List Nat), s.up = true →
    let open_ := s.panelHeld (macPanel port) = false ∧ s.sys.gated = false ∧ s.role ≠ 3 ∧ s.ethPort s.epoch port = true
    let s0 := s.missTake p
    let lim := if s.fld R.SELV_CFG.LEARN_IDLE_S = 0 then 300 else s.fld R.SELV_CFG.LEARN_IDLE_S
    let head := s.fld (R.SELV_EXQ_DB.RI_HEAD n) % 2 ^ (s.fld (R.SELV_EXQ_RIRING.DEPTH n) + 1)
    let at_ := s.fld (R.SELV_EXQ_RIRING.BASE n) * 4096 + 32 * head
    let e := s.devRead at_ 32
    (open_ → 60 ≤ fr.length → cells fr ≤ s.cellsFree (s.rxPipe port fr) → exec (.frameReceive port fr true) s =
      .next ((s.pipeline (s.newPkt (s.rxPipe port fr) false (0x2000 + port) fr none (outerPcp fr))).pfcUpdate port (outerPcp fr))) ∧
    (open_ → exec (.frameReceive port fr false) s = .next (s.netDrop (s.rxPipe port fr) Rsn.MAC_ERR)) ∧
    (s.panelHeld (macPanel port) = false → s.ethPort s.epoch port = false → exec (.frameReceive port fr true) s = .next s ∧ exec (.frameTransmit port) s = .next s) ∧
    (s.panelHeld pipe = false → s.selv.miss.find? (fun y => y.pipe == pipe) = some p → s0.stage12 p = (c, none) →
      s0.flowFind p.epoch (c.tsid.getD 0) c.key = some x → flowAcl x.image = false → (s0.cacheFill pipe c.key).takeFlow c x = (v, none) →
      exec (.missLookupComplete pipe) s = .next (v.pfcLeft p.src p.cls).histTrim) ∧
    (s.panelHeld pipe = false → s.selv.miss.find? (fun y => y.pipe == pipe) = none → exec (.missLookupComplete pipe) s = .next s) ∧
    (s.panelHeld pipe = false → (s.selv.miss.filter fun y => y.pipe == pipe)[idx]? = some p →
      (200000 < s.now - p.time → exec (.missAge pipe idx) s = .next ((s0.pktReason (s0.stage12 p).1 Rsn.MISS_AGE).pfcLeft p.src p.cls).histTrim) ∧
      (s.now - p.time ≤ 200000 → exec (.missAge pipe idx) s = .next s)) ∧
    (Completes (.learnIdleExpiry key) s fun t => t.regs = s.regs ∧ t.selv.conns = s.selv.conns ∧
      ∀ y, y ∈ t.selv.tabs ↔ y ∈ s.selv.tabs ∧ ¬ (y.table = 2 ∧ y.loc = key ∧ flowLearned y.image = true ∧ lim < (s.secs + 2 ^ 32 - flowLastHit y.image) % 2 ^ 32)) ∧
    (s.selv.conns.find? (fun y => y.key == ctKey zone key) = some cn → cn.expires < s.now → s.mirrored = false → exec (.ctTimeout zone key) s =
      .next { s with selv := { s.selv with conns := s.selv.conns.filter fun y => y.key != cn.key } }) ∧
    (s.selv.conns.find? (fun y => y.key == ctKey zone key) = some cn → s.now ≤ cn.expires → exec (.ctTimeout zone key) s = .next s) ∧
    (s.panelHeld 0 = false → n < 64 → head ≠ s.fld (R.SELV_EXQ_DB.RI_TAIL n) % 2 ^ (s.fld (R.SELV_EXQ_RIRING.DEPTH n) + 1) → s.memCheck (.queueTile 0) at_ 32 .read = .ok →
      let w := s.setFld (R.SELV_EXQ_DB.RI_HEAD n) ((head + 1) % 2 ^ (s.fld (R.SELV_EXQ_RIRING.DEPTH n) + 1))
      (14 ≤ leAt e 8 2 → leAt e 8 2 ≤ 9216 → s.memCheck (.queueTile 0) (leAt e 0 8) (leAt e 8 2) .read = .ok → exec (.reinjectEntry n) s =
        .next (w.reinject (leAt e 10 1) (leAt e 11 1) (leAt e 12 2) (if (leAt e 14 2).testBit 15 then some (leAt e 14 2 % 8192) else none)
          (s.devRead (leAt e 0 8) (leAt e 8 2)))) ∧
      (9216 < leAt e 8 2 → exec (.reinjectEntry n) s = .next (w.setBit R.SELV_STATUS.BAD_RI))) ∧
    (open_ → s.etcPick port = (v, some k) → v.classQ port k = tp :: rest → exec (.frameTransmit port) s =
      .next (((({ v with selv := { v.selv with
        egress := smPut [] v.selv.egress (classKey port k) rest
        shape := smPut (0, 0) v.selv.shape (classKey port k) (v.shapeNow port k - 8 * tp.frame.length, v.now) } }).countTx tp).emit
          (.frame port (tp.frame ++ zeros (60 - tp.frame.length)) false)).pfcLeft tp.src tp.cls)) ∧
    (s.panelHeld (macPanel port) = false → s.ethPort s.epoch port = true → s.bit (R.EMAC_GCFG.PFC_EN (port / 8)) = true → cls < 8 → classes.getLsbD cls = true →
      Completes (.pfcReceive port classes times) s fun t => t.regs = s.regs ∧ (classKey port cls ∈ t.selv.paused ↔ times.getD cls 0 ≠ 0)) ∧
    (Completes (.pfcPauseEnd port cls) s fun t => t.regs = s.regs ∧ ∀ y, y ∈ t.selv.paused ↔ y ∈ s.selv.paused ∧ y ≠ classKey port cls)

/-- R204 to R207: the Selvedge tables: SELV_WRITE and the table window stage adds, modifies and deletes in the session; SELV_READ and the window read the
live or the session's view; a sweep settles what a stitch left pending. -/
def Obligations.SelvedgeTables : Prop :=
  ∀ (s : State) (r : OnfReq) (sess table index : Nat) (ss : Session) (e : TabImage) (ents : List TabImage) (b : List Byte) (who : Agent) (stg : Bool),
    let u := s.taken r
    let hs := u.heard r (some sess)
    let tw : TabImage := { index := index, image := s.twImage table }
    let write : Nat → Instr → Prop := fun op i => s.admits r 0x0A01 = true → 32 ≤ r.ch → tabSize table ≠ 0 → u.stages r (some sess) ss → hs.bit R.SELV_COMMIT.SWEEP = false →
      (hs.tabRefusal table op e = 0 → exec i s = .next (hs.stageAnd r 0x0A01 [] [hs.tabStage table op e] (leBytes 2 0xFFFF))) ∧
      (hs.tabRefusal table op e ≠ 0 → exec i s = .next (hs.reply r 0x0A01 (hs.tabRefusal table op e) (leBytes 2 0)))
    let window : Nat → Instr → Prop := fun op i => s.up = true → s.opens who R.SELV_TW_CMD.off → s.hartStage who false = .staged → tabSize table ≠ 0 →
      s.bit R.SELV_COMMIT.SWEEP = false → s.mirrored = false →
      (s.tabRefusal table op tw = 0 → exec i s = .next (((s.stageTab (s.tabStage table op tw)).showSession).twStatus 0)) ∧
      (s.tabRefusal table op tw ≠ 0 → exec i s = .next (s.twStatus (s.tabRefusal table op tw)))
    write 1 (.selvWriteAdd r sess table [e]) ∧ write 2 (.selvWriteModify r sess table [e]) ∧ write 3 (.selvWriteDelete r sess table [e]) ∧
    window 1 (.selvTwAdd who table index) ∧ window 2 (.selvTwModify who table index) ∧ window 3 (.selvTwDelete who table index) ∧
    (s.up = true → s.opens who R.SELV_TW_CMD.off → tabSize table ≠ 0 →
      (s.tabRead false table tw = .ok b → exec (.selvTwReadLive who table index) s = .next ((s.twPut b).twStatus 0)) ∧
      (s.tabRead true table tw = .ok b → exec (.selvTwReadStaged who table index) s = .next ((s.twPut b).twStatus 0))) ∧
    (s.up = true → s.opens who R.SELV_TW_CMD.off → s.hartStage who false = .foreign → exec (.selvTwAdd who table index) s = .next (s.setBit R.ONF_BASTE_STAT.FOREIGN_WR)) ∧
    (s.admits r 0x0A02 = true → 32 ≤ r.ch → tabSize table ≠ 0 → ents ≠ [] → stg = false ∨ u.onf.session.isSome = true → u.tabReads stg table ents = .ok b →
      exec (.selvRead r table stg ents) s = .next (u.reply r 0x0A02 0 b)) ∧
    (s.admits r 0x0A02 = true → r.ch < 32 → exec (.selvRead r table stg ents) s = .next (u.reply r 0x0A02 E.PRIVILEGE [])) ∧
    (s.up = true → s.bit R.SELV_COMMIT.SWEEP = true → (∀ p, p ∈ s.selv.miss → epochGe p.epoch (s.fld R.SELV_COMMIT.EPOCH) = true) → Completes .selvSweepComplete s fun t =>
      t.bit R.SELV_COMMIT.SWEEP = false ∧ t.selv.tabs = (s.selv.tabs.filter fun y => y.till.isNone).map (fun y => { y with since := none }) ∧ t.mem = s.mem) ∧
    (s.up = true → s.bit R.SELV_COMMIT.SWEEP = false → exec .selvSweepComplete s = .next s)

/-- R213 to R215, R219, R225, R231: counts: an increment of the active bank is added to its account, else to the idle bank or late; a whole second charges
every granted QP; HEAD releases records; a peer's increments and cut markers. R218 to R221, R225, R228: a minute boundary flips the banks, or with the
idle bank not drained skips; the drain of the idle bank starts with its conditions and writes one record into the ledger ring behind TAIL. R214, R227,
R229: the Tape's commands: TAPE_MAP and TAPE_RING stage their registers in the session; TAPE_READ returns whole records and releases none. -/
def Obligations.TapeCounting : Prop :=
  (∀ (s : State) (a ctr n m : Nat) (who : Agent) (d time : W64), s.up = true →
    let counts : TapeBank → Nat := fun b => smGet 0 b.counts (16 * a + ctr)
    let added : Nat → Nat := fun v => min (v + n) (2 ^ 64 - 1)
    let bankNo := s.fld R.TAPE_STATUS.BANK
    let sec := s.now / 1000000000
    let units := ringUnits (s.reg R.TAPE_RING.off)
    let head := s.fld R.TAPE_RING_PTR.HEAD
    let tail := s.fld R.TAPE_RING_PTR.TAIL
    (ctr < 14 → 0 < n → s.acctOn a = true → Completes (.tapeIncrement a ctr bankNo n) s fun t =>
      counts t.bank = added (counts s.bank) ∧ t.idleBank = s.idleBank ∧ t.regs = s.regs ∧ t.mem = s.mem) ∧
    (ctr < 14 → 0 < n → s.acctOn a = true → m ≠ bankNo → s.idleBank.closed = true → s.bit R.TAPE_STATUS.DRAINED = false →
      Completes (.tapeIncrement a ctr m n) s fun t => counts t.idleBank = added (counts s.idleBank) ∧ t.bank = s.bank ∧ t.regs = s.regs) ∧
    (ctr < 14 → 0 < n → s.acctOn a = false → a ≠ s.fld R.TAPE_CFG.ORPHAN_ACCT → Completes (.tapeIncrement a ctr bankNo n) s fun t =>
      counts t.bank = counts s.bank ∧ smGet 0 t.bank.counts (16 * s.fld R.TAPE_CFG.ORPHAN_ACCT + ctr) = added (smGet 0 s.bank.counts (16 * s.fld R.TAPE_CFG.ORPHAN_ACCT + ctr)) ∧
        t.bit R.TAPE_STATUS.ORPHAN_EVT = true) ∧
    (14 ≤ ctr → exec (.tapeIncrement a ctr m n) s = .next s) ∧
    (s.tape.lastTick < sec → s.role ≠ 2 → exec .qpSlotTick s =
      .next (({ s with tape := { s.tape with lastTick := sec } }).tickAll (sec - s.tape.lastTick) (s.owners false))) ∧
    (sec ≤ s.tape.lastTick → exec .qpSlotTick s = .next s) ∧
    (s.opens who R.TAPE_RING_PTR.off → let h := d.toNat % 2 ^ 32
      (h < units → fromHead head units h ≤ fromHead head units tail → Completes (.tapeHeadWrite who d) s fun t =>
        t.fld R.TAPE_RING_PTR.HEAD = h ∧ t.fld R.TAPE_RING_PTR.TAIL = tail ∧ ∀ x, x ∈ t.tape.recs ↔ x ∈ s.tape.recs ∧ fromHead head units h ≤ fromHead head units x.unit) ∧
      (fromHead head units tail < fromHead head units h → exec (.tapeHeadWrite who d) s = .next ((s.setBit R.TAPE_STATUS.BAD_HEAD).event 3))) ∧
    (s.paired = true → ctr < 14 → 0 < n → s.bank.first ≤ m → Completes (.peerIncrement a ctr m n) s fun t =>
      counts t.bank = added (counts s.bank) ∧ t.idleBank = s.idleBank ∧ t.regs = s.regs) ∧
    (s.paired = false → exec (.peerIncrement a ctr m n) s = .next s ∧ exec (.cutMarker m time) s = .next s) ∧
    (s.paired = true → Completes (.cutMarker m time) s fun t => t.peerCut m = some time.toNat ∧ t.bank = s.bank ∧
      (s.idleBank.closed = true → s.idleBank.first + s.idleBank.span = m + 1 → skewed time.toNat s.tape.cutTime = true →
        t.bit R.TAPE_STATUS.SKEW_EVT = true ∧ t.idleBank = s.idleBank.mark TapeFlag.skew))) ∧
  (∀ (s : State) (unit : Nat),
    let b := s.idleBank
    let rec_ := s.recordOf b
    let at_ := getBits s.tape.ringUsed 0 44 * 4096 + unit * 4096
    let quiet := s.sys.phase ≠ .por ∧ s.engs = [] ∧ s.edgeOnMinute = false ∧ s.paired = false
    (quiet → s.minuteDue = true → s.bit R.TAPE_STATUS.DRAINED = true → Completes .tapeBankFlip s fun t =>
      t.bit R.TAPE_STATUS.BANK = !s.bit R.TAPE_STATUS.BANK ∧ t.bit R.TAPE_STATUS.DRAINED = false ∧ t.bank.first = s.minute ∧ t.bank.counts = [] ∧
        t.idleBank.closed = true ∧ t.idleBank.counts = s.bank.counts ∧ t.idleBank.first = s.bank.first ∧ t.idleBank.span = s.minute - s.bank.first ∧
        t.tape.cutTime = s.now ∧ t.mem = s.mem) ∧
    (quiet → s.minuteDue = true → s.bit R.TAPE_STATUS.DRAINED = false → Completes .tapeBankFlip s fun t =>
      t.bit R.TAPE_STATUS.BANK = s.bit R.TAPE_STATUS.BANK ∧ t.bit R.TAPE_STATUS.SKIP_EVT = true ∧ t.bank = { s.bank with span := s.minute - s.bank.first + 1 } ∧
        t.idleBank = s.idleBank) ∧
    (quiet → s.minuteDue = false → exec .tapeBankFlip s = .next s) ∧
    (s.up = true → s.drainReady = true → s.paired = false → s.ringRoom (recUnits b.recBytes) = true → Completes .tapeDrain s fun t =>
      t.tape.draining = true ∧ t.tape.ringUsed = s.reg R.TAPE_RING.off ∧ t.bit R.TAPE_STATUS.RING_FULL = false ∧ t.idleBank = b ∧ t.mem = s.mem) ∧
    (s.up = true → s.drainReady = true → s.ringRoom (recUnits b.recBytes) = false → exec .tapeDrain s = .next (s.setBit R.TAPE_STATUS.RING_FULL)) ∧
    (s.up = true → s.drainReady = false → exec .tapeDrain s = .next s) ∧
    (s.up = true → s.tape.draining = true → b.void = false → s.recPlace (recUnits rec_.length) = (none, unit) → s.memCheck .tape at_ rec_.length .write = .ok →
      s.tape.ringChanged = false → Completes .tapeRecordWrite s fun t =>
        t.mem = Memory.writeN s.mem at_ rec_ ∧ t.tape.draining = false ∧ t.tape.nextRseq = s.tape.nextRseq + 1 ∧ t.idleBank = TapeBank.empty ∧ t.bank = s.bank ∧
          t.bit R.TAPE_STATUS.DRAINED = true ∧ t.bit R.TAPE_STATUS.REC_EVT = true ∧ t.reg R.TAPE_RSEQ.off = BitVec.ofNat 64 s.tape.nextRseq ∧
          t.tape.recs = s.tape.recs ++ [TapeRec.mk s.tape.nextRseq unit rec_.length]) ∧
    (s.up = true → s.tape.draining = true → b.void = true → Completes .tapeRecordWrite s fun t =>
      t.mem = s.mem ∧ t.tape.recs = s.tape.recs ∧ t.tape.nextRseq = s.tape.nextRseq + 1 ∧ t.bit R.TAPE_STATUS.DRAINED = true ∧ t.idleBank = TapeBank.empty) ∧
    (s.up = true → s.tape.draining = false → exec .tapeRecordWrite s = .next s) ∧
    (s.up = true → s.paired = true → b.closed = true → s.bit R.TAPE_STATUS.DRAINED = false → s.tape.draining = false → s.peerCut (b.first + b.span - 1) = none →
      s.tape.cutTime + 1000000 ≤ s.now → exec .peerMarkerTimeout s = .next { s with tape := { s.tape with waived := true } }) ∧
    (s.up = true → s.now < s.tape.cutTime + 1000000 → exec .peerMarkerTimeout s = .next s)) ∧
  (∀ (s : State) (r : OnfReq) (index account sizeMib : Nat) (ss : Session) (first base : W64) (max : Nat) (rs : List TapeRec) (on : Bool),
    let u := s.taken r
    let h := u.heard r none
    (s.admits r 0x0401 = true → 1 ≤ max → max ≤ 16 → u.tapeRecords (if first = BitVec.allOnes 64 then none else some first.toNat) max = some rs →
      exec (.tapeRead r first max) s = .next (u.reply r 0x0401 0 (rs.flatMap fun x => u.devRead (u.fld R.TAPE_RING.BASE * 4096 + x.unit * 4096) x.bytes))) ∧
    (s.admits r 0x0401 = true → max = 0 ∨ 16 < max → exec (.tapeRead r first max) s = .next (u.reply r 0x0401 E.PARAM_RANGE [])) ∧
    (s.admits r 0x0402 = true → u.stages r none ss → index < 0x1020 → account < 8192 →
      exec (.tapeMapFunction r index account 1) s = .next (h.stageAnd r 0x0402 [(R.TAPE_FNACCT.off index, BitVec.ofNat 64 account)] [] []) ∧
      exec (.tapeMapFunction r index account 0) s = .next (h.stageAnd r 0x0402 [(R.TAPE_FNACCT.off index, BitVec.ofNat 64 account),
        (R.SELV_VPORTA.off index, setBits (h.staged (R.SELV_VPORTA.off index)) 13 13 account)] [] [])) ∧
    (s.admits r 0x0402 = true → 8192 ≤ account → exec (.tapeMapFunction r index account 0) s = .next (h.reply r 0x0402 E.PARAM_RANGE [])) ∧
    (s.admits r 0x0402 = true → u.stages r none ss → index < 4096 → account < 8192 → exec (.tapeMapTspace r index account 0) s =
      .next (h.stageAnd r 0x0402 [(R.SELV_TSPACE.off index, setBits (h.staged (R.SELV_TSPACE.off index)) 25 13 account)] [] [])) ∧
    (s.admits r 0x0402 = true → u.stages r none ss → 1 ≤ index → index < 8192 → exec (.tapeMapEnable r index (if on then 1 else 0)) s =
      .next (h.stageAnd r 0x0402 [(R.TAPE_ACCT.off index, BitVec.ofNat 64 (if on then 1 else 0))] [] [])) ∧
    (s.admits r 0x0402 = true → exec (.tapeMapEnable r 0 0) s = .next (h.reply r 0x0402 E.PARAM [])) ∧
    (s.admits r 0x0403 = true → u.stages r none ss → ss.critical = true → ss.ownerCh = 35 → base.toNat % 4096 = 0 → base.toNat < 2 ^ 56 → sizeMib < 65536 →
      exec (.tapeRing r base sizeMib (if on then 1 else 0)) s = .next (h.stageAnd r 0x0403
        [(R.TAPE_RING.off, BitVec.ofNat 64 (base.toNat / 4096 + sizeMib * 2 ^ 44 + (if on then 1 else 0) * 2 ^ 63))] [] [])) ∧
    (s.admits r 0x0403 = true → u.stages r none ss → ss.ownerCh ≠ 35 → base.toNat % 4096 = 0 → base.toNat < 2 ^ 56 → sizeMib < 65536 →
      exec (.tapeRing r base sizeMib 0) s = .next (h.reply r 0x0403 E.PRIVILEGE [])))

/-- R245, R248 to R256, R455: a dangerous fault is recorded, contained to its scope and reported; class 5, a second fault while the first is being
contained, a rail out of range and the device watchdog reset the device; a corrected error only counts; the watchdog is kicked and enabled, and one
fault injected, by register writes. -/
def Obligations.FaultHandling : Prop :=
  ∀ (s : State) (x : FaultInfo) (q f p rail k : Nat) (sq : Sequencer) (who : Agent) (d : W64), s.up = true → s.sys.phase = .running →
    let calm := s.safe.contUntil ≤ s.now
    let recorded : Nat → State → Prop := fun cls t => t.fld R.SAFE_STATUS.DF_COUNT = min (s.fld R.SAFE_STATUS.DF_COUNT + 1) (2 ^ R.SAFE_STATUS.DF_COUNT.w - 1) ∧
      t.fld R.SAFE_STATUS.LAST_CLASS = cls ∧ t.bit R.SAFE_STATUS.DF_EVT = true ∧ (s.bit R.SAFE_REC0.VALID = false → t.bit R.SAFE_REC0.VALID = true ∧ t.reg R.SAFE_REC1.off = BitVec.ofNat 64 s.now)
    let parked : State → Nat → Prop := fun t r => (t.qp r).st = .parked ∧ (t.qp r).contained = true ∧ (t.qp r).errcode = E.POISON
    let blank : State → Prop := fun t => t.mem = [] ∧ t.qps = [] ∧ t.fns = [] ∧ t.sys.gated = true ∧ t.hostMem = s.hostMem ∧ (t.sys.phase = .starting ∨ ∃ c, t.sys.phase = .halted c)
    (Completes .correctedError s fun t => t.fld R.SAFE_STATUS.CE_COUNT = min (s.fld R.SAFE_STATUS.CE_COUNT + 1) (2 ^ R.SAFE_STATUS.CE_COUNT.w - 1) ∧
      t.bit R.SAFE_STATUS.CE_EVT = true ∧ t.mem = s.mem ∧ t.qps = s.qps ∧ t.sys = s.sys) ∧
    (calm → faultFits x = true → x.cls = 2 → x.scope = .qp q → (s.qp q).st ≠ .free → Completes (.dangerousFaultDetect x) s fun t =>
      recorded 2 t ∧ parked t q ∧ t.sys.faultOut = true ∧ t.mem = s.mem ∧ ∀ r, r ≠ q → t.qp r = s.qp r) ∧
    (calm → faultFits x = true → x.cls = 2 → x.scope = .function f → Completes (.dangerousFaultDetect x) s fun t =>
      recorded 2 t ∧ t.sys.faultOut = true ∧ ∀ r, r ∈ s.ringsOf f → parked t r) ∧
    (calm → faultFits x = true → x.cls = 4 → x.scope = .panel p → Completes (.dangerousFaultDetect x) s fun t =>
      recorded 4 t ∧ t.panelHeld p = true ∧ t.sys.faultOut = true ∧ ∀ r, r ∈ s.ringsHomed p → parked t r) ∧
    (calm → faultFits x = true → x.cls = 1 → x.scope = .transfer k → s.xfer? k = none → Completes (.dangerousFaultDetect x) s fun t =>
      recorded 1 t ∧ t.sys.faultOut = s.sys.faultOut ∧ t.qps = s.qps ∧ t.shut = s.shut) ∧
    (calm → faultFits x = true → x.cls = 5 → x.mech ≠ 8 → Completes (.dangerousFaultDetect x) s blank) ∧
    (s.now < s.safe.contUntil → faultFits x = true → Completes (.dangerousFaultDetect x) s blank) ∧
    (faultFits x = false → exec (.dangerousFaultDetect x) s = .next s) ∧
    (calm → p < 4 → sq ≠ .tape → Completes (.sequencerWatchdogExpiry sq p) s fun t =>
      recorded 3 t ∧ t.bit R.SAFE_STATUS.WDOG_EVT = true ∧ t.sys.faultOut = true ∧ ∀ r, r ∈ s.ringsHomed p → parked t r) ∧
    (rail < 8 → Completes (.voltageMonitorTrip rail) s blank) ∧
    (8 ≤ rail → exec (.voltageMonitorTrip rail) s = .next s) ∧
    (s.bit R.SAFE_WDOG.ENABLE = true → Completes .deviceWatchdogExpiry s fun t => blank t ∧ (s.tidy = true → t.bit R.TOP_RSTCAUSE.WDOG = true)) ∧
    (s.bit R.SAFE_WDOG.ENABLE = false → exec .deviceWatchdogExpiry s = .next s) ∧
    (s.opens who R.SAFE_WDOG.off → s.bit R.SAFE_WDOG.ENABLE = false → d.getLsbD 36 = false →
      exec (.safeWdogKick who d) s = .next (s.setFld R.SAFE_WDOG.PERIOD_MS (d.toNat / 65536 % 2 ^ 20))) ∧
    (s.opens who R.SAFE_WDOG.off → s.bit R.SAFE_WDOG.ENABLE = true → d.getLsbD 36 = false → exec (.safeWdogKick who d) s = .next s) ∧
    (s.opens who R.SAFE_WDOG.off → d.getLsbD 36 = true → Completes (.safeWdogEnable who d) s fun t => t.bit R.SAFE_WDOG.ENABLE = true ∧
      (s.bit R.SAFE_WDOG.ENABLE = true → t.fld R.SAFE_WDOG.PERIOD_MS = s.fld R.SAFE_WDOG.PERIOD_MS)) ∧
    (s.opens who R.SAFE_INJECT.off → d.getLsbD 10 = true → 1 ≤ d.toNat % 16 → d.toNat % 16 ≤ 10 → s.safe.inject = none → Completes (.safeInject who d) s fun t =>
      t.safe.inject = some (d.toNat % 16, getBits d 4 2, getBits d 6 4) ∧ t.bit R.SAFE_INJECT.GO = true ∧ t.fld R.SAFE_INJECT.MECH = d.toNat % 16) ∧
    (s.opens who R.SAFE_INJECT.off → d.getLsbD 10 = false → Completes (.safeInject who d) s fun t => t.safe = s.safe ∧ t.fld R.SAFE_INJECT.MECH = d.toNat % 16)

/-- R259 to R262, R268 to R271: the Galvel link and pairing: a good flit in order is delivered once, any other NAKed; time-outs take the link down and
training brings it up; TWIN_PAIR asks, times out, completes with synchronisation, and unpairs. -/
def Obligations.GalvelAndPairing : Prop :=
  ∀ (s : State) (fl : Flit) (lo hi : Bool) (r : OnfReq) (role : Nat) (serial pairId : W64) (p : Pairing) (i : PairInfo),
    let u := s.taken r
    let got : State := ({ s with galv := { s.galv with rxNext := (fl.seq + 1) % 4096, nak := false, heartbeat := true } }).takeAck fl.ack
    let asked : Nat → State → Prop := fun action t =>
      t.galv.pairing = some { req := r, action := action, role := role, serial := serial, pairId := pairId, accepted := false } ∧ t.role = u.role ∧
        t.galv.unacked.length = min 512 (u.galv.unacked.length + 1) ∧ t.mem = s.mem
    (s.up = true → s.linkUp = true →
      (fl.crcOk = true → fl.seq = s.galv.rxNext → fl.nak = false → s.role ≠ 0 → exec (.galvelFlitReceive fl) s = .next (got.deliver fl.payload)) ∧
      (fl.crcOk = true → fl.seq = s.galv.rxNext → fl.nak = false → fl.payload = .heartbeat → exec (.galvelFlitReceive fl) s = .next got) ∧
      (fl.crcOk = false ∨ fl.seq ≠ s.galv.rxNext → exec (.galvelFlitReceive fl) s =
        .next { s with galv := { s.galv with nak := true, heartbeat := s.galv.heartbeat || fl.crcOk } }) ∧
      (s.galv.unacked ≠ [] → Completes .galvelAckTimeout s fun t => t.bit R.GALV_STATUS.LINK_UP = false ∧ t.bit R.GALV_STATUS.LINK_EVT = true ∧
        t.fld R.GALV_LINKCNT.DOWNS = min (s.fld R.GALV_LINKCNT.DOWNS + 1) (2 ^ R.GALV_LINKCNT.DOWNS.w - 1) ∧ t.galv.unacked = s.galv.unacked) ∧
      (s.galv.unacked = [] → exec .galvelAckTimeout s = .next s) ∧
      (s.role ≠ 0 → exec .heartbeatSend s = .next (s.sendFlit .heartbeat))) ∧
    (s.up = true → s.linkUp = false → exec (.galvelFlitReceive fl) s = .next s ∧ exec .heartbeatSend s = .next s) ∧
    (s.up = true → s.linkUp = false → lo = true ∨ hi = true → Completes (.galvelLinkTrained lo hi) s fun t => t.bit R.GALV_STATUS.LINK_UP = true ∧
      t.fld R.GALV_STATUS.WIDTH = (if lo && hi then 2 else 1) ∧ t.bit R.GALV_STATUS.LINK_EVT = true ∧ t.galv.unacked.length = s.galv.unacked.length) ∧
    (s.up = true → exec (.galvelLinkTrained false false) s = .next s) ∧
    (s.admits r 0x0501 = true → role = 1 ∨ role = 2 → u.galv.pairing = none → u.galv.peerInfo = none → u.openSession = none → (role = 2 → u.qpsIdle = true) →
      (u.role = 0 → Completes (.twinPairPair r role serial pairId) s (asked 0)) ∧
      (role = 1 → u.role = 1 → u.sync = false → u.galv.peer ≠ .paired → Completes (.twinPairRejoin r role serial pairId) s (asked 2)) ∧
      (role = 2 → u.role = 3 → Completes (.twinPairRejoin r role serial pairId) s (asked 2))) ∧
    (s.admits r 0x0501 = true → role = 1 ∨ role = 2 → u.galv.pairing = none → u.role ≠ 0 → exec (.twinPairPair r role serial pairId) s = .next (u.reply r 0x0501 E.TWIN_ROLE [])) ∧
    (s.admits r 0x0501 = true → u.role = 1 → Answers (.twinPairUnpair r) s r 0x0501 0 [] fun t => t.role = 0 ∧ t.sync = false ∧ t.galv.peer = .none ∧ t.reg R.GALV_PEER.off = 0) ∧
    (s.admits r 0x0501 = true → u.role ≠ 1 → exec (.twinPairUnpair r) s = .next (u.reply r 0x0501 E.TWIN_ROLE [])) ∧
    (s.up = true → s.galv.pairing = some p → p.accepted = false → exec .twinPairTimeout s =
      .next (({ s with galv := { s.galv with pairing := none, peerInfo := none } }).reply p.req 0x0501 E.TIMEOUT [])) ∧
    (s.up = true → s.galv.pairing = none → exec .twinPairTimeout s = .next s) ∧
    (s.up = true → s.linkUp = true → s.galv.pairing = some p → s.galv.peerInfo = some i → p.accepted = true → p.role = 1 ∨ p.role = 2 → s.role ≠ 3 →
      Answers .twinSyncComplete s p.req 0x0501 0 [] fun t => t.sync = true ∧ t.role = p.role ∧ t.galv.peer = .paired ∧ t.galv.pairing = none ∧ t.galv.heartbeat = true ∧
        t.reg R.GALV_PEER.off = i.serial ∧ t.bit R.GALV_STATUS.ALIVE_OK = true) ∧
    (s.up = true → s.linkUp = false → exec .twinSyncComplete s = .next s)

/-- R280, R281, Table 09-8: the journal: each entry of a paired peer is applied to the shadow of its ring and acknowledged; each twin sends its
watermarks. R291 to R293, R296: hand-off: TWIN_HANDOFF schedules an edge; at the edge a confirmed twin releases its rings, an unconfirmed one cancels;
when no trailing work is left the release is over. TWIN_GATE stages GALV_GATE. -/
def Obligations.JournalAndHandOff : Prop :=
  (∀ (s : State) (e : JHead) (a : JAdmit) (c : JCommit) (idx effect k n q : Nat), s.up = true →
    let x := s.shadow e.q
    let y : ShadowReq := ⟨a.ringIdx, a.count, a.cid, a.epoch, a.time, e.strict, e.network, e.write, none, none, []⟩
    let acked : State → ShadowQp → Prop := fun t y => t.shadow e.q = y ∧ t.galv.rxJseq = e.jseq ∧ t.galv.unacked.length = min 512 (s.galv.unacked.length + 1) ∧
      t.regs = s.regs ∧ t.qps = s.qps ∧ t.hostMem = s.hostMem
    (s.paired = true → s.galv.peer = .paired →
      (Completes (.admitEntry e a) s fun t => (t.shadow e.q).reqs = x.reqs ++ [y] ∧ t.galv.rxJseq = e.jseq ∧ t.qps = s.qps) ∧
      (Completes (.issue e idx effect) s fun t => acked t (x.update idx fun r => { r with issued := some effect })) ∧
      (s.galv.peerHandoff = none → Completes (.commit e c) s fun t => acked t (x.update c.ringIdx fun r => { r with commit := some c }) ∧ t.galv.commitAcct = c.account) ∧
      (Completes (.release e idx) s fun t => acked t { x with reqs := x.reqs.filter fun r => !(r.ringIdx == idx && r.commit.isNone) }) ∧
      (k < 14 → 0 < n → s.bank.first ≤ s.minute → Completes (.counts e [(k, n)]) s fun t => acked t x ∧
        smGet 0 t.bank.counts (16 * s.galv.commitAcct + k) = min (smGet 0 s.bank.counts (16 * s.galv.commitAcct + k) + n) (2 ^ 64 - 1))) ∧
    (s.paired = false → exec (.admitEntry e a) s = .next s ∧ exec (.issue e idx effect) s = .next s ∧ exec (.commit e c) s = .next s ∧
      exec (.release e idx) s = .next s ∧ exec (.counts e [(k, n)]) s = .next s) ∧
    (s.mirrored = true → s.servedRings = [q] → (s.qp q).st = .active → s.isVirtio q = false → exec .wmark s = .next { s with
      galv := { s.galv with jseq := s.galv.jseq + 1 }
      out := .journal { q := q, jseq := s.galv.jseq, strict := false, network := false, write := false } 6
        [(s.qp q).sqHead, (s.qp q).cqTail, (s.qp q).nextCseq, b2n (s.qp q).phase] :: s.out }) ∧
    (s.mirrored = false → exec .wmark s = .next s)) ∧
  (∀ (s : State) (r : OnfReq) (h : Handoff) (sess : Nat) (gate time : W64) (ss : Session),
    let u := s.taken r
    let free := u.sync = true ∧ u.onf.session = none ∧ u.galv.handoff = none ∧ u.galv.peerHandoff = none
    let asked : Nat → State := fun mode =>
      ({ u with galv := { u.galv with handoff := some { req := r, mode := mode, time := u.now + 100000, confirmed := false, edge := false } } }).sendFlit
        (.handoff mode (u.now + 100000))
    let edge : State := { s with galv := { s.galv with handoff := some { h with edge := true } } }
    (s.admits r 0x0502 = true → free → u.role = 1 → exec (.twinHandoffSwap r 0) s = .next (asked 0)) ∧
    (s.admits r 0x0502 = true → free → exec (.twinHandoffRelease r 0) s = .next (asked 1)) ∧
    (s.admits r 0x0502 = true → free → exec (.twinHandoffReturn r 0) s = .next (asked 2)) ∧
    (s.admits r 0x0502 = true → 0 < time.toNat → time.toNat < u.now + 50000 → exec (.twinHandoffRelease r time) s = .next (u.reply r 0x0502 E.STITCH_LATE [])) ∧
    (s.admits r 0x0502 = true → u.role ≠ 1 → exec (.twinHandoffSwap r 0) s = .next (u.reply r 0x0502 E.TWIN_ROLE [])) ∧
    (s.admits r 0x0502 = true → u.sync = false → exec (.twinHandoffReturn r 0) s = .next (u.reply r 0x0502 E.TWIN_UNSYNC [])) ∧
    (s.up = true → s.galv.handoff = some h → h.edge = false → h.time ≤ s.now →
      (h.confirmed = true → s.sync = true → h.mode = 1 → exec .handoffEdge s = .next (edge.releaseRings (edge.toRelease 1))) ∧
      (h.confirmed = false → exec .handoffEdge s = .next ((s.handoffFail).sendFlit .unhandoff))) ∧
    (s.up = true → s.galv.handoff = some h → s.now < h.time → exec .handoffEdge s = .next s) ∧
    (s.up = true → s.galv.releasing ≠ [] → s.trailingWork = false → Completes .releaseComplete s fun t => t.galv.releasing = [] ∧ t.regs = s.regs) ∧
    (s.up = true → s.trailingWork = true → exec .releaseComplete s = .next s) ∧
    (s.admits r 0x0503 = true → u.role = 1 → u.stages r (some sess) ss → ss.critical = true → exec (.twinGate r sess gate) s =
      .next ((u.heard r (some sess)).stageAnd r 0x0503 [(R.GALV_GATE.off, gate)] [] [])) ∧
    (s.admits r 0x0503 = true → u.role ≠ 1 → exec (.twinGate r sess gate) s = .next ((u.heard r (some sess)).reply r 0x0503 E.BASTE_NONE [])))

/-- R262, R265, R266, R272, R273, R283 to R285, R290: what a twin decides when its peer falls silent: a takeover on a fault or on lost liveness, no
takeover on a lost link or a goodbye; reconciliation after the settle time; a fenced twin is in Hold, resets after FENCE_HOLD_MS, and comes back as
mirror. -/
def Obligations.TakeoverAndFencing : Prop :=
  ∀ (s : State) (q : Nat), s.up = true →
    let cut : State := { s with galv := { s.galv with heartbeat := false } }
    let pairedUp := s.paired = true ∧ s.galv.peer = .paired
    let took : State → Prop := fun t => t.sys.fenceOut = true ∧ t.bit R.GALV_STATUS.FENCE_OUT = true ∧ t.role = 1 ∧ t.sync = false ∧ t.galv.peer = .fenced ∧
      t.galv.settling = true ∧ t.bit R.GALV_STATUS.TAKEOVER_EVT = true
    let blank : State → Prop := fun t => t.mem = [] ∧ t.qps = [] ∧ t.sys.gated = true ∧ (t.sys.phase = .starting ∨ ∃ c, t.sys.phase = .halted c)
    (s.mayTake = true → Completes .twinFaultInRise s took) ∧
    (s.mayTake = false → exec .twinFaultInRise s = .next (s.setBit R.GALV_STATUS.FAULT_IN)) ∧
    (s.mayTake = true → s.bit R.GALV_STATUS.FAULT_IN = false → s.galv.heartbeat = false → Completes .aliveLoss s fun t => took t ∧ t.bit R.GALV_STATUS.ALIVE_OK = false) ∧
    (pairedUp → s.bit R.GALV_STATUS.FAULT_IN = false → s.galv.heartbeat = true → exec .aliveLoss s =
      .next (((s.clrBit R.GALV_STATUS.ALIVE_OK).setBit R.GALV_STATUS.SB_EVT).event 2)) ∧
    (s.mayTake = true → s.bit R.GALV_STATUS.FAULT_IN = false → s.bit R.GALV_STATUS.ALIVE_OK = false → Completes .heartbeatTimeout s took) ∧
    (pairedUp → s.bit R.GALV_STATUS.FAULT_IN = false → s.bit R.GALV_STATUS.ALIVE_OK = true → s.galv.heartbeat = true → s.trailingWork = false →
      Completes .heartbeatTimeout s fun t => t.sync = false ∧ t.bit R.GALV_STATUS.UNSYNC_EVT = true ∧ t.role = s.role ∧ t.galv.peer = .paired ∧ t.sys = s.sys ∧
        t.galv.heartbeat = false) ∧
    (s.paired = false → exec .heartbeatTimeout s = .next cut) ∧
    (s.role = 1 → s.galv.peer = .paired → Completes .goodbye s fun t => t.sync = false ∧ t.galv.peer = .gone ∧ t.role = 1 ∧ t.sys = s.sys ∧
      t.bit R.GALV_STATUS.GOODBYE_EVT = true) ∧
    (s.role ≠ 1 → exec .goodbye s = .next s) ∧
    (s.galv.settling = true → let w : State := { s with galv := { s.galv with settling := false } }
      exec .settleExpiry s = .next (w.reconcileAll w.reconRings)) ∧
    (s.galv.settling = false → exec .settleExpiry s = .next s) ∧
    (s.panelHeld (ringHome q) = false → s.galv.settling = false → (s.qp q).recon = true → exec (.reconcileRetry q) s = .next (s.reconcile q)) ∧
    (s.panelHeld (ringHome q) = false → s.galv.settling = true → exec (.reconcileRetry q) s = .next s) ∧
    (s.fld R.GALV_CFG.FENCE_HOLD_MS ≠ 0 → Completes .fenceInRise s fun t => t.role = 3 ∧ t.bit R.GALV_STATUS.FENCE_IN = true ∧ t.sync = false ∧ t.sys.gated = true ∧
      t.sys.aliveOut = false ∧ t.galv.holding = true ∧ (∀ p, t.panelHeld p = true) ∧ t.mem = s.mem) ∧
    (s.fld R.GALV_CFG.FENCE_HOLD_MS = 0 → Completes .fenceInRise s blank) ∧
    (s.galv.holding = true → s.role = 3 → Completes .fenceHoldExpiry s blank) ∧
    (s.galv.holding = false → exec .fenceHoldExpiry s = .next s) ∧
    (s.role = 3 → s.sync = true → s.galv.peer = .paired → s.bit R.SPOOL_STATUS.UNGATED = true → Completes .fenceInFall s fun t =>
      t.role = 2 ∧ t.bit R.GALV_STATUS.FENCE_IN = false ∧ t.sys.gated = false ∧ t.sys.aliveOut = true ∧ t.galv.holding = false ∧ t.mem = s.mem)

/-- R300, R302, R309, R315: an M-mode write of mworld changes WORLD of a claimed hart alone; a claim that goes takes WORLD with it, a new one takes an
LI-closed hart out of Debug Mode; engine tiles stay claimed; a pin whose world changes becomes an input. -/
def Obligations.WorldsAndClaims : Prop :=
  ∀ (s : State) (who : Agent) (h : Nat) (mode : Priv) (data : W64), s.up = true →
    let old := s.reg R.PWR_CLAIM_HART.off
    let refused : Nat → Prop := fun off => ∃ t : RegTag, regTag off = some t ∧ s.tagAdmits t off who = false
    (h < 64 → old.getLsbD h = true → exec (.mworldWrite h .m data) s = .next (s.setHart h { s.hart h with world := data.getLsbD 0 })) ∧
    (h < 64 → old.getLsbD h = false → exec (.mworldWrite h .m data) s = .next s) ∧
    (h < 64 → mode ≠ .m → exec (.mworldWrite h mode data) s = .next (s.setHart h { s.hart h with trap := 2 })) ∧
    (s.opens who R.PWR_CLAIM_HART.off → Completes (.claimHartWrite who data) s fun t => t.reg R.PWR_CLAIM_HART.off = data ∧ t.mem = s.mem ∧
      ∀ k, k < 64 → (t.hart k).world = ((s.hart k).world && (data.getLsbD k || !old.getLsbD k)) ∧
        (s.fld R.SEAM_DEBUG.OPEN % 2 = 0 → data.getLsbD k = true → old.getLsbD k = false → (t.hart k).debug = false)) ∧
    (s.opens who R.PWR_CLAIM_BLK.off → Completes (.claimBlkWrite who data) s fun t => t.mem = s.mem ∧ t.reg R.PWR_CLAIM_HART.off = old ∧
      ∀ k, k < 64 → (t.reg R.PWR_CLAIM_BLK.off).getLsbD k = (decide (k % 9 = 7 ∧ k < 36) || (data.getLsbD k && decide (k < 36)))) ∧
    (s.opens who R.SEAM_GPIOW.off → Completes (.gpioWorldWrite who data) s fun t => t.fld R.SEAM_GPIOW.LINING = data.toNat % 2 ^ 48 ∧
      ∀ p, p < 48 → let same := (s.fld R.SEAM_GPIOW.LINING).testBit p == data.getLsbD p
        t.gpio.outEn.testBit p = (s.gpio.outEn.testBit p && same) ∧ t.gpio.irqEn.testBit p = (s.gpio.irqEn.testBit p && same)) ∧
    (refused R.PWR_CLAIM_HART.off → exec (.claimHartWrite who data) s = .next (s.violation who .write 4 0x7F R.PWR_CLAIM_HART.off)) ∧
    (refused R.PWR_CLAIM_BLK.off → exec (.claimBlkWrite who data) s = .next (s.violation who .write 4 0x7F R.PWR_CLAIM_BLK.off)) ∧
    (refused R.SEAM_GPIOW.off → exec (.gpioWorldWrite who data) s = .next (s.violation who .write 4 0x7F R.SEAM_GPIOW.off))

/-- R320, Table 10-8: the SPDM responder of a port, connection by connection: version, capabilities, algorithms, digests, certificates, challenge,
measurements, and the session that a key exchange opens. Nonces, keys and signatures of Thimble are free values. R321: IDE: inside an established
session a query reports the four streams, keys of 32 bytes program one of them, SET_GO secures it and SET_STOP ends it; an integrity failure makes a
secure stream Insecure. -/
def Obligations.SpdmAndIde : Prop :=
  (∀ (s : State) (n op off len sid : Nat) (sign : Bool) (pub nonce b : List Byte),
    s.up = true → n < 32 → s.panelHeld (n / 8) = false → s.portOn false n = true → (s.link n).trained = true →
    let x := s.spdmOf n
    let chain := Config.spdmChain s.spool.keygen
    let bad : Instr → Nat → Prop := fun i c => exec i s = .next (s.emit (.spdm n 0x7F [BitVec.ofNat 8 c, 0]))
    let sends : Instr → (State → Prop) → Nat → List Byte → Prop := fun i p code l => Completes i s fun t => t.out = .spdm n code l :: s.out ∧ t.regs = s.regs ∧ p t
    let as : SpdmState → State → Prop := fun y t => t.spdmOf n = y
    sends (.getVersion n) (as { x with conn := 1, sess := [] }) 0x04 [0, 1, 0, 0x12] ∧
    (1 ≤ x.conn → sends (.getCapabilities n) (as { x with conn := max 2 x.conn }) 0x61 (leBytes 4 spdmCaps)) ∧
    (2 ≤ x.conn → sends (.negotiateAlgorithms n true) (as { x with conn := 3 }) 0x63 (leBytes 4 0x80 ++ leBytes 4 2 ++ leBytes 2 0x10 ++ leBytes 2 2) ∧
      bad (.negotiateAlgorithms n false) 1) ∧
    (x.conn < 3 → bad (.getDigests n) 4 ∧ bad (.keyExchange n pub) 4 ∧ bad (.spdmHeartbeat n sid) 4) ∧
    (3 ≤ x.conn →
      sends (.getDigests n) (as x) 0x01 (1 :: sha384 chain) ∧
      (off < chain.length → let c := (chain.drop off).take len
        sends (.getCertificate n 0 off len) (as x) 0x02 (leBytes 2 c.length ++ leBytes 2 (chain.length - off - c.length) ++ c)) ∧
      (nonce.length = 32 → ∃ sig : List Byte, sig.length = 128 ∧ sends (.challenge n 0 nonce) (as x) 0x03 (sha384 chain ++ sig)) ∧
      (s.measured op = some b → ∃ sig : List Byte, sig.length = (if sign then 128 else 0) ∧
        sends (.getMeasurements n op sign nonce) (as x) 0x60 (leBytes 1 (if op = 0 then 7 else b.length / 49) ++ b ++ sig)) ∧
      (s.measured op = none → bad (.getMeasurements n op sign nonce) 1) ∧
      (pub.length = 96 → ∃ l : List Byte, l.length = 224 ∧ sends (.keyExchange n pub) (fun t => smGet 0 (t.spdmOf n).sess x.nextSid = 1 ∧
        (t.spdmOf n).nextSid = x.nextSid + 1) 0x64 (leBytes 2 x.nextSid ++ l)) ∧
      (smGet 0 x.sess sid = 1 → sends (.finish n sid true) (fun t => smGet 0 (t.spdmOf n).sess sid = 2) 0x65 [] ∧
        sends (.finish n sid false) (fun t => smGet 0 (t.spdmOf n).sess sid = 0) 0x7F [6, 0]) ∧
      (smGet 0 x.sess sid = 2 → (1 ≤ op → op ≤ 3 → sends (.keyUpdate n sid op) (as x) 0x69 (leBytes 1 op)) ∧ sends (.spdmHeartbeat n sid) (as x) 0x68 [] ∧
        sends (.endSession n sid) (fun t => smGet 0 (t.spdmOf n).sess sid = 0) 0x6C []) ∧
      (smGet 0 x.sess sid ≠ 2 → bad (.keyUpdate n sid op) 2 ∧ bad (.spdmHeartbeat n sid) 2 ∧ bad (.endSession n sid) 2))) ∧
  (∀ (s : State) (n sid k : Nat) (key : List Byte), s.up = true → n < 32 →
    let st := s.ideOf n k
    let acks : IdeOp → Nat → Nat → Nat → Prop := fun op v obj status => Completes (.ideKm n sid k op key) s fun t =>
      t.out = .spdm n 0x7E [BitVec.ofNat 8 obj, BitVec.ofNat 8 k, BitVec.ofNat 8 status] :: s.out ∧ t.ideOf n k = v ∧ t.regs = s.regs
    (s.panelHeld (n / 8) = false → s.portOn false n = true → (s.link n).trained = true → 3 ≤ (s.spdmOf n).conn → smGet 0 (s.spdmOf n).sess sid = 2 →
      exec (.ideKm n sid k .query key) s = .next (s.emit (.spdm n 0x7E (1 :: (List.range 4).map fun j => BitVec.ofNat 8 (s.ideOf n j)))) ∧
      (k < 4 → key.length = 32 → acks .keyProg 1 3 0) ∧
      (k < 4 → key.length ≠ 32 → acks .keyProg st 3 1) ∧
      (4 ≤ k → acks .keyProg st 3 3 ∧ acks .setGo st 6 3 ∧ acks .setStop st 6 3) ∧
      (k < 4 → 1 ≤ st → acks .setGo 2 6 0) ∧
      (k < 4 → st = 0 → acks .setGo 0 6 3) ∧
      (k < 4 → st = 2 → acks .setStop 3 6 0)) ∧
    (k < 4 → st = 2 → Completes (.ideIntegrityFailure n k none) s fun t => t.ideOf n k = 3 ∧ t.out = s.out ∧ t.regs = s.regs) ∧
    (st ≠ 2 → ∀ tag, exec (.ideIntegrityFailure n k tag) s = .next s))

/-- R315 to R319, R56, Tables 10-5, 10-6: a sender key is installed or revoked in both boot slots, inactive first; slot 0 is revoked by its fuse; ATTEST
signs what the device measured (a free signature); debug enables open within their policies and close; a halt request holds a core while its enable is
open. -/
def Obligations.KeysAttestationDebug : Prop :=
  ∀ (s : State) (r : OnfReq) (slot perm sender mask i : Nat) (wrapped key nonce : List Byte) (own : Nat × SenderKey) (k : SenderKey) (ok : Bool),
    let u := s.taken r
    let x : SenderKey := { sender := sender, key := key, perms := perm, revoked := false, ctr := u.startCtr slot sender u.onf.floor }
    let stored : State → List Byte → Prop := fun t e => ∀ b, b < 2 → smGet [] t.spool.store (64 * b + slot) = e
    let reported := u.report nonce
    let certs := Config.attestCerts u.spool.keygen
    let opened := u.fld R.SEAM_DEBUG.OPEN
    (s.admits r 0x0901 = true → 1 ≤ slot → slot ≤ 63 → perm ≤ 63 → sender < 2 ^ 32 → u.keyOf r.sender = some own → keyUnwrap own.2.key wrapped = some key →
      Answers (.keySenderInstall r slot perm sender wrapped true true) s r 0x0901 0 [] (fun t => smGet SenderKey.none t.onf.keys slot = x ∧ stored t (storedEntry x) ∧
        t.regs = u.regs) ∧
      exec (.keySenderInstall r slot perm sender wrapped false ok) s = .next (u.reply r 0x0901 E.FLASH []) ∧
      Answers (.keySenderInstall r slot perm sender wrapped true false) s r 0x0901 E.FLASH [] fun t => t.onf = u.onf) ∧
    (s.admits r 0x0901 = true → u.onf.keys.find? (fun e => e.1 == slot && !e.2.revoked) = some (slot, k) →
      (u.keysLeft slot = false → exec (.keySenderRevoke r slot true true) s = .next (u.reply r 0x0901 E.PARAM [])) ∧
      (u.keysLeft slot = true → slot ≠ 0 → Answers (.keySenderRevoke r slot true true) s r 0x0901 0 [] fun t =>
        smGet SenderKey.none t.onf.keys slot = { k with revoked := true } ∧ stored t []) ∧
      (u.keysLeft slot = true → slot = 0 → u.bit R.FUSE_PROG.BUSY = false → Config.vppOk u.freeCtr = true →
        Answers (.keySenderRevoke r slot true true) s r 0x0901 0 [] fun t =>
          smGet SenderKey.none t.onf.keys 0 = { k with revoked := true } ∧ t.spool.burn = some (6, 0, []) ∧ t.bit R.FUSE_PROG.BUSY = true)) ∧
    (s.admits r 0x0902 = true → nonce.length = 32 → ∃ sig : List Byte, sig.length = 3405 ∧
      exec (.attest r nonce 0) s = .next (u.drawn.reply r 0x0902 0 (reported ++ sig ++ zeros 3)) ∧
      exec (.attest r nonce 1) s = .next (u.drawn.reply r 0x0902 0 (reported ++ sig ++ zeros 3 ++ (leBytes 4 certs.length ++ certs)))) ∧
    (s.admits r 0x0903 = true → mask ≤ 15 →
      ((∀ j, j < 4 → mask.testBit j = true → u.dbgPolicy j < 2) → Answers (.debugUnlockOpen r mask Config.serial) s r 0x0903 0 [] fun t =>
        t.fld R.SEAM_DEBUG.OPEN = debugImplied (opened ||| mask) ∧ t.mem = u.mem) ∧
      (i < 4 → mask.testBit i = true → 2 ≤ u.dbgPolicy i → exec (.debugUnlockOpen r mask Config.serial) s = .next (u.reply r 0x0903 E.LOCKED [])) ∧
      Answers (.debugUnlockClose r mask Config.serial) s r 0x0903 0 [] fun t => t.fld R.SEAM_DEBUG.OPEN = debugImplied (opened &&& (15 ^^^ mask)) ∧ t.mem = u.mem) ∧
    (s.up = true → i < 64 → (s.hart i).released = true →
      let en := if (s.reg R.PWR_CLAIM_HART.off).getLsbD i then 0 else 2
      exec (.haltRequest (.hart i)) s = .next (if s.debugOpen en then s.setHart i { s.hart i with debug := true, wfi := false } else s)) ∧
    (s.up = true → i < 32 → s.debugOpen (if engPriv i then 0 else 2) = true → (s.eng i).st = .running →
      exec (.haltRequest (.bobbin i)) s = .next (s.setEng i { s.eng i with st := .stopped, stopReq := false }))

/-- R306, R324, R325, Tables 10-3, 11-2: a hart's load, fetch, store and cache-block operations, and a debugger's system-bus access: what the checker
admits is done, a refused write is dropped and logged, a refused or poisoned read gives no data, and a misaligned access outside cacheable memory
traps. -/
def Obligations.HartMemory : Prop :=
  ∀ (s : State) (h a c r k : Nat) (b : List Byte) (fetch : Bool) (en : DbgEnable), s.up = true → b ≠ [] →
    let who : Agent := .hart h
    let kind : AccKind := if fetch then .fetch else .read
    let len := b.length
    let line := a / 64 * 64
    let cause := if fetch then 1 else 5
    let trap : State → Nat → State := fun t c => t.setHart h { t.hart h with trap := c }
    (s.hartRuns h = true →
      ((fetch = true → s.cacheable a = true) → s.cacheable a = true ∨ a % len = 0 →
        (s.memCheck who a len kind = .ok → exec (.hartLoad h a len fetch) s = .next (s.drawn.emit (.readData (s.devRead a len)))) ∧
        (s.memCheck who a len kind = .refused c r → exec (.hartLoad h a len fetch) s = .next (trap ((s.violation who kind c r a).emit .readPoison) cause)) ∧
        (s.memCheck who a len kind = .poison → exec (.hartLoad h a len fetch) s = .next (trap (s.emit .readPoison) cause))) ∧
      (s.cacheable a = false → fetch = true ∨ a % len ≠ 0 → exec (.hartLoad h a len fetch) s = .next (trap s cause)) ∧
      (s.cacheable a = true ∨ a % len = 0 →
        (s.memCheck who a len .write = .ok → exec (.hartStore h a b) s = .next ((s.devWrite a b).unpoison a len)) ∧
        (s.memCheck who a len .write = .refused c r → exec (.hartStore h a b) s = .next (s.violation who .write c r a))) ∧
      (s.cacheable a = false → a % len ≠ 0 → exec (.hartStore h a b) s = .next (trap s 7)) ∧
      (s.cacheable line = true →
        (s.memCheck who line 64 .write = .ok → exec (.cboZero h a) s = .next ((s.devWrite line (zeros 64)).unpoison line 64)) ∧
        (s.memCheck who line 64 .write = .refused c r → exec (.cboZero h a) s = .next (s.violation who .write c r line))) ∧
      (s.cacheable line = false → exec (.cboZero h a) s = .next (trap s 7)) ∧
      (∀ i, i = Instr.cboClean h a ∨ i = .cboFlush h a ∨ i = .cboInval h a → s.cacheable line = true →
        (s.memCheck who line 64 .read = .ok ∨ s.memCheck who line 64 .read = .poison → exec i s = .next s) ∧
        (s.memCheck who line 64 .read = .refused c r → exec i s = .next (s.violation who .read c r line)))) ∧
    (let dbg : Agent := .debug (en == .li)
     let isOpen := (s.fld R.SEAM_DEBUG.OPEN).testBit (if en = .li then 0 else 2)
     (isOpen = true → s.memCheck dbg a len .write = .ok → exec (.systemBusAccess en a (some b) k) s = .next ((s.devWrite a b).unpoison a len)) ∧
     (isOpen = true → s.memCheck dbg a len .write = .refused c r → exec (.systemBusAccess en a (some b) k) s = .next ((s.violation dbg .write c r a).emit .cmderr)) ∧
     (isOpen = true → 0 < k → s.memCheck dbg a k .read = .ok → exec (.systemBusAccess en a none k) s = .next (s.drawn.emit (.readData (s.devRead a k)))) ∧
     (isOpen = true → 0 < k → s.memCheck dbg a k .read = .refused c r →
       exec (.systemBusAccess en a none k) s = .next ((s.violation dbg .read c r a).emit .cmderr)) ∧
     (isOpen = false → exec (.systemBusAccess en a (some b) k) s = .next s))

/-- R323, R326, R327, R336, R337, R411: the custom CSRs and their modes, the enabling of caches, the system cache's control, timer interrupts and WFI. -/
def Obligations.HartControl : Prop :=
  ∀ (s : State) (h : Nat) (mode : Priv) (data : W64) (who : Agent) (kind : TimerCmp), s.up = true → h < 64 →
    let x := s.hart h
    let hartIs : State → Hart → Prop := fun t y => t.hart h = y ∧ t.regs = s.regs ∧ t.mem = s.mem
    let inv := x.invDone = true ∨ data.getLsbD 4 = true ∨ data.getLsbD 5 = true
    let sc := s.bit R.SC_CTL.EN
    let tile := s.unitState (h / 4)
    (mode = .m ∨ mode = .s → Completes (.htapeacctWrite h mode data) s fun t => hartIs t { x with account := data.toNat % 8192 }) ∧
    (mode = .u → Completes (.htapeacctWrite h mode data) s fun t => hartIs t { x with trap := 2 }) ∧
    (mode = .vs ∨ mode = .vu → Completes (.htapeacctWrite h mode data) s fun t => hartIs t { x with trap := 22 }) ∧
    (mode ≠ .m → ∀ i, i = Instr.mcachectlInv h mode data ∨ i = .mcachectlWbinv h mode data ∨ i = .mcachectlEnable h mode data ∨ i = .mpowerreqWrite h mode data →
      Completes i s fun t => hartIs t { x with trap := 2 }) ∧
    (∀ i, i = Instr.mcachectlInv h .m data ∨ i = .mcachectlWbinv h .m data → data.toNat % 8 = 0 → Completes i s fun t =>
      hartIs t { x with invDone := true, icEn := false, dcEn := false, l2En := false, noInv := false, noSc := false }) ∧
    (inv → sc = true → Completes (.mcachectlEnable h .m data) s fun t =>
      hartIs t { x with invDone := true, icEn := data.getLsbD 0, dcEn := data.getLsbD 1, l2En := data.getLsbD 2, noInv := false, noSc := false }) ∧
    (¬ inv → x.icEn = false → data.toNat % 8 = 1 → Completes (.mcachectlEnable h .m data) s fun t =>
      hartIs t { x with icEn := false, dcEn := false, l2En := false, noInv := true }) ∧
    (inv → sc = false → x.dcEn = false → data.getLsbD 1 = true → Completes (.mcachectlEnable h .m data) s fun t => (t.hart h).dcEn = false ∧ (t.hart h).noSc = true) ∧
    (s.opens who R.SC_CTL.off →
      (data.getLsbD 0 = sc → exec (.scCtlInv who data) s = .next (s.setBit R.SC_CTL.INV_DONE)) ∧
      (data.toNat % 4 = 1 → sc = false → s.bit R.SC_CTL.INV_DONE = true → Completes (.scCtlEnable who data) s fun t => t.bit R.SC_CTL.EN = true ∧ t.bit R.SC_CTL.NOINV = false ∧
        t.harts = s.harts) ∧
      (data.toNat % 4 = 1 → sc = false → s.bit R.SC_CTL.INV_DONE = false → exec (.scCtlEnable who data) s = .next (s.setBit R.SC_CTL.NOINV)) ∧
      (data.toNat % 4 = 0 → sc = true → s.harts.all (fun e => !e.2.dcEn && !e.2.l2En) = true → Completes (.scCtlEnable who data) s fun t =>
        t.bit R.SC_CTL.EN = false ∧ t.bit R.SC_CTL.NOPRIV = false) ∧
      (data.toNat % 4 = 0 → sc = true → s.harts.any (fun e => e.2.dcEn || e.2.l2En) = true → exec (.scCtlEnable who data) s = .next (s.setBit R.SC_CTL.NOPRIV))) ∧
    (let y : Hart := { x with mtip := x.mtip || kind == .mtimecmp, stip := x.stip || kind == .stimecmp, vstip := x.vstip || kind == .vstimecmp }
     (tile = 0 ∨ tile = 3 → Completes (.machineTimerInterrupt h kind) s fun t => hartIs t { y with wfi := false }) ∧
     (tile = 1 ∨ tile = 2 → exec (.machineTimerInterrupt h kind) s = .next ((s.setHart h y).wakeUnit (h / 4)))) ∧
    (x.released = true → x.debug = false → Completes (.wfi h) s fun t => hartIs t { x with wfi := true })

/-- R55, R411, R417, R420, Tables 15-3 and 15-9: a power request by PWR_SET, PWR_REQ or mpowerreq is judged by unit, claim and conditions, refused with
its code or taken; the Croak pattern goes out on a lane quad; PWR_STATUS reports. Table 15-3, R410, R411, R415: what an accepted power request leaves:
a sleeping unit starts to wake, a tile's request waits on its four harts, a panel's or quad's request is held, Hold begins at once. -/
def Obligations.PowerRequests : Prop :=
  (∀ (s : State) (r : OnfReq) (who : Agent) (h u : Nat) (croak : Bool) (data : W64),
    let v := s.taken r
    let fits : Nat → Bool → Prop := fun st l => u < 52 ∧ (st = 3 → 16 ≤ u ∧ u < 20 ∧ l = true)
    let may : State → Bool → Prop := fun w l => l = true ∨ w.unitClaimed u = false
    let idle : State → Nat → Prop := fun w st => (16 ≤ u → u < 20 → st = 2 → w.panelIdle (u - 16) = true) ∧ (20 ≤ u → st = 1 ∨ st = 2 → w.quadIdle u = true)
    let judged : State → Nat → Bool → (State → Nat → Prop) → Prop := fun w st l answer =>
      (fits st l → may w l → idle w st → answer (w.takePower u st l) 0) ∧
      (¬ fits st l → answer w E.PARAM) ∧
      (fits st l → ¬ may w l → answer (w.claimRefuse u) E.CLAIMED) ∧
      (fits st l → may w l → ¬ idle w st → answer w E.POWER_STATE)
    (s.admits r 0x0701 = true → ∀ i st, (i, st) ∈ [(Instr.pwrSetBask r u croak, 0), (.pwrSetDoze r u croak, 1), (.pwrSetBrumate r u croak, 2), (.pwrSetHold r u croak, 3)] →
      judged (if croak then v.croakOut u else v) st (r.ch == 35 || r.crit) fun w c => exec i s = .next (w.reply r 0x0701 c [])) ∧
    (s.admits r 0x0702 = true → exec (.pwrStatus r) s = .next (v.reply r 0x0702 0 ([v.powerWord 0, v.powerWord 1, v.reg R.PWR_STATUS.off, v.reg R.PWR_CLAIM_HART.off,
      v.reg R.PWR_CLAIM_BLK.off, v.avsWord].flatMap fun (w : W64) => leBytes 8 w.toNat))) ∧
    (s.up = true → s.opens who R.PWR_REQ.off → data.toNat % 64 = u →
      let asked : Nat → State := fun st => (s.setFld R.PWR_REQ.UNIT u).setFld R.PWR_REQ.STATE st
      (∀ i st, (i, st) ∈ [(Instr.pwrReqBask who data, 0), (.pwrReqDoze who data, 1), (.pwrReqBrumate who data, 2), (.pwrReqHold who data, 3)] →
        judged (if data.getLsbD 10 then (asked st).croakOut u else asked st) st (s.world who == .lining) fun w c =>
          exec i s = .next (w.setFld R.PWR_REQ.STATUS c)) ∧
      (let st := data.toNat / 256 % 4
       judged ((asked st).croakOut u) st (s.world who == .lining) fun w c => exec (.croak who data) s = .next (w.setFld R.PWR_REQ.STATUS c))) ∧
    (20 ≤ u → u < 52 → s.sys.gated = false → .croak u ∈ (s.croakOut u).out) ∧
    (s.up = true → h < 64 → let x := s.hart h; let st := data.toNat % 4
      (st = 1 ∨ st = 2 → x.world = true ∨ s.unitClaimed (h / 4) = false → exec (.mpowerreqWrite h .m data) s = .next (s.setHart h { x with
        preq := st, preqLining := x.world, preqPending := true, preqRefused := false })) ∧
      (st = 1 ∨ st = 2 → x.world = false → s.unitClaimed (h / 4) = true → Completes (.mpowerreqWrite h .m data) s fun t =>
        (t.hart h).preqRefused = true ∧ (t.hart h).preqPending = false ∧ t.bit R.PWR_STATUS.CLAIMED = true ∧ t.fld R.PWR_STATUS.LAST_UNIT = h / 4) ∧
      (st = 0 ∨ st = 3 → exec (.mpowerreqWrite h .m data) s = .next (s.setHart h { x with
        preq := st, preqLining := x.world, preqPending := false, preqRefused := false })))) ∧
  (∀ (s : State) (u st k : Nat) (l : Bool), u < 52 →
    let x := s.unit u
    let t := s.takePower u st l
    (st = 0 → x.target = none → x.st = 1 ∨ x.st = 2 → (t.unit u).waking = true ∧ (t.unit u).req = none) ∧
    (st = 0 → x.target.isSome = true → x.pnr = false → (t.unit u).target = none) ∧
    (st = 0 → x.target.isSome = true → x.pnr = true → (t.unit u).target = x.target ∧ 2 ≤ (t.unit u).wakeAfter) ∧
    (st = 1 ∨ st = 2 → u < 16 → k < 4 → t.hart (4 * u + k) = { s.hart (4 * u + k) with preq := st, preqLining := l, preqPending := true, preqRefused := false }) ∧
    (st = 1 ∨ st = 2 → 16 ≤ u → t.unit u = { x with req := some (st, l) }) ∧
    (st = 3 → (t.unit u).target = some 3 ∧ (t.unit u).pnr = true) ∧
    ((t.eng (8 * unitPanel u + 7)).pend.testBit 4 = true ∧ t.regs = s.regs ∧ t.mem = s.mem))

/-- R410, R412, R415, R416, R419, R422, R423, Tables 15-2, 15-3, 15-5: entries start when their conditions hold, pass a point of no return and complete;
units wake by access, request, lane activity and Croak; Hold holds a panel; a scan read of a held panel zeroes the keys first. -/
def Obligations.PowerTransitions : Prop :=
  ∀ (s : State) (u t : Nat) (who : Agent) (data : W64) (sh l : Bool), s.up = true → u < 52 →
    let x := s.unit u
    let free := x.target = none ∧ x.waking = false ∧ s.panelHeld (unitPanel u) = false
    let tile := 16 + unitPanel u
    (free → s.readyEntry u = some (t, sh) → x.st < t → exec (.powerEntryStart u) s = .next (s.setUnit u { x with target := some t, pnr := false, shell := sh, wakeAfter := 0 })) ∧
    (free → u < 16 → 1 ≤ t → t ≤ 2 → x.st < t → (∀ k, k < 4 → let y := s.hart (4 * u + k); y.preqPending = true ∧ y.wfi = true ∧ y.preq = t) →
      Completes (.powerEntryStart u) s fun w => (w.unit u).target = some t ∧ (w.unit u).st = x.st) ∧
    (free → 20 ≤ u → x.req = some (t, l) → x.st < t → s.quadIdle u = true → Completes (.powerEntryStart u) s fun w => (w.unit u).target = some t ∧ (w.unit u).shell = !l) ∧
    (s.readyEntry u = none → exec (.powerEntryStart u) s = .next s) ∧
    (u < 16 ∨ 20 ≤ u → x.target = some 2 → exec (.pointOfNoReturn u) s = .next (s.setUnit u { x with pnr := true })) ∧
    (x.target ≠ some 2 → exec (.pointOfNoReturn u) s = .next s) ∧
    (x.target = none → exec (.powerEntryComplete u) s = .next s) ∧
    (x.target = some 1 → x.wakeAfter = 0 → Completes (.powerEntryComplete u) s fun w => (w.unit u).st = 1 ∧ (w.unit u).target = none ∧ (w.unit u).waking = false ∧ w.regs = s.regs) ∧
    (x.target = some 2 → x.pnr = true → x.wakeAfter = 1 → u < 16 → Completes (.powerEntryComplete u) s fun w => (w.unit u).st = 2 ∧ (w.unit u).waking = true ∧
      w.bit R.PWR_STATUS.CLAIM_WAKE = true ∧ ∀ k, k < 4 → let y := w.hart (4 * u + k); y.icEn = false ∧ y.dcEn = false ∧ y.l2En = false ∧ y.invDone = false ∧ y.preqPending = false) ∧
    (x.target = some 3 → Completes (.powerEntryComplete u) s fun w => w.panelHeld (unitPanel u) = true ∧ (w.unit u).target = none ∧ w.mem = s.mem) ∧
    (s.panelHeld (unitPanel u) = false → (s.unit tile).st = 0 → (s.unit tile).target = none →
      (u < 16 ∨ 20 ≤ u → x.target = none → x.st = 1 ∨ (x.st = 2 ∧ u < 16) → Completes (.unitWake u) s fun w => (w.unit u).waking = true ∧ w.bit R.PWR_STATUS.WAKE_EVT = true) ∧
      (u < 16 → x.target.isSome = true → x.pnr = false → Completes (.unitWake u) s fun w => (w.unit u).target = none ∧ (w.unit u).req = x.req) ∧
      (x.target = none → x.st = 0 → exec (.unitWake u) s = .next s)) ∧
    (s.panelHeld (unitPanel u) = true → exec (.unitWake u) s = .next s) ∧
    (x.waking = true → Completes (.wakeReady u) s fun w => (w.unit u).st = 0 ∧ (w.unit u).waking = false ∧ w.regs = s.regs ∧
      (u < 16 → (s.unit tile).st = 0 → ∀ k, k < 4 → let y := s.hart (4 * u + k); y.released = true →
        (x.st = 1 → w.hart (4 * u + k) = { y with wfi := false }) ∧
        (x.st = 2 → w.hart (4 * u + k) = { y with wfi := false, startPc := s.fld R.PWR_WAKEVEC.ENTRY / 4 * 4, trap := 0x8000000000000018 }))) ∧
    (x.waking = false → exec (.wakeReady u) s = .next s) ∧
    (20 ≤ u → s.panelHeld (unitPanel u) = false → x.target = none →
      (x.st = 1 → exec (.laneActivityWake u) s = .next (s.setUnit u { x with waking := true })) ∧
      (x.st = 2 → 4 ≤ quadNum u → exec (.croakDetect u) s = .next (s.setUnit u { x with waking := true }))) ∧
    (u < 20 ∨ x.st = 0 → exec (.laneActivityWake u) s = .next s ∧ exec (.croakDetect u) s = .next s) ∧
    (s.opens who R.PWR_HOLD.off → Completes (.holdEnter who data) s fun w => w.mem = s.mem ∧
      ∀ p, p < 4 → w.panelHeld p = (s.panelHeld p || data.getLsbD p)) ∧
    (s.opens who R.PWR_SCAN_DATA.off →
      (s.panelHeld (s.fld R.PWR_SCAN_SEL.PANEL) = true → Completes (.scanRead who) s fun w => w.shut.keys = [] ∧ w.shut.keyData = [] ∧ (∀ n k, w.ideOf n k = 0) ∧
        ∃ b : List Byte, b.length = 8 ∧ w.out = .readData b :: s.out) ∧
      (s.panelHeld (s.fld R.PWR_SCAN_SEL.PANEL) = false → exec (.scanRead who) s = .next (s.emit (.readData (zeros 8)))))

/-- R373, R374, R376, R379 to R381: the boot's own steps: Thimble starts from the body that lands; its verdict opens the keys or excludes the slot; BIST
and the watchdog end well or halt the device; a halted device is gated, its engines stopped and its harts back in reset. R375, R378, R381, R384:
SPOOL_CTL takes a Thimble engine: UNGATE ends the boot and opens the outputs unless the device is fenced, RETRY excludes the slot, FAIL halts. -/
def Obligations.BootAndSpoolControl : Prop :=
  (∀ (s : State) (code : Nat),
    let begun := s.sys.phase = .starting
    let v := (((s.setBit R.SPOOL_STATUS.KEYS_OPEN).setFld R.SPOOL_TIME.VERDICT_US s.bootUs).bootCode 6).loadKeys s.slot s.onf.floor
    (begun → s.fld R.TOP_STATUS.BOOT_CODE = 4 → Completes .thimbleStart s fun t => t.fld R.TOP_STATUS.BOOT_CODE = 5 ∧ t.spool.loaded = true ∧
      ∀ e, e = 6 ∨ e = 14 ∨ e = 22 ∨ e = 30 → (t.eng e).st = .running ∧ (t.eng e).pc = 0 ∧ (t.eng e).w = [] ∧ (t.eng e).ie = false) ∧
    (begun → s.fld R.TOP_STATUS.BOOT_CODE = 5 →
      (s.bodyOk s.slot 1 (s.imgHdr s.slot 1) = false → exec .thimbleBodyVerdict s = .next (s.excludeSlot (some 0x33))) ∧
      (s.bodyOk s.slot 1 (s.imgHdr s.slot 1) = true → v.imgOk s.slot 3 = false → exec .thimbleBodyVerdict s = .next (v.excludeSlot (some 0x36))) ∧
      (s.bodyOk s.slot 1 (s.imgHdr s.slot 1) = true → v.imgOk s.slot 3 = true → s.bit R.SPOOL_STATUS.DDR_DONE = false → s.spool.images = false →
        Completes .thimbleBodyVerdict s fun t => t.bit R.SPOOL_STATUS.KEYS_OPEN = true ∧ t.fld R.TOP_STATUS.BOOT_CODE = 8 ∧ t.spool.ucode = true ∧ t.onf = v.onf ∧ t.mem = s.mem)) ∧
    (begun → s.bit R.SPOOL_STATUS.BIST_DONE = false →
      exec (.bistComplete true) s = .next (s.bootHalt 0x23) ∧
      (s.bit R.SPOOL_STATUS.KEYS_OPEN = false → exec (.bistComplete false) s = .next (s.setBit R.SPOOL_STATUS.BIST_DONE)) ∧
      (s.bit R.SPOOL_STATUS.KEYS_OPEN = true → s.spool.ucode = true → s.spool.images = false → s.bit R.SPOOL_STATUS.DDR_DONE = true →
        exec (.bistComplete false) s = .next (s.setBit R.SPOOL_STATUS.BIST_DONE).runImages)) ∧
    (begun → s.bit R.SPOOL_STATUS.UNGATED = false → exec .bootWatchdogExpiry s = .next (s.bootHalt 0x26)) ∧
    (s.bit R.SPOOL_STATUS.UNGATED = true → exec .bootWatchdogExpiry s = .next s) ∧
    (code < 64 → let t := s.bootHalt code
      t.sys.phase = .halted code ∧ t.sys.gated = true ∧ t.sys.aliveOut = false ∧ t.fld R.TOP_STATUS.BOOT_CODE = code ∧ t.harts = [] ∧
        (∀ e, e ∈ t.engs → e.2.st = .stopped) ∧ (code = 0x27 ∨ code = 0x2E → t.recovering = true))) ∧
  (∀ (s : State) (e : Nat) (data : W64), s.up = true → e < 32 → e % 8 = 6 → s.opens (.bobbin e) R.SPOOL_CTL.off →
    let begun := s.sys.phase = .starting
    let fail := data.toNat / 256 % 64
    let fails := 0x20 ≤ fail ∧ fail ≤ 0x29 ∨ fail = 0x2E
    let header := sha384 (s.imgHdr s.slot 1)
    (fails → exec (.spoolFail (.bobbin e) data) s = .next (s.bootHalt fail)) ∧
    (¬ fails → begun → data.getLsbD 1 = true → s.bit R.SPOOL_STATUS.UNGATED = false → exec (.spoolRetry (.bobbin e) data) s = .next (s.excludeSlot none)) ∧
    (¬ fails → begun → data.getLsbD 1 = false → data.getLsbD 0 = true → s.bit R.SPOOL_STATUS.KEYS_OPEN = true → Completes (.spoolUngate (.bobbin e) data) s fun t =>
      t.sys.phase = .running ∧ t.bit R.SPOOL_STATUS.UNGATED = true ∧ t.fld R.TOP_STATUS.BOOT_CODE = 0x3F ∧ t.fld R.TOP_STATUS.BOOT_DONE = 1 ∧
        t.sys.gated = (s.role == 3) ∧ t.sys.aliveOut = (s.role != 3) ∧ (s.slot = 0 → t.spool.rec0 = header) ∧ (s.slot = 1 → t.spool.rec1 = header) ∧ t.mem = s.mem) ∧
    (let t := s.excludeSlot none
     t.bit (R.SPOOL_SLOTSTAT.EXCLUDED s.slot) = true ∧ t.bit R.SPOOL_STATUS.KEYS_OPEN = false ∧ t.engs = [] ∧ t.shut.keys = [] ∧
       t.fld R.SPOOL_STATUS.RETRIES = min (s.fld R.SPOOL_STATUS.RETRIES + 1) (2 ^ R.SPOOL_STATUS.RETRIES.w - 1)))

/-- R382, R383, Tables 13-7, 13-9, 13-17: a GO on FUSE_PROG burns one field for a requester and at a time that the field admits, is refused with its code
else; the burn's end frees the path, says whether every cell took, and unburns nothing. -/
def Obligations.FuseBurns : Prop :=
  ∀ (s : State) (who : Agent) (data : W64) (i : Instr) (f : Nat), s.up = true → s.opens who R.FUSE_PROG.off →
    (i, f) ∈ [(Instr.fuseBurnKeyhash who data, 1), (.fuseBurnRevoke who data, 2), (.fuseBurnSvnT who data, 3), (.fuseBurnSvnP who data, 4),
      (.fuseBurnDebugPolicy who data, 5), (.fuseBurnFactoryKeyOff who data, 6)] →
    let idx := data.toNat / 16 % 4
    let isOpen := s.bit R.SPOOL_STATUS.KEYS_OPEN = true ∧ s.bit R.FUSE_PROG.BUSY = false
    let thimble := f = 2 ∨ f = 3 ∨ f = 4 ∨ f = 6
    let counter := f = 3 ∨ f = 4
    let target := (s.pdataWord 0).toNat % 128
    let entitled := (thimble → isThimble who = true) ∧ (¬ thimble → s.bit R.SPOOL_STATUS.UNGATED = true) ∧ (counter → target ≤ 64)
    let x := s.spool.fuse
    let refused : Nat → Prop := fun c => Completes i s fun t => t.fld R.FUSE_PROG.STATUS = c ∧ t.bit R.FUSE_PROG.BUSY = false ∧ t.spool = s.spool
    (isOpen → entitled → s.burnClears f idx = false → Config.vppOk s.freeCtr = true → Completes i s fun t =>
      t.spool.burn = some (f, idx, s.burnWords) ∧ t.bit R.FUSE_PROG.BUSY = true ∧ t.fld R.FUSE_PROG.FIELD = f ∧ t.fld R.FUSE_PROG.INDEX = idx ∧ t.spool.fuse = x) ∧
    (isOpen → thimble → isThimble who = false → refused E.PRIVILEGE) ∧
    (isOpen → ¬ thimble → s.bit R.SPOOL_STATUS.UNGATED = false → refused E.LOCKED) ∧
    (isOpen → entitled → s.burnClears f idx = true → refused E.LOCKED) ∧
    (isOpen → entitled → s.burnClears f idx = false → Config.vppOk s.freeCtr = false → refused E.POWER_STATE) ∧
    (s.bit R.SPOOL_STATUS.KEYS_OPEN = false → exec i s = .next (s.setFld R.FUSE_PROG.STATUS E.LOCKED)) ∧
    (s.bit R.SPOOL_STATUS.KEYS_OPEN = true → s.bit R.FUSE_PROG.BUSY = true → exec i s = .next s) ∧
    (∀ (n k : Nat) (v : List W64) (took : Bool), s.spool.burn = some (n, k, v) → Completes (.fuseBurnComplete took) s fun t =>
      t.spool.burn = none ∧ t.bit R.FUSE_PROG.BUSY = false ∧ t.bit R.FUSE_PROG.GO = false ∧ t.fld R.FUSE_PROG.STATUS = (if took then 0 else E.BIST) ∧
        (∀ b, x.revoke.testBit b = true → t.spool.fuse.revoke.testBit b = true) ∧ x.svnOfT ≤ t.spool.fuse.svnOfT ∧ x.svnOfP ≤ t.spool.fuse.svnOfP ∧
        (x.factoryOff = true → t.spool.fuse.factoryOff = true) ∧
        (took = true → n = 2 → t.spool.fuse.revoke = x.revoke ||| (v.headD 0).toNat % 16) ∧ (took = true → n = 3 → t.spool.fuse.svnT = max x.svnOfT ((v.headD 0).toNat % 128))) ∧
    (s.spool.burn = none → ∀ took, exec (.fuseBurnComplete took) s = .next s)

/-- R384 to R386: FW_WRITE writes the inactive slot, or the configuration block of both; FW_ACTIVATE checks the images and only then writes MAGIC, or
erases the header; RECOVERY writes a slot while recovery is open and resets the device once its image stands. -/
def Obligations.FirmwareUpdate : Prop :=
  ∀ (s : State) (r : OnfReq) (off slot : Nat) (data : List Byte) (ents : List (Nat × W64)) (ok : Bool),
    let u := s.taken r
    let k := u.otherSlot
    let block := cfgBytes ents
    let w := (u.flashPut slot off data true)
    (s.admits r 0x0601 = true →
      (imgRange k off data.length = true → data ≠ [] → 8192 ≤ off → Answers (.fwWriteImage r off data true) s r 0x0601 0 [] fun t =>
        t.flashRead k off data.length = data ∧ t.regs = u.regs ∧ (k ≠ u.slot → t.flashRead u.slot off data.length = u.flashRead u.slot off data.length)) ∧
      (imgRange k off data.length = true → data ≠ [] → off < 8192 → Answers (.fwWriteImage r off data true) s r 0x0601 0 [] fun t =>
        t.flashRead k 0 4 = List.replicate 4 0xFF) ∧
      (imgRange k off data.length = false → exec (.fwWriteImage r off data ok) s = .next (u.reply r 0x0601 E.PARAM [])) ∧
      (imgRange k off data.length = true → data ≠ [] → Answers (.fwWriteImage r off data false) s r 0x0601 E.FLASH [] fun t => t.regs = u.regs) ∧
      (ents ≠ [] → ents.length ≤ 65000 → Answers (.fwWriteConfig r ents true) s r 0x0601 0 [] fun t =>
        t.flashRead u.slot (cfgBase u.slot) block.length = block ∧ (k ≠ u.slot → t.flashRead k (cfgBase k) block.length = block))) ∧
    (s.admits r 0x0602 = true → flashCap k ≠ 0 →
      (u.slotCode k = 0 → Answers (.fwActivateSlot r true) s r 0x0602 0 [] fun t => t.flashRead k 0 4 = leBytes 4 imgMagic ∧
        (k = 1 → t.onf.ceil1 = (if u.slot = 0 then u.onf.ceil0 else u.onf.ceil1) ∧ t.spool.rec1 = []) ∧
        (k = 0 → t.onf.ceil0 = (if u.slot = 0 then u.onf.ceil0 else u.onf.ceil1) ∧ t.spool.rec0 = [])) ∧
      (u.slotCode k = 0 → exec (.fwActivateSlot r false) s = .next (u.reply r 0x0602 E.FLASH [])) ∧
      (u.slotCode k ≠ 0 → exec (.fwActivateSlot r ok) s = .next (u.reply r 0x0602 (u.slotCode k) []))) ∧
    (s.admits r 0x0602 = true → Answers (.fwActivateWithdraw r true) s r 0x0602 0 [] fun t => t.flashRead k 0 8192 = List.replicate 8192 0xFF) ∧
    (s.admits r 0x0603 = true → slot ≤ 1 → flashCap slot ≠ 0 → off + data.length ≤ flashCap slot → u.recovering = true →
      let c := w.imgCode slot 1 (leAt (w.imgHdr slot 1) 0 4)
      (c = 0 → Answers (.recovery r slot off data true) s r 0x0603 0 [] fun t => t.spool.recReset = true ∧ t.flashRead slot off data.length = data) ∧
      (c ≠ 0 → exec (.recovery r slot off data true) s = .next (w.reply r 0x0603 c [])) ∧
      Answers (.recovery r slot off data false) s r 0x0603 E.FLASH [] fun t => t.spool.recReset = u.spool.recReset) ∧
    (s.admits r 0x0603 = true → u.recovering = false → exec (.recovery r slot off data ok) s = .next (u.reply r 0x0603 E.PARAM [])) ∧
    (s.spool.recReset = true → exec .recoveryResetDelay s = .next (s.warmReset .onafaet)) ∧
    (s.spool.recReset = false → exec .recoveryResetDelay s = .next s)

/-- R389, R391, R392, R394, R403: a running timer ticks; a mask starts or stops the timers it names, but not T00 nor, from the Shell, a Lining timer; a
snapshot copies every named count; T00 advances by its rate, and a step adds its ns. R395, R396, Table 14-2: a match of an armed compare sets MATCH,
disarms it or adds RELOAD, and sets MISS when MATCH stood; a write of TMR_CMP arms the compare and fires in the same cycle at or below the count,
adding no RELOAD; clearing MATCH arms it. -/
def Obligations.TimerCountsAndCompare : Prop :=
  (∀ (s : State) (who : Agent) (k : Nat) (mask : W64), s.up = true → k < 64 →
    let mine := mask.getLsbD k && decide (k ≠ 0) && (s.world who == .lining || !s.tmrLining k)
    let runs := (s.reg R.TMU_RUN.off).getLsbD k
    let count := s.reg (R.TMR_COUNT.off k)
    (k ≠ 0 → runs = true → exec (.timerTick k) s = .next (s.setReg (R.TMR_COUNT.off k) (count + 1))) ∧
    (k ≠ 0 → runs = false → exec (.timerTick k) s = .next s) ∧
    (s.sys.phase = .running → Completes (.timerTick 0) s fun t => t.tmu.t00 = s.tmu.t00 + s.t00Rate ∧ t.regs = s.regs) ∧
    (s.opens who R.TMU_GO.off → Completes (.tmuGo who mask) s fun t => (t.reg R.TMU_RUN.off).getLsbD k = (runs || mine) ∧ t.reg (R.TMR_COUNT.off k) = count ∧ t.tmu = s.tmu) ∧
    (s.opens who R.TMU_HALT.off → Completes (.tmuHalt who mask) s fun t => (t.reg R.TMU_RUN.off).getLsbD k = (runs && !mine) ∧ t.reg (R.TMR_COUNT.off k) = count ∧ t.tmu = s.tmu) ∧
    (s.opens who R.TMU_SNAP.off → Completes (.tmuSnap who mask) s fun t =>
      t.reg (R.TMR_SNAP.off k) = (if mask.getLsbD k then BitVec.ofNat 64 (s.tmrCount k) else s.reg (R.TMR_SNAP.off k)) ∧
        t.fld R.TMU_STATUS.SNAP_SEQ = (s.fld R.TMU_STATUS.SNAP_SEQ + 1) % 2 ^ R.TMU_STATUS.SNAP_SEQ.w ∧ t.reg (R.TMR_COUNT.off k) = count) ∧
    (s.opens who R.TMU_T00_STEP.off → s.onf.session = none → Completes (.t00Step who mask) s fun t =>
      t.tmu.t00 = (((s.tmu.t00 : Int) + mask.toInt * 2 ^ 32) % 2 ^ 96).toNat ∧ t.mem = s.mem)) ∧
  (∀ (s : State) (who : Agent) (k : Nat) (data : W64), s.up = true → k < 64 →
    let cmp := s.reg (R.TMR_CMP.off k)
    let reload := s.fld (R.TMR_CFG.RELOAD k)
    let missed : State → Prop := fun t => t.bit (R.TMR_STAT.MATCH k) = true ∧ t.bit (R.TMR_STAT.MISS k) = (s.bit (R.TMR_STAT.MISS k) || s.bit (R.TMR_STAT.MATCH k))
    (s.tmrArmed k = true → cmp.toNat ≤ s.tmrCount k →
      (k = 0 ∨ reload = 0 → Completes (.timerMatch k) s fun t => missed t ∧ t.tmrArmed k = false ∧ t.reg (R.TMR_CMP.off k) = cmp) ∧
      (k ≠ 0 → reload ≠ 0 → Completes (.timerMatch k) s fun t => missed t ∧ t.tmrArmed k = true ∧ t.reg (R.TMR_CMP.off k) = cmp + BitVec.ofNat 64 reload)) ∧
    (s.tmrArmed k = false ∨ s.tmrCount k < cmp.toNat → exec (.timerMatch k) s = .next s) ∧
    (s.opens who (R.TMR_CMP.off k) →
      (data.toNat ≤ s.tmrCount k → Completes (.tmrCmpWrite who k data) s fun t => missed t ∧ t.tmrArmed k = false ∧ t.reg (R.TMR_CMP.off k) = data) ∧
      (s.tmrCount k < data.toNat → Completes (.tmrCmpWrite who k data) s fun t => t.reg (R.TMR_CMP.off k) = data ∧ t.tmrArmed k = true ∧ t.out = s.out ∧
        t.bit (R.TMR_STAT.MATCH k) = s.bit (R.TMR_STAT.MATCH k))) ∧
    (s.opens who (R.TMR_STAT.off k) → s.bit (R.TMR_STAT.MATCH k) = true →
      Completes (.tmrMatchClear who k) s fun t => t.bit (R.TMR_STAT.MATCH k) = false ∧ t.tmrArmed k = true ∧ t.reg (R.TMR_CMP.off k) = cmp))

/-- R397 to R401: an edge of a live source is captured while CAP_EN is 1, in RISE or FALL by POL, with NEW, LOST and, under an open copy, OVR; a falling
one writes WIDTH; a read gives the value and clears NEW. R404, R405, R407: PTP timestamps enter a group's FIFO of 64 and leave it oldest first; a PTM
dialogue records its times in one cycle; a PPS pin falls. -/
def Obligations.TimerCapturesAndSync : Prop :=
  (∀ (s : State) (who : Agent) (k back : Nat) (rising fall : Bool), s.up = true → k < 64 →
    let pol := s.bit (R.TMR_CFG.POL k)
    let src := s.fld (R.TMR_CFG.SRC k)
    let value := BitVec.ofNat 64 (s.tmrCount k) - BitVec.ofNat 64 (if src < 16 then back else 0)
    let rise := R.TMR_RISE.off k
    let off := if fall then R.TMR_FALL.off k else rise
    (s.bit (R.TMR_CFG.CAP_EN k) = true → s.srcLive src = true →
      (rising ≠ pol → Completes (.timerCapture k rising back) s fun t => t.reg rise = value ∧ t.bit (R.TMR_STAT.NEW_R k) = true ∧
        t.bit (R.TMR_STAT.LOST_R k) = (s.bit (R.TMR_STAT.LOST_R k) || s.bit (R.TMR_STAT.NEW_R k)) ∧
        t.bit (R.TMR_STAT.OVR k) = (s.bit (R.TMR_STAT.OVR k) || s.copyOpen rise) ∧ t.reg (R.TMR_FALL.off k) = s.reg (R.TMR_FALL.off k)) ∧
      (rising = pol → Completes (.timerCapture k rising back) s fun t => t.reg (R.TMR_FALL.off k) = value ∧ t.bit (R.TMR_STAT.NEW_F k) = true ∧
        t.bit (R.TMR_STAT.LOST_F k) = (s.bit (R.TMR_STAT.LOST_F k) || s.bit (R.TMR_STAT.NEW_F k)) ∧
        t.bit (R.TMR_STAT.OVR k) = (s.bit (R.TMR_STAT.OVR k) || s.copyOpen (R.TMR_FALL.off k) || s.copyOpen (R.TMR_WIDTH.off k)) ∧
        t.reg (R.TMR_WIDTH.off k) = value - s.reg rise ∧ t.reg rise = s.reg rise)) ∧
    (s.bit (R.TMR_CFG.CAP_EN k) = false → exec (.timerCapture k rising back) s = .next s) ∧
    (k = 0 ∨ s.opens who off → Completes (.tmrCaptureRead who k fall) s fun t => t.out = .readData (leBytes 8 (s.reg off).toNat) :: s.out ∧
      t.bit (if fall then R.TMR_STAT.NEW_F k else R.TMR_STAT.NEW_R k) = false ∧ t.reg off = s.reg off ∧
        t.bit (if fall then R.TMR_STAT.NEW_R k else R.TMR_STAT.NEW_F k) = s.bit (if fall then R.TMR_STAT.NEW_R k else R.TMR_STAT.NEW_F k))) ∧
  (∀ (s : State) (who : Agent) (g n k t1 : Nat) (m : PtpMsg) (master : W64) (delay : BitVec 32), s.up = true →
    let fifo := s.ptpFifo g
    (g < 6 → s.bit (R.EMAC_GCFG.PTP_EN g) = true → m.msgType < 4 →
      (fifo.length < 64 → Completes (.ptpTimestamp g m) s fun t => t.ptpFifo g = fifo ++ [(s.now % 2 ^ 64, ptpHi m)] ∧ t.regs = s.regs) ∧
      (64 ≤ fifo.length → exec (.ptpTimestamp g m) s = .next (s.setBit ⟨R.TMU_STATUS.off, 6 + g, 1⟩))) ∧
    (g < 6 → 4 ≤ m.msgType → exec (.ptpTimestamp g m) s = .next s) ∧
    (g < 6 → s.opens who (R.TMU_PTPTS_HI.off g) → Completes (.ptpTimestampPop who g) s fun t => t.ptpFifo g = fifo.tail ∧
      t.out = .readData (leBytes 8 (s.ptpHead g).2) :: s.out ∧ t.regs = s.regs) ∧
    (n < 32 → (s.fn (0x1000 + n)).ptmEn = true → s.fld (R.TMU_PTM_CTL.PERIOD_MS n) ≠ 0 → s.sys.gated = false →
      Completes (.ptmRequest n) s fun t => smGet 0 t.tmu.ptm n = s.now + 1 ∧ t.out = .ptm n :: s.out ∧ t.regs = s.regs) ∧
    (n < 32 → s.fld (R.TMU_PTM_CTL.PERIOD_MS n) = 0 → exec (.ptmRequest n) s = .next s) ∧
    (n < 32 → smGet 0 s.tmu.ptm n = t1 + 1 → Completes (.ptmResponse n true master delay) s fun t =>
      t.reg (R.TMU_PTM_T1.off n) = BitVec.ofNat 64 t1 ∧ t.reg (R.TMU_PTM_T4.off n) = BitVec.ofNat 64 s.now ∧ t.reg (R.TMU_PTM_MASTER.off n) = master ∧
        t.fld (R.TMU_PTM_STAT.PROP_DELAY n) = delay.toNat ∧ smGet 0 t.tmu.ptm n = 0 ∧
        t.fld (R.TMU_PTM_STAT.SEQ n) = (s.fld (R.TMU_PTM_STAT.SEQ n) + 1) % 2 ^ (R.TMU_PTM_STAT.SEQ n).w) ∧
    (k < 2 → s.ppsLevel k = true → Completes (.ppsFall k) s fun t => t.ppsLevel k = false ∧ t.out = .pin (100 + k) false :: s.out ∧ t.regs = s.regs) ∧
    (k < 2 → s.ppsLevel k = false → exec (.ppsFall k) s = .next s))

/-- R424 to R428, R430, Tables 15-15 to 15-17: Moult's commands and the phases of a slice's test: it begins with a free spare, or as a spare at the March;
the redirect makes the spare serve; a slice that passes is a spare and counted, one that fails is retired and recorded. -/
def Obligations.MoultTests : Prop :=
  ∀ (s : State) (r : OnfReq) (x y c period tile level way : Nat) (spare : Option Nat) (t : MoultTest),
    let u := s.taken r
    let throttled := (List.range 4).any fun p => u.bit (throttleBit p)
    let tests : State → Nat → List (Nat × MoultTest) := fun w z => w.pow.tests.filter fun e => e.1 != z
    (s.admits r 0x0801 = true →
      exec (.moultRunPeriod r period) s = .next ((u.setFld R.MOULT_CFG.PERIOD_S (min period 0x1FFFF)).reply r 0x0801 0 []) ∧
      (throttled = true → exec (.moultRunFullrate r) s = .next (u.reply r 0x0801 E.THERMAL [])) ∧
      (throttled = false → Answers (.moultRunFullrate r) s r 0x0801 0 [] fun w => w.bit R.MOULT_STATUS.FULLRATE = true ∧ w.fld R.MOULT_STATUS.DONE = 0 ∧
        w.pow.tested = [] ∧ w.mem = u.mem) ∧
      (u.testJudge x = (0, spare) → Completes (.moultRunSlice r x) s fun w => w.onf.moultWait = u.onf.moultWait ++ [(x, r)] ∧
        w.pow.tests = u.pow.tests ++ [(x, { march := u.isSpare x, spare := spare })]) ∧
      (u.testJudge x = (c, none) → c ≠ 0 → exec (.moultRunSlice r x) s = .next (u.reply r 0x0801 c []))) ∧
    (s.admits r 0x0802 = true → exec (.moultStatus r) s = .next (u.reply r 0x0802 0
      (leBytes 8 (u.reg R.MOULT_STATUS.off).toNat ++ leBytes 8 (u.reg R.MOULT_LAST.off).toNat))) ∧
    (sliceExists x = false → s.testJudge x = (E.PARAM_RANGE, none)) ∧
    (s.up = true →
      (s.testJudge x = (0, spare) → s.pow.tested.contains x = false → Completes (.moultSliceTestStart x) s fun w =>
        w.pow.tests = s.pow.tests ++ [(x, { march := s.isSpare x, spare := spare })] ∧
          w.fld R.MOULT_STATUS.ACTIVE = (s.pow.tests.length + 1) % 2 ^ R.MOULT_STATUS.ACTIVE.w) ∧
      (s.pow.tested.contains x = true → exec (.moultSliceTestStart x) s = .next s) ∧
      (s.sliceTest x = some t → t.march = false → t.spare = some y → Completes (.moultRedirect x) s fun w => w.isSpare y = false ∧
        w.sliceTest x = some { march := true, spare := none } ∧ tests w x = tests s x) ∧
      (s.sliceTest x = some t → t.march = true → exec (.moultRedirect x) s = .next s) ∧
      (s.sliceTest x = some t → t.march = true → Completes (.moultMarchComplete x false) s fun w => w.isSpare x = true ∧ w.pow.tests = tests s x ∧ w.pow.retired = s.pow.retired) ∧
      (s.sliceTest x = some t → t.march = true → s.retiredOf (sliceKey x) + 1 < moultSpareCount (sliceGroup x) → Completes (.moultMarchComplete x true) s fun w => x ∈ w.pow.retired ∧ w.isSpare x = false ∧ w.fld R.MOULT_LAST.SLICE = x % 65536 ∧
        w.bit R.MOULT_STATUS.RETIRE_EVT = true ∧ w.fld R.MOULT_LAST.RETIRED = min (s.fld R.MOULT_LAST.RETIRED + 1) (2 ^ R.MOULT_LAST.RETIRED.w - 1)) ∧
      (s.sliceTest x = none → ∀ fails, exec (.moultMarchComplete x fails) s = .next s ∧ exec (.moultRedirect x) s = .next s) ∧
      (tile < 16 → level < 3 → s.unitState tile ≠ 1 → exec (.moultWayTest tile level way) s = .next s) ∧
      (tile < 16 → level < 3 → s.unitState tile = 1 → exec (.moultWayTest tile level way) s = .next (s.wakeUnit tile)))

/-- R431, R433 to R439: training maps the capacity of the populated channels; initialisation goes block by block; a scrub read keeps, corrects or logs
what it meets; power-down is left at the next command. -/
def Obligations.Dram : Prop :=
  ∀ (s : State) (pop : List DimmInfo) (c line : Nat) (l : EccLoc),
    let p := populated pop
    let begun := s.sys.phase = .starting ∧ s.bit R.SPOOL_STATUS.DDR_DONE = false
    let trained := (p.map fun c => mappedGib (dimmAt pop c) p.length).sum * 2 ^ 30
    let a := line / 64 * 64
    let n := smGet 0 s.dmc.initBlk c + 1
    let cap := s.fld (R.DMC_STATUS.CAP_GIB c) * 1024
    (begun → p ≠ [] → offending pop = [] → (∀ c, c ∈ p → (dimmAt pop c).fail = 0) → s.bit R.SPOOL_STATUS.KEYS_OPEN = false →
      Completes (.ddrTrainingComplete pop) s fun t => t.dmc.cap = trained ∧ t.bit R.SPOOL_STATUS.DDR_DONE = true ∧ t.sys = s.sys) ∧
    (¬ begun → exec (.ddrTrainingComplete pop) s = .next s) ∧
    (s.up = true → s.chanRuns c = true →
      Completes (.ddrPowerDown c) s (fun t => smGet false t.dmc.powerDown c = true ∧ t.mem = s.mem ∧ t.regs = s.regs) ∧
      (s.bit (R.DMC_STATUS.INIT_DONE c) = false → Completes (.dramInitBlock c) s fun t => smGet 0 t.dmc.initBlk c = n ∧ smGet false t.dmc.powerDown c = false ∧
        t.bit (R.DMC_STATUS.INIT_DONE c) = decide (cap ≤ n) ∧ t.mem = s.mem) ∧
      (s.bit (R.DMC_STATUS.INIT_DONE c) = true → exec (.dramInitBlock c) s = .next s) ∧
      (s.bit (R.DMC_STATUS.INIT_DONE c) = true → a < s.dmc.cap → s.chanOf a = c →
        Completes (.scrubRead c line .none) s (fun t => t.mem = s.mem ∧ t.regs = s.regs ∧ smGet false t.dmc.powerDown c = false) ∧
        Completes (.scrubRead c line (.corrected l)) s (fun t => t.bit (R.DMC_ECC.CE_EVT c) = true ∧ t.mem = s.mem ∧ t.safe.poison = s.safe.poison) ∧
        Completes (.scrubRead c line (.uncorrectable l)) s fun t => t.bit (R.DMC_ECC.UE_EVT c) = true ∧ t.poisoned a 64 = true)) ∧
    (s.up = true → s.chanRuns c = false → exec (.ddrPowerDown c) s = .next s ∧ exec (.dramInitBlock c) s = .next s)

/-- R432: a population that is not one of Table 16-1 halts the device at training with code 0x24, and TRAIN_FAIL of an offending controller reads 3; no
DIMM at all halts it with 0x25. Channels that differ from one another, and a populated channel outside the sets, are such populations. -/
def Obligations.UnsupportedPopulations : Prop :=
  ∀ (s : State) (pop : List DimmInfo), s.sys.phase = .starting → s.bit R.SPOOL_STATUS.DDR_DONE = false →
    let p := populated pop
    (p = [] → Completes (.ddrTrainingComplete pop) s fun t => t.sys.phase = .halted 0x25 ∧ t.fld R.TOP_STATUS.BOOT_CODE = 0x25) ∧
    (p ≠ [] → offending pop ≠ [] → Completes (.ddrTrainingComplete pop) s fun t => t.sys.phase = .halted 0x24 ∧ t.fld R.TOP_STATUS.BOOT_CODE = 0x24 ∧
      ∀ c, c ∈ offending pop → t.fld (R.DMC_STATUS.TRAIN_FAIL c) = 3) ∧
    (∀ a b, a ∈ p → b ∈ p → sameDimms (dimmAt pop a) (dimmAt pop b) = false → offending pop ≠ []) ∧
    (p ≠ [] → p ≠ [0, 1, 2, 3, 4, 5, 6, 7] → p ≠ [0, 2, 4, 6] → offending pop ≠ []) ∧
    (∀ c, c ∈ p → dimmOk (dimmAt pop c) = false → offending pop ≠ [])
end

