-- ==== Sys2Proof/Laws/Map.lean ====
section
/-!
SUPPORT. Laws/Map.lean: the sparse maps of Map.lean: what a write changes, that it changes nothing else, and that every write keeps the
canonical form. Memory is the case of bytes.
-/

namespace Sys2Proof.Machine

variable {α : Type}

/-! ### Lists whose keys rise -/

theorem smRising_mono {lo lo' : Nat} (h : lo' ≤ lo) : ∀ {m : SMap α}, smRising lo m = true → smRising lo' m = true
  | [], _ => rfl
  | (k, v) :: m, hm => by
    simp only [smRising, Bool.and_eq_true, decide_eq_true_eq] at hm ⊢
    exact ⟨by omega, hm.2⟩

theorem smRising_ins {a : α} {i : Nat} : ∀ {m : SMap α} {lo : Nat}, lo ≤ i → smRising lo m = true → smRising lo (smIns m i a) = true
  | [], lo, h, _ => by simp [smIns, smRising, h]
  | (k, v) :: m, lo, h, hm => by
    simp only [smRising, Bool.and_eq_true, decide_eq_true_eq] at hm
    unfold smIns
    split
    · next e => subst e; simp [smRising, hm.1, hm.2]
    · next ne =>
      split
      · next lt => simp [smRising, h, hm.2]; omega
      · next nlt =>
        simp only [smRising, Bool.and_eq_true, decide_eq_true_eq]
        exact ⟨hm.1, smRising_ins (by omega) hm.2⟩

theorem smRising_del {i : Nat} : ∀ {m : SMap α} {lo : Nat}, smRising lo m = true → smRising lo (smDel m i) = true
  | [], _, _ => rfl
  | (k, v) :: m, lo, hm => by
    simp only [smRising, Bool.and_eq_true, decide_eq_true_eq] at hm
    unfold smDel
    split
    · exact smRising_mono (by omega) (smRising_del hm.2)
    · simp only [smRising, Bool.and_eq_true, decide_eq_true_eq]
      exact ⟨hm.1, smRising_del hm.2⟩

/-! ### Reads after writes -/

@[simp] theorem smGet_ins_self {d a : α} {i : Nat} : ∀ {m : SMap α}, smGet d (smIns m i a) i = a
  | [] => by simp [smIns, smGet]
  | (k, v) :: m => by
    unfold smIns
    split
    · simp [smGet]
    · split
      · simp [smGet]
      · next ne _ => simp only [smGet, ne, if_false]; exact smGet_ins_self

theorem smGet_ins_ne {d a : α} {i j : Nat} (h : j ≠ i) : ∀ {m : SMap α}, smGet d (smIns m i a) j = smGet d m j
  | [] => by simp [smIns, smGet, h]
  | (k, v) :: m => by
    unfold smIns
    split
    · next e => subst e; simp [smGet, h]
    · split
      · simp [smGet, h]
      · simp only [smGet]; rw [smGet_ins_ne h]

theorem smGet_del_ne {d : α} {i j : Nat} (h : j ≠ i) : ∀ {m : SMap α}, smGet d (smDel m i) j = smGet d m j
  | [] => rfl
  | (k, v) :: m => by
    unfold smDel
    split
    · next e => subst e; simp only [smGet, h, if_false]; exact smGet_del_ne h
    · simp only [smGet]; rw [smGet_del_ne h]

@[simp] theorem smGet_del_self {d : α} {i : Nat} : ∀ {m : SMap α}, smGet d (smDel m i) i = d
  | [] => rfl
  | (k, v) :: m => by
    unfold smDel
    split
    · exact smGet_del_self
    · next ne => simp only [smGet, ne, if_false]; exact smGet_del_self

/-- A write leaves every other key as it was. -/
theorem smGet_put_ne [DecidableEq α] {d d' a : α} {i j : Nat} {m : SMap α} (h : j ≠ i) : smGet d' (smPut d m i a) j = smGet d' m j := by
  unfold smPut
  split
  · exact smGet_del_ne h
  · exact smGet_ins_ne h

/-- A read after a write of the same key gives what was written. -/
@[simp] theorem smGet_put_self [DecidableEq α] {d a : α} {i : Nat} {m : SMap α} : smGet d (smPut d m i a) i = a := by
  unfold smPut
  split
  · next e => rw [e]; exact smGet_del_self
  · exact smGet_ins_self

/-! ### The canonical form -/

theorem all_ins {p : Nat × α → Bool} {i : Nat} {a : α} (h : p (i, a) = true) : ∀ {m : SMap α}, m.all p = true → (smIns m i a).all p = true
  | [], _ => by simp [smIns, h]
  | (k, v) :: m, hm => by
    have hm' := hm
    simp only [List.all_cons, Bool.and_eq_true] at hm'
    unfold smIns
    split
    · simp only [List.all_cons, h, hm'.2, Bool.and_self]
    · split
      · simp only [List.all_cons, h, hm'.1, hm'.2, Bool.and_self]
      · simp only [List.all_cons, hm'.1, all_ins h hm'.2, Bool.and_self]

theorem all_del {p : Nat × α → Bool} {i : Nat} : ∀ {m : SMap α}, m.all p = true → (smDel m i).all p = true
  | [], _ => rfl
  | (k, v) :: m, hm => by
    simp only [List.all_cons, Bool.and_eq_true] at hm
    unfold smDel
    split
    · exact all_del hm.2
    · simp only [List.all_cons, hm.1, all_del hm.2, Bool.and_self]

/-- Every write keeps the canonical form. -/
theorem smWf_put [DecidableEq α] {d : Nat → α} {m : SMap α} {i : Nat} {a : α} (h : smWf d m = true) : smWf d (smPut (d i) m i a) = true := by
  simp only [smWf, Bool.and_eq_true] at h ⊢
  unfold smPut
  split
  · exact ⟨smRising_del h.1, all_del h.2⟩
  · next ne => exact ⟨smRising_ins (Nat.zero_le _) h.1, all_ins (by simpa using ne) h.2⟩

/-! ### Memory -/

theorem Memory.wf_nil : Memory.wf [] = true := rfl

theorem Memory.write_wf {m : Memory} {a : Nat} {b : Byte} (h : m.wf = true) : (Memory.write m a b).wf = true := smWf_put h

theorem Memory.writeN_wf {bs : List Byte} : ∀ {m : Memory} {a : Nat}, m.wf = true → (Memory.writeN m a bs).wf = true := by
  induction bs with
  | nil => exact id
  | cons b bs ih => exact fun h => ih (Memory.write_wf h)

/-- Bytes outside those written read as before. -/
theorem Memory.read_writeN_out {bs : List Byte} : ∀ {m : Memory} {a i : Nat}, i < a ∨ a + bs.length ≤ i →
    Memory.read (Memory.writeN m a bs) i = Memory.read m i := by
  induction bs with
  | nil => exact fun _ => rfl
  | cons b bs ih =>
    intro m a i h
    have hl : (b :: bs).length = bs.length + 1 := rfl
    rw [Memory.writeN, ih (by omega)]
    exact smGet_put_ne (by omega)

/-- Bytes written read as written. -/
theorem Memory.read_writeN_in {bs : List Byte} : ∀ {m : Memory} {a j : Nat} (hj : j < bs.length),
    Memory.read (Memory.writeN m a bs) (a + j) = bs[j] := by
  induction bs with
  | nil => exact fun hj => absurd hj (Nat.not_lt_zero _)
  | cons b bs ih =>
    intro m a j hj
    cases j with
    | zero =>
      rw [Memory.writeN, Memory.read_writeN_out (by omega)]
      exact smGet_put_self
    | succ j =>
      have := ih (m := Memory.write m a b) (a := a + 1) (j := j) (by simpa using hj)
      rw [Memory.writeN, show a + (j + 1) = a + 1 + j by omega, this]
      rfl

end Sys2Proof.Machine
end

