-- ==== Sys2Proof/Laws/State.lean ====
section
/-!
SUPPORT. Laws/State.lean: which parts of the state each named update leaves as they were: one lemma for each part and update, so that no later proof
unfolds a record update.
-/

namespace Sys2Proof.Machine.State

variable (s : State)

@[simp] theorem emit_pending (e : OutEvent) : (s.emit e).pending = s.pending := rfl
@[simp] theorem emit_freeCtr (e : OutEvent) : (s.emit e).freeCtr = s.freeCtr := rfl
@[simp] theorem emit_regs (e : OutEvent) : (s.emit e).regs = s.regs := rfl
@[simp] theorem emit_mem (e : OutEvent) : (s.emit e).mem = s.mem := rfl
@[simp] theorem emit_hostMem (e : OutEvent) : (s.emit e).hostMem = s.hostMem := rfl
@[simp] theorem emit_sys (e : OutEvent) : (s.emit e).sys = s.sys := rfl
@[simp] theorem emit_onf (e : OutEvent) : (s.emit e).onf = s.onf := rfl
@[simp] theorem emit_qps (e : OutEvent) : (s.emit e).qps = s.qps := rfl
@[simp] theorem emit_fns (e : OutEvent) : (s.emit e).fns = s.fns := rfl
@[simp] theorem emit_qf (e : OutEvent) : (s.emit e).qf = s.qf := rfl
@[simp] theorem emit_shut (e : OutEvent) : (s.emit e).shut = s.shut := rfl
@[simp] theorem emit_safe (e : OutEvent) : (s.emit e).safe = s.safe := rfl
@[simp] theorem emit_selv (e : OutEvent) : (s.emit e).selv = s.selv := rfl
@[simp] theorem emit_tape (e : OutEvent) : (s.emit e).tape = s.tape := rfl
@[simp] theorem emit_galv (e : OutEvent) : (s.emit e).galv = s.galv := rfl
@[simp] theorem emit_tmu (e : OutEvent) : (s.emit e).tmu = s.tmu := rfl
@[simp] theorem emit_engs (e : OutEvent) : (s.emit e).engs = s.engs := rfl
@[simp] theorem emit_harts (e : OutEvent) : (s.emit e).harts = s.harts := rfl
@[simp] theorem emit_spool (e : OutEvent) : (s.emit e).spool = s.spool := rfl
@[simp] theorem emit_pow (e : OutEvent) : (s.emit e).pow = s.pow := rfl
@[simp] theorem emit_spdm (e : OutEvent) : (s.emit e).spdm = s.spdm := rfl
@[simp] theorem emit_gpio (e : OutEvent) : (s.emit e).gpio = s.gpio := rfl
@[simp] theorem emit_links (e : OutEvent) : (s.emit e).links = s.links := rfl
@[simp] theorem emit_dmc (e : OutEvent) : (s.emit e).dmc = s.dmc := rfl
@[simp] theorem emit_imsic (e : OutEvent) : (s.emit e).imsic = s.imsic := rfl
@[simp] theorem emit_aia (e : OutEvent) : (s.emit e).aia = s.aia := rfl

@[simp] theorem drawn_pending : (s.drawn).pending = s.pending := rfl
@[simp] theorem drawn_out : (s.drawn).out = s.out := rfl
@[simp] theorem drawn_regs : (s.drawn).regs = s.regs := rfl
@[simp] theorem drawn_mem : (s.drawn).mem = s.mem := rfl
@[simp] theorem drawn_hostMem : (s.drawn).hostMem = s.hostMem := rfl
@[simp] theorem drawn_sys : (s.drawn).sys = s.sys := rfl
@[simp] theorem drawn_onf : (s.drawn).onf = s.onf := rfl
@[simp] theorem drawn_qps : (s.drawn).qps = s.qps := rfl
@[simp] theorem drawn_fns : (s.drawn).fns = s.fns := rfl
@[simp] theorem drawn_qf : (s.drawn).qf = s.qf := rfl
@[simp] theorem drawn_shut : (s.drawn).shut = s.shut := rfl
@[simp] theorem drawn_safe : (s.drawn).safe = s.safe := rfl
@[simp] theorem drawn_selv : (s.drawn).selv = s.selv := rfl
@[simp] theorem drawn_tape : (s.drawn).tape = s.tape := rfl
@[simp] theorem drawn_galv : (s.drawn).galv = s.galv := rfl
@[simp] theorem drawn_tmu : (s.drawn).tmu = s.tmu := rfl
@[simp] theorem drawn_engs : (s.drawn).engs = s.engs := rfl
@[simp] theorem drawn_harts : (s.drawn).harts = s.harts := rfl
@[simp] theorem drawn_spool : (s.drawn).spool = s.spool := rfl
@[simp] theorem drawn_pow : (s.drawn).pow = s.pow := rfl
@[simp] theorem drawn_spdm : (s.drawn).spdm = s.spdm := rfl
@[simp] theorem drawn_gpio : (s.drawn).gpio = s.gpio := rfl
@[simp] theorem drawn_links : (s.drawn).links = s.links := rfl
@[simp] theorem drawn_dmc : (s.drawn).dmc = s.dmc := rfl
@[simp] theorem drawn_imsic : (s.drawn).imsic = s.imsic := rfl
@[simp] theorem drawn_aia : (s.drawn).aia = s.aia := rfl

@[simp] theorem setReg_pending (off : Nat) (v : W64) : (s.setReg off v).pending = s.pending := rfl
@[simp] theorem setReg_freeCtr (off : Nat) (v : W64) : (s.setReg off v).freeCtr = s.freeCtr := rfl
@[simp] theorem setReg_out (off : Nat) (v : W64) : (s.setReg off v).out = s.out := rfl
@[simp] theorem setReg_mem (off : Nat) (v : W64) : (s.setReg off v).mem = s.mem := rfl
@[simp] theorem setReg_hostMem (off : Nat) (v : W64) : (s.setReg off v).hostMem = s.hostMem := rfl
@[simp] theorem setReg_sys (off : Nat) (v : W64) : (s.setReg off v).sys = s.sys := rfl
@[simp] theorem setReg_onf (off : Nat) (v : W64) : (s.setReg off v).onf = s.onf := rfl
@[simp] theorem setReg_qps (off : Nat) (v : W64) : (s.setReg off v).qps = s.qps := rfl
@[simp] theorem setReg_fns (off : Nat) (v : W64) : (s.setReg off v).fns = s.fns := rfl
@[simp] theorem setReg_qf (off : Nat) (v : W64) : (s.setReg off v).qf = s.qf := rfl
@[simp] theorem setReg_shut (off : Nat) (v : W64) : (s.setReg off v).shut = s.shut := rfl
@[simp] theorem setReg_safe (off : Nat) (v : W64) : (s.setReg off v).safe = s.safe := rfl
@[simp] theorem setReg_selv (off : Nat) (v : W64) : (s.setReg off v).selv = s.selv := rfl
@[simp] theorem setReg_tape (off : Nat) (v : W64) : (s.setReg off v).tape = s.tape := rfl
@[simp] theorem setReg_galv (off : Nat) (v : W64) : (s.setReg off v).galv = s.galv := rfl
@[simp] theorem setReg_tmu (off : Nat) (v : W64) : (s.setReg off v).tmu = s.tmu := rfl
@[simp] theorem setReg_engs (off : Nat) (v : W64) : (s.setReg off v).engs = s.engs := rfl
@[simp] theorem setReg_harts (off : Nat) (v : W64) : (s.setReg off v).harts = s.harts := rfl
@[simp] theorem setReg_spool (off : Nat) (v : W64) : (s.setReg off v).spool = s.spool := rfl
@[simp] theorem setReg_pow (off : Nat) (v : W64) : (s.setReg off v).pow = s.pow := rfl
@[simp] theorem setReg_spdm (off : Nat) (v : W64) : (s.setReg off v).spdm = s.spdm := rfl
@[simp] theorem setReg_gpio (off : Nat) (v : W64) : (s.setReg off v).gpio = s.gpio := rfl
@[simp] theorem setReg_links (off : Nat) (v : W64) : (s.setReg off v).links = s.links := rfl
@[simp] theorem setReg_dmc (off : Nat) (v : W64) : (s.setReg off v).dmc = s.dmc := rfl
@[simp] theorem setReg_imsic (off : Nat) (v : W64) : (s.setReg off v).imsic = s.imsic := rfl
@[simp] theorem setReg_aia (off : Nat) (v : W64) : (s.setReg off v).aia = s.aia := rfl

@[simp] theorem setFld_pending (f : Fld) (v : Nat) : (s.setFld f v).pending = s.pending := rfl
@[simp] theorem setFld_freeCtr (f : Fld) (v : Nat) : (s.setFld f v).freeCtr = s.freeCtr := rfl
@[simp] theorem setFld_out (f : Fld) (v : Nat) : (s.setFld f v).out = s.out := rfl
@[simp] theorem setFld_mem (f : Fld) (v : Nat) : (s.setFld f v).mem = s.mem := rfl
@[simp] theorem setFld_hostMem (f : Fld) (v : Nat) : (s.setFld f v).hostMem = s.hostMem := rfl
@[simp] theorem setFld_sys (f : Fld) (v : Nat) : (s.setFld f v).sys = s.sys := rfl
@[simp] theorem setFld_onf (f : Fld) (v : Nat) : (s.setFld f v).onf = s.onf := rfl
@[simp] theorem setFld_qps (f : Fld) (v : Nat) : (s.setFld f v).qps = s.qps := rfl
@[simp] theorem setFld_fns (f : Fld) (v : Nat) : (s.setFld f v).fns = s.fns := rfl
@[simp] theorem setFld_qf (f : Fld) (v : Nat) : (s.setFld f v).qf = s.qf := rfl
@[simp] theorem setFld_shut (f : Fld) (v : Nat) : (s.setFld f v).shut = s.shut := rfl
@[simp] theorem setFld_safe (f : Fld) (v : Nat) : (s.setFld f v).safe = s.safe := rfl
@[simp] theorem setFld_selv (f : Fld) (v : Nat) : (s.setFld f v).selv = s.selv := rfl
@[simp] theorem setFld_tape (f : Fld) (v : Nat) : (s.setFld f v).tape = s.tape := rfl
@[simp] theorem setFld_galv (f : Fld) (v : Nat) : (s.setFld f v).galv = s.galv := rfl
@[simp] theorem setFld_tmu (f : Fld) (v : Nat) : (s.setFld f v).tmu = s.tmu := rfl
@[simp] theorem setFld_engs (f : Fld) (v : Nat) : (s.setFld f v).engs = s.engs := rfl
@[simp] theorem setFld_harts (f : Fld) (v : Nat) : (s.setFld f v).harts = s.harts := rfl
@[simp] theorem setFld_spool (f : Fld) (v : Nat) : (s.setFld f v).spool = s.spool := rfl
@[simp] theorem setFld_pow (f : Fld) (v : Nat) : (s.setFld f v).pow = s.pow := rfl
@[simp] theorem setFld_spdm (f : Fld) (v : Nat) : (s.setFld f v).spdm = s.spdm := rfl
@[simp] theorem setFld_gpio (f : Fld) (v : Nat) : (s.setFld f v).gpio = s.gpio := rfl
@[simp] theorem setFld_links (f : Fld) (v : Nat) : (s.setFld f v).links = s.links := rfl
@[simp] theorem setFld_dmc (f : Fld) (v : Nat) : (s.setFld f v).dmc = s.dmc := rfl
@[simp] theorem setFld_imsic (f : Fld) (v : Nat) : (s.setFld f v).imsic = s.imsic := rfl
@[simp] theorem setFld_aia (f : Fld) (v : Nat) : (s.setFld f v).aia = s.aia := rfl

@[simp] theorem setBit_pending (f : Fld) : (s.setBit f).pending = s.pending := rfl
@[simp] theorem setBit_freeCtr (f : Fld) : (s.setBit f).freeCtr = s.freeCtr := rfl
@[simp] theorem setBit_out (f : Fld) : (s.setBit f).out = s.out := rfl
@[simp] theorem setBit_mem (f : Fld) : (s.setBit f).mem = s.mem := rfl
@[simp] theorem setBit_hostMem (f : Fld) : (s.setBit f).hostMem = s.hostMem := rfl
@[simp] theorem setBit_sys (f : Fld) : (s.setBit f).sys = s.sys := rfl
@[simp] theorem setBit_onf (f : Fld) : (s.setBit f).onf = s.onf := rfl
@[simp] theorem setBit_qps (f : Fld) : (s.setBit f).qps = s.qps := rfl
@[simp] theorem setBit_fns (f : Fld) : (s.setBit f).fns = s.fns := rfl
@[simp] theorem setBit_qf (f : Fld) : (s.setBit f).qf = s.qf := rfl
@[simp] theorem setBit_shut (f : Fld) : (s.setBit f).shut = s.shut := rfl
@[simp] theorem setBit_safe (f : Fld) : (s.setBit f).safe = s.safe := rfl
@[simp] theorem setBit_selv (f : Fld) : (s.setBit f).selv = s.selv := rfl
@[simp] theorem setBit_tape (f : Fld) : (s.setBit f).tape = s.tape := rfl
@[simp] theorem setBit_galv (f : Fld) : (s.setBit f).galv = s.galv := rfl
@[simp] theorem setBit_tmu (f : Fld) : (s.setBit f).tmu = s.tmu := rfl
@[simp] theorem setBit_engs (f : Fld) : (s.setBit f).engs = s.engs := rfl
@[simp] theorem setBit_harts (f : Fld) : (s.setBit f).harts = s.harts := rfl
@[simp] theorem setBit_spool (f : Fld) : (s.setBit f).spool = s.spool := rfl
@[simp] theorem setBit_pow (f : Fld) : (s.setBit f).pow = s.pow := rfl
@[simp] theorem setBit_spdm (f : Fld) : (s.setBit f).spdm = s.spdm := rfl
@[simp] theorem setBit_gpio (f : Fld) : (s.setBit f).gpio = s.gpio := rfl
@[simp] theorem setBit_links (f : Fld) : (s.setBit f).links = s.links := rfl
@[simp] theorem setBit_dmc (f : Fld) : (s.setBit f).dmc = s.dmc := rfl
@[simp] theorem setBit_imsic (f : Fld) : (s.setBit f).imsic = s.imsic := rfl
@[simp] theorem setBit_aia (f : Fld) : (s.setBit f).aia = s.aia := rfl

@[simp] theorem clrBit_pending (f : Fld) : (s.clrBit f).pending = s.pending := rfl
@[simp] theorem clrBit_freeCtr (f : Fld) : (s.clrBit f).freeCtr = s.freeCtr := rfl
@[simp] theorem clrBit_out (f : Fld) : (s.clrBit f).out = s.out := rfl
@[simp] theorem clrBit_mem (f : Fld) : (s.clrBit f).mem = s.mem := rfl
@[simp] theorem clrBit_hostMem (f : Fld) : (s.clrBit f).hostMem = s.hostMem := rfl
@[simp] theorem clrBit_sys (f : Fld) : (s.clrBit f).sys = s.sys := rfl
@[simp] theorem clrBit_onf (f : Fld) : (s.clrBit f).onf = s.onf := rfl
@[simp] theorem clrBit_qps (f : Fld) : (s.clrBit f).qps = s.qps := rfl
@[simp] theorem clrBit_fns (f : Fld) : (s.clrBit f).fns = s.fns := rfl
@[simp] theorem clrBit_qf (f : Fld) : (s.clrBit f).qf = s.qf := rfl
@[simp] theorem clrBit_shut (f : Fld) : (s.clrBit f).shut = s.shut := rfl
@[simp] theorem clrBit_safe (f : Fld) : (s.clrBit f).safe = s.safe := rfl
@[simp] theorem clrBit_selv (f : Fld) : (s.clrBit f).selv = s.selv := rfl
@[simp] theorem clrBit_tape (f : Fld) : (s.clrBit f).tape = s.tape := rfl
@[simp] theorem clrBit_galv (f : Fld) : (s.clrBit f).galv = s.galv := rfl
@[simp] theorem clrBit_tmu (f : Fld) : (s.clrBit f).tmu = s.tmu := rfl
@[simp] theorem clrBit_engs (f : Fld) : (s.clrBit f).engs = s.engs := rfl
@[simp] theorem clrBit_harts (f : Fld) : (s.clrBit f).harts = s.harts := rfl
@[simp] theorem clrBit_spool (f : Fld) : (s.clrBit f).spool = s.spool := rfl
@[simp] theorem clrBit_pow (f : Fld) : (s.clrBit f).pow = s.pow := rfl
@[simp] theorem clrBit_spdm (f : Fld) : (s.clrBit f).spdm = s.spdm := rfl
@[simp] theorem clrBit_gpio (f : Fld) : (s.clrBit f).gpio = s.gpio := rfl
@[simp] theorem clrBit_links (f : Fld) : (s.clrBit f).links = s.links := rfl
@[simp] theorem clrBit_dmc (f : Fld) : (s.clrBit f).dmc = s.dmc := rfl
@[simp] theorem clrBit_imsic (f : Fld) : (s.clrBit f).imsic = s.imsic := rfl
@[simp] theorem clrBit_aia (f : Fld) : (s.clrBit f).aia = s.aia := rfl

@[simp] theorem bump_pending (f : Fld) (n : Nat) : (s.bump f n).pending = s.pending := rfl
@[simp] theorem bump_freeCtr (f : Fld) (n : Nat) : (s.bump f n).freeCtr = s.freeCtr := rfl
@[simp] theorem bump_out (f : Fld) (n : Nat) : (s.bump f n).out = s.out := rfl
@[simp] theorem bump_mem (f : Fld) (n : Nat) : (s.bump f n).mem = s.mem := rfl
@[simp] theorem bump_hostMem (f : Fld) (n : Nat) : (s.bump f n).hostMem = s.hostMem := rfl
@[simp] theorem bump_sys (f : Fld) (n : Nat) : (s.bump f n).sys = s.sys := rfl
@[simp] theorem bump_onf (f : Fld) (n : Nat) : (s.bump f n).onf = s.onf := rfl
@[simp] theorem bump_qps (f : Fld) (n : Nat) : (s.bump f n).qps = s.qps := rfl
@[simp] theorem bump_fns (f : Fld) (n : Nat) : (s.bump f n).fns = s.fns := rfl
@[simp] theorem bump_qf (f : Fld) (n : Nat) : (s.bump f n).qf = s.qf := rfl
@[simp] theorem bump_shut (f : Fld) (n : Nat) : (s.bump f n).shut = s.shut := rfl
@[simp] theorem bump_safe (f : Fld) (n : Nat) : (s.bump f n).safe = s.safe := rfl
@[simp] theorem bump_selv (f : Fld) (n : Nat) : (s.bump f n).selv = s.selv := rfl
@[simp] theorem bump_tape (f : Fld) (n : Nat) : (s.bump f n).tape = s.tape := rfl
@[simp] theorem bump_galv (f : Fld) (n : Nat) : (s.bump f n).galv = s.galv := rfl
@[simp] theorem bump_tmu (f : Fld) (n : Nat) : (s.bump f n).tmu = s.tmu := rfl
@[simp] theorem bump_engs (f : Fld) (n : Nat) : (s.bump f n).engs = s.engs := rfl
@[simp] theorem bump_harts (f : Fld) (n : Nat) : (s.bump f n).harts = s.harts := rfl
@[simp] theorem bump_spool (f : Fld) (n : Nat) : (s.bump f n).spool = s.spool := rfl
@[simp] theorem bump_pow (f : Fld) (n : Nat) : (s.bump f n).pow = s.pow := rfl
@[simp] theorem bump_spdm (f : Fld) (n : Nat) : (s.bump f n).spdm = s.spdm := rfl
@[simp] theorem bump_gpio (f : Fld) (n : Nat) : (s.bump f n).gpio = s.gpio := rfl
@[simp] theorem bump_links (f : Fld) (n : Nat) : (s.bump f n).links = s.links := rfl
@[simp] theorem bump_dmc (f : Fld) (n : Nat) : (s.bump f n).dmc = s.dmc := rfl
@[simp] theorem bump_imsic (f : Fld) (n : Nat) : (s.bump f n).imsic = s.imsic := rfl
@[simp] theorem bump_aia (f : Fld) (n : Nat) : (s.bump f n).aia = s.aia := rfl

@[simp] theorem setHart_pending (h : Nat) (x : Hart) : (s.setHart h x).pending = s.pending := rfl
@[simp] theorem setHart_freeCtr (h : Nat) (x : Hart) : (s.setHart h x).freeCtr = s.freeCtr := rfl
@[simp] theorem setHart_out (h : Nat) (x : Hart) : (s.setHart h x).out = s.out := rfl
@[simp] theorem setHart_regs (h : Nat) (x : Hart) : (s.setHart h x).regs = s.regs := rfl
@[simp] theorem setHart_mem (h : Nat) (x : Hart) : (s.setHart h x).mem = s.mem := rfl
@[simp] theorem setHart_hostMem (h : Nat) (x : Hart) : (s.setHart h x).hostMem = s.hostMem := rfl
@[simp] theorem setHart_sys (h : Nat) (x : Hart) : (s.setHart h x).sys = s.sys := rfl
@[simp] theorem setHart_onf (h : Nat) (x : Hart) : (s.setHart h x).onf = s.onf := rfl
@[simp] theorem setHart_qps (h : Nat) (x : Hart) : (s.setHart h x).qps = s.qps := rfl
@[simp] theorem setHart_fns (h : Nat) (x : Hart) : (s.setHart h x).fns = s.fns := rfl
@[simp] theorem setHart_qf (h : Nat) (x : Hart) : (s.setHart h x).qf = s.qf := rfl
@[simp] theorem setHart_shut (h : Nat) (x : Hart) : (s.setHart h x).shut = s.shut := rfl
@[simp] theorem setHart_safe (h : Nat) (x : Hart) : (s.setHart h x).safe = s.safe := rfl
@[simp] theorem setHart_selv (h : Nat) (x : Hart) : (s.setHart h x).selv = s.selv := rfl
@[simp] theorem setHart_tape (h : Nat) (x : Hart) : (s.setHart h x).tape = s.tape := rfl
@[simp] theorem setHart_galv (h : Nat) (x : Hart) : (s.setHart h x).galv = s.galv := rfl
@[simp] theorem setHart_tmu (h : Nat) (x : Hart) : (s.setHart h x).tmu = s.tmu := rfl
@[simp] theorem setHart_engs (h : Nat) (x : Hart) : (s.setHart h x).engs = s.engs := rfl
@[simp] theorem setHart_spool (h : Nat) (x : Hart) : (s.setHart h x).spool = s.spool := rfl
@[simp] theorem setHart_pow (h : Nat) (x : Hart) : (s.setHart h x).pow = s.pow := rfl
@[simp] theorem setHart_spdm (h : Nat) (x : Hart) : (s.setHart h x).spdm = s.spdm := rfl
@[simp] theorem setHart_gpio (h : Nat) (x : Hart) : (s.setHart h x).gpio = s.gpio := rfl
@[simp] theorem setHart_links (h : Nat) (x : Hart) : (s.setHart h x).links = s.links := rfl
@[simp] theorem setHart_dmc (h : Nat) (x : Hart) : (s.setHart h x).dmc = s.dmc := rfl
@[simp] theorem setHart_imsic (h : Nat) (x : Hart) : (s.setHart h x).imsic = s.imsic := rfl
@[simp] theorem setHart_aia (h : Nat) (x : Hart) : (s.setHart h x).aia = s.aia := rfl

@[simp] theorem setLink_pending (n : Nat) (l : PortSt) : (s.setLink n l).pending = s.pending := rfl
@[simp] theorem setLink_freeCtr (n : Nat) (l : PortSt) : (s.setLink n l).freeCtr = s.freeCtr := rfl
@[simp] theorem setLink_out (n : Nat) (l : PortSt) : (s.setLink n l).out = s.out := rfl
@[simp] theorem setLink_regs (n : Nat) (l : PortSt) : (s.setLink n l).regs = s.regs := rfl
@[simp] theorem setLink_mem (n : Nat) (l : PortSt) : (s.setLink n l).mem = s.mem := rfl
@[simp] theorem setLink_hostMem (n : Nat) (l : PortSt) : (s.setLink n l).hostMem = s.hostMem := rfl
@[simp] theorem setLink_sys (n : Nat) (l : PortSt) : (s.setLink n l).sys = s.sys := rfl
@[simp] theorem setLink_onf (n : Nat) (l : PortSt) : (s.setLink n l).onf = s.onf := rfl
@[simp] theorem setLink_qps (n : Nat) (l : PortSt) : (s.setLink n l).qps = s.qps := rfl
@[simp] theorem setLink_fns (n : Nat) (l : PortSt) : (s.setLink n l).fns = s.fns := rfl
@[simp] theorem setLink_qf (n : Nat) (l : PortSt) : (s.setLink n l).qf = s.qf := rfl
@[simp] theorem setLink_shut (n : Nat) (l : PortSt) : (s.setLink n l).shut = s.shut := rfl
@[simp] theorem setLink_safe (n : Nat) (l : PortSt) : (s.setLink n l).safe = s.safe := rfl
@[simp] theorem setLink_selv (n : Nat) (l : PortSt) : (s.setLink n l).selv = s.selv := rfl
@[simp] theorem setLink_tape (n : Nat) (l : PortSt) : (s.setLink n l).tape = s.tape := rfl
@[simp] theorem setLink_galv (n : Nat) (l : PortSt) : (s.setLink n l).galv = s.galv := rfl
@[simp] theorem setLink_tmu (n : Nat) (l : PortSt) : (s.setLink n l).tmu = s.tmu := rfl
@[simp] theorem setLink_engs (n : Nat) (l : PortSt) : (s.setLink n l).engs = s.engs := rfl
@[simp] theorem setLink_harts (n : Nat) (l : PortSt) : (s.setLink n l).harts = s.harts := rfl
@[simp] theorem setLink_spool (n : Nat) (l : PortSt) : (s.setLink n l).spool = s.spool := rfl
@[simp] theorem setLink_pow (n : Nat) (l : PortSt) : (s.setLink n l).pow = s.pow := rfl
@[simp] theorem setLink_spdm (n : Nat) (l : PortSt) : (s.setLink n l).spdm = s.spdm := rfl
@[simp] theorem setLink_gpio (n : Nat) (l : PortSt) : (s.setLink n l).gpio = s.gpio := rfl
@[simp] theorem setLink_dmc (n : Nat) (l : PortSt) : (s.setLink n l).dmc = s.dmc := rfl
@[simp] theorem setLink_imsic (n : Nat) (l : PortSt) : (s.setLink n l).imsic = s.imsic := rfl
@[simp] theorem setLink_aia (n : Nat) (l : PortSt) : (s.setLink n l).aia = s.aia := rfl

@[simp] theorem hostWrite_pending (p a : Nat) (b : List Byte) : (s.hostWrite p a b).pending = s.pending := rfl
@[simp] theorem hostWrite_freeCtr (p a : Nat) (b : List Byte) : (s.hostWrite p a b).freeCtr = s.freeCtr := rfl
@[simp] theorem hostWrite_out (p a : Nat) (b : List Byte) : (s.hostWrite p a b).out = s.out := rfl
@[simp] theorem hostWrite_regs (p a : Nat) (b : List Byte) : (s.hostWrite p a b).regs = s.regs := rfl
@[simp] theorem hostWrite_mem (p a : Nat) (b : List Byte) : (s.hostWrite p a b).mem = s.mem := rfl
@[simp] theorem hostWrite_sys (p a : Nat) (b : List Byte) : (s.hostWrite p a b).sys = s.sys := rfl
@[simp] theorem hostWrite_onf (p a : Nat) (b : List Byte) : (s.hostWrite p a b).onf = s.onf := rfl
@[simp] theorem hostWrite_qps (p a : Nat) (b : List Byte) : (s.hostWrite p a b).qps = s.qps := rfl
@[simp] theorem hostWrite_fns (p a : Nat) (b : List Byte) : (s.hostWrite p a b).fns = s.fns := rfl
@[simp] theorem hostWrite_qf (p a : Nat) (b : List Byte) : (s.hostWrite p a b).qf = s.qf := rfl
@[simp] theorem hostWrite_shut (p a : Nat) (b : List Byte) : (s.hostWrite p a b).shut = s.shut := rfl
@[simp] theorem hostWrite_safe (p a : Nat) (b : List Byte) : (s.hostWrite p a b).safe = s.safe := rfl
@[simp] theorem hostWrite_selv (p a : Nat) (b : List Byte) : (s.hostWrite p a b).selv = s.selv := rfl
@[simp] theorem hostWrite_tape (p a : Nat) (b : List Byte) : (s.hostWrite p a b).tape = s.tape := rfl
@[simp] theorem hostWrite_galv (p a : Nat) (b : List Byte) : (s.hostWrite p a b).galv = s.galv := rfl
@[simp] theorem hostWrite_tmu (p a : Nat) (b : List Byte) : (s.hostWrite p a b).tmu = s.tmu := rfl
@[simp] theorem hostWrite_engs (p a : Nat) (b : List Byte) : (s.hostWrite p a b).engs = s.engs := rfl
@[simp] theorem hostWrite_harts (p a : Nat) (b : List Byte) : (s.hostWrite p a b).harts = s.harts := rfl
@[simp] theorem hostWrite_spool (p a : Nat) (b : List Byte) : (s.hostWrite p a b).spool = s.spool := rfl
@[simp] theorem hostWrite_pow (p a : Nat) (b : List Byte) : (s.hostWrite p a b).pow = s.pow := rfl
@[simp] theorem hostWrite_spdm (p a : Nat) (b : List Byte) : (s.hostWrite p a b).spdm = s.spdm := rfl
@[simp] theorem hostWrite_gpio (p a : Nat) (b : List Byte) : (s.hostWrite p a b).gpio = s.gpio := rfl
@[simp] theorem hostWrite_links (p a : Nat) (b : List Byte) : (s.hostWrite p a b).links = s.links := rfl
@[simp] theorem hostWrite_dmc (p a : Nat) (b : List Byte) : (s.hostWrite p a b).dmc = s.dmc := rfl
@[simp] theorem hostWrite_imsic (p a : Nat) (b : List Byte) : (s.hostWrite p a b).imsic = s.imsic := rfl
@[simp] theorem hostWrite_aia (p a : Nat) (b : List Byte) : (s.hostWrite p a b).aia = s.aia := rfl

@[simp] theorem devWrite_pending (a : Nat) (b : List Byte) : (s.devWrite a b).pending = s.pending := rfl
@[simp] theorem devWrite_freeCtr (a : Nat) (b : List Byte) : (s.devWrite a b).freeCtr = s.freeCtr := rfl
@[simp] theorem devWrite_out (a : Nat) (b : List Byte) : (s.devWrite a b).out = s.out := rfl
@[simp] theorem devWrite_regs (a : Nat) (b : List Byte) : (s.devWrite a b).regs = s.regs := rfl
@[simp] theorem devWrite_hostMem (a : Nat) (b : List Byte) : (s.devWrite a b).hostMem = s.hostMem := rfl
@[simp] theorem devWrite_sys (a : Nat) (b : List Byte) : (s.devWrite a b).sys = s.sys := rfl
@[simp] theorem devWrite_onf (a : Nat) (b : List Byte) : (s.devWrite a b).onf = s.onf := rfl
@[simp] theorem devWrite_qps (a : Nat) (b : List Byte) : (s.devWrite a b).qps = s.qps := rfl
@[simp] theorem devWrite_fns (a : Nat) (b : List Byte) : (s.devWrite a b).fns = s.fns := rfl
@[simp] theorem devWrite_qf (a : Nat) (b : List Byte) : (s.devWrite a b).qf = s.qf := rfl
@[simp] theorem devWrite_shut (a : Nat) (b : List Byte) : (s.devWrite a b).shut = s.shut := rfl
@[simp] theorem devWrite_safe (a : Nat) (b : List Byte) : (s.devWrite a b).safe = s.safe := rfl
@[simp] theorem devWrite_selv (a : Nat) (b : List Byte) : (s.devWrite a b).selv = s.selv := rfl
@[simp] theorem devWrite_tape (a : Nat) (b : List Byte) : (s.devWrite a b).tape = s.tape := rfl
@[simp] theorem devWrite_galv (a : Nat) (b : List Byte) : (s.devWrite a b).galv = s.galv := rfl
@[simp] theorem devWrite_tmu (a : Nat) (b : List Byte) : (s.devWrite a b).tmu = s.tmu := rfl
@[simp] theorem devWrite_engs (a : Nat) (b : List Byte) : (s.devWrite a b).engs = s.engs := rfl
@[simp] theorem devWrite_harts (a : Nat) (b : List Byte) : (s.devWrite a b).harts = s.harts := rfl
@[simp] theorem devWrite_spool (a : Nat) (b : List Byte) : (s.devWrite a b).spool = s.spool := rfl
@[simp] theorem devWrite_pow (a : Nat) (b : List Byte) : (s.devWrite a b).pow = s.pow := rfl
@[simp] theorem devWrite_spdm (a : Nat) (b : List Byte) : (s.devWrite a b).spdm = s.spdm := rfl
@[simp] theorem devWrite_gpio (a : Nat) (b : List Byte) : (s.devWrite a b).gpio = s.gpio := rfl
@[simp] theorem devWrite_links (a : Nat) (b : List Byte) : (s.devWrite a b).links = s.links := rfl
@[simp] theorem devWrite_imsic (a : Nat) (b : List Byte) : (s.devWrite a b).imsic = s.imsic := rfl
@[simp] theorem devWrite_aia (a : Nat) (b : List Byte) : (s.devWrite a b).aia = s.aia := rfl

@[simp] theorem unpoison_pending (a n : Nat) : (s.unpoison a n).pending = s.pending := rfl
@[simp] theorem unpoison_freeCtr (a n : Nat) : (s.unpoison a n).freeCtr = s.freeCtr := rfl
@[simp] theorem unpoison_out (a n : Nat) : (s.unpoison a n).out = s.out := rfl
@[simp] theorem unpoison_regs (a n : Nat) : (s.unpoison a n).regs = s.regs := rfl
@[simp] theorem unpoison_mem (a n : Nat) : (s.unpoison a n).mem = s.mem := rfl
@[simp] theorem unpoison_hostMem (a n : Nat) : (s.unpoison a n).hostMem = s.hostMem := rfl
@[simp] theorem unpoison_sys (a n : Nat) : (s.unpoison a n).sys = s.sys := rfl
@[simp] theorem unpoison_onf (a n : Nat) : (s.unpoison a n).onf = s.onf := rfl
@[simp] theorem unpoison_qps (a n : Nat) : (s.unpoison a n).qps = s.qps := rfl
@[simp] theorem unpoison_fns (a n : Nat) : (s.unpoison a n).fns = s.fns := rfl
@[simp] theorem unpoison_qf (a n : Nat) : (s.unpoison a n).qf = s.qf := rfl
@[simp] theorem unpoison_shut (a n : Nat) : (s.unpoison a n).shut = s.shut := rfl
@[simp] theorem unpoison_selv (a n : Nat) : (s.unpoison a n).selv = s.selv := rfl
@[simp] theorem unpoison_tape (a n : Nat) : (s.unpoison a n).tape = s.tape := rfl
@[simp] theorem unpoison_galv (a n : Nat) : (s.unpoison a n).galv = s.galv := rfl
@[simp] theorem unpoison_tmu (a n : Nat) : (s.unpoison a n).tmu = s.tmu := rfl
@[simp] theorem unpoison_engs (a n : Nat) : (s.unpoison a n).engs = s.engs := rfl
@[simp] theorem unpoison_harts (a n : Nat) : (s.unpoison a n).harts = s.harts := rfl
@[simp] theorem unpoison_spool (a n : Nat) : (s.unpoison a n).spool = s.spool := rfl
@[simp] theorem unpoison_pow (a n : Nat) : (s.unpoison a n).pow = s.pow := rfl
@[simp] theorem unpoison_spdm (a n : Nat) : (s.unpoison a n).spdm = s.spdm := rfl
@[simp] theorem unpoison_gpio (a n : Nat) : (s.unpoison a n).gpio = s.gpio := rfl
@[simp] theorem unpoison_links (a n : Nat) : (s.unpoison a n).links = s.links := rfl
@[simp] theorem unpoison_dmc (a n : Nat) : (s.unpoison a n).dmc = s.dmc := rfl
@[simp] theorem unpoison_imsic (a n : Nat) : (s.unpoison a n).imsic = s.imsic := rfl
@[simp] theorem unpoison_aia (a n : Nat) : (s.unpoison a n).aia = s.aia := rfl

@[simp] theorem setBank_pending (b : Bool) (x : TapeBank) : (s.setBank b x).pending = s.pending := rfl
@[simp] theorem setBank_freeCtr (b : Bool) (x : TapeBank) : (s.setBank b x).freeCtr = s.freeCtr := rfl
@[simp] theorem setBank_out (b : Bool) (x : TapeBank) : (s.setBank b x).out = s.out := rfl
@[simp] theorem setBank_regs (b : Bool) (x : TapeBank) : (s.setBank b x).regs = s.regs := rfl
@[simp] theorem setBank_mem (b : Bool) (x : TapeBank) : (s.setBank b x).mem = s.mem := rfl
@[simp] theorem setBank_hostMem (b : Bool) (x : TapeBank) : (s.setBank b x).hostMem = s.hostMem := rfl
@[simp] theorem setBank_sys (b : Bool) (x : TapeBank) : (s.setBank b x).sys = s.sys := rfl
@[simp] theorem setBank_onf (b : Bool) (x : TapeBank) : (s.setBank b x).onf = s.onf := rfl
@[simp] theorem setBank_qps (b : Bool) (x : TapeBank) : (s.setBank b x).qps = s.qps := rfl
@[simp] theorem setBank_fns (b : Bool) (x : TapeBank) : (s.setBank b x).fns = s.fns := rfl
@[simp] theorem setBank_qf (b : Bool) (x : TapeBank) : (s.setBank b x).qf = s.qf := rfl
@[simp] theorem setBank_shut (b : Bool) (x : TapeBank) : (s.setBank b x).shut = s.shut := rfl
@[simp] theorem setBank_safe (b : Bool) (x : TapeBank) : (s.setBank b x).safe = s.safe := rfl
@[simp] theorem setBank_selv (b : Bool) (x : TapeBank) : (s.setBank b x).selv = s.selv := rfl
@[simp] theorem setBank_galv (b : Bool) (x : TapeBank) : (s.setBank b x).galv = s.galv := rfl
@[simp] theorem setBank_tmu (b : Bool) (x : TapeBank) : (s.setBank b x).tmu = s.tmu := rfl
@[simp] theorem setBank_engs (b : Bool) (x : TapeBank) : (s.setBank b x).engs = s.engs := rfl
@[simp] theorem setBank_harts (b : Bool) (x : TapeBank) : (s.setBank b x).harts = s.harts := rfl
@[simp] theorem setBank_spool (b : Bool) (x : TapeBank) : (s.setBank b x).spool = s.spool := rfl
@[simp] theorem setBank_pow (b : Bool) (x : TapeBank) : (s.setBank b x).pow = s.pow := rfl
@[simp] theorem setBank_spdm (b : Bool) (x : TapeBank) : (s.setBank b x).spdm = s.spdm := rfl
@[simp] theorem setBank_gpio (b : Bool) (x : TapeBank) : (s.setBank b x).gpio = s.gpio := rfl
@[simp] theorem setBank_links (b : Bool) (x : TapeBank) : (s.setBank b x).links = s.links := rfl
@[simp] theorem setBank_dmc (b : Bool) (x : TapeBank) : (s.setBank b x).dmc = s.dmc := rfl
@[simp] theorem setBank_imsic (b : Bool) (x : TapeBank) : (s.setBank b x).imsic = s.imsic := rfl
@[simp] theorem setBank_aia (b : Bool) (x : TapeBank) : (s.setBank b x).aia = s.aia := rfl

@[simp] theorem evtOn_pending (ch cls : Nat) (v : W64) (st : Nat) : (s.evtOn ch cls v st).pending = s.pending := rfl
@[simp] theorem evtOn_freeCtr (ch cls : Nat) (v : W64) (st : Nat) : (s.evtOn ch cls v st).freeCtr = s.freeCtr := rfl
@[simp] theorem evtOn_out (ch cls : Nat) (v : W64) (st : Nat) : (s.evtOn ch cls v st).out = s.out := rfl
@[simp] theorem evtOn_regs (ch cls : Nat) (v : W64) (st : Nat) : (s.evtOn ch cls v st).regs = s.regs := rfl
@[simp] theorem evtOn_mem (ch cls : Nat) (v : W64) (st : Nat) : (s.evtOn ch cls v st).mem = s.mem := rfl
@[simp] theorem evtOn_hostMem (ch cls : Nat) (v : W64) (st : Nat) : (s.evtOn ch cls v st).hostMem = s.hostMem := rfl
@[simp] theorem evtOn_sys (ch cls : Nat) (v : W64) (st : Nat) : (s.evtOn ch cls v st).sys = s.sys := rfl
@[simp] theorem evtOn_qps (ch cls : Nat) (v : W64) (st : Nat) : (s.evtOn ch cls v st).qps = s.qps := rfl
@[simp] theorem evtOn_fns (ch cls : Nat) (v : W64) (st : Nat) : (s.evtOn ch cls v st).fns = s.fns := rfl
@[simp] theorem evtOn_qf (ch cls : Nat) (v : W64) (st : Nat) : (s.evtOn ch cls v st).qf = s.qf := rfl
@[simp] theorem evtOn_shut (ch cls : Nat) (v : W64) (st : Nat) : (s.evtOn ch cls v st).shut = s.shut := rfl
@[simp] theorem evtOn_safe (ch cls : Nat) (v : W64) (st : Nat) : (s.evtOn ch cls v st).safe = s.safe := rfl
@[simp] theorem evtOn_selv (ch cls : Nat) (v : W64) (st : Nat) : (s.evtOn ch cls v st).selv = s.selv := rfl
@[simp] theorem evtOn_tape (ch cls : Nat) (v : W64) (st : Nat) : (s.evtOn ch cls v st).tape = s.tape := rfl
@[simp] theorem evtOn_galv (ch cls : Nat) (v : W64) (st : Nat) : (s.evtOn ch cls v st).galv = s.galv := rfl
@[simp] theorem evtOn_tmu (ch cls : Nat) (v : W64) (st : Nat) : (s.evtOn ch cls v st).tmu = s.tmu := rfl
@[simp] theorem evtOn_engs (ch cls : Nat) (v : W64) (st : Nat) : (s.evtOn ch cls v st).engs = s.engs := rfl
@[simp] theorem evtOn_harts (ch cls : Nat) (v : W64) (st : Nat) : (s.evtOn ch cls v st).harts = s.harts := rfl
@[simp] theorem evtOn_spool (ch cls : Nat) (v : W64) (st : Nat) : (s.evtOn ch cls v st).spool = s.spool := rfl
@[simp] theorem evtOn_pow (ch cls : Nat) (v : W64) (st : Nat) : (s.evtOn ch cls v st).pow = s.pow := rfl
@[simp] theorem evtOn_spdm (ch cls : Nat) (v : W64) (st : Nat) : (s.evtOn ch cls v st).spdm = s.spdm := rfl
@[simp] theorem evtOn_gpio (ch cls : Nat) (v : W64) (st : Nat) : (s.evtOn ch cls v st).gpio = s.gpio := rfl
@[simp] theorem evtOn_links (ch cls : Nat) (v : W64) (st : Nat) : (s.evtOn ch cls v st).links = s.links := rfl
@[simp] theorem evtOn_dmc (ch cls : Nat) (v : W64) (st : Nat) : (s.evtOn ch cls v st).dmc = s.dmc := rfl
@[simp] theorem evtOn_imsic (ch cls : Nat) (v : W64) (st : Nat) : (s.evtOn ch cls v st).imsic = s.imsic := rfl
@[simp] theorem evtOn_aia (ch cls : Nat) (v : W64) (st : Nat) : (s.evtOn ch cls v st).aia = s.aia := rfl

@[simp] theorem sendFlit_pending (p : FlitPayload) : (s.sendFlit p).pending = s.pending := rfl
@[simp] theorem sendFlit_freeCtr (p : FlitPayload) : (s.sendFlit p).freeCtr = s.freeCtr := rfl
@[simp] theorem sendFlit_regs (p : FlitPayload) : (s.sendFlit p).regs = s.regs := rfl
@[simp] theorem sendFlit_mem (p : FlitPayload) : (s.sendFlit p).mem = s.mem := rfl
@[simp] theorem sendFlit_hostMem (p : FlitPayload) : (s.sendFlit p).hostMem = s.hostMem := rfl
@[simp] theorem sendFlit_sys (p : FlitPayload) : (s.sendFlit p).sys = s.sys := rfl
@[simp] theorem sendFlit_onf (p : FlitPayload) : (s.sendFlit p).onf = s.onf := rfl
@[simp] theorem sendFlit_qps (p : FlitPayload) : (s.sendFlit p).qps = s.qps := rfl
@[simp] theorem sendFlit_fns (p : FlitPayload) : (s.sendFlit p).fns = s.fns := rfl
@[simp] theorem sendFlit_qf (p : FlitPayload) : (s.sendFlit p).qf = s.qf := rfl
@[simp] theorem sendFlit_shut (p : FlitPayload) : (s.sendFlit p).shut = s.shut := rfl
@[simp] theorem sendFlit_safe (p : FlitPayload) : (s.sendFlit p).safe = s.safe := rfl
@[simp] theorem sendFlit_selv (p : FlitPayload) : (s.sendFlit p).selv = s.selv := rfl
@[simp] theorem sendFlit_tape (p : FlitPayload) : (s.sendFlit p).tape = s.tape := rfl
@[simp] theorem sendFlit_tmu (p : FlitPayload) : (s.sendFlit p).tmu = s.tmu := rfl
@[simp] theorem sendFlit_engs (p : FlitPayload) : (s.sendFlit p).engs = s.engs := rfl
@[simp] theorem sendFlit_harts (p : FlitPayload) : (s.sendFlit p).harts = s.harts := rfl
@[simp] theorem sendFlit_spool (p : FlitPayload) : (s.sendFlit p).spool = s.spool := rfl
@[simp] theorem sendFlit_pow (p : FlitPayload) : (s.sendFlit p).pow = s.pow := rfl
@[simp] theorem sendFlit_spdm (p : FlitPayload) : (s.sendFlit p).spdm = s.spdm := rfl
@[simp] theorem sendFlit_gpio (p : FlitPayload) : (s.sendFlit p).gpio = s.gpio := rfl
@[simp] theorem sendFlit_links (p : FlitPayload) : (s.sendFlit p).links = s.links := rfl
@[simp] theorem sendFlit_dmc (p : FlitPayload) : (s.sendFlit p).dmc = s.dmc := rfl
@[simp] theorem sendFlit_imsic (p : FlitPayload) : (s.sendFlit p).imsic = s.imsic := rfl
@[simp] theorem sendFlit_aia (p : FlitPayload) : (s.sendFlit p).aia = s.aia := rfl

@[simp] theorem wrapCount_pending (off : Nat) : (s.wrapCount off).pending = s.pending := rfl
@[simp] theorem wrapCount_freeCtr (off : Nat) : (s.wrapCount off).freeCtr = s.freeCtr := rfl
@[simp] theorem wrapCount_out (off : Nat) : (s.wrapCount off).out = s.out := rfl
@[simp] theorem wrapCount_mem (off : Nat) : (s.wrapCount off).mem = s.mem := rfl
@[simp] theorem wrapCount_hostMem (off : Nat) : (s.wrapCount off).hostMem = s.hostMem := rfl
@[simp] theorem wrapCount_sys (off : Nat) : (s.wrapCount off).sys = s.sys := rfl
@[simp] theorem wrapCount_onf (off : Nat) : (s.wrapCount off).onf = s.onf := rfl
@[simp] theorem wrapCount_qps (off : Nat) : (s.wrapCount off).qps = s.qps := rfl
@[simp] theorem wrapCount_fns (off : Nat) : (s.wrapCount off).fns = s.fns := rfl
@[simp] theorem wrapCount_qf (off : Nat) : (s.wrapCount off).qf = s.qf := rfl
@[simp] theorem wrapCount_shut (off : Nat) : (s.wrapCount off).shut = s.shut := rfl
@[simp] theorem wrapCount_safe (off : Nat) : (s.wrapCount off).safe = s.safe := rfl
@[simp] theorem wrapCount_selv (off : Nat) : (s.wrapCount off).selv = s.selv := rfl
@[simp] theorem wrapCount_tape (off : Nat) : (s.wrapCount off).tape = s.tape := rfl
@[simp] theorem wrapCount_galv (off : Nat) : (s.wrapCount off).galv = s.galv := rfl
@[simp] theorem wrapCount_tmu (off : Nat) : (s.wrapCount off).tmu = s.tmu := rfl
@[simp] theorem wrapCount_engs (off : Nat) : (s.wrapCount off).engs = s.engs := rfl
@[simp] theorem wrapCount_harts (off : Nat) : (s.wrapCount off).harts = s.harts := rfl
@[simp] theorem wrapCount_spool (off : Nat) : (s.wrapCount off).spool = s.spool := rfl
@[simp] theorem wrapCount_pow (off : Nat) : (s.wrapCount off).pow = s.pow := rfl
@[simp] theorem wrapCount_spdm (off : Nat) : (s.wrapCount off).spdm = s.spdm := rfl
@[simp] theorem wrapCount_gpio (off : Nat) : (s.wrapCount off).gpio = s.gpio := rfl
@[simp] theorem wrapCount_links (off : Nat) : (s.wrapCount off).links = s.links := rfl
@[simp] theorem wrapCount_dmc (off : Nat) : (s.wrapCount off).dmc = s.dmc := rfl
@[simp] theorem wrapCount_imsic (off : Nat) : (s.wrapCount off).imsic = s.imsic := rfl
@[simp] theorem wrapCount_aia (off : Nat) : (s.wrapCount off).aia = s.aia := rfl

@[simp] theorem setMbx_pending (ch : Nat) (m : Mailbox) : (s.setMbx ch m).pending = s.pending := rfl
@[simp] theorem setMbx_freeCtr (ch : Nat) (m : Mailbox) : (s.setMbx ch m).freeCtr = s.freeCtr := rfl
@[simp] theorem setMbx_out (ch : Nat) (m : Mailbox) : (s.setMbx ch m).out = s.out := rfl
@[simp] theorem setMbx_regs (ch : Nat) (m : Mailbox) : (s.setMbx ch m).regs = s.regs := rfl
@[simp] theorem setMbx_mem (ch : Nat) (m : Mailbox) : (s.setMbx ch m).mem = s.mem := rfl
@[simp] theorem setMbx_hostMem (ch : Nat) (m : Mailbox) : (s.setMbx ch m).hostMem = s.hostMem := rfl
@[simp] theorem setMbx_sys (ch : Nat) (m : Mailbox) : (s.setMbx ch m).sys = s.sys := rfl
@[simp] theorem setMbx_qps (ch : Nat) (m : Mailbox) : (s.setMbx ch m).qps = s.qps := rfl
@[simp] theorem setMbx_fns (ch : Nat) (m : Mailbox) : (s.setMbx ch m).fns = s.fns := rfl
@[simp] theorem setMbx_qf (ch : Nat) (m : Mailbox) : (s.setMbx ch m).qf = s.qf := rfl
@[simp] theorem setMbx_shut (ch : Nat) (m : Mailbox) : (s.setMbx ch m).shut = s.shut := rfl
@[simp] theorem setMbx_safe (ch : Nat) (m : Mailbox) : (s.setMbx ch m).safe = s.safe := rfl
@[simp] theorem setMbx_selv (ch : Nat) (m : Mailbox) : (s.setMbx ch m).selv = s.selv := rfl
@[simp] theorem setMbx_tape (ch : Nat) (m : Mailbox) : (s.setMbx ch m).tape = s.tape := rfl
@[simp] theorem setMbx_galv (ch : Nat) (m : Mailbox) : (s.setMbx ch m).galv = s.galv := rfl
@[simp] theorem setMbx_tmu (ch : Nat) (m : Mailbox) : (s.setMbx ch m).tmu = s.tmu := rfl
@[simp] theorem setMbx_engs (ch : Nat) (m : Mailbox) : (s.setMbx ch m).engs = s.engs := rfl
@[simp] theorem setMbx_harts (ch : Nat) (m : Mailbox) : (s.setMbx ch m).harts = s.harts := rfl
@[simp] theorem setMbx_spool (ch : Nat) (m : Mailbox) : (s.setMbx ch m).spool = s.spool := rfl
@[simp] theorem setMbx_pow (ch : Nat) (m : Mailbox) : (s.setMbx ch m).pow = s.pow := rfl
@[simp] theorem setMbx_spdm (ch : Nat) (m : Mailbox) : (s.setMbx ch m).spdm = s.spdm := rfl
@[simp] theorem setMbx_gpio (ch : Nat) (m : Mailbox) : (s.setMbx ch m).gpio = s.gpio := rfl
@[simp] theorem setMbx_links (ch : Nat) (m : Mailbox) : (s.setMbx ch m).links = s.links := rfl
@[simp] theorem setMbx_dmc (ch : Nat) (m : Mailbox) : (s.setMbx ch m).dmc = s.dmc := rfl
@[simp] theorem setMbx_imsic (ch : Nat) (m : Mailbox) : (s.setMbx ch m).imsic = s.imsic := rfl
@[simp] theorem setMbx_aia (ch : Nat) (m : Mailbox) : (s.setMbx ch m).aia = s.aia := rfl

@[simp] theorem setCtr_pending (slot : Nat) (k : SenderKey) (ctr : Nat) : (s.setCtr slot k ctr).pending = s.pending := rfl
@[simp] theorem setCtr_freeCtr (slot : Nat) (k : SenderKey) (ctr : Nat) : (s.setCtr slot k ctr).freeCtr = s.freeCtr := rfl
@[simp] theorem setCtr_out (slot : Nat) (k : SenderKey) (ctr : Nat) : (s.setCtr slot k ctr).out = s.out := rfl
@[simp] theorem setCtr_regs (slot : Nat) (k : SenderKey) (ctr : Nat) : (s.setCtr slot k ctr).regs = s.regs := rfl
@[simp] theorem setCtr_mem (slot : Nat) (k : SenderKey) (ctr : Nat) : (s.setCtr slot k ctr).mem = s.mem := rfl
@[simp] theorem setCtr_hostMem (slot : Nat) (k : SenderKey) (ctr : Nat) : (s.setCtr slot k ctr).hostMem = s.hostMem := rfl
@[simp] theorem setCtr_sys (slot : Nat) (k : SenderKey) (ctr : Nat) : (s.setCtr slot k ctr).sys = s.sys := rfl
@[simp] theorem setCtr_qps (slot : Nat) (k : SenderKey) (ctr : Nat) : (s.setCtr slot k ctr).qps = s.qps := rfl
@[simp] theorem setCtr_fns (slot : Nat) (k : SenderKey) (ctr : Nat) : (s.setCtr slot k ctr).fns = s.fns := rfl
@[simp] theorem setCtr_qf (slot : Nat) (k : SenderKey) (ctr : Nat) : (s.setCtr slot k ctr).qf = s.qf := rfl
@[simp] theorem setCtr_shut (slot : Nat) (k : SenderKey) (ctr : Nat) : (s.setCtr slot k ctr).shut = s.shut := rfl
@[simp] theorem setCtr_safe (slot : Nat) (k : SenderKey) (ctr : Nat) : (s.setCtr slot k ctr).safe = s.safe := rfl
@[simp] theorem setCtr_selv (slot : Nat) (k : SenderKey) (ctr : Nat) : (s.setCtr slot k ctr).selv = s.selv := rfl
@[simp] theorem setCtr_tape (slot : Nat) (k : SenderKey) (ctr : Nat) : (s.setCtr slot k ctr).tape = s.tape := rfl
@[simp] theorem setCtr_galv (slot : Nat) (k : SenderKey) (ctr : Nat) : (s.setCtr slot k ctr).galv = s.galv := rfl
@[simp] theorem setCtr_tmu (slot : Nat) (k : SenderKey) (ctr : Nat) : (s.setCtr slot k ctr).tmu = s.tmu := rfl
@[simp] theorem setCtr_engs (slot : Nat) (k : SenderKey) (ctr : Nat) : (s.setCtr slot k ctr).engs = s.engs := rfl
@[simp] theorem setCtr_harts (slot : Nat) (k : SenderKey) (ctr : Nat) : (s.setCtr slot k ctr).harts = s.harts := rfl
@[simp] theorem setCtr_spool (slot : Nat) (k : SenderKey) (ctr : Nat) : (s.setCtr slot k ctr).spool = s.spool := rfl
@[simp] theorem setCtr_pow (slot : Nat) (k : SenderKey) (ctr : Nat) : (s.setCtr slot k ctr).pow = s.pow := rfl
@[simp] theorem setCtr_spdm (slot : Nat) (k : SenderKey) (ctr : Nat) : (s.setCtr slot k ctr).spdm = s.spdm := rfl
@[simp] theorem setCtr_gpio (slot : Nat) (k : SenderKey) (ctr : Nat) : (s.setCtr slot k ctr).gpio = s.gpio := rfl
@[simp] theorem setCtr_links (slot : Nat) (k : SenderKey) (ctr : Nat) : (s.setCtr slot k ctr).links = s.links := rfl
@[simp] theorem setCtr_dmc (slot : Nat) (k : SenderKey) (ctr : Nat) : (s.setCtr slot k ctr).dmc = s.dmc := rfl
@[simp] theorem setCtr_imsic (slot : Nat) (k : SenderKey) (ctr : Nat) : (s.setCtr slot k ctr).imsic = s.imsic := rfl
@[simp] theorem setCtr_aia (slot : Nat) (k : SenderKey) (ctr : Nat) : (s.setCtr slot k ctr).aia = s.aia := rfl

@[simp] theorem writeCeil_pending (h ok : Nat) : (s.writeCeil h ok).pending = s.pending := rfl
@[simp] theorem writeCeil_freeCtr (h ok : Nat) : (s.writeCeil h ok).freeCtr = s.freeCtr := rfl
@[simp] theorem writeCeil_out (h ok : Nat) : (s.writeCeil h ok).out = s.out := rfl
@[simp] theorem writeCeil_regs (h ok : Nat) : (s.writeCeil h ok).regs = s.regs := rfl
@[simp] theorem writeCeil_mem (h ok : Nat) : (s.writeCeil h ok).mem = s.mem := rfl
@[simp] theorem writeCeil_hostMem (h ok : Nat) : (s.writeCeil h ok).hostMem = s.hostMem := rfl
@[simp] theorem writeCeil_sys (h ok : Nat) : (s.writeCeil h ok).sys = s.sys := rfl
@[simp] theorem writeCeil_qps (h ok : Nat) : (s.writeCeil h ok).qps = s.qps := rfl
@[simp] theorem writeCeil_fns (h ok : Nat) : (s.writeCeil h ok).fns = s.fns := rfl
@[simp] theorem writeCeil_qf (h ok : Nat) : (s.writeCeil h ok).qf = s.qf := rfl
@[simp] theorem writeCeil_shut (h ok : Nat) : (s.writeCeil h ok).shut = s.shut := rfl
@[simp] theorem writeCeil_safe (h ok : Nat) : (s.writeCeil h ok).safe = s.safe := rfl
@[simp] theorem writeCeil_selv (h ok : Nat) : (s.writeCeil h ok).selv = s.selv := rfl
@[simp] theorem writeCeil_tape (h ok : Nat) : (s.writeCeil h ok).tape = s.tape := rfl
@[simp] theorem writeCeil_galv (h ok : Nat) : (s.writeCeil h ok).galv = s.galv := rfl
@[simp] theorem writeCeil_tmu (h ok : Nat) : (s.writeCeil h ok).tmu = s.tmu := rfl
@[simp] theorem writeCeil_engs (h ok : Nat) : (s.writeCeil h ok).engs = s.engs := rfl
@[simp] theorem writeCeil_harts (h ok : Nat) : (s.writeCeil h ok).harts = s.harts := rfl
@[simp] theorem writeCeil_spool (h ok : Nat) : (s.writeCeil h ok).spool = s.spool := rfl
@[simp] theorem writeCeil_pow (h ok : Nat) : (s.writeCeil h ok).pow = s.pow := rfl
@[simp] theorem writeCeil_spdm (h ok : Nat) : (s.writeCeil h ok).spdm = s.spdm := rfl
@[simp] theorem writeCeil_gpio (h ok : Nat) : (s.writeCeil h ok).gpio = s.gpio := rfl
@[simp] theorem writeCeil_links (h ok : Nat) : (s.writeCeil h ok).links = s.links := rfl
@[simp] theorem writeCeil_dmc (h ok : Nat) : (s.writeCeil h ok).dmc = s.dmc := rfl
@[simp] theorem writeCeil_imsic (h ok : Nat) : (s.writeCeil h ok).imsic = s.imsic := rfl
@[simp] theorem writeCeil_aia (h ok : Nat) : (s.writeCeil h ok).aia = s.aia := rfl

@[simp] theorem setSession_pending (x : Option Session) : (s.setSession x).pending = s.pending := rfl
@[simp] theorem setSession_freeCtr (x : Option Session) : (s.setSession x).freeCtr = s.freeCtr := rfl
@[simp] theorem setSession_out (x : Option Session) : (s.setSession x).out = s.out := rfl
@[simp] theorem setSession_regs (x : Option Session) : (s.setSession x).regs = s.regs := rfl
@[simp] theorem setSession_mem (x : Option Session) : (s.setSession x).mem = s.mem := rfl
@[simp] theorem setSession_hostMem (x : Option Session) : (s.setSession x).hostMem = s.hostMem := rfl
@[simp] theorem setSession_sys (x : Option Session) : (s.setSession x).sys = s.sys := rfl
@[simp] theorem setSession_qps (x : Option Session) : (s.setSession x).qps = s.qps := rfl
@[simp] theorem setSession_fns (x : Option Session) : (s.setSession x).fns = s.fns := rfl
@[simp] theorem setSession_qf (x : Option Session) : (s.setSession x).qf = s.qf := rfl
@[simp] theorem setSession_shut (x : Option Session) : (s.setSession x).shut = s.shut := rfl
@[simp] theorem setSession_safe (x : Option Session) : (s.setSession x).safe = s.safe := rfl
@[simp] theorem setSession_selv (x : Option Session) : (s.setSession x).selv = s.selv := rfl
@[simp] theorem setSession_tape (x : Option Session) : (s.setSession x).tape = s.tape := rfl
@[simp] theorem setSession_galv (x : Option Session) : (s.setSession x).galv = s.galv := rfl
@[simp] theorem setSession_tmu (x : Option Session) : (s.setSession x).tmu = s.tmu := rfl
@[simp] theorem setSession_engs (x : Option Session) : (s.setSession x).engs = s.engs := rfl
@[simp] theorem setSession_harts (x : Option Session) : (s.setSession x).harts = s.harts := rfl
@[simp] theorem setSession_spool (x : Option Session) : (s.setSession x).spool = s.spool := rfl
@[simp] theorem setSession_pow (x : Option Session) : (s.setSession x).pow = s.pow := rfl
@[simp] theorem setSession_spdm (x : Option Session) : (s.setSession x).spdm = s.spdm := rfl
@[simp] theorem setSession_gpio (x : Option Session) : (s.setSession x).gpio = s.gpio := rfl
@[simp] theorem setSession_links (x : Option Session) : (s.setSession x).links = s.links := rfl
@[simp] theorem setSession_dmc (x : Option Session) : (s.setSession x).dmc = s.dmc := rfl
@[simp] theorem setSession_imsic (x : Option Session) : (s.setSession x).imsic = s.imsic := rfl
@[simp] theorem setSession_aia (x : Option Session) : (s.setSession x).aia = s.aia := rfl

@[simp] theorem setMask_pending (ch m : Nat) : (s.setMask ch m).pending = s.pending := rfl
@[simp] theorem setMask_freeCtr (ch m : Nat) : (s.setMask ch m).freeCtr = s.freeCtr := rfl
@[simp] theorem setMask_out (ch m : Nat) : (s.setMask ch m).out = s.out := rfl
@[simp] theorem setMask_regs (ch m : Nat) : (s.setMask ch m).regs = s.regs := rfl
@[simp] theorem setMask_mem (ch m : Nat) : (s.setMask ch m).mem = s.mem := rfl
@[simp] theorem setMask_hostMem (ch m : Nat) : (s.setMask ch m).hostMem = s.hostMem := rfl
@[simp] theorem setMask_sys (ch m : Nat) : (s.setMask ch m).sys = s.sys := rfl
@[simp] theorem setMask_qps (ch m : Nat) : (s.setMask ch m).qps = s.qps := rfl
@[simp] theorem setMask_fns (ch m : Nat) : (s.setMask ch m).fns = s.fns := rfl
@[simp] theorem setMask_qf (ch m : Nat) : (s.setMask ch m).qf = s.qf := rfl
@[simp] theorem setMask_shut (ch m : Nat) : (s.setMask ch m).shut = s.shut := rfl
@[simp] theorem setMask_safe (ch m : Nat) : (s.setMask ch m).safe = s.safe := rfl
@[simp] theorem setMask_selv (ch m : Nat) : (s.setMask ch m).selv = s.selv := rfl
@[simp] theorem setMask_tape (ch m : Nat) : (s.setMask ch m).tape = s.tape := rfl
@[simp] theorem setMask_galv (ch m : Nat) : (s.setMask ch m).galv = s.galv := rfl
@[simp] theorem setMask_tmu (ch m : Nat) : (s.setMask ch m).tmu = s.tmu := rfl
@[simp] theorem setMask_engs (ch m : Nat) : (s.setMask ch m).engs = s.engs := rfl
@[simp] theorem setMask_harts (ch m : Nat) : (s.setMask ch m).harts = s.harts := rfl
@[simp] theorem setMask_spool (ch m : Nat) : (s.setMask ch m).spool = s.spool := rfl
@[simp] theorem setMask_pow (ch m : Nat) : (s.setMask ch m).pow = s.pow := rfl
@[simp] theorem setMask_spdm (ch m : Nat) : (s.setMask ch m).spdm = s.spdm := rfl
@[simp] theorem setMask_gpio (ch m : Nat) : (s.setMask ch m).gpio = s.gpio := rfl
@[simp] theorem setMask_links (ch m : Nat) : (s.setMask ch m).links = s.links := rfl
@[simp] theorem setMask_dmc (ch m : Nat) : (s.setMask ch m).dmc = s.dmc := rfl
@[simp] theorem setMask_imsic (ch m : Nat) : (s.setMask ch m).imsic = s.imsic := rfl
@[simp] theorem setMask_aia (ch m : Nat) : (s.setMask ch m).aia = s.aia := rfl

@[simp] theorem setEng_pending (e : Nat) (x : Engine) : (s.setEng e x).pending = s.pending := rfl
@[simp] theorem setEng_freeCtr (e : Nat) (x : Engine) : (s.setEng e x).freeCtr = s.freeCtr := rfl
@[simp] theorem setEng_out (e : Nat) (x : Engine) : (s.setEng e x).out = s.out := rfl
@[simp] theorem setEng_regs (e : Nat) (x : Engine) : (s.setEng e x).regs = s.regs := rfl
@[simp] theorem setEng_mem (e : Nat) (x : Engine) : (s.setEng e x).mem = s.mem := rfl
@[simp] theorem setEng_hostMem (e : Nat) (x : Engine) : (s.setEng e x).hostMem = s.hostMem := rfl
@[simp] theorem setEng_sys (e : Nat) (x : Engine) : (s.setEng e x).sys = s.sys := rfl
@[simp] theorem setEng_onf (e : Nat) (x : Engine) : (s.setEng e x).onf = s.onf := rfl
@[simp] theorem setEng_qps (e : Nat) (x : Engine) : (s.setEng e x).qps = s.qps := rfl
@[simp] theorem setEng_fns (e : Nat) (x : Engine) : (s.setEng e x).fns = s.fns := rfl
@[simp] theorem setEng_qf (e : Nat) (x : Engine) : (s.setEng e x).qf = s.qf := rfl
@[simp] theorem setEng_shut (e : Nat) (x : Engine) : (s.setEng e x).shut = s.shut := rfl
@[simp] theorem setEng_safe (e : Nat) (x : Engine) : (s.setEng e x).safe = s.safe := rfl
@[simp] theorem setEng_selv (e : Nat) (x : Engine) : (s.setEng e x).selv = s.selv := rfl
@[simp] theorem setEng_tape (e : Nat) (x : Engine) : (s.setEng e x).tape = s.tape := rfl
@[simp] theorem setEng_galv (e : Nat) (x : Engine) : (s.setEng e x).galv = s.galv := rfl
@[simp] theorem setEng_tmu (e : Nat) (x : Engine) : (s.setEng e x).tmu = s.tmu := rfl
@[simp] theorem setEng_harts (e : Nat) (x : Engine) : (s.setEng e x).harts = s.harts := rfl
@[simp] theorem setEng_spool (e : Nat) (x : Engine) : (s.setEng e x).spool = s.spool := rfl
@[simp] theorem setEng_pow (e : Nat) (x : Engine) : (s.setEng e x).pow = s.pow := rfl
@[simp] theorem setEng_spdm (e : Nat) (x : Engine) : (s.setEng e x).spdm = s.spdm := rfl
@[simp] theorem setEng_gpio (e : Nat) (x : Engine) : (s.setEng e x).gpio = s.gpio := rfl
@[simp] theorem setEng_links (e : Nat) (x : Engine) : (s.setEng e x).links = s.links := rfl
@[simp] theorem setEng_dmc (e : Nat) (x : Engine) : (s.setEng e x).dmc = s.dmc := rfl
@[simp] theorem setEng_imsic (e : Nat) (x : Engine) : (s.setEng e x).imsic = s.imsic := rfl
@[simp] theorem setEng_aia (e : Nat) (x : Engine) : (s.setEng e x).aia = s.aia := rfl

@[simp] theorem setUnit_pending (u : Nat) (x : UnitSt) : (s.setUnit u x).pending = s.pending := rfl
@[simp] theorem setUnit_freeCtr (u : Nat) (x : UnitSt) : (s.setUnit u x).freeCtr = s.freeCtr := rfl
@[simp] theorem setUnit_out (u : Nat) (x : UnitSt) : (s.setUnit u x).out = s.out := rfl
@[simp] theorem setUnit_regs (u : Nat) (x : UnitSt) : (s.setUnit u x).regs = s.regs := rfl
@[simp] theorem setUnit_mem (u : Nat) (x : UnitSt) : (s.setUnit u x).mem = s.mem := rfl
@[simp] theorem setUnit_hostMem (u : Nat) (x : UnitSt) : (s.setUnit u x).hostMem = s.hostMem := rfl
@[simp] theorem setUnit_sys (u : Nat) (x : UnitSt) : (s.setUnit u x).sys = s.sys := rfl
@[simp] theorem setUnit_onf (u : Nat) (x : UnitSt) : (s.setUnit u x).onf = s.onf := rfl
@[simp] theorem setUnit_qps (u : Nat) (x : UnitSt) : (s.setUnit u x).qps = s.qps := rfl
@[simp] theorem setUnit_fns (u : Nat) (x : UnitSt) : (s.setUnit u x).fns = s.fns := rfl
@[simp] theorem setUnit_qf (u : Nat) (x : UnitSt) : (s.setUnit u x).qf = s.qf := rfl
@[simp] theorem setUnit_shut (u : Nat) (x : UnitSt) : (s.setUnit u x).shut = s.shut := rfl
@[simp] theorem setUnit_safe (u : Nat) (x : UnitSt) : (s.setUnit u x).safe = s.safe := rfl
@[simp] theorem setUnit_selv (u : Nat) (x : UnitSt) : (s.setUnit u x).selv = s.selv := rfl
@[simp] theorem setUnit_tape (u : Nat) (x : UnitSt) : (s.setUnit u x).tape = s.tape := rfl
@[simp] theorem setUnit_galv (u : Nat) (x : UnitSt) : (s.setUnit u x).galv = s.galv := rfl
@[simp] theorem setUnit_tmu (u : Nat) (x : UnitSt) : (s.setUnit u x).tmu = s.tmu := rfl
@[simp] theorem setUnit_engs (u : Nat) (x : UnitSt) : (s.setUnit u x).engs = s.engs := rfl
@[simp] theorem setUnit_harts (u : Nat) (x : UnitSt) : (s.setUnit u x).harts = s.harts := rfl
@[simp] theorem setUnit_spool (u : Nat) (x : UnitSt) : (s.setUnit u x).spool = s.spool := rfl
@[simp] theorem setUnit_spdm (u : Nat) (x : UnitSt) : (s.setUnit u x).spdm = s.spdm := rfl
@[simp] theorem setUnit_gpio (u : Nat) (x : UnitSt) : (s.setUnit u x).gpio = s.gpio := rfl
@[simp] theorem setUnit_links (u : Nat) (x : UnitSt) : (s.setUnit u x).links = s.links := rfl
@[simp] theorem setUnit_dmc (u : Nat) (x : UnitSt) : (s.setUnit u x).dmc = s.dmc := rfl
@[simp] theorem setUnit_imsic (u : Nat) (x : UnitSt) : (s.setUnit u x).imsic = s.imsic := rfl
@[simp] theorem setUnit_aia (u : Nat) (x : UnitSt) : (s.setUnit u x).aia = s.aia := rfl

@[simp] theorem setSpdm_pending (n : Nat) (x : SpdmState) : (s.setSpdm n x).pending = s.pending := rfl
@[simp] theorem setSpdm_freeCtr (n : Nat) (x : SpdmState) : (s.setSpdm n x).freeCtr = s.freeCtr := rfl
@[simp] theorem setSpdm_out (n : Nat) (x : SpdmState) : (s.setSpdm n x).out = s.out := rfl
@[simp] theorem setSpdm_regs (n : Nat) (x : SpdmState) : (s.setSpdm n x).regs = s.regs := rfl
@[simp] theorem setSpdm_mem (n : Nat) (x : SpdmState) : (s.setSpdm n x).mem = s.mem := rfl
@[simp] theorem setSpdm_hostMem (n : Nat) (x : SpdmState) : (s.setSpdm n x).hostMem = s.hostMem := rfl
@[simp] theorem setSpdm_sys (n : Nat) (x : SpdmState) : (s.setSpdm n x).sys = s.sys := rfl
@[simp] theorem setSpdm_onf (n : Nat) (x : SpdmState) : (s.setSpdm n x).onf = s.onf := rfl
@[simp] theorem setSpdm_qps (n : Nat) (x : SpdmState) : (s.setSpdm n x).qps = s.qps := rfl
@[simp] theorem setSpdm_fns (n : Nat) (x : SpdmState) : (s.setSpdm n x).fns = s.fns := rfl
@[simp] theorem setSpdm_qf (n : Nat) (x : SpdmState) : (s.setSpdm n x).qf = s.qf := rfl
@[simp] theorem setSpdm_shut (n : Nat) (x : SpdmState) : (s.setSpdm n x).shut = s.shut := rfl
@[simp] theorem setSpdm_safe (n : Nat) (x : SpdmState) : (s.setSpdm n x).safe = s.safe := rfl
@[simp] theorem setSpdm_selv (n : Nat) (x : SpdmState) : (s.setSpdm n x).selv = s.selv := rfl
@[simp] theorem setSpdm_tape (n : Nat) (x : SpdmState) : (s.setSpdm n x).tape = s.tape := rfl
@[simp] theorem setSpdm_galv (n : Nat) (x : SpdmState) : (s.setSpdm n x).galv = s.galv := rfl
@[simp] theorem setSpdm_tmu (n : Nat) (x : SpdmState) : (s.setSpdm n x).tmu = s.tmu := rfl
@[simp] theorem setSpdm_engs (n : Nat) (x : SpdmState) : (s.setSpdm n x).engs = s.engs := rfl
@[simp] theorem setSpdm_harts (n : Nat) (x : SpdmState) : (s.setSpdm n x).harts = s.harts := rfl
@[simp] theorem setSpdm_spool (n : Nat) (x : SpdmState) : (s.setSpdm n x).spool = s.spool := rfl
@[simp] theorem setSpdm_pow (n : Nat) (x : SpdmState) : (s.setSpdm n x).pow = s.pow := rfl
@[simp] theorem setSpdm_gpio (n : Nat) (x : SpdmState) : (s.setSpdm n x).gpio = s.gpio := rfl
@[simp] theorem setSpdm_links (n : Nat) (x : SpdmState) : (s.setSpdm n x).links = s.links := rfl
@[simp] theorem setSpdm_dmc (n : Nat) (x : SpdmState) : (s.setSpdm n x).dmc = s.dmc := rfl
@[simp] theorem setSpdm_imsic (n : Nat) (x : SpdmState) : (s.setSpdm n x).imsic = s.imsic := rfl
@[simp] theorem setSpdm_aia (n : Nat) (x : SpdmState) : (s.setSpdm n x).aia = s.aia := rfl

end Sys2Proof.Machine.State
end

