-- ==== Sys2Proof/Laws/Regs.lean ====
section
/-!
SUPPORT. Laws/Regs.lean: bit fields and control registers: a field reads what was written to it, and a write leaves every other field
and every other register as it was.
-/

namespace Sys2Proof.Machine

/-! ### Fields of a word -/

theorem testBit_bitsOf (x lo w i : Nat) : (bitsOf x lo w).testBit i = (decide (i < w) && x.testBit (lo + i)) := by
  simp [bitsOf, Nat.testBit_mod_two_pow, Nat.testBit_shiftRight]

theorem getLsbD_maskOf (lo w i : Nat) : (maskOf lo w).getLsbD i = (decide (i < 64) && decide (lo ≤ i) && decide (i < lo + w)) := by
  unfold maskOf
  rw [BitVec.getLsbD_ofNat, Nat.testBit_shiftLeft, Nat.testBit_two_pow_sub_one]
  by_cases h1 : i < 64 <;> by_cases h2 : lo ≤ i <;> (simp [h1, h2]; try omega)

theorem getLsbD_setBits (x : W64) (lo w v i : Nat) :
    (setBits x lo w v).getLsbD i =
      (decide (i < 64) && if lo ≤ i ∧ i < lo + w then v.testBit (i - lo) else x.getLsbD i) := by
  unfold setBits
  rw [BitVec.getLsbD_or, BitVec.getLsbD_and, BitVec.getLsbD_not, getLsbD_maskOf, BitVec.getLsbD_ofNat, Nat.testBit_shiftLeft,
    Nat.testBit_mod_two_pow]
  by_cases h1 : i < 64
  · by_cases h2 : lo ≤ i
    · by_cases h3 : i < lo + w
      · have h4 : i - lo < w := by omega
        simp [h1, h2, h3, h4]
      · have h4 : ¬ i - lo < w := by omega
        simp [h1, h2, h3, h4]
    · simp [h1, h2]
  · have := BitVec.getLsbD_of_ge x i (by omega)
    simp [h1]

theorem testBit_getBits (x : W64) (lo w i : Nat) : (getBits x lo w).testBit i = (decide (i < w) && x.getLsbD (lo + i)) := by
  rw [getBits, testBit_bitsOf, BitVec.testBit_toNat]

/-- A field reads what was written to it. -/
theorem getBits_setBits_self {x : W64} {lo w v : Nat} (h : lo + w ≤ 64) : getBits (setBits x lo w v) lo w = v % 2 ^ w := by
  apply Nat.eq_of_testBit_eq
  intro i
  rw [testBit_getBits, getLsbD_setBits, Nat.testBit_mod_two_pow]
  by_cases hi : i < w
  · have h1 : lo + i < 64 := by omega
    simp [hi, h1]
  · simp [hi]

/-- A write to one field leaves the others. -/
theorem getBits_setBits_disj {x : W64} {lo w v l m : Nat} (h : l + m ≤ lo ∨ lo + w ≤ l) (hm : l + m ≤ 64) :
    getBits (setBits x lo w v) l m = getBits x l m := by
  apply Nat.eq_of_testBit_eq
  intro i
  rw [testBit_getBits, testBit_getBits, getLsbD_setBits]
  by_cases hi : i < m
  · have h1 : l + i < 64 := by omega
    have h2 : ¬ (lo ≤ l + i ∧ l + i < lo + w) := by omega
    simp [hi, h1, h2]
  · simp [hi]

/-! ### Registers -/

variable {s : State}

theorem State.reg_setReg_ne {off o : Nat} {v : W64} (h : o ≠ off) : (s.setReg off v).reg o = s.reg o := smGet_put_ne h

theorem State.reg_setReg_self {off : Nat} {v : W64} : (s.setReg off v).reg off = v := smGet_put_self

theorem State.reg_setFld_ne {f : Fld} {o v : Nat} (h : o ≠ f.off) : (s.setFld f v).reg o = s.reg o := State.reg_setReg_ne h

theorem State.fld_setReg_ne {off : Nat} {v : W64} {g : Fld} (h : g.off ≠ off) : (s.setReg off v).fld g = s.fld g := by
  unfold State.fld; rw [State.reg_setReg_ne h]

theorem State.fld_setFld_ne {f g : Fld} {v : Nat} (h : g.off ≠ f.off) : (s.setFld f v).fld g = s.fld g := State.fld_setReg_ne h

/-- A field reads what was written to it. -/
theorem State.fld_setFld_self {f : Fld} {v : Nat} (hf : f.lo + f.w ≤ 64) : (s.setFld f v).fld f = v % 2 ^ f.w := by
  unfold State.fld State.setFld
  rw [State.reg_setReg_self, getBits_setBits_self hf]

/-- A write to one field of a register leaves its other fields. -/
theorem State.fld_setFld_disj {f g : Fld} {v : Nat} (hg : g.lo + g.w ≤ 64)
    (hd : g.lo + g.w ≤ f.lo ∨ f.lo + f.w ≤ g.lo) : (s.setFld f v).fld g = s.fld g := by
  by_cases ho : g.off = f.off
  · unfold State.fld State.setFld
    rw [ho, State.reg_setReg_self, getBits_setBits_disj hd hg]
  · exact State.fld_setFld_ne ho

theorem State.bit_setBit_self {f : Fld} (hf : f.lo + f.w ≤ 64) (hw : 0 < f.w) : (s.setBit f).bit f = true := by
  unfold State.bit State.setBit
  rw [State.fld_setFld_self hf, Nat.mod_eq_of_lt (Nat.one_lt_two_pow (by omega))]
  rfl

theorem State.bit_clrBit_self {f : Fld} (hf : f.lo + f.w ≤ 64) : (s.clrBit f).bit f = false := by
  unfold State.bit State.clrBit
  rw [State.fld_setFld_self hf]
  simp

end Sys2Proof.Machine
end

