-- ==== Sys2Proof/Laws/Command.lean ====
section
/-!
SUPPORT. Laws/Command.lean: what an accepted Onafaet request does before its effect: the one lemma that statements about commands cite in place
of unfolding the checks of Table 02-4.
-/

namespace Sys2Proof.Machine

/-- A write that keeps an entry found by a test keeps it found. -/
theorem find_smIns {α : Type} {p : Nat × α → Bool} {i : Nat} {a b : α} (hb : p (i, b) = true) :
    ∀ {m : SMap α}, m.find? p = some (i, a) → (smIns m i b).find? p = some (i, b)
  | [], h => by simp at h
  | (k, v) :: m, h => by
    unfold smIns
    split
    · simp [hb]
    · split
      · simp [hb]
      · next ne _ =>
        rw [List.find?_cons] at h ⊢
        split at h
        · next => simp only [Option.some.injEq, Prod.mk.injEq] at h; exact absurd h.1.symm ne
        · next => exact find_smIns hb h

theorem State.keyOf_setCtr {s : State} {sender slot ctr : Nat} {k : SenderKey} (h : s.keyOf sender = some (slot, k)) :
    (s.setCtr slot k ctr).keyOf sender = some (slot, { k with ctr := ctr }) := by
  have hp := List.find?_some h
  have hne : ¬ ({ k with ctr := ctr } : SenderKey) = SenderKey.none := by
    intro e
    have := congrArg SenderKey.revoked e
    simp only [SenderKey.none] at this
    simp [this] at hp
  unfold State.keyOf State.setCtr smPut
  simp only [hne, if_false]
  exact find_smIns (by simpa using hp) h

theorem State.permitted_setCtr {s : State} {r : OnfReq} {op slot ctr : Nat} {k : SenderKey} (h : s.keyOf r.sender = some (slot, k)) :
    (s.setCtr slot k ctr).permitted r op = s.permitted r op := by
  unfold State.permitted
  rw [State.keyOf_setCtr h, h]

theorem State.mirrorCtr_not_crit {s : State} {r : OnfReq} (h : r.crit = false) : s.mirrorCtr r = s := by
  simp [State.mirrorCtr, h]

/-- What acceptance answers for an accepted request. -/
theorem State.accept_admits {s : State} {r : OnfReq} {op : Nat} (h : s.admits r op = true) :
    ∃ u, s.accept r op = (u, .go) ∧ u.permitted r op = true ∧ u.mirrorCtr r = s.taken r := by
  simp only [State.admits, Bool.and_eq_true] at h
  obtain ⟨⟨_, hrow⟩, hkey⟩ := h
  cases hop : opRow op with
  | none => simp [hop] at hrow
  | some row =>
    obtain ⟨must, chans⟩ := row
    simp only [hop, Bool.and_eq_true] at hrow
    cases hc : r.crit with
    | false =>
      have hm : must = false := by simpa [hc] using hrow.2
      refine ⟨s, ?_, ?_, ?_⟩
      · simp only [State.accept, hop, hrow.1, hm, hc]; rfl
      · unfold State.permitted; split <;> simp [hc]
      · simp [State.mirrorCtr, State.taken, hc]
    | true =>
      simp only [hc, Bool.not_true, Bool.false_or] at hkey
      cases hk : s.keyOf r.sender with
      | none => simp [hk] at hkey
      | some e =>
        obtain ⟨slot, k⟩ := e
        simp only [hk, Bool.and_eq_true, decide_eq_true_eq] at hkey
        obtain ⟨⟨hctr, hceil⟩, hperm⟩ := hkey
        refine ⟨s.setCtr slot k r.ctr, ?_, by rw [State.permitted_setCtr hk, hperm], by simp [State.taken, hc, hk]⟩
        have hle : ¬ r.ctr ≤ k.ctr := by omega
        simp only [State.accept, hop, hrow.1, hc, hk, hle]
        cases hr : s.recovering with
        | true => simp
        | false =>
          simp only [hr, Bool.false_or, Bool.and_eq_true, decide_eq_true_eq, Option.isNone_iff_eq_none] at hceil
          have h2 : ¬ s.ceiling < r.ctr := by omega
          simp [hceil.1, h2]

/-- An accepted request runs its body in the state `taken`. -/
theorem State.command_admits {s : State} {r : OnfReq} {op : Nat} {body : State → State} (h : s.admits r op = true) :
    s.command r op body = body (s.taken r) := by
  obtain ⟨u, ha, hp, ht⟩ := State.accept_admits h
  simp only [State.admits, Bool.and_eq_true] at h
  obtain ⟨⟨⟨⟨hup, hch⟩, hrec⟩, _⟩, _⟩ := h
  have hrec' : (s.recovering && op != 1 && op != 0x0603) = false := by
    cases hr : s.recovering with
    | false => rfl
    | true => rcases (by simpa [hr] using hrec : op = 1 ∨ op = 0x0603) with e | e <;> simp [e]
  simp only [State.command, State.whenUp, hup, hch, hrec', ha, hp, ht, if_true, Bool.not_true, Bool.false_eq_true, if_false]

end Sys2Proof.Machine
end

