-- ==== Sys2Proof/Laws/Ops.lean ====
section
/-!
SUPPORT. Laws/Ops.lean: what each shared operation can change, said once: its shape, and from it that every other part of the state stays.
-/

namespace Sys2Proof.Machine

variable (s : State)

/-- All that `emitAll` can change. -/
theorem State.emitAll_shape (l : List OutEvent) : ∃ (o₁ : List OutEvent), s.emitAll l = { s with out := o₁ } := by
  induction l generalizing s with
  | nil => exact ⟨_, rfl⟩
  | cons e l ih => obtain ⟨o, h⟩ := ih (s.emit e); exact ⟨o, h⟩

@[simp] theorem State.emitAll_pending (l : List OutEvent) : (s.emitAll l).pending = s.pending := by obtain ⟨_, h⟩ := s.emitAll_shape l; rw [h]
@[simp] theorem State.emitAll_freeCtr (l : List OutEvent) : (s.emitAll l).freeCtr = s.freeCtr := by obtain ⟨_, h⟩ := s.emitAll_shape l; rw [h]
@[simp] theorem State.emitAll_regs (l : List OutEvent) : (s.emitAll l).regs = s.regs := by obtain ⟨_, h⟩ := s.emitAll_shape l; rw [h]
@[simp] theorem State.emitAll_mem (l : List OutEvent) : (s.emitAll l).mem = s.mem := by obtain ⟨_, h⟩ := s.emitAll_shape l; rw [h]
@[simp] theorem State.emitAll_hostMem (l : List OutEvent) : (s.emitAll l).hostMem = s.hostMem := by obtain ⟨_, h⟩ := s.emitAll_shape l; rw [h]
@[simp] theorem State.emitAll_sys (l : List OutEvent) : (s.emitAll l).sys = s.sys := by obtain ⟨_, h⟩ := s.emitAll_shape l; rw [h]
@[simp] theorem State.emitAll_onf (l : List OutEvent) : (s.emitAll l).onf = s.onf := by obtain ⟨_, h⟩ := s.emitAll_shape l; rw [h]
@[simp] theorem State.emitAll_qps (l : List OutEvent) : (s.emitAll l).qps = s.qps := by obtain ⟨_, h⟩ := s.emitAll_shape l; rw [h]
@[simp] theorem State.emitAll_fns (l : List OutEvent) : (s.emitAll l).fns = s.fns := by obtain ⟨_, h⟩ := s.emitAll_shape l; rw [h]
@[simp] theorem State.emitAll_qf (l : List OutEvent) : (s.emitAll l).qf = s.qf := by obtain ⟨_, h⟩ := s.emitAll_shape l; rw [h]
@[simp] theorem State.emitAll_shut (l : List OutEvent) : (s.emitAll l).shut = s.shut := by obtain ⟨_, h⟩ := s.emitAll_shape l; rw [h]
@[simp] theorem State.emitAll_safe (l : List OutEvent) : (s.emitAll l).safe = s.safe := by obtain ⟨_, h⟩ := s.emitAll_shape l; rw [h]
@[simp] theorem State.emitAll_selv (l : List OutEvent) : (s.emitAll l).selv = s.selv := by obtain ⟨_, h⟩ := s.emitAll_shape l; rw [h]
@[simp] theorem State.emitAll_tape (l : List OutEvent) : (s.emitAll l).tape = s.tape := by obtain ⟨_, h⟩ := s.emitAll_shape l; rw [h]
@[simp] theorem State.emitAll_galv (l : List OutEvent) : (s.emitAll l).galv = s.galv := by obtain ⟨_, h⟩ := s.emitAll_shape l; rw [h]
@[simp] theorem State.emitAll_tmu (l : List OutEvent) : (s.emitAll l).tmu = s.tmu := by obtain ⟨_, h⟩ := s.emitAll_shape l; rw [h]
@[simp] theorem State.emitAll_engs (l : List OutEvent) : (s.emitAll l).engs = s.engs := by obtain ⟨_, h⟩ := s.emitAll_shape l; rw [h]
@[simp] theorem State.emitAll_harts (l : List OutEvent) : (s.emitAll l).harts = s.harts := by obtain ⟨_, h⟩ := s.emitAll_shape l; rw [h]
@[simp] theorem State.emitAll_spool (l : List OutEvent) : (s.emitAll l).spool = s.spool := by obtain ⟨_, h⟩ := s.emitAll_shape l; rw [h]
@[simp] theorem State.emitAll_pow (l : List OutEvent) : (s.emitAll l).pow = s.pow := by obtain ⟨_, h⟩ := s.emitAll_shape l; rw [h]
@[simp] theorem State.emitAll_spdm (l : List OutEvent) : (s.emitAll l).spdm = s.spdm := by obtain ⟨_, h⟩ := s.emitAll_shape l; rw [h]
@[simp] theorem State.emitAll_gpio (l : List OutEvent) : (s.emitAll l).gpio = s.gpio := by obtain ⟨_, h⟩ := s.emitAll_shape l; rw [h]
@[simp] theorem State.emitAll_links (l : List OutEvent) : (s.emitAll l).links = s.links := by obtain ⟨_, h⟩ := s.emitAll_shape l; rw [h]
@[simp] theorem State.emitAll_dmc (l : List OutEvent) : (s.emitAll l).dmc = s.dmc := by obtain ⟨_, h⟩ := s.emitAll_shape l; rw [h]
@[simp] theorem State.emitAll_imsic (l : List OutEvent) : (s.emitAll l).imsic = s.imsic := by obtain ⟨_, h⟩ := s.emitAll_shape l; rw [h]
@[simp] theorem State.emitAll_aia (l : List OutEvent) : (s.emitAll l).aia = s.aia := by obtain ⟨_, h⟩ := s.emitAll_shape l; rw [h]

/-- All that `sendFlits` can change. -/
theorem State.sendFlits_shape (l : List FlitPayload) : ∃ (g₁ : GalvState) (o₁ : List OutEvent), s.sendFlits l = { s with galv := g₁, out := o₁ } := by
  induction l generalizing s with
  | nil => exact ⟨_, _, rfl⟩
  | cons e l ih => obtain ⟨g, o, h⟩ := ih (s.sendFlit e); exact ⟨g, o, h⟩

@[simp] theorem State.sendFlits_pending (l : List FlitPayload) : (s.sendFlits l).pending = s.pending := by obtain ⟨_, _, h⟩ := s.sendFlits_shape l; rw [h]
@[simp] theorem State.sendFlits_freeCtr (l : List FlitPayload) : (s.sendFlits l).freeCtr = s.freeCtr := by obtain ⟨_, _, h⟩ := s.sendFlits_shape l; rw [h]
@[simp] theorem State.sendFlits_regs (l : List FlitPayload) : (s.sendFlits l).regs = s.regs := by obtain ⟨_, _, h⟩ := s.sendFlits_shape l; rw [h]
@[simp] theorem State.sendFlits_mem (l : List FlitPayload) : (s.sendFlits l).mem = s.mem := by obtain ⟨_, _, h⟩ := s.sendFlits_shape l; rw [h]
@[simp] theorem State.sendFlits_hostMem (l : List FlitPayload) : (s.sendFlits l).hostMem = s.hostMem := by obtain ⟨_, _, h⟩ := s.sendFlits_shape l; rw [h]
@[simp] theorem State.sendFlits_sys (l : List FlitPayload) : (s.sendFlits l).sys = s.sys := by obtain ⟨_, _, h⟩ := s.sendFlits_shape l; rw [h]
@[simp] theorem State.sendFlits_onf (l : List FlitPayload) : (s.sendFlits l).onf = s.onf := by obtain ⟨_, _, h⟩ := s.sendFlits_shape l; rw [h]
@[simp] theorem State.sendFlits_qps (l : List FlitPayload) : (s.sendFlits l).qps = s.qps := by obtain ⟨_, _, h⟩ := s.sendFlits_shape l; rw [h]
@[simp] theorem State.sendFlits_fns (l : List FlitPayload) : (s.sendFlits l).fns = s.fns := by obtain ⟨_, _, h⟩ := s.sendFlits_shape l; rw [h]
@[simp] theorem State.sendFlits_qf (l : List FlitPayload) : (s.sendFlits l).qf = s.qf := by obtain ⟨_, _, h⟩ := s.sendFlits_shape l; rw [h]
@[simp] theorem State.sendFlits_shut (l : List FlitPayload) : (s.sendFlits l).shut = s.shut := by obtain ⟨_, _, h⟩ := s.sendFlits_shape l; rw [h]
@[simp] theorem State.sendFlits_safe (l : List FlitPayload) : (s.sendFlits l).safe = s.safe := by obtain ⟨_, _, h⟩ := s.sendFlits_shape l; rw [h]
@[simp] theorem State.sendFlits_selv (l : List FlitPayload) : (s.sendFlits l).selv = s.selv := by obtain ⟨_, _, h⟩ := s.sendFlits_shape l; rw [h]
@[simp] theorem State.sendFlits_tape (l : List FlitPayload) : (s.sendFlits l).tape = s.tape := by obtain ⟨_, _, h⟩ := s.sendFlits_shape l; rw [h]
@[simp] theorem State.sendFlits_tmu (l : List FlitPayload) : (s.sendFlits l).tmu = s.tmu := by obtain ⟨_, _, h⟩ := s.sendFlits_shape l; rw [h]
@[simp] theorem State.sendFlits_engs (l : List FlitPayload) : (s.sendFlits l).engs = s.engs := by obtain ⟨_, _, h⟩ := s.sendFlits_shape l; rw [h]
@[simp] theorem State.sendFlits_harts (l : List FlitPayload) : (s.sendFlits l).harts = s.harts := by obtain ⟨_, _, h⟩ := s.sendFlits_shape l; rw [h]
@[simp] theorem State.sendFlits_spool (l : List FlitPayload) : (s.sendFlits l).spool = s.spool := by obtain ⟨_, _, h⟩ := s.sendFlits_shape l; rw [h]
@[simp] theorem State.sendFlits_pow (l : List FlitPayload) : (s.sendFlits l).pow = s.pow := by obtain ⟨_, _, h⟩ := s.sendFlits_shape l; rw [h]
@[simp] theorem State.sendFlits_spdm (l : List FlitPayload) : (s.sendFlits l).spdm = s.spdm := by obtain ⟨_, _, h⟩ := s.sendFlits_shape l; rw [h]
@[simp] theorem State.sendFlits_gpio (l : List FlitPayload) : (s.sendFlits l).gpio = s.gpio := by obtain ⟨_, _, h⟩ := s.sendFlits_shape l; rw [h]
@[simp] theorem State.sendFlits_links (l : List FlitPayload) : (s.sendFlits l).links = s.links := by obtain ⟨_, _, h⟩ := s.sendFlits_shape l; rw [h]
@[simp] theorem State.sendFlits_dmc (l : List FlitPayload) : (s.sendFlits l).dmc = s.dmc := by obtain ⟨_, _, h⟩ := s.sendFlits_shape l; rw [h]
@[simp] theorem State.sendFlits_imsic (l : List FlitPayload) : (s.sendFlits l).imsic = s.imsic := by obtain ⟨_, _, h⟩ := s.sendFlits_shape l; rw [h]
@[simp] theorem State.sendFlits_aia (l : List FlitPayload) : (s.sendFlits l).aia = s.aia := by obtain ⟨_, _, h⟩ := s.sendFlits_shape l; rw [h]

/-- All that `setFn` can change. -/
theorem State.setFn_shape (f : Nat) (x : FnCtx) : ∃ (c₁ : SMap FnCtx) (g₁ : GalvState) (o₁ : List OutEvent), s.setFn f x = { s with fns := c₁, galv := g₁, out := o₁ } := by
  unfold State.setFn
  split
  · obtain ⟨g, o, h⟩ := State.sendFlits_shape { s with fns := smPut FnCtx.reset s.fns f x } (fnFlits f (s.fn f) x)
    exact ⟨_, g, o, h⟩
  · exact ⟨_, _, _, rfl⟩

@[simp] theorem State.setFn_pending (f : Nat) (x : FnCtx) : (s.setFn f x).pending = s.pending := by obtain ⟨_, _, _, h⟩ := s.setFn_shape f x; rw [h]
@[simp] theorem State.setFn_freeCtr (f : Nat) (x : FnCtx) : (s.setFn f x).freeCtr = s.freeCtr := by obtain ⟨_, _, _, h⟩ := s.setFn_shape f x; rw [h]
@[simp] theorem State.setFn_regs (f : Nat) (x : FnCtx) : (s.setFn f x).regs = s.regs := by obtain ⟨_, _, _, h⟩ := s.setFn_shape f x; rw [h]
@[simp] theorem State.setFn_mem (f : Nat) (x : FnCtx) : (s.setFn f x).mem = s.mem := by obtain ⟨_, _, _, h⟩ := s.setFn_shape f x; rw [h]
@[simp] theorem State.setFn_hostMem (f : Nat) (x : FnCtx) : (s.setFn f x).hostMem = s.hostMem := by obtain ⟨_, _, _, h⟩ := s.setFn_shape f x; rw [h]
@[simp] theorem State.setFn_sys (f : Nat) (x : FnCtx) : (s.setFn f x).sys = s.sys := by obtain ⟨_, _, _, h⟩ := s.setFn_shape f x; rw [h]
@[simp] theorem State.setFn_onf (f : Nat) (x : FnCtx) : (s.setFn f x).onf = s.onf := by obtain ⟨_, _, _, h⟩ := s.setFn_shape f x; rw [h]
@[simp] theorem State.setFn_qps (f : Nat) (x : FnCtx) : (s.setFn f x).qps = s.qps := by obtain ⟨_, _, _, h⟩ := s.setFn_shape f x; rw [h]
@[simp] theorem State.setFn_qf (f : Nat) (x : FnCtx) : (s.setFn f x).qf = s.qf := by obtain ⟨_, _, _, h⟩ := s.setFn_shape f x; rw [h]
@[simp] theorem State.setFn_shut (f : Nat) (x : FnCtx) : (s.setFn f x).shut = s.shut := by obtain ⟨_, _, _, h⟩ := s.setFn_shape f x; rw [h]
@[simp] theorem State.setFn_safe (f : Nat) (x : FnCtx) : (s.setFn f x).safe = s.safe := by obtain ⟨_, _, _, h⟩ := s.setFn_shape f x; rw [h]
@[simp] theorem State.setFn_selv (f : Nat) (x : FnCtx) : (s.setFn f x).selv = s.selv := by obtain ⟨_, _, _, h⟩ := s.setFn_shape f x; rw [h]
@[simp] theorem State.setFn_tape (f : Nat) (x : FnCtx) : (s.setFn f x).tape = s.tape := by obtain ⟨_, _, _, h⟩ := s.setFn_shape f x; rw [h]
@[simp] theorem State.setFn_tmu (f : Nat) (x : FnCtx) : (s.setFn f x).tmu = s.tmu := by obtain ⟨_, _, _, h⟩ := s.setFn_shape f x; rw [h]
@[simp] theorem State.setFn_engs (f : Nat) (x : FnCtx) : (s.setFn f x).engs = s.engs := by obtain ⟨_, _, _, h⟩ := s.setFn_shape f x; rw [h]
@[simp] theorem State.setFn_harts (f : Nat) (x : FnCtx) : (s.setFn f x).harts = s.harts := by obtain ⟨_, _, _, h⟩ := s.setFn_shape f x; rw [h]
@[simp] theorem State.setFn_spool (f : Nat) (x : FnCtx) : (s.setFn f x).spool = s.spool := by obtain ⟨_, _, _, h⟩ := s.setFn_shape f x; rw [h]
@[simp] theorem State.setFn_pow (f : Nat) (x : FnCtx) : (s.setFn f x).pow = s.pow := by obtain ⟨_, _, _, h⟩ := s.setFn_shape f x; rw [h]
@[simp] theorem State.setFn_spdm (f : Nat) (x : FnCtx) : (s.setFn f x).spdm = s.spdm := by obtain ⟨_, _, _, h⟩ := s.setFn_shape f x; rw [h]
@[simp] theorem State.setFn_gpio (f : Nat) (x : FnCtx) : (s.setFn f x).gpio = s.gpio := by obtain ⟨_, _, _, h⟩ := s.setFn_shape f x; rw [h]
@[simp] theorem State.setFn_links (f : Nat) (x : FnCtx) : (s.setFn f x).links = s.links := by obtain ⟨_, _, _, h⟩ := s.setFn_shape f x; rw [h]
@[simp] theorem State.setFn_dmc (f : Nat) (x : FnCtx) : (s.setFn f x).dmc = s.dmc := by obtain ⟨_, _, _, h⟩ := s.setFn_shape f x; rw [h]
@[simp] theorem State.setFn_imsic (f : Nat) (x : FnCtx) : (s.setFn f x).imsic = s.imsic := by obtain ⟨_, _, _, h⟩ := s.setFn_shape f x; rw [h]
@[simp] theorem State.setFn_aia (f : Nat) (x : FnCtx) : (s.setFn f x).aia = s.aia := by obtain ⟨_, _, _, h⟩ := s.setFn_shape f x; rw [h]

/-- All that `setQp` can change. -/
theorem State.setQp_shape (q : Nat) (x : QpCtx) : ∃ (q₁ : SMap QpCtx) (g₁ : GalvState) (o₁ : List OutEvent), s.setQp q x = { s with qps := q₁, galv := g₁, out := o₁ } := by
  unfold State.setQp
  split
  · obtain ⟨g, o, h⟩ := State.sendFlits_shape { s with qps := smPut (qpDefault q) s.qps q x }
      ((wordDiff 0 (s.qp q).words x.words).map fun e => FlitPayload.shadowReg q e.1 e.2)
    exact ⟨_, g, o, h⟩
  · exact ⟨_, _, _, rfl⟩

@[simp] theorem State.setQp_pending (q : Nat) (x : QpCtx) : (s.setQp q x).pending = s.pending := by obtain ⟨_, _, _, h⟩ := s.setQp_shape q x; rw [h]
@[simp] theorem State.setQp_freeCtr (q : Nat) (x : QpCtx) : (s.setQp q x).freeCtr = s.freeCtr := by obtain ⟨_, _, _, h⟩ := s.setQp_shape q x; rw [h]
@[simp] theorem State.setQp_regs (q : Nat) (x : QpCtx) : (s.setQp q x).regs = s.regs := by obtain ⟨_, _, _, h⟩ := s.setQp_shape q x; rw [h]
@[simp] theorem State.setQp_mem (q : Nat) (x : QpCtx) : (s.setQp q x).mem = s.mem := by obtain ⟨_, _, _, h⟩ := s.setQp_shape q x; rw [h]
@[simp] theorem State.setQp_hostMem (q : Nat) (x : QpCtx) : (s.setQp q x).hostMem = s.hostMem := by obtain ⟨_, _, _, h⟩ := s.setQp_shape q x; rw [h]
@[simp] theorem State.setQp_sys (q : Nat) (x : QpCtx) : (s.setQp q x).sys = s.sys := by obtain ⟨_, _, _, h⟩ := s.setQp_shape q x; rw [h]
@[simp] theorem State.setQp_onf (q : Nat) (x : QpCtx) : (s.setQp q x).onf = s.onf := by obtain ⟨_, _, _, h⟩ := s.setQp_shape q x; rw [h]
@[simp] theorem State.setQp_fns (q : Nat) (x : QpCtx) : (s.setQp q x).fns = s.fns := by obtain ⟨_, _, _, h⟩ := s.setQp_shape q x; rw [h]
@[simp] theorem State.setQp_qf (q : Nat) (x : QpCtx) : (s.setQp q x).qf = s.qf := by obtain ⟨_, _, _, h⟩ := s.setQp_shape q x; rw [h]
@[simp] theorem State.setQp_shut (q : Nat) (x : QpCtx) : (s.setQp q x).shut = s.shut := by obtain ⟨_, _, _, h⟩ := s.setQp_shape q x; rw [h]
@[simp] theorem State.setQp_safe (q : Nat) (x : QpCtx) : (s.setQp q x).safe = s.safe := by obtain ⟨_, _, _, h⟩ := s.setQp_shape q x; rw [h]
@[simp] theorem State.setQp_selv (q : Nat) (x : QpCtx) : (s.setQp q x).selv = s.selv := by obtain ⟨_, _, _, h⟩ := s.setQp_shape q x; rw [h]
@[simp] theorem State.setQp_tape (q : Nat) (x : QpCtx) : (s.setQp q x).tape = s.tape := by obtain ⟨_, _, _, h⟩ := s.setQp_shape q x; rw [h]
@[simp] theorem State.setQp_tmu (q : Nat) (x : QpCtx) : (s.setQp q x).tmu = s.tmu := by obtain ⟨_, _, _, h⟩ := s.setQp_shape q x; rw [h]
@[simp] theorem State.setQp_engs (q : Nat) (x : QpCtx) : (s.setQp q x).engs = s.engs := by obtain ⟨_, _, _, h⟩ := s.setQp_shape q x; rw [h]
@[simp] theorem State.setQp_harts (q : Nat) (x : QpCtx) : (s.setQp q x).harts = s.harts := by obtain ⟨_, _, _, h⟩ := s.setQp_shape q x; rw [h]
@[simp] theorem State.setQp_spool (q : Nat) (x : QpCtx) : (s.setQp q x).spool = s.spool := by obtain ⟨_, _, _, h⟩ := s.setQp_shape q x; rw [h]
@[simp] theorem State.setQp_pow (q : Nat) (x : QpCtx) : (s.setQp q x).pow = s.pow := by obtain ⟨_, _, _, h⟩ := s.setQp_shape q x; rw [h]
@[simp] theorem State.setQp_spdm (q : Nat) (x : QpCtx) : (s.setQp q x).spdm = s.spdm := by obtain ⟨_, _, _, h⟩ := s.setQp_shape q x; rw [h]
@[simp] theorem State.setQp_gpio (q : Nat) (x : QpCtx) : (s.setQp q x).gpio = s.gpio := by obtain ⟨_, _, _, h⟩ := s.setQp_shape q x; rw [h]
@[simp] theorem State.setQp_links (q : Nat) (x : QpCtx) : (s.setQp q x).links = s.links := by obtain ⟨_, _, _, h⟩ := s.setQp_shape q x; rw [h]
@[simp] theorem State.setQp_dmc (q : Nat) (x : QpCtx) : (s.setQp q x).dmc = s.dmc := by obtain ⟨_, _, _, h⟩ := s.setQp_shape q x; rw [h]
@[simp] theorem State.setQp_imsic (q : Nat) (x : QpCtx) : (s.setQp q x).imsic = s.imsic := by obtain ⟨_, _, _, h⟩ := s.setQp_shape q x; rw [h]
@[simp] theorem State.setQp_aia (q : Nat) (x : QpCtx) : (s.setQp q x).aia = s.aia := by obtain ⟨_, _, _, h⟩ := s.setQp_shape q x; rw [h]

/-- All that `msixOf` can change. -/
theorem State.msixOf_shape (k f v : Nat) : ∃ (c₁ : SMap FnCtx) (g₁ : GalvState) (o₁ : List OutEvent), s.msixOf k f v = { s with fns := c₁, galv := g₁, out := o₁ } := by
  unfold State.msixOf
  split
  · dsimp only
    split
    · exact State.setFn_shape ..
    · exact ⟨_, _, _, rfl⟩
  · exact ⟨_, _, _, rfl⟩

@[simp] theorem State.msixOf_pending (k f v : Nat) : (s.msixOf k f v).pending = s.pending := by obtain ⟨_, _, _, h⟩ := s.msixOf_shape k f v; rw [h]
@[simp] theorem State.msixOf_freeCtr (k f v : Nat) : (s.msixOf k f v).freeCtr = s.freeCtr := by obtain ⟨_, _, _, h⟩ := s.msixOf_shape k f v; rw [h]
@[simp] theorem State.msixOf_regs (k f v : Nat) : (s.msixOf k f v).regs = s.regs := by obtain ⟨_, _, _, h⟩ := s.msixOf_shape k f v; rw [h]
@[simp] theorem State.msixOf_mem (k f v : Nat) : (s.msixOf k f v).mem = s.mem := by obtain ⟨_, _, _, h⟩ := s.msixOf_shape k f v; rw [h]
@[simp] theorem State.msixOf_hostMem (k f v : Nat) : (s.msixOf k f v).hostMem = s.hostMem := by obtain ⟨_, _, _, h⟩ := s.msixOf_shape k f v; rw [h]
@[simp] theorem State.msixOf_sys (k f v : Nat) : (s.msixOf k f v).sys = s.sys := by obtain ⟨_, _, _, h⟩ := s.msixOf_shape k f v; rw [h]
@[simp] theorem State.msixOf_onf (k f v : Nat) : (s.msixOf k f v).onf = s.onf := by obtain ⟨_, _, _, h⟩ := s.msixOf_shape k f v; rw [h]
@[simp] theorem State.msixOf_qps (k f v : Nat) : (s.msixOf k f v).qps = s.qps := by obtain ⟨_, _, _, h⟩ := s.msixOf_shape k f v; rw [h]
@[simp] theorem State.msixOf_qf (k f v : Nat) : (s.msixOf k f v).qf = s.qf := by obtain ⟨_, _, _, h⟩ := s.msixOf_shape k f v; rw [h]
@[simp] theorem State.msixOf_shut (k f v : Nat) : (s.msixOf k f v).shut = s.shut := by obtain ⟨_, _, _, h⟩ := s.msixOf_shape k f v; rw [h]
@[simp] theorem State.msixOf_safe (k f v : Nat) : (s.msixOf k f v).safe = s.safe := by obtain ⟨_, _, _, h⟩ := s.msixOf_shape k f v; rw [h]
@[simp] theorem State.msixOf_selv (k f v : Nat) : (s.msixOf k f v).selv = s.selv := by obtain ⟨_, _, _, h⟩ := s.msixOf_shape k f v; rw [h]
@[simp] theorem State.msixOf_tape (k f v : Nat) : (s.msixOf k f v).tape = s.tape := by obtain ⟨_, _, _, h⟩ := s.msixOf_shape k f v; rw [h]
@[simp] theorem State.msixOf_tmu (k f v : Nat) : (s.msixOf k f v).tmu = s.tmu := by obtain ⟨_, _, _, h⟩ := s.msixOf_shape k f v; rw [h]
@[simp] theorem State.msixOf_engs (k f v : Nat) : (s.msixOf k f v).engs = s.engs := by obtain ⟨_, _, _, h⟩ := s.msixOf_shape k f v; rw [h]
@[simp] theorem State.msixOf_harts (k f v : Nat) : (s.msixOf k f v).harts = s.harts := by obtain ⟨_, _, _, h⟩ := s.msixOf_shape k f v; rw [h]
@[simp] theorem State.msixOf_spool (k f v : Nat) : (s.msixOf k f v).spool = s.spool := by obtain ⟨_, _, _, h⟩ := s.msixOf_shape k f v; rw [h]
@[simp] theorem State.msixOf_pow (k f v : Nat) : (s.msixOf k f v).pow = s.pow := by obtain ⟨_, _, _, h⟩ := s.msixOf_shape k f v; rw [h]
@[simp] theorem State.msixOf_spdm (k f v : Nat) : (s.msixOf k f v).spdm = s.spdm := by obtain ⟨_, _, _, h⟩ := s.msixOf_shape k f v; rw [h]
@[simp] theorem State.msixOf_gpio (k f v : Nat) : (s.msixOf k f v).gpio = s.gpio := by obtain ⟨_, _, _, h⟩ := s.msixOf_shape k f v; rw [h]
@[simp] theorem State.msixOf_links (k f v : Nat) : (s.msixOf k f v).links = s.links := by obtain ⟨_, _, _, h⟩ := s.msixOf_shape k f v; rw [h]
@[simp] theorem State.msixOf_dmc (k f v : Nat) : (s.msixOf k f v).dmc = s.dmc := by obtain ⟨_, _, _, h⟩ := s.msixOf_shape k f v; rw [h]
@[simp] theorem State.msixOf_imsic (k f v : Nat) : (s.msixOf k f v).imsic = s.imsic := by obtain ⟨_, _, _, h⟩ := s.msixOf_shape k f v; rw [h]
@[simp] theorem State.msixOf_aia (k f v : Nat) : (s.msixOf k f v).aia = s.aia := by obtain ⟨_, _, _, h⟩ := s.msixOf_shape k f v; rw [h]

/-- All that `msix` can change. -/
theorem State.msix_shape (f v : Nat) : ∃ (c₁ : SMap FnCtx) (g₁ : GalvState) (o₁ : List OutEvent), s.msix f v = { s with fns := c₁, galv := g₁, out := o₁ } := State.msixOf_shape ..

@[simp] theorem State.msix_pending (f v : Nat) : (s.msix f v).pending = s.pending := by obtain ⟨_, _, _, h⟩ := s.msix_shape f v; rw [h]
@[simp] theorem State.msix_freeCtr (f v : Nat) : (s.msix f v).freeCtr = s.freeCtr := by obtain ⟨_, _, _, h⟩ := s.msix_shape f v; rw [h]
@[simp] theorem State.msix_regs (f v : Nat) : (s.msix f v).regs = s.regs := by obtain ⟨_, _, _, h⟩ := s.msix_shape f v; rw [h]
@[simp] theorem State.msix_mem (f v : Nat) : (s.msix f v).mem = s.mem := by obtain ⟨_, _, _, h⟩ := s.msix_shape f v; rw [h]
@[simp] theorem State.msix_hostMem (f v : Nat) : (s.msix f v).hostMem = s.hostMem := by obtain ⟨_, _, _, h⟩ := s.msix_shape f v; rw [h]
@[simp] theorem State.msix_sys (f v : Nat) : (s.msix f v).sys = s.sys := by obtain ⟨_, _, _, h⟩ := s.msix_shape f v; rw [h]
@[simp] theorem State.msix_onf (f v : Nat) : (s.msix f v).onf = s.onf := by obtain ⟨_, _, _, h⟩ := s.msix_shape f v; rw [h]
@[simp] theorem State.msix_qps (f v : Nat) : (s.msix f v).qps = s.qps := by obtain ⟨_, _, _, h⟩ := s.msix_shape f v; rw [h]
@[simp] theorem State.msix_qf (f v : Nat) : (s.msix f v).qf = s.qf := by obtain ⟨_, _, _, h⟩ := s.msix_shape f v; rw [h]
@[simp] theorem State.msix_shut (f v : Nat) : (s.msix f v).shut = s.shut := by obtain ⟨_, _, _, h⟩ := s.msix_shape f v; rw [h]
@[simp] theorem State.msix_safe (f v : Nat) : (s.msix f v).safe = s.safe := by obtain ⟨_, _, _, h⟩ := s.msix_shape f v; rw [h]
@[simp] theorem State.msix_selv (f v : Nat) : (s.msix f v).selv = s.selv := by obtain ⟨_, _, _, h⟩ := s.msix_shape f v; rw [h]
@[simp] theorem State.msix_tape (f v : Nat) : (s.msix f v).tape = s.tape := by obtain ⟨_, _, _, h⟩ := s.msix_shape f v; rw [h]
@[simp] theorem State.msix_tmu (f v : Nat) : (s.msix f v).tmu = s.tmu := by obtain ⟨_, _, _, h⟩ := s.msix_shape f v; rw [h]
@[simp] theorem State.msix_engs (f v : Nat) : (s.msix f v).engs = s.engs := by obtain ⟨_, _, _, h⟩ := s.msix_shape f v; rw [h]
@[simp] theorem State.msix_harts (f v : Nat) : (s.msix f v).harts = s.harts := by obtain ⟨_, _, _, h⟩ := s.msix_shape f v; rw [h]
@[simp] theorem State.msix_spool (f v : Nat) : (s.msix f v).spool = s.spool := by obtain ⟨_, _, _, h⟩ := s.msix_shape f v; rw [h]
@[simp] theorem State.msix_pow (f v : Nat) : (s.msix f v).pow = s.pow := by obtain ⟨_, _, _, h⟩ := s.msix_shape f v; rw [h]
@[simp] theorem State.msix_spdm (f v : Nat) : (s.msix f v).spdm = s.spdm := by obtain ⟨_, _, _, h⟩ := s.msix_shape f v; rw [h]
@[simp] theorem State.msix_gpio (f v : Nat) : (s.msix f v).gpio = s.gpio := by obtain ⟨_, _, _, h⟩ := s.msix_shape f v; rw [h]
@[simp] theorem State.msix_links (f v : Nat) : (s.msix f v).links = s.links := by obtain ⟨_, _, _, h⟩ := s.msix_shape f v; rw [h]
@[simp] theorem State.msix_dmc (f v : Nat) : (s.msix f v).dmc = s.dmc := by obtain ⟨_, _, _, h⟩ := s.msix_shape f v; rw [h]
@[simp] theorem State.msix_imsic (f v : Nat) : (s.msix f v).imsic = s.imsic := by obtain ⟨_, _, _, h⟩ := s.msix_shape f v; rw [h]
@[simp] theorem State.msix_aia (f v : Nat) : (s.msix f v).aia = s.aia := by obtain ⟨_, _, _, h⟩ := s.msix_shape f v; rw [h]

/-- All that `ringMsix` can change. -/
theorem State.ringMsix_shape (q v : Nat) : ∃ (c₁ : SMap FnCtx) (g₁ : GalvState) (o₁ : List OutEvent), s.ringMsix q v = { s with fns := c₁, galv := g₁, out := o₁ } := State.msixOf_shape ..

@[simp] theorem State.ringMsix_pending (q v : Nat) : (s.ringMsix q v).pending = s.pending := by obtain ⟨_, _, _, h⟩ := s.ringMsix_shape q v; rw [h]
@[simp] theorem State.ringMsix_freeCtr (q v : Nat) : (s.ringMsix q v).freeCtr = s.freeCtr := by obtain ⟨_, _, _, h⟩ := s.ringMsix_shape q v; rw [h]
@[simp] theorem State.ringMsix_regs (q v : Nat) : (s.ringMsix q v).regs = s.regs := by obtain ⟨_, _, _, h⟩ := s.ringMsix_shape q v; rw [h]
@[simp] theorem State.ringMsix_mem (q v : Nat) : (s.ringMsix q v).mem = s.mem := by obtain ⟨_, _, _, h⟩ := s.ringMsix_shape q v; rw [h]
@[simp] theorem State.ringMsix_hostMem (q v : Nat) : (s.ringMsix q v).hostMem = s.hostMem := by obtain ⟨_, _, _, h⟩ := s.ringMsix_shape q v; rw [h]
@[simp] theorem State.ringMsix_sys (q v : Nat) : (s.ringMsix q v).sys = s.sys := by obtain ⟨_, _, _, h⟩ := s.ringMsix_shape q v; rw [h]
@[simp] theorem State.ringMsix_onf (q v : Nat) : (s.ringMsix q v).onf = s.onf := by obtain ⟨_, _, _, h⟩ := s.ringMsix_shape q v; rw [h]
@[simp] theorem State.ringMsix_qps (q v : Nat) : (s.ringMsix q v).qps = s.qps := by obtain ⟨_, _, _, h⟩ := s.ringMsix_shape q v; rw [h]
@[simp] theorem State.ringMsix_qf (q v : Nat) : (s.ringMsix q v).qf = s.qf := by obtain ⟨_, _, _, h⟩ := s.ringMsix_shape q v; rw [h]
@[simp] theorem State.ringMsix_shut (q v : Nat) : (s.ringMsix q v).shut = s.shut := by obtain ⟨_, _, _, h⟩ := s.ringMsix_shape q v; rw [h]
@[simp] theorem State.ringMsix_safe (q v : Nat) : (s.ringMsix q v).safe = s.safe := by obtain ⟨_, _, _, h⟩ := s.ringMsix_shape q v; rw [h]
@[simp] theorem State.ringMsix_selv (q v : Nat) : (s.ringMsix q v).selv = s.selv := by obtain ⟨_, _, _, h⟩ := s.ringMsix_shape q v; rw [h]
@[simp] theorem State.ringMsix_tape (q v : Nat) : (s.ringMsix q v).tape = s.tape := by obtain ⟨_, _, _, h⟩ := s.ringMsix_shape q v; rw [h]
@[simp] theorem State.ringMsix_tmu (q v : Nat) : (s.ringMsix q v).tmu = s.tmu := by obtain ⟨_, _, _, h⟩ := s.ringMsix_shape q v; rw [h]
@[simp] theorem State.ringMsix_engs (q v : Nat) : (s.ringMsix q v).engs = s.engs := by obtain ⟨_, _, _, h⟩ := s.ringMsix_shape q v; rw [h]
@[simp] theorem State.ringMsix_harts (q v : Nat) : (s.ringMsix q v).harts = s.harts := by obtain ⟨_, _, _, h⟩ := s.ringMsix_shape q v; rw [h]
@[simp] theorem State.ringMsix_spool (q v : Nat) : (s.ringMsix q v).spool = s.spool := by obtain ⟨_, _, _, h⟩ := s.ringMsix_shape q v; rw [h]
@[simp] theorem State.ringMsix_pow (q v : Nat) : (s.ringMsix q v).pow = s.pow := by obtain ⟨_, _, _, h⟩ := s.ringMsix_shape q v; rw [h]
@[simp] theorem State.ringMsix_spdm (q v : Nat) : (s.ringMsix q v).spdm = s.spdm := by obtain ⟨_, _, _, h⟩ := s.ringMsix_shape q v; rw [h]
@[simp] theorem State.ringMsix_gpio (q v : Nat) : (s.ringMsix q v).gpio = s.gpio := by obtain ⟨_, _, _, h⟩ := s.ringMsix_shape q v; rw [h]
@[simp] theorem State.ringMsix_links (q v : Nat) : (s.ringMsix q v).links = s.links := by obtain ⟨_, _, _, h⟩ := s.ringMsix_shape q v; rw [h]
@[simp] theorem State.ringMsix_dmc (q v : Nat) : (s.ringMsix q v).dmc = s.dmc := by obtain ⟨_, _, _, h⟩ := s.ringMsix_shape q v; rw [h]
@[simp] theorem State.ringMsix_imsic (q v : Nat) : (s.ringMsix q v).imsic = s.imsic := by obtain ⟨_, _, _, h⟩ := s.ringMsix_shape q v; rw [h]
@[simp] theorem State.ringMsix_aia (q v : Nat) : (s.ringMsix q v).aia = s.aia := by obtain ⟨_, _, _, h⟩ := s.ringMsix_shape q v; rw [h]

/-- All that `fnEvent` can change. -/
theorem State.fnEvent_shape (f : Nat) : ∃ (c₁ : SMap FnCtx) (g₁ : GalvState) (o₁ : List OutEvent), s.fnEvent f = { s with fns := c₁, galv := g₁, out := o₁ } := by
  unfold State.fnEvent
  split
  · exact State.msix_shape ..
  · exact ⟨_, _, _, rfl⟩

@[simp] theorem State.fnEvent_pending (f : Nat) : (s.fnEvent f).pending = s.pending := by obtain ⟨_, _, _, h⟩ := s.fnEvent_shape f; rw [h]
@[simp] theorem State.fnEvent_freeCtr (f : Nat) : (s.fnEvent f).freeCtr = s.freeCtr := by obtain ⟨_, _, _, h⟩ := s.fnEvent_shape f; rw [h]
@[simp] theorem State.fnEvent_regs (f : Nat) : (s.fnEvent f).regs = s.regs := by obtain ⟨_, _, _, h⟩ := s.fnEvent_shape f; rw [h]
@[simp] theorem State.fnEvent_mem (f : Nat) : (s.fnEvent f).mem = s.mem := by obtain ⟨_, _, _, h⟩ := s.fnEvent_shape f; rw [h]
@[simp] theorem State.fnEvent_hostMem (f : Nat) : (s.fnEvent f).hostMem = s.hostMem := by obtain ⟨_, _, _, h⟩ := s.fnEvent_shape f; rw [h]
@[simp] theorem State.fnEvent_sys (f : Nat) : (s.fnEvent f).sys = s.sys := by obtain ⟨_, _, _, h⟩ := s.fnEvent_shape f; rw [h]
@[simp] theorem State.fnEvent_onf (f : Nat) : (s.fnEvent f).onf = s.onf := by obtain ⟨_, _, _, h⟩ := s.fnEvent_shape f; rw [h]
@[simp] theorem State.fnEvent_qps (f : Nat) : (s.fnEvent f).qps = s.qps := by obtain ⟨_, _, _, h⟩ := s.fnEvent_shape f; rw [h]
@[simp] theorem State.fnEvent_qf (f : Nat) : (s.fnEvent f).qf = s.qf := by obtain ⟨_, _, _, h⟩ := s.fnEvent_shape f; rw [h]
@[simp] theorem State.fnEvent_shut (f : Nat) : (s.fnEvent f).shut = s.shut := by obtain ⟨_, _, _, h⟩ := s.fnEvent_shape f; rw [h]
@[simp] theorem State.fnEvent_safe (f : Nat) : (s.fnEvent f).safe = s.safe := by obtain ⟨_, _, _, h⟩ := s.fnEvent_shape f; rw [h]
@[simp] theorem State.fnEvent_selv (f : Nat) : (s.fnEvent f).selv = s.selv := by obtain ⟨_, _, _, h⟩ := s.fnEvent_shape f; rw [h]
@[simp] theorem State.fnEvent_tape (f : Nat) : (s.fnEvent f).tape = s.tape := by obtain ⟨_, _, _, h⟩ := s.fnEvent_shape f; rw [h]
@[simp] theorem State.fnEvent_tmu (f : Nat) : (s.fnEvent f).tmu = s.tmu := by obtain ⟨_, _, _, h⟩ := s.fnEvent_shape f; rw [h]
@[simp] theorem State.fnEvent_engs (f : Nat) : (s.fnEvent f).engs = s.engs := by obtain ⟨_, _, _, h⟩ := s.fnEvent_shape f; rw [h]
@[simp] theorem State.fnEvent_harts (f : Nat) : (s.fnEvent f).harts = s.harts := by obtain ⟨_, _, _, h⟩ := s.fnEvent_shape f; rw [h]
@[simp] theorem State.fnEvent_spool (f : Nat) : (s.fnEvent f).spool = s.spool := by obtain ⟨_, _, _, h⟩ := s.fnEvent_shape f; rw [h]
@[simp] theorem State.fnEvent_pow (f : Nat) : (s.fnEvent f).pow = s.pow := by obtain ⟨_, _, _, h⟩ := s.fnEvent_shape f; rw [h]
@[simp] theorem State.fnEvent_spdm (f : Nat) : (s.fnEvent f).spdm = s.spdm := by obtain ⟨_, _, _, h⟩ := s.fnEvent_shape f; rw [h]
@[simp] theorem State.fnEvent_gpio (f : Nat) : (s.fnEvent f).gpio = s.gpio := by obtain ⟨_, _, _, h⟩ := s.fnEvent_shape f; rw [h]
@[simp] theorem State.fnEvent_links (f : Nat) : (s.fnEvent f).links = s.links := by obtain ⟨_, _, _, h⟩ := s.fnEvent_shape f; rw [h]
@[simp] theorem State.fnEvent_dmc (f : Nat) : (s.fnEvent f).dmc = s.dmc := by obtain ⟨_, _, _, h⟩ := s.fnEvent_shape f; rw [h]
@[simp] theorem State.fnEvent_imsic (f : Nat) : (s.fnEvent f).imsic = s.imsic := by obtain ⟨_, _, _, h⟩ := s.fnEvent_shape f; rw [h]
@[simp] theorem State.fnEvent_aia (f : Nat) : (s.fnEvent f).aia = s.aia := by obtain ⟨_, _, _, h⟩ := s.fnEvent_shape f; rw [h]

/-- All that `strayDb` can change. -/
theorem State.strayDb_shape (f : Nat) : ∃ (c₁ : SMap FnCtx) (g₁ : GalvState) (o₁ : List OutEvent), s.strayDb f = { s with fns := c₁, galv := g₁, out := o₁ } := by
  obtain ⟨c, g, o, h⟩ := State.setFn_shape s f { s.fn f with strayDb := true }
  obtain ⟨c', g', o', h'⟩ := State.fnEvent_shape (s.setFn f { s.fn f with strayDb := true }) f
  exact ⟨c', g', o', by rw [State.strayDb, h', h]⟩

@[simp] theorem State.strayDb_pending (f : Nat) : (s.strayDb f).pending = s.pending := by obtain ⟨_, _, _, h⟩ := s.strayDb_shape f; rw [h]
@[simp] theorem State.strayDb_freeCtr (f : Nat) : (s.strayDb f).freeCtr = s.freeCtr := by obtain ⟨_, _, _, h⟩ := s.strayDb_shape f; rw [h]
@[simp] theorem State.strayDb_regs (f : Nat) : (s.strayDb f).regs = s.regs := by obtain ⟨_, _, _, h⟩ := s.strayDb_shape f; rw [h]
@[simp] theorem State.strayDb_mem (f : Nat) : (s.strayDb f).mem = s.mem := by obtain ⟨_, _, _, h⟩ := s.strayDb_shape f; rw [h]
@[simp] theorem State.strayDb_hostMem (f : Nat) : (s.strayDb f).hostMem = s.hostMem := by obtain ⟨_, _, _, h⟩ := s.strayDb_shape f; rw [h]
@[simp] theorem State.strayDb_sys (f : Nat) : (s.strayDb f).sys = s.sys := by obtain ⟨_, _, _, h⟩ := s.strayDb_shape f; rw [h]
@[simp] theorem State.strayDb_onf (f : Nat) : (s.strayDb f).onf = s.onf := by obtain ⟨_, _, _, h⟩ := s.strayDb_shape f; rw [h]
@[simp] theorem State.strayDb_qps (f : Nat) : (s.strayDb f).qps = s.qps := by obtain ⟨_, _, _, h⟩ := s.strayDb_shape f; rw [h]
@[simp] theorem State.strayDb_qf (f : Nat) : (s.strayDb f).qf = s.qf := by obtain ⟨_, _, _, h⟩ := s.strayDb_shape f; rw [h]
@[simp] theorem State.strayDb_shut (f : Nat) : (s.strayDb f).shut = s.shut := by obtain ⟨_, _, _, h⟩ := s.strayDb_shape f; rw [h]
@[simp] theorem State.strayDb_safe (f : Nat) : (s.strayDb f).safe = s.safe := by obtain ⟨_, _, _, h⟩ := s.strayDb_shape f; rw [h]
@[simp] theorem State.strayDb_selv (f : Nat) : (s.strayDb f).selv = s.selv := by obtain ⟨_, _, _, h⟩ := s.strayDb_shape f; rw [h]
@[simp] theorem State.strayDb_tape (f : Nat) : (s.strayDb f).tape = s.tape := by obtain ⟨_, _, _, h⟩ := s.strayDb_shape f; rw [h]
@[simp] theorem State.strayDb_tmu (f : Nat) : (s.strayDb f).tmu = s.tmu := by obtain ⟨_, _, _, h⟩ := s.strayDb_shape f; rw [h]
@[simp] theorem State.strayDb_engs (f : Nat) : (s.strayDb f).engs = s.engs := by obtain ⟨_, _, _, h⟩ := s.strayDb_shape f; rw [h]
@[simp] theorem State.strayDb_harts (f : Nat) : (s.strayDb f).harts = s.harts := by obtain ⟨_, _, _, h⟩ := s.strayDb_shape f; rw [h]
@[simp] theorem State.strayDb_spool (f : Nat) : (s.strayDb f).spool = s.spool := by obtain ⟨_, _, _, h⟩ := s.strayDb_shape f; rw [h]
@[simp] theorem State.strayDb_pow (f : Nat) : (s.strayDb f).pow = s.pow := by obtain ⟨_, _, _, h⟩ := s.strayDb_shape f; rw [h]
@[simp] theorem State.strayDb_spdm (f : Nat) : (s.strayDb f).spdm = s.spdm := by obtain ⟨_, _, _, h⟩ := s.strayDb_shape f; rw [h]
@[simp] theorem State.strayDb_gpio (f : Nat) : (s.strayDb f).gpio = s.gpio := by obtain ⟨_, _, _, h⟩ := s.strayDb_shape f; rw [h]
@[simp] theorem State.strayDb_links (f : Nat) : (s.strayDb f).links = s.links := by obtain ⟨_, _, _, h⟩ := s.strayDb_shape f; rw [h]
@[simp] theorem State.strayDb_dmc (f : Nat) : (s.strayDb f).dmc = s.dmc := by obtain ⟨_, _, _, h⟩ := s.strayDb_shape f; rw [h]
@[simp] theorem State.strayDb_imsic (f : Nat) : (s.strayDb f).imsic = s.imsic := by obtain ⟨_, _, _, h⟩ := s.strayDb_shape f; rw [h]
@[simp] theorem State.strayDb_aia (f : Nat) : (s.strayDb f).aia = s.aia := by obtain ⟨_, _, _, h⟩ := s.strayDb_shape f; rw [h]

/-- All that `grantEvt` can change. -/
theorem State.grantEvt_shape (f : Nat) : ∃ (c₁ : SMap FnCtx) (g₁ : GalvState) (o₁ : List OutEvent), s.grantEvt f = { s with fns := c₁, galv := g₁, out := o₁ } := by
  obtain ⟨c, g, o, h⟩ := State.setFn_shape s f { s.fn f with grantEvt := true }
  obtain ⟨c', g', o', h'⟩ := State.fnEvent_shape (s.setFn f { s.fn f with grantEvt := true }) f
  exact ⟨c', g', o', by rw [State.grantEvt, h', h]⟩

@[simp] theorem State.grantEvt_pending (f : Nat) : (s.grantEvt f).pending = s.pending := by obtain ⟨_, _, _, h⟩ := s.grantEvt_shape f; rw [h]
@[simp] theorem State.grantEvt_freeCtr (f : Nat) : (s.grantEvt f).freeCtr = s.freeCtr := by obtain ⟨_, _, _, h⟩ := s.grantEvt_shape f; rw [h]
@[simp] theorem State.grantEvt_regs (f : Nat) : (s.grantEvt f).regs = s.regs := by obtain ⟨_, _, _, h⟩ := s.grantEvt_shape f; rw [h]
@[simp] theorem State.grantEvt_mem (f : Nat) : (s.grantEvt f).mem = s.mem := by obtain ⟨_, _, _, h⟩ := s.grantEvt_shape f; rw [h]
@[simp] theorem State.grantEvt_hostMem (f : Nat) : (s.grantEvt f).hostMem = s.hostMem := by obtain ⟨_, _, _, h⟩ := s.grantEvt_shape f; rw [h]
@[simp] theorem State.grantEvt_sys (f : Nat) : (s.grantEvt f).sys = s.sys := by obtain ⟨_, _, _, h⟩ := s.grantEvt_shape f; rw [h]
@[simp] theorem State.grantEvt_onf (f : Nat) : (s.grantEvt f).onf = s.onf := by obtain ⟨_, _, _, h⟩ := s.grantEvt_shape f; rw [h]
@[simp] theorem State.grantEvt_qps (f : Nat) : (s.grantEvt f).qps = s.qps := by obtain ⟨_, _, _, h⟩ := s.grantEvt_shape f; rw [h]
@[simp] theorem State.grantEvt_qf (f : Nat) : (s.grantEvt f).qf = s.qf := by obtain ⟨_, _, _, h⟩ := s.grantEvt_shape f; rw [h]
@[simp] theorem State.grantEvt_shut (f : Nat) : (s.grantEvt f).shut = s.shut := by obtain ⟨_, _, _, h⟩ := s.grantEvt_shape f; rw [h]
@[simp] theorem State.grantEvt_safe (f : Nat) : (s.grantEvt f).safe = s.safe := by obtain ⟨_, _, _, h⟩ := s.grantEvt_shape f; rw [h]
@[simp] theorem State.grantEvt_selv (f : Nat) : (s.grantEvt f).selv = s.selv := by obtain ⟨_, _, _, h⟩ := s.grantEvt_shape f; rw [h]
@[simp] theorem State.grantEvt_tape (f : Nat) : (s.grantEvt f).tape = s.tape := by obtain ⟨_, _, _, h⟩ := s.grantEvt_shape f; rw [h]
@[simp] theorem State.grantEvt_tmu (f : Nat) : (s.grantEvt f).tmu = s.tmu := by obtain ⟨_, _, _, h⟩ := s.grantEvt_shape f; rw [h]
@[simp] theorem State.grantEvt_engs (f : Nat) : (s.grantEvt f).engs = s.engs := by obtain ⟨_, _, _, h⟩ := s.grantEvt_shape f; rw [h]
@[simp] theorem State.grantEvt_harts (f : Nat) : (s.grantEvt f).harts = s.harts := by obtain ⟨_, _, _, h⟩ := s.grantEvt_shape f; rw [h]
@[simp] theorem State.grantEvt_spool (f : Nat) : (s.grantEvt f).spool = s.spool := by obtain ⟨_, _, _, h⟩ := s.grantEvt_shape f; rw [h]
@[simp] theorem State.grantEvt_pow (f : Nat) : (s.grantEvt f).pow = s.pow := by obtain ⟨_, _, _, h⟩ := s.grantEvt_shape f; rw [h]
@[simp] theorem State.grantEvt_spdm (f : Nat) : (s.grantEvt f).spdm = s.spdm := by obtain ⟨_, _, _, h⟩ := s.grantEvt_shape f; rw [h]
@[simp] theorem State.grantEvt_gpio (f : Nat) : (s.grantEvt f).gpio = s.gpio := by obtain ⟨_, _, _, h⟩ := s.grantEvt_shape f; rw [h]
@[simp] theorem State.grantEvt_links (f : Nat) : (s.grantEvt f).links = s.links := by obtain ⟨_, _, _, h⟩ := s.grantEvt_shape f; rw [h]
@[simp] theorem State.grantEvt_dmc (f : Nat) : (s.grantEvt f).dmc = s.dmc := by obtain ⟨_, _, _, h⟩ := s.grantEvt_shape f; rw [h]
@[simp] theorem State.grantEvt_imsic (f : Nat) : (s.grantEvt f).imsic = s.imsic := by obtain ⟨_, _, _, h⟩ := s.grantEvt_shape f; rw [h]
@[simp] theorem State.grantEvt_aia (f : Nat) : (s.grantEvt f).aia = s.aia := by obtain ⟨_, _, _, h⟩ := s.grantEvt_shape f; rw [h]

/-- All that `msiFile` can change. -/
theorem State.msiFile_shape (h i e : Nat) : ∃ (o₁ : List OutEvent) (i₁ : SMap Nat), s.msiFile h i e = { s with out := o₁, imsic := i₁ } := by
  unfold State.msiFile
  split
  · exact ⟨_, _, rfl⟩
  · exact ⟨_, _, rfl⟩

@[simp] theorem State.msiFile_pending (h i e : Nat) : (s.msiFile h i e).pending = s.pending := by obtain ⟨_, _, h⟩ := s.msiFile_shape h i e; rw [h]
@[simp] theorem State.msiFile_freeCtr (h i e : Nat) : (s.msiFile h i e).freeCtr = s.freeCtr := by obtain ⟨_, _, h⟩ := s.msiFile_shape h i e; rw [h]
@[simp] theorem State.msiFile_regs (h i e : Nat) : (s.msiFile h i e).regs = s.regs := by obtain ⟨_, _, h⟩ := s.msiFile_shape h i e; rw [h]
@[simp] theorem State.msiFile_mem (h i e : Nat) : (s.msiFile h i e).mem = s.mem := by obtain ⟨_, _, h⟩ := s.msiFile_shape h i e; rw [h]
@[simp] theorem State.msiFile_hostMem (h i e : Nat) : (s.msiFile h i e).hostMem = s.hostMem := by obtain ⟨_, _, h⟩ := s.msiFile_shape h i e; rw [h]
@[simp] theorem State.msiFile_sys (h i e : Nat) : (s.msiFile h i e).sys = s.sys := by obtain ⟨_, _, h⟩ := s.msiFile_shape h i e; rw [h]
@[simp] theorem State.msiFile_onf (h i e : Nat) : (s.msiFile h i e).onf = s.onf := by obtain ⟨_, _, h⟩ := s.msiFile_shape h i e; rw [h]
@[simp] theorem State.msiFile_qps (h i e : Nat) : (s.msiFile h i e).qps = s.qps := by obtain ⟨_, _, h⟩ := s.msiFile_shape h i e; rw [h]
@[simp] theorem State.msiFile_fns (h i e : Nat) : (s.msiFile h i e).fns = s.fns := by obtain ⟨_, _, h⟩ := s.msiFile_shape h i e; rw [h]
@[simp] theorem State.msiFile_qf (h i e : Nat) : (s.msiFile h i e).qf = s.qf := by obtain ⟨_, _, h⟩ := s.msiFile_shape h i e; rw [h]
@[simp] theorem State.msiFile_shut (h i e : Nat) : (s.msiFile h i e).shut = s.shut := by obtain ⟨_, _, h⟩ := s.msiFile_shape h i e; rw [h]
@[simp] theorem State.msiFile_safe (h i e : Nat) : (s.msiFile h i e).safe = s.safe := by obtain ⟨_, _, h⟩ := s.msiFile_shape h i e; rw [h]
@[simp] theorem State.msiFile_selv (h i e : Nat) : (s.msiFile h i e).selv = s.selv := by obtain ⟨_, _, h⟩ := s.msiFile_shape h i e; rw [h]
@[simp] theorem State.msiFile_tape (h i e : Nat) : (s.msiFile h i e).tape = s.tape := by obtain ⟨_, _, h⟩ := s.msiFile_shape h i e; rw [h]
@[simp] theorem State.msiFile_galv (h i e : Nat) : (s.msiFile h i e).galv = s.galv := by obtain ⟨_, _, h⟩ := s.msiFile_shape h i e; rw [h]
@[simp] theorem State.msiFile_tmu (h i e : Nat) : (s.msiFile h i e).tmu = s.tmu := by obtain ⟨_, _, h⟩ := s.msiFile_shape h i e; rw [h]
@[simp] theorem State.msiFile_engs (h i e : Nat) : (s.msiFile h i e).engs = s.engs := by obtain ⟨_, _, h⟩ := s.msiFile_shape h i e; rw [h]
@[simp] theorem State.msiFile_harts (h i e : Nat) : (s.msiFile h i e).harts = s.harts := by obtain ⟨_, _, h⟩ := s.msiFile_shape h i e; rw [h]
@[simp] theorem State.msiFile_spool (h i e : Nat) : (s.msiFile h i e).spool = s.spool := by obtain ⟨_, _, h⟩ := s.msiFile_shape h i e; rw [h]
@[simp] theorem State.msiFile_pow (h i e : Nat) : (s.msiFile h i e).pow = s.pow := by obtain ⟨_, _, h⟩ := s.msiFile_shape h i e; rw [h]
@[simp] theorem State.msiFile_spdm (h i e : Nat) : (s.msiFile h i e).spdm = s.spdm := by obtain ⟨_, _, h⟩ := s.msiFile_shape h i e; rw [h]
@[simp] theorem State.msiFile_gpio (h i e : Nat) : (s.msiFile h i e).gpio = s.gpio := by obtain ⟨_, _, h⟩ := s.msiFile_shape h i e; rw [h]
@[simp] theorem State.msiFile_links (h i e : Nat) : (s.msiFile h i e).links = s.links := by obtain ⟨_, _, h⟩ := s.msiFile_shape h i e; rw [h]
@[simp] theorem State.msiFile_dmc (h i e : Nat) : (s.msiFile h i e).dmc = s.dmc := by obtain ⟨_, _, h⟩ := s.msiFile_shape h i e; rw [h]
@[simp] theorem State.msiFile_aia (h i e : Nat) : (s.msiFile h i e).aia = s.aia := by obtain ⟨_, _, h⟩ := s.msiFile_shape h i e; rw [h]

/-- All that `msi` can change. -/
theorem State.msi_shape (h e : Nat) : ∃ (o₁ : List OutEvent) (i₁ : SMap Nat), s.msi h e = { s with out := o₁, imsic := i₁ } := State.msiFile_shape ..

@[simp] theorem State.msi_pending (h e : Nat) : (s.msi h e).pending = s.pending := by obtain ⟨_, _, h⟩ := s.msi_shape h e; rw [h]
@[simp] theorem State.msi_freeCtr (h e : Nat) : (s.msi h e).freeCtr = s.freeCtr := by obtain ⟨_, _, h⟩ := s.msi_shape h e; rw [h]
@[simp] theorem State.msi_regs (h e : Nat) : (s.msi h e).regs = s.regs := by obtain ⟨_, _, h⟩ := s.msi_shape h e; rw [h]
@[simp] theorem State.msi_mem (h e : Nat) : (s.msi h e).mem = s.mem := by obtain ⟨_, _, h⟩ := s.msi_shape h e; rw [h]
@[simp] theorem State.msi_hostMem (h e : Nat) : (s.msi h e).hostMem = s.hostMem := by obtain ⟨_, _, h⟩ := s.msi_shape h e; rw [h]
@[simp] theorem State.msi_sys (h e : Nat) : (s.msi h e).sys = s.sys := by obtain ⟨_, _, h⟩ := s.msi_shape h e; rw [h]
@[simp] theorem State.msi_onf (h e : Nat) : (s.msi h e).onf = s.onf := by obtain ⟨_, _, h⟩ := s.msi_shape h e; rw [h]
@[simp] theorem State.msi_qps (h e : Nat) : (s.msi h e).qps = s.qps := by obtain ⟨_, _, h⟩ := s.msi_shape h e; rw [h]
@[simp] theorem State.msi_fns (h e : Nat) : (s.msi h e).fns = s.fns := by obtain ⟨_, _, h⟩ := s.msi_shape h e; rw [h]
@[simp] theorem State.msi_qf (h e : Nat) : (s.msi h e).qf = s.qf := by obtain ⟨_, _, h⟩ := s.msi_shape h e; rw [h]
@[simp] theorem State.msi_shut (h e : Nat) : (s.msi h e).shut = s.shut := by obtain ⟨_, _, h⟩ := s.msi_shape h e; rw [h]
@[simp] theorem State.msi_safe (h e : Nat) : (s.msi h e).safe = s.safe := by obtain ⟨_, _, h⟩ := s.msi_shape h e; rw [h]
@[simp] theorem State.msi_selv (h e : Nat) : (s.msi h e).selv = s.selv := by obtain ⟨_, _, h⟩ := s.msi_shape h e; rw [h]
@[simp] theorem State.msi_tape (h e : Nat) : (s.msi h e).tape = s.tape := by obtain ⟨_, _, h⟩ := s.msi_shape h e; rw [h]
@[simp] theorem State.msi_galv (h e : Nat) : (s.msi h e).galv = s.galv := by obtain ⟨_, _, h⟩ := s.msi_shape h e; rw [h]
@[simp] theorem State.msi_tmu (h e : Nat) : (s.msi h e).tmu = s.tmu := by obtain ⟨_, _, h⟩ := s.msi_shape h e; rw [h]
@[simp] theorem State.msi_engs (h e : Nat) : (s.msi h e).engs = s.engs := by obtain ⟨_, _, h⟩ := s.msi_shape h e; rw [h]
@[simp] theorem State.msi_harts (h e : Nat) : (s.msi h e).harts = s.harts := by obtain ⟨_, _, h⟩ := s.msi_shape h e; rw [h]
@[simp] theorem State.msi_spool (h e : Nat) : (s.msi h e).spool = s.spool := by obtain ⟨_, _, h⟩ := s.msi_shape h e; rw [h]
@[simp] theorem State.msi_pow (h e : Nat) : (s.msi h e).pow = s.pow := by obtain ⟨_, _, h⟩ := s.msi_shape h e; rw [h]
@[simp] theorem State.msi_spdm (h e : Nat) : (s.msi h e).spdm = s.spdm := by obtain ⟨_, _, h⟩ := s.msi_shape h e; rw [h]
@[simp] theorem State.msi_gpio (h e : Nat) : (s.msi h e).gpio = s.gpio := by obtain ⟨_, _, h⟩ := s.msi_shape h e; rw [h]
@[simp] theorem State.msi_links (h e : Nat) : (s.msi h e).links = s.links := by obtain ⟨_, _, h⟩ := s.msi_shape h e; rw [h]
@[simp] theorem State.msi_dmc (h e : Nat) : (s.msi h e).dmc = s.dmc := by obtain ⟨_, _, h⟩ := s.msi_shape h e; rw [h]
@[simp] theorem State.msi_aia (h e : Nat) : (s.msi h e).aia = s.aia := by obtain ⟨_, _, h⟩ := s.msi_shape h e; rw [h]

/-- All that `evtOnAll` can change. -/
theorem State.evtOnAll_shape (c : Nat) (v : W64) (st : Nat) (l : List Nat) : ∃ (f₁ : OnfState), s.evtOnAll c v st l = { s with onf := f₁ } := by
  induction l generalizing s with
  | nil => exact ⟨_, rfl⟩
  | cons ch l ih => obtain ⟨o, h⟩ := ih (s.evtOn ch c v st); exact ⟨o, h⟩

@[simp] theorem State.evtOnAll_pending (c : Nat) (v : W64) (st : Nat) (l : List Nat) : (s.evtOnAll c v st l).pending = s.pending := by obtain ⟨_, h⟩ := s.evtOnAll_shape c v st l; rw [h]
@[simp] theorem State.evtOnAll_freeCtr (c : Nat) (v : W64) (st : Nat) (l : List Nat) : (s.evtOnAll c v st l).freeCtr = s.freeCtr := by obtain ⟨_, h⟩ := s.evtOnAll_shape c v st l; rw [h]
@[simp] theorem State.evtOnAll_out (c : Nat) (v : W64) (st : Nat) (l : List Nat) : (s.evtOnAll c v st l).out = s.out := by obtain ⟨_, h⟩ := s.evtOnAll_shape c v st l; rw [h]
@[simp] theorem State.evtOnAll_regs (c : Nat) (v : W64) (st : Nat) (l : List Nat) : (s.evtOnAll c v st l).regs = s.regs := by obtain ⟨_, h⟩ := s.evtOnAll_shape c v st l; rw [h]
@[simp] theorem State.evtOnAll_mem (c : Nat) (v : W64) (st : Nat) (l : List Nat) : (s.evtOnAll c v st l).mem = s.mem := by obtain ⟨_, h⟩ := s.evtOnAll_shape c v st l; rw [h]
@[simp] theorem State.evtOnAll_hostMem (c : Nat) (v : W64) (st : Nat) (l : List Nat) : (s.evtOnAll c v st l).hostMem = s.hostMem := by obtain ⟨_, h⟩ := s.evtOnAll_shape c v st l; rw [h]
@[simp] theorem State.evtOnAll_sys (c : Nat) (v : W64) (st : Nat) (l : List Nat) : (s.evtOnAll c v st l).sys = s.sys := by obtain ⟨_, h⟩ := s.evtOnAll_shape c v st l; rw [h]
@[simp] theorem State.evtOnAll_qps (c : Nat) (v : W64) (st : Nat) (l : List Nat) : (s.evtOnAll c v st l).qps = s.qps := by obtain ⟨_, h⟩ := s.evtOnAll_shape c v st l; rw [h]
@[simp] theorem State.evtOnAll_fns (c : Nat) (v : W64) (st : Nat) (l : List Nat) : (s.evtOnAll c v st l).fns = s.fns := by obtain ⟨_, h⟩ := s.evtOnAll_shape c v st l; rw [h]
@[simp] theorem State.evtOnAll_qf (c : Nat) (v : W64) (st : Nat) (l : List Nat) : (s.evtOnAll c v st l).qf = s.qf := by obtain ⟨_, h⟩ := s.evtOnAll_shape c v st l; rw [h]
@[simp] theorem State.evtOnAll_shut (c : Nat) (v : W64) (st : Nat) (l : List Nat) : (s.evtOnAll c v st l).shut = s.shut := by obtain ⟨_, h⟩ := s.evtOnAll_shape c v st l; rw [h]
@[simp] theorem State.evtOnAll_safe (c : Nat) (v : W64) (st : Nat) (l : List Nat) : (s.evtOnAll c v st l).safe = s.safe := by obtain ⟨_, h⟩ := s.evtOnAll_shape c v st l; rw [h]
@[simp] theorem State.evtOnAll_selv (c : Nat) (v : W64) (st : Nat) (l : List Nat) : (s.evtOnAll c v st l).selv = s.selv := by obtain ⟨_, h⟩ := s.evtOnAll_shape c v st l; rw [h]
@[simp] theorem State.evtOnAll_tape (c : Nat) (v : W64) (st : Nat) (l : List Nat) : (s.evtOnAll c v st l).tape = s.tape := by obtain ⟨_, h⟩ := s.evtOnAll_shape c v st l; rw [h]
@[simp] theorem State.evtOnAll_galv (c : Nat) (v : W64) (st : Nat) (l : List Nat) : (s.evtOnAll c v st l).galv = s.galv := by obtain ⟨_, h⟩ := s.evtOnAll_shape c v st l; rw [h]
@[simp] theorem State.evtOnAll_tmu (c : Nat) (v : W64) (st : Nat) (l : List Nat) : (s.evtOnAll c v st l).tmu = s.tmu := by obtain ⟨_, h⟩ := s.evtOnAll_shape c v st l; rw [h]
@[simp] theorem State.evtOnAll_engs (c : Nat) (v : W64) (st : Nat) (l : List Nat) : (s.evtOnAll c v st l).engs = s.engs := by obtain ⟨_, h⟩ := s.evtOnAll_shape c v st l; rw [h]
@[simp] theorem State.evtOnAll_harts (c : Nat) (v : W64) (st : Nat) (l : List Nat) : (s.evtOnAll c v st l).harts = s.harts := by obtain ⟨_, h⟩ := s.evtOnAll_shape c v st l; rw [h]
@[simp] theorem State.evtOnAll_spool (c : Nat) (v : W64) (st : Nat) (l : List Nat) : (s.evtOnAll c v st l).spool = s.spool := by obtain ⟨_, h⟩ := s.evtOnAll_shape c v st l; rw [h]
@[simp] theorem State.evtOnAll_pow (c : Nat) (v : W64) (st : Nat) (l : List Nat) : (s.evtOnAll c v st l).pow = s.pow := by obtain ⟨_, h⟩ := s.evtOnAll_shape c v st l; rw [h]
@[simp] theorem State.evtOnAll_spdm (c : Nat) (v : W64) (st : Nat) (l : List Nat) : (s.evtOnAll c v st l).spdm = s.spdm := by obtain ⟨_, h⟩ := s.evtOnAll_shape c v st l; rw [h]
@[simp] theorem State.evtOnAll_gpio (c : Nat) (v : W64) (st : Nat) (l : List Nat) : (s.evtOnAll c v st l).gpio = s.gpio := by obtain ⟨_, h⟩ := s.evtOnAll_shape c v st l; rw [h]
@[simp] theorem State.evtOnAll_links (c : Nat) (v : W64) (st : Nat) (l : List Nat) : (s.evtOnAll c v st l).links = s.links := by obtain ⟨_, h⟩ := s.evtOnAll_shape c v st l; rw [h]
@[simp] theorem State.evtOnAll_dmc (c : Nat) (v : W64) (st : Nat) (l : List Nat) : (s.evtOnAll c v st l).dmc = s.dmc := by obtain ⟨_, h⟩ := s.evtOnAll_shape c v st l; rw [h]
@[simp] theorem State.evtOnAll_imsic (c : Nat) (v : W64) (st : Nat) (l : List Nat) : (s.evtOnAll c v st l).imsic = s.imsic := by obtain ⟨_, h⟩ := s.evtOnAll_shape c v st l; rw [h]
@[simp] theorem State.evtOnAll_aia (c : Nat) (v : W64) (st : Nat) (l : List Nat) : (s.evtOnAll c v st l).aia = s.aia := by obtain ⟨_, h⟩ := s.evtOnAll_shape c v st l; rw [h]

/-- All that `event` can change. -/
theorem State.event_shape (c : Nat) : ∃ (f₁ : OnfState), s.event c = { s with onf := f₁ } := State.evtOnAll_shape ..

@[simp] theorem State.event_pending (c : Nat) : (s.event c).pending = s.pending := by obtain ⟨_, h⟩ := s.event_shape c; rw [h]
@[simp] theorem State.event_freeCtr (c : Nat) : (s.event c).freeCtr = s.freeCtr := by obtain ⟨_, h⟩ := s.event_shape c; rw [h]
@[simp] theorem State.event_out (c : Nat) : (s.event c).out = s.out := by obtain ⟨_, h⟩ := s.event_shape c; rw [h]
@[simp] theorem State.event_regs (c : Nat) : (s.event c).regs = s.regs := by obtain ⟨_, h⟩ := s.event_shape c; rw [h]
@[simp] theorem State.event_mem (c : Nat) : (s.event c).mem = s.mem := by obtain ⟨_, h⟩ := s.event_shape c; rw [h]
@[simp] theorem State.event_hostMem (c : Nat) : (s.event c).hostMem = s.hostMem := by obtain ⟨_, h⟩ := s.event_shape c; rw [h]
@[simp] theorem State.event_sys (c : Nat) : (s.event c).sys = s.sys := by obtain ⟨_, h⟩ := s.event_shape c; rw [h]
@[simp] theorem State.event_qps (c : Nat) : (s.event c).qps = s.qps := by obtain ⟨_, h⟩ := s.event_shape c; rw [h]
@[simp] theorem State.event_fns (c : Nat) : (s.event c).fns = s.fns := by obtain ⟨_, h⟩ := s.event_shape c; rw [h]
@[simp] theorem State.event_qf (c : Nat) : (s.event c).qf = s.qf := by obtain ⟨_, h⟩ := s.event_shape c; rw [h]
@[simp] theorem State.event_shut (c : Nat) : (s.event c).shut = s.shut := by obtain ⟨_, h⟩ := s.event_shape c; rw [h]
@[simp] theorem State.event_safe (c : Nat) : (s.event c).safe = s.safe := by obtain ⟨_, h⟩ := s.event_shape c; rw [h]
@[simp] theorem State.event_selv (c : Nat) : (s.event c).selv = s.selv := by obtain ⟨_, h⟩ := s.event_shape c; rw [h]
@[simp] theorem State.event_tape (c : Nat) : (s.event c).tape = s.tape := by obtain ⟨_, h⟩ := s.event_shape c; rw [h]
@[simp] theorem State.event_galv (c : Nat) : (s.event c).galv = s.galv := by obtain ⟨_, h⟩ := s.event_shape c; rw [h]
@[simp] theorem State.event_tmu (c : Nat) : (s.event c).tmu = s.tmu := by obtain ⟨_, h⟩ := s.event_shape c; rw [h]
@[simp] theorem State.event_engs (c : Nat) : (s.event c).engs = s.engs := by obtain ⟨_, h⟩ := s.event_shape c; rw [h]
@[simp] theorem State.event_harts (c : Nat) : (s.event c).harts = s.harts := by obtain ⟨_, h⟩ := s.event_shape c; rw [h]
@[simp] theorem State.event_spool (c : Nat) : (s.event c).spool = s.spool := by obtain ⟨_, h⟩ := s.event_shape c; rw [h]
@[simp] theorem State.event_pow (c : Nat) : (s.event c).pow = s.pow := by obtain ⟨_, h⟩ := s.event_shape c; rw [h]
@[simp] theorem State.event_spdm (c : Nat) : (s.event c).spdm = s.spdm := by obtain ⟨_, h⟩ := s.event_shape c; rw [h]
@[simp] theorem State.event_gpio (c : Nat) : (s.event c).gpio = s.gpio := by obtain ⟨_, h⟩ := s.event_shape c; rw [h]
@[simp] theorem State.event_links (c : Nat) : (s.event c).links = s.links := by obtain ⟨_, h⟩ := s.event_shape c; rw [h]
@[simp] theorem State.event_dmc (c : Nat) : (s.event c).dmc = s.dmc := by obtain ⟨_, h⟩ := s.event_shape c; rw [h]
@[simp] theorem State.event_imsic (c : Nat) : (s.event c).imsic = s.imsic := by obtain ⟨_, h⟩ := s.event_shape c; rw [h]
@[simp] theorem State.event_aia (c : Nat) : (s.event c).aia = s.aia := by obtain ⟨_, h⟩ := s.event_shape c; rw [h]

/-- All that `topEvt` can change. -/
theorem State.topEvt_shape (f : Fld) : ∃ (r₁ : SMap W64) (f₁ : OnfState), s.topEvt f = { s with regs := r₁, onf := f₁ } := by obtain ⟨o, h⟩ := State.event_shape (s.setBit f) 0; exact ⟨_, o, h⟩

@[simp] theorem State.topEvt_pending (f : Fld) : (s.topEvt f).pending = s.pending := by obtain ⟨_, _, h⟩ := s.topEvt_shape f; rw [h]
@[simp] theorem State.topEvt_freeCtr (f : Fld) : (s.topEvt f).freeCtr = s.freeCtr := by obtain ⟨_, _, h⟩ := s.topEvt_shape f; rw [h]
@[simp] theorem State.topEvt_out (f : Fld) : (s.topEvt f).out = s.out := by obtain ⟨_, _, h⟩ := s.topEvt_shape f; rw [h]
@[simp] theorem State.topEvt_mem (f : Fld) : (s.topEvt f).mem = s.mem := by obtain ⟨_, _, h⟩ := s.topEvt_shape f; rw [h]
@[simp] theorem State.topEvt_hostMem (f : Fld) : (s.topEvt f).hostMem = s.hostMem := by obtain ⟨_, _, h⟩ := s.topEvt_shape f; rw [h]
@[simp] theorem State.topEvt_sys (f : Fld) : (s.topEvt f).sys = s.sys := by obtain ⟨_, _, h⟩ := s.topEvt_shape f; rw [h]
@[simp] theorem State.topEvt_qps (f : Fld) : (s.topEvt f).qps = s.qps := by obtain ⟨_, _, h⟩ := s.topEvt_shape f; rw [h]
@[simp] theorem State.topEvt_fns (f : Fld) : (s.topEvt f).fns = s.fns := by obtain ⟨_, _, h⟩ := s.topEvt_shape f; rw [h]
@[simp] theorem State.topEvt_qf (f : Fld) : (s.topEvt f).qf = s.qf := by obtain ⟨_, _, h⟩ := s.topEvt_shape f; rw [h]
@[simp] theorem State.topEvt_shut (f : Fld) : (s.topEvt f).shut = s.shut := by obtain ⟨_, _, h⟩ := s.topEvt_shape f; rw [h]
@[simp] theorem State.topEvt_safe (f : Fld) : (s.topEvt f).safe = s.safe := by obtain ⟨_, _, h⟩ := s.topEvt_shape f; rw [h]
@[simp] theorem State.topEvt_selv (f : Fld) : (s.topEvt f).selv = s.selv := by obtain ⟨_, _, h⟩ := s.topEvt_shape f; rw [h]
@[simp] theorem State.topEvt_tape (f : Fld) : (s.topEvt f).tape = s.tape := by obtain ⟨_, _, h⟩ := s.topEvt_shape f; rw [h]
@[simp] theorem State.topEvt_galv (f : Fld) : (s.topEvt f).galv = s.galv := by obtain ⟨_, _, h⟩ := s.topEvt_shape f; rw [h]
@[simp] theorem State.topEvt_tmu (f : Fld) : (s.topEvt f).tmu = s.tmu := by obtain ⟨_, _, h⟩ := s.topEvt_shape f; rw [h]
@[simp] theorem State.topEvt_engs (f : Fld) : (s.topEvt f).engs = s.engs := by obtain ⟨_, _, h⟩ := s.topEvt_shape f; rw [h]
@[simp] theorem State.topEvt_harts (f : Fld) : (s.topEvt f).harts = s.harts := by obtain ⟨_, _, h⟩ := s.topEvt_shape f; rw [h]
@[simp] theorem State.topEvt_spool (f : Fld) : (s.topEvt f).spool = s.spool := by obtain ⟨_, _, h⟩ := s.topEvt_shape f; rw [h]
@[simp] theorem State.topEvt_pow (f : Fld) : (s.topEvt f).pow = s.pow := by obtain ⟨_, _, h⟩ := s.topEvt_shape f; rw [h]
@[simp] theorem State.topEvt_spdm (f : Fld) : (s.topEvt f).spdm = s.spdm := by obtain ⟨_, _, h⟩ := s.topEvt_shape f; rw [h]
@[simp] theorem State.topEvt_gpio (f : Fld) : (s.topEvt f).gpio = s.gpio := by obtain ⟨_, _, h⟩ := s.topEvt_shape f; rw [h]
@[simp] theorem State.topEvt_links (f : Fld) : (s.topEvt f).links = s.links := by obtain ⟨_, _, h⟩ := s.topEvt_shape f; rw [h]
@[simp] theorem State.topEvt_dmc (f : Fld) : (s.topEvt f).dmc = s.dmc := by obtain ⟨_, _, h⟩ := s.topEvt_shape f; rw [h]
@[simp] theorem State.topEvt_imsic (f : Fld) : (s.topEvt f).imsic = s.imsic := by obtain ⟨_, _, h⟩ := s.topEvt_shape f; rw [h]
@[simp] theorem State.topEvt_aia (f : Fld) : (s.topEvt f).aia = s.aia := by obtain ⟨_, _, h⟩ := s.topEvt_shape f; rw [h]

/-- All that `safeEvt` can change. -/
theorem State.safeEvt_shape (f : Fld) : ∃ (r₁ : SMap W64) (f₁ : OnfState), s.safeEvt f = { s with regs := r₁, onf := f₁ } := by obtain ⟨o, h⟩ := State.event_shape (s.setBit f) 1; exact ⟨_, o, h⟩

@[simp] theorem State.safeEvt_pending (f : Fld) : (s.safeEvt f).pending = s.pending := by obtain ⟨_, _, h⟩ := s.safeEvt_shape f; rw [h]
@[simp] theorem State.safeEvt_freeCtr (f : Fld) : (s.safeEvt f).freeCtr = s.freeCtr := by obtain ⟨_, _, h⟩ := s.safeEvt_shape f; rw [h]
@[simp] theorem State.safeEvt_out (f : Fld) : (s.safeEvt f).out = s.out := by obtain ⟨_, _, h⟩ := s.safeEvt_shape f; rw [h]
@[simp] theorem State.safeEvt_mem (f : Fld) : (s.safeEvt f).mem = s.mem := by obtain ⟨_, _, h⟩ := s.safeEvt_shape f; rw [h]
@[simp] theorem State.safeEvt_hostMem (f : Fld) : (s.safeEvt f).hostMem = s.hostMem := by obtain ⟨_, _, h⟩ := s.safeEvt_shape f; rw [h]
@[simp] theorem State.safeEvt_sys (f : Fld) : (s.safeEvt f).sys = s.sys := by obtain ⟨_, _, h⟩ := s.safeEvt_shape f; rw [h]
@[simp] theorem State.safeEvt_qps (f : Fld) : (s.safeEvt f).qps = s.qps := by obtain ⟨_, _, h⟩ := s.safeEvt_shape f; rw [h]
@[simp] theorem State.safeEvt_fns (f : Fld) : (s.safeEvt f).fns = s.fns := by obtain ⟨_, _, h⟩ := s.safeEvt_shape f; rw [h]
@[simp] theorem State.safeEvt_qf (f : Fld) : (s.safeEvt f).qf = s.qf := by obtain ⟨_, _, h⟩ := s.safeEvt_shape f; rw [h]
@[simp] theorem State.safeEvt_shut (f : Fld) : (s.safeEvt f).shut = s.shut := by obtain ⟨_, _, h⟩ := s.safeEvt_shape f; rw [h]
@[simp] theorem State.safeEvt_safe (f : Fld) : (s.safeEvt f).safe = s.safe := by obtain ⟨_, _, h⟩ := s.safeEvt_shape f; rw [h]
@[simp] theorem State.safeEvt_selv (f : Fld) : (s.safeEvt f).selv = s.selv := by obtain ⟨_, _, h⟩ := s.safeEvt_shape f; rw [h]
@[simp] theorem State.safeEvt_tape (f : Fld) : (s.safeEvt f).tape = s.tape := by obtain ⟨_, _, h⟩ := s.safeEvt_shape f; rw [h]
@[simp] theorem State.safeEvt_galv (f : Fld) : (s.safeEvt f).galv = s.galv := by obtain ⟨_, _, h⟩ := s.safeEvt_shape f; rw [h]
@[simp] theorem State.safeEvt_tmu (f : Fld) : (s.safeEvt f).tmu = s.tmu := by obtain ⟨_, _, h⟩ := s.safeEvt_shape f; rw [h]
@[simp] theorem State.safeEvt_engs (f : Fld) : (s.safeEvt f).engs = s.engs := by obtain ⟨_, _, h⟩ := s.safeEvt_shape f; rw [h]
@[simp] theorem State.safeEvt_harts (f : Fld) : (s.safeEvt f).harts = s.harts := by obtain ⟨_, _, h⟩ := s.safeEvt_shape f; rw [h]
@[simp] theorem State.safeEvt_spool (f : Fld) : (s.safeEvt f).spool = s.spool := by obtain ⟨_, _, h⟩ := s.safeEvt_shape f; rw [h]
@[simp] theorem State.safeEvt_pow (f : Fld) : (s.safeEvt f).pow = s.pow := by obtain ⟨_, _, h⟩ := s.safeEvt_shape f; rw [h]
@[simp] theorem State.safeEvt_spdm (f : Fld) : (s.safeEvt f).spdm = s.spdm := by obtain ⟨_, _, h⟩ := s.safeEvt_shape f; rw [h]
@[simp] theorem State.safeEvt_gpio (f : Fld) : (s.safeEvt f).gpio = s.gpio := by obtain ⟨_, _, h⟩ := s.safeEvt_shape f; rw [h]
@[simp] theorem State.safeEvt_links (f : Fld) : (s.safeEvt f).links = s.links := by obtain ⟨_, _, h⟩ := s.safeEvt_shape f; rw [h]
@[simp] theorem State.safeEvt_dmc (f : Fld) : (s.safeEvt f).dmc = s.dmc := by obtain ⟨_, _, h⟩ := s.safeEvt_shape f; rw [h]
@[simp] theorem State.safeEvt_imsic (f : Fld) : (s.safeEvt f).imsic = s.imsic := by obtain ⟨_, _, h⟩ := s.safeEvt_shape f; rw [h]
@[simp] theorem State.safeEvt_aia (f : Fld) : (s.safeEvt f).aia = s.aia := by obtain ⟨_, _, h⟩ := s.safeEvt_shape f; rw [h]

/-- All that `galvEvt` can change. -/
theorem State.galvEvt_shape (f : Fld) : ∃ (r₁ : SMap W64) (f₁ : OnfState), s.galvEvt f = { s with regs := r₁, onf := f₁ } := by obtain ⟨o, h⟩ := State.event_shape (s.setBit f) 2; exact ⟨_, o, h⟩

@[simp] theorem State.galvEvt_pending (f : Fld) : (s.galvEvt f).pending = s.pending := by obtain ⟨_, _, h⟩ := s.galvEvt_shape f; rw [h]
@[simp] theorem State.galvEvt_freeCtr (f : Fld) : (s.galvEvt f).freeCtr = s.freeCtr := by obtain ⟨_, _, h⟩ := s.galvEvt_shape f; rw [h]
@[simp] theorem State.galvEvt_out (f : Fld) : (s.galvEvt f).out = s.out := by obtain ⟨_, _, h⟩ := s.galvEvt_shape f; rw [h]
@[simp] theorem State.galvEvt_mem (f : Fld) : (s.galvEvt f).mem = s.mem := by obtain ⟨_, _, h⟩ := s.galvEvt_shape f; rw [h]
@[simp] theorem State.galvEvt_hostMem (f : Fld) : (s.galvEvt f).hostMem = s.hostMem := by obtain ⟨_, _, h⟩ := s.galvEvt_shape f; rw [h]
@[simp] theorem State.galvEvt_sys (f : Fld) : (s.galvEvt f).sys = s.sys := by obtain ⟨_, _, h⟩ := s.galvEvt_shape f; rw [h]
@[simp] theorem State.galvEvt_qps (f : Fld) : (s.galvEvt f).qps = s.qps := by obtain ⟨_, _, h⟩ := s.galvEvt_shape f; rw [h]
@[simp] theorem State.galvEvt_fns (f : Fld) : (s.galvEvt f).fns = s.fns := by obtain ⟨_, _, h⟩ := s.galvEvt_shape f; rw [h]
@[simp] theorem State.galvEvt_qf (f : Fld) : (s.galvEvt f).qf = s.qf := by obtain ⟨_, _, h⟩ := s.galvEvt_shape f; rw [h]
@[simp] theorem State.galvEvt_shut (f : Fld) : (s.galvEvt f).shut = s.shut := by obtain ⟨_, _, h⟩ := s.galvEvt_shape f; rw [h]
@[simp] theorem State.galvEvt_safe (f : Fld) : (s.galvEvt f).safe = s.safe := by obtain ⟨_, _, h⟩ := s.galvEvt_shape f; rw [h]
@[simp] theorem State.galvEvt_selv (f : Fld) : (s.galvEvt f).selv = s.selv := by obtain ⟨_, _, h⟩ := s.galvEvt_shape f; rw [h]
@[simp] theorem State.galvEvt_tape (f : Fld) : (s.galvEvt f).tape = s.tape := by obtain ⟨_, _, h⟩ := s.galvEvt_shape f; rw [h]
@[simp] theorem State.galvEvt_galv (f : Fld) : (s.galvEvt f).galv = s.galv := by obtain ⟨_, _, h⟩ := s.galvEvt_shape f; rw [h]
@[simp] theorem State.galvEvt_tmu (f : Fld) : (s.galvEvt f).tmu = s.tmu := by obtain ⟨_, _, h⟩ := s.galvEvt_shape f; rw [h]
@[simp] theorem State.galvEvt_engs (f : Fld) : (s.galvEvt f).engs = s.engs := by obtain ⟨_, _, h⟩ := s.galvEvt_shape f; rw [h]
@[simp] theorem State.galvEvt_harts (f : Fld) : (s.galvEvt f).harts = s.harts := by obtain ⟨_, _, h⟩ := s.galvEvt_shape f; rw [h]
@[simp] theorem State.galvEvt_spool (f : Fld) : (s.galvEvt f).spool = s.spool := by obtain ⟨_, _, h⟩ := s.galvEvt_shape f; rw [h]
@[simp] theorem State.galvEvt_pow (f : Fld) : (s.galvEvt f).pow = s.pow := by obtain ⟨_, _, h⟩ := s.galvEvt_shape f; rw [h]
@[simp] theorem State.galvEvt_spdm (f : Fld) : (s.galvEvt f).spdm = s.spdm := by obtain ⟨_, _, h⟩ := s.galvEvt_shape f; rw [h]
@[simp] theorem State.galvEvt_gpio (f : Fld) : (s.galvEvt f).gpio = s.gpio := by obtain ⟨_, _, h⟩ := s.galvEvt_shape f; rw [h]
@[simp] theorem State.galvEvt_links (f : Fld) : (s.galvEvt f).links = s.links := by obtain ⟨_, _, h⟩ := s.galvEvt_shape f; rw [h]
@[simp] theorem State.galvEvt_dmc (f : Fld) : (s.galvEvt f).dmc = s.dmc := by obtain ⟨_, _, h⟩ := s.galvEvt_shape f; rw [h]
@[simp] theorem State.galvEvt_imsic (f : Fld) : (s.galvEvt f).imsic = s.imsic := by obtain ⟨_, _, h⟩ := s.galvEvt_shape f; rw [h]
@[simp] theorem State.galvEvt_aia (f : Fld) : (s.galvEvt f).aia = s.aia := by obtain ⟨_, _, h⟩ := s.galvEvt_shape f; rw [h]

/-- All that `tapeEvt` can change. -/
theorem State.tapeEvt_shape (f : Fld) : ∃ (r₁ : SMap W64) (f₁ : OnfState), s.tapeEvt f = { s with regs := r₁, onf := f₁ } := by obtain ⟨o, h⟩ := State.event_shape (s.setBit f) 3; exact ⟨_, o, h⟩

@[simp] theorem State.tapeEvt_pending (f : Fld) : (s.tapeEvt f).pending = s.pending := by obtain ⟨_, _, h⟩ := s.tapeEvt_shape f; rw [h]
@[simp] theorem State.tapeEvt_freeCtr (f : Fld) : (s.tapeEvt f).freeCtr = s.freeCtr := by obtain ⟨_, _, h⟩ := s.tapeEvt_shape f; rw [h]
@[simp] theorem State.tapeEvt_out (f : Fld) : (s.tapeEvt f).out = s.out := by obtain ⟨_, _, h⟩ := s.tapeEvt_shape f; rw [h]
@[simp] theorem State.tapeEvt_mem (f : Fld) : (s.tapeEvt f).mem = s.mem := by obtain ⟨_, _, h⟩ := s.tapeEvt_shape f; rw [h]
@[simp] theorem State.tapeEvt_hostMem (f : Fld) : (s.tapeEvt f).hostMem = s.hostMem := by obtain ⟨_, _, h⟩ := s.tapeEvt_shape f; rw [h]
@[simp] theorem State.tapeEvt_sys (f : Fld) : (s.tapeEvt f).sys = s.sys := by obtain ⟨_, _, h⟩ := s.tapeEvt_shape f; rw [h]
@[simp] theorem State.tapeEvt_qps (f : Fld) : (s.tapeEvt f).qps = s.qps := by obtain ⟨_, _, h⟩ := s.tapeEvt_shape f; rw [h]
@[simp] theorem State.tapeEvt_fns (f : Fld) : (s.tapeEvt f).fns = s.fns := by obtain ⟨_, _, h⟩ := s.tapeEvt_shape f; rw [h]
@[simp] theorem State.tapeEvt_qf (f : Fld) : (s.tapeEvt f).qf = s.qf := by obtain ⟨_, _, h⟩ := s.tapeEvt_shape f; rw [h]
@[simp] theorem State.tapeEvt_shut (f : Fld) : (s.tapeEvt f).shut = s.shut := by obtain ⟨_, _, h⟩ := s.tapeEvt_shape f; rw [h]
@[simp] theorem State.tapeEvt_safe (f : Fld) : (s.tapeEvt f).safe = s.safe := by obtain ⟨_, _, h⟩ := s.tapeEvt_shape f; rw [h]
@[simp] theorem State.tapeEvt_selv (f : Fld) : (s.tapeEvt f).selv = s.selv := by obtain ⟨_, _, h⟩ := s.tapeEvt_shape f; rw [h]
@[simp] theorem State.tapeEvt_tape (f : Fld) : (s.tapeEvt f).tape = s.tape := by obtain ⟨_, _, h⟩ := s.tapeEvt_shape f; rw [h]
@[simp] theorem State.tapeEvt_galv (f : Fld) : (s.tapeEvt f).galv = s.galv := by obtain ⟨_, _, h⟩ := s.tapeEvt_shape f; rw [h]
@[simp] theorem State.tapeEvt_tmu (f : Fld) : (s.tapeEvt f).tmu = s.tmu := by obtain ⟨_, _, h⟩ := s.tapeEvt_shape f; rw [h]
@[simp] theorem State.tapeEvt_engs (f : Fld) : (s.tapeEvt f).engs = s.engs := by obtain ⟨_, _, h⟩ := s.tapeEvt_shape f; rw [h]
@[simp] theorem State.tapeEvt_harts (f : Fld) : (s.tapeEvt f).harts = s.harts := by obtain ⟨_, _, h⟩ := s.tapeEvt_shape f; rw [h]
@[simp] theorem State.tapeEvt_spool (f : Fld) : (s.tapeEvt f).spool = s.spool := by obtain ⟨_, _, h⟩ := s.tapeEvt_shape f; rw [h]
@[simp] theorem State.tapeEvt_pow (f : Fld) : (s.tapeEvt f).pow = s.pow := by obtain ⟨_, _, h⟩ := s.tapeEvt_shape f; rw [h]
@[simp] theorem State.tapeEvt_spdm (f : Fld) : (s.tapeEvt f).spdm = s.spdm := by obtain ⟨_, _, h⟩ := s.tapeEvt_shape f; rw [h]
@[simp] theorem State.tapeEvt_gpio (f : Fld) : (s.tapeEvt f).gpio = s.gpio := by obtain ⟨_, _, h⟩ := s.tapeEvt_shape f; rw [h]
@[simp] theorem State.tapeEvt_links (f : Fld) : (s.tapeEvt f).links = s.links := by obtain ⟨_, _, h⟩ := s.tapeEvt_shape f; rw [h]
@[simp] theorem State.tapeEvt_dmc (f : Fld) : (s.tapeEvt f).dmc = s.dmc := by obtain ⟨_, _, h⟩ := s.tapeEvt_shape f; rw [h]
@[simp] theorem State.tapeEvt_imsic (f : Fld) : (s.tapeEvt f).imsic = s.imsic := by obtain ⟨_, _, h⟩ := s.tapeEvt_shape f; rw [h]
@[simp] theorem State.tapeEvt_aia (f : Fld) : (s.tapeEvt f).aia = s.aia := by obtain ⟨_, _, h⟩ := s.tapeEvt_shape f; rw [h]

/-- All that `logViol` can change. -/
theorem State.logViol_shape (a : Agent) (k : AccKind) (c r x : Nat) : ∃ (r₁ : SMap W64), s.logViol a k c r x = { s with regs := r₁ } := by
  have step : ∀ (u : State) (off : Nat) (v : W64), (∃ g, u = { s with regs := g }) → ∃ g, u.setReg off v = { s with regs := g } := by
    rintro u off v ⟨g, rfl⟩
    exact ⟨_, rfl⟩
  have h0 : ∃ g, (s.bump R.SEAM_STATUS.COUNT 1).setBit R.SEAM_STATUS.VIOL_EVT = { s with regs := g } := step _ _ _ (step _ _ _ ⟨s.regs, rfl⟩)
  unfold State.logViol
  dsimp only
  split
  · exact step _ _ _ h0
  · exact step _ _ _ (step _ _ _ (step _ _ _ h0))

@[simp] theorem State.logViol_pending (a : Agent) (k : AccKind) (c r x : Nat) : (s.logViol a k c r x).pending = s.pending := by obtain ⟨_, h⟩ := s.logViol_shape a k c r x; rw [h]
@[simp] theorem State.logViol_freeCtr (a : Agent) (k : AccKind) (c r x : Nat) : (s.logViol a k c r x).freeCtr = s.freeCtr := by obtain ⟨_, h⟩ := s.logViol_shape a k c r x; rw [h]
@[simp] theorem State.logViol_out (a : Agent) (k : AccKind) (c r x : Nat) : (s.logViol a k c r x).out = s.out := by obtain ⟨_, h⟩ := s.logViol_shape a k c r x; rw [h]
@[simp] theorem State.logViol_mem (a : Agent) (k : AccKind) (c r x : Nat) : (s.logViol a k c r x).mem = s.mem := by obtain ⟨_, h⟩ := s.logViol_shape a k c r x; rw [h]
@[simp] theorem State.logViol_hostMem (a : Agent) (k : AccKind) (c r x : Nat) : (s.logViol a k c r x).hostMem = s.hostMem := by obtain ⟨_, h⟩ := s.logViol_shape a k c r x; rw [h]
@[simp] theorem State.logViol_sys (a : Agent) (k : AccKind) (c r x : Nat) : (s.logViol a k c r x).sys = s.sys := by obtain ⟨_, h⟩ := s.logViol_shape a k c r x; rw [h]
@[simp] theorem State.logViol_onf (a : Agent) (k : AccKind) (c r x : Nat) : (s.logViol a k c r x).onf = s.onf := by obtain ⟨_, h⟩ := s.logViol_shape a k c r x; rw [h]
@[simp] theorem State.logViol_qps (a : Agent) (k : AccKind) (c r x : Nat) : (s.logViol a k c r x).qps = s.qps := by obtain ⟨_, h⟩ := s.logViol_shape a k c r x; rw [h]
@[simp] theorem State.logViol_fns (a : Agent) (k : AccKind) (c r x : Nat) : (s.logViol a k c r x).fns = s.fns := by obtain ⟨_, h⟩ := s.logViol_shape a k c r x; rw [h]
@[simp] theorem State.logViol_qf (a : Agent) (k : AccKind) (c r x : Nat) : (s.logViol a k c r x).qf = s.qf := by obtain ⟨_, h⟩ := s.logViol_shape a k c r x; rw [h]
@[simp] theorem State.logViol_shut (a : Agent) (k : AccKind) (c r x : Nat) : (s.logViol a k c r x).shut = s.shut := by obtain ⟨_, h⟩ := s.logViol_shape a k c r x; rw [h]
@[simp] theorem State.logViol_safe (a : Agent) (k : AccKind) (c r x : Nat) : (s.logViol a k c r x).safe = s.safe := by obtain ⟨_, h⟩ := s.logViol_shape a k c r x; rw [h]
@[simp] theorem State.logViol_selv (a : Agent) (k : AccKind) (c r x : Nat) : (s.logViol a k c r x).selv = s.selv := by obtain ⟨_, h⟩ := s.logViol_shape a k c r x; rw [h]
@[simp] theorem State.logViol_tape (a : Agent) (k : AccKind) (c r x : Nat) : (s.logViol a k c r x).tape = s.tape := by obtain ⟨_, h⟩ := s.logViol_shape a k c r x; rw [h]
@[simp] theorem State.logViol_galv (a : Agent) (k : AccKind) (c r x : Nat) : (s.logViol a k c r x).galv = s.galv := by obtain ⟨_, h⟩ := s.logViol_shape a k c r x; rw [h]
@[simp] theorem State.logViol_tmu (a : Agent) (k : AccKind) (c r x : Nat) : (s.logViol a k c r x).tmu = s.tmu := by obtain ⟨_, h⟩ := s.logViol_shape a k c r x; rw [h]
@[simp] theorem State.logViol_engs (a : Agent) (k : AccKind) (c r x : Nat) : (s.logViol a k c r x).engs = s.engs := by obtain ⟨_, h⟩ := s.logViol_shape a k c r x; rw [h]
@[simp] theorem State.logViol_harts (a : Agent) (k : AccKind) (c r x : Nat) : (s.logViol a k c r x).harts = s.harts := by obtain ⟨_, h⟩ := s.logViol_shape a k c r x; rw [h]
@[simp] theorem State.logViol_spool (a : Agent) (k : AccKind) (c r x : Nat) : (s.logViol a k c r x).spool = s.spool := by obtain ⟨_, h⟩ := s.logViol_shape a k c r x; rw [h]
@[simp] theorem State.logViol_pow (a : Agent) (k : AccKind) (c r x : Nat) : (s.logViol a k c r x).pow = s.pow := by obtain ⟨_, h⟩ := s.logViol_shape a k c r x; rw [h]
@[simp] theorem State.logViol_spdm (a : Agent) (k : AccKind) (c r x : Nat) : (s.logViol a k c r x).spdm = s.spdm := by obtain ⟨_, h⟩ := s.logViol_shape a k c r x; rw [h]
@[simp] theorem State.logViol_gpio (a : Agent) (k : AccKind) (c r x : Nat) : (s.logViol a k c r x).gpio = s.gpio := by obtain ⟨_, h⟩ := s.logViol_shape a k c r x; rw [h]
@[simp] theorem State.logViol_links (a : Agent) (k : AccKind) (c r x : Nat) : (s.logViol a k c r x).links = s.links := by obtain ⟨_, h⟩ := s.logViol_shape a k c r x; rw [h]
@[simp] theorem State.logViol_dmc (a : Agent) (k : AccKind) (c r x : Nat) : (s.logViol a k c r x).dmc = s.dmc := by obtain ⟨_, h⟩ := s.logViol_shape a k c r x; rw [h]
@[simp] theorem State.logViol_imsic (a : Agent) (k : AccKind) (c r x : Nat) : (s.logViol a k c r x).imsic = s.imsic := by obtain ⟨_, h⟩ := s.logViol_shape a k c r x; rw [h]
@[simp] theorem State.logViol_aia (a : Agent) (k : AccKind) (c r x : Nat) : (s.logViol a k c r x).aia = s.aia := by obtain ⟨_, h⟩ := s.logViol_shape a k c r x; rw [h]

/-- All that `violation` can change. -/
theorem State.violation_shape (a : Agent) (k : AccKind) (c r x : Nat) : ∃ (r₁ : SMap W64) (f₁ : OnfState), s.violation a k c r x = { s with regs := r₁, onf := f₁ } := by
  obtain ⟨g, h⟩ := State.logViol_shape s a k c r x
  obtain ⟨o, h'⟩ := State.event_shape (s.logViol a k c r x) 6
  exact ⟨g, o, by rw [State.violation, h', h]⟩

@[simp] theorem State.violation_pending (a : Agent) (k : AccKind) (c r x : Nat) : (s.violation a k c r x).pending = s.pending := by obtain ⟨_, _, h⟩ := s.violation_shape a k c r x; rw [h]
@[simp] theorem State.violation_freeCtr (a : Agent) (k : AccKind) (c r x : Nat) : (s.violation a k c r x).freeCtr = s.freeCtr := by obtain ⟨_, _, h⟩ := s.violation_shape a k c r x; rw [h]
@[simp] theorem State.violation_out (a : Agent) (k : AccKind) (c r x : Nat) : (s.violation a k c r x).out = s.out := by obtain ⟨_, _, h⟩ := s.violation_shape a k c r x; rw [h]
@[simp] theorem State.violation_mem (a : Agent) (k : AccKind) (c r x : Nat) : (s.violation a k c r x).mem = s.mem := by obtain ⟨_, _, h⟩ := s.violation_shape a k c r x; rw [h]
@[simp] theorem State.violation_hostMem (a : Agent) (k : AccKind) (c r x : Nat) : (s.violation a k c r x).hostMem = s.hostMem := by obtain ⟨_, _, h⟩ := s.violation_shape a k c r x; rw [h]
@[simp] theorem State.violation_sys (a : Agent) (k : AccKind) (c r x : Nat) : (s.violation a k c r x).sys = s.sys := by obtain ⟨_, _, h⟩ := s.violation_shape a k c r x; rw [h]
@[simp] theorem State.violation_qps (a : Agent) (k : AccKind) (c r x : Nat) : (s.violation a k c r x).qps = s.qps := by obtain ⟨_, _, h⟩ := s.violation_shape a k c r x; rw [h]
@[simp] theorem State.violation_fns (a : Agent) (k : AccKind) (c r x : Nat) : (s.violation a k c r x).fns = s.fns := by obtain ⟨_, _, h⟩ := s.violation_shape a k c r x; rw [h]
@[simp] theorem State.violation_qf (a : Agent) (k : AccKind) (c r x : Nat) : (s.violation a k c r x).qf = s.qf := by obtain ⟨_, _, h⟩ := s.violation_shape a k c r x; rw [h]
@[simp] theorem State.violation_shut (a : Agent) (k : AccKind) (c r x : Nat) : (s.violation a k c r x).shut = s.shut := by obtain ⟨_, _, h⟩ := s.violation_shape a k c r x; rw [h]
@[simp] theorem State.violation_safe (a : Agent) (k : AccKind) (c r x : Nat) : (s.violation a k c r x).safe = s.safe := by obtain ⟨_, _, h⟩ := s.violation_shape a k c r x; rw [h]
@[simp] theorem State.violation_selv (a : Agent) (k : AccKind) (c r x : Nat) : (s.violation a k c r x).selv = s.selv := by obtain ⟨_, _, h⟩ := s.violation_shape a k c r x; rw [h]
@[simp] theorem State.violation_tape (a : Agent) (k : AccKind) (c r x : Nat) : (s.violation a k c r x).tape = s.tape := by obtain ⟨_, _, h⟩ := s.violation_shape a k c r x; rw [h]
@[simp] theorem State.violation_galv (a : Agent) (k : AccKind) (c r x : Nat) : (s.violation a k c r x).galv = s.galv := by obtain ⟨_, _, h⟩ := s.violation_shape a k c r x; rw [h]
@[simp] theorem State.violation_tmu (a : Agent) (k : AccKind) (c r x : Nat) : (s.violation a k c r x).tmu = s.tmu := by obtain ⟨_, _, h⟩ := s.violation_shape a k c r x; rw [h]
@[simp] theorem State.violation_engs (a : Agent) (k : AccKind) (c r x : Nat) : (s.violation a k c r x).engs = s.engs := by obtain ⟨_, _, h⟩ := s.violation_shape a k c r x; rw [h]
@[simp] theorem State.violation_harts (a : Agent) (k : AccKind) (c r x : Nat) : (s.violation a k c r x).harts = s.harts := by obtain ⟨_, _, h⟩ := s.violation_shape a k c r x; rw [h]
@[simp] theorem State.violation_spool (a : Agent) (k : AccKind) (c r x : Nat) : (s.violation a k c r x).spool = s.spool := by obtain ⟨_, _, h⟩ := s.violation_shape a k c r x; rw [h]
@[simp] theorem State.violation_pow (a : Agent) (k : AccKind) (c r x : Nat) : (s.violation a k c r x).pow = s.pow := by obtain ⟨_, _, h⟩ := s.violation_shape a k c r x; rw [h]
@[simp] theorem State.violation_spdm (a : Agent) (k : AccKind) (c r x : Nat) : (s.violation a k c r x).spdm = s.spdm := by obtain ⟨_, _, h⟩ := s.violation_shape a k c r x; rw [h]
@[simp] theorem State.violation_gpio (a : Agent) (k : AccKind) (c r x : Nat) : (s.violation a k c r x).gpio = s.gpio := by obtain ⟨_, _, h⟩ := s.violation_shape a k c r x; rw [h]
@[simp] theorem State.violation_links (a : Agent) (k : AccKind) (c r x : Nat) : (s.violation a k c r x).links = s.links := by obtain ⟨_, _, h⟩ := s.violation_shape a k c r x; rw [h]
@[simp] theorem State.violation_dmc (a : Agent) (k : AccKind) (c r x : Nat) : (s.violation a k c r x).dmc = s.dmc := by obtain ⟨_, _, h⟩ := s.violation_shape a k c r x; rw [h]
@[simp] theorem State.violation_imsic (a : Agent) (k : AccKind) (c r x : Nat) : (s.violation a k c r x).imsic = s.imsic := by obtain ⟨_, _, h⟩ := s.violation_shape a k c r x; rw [h]
@[simp] theorem State.violation_aia (a : Agent) (k : AccKind) (c r x : Nat) : (s.violation a k c r x).aia = s.aia := by obtain ⟨_, _, h⟩ := s.violation_shape a k c r x; rw [h]

/-- All that `chargeOn` can change. -/
theorem State.chargeOn_shape (b : Bool) (a c n : Nat) : ∃ (r₁ : SMap W64) (f₁ : OnfState) (t₁ : TapeState) (o₁ : List OutEvent), s.chargeOn b a c n = { s with regs := r₁, onf := f₁, tape := t₁, out := o₁ } := by
  have fin : ∀ u : State, (∃ t₁ o₁, u = { s with tape := t₁, out := o₁ }) →
      ∃ r₁ f₁ t₁ o₁, u.tapeEvt R.TAPE_STATUS.ORPHAN_EVT = { s with regs := r₁, onf := f₁, tape := t₁, out := o₁ } := by
    rintro u ⟨t₁, o₁, rfl⟩
    obtain ⟨r, f, h⟩ := State.tapeEvt_shape { s with tape := t₁, out := o₁ } R.TAPE_STATUS.ORPHAN_EVT
    exact ⟨r, f, t₁, o₁, h⟩
  unfold State.chargeOn
  split
  · exact ⟨_, _, _, _, rfl⟩
  · dsimp only
    split <;> split <;> first
      | exact fin _ ⟨_, _, rfl⟩
      | exact ⟨_, _, _, _, rfl⟩

@[simp] theorem State.chargeOn_pending (b : Bool) (a c n : Nat) : (s.chargeOn b a c n).pending = s.pending := by obtain ⟨_, _, _, _, h⟩ := s.chargeOn_shape b a c n; rw [h]
@[simp] theorem State.chargeOn_freeCtr (b : Bool) (a c n : Nat) : (s.chargeOn b a c n).freeCtr = s.freeCtr := by obtain ⟨_, _, _, _, h⟩ := s.chargeOn_shape b a c n; rw [h]
@[simp] theorem State.chargeOn_mem (b : Bool) (a c n : Nat) : (s.chargeOn b a c n).mem = s.mem := by obtain ⟨_, _, _, _, h⟩ := s.chargeOn_shape b a c n; rw [h]
@[simp] theorem State.chargeOn_hostMem (b : Bool) (a c n : Nat) : (s.chargeOn b a c n).hostMem = s.hostMem := by obtain ⟨_, _, _, _, h⟩ := s.chargeOn_shape b a c n; rw [h]
@[simp] theorem State.chargeOn_sys (b : Bool) (a c n : Nat) : (s.chargeOn b a c n).sys = s.sys := by obtain ⟨_, _, _, _, h⟩ := s.chargeOn_shape b a c n; rw [h]
@[simp] theorem State.chargeOn_qps (b : Bool) (a c n : Nat) : (s.chargeOn b a c n).qps = s.qps := by obtain ⟨_, _, _, _, h⟩ := s.chargeOn_shape b a c n; rw [h]
@[simp] theorem State.chargeOn_fns (b : Bool) (a c n : Nat) : (s.chargeOn b a c n).fns = s.fns := by obtain ⟨_, _, _, _, h⟩ := s.chargeOn_shape b a c n; rw [h]
@[simp] theorem State.chargeOn_qf (b : Bool) (a c n : Nat) : (s.chargeOn b a c n).qf = s.qf := by obtain ⟨_, _, _, _, h⟩ := s.chargeOn_shape b a c n; rw [h]
@[simp] theorem State.chargeOn_shut (b : Bool) (a c n : Nat) : (s.chargeOn b a c n).shut = s.shut := by obtain ⟨_, _, _, _, h⟩ := s.chargeOn_shape b a c n; rw [h]
@[simp] theorem State.chargeOn_safe (b : Bool) (a c n : Nat) : (s.chargeOn b a c n).safe = s.safe := by obtain ⟨_, _, _, _, h⟩ := s.chargeOn_shape b a c n; rw [h]
@[simp] theorem State.chargeOn_selv (b : Bool) (a c n : Nat) : (s.chargeOn b a c n).selv = s.selv := by obtain ⟨_, _, _, _, h⟩ := s.chargeOn_shape b a c n; rw [h]
@[simp] theorem State.chargeOn_galv (b : Bool) (a c n : Nat) : (s.chargeOn b a c n).galv = s.galv := by obtain ⟨_, _, _, _, h⟩ := s.chargeOn_shape b a c n; rw [h]
@[simp] theorem State.chargeOn_tmu (b : Bool) (a c n : Nat) : (s.chargeOn b a c n).tmu = s.tmu := by obtain ⟨_, _, _, _, h⟩ := s.chargeOn_shape b a c n; rw [h]
@[simp] theorem State.chargeOn_engs (b : Bool) (a c n : Nat) : (s.chargeOn b a c n).engs = s.engs := by obtain ⟨_, _, _, _, h⟩ := s.chargeOn_shape b a c n; rw [h]
@[simp] theorem State.chargeOn_harts (b : Bool) (a c n : Nat) : (s.chargeOn b a c n).harts = s.harts := by obtain ⟨_, _, _, _, h⟩ := s.chargeOn_shape b a c n; rw [h]
@[simp] theorem State.chargeOn_spool (b : Bool) (a c n : Nat) : (s.chargeOn b a c n).spool = s.spool := by obtain ⟨_, _, _, _, h⟩ := s.chargeOn_shape b a c n; rw [h]
@[simp] theorem State.chargeOn_pow (b : Bool) (a c n : Nat) : (s.chargeOn b a c n).pow = s.pow := by obtain ⟨_, _, _, _, h⟩ := s.chargeOn_shape b a c n; rw [h]
@[simp] theorem State.chargeOn_spdm (b : Bool) (a c n : Nat) : (s.chargeOn b a c n).spdm = s.spdm := by obtain ⟨_, _, _, _, h⟩ := s.chargeOn_shape b a c n; rw [h]
@[simp] theorem State.chargeOn_gpio (b : Bool) (a c n : Nat) : (s.chargeOn b a c n).gpio = s.gpio := by obtain ⟨_, _, _, _, h⟩ := s.chargeOn_shape b a c n; rw [h]
@[simp] theorem State.chargeOn_links (b : Bool) (a c n : Nat) : (s.chargeOn b a c n).links = s.links := by obtain ⟨_, _, _, _, h⟩ := s.chargeOn_shape b a c n; rw [h]
@[simp] theorem State.chargeOn_dmc (b : Bool) (a c n : Nat) : (s.chargeOn b a c n).dmc = s.dmc := by obtain ⟨_, _, _, _, h⟩ := s.chargeOn_shape b a c n; rw [h]
@[simp] theorem State.chargeOn_imsic (b : Bool) (a c n : Nat) : (s.chargeOn b a c n).imsic = s.imsic := by obtain ⟨_, _, _, _, h⟩ := s.chargeOn_shape b a c n; rw [h]
@[simp] theorem State.chargeOn_aia (b : Bool) (a c n : Nat) : (s.chargeOn b a c n).aia = s.aia := by obtain ⟨_, _, _, _, h⟩ := s.chargeOn_shape b a c n; rw [h]

/-- All that `charge` can change. -/
theorem State.charge_shape (a c n : Nat) : ∃ (r₁ : SMap W64) (f₁ : OnfState) (t₁ : TapeState) (o₁ : List OutEvent), s.charge a c n = { s with regs := r₁, onf := f₁, tape := t₁, out := o₁ } := State.chargeOn_shape ..

@[simp] theorem State.charge_pending (a c n : Nat) : (s.charge a c n).pending = s.pending := by obtain ⟨_, _, _, _, h⟩ := s.charge_shape a c n; rw [h]
@[simp] theorem State.charge_freeCtr (a c n : Nat) : (s.charge a c n).freeCtr = s.freeCtr := by obtain ⟨_, _, _, _, h⟩ := s.charge_shape a c n; rw [h]
@[simp] theorem State.charge_mem (a c n : Nat) : (s.charge a c n).mem = s.mem := by obtain ⟨_, _, _, _, h⟩ := s.charge_shape a c n; rw [h]
@[simp] theorem State.charge_hostMem (a c n : Nat) : (s.charge a c n).hostMem = s.hostMem := by obtain ⟨_, _, _, _, h⟩ := s.charge_shape a c n; rw [h]
@[simp] theorem State.charge_sys (a c n : Nat) : (s.charge a c n).sys = s.sys := by obtain ⟨_, _, _, _, h⟩ := s.charge_shape a c n; rw [h]
@[simp] theorem State.charge_qps (a c n : Nat) : (s.charge a c n).qps = s.qps := by obtain ⟨_, _, _, _, h⟩ := s.charge_shape a c n; rw [h]
@[simp] theorem State.charge_fns (a c n : Nat) : (s.charge a c n).fns = s.fns := by obtain ⟨_, _, _, _, h⟩ := s.charge_shape a c n; rw [h]
@[simp] theorem State.charge_qf (a c n : Nat) : (s.charge a c n).qf = s.qf := by obtain ⟨_, _, _, _, h⟩ := s.charge_shape a c n; rw [h]
@[simp] theorem State.charge_shut (a c n : Nat) : (s.charge a c n).shut = s.shut := by obtain ⟨_, _, _, _, h⟩ := s.charge_shape a c n; rw [h]
@[simp] theorem State.charge_safe (a c n : Nat) : (s.charge a c n).safe = s.safe := by obtain ⟨_, _, _, _, h⟩ := s.charge_shape a c n; rw [h]
@[simp] theorem State.charge_selv (a c n : Nat) : (s.charge a c n).selv = s.selv := by obtain ⟨_, _, _, _, h⟩ := s.charge_shape a c n; rw [h]
@[simp] theorem State.charge_galv (a c n : Nat) : (s.charge a c n).galv = s.galv := by obtain ⟨_, _, _, _, h⟩ := s.charge_shape a c n; rw [h]
@[simp] theorem State.charge_tmu (a c n : Nat) : (s.charge a c n).tmu = s.tmu := by obtain ⟨_, _, _, _, h⟩ := s.charge_shape a c n; rw [h]
@[simp] theorem State.charge_engs (a c n : Nat) : (s.charge a c n).engs = s.engs := by obtain ⟨_, _, _, _, h⟩ := s.charge_shape a c n; rw [h]
@[simp] theorem State.charge_harts (a c n : Nat) : (s.charge a c n).harts = s.harts := by obtain ⟨_, _, _, _, h⟩ := s.charge_shape a c n; rw [h]
@[simp] theorem State.charge_spool (a c n : Nat) : (s.charge a c n).spool = s.spool := by obtain ⟨_, _, _, _, h⟩ := s.charge_shape a c n; rw [h]
@[simp] theorem State.charge_pow (a c n : Nat) : (s.charge a c n).pow = s.pow := by obtain ⟨_, _, _, _, h⟩ := s.charge_shape a c n; rw [h]
@[simp] theorem State.charge_spdm (a c n : Nat) : (s.charge a c n).spdm = s.spdm := by obtain ⟨_, _, _, _, h⟩ := s.charge_shape a c n; rw [h]
@[simp] theorem State.charge_gpio (a c n : Nat) : (s.charge a c n).gpio = s.gpio := by obtain ⟨_, _, _, _, h⟩ := s.charge_shape a c n; rw [h]
@[simp] theorem State.charge_links (a c n : Nat) : (s.charge a c n).links = s.links := by obtain ⟨_, _, _, _, h⟩ := s.charge_shape a c n; rw [h]
@[simp] theorem State.charge_dmc (a c n : Nat) : (s.charge a c n).dmc = s.dmc := by obtain ⟨_, _, _, _, h⟩ := s.charge_shape a c n; rw [h]
@[simp] theorem State.charge_imsic (a c n : Nat) : (s.charge a c n).imsic = s.imsic := by obtain ⟨_, _, _, _, h⟩ := s.charge_shape a c n; rw [h]
@[simp] theorem State.charge_aia (a c n : Nat) : (s.charge a c n).aia = s.aia := by obtain ⟨_, _, _, _, h⟩ := s.charge_shape a c n; rw [h]

/-- All that `mbxSignal` can change. -/
theorem State.mbxSignal_shape (ch : Nat) : ∃ (c₁ : SMap FnCtx) (g₁ : GalvState) (o₁ : List OutEvent), s.mbxSignal ch = { s with fns := c₁, galv := g₁, out := o₁ } := by
  unfold State.mbxSignal
  split
  · exact State.msix_shape ..
  · exact ⟨_, _, _, rfl⟩

@[simp] theorem State.mbxSignal_pending (ch : Nat) : (s.mbxSignal ch).pending = s.pending := by obtain ⟨_, _, _, h⟩ := s.mbxSignal_shape ch; rw [h]
@[simp] theorem State.mbxSignal_freeCtr (ch : Nat) : (s.mbxSignal ch).freeCtr = s.freeCtr := by obtain ⟨_, _, _, h⟩ := s.mbxSignal_shape ch; rw [h]
@[simp] theorem State.mbxSignal_regs (ch : Nat) : (s.mbxSignal ch).regs = s.regs := by obtain ⟨_, _, _, h⟩ := s.mbxSignal_shape ch; rw [h]
@[simp] theorem State.mbxSignal_mem (ch : Nat) : (s.mbxSignal ch).mem = s.mem := by obtain ⟨_, _, _, h⟩ := s.mbxSignal_shape ch; rw [h]
@[simp] theorem State.mbxSignal_hostMem (ch : Nat) : (s.mbxSignal ch).hostMem = s.hostMem := by obtain ⟨_, _, _, h⟩ := s.mbxSignal_shape ch; rw [h]
@[simp] theorem State.mbxSignal_sys (ch : Nat) : (s.mbxSignal ch).sys = s.sys := by obtain ⟨_, _, _, h⟩ := s.mbxSignal_shape ch; rw [h]
@[simp] theorem State.mbxSignal_onf (ch : Nat) : (s.mbxSignal ch).onf = s.onf := by obtain ⟨_, _, _, h⟩ := s.mbxSignal_shape ch; rw [h]
@[simp] theorem State.mbxSignal_qps (ch : Nat) : (s.mbxSignal ch).qps = s.qps := by obtain ⟨_, _, _, h⟩ := s.mbxSignal_shape ch; rw [h]
@[simp] theorem State.mbxSignal_qf (ch : Nat) : (s.mbxSignal ch).qf = s.qf := by obtain ⟨_, _, _, h⟩ := s.mbxSignal_shape ch; rw [h]
@[simp] theorem State.mbxSignal_shut (ch : Nat) : (s.mbxSignal ch).shut = s.shut := by obtain ⟨_, _, _, h⟩ := s.mbxSignal_shape ch; rw [h]
@[simp] theorem State.mbxSignal_safe (ch : Nat) : (s.mbxSignal ch).safe = s.safe := by obtain ⟨_, _, _, h⟩ := s.mbxSignal_shape ch; rw [h]
@[simp] theorem State.mbxSignal_selv (ch : Nat) : (s.mbxSignal ch).selv = s.selv := by obtain ⟨_, _, _, h⟩ := s.mbxSignal_shape ch; rw [h]
@[simp] theorem State.mbxSignal_tape (ch : Nat) : (s.mbxSignal ch).tape = s.tape := by obtain ⟨_, _, _, h⟩ := s.mbxSignal_shape ch; rw [h]
@[simp] theorem State.mbxSignal_tmu (ch : Nat) : (s.mbxSignal ch).tmu = s.tmu := by obtain ⟨_, _, _, h⟩ := s.mbxSignal_shape ch; rw [h]
@[simp] theorem State.mbxSignal_engs (ch : Nat) : (s.mbxSignal ch).engs = s.engs := by obtain ⟨_, _, _, h⟩ := s.mbxSignal_shape ch; rw [h]
@[simp] theorem State.mbxSignal_harts (ch : Nat) : (s.mbxSignal ch).harts = s.harts := by obtain ⟨_, _, _, h⟩ := s.mbxSignal_shape ch; rw [h]
@[simp] theorem State.mbxSignal_spool (ch : Nat) : (s.mbxSignal ch).spool = s.spool := by obtain ⟨_, _, _, h⟩ := s.mbxSignal_shape ch; rw [h]
@[simp] theorem State.mbxSignal_pow (ch : Nat) : (s.mbxSignal ch).pow = s.pow := by obtain ⟨_, _, _, h⟩ := s.mbxSignal_shape ch; rw [h]
@[simp] theorem State.mbxSignal_spdm (ch : Nat) : (s.mbxSignal ch).spdm = s.spdm := by obtain ⟨_, _, _, h⟩ := s.mbxSignal_shape ch; rw [h]
@[simp] theorem State.mbxSignal_gpio (ch : Nat) : (s.mbxSignal ch).gpio = s.gpio := by obtain ⟨_, _, _, h⟩ := s.mbxSignal_shape ch; rw [h]
@[simp] theorem State.mbxSignal_links (ch : Nat) : (s.mbxSignal ch).links = s.links := by obtain ⟨_, _, _, h⟩ := s.mbxSignal_shape ch; rw [h]
@[simp] theorem State.mbxSignal_dmc (ch : Nat) : (s.mbxSignal ch).dmc = s.dmc := by obtain ⟨_, _, _, h⟩ := s.mbxSignal_shape ch; rw [h]
@[simp] theorem State.mbxSignal_imsic (ch : Nat) : (s.mbxSignal ch).imsic = s.imsic := by obtain ⟨_, _, _, h⟩ := s.mbxSignal_shape ch; rw [h]
@[simp] theorem State.mbxSignal_aia (ch : Nat) : (s.mbxSignal ch).aia = s.aia := by obtain ⟨_, _, _, h⟩ := s.mbxSignal_shape ch; rw [h]

/-- All that `send` can change. -/
theorem State.send_shape (ch : Nat) (p : OnfPkt) : ∃ (f₁ : OnfState) (c₁ : SMap FnCtx) (g₁ : GalvState) (o₁ : List OutEvent), s.send ch p = { s with onf := f₁, fns := c₁, galv := g₁, out := o₁ } := by
  unfold State.send
  dsimp only
  split
  · split
    · exact ⟨_, _, _, _, rfl⟩
    · obtain ⟨c, g, o, h⟩ := State.mbxSignal_shape ((s.setMbx ch { s.mbx ch with reply := s.onfBytes p, done := true, lastMore := p.more || p.evt }).emit (.onf ch p)) ch
      exact ⟨_, c, g, o, h⟩
  · exact ⟨_, _, _, _, rfl⟩

@[simp] theorem State.send_pending (ch : Nat) (p : OnfPkt) : (s.send ch p).pending = s.pending := by obtain ⟨_, _, _, _, h⟩ := s.send_shape ch p; rw [h]
@[simp] theorem State.send_freeCtr (ch : Nat) (p : OnfPkt) : (s.send ch p).freeCtr = s.freeCtr := by obtain ⟨_, _, _, _, h⟩ := s.send_shape ch p; rw [h]
@[simp] theorem State.send_regs (ch : Nat) (p : OnfPkt) : (s.send ch p).regs = s.regs := by obtain ⟨_, _, _, _, h⟩ := s.send_shape ch p; rw [h]
@[simp] theorem State.send_mem (ch : Nat) (p : OnfPkt) : (s.send ch p).mem = s.mem := by obtain ⟨_, _, _, _, h⟩ := s.send_shape ch p; rw [h]
@[simp] theorem State.send_hostMem (ch : Nat) (p : OnfPkt) : (s.send ch p).hostMem = s.hostMem := by obtain ⟨_, _, _, _, h⟩ := s.send_shape ch p; rw [h]
@[simp] theorem State.send_sys (ch : Nat) (p : OnfPkt) : (s.send ch p).sys = s.sys := by obtain ⟨_, _, _, _, h⟩ := s.send_shape ch p; rw [h]
@[simp] theorem State.send_qps (ch : Nat) (p : OnfPkt) : (s.send ch p).qps = s.qps := by obtain ⟨_, _, _, _, h⟩ := s.send_shape ch p; rw [h]
@[simp] theorem State.send_qf (ch : Nat) (p : OnfPkt) : (s.send ch p).qf = s.qf := by obtain ⟨_, _, _, _, h⟩ := s.send_shape ch p; rw [h]
@[simp] theorem State.send_shut (ch : Nat) (p : OnfPkt) : (s.send ch p).shut = s.shut := by obtain ⟨_, _, _, _, h⟩ := s.send_shape ch p; rw [h]
@[simp] theorem State.send_safe (ch : Nat) (p : OnfPkt) : (s.send ch p).safe = s.safe := by obtain ⟨_, _, _, _, h⟩ := s.send_shape ch p; rw [h]
@[simp] theorem State.send_selv (ch : Nat) (p : OnfPkt) : (s.send ch p).selv = s.selv := by obtain ⟨_, _, _, _, h⟩ := s.send_shape ch p; rw [h]
@[simp] theorem State.send_tape (ch : Nat) (p : OnfPkt) : (s.send ch p).tape = s.tape := by obtain ⟨_, _, _, _, h⟩ := s.send_shape ch p; rw [h]
@[simp] theorem State.send_tmu (ch : Nat) (p : OnfPkt) : (s.send ch p).tmu = s.tmu := by obtain ⟨_, _, _, _, h⟩ := s.send_shape ch p; rw [h]
@[simp] theorem State.send_engs (ch : Nat) (p : OnfPkt) : (s.send ch p).engs = s.engs := by obtain ⟨_, _, _, _, h⟩ := s.send_shape ch p; rw [h]
@[simp] theorem State.send_harts (ch : Nat) (p : OnfPkt) : (s.send ch p).harts = s.harts := by obtain ⟨_, _, _, _, h⟩ := s.send_shape ch p; rw [h]
@[simp] theorem State.send_spool (ch : Nat) (p : OnfPkt) : (s.send ch p).spool = s.spool := by obtain ⟨_, _, _, _, h⟩ := s.send_shape ch p; rw [h]
@[simp] theorem State.send_pow (ch : Nat) (p : OnfPkt) : (s.send ch p).pow = s.pow := by obtain ⟨_, _, _, _, h⟩ := s.send_shape ch p; rw [h]
@[simp] theorem State.send_spdm (ch : Nat) (p : OnfPkt) : (s.send ch p).spdm = s.spdm := by obtain ⟨_, _, _, _, h⟩ := s.send_shape ch p; rw [h]
@[simp] theorem State.send_gpio (ch : Nat) (p : OnfPkt) : (s.send ch p).gpio = s.gpio := by obtain ⟨_, _, _, _, h⟩ := s.send_shape ch p; rw [h]
@[simp] theorem State.send_links (ch : Nat) (p : OnfPkt) : (s.send ch p).links = s.links := by obtain ⟨_, _, _, _, h⟩ := s.send_shape ch p; rw [h]
@[simp] theorem State.send_dmc (ch : Nat) (p : OnfPkt) : (s.send ch p).dmc = s.dmc := by obtain ⟨_, _, _, _, h⟩ := s.send_shape ch p; rw [h]
@[simp] theorem State.send_imsic (ch : Nat) (p : OnfPkt) : (s.send ch p).imsic = s.imsic := by obtain ⟨_, _, _, _, h⟩ := s.send_shape ch p; rw [h]
@[simp] theorem State.send_aia (ch : Nat) (p : OnfPkt) : (s.send ch p).aia = s.aia := by obtain ⟨_, _, _, _, h⟩ := s.send_shape ch p; rw [h]

/-- All that `sendAll` can change. -/
theorem State.sendAll_shape (ch : Nat) (l : List OnfPkt) : ∃ (f₁ : OnfState) (c₁ : SMap FnCtx) (g₁ : GalvState) (o₁ : List OutEvent), s.sendAll ch l = { s with onf := f₁, fns := c₁, galv := g₁, out := o₁ } := by
  induction l generalizing s with
  | nil => exact ⟨_, _, _, _, rfl⟩
  | cons p l ih =>
    obtain ⟨f, c, g, o, h⟩ := State.send_shape s ch p
    obtain ⟨f', c', g', o', h'⟩ := ih (s.send ch p)
    exact ⟨f', c', g', o', by rw [State.sendAll, h', h]⟩

@[simp] theorem State.sendAll_pending (ch : Nat) (l : List OnfPkt) : (s.sendAll ch l).pending = s.pending := by obtain ⟨_, _, _, _, h⟩ := s.sendAll_shape ch l; rw [h]
@[simp] theorem State.sendAll_freeCtr (ch : Nat) (l : List OnfPkt) : (s.sendAll ch l).freeCtr = s.freeCtr := by obtain ⟨_, _, _, _, h⟩ := s.sendAll_shape ch l; rw [h]
@[simp] theorem State.sendAll_regs (ch : Nat) (l : List OnfPkt) : (s.sendAll ch l).regs = s.regs := by obtain ⟨_, _, _, _, h⟩ := s.sendAll_shape ch l; rw [h]
@[simp] theorem State.sendAll_mem (ch : Nat) (l : List OnfPkt) : (s.sendAll ch l).mem = s.mem := by obtain ⟨_, _, _, _, h⟩ := s.sendAll_shape ch l; rw [h]
@[simp] theorem State.sendAll_hostMem (ch : Nat) (l : List OnfPkt) : (s.sendAll ch l).hostMem = s.hostMem := by obtain ⟨_, _, _, _, h⟩ := s.sendAll_shape ch l; rw [h]
@[simp] theorem State.sendAll_sys (ch : Nat) (l : List OnfPkt) : (s.sendAll ch l).sys = s.sys := by obtain ⟨_, _, _, _, h⟩ := s.sendAll_shape ch l; rw [h]
@[simp] theorem State.sendAll_qps (ch : Nat) (l : List OnfPkt) : (s.sendAll ch l).qps = s.qps := by obtain ⟨_, _, _, _, h⟩ := s.sendAll_shape ch l; rw [h]
@[simp] theorem State.sendAll_qf (ch : Nat) (l : List OnfPkt) : (s.sendAll ch l).qf = s.qf := by obtain ⟨_, _, _, _, h⟩ := s.sendAll_shape ch l; rw [h]
@[simp] theorem State.sendAll_shut (ch : Nat) (l : List OnfPkt) : (s.sendAll ch l).shut = s.shut := by obtain ⟨_, _, _, _, h⟩ := s.sendAll_shape ch l; rw [h]
@[simp] theorem State.sendAll_safe (ch : Nat) (l : List OnfPkt) : (s.sendAll ch l).safe = s.safe := by obtain ⟨_, _, _, _, h⟩ := s.sendAll_shape ch l; rw [h]
@[simp] theorem State.sendAll_selv (ch : Nat) (l : List OnfPkt) : (s.sendAll ch l).selv = s.selv := by obtain ⟨_, _, _, _, h⟩ := s.sendAll_shape ch l; rw [h]
@[simp] theorem State.sendAll_tape (ch : Nat) (l : List OnfPkt) : (s.sendAll ch l).tape = s.tape := by obtain ⟨_, _, _, _, h⟩ := s.sendAll_shape ch l; rw [h]
@[simp] theorem State.sendAll_tmu (ch : Nat) (l : List OnfPkt) : (s.sendAll ch l).tmu = s.tmu := by obtain ⟨_, _, _, _, h⟩ := s.sendAll_shape ch l; rw [h]
@[simp] theorem State.sendAll_engs (ch : Nat) (l : List OnfPkt) : (s.sendAll ch l).engs = s.engs := by obtain ⟨_, _, _, _, h⟩ := s.sendAll_shape ch l; rw [h]
@[simp] theorem State.sendAll_harts (ch : Nat) (l : List OnfPkt) : (s.sendAll ch l).harts = s.harts := by obtain ⟨_, _, _, _, h⟩ := s.sendAll_shape ch l; rw [h]
@[simp] theorem State.sendAll_spool (ch : Nat) (l : List OnfPkt) : (s.sendAll ch l).spool = s.spool := by obtain ⟨_, _, _, _, h⟩ := s.sendAll_shape ch l; rw [h]
@[simp] theorem State.sendAll_pow (ch : Nat) (l : List OnfPkt) : (s.sendAll ch l).pow = s.pow := by obtain ⟨_, _, _, _, h⟩ := s.sendAll_shape ch l; rw [h]
@[simp] theorem State.sendAll_spdm (ch : Nat) (l : List OnfPkt) : (s.sendAll ch l).spdm = s.spdm := by obtain ⟨_, _, _, _, h⟩ := s.sendAll_shape ch l; rw [h]
@[simp] theorem State.sendAll_gpio (ch : Nat) (l : List OnfPkt) : (s.sendAll ch l).gpio = s.gpio := by obtain ⟨_, _, _, _, h⟩ := s.sendAll_shape ch l; rw [h]
@[simp] theorem State.sendAll_links (ch : Nat) (l : List OnfPkt) : (s.sendAll ch l).links = s.links := by obtain ⟨_, _, _, _, h⟩ := s.sendAll_shape ch l; rw [h]
@[simp] theorem State.sendAll_dmc (ch : Nat) (l : List OnfPkt) : (s.sendAll ch l).dmc = s.dmc := by obtain ⟨_, _, _, _, h⟩ := s.sendAll_shape ch l; rw [h]
@[simp] theorem State.sendAll_imsic (ch : Nat) (l : List OnfPkt) : (s.sendAll ch l).imsic = s.imsic := by obtain ⟨_, _, _, _, h⟩ := s.sendAll_shape ch l; rw [h]
@[simp] theorem State.sendAll_aia (ch : Nat) (l : List OnfPkt) : (s.sendAll ch l).aia = s.aia := by obtain ⟨_, _, _, _, h⟩ := s.sendAll_shape ch l; rw [h]

/-- All that `reply` can change. -/
theorem State.reply_shape (r : OnfReq) (op st : Nat) (b : List Byte) : ∃ (f₁ : OnfState) (c₁ : SMap FnCtx) (g₁ : GalvState) (o₁ : List OutEvent), s.reply r op st b = { s with onf := f₁, fns := c₁, galv := g₁, out := o₁ } := by
  unfold State.reply
  dsimp only
  split
  · exact ⟨_, _, _, _, rfl⟩
  · exact State.sendAll_shape ..

@[simp] theorem State.reply_pending (r : OnfReq) (op st : Nat) (b : List Byte) : (s.reply r op st b).pending = s.pending := by obtain ⟨_, _, _, _, h⟩ := s.reply_shape r op st b; rw [h]
@[simp] theorem State.reply_freeCtr (r : OnfReq) (op st : Nat) (b : List Byte) : (s.reply r op st b).freeCtr = s.freeCtr := by obtain ⟨_, _, _, _, h⟩ := s.reply_shape r op st b; rw [h]
@[simp] theorem State.reply_regs (r : OnfReq) (op st : Nat) (b : List Byte) : (s.reply r op st b).regs = s.regs := by obtain ⟨_, _, _, _, h⟩ := s.reply_shape r op st b; rw [h]
@[simp] theorem State.reply_mem (r : OnfReq) (op st : Nat) (b : List Byte) : (s.reply r op st b).mem = s.mem := by obtain ⟨_, _, _, _, h⟩ := s.reply_shape r op st b; rw [h]
@[simp] theorem State.reply_hostMem (r : OnfReq) (op st : Nat) (b : List Byte) : (s.reply r op st b).hostMem = s.hostMem := by obtain ⟨_, _, _, _, h⟩ := s.reply_shape r op st b; rw [h]
@[simp] theorem State.reply_sys (r : OnfReq) (op st : Nat) (b : List Byte) : (s.reply r op st b).sys = s.sys := by obtain ⟨_, _, _, _, h⟩ := s.reply_shape r op st b; rw [h]
@[simp] theorem State.reply_qps (r : OnfReq) (op st : Nat) (b : List Byte) : (s.reply r op st b).qps = s.qps := by obtain ⟨_, _, _, _, h⟩ := s.reply_shape r op st b; rw [h]
@[simp] theorem State.reply_qf (r : OnfReq) (op st : Nat) (b : List Byte) : (s.reply r op st b).qf = s.qf := by obtain ⟨_, _, _, _, h⟩ := s.reply_shape r op st b; rw [h]
@[simp] theorem State.reply_shut (r : OnfReq) (op st : Nat) (b : List Byte) : (s.reply r op st b).shut = s.shut := by obtain ⟨_, _, _, _, h⟩ := s.reply_shape r op st b; rw [h]
@[simp] theorem State.reply_safe (r : OnfReq) (op st : Nat) (b : List Byte) : (s.reply r op st b).safe = s.safe := by obtain ⟨_, _, _, _, h⟩ := s.reply_shape r op st b; rw [h]
@[simp] theorem State.reply_selv (r : OnfReq) (op st : Nat) (b : List Byte) : (s.reply r op st b).selv = s.selv := by obtain ⟨_, _, _, _, h⟩ := s.reply_shape r op st b; rw [h]
@[simp] theorem State.reply_tape (r : OnfReq) (op st : Nat) (b : List Byte) : (s.reply r op st b).tape = s.tape := by obtain ⟨_, _, _, _, h⟩ := s.reply_shape r op st b; rw [h]
@[simp] theorem State.reply_tmu (r : OnfReq) (op st : Nat) (b : List Byte) : (s.reply r op st b).tmu = s.tmu := by obtain ⟨_, _, _, _, h⟩ := s.reply_shape r op st b; rw [h]
@[simp] theorem State.reply_engs (r : OnfReq) (op st : Nat) (b : List Byte) : (s.reply r op st b).engs = s.engs := by obtain ⟨_, _, _, _, h⟩ := s.reply_shape r op st b; rw [h]
@[simp] theorem State.reply_harts (r : OnfReq) (op st : Nat) (b : List Byte) : (s.reply r op st b).harts = s.harts := by obtain ⟨_, _, _, _, h⟩ := s.reply_shape r op st b; rw [h]
@[simp] theorem State.reply_spool (r : OnfReq) (op st : Nat) (b : List Byte) : (s.reply r op st b).spool = s.spool := by obtain ⟨_, _, _, _, h⟩ := s.reply_shape r op st b; rw [h]
@[simp] theorem State.reply_pow (r : OnfReq) (op st : Nat) (b : List Byte) : (s.reply r op st b).pow = s.pow := by obtain ⟨_, _, _, _, h⟩ := s.reply_shape r op st b; rw [h]
@[simp] theorem State.reply_spdm (r : OnfReq) (op st : Nat) (b : List Byte) : (s.reply r op st b).spdm = s.spdm := by obtain ⟨_, _, _, _, h⟩ := s.reply_shape r op st b; rw [h]
@[simp] theorem State.reply_gpio (r : OnfReq) (op st : Nat) (b : List Byte) : (s.reply r op st b).gpio = s.gpio := by obtain ⟨_, _, _, _, h⟩ := s.reply_shape r op st b; rw [h]
@[simp] theorem State.reply_links (r : OnfReq) (op st : Nat) (b : List Byte) : (s.reply r op st b).links = s.links := by obtain ⟨_, _, _, _, h⟩ := s.reply_shape r op st b; rw [h]
@[simp] theorem State.reply_dmc (r : OnfReq) (op st : Nat) (b : List Byte) : (s.reply r op st b).dmc = s.dmc := by obtain ⟨_, _, _, _, h⟩ := s.reply_shape r op st b; rw [h]
@[simp] theorem State.reply_imsic (r : OnfReq) (op st : Nat) (b : List Byte) : (s.reply r op st b).imsic = s.imsic := by obtain ⟨_, _, _, _, h⟩ := s.reply_shape r op st b; rw [h]
@[simp] theorem State.reply_aia (r : OnfReq) (op st : Nat) (b : List Byte) : (s.reply r op st b).aia = s.aia := by obtain ⟨_, _, _, _, h⟩ := s.reply_shape r op st b; rw [h]

/-- All that `refuseReply` can change. -/
theorem State.refuseReply_shape (r : OnfReq) (op st : Nat) : ∃ (f₁ : OnfState) (c₁ : SMap FnCtx) (g₁ : GalvState) (o₁ : List OutEvent), s.refuseReply r op st = { s with onf := f₁, fns := c₁, galv := g₁, out := o₁ } := State.sendAll_shape ..

@[simp] theorem State.refuseReply_pending (r : OnfReq) (op st : Nat) : (s.refuseReply r op st).pending = s.pending := by obtain ⟨_, _, _, _, h⟩ := s.refuseReply_shape r op st; rw [h]
@[simp] theorem State.refuseReply_freeCtr (r : OnfReq) (op st : Nat) : (s.refuseReply r op st).freeCtr = s.freeCtr := by obtain ⟨_, _, _, _, h⟩ := s.refuseReply_shape r op st; rw [h]
@[simp] theorem State.refuseReply_regs (r : OnfReq) (op st : Nat) : (s.refuseReply r op st).regs = s.regs := by obtain ⟨_, _, _, _, h⟩ := s.refuseReply_shape r op st; rw [h]
@[simp] theorem State.refuseReply_mem (r : OnfReq) (op st : Nat) : (s.refuseReply r op st).mem = s.mem := by obtain ⟨_, _, _, _, h⟩ := s.refuseReply_shape r op st; rw [h]
@[simp] theorem State.refuseReply_hostMem (r : OnfReq) (op st : Nat) : (s.refuseReply r op st).hostMem = s.hostMem := by obtain ⟨_, _, _, _, h⟩ := s.refuseReply_shape r op st; rw [h]
@[simp] theorem State.refuseReply_sys (r : OnfReq) (op st : Nat) : (s.refuseReply r op st).sys = s.sys := by obtain ⟨_, _, _, _, h⟩ := s.refuseReply_shape r op st; rw [h]
@[simp] theorem State.refuseReply_qps (r : OnfReq) (op st : Nat) : (s.refuseReply r op st).qps = s.qps := by obtain ⟨_, _, _, _, h⟩ := s.refuseReply_shape r op st; rw [h]
@[simp] theorem State.refuseReply_qf (r : OnfReq) (op st : Nat) : (s.refuseReply r op st).qf = s.qf := by obtain ⟨_, _, _, _, h⟩ := s.refuseReply_shape r op st; rw [h]
@[simp] theorem State.refuseReply_shut (r : OnfReq) (op st : Nat) : (s.refuseReply r op st).shut = s.shut := by obtain ⟨_, _, _, _, h⟩ := s.refuseReply_shape r op st; rw [h]
@[simp] theorem State.refuseReply_safe (r : OnfReq) (op st : Nat) : (s.refuseReply r op st).safe = s.safe := by obtain ⟨_, _, _, _, h⟩ := s.refuseReply_shape r op st; rw [h]
@[simp] theorem State.refuseReply_selv (r : OnfReq) (op st : Nat) : (s.refuseReply r op st).selv = s.selv := by obtain ⟨_, _, _, _, h⟩ := s.refuseReply_shape r op st; rw [h]
@[simp] theorem State.refuseReply_tape (r : OnfReq) (op st : Nat) : (s.refuseReply r op st).tape = s.tape := by obtain ⟨_, _, _, _, h⟩ := s.refuseReply_shape r op st; rw [h]
@[simp] theorem State.refuseReply_tmu (r : OnfReq) (op st : Nat) : (s.refuseReply r op st).tmu = s.tmu := by obtain ⟨_, _, _, _, h⟩ := s.refuseReply_shape r op st; rw [h]
@[simp] theorem State.refuseReply_engs (r : OnfReq) (op st : Nat) : (s.refuseReply r op st).engs = s.engs := by obtain ⟨_, _, _, _, h⟩ := s.refuseReply_shape r op st; rw [h]
@[simp] theorem State.refuseReply_harts (r : OnfReq) (op st : Nat) : (s.refuseReply r op st).harts = s.harts := by obtain ⟨_, _, _, _, h⟩ := s.refuseReply_shape r op st; rw [h]
@[simp] theorem State.refuseReply_spool (r : OnfReq) (op st : Nat) : (s.refuseReply r op st).spool = s.spool := by obtain ⟨_, _, _, _, h⟩ := s.refuseReply_shape r op st; rw [h]
@[simp] theorem State.refuseReply_pow (r : OnfReq) (op st : Nat) : (s.refuseReply r op st).pow = s.pow := by obtain ⟨_, _, _, _, h⟩ := s.refuseReply_shape r op st; rw [h]
@[simp] theorem State.refuseReply_spdm (r : OnfReq) (op st : Nat) : (s.refuseReply r op st).spdm = s.spdm := by obtain ⟨_, _, _, _, h⟩ := s.refuseReply_shape r op st; rw [h]
@[simp] theorem State.refuseReply_gpio (r : OnfReq) (op st : Nat) : (s.refuseReply r op st).gpio = s.gpio := by obtain ⟨_, _, _, _, h⟩ := s.refuseReply_shape r op st; rw [h]
@[simp] theorem State.refuseReply_links (r : OnfReq) (op st : Nat) : (s.refuseReply r op st).links = s.links := by obtain ⟨_, _, _, _, h⟩ := s.refuseReply_shape r op st; rw [h]
@[simp] theorem State.refuseReply_dmc (r : OnfReq) (op st : Nat) : (s.refuseReply r op st).dmc = s.dmc := by obtain ⟨_, _, _, _, h⟩ := s.refuseReply_shape r op st; rw [h]
@[simp] theorem State.refuseReply_imsic (r : OnfReq) (op st : Nat) : (s.refuseReply r op st).imsic = s.imsic := by obtain ⟨_, _, _, _, h⟩ := s.refuseReply_shape r op st; rw [h]
@[simp] theorem State.refuseReply_aia (r : OnfReq) (op st : Nat) : (s.refuseReply r op st).aia = s.aia := by obtain ⟨_, _, _, _, h⟩ := s.refuseReply_shape r op st; rw [h]

/-- All that `mirrorCtr` can change. -/
theorem State.mirrorCtr_shape (r : OnfReq) : ∃ (f₁ : OnfState) (g₁ : GalvState) (o₁ : List OutEvent), s.mirrorCtr r = { s with onf := f₁, galv := g₁, out := o₁ } := by
  unfold State.mirrorCtr
  split
  · split
    · exact ⟨_, _, _, rfl⟩
    · exact ⟨_, _, _, rfl⟩
  · exact ⟨_, _, _, rfl⟩

@[simp] theorem State.mirrorCtr_pending (r : OnfReq) : (s.mirrorCtr r).pending = s.pending := by obtain ⟨_, _, _, h⟩ := s.mirrorCtr_shape r; rw [h]
@[simp] theorem State.mirrorCtr_freeCtr (r : OnfReq) : (s.mirrorCtr r).freeCtr = s.freeCtr := by obtain ⟨_, _, _, h⟩ := s.mirrorCtr_shape r; rw [h]
@[simp] theorem State.mirrorCtr_regs (r : OnfReq) : (s.mirrorCtr r).regs = s.regs := by obtain ⟨_, _, _, h⟩ := s.mirrorCtr_shape r; rw [h]
@[simp] theorem State.mirrorCtr_mem (r : OnfReq) : (s.mirrorCtr r).mem = s.mem := by obtain ⟨_, _, _, h⟩ := s.mirrorCtr_shape r; rw [h]
@[simp] theorem State.mirrorCtr_hostMem (r : OnfReq) : (s.mirrorCtr r).hostMem = s.hostMem := by obtain ⟨_, _, _, h⟩ := s.mirrorCtr_shape r; rw [h]
@[simp] theorem State.mirrorCtr_sys (r : OnfReq) : (s.mirrorCtr r).sys = s.sys := by obtain ⟨_, _, _, h⟩ := s.mirrorCtr_shape r; rw [h]
@[simp] theorem State.mirrorCtr_qps (r : OnfReq) : (s.mirrorCtr r).qps = s.qps := by obtain ⟨_, _, _, h⟩ := s.mirrorCtr_shape r; rw [h]
@[simp] theorem State.mirrorCtr_fns (r : OnfReq) : (s.mirrorCtr r).fns = s.fns := by obtain ⟨_, _, _, h⟩ := s.mirrorCtr_shape r; rw [h]
@[simp] theorem State.mirrorCtr_qf (r : OnfReq) : (s.mirrorCtr r).qf = s.qf := by obtain ⟨_, _, _, h⟩ := s.mirrorCtr_shape r; rw [h]
@[simp] theorem State.mirrorCtr_shut (r : OnfReq) : (s.mirrorCtr r).shut = s.shut := by obtain ⟨_, _, _, h⟩ := s.mirrorCtr_shape r; rw [h]
@[simp] theorem State.mirrorCtr_safe (r : OnfReq) : (s.mirrorCtr r).safe = s.safe := by obtain ⟨_, _, _, h⟩ := s.mirrorCtr_shape r; rw [h]
@[simp] theorem State.mirrorCtr_selv (r : OnfReq) : (s.mirrorCtr r).selv = s.selv := by obtain ⟨_, _, _, h⟩ := s.mirrorCtr_shape r; rw [h]
@[simp] theorem State.mirrorCtr_tape (r : OnfReq) : (s.mirrorCtr r).tape = s.tape := by obtain ⟨_, _, _, h⟩ := s.mirrorCtr_shape r; rw [h]
@[simp] theorem State.mirrorCtr_tmu (r : OnfReq) : (s.mirrorCtr r).tmu = s.tmu := by obtain ⟨_, _, _, h⟩ := s.mirrorCtr_shape r; rw [h]
@[simp] theorem State.mirrorCtr_engs (r : OnfReq) : (s.mirrorCtr r).engs = s.engs := by obtain ⟨_, _, _, h⟩ := s.mirrorCtr_shape r; rw [h]
@[simp] theorem State.mirrorCtr_harts (r : OnfReq) : (s.mirrorCtr r).harts = s.harts := by obtain ⟨_, _, _, h⟩ := s.mirrorCtr_shape r; rw [h]
@[simp] theorem State.mirrorCtr_spool (r : OnfReq) : (s.mirrorCtr r).spool = s.spool := by obtain ⟨_, _, _, h⟩ := s.mirrorCtr_shape r; rw [h]
@[simp] theorem State.mirrorCtr_pow (r : OnfReq) : (s.mirrorCtr r).pow = s.pow := by obtain ⟨_, _, _, h⟩ := s.mirrorCtr_shape r; rw [h]
@[simp] theorem State.mirrorCtr_spdm (r : OnfReq) : (s.mirrorCtr r).spdm = s.spdm := by obtain ⟨_, _, _, h⟩ := s.mirrorCtr_shape r; rw [h]
@[simp] theorem State.mirrorCtr_gpio (r : OnfReq) : (s.mirrorCtr r).gpio = s.gpio := by obtain ⟨_, _, _, h⟩ := s.mirrorCtr_shape r; rw [h]
@[simp] theorem State.mirrorCtr_links (r : OnfReq) : (s.mirrorCtr r).links = s.links := by obtain ⟨_, _, _, h⟩ := s.mirrorCtr_shape r; rw [h]
@[simp] theorem State.mirrorCtr_dmc (r : OnfReq) : (s.mirrorCtr r).dmc = s.dmc := by obtain ⟨_, _, _, h⟩ := s.mirrorCtr_shape r; rw [h]
@[simp] theorem State.mirrorCtr_imsic (r : OnfReq) : (s.mirrorCtr r).imsic = s.imsic := by obtain ⟨_, _, _, h⟩ := s.mirrorCtr_shape r; rw [h]
@[simp] theorem State.mirrorCtr_aia (r : OnfReq) : (s.mirrorCtr r).aia = s.aia := by obtain ⟨_, _, _, h⟩ := s.mirrorCtr_shape r; rw [h]

/-- All that `taken` can change. -/
theorem State.taken_shape (r : OnfReq) : ∃ (f₁ : OnfState) (g₁ : GalvState) (o₁ : List OutEvent), s.taken r = { s with onf := f₁, galv := g₁, out := o₁ } := by
  unfold State.taken
  split
  · split
    · next slot k _ =>
      obtain ⟨f, g, o, h⟩ := State.mirrorCtr_shape (s.setCtr slot k r.ctr) r
      exact ⟨f, g, o, h⟩
    · exact ⟨_, _, _, rfl⟩
  · exact ⟨_, _, _, rfl⟩

@[simp] theorem State.taken_pending (r : OnfReq) : (s.taken r).pending = s.pending := by obtain ⟨_, _, _, h⟩ := s.taken_shape r; rw [h]
@[simp] theorem State.taken_freeCtr (r : OnfReq) : (s.taken r).freeCtr = s.freeCtr := by obtain ⟨_, _, _, h⟩ := s.taken_shape r; rw [h]
@[simp] theorem State.taken_regs (r : OnfReq) : (s.taken r).regs = s.regs := by obtain ⟨_, _, _, h⟩ := s.taken_shape r; rw [h]
@[simp] theorem State.taken_mem (r : OnfReq) : (s.taken r).mem = s.mem := by obtain ⟨_, _, _, h⟩ := s.taken_shape r; rw [h]
@[simp] theorem State.taken_hostMem (r : OnfReq) : (s.taken r).hostMem = s.hostMem := by obtain ⟨_, _, _, h⟩ := s.taken_shape r; rw [h]
@[simp] theorem State.taken_sys (r : OnfReq) : (s.taken r).sys = s.sys := by obtain ⟨_, _, _, h⟩ := s.taken_shape r; rw [h]
@[simp] theorem State.taken_qps (r : OnfReq) : (s.taken r).qps = s.qps := by obtain ⟨_, _, _, h⟩ := s.taken_shape r; rw [h]
@[simp] theorem State.taken_fns (r : OnfReq) : (s.taken r).fns = s.fns := by obtain ⟨_, _, _, h⟩ := s.taken_shape r; rw [h]
@[simp] theorem State.taken_qf (r : OnfReq) : (s.taken r).qf = s.qf := by obtain ⟨_, _, _, h⟩ := s.taken_shape r; rw [h]
@[simp] theorem State.taken_shut (r : OnfReq) : (s.taken r).shut = s.shut := by obtain ⟨_, _, _, h⟩ := s.taken_shape r; rw [h]
@[simp] theorem State.taken_safe (r : OnfReq) : (s.taken r).safe = s.safe := by obtain ⟨_, _, _, h⟩ := s.taken_shape r; rw [h]
@[simp] theorem State.taken_selv (r : OnfReq) : (s.taken r).selv = s.selv := by obtain ⟨_, _, _, h⟩ := s.taken_shape r; rw [h]
@[simp] theorem State.taken_tape (r : OnfReq) : (s.taken r).tape = s.tape := by obtain ⟨_, _, _, h⟩ := s.taken_shape r; rw [h]
@[simp] theorem State.taken_tmu (r : OnfReq) : (s.taken r).tmu = s.tmu := by obtain ⟨_, _, _, h⟩ := s.taken_shape r; rw [h]
@[simp] theorem State.taken_engs (r : OnfReq) : (s.taken r).engs = s.engs := by obtain ⟨_, _, _, h⟩ := s.taken_shape r; rw [h]
@[simp] theorem State.taken_harts (r : OnfReq) : (s.taken r).harts = s.harts := by obtain ⟨_, _, _, h⟩ := s.taken_shape r; rw [h]
@[simp] theorem State.taken_spool (r : OnfReq) : (s.taken r).spool = s.spool := by obtain ⟨_, _, _, h⟩ := s.taken_shape r; rw [h]
@[simp] theorem State.taken_pow (r : OnfReq) : (s.taken r).pow = s.pow := by obtain ⟨_, _, _, h⟩ := s.taken_shape r; rw [h]
@[simp] theorem State.taken_spdm (r : OnfReq) : (s.taken r).spdm = s.spdm := by obtain ⟨_, _, _, h⟩ := s.taken_shape r; rw [h]
@[simp] theorem State.taken_gpio (r : OnfReq) : (s.taken r).gpio = s.gpio := by obtain ⟨_, _, _, h⟩ := s.taken_shape r; rw [h]
@[simp] theorem State.taken_links (r : OnfReq) : (s.taken r).links = s.links := by obtain ⟨_, _, _, h⟩ := s.taken_shape r; rw [h]
@[simp] theorem State.taken_dmc (r : OnfReq) : (s.taken r).dmc = s.dmc := by obtain ⟨_, _, _, h⟩ := s.taken_shape r; rw [h]
@[simp] theorem State.taken_imsic (r : OnfReq) : (s.taken r).imsic = s.imsic := by obtain ⟨_, _, _, h⟩ := s.taken_shape r; rw [h]
@[simp] theorem State.taken_aia (r : OnfReq) : (s.taken r).aia = s.aia := by obtain ⟨_, _, _, h⟩ := s.taken_shape r; rw [h]

end Sys2Proof.Machine
end

