-- ==== Sys2Proof/WellFormed.lean ====
section
/-!
DEFINITION. WellFormed.lean: which commands are well formed: numbers that name a thing lie in the range that the spec gives it. A command
outside names nothing in the device; the meanings are total and do not rest on this check.
-/

namespace Sys2Proof

/-- A channel of R34: 0–31 PF mailboxes, 32 management port, 33 BMC, 34 Shell door, 35 Lining door. -/
def chanOk (ch : Nat) : Bool := decide (ch < 36)

/-- A Bobbin engine number (R14, R342): 32. -/
def engineOk (e : Nat) : Bool := decide (e < 32)

/-- A hart (R13): 64. -/
def hartOk (h : Nat) : Bool := decide (h < 64)

/-- A panel, with its Selvedge pipeline: four. -/
def panelOk (p : Nat) : Bool := decide (p < 4)

/-- A queue pair of the pool, a local channel LC0–LC255, or a ring adopted from the peer. -/
def ringOk (q : Nat) : Bool := decide (q < 65792) || (decide (131072 ≤ q) && decide (q < 196608))

/-- A function: VF contexts 0–0xFFF, PFs 0x1000–0x101F (Table 03-8). -/
def functionOk (f : Nat) : Bool := decide (f < 0x1020)

/-- A host port: 32. -/
def hostPortOk (n : Nat) : Bool := decide (n < 32)

/-- An Ethernet port: 48 lanes. -/
def ethPortOk (n : Nat) : Bool := decide (n < 48)

/-- A back-end queue: 256. -/
def beqOk (b : Nat) : Bool := decide (b < 256)

/-- A timer (R389): 64. -/
def timerOk (t : Nat) : Bool := decide (t < 64)

/-- A power unit (Table 15-1): 52. -/
def unitOk (u : Nat) : Bool := decide (u < 52)

/-- A DDR controller: eight. -/
def controllerOk (c : Nat) : Bool := decide (c < 8)

/-- A requester (Table 10-1). -/
def Agent.wf : Agent → Bool
  | .hart h => hartOk h
  | .bobbin e => engineOk e
  | .localChannel n => decide (n < 256)
  | .host f => functionOk f
  | .shuttle f => functionOk f
  | .selvedge p => panelOk p
  | .queueTile p => panelOk p
  | .tape => true
  | .debug _ => true

/-- The header fields of a request (Table 02-2). -/
def OnfReq.wf (r : OnfReq) : Bool :=
  chanOk r.ch && decide (r.sender < 2 ^ 32) && decide (r.seq < 2 ^ 32) && decide (r.tag < 2 ^ 32) && decide (r.ctr < 2 ^ 64)

/-- A register write's target: control space is 256 MiB (R30). -/
def RegTarget.wf : RegTarget → Bool
  | .ctl off => decide (off < 2 ^ 28)
  | .bar f _ => functionOk f

/-- A PLL (R22). -/
def Pll.wf : Pll → Bool
  | .eth => true
  | .ddr c => controllerOk c

/-- A fault's place (Table 08-12). -/
def FaultInfo.wf (x : FaultInfo) : Bool := decide (x.mech < 16) && decide (1 ≤ x.cls) && decide (x.cls ≤ 5) && panelOk x.panel

/-- A PTP event message's fields (R404). -/
def PtpMsg.wf (m : PtpMsg) : Bool := decide (m.seqId < 65536) && decide (m.msgType < 16) && decide (m.domain < 256) && ethPortOk m.port

/-- A command is well formed. -/
def Instr.wf : Instr → Bool
  | .bMov e _ _ | .bAdd e _ _ | .bAdc e _ _ | .bSub e _ _ | .bSbc e _ _ | .bAnd e _ _ | .bOr e _ _ | .bXor e _ _ | .bCmp e _ _ | .bTst e _ _
  | .bMovi e _ _ | .bAddi e _ _ | .bAdci e _ _ | .bSubi e _ _ | .bSbci e _ _ | .bAndi e _ _ | .bOri e _ _ | .bXori e _ _ | .bCmpi e _ _
  | .bTsti e _ _ | .bBset e _ _ | .bBclr e _ _ | .bBtgl e _ _ | .bBtst e _ _ | .bNot e _ _ | .bNeg e _ _ | .bShl e _ _ | .bShr e _ _
  | .bSar e _ _ | .bRol e _ _ | .bRor e _ _ | .bBrev e _ _ | .bPar e _ _ | .bClz e _ _ | .bSwapb e _ _ | .bLdi e _ _ | .bLd e _ _ _
  | .bSt e _ _ _ | .bIn e _ _ _ | .bOut e _ _ _ | .bBcc e _ _ | .bJmp e _ _ _ | .bJmpr e _ _ | .bCall e _ _ _ _ | .bCallr e _ _ _
  | .bRet e _ _ _ | .bIret e _ _ | .bLdL e _ _ _ | .bStL e _ _ _ | .bLdd e _ _ _ | .bStd e _ _ _ | .bInL e _ _ _ | .bOutL e _ _ _
  | .bInd e _ _ _ | .bOutd e _ _ _ | .bLdp e _ _ _ | .bStp e _ _ _ | .bLdi16 e _ _ _ | .bAddi16 e _ _ _ | .bCmpi16 e _ _ _ | .bCrc32c e _ _
  | .bCrc32cb e _ _ | .bCrc16 e _ _ | .bCrc16b e _ _ | .bParx e _ _ | .bMul e _ _ | .bMuls e _ _ | .bMull e _ _ | .bDiv e _ _ | .bDivs e _ _
  | .bSetf e _ _ | .bClrf e _ _ | .bEi e _ _ | .bDi e _ _ | .bWait e _ _ | .bWaitTimeout e | .bMvbk e _ _ | .bMvkb e _ _ | .bTrap e _ _
  | .bHalt e _ _ | .bNop e _ _ | .bRdf e _ _ | .bWrf e _ _ | .bSync e _ _ | .shaInit e _ | .shaUpdate e _ | .shaFinal e _ | .aesEncrypt e _
  | .aesDecrypt e _ | .aesTag e _ | .modmul e _ | .modexp e _ | .modinv e _ | .p384Mul e _ | .ntt e _ | .intt e _ | .polymul e _ | .crcRun e _
  | .descriptorParse e _ | .rportRead e | .rportWrite e | .mailboxReceive e | .localTimerMatch e | .storeBufferDrain e | .muldivResult e => engineOk e
  | .cpw e port _ _ | .cpr e port _ _ | .coprocessorDone e port => engineOk e && decide (port < 16)
  | .registerWrite who tgt _ _ => who.wf && tgt.wf
  | .powerOnReset | .rootpllLock | .warmRelease | .sysRstPin .. | .warmReset .. | .refclkLoss .. | .rootpllRelockHoldEnd | .ceilingWriteRetry ..
  | .devResetDelayExpiry | .stitchEdge | .stitchConfirmTimeout | .basteIdleTimeout | .twinPairTimeout | .twinSyncComplete | .handoffEdge
  | .releaseComplete | .recoveryResetDelay | .bucketRefill | .stitchDataWritten .. | .atsCompletion .. | .cplTimeout .. | .iotinvalVma ..
  | .iotinvalGvma .. | .iodirInvalDdt .. | .iodirInvalPdt .. | .iofenceC .. | .lfltTimeout .. | .learnIdleExpiry .. | .ctTimeout ..
  | .selvSweepComplete | .tapeBankFlip | .qpSlotTick | .tapeDrain | .tapeRecordWrite | .peerMarkerTimeout | .cutMarker .. | .correctedError
  | .deviceWatchdogExpiry | .voltageMonitorTrip .. | .galvelFlitReceive .. | .galvelAckTimeout | .galvelLinkTrained .. | .heartbeatSend
  | .heartbeatTimeout | .wmark | .goodbye | .twinFaultInRise | .aliveLoss | .settleExpiry | .fenceInRise | .fenceInFall | .fenceHoldExpiry
  | .thimbleStart | .thimbleBodyVerdict | .bistComplete .. | .ddrTrainingComplete .. | .bootWatchdogExpiry | .fuseBurnComplete .. | .thermtrip
  | .porNFall | .systemBusAccess .. => true
  | .topResetWarm who _ | .shutLresp who _ | .keyLoad who _ | .keyClear who _ | .selvTwReadLive who _ _ | .selvTwReadStaged who _ _
  | .selvTwAdd who _ _ | .selvTwModify who _ _ | .selvTwDelete who _ _ | .tapeHeadWrite who _ | .safeWdogKick who _ | .safeWdogEnable who _
  | .safeInject who _ | .claimHartWrite who _ | .claimBlkWrite who _ | .gpioWorldWrite who _ | .scCtlInv who _ | .scCtlEnable who _
  | .spoolUngate who _ | .spoolRetry who _ | .spoolFail who _ | .fuseBurnKeyhash who _ | .fuseBurnRevoke who _ | .fuseBurnSvnT who _
  | .fuseBurnSvnP who _ | .fuseBurnDebugPolicy who _ | .fuseBurnFactoryKeyOff who _ | .tmuGo who _ | .tmuHalt who _ | .tmuSnap who _
  | .t00Step who _ | .pwrReqBask who _ | .pwrReqDoze who _ | .pwrReqBrumate who _ | .pwrReqHold who _ | .croak who _ | .holdEnter who _
  | .scanRead who => who.wf
  | .pllLockLoss pll | .pllLockRegain pll => pll.wf
  | .coreclkStepDown p | .coreclkStepUp p => panelOk p
  | .perstAssert n | .hostPortTrained n | .getVersion n | .getCapabilities n | .negotiateAlgorithms n _ | .getDigests n
  | .getCertificate n _ _ _ | .challenge n _ _ | .getMeasurements n _ _ _ | .keyExchange n _ | .finish n _ _ | .keyUpdate n _ _
  | .spdmHeartbeat n _ | .endSession n _ | .ptmRequest n | .ptmResponse n _ _ _ => hostPortOk n
  | .functionLevelReset f | .doorbellWrite f _ _ _ | .qpEnable f _ | .qpDisable f _ | .queueWindowWrite f _ _ _ | .vfFstatEvtEnWrite f _
  | .msixVectorUnmask f _ | .virtioFeaturesOk f _ | .virtioDeviceReset f | .nvmeEnable f _ | .nvmeDisable f | .rxPromisc f _ | .rxAllmulti f _
  | .macTableSet f _ _ | .vlanAdd f _ | .mqVqPairsSet f _ | .mqRssConfig f _ _ _ _ | .mqHashConfig f _ _ | .ctrlVqOther f _ _
  | .nvmeIdentify f _ _ _ _ | .nvmeGetLogPage f _ _ _ _ | .nvmeSetFeatures f _ _ _ | .nvmeGetFeatures f _ _ | .nvmeCreateIoSq f _ _ _ _ _
  | .nvmeCreateIoCq f _ _ _ _ _ _ | .nvmeDeleteIoSq f _ _ | .nvmeDeleteIoCq f _ _ | .nvmeAbort f _ _ _ | .nvmeAsyncEventRequest f _
  | .nvmeDoorbellBufferConfig f _ _ _ | .nvmeKeepAlive f _ | .atsInvalidate f _ _ _ | .pageRequestResponse f _ _ | .priTimeout f _
  | .configSpaceWrite f _ => functionOk f
  | .onafaetPacketArrival ch _ | .qpQuiesceTimeout ch _ => chanOk ch
  | .mailboxGo ch who | .mailboxDoneClear ch who => chanOk ch && who.wf
  | .evtPacketSend ch cls => chanOk ch && decide (cls < 10)
  | .devInfo r | .devReset r _ _ | .evtSubscribe r _ | .fnConfig r _ | .qpSchedFunction r _ _ _ | .qpSchedAccount r _ _ | .basteOpen r _
  | .basteWrite r _ _ | .basteCheck r _ | .stitchImmediate r _ | .stitchAtTime r _ _ | .stitchAtMinute r _ | .basteAbort r _ | .basteStatus r _
  | .tapeRead r _ _ | .tapeMapEnable r _ _ | .tapeRing r _ _ _ | .twinPairPair r _ _ _ | .twinPairUnpair r | .twinPairRejoin r _ _ _
  | .twinHandoffSwap r _ | .twinHandoffRelease r _ | .twinHandoffReturn r _ | .twinGate r _ _ | .fwWriteImage r _ _ _ | .fwWriteConfig r _ _
  | .fwActivateSlot r _ | .fwActivateWithdraw r _ | .recovery r _ _ _ _ | .pwrSetBask r _ _ | .pwrSetDoze r _ _ | .pwrSetBrumate r _ _
  | .pwrSetHold r _ _ | .pwrStatus r | .moultRunPeriod r _ | .moultRunFullrate r | .moultStatus r | .keySenderInstall r _ _ _ _ _ _
  | .keySenderRevoke r _ _ _ | .attest r _ _ | .debugUnlockOpen r _ _ | .debugUnlockClose r _ _ | .selvWriteAdd r _ _ _
  | .selvWriteModify r _ _ _ | .selvWriteDelete r _ _ _ | .selvRead r _ _ _ | .oemCommand r _ _ => r.wf
  | .fnReset r f | .qpGrant r f _ _ _ _ | .qpRevoke r f _ _ | .qpQuiesce r f _ _ _ _ | .qpResume r f _ _ => r.wf && functionOk f
  | .rwbRegisterWrite h _ _ _ | .mworldWrite h _ _ | .htapeacctWrite h _ _ | .mcachectlInv h _ _ | .mcachectlWbinv h _ _
  | .mcachectlEnable h _ _ | .mpowerreqWrite h _ _ | .cboClean h _ | .cboFlush h _ | .cboInval h _ | .cboZero h _ | .machineTimerInterrupt h _
  | .hartLoad h _ _ _ | .hartStore h _ _ | .wfi h => hartOk h
  | .tapeMapFunction r _ account _ | .tapeMapTspace r _ account _ => r.wf && decide (account < 8192)
  | .moultRunSlice r slice => r.wf && decide (slice < 65536)
  | .shadowPoll q | .shadowReadResult q _ | .sqEntryFetch q | .nop q _ | .move q _ | .fill q _ | .compare q _ | .netTx q _ | .netRxPost q _
  | .blkRead q _ | .blkWrite q _ | .blkFlush q _ | .blkDiscard q _ | .dirtySyncSync q _ | .dirtySyncStart q _ | .dirtySyncStop q _
  | .completionPost q | .coalTimeExpiry q | .drainComplete q | .virtioBlkIn q _ | .virtioBlkOut q _ | .virtioBlkFlush q _
  | .virtioBlkDiscard q _ | .virtioBlkWriteZeroes q _ | .virtioBlkUnsupported q _ | .nvmeRead q _ | .nvmeWrite q _ | .nvmeFlush q _
  | .nvmeWriteZeroes q _ | .nvmeDatasetManagement q _ | .nvmeInvalidOpcode q _ | .reconcileRetry q => ringOk q
  | .dirtyUpdateLate v => decide (v < 4096)
  | .stitchDispatch port _ | .pageRequestGroupSend port => hostPortOk port
  | .virtioNotification f u _ _ | .nvmeSqDoorbell f u _ _ | .nvmeCqDoorbell f u _ _ | .virtioQueueEnable f u => functionOk f && decide (u < 65536)
  | .beqWorkItem b | .moveToHost b _ | .moveFromHost b _ | .moved b _ _ _ | .complete b _ => beqOk b
  | .lcDoorbell who n _ _ | .lcEnable who n _ => who.wf && decide (n < 256)
  | .frameReceive port _ _ | .frameTransmit port | .pfcReceive port _ _ => ethPortOk port
  | .missLookupComplete pipe | .missAge pipe _ => panelOk pipe
  | .reinjectEntry n => decide (n < 64)
  | .pfcPauseEnd port cls => ethPortOk port && decide (cls < 8)
  | .tapeIncrement account ctr _ _ | .peerIncrement account ctr _ _ => decide (account < 8192) && decide (ctr < 14)
  | .dangerousFaultDetect flt => flt.wf
  | .sequencerWatchdogExpiry _ panel => panelOk panel
  | .admitEntry e _ | .issue e _ _ | .commit e _ | .counts e _ | .release e _ => decide (e.q < 65536)
  | .ideKm n _ stream _ _ | .ideIntegrityFailure n stream _ => hostPortOk n && decide (stream < 256)
  | .bobCtlRun who e | .bobCtlStop who e | .bobImgWrite who e _ | .bobLmemWrite who e _ _ => who.wf && engineOk e
  | .mailboxSend e slot _ => engineOk e && decide (slot < 8)
  | .bobbinInterrupt e line => engineOk e && decide (line < 16)
  | .timerTick t | .timerMatch t | .timerCapture t _ _ => timerOk t
  | .tmrCmpWrite who t _ | .tmrMatchClear who t | .tmrCaptureRead who t _ => who.wf && timerOk t
  | .ptpTimestamp g m => decide (g < 6) && m.wf
  | .ptpTimestampPop who g => who.wf && decide (g < 6)
  | .ppsFall k => decide (k < 2)
  | .powerEntryStart u | .pointOfNoReturn u | .powerEntryComplete u | .unitWake u | .wakeReady u | .laneActivityWake u | .croakDetect u => unitOk u
  | .moultSliceTestStart slice | .moultRedirect slice | .moultMarchComplete slice _ => decide (slice < 65536)
  | .moultWayTest tile _ _ => decide (tile < 16)
  | .scrubRead c _ _ | .dramInitBlock c | .ddrPowerDown c => controllerOk c
  | .haltRequest t => t.wf

end Sys2Proof
end

