-- ==== Sys2Proof/Tests/Slice0.lean ====
section
/-!
SUPPORT. Slice0.lean: tests of the model. Expected values come from the spec: its worked examples, tables and rules, or a hand calculation from them. The
theorems named `witness_…` show concrete states and operands that meet the hypotheses of the statements in Certificates/Slice0/Obligations.lean.
-/

set_option Elab.async false

namespace Sys2Proof.Tests
open Sys2Proof Sys2Proof.Machine

/-! ### States to start from -/

/-- A device in service: ungated, host port 0 enabled. -/
def live : State :=
  (((({ State.reset with sys := { State.reset.sys with phase := .running, gated := false, aliveOut := true } }).setBit R.SPOOL_STATUS.UNGATED).setFld
    (R.HPORT_CFG.ENABLE 0) 1).setFld (R.HPORT_CFG.WIDTH 0) 4)

/-- A plain request of tag 7 on a channel, and a critical one of the sender whose key stands in slot 5. -/
def asks (ch : Nat) : OnfReq := { ch := ch, sender := 0, seq := 1, tag := 7, ctr := 0, crit := false }
def asksCrit (ch : Nat) : OnfReq := { ch := ch, sender := 9, seq := 1, tag := 7, ctr := 5, crit := true }

/-- A sender key with every permission, and flash ceilings above its counter. -/
def keyed : State :=
  { live with onf := { live.onf with keys := smPut SenderKey.none [] 5 { sender := 9, key := [1], perms := 63, revoked := false, ctr := 4 }, ceil0 := 100, ceil1 := 100 } }

/-- An engine that runs with words at PC 0, its stack pointer at 0x100 and 7 in every other register. -/
def bobAt (e : Nat) (ws : List W16) : State :=
  live.setEng e { Engine.reset with
    st := .running, w := (List.range 15).foldl (fun (m : SMap W16) i => smPut 0 m i 7) (smPut 0 [] 15 0x100)
    imem := (List.range ws.length).map fun i => (i, ws.getD i 0) }

/-- Whether an instruction stands at the PC of an engine that issues. -/
def standsB (s : State) (e : Nat) (i : Instr) : Bool :=
  s.up && s.bobLive e && decide ((s.eng e).muldiv = []) &&
    match bobWords i with
    | some (n, ws) => n == e && decide ((s.fetchAll e (s.eng e).pc ws).2 = .same)
    | none => false

theorem stands_of_standsB (s : State) (e : Nat) (i : Instr) (h : standsB s e i = true) : ∃ u, s.stands e i u := by
  unfold standsB at h
  split at h
  · rename_i n ws hw
    simp only [Bool.and_eq_true, decide_eq_true_eq, beq_iff_eq] at h
    obtain ⟨⟨⟨h1, h2⟩, h3⟩, h4, h5⟩ := h
    exact ⟨_, h1, h2, h3, ws, h4 ▸ hw, Prod.ext rfl h5⟩
  · simp at h

/-- Whether it stands where its own words have been placed. -/
def ready (e : Nat) (i : Instr) : Bool :=
  match bobWords i with
  | some (_, ws) => standsB (bobAt e ws) e i
  | none => false

/-! ### Well-formed commands -/

/-! One command for each check of `Instr.wf`, each with one number out of its range. -/

theorem test_wf_agents_ports :
    ([.bMov 32 0 0, .cpw 32 0 0 0, .cpw 0 16 0 0, .registerWrite (.hart 64) (.ctl 0) 8 0, .registerWrite (.bobbin 32) (.ctl 0) 8 0,
   .registerWrite (.localChannel 256) (.ctl 0) 8 0, .registerWrite (.host 0x1020) (.ctl 0) 8 0, .registerWrite (.shuttle 0x1020) (.ctl 0) 8 0,
   .registerWrite (.selvedge 4) (.ctl 0) 8 0, .registerWrite (.queueTile 4) (.ctl 0) 8 0, .registerWrite (.hart 0) (.ctl 0x10000000) 8 0,
   .registerWrite (.hart 0) (.bar 0x1020 0) 8 0, .tmuGo (.hart 64) 0, .pllLockLoss (.ddr 8), .coreclkStepUp 4, .perstAssert 32,
   .functionLevelReset 0x1020, .qpQuiesceTimeout 36 0, .mailboxGo 36 (.hart 0), .mailboxGo 0 (.hart 64), .evtPacketSend 36 0, .evtPacketSend 0 10] : List Instr).all (fun i => !i.wf) = true := by decide

theorem test_wf_requests_rings :
    let r := asks 0
    ([.pwrStatus { r with ch := 36 }, .pwrStatus { r with sender := 2 ^ 32 }, .pwrStatus { r with seq := 2 ^ 32 }, .pwrStatus { r with tag := 2 ^ 32 },
   .pwrStatus { r with ctr := 2 ^ 64 }, .fnReset r 0x1020, .fnReset { r with ch := 36 } 0, .wfi 64, .tapeMapFunction r 0 8192 0,
   .tapeMapFunction { r with ch := 36 } 0 0 0, .moultRunSlice r 65536, .moultRunSlice { r with ch := 36 } 0, .sqEntryFetch 65792, .sqEntryFetch 131071,
   .sqEntryFetch 196608, .dirtyUpdateLate 4096, .stitchDispatch 32 false, .virtioNotification 0x1020 0 2 0, .virtioNotification 0 65536 2 0, .beqWorkItem 256,
   .lcEnable (.hart 64) 0 true, .lcEnable (.hart 0) 256 true, .frameTransmit 48, .missLookupComplete 4, .reinjectEntry 64, .pfcPauseEnd 48 0, .pfcPauseEnd 0 8] : List Instr).all (fun i => !i.wf) = true := by decide

theorem test_wf_faults_timers :
    let flt : FaultInfo := { mech := 1, cls := 1, panel := 0, tile := 0, unit := 0, detail := 0, scope := .packet }
    let ptp : PtpMsg := { seqId := 0, msgType := 0, domain := 0, port := 0, sent := false }
    ([.tapeIncrement 8192 0 0 1, .tapeIncrement 0 14 0 1, .dangerousFaultDetect { flt with mech := 16 }, .dangerousFaultDetect { flt with cls := 0 },
   .dangerousFaultDetect { flt with cls := 6 }, .dangerousFaultDetect { flt with panel := 4 }, .sequencerWatchdogExpiry .tape 4,
   .release { q := 65536, jseq := 0, strict := false, network := false, write := false } 0, .ideIntegrityFailure 32 0 none, .ideIntegrityFailure 0 256 none,
   .bobCtlRun (.hart 64) 0, .bobCtlRun (.hart 0) 32, .mailboxSend 32 0 0, .mailboxSend 0 8 0, .bobbinInterrupt 32 0, .bobbinInterrupt 0 16, .timerTick 64,
   .tmrMatchClear (.hart 64) 0, .tmrMatchClear (.hart 0) 64, .ptpTimestamp 6 ptp, .ptpTimestamp 0 { ptp with seqId := 65536 },
   .ptpTimestamp 0 { ptp with msgType := 16 }, .ptpTimestamp 0 { ptp with domain := 256 }, .ptpTimestamp 0 { ptp with port := 48 },
   .ptpTimestampPop (.hart 64) 0, .ptpTimestampPop (.hart 0) 6, .ppsFall 2, .unitWake 52, .moultRedirect 65536, .moultWayTest 16 0 0, .ddrPowerDown 8,
   .haltRequest (.hart 64)] : List Instr).all (fun i => !i.wf) = true := by decide

theorem test_well_formed_admitted :
    ([.bMov 31 15 15, .perstAssert 31, .functionLevelReset 0x101F, .sqEntryFetch 65791, .sqEntryFetch 131072, .beqWorkItem 255, .timerTick 63,
      .unitWake 51, .pwrStatus (asks 35), .registerWrite (.localChannel 255) (.ctl 0xFFFFFF8) 8 0] : List Instr).all Instr.wf = true := by decide

/-! ### Worked values of the spec -/

/-- The check values of Table 05-11 over the ASCII digits 1 to 9. -/
theorem test_crc32c_check : crc32c [0x31, 0x32, 0x33, 0x34, 0x35, 0x36, 0x37, 0x38, 0x39] = 0xE3069283 := by decide +kernel

theorem test_crc64_check : crc64From 0 [0x31, 0x32, 0x33, 0x34, 0x35, 0x36, 0x37, 0x38, 0x39] = 0xAE8B14860A799888 := by decide +kernel

/-- Words of Table 12-20, and words written out bit by bit from Table 12-6: group, op, Wd, Ws. -/
theorem test_bobbin_words :
    bobDecode 3 [0b1010_1010_0010_0000, 0xFFFF] = some (.bLdi16 3 2 0 0xFFFF) ∧ bobDecode 3 [0b0000_0000_0011_0001] = some (.bMov 3 3 1) ∧
      bobDecode 3 [0b1000_0001_1111_1001] = some (.bBcc 3 1 0xF9) ∧ bobDecode 3 [0b1111_0000_0000_0000] = none := by decide

/-! ### Bobbin engines: the hypotheses of the statements can be met -/

theorem witness_bobbin_alu :
    ([.bMov 3 1 2, .bAdd 3 15 15, .bAdc 3 0 1, .bSub 3 1 2, .bSbc 3 1 2, .bAnd 3 1 2, .bOr 3 1 2, .bXor 3 1 2, .bCmp 3 1 2, .bTst 3 1 2,
      .bMovi 3 1 15, .bAddi 3 1 15, .bAdci 3 1 0, .bSubi 3 1 0, .bSbci 3 1 0, .bAndi 3 1 2, .bOri 3 1 2, .bXori 3 1 2, .bCmpi 3 1 2, .bTsti 3 1 2,
      .bBset 3 1 15, .bBclr 3 1 15, .bBtgl 3 1 0, .bBtst 3 1 15, .bNot 3 1 0, .bNeg 3 1 0, .bShl 3 1 15, .bShr 3 1 0, .bSar 3 1 15, .bRol 3 1 15,
      .bRor 3 1 0, .bBrev 3 1 0, .bPar 3 1 0, .bClz 3 1 0, .bSwapb 3 1 0, .bLdi 3 1 0xFF, .bLdi16 3 1 0 0xFFFF, .bAddi16 3 1 0 1,
      .bCmpi16 3 1 0 1] : List Instr).all (ready 3) = true := by decide

theorem witness_bobbin_multiply_crc :
    ([.bCrc32c 3 2 1, .bCrc32cb 3 2 1, .bCrc16 3 2 4, .bCrc16b 3 2 4, .bParx 3 2 4, .bMul 3 2 1, .bMuls 3 2 1, .bDiv 3 12 1, .bDivs 3 2 1,
      .bMull 3 15 15] : List Instr).all (ready 3) = true := by decide

/-- A result under way, for MULDIV_RESULT and for the stall. -/
theorem witness_bobbin_muldiv :
    let s := (bobAt 3 [bw 0 0 2 1]).setEng 3 { (bobAt 3 [bw 0 0 2 1]).eng 3 with muldiv := [(2, 7), (3, 7)] }
    let t := (bobAt 3 [bw 0xC 2 2 1]).setEng 3 { (bobAt 3 [bw 0xC 2 2 1]).eng 3 with muldiv := [(2, 7)] }
    let v := (bobAt 3 [bw 0 0 2 1]).setEng 3 { (bobAt 3 [bw 0 0 2 1]).eng 3 with muldiv := [(2, 7)] }
    s.up = true ∧ s.engHeld 3 = false ∧ (s.eng 3).muldiv = [(2, (s.eng 3).getW 2), (3, (s.eng 3).getW 1)] ∧
    t.bobLive 3 = true ∧ (t.fetchAll 3 (t.eng 3).pc [bw 0xC 2 2 1]).2 = .same ∧ v.bobLive 3 = true ∧ (v.fetchAll 3 (v.eng 3).pc [bw 0 0 2 1]).2 = .same := by
  decide

theorem witness_bobbin_memory :
    ([.bLd 3 1 2 15, .bLdL 3 1 2 0xFFFF, .bSt 3 1 2 0, .bStL 3 1 2 1, .bLdd 3 2 2 0, .bStd 3 2 2 0, .bLdp 3 1 2 0, .bStp 6 1 2 0, .bIn 3 1 2 0, .bInL 3 1 2 0,
      .bOut 3 1 2 0, .bOutL 3 1 2 0, .bInd 3 2 2 0, .bOutd 3 2 2 0] : List Instr).all (fun i => ready 3 i || ready 6 i) = true := by decide

/-- What the accesses give: a word, a fault beyond the window (cause 1), a store that enters the buffer, words of I-space, privilege of STP. -/
theorem witness_bobbin_accesses :
    let s := bobAt 3 []
    (s.dLoadAt 3 1 (s.dLoc 3 0x16)).2 = .ok [0] ∧ (s.dLoadAt 3 1 (s.dLoc 3 0x8000)).2 = .error (1, 0x8000) ∧
    (s.dStoreAt 3 [7] (s.dLoc 3 0)).2 = none ∧ (s.dStoreAt 3 [7] (s.dLoc 3 0x8000)).2 = some (1, 0x8000) ∧
    (s.dLoadPair 3 6).2 = .ok [0, 0] ∧ (s.dStorePair 3 6 1 2).2 = none ∧ (s.dLoadPair 3 0x8000).2 = .error (1, 0x8000) ∧ (s.iSpace 3 0).2 = .ok 0 := by
  decide

/-- D-space at the ends of its regions (Table 12-2). -/
theorem test_bobbin_d_space :
    let s := bobAt 3 []
    s.dLoc 3 0x5FFF = .loc 0x5FFF ∧ s.dLoc 3 0x6000 = .mem false 0x20010000000 ∧ s.dLoc 3 0x7FFF = .mem false 0x20010003FFE ∧ s.dLoc 3 0x8000 = .fault 1 0x8000 := by
  decide

theorem witness_bobbin_store_buffer :
    let s := (bobAt 3 []).setEng 3 { (bobAt 3 []).eng 3 with sbuf := [{ window := false, loc := 0x10, words := [5] }, { window := true, loc := 65536 + 0x100, words := [6] }] }
    let t := (bobAt 3 []).setEng 3 { (bobAt 3 []).eng 3 with sbuf := [{ window := true, loc := 65536 + 0x8000000, words := [6] }] }
    s.up = true ∧ (s.eng 3).st = .running ∧ (s.eng 3).stopReq = false ∧ (s.eng 3).sbuf.length = 2 ∧ (t.eng 3).sbuf.length = 1 := by decide

theorem witness_bobbin_input_output :
    let s := bobAt 3 []
    (s.ioIn 3 7).2 = .error 2 ∧ (s.ioIn 3 0).2 = .ok 3 ∧ (s.ioIn 3 0x4000).2 = .error 1 ∧ (s.ioOut 3 0x11 5).2 = none ∧ (s.ioOut 3 5 0).2 = some 2 ∧
    (s.ioIn 3 0x11).2 = .ok 0 ∧ ((bobAt 6 []).ioIn 6 0).2 = .ok (6 + 32) := by decide

/-- A mailbox with a word and a full one; a register port that reads, writes, and is refused. -/
theorem witness_bobbin_mailbox_port :
    let s := bobAt 3 []
    let s1 := s.setEng 3 { s.eng 3 with mbx := [5], rpCmd := 1 }
    let s2 := s.setEng 0 { s.eng 0 with mbx := List.replicate 8 0 }
    let s3 := s.setEng 3 { s.eng 3 with rpCmd := 2, rpOff := R.TMU_GO.off }
    let s4 := s.setEng 3 { s.eng 3 with rpCmd := 2, rpOff := R.TOP_RESET.off }
    s.bobLive 3 = true ∧ (s.eng 0).mbx.length < 8 ∧ (s1.eng 3).mbx = [5] ∧ (s1.eng 3).rpCmd = 1 ∧ 8 ≤ (s2.eng 0).mbx.length ∧
    s3.ctlJudge (.bobbin 3) true (R.TMU_GO.off / 8 * 8) = .ok ∧ (∃ g, s4.ctlJudge (.bobbin 3) true (R.TOP_RESET.off / 8 * 8) = .refused g) := by
  exact ⟨by decide, by decide, by decide, by decide, by decide, by decide, _, rfl⟩

theorem witness_bobbin_control_flow :
    ([.bBcc 3 14 0x80, .bBcc 3 15 0, .bJmp 3 0 0 0xFFFF, .bJmpr 3 0 1, .bCall 3 0 0 0x10 0xFFFF, .bCallr 3 0 1 0, .bRet 3 0 0 0xFFFF,
      .bIret 3 0 0] : List Instr).all (ready 3) = true ∧
    ((bobAt 3 []).eng 3).getW 15 = 0x100 := by decide

theorem witness_bobbin_system :
    ([.bSetf 3 0 15, .bClrf 3 0 15, .bEi 3 0 0, .bDi 3 0 0, .bWait 3 0 1, .bMvbk 3 1 3, .bMvkb 3 3 1, .bMvkb 3 0 1, .bMvkb 3 15 1, .bTrap 3 0 15, .bHalt 3 0 0,
      .bNop 3 0 0, .bRdf 3 1 0, .bWrf 3 0 1, .bSync 3 0 0] : List Instr).all (ready 3) = true ∧
    ([.bMvkb 6 0 1, .bMvkb 6 1 1, .bMvkb 6 2 1] : List Instr).all (ready 6) = true := by decide

/-- An engine in WAIT, one with an enabled pending line, one without room for an entry. -/
theorem witness_bobbin_events :
    let x := (bobAt 3 []).eng 3
    let s := (bobAt 3 []).setEng 3 { x with st := .waiting, waitOn := some (.wait 4) }
    let t := (bobAt 3 []).setEng 3 { x with ie := true, irqEn := 1, pend := 1 }
    s.irqPend 3 &&& (s.eng 3).waitEn = 0 ∧ (s.eng 3).st = .waiting ∧ s.engHeld 3 = false ∧ t.linePending 3 0 = true ∧ (t.eng 3).irqEn.testBit 0 = true ∧
    (t.eng 3).eiHold = false ∧ 2 ≤ ((t.eng 3).getW 15).toNat ∧ ((t.eng 3).getW 15).toNat ≤ 0x6000 := by decide

theorem witness_bobbin_coprocessors :
    ([.shaInit 6 1, .shaUpdate 6 1, .shaFinal 6 1, .aesEncrypt 6 1, .aesDecrypt 6 1, .aesTag 6 1, .modmul 6 1, .modexp 6 1, .modinv 6 1, .p384Mul 6 1, .ntt 6 1,
      .intt 6 1, .polymul 6 1, .cpw 6 0 0 1, .cpr 6 0 15 1, .cpr 6 3 0 1, .cpw 6 3 0 1] : List Instr).all (ready 6) = true ∧
    ([.crcRun 3 1, .descriptorParse 3 1, .cpr 3 2 0 1] : List Instr).all (ready 3) = true ∧ copUnit 6 3 = none ∧
    ((bobAt 6 []).cop 6 0).busy = false ∧ ((bobAt 6 []).cop 6 0).raise = false := by decide

/-- Operands in D-space that a unit reads, and room for a result; a unit that is done. -/
theorem witness_bobbin_units :
    let s := bobAt 6 []
    let t := s.setEng 6 { s.eng 6 with cops := smPut CopSt.reset [] 0 { CopSt.reset with busy := true, outMem := [(0x10, 5)], outRegs := [(3, 7)] } }
    (s.copIn 6 0x10 4).2.isSome = true ∧ (s.copOut 6 0x10 [1, 2]).2.isSome = true ∧ (t.cop 6 0).busy = true ∧ (t.cop 6 0).outMem = [(0x10, 5)] ∧
    t.engHeld 6 = false := by decide

theorem witness_bobbin_illegal_forms :
    ([.bNot 3 1 15, .bJmp 3 1 0 0, .bJmp 3 0 1 0, .bLdd 3 1 0 0, .bMul 3 14 0, .bMul 3 1 0, .bMvbk 3 1 4, .bCrc32c 3 1 0, .bSync 3 0 1] : List Instr).all (ready 3) = true := by
  decide

theorem witness_bob_registers :
    let s := live.setEng 3 { Engine.reset with st := .running, sbuf := [{ window := false, loc := 0, words := [1] }] }
    live.opens (.bobbin 6) (R.BOB_CTL.off 31) ∧ live.opens (.bobbin 6) (R.BOB_IMG.off 0) ∧ live.opens (.bobbin 6) (R.BOB_LMEM.off 0 8191) ∧
    (live.eng 3).st = .stopped ∧ (s.eng 3).st = .running ∧ (s.eng 3).sbuf ≠ [] := by
  exact ⟨⟨_, rfl, by decide⟩, ⟨_, rfl, by decide⟩, ⟨_, rfl, by decide⟩, by decide, by decide, by decide⟩

/-- QP 5 is local index 0 of PF 0 (R80), with a CQ and an SQ of eight entries. -/
def owned (c : QpCtx) : State := (live.setReg (R.QFAB_QOWN.off 5) (BitVec.ofNat 64 (0x1000 + 2 ^ 15))).setQp 5 { c with cfg := 0x22 }

def quiescedQp : QpCtx := { QpCtx.reset false with st := .quiesced }
def activeQp : QpCtx := { QpCtx.reset false with st := .active, enable := true, sqTail := 2 }

/-- A session of the sender of `asks`, from a channel. -/
def sess (ch : Nat) : Session :=
  { number := 3, owner := 0, ownerCh := ch, critical := false, idleMs := 10000, idleAt := 0, regs := [], tabs := [], checked := true, held := [], armed := none }

def inSession (x : Session) : State := { live with onf := { live.onf with session := some x } }

/-- A packet without parameters: header and trailer. -/
def packet (magic flags op : Nat) : List Byte :=
  let h := leBytes 2 magic ++ [2, BitVec.ofNat 8 flags] ++ leBytes 2 op ++ leBytes 2 4 ++ leBytes 4 1 ++ leBytes 4 0x10000000 ++ leBytes 8 0 ++ leBytes 4 7 ++ leBytes 2 0
  h ++ leBytes 2 (crc16 h) ++ leBytes 4 (crc32c [])

/-! ### Resets, device commands, sessions -/

theorem test_cold_sequence :
    (match exec .powerOnReset State.reset with | .next t => t.sys.phase == .cold | _ => false) = true ∧
    (match exec .rootpllLock { State.reset with sys := { State.reset.sys with phase := .cold } } with
      | .next t => t.sys.phase == .rootLocked && t.bit R.TOP_CLKSTAT.ROOT_LOCK | _ => false) = true := by decide

theorem witness_clocks :
    live.up = true ∧ live.fld (coreStep 3) < 8 ∧ 0 < (live.setFld (coreStep 0) 8).fld (coreStep 0) ∧ live.fnReachable 0x1000 = true ∧ live.portOn false 0 = true := by decide

theorem witness_warm_reset :
    live.up = true ∧ live.tidy = true ∧ live.opens (.bobbin 6) R.TOP_RESET.off ∧ (0xA5C30001 : W64).getLsbD 0 = true ∧ (0xA5C30001 : W64).extractLsb' 16 16 = 0xA5C3 ∧
    ({ live with onf := { live.onf with resetDelay := some (asks 32) } }).onf.resetDelay.isSome = true := by
  exact ⟨by decide, by decide, ⟨_, rfl, by decide⟩, by decide, by decide, by decide⟩

/-- A wrong key of TOP_RESET does nothing (Table 01-10). -/
theorem test_top_reset_key :
    (match exec (.topResetWarm (.bobbin 6) 0xA5C20001) live with | .next t => decide (t = live) | _ => false) = true := by decide

theorem witness_device_commands :
    live.admits (asks 32) 1 = true ∧ live.admits (asks 35) 3 = true ∧ keyed.admits (asksCrit 35) 2 = true ∧
    live.role = 0 ∧ live.onf.resetDelay = none ∧ live.chanOpen 32 = true := by decide

theorem witness_ceiling_and_events :
    let s := { live with onf := { live.onf with ceilPending := some 9, evts := [(32 * 64 + 9, EvtPkt.none)] } }
    s.onf.ceilPending = some 9 ∧ s.onf.evts.find? (fun e => e.1 == 32 * 64 + 9) = some (2057, EvtPkt.none) := by decide

theorem witness_mailboxes :
    let m := { Mailbox.reset with done := true, replies := [⟨1, 0, 0, 0, 0, 0, false, false, false, []⟩] }
    live.reaches 0 (.host 0x1000) ∧ live.reaches 34 (.hart 0) ∧ (live.mbx 0).busy = false ∧ ((live.setMbx 0 m).mbx 0).done = true ∧
    ((live.setMbx 0 { m with busy := true, replies := [] }).mbx 0).replies = [] := by
  exact ⟨.inl (by decide), .inr (by decide), by decide, by decide, by decide⟩

/-- Table 02-4: a good DEV_INFO stands; a wrong MAGIC is dropped; reserved FLAGS are refused. -/
theorem witness_packets :
    let r := onfReqOf 32 (packet 0x4F4E 0 1)
    hdrDrop (packet 0x4F4E 0 1) = none ∧ plenOk (packet 0x4F4E 0 1) = true ∧ (packet 0x4F4E 0 1).length = 32 + onfPlen (packet 0x4F4E 0 1) ∧
    hdrBad (packet 0x4F4E 0 1) = false ∧ r.sender / 2 ^ 28 = chanCode 32 ∧ hdrDrop (packet 0x4E4F 0 1) = some E.BAD_MAGIC ∧ hdrBad (packet 0x4F4E 0x10 1) = true ∧
    hdrDrop (packet 0x4F4E 0x10 1) = none ∧ live.chanOpen 32 = true ∧ live.recovering = false ∧ live.partialOf r = none ∧ (live.mbx 32).go = false ∧
    crc32c (((packet 0x4F4E 0 1).drop 32).take 0) = leAt (packet 0x4F4E 0 1) 32 4 := by decide +kernel

theorem witness_baste_session :
    let s := inSession (sess 32)
    live.admits (asks 32) 0x0301 = true ∧ live.role ≠ 2 ∧ live.onf.session = none ∧ s.admits (asks 32) 0x0303 = true ∧ s.admits (asks 32) 0x0305 = true ∧
    s.owns (asks 32) (some 3) (sess 32) ∧ s.linkLost = false ∧ s.mirrored = false ∧ s.openSession = some (sess 32) ∧ live.openSession = none ∧
    (sess 32).idleAt + (sess 32).idleMs * 1000000 ≤ ({ s with tmu := { s.tmu with t00 := 2 ^ 32 * 10000000000 } }).now ∧ s.now < (sess 32).idleMs * 1000000 := by
  exact ⟨by decide, by decide, by decide, by decide, by decide, ⟨by decide, by decide, by decide, by decide⟩, by decide, by decide, by decide, by decide, by decide, by decide⟩

/-- A mirroring pair with an open session. -/
def mirroring : State := (((inSession (sess 32)).setFld R.GALV_STATUS.ROLE 1).setBit R.GALV_STATUS.SYNC)

theorem witness_mirroring : mirroring.mirrored = true ∧ mirroring.openSession = some (sess 32) ∧ mirroring.linkLost = false := by decide

theorem witness_staging :
    let s := inSession (sess 32)
    let off := R.QFAB_FSCHED0.off 0 - 0x20000
    s.stages (asks 32) (some 3) (sess 32) ∧ s.admits (asks 32) 0x0302 = true ∧ rwbEntries [(off, 5)] = some [(R.QFAB_FSCHED0.off 0, 5)] ∧
    s.stageDenied (asks 32) (sess 32) [(R.QFAB_FSCHED0.off 0, 5)] = false ∧ s.admits (asks 32) 0x0101 = true ∧ fnConfigReg (R.QFAB_FNCFG.off 0) = true ∧
    s.admits (asks 32) 0x0201 = true ∧ s.fnNamed true 0 = true ∧ s.mine true (asks 32) 0 = true ∧ s.stagedFld (R.QFAB_QOWN.VALID 65535) ≠ 1 ∧ s.owners true = [] ∧
    s.admits (asks 32) 0x0202 = true ∧ s.admits (asks 32) 0x0205 = true := by
  exact ⟨⟨⟨by decide, by decide, by decide, by decide⟩, by decide, by decide⟩, by decide, by decide, by decide, by decide, by decide, by decide, by decide, by decide, by decide, by decide, by decide, by decide⟩

/-- A granted QP of the staged view, for QP_REVOKE. -/
theorem witness_revoke : (owned quiescedQp).qpOf true 0x1000 5 = true ∧ (owned quiescedQp).mine true (asks 0) 0x1000 = true := by decide

theorem witness_stitching :
    let a : Armed := { mode := .immediate, time := 5, req := asks 32, confirmed := true }
    let s := inSession (sess 32)
    s.admits (asks 32) 0x0304 = true ∧ s.stitches (asks 32) 3 (sess 32) ∧ s.paired = false ∧ s.now < (5 : W64).toNat ∧
    (inSession { sess 32 with armed := some a }).onf.session = some { sess 32 with armed := some a } ∧
    (inSession { sess 32 with armed := some { a with confirmed := false } }).onf.session.isSome = true := by
  exact ⟨by decide, ⟨⟨by decide, by decide, by decide, by decide⟩, by decide, by decide, by decide⟩, by decide, by decide, by decide, by decide⟩

theorem witness_queue_pair_commands :
    let s := owned { quiescedQp with held := true }
    let u := owned activeQp
    s.admits (asks 0) 0x0102 = true ∧ s.admits (asks 0) 0x0203 = true ∧ s.admits (asks 0) 0x0204 = true ∧ s.fnNamed false 0x1000 = true ∧
    s.mine false (asks 0) 0x1000 = true ∧ s.qpOf false 0x1000 5 = true ∧ (s.qp 5).st = .quiesced ∧ (s.qp 5).held = true ∧ (s.qp 5).drain = none ∧
    (u.qp 5).st = .active ∧ u.qpOf false 0x1000 5 = true ∧ s.onf.quiesce = [] := by decide

/-- A submission entry: opcode, flags, length, addresses, and the bytes from 40 on (Table 03-11). -/
def entry (opc len a b : Nat) (own : List Byte) : List Byte :=
  padTo 64 ([BitVec.ofNat 8 opc, 0, 1, 0] ++ leBytes 3 len ++ [0] ++ leBytes 8 a ++ leBytes 8 b ++ zeros 16 ++ own)

/-- A fetched request of QP 5 under the number 9. -/
def asked (e : List Byte) : Req :=
  { rid := 9, q := 5, kind := .native, idx := 0, nEnt := 1, sqhead := 1, sqe := e, inl := [], blk := none, epoch := 0, time := 0, fncfg := 0, acct := 0
    volA := BitVec.ofNat 64 (7 + 3 * 2 ^ 32 + 2 ^ 41), volB := 0x10000, st := .fetched, preds := [], predBad := false, redone := false, cnt := [], issueJ := none, mdata := [], walkOff := 0 }

def requested (e : List Byte) : State := ((owned { activeQp with reqs := [asked e] }).setBit (R.QFAB_BEQ_WRING.ENABLE 3)).setFld (R.SELV_VPORTA.FRAME_MAX 0x1000) 1500

/-- PF 0 translates through the ATC: its first 64 KiB lie at 0x100000. -/
def mapped (s : State) : State :=
  { s.setFn 0x1000 { s.fn 0x1000 with atsEn := true } with shut := { s.shut with
      atc := [{ dev := false, f := 0x1000, pasid := none, base := 0, size := 0x10000, phys := 0x100000, r := true, w := true, u := false }] } }

/-- A completion of request 9 that waits on QP 5. -/
def owed : Cpl :=
  { rid := 9, q := 5, cid := 1, status := 0, sqhead := 1, result := 0, ts := false, irq := false, redone := false, idx := 0, usedLen := 0, statusAddr := none, committed := true, jseq := none }

/-- A transfer of request 9: 64 bytes within host memory. -/
def moving : Xfer :=
  { xid := 4, purpose := .req 5 9, f := 0x1000, lc := false, q := 5, panel := 0, port := 0, cls := 0, pasid := none, acct := 0, src := .host [(0, 64)], dst := .host [(0x1000, 64)],
    src2 := none, len := 64, next := 0, delivered := 0, counted := 0, parkOff := 0, flight := [], st := .ready, status := 0, xform := 0, xparam := 0, keyslot := 0, crc := 0,
    diff := none, buf := [], pieces := [], tail := none, moff := 0, toHost := false }

def inFlight : Xfer := { moving with next := 64, st := .running, flight := [{ off := 0, len := 64, bytes := zeros 64, poison := false, dst := [(0x101000, 64)], diff := none }] }

/-! ### Queues, requests, registers -/

theorem witness_doorbells :
    let s := owned quiescedQp
    let t := owned { activeQp with shadow := 0x2000 }
    live.fnReady 0x1000 ∧ live.pers 0x1000 = 0 ∧ s.qpAt 0x1000 0 = some 5 ∧ s.qpAt 0x1000 0xFFF = none ∧ (s.fn 0x1000).evtEn = false ∧ (s.qp 5).contained = false ∧
    (t.qp 5).sqDepth = 8 ∧ (t.qp 5).st = .active ∧ (t.qp 5).sqTail = 2 ∧ (0x200000007 : W64).getLsbD 32 = false ∧ (0x200000007 : W64).getLsbD 33 = true := by
  exact ⟨⟨by decide, by decide, by decide⟩, by decide, by decide, by decide, by decide, by decide, by decide, by decide, by decide, by decide, by decide⟩

theorem witness_queue_window :
    let s := owned { quiescedQp with shadow := 0x2000 }
    let t := s.setFn 0x1000 { s.fn 0x1000 with msixEn := true, msix := [(0, { MsixEnt.reset with pend := true })] }
    s.enableOk 5 = true ∧ (owned quiescedQp).enableOk 5 = false ∧ (t.setFld (R.QFAB_FNCFG.MSIX_COUNT 0x1000) 1).msixCount 0x1000 = 1 ∧
    (t.fn 0x1000).msixEn = true ∧ (smGet MsixEnt.reset (t.fn 0x1000).msix 0).pend = true ∧ (0 : W64).getLsbD 34 = false := by decide

theorem witness_shadow :
    let s := mapped ((owned { activeQp with shadow := 0x2000 }).setQp 5 { activeQp with shadow := 0x2000, cfg := 0x22 ||| (1 <<< 38) })
    let t := s.setQp 5 { s.qp 5 with shadowOut := true }
    s.ringReady 5 ∧ (s.qp 5).shadowOut = false ∧ getBits (s.qp 5).cfg 38 10 ≠ 0 ∧ (s.access 5 0x2000 8 false (.shadow 5)).2 = .at [(0x102000, 8)] ∧
    t.ringReady 5 ∧ (t.qp 5).shadowOut = true ∧ (t.qp 5).cqHead < (t.qp 5).cqDepth := by
  exact ⟨⟨by decide, by decide, by decide⟩, by decide, by decide, by decide, ⟨by decide, by decide, by decide⟩, by decide, by decide⟩

theorem witness_queue_events :
    let s := owned { activeQp with coalOpen := true }
    let t := (s.setQp 5 { s.qp 5 with cfg := (0x22 : W64) ||| (1 <<< 19) ||| (1 <<< 28) })
    let d := { live with shut := { live.shut with dlogs := [(7, { DirtyLog.off with on := true, cache := [5] })] } }
    let u := owned { activeQp with drain := some { fresh := true, hold := true, force := false } }
    (t.qp 5).coalOpen = true ∧ (t.qp 5).intEn (isLc 5) = true ∧ (t.qp 5).coalTime (isLc 5) ≠ 0 ∧
    0x101F ∈ (live.setFld (R.QFAB_FSCHED1.CAP_B 0x101F) 5).listed (R.QFAB_FSCHED1.off 0) 16 0x1020 ∧ (d.dlog 7).on = true ∧ (d.dlog 7).past = [] ∧ (d.dlog 7).cache ≠ [] ∧
    (u.qp 5).drain.isSome = true ∧ (u.qp 5).reqs = [] ∧ (u.qp 5).cpls = [] ∧ u.onf.quiesce = [] := by decide

/-- A fetched request that may start. -/
def startable (opc : Nat) (e : List Byte) : Bool :=
  let s := requested e
  let r := asked e
  s.up && !s.panelHeld (ringHome 5) && !(s.qp 5).contained && decide ((s.qp 5).req? 9 = some r) && sqeOpc r.sqe == opc && !sqeInline r.sqe && sqeBufmode r.sqe == 0 &&
    sqeXform r.sqe == 0 && decide (0 < sqeLen r.sqe) && s.channelFree 5

theorem witness_native_requests :
    startable 0 (entry 0 64 0 0 []) = true ∧ startable 1 (entry 1 64 0 0x1000 []) = true ∧ startable 2 (entry 2 64 0 0x1000 (leBytes 8 7)) = true ∧
    startable 3 (entry 3 64 0 0x1000 []) = true ∧ startable 0x10 (entry 0x10 14 0 0 []) = true ∧ startable 0x10 (entry 0x10 13 0 0 []) = true ∧
    startable 0x11 (entry 0x11 1500 0 0 []) = true ∧ startable 0x20 (entry 0x20 512 0 0 []) = true ∧ startable 0x21 (entry 0x21 512 0 0 []) = true ∧
    startable 0x22 (entry 0x22 1 0 0 []) = true ∧ startable 0x23 (entry 0x23 512 0 0 []) = true ∧
    (requested (entry 0x10 14 0 0 [])).fld (R.SELV_VPORTA.FRAME_MAX ((requested (entry 0x10 14 0 0 [])).qpFn 5)) = 1500 ∧
    (requested (entry 0x10 14 0 0 [])).netTurn (asked (entry 0x10 14 0 0 [])) = true ∧ sqeVolume (entry 0x20 512 0 0 []) ≤ 15 ∧ (asked []).volValid = true ∧
    (requested []).beqOn (asked []) = true ∧ (owned activeQp).beqOn (asked []) = false := by decide

/-- PF 0's DIRTY_SYNC names VF 3, which exists on its port. -/
def dirtied (act : Nat) (d : DirtyLog) : State :=
  let s := requested (entry 0x30 1 0 0 (leBytes 2 3 ++ leBytes 1 act ++ [0] ++ leBytes 4 16384))
  let t := (s.setFld (R.QFAB_FNCFG.ENABLE 3) 1)
  { t with shut := { t.shut with dlogs := [(3, d)] } }

theorem witness_dirty_logging :
    let e := fun (act : Nat) => entry 0x30 1 0 0 (leBytes 2 3 ++ leBytes 1 act ++ [0] ++ leBytes 4 16384)
    let on := { DirtyLog.off with on := true, bits := 5 }
    let past : DirtyPast := { q := 5, rid := 9, active := false, overflow := false, bits := 5, cache := [] }
    startable 0x30 (e 1) = true ∧ dsAction (e 1) = 1 ∧ dsAction (e 0) = 0 ∧ dsAction (e 2) = 2 ∧ (dirtied 1 on).dsVfOk (asked (e 1)) = true ∧ ((dirtied 1 on).dlog 3).on = true ∧
    ((dirtied 1 DirtyLog.off).dlog 3).on = false ∧ dsVf (e 1) = 3 ∧ dsLimit (e 1) = 16384 ∧ dsBase0 (e 1) % 4096 = 0 ∧ dsBase1 (e 1) % 4096 = 0 ∧
    ((dirtied 2 { on with past := [past] }).dlog 3).past = [past] ∧ (requested (e 2)).dsVfOk (asked (e 2)) = false := by decide

theorem witness_register_writes :
    ctlArea 0xFFFFFF8 = .none ∧ ctlArea R.SHUT_CFG.off = .reg ∧ (∃ d, regFind R.SHUT_CFG.off = some (d, false) ∧ d.live = none ∧ live.tagAdmits d.tag R.SHUT_CFG.off (.hart 0) = true) ∧
    live.ctlAct (.hart 0) R.SHUT_CFG.off 0 = none ∧ (∃ t, regTag R.SAFE_WDOG.off = some t ∧ live.tagAdmits t R.SAFE_WDOG.off (.hart 0) = false) ∧
    (∃ d, regFind (R.SELV_CFG.off - 8) = some (d, false) ∧ d.live = some 8 ∧ live.tagAdmits d.tag (R.SELV_CFG.off - 8) (.hart 0) = true ∧ d.tag ≠ .l) ∧
    (inSession (sess 34)).openSession = some (sess 34) ∧ (inSession (sess 34)).linkLost = false ∧ (inSession (sess 34)).mirrored = false ∧
    (inSession { sess 34 with armed := some ⟨.atTime, 5, asks 34, true⟩ }).openSession.isSome = true := by
  exact ⟨by decide, by decide, ⟨_, rfl, by decide, by decide⟩, by decide, ⟨_, rfl, by decide⟩, ⟨_, rfl, by decide, by decide, by decide⟩, by decide, by decide, by decide, by decide⟩

theorem witness_config_space :
    live.fnReady 0x1000 ∧ isPf 0x1000 = true ∧ live.vfsOn 0 = [] ∧ live.fnReachable 0 = false ∧ live.portOn false 0 = true ∧ live.portPlaced false 0 = true ∧
    live.portOn false 31 = false ∧ isPf 1 = false := by
  exact ⟨⟨by decide, by decide, by decide⟩, by decide, by decide, by decide, by decide, by decide, by decide, by decide⟩

theorem witness_queue_data :
    let s := mapped (owned { activeQp with expo := [(2, 0)] })
    let t := mapped (owned { activeQp with cpls := [owed], reqs := [{ asked [] with st := .done }] })
    let u := mapped { owned { activeQp with reqs := [{ asked [] with st := .running }] } with shut := { live.shut with xfers := [moving] } }
    let v := mapped { owned { activeQp with reqs := [{ asked [] with st := .running }] } with shut := { live.shut with xfers := [inFlight] } }
    s.ringReady 5 ∧ s.canFetch 5 = true ∧ s.redoNext 5 = none ∧ (s.qp 5).chain = 0 ∧ ((s.qp 5).sqTail + (s.qp 5).sqDepth - (s.qp 5).firstIdx) % (s.qp 5).sqDepth ≠ 0 ∧
    (s.access 5 0 64 false (.fetch 5)).2 = .at [(0x100000, 64)] ∧ sqeRefusal false false false (entry 1 64 0 0 []) = none ∧ (owned quiescedQp).canFetch 5 = false ∧
    (t.qp 5).cpls = [owed] ∧ ((t.qp 5).req? 9).isSome = true ∧ t.waiting (.cpl 5) = false ∧ (t.qp 5).cqFull = false ∧ (t.access 5 0 16 true (.cpl 5)).2 = .at [(0x100000, 16)] ∧
    (u.pick 0 false).isSome = true ∧ live.pick 0 false = none ∧ (u.xfer? 4).isSome = true ∧ (v.xfer? 4) = some inFlight ∧ inFlight.flight.length = 1 := by
  exact ⟨⟨by decide, by decide, by decide⟩, by decide, by decide, by decide, by decide, by decide, by decide, by decide, by decide, by decide, by decide, by decide, by decide, by decide,
    by decide, by decide, by decide, by decide⟩

theorem witness_stitch_goes :
    let u := mapped { owned { activeQp with reqs := [{ asked [] with st := .running }] } with shut := { live.shut with xfers := [moving] } }
    (u.stitchGo moving false 64 false).2 = .none := by decide

/-- VF 1 is VF index 1 of PF 0 with a personality, its rings in QPs 5 and up at the local indices given; its translation is identity + 1 MiB. -/
def persona (p : Nat) (locs : List Nat) (c : QpCtx) (x : FnCtx) : State :=
  let s := (((live.setFld (R.HPORT_CFG.TOTAL_VFS 0) 4).setFld (R.QFAB_FNCFG.ENABLE 1) 1).setFld (R.QFAB_FNCFG.VF_INDEX 1) 1).setFld (R.QFAB_FNCFG.PERSONALITY 1) p
  let t := (s.setFn 0x1000 { s.fn 0x1000 with numVfs := 1 }).setFn 1 { x with atsEn := true }
  let u := (List.range locs.length).foldl (fun (s : State) i => (s.setReg (R.QFAB_QOWN.off (5 + i)) (BitVec.ofNat 64 (1 + 2 ^ 15 + locs.getD i 0 * 2 ^ 16))).setQp (5 + i) c) t
  { u with shut := { u.shut with
      atc := [{ dev := false, f := 1, pasid := none, base := 0, size := 0x10000, phys := 0x100000, r := true, w := true, u := false }] } }

def virtioOn : FnCtx := { FnCtx.reset with virtio := { VirtioState.reset with status := 15, latched := 4 } }
def nvmeOn : FnCtx := { FnCtx.reset with nvme := { NvmeState.reset with en := true, rdy := true, latched := 4, sqs := [1], cqs := [1, 2], eventsPend := [5] } }

/-- Its volume 0 is valid on back-end queue 3, which is enabled. -/
def backed (s : State) : State :=
  ((s.setReg (R.QFAB_BVOLA.off 1 0) (BitVec.ofNat 64 (7 + 3 * 2 ^ 32 + 2 ^ 41))).setReg (R.QFAB_BVOLB.off 1 0) 0x10000).setBit (R.QFAB_BEQ_WRING.ENABLE 3)

def blkOf (lba n : Nat) (ranges : List (Nat × Nat)) : BlkReq :=
  { cid := 1, idx := 0, nsid := 1, lba := lba, nbytes := n, segs := [(0, n)], ranges := ranges, statusAddr := 0x3000, fua := false, unmap := true, slots := 1 }

/-- 1 GiB of DRAM, which region 1 of table 0 gives to the Shell. -/
def ram (s : State) : State :=
  (({ s with dmc := { s.dmc with cap := 0x40000000 } } : State).setReg (R.SEAM_RGNA.off 0 1) 0x3FC00000000000).setReg (R.SEAM_RGNB.off 0 1) 0x3FFFF

/-! ### Personalities and the back end -/

theorem witness_virtio_transport :
    let s := persona 1 [0, 1, 2] { activeQp with shadow := 0x2000 } virtioOn
    let t := persona 2 [0] quiescedQp FnCtx.reset
    s.fnReady 1 ∧ s.pers 1 = 1 ∧ s.qpAt 1 0 = some 5 ∧ s.qpAt 1 3 = none ∧ (s.qp 5).st = .active ∧ s.packed 5 = false ∧ (s.ringRead 5 0x2002 2).2 = .inl [0, 0] ∧
    s.personaQps 1 = true ∧ (0x300000000 : BitVec 64).getLsbD 32 = true ∧ (0x300000000 : BitVec 64).getLsbD 33 = true ∧
    (0x300000000 : BitVec 64).toNat &&& vnetFeats = (0x300000000 : BitVec 64).toNat ∧ t.pers 1 = 2 ∧ sizeOk 32768 32768 = true ∧ sizeOk 3 32768 = false ∧
    (t.qp 5).st = .quiesced ∧ t.fnReady 1 := by
  exact ⟨⟨by decide +kernel, by decide +kernel, by decide +kernel⟩, by decide +kernel, by decide +kernel, by decide +kernel, by decide +kernel, by decide +kernel, by decide +kernel, by decide +kernel, by decide +kernel, by decide +kernel, by decide +kernel, by decide +kernel, by decide +kernel,
    by decide +kernel, by decide +kernel, ⟨by decide +kernel, by decide +kernel, by decide +kernel⟩⟩

theorem witness_nvme_transport :
    let s := persona 3 [0x200, 0x201] quiescedQp FnCtx.reset
    let t := persona 3 [0x200, 0x201] activeQp nvmeOn
    s.fnReady 1 ∧ s.pers 1 = 3 ∧ (s.fn 1).nvme.en = false ∧ s.qpAt 1 0x200 = some 5 ∧ (persona 3 [] quiescedQp FnCtx.reset).qpAt 1 0x200 = none ∧ (t.fn 1).nvme.en = true ∧
    1 ∈ (t.fn 1).nvme.sqs ∧ 3 ∉ (t.fn 1).nvme.sqs ∧ sizeOk 4096 4096 = true := by
  exact ⟨⟨by decide +kernel, by decide +kernel, by decide +kernel⟩, by decide +kernel, by decide +kernel, by decide +kernel, by decide +kernel, by decide +kernel, by decide +kernel, by decide +kernel, by decide +kernel⟩

theorem witness_net_control :
    let s := persona 1 [0, 1, 2] activeQp virtioOn
    let t := { s with selv := { s.selv with tabs := [{ table := 1, loc := [], image := [4, 0, 0, 0, 9, 0, 0, 0, 0, 0, 0, 0, 0, 0, 0, 0], since := none, till := none, bucket := 0 }] } }
    s.fnReady 1 ∧ s.pers 1 = 1 ∧ (s.fn 1).virtio.live = true ∧ t.vlanAllowed 1 9 = true ∧ t.vlanAllowed 1 8 = false ∧ (s.fn 1).virtio.latched = 4 ∧ (9 : Nat) ∉ (s.fn 1).virtio.vlans := by
  exact ⟨⟨by decide +kernel, by decide +kernel, by decide +kernel⟩, by decide +kernel, by decide +kernel, by decide +kernel, by decide +kernel, by decide +kernel, by decide +kernel⟩

theorem witness_virtio_blk :
    let s := backed (persona 2 [0] activeQp virtioOn)
    let v := s.vblkTaken 5 0 (blkOf 0x2468 4096 [])
    let w := s.vblkTaken 5 11 (blkOf 0 0 [(8, 8)])
    s.vblkTakes 5 ∧ v.2.volValid = true ∧ v.1.beqOn v.2 = true ∧ vblkBad v.2 (blkOf 0x2468 4096 []) = false ∧ vblkBad v.2 (blkOf 0 100 []) = true ∧
    vrangeBad w.2 (8, 8) = false ∧ ((persona 2 [0] activeQp virtioOn).vblkTaken 5 0 (blkOf 0 512 [])).2.volValid = false := by
  exact ⟨⟨⟨by decide +kernel, by decide +kernel, by decide +kernel, by decide +kernel, by decide +kernel, by decide +kernel⟩, by decide +kernel, by decide +kernel⟩, by decide +kernel, by decide +kernel, by decide +kernel, by decide +kernel, by decide +kernel, by decide +kernel⟩

theorem witness_nvme_io :
    let s := backed (persona 3 [0x201] activeQp nvmeOn)
    let v := s.nvmeTaken 5 2 (blkOf 0x2468 4096 [(0, 8)])
    s.nvmeTakes 5 ∧ v.2.volValid = true ∧ v.1.beqOn v.2 = true ∧ 0x2468 + 4096 / v.2.bsize ≤ v.2.capacity ∧ v.2.capacity < 0x10000 + 1 := by
  exact ⟨⟨⟨by decide +kernel, by decide +kernel, by decide +kernel, by decide +kernel, by decide +kernel, by decide +kernel⟩, by decide +kernel, by decide +kernel, by decide +kernel⟩, by decide +kernel, by decide +kernel, by decide +kernel, by decide +kernel⟩

/-- The spec's example: sector 0x2468 of 512 bytes goes to the back end as it is. -/
theorem test_blk_sector :
    (match exec (.virtioBlkIn 5 (blkOf 0x2468 4096 [])) (backed (persona 2 [0] activeQp virtioOn)) with
      | .next t => (t.beq 3).items.map (fun (i : BeqItem) => (i.op, i.lba, i.nbytes)) | _ => []) = [(0, 0x2468, 4096)] := by decide +kernel

theorem witness_nvme_admin :
    let s := backed (persona 3 [0x200, 0x201, 0x202] activeQp nvmeOn)
    let a := s.nvmeTaken 5 0x106 (adminReq 1)
    s.fnReady 1 ∧ s.pers 1 = 3 ∧ s.qpAt 1 0x200 = some 5 ∧ s.nvmeTakes 5 ∧ (s.qp 5).reqs = [] ∧ a.1.ioRing 1 2 = some 7 ∧ 1 ∈ (a.1.fn 1).nvme.cqs ∧
    3 ∉ (a.1.fn 1).nvme.cqs ∧ (a.1.fn 1).nvme.eventsPend = [5] ∧ (a.1.identify 1 2 0).isSome = true ∧ ((a.1.setFld (R.QFAB_FNCFG.MSIX_COUNT 1) 8).msixCount 1) = 8 ∧
    (a.1.drawn.access 5 0 4096 true (.walk 5 0)).2 = .at [(0x100000, 4096)] := by
  exact ⟨⟨by decide +kernel, by decide +kernel, by decide +kernel⟩, by decide +kernel, by decide +kernel, ⟨⟨by decide +kernel, by decide +kernel, by decide +kernel, by decide +kernel, by decide +kernel, by decide +kernel⟩, by decide +kernel, by decide +kernel, by decide +kernel⟩, by decide +kernel,
    by decide +kernel, by decide +kernel, by decide +kernel, by decide +kernel, by decide +kernel, by decide +kernel, by decide +kernel⟩

/-- A read of 4 KiB outstanding on back-end queue 3 as WID 11, for request 9 of QP 5. -/
def working (landed : List (Nat × Nat × Nat)) : State :=
  let it : BeqItem := { op := 0, wid := none, rid := 9, q := 5, f := 0x1000, flags := 0, acct := 0, vol := 7, lba := 0, nbytes := 4096, epoch := 0, time := 0, ranges := [], cls := 0, data := .host [(0, 4096)] }
  let s := requested (entry 0x20 4096 0 0 [])
  let t := (ram s).setFld (R.QFAB_BEQ_WRING.DEPTH 3) 3
  t.setBeq 3 { Beq.reset with
    works := [{ wid := 11, rid := 9, q := 5, f := 0x1000, op := 0, nbytes := 4096, cls := 0, data := .host [(0, 4096)], completeWith := none, item := it }]
    items := [it], landed := landed, cancelled := [12] }

theorem witness_back_end :
    let s := working [(11, 0, 64)]
    s.up = true ∧ s.panelHeld 0 = false ∧ s.bit (R.QFAB_BEQ_WRING.ENABLE 3) = true ∧ ((s.beq 3).items.head?.map fun i => decide (i.slots ≤ s.beqRoom 3)) = some true ∧
    ((s.beq 3).works.find? fun w => w.wid == 11).isSome = true ∧ ((s.beq 3).works.find? fun w => w.wid == 13) = none ∧ (s.beq 3).cancelled.contains 12 = true ∧
    (s.beq 3).cancelled.contains 11 = false ∧ s.beqAddrOk 3 0x100000 4096 .read = true ∧ s.beqAddrOk 3 0x100000 4096 .write = true ∧ ((s.qp 5).req? 9).isSome = true ∧
    s.channelFree 5 = true ∧ (s.rspTaken 3).movesOpen 3 11 = false ∧ (s.beq 3).landed.contains (11, 0, 64) = true ∧
    (((requested []).setBeq 3 { Beq.reset with items := (s.beq 3).items }).setFld (R.QFAB_BEQ_DB.WTAIL 3) 1).beqRoom 3 = 0 := by decide +kernel


/-- A register's tag admits a requester, as a Bool. -/
def opensB (s : State) (who : Agent) (off : Nat) : Bool :=
  match regTag off with
  | some t => s.tagAdmits t off who
  | none => false

theorem opens_of {s : State} {who : Agent} {off : Nat} (h : opensB s who off = true) : s.opens who off := by
  unfold opensB at h
  split at h
  · exact ⟨_, ‹_›, h⟩
  · exact absurd h (by decide)

theorem stages_of {s : State} {r : OnfReq} {named : Option Nat} {ss : Session}
    (h : decide (s.openSession = some ss ∧ named.getD ss.number = ss.number ∧ ss.owner = r.sender ∧ (ss.critical = true → r.crit = true) ∧
      ss.armed = none ∧ s.linkLost = false) = true) : s.stages r named ss :=
  match of_decide_eq_true h with
  | ⟨a, b, c, d, e, f⟩ => ⟨⟨a, b, c, d⟩, e, f⟩

/-! ### Translation, local channels, packets, tables, the Tape -/

/-- A walk of request 9 of QP 5 waits for a page: as a Translation Request, a group to be sent, and a group sent under index 3. -/
def waitingAts : AtsReq := { tag := 2, f := 0x1000, pasid := none, page := 0x5000, write := false, by_ := .fetch 5, tries := 0 }
def waitingPrg (sent : Bool) : Prg :=
  { f := 0x1000, port := 0, prgi := 3, sent := sent, reserved := false, late := false, pasid := none, page := 0x5000, write := false, by_ := .fetch 5, tries := 0 }
def parkedAccess (g : List Prg) : State :=
  let s := owned activeQp
  let t := s.setFn 0x1000 { s.fn 0x1000 with atsEn := true, priEn := true, priAlloc := 4 }
  { t with shut := { t.shut with ats := [waitingAts], prgs := g } }

theorem witness_translation :
    let s := parkedAccess [waitingPrg false]
    let t := parkedAccess [waitingPrg true]
    s.up = true ∧
    (s.shut.ats.find? fun x => x.tag == 2) = some waitingAts ∧
    (s.shut.ats.find? fun x => x.tag == 1) = none ∧
    (s.shut.prgs.find? fun x => x.port == 0 && !x.sent && !x.late) = some (waitingPrg false) ∧
    s.prgFree 0 = true ∧
    (t.prgFree 1) = false ∧
    (t.shut.prgs.find? fun x => x.f == 0x1000 && x.sent && x.prgi == 3 && decide (x.port < 32)) = some (waitingPrg true) ∧
    (t.shut.prgs.find? fun x => x.f == 0x1000 && x.sent && x.prgi == 3 && decide (x.port < 32) && !x.reserved && !x.late) = some (waitingPrg true) ∧
    (t.shut.prgs.find? fun x => x.f == 0x1000 && x.sent && x.prgi == 4 && decide (x.port < 32)) = none ∧
    (s.qp 5).st = .active ∧
    (s.qp 5).contained = false := by decide +kernel

theorem witness_invalidation :
    let e : AtcEnt := { dev := true, f := 0x1000, pasid := some 7, base := 0x4000, size := 0x1000, phys := 0, r := true, w := true, u := false }
    let s := ram { mapped live with shut := { (mapped live).shut with atc := e :: (mapped live).shut.atc } }
    s.up = true ∧
    s.shut.xfers = [] ∧
    s.ringsOf 0x1000 = [] ∧
    s.shut.invals = [] ∧
    s.shut.atc.length = 2 ∧
    s.memCheck (.queueTile 0) (0x1000 : W64).toNat 4 .write = .ok := by decide +kernel

/-- Local channel 0, the Lining's. -/
def channel (c : QpCtx) : State := (live.setReg (R.SHUT_LCWORLD.off 0) 1).setQp 65536 c
def lcOff : QpCtx := QpCtx.reset true
def lcOn : QpCtx := { lcOff with st := .active, enable := true }

theorem witness_local_channels :
    let s := channel lcOff
    let bad := { lcOff with sqBase := 8 }
    let x : Xfer := { moving with lc := true, f := 0, q := 65536, st := .parked }
    let t : State := { channel lcOn with shut := { live.shut with xfers := [x], keyData := [1, 2, 3, 4, 5, 6, 7, 8] } }
    s.up = true ∧
    s.opens (.bobbin 6) R.SHUT_LRESP.off ∧
    t.xfer? 4 = some x ∧
    x.lc = true ∧
    x.st = .parked ∧
    s.xfer? 4 = none ∧
    s.opens (.bobbin 6) (R.LC_DB.off 0) ∧
    s.opens (.bobbin 6) (R.LC_CTL.off 0) ∧
    (s.qp 65536).st = .quiesced ∧
    (s.qp 65536).drain = none ∧
    (s.setQp 65536 { s.qp 65536 with world := s.lcLining 0 }).enableOk 65536 = true ∧
    (s.qp 65536).held = false ∧
    (s.qp 65536).sessHeld = false ∧
    ((channel bad).setQp 65536 { bad with world := (channel bad).lcLining 0 }).enableOk 65536 = false ∧
    (t.qp 65536).st = .active ∧
    (t.qp 65536).contained = false ∧
    s.opens (.bobbin 6) R.SHUT_KEYCMD.off ∧
    (((List.range 8).flatMap fun i => leBytes 8 (t.shut.keyData.getD i 0).toNat).take 32 ≠ ((List.range 8).flatMap fun i => leBytes 8 (t.shut.keyData.getD i 0).toNat).drop 32) ∧
    (((List.range 8).flatMap fun i => leBytes 8 (s.shut.keyData.getD i 0).toNat).take 32 = ((List.range 8).flatMap fun i => leBytes 8 (s.shut.keyData.getD i 0).toNat).drop 32) ∧
    regTag R.SHUT_KEYCMD.off = some .l ∧
    s.tagAdmits .l R.SHUT_KEYCMD.off (.hart 3) = false := by
  refine ⟨?_, opens_of (by decide +kernel), ?_, ?_, ?_, ?_, opens_of (by decide +kernel), opens_of (by decide +kernel), ?_, ?_, ?_, ?_, ?_, ?_, ?_, ?_, opens_of (by decide +kernel), ?_, ?_, ?_, ?_⟩ <;> decide +kernel

/-- Selvedge runs, and Ethernet group 0 has eight lanes of 25 Gb/s. -/
def netUp : State := (live.setFld R.SELV_CFG.ENABLE 1).setFld (R.EMAC_GCFG.MODE 0) 4
def plainFrame : List Byte := List.replicate 12 0x11 ++ [0x88, 0xB5] ++ zeros 46
/-- An inner packet of tenant space 3 that waits for the flow table. -/
def missing : Pkt := { netUp.newPkt 0 true 1 plainFrame none 0 with tsid := some 3 }
def waitFlow : State :=
  let x : TabEnt := { table := 2, loc := (netUp.stage12 missing).1.key, image := zeros 64, since := none, till := none, bucket := 0 }
  { netUp with selv := { netUp.selv with miss := [missing], tabs := [x] } }
def waitFrame : TxPkt := { frame := plainFrame, acct := none, fromPort := false, src := 0, cls := 2 }
def waitSend : State := { netUp with selv := { netUp.selv with egress := [(classKey 3 2, [waitFrame])] } }

theorem witness_frames :
    let s := netUp
    let p := missing
    let w := waitFlow
    s.up = true ∧
    s.panelHeld (macPanel 3) = false ∧
    s.sys.gated = false ∧
    s.role ≠ 3 ∧
    s.ethPort s.epoch 3 = true ∧
    s.ethPort s.epoch 47 = false ∧
    60 ≤ plainFrame.length ∧
    cells plainFrame ≤ s.cellsFree (s.rxPipe 3 plainFrame) ∧
    (w.selv.miss.find? fun y => y.pipe == 0) = some p ∧
    ((w.missTake p).stage12 p).2 = none ∧
    ((w.missTake p).flowFind p.epoch (((w.missTake p).stage12 p).1.tsid.getD 0) ((w.missTake p).stage12 p).1.key).isSome = true ∧
    flowAcl (zeros 64) = false ∧
    (((w.missTake p).cacheFill 0 ((w.missTake p).stage12 p).1.key).takeFlow ((w.missTake p).stage12 p).1 (w.selv.tabs.headD ⟨0, [], [], none, none, 0⟩)).2 = none ∧
    (s.selv.miss.find? fun y => y.pipe == 0) = none ∧
    ((w.selv.miss.filter fun y => y.pipe == 0)[0]?) = some p ∧
    200000 < ({ w with tmu := { w.tmu with t00 := 2 ^ 32 * 200001 } }).now - p.time ∧
    w.now - p.time ≤ 200000 := by decide +kernel

theorem witness_frames_sent :
    let cn : Conn := { key := ctKey 5 [1], rkey := ctKey 5 [2], st := .closed, expires := 10, seqO := none, seqR := none, finO := false, finR := false, nat := none }
    let s := { netUp with selv := { netUp.selv with conns := [cn] } }
    let k := waitSend.etcPick 3
    let v := netUp.setBit (R.EMAC_GCFG.PFC_EN 0)
    let x := ((ram netUp).setFld (R.SELV_EXQ_DB.RI_TAIL 2) 1).setFld (R.SELV_EXQ_RIRING.DEPTH 2) 3
    let e := leBytes 8 0x2000 ++ leBytes 2 60 ++ zeros 22
    let y := { x with mem := Memory.writeN x.mem 0 e }
    (s.selv.conns.find? fun y => y.key == ctKey 5 [1]) = some cn ∧
    s.mirrored = false ∧
    s.now ≤ cn.expires ∧
    cn.expires < ({ s with tmu := { s.tmu with t00 := 2 ^ 32 * 11 } }).now ∧
    k.2 = some 2 ∧
    k.1.classQ 3 2 = [waitFrame] ∧
    waitSend.ethPort waitSend.epoch 3 = true ∧
    v.bit (R.EMAC_GCFG.PFC_EN (3 / 8)) = true ∧
    v.ethPort v.epoch 3 = true ∧
    (4 : BitVec 8).getLsbD 2 = true ∧
    y.fld (R.SELV_EXQ_DB.RI_HEAD 2) % 2 ^ (y.fld (R.SELV_EXQ_RIRING.DEPTH 2) + 1) ≠ y.fld (R.SELV_EXQ_DB.RI_TAIL 2) % 2 ^ (y.fld (R.SELV_EXQ_RIRING.DEPTH 2) + 1) ∧
    y.memCheck (.queueTile 0) (y.fld (R.SELV_EXQ_RIRING.BASE 2) * 4096) 32 .read = .ok ∧
    14 ≤ leAt (y.devRead 0 32) 8 2 ∧
    leAt (y.devRead 0 32) 8 2 ≤ 9216 ∧
    y.memCheck (.queueTile 0) (leAt (y.devRead 0 32) 0 8) (leAt (y.devRead 0 32) 8 2) .read = .ok ∧
    9216 < leAt (leBytes 8 0x2000 ++ leBytes 2 9217 ++ zeros 22) 8 2 := by decide +kernel

/-- A table's image that may be added: an action entry. -/
def anEntry (t i : Nat) : TabImage := { index := i, image := zeros (tabSize t) }
def withEntry : State := { inSession (sess 35) with selv := { live.selv with tabs := [{ table := 4, loc := tabLoc 4 (anEntry 4 5), image := zeros 64, since := none, till := none, bucket := 0 }] } }

theorem witness_tables :
    let s := inSession (sess 32)
    let h := inSession { sess 35 with owner := 1 }
    let f := inSession (sess 32)
    let w := withEntry
    let r := asks 32
    s.admits r 0x0A01 = true ∧
    s.stages r (some 3) (sess 32) ∧
    (s.heard r (some 3)).bit R.SELV_COMMIT.SWEEP = false ∧
    (s.heard r (some 3)).tabRefusal 1 1 (anEntry 1 0) = 0 ∧
    (s.heard r (some 3)).tabRefusal 1 2 (anEntry 1 0) ≠ 0 ∧
    w.tabRefusal 4 2 (anEntry 4 5) = 0 ∧
    w.tabRefusal 4 1 (anEntry 4 5) ≠ 0 ∧
    w.tabRefusal 4 3 (anEntry 4 5) = 0 ∧
    h.opens (.bobbin 6) R.SELV_TW_CMD.off ∧
    h.hartStage (.bobbin 6) false = .staged ∧
    h.bit R.SELV_COMMIT.SWEEP = false ∧
    h.mirrored = false ∧
    f.hartStage (.bobbin 6) false = .foreign ∧
    s.admits r 0x0A02 = true ∧
    (live.admits (asks 0) 0x0A02) = true ∧
    (match w.tabReads false 4 [anEntry 4 5] with | .ok b => b == zeros 64 | _ => false) = true ∧
    (match w.tabReads true 4 [anEntry 4 5] with | .ok b => b == zeros 64 | _ => false) = true ∧
    (live.setBit R.SELV_COMMIT.SWEEP).bit R.SELV_COMMIT.SWEEP = true ∧
    live.selv.miss = [] := by
  refine ⟨?_, stages_of (by decide +kernel), ?_, ?_, ?_, ?_, ?_, ?_, opens_of (by decide +kernel), ?_, ?_, ?_, ?_, ?_, ?_, ?_, ?_, ?_, ?_⟩ <;> decide +kernel

/-- Minute 28,000,000; account 4 is enabled. -/
def later (s : State) (ns : Nat) : State := { s with tmu := { s.tmu with t00 := 2 ^ 32 * ns } }
def counted : State := (live.setBit (R.TAPE_ACCT.ENABLE 4))
def closedBank : TapeBank := { TapeBank.empty with counts := [(64, 5)], closed := true, first := 3 }

theorem witness_counting :
    let s := counted
    let i : State := { counted with tape := { counted.tape with bank0 := closedBank, bank1 := closedBank } }
    let k := i.clrBit R.TAPE_STATUS.DRAINED
    let p := counted.setFld R.GALV_STATUS.ROLE 1
    let rg := (counted.setReg R.TAPE_RING.off (BitVec.ofNat 64 (2 ^ 44 + 2 ^ 63))).setFld R.TAPE_RING_PTR.TAIL 4
    s.up = true ∧
    s.acctOn 4 = true ∧
    s.acctOn 5 = false ∧
    5 ≠ s.fld R.TAPE_CFG.ORPHAN_ACCT ∧
    k.idleBank.closed = true ∧
    k.bit R.TAPE_STATUS.DRAINED = false ∧
    s.fld R.TAPE_STATUS.BANK = 0 ∧
    s.tape.lastTick < (later s 5000000000).now / 1000000000 ∧
    s.role ≠ 2 ∧
    s.now / 1000000000 ≤ s.tape.lastTick ∧
    s.opens (.bobbin 6) R.TAPE_RING_PTR.off ∧
    (2 : W64).toNat % 2 ^ 32 < ringUnits (rg.reg R.TAPE_RING.off) ∧
    fromHead (rg.fld R.TAPE_RING_PTR.HEAD) (ringUnits (rg.reg R.TAPE_RING.off)) 2 ≤ fromHead (rg.fld R.TAPE_RING_PTR.HEAD) (ringUnits (rg.reg R.TAPE_RING.off)) (rg.fld R.TAPE_RING_PTR.TAIL) ∧
    fromHead (rg.fld R.TAPE_RING_PTR.HEAD) (ringUnits (rg.reg R.TAPE_RING.off)) (rg.fld R.TAPE_RING_PTR.TAIL) < fromHead (rg.fld R.TAPE_RING_PTR.HEAD) (ringUnits (rg.reg R.TAPE_RING.off)) 5 ∧
    p.paired = true ∧
    p.bank.first ≤ 0 ∧
    s.paired = false ∧
    k.idleBank.first + k.idleBank.span = 3 + 1 ∧
    skewed (101 : W64).toNat k.tape.cutTime = true := by
  refine ⟨?_, ?_, ?_, ?_, ?_, ?_, ?_, ?_, ?_, ?_, opens_of (by decide +kernel), ?_, ?_, ?_, ?_, ?_, ?_, ?_, ?_⟩ <;> decide +kernel

theorem witness_banks :
    let s := later counted 120000000000
    let n := s.clrBit R.TAPE_STATUS.DRAINED
    let rg := BitVec.ofNat 64 (2 ^ 44 + 2 ^ 63)
    let d := ((ram ({ n with tape := { n.tape with bank0 := closedBank, bank1 := closedBank, ringUsed := rg } })).setReg R.TAPE_RING.off rg)
    let w := { d with tape := { d.tape with draining := true } }
    let full := (d.setFld R.TAPE_RING_PTR.HEAD 1).setFld R.TAPE_RING_PTR.TAIL 0
    let p := d.setFld R.GALV_STATUS.ROLE 1
    let bv := { w with tape := { w.tape with bank0 := { closedBank with void := true }, bank1 := { closedBank with void := true } } }
    s.sys.phase ≠ .por ∧
    s.engs = [] ∧
    s.edgeOnMinute = false ∧
    s.paired = false ∧
    s.minuteDue = true ∧
    (s.setBit R.TAPE_STATUS.DRAINED).bit R.TAPE_STATUS.DRAINED = true ∧
    n.bit R.TAPE_STATUS.DRAINED = false ∧
    counted.minuteDue = false ∧
    d.drainReady = true ∧
    d.ringRoom (recUnits d.idleBank.recBytes) = true ∧
    full.drainReady = true ∧
    full.ringRoom (recUnits full.idleBank.recBytes) = false ∧
    s.drainReady = false ∧
    w.tape.draining = true ∧
    w.idleBank.void = false ∧
    w.recPlace (recUnits w.idleBank.recBytes) = (none, 0) ∧
    w.memCheck .tape 0 w.idleBank.recBytes .write = .ok ∧
    w.tape.ringChanged = false ∧
    bv.idleBank.void = true ∧
    s.tape.draining = false ∧
    p.paired = true ∧
    p.idleBank.closed = true ∧
    p.bit R.TAPE_STATUS.DRAINED = false ∧
    p.tape.draining = false ∧
    p.peerCut (p.idleBank.first + p.idleBank.span - 1) = none ∧
    p.tape.cutTime + 1000000 ≤ p.now ∧
    counted.now < counted.tape.cutTime + 1000000 := by decide +kernel

theorem witness_tape_commands :
    let s := inSession (sess 32)
    let c : Session := { sess 35 with critical := true }
    let rec_ : TapeRec := { rseq := 4, unit := 0, bytes := 4096 }
    let t := { s with tape := { s.tape with recs := [rec_] } }
    s.admits (asks 32) 0x0401 = true ∧
    t.tapeRecords none 16 = some [rec_] ∧
    t.tapeRecords (some 4) 1 = some [rec_] ∧
    t.tapeRecords (some 5) 1 = none ∧
    s.admits (asks 32) 0x0402 = true ∧
    s.stages (asks 32) none (sess 32) ∧
    (inSession c).openSession = some c ∧
    (0x1000 : W64).toNat % 4096 = 0 := by
  refine ⟨?_, ?_, ?_, ?_, ?_, stages_of (by decide +kernel), ?_, ?_⟩ <;> decide +kernel

/-! ### Faults, the twin, worlds, SPDM, keys -/

def faulted (cls : Nat) (scope : FaultScope) : FaultInfo := { mech := 2, cls := cls, panel := 1, tile := 3, unit := 0, detail := 0, scope := scope }

theorem witness_faults :
    let s := owned activeQp
    let w := s.setBit R.SAFE_WDOG.ENABLE
    s.up = true ∧
    s.sys.phase = .running ∧
    s.safe.contUntil ≤ s.now ∧
    faultFits (faulted 2 (.qp 5)) = true ∧
    (s.qp 5).st ≠ .free ∧
    faultFits (faulted 2 (.function 0x1000)) = true ∧
    faultFits (faulted 4 (.panel 1)) = true ∧
    faultFits (faulted 1 (.transfer 6)) = true ∧
    s.xfer? 6 = none ∧
    faultFits (faulted 5 .device) = true ∧
    faultFits (faulted 1 (.qp 5)) = false ∧
    s.now < ({ s with safe := { s.safe with contUntil := 1 } } : State).safe.contUntil ∧
    w.bit R.SAFE_WDOG.ENABLE = true ∧
    s.tidy = true ∧
    w.tidy = true ∧
    s.bit R.SAFE_WDOG.ENABLE = false ∧
    s.opens (.bobbin 6) R.SAFE_WDOG.off ∧
    w.opens (.bobbin 6) R.SAFE_WDOG.off ∧
    (0x1000000000 : W64).getLsbD 36 = true ∧
    s.opens (.bobbin 6) R.SAFE_INJECT.off ∧
    s.safe.inject = none ∧
    (0x403 : W64).getLsbD 10 = true ∧
    (0x403 : W64).toNat % 16 = 3 ∧
    s.bit R.SAFE_REC0.VALID = false ∧
    5 ∈ (owned activeQp).ringsHomed 0 ∧
    5 ∈ s.ringsOf 0x1000 := by
  refine ⟨?_, ?_, ?_, ?_, ?_, ?_, ?_, ?_, ?_, ?_, ?_, ?_, ?_, ?_, ?_, ?_, opens_of (by decide +kernel), opens_of (by decide +kernel), ?_, opens_of (by decide +kernel), ?_, ?_, ?_, ?_, ?_, ?_⟩ <;> decide +kernel

/-- A trained link of a twin in a role, whose peer is paired. -/
def twin (role : Nat) (p : PeerSt) : State :=
  let s := (keyed.setFld R.GALV_STATUS.ROLE role).setBit R.GALV_STATUS.LINK_UP
  { s with galv := { s.galv with peer := p } }
def synced (role : Nat) : State := (twin role .paired).setBit R.GALV_STATUS.SYNC
def pairFor (role : Nat) (ok : Bool) : Pairing := { req := asks 32, action := 0, role := role, serial := 1, pairId := 2, accepted := ok }
def answered : PairInfo := { serial := 9, pairId := 2, role := 0, schema := 1, feat := 0, qpsIdle := true, stateOk := true, ports := [], gate := 0, shadowOk := true }
def pairing (ok : Bool) : State :=
  let s := twin 0 .none
  { s with galv := { s.galv with pairing := some (pairFor 1 ok), peerInfo := some answered } }
def flit (ok nak : Bool) (seq : Nat) (p : FlitPayload) : Flit := { crcOk := ok, seq := seq, ack := 0, nak := nak, payload := p }

theorem witness_pairing :
    let s := twin 1 .paired
    let z := twin 0 .none
    let r := asksCrit 32
    let u := { s with galv := { s.galv with unacked := [(0, 1, FlitPayload.heartbeat)] } }
    s.up = true ∧
    s.linkUp = true ∧
    (flit true false 0 .heartbeat).seq = s.galv.rxNext ∧
    s.role ≠ 0 ∧
    (flit true false 1 .heartbeat).seq ≠ s.galv.rxNext ∧
    u.galv.unacked ≠ [] ∧
    s.galv.unacked = [] ∧
    live.linkUp = false ∧
    z.admits r 0x0501 = true ∧
    z.galv.pairing = none ∧
    z.galv.peerInfo = none ∧
    z.openSession = none ∧
    z.qpsIdle = true ∧
    z.role = 0 ∧
    s.role = 1 ∧
    s.sync = false ∧
    (twin 1 .solo).galv.peer ≠ .paired ∧
    (twin 1 .solo).sync = false ∧
    (twin 3 .none).admits r 0x0501 = true ∧
    (twin 3 .none).role = 3 ∧
    s.admits r 0x0501 = true ∧
    (pairing false).galv.pairing = some (pairFor 1 false) ∧
    (pairing true).galv.peerInfo = some answered ∧
    (pairing true).linkUp = true ∧
    (pairing true).role ≠ 3 ∧
    (pairing true).galv.pairing = some (pairFor 1 true) := by decide +kernel

def edgeAt (ok : Bool) (mode : Nat) : Handoff := { req := asks 32, mode := mode, time := 5, confirmed := ok, edge := false }
def handing (ok : Bool) (ns : Nat) : State :=
  let s := later (synced 1) ns
  { s with galv := { s.galv with handoff := some (edgeAt ok 1) } }

theorem witness_journal_and_handoff :
    let s := synced 1
    let m := (owned activeQp).setFld R.GALV_STATUS.ROLE 1 |>.setBit R.GALV_STATUS.SYNC
    let r := asksCrit 32
    let e : JHead := { q := 7, jseq := 3, strict := false, network := false, write := true }
    let g := { s with galv := { s.galv with releasing := [5] } }
    let b := { m with galv := { m.galv with releasing := [5] } }
    let cs : Session := { sess 32 with critical := true, owner := 9 }
    let k : State := { (twin 1 .paired) with onf := { keyed.onf with session := some cs } }
    s.up = true ∧
    s.paired = true ∧
    s.galv.peer = .paired ∧
    s.galv.peerHandoff = none ∧
    s.bank.first ≤ s.minute ∧
    live.paired = false ∧
    m.mirrored = true ∧
    m.servedRings = [5] ∧
    (m.qp 5).st = .active ∧
    m.isVirtio 5 = false ∧
    live.mirrored = false ∧
    e.jseq = 3 ∧
    s.admits r 0x0502 = true ∧
    s.sync = true ∧
    s.onf.session = none ∧
    s.galv.handoff = none ∧
    s.role = 1 ∧
    (synced 2).role ≠ 1 ∧
    (twin 1 .paired).sync = false ∧
    (40000 : W64).toNat < s.now + 50000 ∧
    (handing true 9).galv.handoff = some (edgeAt true 1) ∧
    (edgeAt true 1).time ≤ (handing true 9).now ∧
    (handing true 9).sync = true ∧
    (handing true 3).now < (edgeAt true 1).time ∧
    g.galv.releasing ≠ [] ∧
    g.trailingWork = false ∧
    ({ b with qps := [(5, { activeQp with reqs := [asked []] })] } : State).trailingWork = true ∧
    (synced 1).admits r 0x0503 = true ∧
    k.admits (asksCrit 32) 0x0503 = true ∧
    k.role = 1 ∧
    cs.critical = true ∧
    live.role ≠ 1 ∧
    ({ k with galv := keyed.galv, regs := keyed.regs } : State).stages (asksCrit 32) (some 3) cs := by
  refine ⟨?_, ?_, ?_, ?_, ?_, ?_, ?_, ?_, ?_, ?_, ?_, ?_, ?_, ?_, ?_, ?_, ?_, ?_, ?_, ?_, ?_, ?_, ?_, ?_, ?_, ?_, ?_, ?_, ?_, ?_, ?_, ?_, stages_of (by decide +kernel)⟩ <;> decide +kernel

theorem witness_takeover :
    let s := twin 1 .paired
    let ok := s.setBit R.GALV_STATUS.ALIVE_OK
    let hb := { s with galv := { s.galv with heartbeat := true } }
    let st := { s with galv := { s.galv with settling := true } }
    let f := (twin 3 .paired).setBit R.GALV_STATUS.SYNC |>.setBit R.GALV_STATUS.FENCE_IN
    let q := (twin 1 .fenced).setQp 131077 { activeQp with recon := true, adopted := true }
    s.up = true ∧
    s.mayTake = true ∧
    live.mayTake = false ∧
    s.bit R.GALV_STATUS.FAULT_IN = false ∧
    s.galv.heartbeat = false ∧
    hb.galv.heartbeat = true ∧
    hb.paired = true ∧
    hb.galv.peer = .paired ∧
    (s.clrBit R.GALV_STATUS.ALIVE_OK).bit R.GALV_STATUS.ALIVE_OK = false ∧
    (hb.setBit R.GALV_STATUS.ALIVE_OK).bit R.GALV_STATUS.ALIVE_OK = true ∧
    hb.trailingWork = false ∧
    live.paired = false ∧
    s.role = 1 ∧
    live.role ≠ 1 ∧
    st.galv.settling = true ∧
    s.galv.settling = false ∧
    q.panelHeld (ringHome 131077) = false ∧
    (q.qp 131077).recon = true ∧
    q.galv.settling = false ∧
    ok.bit R.GALV_STATUS.ALIVE_OK = true ∧
    (s.setFld R.GALV_CFG.FENCE_HOLD_MS 0).fld R.GALV_CFG.FENCE_HOLD_MS = 0 ∧
    (s.setFld R.GALV_CFG.FENCE_HOLD_MS 7).fld R.GALV_CFG.FENCE_HOLD_MS ≠ 0 ∧
    ({ f with galv := { f.galv with holding := true } } : State).galv.holding = true ∧
    f.role = 3 ∧
    f.sync = true ∧
    f.galv.peer = .paired ∧
    f.bit R.SPOOL_STATUS.UNGATED = true ∧
    f.galv.holding = false := by decide +kernel

theorem witness_worlds :
    let s := live
    s.up = true ∧
    (s.reg R.PWR_CLAIM_HART.off).getLsbD 0 = true ∧
    (s.reg R.PWR_CLAIM_HART.off).getLsbD 63 = false ∧
    s.opens (.bobbin 6) R.PWR_CLAIM_HART.off ∧
    s.opens (.bobbin 6) R.PWR_CLAIM_BLK.off ∧
    s.opens (.bobbin 6) R.SEAM_GPIOW.off ∧
    s.fld R.SEAM_DEBUG.OPEN % 2 = 0 ∧
    regTag R.PWR_CLAIM_HART.off = some .l ∧
    s.tagAdmits .l R.PWR_CLAIM_HART.off (.hart 3) = false ∧
    regTag R.PWR_CLAIM_BLK.off = some .l ∧
    regTag R.SEAM_GPIOW.off = some .l ∧
    (Priv.vs ≠ .m) := by
  refine ⟨?_, ?_, ?_, opens_of (by decide +kernel), opens_of (by decide +kernel), opens_of (by decide +kernel), ?_, ?_, ?_, ?_, ?_, ?_⟩ <;> decide +kernel

/-- Host port 0 is up and has an SPDM connection; session 1 is established and session 2 shaking hands; stream 1 is secure, stream 2 programmed. -/
def spoken (conn : Nat) : State :=
  { live with links := [(0, { trained := true, err := false })],
              spdm := [(0, { conn := conn, sess := [(1, 2), (2, 1)], nextSid := 3, ide := [(1, 2), (2, 1)] })] }

theorem witness_spdm :
    let s := spoken 3
    s.up = true ∧
    s.panelHeld (0 / 8) = false ∧
    s.portOn false 0 = true ∧
    (s.link 0).trained = true ∧
    3 ≤ (s.spdmOf 0).conn ∧
    (spoken 1).portOn false 0 = true ∧
    (spoken 2).spdmOf 0 ≠ s.spdmOf 0 ∧
    smGet 0 (s.spdmOf 0).sess 1 = 2 ∧
    smGet 0 (s.spdmOf 0).sess 2 = 1 ∧
    smGet 0 (s.spdmOf 0).sess 7 ≠ 2 ∧
    s.ideOf 0 1 = 2 ∧
    s.ideOf 0 2 = 1 ∧
    s.ideOf 0 0 = 0 ∧
    s.measured 0 = some [] ∧
    (s.measured 9).isNone = true ∧
    (zeros 96).length = 96 ∧
    (zeros 32).length = 32 := by decide +kernel

/-- FIPS 197, C.3: AES-256 of one block. -/
def fipsKey : List Byte := (List.range 32).map (BitVec.ofNat 8)
def fipsText : List Byte := [0x00, 0x11, 0x22, 0x33, 0x44, 0x55, 0x66, 0x77, 0x88, 0x99, 0xAA, 0xBB, 0xCC, 0xDD, 0xEE, 0xFF]

/-- FIPS 197, C.3. -/
theorem test_aes256 :

    aesEcb fipsKey true fipsText = [0x8E, 0xA2, 0xB7, 0xCA, 0x51, 0x67, 0x45, 0xBF, 0xEA, 0xFC, 0x49, 0x90, 0x4B, 0x49, 0x60, 0x89] := by decide +kernel

def keyHeld : SenderKey := { sender := 9, key := fipsKey, perms := 63, revoked := false, ctr := 4 }
def keyHeld2 (slots : List Nat) : State := { live with onf := { live.onf with keys := slots.map fun i => (i, keyHeld), ceil0 := 100, ceil1 := 100 } }

theorem witness_keys :
    let s := keyHeld2 [5]
    let t := keyHeld2 [5, 6]
    let z := keyHeld2 [0, 5]
    let h := live.setHart 3 { Hart.reset with released := true }
    s.admits (asksCrit 32) 0x0901 = true ∧
    (s.taken (asksCrit 32)).keyOf 9 = some (5, { keyHeld with ctr := 5 }) ∧
    ((s.taken (asksCrit 32)).onf.keys.find? fun e => e.1 == 5 && !e.2.revoked) = some (5, { keyHeld with ctr := 5 }) ∧
    (s.taken (asksCrit 32)).keysLeft 5 = false ∧
    t.keysLeft 6 = true ∧
    (t.onf.keys.find? fun e => e.1 == 6 && !e.2.revoked) = some (6, keyHeld) ∧
    z.keysLeft 0 = true ∧
    z.bit R.FUSE_PROG.BUSY = false ∧
    t.admits (asksCrit 32) 0x0901 = true ∧
    z.admits (asksCrit 32) 0x0901 = true ∧
    s.admits (asksCrit 32) 0x0902 = true ∧
    s.admits (asksCrit 32) 0x0903 = true ∧
    (h.hart 3).released = true ∧
    h.up = true := by decide +kernel

/-! ### Harts, power, boot, timers, Moult, DRAM -/

/-- Hart 12 runs in the Shell, beside 1 GiB of Shell DRAM with a poisoned line. -/
def running : State :=
  let s := (ram live).setHart 12 { Hart.reset with released := true }
  { s with safe := { s.safe with poison := [(0x2000, 64)] } }
/-- The worked example of chapter 10: the ledger ring's region, Lining-owned and readable by the Shell. -/
def ledger : State :=
  let s := running
  (({ s with dmc := { s.dmc with cap := 0x400000000 } } : State).setReg (R.SEAM_RGNA.off 0 5) 0x0032D000001F0000).setReg (R.SEAM_RGNB.off 0 5) 0x1FFFFF

theorem witness_hart_memory :
    let s := running
    let o := s.setFld R.SEAM_DEBUG.OPEN 15
    s.up = true ∧
    s.hartRuns 12 = true ∧
    s.cacheable 0x1000 = true ∧
    s.memCheck (.hart 12) 0x1000 8 .read = .ok ∧
    s.memCheck (.hart 12) 0x1000 4 .fetch = .ok ∧
    s.memCheck (.hart 12) 0x1000 8 .write = .ok ∧
    ledger.memCheck (.hart 12) 0x1F0004000 8 .read = .ok ∧
    ledger.memCheck (.hart 12) 0x1F0004008 8 .write = .refused 0 5 ∧
    ledger.memCheck (.hart 12) 0x1F0004008 8 .fetch = .refused 0 5 ∧
    s.memCheck (.hart 12) 0x2010 8 .read = .poison ∧
    s.cacheable 0x20010000000 = false ∧
    (0x20010000001 % 2) ≠ 0 ∧
    s.memCheck (.hart 12) 0x1000 64 .write = .ok ∧
    ledger.memCheck (.hart 12) 0x1F0004000 64 .write = .refused 0 5 ∧
    (o.fld R.SEAM_DEBUG.OPEN).testBit 0 = true ∧
    (o.fld R.SEAM_DEBUG.OPEN).testBit 2 = true ∧
    o.memCheck (.debug false) 0x1000 8 .write = .ok ∧
    o.memCheck (.debug true) 0x1000 8 .read = .ok ∧
    ledger.memCheck (.debug false) 0x1F0004008 8 .write = .refused 0 5 ∧
    (s.fld R.SEAM_DEBUG.OPEN).testBit 0 = false := by decide +kernel

/-- Chapter 10's worked example, Table 10-9. -/
theorem test_refused_store :
    let t := match exec (.hartStore 12 0x1F0004008 [1, 2, 3, 4, 5, 6, 7, 8]) ledger with | .next t => t | _ => ledger
    t.reg R.SEAM_LOG0.off = (0x5000C0003 : W64) ∧
    t.reg R.SEAM_LOG1.off = (0x1F0004008 : W64) ∧
    t.fld R.SEAM_STATUS.COUNT = 1 ∧
    t.mem = [] := by decide +kernel

/-- R326: bits 12:0 are kept. -/
theorem test_htapeacct :

    (match exec (.htapeacctWrite 12 .s 8200) running with | .next t => (t.hart 12).account | _ => 0) = 8 := by decide +kernel

theorem witness_hart_control :
    let s := running
    let x := s.hart 12
    let sc := s.setBit R.SC_CTL.EN
    let w := s.setUnit 3 { UnitSt.bask with st := 1 }
    let d := sc.setHart 4 { Hart.reset with released := true, dcEn := true }
    s.up = true ∧
    x.released = true ∧
    x.debug = false ∧
    x.invDone = false ∧
    x.icEn = false ∧
    x.dcEn = false ∧
    (0x17 : W64).getLsbD 4 = true ∧
    sc.bit R.SC_CTL.EN = true ∧
    s.bit R.SC_CTL.EN = false ∧
    (1 : W64).getLsbD 4 = false ∧
    (1 : W64).getLsbD 5 = false ∧
    s.opens (.bobbin 6) R.SC_CTL.off ∧
    (s.setBit R.SC_CTL.INV_DONE).bit R.SC_CTL.INV_DONE = true ∧
    s.bit R.SC_CTL.INV_DONE = false ∧
    sc.harts.all (fun e => !e.2.dcEn && !e.2.l2En) = true ∧
    d.harts.any (fun e => e.2.dcEn || e.2.l2En) = true ∧
    s.unitState 3 = 0 ∧
    w.unitState (12 / 4) = 1 := by
  refine ⟨?_, ?_, ?_, ?_, ?_, ?_, ?_, ?_, ?_, ?_, ?_, opens_of (by decide +kernel), ?_, ?_, ?_, ?_, ?_, ?_⟩ <;> decide +kernel

theorem witness_power_requests :
    let s := live
    let r := asks 34
    let v := live.setReg R.PWR_CLAIM_BLK.off (1 <<< 17 ||| 1 <<< 26)
    let q := live.setFld (R.EMAC_GCFG.MODE 0) 4
    let m := live.setHart 20 { Hart.reset with released := true, world := true }
    s.admits r 0x0701 = true ∧
    s.admits r 0x0702 = true ∧
    s.opens (.bobbin 6) R.PWR_REQ.off ∧
    s.unitClaimed 5 = false ∧
    s.unitClaimed 0 = true ∧
    s.unitClaimed 17 = true ∧
    v.unitClaimed 24 = false ∧
    s.quadIdle 20 = true ∧
    q.quadIdle 24 = false ∧
    s.panelIdle 0 = false ∧
    s.sys.gated = false ∧
    (m.hart 20).world = true ∧
    m.unitClaimed (20 / 4) = false ∧
    s.unitClaimed (0 / 4) = true ∧
    (s.hart 0).world = false ∧
    (s.unit 5).target = none ∧
    ((s.setUnit 5 { UnitSt.bask with st := 1 }).unit 5).st = 1 ∧
    ((s.setUnit 5 { UnitSt.bask with target := some 2, pnr := true }).unit 5).pnr = true := by
  refine ⟨?_, ?_, opens_of (by decide +kernel), ?_, ?_, ?_, ?_, ?_, ?_, ?_, ?_, ?_, ?_, ?_, ?_, ?_, ?_, ?_⟩ <;> decide +kernel

/-- Tile 5 sleeps, enters, wakes; all four harts of tile 6 ask for Brumate; quad 24 is asked for Doze. -/
def unitIs (u : Nat) (x : UnitSt) : State := live.setUnit u x
def allAsk : State :=
  let y := { Hart.reset with released := true, wfi := true, preq := 2, preqPending := true }
  (((live.setHart 24 y).setHart 25 y).setHart 26 y).setHart 27 y

theorem witness_power_transitions :
    let s := allAsk
    let q := unitIs 24 { UnitSt.bask with req := some (1, false) }
    let e := unitIs 5 { UnitSt.bask with target := some 2 }
    let p := unitIs 5 { UnitSt.bask with target := some 2, pnr := true, wakeAfter := 1 }
    let z := unitIs 5 { UnitSt.bask with st := 2 }
    let l := unitIs 24 { UnitSt.bask with st := 1 }
    let h := live.setFld R.PWR_SCAN_SEL.PANEL 1
    let held := { h with pow := { h.pow with enterHold := 2 } }
    s.up = true ∧
    (s.unit 6).target = none ∧
    (s.unit 6).waking = false ∧
    s.panelHeld (unitPanel 6) = false ∧
    s.readyEntry 6 = some (2, true) ∧
    (s.unit 6).st < 2 ∧
    (s.hart 26).preqPending = true ∧
    (s.hart 26).wfi = true ∧
    (s.hart 26).preq = 2 ∧
    (q.unit 24).req = some (1, false) ∧
    q.quadIdle 24 = true ∧
    s.readyEntry 5 = none ∧
    (e.unit 5).target = some 2 ∧
    (s.unit 5).target ≠ some 2 ∧
    (unitIs 5 { UnitSt.bask with target := some 1 } |>.unit 5).wakeAfter = 0 ∧
    (p.unit 5).pnr = true ∧
    (p.unit 5).wakeAfter = 1 ∧
    ((unitIs 17 { UnitSt.bask with target := some 3 }).unit 17).target = some 3 ∧
    (z.unit (16 + unitPanel 5)).st = 0 ∧
    (z.unit (16 + unitPanel 5)).target = none ∧
    (z.unit 5).st = 2 ∧
    (e.unit 5).pnr = false ∧
    (live.unit 5).st = 0 ∧
    ((unitIs 5 { UnitSt.bask with st := 2, waking := true }).unit 5).waking = true ∧
    (l.unit 24).st = 1 ∧
    ((unitIs 24 { UnitSt.bask with st := 2 }).unit 24).st = 2 ∧
    4 ≤ quadNum 24 ∧
    live.opens (.bobbin 6) R.PWR_HOLD.off ∧
    live.opens (.bobbin 6) R.PWR_SCAN_DATA.off ∧
    held.panelHeld (held.fld R.PWR_SCAN_SEL.PANEL) = true ∧
    h.panelHeld (h.fld R.PWR_SCAN_SEL.PANEL) = false := by
  refine ⟨?_, ?_, ?_, ?_, ?_, ?_, ?_, ?_, ?_, ?_, ?_, ?_, ?_, ?_, ?_, ?_, ?_, ?_, ?_, ?_, ?_, ?_, ?_, ?_, ?_, ?_, ?_, opens_of (by decide +kernel), opens_of (by decide +kernel), ?_, ?_⟩ <;> decide +kernel

/-- The device after WARM release, with a boot code. -/
def booting (code : Nat) : State := ({ State.reset with sys := { State.reset.sys with phase := .starting } } : State).setFld R.TOP_STATUS.BOOT_CODE code

theorem witness_boot :
    let s := booting 4
    let k := (booting 8).setBit R.SPOOL_STATUS.KEYS_OPEN
    let i := k.setBit R.SPOOL_STATUS.DDR_DONE
    let j := { i with spool := { i.spool with ucode := true } }
    s.sys.phase = .starting ∧
    s.fld R.TOP_STATUS.BOOT_CODE = 4 ∧
    (booting 5).fld R.TOP_STATUS.BOOT_CODE = 5 ∧
    s.bit R.SPOOL_STATUS.DDR_DONE = false ∧
    s.spool.images = false ∧
    s.bit R.SPOOL_STATUS.BIST_DONE = false ∧
    s.bit R.SPOOL_STATUS.KEYS_OPEN = false ∧
    j.bit R.SPOOL_STATUS.KEYS_OPEN = true ∧
    j.bit R.SPOOL_STATUS.DDR_DONE = true ∧
    j.spool.ucode = true ∧
    j.spool.images = false ∧
    s.bit R.SPOOL_STATUS.UNGATED = false ∧
    live.bit R.SPOOL_STATUS.UNGATED = true ∧
    s.up = true ∧
    s.opens (.bobbin 6) R.SPOOL_CTL.off ∧
    (0x2000 : W64).toNat / 256 % 64 = 0x20 ∧
    (2 : W64).getLsbD 1 = true ∧
    (1 : W64).getLsbD 1 = false ∧
    (1 : W64).getLsbD 0 = true ∧
    s.slot = 0 := by
  refine ⟨?_, ?_, ?_, ?_, ?_, ?_, ?_, ?_, ?_, ?_, ?_, ?_, ?_, ?_, opens_of (by decide +kernel), ?_, ?_, ?_, ?_, ?_⟩ <;> decide +kernel

/-- The programming voltage is `Config.vppOk`'s to say. -/
theorem witness_fuses :
    let k := live.setBit R.SPOOL_STATUS.KEYS_OPEN
    let b := k.setBit R.FUSE_PROG.BUSY
    let x := { k with spool := { k.spool with pdata := [(0, 65)], burn := some (2, 0, [1]) } }
    k.up = true ∧
    k.opens (.bobbin 6) R.FUSE_PROG.off ∧
    k.opens (.bobbin 7) R.FUSE_PROG.off ∧
    k.bit R.SPOOL_STATUS.KEYS_OPEN = true ∧
    k.bit R.FUSE_PROG.BUSY = false ∧
    isThimble (.bobbin 6) = true ∧
    isThimble (.bobbin 7) = false ∧
    k.bit R.SPOOL_STATUS.UNGATED = true ∧
    (k.clrBit R.SPOOL_STATUS.UNGATED).bit R.SPOOL_STATUS.UNGATED = false ∧
    k.burnClears 1 0 = true ∧
    k.burnClears 5 0 = false ∧
    (k.pdataWord 0).toNat % 128 ≤ 64 ∧
    live.bit R.SPOOL_STATUS.KEYS_OPEN = false ∧
    b.bit R.FUSE_PROG.BUSY = true ∧
    x.spool.burn = some (2, 0, [(1 : W64)]) ∧
    k.spool.burn = none := by
  refine ⟨?_, opens_of (by decide +kernel), opens_of (by decide +kernel), ?_, ?_, ?_, ?_, ?_, ?_, ?_, ?_, ?_, ?_, ?_, ?_, ?_⟩ <;> decide +kernel

theorem witness_firmware_senders :
    let s := keyed
    let rec_ := keyed.setBit R.SPOOL_STATUS.RECOVERY
    s.admits (asksCrit 32) 0x0601 = true ∧
    s.admits (asksCrit 32) 0x0602 = true ∧
    rec_.admits (asksCrit 32) 0x0603 = true ∧
    rec_.recovering = true ∧
    keyed.admits (asksCrit 32) 0x0603 = true ∧
    (keyed.taken (asksCrit 32)).recovering = false ∧
    keyed.otherSlot = 1 := by decide +kernel

/-- Which flash devices stand beside the SV6240 is `Config.flashMiB`'s to say: a slot of 64 MiB takes an image, and one that does not answer refuses it. -/
theorem witness_firmware_images :
    (Config.flashMiB 1 = some 64 → imgRange 1 8192 4096 = true ∧ imgRange 1 4096 4096 = true ∧ flashCap 1 ≠ 0) ∧
    (Config.flashMiB 1 = none → imgRange 1 8192 4096 = false) := by
  refine ⟨fun h => ?_, fun h => ?_⟩ <;> simp [imgRange, flashCap, h, dataAreaLo, dataAreaHi]

/-- Chapter 14's worked example: T05 captures TMR_CAP[3], its copy of FALL open at B07. -/
def captures (count : Nat) : State := ((live.setReg (R.TMR_CFG.off 5) 0x49030000).setReg (R.TMR_COUNT.off 5) (BitVec.ofNat 64 count)).setReg (R.TMU_RUN.off) 32

/-- 0x4903_0000: SRC 3, FILTER 2, CAP_EN and IE_FALL. -/
theorem test_tmr_cfg :
    let s := captures 0
    s.fld (R.TMR_CFG.SRC 5) = 3 ∧
    s.fld (R.TMR_CFG.FILTER 5) = 2 ∧
    s.bit (R.TMR_CFG.CAP_EN 5) = true ∧
    s.bit (R.TMR_CFG.IE_FALL 5) = true ∧
    s.fld (R.TMR_CFG.PRESCALE 5) = 0 := by decide +kernel

/-- Table 14-5: the fall is presented at 13,004 for a first low sample at 13,000. -/
theorem test_second_pulse :
    let s := (((captures 13004).setReg (R.TMR_RISE.off 5) 12000).setReg (R.TMR_FALL.off 5) 10800).setBit (R.TMR_STAT.NEW_R 5)
    let o := s.setEng 7 { Engine.reset with rd := some (R.TMR_FALL.off 5, 10800, true) }
    let t := match exec (.timerCapture 5 false 4) o with | .next t => t | _ => o
    t.reg (R.TMR_RISE.off 5) = (12000 : W64) ∧
    t.reg (R.TMR_FALL.off 5) = (13000 : W64) ∧
    t.reg (R.TMR_WIDTH.off 5) = (1000 : W64) ∧
    t.bit (R.TMR_STAT.NEW_R 5) = true ∧
    t.bit (R.TMR_STAT.NEW_F 5) = true ∧
    t.bit (R.TMR_STAT.OVR 5) = true ∧
    t.bit (R.TMR_STAT.LOST_F 5) = false := by decide +kernel

/-- A TMR_CMP of 10,949 fires at count 10,949; 10,950 does not yet. -/
theorem test_compare_applied :
    let f := fun (d : W64) => match exec (.tmrCmpWrite (.hart 3) 5 d) (captures 10949) with | .next t => t.bit (R.TMR_STAT.MATCH 5) | _ => false
    f 10950 = false ∧
    f 10949 = true ∧
    f 10948 = true := by decide +kernel

theorem witness_timers :
    let s := captures 100
    let m := s.setReg (R.TMR_CMP.off 5) 100
    let rl := m.setFld (R.TMR_CFG.RELOAD 5) 50
    let d := { s with tmu := { s.tmu with disarmed := [(5, true)] } }
    let w := s.setBit (R.TMR_STAT.MATCH 5)
    s.up = true ∧
    (s.reg R.TMU_RUN.off).getLsbD 5 = true ∧
    (s.reg R.TMU_RUN.off).getLsbD 4 = false ∧
    s.sys.phase = .running ∧
    s.opens (.bobbin 6) R.TMU_GO.off ∧
    s.opens (.bobbin 6) R.TMU_HALT.off ∧
    s.opens (.bobbin 6) R.TMU_SNAP.off ∧
    s.opens (.bobbin 6) R.TMU_T00_STEP.off ∧
    s.onf.session = none ∧
    m.tmrArmed 5 = true ∧
    (m.reg (R.TMR_CMP.off 5)).toNat ≤ m.tmrCount 5 ∧
    m.fld (R.TMR_CFG.RELOAD 5) = 0 ∧
    rl.fld (R.TMR_CFG.RELOAD 5) ≠ 0 ∧
    (rl.reg (R.TMR_CMP.off 5)).toNat ≤ rl.tmrCount 5 ∧
    d.tmrArmed 5 = false ∧
    s.opens (.bobbin 6) (R.TMR_CMP.off 5) ∧
    s.opens (.bobbin 6) (R.TMR_STAT.off 5) ∧
    w.bit (R.TMR_STAT.MATCH 5) = true := by
  refine ⟨?_, ?_, ?_, ?_, opens_of (by decide +kernel), opens_of (by decide +kernel), opens_of (by decide +kernel), opens_of (by decide +kernel), ?_, ?_, ?_, ?_, ?_, ?_, ?_, opens_of (by decide +kernel), opens_of (by decide +kernel), ?_⟩ <;> decide +kernel

theorem witness_captures_and_sync :
    let s := captures 100
    let ms : PtpMsg := { seqId := 1, msgType := 0, domain := 0, port := 0, sent := false }
    let e := live.setBit (R.EMAC_GCFG.PTP_EN 2)
    let full := { e with tmu := { e.tmu with ptp := [(2, List.replicate 64 (0, 0))] } }
    let p := ({ live with tmu := { live.tmu with ptm := [(3, 41)] } } : State).setFld (R.TMU_PTM_CTL.PERIOD_MS 3) 10
    let pf := p.setFn 0x1003 { FnCtx.reset with ptmEn := true }
    s.bit (R.TMR_CFG.CAP_EN 5) = true ∧
    s.srcLive (s.fld (R.TMR_CFG.SRC 5)) = true ∧
    s.bit (R.TMR_CFG.POL 5) = false ∧
    live.bit (R.TMR_CFG.CAP_EN 5) = false ∧
    s.opens (.bobbin 6) (R.TMR_RISE.off 5) ∧
    s.opens (.bobbin 6) (R.TMR_FALL.off 5) ∧
    e.bit (R.EMAC_GCFG.PTP_EN 2) = true ∧
    ms.msgType < 4 ∧
    (e.ptpFifo 2).length < 64 ∧
    64 ≤ (full.ptpFifo 2).length ∧
    e.opens (.bobbin 6) (R.TMU_PTPTS_HI.off 2) ∧
    (pf.fn 0x1003).ptmEn = true ∧
    pf.fld (R.TMU_PTM_CTL.PERIOD_MS 3) ≠ 0 ∧
    pf.sys.gated = false ∧
    live.fld (R.TMU_PTM_CTL.PERIOD_MS 3) = 0 ∧
    smGet 0 p.tmu.ptm 3 = 40 + 1 ∧
    ({ live with tmu := { live.tmu with pps0 := true } } : State).ppsLevel 0 = true ∧
    live.ppsLevel 0 = false := by
  refine ⟨?_, ?_, ?_, ?_, opens_of (by decide +kernel), opens_of (by decide +kernel), ?_, ?_, ?_, ?_, opens_of (by decide +kernel), ?_, ?_, ?_, ?_, ?_, ?_, ?_⟩ <;> decide +kernel

theorem witness_moult :
    let s := live
    let r := asks 34
    let th := live.setBit (throttleBit 0)
    let m := fun (t : MoultTest) (x : Nat) => ({ s with pow := { s.pow with tests := [(x, t)] } } : State)
    let w := live.setUnit 5 { UnitSt.bask with st := 1 }
    s.admits r 0x0801 = true ∧
    s.admits r 0x0802 = true ∧
    ((List.range 4).any fun p => th.bit (throttleBit p)) = true ∧
    ((List.range 4).any fun p => s.bit (throttleBit p)) = false ∧
    s.testJudge 7 = (0, some 512) ∧
    s.testJudge 512 = (0, none) ∧
    s.testJudge 0xFFFF = (E.PARAM_RANGE, none) ∧
    sliceExists 0xFFFF = false ∧
    s.pow.tested.contains 7 = false ∧
    ({ s with pow := { s.pow with tested := [7] } } : State).pow.tested.contains 7 = true ∧
    (m { march := false, spare := some 512 } 7).sliceTest 7 = some { march := false, spare := some 512 } ∧
    (m { march := true, spare := none } 7).sliceTest 7 = some { march := true, spare := none } ∧
    s.retiredOf (sliceKey 7) + 1 < moultSpareCount (sliceGroup 7) ∧
    s.sliceTest 7 = none ∧
    s.unitState 5 ≠ 1 ∧
    w.unitState 5 = 1 := by decide +kernel

def dimm (gib : Nat) : DimmInfo := { dimms := 1, ranks := 2, capGib := gib, rating := 8000, fail := 0, noSpare := [] }
def bare : DimmInfo := { dimms := 0, ranks := 0, capGib := 0, rating := 0, fail := 0, noSpare := [] }
def trained : State := ((List.range 8).foldl (fun (s : State) c => ((s.setBit (R.DMC_STATUS.PRESENT c)).setBit (R.DMC_STATUS.TRAINED c)).setFld (R.DMC_STATUS.CAP_GIB c) 64) live)

theorem witness_dram :
    let pop := List.replicate 8 (dimm 64)
    let s := booting 4
    let t := trained
    let i := ({ t with dmc := { t.dmc with cap := 512 * 2 ^ 30 } } : State).setBit (R.DMC_STATUS.INIT_DONE 5)
    s.sys.phase = .starting ∧
    s.bit R.SPOOL_STATUS.DDR_DONE = false ∧
    populated pop = [0, 1, 2, 3, 4, 5, 6, 7] ∧
    offending pop = [] ∧
    (populated pop).all (fun c => (dimmAt pop c).fail == 0) = true ∧
    s.bit R.SPOOL_STATUS.KEYS_OPEN = false ∧
    live.sys.phase ≠ .starting ∧
    t.up = true ∧
    t.chanRuns 5 = true ∧
    t.bit (R.DMC_STATUS.INIT_DONE 5) = false ∧
    i.bit (R.DMC_STATUS.INIT_DONE 5) = true ∧
    i.chanRuns 5 = true ∧
    0x3500001D00 / 64 * 64 < i.dmc.cap ∧
    i.chanOf (0x3500001D00 / 64 * 64) = 5 ∧
    live.chanRuns 5 = false := by decide +kernel

/-- Chapter 16's worked example. -/
theorem test_line_on_dc5 :

    chanHash 0x003500001D00 = 5 := by decide +kernel

/-- Chapter 16's worked example: ROW 0x1_A3F0, BG 6, BANK 2, PEND. -/
theorem test_ppr :
    let s := live.setReg (R.DMC_PPR.off 5 0) 0x00000261_0001A3F0
    s.fld (R.DMC_PPR.ROW 5 0) = 0x1A3F0 ∧
    s.fld (R.DMC_PPR.BG 5 0) = 2 ∧
    s.fld (R.DMC_PPR.BGHI 5 0) = 1 ∧
    s.fld (R.DMC_PPR.BANK 5 0) = 2 ∧
    s.fld (R.DMC_PPR.PEND 5 0) = 1 ∧
    s.fld (R.DMC_PPR.RANK 5 0) = 0 := by decide +kernel

theorem witness_populations :
    let odd := dimm 64 :: List.replicate 7 (dimm 128)
    let three := [dimm 64, bare, dimm 64, bare, dimm 64, bare, bare, bare]
    let bad := List.replicate 8 { dimm 64 with dimms := 3 }
    populated [] = [] ∧
    offending odd ≠ [] ∧
    0 ∈ populated odd ∧
    1 ∈ populated odd ∧
    sameDimms (dimmAt odd 0) (dimmAt odd 1) = false ∧
    offending three = [6] ∧
    populated three = [0, 2, 4] ∧
    dimmOk (dimmAt bad 0) = false ∧
    0 ∈ populated bad ∧
    offending (List.replicate 7 (dimm 64) ++ [bare]) ≠ [] := by decide +kernel

end Sys2Proof.Tests
end

section
/-!
O3. Every function of the model that gives a state follows the state that it starts from (`Kept`): it leaves the queue of commands alone, and it
keeps memory, host memory and the control registers in canonical form. One lemma per function, each from the lemmas of the functions that it calls;
`Kept.exec` collects the commands; the obligation uses it at the rest of the queue.

Memory, host memory and registers change in five places only (`withMem`, `withHostMem`, `withRegs`: a write, a clearing, a register write, a reset);
every other record update is `Kept.upd`.
-/

namespace Sys2Proof.Machine

/-- A state that follows `o`: the queue of commands is the one of `o`, and memory, host memory and registers are in canonical form if those of `o` are. -/
def Kept (o s : State) : Prop := s.pending = o.pending ∧ (o.tidy = true → s.tidy = true)

/-- The same of a command's outcome. -/
def KeptRes (o : State) (r : Res) : Prop := ∀ s, r = .next s → Kept o s

/-- The three parts that the canonical form speaks of. -/
theorem tidy_iff (s : State) : s.tidy = true ↔ s.mem.wf = true ∧ s.hostMem.wf = true ∧ smWf regReset s.regs = true := by
  simp only [State.tidy, Bool.and_eq_true, and_assoc]

/-- Taking entries out of a map keeps its canonical form. -/
theorem smRising_filter {α : Type} {p : Nat × α → Bool} : ∀ {m : SMap α} {lo : Nat}, smRising lo m = true → smRising lo (m.filter p) = true
  | [], _, _ => rfl
  | (k, v) :: m, lo, h => by
    simp only [smRising, Bool.and_eq_true, decide_eq_true_eq] at h
    rw [List.filter_cons]
    split
    · simp only [smRising, Bool.and_eq_true, decide_eq_true_eq]
      exact ⟨h.1, smRising_filter h.2⟩
    · exact smRising_filter (smRising_mono (by omega) h.2)

theorem smWf_filter {α : Type} [DecidableEq α] {d : Nat → α} {m : SMap α} {p : Nat × α → Bool} (h : smWf d m = true) : smWf d (m.filter p) = true := by
  simp only [smWf, Bool.and_eq_true] at h ⊢
  exact ⟨smRising_filter h.1, List.all_eq_true.2 fun x hx => List.all_eq_true.1 h.2 x (List.mem_filter.1 hx).1⟩

namespace Kept

variable {o s u : State} {α β : Type}

theorem refl : Kept s s := ⟨rfl, id⟩

/-- The other parts of the state take any value. -/
theorem upd (h : Kept o s) {freeCtr : Nat} {out : List OutEvent} {sys : SysState} {onf : OnfState} {qps : SMap QpCtx} {fns : SMap FnCtx} {qf : QfabState}
    {shut : ShuttleState} {safe : SafeState} {selv : SelvState} {tape : TapeState} {galv : GalvState} {tmu : TmuState} {engs : SMap Engine} {harts : SMap Hart}
    {spool : SpoolState} {pow : PowState} {spdm : SMap SpdmState} {gpio : GpioState} {links : SMap PortSt} {dmc : DmcState} {imsic aia : SMap Nat} :
    Kept o { s with freeCtr, out, sys, onf, qps, fns, qf, shut, safe, selv, tape, galv, tmu, engs, harts, spool, pow, spdm, gpio, links, dmc, imsic, aia } :=
  h

/-! ### Branches, pairs, folds -/

theorem ite {c : Prop} [Decidable c] {a b : State} (ha : Kept o a) (hb : Kept o b) : Kept o (if c then a else b) := by
  split
  · exact ha
  · exact hb

theorem ite_fst {c : Prop} [Decidable c] {a b : State × α} (ha : Kept o a.1) (hb : Kept o b.1) : Kept o (if c then a else b).1 := by
  split
  · exact ha
  · exact hb

theorem of_fst {p : State × α} {x : α} (h : Kept o p.1) (e : p = (s, x)) : Kept o s := by
  subst e
  exact h

theorem foldl {f : State → α → State} {l : List α} (h : Kept o s) (hf : ∀ u a, Kept o u → Kept o (f u a)) : Kept o (l.foldl f s) := by
  induction l generalizing s with
  | nil => exact h
  | cons a l ih => exact ih (hf s a h)

/-! ### The three writes -/

/-- Memory, host memory or registers take a value in canonical form. -/
theorem withMem (h : Kept o s) {m : Memory} (hm : s.mem.wf = true → m.wf = true) : Kept o { s with mem := m } :=
  ⟨h.1, fun ht => by
    obtain ⟨h1, h2, h3⟩ := (tidy_iff s).1 (h.2 ht)
    exact (tidy_iff _).2 ⟨hm h1, h2, h3⟩⟩

theorem withHostMem (h : Kept o s) {m : Memory} (hm : s.hostMem.wf = true → m.wf = true) : Kept o { s with hostMem := m } :=
  ⟨h.1, fun ht => by
    obtain ⟨h1, h2, h3⟩ := (tidy_iff s).1 (h.2 ht)
    exact (tidy_iff _).2 ⟨h1, hm h2, h3⟩⟩

theorem withRegs (h : Kept o s) {m : SMap W64} (hm : smWf regReset s.regs = true → smWf regReset m = true) : Kept o { s with regs := m } :=
  ⟨h.1, fun ht => by
    obtain ⟨h1, h2, h3⟩ := (tidy_iff s).1 (h.2 ht)
    exact (tidy_iff _).2 ⟨h1, h2, hm h3⟩⟩

theorem setReg (h : Kept o s) {off : Nat} {v : W64} : Kept o (s.setReg off v) := h.withRegs smWf_put

theorem devWrite (h : Kept o s) {a : Nat} {b : List Byte} : Kept o (s.devWrite a b) := (h.withMem Memory.writeN_wf).upd

theorem hostWrite (h : Kept o s) {port a : Nat} {b : List Byte} : Kept o (s.hostWrite port a b) := h.withHostMem Memory.writeN_wf

theorem memClear (h : Kept o s) {a n : Nat} : Kept o (s.memClear a n) := (h.withMem smWf_filter).upd

end Kept

/-- The state of a step of an action list. -/
def ActStep.state : ActStep → State
  | .on s _ => s
  | .end_ s => s
  | .recirc s _ => s

theorem Kept.on {o s : State} (h : Kept o s) {c : PCtx} : Kept o (ActStep.on s c).state := h

theorem Kept.end_ {o s : State} (h : Kept o s) : Kept o (ActStep.end_ s).state := h

theorem Kept.recirc {o s : State} (h : Kept o s) {p : Pkt} : Kept o (ActStep.recirc s p).state := h

theorem Kept.ite_state {o : State} {c : Prop} [Decidable c] {a b : ActStep} (ha : Kept o a.state) (hb : Kept o b.state) :
    Kept o (if c then a else b).state := by
  split
  · exact ha
  · exact hb

theorem Kept.of_state {o : State} {a b : ActStep} (h : Kept o a.state) (e : a = b) : Kept o b.state := e ▸ h

theorem KeptRes.next {o s : State} (h : Kept o s) : KeptRes o (.next s) := by
  rintro _ ⟨⟩
  exact h

theorem Kept.afterRes {o s : State} {r : Res} (h : Kept o s) (hr : KeptRes o r) : Kept o (afterRes r s) := by
  cases r with
  | next u => exact hr u rfl
  | fault => exact h
  | refused => exact h

theorem Kept.resState {o s : State} {r : Res} (h : Kept o s) (hr : KeptRes o r) : Kept o (resState s r) := by
  cases r with
  | next u => exact hr u rfl
  | fault => exact h
  | refused => exact h

/-- The same of what may be offered: a state, or what holds one. -/
def KeptOpt {α : Type} (o : State) (f : α → State) (x : Option α) : Prop := ∀ a, x = some a → Kept o (f a)

namespace KeptOpt

variable {α β : Type} {o : State} {f : α → State}

theorem none : KeptOpt o f none := nofun

theorem some {a : α} (h : Kept o (f a)) : KeptOpt o f (some a) := by
  rintro _ ⟨⟩
  exact h

theorem ite {c : Prop} [Decidable c] {x y : Option α} (hx : KeptOpt o f x) (hy : KeptOpt o f y) : KeptOpt o f (if c then x else y) := by
  split
  · exact hx
  · exact hy

theorem map {k : β → α} {x : Option β} (h : ∀ b, Kept o (f (k b))) : KeptOpt o f (x.map k) := by
  cases x with
  | none => exact none
  | some b => exact some (h b)

theorem map_of {g : β → State} {k : β → α} {x : Option β} (h : KeptOpt o g x) (hk : ∀ b, f (k b) = g b) : KeptOpt o f (x.map k) := by
  cases x with
  | none => exact none
  | some b => exact some (hk b ▸ h b rfl)

theorem getD {x : Option State} {s : State} (hx : KeptOpt o id x) (h : Kept o s) : Kept o (x.getD s) := by
  cases x with
  | none => exact h
  | some u => exact hx u rfl

theorem firstSome_nil : KeptOpt o f (firstSome []) := none

theorem firstSome_cons {x : Option α} {l : List (Option α)} (hx : KeptOpt o f x) (hl : KeptOpt o f (firstSome l)) :
    KeptOpt o f (firstSome (x :: l)) := by
  cases x with
  | none => exact hl
  | some a => exact some (hx a rfl)

end KeptOpt

section

variable {o s : State}

/-! ### Ops.lean -/

theorem Kept.drawn (h : Kept o s) : Kept o s.drawn := h.upd
theorem Kept.emit (h : Kept o s) {e : OutEvent} : Kept o (s.emit e) := h.upd
theorem Kept.setFld (h : Kept o s) {f : Fld} {v : Nat} : Kept o (s.setFld f v) := h.setReg
theorem Kept.setBit (h : Kept o s) {f : Fld} : Kept o (s.setBit f) := h.setFld
theorem Kept.clrBit (h : Kept o s) {f : Fld} : Kept o (s.clrBit f) := h.setFld
theorem Kept.bump (h : Kept o s) {f : Fld} {n : Nat} : Kept o (s.bump f n) := h.setFld
theorem Kept.whenUp (h : Kept o s) {f : State → State} (hf : ∀ u, Kept o u → Kept o (f u)) : Kept o (s.whenUp f) := .ite (hf _ h) h
theorem Kept.setLink (h : Kept o s) {n : Nat} {l : PortSt} : Kept o (s.setLink n l) := h.upd
theorem Kept.linkDrop (h : Kept o s) {n : Nat} : Kept o (s.linkDrop n) := h.setLink
theorem Kept.sendFlit (h : Kept o s) {p : FlitPayload} : Kept o (s.sendFlit p) := h.upd

theorem Kept.sendFlits (h : Kept o s) {a : List FlitPayload} : Kept o (s.sendFlits a) := by
  fun_induction State.sendFlits s a
  · exact h
  next ih1 => exact ih1 h.sendFlit

theorem Kept.setFn (h : Kept o s) {f : Nat} {c : FnCtx} : Kept o (s.setFn f c) := .ite h.upd.sendFlits h.upd
theorem Kept.setQp (h : Kept o s) {q : Nat} {c : QpCtx} : Kept o (s.setQp q c) := .ite h.upd.sendFlits h.upd
theorem Kept.whenPanel (h : Kept o s) {p : Nat} {f : State → State} (hf : ∀ u, Kept o u → Kept o (f u)) : Kept o (s.whenPanel p f) :=
  .ite (hf _ h) h

theorem Kept.whenRing (h : Kept o s) {q : Nat} {f : State → State} (hf : ∀ u, Kept o u → Kept o (f u)) : Kept o (s.whenRing q f) :=
  h.whenPanel fun _ hu => hf _ hu

theorem Kept.whenFn (h : Kept o s) {fn : Nat} {f : State → State} (hf : ∀ u, Kept o u → Kept o (f u)) : Kept o (s.whenFn fn f) :=
  h.whenPanel fun _ hu => hf _ hu

theorem Kept.setHart (h : Kept o s) {h1 : Nat} {x : Hart} : Kept o (s.setHart h1 x) := h.upd

theorem Kept.logViol (h : Kept o s) {a : Agent} {k : AccKind} {checker region addr : Nat} : Kept o (s.logViol a k checker region addr) :=
  .ite h.bump.setBit.setBit h.bump.setBit.setReg.setReg.setReg

theorem Kept.unpoison (h : Kept o s) {a n : Nat} : Kept o (s.unpoison a n) := h.upd
theorem Kept.msixOf (h : Kept o s) {key f vec : Nat} : Kept o (s.msixOf key f vec) := .ite (.ite h.setFn h.emit) h
theorem Kept.msix (h : Kept o s) {f vec : Nat} : Kept o (s.msix f vec) := h.msixOf
theorem Kept.ringMsix (h : Kept o s) {q vec : Nat} : Kept o (s.ringMsix q vec) := h.msixOf
theorem Kept.msiFile (h : Kept o s) {hart file eiid : Nat} : Kept o (s.msiFile hart file eiid) := .ite h h.upd
theorem Kept.msi (h : Kept o s) {hart eiid : Nat} : Kept o (s.msi hart eiid) := h.msiFile
theorem Kept.fnEvent (h : Kept o s) {f : Nat} : Kept o (s.fnEvent f) := .ite h.msix h
theorem Kept.strayDb (h : Kept o s) {f : Nat} : Kept o (s.strayDb f) := h.setFn.fnEvent
theorem Kept.grantEvt (h : Kept o s) {f : Nat} : Kept o (s.grantEvt f) := h.setFn.fnEvent
theorem Kept.evtOn (h : Kept o s) {ch cls : Nat} {value : W64} {status : Nat} : Kept o (s.evtOn ch cls value status) := h.upd

theorem Kept.evtOnAll (h : Kept o s) {cls : Nat} {value : W64} {status : Nat} {a : List Nat} : Kept o (s.evtOnAll cls value status a) := by
  fun_induction State.evtOnAll s cls value status a
  · exact h
  next ih1 => exact ih1 h.evtOn

theorem Kept.event (h : Kept o s) {cls : Nat} : Kept o (s.event cls) := h.evtOnAll
theorem Kept.topEvt (h : Kept o s) {f : Fld} : Kept o (s.topEvt f) := h.setBit.event
theorem Kept.safeEvt (h : Kept o s) {f : Fld} : Kept o (s.safeEvt f) := h.setBit.event
theorem Kept.galvEvt (h : Kept o s) {f : Fld} : Kept o (s.galvEvt f) := h.setBit.event
theorem Kept.tapeEvt (h : Kept o s) {f : Fld} : Kept o (s.tapeEvt f) := h.setBit.event

theorem Kept.violation (h : Kept o s) {a : Agent} {k : AccKind} {checker region addr : Nat} : Kept o (s.violation a k checker region addr) :=
  h.logViol.event

theorem Kept.logMem (h : Kept o s) {who : Agent} {k : AccKind} {a : Nat} {a1 : MemRes} : Kept o (s.logMem who k a a1) := by
  unfold State.logMem
  split
  · exact h.violation
  · exact h

theorem Kept.wrapCount (h : Kept o s) {off : Nat} : Kept o (s.wrapCount off) := h.setReg
theorem Kept.pcnt (h : Kept o s) {p i : Nat} : Kept o (s.pcnt p i) := h.wrapCount
theorem Kept.netDrop (h : Kept o s) {p r : Nat} : Kept o (s.netDrop p r) := h.wrapCount.emit
theorem Kept.setBank (h : Kept o s) {b : Bool} {x : TapeBank} : Kept o (s.setBank b x) := h.upd

theorem Kept.chargeOn (h : Kept o s) {tell : Bool} {a ctr n : Nat} : Kept o (s.chargeOn tell a ctr n) :=
  .ite h (.ite (Kept.ite h.setBank.emit h.setBank).tapeEvt (.ite h.setBank.emit h.setBank))

theorem Kept.charge (h : Kept o s) {a ctr n : Nat} : Kept o (s.charge a ctr n) := h.chargeOn

theorem Kept.chargeOwn (h : Kept o s) {a : Nat} {a1 : List (Nat × Nat)} : Kept o (s.chargeOwn a a1) := by
  fun_induction State.chargeOwn s a a1
  · exact h
  next ih1 => exact ih1 h.chargeOn

theorem Kept.chargeAll (h : Kept o s) {a : Nat} {a1 : List (Nat × Nat)} : Kept o (s.chargeAll a a1) := by
  fun_induction State.chargeAll s a a1
  · exact h
  next ih1 => exact ih1 h.charge

/-! ### Access.lean -/

theorem Kept.regTry (h : Kept o s) {who : Agent} {k : AccKind} {off : Nat} {f : State → State} (hf : ∀ u, Kept o u → Kept o (f u)) :
    Kept o (s.regTry who k off f) := by
  unfold State.regTry
  split
  · exact .ite (hf _ h) h.violation
  · exact h.topEvt

/-! ### Reply.lean -/

theorem Kept.setMbx (h : Kept o s) {ch : Nat} {m : Mailbox} : Kept o (s.setMbx ch m) := h.upd
theorem Kept.mbxSignal (h : Kept o s) {ch : Nat} : Kept o (s.mbxSignal ch) := .ite h.msix h
theorem Kept.send (h : Kept o s) {ch : Nat} {p : OnfPkt} : Kept o (s.send ch p) := .ite (.ite h.setMbx h.setMbx.emit.mbxSignal) h.emit

theorem Kept.mbxNext (h : Kept o s) {ch : Nat} : Kept o (s.mbxNext ch) := by
  unfold State.mbxNext
  extract_lets +onlyGivenNames m
  split
  · exact h.setMbx.emit.mbxSignal
  · exact h

theorem Kept.sendAll (h : Kept o s) {ch : Nat} {a : List OnfPkt} : Kept o (s.sendAll ch a) := by
  fun_induction State.sendAll s ch a
  · exact h
  next ih1 => exact ih1 h.send

theorem Kept.reply (h : Kept o s) {r : OnfReq} {op status : Nat} {params : List Byte} : Kept o (s.reply r op status params) := .ite h.upd h.sendAll

theorem Kept.ctrAck (h : Kept o s) : Kept o s.ctrAck := by
  unfold State.ctrAck
  split
  · exact h
  dsimp only
  split
  · exact h.upd.sendAll
  · exact h.upd

theorem Kept.ctrAckAll (h : Kept o s) {a : Nat} : Kept o (State.ctrAckAll a s) := by
  fun_induction State.ctrAckAll a s
  · exact h
  next ih1 => exact ih1 h.ctrAck

theorem Kept.refuseReply (h : Kept o s) {r : OnfReq} {op status : Nat} : Kept o (s.refuseReply r op status) := h.sendAll
theorem Kept.setCtr (h : Kept o s) {slot : Nat} {k : SenderKey} {ctr : Nat} : Kept o (s.setCtr slot k ctr) := h.upd
theorem Kept.writeCeil (h : Kept o s) {h1 ok : Nat} : Kept o (s.writeCeil h1 ok) := h.upd

theorem Kept.accept (h : Kept o s) {r : OnfReq} {op : Nat} : Kept o (s.accept r op).1 := by
  unfold State.accept
  split
  · exact h
  refine .ite_fst h ?_
  refine .ite_fst h ?_
  refine .ite_fst h ?_
  split
  · exact h
  · exact .ite_fst (.ite_fst h h.setCtr) (.ite_fst h (.ite_fst h (.ite_fst (.ite_fst h.drawn.writeCeil.setCtr h.drawn.writeCeil) h.setCtr)))

theorem Kept.mirrorCtr (h : Kept o s) {r : OnfReq} : Kept o (s.mirrorCtr r) := by
  unfold State.mirrorCtr
  refine .ite ?_ h
  split
  · exact h.upd.sendFlit
  · exact h

theorem Kept.command (h : Kept o s) {r : OnfReq} {op : Nat} {body : State → State} (hbody : ∀ u, Kept o u → Kept o (body u)) :
    Kept o (s.command r op body) := by
  unfold State.command
  refine h.whenUp fun u hu => ?_
  refine .ite hu ?_
  refine .ite hu.refuseReply ?_
  split
  next e => exact (hu.accept.of_fst e).refuseReply
  next e => exact (hu.accept.of_fst e).reply
  next e => exact .ite (hbody _ (hu.accept.of_fst e).mirrorCtr) (hu.accept.of_fst e).mirrorCtr.reply

/-! ### Translate.lean -/

theorem Kept.shutFault (h : Kept o s) {q cause off addr : Nat} : Kept o (s.shutFault q cause off addr) := h.setReg.setReg.setBit
theorem Kept.atcFill (h : Kept o s) {e : AtcEnt} : Kept o (s.atcFill e) := h.upd

theorem Kept.devPage (h : Kept o s) {who : Agent} {a n : Nat} {w : Bool} : Kept o (s.devPage who a n w).1 := by
  unfold State.devPage
  split
  · dsimp only
    split
    · exact h
    · exact h
    · exact h.violation
    · exact h.drawn
  dsimp only
  split
  · exact h
  · exact h
  · exact h.violation
  · exact h.drawn

theorem Kept.lcPage (h : Kept o s) {n a len : Nat} {w : Bool} : Kept o (s.lcPage n a len w).1 := by
  unfold State.lcPage
  refine .ite_fst h.devPage ?_
  dsimp only
  split
  · exact h.devPage
  · exact .ite_fst h.drawn.atcFill.devPage (.ite_fst h.drawn.emit.shutFault h.drawn.emit.shutFault)

theorem Kept.atsSend (h : Kept o s) {f : Nat} {pasid : Option Nat} {page : Nat} {w : Bool} {by_ : Waiter} {tries : Nat} :
    Kept o (s.atsSend f pasid page w by_ tries) :=
  h.upd

theorem Kept.hostAccess (h : Kept o s) {q : Nat} {w : Bool} {by_ : Waiter} {a : AccRes} {a1 : List (Nat × Nat)} :
    Kept o (s.hostAccess q w by_ a a1).1 := by
  fun_induction State.hostAccess s q w by_ a a1
  · exact h
  rename_i r _ s1 ih1
  refine ih1 ?_
  dsimp only [s1]
  dsimp only [r]
  split
  · exact .ite h h.atsSend
  · exact h

theorem Kept.lcAccess (h : Kept o s) {n : Nat} {w : Bool} {a : AccRes} {a1 : List (Nat × Nat)} : Kept o (s.lcAccess n w a a1).1 := by
  fun_induction State.lcAccess s n w a a1
  · exact h
  next ih1 => exact ih1 h.lcPage

theorem Kept.access (h : Kept o s) {q a n : Nat} {w : Bool} {by_ : Waiter} : Kept o (s.access q a n w by_).1 := .ite_fst h.lcAccess h.hostAccess

theorem Kept.writePieces (h : Kept o s) {q : Nat} {a : List (Nat × Nat)} {a1 : List Byte} : Kept o (s.writePieces q a a1) := by
  fun_induction State.writePieces s q a a1
  · exact h
  next ih1 => exact ih1 (.ite h.devWrite h.hostWrite)

theorem Kept.setDlog (h : Kept o s) {v : Nat} {d : DirtyLog} : Kept o (s.setDlog v d) := .ite h.upd.sendFlit h.upd
theorem Kept.dlogOverflow (h : Kept o s) {v cause : Nat} : Kept o (s.dlogOverflow v cause) := .ite h.setDlog h

theorem Kept.bitmapBit (h : Kept o s) {v pf base page : Nat} : Kept o (s.bitmapBit v pf base page).1 := by
  unfold State.bitmapBit
  dsimp only
  split
  · exact h.hostWrite
  · exact .ite h h.atsSend

theorem Kept.bitmapWrite (h : Kept o s) {v page : Nat} : Kept o (s.bitmapWrite v page) := by
  unfold State.bitmapWrite
  dsimp only
  split
  · exact h.bitmapBit.setDlog
  · exact h.bitmapBit

theorem Kept.bitmapWrites (h : Kept o s) {v : Nat} {a : List Nat} : Kept o (s.bitmapWrites v a) := by
  fun_induction State.bitmapWrites s v a
  · exact h
  next ih1 => exact ih1 h.bitmapWrite

theorem Kept.pastPages (h : Kept o s) {v : Nat} {d : DirtyLog} {p : DirtyPast} {a : List Nat} : Kept o (s.pastPages v d p a).1 := by
  fun_induction State.pastPages s v d p a
  · exact h
  next ih1 => exact ih1 h.bitmapBit

theorem Kept.pastFlush (h : Kept o s) {v : Nat} {d : DirtyLog} {a : List DirtyPast} : Kept o (s.pastFlush v d a).1 := by
  fun_induction State.pastFlush s v d a
  · exact h
  next ih1 => exact ih1 h.pastPages

theorem Kept.dlogFlush (h : Kept o s) {v : Nat} : Kept o (s.dlogFlush v) := (Kept.ite h h.pastFlush.setDlog).bitmapWrites

theorem Kept.bitmapLost (h : Kept o s) {v cause : Nat} : Kept o (s.bitmapLost v cause) := by
  unfold State.bitmapLost
  dsimp only
  split
  · exact h.setDlog
  · exact h.dlogOverflow

theorem Kept.dirtyPage (h : Kept o s) {v : Nat} {pasid : Option Nat} {a : Nat} : Kept o (s.dirtyPage v pasid a) :=
  .ite h (.ite h.dlogOverflow (.ite h.dlogOverflow (.ite h h.setDlog.dlogFlush)))

theorem Kept.dirtyRange (h : Kept o s) {v : Nat} {pasid : Option Nat} {a : List (Nat × Nat)} : Kept o (s.dirtyRange v pasid a) := by
  fun_induction State.dirtyRange s v pasid a
  · exact h
  next ih1 => exact ih1 h.dirtyPage

theorem Kept.dirtyWrite (h : Kept o s) {q a n : Nat} : Kept o (s.dirtyWrite q a n) := .ite h h.dirtyRange

/-! ### Queue.lean -/

theorem Kept.putReq (h : Kept o s) {r : Req} : Kept o (s.putReq r) := h.setQp
theorem Kept.jsend (h : Kept o s) {r : Req} {kind : Nat} {body : List Nat} : Kept o (s.jsend r kind body) := .ite h.upd h
theorem Kept.settle (h : Kept o s) {rid : Nat} {ok : Bool} : Kept o (s.settle rid ok) := h.upd
theorem Kept.chargeReq (h : Kept o s) {r : Req} {ok : Bool} : Kept o (s.chargeReq r ok) := .ite h.chargeAll h.chargeOwn
theorem Kept.dropWork (h : Kept o s) {q rid : Nat} : Kept o (s.dropWork q rid) := h.upd
theorem Kept.setBeq (h : Kept o s) {b : Nat} {x : Beq} : Kept o (s.setBeq b x) := h.upd
theorem Kept.releaseReq (h : Kept o s) {r : Req} {note : Bool} : Kept o (s.releaseReq r note) := h.jsend.chargeAll.settle.dropWork.upd

theorem Kept.releaseList (h : Kept o s) {note : Bool} {a : List Req} : Kept o (s.releaseList note a) := by
  fun_induction State.releaseList s note a
  · exact h
  next ih1 => exact ih1 h.releaseReq

theorem Kept.releaseAll (h : Kept o s) {q : Nat} {note : Bool} : Kept o (s.releaseAll q note) := h.releaseList.setQp
theorem Kept.refreshPark (h : Kept o s) {q : Nat} : Kept o (s.refreshPark q) := .ite h (.ite h.setQp (.ite h.setQp h))
theorem Kept.abandon (h : Kept o s) {q : Nat} : Kept o (s.abandon q) := h.upd
theorem Kept.drainStart (h : Kept o s) {q : Nat} {d : Drain} : Kept o (s.drainStart q d) := h.setQp
theorem Kept.quiesced (h : Kept o s) {q : Nat} {d : Drain} : Kept o (s.quiesced q d) := (Kept.ite h.abandon h).setQp

theorem Kept.ringError (h : Kept o s) {q code : Nat} {cplRefused : Bool} : Kept o (s.ringError q code cplRefused) :=
  (Kept.ite h.setQp.releaseAll h.setQp).upd

theorem Kept.dropRingWaits (h : Kept o s) {q : Nat} : Kept o (s.dropRingWaits q) := h.upd

theorem Kept.flrRing (h : Kept o s) {q : Nat} : Kept o (s.flrRing q) :=
  .ite h.abandon.releaseAll.dropRingWaits.setQp (.ite h.abandon.releaseAll.dropRingWaits h.abandon.releaseAll.dropRingWaits.setQp)

theorem Kept.flrRings (h : Kept o s) {a : List Nat} : Kept o (s.flrRings a) := by
  fun_induction State.flrRings s a
  · exact h
  next ih1 => exact ih1 h.flrRing

theorem Kept.quiesceReplies (h : Kept o s) {a : List QuiesceWait} : Kept o (s.quiesceReplies a) := by
  fun_induction State.quiesceReplies s a
  · exact h
  next ih1 => exact ih1.upd.reply
  next ih1 => exact ih1

theorem Kept.quiesceCheck (h : Kept o s) : Kept o s.quiesceCheck := h.quiesceReplies
theorem Kept.dlogEnd (h : Kept o s) {pf : Nat} : Kept o (s.dlogEnd pf) := h.foldl fun _ _ hx => hx.setDlog
theorem Kept.rxFlush (h : Kept o s) {f : Nat} : Kept o (s.rxFlush f) := h.upd.foldl fun _ _ hx => hx.netDrop
theorem Kept.personaReset (h : Kept o s) {f : Nat} : Kept o (s.personaReset f) := h.setFn

theorem Kept.flrOne (h : Kept o s) {f : Nat} : Kept o (s.flrOne f) :=
  (Kept.ite h.rxFlush.flrRings.setFn.upd.dlogEnd.setMbx h.rxFlush.flrRings.setFn.upd.personaReset).quiesceCheck

theorem Kept.invalSweep (h : Kept o s) : Kept o s.invalSweep := h.upd

theorem Kept.flrMany (h : Kept o s) {a : List Nat} : Kept o (s.flrMany a) := by
  fun_induction State.flrMany s a
  · exact h
  next ih1 => exact ih1 h.flrOne

theorem Kept.flr (h : Kept o s) {f : Nat} : Kept o (s.flr f) := (Kept.ite h.flrMany h.flrOne).invalSweep
theorem Kept.expose (h : Kept o s) {q tail : Nat} : Kept o (s.expose q tail) := h.upd.setQp

theorem Kept.ringIndices (h : Kept o s) {q : Nat} {tail head : Option Nat} : Kept o (s.ringIndices q tail head) := by
  unfold State.ringIndices
  refine .ite ?_ ?_
  · extract_lets +onlyGivenNames s1
    have hs1 : Kept o s1 := by
      dsimp only [s1]
      split
      · exact .ite h h.setQp
      · exact h
    exact hs1.ringError
  extract_lets +onlyGivenNames s1
  have hs1 : Kept o s1 := by
    dsimp only [s1]
    split
    · exact h.setQp
    · exact h
  split
  · exact .ite hs1 hs1.expose
  · exact hs1

theorem Kept.doorbell (h : Kept o s) {q : Nat} {d : W64} : Kept o (s.doorbell q d) := by
  unfold State.doorbell
  refine .ite h ?_
  split
  · exact h
  · exact h.setQp
  · split
    · exact .ite h.setQp h
    · exact h
  · exact h.ringIndices

theorem Kept.finish (h : Kept o s) {r : Req} {status result usedLen : Nat} : Kept o (s.finish r status result usedLen) := h.dropWork.setQp.refreshPark

/-! ### Native.lean -/

theorem Kept.setTokens (h : Kept o s) {k : Nat} {v : ℤ} : Kept o (s.setTokens k v) := h.upd
theorem Kept.drawTokens (h : Kept o s) {on_ : Bool} {k n : Nat} : Kept o (s.drawTokens on_ k n) := .ite h.setTokens h
theorem Kept.drawOp (h : Kept o s) {f : Nat} : Kept o (s.drawOp f) := h.drawTokens.drawTokens
theorem Kept.refill (h : Kept o s) {k n burst : Nat} : Kept o (s.refill k n burst) := h.setTokens
theorem Kept.refillFn (h : Kept o s) {f : Nat} : Kept o (s.refillFn f) := h.refill.refill.refill
theorem Kept.refillAcct (h : Kept o s) {a : Nat} : Kept o (s.refillAcct a) := h.refill.refill

theorem Kept.refillFns (h : Kept o s) {a : List Nat} : Kept o (s.refillFns a) := by
  fun_induction State.refillFns s a
  · exact h
  next ih1 => exact ih1 h.refillFn

theorem Kept.refillAccts (h : Kept o s) {a : List Nat} : Kept o (s.refillAccts a) := by
  fun_induction State.refillAccts s a
  · exact h
  next ih1 => exact ih1 h.refillAcct

theorem Kept.parkLc (h : Kept o s) {q page : Nat} {w : Bool} {by_ : Waiter} : Kept o (s.parkLc q page w by_) := h.upd
theorem Kept.ringEntry (h : Kept o s) {q base size idx : Nat} : Kept o (s.ringEntry q base size idx).1 := h.access

theorem Kept.scanChain (h : Kept o s) {q h0 avail : Nat} {fixed : Option Nat} {fuel k : Nat} {acc : List Byte} :
    Kept o (s.scanChain q h0 avail fixed fuel k acc).1 := by
  induction fuel generalizing s k acc with
  | zero => exact h
  | succ fuel ih =>
    unfold State.scanChain
    refine .ite_fst h ?_
    dsimp only
    split
    · split
      · exact .ite_fst h.ringEntry (ih h.ringEntry)
      exact .ite_fst (ih h.ringEntry) h.ringEntry
    · exact h.ringEntry
    · exact h.ringEntry
    exact h.ringEntry

theorem Kept.scanReq (h : Kept o s) {q h0 avail : Nat} {e : List Byte} : Kept o (s.scanReq q h0 avail e).1 :=
  .ite_fst (.ite_fst h h.scanChain) (.ite_fst h.scanChain h)

theorem Kept.admitReq (h : Kept o s) {q : Nat} {kind : ReqKind} {idx n sqhead : Nat} {e inl : List Byte} {blk : Option BlkReq}
    {preds : List Nat} {bad : Bool} {volIdx : Nat} :
    Kept o (s.admitReq q kind idx n sqhead e inl blk preds bad volIdx).1 :=
  (Kept.ite h.upd.setQp h.upd.setQp.drawOp).jsend

theorem Kept.fetchFailed (h : Kept o s) {q st : Nat} : Kept o (s.fetchFailed q st) := h.ringError
theorem Kept.dirtyFetched (h : Kept o s) {r : Req} : Kept o (s.dirtyFetched r) := .ite h.setDlog h

theorem Kept.fetchNative (h : Kept o s) {q : Nat} : Kept o (s.fetchNative q) := by
  unfold State.fetchNative
  refine .ite h ?_
  extract_lets +onlyGivenNames r0
  have hr0 : Kept o r0.1 := h.ringEntry
  split
  · exact hr0
  · exact hr0.parkLc.refreshPark
  · exact hr0.fetchFailed
  refine .ite h ?_
  extract_lets +onlyGivenNames r1
  have hr1 : Kept o r1.1 := hr0.scanReq
  split
  · exact hr1
  · exact hr1.parkLc.refreshPark
  · exact hr1.fetchFailed
  · exact hr1.setQp
  extract_lets +onlyGivenNames head _ s1
  have hs1 : Kept o s1 := .ite hr1 hr1.setQp
  split
  · split
    · exact hs1.admitReq.finish
    · exact .ite hs1.admitReq.finish (.ite hs1.admitReq.finish hs1.admitReq.dirtyFetched)
  split
  · exact hs1.admitReq.finish
  · exact .ite hs1.admitReq.finish (.ite hs1.admitReq.finish hs1.admitReq.dirtyFetched)

theorem Kept.walkSgl (h : Kept o s) {q rid a a1 a2 a3 : Nat} {a4 : List (Nat × Nat)} : Kept o (s.walkSgl q rid a a1 a2 a3 a4).1 := by
  fun_induction State.walkSgl s q rid a a1 a2 a3 a4
  · exact h
  · exact h.access
  · exact h.access
  · exact h.access
  · exact h.access
  · exact h.access
  · exact h.access
  next ih1 => exact ih1 h.access
  · exact h.access
  · exact h.access
  · exact h.access
  next ih1 => exact ih1 h.access

theorem Kept.bufWalk (h : Kept o s) {r : Req} {b : Bool} : Kept o (s.bufWalk r b).1 := .ite_fst (.ite_fst h h.walkSgl) h

theorem Kept.walkStop (h : Kept o s) {r : Req} {w : WalkRes} : Kept o (s.walkStop r w) := by
  unfold State.walkStop
  split
  · exact h.finish
  · exact h.setFld.putReq.parkLc.refreshPark
  · exact h.putReq
  · exact h.putReq

theorem Kept.withBuf (h : Kept o s) {r : Req} {b : Bool} {k : State → List (Nat × Nat) → State} (hk : ∀ u x1, Kept o u → Kept o (k u x1)) :
    Kept o (s.withBuf r b k) := by
  unfold State.withBuf
  dsimp only
  split
  · exact .ite h.bufWalk.finish (hk _ _ h.bufWalk)
  · exact h.bufWalk.walkStop

theorem Kept.start (h : Kept o s) {q rid opc : Nat} {k : State → Req → State} (hk : ∀ u x1, Kept o u → Kept o (k u x1)) :
    Kept o (s.start q rid opc k) := by
  unfold State.start
  refine h.whenRing fun u hu => ?_
  dsimp only
  split
  · exact hu
  · exact .ite hu (.ite hu.finish (hk _ _ hu.putReq))

theorem Kept.addXfer (h : Kept o s) {q : Nat} {p : XfFor} {acct : Nat} {src dst : Side} {src2 : Option Side}
    {len xform xparam keyslot : Nat} {tail : Option Nat} {toHost : Bool} :
    Kept o (s.addXfer q p acct src dst src2 len xform xparam keyslot tail toHost) :=
  h.upd

theorem Kept.withSrc (h : Kept o s) {r : Req} {k : State → Side → State} (hk : ∀ u x1, Kept o u → Kept o (k u x1)) : Kept o (s.withSrc r k) :=
  .ite (hk _ _ h) (h.withBuf fun _ _ hx => hk _ _ hx)

theorem Kept.launch (h : Kept o s) {r : Req} {src dst : Side} {src2 : Option Side} {tail : Option Nat} {toHost : Bool} :
    Kept o (s.launch r src dst src2 tail toHost) :=
  .ite h.putReq.addXfer h

theorem Kept.startMove (h : Kept o s) {r : Req} : Kept o (s.startMove r) := by
  unfold State.startMove
  split
  · exact h.finish
  · exact .ite h.finish (h.withSrc fun _ _ hx1 => hx1.withBuf fun _ _ hx2 => hx2.launch)

theorem Kept.startFill (h : Kept o s) {r : Req} : Kept o (s.startFill r) := h.withBuf fun _ _ hx => hx.launch
theorem Kept.startCompare (h : Kept o s) {r : Req} : Kept o (s.startCompare r) := h.withSrc fun _ _ hx => hx.withBuf fun _ _ hx1 => hx1.launch

theorem Kept.startNetTx (h : Kept o s) {r : Req} : Kept o (s.startNetTx r) :=
  .ite h.finish (.ite h.finish (.ite (h.withSrc fun _ _ hx => hx.launch) h))

theorem Kept.startNetRx (h : Kept o s) {r : Req} : Kept o (s.startNetRx r) := h.withBuf fun _ _ hx => hx.putReq

/-! ### Complete.lean -/

theorem Kept.ringSignal (h : Kept o s) {q : Nat} : Kept o (s.ringSignal q) := .ite h.setQp.msi h.setQp.ringMsix
theorem Kept.ringPosted (h : Kept o s) {q : Nat} {irq : Bool} : Kept o (s.ringPosted q irq) := .ite h (.ite h.setQp.ringSignal h.setQp)
theorem Kept.cplWrite (h : Kept o s) {q a : Nat} {ps : List (Nat × Nat)} {b : List Byte} : Kept o (s.cplWrite q a ps b) := h.writePieces.dirtyWrite
theorem Kept.posted (h : Kept o s) {q : Nat} {c : Cpl} {r : Req} : Kept o (s.posted q c r) := h.setQp.settle

theorem Kept.postCq (h : Kept o s) {q : Nat} {c : Cpl} {r : Req} {b : List Byte} : Kept o (s.postCq q c r b) := by
  unfold State.postCq
  dsimp only
  split
  · exact h.access
  · exact h.access.parkLc.refreshPark
  · exact h.access.ringError
  · exact h.access.cplWrite.posted.ringPosted

theorem Kept.reachParts (h : Kept o s) {q : Nat} {a : List (Nat × List Byte)} {a1 : List (Nat × List (Nat × Nat) × List Byte)} :
    Kept o (s.reachParts q a a1).1 := by
  fun_induction State.reachParts s q a a1
  · exact h
  next ih1 => exact ih1 h.access
  · exact h.access
  · exact h.access

theorem Kept.writeParts (h : Kept o s) {q : Nat} {a : List (Nat × List (Nat × Nat) × List Byte)} : Kept o (s.writeParts q a) := by
  fun_induction State.writeParts s q a
  · exact h
  next ih1 => exact ih1 h.cplWrite

theorem Kept.driverArea (h : Kept o s) {q a n : Nat} : Kept o (s.driverArea q a n).1 := by
  unfold State.driverArea
  dsimp only
  split
  · exact h.access
  · exact h.access

theorem Kept.usedWanted (h : Kept o s) {q old new : Nat} : Kept o (s.usedWanted q old new).1 := by
  unfold State.usedWanted
  refine .ite_fst ?_ (.ite_fst h.driverArea h.driverArea)
  dsimp only
  split
  · exact h.driverArea
  · exact h.driverArea

theorem Kept.postVirtio (h : Kept o s) {q : Nat} {c : Cpl} {r : Req} : Kept o (s.postVirtio q c r) := by
  unfold State.postVirtio
  extract_lets +onlyGivenNames w
  have hw : Kept o w.1 := h.reachParts
  split
  · exact .ite hw.writeParts.posted.setQp.usedWanted.ringMsix hw.writeParts.posted.setQp.usedWanted
  · exact hw.ringError
  · exact hw

theorem Kept.jcounts (h : Kept o s) {r : Req} {a : Nat} {a1 : List (Nat × Nat)} : Kept o (s.jcounts r a a1) := by
  fun_induction State.jcounts s r a a1
  · exact h
  · exact h
  next ih1 => exact ih1 h.jsend

theorem Kept.commitCpl (h : Kept o s) {q : Nat} {c : Cpl} {r : Req} : Kept o (s.commitCpl q c r) := .ite h h.jsend.jcounts.chargeReq.setQp
theorem Kept.trailed (h : Kept o s) {q : Nat} {c : Cpl} : Kept o (s.trailed q c) := h.setQp.settle

theorem Kept.postNext (h : Kept o s) {q : Nat} : Kept o (s.postNext q) := by
  unfold State.postNext
  extract_lets +onlyGivenNames x
  split
  · exact h
  split
  · exact h
  refine .ite h ?_
  split
  · dsimp only
    split
    · exact h.commitCpl
    · exact .ite h.commitCpl (.ite h.commitCpl.trailed h.commitCpl.postVirtio)
  · dsimp only
    split
    · exact h.commitCpl
    · exact .ite h.commitCpl (.ite h.commitCpl.trailed h.commitCpl.postVirtio)
  · dsimp only
    split
    · exact h.commitCpl
    · exact .ite h.commitCpl (.ite h.commitCpl.trailed h.commitCpl.postCq)
  dsimp only
  split
  · exact h.commitCpl
  · exact .ite h.commitCpl (.ite h.commitCpl.trailed h.commitCpl.postCq)

theorem Kept.fetchRing (h : Kept o s) {q : Nat} : Kept o (s.fetchRing q) := .ite h.fetchNative h
theorem Kept.unmask (h : Kept o s) {f vec : Nat} : Kept o (s.unmask f vec) := .ite h.setFn.emit h.setFn

theorem Kept.ringDoorbell (h : Kept o s) {f loc : Nat} {d : W64} : Kept o (s.ringDoorbell f loc d) := by
  unfold State.ringDoorbell
  split
  · exact h.strayDb
  · exact .ite h.sendFlit h.doorbell

theorem Kept.execDoorbellWrite (h : Kept o s) {f off len : Nat} {data : W64} : KeptRes o (execDoorbellWrite f off len data s) := by
  refine .next ?_
  refine h.whenFn fun u hu => ?_
  refine .ite hu ?_
  split
  · exact hu
  · exact hu.ringDoorbell

theorem Kept.execShadowPoll (h : Kept o s) {q : QpId} : KeptRes o (execShadowPoll q s) := by
  refine .next ?_
  refine h.whenRing fun u hu => ?_
  refine .ite (.ite hu.setQp hu) ?_
  refine .ite hu ?_
  dsimp only
  split
  · exact hu.access.setQp.emit
  · exact hu.access

theorem Kept.execShadowReadResult (h : Kept o s) {q : QpId} {res : ShadowRes} : KeptRes o (execShadowReadResult q res s) := by
  refine .next ?_
  refine h.whenRing fun u hu => ?_
  refine .ite hu ?_
  split
  · exact hu.setQp.invalSweep
  · exact .ite hu.setQp.invalSweep.ringIndices hu.setQp.invalSweep

theorem Kept.activate (h : Kept o s) {q : Nat} : Kept o (s.activate q) := .ite h.setQp h.setQp.expose
theorem Kept.ringEnable (h : Kept o s) {q : Nat} : Kept o (s.ringEnable q) := .ite (.ite h.setQp h) (.ite h.setQp (.ite h.setQp h.activate))

theorem Kept.ringDisable (h : Kept o s) {q : Nat} : Kept o (s.ringDisable q) := by
  unfold State.ringDisable
  refine .ite h.setQp.releaseAll.dropRingWaits.quiesced.quiesceCheck ?_
  split
  · exact h.setQp.drainStart
  · exact h.setQp.drainStart
  · exact h.setQp.drainStart
  · exact h.setQp

theorem Kept.execQpEnable (h : Kept o s) {f loc : Nat} : KeptRes o (execQpEnable f loc s) := by
  refine .next ?_
  refine h.whenFn fun u hu => ?_
  refine .ite hu ?_
  split
  · exact hu
  · exact hu.ringEnable

theorem Kept.execQpDisable (h : Kept o s) {f loc : Nat} : KeptRes o (execQpDisable f loc s) := by
  refine .next ?_
  refine h.whenFn fun u hu => ?_
  refine .ite hu ?_
  split
  · exact hu
  · exact hu.ringDisable

theorem Kept.execQueueWindowWrite (h : Kept o s) {f loc : Nat} {reg : QwReg} {data : W64} : KeptRes o (execQueueWindowWrite f loc reg data s) := by
  refine .next ?_
  refine h.whenFn fun u hu => ?_
  refine .ite hu ?_
  split
  · exact hu
  · exact .ite hu.setQp hu.setQp

theorem Kept.execVfFstatEvtEnWrite (h : Kept o s) {f : Nat} {data : W64} : KeptRes o (execVfFstatEvtEnWrite f data s) :=
  .next (h.whenFn fun _ hu => .ite hu (.ite hu.setFn.msix hu.setFn))

theorem Kept.startDirty (h : Kept o s) {q rid act : Nat} {k : State → Req → State} (hk : ∀ u x1, Kept o u → Kept o (k u x1)) :
    Kept o (s.startDirty q rid act k) :=
  h.start fun _ _ hx => .ite hx (.ite hx.finish (hk _ _ hx))

theorem Kept.dirtyFlush (h : Kept o s) {r : Req} : Kept o (s.dirtyFlush r) := .ite h.finish (.ite h.dlogFlush h.dlogFlush.finish)

theorem Kept.dirtyEnd (h : Kept o s) {r : Req} {stop : Bool} : Kept o (s.dirtyEnd r stop) := by
  unfold State.dirtyEnd
  refine .ite h.finish ?_
  split
  · dsimp only
    split
    · exact h.dlogFlush.finish
    · exact .ite h.dlogFlush h.dlogFlush.setDlog.finish
  dsimp only
  split
  · exact h.dlogFlush.finish
  · exact .ite h.dlogFlush h.dlogFlush.setDlog.finish

/-! ### Shuttle.lean -/

theorem Kept.putXfer (h : Kept o s) {x : Xfer} : Kept o (s.putXfer x) := h.upd
theorem Kept.dropXfer (h : Kept o s) {xid : Nat} : Kept o (s.dropXfer xid) := h.upd

theorem Kept.countReq (h : Kept o s) {q rid c n : Nat} : Kept o (s.countReq q rid c n) := by
  unfold State.countReq
  refine .ite h ?_
  split
  · exact h.putReq
  · exact h

theorem Kept.reachPiece (h : Kept o s) {x : Xfer} {host w : Bool} {off a n : Nat} : Kept o (s.reachPiece x host w off a n).1 := by
  unfold State.reachPiece
  refine .ite_fst ?_ ?_
  · split
    · exact h
    · exact .ite h h.atsSend
    · exact h
    · exact h
  split
  · dsimp only
    split
    · exact h.lcPage
    · exact h.lcPage
    · exact h.lcPage
    · exact h.lcPage
  dsimp only
  split
  · exact h.devPage
  · exact h.devPage
  · exact h.devPage
  · exact h.devPage

theorem Kept.reachPieces (h : Kept o s) {x : Xfer} {host w : Bool} {a : Nat} {a1 a2 : List (Nat × Nat)} {a3 : Stop} :
    Kept o (s.reachPieces x host w a a1 a2 a3).1 := by
  fun_induction State.reachPieces s x host w a a1 a2 a3
  · exact h
  next ih1 => exact ih1 h.reachPiece

theorem Kept.reachSide (h : Kept o s) {x : Xfer} {d : Side} {w : Bool} {off n : Nat} : Kept o (s.reachSide x d w off n).1 := by
  unfold State.reachSide
  split
  · exact h.reachPieces
  · exact h.reachPieces
  · exact h

theorem Kept.writeSide (h : Kept o s) {x : Xfer} {host : Bool} {a : List (Nat × Nat)} {a1 : List Byte} : Kept o (s.writeSide x host a a1) := by
  fun_induction State.writeSide s x host a a1
  · exact h
  next ih1 => exact ih1 (.ite h.hostWrite h.devWrite.unpoison)

theorem Kept.rxPop (h : Kept o s) {q : Nat} : Kept o (s.rxPop q) := by
  unfold State.rxPop
  split
  · exact h.upd
  · exact h

theorem Kept.finishAll (h : Kept o s) {q status : Nat} {a : List Nat} : Kept o (s.finishAll q status a) := by
  fun_induction State.finishAll s q status a
  · exact h
  rename_i ih1
  refine ih1 ?_
  split
  · exact h.finish
  · exact h

theorem Kept.failDone (h : Kept o s) {x : Xfer} : Kept o (s.failDone x) := by
  unfold State.failDone
  extract_lets +onlyGivenNames s0 s1
  have hs1 : Kept o s1 := by
    dsimp only [s1]
    split
    · exact h.dropXfer.setBeq
    · exact h.dropXfer.rxPop
    · exact h.dropXfer
  exact hs1.finishAll.refreshPark

theorem Kept.failXfer (h : Kept o s) {x : Xfer} {status : Nat} : Kept o (s.failXfer x status) := .ite h.upd.failDone h.upd.putXfer
theorem Kept.parkXfer (h : Kept o s) {x : Xfer} {st : XfSt} {off : Nat} : Kept o (s.parkXfer x st off) := h.putXfer.refreshPark
theorem Kept.readyXfer (h : Kept o s) {x : Xfer} : Kept o (s.readyXfer x) := h.putXfer.refreshPark

theorem Kept.drr (h : Kept o s) {key : Nat} {lc : Bool} {xs : List Xfer} : KeptOpt o Prod.fst (s.drr key lc xs) := by
  unfold State.drr
  dsimp only
  split
  · refine .ite (.some h.upd) ?_
    split
    · exact .some h.upd
    exact .none
  split
  · exact .some h.upd
  exact .none

theorem Kept.pick (h : Kept o s) {port : Nat} {toHost : Bool} : KeptOpt o Prod.fst (s.pick port toHost) :=
  .ite (h.drr.map_of fun _ => rfl) (h.drr.map_of fun _ => rfl)

theorem Kept.preempt (h : Kept o s) {x : Xfer} : Kept o (s.preempt x) := h.upd

theorem Kept.drawStitch (h : Kept o s) {x : Xfer} {guar : Bool} {n : Nat} : Kept o (s.drawStitch x guar n) :=
  .ite h h.drawTokens.drawTokens.drawTokens

theorem Kept.stopXfer (h : Kept o s) {x : Xfer} {st : Stop} : Kept o (s.stopXfer x st) := by
  unfold State.stopXfer
  split
  · exact h
  · exact h.putXfer
  · exact h.setFld.parkLc.parkXfer
  · exact (Kept.ite h h.shutFault).failXfer

theorem Kept.reqDone (h : Kept o s) {x : Xfer} : Kept o (s.reqDone x) := by
  unfold State.reqDone
  split
  · dsimp only
    split
    · exact h.dropXfer.finish
    · exact h.dropXfer
  dsimp only
  split
  · exact h.dropXfer.finish
  · exact h.dropXfer

theorem Kept.tailWrite (h : Kept o s) {x : Xfer} {a : Nat} : Kept o (s.tailWrite x a) := by
  unfold State.tailWrite
  extract_lets +onlyGivenNames d r
  have hr : Kept o r.1 := h.reachSide
  split
  · exact hr.writeSide.dirtyWrite.putXfer.reqDone
  · exact hr.stopXfer
  · exact hr.stopXfer
  · exact hr.stopXfer

theorem Kept.stitchGo (h : Kept o s) {x : Xfer} {guar : Bool} {n : Nat} {poison : Bool} : Kept o (s.stitchGo x guar n poison).1 := by
  unfold State.stitchGo
  split
  · dsimp only
    split
    · exact h.reachSide.reachSide.reachSide.putXfer.preempt.drawStitch
    · exact h.reachSide.reachSide.reachSide
  dsimp only
  split
  · exact h.reachSide.reachSide.putXfer.preempt.drawStitch
  · exact h.reachSide.reachSide

theorem Kept.stitchDo (h : Kept o s) {x : Xfer} {guar : Bool} {n : Nat} {poison : Bool} : Kept o (s.stitchDo x guar n poison) := by
  unfold State.stitchDo
  dsimp only
  split
  · exact h.stitchGo
  · exact h.stitchGo.stopXfer

theorem Kept.stitchOut (h : Kept o s) {x : Xfer} {guar : Bool} : Kept o (s.stitchOut x guar) := by
  unfold State.stitchOut
  dsimp only
  split
  · exact .ite h.stitchDo h.stitchDo
  · exact h.stitchDo

theorem Kept.countStitch (h : Kept o s) {x : Xfer} {st : Stitch} : Kept o (s.countStitch x st) := h.countReq.countReq.countReq

theorem Kept.stitchIn (h : Kept o s) {x : Xfer} {st : Stitch} {rest : List Stitch} : Kept o (s.stitchIn x st rest).1 :=
  (h.writeSide.foldl fun _ _ hx1 => .ite hx1.dirtyWrite hx1).putXfer.countStitch

theorem Kept.wakeWaiter (h : Kept o s) {w : Waiter} : Kept o (s.wakeWaiter w) := by
  unfold State.wakeWaiter
  refine .ite h ?_
  split
  · split
    · exact .ite h h.readyXfer
    · exact h
  · exact h.refreshPark
  · exact h.refreshPark
  · exact h.refreshPark
  · exact h
  · exact h.dlogFlush

theorem Kept.failWaiter (h : Kept o s) {w : Waiter} {status : Nat} : Kept o (s.failWaiter w status) := by
  unfold State.failWaiter
  split
  · split
    · exact h.failXfer
    · exact h
  · split
    · exact h.finish
    · exact h
  · exact .ite h h.ringError
  · exact .ite h h.ringError
  · exact h
  · exact h.bitmapLost

theorem Kept.prgSend (h : Kept o s) {g : Prg} : Kept o (s.prgSend g) := h.setFn.upd

theorem Kept.notGranted (h : Kept o s) {a : AtsReq} : Kept o (s.notGranted a) := by
  unfold State.notGranted
  refine .ite h.failWaiter ?_
  refine .ite ?_ h.shutFault.failWaiter
  extract_lets +onlyGivenNames g s1 free _ s2
  have hs2 : Kept o s2 := .ite h.shutFault.prgSend h.shutFault.upd
  split
  · split
    · exact hs2.parkXfer
    · exact hs2
  · exact hs2.refreshPark

theorem Kept.atcGrant (h : Kept o s) {a : AtsReq} {phys size : Nat} {r w u : Bool} : Kept o (s.atcGrant a phys size r w u) := h.atcFill

theorem Kept.execAtsCompletion (h : Kept o s) {tag : Nat} {res : AtsRes} : KeptRes o (execAtsCompletion tag res s) := by
  refine .next ?_
  refine h.whenUp fun u hu => ?_
  split
  · exact hu
  split
  · exact hu.upd.shutFault.failWaiter
  · exact .ite hu.upd.atcGrant.wakeWaiter hu.upd.notGranted

theorem Kept.execPageRequestGroupSend (h : Kept o s) {port : Nat} : KeptRes o (execPageRequestGroupSend port s) := by
  refine .next ?_
  refine h.whenUp fun u hu => ?_
  split
  · exact hu
  refine .ite hu ?_
  split
  · dsimp only
    split
    · exact hu.upd.prgSend.parkXfer
    · exact hu.upd.prgSend
  · exact hu.upd.prgSend.refreshPark

theorem Kept.lateResp (h : Kept o s) : Kept o s.lateResp := h.bump.setBit
theorem Kept.retranslate (h : Kept o s) {g : Prg} : Kept o (s.retranslate g) := h.atsSend

theorem Kept.execPageRequestResponse (h : Kept o s) {f prgi : Nat} {resp : PrgResp} : KeptRes o (execPageRequestResponse f prgi resp s) := by
  refine .next ?_
  refine h.whenUp fun u hu => ?_
  split
  · exact hu.lateResp
  refine .ite hu.upd.lateResp ?_
  split
  · exact hu.upd.retranslate
  · exact hu.upd.shutFault.failWaiter
  · exact hu.upd.setFn.shutFault.failWaiter

theorem Kept.execPriTimeout (h : Kept o s) {f prgi : Nat} : KeptRes o (execPriTimeout f prgi s) := by
  refine .next ?_
  refine h.whenUp fun u hu => ?_
  split
  · exact hu
  · exact hu.upd.shutFault.failWaiter

theorem Kept.cplTimeout (h : Kept o s) {tag : Nat} : Kept o (s.cplTimeout tag) := by
  unfold State.cplTimeout
  refine .ite ?_ ?_
  · split
    · exact .ite h h.failXfer
    · exact h
  refine .ite (.ite h.failWaiter h) ?_
  refine .ite h.setQp ?_
  split
  · exact .ite h.failWaiter h
  · exact h

theorem Kept.iommuDrop (h : Kept o s) {hit : AtcEnt → Bool} : Kept o (s.iommuDrop hit) := h.upd

theorem Kept.execIofenceC (h : Kept o s) {av : Bool} {addr data : BitVec 64} : KeptRes o (execIofenceC av addr data s) := by
  refine .next ?_
  refine h.whenUp fun u hu => ?_
  refine .ite hu ?_
  split
  · exact hu.devWrite
  · exact hu.logMem

theorem Kept.lcUnpark (h : Kept o s) {n : Nat} : Kept o (s.lcUnpark n) := h.upd

theorem Kept.lcSettle (h : Kept o s) {deny : Bool} {a : List Waiter} : Kept o (s.lcSettle deny a) := by
  fun_induction State.lcSettle s deny a
  · exact h
  next ih1 => exact ih1 (.ite h.failWaiter h.wakeWaiter)

theorem Kept.execLfltTimeout (h : Kept o s) {xid : Nat} : KeptRes o (execLfltTimeout xid s) := by
  refine .next ?_
  refine h.whenUp fun u hu => ?_
  split
  · exact .ite hu.upd.failXfer hu
  · exact hu

theorem Kept.keyCmd (h : Kept o s) {who : Agent} {data : W64} {load : Bool} : Kept o (s.keyCmd who data load) :=
  h.regTry fun _ hu => .ite hu.upd.setBit hu.upd

theorem Kept.forceDrain (h : Kept o s) {q : Nat} : Kept o (s.forceDrain q) := by
  unfold State.forceDrain
  extract_lets +onlyGivenNames live cplParked walks s1 gone t _ s2 s3
  have hs3 : Kept o s3 := (Kept.ite h.dropRingWaits.releaseList.setQp h.dropRingWaits).foldl fun _ _ hx => .ite hx.finish hx
  exact (hs3.foldl fun _ _ hx => hx.failXfer).refreshPark

theorem Kept.execDrainComplete (h : Kept o s) {q : QpId} : KeptRes o (execDrainComplete q s) := by
  refine .next ?_
  refine h.whenRing fun u hu => ?_
  split
  · extract_lets +onlyGivenNames s1
    have hs1 : Kept o s1 := .ite hu.forceDrain hu
    exact .ite hs1.releaseAll.quiesced.quiesceCheck hs1
  · exact hu

/-! ### SelvTables.lean -/

theorem Kept.exqWrite (h : Kept o s) {q : Nat} {c : PCtx} {reason : Nat} {mirror : Bool} : Kept o (s.exqWrite q c reason mirror).1 :=
  .ite_fst h (.ite_fst h (.ite_fst h.logMem (.ite h.devWrite.unpoison.setFld.upd.pcnt.msi h.devWrite.unpoison.setFld.upd.pcnt)))

theorem Kept.toExq (h : Kept o s) {q : Nat} {c : PCtx} {reason : Nat} {mirror : Bool} : Kept o (s.toExq q c reason mirror) := by
  unfold State.toExq
  split
  next e => exact h.exqWrite.of_fst e
  next e => exact (h.exqWrite.of_fst e).netDrop

theorem Kept.pktReason (h : Kept o s) {c : PCtx} {r : Nat} : Kept o (s.pktReason c r) := by
  unfold State.pktReason
  refine .ite ?_ h.netDrop
  split
  next e => exact (h.exqWrite.of_fst e).wrapCount
  next e => exact (h.exqWrite.of_fst e).netDrop

theorem Kept.flowHit (h : Kept o s) {x : TabEnt} : Kept o (s.flowHit x) := h.upd
theorem Kept.cacheFill (h : Kept o s) {p : Nat} {key : List Byte} : Kept o (s.cacheFill p key) := h.upd

theorem Kept.bucketTrim (h : Kept o s) {b : Nat} : Kept o (s.bucketTrim b) := by
  unfold State.bucketTrim
  refine .ite ?_ h
  split
  · exact h.drawn.upd
  · exact h

theorem Kept.learn (h : Kept o s) {c : PCtx} {action : Nat} : Kept o (s.learn c action) := by
  unfold State.learn
  split
  · exact h.pcnt
  · exact h.upd.bucketTrim.pcnt.cacheFill

theorem Kept.police (h : Kept o s) {i : Nat} {im : List Byte} {len : Nat} : Kept o (s.police i im len).1 := .ite_fst h.upd (.ite_fst h.upd h.upd)
theorem Kept.pfcUpdate (h : Kept o s) {port cls : Nat} : Kept o (s.pfcUpdate port cls) := .ite h (.ite h.upd.emit (.ite h.upd.emit h))
theorem Kept.pfcLeft (h : Kept o s) {src cls : Nat} : Kept o (s.pfcLeft src cls) := .ite h.pfcUpdate h

theorem Kept.egressPut (h : Kept o s) {c : PCtx} {port cls : Nat} {x : TxPkt} {yellow : Bool} : Kept o (s.egressPut c port cls x yellow) :=
  .ite h.pktReason h.upd

/-! ### Session.lean -/

theorem Kept.setSession (h : Kept o s) {x : Option Session} : Kept o (s.setSession x) := h.upd

theorem Kept.showSession (h : Kept o s) : Kept o s.showSession := by
  unfold State.showSession
  split
  · exact h.setFld.setFld.setFld
  · exact h.setFld.setFld.setFld.setFld

theorem Kept.unholdAll (h : Kept o s) {a : List Nat} : Kept o (s.unholdAll a) := by
  fun_induction State.unholdAll s a
  · exact h
  next ih1 => exact ih1 (.ite h.setQp.activate h.setQp)

theorem Kept.closeSession (h : Kept o s) : Kept o s.closeSession := by
  unfold State.closeSession
  split
  · exact h.setSession.setReg.unholdAll.showSession
  · exact h

theorem Kept.heard (h : Kept o s) {r : OnfReq} {named : Option Nat} : Kept o (s.heard r named) := by
  unfold State.heard
  split
  · exact .ite h.setSession h
  · exact h

theorem Kept.inSession (h : Kept o s) {r : OnfReq} {op : Nat} {named : Option Nat} {foreign : Nat} {staging : Bool}
    {k : State → Session → State} (hk : ∀ u x1, Kept o u → Kept o (k u x1)) :
    Kept o (s.inSession r op named foreign staging k) := by
  unfold State.inSession
  split
  · exact h.reply
  · exact .ite h.reply (.ite h.reply (.ite h.reply (.ite h.heard.reply (.ite h.heard.reply (hk _ _ h.heard)))))

theorem Kept.sessNo (h : Kept o s) {r : OnfReq} {op : Nat} {named : Option Nat} {code : Nat} : Kept o (s.sessNo r op named code) := h.heard.reply

theorem Kept.stageReg (h : Kept o s) {e : Nat × W64} : Kept o (s.stageReg e) := by
  unfold State.stageReg
  split
  · exact h.setSession
  · exact h

theorem Kept.stageRegs (h : Kept o s) {a : List (Nat × W64)} : Kept o (s.stageRegs a) := by
  fun_induction State.stageRegs s a
  · exact h
  next ih1 => exact ih1 h.stageReg

theorem Kept.stageTab (h : Kept o s) {t : TabStage} : Kept o (s.stageTab t) := by
  unfold State.stageTab
  split
  · exact h.setSession
  · exact h

theorem Kept.stageTabs (h : Kept o s) {a : List TabStage} : Kept o (s.stageTabs a) := by
  fun_induction State.stageTabs s a
  · exact h
  next ih1 => exact ih1 h.stageTab

theorem Kept.stageAnd (h : Kept o s) {r : OnfReq} {op : Nat} {regs : List (Nat × W64)} {tabs : List TabStage} {params : List Byte} :
    Kept o (s.stageAnd r op regs tabs params) :=
  .ite h.stageRegs.stageTabs.showSession.upd.sendFlit h.stageRegs.stageTabs.showSession.reply

theorem Kept.unstage (h : Kept o s) {w : TwinWait} : Kept o (s.unstage w) := by
  unfold State.unstage
  split
  · exact h.setSession.showSession
  · exact h

/-! ### Tape.lean -/

theorem Kept.setActive (h : Kept o s) {x : TapeBank} : Kept o (s.setActive x) := h.setBank
theorem Kept.setIdle (h : Kept o s) {x : TapeBank} : Kept o (s.setIdle x) := h.setBank
theorem Kept.tapeMark (h : Kept o s) {bits : Nat} : Kept o (s.tapeMark bits) := h.setActive

theorem Kept.skewCheck (h : Kept o s) {minute : Nat} : Kept o (s.skewCheck minute) := by
  unfold State.skewCheck
  split
  · exact .ite h.setIdle.tapeEvt h
  · exact h

theorem Kept.bankFlip (h : Kept o s) : Kept o s.bankFlip :=
  .ite (Kept.ite h.setActive.setFld.setFld.setActive.upd.emit h.setActive.setFld.setFld.setActive.upd).skewCheck h.setActive.tapeEvt

theorem Kept.restartEpoch (h : Kept o s) : Kept o s.restartEpoch := h.setActive
theorem Kept.addIdle (h : Kept o s) {a ctr n : Nat} : Kept o (s.addIdle a ctr n) := .ite h.setIdle h.setActive

theorem Kept.execTapeIncrement (h : Kept o s) {account ctr bank amount : Nat} : KeptRes o (execTapeIncrement account ctr bank amount s) := by
  refine .next ?_
  refine h.whenUp fun u hu => ?_
  exact .ite hu (.ite hu.charge (.ite (Kept.ite hu.addIdle.emit hu.addIdle).tapeEvt (.ite hu.addIdle.emit hu.addIdle)))

theorem Kept.tickAll (h : Kept o s) {k : Nat} {a : List (Nat × Nat × Nat)} : Kept o (s.tickAll k a) := by
  fun_induction State.tickAll s k a
  · exact h
  next ih1 => exact ih1 h.charge

theorem Kept.slotTick (h : Kept o s) : Kept o s.slotTick := .ite (.ite h.upd h.upd.tickAll) h

theorem Kept.peerInc (h : Kept o s) {account ctr minute amount : Nat} : Kept o (s.peerInc account ctr minute amount) :=
  .ite h (.ite h.setActive (.ite h.setIdle h.setActive))

theorem Kept.ringRestart (h : Kept o s) : Kept o s.ringRestart := h.setReg.upd

theorem Kept.execTapeRecordWrite (h : Kept o s) : KeptRes o (execTapeRecordWrite s) := by
  refine .next ?_
  refine h.whenUp fun u hu => ?_
  refine .ite hu ?_
  refine .ite hu.setIdle.setFld.upd ?_
  extract_lets +onlyGivenNames b rec_ need n base
  split
  refine .ite hu.logMem ?_
  extract_lets +onlyGivenNames s1 s2
  have hs2 : Kept o s2 := by
    dsimp only [s2]
    split
    · exact hu.drawn.devWrite
    · exact hu.drawn
  refine .tapeEvt ?_
  exact .ite hs2.devWrite.unpoison.setFld.setReg.setIdle.setFld.upd.ringRestart hs2.devWrite.unpoison.setFld.setReg.setIdle.setFld.upd

theorem Kept.headWrite (h : Kept o s) {h1 : Nat} : Kept o (s.headWrite h1) := .ite (.ite h.setFld.upd.clrBit h.setFld.upd) h.tapeEvt

theorem Kept.execTapeRead (h : Kept o s) {r : OnfReq} {firstRseq : BitVec 64} {max : Nat} : KeptRes o (execTapeRead r firstRseq max s) := by
  refine .next ?_
  refine h.command fun u hu => ?_
  refine .ite hu.reply ?_
  split
  · exact hu.reply
  · exact hu.reply

theorem Kept.tapeMap (h : Kept o s) {r : OnfReq} {reserved range other : Bool} {regs : State → List (Nat × W64)} :
    Kept o (s.tapeMap r reserved range other regs) :=
  .ite h.sessNo (.ite h.sessNo (.ite h.sessNo (h.inSession fun _ _ hx => hx.stageAnd)))

theorem Kept.execTapeMapFunction (h : Kept o s) {r : OnfReq} {index account mflags : Nat} :
    KeptRes o (execTapeMapFunction r index account mflags s) :=
  .next (h.command fun _ hu => hu.tapeMap)

theorem Kept.execTapeMapTspace (h : Kept o s) {r : OnfReq} {index account mflags : Nat} : KeptRes o (execTapeMapTspace r index account mflags s) :=
  .next (h.command fun _ hu => hu.tapeMap)

theorem Kept.execTapeMapEnable (h : Kept o s) {r : OnfReq} {index mflags : Nat} : KeptRes o (execTapeMapEnable r index mflags s) :=
  .next (h.command fun _ hu => hu.tapeMap)

theorem Kept.execTapeRing (h : Kept o s) {r : OnfReq} {base : BitVec 64} {sizeMib rflags : Nat} :
    KeptRes o (execTapeRing r base sizeMib rflags s) :=
  .next (h.command fun _ hu => .ite hu.sessNo (.ite hu.sessNo (hu.inSession fun _ _ hx => .ite hx.reply hx.stageAnd)))

/-! ### Check.lean -/

theorem Kept.holdQps (h : Kept o s) {a : List Nat} : Kept o (s.holdQps a) := by
  fun_induction State.holdQps s a
  · exact h
  next ih1 => exact ih1 h.setQp

theorem Kept.checkDone (h : Kept o s) {r : OnfReq} {vs : List Viol} : Kept o (s.checkDone r vs) := by
  unfold State.checkDone
  split
  · exact h.reply
  · exact (Kept.ite h.setSession.holdQps.showSession h).reply

/-! ### Block.lean -/

theorem Kept.enqueue (h : Kept o s) {r : Req} {op flags lba nbytes : Nat} {ranges : List (Nat × Nat)} {data : Side} :
    Kept o (s.enqueue r op flags lba nbytes ranges data) :=
  h.putReq.setBeq

theorem Kept.issueGate (h : Kept o s) {r : Req} {effect : Nat} : Kept o (s.issueGate r effect).1 := by
  unfold State.issueGate
  split
  · exact h
  · exact .ite_fst h.jsend.putReq h

theorem Kept.beqWrite (h : Kept o s) {b a : Nat} {l : List Byte} : Kept o (s.beqWrite b a l) := by
  unfold State.beqWrite
  dsimp only
  split
  · exact h.devWrite.unpoison
  · exact h.violation
  · exact h

theorem Kept.writeConts (h : Kept o s) {b wid a : Nat} {a1 : List (List (Nat × Nat))} : Kept o (s.writeConts b wid a a1) := by
  fun_induction State.writeConts s b wid a a1
  · exact h
  next ih1 => exact ih1 h.beqWrite

theorem Kept.writeItem (h : Kept o s) {b : Nat} {it : BeqItem} {rest : List BeqItem} : Kept o (s.writeItem b it rest) := by
  unfold State.writeItem
  extract_lets +onlyGivenNames x t d wid s1 p s2 n x1 x2 s3 s4
  have hs4 : Kept o s4 := .ite h.writeConts.beqWrite.setBeq.setFld.countReq h.writeConts.beqWrite.setBeq.setFld
  exact .ite hs4.msi hs4

theorem Kept.execBeqWorkItem (h : Kept o s) {b : Nat} : KeptRes o (execBeqWorkItem b s) := by
  refine .next ?_
  refine h.whenPanel fun u hu => ?_
  dsimp only
  split
  · exact hu
  refine .ite hu ?_
  split
  · exact .ite hu.writeItem (.ite hu.issueGate.writeItem hu.issueGate)
  · exact hu.writeItem

theorem Kept.withVolume (h : Kept o s) {r : Req} {invalid : Nat} {k : State → State} (hk : ∀ u, Kept o u → Kept o (k u)) :
    Kept o (s.withVolume r invalid k) :=
  .ite h.finish (.ite h.finish (hk _ h))

theorem Kept.startBlk (h : Kept o s) {r : Req} {k : State → State} (hk : ∀ u, Kept o u → Kept o (k u)) : Kept o (s.startBlk r k) := by
  unfold State.startBlk
  refine .ite h.finish ?_
  refine h.withVolume fun u hu => ?_
  split
  · exact hu.finish
  · exact hk _ hu

theorem Kept.takeVblk (h : Kept o s) {q ty : Nat} {b : BlkReq} {k : State → Req → State} (hk : ∀ u x1, Kept o u → Kept o (k u x1)) :
    Kept o (s.takeVblk q ty b k) :=
  h.whenRing fun _ hu => .ite hu (hk _ _ hu.setQp.admitReq)

theorem Kept.enqueueRanges (h : Kept o s) {r : Req} {op flags : Nat} {rs : List (Nat × Nat)} : Kept o (s.enqueueRanges r op flags rs) := by
  unfold State.enqueueRanges
  split
  · exact h.enqueue
  · exact h.enqueue

theorem Kept.vblkData (h : Kept o s) {r : Req} {b : BlkReq} {op : Nat} : Kept o (s.vblkData r b op) :=
  h.withVolume fun _ hu => .ite hu.finish hu.enqueue

theorem Kept.vblkRanges (h : Kept o s) {r : Req} {b : BlkReq} {op : Nat} : Kept o (s.vblkRanges r b op) :=
  h.withVolume fun _ hu => .ite hu.finish hu.enqueueRanges

theorem Kept.nvmeEventIdx (h : Kept o s) {q : Nat} : Kept o (s.nvmeEventIdx q) := by
  unfold State.nvmeEventIdx
  refine .ite h ?_
  dsimp only
  split
  · exact h.access.writePieces.dirtyWrite
  · exact h

theorem Kept.takeNvme (h : Kept o s) {q opc : Nat} {b : BlkReq} {k : State → Req → State} (hk : ∀ u x1, Kept o u → Kept o (k u x1)) :
    Kept o (s.takeNvme q opc b k) :=
  h.whenRing fun _ hu => .ite hu (hk _ _ (Kept.ite hu hu.setQp).nvmeEventIdx.admitReq)

theorem Kept.nvmeVol (h : Kept o s) {r : Req} {b : BlkReq} {k : State → State} (hk : ∀ u, Kept o u → Kept o (k u)) : Kept o (s.nvmeVol r b k) :=
  .ite h.finish (h.withVolume fun _ hu => hk _ hu)

theorem Kept.nvmeData (h : Kept o s) {r : Req} {b : BlkReq} {op flags : Nat} {data : Side} : Kept o (s.nvmeData r b op flags data) :=
  h.nvmeVol fun _ hu => .ite hu.finish (.ite hu.finish hu.enqueue)

theorem Kept.rspTaken (h : Kept o s) {b : Nat} : Kept o (s.rspTaken b) := h.setFld

theorem Kept.withWork (h : Kept o s) {b : Nat} {r : BeqRsp} {k : State → Work → State} (hk : ∀ u x1, Kept o u → Kept o (k u x1)) :
    Kept o (s.withWork b r k) := by
  unfold State.withWork
  refine .ite h ?_
  refine .ite h.rspTaken ?_
  split
  · exact h.rspTaken.setBit
  · exact hk _ _ h

theorem Kept.moveStart (h : Kept o s) {b : Nat} {rsp : BeqRsp} {w : Work} {toHost : Bool} : Kept o (s.moveStart b rsp w toHost) := by
  unfold State.moveStart
  split
  · exact h.rspTaken
  · exact .ite h (Kept.ite h.drawn h).addXfer.upd.rspTaken

theorem Kept.moveRsp (h : Kept o s) {b : Nat} {rsp : BeqRsp} {toHost : Bool} : Kept o (s.moveRsp b rsp toHost) :=
  h.whenPanel fun _ hu => hu.withWork fun _ _ hx => .ite hx.rspTaken.setBit hx.moveStart

theorem Kept.execMoved (h : Kept o s) {b wid off bytes : Nat} : KeptRes o (execMoved b wid off bytes s) := by
  refine .next ?_
  refine h.whenPanel fun u hu => ?_
  dsimp only
  split
  · exact hu
  · exact .ite hu hu.setBeq

theorem Kept.workDone (h : Kept o s) {b : Nat} {w : Work} {status : Nat} : Kept o (s.workDone b w status) := by
  unfold State.workDone
  dsimp only
  split
  · exact .ite h.setBeq h.setBeq.finish
  · exact h.setBeq

theorem Kept.moveDone (h : Kept o s) {x : Xfer} {b wid : Nat} {notify : Bool} : Kept o (s.moveDone x b wid notify) := by
  unfold State.moveDone
  extract_lets +onlyGivenNames s1 y s2
  have hs2 : Kept o s2 := .ite h.dropXfer.setBeq h.dropXfer
  split
  · exact hs2
  split
  · exact .ite hs2 hs2.workDone
  · exact hs2

theorem Kept.moveData (h : Kept o s) {x : Xfer} {st : Stitch} : Kept o (s.moveData x st) := by
  unfold State.moveData
  split
  · split
    · exact .ite h.putReq h
    · exact h
  · exact h

/-! ### Conntrack.lean -/

theorem Kept.ctPut (h : Kept o s) {c : Conn} {tell : Bool} : Kept o (s.ctPut c tell) := .ite h.upd.sendFlit h.upd
theorem Kept.ctDrop (h : Kept o s) {key : List Byte} : Kept o (s.ctDrop key) := .ite h.upd.sendFlit h.upd

theorem Kept.ctStage (h : Kept o s) {e : Nat} {key : List Byte} {g : Seg} {commit : Bool} {allow : Nat} :
    Kept o (s.ctStage e key g commit allow).1 := by
  unfold State.ctStage
  split
  · split
    · exact h
    · exact .ite_fst h.ctPut h
  split
  · exact h
  · exact .ite_fst h (.ite_fst h (.ite_fst h h.upd.ctPut))

theorem Kept.setSa (h : Kept o s) {i : Nat} {d : SaDyn} : Kept o (s.setSa i d) := h.upd
theorem Kept.saNext (h : Kept o s) {i : Nat} : Kept o (s.saNext i).1 := .ite_fst h.setSa.sendFlit h.setSa
theorem Kept.saCount (h : Kept o s) {i : Nat} {sa : SaCfg} {n : Nat} : Kept o (s.saCount i sa n) := .ite h.setSa.setBit h.setSa

theorem Kept.ipsecEnc (h : Kept o s) {e i : Nat} {fr : List Byte} {p : Parsed} : Kept o (s.ipsecEnc e i fr p).1 :=
  .ite_fst h (.ite_fst h h.saNext.saCount)

theorem Kept.ipsecDec (h : Kept o s) {e i : Nat} {fr : List Byte} {p : Parsed} : Kept o (s.ipsecDec e i fr p).1 := by
  unfold State.ipsecDec
  refine .ite_fst h ?_
  refine .ite_fst h ?_
  refine .ite_fst h ?_
  split
  · exact h
  · exact (Kept.ite h.setSa.sendFlit h.setSa).saCount

/-! ### Selvedge.lean -/

theorem Kept.toFunction (h : Kept o s) {c : PCtx} {f : Nat} {fixed acct : Option Nat} : Kept o (s.toFunction c f fixed acct) := by
  unfold State.toFunction
  refine .ite h.pktReason ?_
  refine .ite h.emit ?_
  split
  · exact h.pktReason
  · exact .ite h.sendFlit (.ite h.pktReason h.upd)

theorem Kept.toPort (h : Kept o s) {c : PCtx} {port cls : Nat} {acct : Option Nat} : Kept o (s.toPort c port cls acct) := .ite h.pktReason h.egressPut

theorem Kept.natWord (h : Kept o s) {c : PCtx} {par : Parsed} {dst : Bool} {addr : List Byte} {lo hi : Nat} :
    Kept o (s.natWord c par dst addr lo hi).1 := by
  unfold State.natWord
  split
  · exact h
  split
  · exact h
  refine .ite_fst h ?_
  split
  · exact h
  · exact h.drawn.ctPut

theorem Kept.mirror (h : Kept o s) {c : PCtx} {target idx snap : Nat} : Kept o (s.mirror c target idx snap) :=
  .ite h.pcnt.toPort (.ite h.pcnt.toFunction h.pcnt.drawn.toExq)

theorem Kept.ctWord (h : Kept o s) {c : PCtx} {w : Nat} : Kept o (s.ctWord c w).state := by
  unfold State.ctWord
  dsimp only
  split
  · exact h.ctStage.pktReason.end_
  split
  · exact h.ctStage.on
  · exact h.ctStage.on

theorem Kept.actWord (h : Kept o s) {c : PCtx} {first : Bool} {w : Nat} {ext : List Nat} : Kept o (s.actWord c first w ext).state := by
  unfold State.actWord
  refine .ite_state h.pktReason.end_ ?_
  refine .ite_state (.ite_state h.pktReason.end_ h.pktReason.end_) ?_
  refine .ite_state h.toFunction.end_ ?_
  refine .ite_state h.toPort.end_ ?_
  refine .ite_state ?_ ?_
  · split
    · exact h.on
    · exact h.pktReason.end_
  refine .ite_state ?_ ?_
  · split
    · exact h.on
    · exact h.pktReason.end_
  refine .ite_state (.ite_state h.pktReason.end_ (.ite_state h.pktReason.end_ h.on)) ?_
  refine .ite_state h.on ?_
  refine .ite_state (.ite_state h.pktReason.end_ h.natWord.on) ?_
  refine .ite_state (.ite_state h.ctWord h.pktReason.end_) ?_
  refine .ite_state (.ite_state h.pktReason.end_ h.mirror.on) ?_
  refine .ite_state (.ite_state h.police.charge.pktReason.end_ h.police.on) ?_
  refine .ite_state h.on ?_
  refine .ite_state (.ite_state h.pktReason.end_ h.toExq.end_) ?_
  refine .ite_state ?_ ?_
  · dsimp only
    split
    · exact h.ipsecEnc.charge.on
    · exact h.ipsecEnc.pktReason.end_
  refine .ite_state ?_ h.pktReason.end_
  refine .ite_state h.pktReason.end_ ?_
  dsimp only
  split
  · exact h.ipsecDec.charge.pcnt.recirc
  · exact h.ipsecDec.pktReason.end_

theorem Kept.runWords (h : Kept o s) {c : PCtx} {a : Nat} {a1 : Bool} {a2 : List Nat} : Kept o (s.runWords c a a1 a2).1 := by
  fun_induction State.runWords s c a a1 a2
  · exact h.pktReason
  · exact h.pktReason
  · exact h.pktReason
  next x ih1 => exact ih1 (h.actWord.of_state x)
  next x => exact h.actWord.of_state x
  next x => exact h.actWord.of_state x

theorem Kept.runAction (h : Kept o s) {c : PCtx} : Kept o (s.runAction c).1 := h.runWords
theorem Kept.missPut (h : Kept o s) {p : Pkt} {c : PCtx} : Kept o (s.missPut p c) := .ite h.pktReason h.upd
theorem Kept.takeFlow (h : Kept o s) {c : PCtx} {x : TabEnt} : Kept o (s.takeFlow c x).1 := h.flowHit.runAction

theorem Kept.passOnce (h : Kept o s) {p : Pkt} : Kept o (s.passOnce p).1 := by
  unfold State.passOnce
  dsimp only
  split
  · exact h.pcnt.pktReason
  refine .ite_fst h.pcnt.missPut ?_
  split
  · exact .ite_fst h.pcnt.missPut h.pcnt.takeFlow
  · exact h.pcnt.pcnt.missPut

theorem Kept.pipeline (h : Kept o s) {p : Pkt} : Kept o (s.pipeline p) := by
  unfold State.pipeline
  split
  next e => exact h.passOnce.of_fst e
  next e => exact (h.passOnce.of_fst e).passOnce

theorem Kept.sendFrame (h : Kept o s) {f : Nat} {fr : List Byte} : Kept o (s.sendFrame f fr) := h.pipeline

theorem Kept.aclStage (h : Kept o s) {c : PCtx} {configured : Bool} : Kept o (s.aclStage c configured).1 := by
  unfold State.aclStage
  dsimp only
  split
  · exact (Kept.ite h.pcnt.learn h.pcnt).runAction
  · exact .ite_fst h.pcnt.runAction h.pcnt.pktReason

theorem Kept.histTrim (h : Kept o s) : Kept o s.histTrim := h.upd
theorem Kept.missTake (h : Kept o s) {p : Pkt} : Kept o (s.missTake p) := h.upd

theorem Kept.execMissLookupComplete (h : Kept o s) {pipe : Nat} : KeptRes o (execMissLookupComplete pipe s) := by
  refine .next ?_
  refine h.whenPanel fun u hu => ?_
  split
  · exact hu
  extract_lets +onlyGivenNames s0 r s1
  have hr : Kept o r.1 := by
    dsimp only [r]
    split
    · exact hu.missTake.pktReason
    split
    · exact .ite_fst hu.missTake.flowHit.aclStage hu.missTake.cacheFill.takeFlow
    · exact hu.missTake.pcnt.aclStage
  have hs1 : Kept o s1 := by
    dsimp only [s1]
    split
    · exact hr.passOnce
    · exact hr
  exact hs1.pfcLeft.histTrim

theorem Kept.execMissAge (h : Kept o s) {pipe idx : Nat} : KeptRes o (execMissAge pipe idx s) := by
  refine .next ?_
  refine h.whenPanel fun u hu => ?_
  split
  · exact hu
  · exact .ite hu hu.missTake.pktReason.pfcLeft.histTrim

theorem Kept.execCtTimeout (h : Kept o s) {zone : Nat} {key : List (BitVec 8)} : KeptRes o (execCtTimeout zone key s) := by
  refine .next ?_
  refine h.whenUp fun u hu => ?_
  split
  · exact .ite hu.ctDrop hu
  · exact hu

theorem Kept.dwrr (h : Kept o s) {port : Nat} {ready : List Nat} {a a1 : Nat} : Kept o (s.dwrr port ready a a1).1 := by
  fun_induction State.dwrr s port ready a a1
  · exact h
  next ih1 => exact ih1 h.upd
  · exact h.upd
  next ih1 => exact ih1 h.upd

theorem Kept.etcPick (h : Kept o s) {port : Nat} : Kept o (s.etcPick port).1 := by
  unfold State.etcPick
  dsimp only
  split
  · exact h
  · exact .ite_fst h h.dwrr

theorem Kept.countTx (h : Kept o s) {x : TxPkt} : Kept o (s.countTx x) := by
  unfold State.countTx
  split
  · exact h
  · exact h.chargeAll

theorem Kept.execFrameTransmit (h : Kept o s) {port : Nat} : KeptRes o (execFrameTransmit port s) := by
  refine .next ?_
  refine h.whenPanel fun u hu => ?_
  refine .ite hu ?_
  split
  next e => exact hu.etcPick.of_fst e
  rename_i e
  split
  · exact hu.etcPick.of_fst e
  · exact (hu.etcPick.of_fst e).upd.countTx.emit.pfcLeft

theorem Kept.reinject (h : Kept o s) {mode tc target : Nat} {acct : Option Nat} {fr : List Byte} : Kept o (s.reinject mode tc target acct fr) :=
  .ite h.pipeline (.ite h.pipeline (.ite (.ite h.egressPut h.pktReason) h.toFunction))

theorem Kept.execReinjectEntry (h : Kept o s) {n : Nat} : KeptRes o (execReinjectEntry n s) := by
  refine .next ?_
  refine h.whenPanel fun u hu => ?_
  exact .ite hu (.ite hu.setFld.logMem.setBit (.ite hu.setFld.setBit (.ite hu.setFld.logMem.setBit hu.setFld.reinject)))

/-! ### VirtioNet.lean -/

theorem Kept.needsReset (h : Kept o s) {f : Nat} : Kept o (s.needsReset f) := h.setFn.emit.msix

theorem Kept.ringRead (h : Kept o s) {q a n : Nat} : Kept o (s.ringRead q a n).1 := by
  unfold State.ringRead
  dsimp only
  split
  · exact h.access
  · exact h.access

theorem Kept.walkIndirect (h : Kept o s) {q base entries : Nat} {packed : Bool} {a a1 : Nat} {a2 : VChain} :
    Kept o (s.walkIndirect q base entries packed a a1 a2).1 := by
  fun_induction State.walkIndirect s q base entries packed a a1 a2
  · exact h
  · exact h
  · exact h.ringRead
  next ih1 => exact ih1 h.ringRead
  next ih1 => exact ih1 h.ringRead
  · exact h.ringRead

theorem Kept.walkSplit (h : Kept o s) {q base size a a1 : Nat} {a2 : VChain} : Kept o (s.walkSplit q base size a a1 a2).1 := by
  fun_induction State.walkSplit s q base size a a1 a2
  · exact h
  · exact h.ringRead
  · exact h.ringRead
  · exact h.ringRead.walkIndirect
  next ih1 => exact ih1 h.ringRead
  · exact h.ringRead

theorem Kept.walkPacked (h : Kept o s) {q base size a a1 a2 : Nat} {a3 : VChain} : Kept o (s.walkPacked q base size a a1 a2 a3).1 := by
  fun_induction State.walkPacked s q base size a a1 a2 a3
  · exact h
  · exact h.ringRead
  · exact .ite_fst h.ringRead h.ringRead.walkIndirect
  next ih1 => exact ih1 h.ringRead
  · exact h.ringRead

theorem Kept.vnext (h : Kept o s) {q : Nat} : Kept o (s.vnext q).1 := by
  unfold State.vnext
  refine .ite_fst ?_ ?_
  · dsimp only
    split
    · exact h.ringRead
    · exact h.ringRead
    · exact .ite_fst h.ringRead.walkPacked h.ringRead
  refine .ite_fst h ?_
  dsimp only
  split
  · exact h.ringRead
  · exact h.ringRead.walkSplit

theorem Kept.vnextAgain (h : Kept o s) {q : Nat} : Kept o (s.vnextAgain q).1 := by
  unfold State.vnextAgain
  split
  · exact h.vnext
  · exact h.setQp.vnext.setQp

theorem Kept.vnetStart (h : Kept o s) {q : Nat} : Kept o (s.vnetStart q) := by
  unfold State.vnetStart
  split
  · exact h
  · exact .ite h (.ite h.finish h.putReq.addXfer)

theorem Kept.availHint (h : Kept o s) {q : Nat} : Kept o (s.availHint q) := by
  unfold State.availHint
  refine .ite h ?_
  dsimp only
  split
  · exact h.access.cplWrite
  · exact h.access

theorem Kept.readAvail (h : Kept o s) {q : Nat} : Kept o (s.readAvail q) := by
  unfold State.readAvail
  dsimp only
  split
  · exact h.ringRead.setQp.availHint
  · exact h.ringRead.ringError
  · exact h.ringRead.setQp.refreshPark

theorem Kept.fetchVnet (h : Kept o s) {q : Nat} : Kept o (s.fetchVnet q) := by
  unfold State.fetchVnet
  extract_lets +onlyGivenNames f u s00 s0
  have hs0 : Kept o s0 := .ite h.vnetStart.readAvail h.vnetStart
  refine .ite hs0 ?_
  extract_lets +onlyGivenNames w
  have hw : Kept o w.1 := hs0.vnextAgain
  split
  · exact hw
  · exact hw.refreshPark
  · exact hw.ringError
  · exact hw.ringError.needsReset
  · exact .ite hw.ringError.needsReset (.ite (Kept.ite hw hw.setQp).admitReq.vnetStart (Kept.ite hw hw.setQp).admitReq.putReq)

theorem Kept.sendFrames (h : Kept o s) {f : Nat} {a : List (List Byte)} : Kept o (s.sendFrames f a) := by
  fun_induction State.sendFrames s f a
  · exact h
  next ih1 => exact ih1 h.sendFrame

theorem Kept.netOut (h : Kept o s) {x : Xfer} : Kept o (s.netOut x) := by
  unfold State.netOut
  split
  · exact h.dropXfer
  refine .ite h.issueGate ?_
  split
  · dsimp only
    split
    · exact h.issueGate.dropXfer.finish.sendFrames
    · exact h.issueGate.dropXfer.finish.setFn
  · exact h.issueGate.dropXfer.finish.sendFrame

theorem Kept.rxDropped (h : Kept o s) {q : Nat} : Kept o (s.rxDropped q) := h.rxPop.setQp

theorem Kept.rxStart (h : Kept o s) {q : Nat} {x : RxPkt} : Kept o (s.rxStart q x) := by
  unfold State.rxStart
  refine .ite h ?_
  refine .ite ?_ ?_
  · extract_lets +onlyGivenNames n
    split
    · exact h.rxDropped
    split
    · exact h
    · exact (h.foldl fun _ _ hx3 => hx3.putReq).addXfer
  split
  · exact h
  · exact .ite h.rxDropped h.putReq.addXfer

theorem Kept.rxKick (h : Kept o s) {port : Nat} {a : List RxPkt} {a1 : List (Nat × Nat)} : Kept o (s.rxKick port a a1) := by
  fun_induction State.rxKick s port a a1
  · exact h
  next ih1 => exact ih1 h
  next ih1 => exact ih1 h.upd.netDrop
  next ih1 => exact ih1 h.rxStart

theorem Kept.rxFinishAll (h : Kept o s) {q : Nat} {a : List Nat} {a1 : Nat} : Kept o (s.rxFinishAll q a a1) := by
  fun_induction State.rxFinishAll s q a a1
  · exact h
  next ih1 => exact ih1 h
  next ih1 => exact ih1 h.finish

theorem Kept.rxDone (h : Kept o s) {x : Xfer} {q full : Nat} {ew : Bool} {acct : Option Nat} {rids : List Nat} :
    Kept o (s.rxDone x q full ew acct rids) := by
  unfold State.rxDone
  extract_lets +onlyGivenNames s1 s2 s3
  have hs2 : Kept o s2 := by
    dsimp only [s2]
    split
    · exact h.dropXfer.rxPop.chargeAll
    · exact h.dropXfer.rxPop
  have hs3 : Kept o s3 := by
    dsimp only [s3]
    split
    · split
      · exact .ite hs2.rxFinishAll hs2.finish
      · exact hs2
    · exact hs2
  exact hs3

/-! ### Persona.lean -/

theorem Kept.execVirtioNotification (h : Kept o s) {f u len : Nat} {data : BitVec 64} : KeptRes o (execVirtioNotification f u len data s) := by
  refine .next ?_
  refine h.whenFn fun v hv => ?_
  refine .ite hv ?_
  split
  · exact hv.strayDb
  · exact .ite hv.sendFlit (.ite hv hv.readAvail)

theorem Kept.ringBegin (h : Kept o s) {q : Nat} : Kept o (s.ringBegin q) := .ite h.setQp h.activate

theorem Kept.execVirtioQueueEnable (h : Kept o s) {f u : Nat} : KeptRes o (execVirtioQueueEnable f u s) := by
  refine .next ?_
  refine h.whenFn fun v hv => ?_
  refine .ite hv ?_
  refine .ite hv.needsReset ?_
  split
  · exact hv
  · exact .ite hv hv.setFn.setQp.ringBegin

theorem Kept.execVirtioFeaturesOk (h : Kept o s) {f : Nat} {feats : BitVec 64} : KeptRes o (execVirtioFeaturesOk f feats s) :=
  .next (h.whenFn fun _ hu => .ite hu hu.setFn)

theorem Kept.execVirtioDeviceReset (h : Kept o s) {f : Nat} : KeptRes o (execVirtioDeviceReset f s) :=
  .next (h.whenFn fun _ hu => .ite hu hu.rxFlush.flrRings.personaReset.quiesceCheck)

theorem Kept.ctrl (h : Kept o s) {f : Nat} {ok : Bool} {k : VirtioState → VirtioState} : Kept o (s.ctrl f ok k) :=
  h.whenFn fun _ hu => .ite hu (Kept.ite hu.setFn hu).emit

theorem Kept.rssWrite (h : Kept o s) {f a : Nat} {a1 : List Byte} : Kept o (s.rssWrite f a a1) := by
  fun_induction State.rssWrite s f a a1
  · exact h
  next ih1 => exact ih1 h.setReg

theorem Kept.nvmeDoorbell (h : Kept o s) {f u len : Nat} {has : List Nat} {d : W64} : Kept o (s.nvmeDoorbell f u len has d) := .ite h h.ringDoorbell

theorem Kept.execNvmeSqDoorbell (h : Kept o s) {f u len : Nat} {data : BitVec 64} : KeptRes o (execNvmeSqDoorbell f u len data s) :=
  .next (h.whenFn fun _ hv => hv.nvmeDoorbell)

theorem Kept.execNvmeCqDoorbell (h : Kept o s) {f u len : Nat} {data : BitVec 64} : KeptRes o (execNvmeCqDoorbell f u len data s) :=
  .next (h.whenFn fun _ hv => hv.nvmeDoorbell)

theorem Kept.setNvme (h : Kept o s) {f : Nat} {v : NvmeState} : Kept o (s.setNvme f v) := h.setFn

theorem Kept.execNvmeEnable (h : Kept o s) {f : Nat} {aqa : BitVec 32} : KeptRes o (execNvmeEnable f aqa s) := by
  refine .next ?_
  refine h.whenFn fun u hu => ?_
  refine .ite hu ?_
  split
  · exact hu.setNvme
  · exact .ite hu.setNvme hu.setNvme.setQp.ringBegin

theorem Kept.execNvmeDisable (h : Kept o s) {f : Nat} : KeptRes o (execNvmeDisable f s) :=
  .next (h.whenFn fun _ hu => .ite hu hu.flrRings.personaReset.setNvme.quiesceCheck)

theorem Kept.takeAdmin (h : Kept o s) {f cid opc : Nat} {k : State → Req → State} (hk : ∀ u x1, Kept o u → Kept o (k u x1)) :
    Kept o (s.takeAdmin f cid opc k) := by
  unfold State.takeAdmin
  refine h.whenFn fun u hu => ?_
  split
  · exact hu
  dsimp only
  split
  · exact .ite hu (hk _ _ hu)
  · exact hu.takeNvme fun _ _ hx2 => hk _ _ hx2

theorem Kept.adminData (h : Kept o s) {r : Req} {prp : Nat} {b : List Byte} : Kept o (s.adminData r prp b) := by
  unfold State.adminData
  dsimp only
  split
  · exact h.access.writePieces.dirtyWrite.finish
  · exact h.access.finish
  · exact h.access.putReq.refreshPark

theorem Kept.execNvmeIdentify (h : Kept o s) {f cid cns nsid : Nat} {prp : BitVec 64} : KeptRes o (execNvmeIdentify f cid cns nsid prp s) := by
  refine .next ?_
  refine h.takeAdmin fun u x hx => ?_
  split
  · exact hx.drawn.adminData
  · exact hx.finish

theorem Kept.coalAll (h : Kept o s) {f : Nat} {a : List Nat} : Kept o (s.coalAll f a) := by
  fun_induction State.coalAll s f a
  · exact h
  rename_i ih1
  refine ih1 ?_
  split
  · exact h.setQp
  · exact h

theorem Kept.execNvmeSetFeatures (h : Kept o s) {f cid : Nat} {fid : NvmeFeat} {dw11 : BitVec 32} :
    KeptRes o (execNvmeSetFeatures f cid fid dw11 s) := by
  refine .next ?_
  refine h.takeAdmin fun u x hx => ?_
  extract_lets +onlyGivenNames v d
  split
  · exact hx.finish
  · exact hx.setNvme.coalAll.finish
  · exact hx.setNvme.coalAll.finish
  · exact hx.setNvme.finish
  · exact hx.setNvme.finish
  · exact hx.finish

theorem Kept.execNvmeGetFeatures (h : Kept o s) {f cid : Nat} {fid : NvmeFeat} : KeptRes o (execNvmeGetFeatures f cid fid s) := by
  refine .next ?_
  refine h.takeAdmin fun u x hx => ?_
  split
  · exact hx.finish
  · exact hx.finish
  · exact hx.finish
  · exact hx.finish
  · exact hx.finish
  · exact hx.finish

theorem Kept.execNvmeCreateIoCq (h : Kept o s) {f cid qid qsize vector : Nat} {ien : Bool} {prp : BitVec 64} :
    KeptRes o (execNvmeCreateIoCq f cid qid qsize vector ien prp s) := by
  refine .next ?_
  refine h.takeAdmin fun u x hx => ?_
  extract_lets +onlyGivenNames v
  split
  · exact hx.finish
  · exact .ite hx.finish (.ite hx.finish hx.setNvme.setQp.finish)

theorem Kept.execNvmeCreateIoSq (h : Kept o s) {f cid qid cqid qsize : Nat} {prp : BitVec 64} :
    KeptRes o (execNvmeCreateIoSq f cid qid cqid qsize prp s) := by
  refine .next ?_
  refine h.takeAdmin fun u x hx => ?_
  extract_lets +onlyGivenNames v
  split
  · exact hx.finish
  · exact .ite hx.finish (.ite hx.finish hx.setNvme.setQp.ringBegin.finish)

theorem Kept.execNvmeDeleteIoSq (h : Kept o s) {f cid qid : Nat} : KeptRes o (execNvmeDeleteIoSq f cid qid s) := by
  refine .next ?_
  refine h.takeAdmin fun u x hx => ?_
  extract_lets +onlyGivenNames v
  split
  · exact hx.finish
  · exact hx.setNvme.releaseAll.dropRingWaits.setQp.finish

theorem Kept.execNvmeDeleteIoCq (h : Kept o s) {f cid qid : Nat} : KeptRes o (execNvmeDeleteIoCq f cid qid s) := by
  refine .next ?_
  refine h.takeAdmin fun u x hx => ?_
  extract_lets +onlyGivenNames v
  split
  · exact hx.finish
  · exact .ite hx.finish hx.setNvme.setQp.finish

theorem Kept.execNvmeAbort (h : Kept o s) {f cid sqid acid : Nat} : KeptRes o (execNvmeAbort f cid sqid acid s) := by
  refine .next ?_
  refine h.takeAdmin fun u x hx => ?_
  extract_lets +onlyGivenNames hit
  dsimp only [hit]
  split
  · exact hx.upd.finish.finish
  · exact hx.finish

theorem Kept.nvmeEvent (h : Kept o s) {f ev : Nat} : Kept o (s.nvmeEvent f ev) := by
  unfold State.nvmeEvent
  split
  · dsimp only
    split
    · split
      · exact h.setNvme.finish
      · exact h.setNvme
    · exact .ite h h.setNvme
  dsimp only
  split
  · exact h
  · exact .ite h h.setNvme

theorem Kept.execNvmeAsyncEventRequest (h : Kept o s) {f cid : Nat} : KeptRes o (execNvmeAsyncEventRequest f cid s) := by
  refine .next ?_
  refine h.takeAdmin fun u x hx => ?_
  dsimp only
  split
  · exact hx.setNvme.finish
  · exact hx.putReq.setNvme

theorem Kept.shadowAll (h : Kept o s) {f : Nat} {base : W64} {a : List Nat} : Kept o (s.shadowAll f base a) := by
  fun_induction State.shadowAll s f base a
  · exact h
  rename_i ih1
  refine ih1 ?_
  split
  · exact h.setQp
  · exact h

/-! ### Engines.lean -/

theorem Kept.setEng (h : Kept o s) {e : Nat} {x : Engine} : Kept o (s.setEng e x) := h.upd

theorem Kept.endWait (h : Kept o s) {e : Nat} : Kept o (s.endWait e) := by
  unfold State.endWait
  dsimp only
  split
  · exact .ite h.setEng h
  · exact h

theorem Kept.endWaits (h : Kept o s) : Kept o s.endWaits := h.foldl fun _ _ hx => hx.endWait
theorem Kept.engLine (h : Kept o s) {e n : Nat} : Kept o (s.engLine e n) := h.setEng.endWait
theorem Kept.mboxPush (h : Kept o s) {fromE toE : Nat} {w : W16} : Kept o (s.mboxPush fromE toE w) := .ite h.setEng h.setEng.endWait
theorem Kept.engHalt (h : Kept o s) {e : Nat} {dfault : Bool} : Kept o (s.engHalt e dfault) := .ite h.setEng.engLine h.setEng.engLine
theorem Kept.engReset (h : Kept o s) {e : Nat} : Kept o (s.engReset e) := h.setEng

theorem Kept.engResets (h : Kept o s) {a : List Nat} : Kept o (s.engResets a) := by
  fun_induction State.engResets s a
  · exact h
  next ih1 => exact ih1 h.engReset

/-! ### Power.lean -/

theorem Kept.setUnit (h : Kept o s) {u : Nat} {x : UnitSt} : Kept o (s.setUnit u x) := h.upd
theorem Kept.pwrEvt (h : Kept o s) {f : Fld} : Kept o (s.pwrEvt f) := h.setBit.event
theorem Kept.claimRefuse (h : Kept o s) {u : Nat} : Kept o (s.claimRefuse u) := h.setFld.pwrEvt

theorem Kept.hartsAsk (h : Kept o s) {st : Nat} {lining on_ : Bool} {a : List Nat} : Kept o (s.hartsAsk st lining on_ a) := by
  fun_induction State.hartsAsk s st lining on_ a
  · exact h
  next ih1 => exact ih1 h.setHart

theorem Kept.hartsDrop (h : Kept o s) {refused : Bool} {a : List Nat} : Kept o (s.hartsDrop refused a) := by
  fun_induction State.hartsDrop s refused a
  · exact h
  next ih1 => exact ih1 h.setHart

theorem Kept.unitBask (h : Kept o s) {u : Nat} : Kept o (s.unitBask u) :=
  .ite (.ite (Kept.ite h.hartsDrop h).setUnit (Kept.ite h.hartsDrop h).setUnit) (Kept.ite h.hartsDrop h).setUnit

theorem Kept.takePower (h : Kept o s) {u st : Nat} {lining : Bool} : Kept o (s.takePower u st lining) :=
  (Kept.ite h.unitBask (.ite h.setUnit (.ite h.hartsAsk h.setUnit))).engLine

theorem Kept.askPower (h : Kept o s) {u st : Nat} {lining : Bool} : Kept o (s.askPower u st lining).1 := by
  unfold State.askPower
  split
  · exact .ite h.claimRefuse h
  · exact h.takePower

theorem Kept.croakOut (h : Kept o s) {u : Nat} : Kept o (s.croakOut u) := .ite h.emit h

theorem Kept.pwrReqWrite (h : Kept o s) {who : Agent} {data : W64} : Kept o (s.pwrReqWrite who data) :=
  .ite (Kept.ite h.setFld.setFld.croakOut h.setFld.setFld).askPower.setFld h.setFld.setFld

theorem Kept.pwrReqGo (h : Kept o s) {who : Agent} {data : W64} {st : Nat} : Kept o (s.pwrReqGo who data st) := h.regTry fun _ hu => hu.pwrReqWrite

theorem Kept.pwrSet (h : Kept o s) {r : OnfReq} {u st : Nat} {croak : Bool} : Kept o (s.pwrSet r u st croak) :=
  h.command fun _ hv => (Kept.ite hv.croakOut hv).askPower.reply

theorem Kept.execPwrSetBask (h : Kept o s) {r : OnfReq} {unit : Nat} {croak : Bool} : KeptRes o (execPwrSetBask r unit croak s) := .next h.pwrSet
theorem Kept.execPwrSetDoze (h : Kept o s) {r : OnfReq} {unit : Nat} {croak : Bool} : KeptRes o (execPwrSetDoze r unit croak s) := .next h.pwrSet

theorem Kept.execPwrSetBrumate (h : Kept o s) {r : OnfReq} {unit : Nat} {croak : Bool} : KeptRes o (execPwrSetBrumate r unit croak s) :=
  .next h.pwrSet

theorem Kept.execPwrSetHold (h : Kept o s) {r : OnfReq} {unit : Nat} {croak : Bool} : KeptRes o (execPwrSetHold r unit croak s) := .next h.pwrSet
theorem Kept.execPwrStatus (h : Kept o s) {r : OnfReq} : KeptRes o (execPwrStatus r s) := .next (h.command fun _ hu => hu.reply)
theorem Kept.hartTrap (h : Kept o s) {h1 cause : Nat} : Kept o (s.hartTrap h1 cause) := h.setHart

theorem Kept.mCsr (h : Kept o s) {h1 : Nat} {mode : Priv} {f : State → State} (hf : ∀ u, Kept o u → Kept o (f u)) : Kept o (s.mCsr h1 mode f) :=
  .ite h (.ite (hf _ h) h.hartTrap)

theorem Kept.mpowerreq (h : Kept o s) {h1 st : Nat} : Kept o (s.mpowerreq h1 st) := .ite (.ite h.setHart.claimRefuse h.setHart) h.setHart

theorem Kept.execPowerEntryStart (h : Kept o s) {u : Nat} : KeptRes o (execPowerEntryStart u s) := by
  refine .next ?_
  refine h.whenUp fun v hv => ?_
  refine .ite hv ?_
  split
  · exact .ite hv.setUnit hv
  · exact hv

theorem Kept.moultAbandon (h : Kept o s) {p : Nat} : Kept o (s.moultAbandon p) := h.upd.setFld

theorem Kept.cachesLost (h : Kept o s) {a : List Nat} : Kept o (s.cachesLost a) := by
  fun_induction State.cachesLost s a
  · exact h
  next ih1 => exact ih1 h.setHart

theorem Kept.panelOff (h : Kept o s) {p : Nat} : Kept o (s.panelOff p) := h.engResets.memClear.cachesLost.upd
theorem Kept.panelQuiet (h : Kept o s) {p : Nat} : Kept o (s.panelQuiet p) := h.foldl fun _ _ hx => .ite hx.linkDrop.emit hx
theorem Kept.holdPanels (h : Kept o s) {m : Nat} : Kept o (s.holdPanels m) := h.upd.foldl fun _ _ hx => hx.panelQuiet

theorem Kept.execPowerEntryComplete (h : Kept o s) {u : Nat} : KeptRes o (execPowerEntryComplete u s) := by
  refine .next ?_
  refine h.whenUp fun v hv => ?_
  extract_lets +onlyGivenNames x
  split
  · exact hv
  refine .ite hv.setUnit.holdPanels ?_
  refine .ite hv ?_
  extract_lets +onlyGivenNames s1 s2 s3
  have hs2 : Kept o s2 := (Kept.ite hv.hartsDrop hv).setUnit
  have hs3 : Kept o s3 := .ite hs2.cachesLost (.ite hs2.panelOff hs2)
  exact .ite hs3.pwrEvt (.ite hs3.pwrEvt hs3)

theorem Kept.unitStir (h : Kept o s) {u : Nat} : Kept o (s.unitStir u) := .ite (.ite h.setUnit h.setUnit) (.ite h.setUnit.pwrEvt h)
theorem Kept.wakeUnit (h : Kept o s) {u : Nat} : Kept o (s.wakeUnit u) := .ite h (.ite h.unitStir h.unitStir.unitStir)

theorem Kept.wakeHarts (h : Kept o s) {deep : Bool} {a : List Nat} : Kept o (s.wakeHarts deep a) := by
  fun_induction State.wakeHarts s deep a
  · exact h
  next ih1 => exact ih1 (.ite h.setHart h)

theorem Kept.unitReady (h : Kept o s) {u : Nat} : Kept o (s.unitReady u) :=
  .ite h (.ite (.ite h.setUnit.wakeHarts h.setUnit) (.ite h.setUnit.wakeHarts h.setUnit))

theorem Kept.quadWake (h : Kept o s) {u : Nat} : Kept o (s.quadWake u) := .ite h h.setUnit
theorem Kept.quadAuto (h : Kept o s) {u : Nat} : Kept o (s.quadAuto u) := .ite (.ite h h.setUnit) (.ite h h.setUnit)
theorem Kept.quadsAuto (h : Kept o s) : Kept o s.quadsAuto := h.foldl fun _ _ hx => hx.quadAuto

theorem Kept.claimMeets (h : Kept o s) {u : Nat} : Kept o (s.claimMeets u) :=
  .ite (.ite h.setUnit h) (.ite (Kept.ite h.setUnit.hartsDrop h.setUnit).claimRefuse h)

theorem Kept.claimEdges (h : Kept o s) {old : State} : Kept o (s.claimEdges old) := h.foldl fun _ _ hx => hx.claimMeets

theorem Kept.worldsOff (h : Kept o s) {a : List Nat} : Kept o (s.worldsOff a) := by
  fun_induction State.worldsOff s a
  · exact h
  next ih1 => exact ih1 h.setHart

theorem Kept.debugOff (h : Kept o s) {a : List Nat} : Kept o (s.debugOff a) := by
  fun_induction State.debugOff s a
  · exact h
  next ih1 => exact ih1 h.setHart

theorem Kept.claimHartSet (h : Kept o s) {data : W64} : Kept o (s.claimHartSet data) :=
  (Kept.ite h.setReg.worldsOff h.setReg.worldsOff.debugOff).claimEdges

theorem Kept.claimBlkSet (h : Kept o s) {data : W64} : Kept o (s.claimBlkSet data) := h.setReg.claimEdges
theorem Kept.holdSet (h : Kept o s) {data : W64} : Kept o (s.holdSet data) := h.holdPanels
theorem Kept.zeroKeys (h : Kept o s) : Kept o s.zeroKeys := h.upd
theorem Kept.scanRead (h : Kept o s) : Kept o s.scanRead.1 := .ite_fst h.zeroKeys.drawn h

/-! ### Edge.lean -/

theorem Kept.commitRegs (h : Kept o s) {a : Changes} : Kept o (s.commitRegs a) := by
  fun_induction State.commitRegs s a
  · exact h
  next ih1 => exact ih1 h.setReg

theorem Kept.portCycle (h : Kept o s) {wasOn : Bool} {n : Nat} : Kept o (s.portCycle wasOn n) :=
  .ite (Kept.ite h.linkDrop.emit h).emit (.ite h.linkDrop.emit h)

theorem Kept.portCycles (h : Kept o s) {old : State} {a : List Nat} : Kept o (s.portCycles old a) := by
  fun_induction State.portCycles s old a
  · exact h
  next ih1 => exact ih1 h.portCycle

theorem Kept.vectorEdge (h : Kept o s) {f : Nat} {old new : W64} : Kept o (s.vectorEdge f old new) := .ite h (h.setFn.foldl fun _ _ hx => hx.setQp)

theorem Kept.vectorEdges (h : Kept o s) {a : List (Nat × W64 × W64)} : Kept o (s.vectorEdges a) := by
  fun_induction State.vectorEdges s a
  · exact h
  next ih1 => exact ih1 h.vectorEdge

theorem Kept.qpLeave (h : Kept o s) {q : Nat} {st : QpSt} : Kept o (s.qpLeave q st) := h.abandon.releaseAll.dropRingWaits.setQp

theorem Kept.qpEdge (h : Kept o s) {c : Nat × W64 × W64} : Kept o (s.qpEdge c) := by
  unfold State.qpEdge
  split
  · exact h.setQp
  · exact h.qpLeave
  · exact .ite h.qpLeave h
  · exact h

theorem Kept.qpEdges (h : Kept o s) {a : List (Nat × W64 × W64)} : Kept o (s.qpEdges a) := by
  fun_induction State.qpEdges s a
  · exact h
  next ih1 => exact ih1 h.qpEdge

theorem Kept.grantEvts (h : Kept o s) {a : List Nat} : Kept o (s.grantEvts a) := by
  fun_induction State.grantEvts s a
  · exact h
  next ih1 => exact ih1 h.grantEvt

theorem Kept.latchStops (h : Kept o s) {a : List Nat} : Kept o (s.latchStops a) := by
  fun_induction State.latchStops s a
  · exact h
  next ih1 => exact ih1 (.ite h.setFn h.needsReset)

theorem Kept.personaResets (h : Kept o s) {a : List Nat} : Kept o (s.personaResets a) := by
  fun_induction State.personaResets s a
  · exact h
  next ih1 => exact ih1 h.personaReset

theorem Kept.tapeEdge (h : Kept o s) {cs : Changes} {tabs : List TabStage} {inside : Bool} : Kept o (s.tapeEdge cs tabs inside) := .ite h h.setActive
theorem Kept.ringEdge (h : Kept o s) {cs : Changes} : Kept o (s.ringEdge cs) := .ite (.ite h.upd h.ringRestart) h
theorem Kept.histEdge (h : Kept o s) {cs : Changes} {e : Nat} : Kept o (s.histEdge cs e) := .ite h h.upd

theorem Kept.tabCommit (h : Kept o s) {e : Nat} {t : TabStage} : Kept o (s.tabCommit e t) := by
  unfold State.tabCommit
  extract_lets +onlyGivenNames old
  split
  · exact h.upd
  extract_lets +onlyGivenNames keep x1 _ s1 _ s2
  have hs2 : Kept o s2 := .ite h.upd.upd h.upd
  exact .ite hs2.bucketTrim hs2

theorem Kept.tabCommits (h : Kept o s) {e : Nat} {a : List TabStage} : Kept o (s.tabCommits e a) := by
  fun_induction State.tabCommits s e a
  · exact h
  next ih1 => exact ih1 h.tabCommit

theorem Kept.aclEdge (h : Kept o s) {e : Nat} {a : List Nat} : Kept o (s.aclEdge e a) := by
  fun_induction State.aclEdge s e a
  · exact h
  next ih1 => exact ih1 h.upd

theorem Kept.commitEdge (h : Kept o s) {e number : Nat} {tabs : List TabStage} : Kept o (s.commitEdge e number tabs) := .ite h h.setFld.setFld.setFld
theorem Kept.laneEdge (h : Kept o s) {cs : Changes} : Kept o (s.laneEdge cs) := h.foldl fun _ _ hx => hx.emit
theorem Kept.encRegion (h : Kept o s) {old : State} {r : Nat} : Kept o (s.encRegion old r) := .ite h h.drawn.upd
theorem Kept.encEdge (h : Kept o s) {old : State} : Kept o (s.encEdge old) := h.foldl fun _ _ hx => hx.encRegion

theorem Kept.applyStitch (h : Kept o s) {number : Nat} {regs : SMap W64} {tabs : List TabStage} {inside : Bool} :
    Kept o (s.applyStitch number regs tabs inside) := by
  unfold State.applyStitch
  refine .quadsAuto ?_
  refine .encEdge ?_
  refine .grantEvts ?_
  refine .ringEdge ?_
  refine .ite ?_ ?_
  · refine .setBit ?_
    refine .setFld ?_
    refine .commitEdge ?_
    exact h.flrMany.tapeEdge.histEdge.commitRegs.qpEdges.vectorEdges.personaResets.latchStops.portCycles.laneEdge.tabCommits.aclEdge
  refine .setFld ?_
  refine .commitEdge ?_
  exact h.flrMany.tapeEdge.histEdge.commitRegs.qpEdges.vectorEdges.personaResets.latchStops.portCycles.laneEdge.tabCommits.aclEdge

theorem Kept.edgeNow (h : Kept o s) {inside : Bool} : Kept o (s.edgeNow inside) := by
  unfold State.edgeNow
  split
  · exact h
  split
  · exact h
  · exact .ite h.applyStitch.closeSession h.applyStitch.closeSession.evtOnAll.reply

theorem Kept.edgeCancel (h : Kept o s) : Kept o s.edgeCancel := by
  unfold State.edgeCancel
  split
  · split
    · exact h.setSession.setReg.showSession.sendFlit.evtOnAll.reply
    · exact h
  · exact h

theorem Kept.edgeDue (h : Kept o s) {inside : Bool} : Kept o (s.edgeDue inside) := by
  unfold State.edgeDue
  split
  · split
    · exact .ite h.edgeNow h.edgeCancel
    · exact h
  · exact h

theorem Kept.minuteEdge (h : Kept o s) : Kept o s.minuteEdge := .ite h (.ite (.ite h.bankFlip.edgeDue.restartEpoch h.bankFlip.edgeDue) h.bankFlip)

theorem Kept.execStitchEdge (h : Kept o s) : KeptRes o (execStitchEdge s) := by
  refine .next ?_
  refine h.whenUp fun u hu => ?_
  split
  · split
    · split
      · exact hu.edgeDue
      · exact .ite hu (.ite hu.minuteEdge hu.edgeDue)
      · exact hu.minuteEdge
    · exact hu
  · exact hu

theorem Kept.execStitchConfirmTimeout (h : Kept o s) : KeptRes o (execStitchConfirmTimeout s) := by
  refine .next ?_
  refine h.whenUp fun u hu => ?_
  split
  · split
    · exact .ite hu hu.edgeCancel
    · exact hu
  · exact hu

/-! ### Keys.lean -/

theorem Kept.debugSync (h : Kept o s) : Kept o s.debugSync := h.setFld.setFld

theorem Kept.flashWrite (h : Kept o s) {slot off : Nat} {a : List Byte} : Kept o (s.flashWrite slot off a) := by
  fun_induction State.flashWrite s slot off a
  · exact h
  next ih1 => exact ih1 h.upd

/-! ### Boot.lean -/

theorem Kept.bootCode (h : Kept o s) {c : Nat} : Kept o (s.bootCode c) := h.setFld
theorem Kept.hartsStop (h : Kept o s) : Kept o s.hartsStop := h.upd
theorem Kept.enginesStop (h : Kept o s) : Kept o s.enginesStop := h.upd
theorem Kept.loadKeys (h : Kept o s) {slot lo : Nat} : Kept o (s.loadKeys slot lo) := h.upd
theorem Kept.recoveryKeys (h : Kept o s) : Kept o s.recoveryKeys := h.upd

theorem Kept.bootHalt (h : Kept o s) {c : Nat} : Kept o (s.bootHalt c) :=
  .ite h.enginesStop.hartsStop.bootCode.upd.setBit.recoveryKeys h.enginesStop.hartsStop.bootCode.upd

theorem Kept.judgeSlot (h : Kept o s) {k : Nat} : Kept o (s.judgeSlot k) := .ite h (.ite h.setFld.setFld h.setFld.setFld.setFld.setFld.setFld)

theorem Kept.slotChoice (h : Kept o s) : Kept o s.slotChoice := by
  unfold State.slotChoice
  refine .ite h.upd.bootHalt ?_
  refine .ite h.upd.bootHalt ?_
  dsimp only
  split
  · exact h.upd.judgeSlot.judgeSlot.setFld.setFld.setFld.bootCode
  · exact h.upd.judgeSlot.judgeSlot.bootHalt

theorem Kept.loaderStart (h : Kept o s) : Kept o s.loaderStart :=
  .ite h.upd.debugSync.setFld.setFld.setFld.bootCode.drawn.bootHalt h.upd.debugSync.setFld.setFld.setFld.bootCode.drawn.slotChoice

theorem Kept.engRun (h : Kept o s) {e : Nat} : Kept o (s.engRun e) := h.setEng
theorem Kept.thimbleLoad (h : Kept o s) {body : List Byte} {e : Nat} : Kept o (s.thimbleLoad body e) := h.setEng.setFld.engRun
theorem Kept.wipe (h : Kept o s) : Kept o s.wipe := h.upd.memClear

theorem Kept.excludeSlot (h : Kept o s) {reason : Option Nat} : Kept o (s.excludeSlot reason) := by
  unfold State.excludeSlot
  extract_lets +onlyGivenNames k s1 s2
  have hs2 : Kept o s2 := by
    dsimp only [s2]
    split
    · exact h.setBit.setFld
    · exact h.setBit
  exact hs2.wipe.zeroKeys.clrBit.bump.slotChoice

theorem Kept.bootStage (h : Kept o s) {l : List (Nat × W64)} : Kept o (s.bootStage l) := h.setSession.stageRegs

theorem Kept.bootStitch (h : Kept o s) : Kept o s.bootStitch := by
  unfold State.bootStitch
  split
  · exact h.applyStitch.setSession
  · exact h

theorem Kept.applyConfig (h : Kept o s) : Kept o s.applyConfig := by
  unfold State.applyConfig
  extract_lets +onlyGivenNames s0 _ s1 dflt
  split
  · exact h.bootStage.bootStitch.setBit.upd.evtOnAll
  · exact .ite h.bootStage.bootStitch.upd h.bootStage.bootStitch.setBit.upd.evtOnAll

theorem Kept.fuseUpdates (h : Kept o s) : Kept o s.fuseUpdates := .ite h.drawn h.drawn.upd
theorem Kept.hartStart (h : Kept o s) {h1 a : Nat} : Kept o (s.hartStart h1 a) := h.setHart
theorem Kept.cacheStart (h : Kept o s) : Kept o s.cacheStart := h.setBit.setBit
theorem Kept.releaseSet (h : Kept o s) {hp : List Byte} : Kept o (s.releaseSet hp) := h.setFld.setReg.setReg

theorem Kept.runImages (h : Kept o s) : Kept o s.runImages := by
  unfold State.runImages
  extract_lets +onlyGivenNames k hm hp s1
  have hs1 : Kept o s1 := .ite h.devWrite h
  refine .ite hs1.excludeSlot ?_
  extract_lets +onlyGivenNames area _ s2 s3
  have hs3 : Kept o s3 := hs1.upd.devWrite
  refine .ite hs3.excludeSlot ?_
  extract_lets s4 s5 s6
  have hs4 : Kept o s4 := hs3.releaseSet.fuseUpdates.applyConfig
  have hs5 : Kept o s5 := hs4.foldl fun _ _ hu => hu.setFld.engRun
  exact hs5.cacheStart.setFld.hartStart.upd.bootCode

theorem Kept.bootGoOn (h : Kept o s) : Kept o s.bootGoOn := .ite (.ite h.runImages h.bootCode) h

theorem Kept.execThimbleBodyVerdict (h : Kept o s) : KeptRes o (execThimbleBodyVerdict s) := by
  refine .next ?_
  refine .ite ?_ h
  exact .ite h.excludeSlot (.ite h.setBit.setFld.bootCode.loadKeys.excludeSlot h.setBit.setFld.bootCode.loadKeys.upd.bootCode.bootGoOn)

theorem Kept.portsTrain (h : Kept o s) : Kept o s.portsTrain := h.foldl fun _ _ hx => .ite hx.emit hx
theorem Kept.ungate (h : Kept o s) : Kept o s.ungate := .ite h.setBit.setFld.bootCode.setFld.upd h.setBit.setFld.bootCode.setFld.upd.portsTrain

theorem Kept.spoolWrite (h : Kept o s) {who : Agent} {d : W64} : Kept o (s.spoolWrite who d) := by
  unfold State.spoolWrite
  split
  · exact .ite h (.ite h.bootHalt (.ite h.excludeSlot (.ite h.ungate h)))
  · exact h

/-! ### Reset.lean -/

theorem Kept.regsReset (h : Kept o s) : Kept o s.regsReset := by
  unfold State.regsReset
  extract_lets s1 s2 s3
  have hs1 : Kept o s1 := (h.withRegs fun _ => rfl).foldl fun _ _ hu => hu.setReg
  have hs3 : Kept o s3 := hs1.setFld.setFld.setFld.setFld.setFld
  exact .ite hs3.setFld hs3

theorem Kept.tapeReset (h : Kept o s) : Kept o s.tapeReset := h.tapeMark.upd

theorem Kept.burnCut (h : Kept o s) : Kept o s.burnCut := by
  unfold State.burnCut
  split
  · exact h.drawn.upd
  · exact h

theorem Kept.portsDown (h : Kept o s) : Kept o s.portsDown := h.foldl fun _ _ hx => .ite hx.emit hx

theorem Kept.coreReset (h : Kept o s) : Kept o s.coreReset :=
  (h.portsDown.burnCut.tapeReset.regsReset.withMem fun _ => Memory.wf_nil).upd

theorem Kept.resetEnds (h : Kept o s) : Kept o s.resetEnds := h.upd.loaderStart

theorem Kept.warmReset (h : Kept o s) {c : RstCause} : Kept o (s.warmReset c) := by
  unfold State.warmReset
  split
  · exact h
  · exact h.setBit
  · exact h.setBit
  · exact h.setBit
  · exact h.setBit
  · exact h.setBit.coreReset.resetEnds
  · exact h.setBit.coreReset.resetEnds
  · exact h.setBit.coreReset.resetEnds

theorem Kept.execRootpllLock (h : Kept o s) : KeptRes o (execRootpllLock s) := by
  refine .next ?_
  split
  · exact h.upd.setBit
  · exact h.upd
  · exact h

theorem Kept.coldStart (h : Kept o s) : Kept o s.coldStart := h.drawn.upd

theorem Kept.powerOff (h : Kept o s) : Kept o s.powerOff :=
  ((h.burnCut.withMem fun _ => Memory.wf_nil).withRegs fun _ => rfl).upd

theorem Kept.safeCapture (h : Kept o s) {mech cls panel tile unit detail : Nat} : Kept o (s.safeCapture mech cls panel tile unit detail) :=
  .ite h h.setReg.setReg

theorem Kept.safeRecord (h : Kept o s) {mech cls panel tile unit detail : Nat} : Kept o (s.safeRecord mech cls panel tile unit detail) :=
  (Kept.ite h.bump.setFld.safeCapture.setBit h.bump.setFld.safeCapture).safeEvt

theorem Kept.clockLoss (h : Kept o s) : Kept o s.clockLoss := by
  unfold State.clockLoss
  extract_lets +onlyGivenNames _ s0
  have hs0 : Kept o s0 := h.upd
  split
  · exact h
  · exact h
  · exact hs0
  · exact hs0.upd
  · exact hs0.safeRecord.setBit.coreReset.upd

theorem Kept.execRootpllRelockHoldEnd (h : Kept o s) : KeptRes o (execRootpllRelockHoldEnd s) := by
  refine .next ?_
  split
  · exact h.upd.resetEnds
  · exact h

/-! ### Firmware.lean -/

theorem Kept.fuseProgWrite (h : Kept o s) {who : Agent} {data : W64} : Kept o (s.fuseProgWrite who data) :=
  .ite h.setFld (.ite h (.ite h.setFld.setFld (.ite h.setFld.setFld.drawn.setBit.setBit.upd h.setFld.setFld.drawn.setFld)))

theorem Kept.fuseGo (h : Kept o s) {who : Agent} {data : W64} {field : Nat} : Kept o (s.fuseGo who data field) :=
  h.whenUp fun _ hu => hu.regTry fun _ hv => hv.fuseProgWrite

theorem Kept.execFuseBurnComplete (h : Kept o s) {took : Bool} : KeptRes o (execFuseBurnComplete took s) := by
  refine .next ?_
  refine h.whenUp fun u hu => ?_
  split
  · exact hu
  · exact hu.drawn.upd.clrBit.clrBit.setFld.debugSync

theorem Kept.flashPut (h : Kept o s) {slot off : Nat} {b : List Byte} {ok : Bool} : Kept o (s.flashPut slot off b ok) :=
  .ite h.flashWrite h.drawn.flashWrite

theorem Kept.execFwWriteImage (h : Kept o s) {r : OnfReq} {off : Nat} {data : List (BitVec 8)} {flashOk : Bool} :
    KeptRes o (execFwWriteImage r off data flashOk s) :=
  .next (h.command fun _ hu => .ite hu.reply (Kept.ite hu.flashPut.flashWrite hu.flashPut).reply)

theorem Kept.execFwWriteConfig (h : Kept o s) {r : OnfReq} {ents : List (Nat × BitVec 64)} {flashOk : Bool} :
    KeptRes o (execFwWriteConfig r ents flashOk s) :=
  .next (h.command fun _ hu => .ite hu.reply (.ite hu.flashPut.flashWrite.reply hu.flashPut.reply))

theorem Kept.dataAreaCopy (h : Kept o s) : Kept o s.dataAreaCopy := h.upd

theorem Kept.execFwActivateSlot (h : Kept o s) {r : OnfReq} {flashOk : Bool} : KeptRes o (execFwActivateSlot r flashOk s) :=
  .next (h.command fun _ hu => .ite hu.reply (.ite hu.reply (.ite hu.reply hu.dataAreaCopy.flashWrite.reply)))

theorem Kept.execFwActivateWithdraw (h : Kept o s) {r : OnfReq} {flashOk : Bool} : KeptRes o (execFwActivateWithdraw r flashOk s) :=
  .next (h.command fun _ hu => hu.flashPut.reply)

theorem Kept.execRecovery (h : Kept o s) {r : OnfReq} {slot off : Nat} {data : List (BitVec 8)} {flashOk : Bool} :
    KeptRes o (execRecovery r slot off data flashOk s) := by
  refine .next ?_
  refine h.command fun u hu => ?_
  exact .ite hu.reply (.ite hu.reply (.ite hu.reply (.ite hu.flashPut.reply (.ite hu.flashPut.reply hu.flashPut.upd.reply))))

/-! ### Attest.lean -/

theorem Kept.gpiowWrite (h : Kept o s) {data : W64} : Kept o (s.gpiowWrite data) := h.setFld.upd
theorem Kept.storePut (h : Kept o s) {slot k : Nat} {e : Option (List Byte)} : Kept o (s.storePut slot k e) := h.upd

theorem Kept.keyStore (h : Kept o s) {r : OnfReq} {k : Nat} {e : Option (List Byte)} {okI okA : Bool} {effect : State → State}
    (heffect : ∀ u, Kept o u → Kept o (effect u)) :
    Kept o (s.keyStore r k e okI okA effect) :=
  .ite h.reply (.ite h.storePut.reply (heffect _ h.storePut.storePut).reply)

theorem Kept.setKey (h : Kept o s) {k : Nat} {x : SenderKey} : Kept o (s.setKey k x) := h.upd

theorem Kept.execKeySenderInstall (h : Kept o s) {r : OnfReq} {slot perm sender : Nat} {wrapped : List (BitVec 8)} {okInactive okActive : Bool} :
    KeptRes o (execKeySenderInstall r slot perm sender wrapped okInactive okActive s) := by
  refine .next ?_
  refine h.command fun u hu => ?_
  refine .ite hu.reply ?_
  split
  · exact hu.reply
  split
  · exact hu.reply
  · exact hu.keyStore fun _ hv => hv.setKey

theorem Kept.factoryRetire (h : Kept o s) {r : OnfReq} {k : SenderKey} : Kept o (s.factoryRetire r k) :=
  .ite h.reply (.ite h.drawn.reply h.drawn.setFld.setBit.setBit.upd.setKey.reply)

theorem Kept.execKeySenderRevoke (h : Kept o s) {r : OnfReq} {slot : Nat} {okInactive okActive : Bool} :
    KeptRes o (execKeySenderRevoke r slot okInactive okActive s) := by
  refine .next ?_
  refine h.command fun u hu => ?_
  split
  · exact hu.reply
  · exact .ite hu.reply (.ite hu.factoryRetire (hu.keyStore fun _ hv => hv.setKey))

theorem Kept.debugSet (h : Kept o s) {m : Nat} : Kept o (s.debugSet m) := .ite h h.setFld.evtOnAll

theorem Kept.execDebugUnlockOpen (h : Kept o s) {r : OnfReq} {mask : Nat} {serial : BitVec 64} : KeptRes o (execDebugUnlockOpen r mask serial s) :=
  .next (h.command fun _ hu => .ite hu.reply (.ite hu.reply hu.debugSet.reply))

theorem Kept.execDebugUnlockClose (h : Kept o s) {r : OnfReq} {mask : Nat} {serial : BitVec 64} :
    KeptRes o (execDebugUnlockClose r mask serial s) :=
  .next (h.command fun _ hu => .ite hu.reply hu.debugSet.reply)

theorem Kept.execHaltRequest (h : Kept o s) {t : Agent} : KeptRes o (execHaltRequest t s) := by
  refine .next ?_
  refine h.whenUp fun u hu => ?_
  split
  · exact .ite hu.setHart hu
  · exact .ite hu.setEng hu
  · exact hu

theorem Kept.execAttest (h : Kept o s) {r : OnfReq} {nonce : List (BitVec 8)} {certs : Nat} : KeptRes o (execAttest r nonce certs s) :=
  .next (h.command fun _ hu => .ite hu.reply hu.drawn.reply)

theorem Kept.setSpdm (h : Kept o s) {n : Nat} {x : SpdmState} : Kept o (s.setSpdm n x) := h.upd
theorem Kept.spdmSend (h : Kept o s) {n code : Nat} {b : List Byte} : Kept o (s.spdmSend n code b) := h.emit
theorem Kept.spdmErr (h : Kept o s) {n code : Nat} : Kept o (s.spdmErr n code) := h.spdmSend

theorem Kept.spdmReq (h : Kept o s) {n lvl : Nat} {f : State → State} (hf : ∀ u, Kept o u → Kept o (f u)) : Kept o (s.spdmReq n lvl f) :=
  h.whenFn fun _ hu => .ite (.ite hu.spdmErr (hf _ hu)) hu

theorem Kept.execGetMeasurements (h : Kept o s) {n op : Nat} {sign : Bool} {nonce : List (BitVec 8)} :
    KeptRes o (execGetMeasurements n op sign nonce s) := by
  refine .next ?_
  refine h.spdmReq fun u hu => ?_
  split
  · exact hu.spdmErr
  · exact hu.drawn.spdmSend

theorem Kept.spdmIn (h : Kept o s) {n sid : Nat} {f : State → State} (hf : ∀ u, Kept o u → Kept o (f u)) : Kept o (s.spdmIn n sid f) :=
  h.spdmReq fun _ hu => .ite (hf _ hu) hu.spdmErr

theorem Kept.setIde (h : Kept o s) {n k v : Nat} : Kept o (s.setIde n k v) := h.setSpdm
theorem Kept.ideAck (h : Kept o s) {n obj k status : Nat} : Kept o (s.ideAck n obj k status) := h.spdmSend

theorem Kept.execIdeKm (h : Kept o s) {n sid stream : Nat} {op : IdeOp} {key : List (BitVec 8)} : KeptRes o (execIdeKm n sid stream op key s) := by
  refine .next ?_
  refine h.spdmIn fun u hu => ?_
  split
  · exact hu.spdmSend
  · exact .ite hu.ideAck (.ite hu.ideAck hu.setIde.ideAck)
  · exact .ite hu.setIde.ideAck hu.ideAck
  · exact .ite hu.setIde.ideAck hu.ideAck

theorem Kept.execIdeIntegrityFailure (h : Kept o s) {n stream : Nat} {tag : Option Nat} : KeptRes o (execIdeIntegrityFailure n stream tag s) := by
  refine .next ?_
  refine h.whenUp fun u hu => ?_
  refine .ite ?_ hu
  split
  · exact hu.setIde.cplTimeout
  · exact hu.setIde

/-! ### Baste.lean -/

theorem Kept.execBasteOpen (h : Kept o s) {r : OnfReq} {idleMs : Nat} : KeptRes o (execBasteOpen r idleMs s) :=
  .next (h.command fun _ hu => .ite hu.reply (.ite hu.reply (.ite hu.reply hu.upd.showSession.reply)))

theorem Kept.execBasteWrite (h : Kept o s) {r : OnfReq} {sess : Nat} {ents : List (Nat × BitVec 64)} : KeptRes o (execBasteWrite r sess ents s) := by
  refine .next ?_
  refine h.command fun u hu => ?_
  refine .ite hu.sessNo ?_
  split
  · exact hu.sessNo
  · exact hu.inSession fun _ _ hx1 => .ite hx1.reply hx1.stageAnd

theorem Kept.execBasteCheck (h : Kept o s) {r : OnfReq} {sess : Nat} : KeptRes o (execBasteCheck r sess s) :=
  .next (h.command fun _ hu => hu.inSession fun _ _ hx => .ite hx.reply (.ite hx.upd.sendFlit hx.checkDone))

theorem Kept.arm (h : Kept o s) {r : OnfReq} {ss : Session} {mode : StitchMode} {code edge : Nat} : Kept o (s.arm r ss mode code edge) :=
  .ite h.setSession.setReg.showSession.sendFlit h.setSession.setReg.showSession

theorem Kept.stitch (h : Kept o s) {r : OnfReq} {sess : Nat} {k : State → Session → State} (hk : ∀ u x1, Kept o u → Kept o (k u x1)) :
    Kept o (s.stitch r sess k) :=
  h.command fun _ hu => hu.inSession fun _ _ hx => .ite hx.reply (.ite hx.reply (.ite hx.reply (hk _ _ hx)))

theorem Kept.execStitchImmediate (h : Kept o s) {r : OnfReq} {sess : Nat} : KeptRes o (execStitchImmediate r sess s) :=
  .next (h.stitch fun _ _ hx => .ite hx.arm hx.drawn.arm)

theorem Kept.execStitchAtTime (h : Kept o s) {r : OnfReq} {sess : Nat} {time : BitVec 64} : KeptRes o (execStitchAtTime r sess time s) :=
  .next (h.stitch fun _ _ hx => .ite hx.reply (.ite hx.reply hx.arm))

theorem Kept.execStitchAtMinute (h : Kept o s) {r : OnfReq} {sess : Nat} : KeptRes o (execStitchAtMinute r sess s) :=
  .next (h.stitch fun _ _ hx => hx.arm)

theorem Kept.abortSession (h : Kept o s) {stat : W64} : Kept o (s.abortSession stat) := by
  unfold State.abortSession
  split
  · exact h
  extract_lets +onlyGivenNames s1 s2
  have hs2 : Kept o s2 := .ite h.closeSession.sendFlit h.closeSession
  split
  · exact hs2
  · exact hs2.evtOnAll.reply

theorem Kept.execBasteAbort (h : Kept o s) {r : OnfReq} {sess : Nat} : KeptRes o (execBasteAbort r sess s) :=
  .next (h.command fun _ hu => hu.inSession fun _ _ hx => hx.abortSession.reply)

theorem Kept.execBasteStatus (h : Kept o s) {r : OnfReq} {sess : Nat} : KeptRes o (execBasteStatus r sess s) :=
  .next (h.command fun _ hu => .ite hu.reply (Kept.ite hu.drawn hu).reply)

theorem Kept.execBasteIdleTimeout (h : Kept o s) : KeptRes o (execBasteIdleTimeout s) := by
  refine .next ?_
  refine h.whenUp fun u hu => ?_
  split
  · exact hu
  · exact .ite hu hu.abortSession.evtOnAll

theorem Kept.execFnConfig (h : Kept o s) {r : OnfReq} {ents : List (Nat × BitVec 64)} : KeptRes o (execFnConfig r ents s) := by
  refine .next ?_
  refine h.command fun u hu => ?_
  split
  · exact hu.sessNo
  · exact .ite hu.sessNo (hu.inSession fun _ _ hx1 => .ite hx1.reply hx1.stageAnd)

theorem Kept.execFnReset (h : Kept o s) {r : OnfReq} {f : Nat} : KeptRes o (execFnReset r f s) :=
  .next (h.command fun _ hu => .ite hu.reply (.ite hu.reply hu.flr.reply))

theorem Kept.execQpGrant (h : Kept o s) {r : OnfReq} {f count first firstLocal cls : Nat} :
    KeptRes o (execQpGrant r f count first firstLocal cls s) :=
  .next (h.command fun _ hu => .ite hu.sessNo (.ite hu.sessNo (.ite hu.sessNo (hu.inSession fun _ _ hx => .ite hx.reply hx.stageAnd))))

theorem Kept.execQpRevoke (h : Kept o s) {r : OnfReq} {f count first : Nat} : KeptRes o (execQpRevoke r f count first s) :=
  .next (h.command fun _ hu => .ite hu.sessNo (.ite hu.sessNo (.ite hu.sessNo (hu.inSession fun _ _ hx => .ite hx.reply hx.stageAnd))))

theorem Kept.quiesceOne (h : Kept o s) {force : Bool} {q : Nat} : Kept o (s.quiesceOne force q) := by
  unfold State.quiesceOne
  refine .ite (.ite h.releaseAll.dropRingWaits.quiesced h) ?_
  split
  · exact h.setQp
  · exact .ite h.drainStart.forceDrain h.drainStart
  · exact .ite h.drainStart.forceDrain h.drainStart
  · exact .ite h.drainStart.forceDrain h
  · exact h

theorem Kept.quiesceMany (h : Kept o s) {force : Bool} {a : List Nat} : Kept o (s.quiesceMany force a) := by
  fun_induction State.quiesceMany s force a
  · exact h
  next ih1 => exact ih1 h.quiesceOne

theorem Kept.execQpQuiesce (h : Kept o s) {r : OnfReq} {f count first : Nat} {force : Bool} {tmoMs : Nat} :
    KeptRes o (execQpQuiesce r f count first force tmoMs s) :=
  .next (h.command fun _ hu => .ite hu.reply (.ite hu.reply (.ite hu.reply (.ite hu.reply hu.quiesceMany.upd.quiesceCheck))))

theorem Kept.execQpQuiesceTimeout (h : Kept o s) {ch tag : Nat} : KeptRes o (execQpQuiesceTimeout ch tag s) := by
  refine .next ?_
  refine h.whenUp fun u hu => ?_
  split
  · exact hu
  · exact hu.upd.reply

theorem Kept.resumeOne (h : Kept o s) {q : Nat} : Kept o (s.resumeOne q) := .ite (.ite h.setQp.activate h.setQp) h

theorem Kept.resumeMany (h : Kept o s) {a : List Nat} : Kept o (s.resumeMany a) := by
  fun_induction State.resumeMany s a
  · exact h
  next ih1 => exact ih1 h.resumeOne

theorem Kept.execQpResume (h : Kept o s) {r : OnfReq} {f count first : Nat} : KeptRes o (execQpResume r f count first s) :=
  .next (h.command fun _ hu => .ite hu.reply (.ite hu.reply (.ite hu.reply (.ite hu.reply (.ite hu.reply hu.resumeMany.reply)))))

theorem Kept.execQpSchedFunction (h : Kept o s) {r : OnfReq} {index : Nat} {v0 v1 : BitVec 64} : KeptRes o (execQpSchedFunction r index v0 v1 s) :=
  .next (h.command fun _ hu => .ite hu.sessNo (.ite hu.sessNo (hu.inSession fun _ _ hx => hx.stageAnd)))

theorem Kept.execQpSchedAccount (h : Kept o s) {r : OnfReq} {index : Nat} {v1 : BitVec 64} : KeptRes o (execQpSchedAccount r index v1 s) :=
  .next (h.command fun _ hu => .ite hu.sessNo (.ite hu.sessNo (hu.inSession fun _ _ hx => hx.stageAnd)))

/-! ### Galvel.lean -/

theorem Kept.linkDown (h : Kept o s) : Kept o s.linkDown := .ite h.clrBit.setFld.bump.galvEvt h
theorem Kept.takeAck (h : Kept o s) {ack : Nat} : Kept o (s.takeAck ack) := h.upd

theorem Kept.resendAll (h : Kept o s) {a : List (Nat × Nat × FlitPayload)} : Kept o (s.resendAll a) := by
  fun_induction State.resendAll s a
  · exact h
  next ih1 => exact ih1 h.emit

theorem Kept.retryFlits (h : Kept o s) : Kept o s.retryFlits := .ite h (.ite h.linkDown h.upd.resendAll.upd.bump)
theorem Kept.setRole (h : Kept o s) {r : Nat} : Kept o (s.setRole r) := h.setFld.quadsAuto
theorem Kept.anaSet (h : Kept o s) {st : Nat} {tell : Bool} : Kept o (s.anaSet st tell) := h.foldl fun _ _ hx => .ite hx.setNvme.nvmeEvent hx.setNvme

theorem Kept.waitsFail (h : Kept o s) {a : List TwinWait} : Kept o (s.waitsFail a) := by
  fun_induction State.waitsFail s a
  · exact h
  next ih1 => exact ih1 (Kept.ite h h.unstage).reply

theorem Kept.waitsEnd (h : Kept o s) : Kept o s.waitsEnd := h.upd.waitsFail.upd.ctrAckAll

theorem Kept.mirrorDrop (h : Kept o s) : Kept o s.mirrorDrop := by
  unfold State.mirrorDrop
  split
  · exact .ite h.setSession h
  · exact h

theorem Kept.goSolo (h : Kept o s) : Kept o s.goSolo := h.waitsEnd.mirrorDrop.clrBit.setReg.setFld.setFld.setReg.upd.setRole
theorem Kept.pairFail (h : Kept o s) {p : Pairing} {code : Nat} : Kept o (s.pairFail p code) := h.upd.reply

theorem Kept.pairJudge (h : Kept o s) : Kept o s.pairJudge := by
  unfold State.pairJudge
  split
  · refine .ite h ?_
    split
    · exact h.pairFail
    · exact h.upd
  · exact h

theorem Kept.pairAsk (h : Kept o s) {r : OnfReq} {action role : Nat} {peer pairId : W64} {roleOk : State → Bool} :
    Kept o (s.pairAsk r action role peer pairId roleOk) := by
  unfold State.pairAsk
  refine h.command fun u hu => ?_
  refine .ite hu.reply ?_
  exact .ite hu.reply (.ite hu.reply (.ite hu.reply (.ite hu.reply (hu.upd.foldl fun _ _ hx => hx.croakOut).sendFlit.pairJudge)))

theorem Kept.execTwinPairPair (h : Kept o s) {r : OnfReq} {role : Nat} {peerSerial pairId : BitVec 64} :
    KeptRes o (execTwinPairPair r role peerSerial pairId s) :=
  .next h.pairAsk

theorem Kept.execTwinPairRejoin (h : Kept o s) {r : OnfReq} {role : Nat} {peerSerial pairId : BitVec 64} :
    KeptRes o (execTwinPairRejoin r role peerSerial pairId s) :=
  .next h.pairAsk

theorem Kept.execTwinPairUnpair (h : Kept o s) {r : OnfReq} : KeptRes o (execTwinPairUnpair r s) :=
  .next (h.command fun _ hu => .ite hu.reply hu.sendFlit.goSolo.reply)

theorem Kept.execTwinPairTimeout (h : Kept o s) : KeptRes o (execTwinPairTimeout s) := by
  refine .next ?_
  refine h.whenUp fun u hu => ?_
  split
  · exact .ite hu hu.pairFail
  · exact hu

theorem Kept.syncOut (h : Kept o s) {lead : Bool} : Kept o (s.syncOut lead) := h.sendFlits
theorem Kept.synced (h : Kept o s) {lead : Bool} : Kept o (s.synced lead) := h.syncOut.upd.setBit
theorem Kept.peerKnown (h : Kept o s) {p : Pairing} {i : PairInfo} : Kept o (s.peerKnown p i) := h.setReg.setReg.setFld.setFld.upd

theorem Kept.execTwinSyncComplete (h : Kept o s) : KeptRes o (execTwinSyncComplete s) := by
  refine .next ?_
  refine h.whenUp fun u hu => ?_
  refine .ite hu ?_
  split
  · refine .ite hu ?_
    extract_lets +onlyGivenNames s1 s2
    have hs2 : Kept o s2 := .ite hu.peerKnown hu.peerKnown.setRole.anaSet
    exact (Kept.ite hs2.upd.clrBit hs2).clrBit.setBit.synced.reply
  · exact .ite hu.synced hu

theorem Kept.setShadow (h : Kept o s) {q : Nat} {x : ShadowQp} : Kept o (s.setShadow q x) := h.upd
theorem Kept.mirrorOpen (h : Kept o s) : Kept o s.mirrorOpen := .ite h h.setSession

theorem Kept.tabsArrive (h : Kept o s) {a : List (Nat × List Byte × Option (List Byte))} : Kept o (s.tabsArrive a) := by
  fun_induction State.tabsArrive s a
  · exact h
  next ih1 => exact ih1 h.stageTab

theorem Kept.regsArrive (h : Kept o s) {a : List (Nat × W64)} : Kept o (s.regsArrive a) := by
  fun_induction State.regsArrive s a
  · exact h
  rename_i ih1
  refine ih1 ?_
  split
  · exact h.setSession
  · exact h

theorem Kept.copyConfig (h : Kept o s) {regs : List (Nat × W64)} {tabs : List (Nat × List Byte × List Byte)} {epoch : Nat} :
    Kept o (s.copyConfig regs tabs epoch) := by
  unfold State.copyConfig
  dsimp only
  split
  · exact h.setSession.regsArrive.tabsArrive.setSession.applyStitch.setFld
  · exact h.setSession.regsArrive.tabsArrive

theorem Kept.stageAcked (h : Kept o s) : Kept o s.stageAcked := by
  unfold State.stageAcked
  split
  · exact h.upd.reply
  · exact h

theorem Kept.checkCame (h : Kept o s) {v : List (Nat × Nat × Nat)} : Kept o (s.checkCame v) := by
  unfold State.checkCame
  split
  · exact h.upd.checkDone
  · exact h

theorem Kept.scheduleCame (h : Kept o s) {mode edge : Nat} : Kept o (s.scheduleCame mode edge) := by
  unfold State.scheduleCame
  split
  · exact .ite h h.setSession.sendFlit
  · exact h

theorem Kept.armedMap (h : Kept o s) {f : Armed → Option Armed} : Kept o (s.armedMap f) := by
  unfold State.armedMap
  split
  · split
    · exact h.setSession
    · exact h
  · exact h

theorem Kept.counterCame (h : Kept o s) {slot ctr : Nat} : Kept o (s.counterCame slot ctr) := h.setCtr.sendFlit

theorem Kept.doorbellCame (h : Kept o s) {f loc : Nat} {d : W64} : Kept o (s.doorbellCame f loc d) := by
  unfold State.doorbellCame
  split
  · exact h
  · exact .ite (.ite h h.readAvail) h.doorbell

theorem Kept.packetCame (h : Kept o s) {f loc : Nat} {fr : List Byte} : Kept o (s.packetCame f loc fr) := by
  unfold State.packetCame
  split
  · exact h.netDrop
  · exact h.upd

theorem Kept.connCame (h : Kept o s) {key rkey : List Byte} {st : Nat} : Kept o (s.connCame key rkey st) := h.ctPut

theorem Kept.deliver (h : Kept o s) {p : FlitPayload} : Kept o (s.deliver p) := by
  unfold State.deliver
  split
  · exact h
  · exact h
  · exact h.upd
  · exact h.stageAcked
  · exact h.ctrAck
  · exact h.checkCame
  · exact h.armedMap
  · split
    · exact h.upd
    · exact h
  · split
    · exact .ite h.upd.reply h
    · exact h
  · exact h.upd.pairJudge
  · exact .ite h.mirrorOpen.regsArrive.tabsArrive.sendFlit h.mirrorOpen.regsArrive.tabsArrive
  · exact h.sendFlit
  · exact h.mirrorDrop
  · exact h.mirrorOpen.scheduleCame
  · exact h.armedMap
  · exact h.counterCame
  · exact h.doorbellCame
  · exact h.setShadow
  · exact h.packetCame
  · exact h.connCame
  · exact h.upd
  · exact h.setSa
  · exact h.setSa
  · exact h.setFn
  · exact h.setFn
  · exact h.upd
  · exact h.copyConfig
  · exact h.setActive
  · exact h.setShadow
  · exact h.upd.sendFlit
  · exact h.upd
  · exact h.upd
  · exact h.upd
  · exact .ite h.goSolo h

theorem Kept.execGalvelFlitReceive (h : Kept o s) {fl : Flit} : KeptRes o (execGalvelFlitReceive fl s) := by
  refine .next ?_
  refine h.whenUp fun u hu => ?_
  refine .ite hu ?_
  exact .ite hu.upd (.ite (Kept.ite hu.upd.takeAck.retryFlits hu.upd.takeAck).deliver (.ite hu.upd.takeAck.retryFlits hu.upd.takeAck))

theorem Kept.journal (h : Kept o s) {e : JHead} {f : ShadowQp → ShadowQp} : Kept o (s.journal e f) :=
  h.whenUp fun _ hu => .ite hu hu.setShadow.upd.sendFlit

theorem Kept.countsCame (h : Kept o s) {acct : Nat} {a : List (Nat × Nat)} : Kept o (s.countsCame acct a) := by
  fun_induction State.countsCame s acct a
  · exact h
  next ih1 => exact ih1 h.peerInc

theorem Kept.wmarks (h : Kept o s) {a : List Nat} : Kept o (s.wmarks a) := by
  fun_induction State.wmarks s a
  · exact h
  next ih1 => exact ih1 (.ite h.upd h)

/-! ### Device.lean -/

theorem Kept.execDevInfo (h : Kept o s) {r : OnfReq} : KeptRes o (execDevInfo r s) := .next (h.command fun _ hu => hu.reply)

theorem Kept.execDevReset (h : Kept o s) {r : OnfReq} {serial : BitVec 64} {delayMs : Nat} : KeptRes o (execDevReset r serial delayMs s) :=
  .next (h.command fun _ hu => .ite hu.reply (.ite hu.reply (.ite hu.reply (.ite hu.reply hu.reply.upd))))

theorem Kept.setMask (h : Kept o s) {ch m : Nat} : Kept o (s.setMask ch m) := h.upd

theorem Kept.execEvtSubscribe (h : Kept o s) {r : OnfReq} {classes : BitVec 64} : KeptRes o (execEvtSubscribe r classes s) :=
  .next (h.command fun _ hu => .ite hu.reply (.ite hu.reply hu.setMask.reply))

theorem Kept.execOemCommand (h : Kept o s) {r : OnfReq} {opcode : Nat} {params : List (BitVec 8)} : KeptRes o (execOemCommand r opcode params s) :=
  .next (.ite (h.command fun _ hu => hu.drawn.emit.drawn.reply) h)

theorem Kept.execCeilingWriteRetry (h : Kept o s) {okInactive okActive : Bool} : KeptRes o (execCeilingWriteRetry okInactive okActive s) := by
  refine .next ?_
  refine h.whenUp fun u hu => ?_
  split
  · exact hu
  · exact hu.upd

theorem Kept.execEvtPacketSend (h : Kept o s) {ch cls : Nat} : KeptRes o (execEvtPacketSend ch cls s) := by
  refine .next ?_
  refine h.whenUp fun u hu => ?_
  split
  · exact hu
  · exact .ite hu hu.upd.send

theorem Kept.mbxTry (h : Kept o s) {ch : Nat} {who : Agent} {k : AccKind} {off : Nat} {f : State → State} (hf : ∀ u, Kept o u → Kept o (f u)) :
    Kept o (s.mbxTry ch who k off f) := by
  unfold State.mbxTry
  refine .ite ?_ (.ite (hf _ h) h.violation)
  split
  · exact .ite (hf _ h) h
  · exact h

theorem Kept.mbxGo (h : Kept o s) {ch : Nat} : Kept o (s.mbxGo ch) := h.setMbx
theorem Kept.mbxDone (h : Kept o s) {ch : Nat} : Kept o (s.mbxDone ch) := .ite h.setMbx.mbxNext h

/-! ### Stitch.lean -/

theorem Kept.execStitchDispatch (h : Kept o s) {port : Nat} {toHost : Bool} : KeptRes o (execStitchDispatch port toHost s) := by
  refine .next ?_
  refine h.whenUp fun u hu => ?_
  extract_lets +onlyGivenNames s0
  have hs0 : Kept o s0 := .ite hu.rxKick hu
  split
  · exact hs0
  rename_i e
  refine .ite (hs0.pick _ e).stitchOut ?_
  split
  · exact (hs0.pick _ e).tailWrite
  · exact hs0.pick _ e

theorem Kept.xferEnd (h : Kept o s) {x : Xfer} : Kept o (s.xferEnd x) := by
  unfold State.xferEnd
  split
  · exact .ite h.netOut h.reqDone
  · exact h.moveDone
  · exact h.rxDone

theorem Kept.execStitchDataWritten (h : Kept o s) {xid : Nat} : KeptRes o (execStitchDataWritten xid s) := by
  refine .next ?_
  refine h.whenUp fun u hu => ?_
  split
  · exact hu
  refine .ite hu ?_
  split
  · exact hu
  refine .invalSweep ?_
  refine .ite (.ite hu.moveData.stitchIn.failDone hu.moveData.stitchIn) ?_
  exact .ite hu.moveData.stitchIn.failDone (.ite hu.moveData.stitchIn.xferEnd hu.moveData.stitchIn)

/-! ### Safe.lean -/

theorem Kept.contain (h : Kept o s) {q : Nat} : Kept o (s.contain q) := h.setQp.upd
theorem Kept.containAll (h : Kept o s) {qs : List Nat} : Kept o (s.containAll qs) := h.foldl fun _ _ hx => hx.contain

theorem Kept.poisonXfer (h : Kept o s) {xid : Nat} : Kept o (s.poisonXfer xid) := by
  unfold State.poisonXfer
  split
  · exact h
  split
  · exact .ite h h.failXfer
  · exact h.drawn.putXfer

theorem Kept.poisonPacket (h : Kept o s) {p : Nat} : Kept o (s.poisonPacket p) := by
  unfold State.poisonPacket
  refine .ite h.drawn ?_
  refine .ite ?_ ?_
  · split
    · exact h.drawn.upd
    · exact h.drawn
  refine .ite ?_ ?_
  · split
    · exact h.drawn.upd
    · exact h.drawn
  split
  · split
    · exact h.drawn.upd.emit
    · exact h.drawn
  · exact h.drawn

theorem Kept.poisonTape (h : Kept o s) {unit : Nat} : Kept o (s.poisonTape unit) := .ite h h.setBank

theorem Kept.containFault (h : Kept o s) {x : FaultInfo} : Kept o (s.containFault x) := by
  unfold State.containFault
  split
  · exact h.poisonXfer
  · exact h.poisonPacket
  · exact .ite h h.contain
  · exact h.containAll
  · exact h.poisonTape
  · exact h.containAll
  · exact h.panelQuiet.containAll.upd
  · exact h

theorem Kept.faultOut (h : Kept o s) : Kept o s.faultOut := h.upd
theorem Kept.injectSeen (h : Kept o s) {mech panel tile : Nat} : Kept o (s.injectSeen mech panel tile) := .ite h.upd.clrBit h
theorem Kept.deviceFault (h : Kept o s) {mech : Nat} : Kept o (s.deviceFault mech) := .ite h.faultOut.setBit.coreReset.upd h.faultOut.warmReset

theorem Kept.detect (h : Kept o s) {x : FaultInfo} : Kept o (s.detect x) := by
  unfold State.detect
  refine .ite h.injectSeen.safeRecord.bootHalt ?_
  refine .ite h.injectSeen.safeRecord.bootHalt ?_
  refine .ite h.injectSeen.safeRecord.faultOut.warmReset ?_
  refine .ite h.injectSeen.safeRecord.deviceFault ?_
  extract_lets +onlyGivenNames s2 s3
  have hs3 : Kept o s3 := .ite h.injectSeen.safeRecord.containFault.faultOut h.injectSeen.safeRecord.containFault
  exact hs3.drawn.upd.endWaits

theorem Kept.wdogWrite (h : Kept o s) {data : W64} : Kept o (s.wdogWrite data) := .ite (Kept.ite h h.setFld).setBit (.ite h h.setFld)
theorem Kept.injectWrite (h : Kept o s) {data : W64} : Kept o (s.injectWrite data) := .ite h.setFld.setFld.setFld.setBit.upd h.setFld.setFld.setFld

/-! ### Moult.lean -/

theorem Kept.setSpare (h : Kept o s) {x : Nat} {b : Bool} : Kept o (s.setSpare x b) := h.upd
theorem Kept.setTests (h : Kept o s) {l : List (Nat × MoultTest)} : Kept o (s.setTests l) := h.upd.setFld
theorem Kept.moultEvt (h : Kept o s) {f : Fld} : Kept o (s.moultEvt f) := h.setBit.event
theorem Kept.passCheck (h : Kept o s) : Kept o s.passCheck := .ite h.upd.setFld.clrBit.bump.moultEvt h
theorem Kept.testBegin (h : Kept o s) {x : Nat} {spare : Option Nat} : Kept o (s.testBegin x spare) := (Kept.ite h.wakeUnit h).setTests.upd

theorem Kept.execMoultRedirect (h : Kept o s) {slice : Nat} : KeptRes o (execMoultRedirect slice s) := by
  refine .next ?_
  refine h.whenUp fun u hu => ?_
  split
  · split
    · exact hu.setSpare.setTests
    · exact hu
  · exact hu

theorem Kept.moultAnswer (h : Kept o s) {x code : Nat} : Kept o (s.moultAnswer x code) := h.upd.foldl fun _ _ hx1 => hx1.reply
theorem Kept.noSpare (h : Kept o s) {x : Nat} : Kept o (s.noSpare x) := h.upd.moultEvt.detect

theorem Kept.retireSlice (h : Kept o s) {x : Nat} : Kept o (s.retireSlice x) := by
  unfold State.retireSlice
  extract_lets _ s0 s1 s2 s3
  have hs1 : Kept o s1 := h.upd.setSpare.safeCapture
  have hs2 : Kept o s2 := hs1.setFld.bump.setFld
  have hs3 : Kept o s3 := hs2.safeEvt.moultEvt.moultAnswer
  exact .ite hs3.noSpare hs3.endWaits

theorem Kept.execMoultMarchComplete (h : Kept o s) {slice : Nat} {fails : Bool} : KeptRes o (execMoultMarchComplete slice fails s) := by
  refine .next ?_
  refine h.whenUp fun u hu => ?_
  split
  · exact .ite hu (.ite hu.setTests.retireSlice.passCheck hu.setTests.upd.setSpare.setFld.moultAnswer.passCheck)
  · exact hu

theorem Kept.execMoultRunPeriod (h : Kept o s) {r : OnfReq} {periodS : Nat} : KeptRes o (execMoultRunPeriod r periodS s) :=
  .next (h.command fun _ hu => hu.setFld.reply)

theorem Kept.execMoultRunSlice (h : Kept o s) {r : OnfReq} {slice : Nat} : KeptRes o (execMoultRunSlice r slice s) :=
  .next (h.command fun _ hu => .ite hu.testBegin.upd hu.reply)

theorem Kept.execMoultRunFullrate (h : Kept o s) {r : OnfReq} : KeptRes o (execMoultRunFullrate r s) :=
  .next (h.command fun _ hu => .ite hu.reply hu.upd.setFld.setBit.reply)

theorem Kept.execMoultStatus (h : Kept o s) {r : OnfReq} : KeptRes o (execMoultStatus r s) := .next (h.command fun _ hu => hu.reply)

/-! ### TableCmd.lean -/

theorem Kept.selvWrite (h : Kept o s) {r : OnfReq} {op sess table : Nat} {ents : List TabImage} : Kept o (s.selvWrite r op sess table ents) := by
  unfold State.selvWrite
  refine h.command fun u hu => ?_
  refine .ite hu.heard.reply ?_
  refine .ite hu.heard.reply ?_
  refine .ite hu.heard.reply ?_
  refine hu.inSession fun v x hx => ?_
  refine .ite hx.reply ?_
  split
  · exact hx.reply
  · exact hx.stageAnd

theorem Kept.execSelvWriteAdd (h : Kept o s) {r : OnfReq} {sess table : Nat} {ents : List TabImage} :
    KeptRes o (execSelvWriteAdd r sess table ents s) :=
  .next h.selvWrite

theorem Kept.execSelvWriteModify (h : Kept o s) {r : OnfReq} {sess table : Nat} {ents : List TabImage} :
    KeptRes o (execSelvWriteModify r sess table ents s) :=
  .next h.selvWrite

theorem Kept.execSelvWriteDelete (h : Kept o s) {r : OnfReq} {sess table : Nat} {ents : List TabImage} :
    KeptRes o (execSelvWriteDelete r sess table ents s) :=
  .next h.selvWrite

theorem Kept.execSelvRead (h : Kept o s) {r : OnfReq} {table : Nat} {staged : Bool} {ents : List TabImage} :
    KeptRes o (execSelvRead r table staged ents s) := by
  refine .next ?_
  refine h.command fun u hu => ?_
  refine .ite hu.reply ?_
  refine .ite hu.reply ?_
  refine .ite hu.reply ?_
  refine .ite hu.reply ?_
  split
  · exact hu.reply
  · exact hu.reply

theorem Kept.twPut (h : Kept o s) {b : List Byte} : Kept o (s.twPut b) := h.foldl fun _ _ hx => .ite hx.setReg hx
theorem Kept.twStatus (h : Kept o s) {code : Nat} : Kept o (s.twStatus code) := h.setFld

theorem Kept.twStage (h : Kept o s) {who : Agent} {op table index : Nat} : Kept o (s.twStage who op table index) := by
  unfold State.twStage
  refine h.regTry fun u hu => ?_
  split
  · exact hu.setBit
  · exact hu
  refine .ite hu.twStatus ?_
  exact .ite hu.twStatus (.ite hu.twStatus (.ite hu.stageTab.showSession.twStatus.sendFlit hu.stageTab.showSession.twStatus))

theorem Kept.twRead (h : Kept o s) {who : Agent} {stg : Bool} {table index : Nat} : Kept o (s.twRead who stg table index) := by
  unfold State.twRead
  refine h.regTry fun u hu => ?_
  refine .ite hu.twStatus ?_
  split
  · exact hu.twStatus
  · exact hu.twPut.twStatus

/-! ### Takeover.lean -/

theorem Kept.adoptRing (h : Kept o s) {k : Nat} {x : ShadowQp} : Kept o (s.adoptRing k x) := .ite h.setQp (.ite h h.upd.setQp)
theorem Kept.adoptBlind (h : Kept o s) {k : Nat} {x : ShadowQp} : Kept o (s.adoptBlind k x) := h.setQp

theorem Kept.adoptAll (h : Kept o s) {sync : Bool} {a : SMap ShadowQp} : Kept o (s.adoptAll sync a) := by
  fun_induction State.adoptAll s sync a
  · exact h
  next ih1 => exact ih1 (.ite h.setShadow.adoptRing (.ite h h.adoptBlind))

theorem Kept.logsLost (h : Kept o s) {a : SMap DirtyLog} : Kept o (s.logsLost a) := by
  fun_induction State.logsLost s a
  · exact h
  next ih1 => exact ih1 (.ite h.dlogOverflow (.ite h.setDlog h))

theorem Kept.sasJump (h : Kept o s) : Kept o s.sasJump := h.upd

theorem Kept.sessionLost (h : Kept o s) : Kept o s.sessionLost := by
  unfold State.sessionLost
  split
  · exact .ite h.setSession h
  · exact h

theorem Kept.handoffFail (h : Kept o s) : Kept o s.handoffFail := by
  unfold State.handoffFail
  split
  · exact h.upd.reply
  · exact h

theorem Kept.takeover (h : Kept o s) {cause : Nat} : Kept o (s.takeover cause) := by
  unfold State.takeover
  refine .ite h ?_
  refine .galvEvt ?_
  refine .anaSet ?_
  refine .ite ?_ ?_
  · exact h.upd.setBit.setFld.setRole.setReg.setReg.waitsEnd.sessionLost.handoffFail.upd.adoptAll.logsLost.tapeMark.sasJump
  · exact h.upd.setBit.setFld.setRole.setReg.setReg.waitsEnd.sessionLost.handoffFail.upd.adoptAll.logsLost.tapeMark

theorem Kept.linkLoss (h : Kept o s) : Kept o s.linkLoss := .ite h (.ite h.clrBit.waitsEnd.galvEvt.faultOut h.clrBit.waitsEnd.galvEvt)

theorem Kept.recRead (h : Kept o s) {q a n : Nat} : Kept o (s.recRead q a n).1 := by
  unfold State.recRead
  dsimp only
  split
  · exact h.access
  · exact h.access

theorem Kept.scanCq (h : Kept o s) {q : Nat} {nvme : Bool} {a : Nat} {a1 : Visible} : Kept o (s.scanCq q nvme a a1).1 := by
  fun_induction State.scanCq s q nvme a a1
  · exact h
  · exact h.recRead
  · exact h.recRead
  next ih1 => exact ih1 h.recRead

theorem Kept.scanUsed (h : Kept o s) {q a : Nat} {a1 : Visible} : Kept o (s.scanUsed q a a1).1 := by
  fun_induction State.scanUsed s q a a1
  · exact h
  · exact h.recRead
  next ih1 => exact ih1 h.recRead

theorem Kept.scanPacked (h : Kept o s) {q : Nat} {reqs : List ShadowReq} {a : Nat} {a1 : Visible} : Kept o (s.scanPacked q reqs a a1).1 := by
  fun_induction State.scanPacked s q reqs a a1
  · exact h
  · exact h.recRead
  · exact h.recRead
  next ih1 => exact ih1 h.recRead

theorem Kept.findVisible (h : Kept o s) {q : Nat} {reqs : List ShadowReq} : Kept o (s.findVisible q reqs).1 := by
  unfold State.findVisible
  refine .ite_fst ?_ h.scanCq
  refine .ite_fst h.scanPacked ?_
  dsimp only
  split
  · exact h.recRead
  · exact h.recRead.scanUsed

theorem Kept.readSource (h : Kept o s) {q : Nat} : Kept o (s.readSource q).1 := by
  unfold State.readSource
  refine .ite_fst h ?_
  split
  · dsimp only
    split
    · exact h.recRead
    · exact h.recRead
  dsimp only
  split
  · exact h.recRead
  · exact h.recRead

theorem Kept.noteOf (h : Kept o s) {q : Nat} {x : ShadowReq} : Kept o (s.noteOf q x).1 := by
  unfold State.noteOf
  refine .ite_fst h.recRead ?_
  refine .ite_fst h ?_
  refine .ite_fst ?_ h
  split
  · dsimp only
    split
    · exact h.walkPacked
    · exact h.walkPacked
  dsimp only
  split
  · exact h.walkSplit
  · exact h.walkSplit

theorem Kept.notesOf (h : Kept o s) {q : Nat} {a : List ShadowReq} : Kept o (s.notesOf q a).1 := by
  fun_induction State.notesOf s q a
  · exact h
  · exact h.noteOf
  next ih1 => exact ih1 h.noteOf

theorem Kept.standIn (h : Kept o s) {q : Nat} {x : ShadowReq} {n : ReqNote} {status result sqhead : Nat} {committed : Bool} :
    Kept o (s.standIn q x n status result sqhead committed) :=
  h.upd.setQp

theorem Kept.repost (h : Kept o s) {q : Nat} {live : Bool} {a : List (ShadowReq × ReqNote × JCommit)} : Kept o (s.repost q live a) := by
  fun_induction State.repost s q live a
  · exact h
  next ih1 => exact ih1 (.ite h.standIn h.standIn.bump)

theorem Kept.settleOpen (h : Kept o s) {q : Nat} {vis : List Nat} {live : Bool} {a : List (ShadowReq × ReqNote)} {a1 : List ShadowReq} :
    Kept o (s.settleOpen q vis live a a1).1 := by
  fun_induction State.settleOpen s q vis live a a1
  · exact h
  next ih1 => exact ih1 h
  next ih1 => exact ih1 h.standIn
  next ih1 => exact ih1 h.setActive.chargeAll.bump
  next ih1 => exact ih1 (.ite h.upd h.upd.bump)

theorem Kept.ringGoOn (h : Kept o s) {q : Nat} {v : Visible} {src : Option (Nat × Nat)} : Kept o (s.ringGoOn q v src) := by
  unfold State.ringGoOn
  extract_lets +onlyGivenNames c virtio c1 s1
  have hs1 : Kept o s1 := h.setQp
  split
  · exact hs1
  · exact .ite hs1.setQp.expose hs1.setQp

theorem Kept.signalOnce (h : Kept o s) {q : Nat} : Kept o (s.signalOnce q) := .ite h.ringMsix (.ite h.ringSignal h)

theorem Kept.reconcile (h : Kept o s) {q : Nat} : Kept o (s.reconcile q) := by
  unfold State.reconcile
  refine .ite h ?_
  extract_lets +onlyGivenNames k x live a
  have ha : Kept o a.1 := h.findVisible
  split
  · exact ha
  extract_lets +onlyGivenNames b
  have hb : Kept o b.1 := ha.readSource
  split
  · exact hb
  extract_lets +onlyGivenNames n
  have hn : Kept o n.1 := hb.notesOf
  split
  · exact hn
  · exact .ite hn.ringGoOn.repost.settleOpen.setShadow hn.ringGoOn.repost.settleOpen.setShadow.signalOnce

theorem Kept.reconcileAll (h : Kept o s) {a : List Nat} : Kept o (s.reconcileAll a) := by
  fun_induction State.reconcileAll s a
  · exact h
  next ih1 => exact ih1 h.reconcile

theorem Kept.trailIn (h : Kept o s) {q : Nat} : Kept o (s.trailIn q) := by
  unfold State.trailIn
  extract_lets +onlyGivenNames k x n
  have hn : Kept o n.1 := h.notesOf
  split
  · exact hn
  · exact hn.repost.setShadow

theorem Kept.handoffAsk (h : Kept o s) {r : OnfReq} {mode : Nat} {time : W64} : Kept o (s.handoffAsk r mode time) :=
  h.command fun _ hu => .ite hu.reply (.ite hu.reply (.ite hu.reply (.ite hu.reply (.ite hu.reply hu.upd.sendFlit))))

theorem Kept.execTwinHandoffSwap (h : Kept o s) {r : OnfReq} {time : BitVec 64} : KeptRes o (execTwinHandoffSwap r time s) := .next h.handoffAsk
theorem Kept.execTwinHandoffRelease (h : Kept o s) {r : OnfReq} {time : BitVec 64} : KeptRes o (execTwinHandoffRelease r time s) := .next h.handoffAsk
theorem Kept.execTwinHandoffReturn (h : Kept o s) {r : OnfReq} {time : BitVec 64} : KeptRes o (execTwinHandoffReturn r time s) := .next h.handoffAsk
theorem Kept.releaseRing (h : Kept o s) {q : Nat} : Kept o (s.releaseRing q) := .ite h.setQp.sendFlit.upd h.setQp.sendFlit.upd.sendFlit

theorem Kept.releaseRings (h : Kept o s) {a : List Nat} : Kept o (s.releaseRings a) := by
  fun_induction State.releaseRings s a
  · exact h
  next ih1 => exact ih1 h.releaseRing

theorem Kept.takeRings (h : Kept o s) {a : List (Nat × ShadowQp)} : Kept o (s.takeRings a) := by
  fun_induction State.takeRings s a
  · exact h
  next ih1 => exact ih1 h.adoptRing.upd

theorem Kept.execHandoffEdge (h : Kept o s) : KeptRes o (execHandoffEdge s) := by
  refine .next ?_
  refine h.whenUp fun u hu => ?_
  split
  · exact .ite hu (.ite hu.handoffFail.sendFlit (.ite hu.upd.releaseRings.setRole.anaSet hu.upd.releaseRings))
  split
  · exact .ite hu (Kept.ite hu.setRole.anaSet hu).takeRings.reconcileAll.sendFlit
  · exact hu

theorem Kept.releaseEnd (h : Kept o s) {a : List Nat} : Kept o (s.releaseEnd a) := by
  fun_induction State.releaseEnd s a
  · exact h
  next ih1 => exact ih1 (.ite h.sendFlit.setQp h.sendFlit)

theorem Kept.quietAll (h : Kept o s) : Kept o s.quietAll := h.foldl fun _ _ hx => hx.panelQuiet

theorem Kept.execTwinGate (h : Kept o s) {r : OnfReq} {sess : Nat} {gate : BitVec 64} : KeptRes o (execTwinGate r sess gate s) :=
  .next (h.command fun _ hu => .ite hu.sessNo (hu.inSession fun _ _ hx => hx.stageAnd))

/-! ### Arrival.lean -/

theorem Kept.parBad (h : Kept o s) {r : OnfReq} {op : Nat} : Kept o (s.parBad r op) := h.command fun _ hu => hu.reply
theorem Kept.parBadIn (h : Kept o s) {r : OnfReq} {op : Nat} {sess : Option Nat} : Kept o (s.parBadIn r op sess) := h.command fun _ hu => hu.sessNo
theorem Kept.parDevReset (h : Kept o s) {r : OnfReq} {p : List Byte} : Kept o (s.parDevReset r p) := .ite (h.afterRes h.execDevReset) h.parBad
theorem Kept.parSubscribe (h : Kept o s) {r : OnfReq} {p : List Byte} : Kept o (s.parSubscribe r p) := .ite (h.afterRes h.execEvtSubscribe) h.parBad

theorem Kept.parFnConfig (h : Kept o s) {r : OnfReq} {p : List Byte} : Kept o (s.parFnConfig r p) := by
  unfold State.parFnConfig
  split
  · exact h.afterRes h.execFnConfig
  · exact h.parBadIn

theorem Kept.parFnReset (h : Kept o s) {r : OnfReq} {p : List Byte} : Kept o (s.parFnReset r p) := by
  unfold State.parFnReset
  split
  · exact h.afterRes h.execFnReset
  · exact h.parBad

theorem Kept.parQp (h : Kept o s) {r : OnfReq} {op : Nat} {p : List Byte} : Kept o (s.parQp r op p) := by
  unfold State.parQp
  refine .ite (.ite (h.afterRes h.execQpGrant) h.parBadIn) ?_
  refine .ite (.ite (h.afterRes h.execQpRevoke) h.parBadIn) ?_
  refine .ite (.ite (h.afterRes h.execQpQuiesce) h.parBad) ?_
  exact .ite (.ite (h.command fun _ hu => hu.reply) (h.afterRes h.execQpResume)) h.parBad

theorem Kept.parSched (h : Kept o s) {r : OnfReq} {p : List Byte} : Kept o (s.parSched r p) :=
  .ite (.ite (h.afterRes h.execQpSchedFunction) (h.afterRes h.execQpSchedAccount)) h.parBadIn

theorem Kept.parOpen (h : Kept o s) {r : OnfReq} {p : List Byte} : Kept o (s.parOpen r p) := .ite (h.afterRes h.execBasteOpen) h.parBad

theorem Kept.parWrite (h : Kept o s) {r : OnfReq} {p : List Byte} : Kept o (s.parWrite r p) := by
  unfold State.parWrite
  refine .ite ?_ h.parBadIn
  split
  · exact h.afterRes h.execBasteWrite
  · exact h.parBadIn

theorem Kept.parSession (h : Kept o s) {r : OnfReq} {op : Nat} {p : List Byte} : Kept o (s.parSession r op p) := by
  unfold State.parSession
  refine .ite ?_ (.ite h.parBadIn h.parBad)
  exact .ite (h.afterRes h.execBasteCheck) (.ite (h.afterRes h.execBasteAbort) (h.afterRes h.execBasteStatus))

theorem Kept.parStitch (h : Kept o s) {r : OnfReq} {p : List Byte} : Kept o (s.parStitch r p) :=
  .ite (.ite (h.afterRes h.execStitchImmediate) (.ite (h.afterRes h.execStitchAtTime) (h.afterRes h.execStitchAtMinute))) h.parBadIn

theorem Kept.parTapeRead (h : Kept o s) {r : OnfReq} {p : List Byte} : Kept o (s.parTapeRead r p) := .ite (h.afterRes h.execTapeRead) h.parBad

theorem Kept.parTapeMap (h : Kept o s) {r : OnfReq} {p : List Byte} : Kept o (s.parTapeMap r p) := by
  unfold State.parTapeMap
  refine .ite h.parBadIn ?_
  exact .ite (h.afterRes h.execTapeMapFunction) (.ite (h.afterRes h.execTapeMapTspace) (.ite (h.afterRes h.execTapeMapEnable) h.parBadIn))

theorem Kept.parTapeRing (h : Kept o s) {r : OnfReq} {p : List Byte} : Kept o (s.parTapeRing r p) := .ite (h.afterRes h.execTapeRing) h.parBadIn

theorem Kept.parPair (h : Kept o s) {r : OnfReq} {p : List Byte} : Kept o (s.parPair r p) :=
  .ite (.ite (h.afterRes h.execTwinPairPair) (.ite (h.afterRes h.execTwinPairUnpair) (h.afterRes h.execTwinPairRejoin))) h.parBad

theorem Kept.parHandoff (h : Kept o s) {r : OnfReq} {p : List Byte} : Kept o (s.parHandoff r p) := by
  unfold State.parHandoff
  refine .ite ?_ h.parBad
  exact .ite (h.afterRes h.execTwinHandoffSwap) (.ite (h.afterRes h.execTwinHandoffRelease) (h.afterRes h.execTwinHandoffReturn))

theorem Kept.parGate (h : Kept o s) {r : OnfReq} {p : List Byte} : Kept o (s.parGate r p) := .ite (h.afterRes h.execTwinGate) h.parBadIn

theorem Kept.parFwWrite (h : Kept o s) {r : OnfReq} {p : List Byte} : Kept o (s.parFwWrite r p) := by
  unfold State.parFwWrite
  refine .ite h.parBad ?_
  refine .ite (h.afterRes h.drawn.execFwWriteImage) ?_
  refine .ite ?_ h.parBad
  split
  · exact h.afterRes h.drawn.execFwWriteConfig
  · exact h.parBad

theorem Kept.parActivate (h : Kept o s) {r : OnfReq} {p : List Byte} : Kept o (s.parActivate r p) :=
  .ite h.parBad (.ite (h.afterRes h.drawn.execFwActivateSlot) (.ite (h.afterRes h.drawn.execFwActivateWithdraw) h.parBad))

theorem Kept.parRecovery (h : Kept o s) {r : OnfReq} {p : List Byte} : Kept o (s.parRecovery r p) := .ite h.parBad (h.afterRes h.drawn.execRecovery)

theorem Kept.parPwrSet (h : Kept o s) {r : OnfReq} {p : List Byte} : Kept o (s.parPwrSet r p) := by
  unfold State.parPwrSet
  refine .ite h.parBad ?_
  split
  · exact h.afterRes h.execPwrSetBask
  · exact h.afterRes h.execPwrSetDoze
  · exact h.afterRes h.execPwrSetBrumate
  · exact h.afterRes h.execPwrSetHold
  · exact h.parBad

theorem Kept.parMoultRun (h : Kept o s) {r : OnfReq} {p : List Byte} : Kept o (s.parMoultRun r p) := by
  unfold State.parMoultRun
  refine .ite h.parBad ?_
  split
  · exact .ite (h.afterRes h.execMoultRunPeriod) h.parBad
  · exact h.afterRes h.execMoultRunSlice
  · exact h.afterRes h.execMoultRunFullrate
  · exact h.parBad

theorem Kept.parKeySender (h : Kept o s) {r : OnfReq} {p : List Byte} : Kept o (s.parKeySender r p) :=
  .ite h.parBad (.ite (h.afterRes h.drawn.execKeySenderInstall) (.ite (h.afterRes h.drawn.execKeySenderRevoke) h.parBad))

theorem Kept.parAttest (h : Kept o s) {r : OnfReq} {p : List Byte} : Kept o (s.parAttest r p) := .ite (h.afterRes h.execAttest) h.parBad

theorem Kept.parDebug (h : Kept o s) {r : OnfReq} {p : List Byte} : Kept o (s.parDebug r p) :=
  .ite (.ite (h.afterRes h.execDebugUnlockOpen) (h.afterRes h.execDebugUnlockClose)) h.parBad

theorem Kept.parSelvWrite (h : Kept o s) {r : OnfReq} {p : List Byte} : Kept o (s.parSelvWrite r p) := by
  unfold State.parSelvWrite
  refine .ite (h.command fun _ hu => hu.heard.reply) ?_
  split
  · exact h.command fun _ hu => hu.heard.reply
  refine .ite (h.afterRes h.execSelvWriteAdd) ?_
  exact .ite (h.afterRes h.execSelvWriteModify) (.ite (h.afterRes h.execSelvWriteDelete) (h.command fun _ hu => hu.heard.reply))

theorem Kept.parSelvRead (h : Kept o s) {r : OnfReq} {p : List Byte} : Kept o (s.parSelvRead r p) := by
  unfold State.parSelvRead
  split
  · exact h.afterRes h.execSelvRead
  · exact h.parBad

theorem Kept.parStatus (h : Kept o s) {r : OnfReq} {op : Nat} {p : List Byte} : Kept o (s.parStatus r op p) :=
  .ite (h.afterRes h.execDevInfo) (.ite (h.afterRes h.execMoultStatus) (.ite (h.afterRes h.execPwrStatus) h.parBad))

theorem Kept.onfRun (h : Kept o s) {r : OnfReq} {op : Nat} {p : List Byte} : Kept o (s.onfRun r op p) := by
  unfold State.onfRun
  split
  · exact h.parStatus
  · exact h.parDevReset
  · exact h.parSubscribe
  · exact h.parFnConfig
  · exact h.parFnReset
  · exact h.parQp
  · exact h.parQp
  · exact h.parQp
  · exact h.parQp
  · exact h.parSched
  · exact h.parOpen
  · exact h.parWrite
  · exact h.parSession
  · exact h.parStitch
  · exact h.parSession
  · exact h.parSession
  · exact h.parTapeRead
  · exact h.parTapeMap
  · exact h.parTapeRing
  · exact h.parPair
  · exact h.parHandoff
  · exact h.parGate
  · exact h.parFwWrite
  · exact h.parActivate
  · exact h.parRecovery
  · exact h.parPwrSet
  · exact h.parStatus
  · exact h.parMoultRun
  · exact h.parStatus
  · exact h.parKeySender
  · exact h.parAttest
  · exact h.parDebug
  · exact h.parSelvWrite
  · exact h.parSelvRead
  · exact .ite (h.afterRes h.execOemCommand) h.parBad

theorem Kept.setPartial (h : Kept o s) {r : OnfReq} {x : Option Partial} : Kept o (s.setPartial r x) := h.upd

theorem Kept.onfMore (h : Kept o s) {r : OnfReq} {op : Nat} {p : List Byte} : Kept o (s.onfMore r op p) := by
  unfold State.onfMore
  split
  · exact h.setPartial
  · exact h.setPartial

theorem Kept.onfSpoil (h : Kept o s) {r : OnfReq} : Kept o (s.onfSpoil r) := by
  unfold State.onfSpoil
  split
  · exact h
  · exact h.setPartial

theorem Kept.onfDrop (h : Kept o s) {ch code : Nat} : Kept o (s.onfDrop ch code) := .ite h.bump.setBit.emit.setMbx.mbxSignal h.bump.setBit.emit
theorem Kept.mbxTake (h : Kept o s) {ch : Nat} : Kept o (s.mbxTake ch) := .ite h.setMbx h
theorem Kept.mbxFree (h : Kept o s) {ch : Nat} : Kept o (s.mbxFree ch) := .ite h.setMbx h

theorem Kept.onfJudge (h : Kept o s) {ch : Nat} {b : List Byte} : Kept o (s.onfJudge ch b) := by
  unfold State.onfJudge
  refine .ite h.refuseReply ?_
  refine .ite h.refuseReply ?_
  refine .ite h.refuseReply ?_
  split
  · exact h.onfSpoil.command fun _ hu => hu
  refine .ite h.onfSpoil.refuseReply ?_
  refine .ite (h.onfSpoil.command fun _ hu => hu) ?_
  refine .ite h.onfSpoil.reply ?_
  refine .ite (h.command fun _ hu => hu.onfMore).mbxFree ?_
  split
  · exact h.onfRun
  · exact .ite (h.setPartial.command fun _ hu => hu.reply) h.setPartial.onfRun

theorem Kept.execOnafaetPacketArrival (h : Kept o s) {ch : Nat} {bytes : List (BitVec 8)} : KeptRes o (execOnafaetPacketArrival ch bytes s) := by
  refine .next ?_
  refine h.whenUp fun u hu => ?_
  refine .ite hu ?_
  refine .ite hu.onfDrop ?_
  split
  · exact hu.onfDrop
  · exact hu.mbxTake.onfJudge

/-! ### BobCtl.lean -/

theorem Kept.storeLand (h : Kept o s) {e : Nat} {t : StoreEnt} : Kept o (s.storeLand e t) := .ite h.setEng h.devWrite.unpoison
theorem Kept.engSettle (h : Kept o s) {e : Nat} : Kept o (s.engSettle e) := .ite h (.ite h.setEng (.ite h.setEng h))

theorem Kept.drainOne (h : Kept o s) {e : Nat} : Kept o (s.drainOne e) := by
  unfold State.drainOne
  dsimp only
  split
  · exact h
  · exact h.setEng.storeLand.engSettle

theorem Kept.drainN (h : Kept o s) {e a : Nat} : Kept o (s.drainN e a) := by
  fun_induction State.drainN s e a
  · exact h
  next ih1 => exact ih1 h.drainOne

theorem Kept.drainAll (h : Kept o s) {e : Nat} : Kept o (s.drainAll e) := h.drainN
theorem Kept.bobRun (h : Kept o s) {e : Nat} : Kept o (s.bobRun e) := .ite h.engRun h
theorem Kept.bobStop (h : Kept o s) {e : Nat} : Kept o (s.bobStop e) := .ite h.setEng.engSettle h
theorem Kept.bobCtlWrite (h : Kept o s) {e : Nat} {data : W64} : Kept o (s.bobCtlWrite e data) := .ite (Kept.ite h.bobRun h).bobStop (.ite h.bobRun h)
theorem Kept.bobImgSet (h : Kept o s) {e : Nat} {data : W64} : Kept o (s.bobImgSet e data) := .ite h.setFld h
theorem Kept.bobLmemSet (h : Kept o s) {e off : Nat} {data : W64} : Kept o (s.bobLmemSet e off data) := .ite h (.ite h.setEng (.ite h.setEng h))

/-! ### Harts.lean -/

theorem Kept.execHtapeacctWrite (h : Kept o s) {h1 : Nat} {mode : Priv} {data : BitVec 64} : KeptRes o (execHtapeacctWrite h1 mode data s) := by
  refine .next ?_
  refine h.whenUp fun u hu => ?_
  refine .ite hu ?_
  split
  · exact hu.setHart
  · exact hu.setHart
  · exact hu.hartTrap
  · exact hu.hartTrap
  · exact hu.hartTrap

theorem Kept.mcachectl (h : Kept o s) {h1 : Nat} {data : W64} : Kept o (s.mcachectl h1 data) := h.setHart

theorem Kept.scCtlWrite (h : Kept o s) {data : W64} : Kept o (s.scCtlWrite data) := by
  unfold State.scCtlWrite
  extract_lets +onlyGivenNames en priv s1
  have hs1 : Kept o s1 := .ite (.ite h.setBit.clrBit h.setBit) (.ite (.ite h.setBit h.clrBit.clrBit) h)
  exact .ite hs1.setBit hs1

theorem Kept.cboRead (h : Kept o s) {h1 addr : Nat} : Kept o (s.cboRead h1 addr) := by
  unfold State.cboRead
  refine h.whenUp fun u hu => ?_
  refine .ite ?_ hu
  split
  · exact hu.violation
  · exact hu

theorem Kept.execCboZero (h : Kept o s) {h1 addr : Nat} : KeptRes o (execCboZero h1 addr s) := by
  refine .next ?_
  refine h.whenUp fun u hu => ?_
  refine .ite hu ?_
  refine .ite hu.hartTrap ?_
  split
  · exact hu.devWrite.unpoison
  · exact hu.violation
  · exact hu

/-! ### Timers.lean -/

theorem Kept.setRun (h : Kept o s) {t : Nat} {on_ : Bool} : Kept o (s.setRun t on_) := h.setReg
theorem Kept.setPps (h : Kept o s) {k : Nat} {on_ : Bool} : Kept o (s.setPps k on_) := h.upd.emit
theorem Kept.ppsRise (h : Kept o s) {k : Nat} : Kept o (s.ppsRise k) := .ite h.setPps h
theorem Kept.ppsSecond (h : Kept o s) : Kept o s.ppsSecond := .ite (.ite h h.ppsRise) (Kept.ite h h.ppsRise).ppsRise
theorem Kept.setArmed (h : Kept o s) {t : Nat} {on_ : Bool} : Kept o (s.setArmed t on_) := h.upd

theorem Kept.tmrMatch (h : Kept o s) {t : Nat} {wrote : Bool} : Kept o (s.tmrMatch t wrote) := by
  unfold State.tmrMatch
  extract_lets +onlyGivenNames s1 s2 reload s3
  have hs2 : Kept o s2 := (Kept.ite h.setBit h).setBit
  have hs3 : Kept o s3 := .ite hs2.setReg hs2.setArmed
  exact .ite hs3.ppsRise hs3

theorem Kept.tmrEval (h : Kept o s) {t : Nat} {wrote : Bool} : Kept o (s.tmrEval t wrote) := .ite h.tmrMatch h
theorem Kept.tmrCmpSet (h : Kept o s) {t : Nat} {data : W64} : Kept o (s.tmrCmpSet t data) := h.setReg.setArmed.tmrEval
theorem Kept.tmrMatchOff (h : Kept o s) {t : Nat} : Kept o (s.tmrMatchOff t) := .ite h.clrBit.setArmed h
theorem Kept.setT00 (h : Kept o s) {v : Nat} : Kept o (s.setT00 v) := .ite h.upd.ppsSecond h.upd

theorem Kept.t00Tick (h : Kept o s) : Kept o s.t00Tick := by
  unfold State.t00Tick
  split
  · exact h
  · exact h
  · exact h.setT00
  · exact h.setT00

theorem Kept.runAll (h : Kept o s) {on_ : Bool} {a : List Nat} : Kept o (s.runAll on_ a) := by
  fun_induction State.runAll s on_ a
  · exact h
  next ih1 => exact ih1 h.setRun

theorem Kept.tmuGo (h : Kept o s) {who : Agent} {mask : W64} : Kept o (s.tmuGo who mask) := h.runAll
theorem Kept.tmuHalt (h : Kept o s) {who : Agent} {mask : W64} : Kept o (s.tmuHalt who mask) := h.runAll

theorem Kept.snapAll (h : Kept o s) {a : List Nat} : Kept o (s.snapAll a) := by
  fun_induction State.snapAll s a
  · exact h
  next ih1 => exact ih1 h.setReg

theorem Kept.tmuSnap (h : Kept o s) {mask : W64} : Kept o (s.tmuSnap mask) := h.snapAll.setFld

theorem Kept.capture (h : Kept o s) {t : Nat} {fall : Bool} {v : W64} : Kept o (s.capture t fall v) := by
  unfold State.capture
  refine .ite ?_ (Kept.ite (Kept.ite h.setBit h).setBit (.ite h.setBit h)).setReg.setBit
  extract_lets +onlyGivenNames s1 s2 s3
  have hs1 : Kept o s1 := .ite h.setBit h
  have hs3 : Kept o s3 := (Kept.ite hs1.setBit hs1).setReg.setBit
  exact hs3.setReg

theorem Kept.newOff (h : Kept o s) {t : Nat} {fall : Bool} : Kept o (s.newOff t fall) := h.clrBit

theorem Kept.stitchReached (h : Kept o s) : Kept o s.stitchReached := by
  unfold State.stitchReached
  split
  · split
    · exact .ite (.ite h.minuteEdge h.edgeDue) h
    · exact h
  · exact h

theorem Kept.t00Step (h : Kept o s) {ns : W64} : Kept o (s.t00Step ns) := (Kept.ite h.setT00.tapeMark h.setT00).tmrEval.stitchReached
theorem Kept.setPtp (h : Kept o s) {g : Nat} {l : List (Nat × Nat)} : Kept o (s.setPtp g l) := h.upd
theorem Kept.ptpPop (h : Kept o s) {g : Nat} : Kept o (s.ptpPop g) := h.setPtp
theorem Kept.tmrCfgWrite (h : Kept o s) {t : Nat} {data : W64} : Kept o (s.tmrCfgWrite t data) := h.setReg
theorem Kept.tmrCountWrite (h : Kept o s) {t : Nat} {data : W64} : Kept o (s.tmrCountWrite t data) := .ite h h.setReg
theorem Kept.tmrStatWrite (h : Kept o s) {t : Nat} {data : W64} : Kept o (s.tmrStatWrite t data) := (Kept.ite h.tmrMatchOff h).setReg
theorem Kept.tmuWorldWrite (h : Kept o s) {data : W64} : Kept o (s.tmuWorldWrite data) := h.setReg
theorem Kept.t00CtlWrite (h : Kept o s) {data : W64} : Kept o (s.t00CtlWrite data) := .ite h.setFld h.setFld.tapeMark

/-! ### CtlRead.lean -/

theorem Kept.ctlWord (h : Kept o s) {who : Agent} {off : Nat} : Kept o (s.ctlWord who off).1 := by
  unfold State.ctlWord
  split
  · refine .ite_fst h.scanRead ?_
    refine .ite_fst h.drawn ?_
    split
    · exact h.ptpPop
    split
    · exact h.newOff
    · exact h.newOff
    · exact .ite_fst h.setBit.setFld h
    · exact h
  · exact .ite_fst h (.ite_fst h h)
  · exact h
  · exact h
  · exact h
  · exact h

theorem Kept.ctlRead (h : Kept o s) {who : Agent} {off len : Nat} : Kept o (s.ctlRead who off len).1 := by
  unfold State.ctlRead
  split
  · exact h.ctlWord
  · exact h.violation
  · exact h.topEvt

/-! ### CtlWrite.lean -/

theorem Kept.hartPut (h : Kept o s) {who : Agent} {tag : RegTag} {live : Nat} {data : W64} : Kept o (s.hartPut who tag live data) := by
  unfold State.hartPut
  split
  · exact h.setBit
  · exact h
  · exact .ite h.stageReg.showSession.sendFlit h.stageReg.showSession

theorem Kept.lcPut (h : Kept o s) {n o1 : Nat} {data : W64} : Kept o (s.lcPut n o1 data) := by
  unfold State.lcPut
  refine .ite h.doorbell ?_
  refine .ite (.ite (Kept.ite h.setQp h).ringEnable h.ringDisable) ?_
  exact .ite (.ite h.setQp h) (.ite h (.ite h.setQp (.ite h.setQp (.ite h.setQp (.ite h.setQp h.setQp)))))

theorem Kept.mbxPut (h : Kept o s) {ch o1 : Nat} {b : List Byte} : Kept o (s.mbxPut ch o1 b) := .ite h.setMbx h.setMbx

theorem Kept.mbxCsr (h : Kept o s) {ch : Nat} {d : W64} : Kept o (s.mbxCsr ch d) :=
  .ite (Kept.ite h.setMbx.mbxDone h.setMbx).mbxGo (.ite h.setMbx.mbxDone h.setMbx)

theorem Kept.mbxWrite (h : Kept o s) {ch o1 : Nat} {d : W64} : Kept o (s.mbxWrite ch o1 d) := .ite h.mbxCsr (.ite h.mbxPut h)

theorem Kept.aiaPut (h : Kept o s) {off v : Nat} : Kept o (s.aiaPut off v) := by
  unfold State.aiaPut
  split
  · exact .ite h h.upd
  · exact .ite h h.upd
  · exact h

theorem Kept.plainPut (h : Kept o s) {off : Nat} {d : W64} : Kept o (s.plainPut off d) := by
  unfold State.plainPut
  split
  · exact h.setReg
  · exact h

theorem Kept.ppsWrite (h : Kept o s) {k off : Nat} {d : W64} : Kept o (s.ppsWrite k off d) := .ite h.plainPut.setPps h.plainPut
theorem Kept.keyDataWrite (h : Kept o s) {i : Nat} {d : W64} : Kept o (s.keyDataWrite i d) := h.upd
theorem Kept.keyCmdWrite (h : Kept o s) {who : Agent} {d : W64} : Kept o (s.keyCmdWrite who d) := .ite h.keyCmd (.ite h.keyCmd h)
theorem Kept.lrespWrite (h : Kept o s) {d : W64} : Kept o (s.lrespWrite d) := h.lcUnpark.lcSettle
theorem Kept.lcWorldWrite (h : Kept o s) {i off : Nat} {d : W64} : Kept o (s.lcWorldWrite i off d) := h.setReg
theorem Kept.twCmdWrite (h : Kept o s) {who : Agent} {d : W64} : Kept o (s.twCmdWrite who d) := .ite h.twRead (.ite h.twRead (.ite h.twStage h))

theorem Kept.ctlAct (h : Kept o s) {who : Agent} {off : Nat} {d : W64} : KeptOpt o id (s.ctlAct who off d) := by
  unfold State.ctlAct
  refine .firstSome_cons (.ite (.some (.ite h.warmReset h)) .none) ?_
  refine .firstSome_cons (.ite (.some h.scCtlWrite) .none) ?_
  refine .firstSome_cons (.ite (.some h.pwrReqWrite) .none) ?_
  refine .firstSome_cons (.ite (.some h.holdSet) .none) ?_
  refine .firstSome_cons (.ite (.some h.claimHartSet) .none) ?_
  refine .firstSome_cons (.ite (.some h.claimBlkSet) .none) ?_
  refine .firstSome_cons (.ite (.some h.tmuGo) .none) ?_
  refine .firstSome_cons (.ite (.some h.tmuHalt) .none) ?_
  refine .firstSome_cons (.ite (.some h.tmuSnap) .none) ?_
  refine .firstSome_cons (.ite (.some h.tmuWorldWrite) .none) ?_
  refine .firstSome_cons (.ite (.some h.t00Step) .none) ?_
  refine .firstSome_cons (.ite (.some h.t00CtlWrite) .none) ?_
  refine .firstSome_cons (.map fun _ => h.ppsWrite) ?_
  refine .firstSome_cons (.map fun _ => h.tmrCfgWrite) ?_
  refine .firstSome_cons (.map fun _ => h.tmrCountWrite) ?_
  refine .firstSome_cons (.map fun _ => h.tmrCmpSet) ?_
  refine .firstSome_cons (.map fun _ => h.tmrStatWrite) ?_
  refine .firstSome_cons (.ite (.some h.gpiowWrite) .none) ?_
  refine .firstSome_cons (.ite (.some h.spoolWrite) .none) ?_
  refine .firstSome_cons (.ite (.some h.fuseProgWrite) .none) ?_
  refine .firstSome_cons (.map fun _ => h.upd) ?_
  refine .firstSome_cons (.ite (.some h.wdogWrite) .none) ?_
  refine .firstSome_cons (.ite (.some h.injectWrite) .none) ?_
  refine .firstSome_cons (.ite (.some h.headWrite) .none) ?_
  refine .firstSome_cons (.map fun _ => h.plainPut) ?_
  refine .firstSome_cons (.map fun _ => h.plainPut) ?_
  refine .firstSome_cons (.map fun _ => h.plainPut) ?_
  refine .firstSome_cons (.map fun _ => h.plainPut) ?_
  refine .firstSome_cons (.ite (.some h.lrespWrite) .none) ?_
  refine .firstSome_cons (.map fun _ => h.keyDataWrite) ?_
  refine .firstSome_cons (.ite (.some h.keyCmdWrite) .none) ?_
  refine .firstSome_cons (.map fun _ => h.lcWorldWrite) ?_
  refine .firstSome_cons (.map fun _ => h.lcPut) ?_
  refine .firstSome_cons (.ite (.some h.twCmdWrite) .none) ?_
  refine .firstSome_cons (.map fun _ => h.bobCtlWrite) ?_
  refine .firstSome_cons (.map fun _ => h.bobImgSet) ?_
  refine .firstSome_cons (.map fun _ => h.bobLmemSet) ?_
  refine .firstSome_cons (.map fun _ => h.setReg.setHart) ?_
  exact .firstSome_nil

theorem Kept.regPut (h : Kept o s) {who : Agent} {off : Nat} {d : W64} : Kept o (s.regPut who off d) := by
  unfold State.regPut
  split
  · exact h
  split
  · exact .ite h h.hartPut
  exact h.ctlAct.getD h.plainPut

theorem Kept.ctlPut (h : Kept o s) {who : Agent} {off len : Nat} {d : W64} : Kept o (s.ctlPut who off len d) := by
  unfold State.ctlPut
  split
  · exact .ite h.regPut h.topEvt
  · exact .ite h.mbxWrite h.topEvt
  · exact .ite (.ite h.msiFile h) h.topEvt
  · exact h
  · exact .ite h.aiaPut (.ite h.aiaPut.aiaPut h.topEvt)

theorem Kept.ctlStore (h : Kept o s) {who : Agent} {off len : Nat} {d : W64} : Kept o (s.ctlStore who off len d) := by
  unfold State.ctlStore
  split
  · exact h.ctlPut
  · exact h.violation
  · exact h.topEvt

/-! ### Bar.lean -/

theorem Kept.nvmeCc (h : Kept o s) {f v : Nat} : Kept o (s.nvmeCc f v) :=
  (Kept.ite (h.resState h.execNvmeEnable) (.ite (h.resState h.execNvmeDisable) h)).setNvme

theorem Kept.nvmeReg (h : Kept o s) {f o1 len v : Nat} : Kept o (s.nvmeReg f o1 len v) :=
  .ite h.setNvme (.ite h.setNvme (.ite h.nvmeCc (.ite h.setNvme (.ite h.setNvme (.ite h.setNvme h)))))

theorem Kept.setVirtio (h : Kept o s) {f : Nat} {v : VirtioState} : Kept o (s.setVirtio f v) := h.setFn

theorem Kept.virtioStatus (h : Kept o s) {f v : Nat} : Kept o (s.virtioStatus f v) :=
  .ite (h.resState h.execVirtioDeviceReset) (.ite (h.setVirtio.resState h.setVirtio.execVirtioFeaturesOk) h.setVirtio)

theorem Kept.virtioCommon (h : Kept o s) {f o1 len v : Nat} : Kept o (s.virtioCommon f o1 len v) := by
  unfold State.virtioCommon
  refine .ite h.setVirtio ?_
  refine .ite h.setVirtio ?_
  refine .ite (.ite h h.setVirtio) ?_
  refine .ite h.setVirtio ?_
  refine .ite h.virtioStatus ?_
  refine .ite h.setVirtio ?_
  refine .ite h.setVirtio ?_
  exact .ite h.setVirtio (.ite (.ite (h.resState h.execVirtioQueueEnable) h) (.ite h.setVirtio (.ite h.setVirtio (.ite h.setVirtio h))))

theorem Kept.msixWrite (h : Kept o s) {f o1 len v : Nat} : Kept o (s.msixWrite f o1 len v) := .ite (.ite h.setFn.unmask h.setFn) h

theorem Kept.barDoorbell (h : Kept o s) {f off len : Nat} {d : W64} : Kept o (s.barDoorbell f off len d) := by
  unfold State.barDoorbell
  refine .ite (h.resState h.execDoorbellWrite) ?_
  refine .ite (.ite (h.resState h.execVirtioNotification) h) ?_
  exact .ite h.nvmeReg (.ite (h.resState h.execNvmeSqDoorbell) (.ite (h.resState h.execNvmeCqDoorbell) h))

theorem Kept.barWindow (h : Kept o s) {f off len : Nat} {d : W64} : Kept o (s.barWindow f off len d) := by
  unfold State.barWindow
  refine .ite h ?_
  split
  · dsimp only
    split
    · exact h.resState h.execQueueWindowWrite
    refine .ite (h.resState h.execQpEnable) ?_
    refine .ite ?_ h
    split
    · exact h.setQp
    · exact h
  dsimp only
  split
  · exact h.resState h.execQueueWindowWrite
  refine .ite (h.resState h.execQpDisable) ?_
  refine .ite ?_ h
  split
  · exact h.setQp
  · exact h

theorem Kept.barWrite (h : Kept o s) {f off len : Nat} {d : W64} : Kept o (s.barWrite f off len d) := by
  unfold State.barWrite
  refine .ite h.barDoorbell ?_
  refine .ite (.ite (h.resState h.execVfFstatEvtEnWrite) h) ?_
  exact .ite h.msixWrite (.ite (.ite h.mbxPut (.ite h.mbxCsr h)) (.ite (.ite h.barWindow (.ite h.virtioCommon h)) h))

theorem Kept.execRegisterWrite (h : Kept o s) {who : Agent} {tgt : RegTarget} {len : Nat} {data : BitVec 64} :
    KeptRes o (execRegisterWrite who tgt len data s) := by
  refine .next ?_
  split
  · exact h.whenUp fun _ hu => hu.ctlStore
  split
  · exact h.whenFn fun _ hu => .ite hu.barWrite hu
  · exact h

/-! ### Bob.lean -/

theorem Kept.bufPut (h : Kept o s) {e : Nat} {t : StoreEnt} : Kept o (s.bufPut e t) := (Kept.ite h.drainOne h).setEng
theorem Kept.putLocal (h : Kept o s) {e a : Nat} {v : W16} : Kept o (s.putLocal e a v) := h.bufPut

theorem Kept.bufMeet (h : Kept o s) {e : Nat} {window : Bool} {loc n : Nat} : Kept o (s.bufMeet e window loc n).1 := by
  unfold State.bufMeet
  split
  · dsimp only
    split
    · exact .ite_fst h h.drainN
    · exact h.drainN
  dsimp only
  split
  · exact .ite_fst h h.drainN
  · exact h.drainN

theorem Kept.push (h : Kept o s) {e : Nat} {v : W16} : Kept o (s.push e v) := h.putLocal.setEng
theorem Kept.enter (h : Kept o s) {e v ret : Nat} : Kept o (s.enter e v ret) := .ite h.push.push.setEng h.setEng.engHalt
theorem Kept.bobFault (h : Kept o s) {e v cause addr : Nat} : Kept o (s.bobFault e v cause addr) := h.setEng.enter
theorem Kept.bobIllegal (h : Kept o s) {e : Nat} : Kept o (s.bobIllegal e) := h.drawn.bobFault
theorem Kept.bobPriv (h : Kept o s) {e : Nat} : Kept o (s.bobPriv e) := h.drawn.bobFault

theorem Kept.iSpace (h : Kept o s) {e a : Nat} : Kept o (s.iSpace e a).1 := by
  unfold State.iSpace
  refine .ite_fst h ?_
  dsimp only
  split
  · exact h.setEng
  split
  · exact h.setEng
  · exact h.violation
  · exact h
  · exact h

theorem Kept.fetchAll (h : Kept o s) {e a : Nat} {a1 : List W16} : Kept o (s.fetchAll e a a1).1 := by
  fun_induction State.fetchAll s e a a1
  · exact h
  next ih1 => exact ih1 h.iSpace
  · exact h.iSpace
  · exact h.iSpace

theorem Kept.stall (h : Kept o s) {e : Nat} {uses : List Nat} {md : Bool} : Kept o (s.stall e uses md) := .ite h.setEng h

theorem Kept.issue (h : Kept o s) {i : Instr} {uses : List Nat} {md : Bool} {k : Nat → State → State} (hk : ∀ x1 u, Kept o u → Kept o (k x1 u)) :
    Kept o (s.issue i uses md k) := by
  unfold State.issue
  split
  · exact h
  refine h.whenUp fun u hu => ?_
  refine .ite hu ?_
  dsimp only
  split
  · exact hk _ _ hu.fetchAll.stall
  · exact hu
  · exact hu.fetchAll.bobFault

theorem Kept.issueReg (h : Kept o s) {e : Nat} {i : Instr} {uses : List Nat} {f : Engine → Engine} : Kept o (s.issueReg e i uses f) :=
  h.issue fun _ _ hu => hu.setEng

theorem Kept.issueIf (h : Kept o s) {e : Nat} {i : Instr} {ok : Bool} {uses : List Nat} {f : Engine → Engine} : Kept o (s.issueIf e i ok uses f) :=
  h.issue fun _ _ hu => .ite hu.setEng hu.bobIllegal

theorem Kept.dLoadAt (h : Kept o s) {e n : Nat} {a : DLoc} : Kept o (s.dLoadAt e n a).1 := by
  unfold State.dLoadAt
  split
  · exact h
  · split
    next e1 => exact h.bufMeet.of_fst e1
    next e1 => exact h.bufMeet.of_fst e1
  split
  next e1 => exact h.bufMeet.of_fst e1
  rename_i e1
  split
  · exact h.bufMeet.of_fst e1
  · exact (h.bufMeet.of_fst e1).violation
  · exact h.bufMeet.of_fst e1
  · exact h.bufMeet.of_fst e1

theorem Kept.dStoreAt (h : Kept o s) {e : Nat} {w : List W16} {a : DLoc} : Kept o (s.dStoreAt e w a).1 := by
  unfold State.dStoreAt
  split
  · exact h
  · exact h.bufPut
  split
  · exact h.violation
  · exact h
  · exact h.bufPut

theorem Kept.dLoadPair (h : Kept o s) {e a : Nat} : Kept o (s.dLoadPair e a).1 := by
  unfold State.dLoadPair
  split
  · exact h
  refine .ite_fst h.dLoadAt ?_
  dsimp only
  split
  · exact h.dLoadAt
  split
  · exact h.dLoadAt.dLoadAt
  · exact h.dLoadAt.dLoadAt

theorem Kept.dStorePair (h : Kept o s) {e a : Nat} {lo hi : W16} : Kept o (s.dStorePair e a lo hi).1 := by
  unfold State.dStorePair
  split
  · exact h
  refine .ite_fst h.dStoreAt ?_
  dsimp only
  split
  · exact h.dStoreAt
  · exact h.dStoreAt.dStoreAt

theorem Kept.ioGet (h : Kept o s) {e a : Nat} : KeptOpt o Prod.fst (s.ioGet e a) := by
  have word {w : W16} {x : Option (State × W16)} {c : Prop} [Decidable c] (hx : KeptOpt o Prod.fst x) :
      KeptOpt o Prod.fst (if c then some (s, w) else x) := .ite (.some h) hx
  unfold State.ioGet
  refine word (word (word (.ite (.some h.drawn.setEng) ?_)))
  refine word (word (word (word (word (word (word (word (word (word (word (.ite ?_ (word .none))))))))))))
  split
  · exact .some h.setEng
  exact .some h

theorem Kept.ioPut (h : Kept o s) {e a : Nat} {v : W16} : KeptOpt o id (s.ioPut e a v) := by
  unfold State.ioPut
  refine .ite (.some h) ?_
  refine .ite (.some h.setEng) ?_
  refine .ite (.some h.setEng) ?_
  refine .ite (.some h.setEng) ?_
  refine .ite (.some h.setEng) ?_
  refine .ite (.some h.setEng) ?_
  refine .ite (.some h.setEng) ?_
  refine .ite (.some (.ite h.setEng h)) ?_
  refine .ite (.some (.ite h.setEng h)) ?_
  refine .ite (.some (.ite h.setEng h)) ?_
  refine .ite (.some h) ?_
  refine .ite (.some h.mboxPush) ?_
  refine .ite (.some h) ?_
  exact .ite (.some h.setEng) .none

theorem Kept.ctlIn (h : Kept o s) {e off : Nat} : Kept o (s.ctlIn e off).1 := by
  unfold State.ctlIn
  refine .ite_fst h.ctlRead.setEng ?_
  dsimp only
  split
  · exact h.setEng
  · exact h.drawn

theorem Kept.ctlOut (h : Kept o s) {e off : Nat} {v : W16} : Kept o (s.ctlOut e off v).1 := by
  unfold State.ctlOut
  dsimp only
  split
  · exact .ite_fst (.ite_fst h.setEng h.setEng) (.ite_fst (.ite_fst h.setEng.ctlStore h.setEng) (.ite_fst h.setEng h))
  · exact .ite_fst h.setEng (.ite_fst h h)

theorem Kept.ioIn (h : Kept o s) {e a : Nat} : Kept o (s.ioIn e a).1 := by
  unfold State.ioIn
  refine .ite_fst ?_ ?_
  · split
    next e1 => exact h.ioGet _ e1
    · exact h
  split
  · exact h
  · exact h.drainAll.ctlIn

theorem Kept.ioOut (h : Kept o s) {e a : Nat} {v : W16} : Kept o (s.ioOut e a v).1 := by
  unfold State.ioOut
  refine .ite_fst ?_ ?_
  · split
    next e1 => exact h.ioPut _ e1
    · exact h
  split
  · exact h
  · exact h.drainAll.ctlOut

/-! ### BobIsa.lean -/

theorem Kept.bobLoad (h : Kept o s) {e n d a : Nat} : Kept o (s.bobLoad e n d a) := by
  unfold State.bobLoad
  dsimp only
  split
  · exact h.dLoadAt.setEng
  · exact h.dLoadAt.bobFault

theorem Kept.bobStore (h : Kept o s) {e n a : Nat} {v : W16} : Kept o (s.bobStore e n a v) := by
  unfold State.bobStore
  dsimp only
  split
  · exact h.dStoreAt.setEng
  · exact h.dStoreAt.bobFault

theorem Kept.execBLdd (h : Kept o s) {e : Nat} {d b : Fin 16} {disp : BitVec 16} : KeptRes o (execBLdd e d b disp s) := by
  refine .next ?_
  refine h.issue fun x u hu => ?_
  refine .ite hu.bobIllegal ?_
  dsimp only
  split
  · exact hu.dLoadPair.setEng
  · exact hu.dLoadPair.bobFault

theorem Kept.execBStd (h : Kept o s) {e : Nat} {d b : Fin 16} {disp : BitVec 16} : KeptRes o (execBStd e d b disp s) := by
  refine .next ?_
  refine h.issue fun x u hu => ?_
  refine .ite hu.bobIllegal ?_
  dsimp only
  split
  · exact hu.dStorePair.setEng
  · exact hu.dStorePair.bobFault

theorem Kept.bobIn (h : Kept o s) {e n d a : Nat} : Kept o (s.bobIn e n d a) := by
  unfold State.bobIn
  dsimp only
  split
  · exact h.ioIn.setEng
  · exact h.ioIn.bobFault

theorem Kept.bobOut (h : Kept o s) {e n a : Nat} {v : W16} : Kept o (s.bobOut e n a v) := by
  unfold State.bobOut
  dsimp only
  split
  · exact h.ioOut.setEng
  · exact h.ioOut.bobFault

theorem Kept.execBInd (h : Kept o s) {e : Nat} {d b : Fin 16} {disp : BitVec 16} : KeptRes o (execBInd e d b disp s) := by
  refine .next ?_
  refine h.issue fun x u hu => ?_
  refine .ite hu.bobIllegal ?_
  refine .ite hu.bobFault ?_
  dsimp only
  split
  · exact hu.ioIn.bobFault
  split
  · exact hu.ioIn.ioIn.bobFault
  · exact hu.ioIn.ioIn.setEng

theorem Kept.execBOutd (h : Kept o s) {e : Nat} {d b : Fin 16} {disp : BitVec 16} : KeptRes o (execBOutd e d b disp s) := by
  refine .next ?_
  refine h.issue fun x u hu => ?_
  refine .ite hu.bobIllegal ?_
  refine .ite hu.bobFault ?_
  dsimp only
  split
  · exact hu.ioOut.bobFault
  split
  · exact hu.ioOut.ioOut.bobFault
  · exact hu.ioOut.ioOut.setEng

theorem Kept.execBLdp (h : Kept o s) {e : Nat} {d b : Fin 16} {disp : BitVec 16} : KeptRes o (execBLdp e d b disp s) := by
  refine .next ?_
  refine h.issue fun x u hu => ?_
  dsimp only
  split
  · exact hu.iSpace.setEng
  · exact hu.iSpace.bobFault

theorem Kept.pushAll (h : Kept o s) {e : Nat} {a : List Nat} : Kept o (s.pushAll e a) := by
  fun_induction State.pushAll s e a
  · exact h
  next ih1 => exact ih1 h.push

theorem Kept.bobCall (h : Kept o s) {e ret : Nat} {t mask : W16} : Kept o (s.bobCall e ret t mask) := .ite h.bobFault h.push.pushAll.setEng
theorem Kept.pop (h : Kept o s) {e : Nat} : Kept o (s.pop e).1 := h.dLoadAt.setEng

theorem Kept.popAll (h : Kept o s) {e : Nat} {a : List Nat} : Kept o (s.popAll e a) := by
  fun_induction State.popAll s e a
  · exact h
  next ih1 => exact ih1 h.pop.setEng

theorem Kept.bobRet (h : Kept o s) {e : Nat} {l : List Nat} : Kept o (s.bobRet e l) := .ite h.bobFault h.popAll.pop.setEng

theorem Kept.mulDiv (h : Kept o s) {e : Nat} {i : Instr} {ok : Bool} {uses : List Nat} {res : Engine → List (Nat × W16)} :
    Kept o (s.mulDiv e i ok uses res) :=
  h.issue fun _ _ hu => .ite hu.setEng hu.bobIllegal

theorem Kept.execBWaitTimeout (h : Kept o s) {e : Nat} : KeptRes o (execBWaitTimeout e s) := by
  refine .next ?_
  refine h.whenUp fun u hu => ?_
  dsimp only
  split
  · exact .ite hu.setEng hu
  · exact hu

theorem Kept.execMailboxReceive (h : Kept o s) {e : Nat} : KeptRes o (execMailboxReceive e s) := by
  refine .next ?_
  refine h.whenUp fun u hu => ?_
  refine .ite hu ?_
  split
  · exact hu.setEng.emit
  · exact hu.emit

/-! ### BobCop.lean -/

theorem Kept.setCop (h : Kept o s) {e port : Nat} {c : CopSt} : Kept o (s.setCop e port c) := h.setEng

theorem Kept.copIn (h : Kept o s) {e ptr n : Nat} : Kept o (s.copIn e ptr n).1 := by
  unfold State.copIn
  refine .ite_fst h ?_
  dsimp only
  split
  · exact h
  · exact h.violation
  · exact h

theorem Kept.copIns (h : Kept o s) {e : Nat} {a : List (Nat × Nat)} : Kept o (s.copIns e a).1 := by
  fun_induction State.copIns s e a
  · exact h
  · exact h.copIn
  next ih1 => exact ih1 h.copIn

theorem Kept.copOut (h : Kept o s) {e ptr : Nat} {b : List Byte} : Kept o (s.copOut e ptr b).1 := by
  unfold State.copOut
  refine .ite_fst h ?_
  split
  · exact h.violation
  · exact h
  · exact h

theorem Kept.copStart (h : Kept o s) {e port : Nat} {mem : List (Nat × W16)} {regs : List (Nat × Nat)} {acc acc2 : List Byte} :
    Kept o (s.copStart e port mem regs acc acc2) :=
  h.setCop

theorem Kept.copErr (h : Kept o s) {e port : Nat} : Kept o (s.copErr e port) := h.setCop

theorem Kept.copWrite (h : Kept o s) {e port ptr : Nat} {b acc acc2 : List Byte} : Kept o (s.copWrite e port ptr b acc acc2) := by
  unfold State.copWrite
  dsimp only
  split
  · exact h.copOut.copStart
  · exact h.copOut.copErr

theorem Kept.shaCmd (h : Kept o s) {e port num : Nat} : Kept o (s.shaCmd e port num) := by
  unfold State.shaCmd
  split
  · exact h.copStart
  · dsimp only
    split
    next e1 => exact (h.copIn.of_fst e1).copStart
    next e1 => exact (h.copIn.of_fst e1).copErr
  · dsimp only
    split
    · exact h.copWrite
    · exact h.copErr
  · exact h.copErr

theorem Kept.aesCmd (h : Kept o s) {e port num : Nat} : Kept o (s.aesCmd e port num) := by
  unfold State.aesCmd
  refine .ite ?_ (.ite h.copWrite h.copErr)
  split
  · dsimp only
    split
    next e1 =>
      split
      · exact (h.copIns.of_fst e1).copWrite
      · exact (h.copIns.of_fst e1).copErr
    next e1 => exact (h.copIns.of_fst e1).copErr
  dsimp only
  split
  next e1 =>
    split
    · exact (h.copIns.of_fst e1).copWrite
    · exact (h.copIns.of_fst e1).copErr
  next e1 => exact (h.copIns.of_fst e1).copErr

theorem Kept.bigCmd (h : Kept o s) {e port num : Nat} : Kept o (s.bigCmd e port num) := by
  unfold State.bigCmd
  dsimp only
  split
  next e1 =>
    split
    · exact (h.copIns.of_fst e1).copWrite
    · exact (h.copIns.of_fst e1).copErr
  next e1 => exact (h.copIns.of_fst e1).copErr

theorem Kept.crcCmd (h : Kept o s) {e port num : Nat} : Kept o (s.crcCmd e port num) := by
  unfold State.crcCmd
  dsimp only
  split
  next e1 => exact .ite (h.copIn.of_fst e1).copStart (h.copIn.of_fst e1).copErr
  next e1 => exact (h.copIn.of_fst e1).copErr

theorem Kept.parseCmd (h : Kept o s) {e port num : Nat} : Kept o (s.parseCmd e port num) := by
  unfold State.parseCmd
  dsimp only
  split
  next e1 => exact .ite (h.copIn.of_fst e1).drawn.copWrite (h.copIn.of_fst e1).copErr
  next e1 => exact (h.copIn.of_fst e1).copErr

theorem Kept.copCmd (h : Kept o s) {e port num : Nat} {a : CopUnit} : Kept o (s.copCmd e port num a) := by
  unfold State.copCmd
  split
  · exact h.shaCmd
  · exact h.aesCmd
  · exact h.bigCmd
  · exact h.crcCmd
  · exact h.parseCmd

theorem Kept.copFault (h : Kept o s) {e cause : Nat} : Kept o (s.copFault e cause) := h.bobFault
theorem Kept.copWait (h : Kept o s) {e port : Nat} : Kept o (s.copWait e port) := h.setEng
theorem Kept.copRaise (h : Kept o s) {e port : Nat} : Kept o (s.copRaise e port) := h.setCop.copFault

theorem Kept.cpc (h : Kept o s) {i : Instr} {e port num w : Nat} : Kept o (s.cpc i e port num w) := by
  unfold State.cpc
  refine h.issue fun x u hu => ?_
  split
  · exact hu.copFault
  · exact .ite hu.copWait (.ite hu.copRaise hu.copCmd.setEng)

theorem Kept.execCpw (h : Kept o s) {e port : Nat} {num w : Fin 16} : KeptRes o (execCpw e port num w s) := by
  refine .next ?_
  refine h.issue fun x u hu => ?_
  split
  · exact hu.copFault
  extract_lets +onlyGivenNames p c t
  have ht : Kept o t := .ite hu.setCop hu
  exact ht.setEng

theorem Kept.execCpr (h : Kept o s) {e port : Nat} {num w : Fin 16} : KeptRes o (execCpr e port num w s) := by
  refine .next ?_
  refine h.issue fun x u hu => ?_
  split
  · exact hu.copFault
  · exact .ite hu.copWait (.ite hu.copRaise hu.setEng)

theorem Kept.copLand (h : Kept o s) {e : Nat} {a : List (Nat × W16)} : Kept o (s.copLand e a) := by
  fun_induction State.copLand s e a
  · exact h
  next ih1 => exact ih1 h.storeLand

theorem Kept.copFree (h : Kept o s) {e port : Nat} : Kept o (s.copFree e port) := .ite h.setEng h

/-! ### Dram.lean -/

theorem Kept.pprRun (h : Kept o s) {c : Nat} {noSpare done a : List Nat} : Kept o (s.pprRun c noSpare done a) := by
  fun_induction State.pprRun s c noSpare done a
  · exact h
  next ih1 => exact ih1 (.ite h.clrBit.setBit h.clrBit.setBit)
  next ih1 => exact ih1 h

theorem Kept.chanTrain (h : Kept o s) {pop : List DimmInfo} {c : Nat} : Kept o (s.chanTrain pop c) :=
  h.pprRun.setBit.setFld.setFld.setBit.setFld.setFld.setBit

theorem Kept.execDdrTrainingComplete (h : Kept o s) {pop : List DimmInfo} : KeptRes o (execDdrTrainingComplete pop s) := by
  refine .next ?_
  refine .ite ?_ h
  refine .ite h.bootHalt ?_
  refine .ite (h.foldl fun _ _ hx => hx.setFld).bootHalt ?_
  exact .ite (h.foldl fun _ _ hx => hx.setFld).bootHalt (h.foldl fun _ _ hx => hx.chanTrain).upd.setBit.bootGoOn

theorem Kept.eccCorrected (h : Kept o s) {c line : Nat} {l : EccLoc} : Kept o (s.eccCorrected c line l) := by
  unfold State.eccCorrected
  extract_lets +onlyGivenNames k n w _ s1 first s2 s3
  have hs3 : Kept o s3 := .ite h.upd.bump.setBit.setReg h.upd.bump.setBit
  exact (Kept.ite hs3.setReg.setBit hs3).bump.safeEvt.endWaits

theorem Kept.eccUncorrectable (h : Kept o s) {c line : Nat} {l : EccLoc} : Kept o (s.eccUncorrectable c line l) :=
  .ite (.ite h.bump.setBit.setReg h.bump.setBit) (Kept.ite h.bump.setBit.setReg h.bump.setBit).upd

theorem Kept.execScrubRead (h : Kept o s) {c line : Nat} {err : EccErr} : KeptRes o (execScrubRead c line err s) := by
  refine .next ?_
  refine h.whenUp fun u hu => ?_
  refine .ite ?_ hu
  split
  · exact hu.upd
  · exact hu.upd.eccCorrected
  · exact hu.upd.eccUncorrectable

/-! ### HartMem.lean -/

theorem Kept.portErr (h : Kept o s) {n : Nat} : Kept o (s.portErr n) := h.setLink

theorem Kept.busRead (h : Kept o s) {who : Agent} {k : AccKind} {a n : Nat} : Kept o (s.busRead who k a n).1 := by
  unfold State.busRead
  split
  · exact .ite_fst h.ctlRead h
  · exact .ite_fst h h.portErr
  · exact h
  split
  · exact h.drawn
  · exact h.violation
  · exact h
  · exact h

theorem Kept.busWrite (h : Kept o s) {who : Agent} {a : Nat} {b : List Byte} : Kept o (s.busWrite who a b).1 := by
  unfold State.busWrite
  split
  · exact h.ctlStore
  · exact .ite h.hostWrite h.portErr
  · exact h
  split
  · exact h.violation
  · exact h
  · exact h.devWrite.unpoison

theorem Kept.execHartLoad (h : Kept o s) {h1 addr len : Nat} {fetch : Bool} : KeptRes o (execHartLoad h1 addr len fetch s) := by
  refine .next ?_
  refine h.whenUp fun u hu => ?_
  refine .ite hu ?_
  refine .ite hu.hartTrap ?_
  refine .ite hu.hartTrap ?_
  split
  · dsimp only
    split
    · exact hu.busRead.emit
    · exact hu.busRead.hartTrap
    · exact hu.busRead.emit.hartTrap
  dsimp only
  split
  · exact hu.busRead.emit
  · exact hu.busRead.hartTrap
  · exact hu.busRead.emit.hartTrap

theorem Kept.execHartStore (h : Kept o s) {h1 addr : Nat} {bytes : List (BitVec 8)} : KeptRes o (execHartStore h1 addr bytes s) := by
  refine .next ?_
  refine h.whenUp fun u hu => ?_
  refine .ite hu ?_
  refine .ite hu.hartTrap ?_
  dsimp only
  split
  · exact hu.busWrite.hartTrap
  · exact hu.busWrite

theorem Kept.execSystemBusAccess (h : Kept o s) {en : DbgEnable} {addr : Nat} {wr : Option (List (BitVec 8))} {len : Nat} :
    KeptRes o (execSystemBusAccess en addr wr len s) := by
  refine .next ?_
  refine h.whenUp fun u hu => ?_
  refine .ite hu ?_
  split
  · exact .ite hu.busWrite hu.busWrite.emit
  dsimp only
  split
  · exact hu.busRead.emit
  · exact hu.busRead.emit

/-! ### Port.lean -/

theorem Kept.setNumVfs (h : Kept o s) {f n : Nat} : Kept o (s.setNumVfs f n) := h.setFn.flrMany
theorem Kept.setMsixEn (h : Kept o s) {f : Nat} {b : Bool} : Kept o (s.setMsixEn f b) := .ite (h.setFn.foldl fun _ _ hx => hx.unmask) h.setFn
theorem Kept.setAtsEn (h : Kept o s) {f : Nat} {b : Bool} : Kept o (s.setAtsEn f b) := .ite h.setFn h.setFn.upd
theorem Kept.setPriEn (h : Kept o s) {f : Nat} {b : Bool} : Kept o (s.setPriEn f b) := .ite h.setFn h.setFn.upd

theorem Kept.cfgWrite (h : Kept o s) {f : Nat} {a : CfgField} : Kept o (s.cfgWrite f a) := by
  unfold State.cfgWrite
  split
  · exact .ite h.setNumVfs h
  · exact h.setMsixEn
  · exact h.setAtsEn
  · exact .ite h.setPriEn h
  · exact .ite h.setFn h
  · exact h.setFn
  · exact .ite h.setFn h
  · exact .ite h.setFn h

/-! ### Every command -/

theorem Kept.exec (h : Kept o s) (i : Instr) : KeptRes o (exec i s) := by
  cases i with
  | bMov => exact .next h.issueReg
  | bAdd => exact .next h.issueReg
  | bAdc => exact .next h.issueReg
  | bSub => exact .next h.issueReg
  | bSbc => exact .next h.issueReg
  | bAnd => exact .next h.issueReg
  | bOr => exact .next h.issueReg
  | bXor => exact .next h.issueReg
  | bCmp => exact .next h.issueReg
  | bTst => exact .next h.issueReg
  | bMovi => exact .next h.issueReg
  | bAddi => exact .next h.issueReg
  | bAdci => exact .next h.issueReg
  | bSubi => exact .next h.issueReg
  | bSbci => exact .next h.issueReg
  | bAndi => exact .next h.issueReg
  | bOri => exact .next h.issueReg
  | bXori => exact .next h.issueReg
  | bCmpi => exact .next h.issueReg
  | bTsti => exact .next h.issueReg
  | bBset => exact .next h.issueReg
  | bBclr => exact .next h.issueReg
  | bBtgl => exact .next h.issueReg
  | bBtst => exact .next h.issueReg
  | bNot => exact .next h.issueIf
  | bNeg => exact .next h.issueIf
  | bShl => exact .next h.issueReg
  | bShr => exact .next h.issueReg
  | bSar => exact .next h.issueReg
  | bRol => exact .next h.issueReg
  | bRor => exact .next h.issueReg
  | bBrev => exact .next h.issueIf
  | bPar => exact .next h.issueIf
  | bClz => exact .next h.issueIf
  | bSwapb => exact .next h.issueIf
  | bLdi => exact .next h.issueReg
  | bLd => exact .next (h.issue fun _ _ hu => hu.bobLoad)
  | bSt => exact .next (h.issue fun _ _ hu => hu.bobStore)
  | bIn => exact .next (h.issue fun _ _ hu => hu.bobIn)
  | bOut => exact .next (h.issue fun _ _ hu => hu.bobOut)
  | bBcc => exact .next (h.issue fun _ _ hu => .ite hu.bobIllegal (.ite hu.setEng hu.setEng))
  | bJmp => exact .next (h.issue fun _ _ hu => .ite hu.setEng hu.bobIllegal)
  | bJmpr => exact .next (h.issue fun _ _ hu => .ite hu.setEng hu.bobIllegal)
  | bCall => exact .next (h.issue fun _ _ hu => .ite hu.bobCall hu.bobIllegal)
  | bCallr => exact .next (h.issue fun _ _ hu => .ite hu.bobCall hu.bobIllegal)
  | bRet => exact .next (h.issue fun _ _ hu => .ite hu.bobRet hu.bobIllegal)
  | bIret => exact .next (h.issue fun _ _ hu => .ite hu.bobRet hu.bobIllegal)
  | bLdL => exact .next (h.issue fun _ _ hu => hu.bobLoad)
  | bStL => exact .next (h.issue fun _ _ hu => hu.bobStore)
  | bLdd => exact h.execBLdd
  | bStd => exact h.execBStd
  | bInL => exact .next (h.issue fun _ _ hu => hu.bobIn)
  | bOutL => exact .next (h.issue fun _ _ hu => hu.bobOut)
  | bInd => exact h.execBInd
  | bOutd => exact h.execBOutd
  | bLdp => exact h.execBLdp
  | bStp => exact .next (h.issue fun _ _ hu => .ite hu.bobPriv (.ite hu.bobFault hu.setEng))
  | bLdi16 => exact .next h.issueIf
  | bAddi16 => exact .next h.issueIf
  | bCmpi16 => exact .next h.issueIf
  | bCrc32c => exact .next h.issueIf
  | bCrc32cb => exact .next h.issueIf
  | bCrc16 => exact .next h.issueReg
  | bCrc16b => exact .next h.issueReg
  | bParx => exact .next h.issueReg
  | bMul => exact .next h.mulDiv
  | bMuls => exact .next h.mulDiv
  | bMull => exact .next h.mulDiv
  | bDiv => exact .next h.mulDiv
  | bDivs => exact .next h.mulDiv
  | bSetf => exact .next h.issueIf
  | bClrf => exact .next h.issueIf
  | bEi => exact .next (h.issue fun _ _ hu => .ite hu.setEng hu.bobIllegal)
  | bDi => exact .next h.issueIf
  | bWait => exact .next (h.issue fun _ _ hu => .ite hu.bobIllegal (.ite hu.setEng hu.setEng))
  | bWaitTimeout => exact h.execBWaitTimeout
  | bMvbk => exact .next h.issueIf
  | bMvkb => exact .next (h.issue fun _ _ hu => .ite hu.bobIllegal (.ite hu.bobPriv hu.setEng))
  | bTrap => exact .next (h.issue fun _ _ hu => .ite hu.bobIllegal hu.setEng.enter)
  | bHalt => exact .next (h.issue fun _ _ hu => .ite hu.engHalt hu.bobIllegal)
  | bNop => exact .next h.issueIf
  | bRdf => exact .next h.issueIf
  | bWrf => exact .next h.issueIf
  | bSync => exact .next (h.issue fun _ _ hu => .ite hu.bobIllegal (.ite hu.setEng hu.setEng))
  | cpw => exact h.execCpw
  | cpr => exact h.execCpr
  | shaInit => exact .next h.cpc
  | shaUpdate => exact .next h.cpc
  | shaFinal => exact .next h.cpc
  | aesEncrypt => exact .next h.cpc
  | aesDecrypt => exact .next h.cpc
  | aesTag => exact .next h.cpc
  | modmul => exact .next h.cpc
  | modexp => exact .next h.cpc
  | modinv => exact .next h.cpc
  | p384Mul => exact .next h.cpc
  | ntt => exact .next h.cpc
  | intt => exact .next h.cpc
  | polymul => exact .next h.cpc
  | crcRun => exact .next h.cpc
  | descriptorParse => exact .next h.cpc
  | registerWrite => exact h.execRegisterWrite
  | powerOnReset => exact .next (.ite h.upd h)
  | rootpllLock => exact h.execRootpllLock
  | warmRelease => exact .next (.ite h.coldStart.loaderStart h)
  | sysRstPin => exact .next (.ite h.warmReset (.ite h.drawn.warmReset h.drawn))
  | topResetWarm => exact .next (h.whenUp fun _ hu => hu.regTry fun _ hv => .ite hv.warmReset hv)
  | warmReset => exact .next h.warmReset
  | refclkLoss => exact .next h.clockLoss
  | rootpllRelockHoldEnd => exact h.execRootpllRelockHoldEnd
  | pllLockLoss => exact .next (h.whenUp fun _ hu => hu.clrBit.topEvt)
  | pllLockRegain => exact .next (h.whenUp fun _ hu => hu.setBit.topEvt)
  | coreclkStepDown => exact .next (h.whenUp fun _ hu => .ite hu.setFld.setBit.topEvt hu)
  | coreclkStepUp => exact .next (h.whenUp fun _ hu => .ite hu.setFld.setFld hu)
  | perstAssert => exact .next (h.whenUp fun _ hu => .ite (.ite hu.flrMany.linkDrop.emit hu.flrMany.linkDrop.emit.emit) hu)
  | functionLevelReset => exact .next (h.whenUp fun _ hu => .ite hu.flr hu)
  | onafaetPacketArrival => exact h.execOnafaetPacketArrival
  | ceilingWriteRetry => exact h.execCeilingWriteRetry
  | mailboxGo => exact .next (h.whenUp fun _ hu => .ite (hu.mbxTry fun _ hv => hv.mbxGo) hu)
  | mailboxDoneClear => exact .next (h.whenUp fun _ hu => .ite (hu.mbxTry fun _ hv => hv.mbxDone) hu)
  | evtPacketSend => exact h.execEvtPacketSend
  | devInfo => exact h.execDevInfo
  | devReset => exact h.execDevReset
  | devResetDelayExpiry => exact .next (h.whenUp fun _ hu => .ite hu (Kept.ite hu.emit hu).warmReset)
  | evtSubscribe => exact h.execEvtSubscribe
  | fnConfig => exact h.execFnConfig
  | fnReset => exact h.execFnReset
  | qpGrant => exact h.execQpGrant
  | qpRevoke => exact h.execQpRevoke
  | qpQuiesce => exact h.execQpQuiesce
  | qpQuiesceTimeout => exact h.execQpQuiesceTimeout
  | qpResume => exact h.execQpResume
  | qpSchedFunction => exact h.execQpSchedFunction
  | qpSchedAccount => exact h.execQpSchedAccount
  | basteOpen => exact h.execBasteOpen
  | basteWrite => exact h.execBasteWrite
  | basteCheck => exact h.execBasteCheck
  | stitchImmediate => exact h.execStitchImmediate
  | stitchAtTime => exact h.execStitchAtTime
  | stitchAtMinute => exact h.execStitchAtMinute
  | stitchEdge => exact h.execStitchEdge
  | stitchConfirmTimeout => exact h.execStitchConfirmTimeout
  | basteAbort => exact h.execBasteAbort
  | basteStatus => exact h.execBasteStatus
  | basteIdleTimeout => exact h.execBasteIdleTimeout
  | rwbRegisterWrite => exact .next (h.whenUp fun _ hu => hu.ctlStore)
  | tapeRead => exact h.execTapeRead
  | tapeMapFunction => exact h.execTapeMapFunction
  | tapeMapTspace => exact h.execTapeMapTspace
  | tapeMapEnable => exact h.execTapeMapEnable
  | tapeRing => exact h.execTapeRing
  | twinPairPair => exact h.execTwinPairPair
  | twinPairUnpair => exact h.execTwinPairUnpair
  | twinPairRejoin => exact h.execTwinPairRejoin
  | twinPairTimeout => exact h.execTwinPairTimeout
  | twinSyncComplete => exact h.execTwinSyncComplete
  | twinHandoffSwap => exact h.execTwinHandoffSwap
  | twinHandoffRelease => exact h.execTwinHandoffRelease
  | twinHandoffReturn => exact h.execTwinHandoffReturn
  | handoffEdge => exact h.execHandoffEdge
  | releaseComplete => exact .next (h.whenUp fun _ hu => .ite hu hu.releaseEnd.upd.sendFlit)
  | twinGate => exact h.execTwinGate
  | fwWriteImage => exact h.execFwWriteImage
  | fwWriteConfig => exact h.execFwWriteConfig
  | fwActivateSlot => exact h.execFwActivateSlot
  | fwActivateWithdraw => exact h.execFwActivateWithdraw
  | recovery => exact h.execRecovery
  | recoveryResetDelay => exact .next (.ite h.warmReset h)
  | pwrSetBask => exact h.execPwrSetBask
  | pwrSetDoze => exact h.execPwrSetDoze
  | pwrSetBrumate => exact h.execPwrSetBrumate
  | pwrSetHold => exact h.execPwrSetHold
  | pwrStatus => exact h.execPwrStatus
  | moultRunPeriod => exact h.execMoultRunPeriod
  | moultRunSlice => exact h.execMoultRunSlice
  | moultRunFullrate => exact h.execMoultRunFullrate
  | moultStatus => exact h.execMoultStatus
  | keySenderInstall => exact h.execKeySenderInstall
  | keySenderRevoke => exact h.execKeySenderRevoke
  | attest => exact h.execAttest
  | debugUnlockOpen => exact h.execDebugUnlockOpen
  | debugUnlockClose => exact h.execDebugUnlockClose
  | selvWriteAdd => exact h.execSelvWriteAdd
  | selvWriteModify => exact h.execSelvWriteModify
  | selvWriteDelete => exact h.execSelvWriteDelete
  | selvRead => exact h.execSelvRead
  | oemCommand _ _ p => exact h.execOemCommand (params := p)
  | hostPortTrained => exact .next (h.whenUp fun _ hu => .ite hu.setLink hu)
  | doorbellWrite => exact h.execDoorbellWrite
  | shadowPoll => exact h.execShadowPoll
  | shadowReadResult => exact h.execShadowReadResult
  | qpEnable => exact h.execQpEnable
  | qpDisable => exact h.execQpDisable
  | queueWindowWrite => exact h.execQueueWindowWrite
  | vfFstatEvtEnWrite => exact h.execVfFstatEvtEnWrite
  | sqEntryFetch => exact .next (h.whenRing fun _ hu => .ite hu.fetchRing (.ite hu.fetchRing (.ite hu.fetchVnet hu)))
  | nop => exact .next (h.start fun _ _ hx => hx.finish)
  | move => exact .next (h.start fun _ _ hx => hx.startMove)
  | fill => exact .next (h.start fun _ _ hx => hx.startFill)
  | compare => exact .next (h.start fun _ _ hx => hx.startCompare)
  | netTx => exact .next (h.start fun _ _ hx => hx.startNetTx)
  | netRxPost => exact .next (h.start fun _ _ hx => hx.startNetRx)
  | blkRead => exact .next (h.start fun _ _ hx => hx.startBlk fun _ hv => hv.withSrc fun _ _ hx1 => hx1.enqueue)
  | blkWrite => exact .next (h.start fun _ _ hx => hx.startBlk fun _ hv => hv.withSrc fun _ _ hx1 => hx1.enqueue)
  | blkFlush => exact .next (h.start fun _ _ hx => hx.startBlk fun _ hv => hv.enqueue)
  | blkDiscard => exact .next (h.start fun _ _ hx => hx.startBlk fun _ hv => hv.enqueue)
  | dirtySyncSync => exact .next (h.startDirty fun _ _ hx => .ite hx.dirtyEnd hx.dirtyFlush)
  | dirtySyncStart => exact .next (h.startDirty fun _ _ hx => .ite hx.finish hx.setDlog.finish)
  | dirtySyncStop => exact .next (h.startDirty fun _ _ hx => hx.dirtyEnd)
  | dirtyUpdateLate => exact .next (h.whenUp fun _ hu => .ite hu hu.bitmapLost)
  | completionPost => exact .next (h.whenRing fun _ hu => hu.postNext)
  | coalTimeExpiry => exact .next (h.whenRing fun _ hu => .ite hu.ringSignal hu)
  | msixVectorUnmask => exact .next (h.whenFn fun _ hu => .ite hu.unmask hu)
  | drainComplete => exact h.execDrainComplete
  | bucketRefill => exact .next (h.whenUp fun _ hu => hu.refillFns.refillAccts)
  | stitchDispatch => exact h.execStitchDispatch
  | stitchDataWritten => exact h.execStitchDataWritten
  | virtioNotification => exact h.execVirtioNotification
  | nvmeSqDoorbell => exact h.execNvmeSqDoorbell
  | nvmeCqDoorbell => exact h.execNvmeCqDoorbell
  | virtioQueueEnable => exact h.execVirtioQueueEnable
  | virtioFeaturesOk => exact h.execVirtioFeaturesOk
  | virtioDeviceReset => exact h.execVirtioDeviceReset
  | nvmeEnable => exact h.execNvmeEnable
  | nvmeDisable => exact h.execNvmeDisable
  | rxPromisc => exact .next h.ctrl
  | rxAllmulti => exact .next h.ctrl
  | macTableSet => exact .next h.ctrl
  | vlanAdd => exact .next h.ctrl
  | mqVqPairsSet => exact .next h.ctrl
  | mqRssConfig => exact .next (.ite h.ctrl.rssWrite.rssWrite h.ctrl)
  | mqHashConfig => exact .next (.ite h.ctrl.rssWrite.rssWrite h.ctrl)
  | ctrlVqOther => exact .next h.ctrl
  | virtioBlkIn => exact .next (h.takeVblk fun _ _ hx => hx.vblkData)
  | virtioBlkOut => exact .next (h.takeVblk fun _ _ hx => hx.vblkData)
  | virtioBlkFlush => exact .next (h.takeVblk fun _ _ hx => hx.withVolume fun _ hv => hv.enqueue)
  | virtioBlkDiscard => exact .next (h.takeVblk fun _ _ hx => hx.vblkRanges)
  | virtioBlkWriteZeroes => exact .next (h.takeVblk fun _ _ hx => hx.vblkRanges)
  | virtioBlkUnsupported => exact .next (h.takeVblk fun _ _ hx => hx.finish)
  | nvmeIdentify => exact h.execNvmeIdentify
  | nvmeGetLogPage => exact .next (h.takeAdmin fun _ _ hx => .ite hx.drawn.adminData (.ite hx.setNvme.adminData (.ite hx.drawn.adminData hx.finish)))
  | nvmeSetFeatures => exact h.execNvmeSetFeatures
  | nvmeGetFeatures => exact h.execNvmeGetFeatures
  | nvmeCreateIoSq => exact h.execNvmeCreateIoSq
  | nvmeCreateIoCq => exact h.execNvmeCreateIoCq
  | nvmeDeleteIoSq => exact h.execNvmeDeleteIoSq
  | nvmeDeleteIoCq => exact h.execNvmeDeleteIoCq
  | nvmeAbort => exact h.execNvmeAbort
  | nvmeAsyncEventRequest => exact h.execNvmeAsyncEventRequest
  | nvmeDoorbellBufferConfig => exact .next (h.takeAdmin fun _ _ hx => .ite hx.finish hx.setNvme.shadowAll.finish)
  | nvmeKeepAlive => exact .next (h.takeAdmin fun _ _ hx => hx.finish)
  | nvmeRead => exact .next (h.takeNvme fun _ _ hx => hx.nvmeData)
  | nvmeWrite => exact .next (h.takeNvme fun _ _ hx => hx.nvmeData)
  | nvmeFlush => exact .next (h.takeNvme fun _ _ hx => hx.nvmeVol fun _ hv => hv.enqueue)
  | nvmeWriteZeroes => exact .next (h.takeNvme fun _ _ hx => hx.nvmeData)
  | nvmeDatasetManagement => exact .next (h.takeNvme fun _ _ hx =>
      hx.nvmeVol fun _ hv => .ite hv.finish (.ite hv.finish (.ite hv.finish hv.enqueueRanges)))
  | nvmeInvalidOpcode => exact .next (h.takeNvme fun _ _ hx => hx.finish)
  | beqWorkItem => exact h.execBeqWorkItem
  | moveToHost => exact .next h.moveRsp
  | moveFromHost => exact .next h.moveRsp
  | moved => exact h.execMoved
  | complete => exact .next (h.whenPanel fun _ hu => hu.withWork fun _ _ hx => .ite hx.rspTaken.setBeq hx.rspTaken.workDone)
  | atsCompletion => exact h.execAtsCompletion
  | pageRequestGroupSend => exact h.execPageRequestGroupSend
  | atsInvalidate => exact .next (h.whenUp fun _ hu => hu.upd.invalSweep)
  | pageRequestResponse => exact h.execPageRequestResponse
  | priTimeout => exact h.execPriTimeout
  | cplTimeout => exact .next (h.whenUp fun _ hu => hu.cplTimeout.invalSweep)
  | iotinvalVma => exact .next (h.whenUp fun _ hu => hu.iommuDrop)
  | iotinvalGvma => exact .next (h.whenUp fun _ hu => hu.iommuDrop)
  | iodirInvalDdt => exact .next (h.whenUp fun _ hu => hu.iommuDrop)
  | iodirInvalPdt => exact .next (h.whenUp fun _ hu => hu.iommuDrop)
  | iofenceC => exact h.execIofenceC
  | shutLresp => exact .next (h.whenUp fun _ hu => hu.regTry fun _ hv => hv.lcUnpark.lcSettle)
  | lfltTimeout => exact h.execLfltTimeout
  | lcDoorbell => exact .next (h.whenUp fun _ hu => hu.regTry fun _ hv => .ite hv.doorbell hv.topEvt)
  | lcEnable => exact .next (h.whenUp fun _ hu => hu.regTry fun _ hv => .ite (Kept.ite hv.setQp hv).ringEnable hv.ringDisable)
  | keyLoad => exact .next (h.whenUp fun _ hu => hu.keyCmd)
  | keyClear => exact .next (h.whenUp fun _ hu => hu.keyCmd)
  | frameReceive => exact .next (h.whenPanel fun _ hu => .ite hu (.ite hu.netDrop (.ite hu.netDrop hu.pipeline.pfcUpdate)))
  | missLookupComplete => exact h.execMissLookupComplete
  | missAge => exact h.execMissAge
  | learnIdleExpiry => exact .next (h.whenUp fun _ hu => hu.upd)
  | ctTimeout => exact h.execCtTimeout
  | reinjectEntry => exact h.execReinjectEntry
  | frameTransmit => exact h.execFrameTransmit
  | pfcReceive => exact .next (h.whenPanel fun _ hu => .ite hu hu.upd)
  | pfcPauseEnd => exact .next (h.whenUp fun _ hu => hu.upd)
  | selvSweepComplete => exact .next (h.whenUp fun _ hu => .ite hu hu.upd.clrBit.histTrim)
  | selvTwReadLive => exact .next (h.whenUp fun _ hu => hu.twRead)
  | selvTwReadStaged => exact .next (h.whenUp fun _ hu => hu.twRead)
  | selvTwAdd => exact .next (h.whenUp fun _ hu => hu.twStage)
  | selvTwModify => exact .next (h.whenUp fun _ hu => hu.twStage)
  | selvTwDelete => exact .next (h.whenUp fun _ hu => hu.twStage)
  | tapeBankFlip => exact .next (.ite h h.minuteEdge.endWaits)
  | tapeIncrement => exact h.execTapeIncrement
  | qpSlotTick => exact .next (h.whenUp fun _ hu => hu.slotTick)
  | tapeDrain => exact .next (h.whenUp fun _ hu => .ite hu (.ite hu.setBit (Kept.ite hu.clrBit.setIdle.tapeEvt hu.clrBit).upd))
  | tapeRecordWrite => exact h.execTapeRecordWrite
  | peerMarkerTimeout => exact .next (h.whenUp fun _ hu => .ite hu.upd hu)
  | tapeHeadWrite => exact .next (h.whenUp fun _ hu => hu.regTry fun _ hv => hv.headWrite)
  | peerIncrement => exact .next (h.whenUp fun _ hu => .ite hu.peerInc hu)
  | cutMarker => exact .next (h.whenUp fun _ hu => .ite hu hu.upd.skewCheck)
  | correctedError => exact .next (h.whenUp fun _ hu => hu.bump.safeEvt.endWaits)
  | dangerousFaultDetect => exact .next (h.whenUp fun _ hu => .ite hu.detect hu)
  | sequencerWatchdogExpiry => exact .next (h.whenUp fun _ hu => .ite hu.detect hu)
  | deviceWatchdogExpiry => exact .next (h.whenUp fun _ hu => .ite hu.faultOut.warmReset hu)
  | safeWdogKick => exact .next (h.whenUp fun _ hu => hu.regTry fun _ hv => hv.wdogWrite)
  | safeWdogEnable => exact .next (h.whenUp fun _ hu => hu.regTry fun _ hv => hv.wdogWrite)
  | safeInject => exact .next (h.whenUp fun _ hu => hu.regTry fun _ hv => hv.injectWrite)
  | voltageMonitorTrip => exact .next (h.whenUp fun _ hu => .ite hu.detect hu)
  | galvelFlitReceive => exact h.execGalvelFlitReceive
  | galvelAckTimeout => exact .next (h.whenUp fun _ hu => .ite hu hu.linkDown)
  | galvelLinkTrained => exact .next (h.whenUp fun _ hu => .ite hu hu.setBit.setFld.galvEvt.upd.resendAll.quadsAuto)
  | heartbeatSend => exact .next (h.whenUp fun _ hu => .ite hu.sendFlit hu)
  | heartbeatTimeout => exact .next (h.whenUp fun _ hu => .ite hu.upd (.ite hu.upd.takeover (.ite hu.upd.takeover (.ite hu.upd.linkLoss hu.upd))))
  | admitEntry => exact .next h.journal
  | issue => exact .next h.journal
  | commit => exact .next (h.whenUp fun _ hu => .ite hu (.ite hu.journal.upd.trailIn hu.journal.upd))
  | counts => exact .next (.ite h.journal.countsCame h)
  | release => exact .next h.journal
  | wmark => exact .next (h.whenUp fun _ hu => .ite hu.wmarks hu)
  | goodbye => exact .next (h.whenUp fun _ hu => .ite hu hu.clrBit.waitsEnd.handoffFail.upd.galvEvt)
  | twinFaultInRise => exact .next (.ite h (h.setBit.whenUp fun _ hu => hu.takeover))
  | aliveLoss => exact .next (.ite h (h.clrBit.whenUp fun _ hu => .ite hu (.ite hu.takeover (.ite hu.galvEvt hu.takeover))))
  | settleExpiry => exact .next (h.whenUp fun _ hu => .ite hu hu.upd.reconcileAll)
  | reconcileRetry => exact .next (h.whenRing fun _ hu => .ite hu (.ite hu.reconcile (.ite hu.trailIn hu)))
  | fenceInRise => exact .next (.ite h (h.setBit.clrBit.clrBit.setFld.upd.whenUp fun _ hu => .ite hu.quietAll.upd.warmReset hu.quietAll.upd))
  | fenceInFall => exact .next (.ite h (h.clrBit.whenUp fun _ hu => .ite hu (.ite hu.upd.setRole.anaSet.portsTrain hu.upd.setRole.anaSet)))
  | fenceHoldExpiry => exact .next (h.whenUp fun _ hu => .ite hu.warmReset hu)
  | mworldWrite => exact .next (h.whenUp fun _ hu => hu.mCsr fun _ hv => .ite hv.setHart hv)
  | claimHartWrite => exact .next (h.whenUp fun _ hu => hu.regTry fun _ hv => hv.claimHartSet)
  | claimBlkWrite => exact .next (h.whenUp fun _ hu => hu.regTry fun _ hv => hv.claimBlkSet)
  | gpioWorldWrite => exact .next (h.whenUp fun _ hu => hu.regTry fun _ hv => hv.gpiowWrite)
  | getVersion => exact .next (h.spdmReq fun _ hu => hu.setSpdm.spdmSend)
  | getCapabilities => exact .next (h.spdmReq fun _ hu => hu.setSpdm.spdmSend)
  | negotiateAlgorithms => exact .next (h.spdmReq fun _ hu => .ite hu.setSpdm.spdmSend hu.spdmErr)
  | getDigests => exact .next (h.spdmReq fun _ hu => hu.spdmSend)
  | getCertificate => exact .next (h.spdmReq fun _ hu => .ite hu.spdmErr hu.spdmSend)
  | challenge => exact .next (h.spdmReq fun _ hu => .ite hu.spdmErr hu.drawn.spdmSend)
  | getMeasurements _ _ _ b => exact h.execGetMeasurements (nonce := b)
  | keyExchange => exact .next (h.spdmReq fun _ hu => .ite hu.spdmErr hu.setSpdm.drawn.spdmSend)
  | finish => exact .next (h.spdmReq fun _ hu => .ite hu.spdmErr (.ite hu.setSpdm.spdmSend hu.setSpdm.spdmErr))
  | keyUpdate => exact .next (h.spdmIn fun _ hu => .ite hu.spdmSend hu.spdmErr)
  | spdmHeartbeat => exact .next (h.spdmIn fun _ hu => hu.spdmSend)
  | endSession => exact .next (h.spdmIn fun _ hu => hu.setSpdm.spdmSend)
  | ideKm => exact h.execIdeKm
  | ideIntegrityFailure => exact h.execIdeIntegrityFailure
  | htapeacctWrite => exact h.execHtapeacctWrite
  | mcachectlInv => exact .next (h.whenUp fun _ hu => hu.mCsr fun _ hv => hv.mcachectl)
  | mcachectlWbinv => exact .next (h.whenUp fun _ hu => hu.mCsr fun _ hv => hv.mcachectl)
  | mcachectlEnable => exact .next (h.whenUp fun _ hu => hu.mCsr fun _ hv => hv.mcachectl)
  | mpowerreqWrite => exact .next (h.whenUp fun _ hu => hu.mCsr fun _ hv => hv.mpowerreq)
  | scCtlInv => exact .next (h.whenUp fun _ hu => hu.regTry fun _ hv => hv.scCtlWrite)
  | scCtlEnable => exact .next (h.whenUp fun _ hu => hu.regTry fun _ hv => hv.scCtlWrite)
  | cboClean => exact .next h.cboRead
  | cboFlush => exact .next h.cboRead
  | cboInval => exact .next h.cboRead
  | cboZero => exact h.execCboZero
  | bobCtlRun => exact .next (h.whenUp fun _ hu => .ite (hu.regTry fun _ hv => hv.bobRun) hu)
  | bobCtlStop => exact .next (h.whenUp fun _ hu => .ite (hu.regTry fun _ hv => hv.bobStop) hu)
  | bobImgWrite => exact .next (h.whenUp fun _ hu => .ite (hu.regTry fun _ hv => hv.bobImgSet) hu)
  | bobLmemWrite => exact .next (h.whenUp fun _ hu => .ite (hu.regTry fun _ hv => hv.bobLmemSet) hu)
  | rportRead => exact .next (h.whenUp fun _ hu => .ite hu hu.ctlRead.setEng)
  | rportWrite => exact .next (h.whenUp fun _ hu => .ite hu hu.ctlStore.setEng)
  | mailboxSend => exact .next (h.whenUp fun _ hu => .ite hu.mboxPush hu)
  | mailboxReceive => exact h.execMailboxReceive
  | localTimerMatch => exact .next (h.whenUp fun _ hu => .ite hu.engLine hu)
  | bobbinInterrupt => exact .next (h.whenUp fun _ hu => .ite hu.enter hu)
  | storeBufferDrain => exact .next (h.whenUp fun _ hu => .ite hu.drainOne hu)
  | muldivResult => exact .next (h.whenUp fun _ hu => .ite hu.setEng hu)
  | coprocessorDone => exact .next (h.whenUp fun _ hu => .ite hu.copLand.setCop.copFree hu)
  | thimbleStart => exact .next (.ite (h.memClear.devWrite.foldl fun _ _ hx => hx.thimbleLoad).upd.bootCode h)
  | thimbleBodyVerdict => exact h.execThimbleBodyVerdict
  | bistComplete => exact .next (.ite (.ite h.bootHalt h.setBit.bootGoOn) h)
  | ddrTrainingComplete => exact h.execDdrTrainingComplete
  | bootWatchdogExpiry => exact .next (.ite h.bootHalt h)
  | spoolUngate => exact .next (h.whenUp fun _ hu => hu.regTry fun _ hv => hv.spoolWrite)
  | spoolRetry => exact .next (h.whenUp fun _ hu => hu.regTry fun _ hv => hv.spoolWrite)
  | spoolFail => exact .next (h.whenUp fun _ hu => hu.regTry fun _ hv => hv.spoolWrite)
  | fuseBurnKeyhash => exact .next h.fuseGo
  | fuseBurnRevoke => exact .next h.fuseGo
  | fuseBurnSvnT => exact .next h.fuseGo
  | fuseBurnSvnP => exact .next h.fuseGo
  | fuseBurnDebugPolicy => exact .next h.fuseGo
  | fuseBurnFactoryKeyOff => exact .next h.fuseGo
  | fuseBurnComplete => exact h.execFuseBurnComplete
  | timerTick => exact .next (.ite h.t00Tick (h.whenUp fun _ hu => .ite hu.setReg hu))
  | timerMatch => exact .next (h.whenUp fun _ hu => .ite hu hu.tmrEval)
  | tmuGo => exact .next (h.whenUp fun _ hu => hu.regTry fun _ hv => hv.tmuGo)
  | tmuHalt => exact .next (h.whenUp fun _ hu => hu.regTry fun _ hv => hv.tmuHalt)
  | tmuSnap => exact .next (h.whenUp fun _ hu => hu.regTry fun _ hv => hv.tmuSnap)
  | tmrCmpWrite => exact .next (h.whenUp fun _ hu => .ite hu (hu.regTry fun _ hv => hv.tmrCmpSet))
  | tmrMatchClear => exact .next (h.whenUp fun _ hu => .ite hu (hu.regTry fun _ hv => hv.tmrMatchOff))
  | timerCapture => exact .next (h.whenUp fun _ hu => .ite hu hu.capture)
  | tmrCaptureRead => exact .next (h.whenUp fun _ hu => .ite hu (.ite hu.emit.newOff (hu.regTry fun _ hv => hv.emit.newOff)))
  | t00Step => exact .next (h.whenUp fun _ hu => hu.regTry fun _ hv => hv.t00Step)
  | ptpTimestamp => exact .next (h.whenUp fun _ hu => .ite hu (.ite hu.setBit hu.setPtp))
  | ptpTimestampPop => exact .next (h.whenUp fun _ hu => .ite hu (hu.regTry fun _ hv => hv.emit.ptpPop))
  | ptmRequest => exact .next (h.whenUp fun _ hu => .ite hu hu.upd.emit)
  | ptmResponse => exact .next (h.whenUp fun _ hu => .ite hu hu.upd.setReg.setReg.setReg.setFld.setFld)
  | ppsFall => exact .next (h.whenUp fun _ hu => .ite hu.setPps hu)
  | pwrReqBask => exact .next (h.whenUp fun _ hu => hu.pwrReqGo)
  | pwrReqDoze => exact .next (h.whenUp fun _ hu => hu.pwrReqGo)
  | pwrReqBrumate => exact .next (h.whenUp fun _ hu => hu.pwrReqGo)
  | pwrReqHold => exact .next (h.whenUp fun _ hu => hu.pwrReqGo)
  | croak => exact .next (h.whenUp fun _ hu => hu.regTry fun _ hv => hv.pwrReqWrite)
  | powerEntryStart => exact h.execPowerEntryStart
  | pointOfNoReturn => exact .next (h.whenUp fun _ hv => .ite (.ite hv.setUnit.moultAbandon hv.setUnit) hv)
  | powerEntryComplete => exact h.execPowerEntryComplete
  | unitWake => exact .next (h.whenUp fun _ hv => .ite hv.wakeUnit hv)
  | wakeReady => exact .next (h.whenUp fun _ hv => .ite hv.unitReady hv)
  | laneActivityWake => exact .next (h.whenUp fun _ hv => .ite hv.quadWake hv)
  | croakDetect => exact .next (h.whenUp fun _ hv => .ite hv.quadWake hv)
  | holdEnter => exact .next (h.whenUp fun _ hu => hu.regTry fun _ hv => hv.holdSet)
  | scanRead => exact .next (h.whenUp fun _ hu => hu.regTry fun _ hv => hv.scanRead.emit)
  | moultSliceTestStart => exact .next (h.whenUp fun _ hu => .ite hu (.ite (.ite hu hu.upd) (.ite hu.testBegin hu)))
  | moultRedirect => exact h.execMoultRedirect
  | moultMarchComplete => exact h.execMoultMarchComplete
  | moultWayTest => exact .next (h.whenUp fun _ hu => .ite hu.wakeUnit hu)
  | scrubRead => exact h.execScrubRead
  | dramInitBlock => exact .next (h.whenUp fun _ hu => .ite (.ite hu.upd.setBit hu.upd) hu)
  | ddrPowerDown => exact .next (h.whenUp fun _ hu => .ite hu.upd hu)
  | thermtrip => exact .next (.ite h h.coreReset.upd)
  | porNFall => exact .next h.portsDown.powerOff
  | machineTimerInterrupt => exact .next (h.whenUp fun _ hu => .ite hu (.ite hu.setHart.wakeUnit hu.setHart))
  | hartLoad => exact h.execHartLoad
  | hartStore => exact h.execHartStore
  | wfi => exact .next (h.whenUp fun _ hu => .ite hu.setHart hu)
  | configSpaceWrite => exact .next (h.whenFn fun _ hu => .ite hu.cfgWrite hu)
  | haltRequest => exact h.execHaltRequest
  | systemBusAccess => exact h.execSystemBusAccess

end

/-- Settles O3: the command at the front of the queue runs on the queue's rest, and `Kept.exec` says what its outcome keeps. -/
theorem stepsKeepCanonicalForm : Obligations.StepsKeepCanonicalForm := by
  intro s t hs
  cases hp : s.pending with
  | nil =>
    rw [step, hp] at hs
    cases hs
    exact ⟨hp, id⟩
  | cons c cs =>
    rw [step, hp] at hs
    exact (Kept.refl (s := { s with pending := cs })).exec c t hs

end Sys2Proof.Machine
end

section
/-!
O20. A warm reset, part by part: the steps before the registers' own reset leave them alone, and `regsReset` writes each listed register once, in
rising order, with the part that `coldPart` keeps.
-/

namespace Sys2Proof.Machine

/-! ### The steps before the registers -/

theorem State.portsDown_shape (s : State) : ∃ out : List OutEvent, s.portsDown = { s with out } := by
  unfold State.portsDown
  suffices h : ∀ (l : SMap PortSt) (t : State), (∃ out, t = { s with out }) →
      ∃ out, l.foldl (fun (t : State) e => if e.2.trained then t.emit (.portDown e.1) else t) t = { s with out } from h _ _ ⟨s.out, rfl⟩
  intro l
  induction l with
  | nil => exact fun _ h => h
  | cons e l ih =>
    rintro _ ⟨out, rfl⟩
    refine ih _ ?_
    dsimp only
    split
    · exact ⟨.portDown e.1 :: out, rfl⟩
    · exact ⟨out, rfl⟩

theorem State.burnCut_shape (s : State) : ∃ (freeCtr : Nat) (fuse : FuseState) (burn : Option _),
    s.burnCut = { s with freeCtr, spool := { s.spool with fuse, burn } } := by
  unfold State.burnCut
  split
  · exact ⟨_, _, _, rfl⟩
  · exact ⟨_, _, _, rfl⟩

theorem State.setBank_nonce {s : State} {b : Bool} {x : TapeBank} : (s.setBank b x).tape.nonce = s.tape.nonce := by
  cases b <;> rfl

theorem State.tapeReset_nonce {s : State} : s.tapeReset.tape.nonce = s.tape.nonce := State.setBank_nonce

/-! ### Registers written in rising order -/

/-- `t` is `s` but for the control registers. -/
def State.SameButRegs (s t : State) : Prop := ∃ regs : SMap W64, t = { s with regs }

theorem State.SameButRegs.setReg {s t : State} {off : Nat} {v : W64} : s.SameButRegs t → s.SameButRegs (t.setReg off v) := by
  rintro ⟨regs, rfl⟩
  exact ⟨_, rfl⟩

theorem State.SameButRegs.setFld {s t : State} {f : Fld} {v : Nat} (h : s.SameButRegs t) : s.SameButRegs (t.setFld f v) := h.setReg

theorem State.SameButRegs.foldl_setReg {s : State} {g : Nat → W64 → W64} {l : SMap W64} : ∀ {t : State}, s.SameButRegs t →
    s.SameButRegs (l.foldl (fun (t : State) e => t.setReg e.1 (g e.1 e.2)) t) := by
  induction l with
  | nil => exact id
  | cons e l ih => exact fun h => ih h.setReg

theorem State.reg_foldl_setReg_below {g : Nat → W64 → W64} {off : Nat} : ∀ {l : SMap W64} {lo : Nat} {s : State}, smRising lo l = true → off < lo →
    (l.foldl (fun (t : State) e => t.setReg e.1 (g e.1 e.2)) s).reg off = s.reg off
  | [], _, _, _, _ => rfl
  | (k, v) :: l, lo, s, h, hlo => by
    simp only [smRising, Bool.and_eq_true, decide_eq_true_eq] at h
    rw [List.foldl_cons, State.reg_foldl_setReg_below h.2 (by omega)]
    exact State.reg_setReg_ne (by omega)

/-- Where each listed register is written once, an offset reads `g` of what the list holds for it, if it so read of the default. -/
theorem State.reg_foldl_setReg {g : Nat → W64 → W64} {off : Nat} : ∀ {l : SMap W64} {lo : Nat} {s : State}, smRising lo l = true →
    s.reg off = g off (regReset off) →
    (l.foldl (fun (t : State) e => t.setReg e.1 (g e.1 e.2)) s).reg off = g off (smGet (regReset off) l off)
  | [], _, _, _, hs => hs
  | (k, v) :: l, lo, s, h, hs => by
    simp only [smRising, Bool.and_eq_true, decide_eq_true_eq] at h
    rw [List.foldl_cons, smGet]
    split
    · next e =>
      subst e
      rw [State.reg_foldl_setReg_below h.2 (by omega)]
      exact State.reg_setReg_self
    · next ne => exact State.reg_foldl_setReg h.2 (by rw [State.reg_setReg_ne ne, hs])

/-! ### The registers' reset -/

theorem coldPart_regReset (off : Nat) : coldPart off (regReset off) = regReset off := by
  unfold coldPart
  split
  · rw [← BitVec.and_or_distrib_left, BitVec.or_not_self, BitVec.and_allOnes]
  · rfl

theorem State.sameButRegs_regsReset (s : State) : s.SameButRegs s.regsReset := by
  have h1 : s.SameButRegs (s.regs.foldl (fun (t : State) e => t.setReg e.1 (coldPart e.1 e.2)) { s with regs := [] }) :=
    State.SameButRegs.foldl_setReg ⟨[], rfl⟩
  unfold State.regsReset
  extract_lets s1 s2 s3
  have h3 : s.SameButRegs s3 := h1.setFld.setFld.setFld.setFld.setFld
  split
  · exact h3.setFld
  · exact h3

theorem State.reg_regsReset {s : State} {off : Nat} (hs : smRising 0 s.regs = true) (ht : off ≠ R.TAPE_STATUS.off) (hg : off ≠ R.GALV_STATUS.off) :
    s.regsReset.reg off = coldPart off (s.reg off) := by
  unfold State.regsReset
  extract_lets s1 s2 s3
  have h1 : s1.reg off = coldPart off (s.reg off) := State.reg_foldl_setReg hs (coldPart_regReset off).symm
  have h2 : s2.reg off = s1.reg off := by rw [State.reg_setFld_ne ht, State.reg_setFld_ne ht]
  have h3 : s3.reg off = s2.reg off := by rw [State.reg_setFld_ne hg, State.reg_setFld_ne hg, State.reg_setFld_ne hg]
  rw [← h1, ← h2, ← h3]
  split
  · exact State.reg_setFld_ne hg
  · rfl

/-- Settles O20: the registers by `State.reg_regsReset`, the parts that are kept by the shapes of the steps before it. -/
theorem warmResetRegisters : Obligations.WarmResetRegisters := by
  intro s hs
  obtain ⟨-, -, hregs⟩ := (tidy_iff s).1 hs
  simp only [smWf, Bool.and_eq_true] at hregs
  obtain ⟨out, hp⟩ := s.portsDown_shape
  obtain ⟨freeCtr, fuse, burn, hb⟩ := State.burnCut_shape { s with out }
  let u : State := { s with out, freeCtr, spool := { s.spool with fuse, burn } }
  obtain ⟨regs, hr⟩ := u.tapeReset.sameButRegs_regsReset
  have hreg {off : Nat} := State.reg_regsReset (off := off) (s := u.tapeReset) hregs.1
  have hu : s.portsDown.burnCut = u := by rw [hp, hb]
  unfold State.coreReset
  rw [hu]
  refine ⟨fun off ht hg => hreg ht hg, ?_⟩
  rw [hr]
  exact ⟨rfl, rfl, State.tapeReset_nonce, rfl, rfl, rfl, rfl, rfl, rfl, rfl, rfl⟩

end Sys2Proof.Machine
end

section
/-!
O31. A write to control space: judged by its tag (`ctlStore_of_reg`), dropped where it is narrow (`ctlPut_narrow`), else taken by the register
(`regPut_plain`, `regPut_live`); a configuration write that reaches its function.
-/

namespace Sys2Proof.Machine

/-! ### The commands -/

theorem exec_registerWrite {who : Agent} {tgt : RegTarget} {len : Nat} {d : W64} {s : State} :
    exec (.registerWrite who tgt len d) s = execRegisterWrite who tgt len d s := rfl

theorem exec_rwbRegisterWrite {h off len : Nat} {d : W64} {s : State} :
    exec (.rwbRegisterWrite h off len d) s = execRwbRegisterWrite h off len d s := rfl

theorem exec_configSpaceWrite {f : Nat} {fld : CfgField} {s : State} : exec (.configSpaceWrite f fld) s = execConfigSpaceWrite f fld s := rfl

theorem exec_hostPortTrained {n : Nat} {s : State} : exec (.hostPortTrained n) s = execHostPortTrained n s := rfl

/-! ### Control space -/

section

variable {s : State} {who : Agent} {off len : Nat} {d : W64} {t : RegTag} {def_ : RegDef}

theorem exec_registerWrite_ctl (hup : s.up = true) : exec (.registerWrite who (.ctl off) len d) s = .next (s.ctlStore who off len d) := by
  simp only [exec_registerWrite, execRegisterWrite, State.whenUp, hup, if_true]

theorem exec_rwbRegisterWrite_up {h : Nat} (hup : s.up = true) : exec (.rwbRegisterWrite h off len d) s = .next (s.ctlStore (.hart h) off len d) := by
  simp only [exec_rwbRegisterWrite, execRwbRegisterWrite, State.whenUp, hup, if_true]

theorem State.ctlStore_none (ha : ctlArea off = .none) : s.ctlStore who off len d = s.topEvt R.TOP_STATUS.UNMAPPED := by
  simp only [State.ctlStore, State.ctlJudge, ha]

/-- A write to a register is taken or refused by the register's tag. -/
theorem State.ctlStore_of_reg (ha : ctlArea off = .reg) (h8 : off % 8 = 0) (ht : regTag off = some t) :
    s.ctlStore who off len d = if s.tagAdmits t off who then s.ctlPut who off len d else s.violation who .write 4 0x7F off := by
  have ho : off / 8 * 8 = off := by omega
  simp only [State.ctlStore, State.ctlJudge, ha, ho, ht, CtlJudge.byTag, Bool.not_true, Bool.false_and, Bool.or_false]
  cases s.tagAdmits t off who with
  | true => rfl
  | false => rfl

theorem State.ctlStore_admitted (ha : ctlArea off = .reg) (h8 : off % 8 = 0) (ht : regTag off = some t) (hadm : s.tagAdmits t off who = true) :
    s.ctlStore who off len d = s.ctlPut who off len d := by
  rw [State.ctlStore_of_reg ha h8 ht, if_pos hadm]

theorem State.ctlPut_narrow (ha : ctlArea off = .reg) (hlen : len ≠ 8) : s.ctlPut who off len d = s.topEvt R.TOP_STATUS.NARROW_WR := by
  simp only [State.ctlPut, ha, hlen, decide_false, Bool.false_and, Bool.false_eq_true, if_false]

theorem State.ctlPut_whole (ha : ctlArea off = .reg) (h8 : off % 8 = 0) : s.ctlPut who off 8 d = s.regPut who off d := by
  simp only [State.ctlPut, ha, h8, decide_true, Bool.and_self, if_true]

theorem State.regPut_plain (hf : regFind off = some (def_, false)) (hl : def_.live = none) (hact : s.ctlAct who off d = none) :
    s.regPut who off d = s.setReg off (writeFlds def_.flds (s.reg off) d) := by
  simp only [State.regPut, hf, hl, hact, Option.getD_none, State.plainPut]

theorem State.regPut_live {k : Nat} (hf : regFind off = some (def_, false)) (hl : def_.live = some k) :
    s.regPut who off d = s.hartPut who def_.tag (off + k) d := by
  simp only [State.regPut, hf, hl, Bool.false_eq_true, if_false]

theorem regTag_of_regFind {b : Bool} (hf : regFind off = some (def_, b)) : regTag off = some def_.tag := by
  rw [regTag, hf]
  rfl

/-- A whole write that the tag admits reaches the register. -/
theorem State.ctlStore_whole {b : Bool} (ha : ctlArea off = .reg) (h8 : off % 8 = 0) (hf : regFind off = some (def_, b))
    (hadm : s.tagAdmits def_.tag off who = true) : s.ctlStore who off 8 d = s.regPut who off d := by
  rw [State.ctlStore_admitted ha h8 (regTag_of_regFind hf) hadm, State.ctlPut_whole ha h8]

end

/-! ### Staging by a hart -/

section

variable {s : State} {who : Agent} {ltag : Bool} {ss : Session} {tag : RegTag} {live : Nat} {d : W64}

theorem State.hartStage_no_session (h : s.openSession = none) : s.hartStage who ltag = .ignored := by
  simp only [State.hartStage, h]

theorem State.hartStage_foreign_owner (h : s.openSession = some ss) (h34 : ss.ownerCh ≠ 34) (h35 : ss.ownerCh ≠ 35) :
    s.hartStage who ltag = .foreign := by
  simp [State.hartStage, h, h34, h35]

theorem State.hartStage_armed (h : s.openSession = some ss) (h34 : ss.ownerCh = 34) (ha : ss.armed.isSome = true) :
    s.hartStage who ltag = .ignored := by
  simp [State.hartStage, h, h34, ha]

theorem State.hartStage_shell_door (h : s.openSession = some ss) (h34 : ss.ownerCh = 34) (ha : ss.armed = none) (hl : s.linkLost = false) :
    s.hartStage who false = .staged := by
  simp [State.hartStage, h, h34, ha, hl]

theorem State.hartPut_ignored (h : s.hartStage who (tag == .l) = .ignored) : s.hartPut who tag live d = s := by
  simp only [State.hartPut, h]

theorem State.hartPut_foreign (h : s.hartStage who (tag == .l) = .foreign) :
    s.hartPut who tag live d = s.setBit R.ONF_BASTE_STAT.FOREIGN_WR := by
  simp only [State.hartPut, h]

theorem State.hartPut_staged (h : s.hartStage who (tag == .l) = .staged) (hm : s.mirrored = false) :
    s.hartPut who tag live d = (s.stageReg (live, d)).showSession := by
  simp only [State.hartPut, h, hm, Bool.false_and, Bool.false_eq_true, if_false]

end

/-! ### Configuration space and ports -/

section

variable {s : State} {f n : Nat} {b : Bool}

theorem exec_configSpaceWrite_reached {fld : CfgField} (h : s.fnReady f) : exec (.configSpaceWrite f fld) s = .next (s.cfgWrite f fld) := by
  obtain ⟨hup, hpanel, hreach⟩ := h
  simp [exec_configSpaceWrite, execConfigSpaceWrite, State.whenFn, State.whenPanel, hup, hpanel, hreach]

theorem exec_configSpaceWrite_unreached {fld : CfgField} (h : s.fnReachable f = false) : exec (.configSpaceWrite f fld) s = .next s := by
  simp [exec_configSpaceWrite, execConfigSpaceWrite, State.whenFn, State.whenPanel, h]

/-- Where no VF of the port is in reach, a write of NumVFs resets none. -/
theorem State.setNumVfs_unreachable (h : ∀ v, v ∈ s.vfsOn (f - 0x1000) → s.fnReachable v = false) :
    s.setNumVfs f n = s.setFn f { s.fn f with numVfs := n } := by
  have hnone : (s.vfsOn (f - 0x1000)).filter (fun v => s.fnReachable v) = [] :=
    List.filter_eq_nil_iff.2 fun v hv => by rw [h v hv]; exact Bool.false_ne_true
  simp only [State.setNumVfs, hnone, List.filter_nil, State.flrMany]

end

/-! ### The obligation -/

/-- What a hart's write to a basted register does is what `hartPut` does. -/
theorem exec_rwbRegisterWrite_live {s : State} {off h k : Nat} {d : W64} {def_ : RegDef} (hup : s.up = true) (h8 : off % 8 = 0)
    (ha : ctlArea off = .reg) (hf : regFind off = some (def_, false)) (hl : def_.live = some k) (hadm : s.tagAdmits def_.tag off (.hart h) = true) :
    exec (.rwbRegisterWrite h off 8 d) s = .next (s.hartPut (.hart h) def_.tag (off + k) d) := by
  rw [exec_rwbRegisterWrite_up hup, State.ctlStore_whole ha h8 hf hadm, State.regPut_live hf hl]

/-- Settles O31: the clauses of control space from `ctlStore`, those of a basted register from `hartStage`, then the configuration writes. -/
theorem registerAndConfigWrites : Obligations.RegisterAndConfigWrites := by
  refine ⟨fun s who off len h k d def_ t ss hup h8 => ⟨fun ha => ?unmapped, fun ha => ⟨fun hf hl hadm hact => ?plain, fun ht href => ?refused,
    fun hopen hlen => ?narrow, fun hf hl hadm hses => ?session, fun hf hl hadm hses => ?noSession⟩⟩, fun s f n b => ?config⟩
  case unmapped => rw [exec_registerWrite_ctl hup, State.ctlStore_none ha, State.topEvt]
  case plain => rw [exec_registerWrite_ctl hup, State.ctlStore_whole ha h8 hf hadm, State.regPut_plain hf hl hact]
  case refused =>
    rw [exec_registerWrite_ctl hup, State.ctlStore_of_reg ha h8 ht, href]
    rfl
  case narrow =>
    obtain ⟨t', ht, hadm⟩ := hopen
    rw [exec_registerWrite_ctl hup, State.ctlStore_admitted ha h8 ht hadm, State.ctlPut_narrow ha hlen, State.topEvt]
  case session =>
    rw [exec_rwbRegisterWrite_live hup h8 ha hf hl hadm]
    refine ⟨fun h34 harm hlost htag hmir => ?_, fun h34 h35 => ?_, fun harm h34 => ?_⟩
    · rw [State.hartPut_staged _ hmir]
      rw [beq_eq_false_iff_ne.2 htag]
      exact State.hartStage_shell_door hses h34 harm hlost
    · rw [State.hartPut_foreign (State.hartStage_foreign_owner hses h34 h35)]
    · rw [State.hartPut_ignored (State.hartStage_armed hses h34 harm)]
  case noSession =>
    rw [exec_rwbRegisterWrite_live hup h8 ha hf hl hadm, State.hartPut_ignored (State.hartStage_no_session hses)]
  case config =>
    refine ⟨fun hr => exec_configSpaceWrite_reached hr, fun hr => exec_configSpaceWrite_reached hr, fun hr hpf => ?_, fun hr hpf hvf => ?_,
      fun hr hpf => ?_, fun _ hun => exec_configSpaceWrite_unreached hun, fun hup hn hon hpl hg => ?_, fun hup hoff => ?_⟩
    · rw [exec_configSpaceWrite_reached hr, State.cfgWrite, if_pos hpf]
    · rw [exec_configSpaceWrite_reached hr, State.cfgWrite, if_pos hpf, State.setNumVfs_unreachable hvf]
    · rw [exec_configSpaceWrite_reached hr, State.cfgWrite, if_neg (by simp [hpf])]
    · simp [exec_hostPortTrained, execHostPortTrained, State.whenUp, hup, hn, hon, hpl, hg]
    · simp [exec_hostPortTrained, execHostPortTrained, State.whenUp, hup, hoff]

end Sys2Proof.Machine
end

section
/-!
O2. The machine at power-on. Its maps are empty, so every part reads its default; the registers' reset values come from the table.
-/

namespace Sys2Proof.Machine

theorem reg_reset (off : Nat) : State.reset.reg off = regReset off := rfl

theorem regReset_TMR_COUNT : ∀ t < 64, regReset (R.TMR_COUNT.off t) = 0 := by decide +kernel

theorem regReset_TMU_RUN : regReset R.TMU_RUN.off = 1 := by decide +kernel

theorem role_reset : State.reset.role = 0 := by decide +kernel

theorem tmrRunning_reset {t : Nat} (h : 1 ≤ t) : State.reset.tmrRunning t = false := by
  have h0 : t ≠ 0 := by omega
  simp [State.tmrRunning, reg_reset, regReset_TMU_RUN, h0]

theorem panelHeld_reset (p : Nat) : State.reset.panelHeld p = false := by
  have h : (State.reset.role == 3) = false := by rw [role_reset]; rfl
  rw [State.panelHeld, h]
  simp [State.reset]

/-- Settles O2: the empty maps read their defaults, and the registers the table's reset values. -/
theorem resetState : Obligations.ResetState := by
  refine ⟨rfl, rfl, rfl, rfl, rfl, rfl, rfl, rfl, role_reset, reg_reset, ?claim, ?boot, ?dbg, fun t h1 h64 => ⟨?_, ?_, rfl⟩, fun _ => ⟨rfl, rfl⟩,
    fun _ => ⟨rfl, rfl⟩, fun u => ?_, panelHeld_reset, fun _ => ⟨rfl, rfl, rfl⟩⟩
  case claim | boot | dbg => decide +kernel
  · exact tmrRunning_reset h1
  · exact regReset_TMR_COUNT t h64
  · simp only [State.unitState, panelHeld_reset]
    exact ite_self _

end Sys2Proof.Machine
end

section
/-!
What a command does to one field or register of control space: the facts about `topEvt`, and that TOP_RSTCAUSE is COLD.
-/

namespace Sys2Proof.Machine

section

variable {s t : State}

theorem State.reg_of_regs (h : t.regs = s.regs) {off : Nat} : t.reg off = s.reg off := by
  simp only [State.reg, h]

theorem State.fld_of_reg {f : Fld} (h : t.reg f.off = s.reg f.off) : t.fld f = s.fld f := by
  simp only [State.fld, h]

theorem State.bit_of_fld {f : Fld} (h : t.fld f = s.fld f) : t.bit f = s.bit f := by
  simp only [State.bit, h]

theorem State.fld_topEvt {f g : Fld} : (s.topEvt f).fld g = (s.setBit f).fld g := State.fld_of_reg (State.reg_of_regs (State.event_regs _ _))

/-- An event sets its own bit. -/
theorem State.bit_topEvt_self {f : Fld} (hf : f.lo + f.w ≤ 64) (hw : 0 < f.w) : (s.topEvt f).bit f = true := by
  rw [State.bit_of_fld State.fld_topEvt, State.bit_setBit_self hf hw]

/-- An event leaves the other fields. -/
theorem State.fld_topEvt_disj {f g : Fld} (hg : g.lo + g.w ≤ 64) (hd : g.lo + g.w ≤ f.lo ∨ f.lo + f.w ≤ g.lo) : (s.topEvt f).fld g = s.fld g := by
  rw [State.fld_topEvt, State.setBit, State.fld_setFld_disj hg hd]

theorem State.fld_topEvt_ne {f g : Fld} (h : g.off ≠ f.off) : (s.topEvt f).fld g = s.fld g := by
  rw [State.fld_topEvt, State.setBit, State.fld_setFld_ne h]

theorem State.fld_lt {f : Fld} : s.fld f < 2 ^ f.w := Nat.mod_lt _ (Nat.two_pow_pos _)

/-- The phases in which the core-side logic runs. -/
theorem State.phase_of_up (h : s.up = true) : s.sys.phase = .starting ∨ s.sys.phase = .running ∨ ∃ c, s.sys.phase = .halted c := by
  unfold State.up at h
  split at h
  · next hp => exact .inl hp
  · next hp => exact .inr (.inl hp)
  · next c hp => exact .inr (.inr ⟨c, hp⟩)
  · exact absurd h Bool.false_ne_true

theorem State.whenUp_of_up {f : State → State} (h : s.up = true) : s.whenUp f = f s := by
  simp only [State.whenUp, h, if_true]

theorem State.regTry_of_opens {who : Agent} {k : AccKind} {off : Nat} {f : State → State} (h : s.opens who off) : s.regTry who k off f = f s := by
  obtain ⟨tag, htag, hadm⟩ := h
  simp only [State.regTry, htag, hadm, if_true]

end

/-- The value of a COLD register outlasts a warm reset. -/
theorem coldPart_of_cold {off : Nat} {v : W64} (h : (regFind off).all (fun e => e.1.cold) = true) : coldPart off v = v := by
  unfold coldPart
  split
  · next d b hd =>
    have hc : d.cold = true := by simpa [hd] using h
    rw [RegDef.coldMask, if_pos hc, BitVec.and_allOnes, BitVec.not_allOnes, BitVec.and_zero, BitVec.or_zero]
  · rfl

theorem regFind_TOP_RSTCAUSE_cold : (regFind R.TOP_RSTCAUSE.off).all (fun e => e.1.cold) = true := by decide +kernel

theorem causeFld_off (c : RstCause) : (causeFld c).off = R.TOP_RSTCAUSE.off := by
  cases c <;> rfl

theorem State.bit_setBit_causeFld {s : State} (c : RstCause) : (s.setBit (causeFld c)).bit (causeFld c) = true := by
  cases c <;> exact State.bit_setBit_self (by decide) (by decide)

end Sys2Proof.Machine
end

section
/-!
How the Spool loader starts (R24, R372, R381), in the cold sequence and after a warm reset: it looks for a slot and writes its own registers
(`LoaderWrites`), and then it streams the slot's body or halts (`bootHalt_shape`).
-/

namespace Sys2Proof.Machine

/-! ### The loader's writes -/

/-- `t` is `s` but for registers of the loader, which TOP_RSTCAUSE is not, the loader's own state, and draws. -/
def State.LoaderWrites (s t : State) : Prop :=
  (∃ (freeCtr : Nat) (regs : SMap W64) (spool : SpoolState), t = { s with freeCtr, regs, spool }) ∧ t.reg R.TOP_RSTCAUSE.off = s.reg R.TOP_RSTCAUSE.off

namespace State.LoaderWrites

variable {s t u : State} {f : Fld} {v : Nat}

theorem refl : s.LoaderWrites s := ⟨⟨_, _, _, rfl⟩, rfl⟩

theorem setFld (h : s.LoaderWrites t) (hf : R.TOP_RSTCAUSE.off ≠ f.off) : s.LoaderWrites (t.setFld f v) := by
  obtain ⟨⟨_, _, _, rfl⟩, hr⟩ := h
  exact ⟨⟨_, _, _, rfl⟩, (State.reg_setFld_ne hf).trans hr⟩

theorem drawn (h : s.LoaderWrites t) : s.LoaderWrites t.drawn := by
  obtain ⟨⟨_, _, _, rfl⟩, hr⟩ := h
  exact ⟨⟨_, _, _, rfl⟩, hr⟩

theorem setSpool (h : s.LoaderWrites t) {spool : SpoolState} : s.LoaderWrites { t with spool } := by
  obtain ⟨⟨_, _, _, rfl⟩, hr⟩ := h
  exact ⟨⟨_, _, _, rfl⟩, hr⟩

theorem ite {c : Prop} [Decidable c] (ht : s.LoaderWrites t) (hu : s.LoaderWrites u) : s.LoaderWrites (if c then t else u) := by
  split
  · exact ht
  · exact hu

theorem bootCode (h : s.LoaderWrites t) : s.LoaderWrites (t.bootCode v) := h.setFld (by decide)

theorem debugSync (h : s.LoaderWrites t) : s.LoaderWrites t.debugSync := (h.setFld (by decide)).setFld (by decide)

theorem judgeSlot (h : s.LoaderWrites t) {k : Nat} : s.LoaderWrites (t.judgeSlot k) := by
  have hk : R.TOP_RSTCAUSE.off ≠ R.SPOOL_SLOTSTAT.off k := by
    unfold R.TOP_RSTCAUSE.off R.SPOOL_SLOTSTAT.off
    omega
  exact .ite h (.ite ((h.setFld hk).setFld hk) (((((h.setFld hk).setFld hk).setFld hk).setFld hk).setFld hk))

end State.LoaderWrites

/-! ### Where the loader's start ends -/

/-- A halt stops the engines and harts, gates the outputs and shows its code; recovery may change which keys answer. -/
theorem State.bootHalt_shape (s : State) (c : Nat) : ∃ (regs : SMap W64) (keys : SMap SenderKey),
    s.bootHalt c = { s.enginesStop with
      regs, harts := [], onf := { s.onf with keys }, sys := { s.sys with phase := .halted c, gated := true, aliveOut := false } } ∧
    (s.bootHalt c).reg R.TOP_RSTCAUSE.off = s.reg R.TOP_RSTCAUSE.off := by
  have hcode : (s.enginesStop.hartsStop.bootCode c).reg R.TOP_RSTCAUSE.off = s.reg R.TOP_RSTCAUSE.off := State.reg_setFld_ne (by decide)
  unfold State.bootHalt
  extract_lets s1 s2
  split
  · exact ⟨_, _, rfl, (State.reg_setFld_ne (by decide)).trans hcode⟩
  · exact ⟨_, _, rfl, hcode⟩

/-- The choice of a slot ends in a chosen slot or in a halt. -/
theorem State.slotChoice_cases {s u : State} (h : s.LoaderWrites u) : ∃ t, s.LoaderWrites t ∧ (u.slotChoice = t ∨ ∃ c, u.slotChoice = t.bootHalt c) := by
  unfold State.slotChoice
  extract_lets _ u0 u1
  have h0 : s.LoaderWrites u0 := h.setSpool
  have h1 : s.LoaderWrites u1 := h0.judgeSlot.judgeSlot
  split
  · exact ⟨u0, h0, .inr ⟨_, rfl⟩⟩
  split
  · exact ⟨u0, h0, .inr ⟨_, rfl⟩⟩
  split
  · refine ⟨_, ?_, .inl rfl⟩
    exact (((h1.setFld (by decide)).setFld (by decide)).setFld (by decide)).bootCode
  · exact ⟨u1, h1, .inr ⟨_, rfl⟩⟩

theorem State.loaderStart_cases (s : State) : ∃ t, State.LoaderWrites { s with sys := { s.sys with phase := .starting, gated := true } } t ∧
    (s.loaderStart = t ∨ ∃ c, s.loaderStart = t.bootHalt c) := by
  unfold State.loaderStart
  extract_lets _ _ s1 s2 s3
  have h1 : State.LoaderWrites { s with sys := { s.sys with phase := .starting, gated := true } } s1 := State.LoaderWrites.refl.setSpool
  have h3 : State.LoaderWrites { s with sys := { s.sys with phase := .starting, gated := true } } s3 :=
    (((h1.debugSync.setFld (by decide)).setFld (by decide)).setFld (by decide)).bootCode
  split
  · exact ⟨s3.drawn, h3.drawn, .inr ⟨_, rfl⟩⟩
  · exact State.slotChoice_cases h3.drawn

/-- A phase in which the core-side logic runs after a reset: the loader is at work, or has halted the device. -/
def Phase.booted (p : Phase) : Prop := p = .starting ∨ ∃ c, p = .halted c

/-- All that the loader's start can change. It wakes nothing, and TOP_RSTCAUSE stays. -/
theorem State.loaderStart_shape (s : State) :
    ∃ (freeCtr : Nat) (regs : SMap W64) (keys : SMap SenderKey) (engs : SMap Engine) (harts : SMap Hart) (phase : Phase) (aliveOut : Bool) (spool : SpoolState),
      s.loaderStart = { s with
        freeCtr, regs, engs, harts, spool, onf := { s.onf with keys }, sys := { s.sys with phase, gated := true, aliveOut } } ∧
      phase.booted ∧ (s.engs = [] → engs = []) ∧ (s.harts = [] → harts = []) ∧ (s.sys.aliveOut = false → aliveOut = false) ∧
      s.loaderStart.reg R.TOP_RSTCAUSE.off = s.reg R.TOP_RSTCAUSE.off := by
  obtain ⟨t, ⟨⟨_, _, _, rfl⟩, hr⟩, hchosen | ⟨c, hhalted⟩⟩ := s.loaderStart_cases
  · rw [hchosen]
    exact ⟨_, _, _, _, _, _, _, _, rfl, .inl rfl, id, id, id, hr⟩
  · rw [hhalted]
    obtain ⟨_, _, heq, hreg⟩ := State.bootHalt_shape _ c
    rw [hreg, heq]
    exact ⟨_, _, _, _, _, _, _, _, rfl, .inr ⟨c, rfl⟩, fun h => by rw [h]; rfl, fun _ => rfl, fun _ => rfl, hr⟩

end Sys2Proof.Machine
end

section
/-!
O19. A warm reset, whatever asked for it, leaves a blank device (`Blank`), keeps its cause, and lets the loader start.
-/

namespace Sys2Proof.Machine

/-! ### A blank device -/

/-- What a device that was `s` holds after a warm reset (R25): nothing but what the hosts keep, T00 and BOOT_NONCE.
That memory reads as empty is the model's choice (log entry 2). -/
def State.Blank (s t : State) : Prop :=
  t.mem = [] ∧ t.fns = [] ∧ t.qps = [] ∧ t.engs = [] ∧ t.harts = [] ∧ t.spdm = [] ∧ t.hostMem = s.hostMem ∧
    t.sys.gated = true ∧ t.sys.aliveOut = false ∧ t.tmu.t00 = s.tmu.t00 ∧ t.tape.nonce = s.tape.nonce

theorem State.blank_coreReset {s : State} (hs : s.tidy = true) : s.Blank s.coreReset := by
  obtain ⟨-, hhost, ht00, hnonce, -, -, -, -, -, -, -, hmem⟩ := warmResetRegisters s hs
  exact ⟨hmem, rfl, rfl, rfl, rfl, rfl, hhost, rfl, rfl, ht00, hnonce⟩

theorem State.bit_coreReset_causeFld {s : State} (hs : s.tidy = true) (c : RstCause) : s.coreReset.bit (causeFld c) = s.bit (causeFld c) := by
  obtain ⟨hreg, -⟩ := warmResetRegisters s hs
  refine State.bit_of_fld (State.fld_of_reg ?_)
  rw [causeFld_off, hreg _ (by decide) (by decide), coldPart_of_cold regFind_TOP_RSTCAUSE_cold]

theorem State.sys_coreReset_aonBackup (s : State) : s.coreReset.sys.aonBackup = s.sys.aonBackup := by
  obtain ⟨out, hp⟩ := s.portsDown_shape
  obtain ⟨freeCtr, fuse, burn, hb⟩ := State.burnCut_shape { s with out }
  obtain ⟨regs, hr⟩ := (s.portsDown.burnCut.tapeReset).sameButRegs_regsReset
  unfold State.coreReset
  rw [hr, hp, hb]
  rfl

/-! ### The reset ends -/

theorem State.resetEnds_booted (s : State) : s.resetEnds.sys.phase.booted ∧ s.resetEnds.sys.aonBackup = s.sys.aonBackup := by
  unfold State.resetEnds
  obtain ⟨_, _, _, _, _, _, _, _, heq, hphase, -⟩ := State.loaderStart_shape { s with sys := { s.sys with faultOut := s.sys.faultOut && s.role == 3 } }
  rw [heq]
  exact ⟨hphase, rfl⟩

theorem State.Blank.resetEnds {s t : State} (h : s.Blank t) : s.Blank t.resetEnds := by
  obtain ⟨hmem, hfns, hqps, hengs, hharts, hspdm, hhost, -, halive, ht00, hnonce⟩ := h
  unfold State.resetEnds
  obtain ⟨_, _, _, _, _, _, _, _, heq, -, hengs', hharts', halive', -⟩ :=
    State.loaderStart_shape { t with sys := { t.sys with faultOut := t.sys.faultOut && t.role == 3 } }
  rw [heq]
  exact ⟨hmem, hfns, hqps, hengs' hengs, hharts' hharts, hspdm, hhost, rfl, halive' halive, ht00, hnonce⟩

theorem State.bit_resetEnds_causeFld (s : State) (c : RstCause) : s.resetEnds.bit (causeFld c) = s.bit (causeFld c) := by
  obtain ⟨_, _, _, _, _, _, _, _, -, -, -, -, -, hreg⟩ := State.loaderStart_shape { s with sys := { s.sys with faultOut := s.sys.faultOut && s.role == 3 } }
  refine State.bit_of_fld (State.fld_of_reg ?_)
  rw [causeFld_off]
  exact hreg

/-! ### The sources -/

/-- A device that has been reset for cause `c` and boots again. -/
def State.Restarted (s t : State) (c : RstCause) : Prop := s.Blank t ∧ t.sys.phase.booted ∧ t.bit (causeFld c) = true

theorem State.warmReset_of_up {s : State} (h : s.up = true) (c : RstCause) : s.warmReset c = (s.setBit (causeFld c)).coreReset.resetEnds := by
  unfold State.warmReset
  obtain hp | hp | ⟨_, hp⟩ := State.phase_of_up h <;> rw [hp]

theorem State.restarted_warmReset {s : State} (h : s.up = true) (hs : s.tidy = true) (c : RstCause) : s.Restarted (s.warmReset c) c := by
  have hs' : (s.setBit (causeFld c)).tidy = true := (Kept.refl.setBit).2 hs
  have hblank : s.Blank (s.setBit (causeFld c)).coreReset := State.blank_coreReset hs'
  rw [State.warmReset_of_up h]
  refine ⟨hblank.resetEnds, (State.resetEnds_booted _).1, ?_⟩
  rw [State.bit_resetEnds_causeFld, State.bit_coreReset_causeFld hs', State.bit_setBit_causeFld]

theorem State.safeRecord_shape (s : State) (mech cls panel tile unit detail : Nat) :
    ∃ (regs : SMap W64) (onf : OnfState), s.safeRecord mech cls panel tile unit detail = { s with regs, onf } := by
  have hcap : s.SameButRegs (((s.bump R.SAFE_STATUS.DF_COUNT 1).setFld R.SAFE_STATUS.LAST_CLASS cls).safeCapture mech cls panel tile unit detail) := by
    have h : s.SameButRegs ((s.bump R.SAFE_STATUS.DF_COUNT 1).setFld R.SAFE_STATUS.LAST_CLASS cls) := State.SameButRegs.setFld (.setFld ⟨s.regs, rfl⟩)
    unfold State.safeCapture
    split
    · exact h
    · exact h.setReg.setReg
  unfold State.safeRecord
  extract_lets s1 s2
  have h2 : s.SameButRegs s2 := by
    dsimp only [s2]
    split
    · exact hcap.setFld
    · exact hcap
  obtain ⟨_, h2⟩ := h2
  obtain ⟨_, _, h3⟩ := s2.safeEvt_shape R.SAFE_STATUS.DF_EVT
  exact ⟨_, _, by rw [h3, h2]⟩

/-- The state that the loss of a clock resets (R22). -/
def State.clockFault (s : State) : State :=
  (State.safeRecord { s with sys := { s.sys with aonBackup := true } } 8 5 0 9 0 0).setBit (causeFld .clock)

theorem State.clockLoss_of_up {s : State} (h : s.up = true) :
    s.clockLoss = { s.clockFault.coreReset with sys := { s.clockFault.coreReset.sys with phase := .clockHold false, faultOut := true } } := by
  unfold State.clockLoss
  obtain hp | hp | ⟨_, hp⟩ := State.phase_of_up h <;> rw [hp] <;> rfl

theorem State.blank_clockFault {s : State} (hs : s.tidy = true) :
    s.Blank s.clockFault.coreReset ∧ s.clockFault.coreReset.sys.aonBackup = true ∧ s.clockFault.coreReset.bit (causeFld .clock) = true := by
  have hs' : s.clockFault.tidy = true := (Kept.refl.upd.safeRecord.setBit).2 hs
  obtain ⟨_, _, heq⟩ := State.safeRecord_shape { s with sys := { s.sys with aonBackup := true } } 8 5 0 9 0 0
  have hblank := State.blank_coreReset hs'
  have haon := s.clockFault.sys_coreReset_aonBackup
  refine ⟨?_, ?_, ?_⟩
  · unfold State.clockFault at hblank ⊢
    rw [heq] at hblank ⊢
    exact hblank
  · rw [haon, State.clockFault, heq]
    rfl
  · rw [State.bit_coreReset_causeFld hs', State.clockFault, State.bit_setBit_causeFld]

/-! ### The commands -/

theorem exec_warmReset {s : State} {c : RstCause} : exec (.warmReset c) s = .next (s.warmReset c) := rfl

theorem exec_sysRstPin {s : State} {lowNs : Nat} (h : 1000 ≤ lowNs) : exec (.sysRstPin lowNs) s = .next (s.warmReset .pin) := by
  change execSysRstPin lowNs s = _
  rw [execSysRstPin, if_pos h]

theorem exec_topResetWarm {s : State} {who : Agent} {data : W64} (hup : s.up = true) (hopen : s.opens who R.TOP_RESET.off) :
    exec (.topResetWarm who data) s = .next (if getBit data 0 && getBits data 16 16 == 0xA5C3 then s.warmReset .soft else s) := by
  change execTopResetWarm who data s = _
  rw [execTopResetWarm, State.whenUp_of_up hup, State.regTry_of_opens hopen]

theorem exec_devResetDelayExpiry {s : State} (hup : s.up = true) (hd : s.onf.resetDelay.isSome = true) :
    exec .devResetDelayExpiry s = .next ((if s.role = 2 then s.emit .goodbye else s).warmReset .onafaet) := by
  change execDevResetDelayExpiry s = _
  rw [execDevResetDelayExpiry, State.whenUp_of_up hup]
  simp [Option.isNone_iff_eq_none, Option.isSome_iff_ne_none.1 hd]

theorem exec_refclkLoss {s : State} {b : Bool} : exec (.refclkLoss b) s = .next s.clockLoss := rfl

theorem exec_thermtrip {s : State} (hup : s.up = true) :
    exec .thermtrip s = .next { s.coreReset with sys := { s.coreReset.sys with phase := .thermTrip, faultOut := true } } := by
  have hp : s.sys.phase ≠ .por := fun hp => by
    obtain h | h | ⟨_, h⟩ := State.phase_of_up hup <;> cases h.symm.trans hp
  change execThermtrip s = _
  rw [execThermtrip, if_neg hp]

theorem exec_rootpllRelockHoldEnd {s : State} {b : Bool} (h : s.sys.phase = .clockHold b) :
    exec .rootpllRelockHoldEnd s = .next (State.resetEnds { s with sys := { s.sys with aonBackup := false } }) := by
  change execRootpllRelockHoldEnd s = _
  rw [execRootpllRelockHoldEnd, h]

theorem getBits_eq_iff_extractLsb' {data : W64} {lo w : Nat} {x : BitVec w} : getBits data lo w = x.toNat ↔ data.extractLsb' lo w = x := by
  rw [← BitVec.toNat_inj, BitVec.extractLsb'_toNat, getBits, bitsOf]

/-- Settles O19: each source comes to `warmReset` or `coreReset`, and then by `restarted_warmReset` or `blank_coreReset`. -/
theorem warmResetSources : Obligations.WarmResetSources := by
  intro s c who data lowNs refLost hup hs blank again
  have hkey : getBits data 16 16 = 0xA5C3 ↔ data.extractLsb' 16 16 = 0xA5C3 := getBits_eq_iff_extractLsb' (x := 0xA5C3)
  refine ⟨⟨_, exec_warmReset, s.restarted_warmReset hup hs c⟩, fun hlow => ⟨_, exec_sysRstPin hlow, s.restarted_warmReset hup hs .pin⟩,
    fun hopen h0 hk => ?soft, fun hopen hk => ?wrongKey, fun hd => ⟨_, exec_devResetDelayExpiry hup hd, ?onafaet⟩, ⟨_, exec_refclkLoss, ?clock⟩,
    ⟨_, exec_thermtrip hup, s.blank_coreReset hs, rfl, rfl⟩, fun b => ⟨_, exec_rootpllRelockHoldEnd (b := b) rfl, State.resetEnds_booted _⟩⟩
  case soft =>
    refine ⟨_, exec_topResetWarm hup hopen, ?_⟩
    rw [if_pos (by simp [getBit, h0, hkey.2 hk])]
    exact s.restarted_warmReset hup hs .soft
  case wrongKey => rw [exec_topResetWarm hup hopen, if_neg (by simp only [Bool.and_eq_true, beq_iff_eq, hkey, hk, and_false, not_false_eq_true])]
  case onafaet =>
    split
    · exact State.restarted_warmReset (s := s.emit .goodbye) hup hs .onafaet
    · exact s.restarted_warmReset hup hs .onafaet
  case clock =>
    obtain ⟨hblank, haon, hbit⟩ := s.blank_clockFault hs
    rw [State.clockLoss_of_up hup]
    exact ⟨hblank, rfl, rfl, haon, hbit⟩

end Sys2Proof.Machine
end

section
/-!
A function-level reset (R79), of a function and of the functions of a port. The function is blank where its reset writes its context (`resetCtx`);
what the reset does after that, a reply with its mailbox interrupt included, leaves a context whose MSI-X is off as it is.
-/

namespace Sys2Proof.Machine

/-! ### A function whose MSI-X is off -/

section

variable {s t : State} {f g : Nat} {x : FnCtx}

theorem State.fn_of_fns (h : t.fns = s.fns) : t.fn f = s.fn f := by
  simp only [State.fn, h]

@[simp] theorem State.fn_setFn_self : (s.setFn f x).fn f = x := by
  unfold State.setFn
  split
  · exact (State.fn_of_fns (State.sendFlits_fns _ _)).trans smGet_put_self
  · exact smGet_put_self

theorem State.fn_setFn_ne (h : f ≠ g) : (s.setFn g x).fn f = s.fn f := by
  unfold State.setFn
  split
  · exact (State.fn_of_fns (State.sendFlits_fns _ _)).trans (smGet_put_ne h)
  · exact smGet_put_ne h

/-- A signal changes no function whose MSI-X is off. -/
theorem State.fn_msixOf_off {key vec : Nat} (h : (s.fn f).msixEn = false) : (s.msixOf key g vec).fn f = s.fn f := by
  by_cases hkey : f = key
  · subst hkey
    simp only [State.msixOf, h, Bool.and_false, Bool.false_eq_true, if_false]
  · unfold State.msixOf
    dsimp only
    split
    · split
      · exact State.fn_setFn_ne hkey
      · rfl
    · rfl

theorem State.fn_mbxSignal_off {ch : Nat} (h : (s.fn f).msixEn = false) : (s.mbxSignal ch).fn f = s.fn f := by
  unfold State.mbxSignal
  split
  · exact State.fn_msixOf_off h
  · rfl

theorem State.fn_send_off {ch : Nat} {p : OnfPkt} (h : (s.fn f).msixEn = false) : (s.send ch p).fn f = s.fn f := by
  unfold State.send
  split
  · dsimp only
    split
    · rfl
    · exact State.fn_mbxSignal_off h
  · rfl

theorem State.fn_sendAll_off {ch : Nat} {l : List OnfPkt} (h : (s.fn f).msixEn = false) : (s.sendAll ch l).fn f = s.fn f := by
  induction l generalizing s with
  | nil => rfl
  | cons p l ih =>
    have hp : (s.send ch p).fn f = s.fn f := State.fn_send_off h
    rw [State.sendAll, ih (by rw [hp, h]), hp]

theorem State.fn_reply_off {r : OnfReq} {op st : Nat} {b : List Byte} (h : (s.fn f).msixEn = false) : (s.reply r op st b).fn f = s.fn f := by
  unfold State.reply
  dsimp only
  split
  · rfl
  · exact State.fn_sendAll_off h

theorem State.fn_quiesceReplies_off {l : List QuiesceWait} (h : (s.fn f).msixEn = false) : (s.quiesceReplies l).fn f = s.fn f := by
  induction l with
  | nil => rfl
  | cons w l ih =>
    unfold State.quiesceReplies
    dsimp only
    split
    · refine (State.fn_reply_off ?_).trans ih
      rw [← h, ← ih]
      rfl
    · exact ih

end

/-! ### The reset of a function -/

@[simp] theorem State.setDlog_fns (s : State) (v : Nat) (d : DirtyLog) : (s.setDlog v d).fns = s.fns := by
  unfold State.setDlog
  dsimp only
  split <;> rfl

theorem State.dlogEnd_fns (s : State) (pf : Nat) : (s.dlogEnd pf).fns = s.fns :=
  List.foldlRecOn (motive := fun (t : State) => t.fns = s.fns) _ _ rfl fun t h v _ => by rw [State.setDlog_fns, h]

/-- What the host finds of a function's switches, VFs, events and vectors after its reset (R79). That the enables fall with
the vectors is log entry 103 (DEDUCED). -/
def State.FnBlank (s : State) (f : Nat) : Prop :=
  (s.fn f).msixEn = false ∧ (s.fn f).atsEn = false ∧ (s.fn f).numVfs = 0 ∧ (s.fn f).grantEvt = false ∧ (s.fn f).msix = []

theorem State.fnBlank_of_fn {s t : State} {f : Nat} (h : s.FnBlank f) (he : t.fn f = s.fn f) : t.FnBlank f := by
  rw [State.FnBlank, he]
  exact h

theorem State.fnBlank_personaReset {s : State} {f : Nat} (h : s.FnBlank f) : (s.personaReset f).FnBlank f := by
  unfold State.FnBlank State.personaReset
  rw [State.fn_setFn_self]
  exact h

theorem State.fnBlank_quiesceCheck {s : State} {f : Nat} (h : s.FnBlank f) : s.quiesceCheck.FnBlank f :=
  State.fnBlank_of_fn h (State.fn_quiesceReplies_off h.1)

theorem State.fnBlank_flrOne (s : State) (f : Nat) : (s.flrOne f).FnBlank f := by
  unfold State.flrOne
  extract_lets s1 c _ _ keep s2 _ s3 s4
  refine State.fnBlank_quiesceCheck ?_
  have h3 : s3.FnBlank f := by
    refine State.fnBlank_of_fn (s := s2) ?_ rfl
    rw [State.FnBlank, State.fn_setFn_self]
    exact ⟨rfl, rfl, rfl, rfl, rfl⟩
  dsimp only [s4]
  split
  · exact State.fnBlank_of_fn h3 (State.fn_of_fns (s3.dlogEnd_fns f))
  · exact State.fnBlank_personaReset h3

theorem State.flrMany_concat (s : State) (l : List Nat) (f : Nat) : s.flrMany (l ++ [f]) = (s.flrMany l).flrOne f := by
  induction l generalizing s with
  | nil => rfl
  | cons g l ih => exact ih (s.flrOne g)

theorem State.fnBlank_flrMany_concat (s : State) (l : List Nat) (f : Nat) : (s.flrMany (l ++ [f])).FnBlank f := by
  rw [State.flrMany_concat]
  exact State.fnBlank_flrOne _ f

theorem State.fnBlank_flr (s : State) (f : Nat) : (s.flr f).FnBlank f := by
  unfold State.flr
  refine State.fnBlank_of_fn ?_ rfl
  split
  · exact s.fnBlank_flrMany_concat _ f
  · exact s.fnBlank_flrOne f

end Sys2Proof.Machine
end

section
/-!
O18. The cold sequence, whose last step starts the loader; the steps of the clocks; PERST# and a function-level reset.
-/

namespace Sys2Proof.Machine

/-! ### The cold sequence -/

theorem exec_powerOnReset {s : State} (h : s.sys.phase = .por) : exec .powerOnReset s = .next { s with sys := { s.sys with phase := .cold } } := by
  change execPowerOnReset s = _
  rw [execPowerOnReset, if_pos h]

theorem exec_rootpllLock_cold {s : State} (h : s.sys.phase = .cold) :
    exec .rootpllLock s = .next (State.setBit { s with sys := { s.sys with phase := .rootLocked } } R.TOP_CLKSTAT.ROOT_LOCK) := by
  change execRootpllLock s = _
  rw [execRootpllLock, h]

theorem exec_warmRelease {s : State} (h : s.sys.phase = .rootLocked) : exec .warmRelease s = .next s.coldStart.loaderStart := by
  change execWarmRelease s = _
  rw [execWarmRelease, if_pos h]

theorem exec_porNFall {s : State} : exec .porNFall s = .next s.portsDown.powerOff := rfl

theorem State.burnCut_of_none {s : State} (h : s.spool.burn = none) : s.burnCut = s := by
  simp only [State.burnCut, h]

/-- The flash, the fuses that no burn is changing, and hosts' memory outlast the loss of power. -/
theorem State.powerOff_keeps (s : State) : s.portsDown.powerOff.hostMem = s.hostMem ∧ s.portsDown.powerOff.spool.flash = s.spool.flash ∧
    (s.spool.burn = none → s.portsDown.powerOff.spool.fuse = s.spool.fuse) := by
  obtain ⟨out, hp⟩ := s.portsDown_shape
  obtain ⟨freeCtr, fuse, burn, hb⟩ := State.burnCut_shape { s with out }
  refine ⟨?_, ?_, fun h => ?_⟩
  · rw [State.powerOff, hp, hb]
  · rw [State.powerOff, hp, hb]
  · rw [State.powerOff, hp, State.burnCut_of_none (s := { s with out }) h]

/-! ### The clocks -/

theorem exec_pllLockLoss {s : State} {pll : Pll} (hup : s.up = true) :
    exec (.pllLockLoss pll) s = .next ((s.clrBit (pllFld pll)).topEvt R.TOP_STATUS.CLK_EVT) := by
  change execPllLockLoss pll s = _
  rw [execPllLockLoss, State.whenUp_of_up hup]

theorem exec_pllLockRegain {s : State} {pll : Pll} (hup : s.up = true) :
    exec (.pllLockRegain pll) s = .next ((s.setBit (pllFld pll)).topEvt R.TOP_STATUS.CLK_EVT) := by
  change execPllLockRegain pll s = _
  rw [execPllLockRegain, State.whenUp_of_up hup]

theorem exec_coreclkStepDown {s : State} {p : Nat} (hup : s.up = true) (hp : p < 4) (h : s.fld (coreStep p) < 8) :
    exec (.coreclkStepDown p) s =
      .next (((s.setFld (coreStep p) (s.fld (coreStep p) + 1)).setBit (throttleBit p)).topEvt R.TOP_STATUS.THROTTLE_EVT) := by
  change execCoreclkStepDown p s = _
  rw [execCoreclkStepDown, State.whenUp_of_up hup, if_pos (by simp [hp, h])]

theorem exec_coreclkStepUp {s : State} {p : Nat} (hup : s.up = true) (hp : p < 4) (h : 0 < s.fld (coreStep p)) :
    exec (.coreclkStepUp p) s =
      .next ((s.setFld (coreStep p) (s.fld (coreStep p) - 1)).setFld (throttleBit p) (b2n (decide (0 < s.fld (coreStep p) - 1)))) := by
  change execCoreclkStepUp p s = _
  rw [execCoreclkStepUp, State.whenUp_of_up hup, if_pos (by simp [hp, h])]

/-- A PLL's lock is a bit of TOP_CLKSTAT. -/
theorem pllFld_spec (pll : Pll) : (pllFld pll).off = R.TOP_CLKSTAT.off ∧ (pllFld pll).w = 1 ∧ (pllFld pll).lo + (pllFld pll).w ≤ 64 := by
  cases pll with
  | eth => exact ⟨rfl, rfl, by decide⟩
  | ddr c =>
    refine ⟨rfl, rfl, ?_⟩
    simp only [pllFld]
    omega

/-- An event of TOP_STATUS leaves TOP_CLKSTAT. -/
theorem State.fld_topEvt_clkstat {s : State} {f g : Fld} (hf : f.off = R.TOP_STATUS.off) (hg : g.off = R.TOP_CLKSTAT.off) :
    (s.topEvt f).fld g = s.fld g := State.fld_topEvt_ne (by rw [hf, hg]; decide)

theorem State.stepDown_spec {s : State} {p : Nat} (hp : p < 4) (h : s.fld (coreStep p) < 8) :
    let t := ((s.setFld (coreStep p) (s.fld (coreStep p) + 1)).setBit (throttleBit p)).topEvt R.TOP_STATUS.THROTTLE_EVT
    t.fld (coreStep p) = s.fld (coreStep p) + 1 ∧ t.bit (throttleBit p) = true ∧ t.bit R.TOP_STATUS.THROTTLE_EVT = true := by
  have hstep : (coreStep p).lo + (coreStep p).w ≤ 64 := by simp only [coreStep]; omega
  have hthr : (throttleBit p).lo + (throttleBit p).w ≤ 12 := by simp only [throttleBit]; omega
  refine ⟨?_, ?_, State.bit_topEvt_self (by decide) (by decide)⟩
  · rw [State.fld_topEvt_clkstat rfl rfl, State.setBit, State.fld_setFld_ne (by simp only [coreStep, throttleBit]; decide), State.fld_setFld_self hstep]
    exact Nat.mod_eq_of_lt (by simp only [coreStep] at h ⊢; omega)
  · rw [State.bit_of_fld (State.fld_topEvt_disj (by omega) (.inl hthr)), State.bit_setBit_self (by omega) Nat.one_pos]

theorem State.stepUp_spec {s : State} {p : Nat} (hp : p < 4) :
    let t := (s.setFld (coreStep p) (s.fld (coreStep p) - 1)).setFld (throttleBit p) (b2n (decide (0 < s.fld (coreStep p) - 1)))
    t.fld (coreStep p) = s.fld (coreStep p) - 1 ∧ (t.bit (throttleBit p) = true ↔ 1 < s.fld (coreStep p)) := by
  have hstep : (coreStep p).lo + (coreStep p).w ≤ 64 := by simp only [coreStep]; omega
  have hthr : (throttleBit p).lo + (throttleBit p).w ≤ 64 := by simp only [throttleBit]; omega
  refine ⟨?_, ?_⟩
  · rw [State.fld_setFld_ne (by simp only [coreStep, throttleBit]; decide), State.fld_setFld_self hstep]
    exact Nat.mod_eq_of_lt (by have := s.fld_lt (f := coreStep p); omega)
  · rw [State.bit, State.fld_setFld_self hthr, beq_iff_eq]
    by_cases h1 : 1 < s.fld (coreStep p)
    · simp [h1, b2n, throttleBit]
    · simp [h1, b2n]

/-! ### PERST# and function-level reset -/

theorem exec_functionLevelReset {s : State} {f : Nat} (hup : s.up = true) (hf : s.fnReachable f = true) :
    exec (.functionLevelReset f) s = .next (s.flr f) := by
  change execFunctionLevelReset f s = _
  rw [execFunctionLevelReset, State.whenUp_of_up hup, if_pos hf]

/-- The state of a port whose PERST# falls, before it trains again. -/
def State.perstDown (s : State) (n : Nat) : State := ((s.flrMany (s.portFns n)).linkDrop n).emit (.portDown n)

theorem exec_perstAssert {s : State} {n : Nat} (hup : s.up = true) (hn : s.portOn false n = true) :
    exec (.perstAssert n) s = .next (if (s.perstDown n).sys.gated || !(s.perstDown n).portPlaced false n then s.perstDown n
      else (s.perstDown n).emit (.portTrain n)) := by
  change execPerstAssert n s = _
  rw [execPerstAssert, State.whenUp_of_up hup, if_pos hn]
  rfl

theorem State.perstDown_spec (s : State) (n : Nat) :
    (s.perstDown n).FnBlank (0x1000 + n) ∧ ((s.perstDown n).link n).trained = false ∧ .portDown n ∈ (s.perstDown n).out := by
  refine ⟨State.fnBlank_of_fn (s.fnBlank_flrMany_concat (s.vfsOn n) (0x1000 + n)) rfl, ?_, List.mem_cons_self⟩
  change (smGet PortSt.down (smPut PortSt.down _ n _) n).trained = false
  rw [smGet_put_self]

/-- Settles O18: the cold sequence by `loaderStart_shape`, the clocks field by field, the resets of functions by `FnBlank`. -/
theorem coldSequenceAndClocks : Obligations.ColdSequenceAndClocks := by
  refine ⟨fun s => ⟨exec_powerOnReset, fun h => ⟨_, exec_rootpllLock_cold h, rfl, State.bit_setBit_self (by decide) (by decide), rfl⟩,
    fun h => ⟨_, exec_warmRelease h, ?release⟩, ⟨_, exec_porNFall, rfl, rfl, rfl, rfl, rfl, rfl, s.powerOff_keeps⟩⟩,
    fun s pll p f n hup => ⟨⟨_, exec_pllLockLoss hup, ?loss⟩, ⟨_, exec_pllLockRegain hup, ?regain⟩,
      fun hp h => ⟨_, exec_coreclkStepDown hup hp h, State.stepDown_spec hp h⟩, fun hp h => ⟨_, exec_coreclkStepUp hup hp h, State.stepUp_spec hp⟩,
      fun hf => ⟨_, exec_functionLevelReset hup hf, s.fnBlank_flr f⟩, fun hn => ⟨_, exec_perstAssert hup hn, ?perst⟩⟩⟩
  case release =>
    obtain ⟨_, _, _, _, _, _, _, _, heq, hphase, -⟩ := s.coldStart.loaderStart_shape
    rw [heq]
    exact ⟨hphase, rfl, rfl, rfl, rfl, Nat.mod_lt _ (by decide), rfl, rfl⟩
  case loss =>
    obtain ⟨hoff, -, hle⟩ := pllFld_spec pll
    refine ⟨?_, State.bit_topEvt_self (by decide) (by decide), by simp⟩
    rw [State.bit_of_fld (State.fld_topEvt_clkstat rfl hoff), State.bit_clrBit_self hle]
  case regain =>
    obtain ⟨hoff, hw, hle⟩ := pllFld_spec pll
    refine ⟨?_, State.bit_topEvt_self (by decide) (by decide), by simp⟩
    rw [State.bit_of_fld (State.fld_topEvt_clkstat rfl hoff), State.bit_setBit_self hle (by rw [hw]; decide)]
  case perst =>
    obtain ⟨⟨hmsix, -, hvfs, -⟩, hlink, hout⟩ := s.perstDown_spec n
    split
    · exact ⟨hmsix, hvfs, hlink, hout⟩
    · exact ⟨hmsix, hvfs, hlink, List.mem_cons_of_mem _ hout⟩

end Sys2Proof.Machine
end

section
/-!
The baste session: who acts on it (`inSession`), what an owner's command restarts (`heard`), what ONF_BASTE_STAT shows of it (`showSession`), and what
its end leaves (`Closed`). First, the parts of the Onafaet state that a reply and an event leave alone.
-/

namespace Sys2Proof.Machine

section

variable {α : Type} {m : SMap α} {i j : Nat} {a : α}

theorem find_smIns_self : (smIns m i a).find? (fun e => e.1 == i) = some (i, a) := by
  induction m with
  | nil => simp [smIns]
  | cons e m ih =>
    unfold smIns
    split
    · simp
    · next ne =>
      split
      · simp
      · rw [List.find?_cons_of_neg (by simpa using Ne.symm ne), ih]

theorem find_smIns_ne (h : j ≠ i) : (smIns m i a).find? (fun e => e.1 == j) = m.find? (fun e => e.1 == j) := by
  have skip : ∀ (b : α) (l : SMap α), List.find? (fun e => e.1 == j) ((i, b) :: l) = l.find? (fun e => e.1 == j) := fun _ _ =>
    List.find?_cons_of_neg (by simpa using h.symm)
  induction m with
  | nil => exact skip a []
  | cons e m ih =>
    obtain ⟨k, v⟩ := e
    unfold smIns
    split
    · next he => rw [← he, skip, skip]
    · split
      · exact skip a _
      · rw [List.find?_cons, List.find?_cons, ih]

end

section

variable {s t u : State} {r : OnfReq} {ss : Session} {named : Option Nat} {op foreign : Nat} {k : State → Session → State}

/-! ### Replies and events -/

theorem State.send_onf (s : State) (ch : Nat) (p : OnfPkt) : ∃ mbx, (s.send ch p).onf = { s.onf with mbx } := by
  unfold State.send
  dsimp only
  split
  · split
    · exact ⟨_, rfl⟩
    · exact ⟨_, State.mbxSignal_onf _ _⟩
  · exact ⟨_, rfl⟩

theorem State.sendAll_onf (s : State) (ch : Nat) (l : List OnfPkt) : ∃ mbx, (s.sendAll ch l).onf = { s.onf with mbx } := by
  induction l generalizing s with
  | nil => exact ⟨_, rfl⟩
  | cons p l ih =>
    obtain ⟨_, h⟩ := s.send_onf ch p
    obtain ⟨_, h'⟩ := ih (s.send ch p)
    exact ⟨_, by rw [State.sendAll, h', h]⟩

/-- A reply goes to a mailbox, or is held for its counter; the rest of the Onafaet state stays. -/
theorem State.reply_onf (s : State) (r : OnfReq) (op st : Nat) (b : List Byte) : ∃ mbx held, (s.reply r op st b).onf = { s.onf with mbx, held } := by
  unfold State.reply
  dsimp only
  split
  · exact ⟨_, _, rfl⟩
  · obtain ⟨_, h⟩ := s.sendAll_onf r.ch (replyPkts r op st r.crit (b.length / 4048 + 2) r.seq b)
    exact ⟨_, _, h⟩

theorem State.evtOnAll_onf (s : State) (c : Nat) (v : W64) (st : Nat) (l : List Nat) : ∃ evts, (s.evtOnAll c v st l).onf = { s.onf with evts } := by
  induction l generalizing s with
  | nil => exact ⟨_, rfl⟩
  | cons ch l ih =>
    obtain ⟨_, h⟩ := ih (s.evtOn ch c v st)
    exact ⟨_, h⟩

/-- An event packet of a class waits for a channel. -/
def State.evtWaits (s : State) (ch c : Nat) : Prop := (s.onf.evts.find? fun e => e.1 == evtKey ch c).isSome = true

theorem State.evtWaits_evtOn_self {ch c st : Nat} {v : W64} : (s.evtOn ch c v st).evtWaits ch c := by
  simp only [State.evtWaits, State.evtOn, find_smIns_self, Option.isSome_some]

theorem State.evtWaits_evtOn {ch ch' c st : Nat} {v : W64} (h : s.evtWaits ch c) : (s.evtOn ch' c v st).evtWaits ch c := by
  by_cases he : evtKey ch c = evtKey ch' c
  · simp only [State.evtWaits, State.evtOn, he, find_smIns_self, Option.isSome_some]
  · simpa only [State.evtWaits, State.evtOn, find_smIns_ne he] using h

theorem State.evtWaits_evtOnAll {ch c st : Nat} {v : W64} {l : List Nat} (h : s.evtWaits ch c ∨ ch ∈ l) : (s.evtOnAll c v st l).evtWaits ch c := by
  induction l generalizing s with
  | nil => exact h.resolve_right List.not_mem_nil
  | cons ch' l ih =>
    refine ih ?_
    rcases h with h | h
    · exact .inl (State.evtWaits_evtOn h)
    · rcases List.mem_cons.1 h with rfl | h
      · exact .inl State.evtWaits_evtOn_self
      · exact .inr h

theorem mem_insUp {x y : Nat} {l : List Nat} : x ∈ insUp y l ↔ x = y ∨ x ∈ l := by
  induction l with
  | nil => simp [insUp]
  | cons z l ih =>
    unfold insUp
    split
    · simp
    · split
      · next e => simp [e]
      · simp only [List.mem_cons, ih, or_left_comm]

theorem mem_sortUp {x : Nat} {l : List Nat} : x ∈ sortUp l ↔ x ∈ l := by
  induction l with
  | nil => simp [sortUp]
  | cons y l ih =>
    rw [List.mem_cons, ← ih]
    exact mem_insUp

/-! ### Who acts on the session -/

theorem State.openSession_eq_some : s.openSession = some ss ↔ s.onf.session = some ss ∧ ss.number ≠ 0 := by
  unfold State.openSession
  split
  · next x hx =>
    rw [hx]
    split
    · next h0 => simp only [Option.some.injEq, reduceCtorEq, false_iff, not_and, not_not]; rintro rfl; exact h0
    · next h0 => simp only [Option.some.injEq, iff_self_and]; rintro rfl; exact h0
  · next hx => simp [hx]

theorem State.setSession_self {x : Option Session} (h : s.onf.session = x) : s.setSession x = s := by
  subst h
  rfl

theorem State.inSession_owns (h : s.owns r named ss) : s.inSession r op named foreign false k = k (s.heard r named) ss := by
  obtain ⟨hs, hn, ho, hc⟩ := h
  have hcrit : (ss.critical && !r.crit) = false := by
    cases hcr : ss.critical with
    | false => rfl
    | true => rw [hc hcr]; rfl
  simp [State.inSession, hs, hn, ho, hcrit]

theorem State.inSession_stages (h : s.stages r named ss) : s.inSession r op named foreign true k = k (s.heard r named) ss := by
  obtain ⟨ho, ha, hl⟩ := h
  rw [← State.inSession_owns (op := op) (foreign := foreign) (k := k) ho]
  simp [State.inSession, ho.1, ha, hl]

theorem State.inSession_none {staging : Bool} (h : s.openSession = none) : s.inSession r op named foreign staging k = s.reply r op E.BASTE_NONE [] := by
  simp only [State.inSession, h]

theorem State.inSession_other {staging : Bool} (h : s.openSession = some ss) (hn : named.getD ss.number ≠ ss.number) :
    s.inSession r op named foreign staging k = s.reply r op E.BASTE_NONE [] := by
  simp [State.inSession, h, hn]

/-- The owner's command restarts at most the idle time. -/
theorem State.heard_eq (h : s.openSession = some ss) : ∃ idleAt : Nat, s.heard r named = s.setSession (some { ss with idleAt }) := by
  simp only [State.heard, h]
  split
  · exact ⟨_, rfl⟩
  · exact ⟨ss.idleAt, (State.setSession_self (State.openSession_eq_some.1 h).1).symm⟩

theorem State.heard_shape (s : State) (r : OnfReq) (named : Option Nat) : ∃ x, s.heard r named = s.setSession x := by
  cases h : s.openSession with
  | none => exact ⟨s.onf.session, by rw [State.setSession_self rfl, State.heard, h]⟩
  | some ss =>
    obtain ⟨_, hh⟩ := State.heard_eq (r := r) (named := named) h
    exact ⟨_, hh⟩

theorem State.linkLost_heard : (s.heard r named).linkLost = s.linkLost := by
  obtain ⟨_, h⟩ := s.heard_shape r named
  rw [h]
  rfl

theorem State.mirrored_heard : (s.heard r named).mirrored = s.mirrored := by
  obtain ⟨_, h⟩ := s.heard_shape r named
  rw [h]
  rfl

/-! ### What the session shows -/

theorem State.sameButRegs_showSession (s : State) : s.SameButRegs s.showSession := by
  have h : s.SameButRegs s := ⟨s.regs, rfl⟩
  unfold State.showSession
  split
  · exact h.setFld.setFld.setFld
  · exact h.setFld.setFld.setFld.setFld

theorem State.reg_showSession_ne {o : Nat} (h : o ≠ R.ONF_BASTE_STAT.off) : s.showSession.reg o = s.reg o := by
  have hf : ∀ (u : State) (f : Fld) (v : Nat), f.off = R.ONF_BASTE_STAT.off → (u.setFld f v).reg o = u.reg o := fun _ _ _ hf =>
    State.reg_setFld_ne (hf ▸ h)
  unfold State.showSession
  split
  · rw [hf _ _ _ rfl, hf _ _ _ rfl, hf _ _ _ rfl]
  · rw [hf _ _ _ rfl, hf _ _ _ rfl, hf _ _ _ rfl, hf _ _ _ rfl]

theorem State.onf_showSession (s : State) : s.showSession.onf = s.onf := by
  obtain ⟨_, h⟩ := s.sameButRegs_showSession
  rw [h]

theorem State.fld_showSession_none (h : s.openSession = none) : s.showSession.fld R.ONF_BASTE_STAT.STATE = 0 := by
  simp only [State.showSession, h]
  rw [State.fld_setFld_disj (by decide) (by decide), State.fld_setFld_disj (by decide) (by decide), State.fld_setFld_self (by decide)]
  rfl

theorem State.fld_showSession_open (h : s.openSession = some ss) (ha : ss.armed = none) (hc : ss.checked = false) :
    s.showSession.fld R.ONF_BASTE_STAT.STATE = 1 ∧ s.showSession.fld R.ONF_BASTE_STAT.SESSION = ss.number % 65536 := by
  simp only [State.showSession, h, ha, hc, Option.isSome_none, Bool.false_eq_true, if_false]
  constructor
  · rw [State.fld_setFld_disj (by decide) (by decide), State.fld_setFld_disj (by decide) (by decide), State.fld_setFld_disj (by decide) (by decide),
      State.fld_setFld_self (by decide)]
    rfl
  · rw [State.fld_setFld_disj (by decide) (by decide), State.fld_setFld_self (by decide)]
    rfl

/-! ### Its end -/

@[simp] theorem State.qp_setQp_self {q : Nat} {c : QpCtx} : (s.setQp q c).qp q = c := by
  unfold State.setQp
  split
  · rw [State.qp, State.sendFlits_qps]; exact smGet_put_self
  · exact smGet_put_self

theorem State.qp_setQp_ne {q p : Nat} {c : QpCtx} (h : p ≠ q) : (s.setQp q c).qp p = s.qp p := by
  unfold State.setQp
  split
  · rw [State.qp, State.sendFlits_qps]; exact smGet_put_ne h
  · exact smGet_put_ne h

theorem State.sessHeld_setQp {q p : Nat} {c : QpCtx} (h : c.sessHeld = (s.qp q).sessHeld) : ((s.setQp q c).qp p).sessHeld = (s.qp p).sessHeld := by
  by_cases e : p = q
  · subst e; rw [State.qp_setQp_self, h]
  · rw [State.qp_setQp_ne e]

/-- A ring that starts stays held by a session or free of it. -/
theorem State.sessHeld_activate {q p : Nat} : ((s.activate q).qp p).sessHeld = (s.qp p).sessHeld := by
  have h1 : ((s.setQp q { s.qp q with st := .active, enable := true }).qp p).sessHeld = (s.qp p).sessHeld := State.sessHeld_setQp rfl
  unfold State.activate
  dsimp only
  split
  · exact h1
  · rw [← h1]
    exact State.sessHeld_setQp rfl

theorem State.expose_shape (s : State) (q tail : Nat) : ∃ qps qf galv out, s.expose q tail = { s with qps, qf, galv, out } := by
  obtain ⟨_, _, _, h⟩ := State.setQp_shape { s with qf := { s.qf with stamp := s.qf.stamp + 1 } } q
    { s.qp q with sqTail := tail, expo := (s.qp q).expo ++ [(tail, s.qf.stamp)] }
  exact ⟨_, _, _, _, h⟩

theorem State.activate_shape (s : State) (q : Nat) : ∃ qps qf galv out, s.activate q = { s with qps, qf, galv, out } := by
  obtain ⟨_, _, _, h1⟩ := s.setQp_shape q { s.qp q with st := .active, enable := true }
  unfold State.activate
  dsimp only
  split
  · exact ⟨_, _, _, _, h1⟩
  · obtain ⟨_, _, _, _, h2⟩ := (s.setQp q { s.qp q with st := .active, enable := true }).expose_shape q (s.qp q).sqTail
    exact ⟨_, _, _, _, by rw [h2, h1]⟩

/-- The release of one QP that the session held (R63). -/
def State.unhold (s : State) (q : Nat) : State :=
  let c := { s.qp q with sessHeld := false }
  let s1 := s.setQp q c
  if c.st == .quiesced && c.enable && !c.held && c.drain.isNone then s1.activate q else s1

theorem State.unholdAll_cons (s : State) (q : Nat) (l : List Nat) : s.unholdAll (q :: l) = (s.unhold q).unholdAll l := rfl

theorem State.unhold_shape (s : State) (q : Nat) : ∃ qps qf galv out, s.unhold q = { s with qps, qf, galv, out } := by
  obtain ⟨_, _, _, h1⟩ := s.setQp_shape q { s.qp q with sessHeld := false }
  unfold State.unhold
  dsimp only
  split
  · obtain ⟨_, _, _, _, h2⟩ := (s.setQp q { s.qp q with sessHeld := false }).activate_shape q
    exact ⟨_, _, _, _, by rw [h2, h1]⟩
  · exact ⟨_, _, _, _, h1⟩

theorem State.unholdAll_shape (s : State) (l : List Nat) : ∃ qps qf galv out, s.unholdAll l = { s with qps, qf, galv, out } := by
  induction l generalizing s with
  | nil => exact ⟨_, _, _, _, rfl⟩
  | cons q l ih =>
    obtain ⟨_, _, _, _, h1⟩ := s.unhold_shape q
    obtain ⟨_, _, _, _, h2⟩ := ih (s.unhold q)
    exact ⟨_, _, _, _, by rw [State.unholdAll_cons, h2, h1]⟩

@[simp] theorem State.unholdAll_regs (s : State) (l : List Nat) : (s.unholdAll l).regs = s.regs := by
  obtain ⟨_, _, _, _, h⟩ := s.unholdAll_shape l
  rw [h]

@[simp] theorem State.unholdAll_onf (s : State) (l : List Nat) : (s.unholdAll l).onf = s.onf := by
  obtain ⟨_, _, _, _, h⟩ := s.unholdAll_shape l
  rw [h]

/-- The release of one QP frees it, and holds no other. -/
theorem State.sessHeld_unhold {q p : Nat} : ((s.unhold q).qp p).sessHeld = (decide (p ≠ q) && (s.qp p).sessHeld) := by
  have h1 : ((s.setQp q { s.qp q with sessHeld := false }).qp p).sessHeld = (decide (p ≠ q) && (s.qp p).sessHeld) := by
    by_cases e : p = q
    · subst e; simp
    · simp [State.qp_setQp_ne e, e]
  unfold State.unhold
  dsimp only
  split
  · rw [State.sessHeld_activate, h1]
  · exact h1

theorem State.sessHeld_unholdAll {p : Nat} {l : List Nat} (h : p ∈ l ∨ (s.qp p).sessHeld = false) : ((s.unholdAll l).qp p).sessHeld = false := by
  induction l generalizing s with
  | nil => exact h.resolve_left List.not_mem_nil
  | cons q l ih =>
    rw [State.unholdAll_cons]
    refine ih ?_
    rw [State.sessHeld_unhold]
    rcases h with h | h
    · rcases List.mem_cons.1 h with rfl | h
      · exact .inr (by simp)
      · exact .inl h
    · exact .inr (by rw [h, Bool.and_false])

/-- What the end of a session that held `held` leaves of a device that was `s` (R69): no session, nothing staged, no hold, the epoch as it was. -/
def State.Closed (s t : State) (held : List Nat) : Prop :=
  t.onf.session = none ∧ t.fld R.ONF_BASTE_STAT.STATE = 0 ∧ t.epoch = s.epoch ∧ ∀ q ∈ held, (t.qp q).sessHeld = false

theorem State.Closed.of_eq {held : List Nat} (h : s.Closed t held) (hs : u.onf.session = t.onf.session) (hr : u.regs = t.regs) (hq : u.qps = t.qps) :
    s.Closed u held := by
  obtain ⟨h1, h2, h3, h4⟩ := h
  refine ⟨hs.trans h1, (State.fld_of_reg (State.reg_of_regs hr)).trans h2, (State.fld_of_reg (State.reg_of_regs hr)).trans h3, fun q hm => ?_⟩
  rw [← h4 q hm, State.qp, State.qp, hq]

theorem State.Closed.reply {held : List Nat} {st : Nat} {b : List Byte} (h : s.Closed t held) : s.Closed (t.reply r op st b) held := by
  obtain ⟨_, _, he⟩ := t.reply_onf r op st b
  exact h.of_eq (by rw [he]) (t.reply_regs r op st b) (t.reply_qps r op st b)

theorem State.Closed.evtOnAll {held : List Nat} {c st : Nat} {v : W64} {l : List Nat} (h : s.Closed t held) : s.Closed (t.evtOnAll c v st l) held := by
  obtain ⟨_, he⟩ := t.evtOnAll_onf c v st l
  exact h.of_eq (by rw [he]) (t.evtOnAll_regs c v st l) (t.evtOnAll_qps c v st l)

theorem State.closed_closeSession (h : s.onf.session = some ss) : s.Closed s.closeSession ss.held := by
  have hstitch : ((s.setSession none).setReg R.ONF_STITCH_AT.off 0).reg R.ONF_EPOCH.CFG_EPOCH.off = s.reg R.ONF_EPOCH.CFG_EPOCH.off :=
    State.reg_setReg_ne (s := s.setSession none) (by decide)
  simp only [State.closeSession, h]
  generalize hu : (s.setSession none).setReg R.ONF_STITCH_AT.off 0 = u at hstitch
  have hnone : (u.unholdAll ss.held).onf.session = none := by rw [State.unholdAll_onf, ← hu]; rfl
  obtain ⟨_, hv⟩ := (u.unholdAll ss.held).sameButRegs_showSession
  refine ⟨?_, State.fld_showSession_none ?_, State.fld_of_reg ?_, fun q hq => ?_⟩
  · rw [State.onf_showSession, hnone]
  · rw [State.openSession, hnone]
  · rw [State.reg_showSession_ne (by decide), State.reg_of_regs (State.unholdAll_regs ..), hstitch]
  · rw [hv]
    exact State.sessHeld_unholdAll (.inl hq)

theorem State.closed_abortSession {stat : W64} (h : s.onf.session = some ss) : s.Closed (s.abortSession stat) ss.held := by
  have hc := State.closed_closeSession h
  unfold State.abortSession
  simp only [h]
  have h2 : s.Closed (if s.closeSession.mirrored = true then s.closeSession.sendFlit .abort else s.closeSession) ss.held := by
    split
    · exact hc.of_eq rfl rfl rfl
    · exact hc
  split
  · exact h2
  · exact h2.evtOnAll.reply

end

end Sys2Proof.Machine
end

section
/-!
O24, O23. The commands of a session: each is accepted (`State.command_admits`), judged by `inSession`, and does its one thing.
-/

namespace Sys2Proof.Machine

section

variable {s u : State} {r : OnfReq} {ss : Session} {sess : Nat}

theorem Answers.imp {i : Instr} {op st : Nat} {b : List Byte} {p q : State → Prop} (h : Answers i s r op st b p) (hpq : ∀ t, p t → q t) :
    Answers i s r op st b q := by
  obtain ⟨t, ht, hp⟩ := h
  exact ⟨t, ht, hpq t hp⟩

theorem State.staged_of_closed {off : Nat} (h : s.onf.session = none) : s.staged off = s.reg off := by
  simp only [State.staged, h]

theorem State.epoch_taken : (s.taken r).epoch = s.epoch := State.fld_of_reg (State.reg_of_regs (s.taken_regs r))

theorem State.now_taken : (s.taken r).now = s.now := by
  rw [State.now, State.taken_tmu, State.now]

/-! ### BASTE_OPEN -/

/-- The number of the session that opens next (R59). -/
def State.nextSess (s : State) : Nat := if s.onf.sessNum = 65535 then 1 else s.onf.sessNum + 1

/-- The session that a request opens. -/
def State.newSession (s : State) (r : OnfReq) (idleMs : Nat) : Session :=
  { number := s.nextSess, owner := r.sender, ownerCh := r.ch, critical := r.crit, idleMs := if idleMs = 0 then 10000 else idleMs, idleAt := s.now, regs := []
    tabs := [], checked := false, held := [], armed := none }

/-- The state in which a session has just been opened. -/
def State.opened (s : State) (r : OnfReq) (idleMs : Nat) : State :=
  State.showSession { s with onf := { s.onf with sessNum := s.nextSess, session := some (s.newSession r idleMs) } }

theorem State.nextSess_ne_zero (s : State) : s.nextSess ≠ 0 := by
  unfold State.nextSess
  split
  · exact Nat.one_ne_zero
  · exact Nat.succ_ne_zero _

theorem exec_basteOpen {idleMs : Nat} (h : s.admits r 0x0301 = true) (hidle : idleMs = 0 ∨ 100 ≤ idleMs ∧ idleMs ≤ 600000) (hrole : (s.taken r).role ≠ 2)
    (hnone : (s.taken r).onf.session = none) : exec (.basteOpen r idleMs) s =
      .next (((s.taken r).opened r idleMs).reply r 0x0301 0 (leBytes 2 (s.taken r).nextSess ++ zeros 2)) := by
  have hrange : ¬ (idleMs != 0 && (decide (idleMs < 100) || decide (600000 < idleMs))) = true := by
    simp only [Bool.and_eq_true, bne_iff_ne, Bool.or_eq_true, decide_eq_true_eq]
    omega
  change execBasteOpen r idleMs s = _
  rw [execBasteOpen, State.command_admits h]
  dsimp only
  rw [if_neg hrange, if_neg hrole, if_neg (by simp [hnone])]
  rfl

theorem State.opened_spec {idleMs : Nat} : (s.opened r idleMs).onf.session = some (s.newSession r idleMs) ∧
    (s.opened r idleMs).fld R.ONF_BASTE_STAT.STATE = 1 ∧ (s.opened r idleMs).fld R.ONF_BASTE_STAT.SESSION = s.nextSess % 65536 := by
  refine ⟨?_, State.fld_showSession_open (ss := s.newSession r idleMs) ?_ rfl rfl⟩
  · rw [State.opened, State.onf_showSession]
  · exact State.openSession_eq_some.2 ⟨rfl, s.nextSess_ne_zero⟩

/-! ### BASTE_CHECK -/

theorem exec_basteCheck_solo (h : s.admits r 0x0303 = true) (ho : (s.taken r).owns r (some sess) ss) (hl : (s.taken r).linkLost = false)
    (hm : (s.taken r).mirrored = false) : exec (.basteCheck r sess) s =
      .next (((s.taken r).heard r (some sess)).checkDone r ((s.taken r).heard r (some sess)).violations) := by
  change execBasteCheck r sess s = _
  rw [execBasteCheck, State.command_admits h, State.inSession_owns ho]
  simp only [State.linkLost_heard, State.mirrored_heard, hl, hm, Bool.false_eq_true, if_false]

/-- In a mirroring pair the check waits for the mirror's violations (R70). -/
theorem exec_basteCheck_mirrored (h : s.admits r 0x0303 = true) (ho : (s.taken r).owns r (some sess) ss) (hl : (s.taken r).linkLost = false)
    (hm : (s.taken r).mirrored = true) : Completes (.basteCheck r sess) s fun t =>
      t.onf.twinWaits.length = (s.taken r).onf.twinWaits.length + 1 ∧ t.regs = (s.taken r).regs := by
  obtain ⟨_, hh⟩ := (s.taken r).heard_shape r (some sess)
  have hexec : exec (.basteCheck r sess) s = execBasteCheck r sess s := rfl
  rw [Completes, hexec, execBasteCheck, State.command_admits h, State.inSession_owns ho]
  simp only [State.linkLost_heard, State.mirrored_heard, hl, hm, Bool.false_eq_true, if_false, if_true]
  rw [hh]
  exact ⟨_, rfl, List.length_append, rfl⟩

/-! ### BASTE_ABORT -/

theorem exec_basteAbort (h : s.admits r 0x0305 = true) : exec (.basteAbort r sess) s =
    .next ((s.taken r).inSession r 0x0305 (some sess) E.PRIVILEGE false fun u _ => (u.abortSession (u.reg R.ONF_BASTE_STAT.off)).reply r 0x0305 0 []) := by
  change execBasteAbort r sess s = _
  rw [execBasteAbort, State.command_admits h]

/-- The owner's abort closes the session. -/
theorem answers_basteAbort (h : s.admits r 0x0305 = true) (ho : (s.taken r).owns r (some sess) ss) :
    Answers (.basteAbort r sess) s r 0x0305 0 [] fun t => (s.taken r).Closed t ss.held := by
  obtain ⟨idleAt, hh⟩ := State.heard_eq (r := r) (named := some sess) ho.1
  refine ⟨_, by rw [exec_basteAbort h, State.inSession_owns ho], ?_⟩
  rw [hh]
  exact State.closed_abortSession (s := (s.taken r).setSession (some { ss with idleAt })) (ss := { ss with idleAt }) rfl

/-! ### BASTE_STATUS -/

theorem exec_basteStatus_open (h : s.admits r 0x0306 = true) (ho : (s.taken r).openSession = some ss) (hn : sess = 0 ∨ sess = ss.number) :
    exec (.basteStatus r sess) s = .next ((s.taken r).reply r 0x0306 0 (leBytes 8 ((s.taken r).reg R.ONF_BASTE_STAT.off).toNat ++
      leBytes 8 ((s.taken r).reg R.ONF_STITCH_AT.off).toNat ++ leBytes 4 (s.taken r).epoch ++ leBytes 4 (ss.regs.length + ss.tabs.length) ++
      leBytes 4 (if ss.armed.isSome then 0xFFFFFFFF else ss.idleMs - ((s.taken r).now - ss.idleAt) / 1000000) ++ zeros 4)) := by
  have hsess : ¬ (sess != 0 && sess != ss.number) = true := by
    rcases hn with rfl | rfl <;> simp
  change execBasteStatus r sess s = _
  rw [execBasteStatus, State.command_admits h]
  simp only [ho, Option.map_some, Option.getD_some, if_neg hsess, Option.isNone_some, Bool.false_eq_true, if_false, State.idleLeft]

/-- With no session the time left is a free value (log entry 83). -/
theorem exec_basteStatus_none (h : s.admits r 0x0306 = true) (ho : (s.taken r).openSession = none) :
    exec (.basteStatus r 0) s = .next ((s.taken r).drawn.reply r 0x0306 0 (leBytes 8 ((s.taken r).reg R.ONF_BASTE_STAT.off).toNat ++
      leBytes 8 ((s.taken r).reg R.ONF_STITCH_AT.off).toNat ++ leBytes 4 (s.taken r).epoch ++ leBytes 4 0 ++
      leBytes 4 ((s.taken r).free % 2 ^ 32) ++ zeros 4)) := by
  change execBasteStatus r 0 s = _
  rw [execBasteStatus, State.command_admits h]
  simp [ho, State.idleLeft]

/-! ### BASTE_IDLE_TIMEOUT -/

theorem exec_basteIdleTimeout_idle (hup : s.up = true) (ho : s.openSession = some ss) (ha : ss.armed = none)
    (hidle : ss.idleAt + ss.idleMs * 1000000 ≤ s.now) : exec .basteIdleTimeout s =
      .next ((s.abortSession (s.reg R.ONF_BASTE_STAT.off)).evtOnAll 7 (s.reg R.ONF_BASTE_STAT.off) E.TIMEOUT (sortUp (ss.ownerCh :: s.subscribers 7))) := by
  change execBasteIdleTimeout s = _
  rw [execBasteIdleTimeout, State.whenUp_of_up hup]
  simp [ho, ha, hidle]

theorem exec_basteIdleTimeout_busy (hup : s.up = true) (ho : s.openSession = some ss) (hbusy : s.now < ss.idleAt + ss.idleMs * 1000000) :
    exec .basteIdleTimeout s = .next s := by
  change execBasteIdleTimeout s = _
  rw [execBasteIdleTimeout, State.whenUp_of_up hup]
  simp [ho, hbusy]

end

/-- Settles O24: the owner's abort by `answers_basteAbort`; no session, or another number, is what `inSession` refuses. -/
theorem abortDiscards : Obligations.AbortDiscards := by
  intro s r sess ss h u
  refine ⟨fun ho => (answers_basteAbort h ho).imp fun t ht => ?_, fun hnone => ?_, fun hs hne => ?_⟩
  · obtain ⟨hsession, -, hepoch, hheld⟩ := ht
    exact ⟨hsession, fun _ => State.staged_of_closed hsession, hheld, hepoch⟩
  · rw [exec_basteAbort h, State.inSession_none hnone]
  · rw [exec_basteAbort h, State.inSession_other hs (by simpa using hne.symm)]

/-- Settles O23: one lemma for each command of the session; what an end of the session leaves is `State.Closed`. -/
theorem basteSession : Obligations.BasteSession := by
  intro s r sess idleMs ss u n
  refine ⟨fun h hidle hrole hnone => ⟨_, exec_basteOpen h hidle hrole hnone, ?opened⟩, fun h ho hl hm => exec_basteCheck_solo h ho hl hm,
    fun h ho hl hm => exec_basteCheck_mirrored h ho hl hm, fun h ho => (answers_basteAbort h ho).imp fun t ht => ?abort,
    fun h ho hn => ?status, fun h hnone _ => ⟨leBytes 4 (u.free % 2 ^ 32), rfl, u.drawn, exec_basteStatus_none h hnone, rfl⟩,
    fun hup ho ha hidle => ⟨_, exec_basteIdleTimeout_idle hup ho ha hidle, ?idle⟩,
    fun hup ho _ hbusy => exec_basteIdleTimeout_busy hup ho hbusy⟩
  case opened =>
    obtain ⟨hsession, hstate, hnum⟩ := State.opened_spec (s := u) (r := r) (idleMs := idleMs)
    refine ⟨?_, hstate, hnum⟩
    rw [hsession, State.newSession, State.now_taken]
    rfl
  case abort =>
    obtain ⟨hsession, hstate, hepoch, -⟩ := ht
    exact ⟨hsession, hstate, hepoch.trans State.epoch_taken⟩
  case status =>
    rw [exec_basteStatus_open h ho hn, State.now_taken]
    rfl
  case idle =>
    obtain ⟨hsession, hstate, hepoch, -⟩ :=
      (State.closed_abortSession (stat := s.reg R.ONF_BASTE_STAT.off) (State.openSession_eq_some.1 ho).1).evtOnAll
    exact ⟨hsession, hstate, hepoch, State.evtWaits_evtOnAll (.inr (mem_sortUp.2 List.mem_cons_self))⟩

end Sys2Proof.Machine
end

section
/-!
O25. What a staging command hands to `stageAnd` (one lemma for each command, all by `State.inSession_stages`), and what `stageAnd` does with one
register: its staged copy takes the value (`State.staged_stageReg`), and nothing live moves but ONF_BASTE_STAT.
-/

namespace Sys2Proof.Machine

section

variable {s : State} {r : OnfReq} {ss : Session}

/-! ### The commands -/

theorem exec_basteWrite {sess : Nat} {ents l : List (Nat × W64)} (h : s.admits r 0x0302 = true) (hs : (s.taken r).stages r (some sess) ss) (hne : ents ≠ [])
    (hlen : ents.length ≤ 252) (hl : rwbEntries ents = some l) (hd : ((s.taken r).heard r (some sess)).stageDenied r ss l = false) :
    exec (.basteWrite r sess ents) s = .next (((s.taken r).heard r (some sess)).stageAnd r 0x0302 l [] []) := by
  have hcount : ¬ (ents.isEmpty || decide (252 < ents.length)) = true := by simp [hne, hlen]
  change execBasteWrite r sess ents s = _
  rw [execBasteWrite, State.command_admits h]
  rw [if_neg hcount, hl]
  dsimp only
  rw [State.inSession_stages hs, if_neg (by simp [hd])]

theorem exec_fnConfig {ents l : List (Nat × W64)} (h : s.admits r 0x0101 = true) (hs : (s.taken r).stages r none ss) (hl : rwbEntries ents = some l)
    (hcfg : (l.all fun e => fnConfigReg e.1) = true) (hd : ((s.taken r).heard r none).stageDenied r ss l = false) :
    exec (.fnConfig r ents) s = .next (((s.taken r).heard r none).stageAnd r 0x0101 l [] []) := by
  change execFnConfig r ents s = _
  rw [execFnConfig, State.command_admits h]
  simp only [hl, hcfg, Bool.not_true, Bool.false_eq_true, if_false]
  rw [State.inSession_stages hs, if_neg (by simp [hd])]

theorem qpRangeBad_eq_false {count first : Nat} (h0 : 0 < count) (h1 : count ≤ 4096) (h2 : first + count ≤ 65536) : qpRangeBad count first = false := by
  simp only [qpRangeBad, Bool.or_eq_false_iff, beq_eq_false_iff_ne, decide_eq_false_iff_not]
  omega

/-- No local index of the grant is one that the function has in the staged state. -/
theorem State.locals_free {f count loc : Nat} (h : ∀ e ∈ s.owners true, e.2.1 = f → e.2.2 < loc ∨ loc + count ≤ e.2.2) :
    ((List.range count).any fun i => (((s.owners true).filter fun e => e.2.1 == f).map fun e => e.2.2).contains (loc + i)) = false := by
  rw [List.any_eq_false]
  intro i hi hc
  simp only [List.contains_iff_mem, List.mem_map, List.mem_filter, beq_iff_eq] at hc
  obtain ⟨e, ⟨he, hf⟩, hl⟩ := hc
  have := h e he hf
  have := List.mem_range.1 hi
  omega

theorem exec_qpGrant {f count first loc cls : Nat} (h : s.admits r 0x0201 = true) (hs : (s.taken r).stages r none ss) (h0 : 0 < count) (h1 : count ≤ 4096)
    (h2 : first + count ≤ 65536) (h3 : loc + count ≤ 4096) (h4 : cls ≤ 7) (hn : (s.taken r).fnNamed true f = true) (hm : (s.taken r).mine true r f = true)
    (hfree : ∀ q ∈ qpRun count first, ((s.taken r).heard r none).stagedFld (R.QFAB_QOWN.VALID q) ≠ 1)
    (hloc : ∀ e ∈ ((s.taken r).heard r none).owners true, e.2.1 = f → e.2.2 < loc ∨ loc + count ≤ e.2.2) :
    exec (.qpGrant r f count first loc cls) s = .next (((s.taken r).heard r none).stageAnd r 0x0201
      ((qpRun count first).map fun q => (R.QFAB_QOWN.off q, qownVal f (loc + (q - first)) cls)) [] []) := by
  have hrange : ¬ (qpRangeBad count first || decide (4096 < loc + count) || decide (7 < cls)) = true := by
    simp only [qpRangeBad_eq_false h0 h1 h2, Bool.false_or, Bool.or_eq_true, decide_eq_true_eq]
    omega
  have hvalid : ((qpRun count first).any fun q => ((s.taken r).heard r none).stagedFld (R.QFAB_QOWN.VALID q) == 1) = false :=
    List.any_eq_false.2 fun q hq => by simpa using hfree q hq
  change execQpGrant r f count first loc cls s = _
  rw [execQpGrant, State.command_admits h]
  dsimp only
  rw [if_neg hrange, if_neg (by simp [hn]), if_neg (by simp [hm]), State.inSession_stages hs]
  rw [hvalid, State.locals_free hloc, Bool.false_or, if_neg Bool.false_ne_true]

/-- Revoked QPs take an empty ownership entry, CLASS and LOCAL included (log entry 87, DEDUCED). -/
theorem exec_qpRevoke {f count first : Nat} (h : s.admits r 0x0202 = true) (hs : (s.taken r).stages r none ss) (h0 : 0 < count) (h1 : count ≤ 4096)
    (h2 : first + count ≤ 65536) (hn : (s.taken r).fnNamed true f = true) (hm : (s.taken r).mine true r f = true)
    (hown : ∀ q ∈ qpRun count first, ((s.taken r).heard r none).qpOf true f q = true) :
    exec (.qpRevoke r f count first) s =
      .next (((s.taken r).heard r none).stageAnd r 0x0202 ((qpRun count first).map fun q => (R.QFAB_QOWN.off q, 0)) [] []) := by
  have hall : ((qpRun count first).any fun q => !((s.taken r).heard r none).qpOf true f q) = false :=
    List.any_eq_false.2 fun q hq => by simp [hown q hq]
  change execQpRevoke r f count first s = _
  rw [execQpRevoke, State.command_admits h]
  dsimp only
  rw [if_neg (by simp [qpRangeBad_eq_false h0 h1 h2]), if_neg (by simp [hn]), if_neg (by simp [hm]), State.inSession_stages hs, hall,
    if_neg Bool.false_ne_true]

theorem exec_qpSchedFunction {f : Nat} {v0 v1 : W64} (h : s.admits r 0x0205 = true) (hs : (s.taken r).stages r none ss) (hf : f < 0x1020)
    (hm : (s.taken r).mine true r f = true) : exec (.qpSchedFunction r f v0 v1) s =
      .next (((s.taken r).heard r none).stageAnd r 0x0205 [(R.QFAB_FSCHED0.off f, v0), (R.QFAB_FSCHED1.off f, v1)] [] []) := by
  change execQpSchedFunction r f v0 v1 s = _
  rw [execQpSchedFunction, State.command_admits h]
  rw [if_neg (by omega), if_neg (by simp [hm]), State.inSession_stages hs]

theorem exec_qpSchedAccount {a : Nat} {v1 : W64} (h : s.admits r 0x0205 = true) (hs : (s.taken r).stages r none ss) (ha : a < 8192) (hch : 32 ≤ r.ch) :
    exec (.qpSchedAccount r a v1) s = .next (((s.taken r).heard r none).stageAnd r 0x0205 [(R.QFAB_ASCHED.off a, v1)] [] []) := by
  change execQpSchedAccount r a v1 s = _
  rw [execQpSchedAccount, State.command_admits h]
  rw [if_neg (by omega), if_neg (by omega), State.inSession_stages hs]

/-! ### One staged register -/

variable {live o : Nat} {v : W64}

/-- The session with a register staged: unchecked again (R64). -/
def Session.withReg (ss : Session) (live : Nat) (v : W64) : Session := { ss with regs := smIns ss.regs live v, checked := false }

theorem State.stageReg_open (hs : s.onf.session = some ss) : s.stageReg (live, v) = s.setSession (some (ss.withReg live (s.stageVal live v))) := by
  simp only [State.stageReg, hs]
  rfl

theorem State.staged_congr {t u : State} (hs : t.onf.session = u.onf.session) (hr : t.regs = u.regs) : t.staged o = u.staged o := by
  simp only [State.staged, hs, State.reg_of_regs hr]

theorem State.staged_showSession (h : o ≠ R.ONF_BASTE_STAT.off) : s.showSession.staged o = s.staged o := by
  simp only [State.staged, State.onf_showSession, State.reg_showSession_ne h]

theorem State.staged_stageReg_self (hs : s.onf.session = some ss) : (s.stageReg (live, v)).staged live = s.stageVal live v := by
  rw [State.stageReg_open hs]
  simp only [State.staged, State.setSession, Session.withReg, find_smIns_self]

theorem State.staged_stageReg_ne (hs : s.onf.session = some ss) (h : o ≠ live) : (s.stageReg (live, v)).staged o = s.staged o := by
  rw [State.stageReg_open hs]
  simp only [State.staged, State.setSession, Session.withReg, find_smIns_ne h, hs]
  rfl

/-- The state with one register staged and the session shown. -/
def State.withStaged (s : State) (live : Nat) (v : W64) : State := (s.stageReg (live, v)).showSession

theorem State.withStaged_shape (hs : s.onf.session = some ss) : ∃ regs,
    s.withStaged live v = { s.setSession (some (ss.withReg live (s.stageVal live v))) with regs } := by
  rw [State.withStaged, State.stageReg_open hs]
  exact State.sameButRegs_showSession _

theorem State.reg_withStaged (hs : s.onf.session = some ss) (h : o ≠ R.ONF_BASTE_STAT.off) : (s.withStaged live v).reg o = s.reg o := by
  rw [State.withStaged, State.reg_showSession_ne h, State.stageReg_open hs]
  rfl

theorem State.stageAnd_one {op : Nat} {params : List Byte} (hm : s.mirrored = false) :
    s.stageAnd r op [(live, v)] [] params = (s.withStaged live v).reply r op 0 params := by
  simp only [State.stageAnd, hm, Bool.false_and, Bool.false_eq_true, if_false]
  rfl

/-- A command's reply waits for the mirror. -/
def State.awaits (s : State) (w : TwinWait) : State := { s with onf := { s.onf with twinWaits := s.onf.twinWaits ++ [w] } }

/-- In a mirroring pair one flit takes the value to the mirror, and the reply waits (R70). -/
theorem State.stageAnd_one_mirrored (s : State) (r : OnfReq) (op : Nat) (params : List Byte) (hm : s.mirrored = true) (hp : ownPins live = false) :
    ∃ w p, s.stageAnd r op [(live, v)] [] params = ((s.withStaged live v).awaits w).sendFlit p := by
  have hfar : ([(live, v)].filter fun e => !ownPins e.1) = [(live, v)] := by simp [hp]
  simp only [State.stageAnd, hm, hfar, List.isEmpty_cons, Bool.false_and, Bool.not_false, Bool.and_self, if_true]
  exact ⟨_, _, rfl⟩

end

/-- Settles O25: the commands one by one, then `State.stageAnd_one` outside a mirroring pair and `State.stageAnd_one_mirrored` inside one. -/
theorem staging : Obligations.Staging := by
  refine ⟨fun s r sess f count first loc cls ss ents l v0 v1 => ⟨exec_basteWrite, exec_fnConfig, exec_qpGrant, exec_qpRevoke, exec_qpSchedFunction,
    exec_qpSchedAccount⟩, fun s r op live v params ss hs hlive => ⟨fun hm => ?alone, fun hm hp => ?paired⟩⟩
  case alone =>
    refine ⟨s.withStaged live v, State.stageAnd_one hm, ?_, fun o ho => State.reg_withStaged hs ho, fun o hne ho => ?_, ?_⟩
    · rw [State.withStaged, State.staged_showSession hlive, State.staged_stageReg_self hs]
    · rw [State.withStaged, State.staged_showSession ho, State.staged_stageReg_ne hs hne]
    · obtain ⟨_, h⟩ := State.withStaged_shape (live := live) (v := v) hs
      rw [h]
      rfl
  case paired =>
    intro t
    obtain ⟨w, p, (h : t = _)⟩ := s.stageAnd_one_mirrored (v := v) r op params hm hp
    obtain ⟨_, hshape⟩ := State.withStaged_shape (live := live) (v := v) hs
    have hstaged : t.staged live = (s.withStaged live v).staged live := State.staged_congr (by rw [h]; rfl) (by rw [h]; rfl)
    refine ⟨?_, ?_, ?_, ?_⟩
    · rw [hstaged, State.withStaged, State.staged_showSession hlive, State.staged_stageReg_self hs]
    · rw [h, hshape]; rfl
    · rw [h, hshape]; rfl
    · rw [h, hshape]; exact List.length_append

end Sys2Proof.Machine
end

section
/-!
O21. The device commands, the retry of the reservation ceiling and an event packet: one lemma for each command.
-/

namespace Sys2Proof.Machine

section

variable {s : State} {r : OnfReq}

theorem exec_devInfo (h : s.admits r 1 = true) : exec (.devInfo r) s = .next ((s.taken r).reply r 1 0 (s.taken r).devInfoBytes) := by
  change execDevInfo r s = _
  rw [execDevInfo, State.command_admits h]

theorem State.resetRole_of_solo (h : s.role = 0) : s.resetRole = false := by
  simp [State.resetRole, h]

/-- The reply goes first; the delay runs until DEV_RESET_DELAY_EXPIRY (log entry 77). -/
theorem exec_devReset {delayMs : Nat} (h : s.admits r 2 = true) (hd : delayMs ≤ 60000) (hrole : (s.taken r).role = 0)
    (hnone : (s.taken r).onf.resetDelay = none) : exec (.devReset r Config.serial delayMs) s =
      .next { (s.taken r).reply r 2 0 [] with onf := { ((s.taken r).reply r 2 0 []).onf with resetDelay := some r } } := by
  change execDevReset r Config.serial delayMs s = _
  rw [execDevReset, State.command_admits h]
  dsimp only
  rw [if_neg (not_not_intro rfl), if_neg (Nat.not_lt.2 hd), if_neg (by simp [State.resetRole_of_solo hrole]), if_neg (by simp [hnone])]

theorem exec_evtSubscribe {cls : W64} (h : s.admits r 3 = true) (hc : cls.toNat < 1024) (h6 : cls.getLsbD 6 = true → r.crit = true ∨ r.ch = 35) :
    exec (.evtSubscribe r cls) s = .next (((s.taken r).setMask r.ch cls.toNat).reply r 3 0 (leBytes 8 cls.toNat)) := by
  have hpriv : ¬ (cls.getLsbD 6 && !r.crit && r.ch != 35) = true := by
    simp only [Bool.and_eq_true, Bool.not_eq_true', bne_iff_ne, not_and, not_not]
    exact fun ⟨hb, hcrit⟩ => (h6 hb).resolve_left (by simp [hcrit])
  change execEvtSubscribe r cls s = _
  rw [execEvtSubscribe, State.command_admits h]
  rw [if_neg (by omega), if_neg hpriv]

/-- An OEM handler's reply is free, and it changes no register and no memory (log entry 75, a design choice). -/
theorem answers_oemCommand {op : Nat} {params : List Byte} (h0 : 0x8000 ≤ op) (h1 : op < 0x10000) (h : s.admits r op = true) :
    ∃ (status : Nat) (l : List Byte), Answers (.oemCommand r op params) s r op status l fun v =>
      .oem r.ch op ∈ v.out ∧ v.regs = (s.taken r).regs ∧ v.mem = (s.taken r).mem := by
  let u := (s.taken r).drawn.emit (.oem r.ch op)
  have hexec : exec (.oemCommand r op params) s =
      .next (u.drawn.reply r op ((s.taken r).free % 65536) (u.freeBytes (4 * (u.free % 1012)))) := by
    change execOemCommand r op params s = _
    rw [execOemCommand, if_pos ⟨h0, h1⟩, State.command_admits h]
  exact ⟨_, _, _, hexec, List.mem_cons_self, rfl, rfl⟩

/-! ### The ceiling -/

/-- Both copies are written at once, or each for itself (log entry 79, a design choice). -/
theorem exec_ceilingWriteRetry_both {h : Nat} (hup : s.up = true) (hp : s.onf.ceilPending = some h) :
    exec (.ceilingWriteRetry true true) s = .next { s with onf := { s.onf with ceil0 := h, ceil1 := h, ceilPending := none } } := by
  change execCeilingWriteRetry true true s = _
  rw [execCeilingWriteRetry, State.whenUp_of_up hup]
  simp [hp]

theorem completes_ceilingWriteRetry_inactive {h : Nat} (hup : s.up = true) (hp : s.onf.ceilPending = some h) :
    Completes (.ceilingWriteRetry true false) s fun t => (s.slot = 0 → t.onf.ceil1 = h ∧ t.onf.ceil0 = s.onf.ceil0) ∧
      (s.slot ≠ 0 → t.onf.ceil0 = h ∧ t.onf.ceil1 = s.onf.ceil1) := by
  have hexec : exec (.ceilingWriteRetry true false) s = execCeilingWriteRetry true false s := rfl
  refine ⟨_, by rw [hexec, execCeilingWriteRetry, State.whenUp_of_up hup], fun h0 => ?_, fun h0 => ?_⟩
  · simp [hp, h0]
  · simp [hp, h0]

/-! ### Event packets -/

/-- The state in which the event packet of a class has left its queue (R52). -/
def State.evtSent (s : State) (ch n : Nat) : State :=
  { s with onf := { s.onf with
      evts := smDel s.onf.evts (evtKey ch n), evtSeq := smPut 0 s.onf.evtSeq ch ((smGet 0 s.onf.evtSeq ch + 1) % 2 ^ 32) } }

theorem exec_evtPacketSend {ch n k : Nat} {e : EvtPkt} (hup : s.up = true) (hch : s.chanOpen ch = true)
    (he : s.onf.evts.find? (fun e => e.1 == evtKey ch n) = some (k, e)) : exec (.evtPacketSend ch n) s =
      .next ((s.evtSent ch n).send ch
        { opcode := 3, seq := smGet 0 s.onf.evtSeq ch, sender := 0xF0000000, tag := 0, status := e.status, ctr := 0, crit := false, evt := true, more := false
          params := evtParams n e }) := by
  change execEvtPacketSend ch n s = _
  rw [execEvtPacketSend, State.whenUp_of_up hup, he]
  dsimp only
  rw [if_neg (by simp [hch])]
  rfl

end

/-- Settles O21: one lemma for each command. -/
theorem deviceCommands : Obligations.DeviceCommands := by
  refine fun s r cls delayMs => ⟨exec_devInfo, exec_devReset, exec_evtSubscribe, fun op params h0 h1 h => answers_oemCommand h0 h1 h,
    fun hup h hp => ⟨exec_ceilingWriteRetry_both hup hp, completes_ceilingWriteRetry_inactive hup hp⟩,
    fun ch n e k hup hch he => ⟨s.evtSent ch n, exec_evtPacketSend hup hch he, smGet_del_self, smGet_put_self, rfl⟩⟩

end Sys2Proof.Machine
end

section
/-!
O22. A mailbox's GO and DONE by whoever reaches it, and a packet that arrives: dropped by its header (`State.onfDrop_spec`), refused for a field that no
request may have, or run as its command.
-/

namespace Sys2Proof.Machine

section

variable {s : State} {ch : Nat} {who : Agent}

/-! ### What has left the device -/

theorem State.mem_out_sendFlits {e : OutEvent} {l : List FlitPayload} (h : e ∈ s.out) : e ∈ (s.sendFlits l).out := by
  induction l generalizing s with
  | nil => exact h
  | cons p l ih => exact ih (List.mem_cons_of_mem _ h)

theorem State.mem_out_setFn {e : OutEvent} {f : Nat} {c : FnCtx} (h : e ∈ s.out) : e ∈ (s.setFn f c).out := by
  unfold State.setFn
  split
  · exact State.mem_out_sendFlits h
  · exact h

theorem State.mem_out_mbxSignal {e : OutEvent} (h : e ∈ s.out) : e ∈ (s.mbxSignal ch).out := by
  unfold State.mbxSignal State.msix State.msixOf
  dsimp only
  split
  · split
    · split
      · exact State.mem_out_setFn h
      · exact List.mem_cons_of_mem _ h
    · exact h
  · exact h

/-! ### GO and DONE -/

@[simp] theorem State.mbx_setMbx_self {m : Mailbox} : (s.setMbx ch m).mbx ch = m := smGet_put_self

theorem State.mbx_mbxSignal (s : State) (ch : Nat) : (s.mbxSignal ch).mbx ch = s.mbx ch := by
  rw [State.mbx, State.mbxSignal_onf, State.mbx]

theorem isMbx_of_reaches (h : s.reaches ch who) : isMbx ch = true := by
  rcases h with ⟨h, -⟩ | ⟨rfl | rfl, -⟩
  · simp [isMbx, h]
  · rfl
  · rfl

theorem State.mbxTry_of_reaches {k : AccKind} {off : Nat} {f : State → State} (h : s.reaches ch who) : s.mbxTry ch who k off f = f s := by
  unfold State.mbxTry
  rcases h with ⟨hlt, rfl, hr⟩ | ⟨hd, hadm⟩
  · simp [hlt, hr]
  · rw [if_neg (by omega), if_pos hadm]

theorem exec_mailboxGo (hup : s.up = true) (h : s.reaches ch who) : exec (.mailboxGo ch who) s = .next (s.mbxGo ch) := by
  change execMailboxGo ch who s = _
  rw [execMailboxGo, State.whenUp_of_up hup, if_pos (isMbx_of_reaches h), State.mbxTry_of_reaches h]

theorem exec_mailboxDoneClear (hup : s.up = true) (h : s.reaches ch who) : exec (.mailboxDoneClear ch who) s = .next (s.mbxDone ch) := by
  change execMailboxDoneClear ch who s = _
  rw [execMailboxDoneClear, State.whenUp_of_up hup, if_pos (isMbx_of_reaches h), State.mbxTry_of_reaches h]

/-- The mailbox whose reply buffer has just been freed. -/
def State.mbxFreed (s : State) (ch : Nat) : State := s.setMbx ch { s.mbx ch with done := false, busy := (s.mbx ch).busy && (s.mbx ch).lastMore }

theorem State.mbxDone_of_done (h : (s.mbx ch).done = true) : s.mbxDone ch = (s.mbxFreed ch).mbxNext ch := by
  rw [State.mbxDone, if_pos h, State.mbxFreed]

theorem State.mbxDone_of_not_done (h : (s.mbx ch).done = false) : s.mbxDone ch = s := by
  rw [State.mbxDone, if_neg (by simp [h])]

theorem State.mbxNext_nil (h : (s.mbx ch).replies = []) : s.mbxNext ch = s := by
  simp only [State.mbxNext, h]

theorem State.mbxNext_cons {p : OnfPkt} {ps : List OnfPkt} (h : (s.mbx ch).replies = p :: ps) :
    ((s.mbxNext ch).mbx ch).done = true ∧ ((s.mbxNext ch).mbx ch).replies = ps ∧ ((s.mbxNext ch).mbx ch).reply = s.onfBytes p ∧
      .onf ch p ∈ (s.mbxNext ch).out := by
  let m : Mailbox := { s.mbx ch with reply := s.onfBytes p, done := true, lastMore := p.more || p.evt, replies := ps }
  have hnext : s.mbxNext ch = ((s.setMbx ch m).emit (.onf ch p)).mbxSignal ch := by
    simp only [State.mbxNext, h]
    rfl
  have hm : (s.mbxNext ch).mbx ch = m := by
    rw [hnext, State.mbx_mbxSignal]
    exact State.mbx_setMbx_self
  rw [hm, hnext]
  exact ⟨rfl, rfl, rfl, State.mem_out_mbxSignal List.mem_cons_self⟩

/-! ### Arrival -/

section

variable {b : List Byte}

/-- A mailbox whose GO is 0 gives the bytes that arrive. -/
theorem State.onfBytesIn_of_not_go (h : (s.mbx ch).go = false) : s.onfBytesIn ch b = b := by
  simp [State.onfBytesIn, h]

/-- Steps 1 and 2 drop a packet, or it is taken from its mailbox and judged (Table 02-4). -/
theorem exec_onafaetPacketArrival (hup : s.up = true) (hopen : s.chanOpen ch = true) (hch : ch < 36) (hlen : b.length ≤ 4096) (hgo : (s.mbx ch).go = false) :
    exec (.onafaetPacketArrival ch b) s = .next ((hdrDrop b).elim ((s.mbxTake ch).onfJudge ch b) (s.onfDrop ch)) := by
  change execOnafaetPacketArrival ch b s = _
  rw [execOnafaetPacketArrival, State.whenUp_of_up hup, if_neg (by simp [hopen, hch]), State.onfBytesIn_of_not_go hgo]
  dsimp only
  rw [if_neg (Nat.not_lt.2 hlen)]
  cases hdrDrop b with
  | none => rfl
  | some c => rfl

/-- A dropped packet is counted and reported; its mailbox shows the code, and BUSY falls (log entry 71, DEDUCED). -/
theorem State.onfDrop_spec (s : State) (ch code : Nat) :
    (s.onfDrop ch code).fld R.ONF_STATUS.DROPS = min (s.fld R.ONF_STATUS.DROPS + 1) (2 ^ R.ONF_STATUS.DROPS.w - 1) ∧
      (s.onfDrop ch code).bit R.ONF_STATUS.DROP_EVT = true ∧ .onfDrop ch code ∈ (s.onfDrop ch code).out ∧
      (isMbx ch = true → ((s.onfDrop ch code).mbx ch).drop = true ∧ ((s.onfDrop ch code).mbx ch).dropcode = code ∧
        ((s.onfDrop ch code).mbx ch).busy = false) := by
  let s1 := (s.bump R.ONF_STATUS.DROPS 1).setBit R.ONF_STATUS.DROP_EVT
  have hregs : (s.onfDrop ch code).regs = s1.regs := by
    unfold State.onfDrop
    dsimp only
    split
    · exact State.mbxSignal_regs _ _
    · rfl
  have hdrops : ((s.bump R.ONF_STATUS.DROPS 1).setBit R.ONF_STATUS.DROP_EVT).fld R.ONF_STATUS.DROPS =
      min (s.fld R.ONF_STATUS.DROPS + 1) (2 ^ R.ONF_STATUS.DROPS.w - 1) := by
    rw [State.setBit, State.fld_setFld_disj (by decide) (by decide), State.bump, State.fld_setFld_self (by decide)]
    exact Nat.mod_eq_of_lt (lt_of_le_of_lt (min_le_right _ _) (by decide))
  refine ⟨(State.fld_of_reg (State.reg_of_regs hregs)).trans hdrops,
    (State.bit_of_fld (State.fld_of_reg (State.reg_of_regs hregs))).trans (State.bit_setBit_self (by decide) (by decide)), ?_, fun hm => ?_⟩
  · unfold State.onfDrop
    dsimp only
    split
    · exact State.mem_out_mbxSignal List.mem_cons_self
    · exact List.mem_cons_self
  · unfold State.onfDrop
    dsimp only
    rw [if_pos hm, State.mbx_mbxSignal, State.mbx_setMbx_self]
    exact ⟨rfl, rfl, rfl⟩

/-- R474: a header field that no request may have. -/
theorem State.onfJudge_hdrBad (hp : plenOk b = true) (hl : b.length = 32 + onfPlen b) (hb : hdrBad b = true) :
    s.onfJudge ch b = s.refuseReply (onfReqOf ch b) (leAt b 4 2) E.PARAM := by
  simp [State.onfJudge, hp, hl, hb]

/-- DEV_INFO is carried by every channel, and needs no CRIT (Table 02-5). -/
theorem State.accept_devInfo {r : OnfReq} (hc : r.crit = false) (hch : r.ch < 36) : s.accept r 1 = (s, .go) := by
  have hcode : chanCode r.ch ∈ [0, 1, 2, 3, 4] := by
    simp only [chanCode, List.mem_cons, List.not_mem_nil, or_false]
    split <;> omega
  simp only [State.accept, opRow, List.contains_iff_mem.2 hcode, hc]
  rfl

/-- A whole DEV_INFO request whose checks all pass is executed. -/
theorem State.onfJudge_devInfo (hch : ch < 36) (hp : plenOk b = true) (hl : b.length = 32 + onfPlen b) (hb : hdrBad b = false)
    (hs : (onfReqOf ch b).sender / 2 ^ 28 = chanCode ch) (hop : leAt b 4 2 = 1) (hc : onfCrit b = false) (hmore : (onfFlags b).testBit 3 = false)
    (hcrc : crc32c ((b.drop 32).take (onfPlen b - 4)) = leAt b (b.length - 4) 4) (hpart : s.partialOf (onfReqOf ch b) = none) :
    s.onfJudge ch b = (s.command (onfReqOf ch b) 1 fun u => u.reply (onfReqOf ch b) 1 0 u.devInfoBytes) := by
  have hcrit : (onfReqOf ch b).crit = false := hc
  have hlen : ¬ (!plenOk b || b.length != 32 + onfPlen b) = true := by simp [hp, hl]
  unfold State.onfJudge
  dsimp only
  rw [if_neg hlen, if_neg (by simp [hb]), if_neg (not_not_intro hs), hop, State.accept_devInfo hcrit hch]
  simp only [hcrit, hmore, hcrc, hpart, bne_self_eq_false, Bool.false_and, Bool.and_false, Bool.false_eq_true, if_false]
  rfl

end

end

/-- Settles O22: the mailbox by `mbxGo` and `mbxDone`, the packet by `onfDrop` and `onfJudge`. -/
theorem packetsAndMailboxes : Obligations.PacketsAndMailboxes := by
  refine ⟨fun s ch who hup hr => ⟨fun hb => ?go, fun hb => ?overrun, fun hd hn => ?last, fun hd p ps hn => ⟨_, exec_mailboxDoneClear hup hr, ?next⟩,
    fun hd => ?idle⟩, fun s ch code b hup hopen hch hlen hgo => ⟨fun hd => ⟨s.onfDrop ch code, ?dropped, s.onfDrop_spec ch code⟩,
      fun r hd hp hl hb hreq => ?refused, fun hd hp hl hb hs hop hc hmore hcrc _ hpart => ?run⟩⟩
  case go => rw [exec_mailboxGo hup hr, State.mbxGo, hb, if_neg Bool.false_ne_true]
  case overrun => rw [exec_mailboxGo hup hr, State.mbxGo, hb, if_pos rfl]
  case last =>
    rw [exec_mailboxDoneClear hup hr, State.mbxDone_of_done hd, State.mbxNext_nil (by rw [State.mbxFreed, State.mbx_setMbx_self, hn])]
    rfl
  case next =>
    rw [State.mbxDone_of_done hd]
    exact State.mbxNext_cons (s := s.mbxFreed ch) (by rw [State.mbxFreed, State.mbx_setMbx_self, hn])
  case idle => rw [exec_mailboxDoneClear hup hr, State.mbxDone_of_not_done hd]
  case dropped => rw [exec_onafaetPacketArrival hup hopen hch hlen hgo, hd, Option.elim_some]
  case refused => rw [exec_onafaetPacketArrival hup hopen hch hlen hgo, hd, Option.elim_none, State.onfJudge_hdrBad hp hl hb, hreq]
  case run =>
    have hpart' : (s.mbxTake ch).partialOf (onfReqOf ch b) = none := by
      rw [← hpart]
      unfold State.mbxTake
      split <;> rfl
    rw [exec_onafaetPacketArrival hup hopen hch hlen hgo, hd, Option.elim_none, State.onfJudge_devInfo hch hp hl hb hs hop hc hmore hcrc hpart']
    rfl

end Sys2Proof.Machine
end

section
/-!
O51. A power request is judged once (`State.askPower_judged`), whichever of its three paths it came by; then what a taken request leaves of its unit, of
the four harts of a tile and of the panel's service engine.
-/

namespace Sys2Proof.Machine

section

variable {s : State} {r : OnfReq} {who : Agent} {u st h e n : Nat} {l croak : Bool} {data : W64}

/-! ### The parts that power commands change -/

@[simp] theorem State.hart_setHart_self {x : Hart} : (s.setHart h x).hart h = x := smGet_put_self

theorem State.hart_setHart_ne {h' : Nat} {x : Hart} (hne : h' ≠ h) : (s.setHart h x).hart h' = s.hart h' := smGet_put_ne hne

@[simp] theorem State.unit_setUnit_self {x : UnitSt} : (s.setUnit u x).unit u = x := smGet_put_self

@[simp] theorem State.eng_setEng_self {x : Engine} : (s.setEng e x).eng e = x := smGet_put_self

theorem State.endWait_shape (s : State) (e : Nat) : ∃ engs, s.endWait e = { s with engs } := by
  unfold State.endWait
  dsimp only
  split
  · split
    · exact ⟨_, rfl⟩
    · exact ⟨_, rfl⟩
  · exact ⟨_, rfl⟩

/-- A line that becomes pending changes its engine alone. -/
theorem State.engLine_shape (s : State) (e n : Nat) : ∃ engs, s.engLine e n = { s with engs } := by
  obtain ⟨_, he⟩ := (s.setEng e { s.eng e with pend := (s.eng e).pend ||| 2 ^ n }).endWait_shape e
  exact ⟨_, he⟩

theorem State.pend_endWait : ((s.endWait e).eng e).pend = (s.eng e).pend := by
  unfold State.endWait
  dsimp only
  split
  · split
    · rw [State.eng_setEng_self]
      rfl
    · rfl
  · rfl

theorem State.pend_engLine : ((s.engLine e n).eng e).pend.testBit n = true := by
  unfold State.engLine
  rw [State.pend_endWait, State.eng_setEng_self]
  simp [Nat.testBit_two_pow_self]

theorem State.unit_engLine : (s.engLine e n).unit u = s.unit u := by
  obtain ⟨_, he⟩ := s.engLine_shape e n
  rw [he]
  rfl

theorem State.hart_engLine : (s.engLine e n).hart h = s.hart h := by
  obtain ⟨_, he⟩ := s.engLine_shape e n
  rw [he]
  rfl

theorem State.hartsDrop_shape (s : State) (refused : Bool) (hs : List Nat) : ∃ harts, s.hartsDrop refused hs = { s with harts } := by
  induction hs generalizing s with
  | nil => exact ⟨_, rfl⟩
  | cons h hs ih =>
    obtain ⟨_, he⟩ := ih (s.setHart h { s.hart h with
      preqPending := false, preqRefused := (s.hart h).preqRefused || (refused && (s.hart h).preqPending) })
    exact ⟨_, he⟩

theorem State.hartsAsk_shape (s : State) (st : Nat) (l on : Bool) (hs : List Nat) : ∃ harts, s.hartsAsk st l on hs = { s with harts } := by
  induction hs generalizing s with
  | nil => exact ⟨_, rfl⟩
  | cons h hs ih =>
    obtain ⟨_, he⟩ := ih (s.setHart h { s.hart h with preq := st, preqLining := l, preqPending := on, preqRefused := false })
    exact ⟨_, he⟩

/-- A hart that has asked for a power state. -/
def Hart.asked (x : Hart) (st : Nat) (l on : Bool) : Hart := { x with preq := st, preqLining := l, preqPending := on, preqRefused := false }

/-- Each hart of the list has asked, once or again; the others have not. -/
theorem State.hart_hartsAsk {on : Bool} {hs : List Nat} :
    (s.hartsAsk st l on hs).hart h = if h ∈ hs then (s.hart h).asked st l on else s.hart h := by
  induction hs generalizing s with
  | nil => rfl
  | cons k hs ih =>
    have hstep : s.hartsAsk st l on (k :: hs) = (s.setHart k ((s.hart k).asked st l on)).hartsAsk st l on hs := rfl
    rw [hstep, ih]
    by_cases hk : h = k
    · subst hk
      rw [State.hart_setHart_self, if_pos List.mem_cons_self]
      exact ite_self _
    · rw [State.hart_setHart_ne hk]
      simp [hk]

theorem mem_tileHarts {k : Nat} (hk : k < 4) : 4 * u + k ∈ tileHarts u := List.mem_map.2 ⟨k, List.mem_range.2 hk, rfl⟩

/-! ### The judgement (R411) -/

/-- What a request that names a unit, a state and its world must be to be judged at all: Hold is of a panel, and the Lining's to ask. -/
def PowerFits (u st : Nat) (l : Bool) : Prop := u < 52 ∧ (st = 3 → 16 ≤ u ∧ u < 20 ∧ l = true)

/-- The Shell may not ask for a claimed unit. -/
def State.PowerMay (s : State) (u : Nat) (l : Bool) : Prop := l = true ∨ s.unitClaimed u = false

/-- What Table 15-3 asks of the unit. -/
def State.PowerIdle (s : State) (u st : Nat) : Prop :=
  (16 ≤ u → u < 20 → st = 2 → s.panelIdle (u - 16) = true) ∧ (20 ≤ u → st = 1 ∨ st = 2 → s.quadIdle u = true)

/-- The answers that a judged request can have, as a state and a code. -/
def State.PowerJudged (s : State) (u st : Nat) (l : Bool) (answer : State → Nat → Prop) : Prop :=
  (PowerFits u st l → s.PowerMay u l → s.PowerIdle u st → answer (s.takePower u st l) 0) ∧
  (¬ PowerFits u st l → answer s E.PARAM) ∧
  (PowerFits u st l → ¬ s.PowerMay u l → answer (s.claimRefuse u) E.CLAIMED) ∧
  (PowerFits u st l → s.PowerMay u l → ¬ s.PowerIdle u st → answer s E.POWER_STATE)

theorem powerFits_iff : PowerFits u st l ↔ (decide (unitCount ≤ u) || (st == 3 && (!isPanel u || !l))) = false := by
  have hcount : decide (unitCount ≤ u) = false ↔ u < 52 := by
    rw [decide_eq_false_iff_not, Nat.not_le]
    rfl
  simp only [PowerFits, isPanel, Bool.or_eq_false_iff, hcount, Bool.and_eq_false_imp, beq_iff_eq, Bool.not_eq_false', Bool.and_eq_true, decide_eq_true_eq,
    and_assoc]

theorem State.powerMay_iff : s.PowerMay u l ↔ (!l && s.unitClaimed u) = false := by
  cases l <;> simp [State.PowerMay]

theorem State.powerIdle_iff (hu : u < 52) : s.PowerIdle u st ↔
    (isPanel u && st == 2 && !s.panelIdle (u - 16)) = false ∧ (isQuad u && (st == 1 || st == 2) && !s.quadIdle u) = false := by
  simp only [State.PowerIdle, isPanel, isQuad, hu, decide_true, Bool.and_true, Bool.and_eq_false_imp, Bool.and_eq_true, decide_eq_true_eq, beq_iff_eq,
    Bool.not_eq_false', Bool.or_eq_true, and_imp]

/-- One judgement, whichever path a request came by. -/
theorem State.askPower_judged (s : State) (u st : Nat) (l : Bool) : s.PowerJudged u st l fun w c => s.askPower u st l = (w, c) := by
  refine ⟨fun hf hm hi => ?_, fun hf => ?_, fun hf hm => ?_, fun hf hm hi => ?_⟩
  · obtain ⟨hp, hq⟩ := (State.powerIdle_iff hf.1).1 hi
    simp only [State.askPower, State.judgePower, powerFits_iff.1 hf, State.powerMay_iff.1 hm, hp, hq, Bool.false_eq_true, if_false]
  · have hbad : (decide (unitCount ≤ u) || (st == 3 && (!isPanel u || !l))) = true := by
      rwa [powerFits_iff, Bool.not_eq_false] at hf
    simp only [State.askPower, State.judgePower, hbad, if_true]
    rfl
  · have hbad : (!l && s.unitClaimed u) = true := by
      rwa [State.powerMay_iff, Bool.not_eq_false] at hm
    simp only [State.askPower, State.judgePower, powerFits_iff.1 hf, hbad, Bool.false_eq_true, if_false, if_true]
  · rw [State.powerIdle_iff hf.1, not_and_or, Bool.not_eq_false, Bool.not_eq_false] at hi
    have hj : s.judgePower u st l = some E.POWER_STATE := by
      simp only [State.judgePower, powerFits_iff.1 hf, State.powerMay_iff.1 hm, Bool.false_eq_true, if_false]
      rcases hi with hp | hq
      · rw [if_pos hp]
      · rw [if_pos hq, ite_self]
    simp only [State.askPower, hj]
    rfl

theorem State.PowerJudged.imp {p q : State → Nat → Prop} (hp : s.PowerJudged u st l p) (hpq : ∀ w c, p w c → q w c) : s.PowerJudged u st l q := by
  obtain ⟨h1, h2, h3, h4⟩ := hp
  exact ⟨fun hf hm hi => hpq _ _ (h1 hf hm hi), fun hf => hpq _ _ (h2 hf), fun hf hm => hpq _ _ (h3 hf hm), fun hf hm hi => hpq _ _ (h4 hf hm hi)⟩

/-! ### PWR_SET and PWR_STATUS -/

theorem exec_pwrSet {i : Instr} (hi : (i, st) ∈ [(Instr.pwrSetBask r u croak, 0), (.pwrSetDoze r u croak, 1), (.pwrSetBrumate r u croak, 2),
    (.pwrSetHold r u croak, 3)]) : exec i s = .next (s.pwrSet r u st croak) := by
  simp only [List.mem_cons, Prod.mk.injEq, List.not_mem_nil, or_false] at hi
  obtain ⟨rfl, rfl⟩ | ⟨rfl, rfl⟩ | ⟨rfl, rfl⟩ | ⟨rfl, rfl⟩ := hi <;> rfl

theorem State.pwrSet_admits {w : State} {c : Nat} (h : s.admits r 0x0701 = true)
    (hask : (if croak then (s.taken r).croakOut u else s.taken r).askPower u st (r.ch == 35 || r.crit) = (w, c)) :
    s.pwrSet r u st croak = w.reply r 0x0701 c [] := by
  rw [State.pwrSet, State.command_admits h]
  dsimp only [onfLining]
  rw [hask]

theorem judged_pwrSet {i : Instr} (hi : (i, st) ∈ [(Instr.pwrSetBask r u croak, 0), (.pwrSetDoze r u croak, 1), (.pwrSetBrumate r u croak, 2),
    (.pwrSetHold r u croak, 3)]) (h : s.admits r 0x0701 = true) :
    (if croak then (s.taken r).croakOut u else s.taken r).PowerJudged u st (r.ch == 35 || r.crit) fun w c =>
      exec i s = .next (w.reply r 0x0701 c []) :=
  (State.askPower_judged _ u st _).imp fun w c hask => by rw [exec_pwrSet hi, State.pwrSet_admits h hask]

theorem exec_pwrStatus (h : s.admits r 0x0702 = true) : exec (.pwrStatus r) s =
    .next ((s.taken r).reply r 0x0702 0 ([(s.taken r).powerWord 0, (s.taken r).powerWord 1, (s.taken r).reg R.PWR_STATUS.off,
      (s.taken r).reg R.PWR_CLAIM_HART.off, (s.taken r).reg R.PWR_CLAIM_BLK.off, (s.taken r).avsWord].flatMap fun (w : W64) => leBytes 8 w.toNat)) := by
  change execPwrStatus r s = _
  rw [execPwrStatus, State.command_admits h]
  simp only [List.flatMap_cons, List.flatMap_nil, List.append_nil, List.append_assoc]

/-! ### PWR_REQ -/

theorem getBit_setBits_self {x : W64} {i : Nat} (hi : i < 64) : getBit (setBits x i 1 1) i = true := by
  simp [getBit, getLsbD_setBits, hi]

theorem getBit_setBits_disj {x : W64} {lo w v i : Nat} (h : i < lo ∨ lo + w ≤ i) (hi : i < 64) : getBit (setBits x lo w v) i = getBit x i := by
  have hn : ¬ (lo ≤ i ∧ i < lo + w) := by omega
  rw [getBit, getLsbD_setBits, if_neg hn, decide_eq_true hi, Bool.true_and, getBit]

theorem getBits_eq_div_mod (x : W64) (lo w : Nat) : getBits x lo w = x.toNat / 2 ^ lo % 2 ^ w := by
  rw [getBits, bitsOf, Nat.shiftRight_eq_div_pow]


/-- PWR_REQ with the unit and the state of a request. -/
def State.pwrAsked (s : State) (u st : Nat) : State := (s.setFld R.PWR_REQ.UNIT u).setFld R.PWR_REQ.STATE st

theorem exec_pwrReq {i : Instr} (hi : (i, st) ∈ [(Instr.pwrReqBask who data, 0), (.pwrReqDoze who data, 1), (.pwrReqBrumate who data, 2),
    (.pwrReqHold who data, 3)]) (hup : s.up = true) (hopen : s.opens who R.PWR_REQ.off) :
    exec i s = .next (s.pwrReqWrite who (setBits (setBits data 8 2 st) 16 1 1)) ∧ st < 4 := by
  have hexec : exec i s = .next (s.whenUp fun s => s.pwrReqGo who data st) ∧ st < 4 := by
    simp only [List.mem_cons, Prod.mk.injEq, List.not_mem_nil, or_false] at hi
    obtain ⟨rfl, rfl⟩ | ⟨rfl, rfl⟩ | ⟨rfl, rfl⟩ | ⟨rfl, rfl⟩ := hi <;> exact ⟨rfl, by decide⟩
  rwa [State.whenUp_of_up hup, State.pwrReqGo, State.regTry_of_opens hopen] at hexec

theorem exec_croak (hup : s.up = true) (hopen : s.opens who R.PWR_REQ.off) :
    exec (.croak who data) s = .next (s.pwrReqWrite who (setBits (setBits data 10 1 1) 16 1 1)) := by
  change execCroak who data s = _
  rw [execCroak, State.whenUp_of_up hup, State.regTry_of_opens hopen]

/-- With GO the request is judged, and its code goes to STATUS. -/
theorem State.pwrReqWrite_go {w : State} {c : Nat} (hu : getBits data 0 6 = u) (hst : getBits data 8 2 = st) (hgo : getBit data 16 = true)
    (hask : (if getBit data 10 then (s.pwrAsked u st).croakOut u else s.pwrAsked u st).askPower u st (s.world who == .lining) = (w, c)) :
    s.pwrReqWrite who data = w.setFld R.PWR_REQ.STATUS c := by
  unfold State.pwrReqWrite
  dsimp only
  rw [hu, hst, if_pos hgo]
  exact congrArg (fun a : State × Nat => a.1.setFld R.PWR_REQ.STATUS a.2) hask

theorem getBits_unit (data : W64) : getBits data 0 6 = data.toNat % 64 := by
  rw [getBits_eq_div_mod, Nat.pow_zero, Nat.div_one]
  rfl

theorem judged_pwrReq {i : Instr} (hi : (i, st) ∈ [(Instr.pwrReqBask who data, 0), (.pwrReqDoze who data, 1), (.pwrReqBrumate who data, 2),
    (.pwrReqHold who data, 3)]) (hup : s.up = true) (hopen : s.opens who R.PWR_REQ.off) (hu : data.toNat % 64 = u) :
    (if getBit data 10 then (s.pwrAsked u st).croakOut u else s.pwrAsked u st).PowerJudged u st (s.world who == .lining) fun w c =>
      exec i s = .next (w.setFld R.PWR_REQ.STATUS c) := by
  obtain ⟨hexec, hlt⟩ := exec_pwrReq hi hup hopen
  have hunit : getBits (setBits (setBits data 8 2 st) 16 1 1) 0 6 = u := by
    rw [getBits_setBits_disj (by decide) (by decide), getBits_setBits_disj (by decide) (by decide), getBits_unit, hu]
  have hstate : getBits (setBits (setBits data 8 2 st) 16 1 1) 8 2 = st := by
    rw [getBits_setBits_disj (by decide) (by decide), getBits_setBits_self (by decide)]
    exact Nat.mod_eq_of_lt hlt
  have hcroak : getBit (setBits (setBits data 8 2 st) 16 1 1) 10 = getBit data 10 := by
    rw [getBit_setBits_disj (by decide) (by decide), getBit_setBits_disj (by decide) (by decide)]
  refine (State.askPower_judged _ u st _).imp fun w c hask => ?_
  rw [← hcroak] at hask
  rw [hexec, State.pwrReqWrite_go hunit hstate (getBit_setBits_self (by decide)) hask]

/-- CROAK is a request that also sends the pattern. -/
theorem judged_croak (hup : s.up = true) (hopen : s.opens who R.PWR_REQ.off) (hu : data.toNat % 64 = u) :
    ((s.pwrAsked u (data.toNat / 256 % 4)).croakOut u).PowerJudged u (data.toNat / 256 % 4) (s.world who == .lining) fun w c =>
      exec (.croak who data) s = .next (w.setFld R.PWR_REQ.STATUS c) := by
  have hunit : getBits (setBits (setBits data 10 1 1) 16 1 1) 0 6 = u := by
    rw [getBits_setBits_disj (by decide) (by decide), getBits_setBits_disj (by decide) (by decide), getBits_unit, hu]
  have hstate : getBits (setBits (setBits data 10 1 1) 16 1 1) 8 2 = data.toNat / 256 % 4 := by
    rw [getBits_setBits_disj (by decide) (by decide), getBits_setBits_disj (by decide) (by decide), getBits_eq_div_mod]
    rfl
  have hcroak : getBit (setBits (setBits data 10 1 1) 16 1 1) 10 = true := by
    rw [getBit_setBits_disj (by decide) (by decide), getBit_setBits_self (by decide)]
  refine (State.askPower_judged _ u _ _).imp fun w c hask => ?_
  have hask' : (if getBit (setBits (setBits data 10 1 1) 16 1 1) 10 then (s.pwrAsked u (data.toNat / 256 % 4)).croakOut u
      else s.pwrAsked u (data.toNat / 256 % 4)).askPower u (data.toNat / 256 % 4) (s.world who == .lining) = (w, c) := by rw [if_pos hcroak, hask]
  rw [exec_croak hup hopen, State.pwrReqWrite_go hunit hstate (getBit_setBits_self (by decide)) hask']

/-! ### mpowerreq -/

theorem exec_mpowerreqWrite (hup : s.up = true) (hh : h < 64) : exec (.mpowerreqWrite h .m data) s = .next (s.mpowerreq h (data.toNat % 4)) := by
  have hst : getBits data 0 2 = data.toNat % 4 := by simp [getBits_eq_div_mod]
  change execMpowerreqWrite h .m data s = _
  rw [execMpowerreqWrite, State.whenUp_of_up hup, State.mCsr, if_neg (by omega), hst]
  rfl

theorem State.mpowerreq_taken (hst : st = 1 ∨ st = 2) (hc : (s.hart h).world = true ∨ s.unitClaimed (h / 4) = false) :
    s.mpowerreq h st = s.setHart h ((s.hart h).asked st (s.hart h).world true) := by
  have hn : ¬ (!(s.hart h).world && s.unitClaimed (h / 4)) = true := by
    rcases hc with hc | hc <;> simp [hc]
  unfold State.mpowerreq
  dsimp only
  rw [if_pos hst, if_neg hn]
  rfl

/-- The hart of a claimed tile is refused. -/
theorem State.mpowerreq_refused (hst : st = 1 ∨ st = 2) (hw : (s.hart h).world = false) (hc : s.unitClaimed (h / 4) = true) :
    s.mpowerreq h st = (s.setHart h { s.hart h with preq := st, preqLining := false, preqPending := false, preqRefused := true }).claimRefuse (h / 4) := by
  unfold State.mpowerreq
  dsimp only
  rw [if_pos hst, if_pos (by simp [hw, hc])]

theorem State.mpowerreq_bask (hst : st = 0 ∨ st = 3) : s.mpowerreq h st = s.setHart h ((s.hart h).asked st (s.hart h).world false) := by
  unfold State.mpowerreq
  dsimp only
  rw [if_neg (by omega)]
  rfl

/-- A refusal for a claim shows in PWR_STATUS. -/
theorem State.claimRefuse_spec (hu : u < 64) : (s.claimRefuse u).harts = s.harts ∧ (s.claimRefuse u).bit R.PWR_STATUS.CLAIMED = true ∧
    (s.claimRefuse u).fld R.PWR_STATUS.LAST_UNIT = u := by
  have hregs : (s.claimRefuse u).regs = ((s.setFld R.PWR_STATUS.LAST_UNIT u).setBit R.PWR_STATUS.CLAIMED).regs := State.event_regs _ 4
  refine ⟨State.event_harts _ 4, ?_, ?_⟩
  · rw [State.bit_of_fld (State.fld_of_reg (State.reg_of_regs hregs)), State.bit_setBit_self (by decide) (by decide)]
  · rw [State.fld_of_reg (State.reg_of_regs hregs), State.setBit, State.fld_setFld_disj (by decide) (by decide), State.fld_setFld_self (by decide)]
    exact Nat.mod_eq_of_lt hu

/-! ### A taken request -/

/-- The part of `takePower` before the service engine's line. -/
def State.powerSet (s : State) (u st : Nat) (l : Bool) : State :=
  if st = 0 then s.unitBask u
  else if st = 3 then s.setUnit u { s.unit u with target := some 3, pnr := true, req := none, shell := false }
  else if isTile u then s.hartsAsk st l true (tileHarts u)
  else s.setUnit u { s.unit u with req := some (st, l) }

theorem State.takePower_eq (s : State) (u st : Nat) (l : Bool) : s.takePower u st l = (s.powerSet u st l).engLine (8 * unitPanel u + 7) 4 := rfl

theorem State.unit_takePower : (s.takePower u st l).unit u = (s.powerSet u st l).unit u := State.unit_engLine

/-- A request for Bask changes its unit, and the requests of a tile's harts. -/
theorem State.unitBask_shape (s : State) (u : Nat) : ∃ harts, s.unitBask u = State.setUnit { s with harts } u
    (if (s.unit u).target.isSome then
      (if (s.unit u).pnr then { s.unit u with req := none, wakeAfter := max (s.unit u).wakeAfter 2 } else { s.unit u with req := none, target := none })
    else { s.unit u with req := none, waking := decide ((s.unit u).st = 1 ∨ (s.unit u).st = 2) }) := by
  have hdrop : ∃ harts, (if isTile u then s.hartsDrop false (tileHarts u) else s) = { s with harts } := by
    split
    · exact s.hartsDrop_shape false (tileHarts u)
    · exact ⟨_, rfl⟩
  obtain ⟨harts, hd⟩ := hdrop
  refine ⟨harts, ?_⟩
  unfold State.unitBask
  dsimp only
  rw [hd]
  split
  · split <;> rfl
  · rfl

theorem State.powerSet_shape (s : State) (u st : Nat) (l : Bool) : ∃ pow harts, s.powerSet u st l = { s with pow, harts } := by
  unfold State.powerSet
  split
  · obtain ⟨_, hb⟩ := s.unitBask_shape u
    exact ⟨_, _, hb⟩
  · split
    · exact ⟨_, _, rfl⟩
    · split
      · obtain ⟨_, ha⟩ := s.hartsAsk_shape st l true (tileHarts u)
        exact ⟨_, _, ha⟩
      · exact ⟨_, _, rfl⟩

theorem State.unit_takePower_bask : (s.takePower u 0 l).unit u = if (s.unit u).target.isSome then
      (if (s.unit u).pnr then { s.unit u with req := none, wakeAfter := max (s.unit u).wakeAfter 2 } else { s.unit u with req := none, target := none })
    else { s.unit u with req := none, waking := decide ((s.unit u).st = 1 ∨ (s.unit u).st = 2) } := by
  obtain ⟨_, hb⟩ := s.unitBask_shape u
  rw [State.unit_takePower, State.powerSet, if_pos rfl, hb, State.unit_setUnit_self]

theorem State.unit_takePower_hold : (s.takePower u 3 l).unit u = { s.unit u with target := some 3, pnr := true, req := none, shell := false } :=
  State.unit_takePower.trans State.unit_setUnit_self

theorem State.hart_takePower_tile {k : Nat} (hst : st = 1 ∨ st = 2) (hu : u < 16) (hk : k < 4) :
    (s.takePower u st l).hart (4 * u + k) = (s.hart (4 * u + k)).asked st l true := by
  rw [State.takePower_eq, State.hart_engLine, State.powerSet, if_neg (by omega), if_neg (by omega), if_pos (by simp [isTile, hu]), State.hart_hartsAsk,
    if_pos (mem_tileHarts hk)]

theorem State.unit_takePower_held (hst : st = 1 ∨ st = 2) (hu : 16 ≤ u) : (s.takePower u st l).unit u = { s.unit u with req := some (st, l) } := by
  rw [State.unit_takePower, State.powerSet, if_neg (by omega), if_neg (by omega), if_neg (by simp [isTile, hu]), State.unit_setUnit_self]

/-- Every taken request is told to the panel's service engine, and changes no register and no memory. -/
theorem State.takePower_tells : ((s.takePower u st l).eng (8 * unitPanel u + 7)).pend.testBit 4 = true ∧ (s.takePower u st l).regs = s.regs ∧
    (s.takePower u st l).mem = s.mem := by
  obtain ⟨_, _, hp⟩ := s.powerSet_shape u st l
  obtain ⟨_, he⟩ := (s.powerSet u st l).engLine_shape (8 * unitPanel u + 7) 4
  refine ⟨State.pend_engLine, ?_, ?_⟩
  · rw [State.takePower_eq, he, hp]
  · rw [State.takePower_eq, he, hp]

theorem State.mem_out_croakOut (hu : 20 ≤ u) (hu' : u < 52) (hg : s.sys.gated = false) : .croak u ∈ (s.croakOut u).out := by
  have hq : (isQuad u && !s.sys.gated) = true := by simp [isQuad, hu, hu', hg]
  rw [State.croakOut, if_pos hq]
  exact List.mem_cons_self

end

/-- Settles O51: the three paths by the one judgement, then what a taken request leaves. Hold begins with its point of no return (log entry 185), and
mpowerreq is judged when it is written (log entry 184); both are DEDUCED. -/
theorem powerRequests : Obligations.PowerRequests := by
  refine ⟨fun s r who h u croak data => ⟨fun hadm i st hi => judged_pwrSet hi hadm, exec_pwrStatus,
    fun hup hopen hu => ⟨fun i st hi => judged_pwrReq hi hup hopen hu, judged_croak hup hopen hu⟩, State.mem_out_croakOut,
    fun hup hh => ⟨fun hst hc => ?taken, fun hst hw hc => ?refused, fun hst => ?bask⟩⟩, fun s u st k l hu => ?leaves⟩
  case taken => rw [exec_mpowerreqWrite hup hh, State.mpowerreq_taken hst hc]; rfl
  case refused =>
    refine ⟨_, by rw [exec_mpowerreqWrite hup hh, State.mpowerreq_refused hst hw hc], ?_⟩
    obtain ⟨hharts, hbit, hlast⟩ := State.claimRefuse_spec (u := h / 4)
      (s := s.setHart h { s.hart h with preq := data.toNat % 4, preqLining := false, preqPending := false, preqRefused := true }) (by omega)
    refine ⟨?_, ?_, hbit, hlast⟩
    · rw [State.hart, hharts]
      exact congrArg Hart.preqRefused State.hart_setHart_self
    · rw [State.hart, hharts]
      exact congrArg Hart.preqPending State.hart_setHart_self
  case bask => rw [exec_mpowerreqWrite hup hh, State.mpowerreq_bask hst]; rfl
  case leaves =>
    refine ⟨fun hst ht hsleep => ?_, fun hst ht hp => ?_, fun hst ht hp => ?_, fun hst hu hk => State.hart_takePower_tile hst hu hk,
      fun hst hu => State.unit_takePower_held hst hu, fun hst => ?_, State.takePower_tells⟩
    · subst hst
      rw [State.unit_takePower_bask, if_neg (by simp [ht])]
      exact ⟨decide_eq_true hsleep, rfl⟩
    · subst hst
      rw [State.unit_takePower_bask, if_pos ht, if_neg (by simp [hp])]
    · subst hst
      rw [State.unit_takePower_bask, if_pos ht, if_pos hp]
      exact ⟨rfl, le_max_right _ _⟩
    · subst hst
      rw [State.unit_takePower_hold]
      exact ⟨rfl, rfl⟩

end Sys2Proof.Machine
end

section
/-!
O27. The commands on granted queue pairs that act at once: each is accepted (`State.command_admits`), names QPs of its function, and does to one QP what
`quiesceOne` or `resumeOne` does; a QP_QUIESCE is answered when its QPs are QUIESCED (`State.quiesceCheck_done`).
-/

namespace Sys2Proof.Machine

section

variable {s t : State} {r : OnfReq} {f q tmoMs : Nat} {force : Bool}

/-! ### Rings -/

theorem State.qp_of_qps (h : t.qps = s.qps) : t.qp q = s.qp q := by
  simp only [State.qp, h]

/-- A drain puts its record into the ring, `fresh` if either the drain or the one under way is, and leaves ENABLE alone (R85, R87). -/
theorem State.drainStart_spec (s : State) (q : Nat) (d : Drain) : ∃ (c : QpCtx) (e : Drain), s.drainStart q d = s.setQp q c ∧
    c.enable = (s.qp q).enable ∧ c.drain = some e ∧ (d.fresh = true → e.fresh = true) := by
  refine ⟨_, _, rfl, rfl, rfl, fun hd => ?_⟩
  split
  · rw [hd, Bool.or_true]
  · exact hd

/-! ### The QPs that a command names -/

/-- A request of an opcode is accepted, and names a function that its channel may (R79, R82). -/
def State.namesFn (s : State) (r : OnfReq) (op f : Nat) : Prop :=
  s.admits r op = true ∧ (s.taken r).fnNamed false f = true ∧ (s.taken r).mine false r f = true

theorem qpRun_one (q : Nat) : qpRun 1 q = [q] := rfl

theorem qpRangeBad_one (hq : q < 65536) : qpRangeBad 1 q = false := qpRangeBad_eq_false Nat.one_pos (by decide) (by omega)

/-! ### FN_RESET -/

theorem exec_fnReset (hn : s.namesFn r 0x0102 f) : exec (.fnReset r f) s = .next (((s.taken r).flr f).reply r 0x0102 0 []) := by
  obtain ⟨h, hf, hm⟩ := hn
  change execFnReset r f s = _
  rw [execFnReset, State.command_admits h]
  rw [if_neg (by simp [hf]), if_neg (by simp [hm])]

/-! ### QP_QUIESCE -/

/-- A QP_QUIESCE has joined those that wait for their drains. -/
def State.awaitsQuiesce (s : State) (w : QuiesceWait) : State := { s with onf := { s.onf with quiesce := s.onf.quiesce ++ [w] } }

/-- No QP_QUIESCE waits any more. -/
def State.noQuiesce (s : State) : State := { s with onf := { s.onf with quiesce := [] } }

theorem exec_qpQuiesce_one (hn : s.namesFn r 0x0203 f) (hq : q < 65536) (ht : tmoMs ≤ 60000) (ho : (s.taken r).qpOf false f q = true) :
    exec (.qpQuiesce r f 1 q force tmoMs) s = .next (((s.taken r).quiesceOne force q).awaitsQuiesce ⟨r, [q]⟩).quiesceCheck := by
  obtain ⟨h, hf, hm⟩ := hn
  have hrange : ¬ (qpRangeBad 1 q || decide (60000 < tmoMs)) = true := by simp [qpRangeBad_one hq, ht]
  change execQpQuiesce r f 1 q force tmoMs s = _
  rw [execQpQuiesce, State.command_admits h]
  dsimp only
  rw [if_neg hrange, if_neg (by simp [hf]), if_neg (by simp [hm]), if_neg (by simp [qpRun_one, ho])]
  rfl

theorem State.quiesceOne_quiesced (hc : (s.qp q).contained = false) (hst : (s.qp q).st = .quiesced) :
    s.quiesceOne force q = s.setQp q { s.qp q with held := true } := by
  simp [State.quiesceOne, hc, hst]

theorem State.quiesceOne_active (hc : (s.qp q).contained = false) (hst : (s.qp q).st = .active) :
    s.quiesceOne false q = s.drainStart q { fresh := false, hold := true, force := false } := by
  simp [State.quiesceOne, hc, hst]

theorem State.quiesceCheck_none (h : s.onf.quiesce = []) : s.quiesceCheck = s := by
  rw [State.quiesceCheck, h, State.quiesceReplies]

/-- The one command that waits is answered once its QPs are all QUIESCED. -/
theorem State.quiesceCheck_done {w : QuiesceWait} (h : s.onf.quiesce = [w]) (hd : s.notDone w.qps = []) :
    s.quiesceCheck = s.noQuiesce.reply w.req 0x0203 0 (zeros 4) := by
  simp [State.quiesceCheck, State.quiesceReplies, State.noQuiesce, h, hd]

/-- It waits while one of them is not. -/
theorem State.quiesceCheck_open {w : QuiesceWait} (h : s.onf.quiesce = [w]) (hd : s.notDone w.qps ≠ []) : s.quiesceCheck = s := by
  simp [State.quiesceCheck, State.quiesceReplies, h, hd]

theorem State.notDone_quiesced (hst : (s.qp q).st = .quiesced) (hd : (s.qp q).drain = none) : s.notDone [q] = [] := by
  simp [State.notDone, hst, hd]

theorem State.notDone_draining (hd : (s.qp q).drain.isSome = true) : s.notDone [q] ≠ [] := by
  simp [State.notDone, hd]

/-- On a QUIESCED QP the command is answered at once, and sets HELD. -/
theorem answers_qpQuiesce_quiesced (hn : s.namesFn r 0x0203 f) (hq : q < 65536) (ht : tmoMs ≤ 60000) (ho : (s.taken r).qpOf false f q = true)
    (hst : ((s.taken r).qp q).st = .quiesced) (hd : ((s.taken r).qp q).drain = none) (hc : ((s.taken r).qp q).contained = false)
    (hw : (s.taken r).onf.quiesce = []) : Answers (.qpQuiesce r f 1 q force tmoMs) s r 0x0203 0 (zeros 4) fun t =>
      (t.qp q).held = true ∧ (t.qp q).st = .quiesced ∧ t.onf.quiesce = [] := by
  let u := (s.taken r).setQp q { (s.taken r).qp q with held := true }
  have hqp : (u.awaitsQuiesce ⟨r, [q]⟩).qp q = { (s.taken r).qp q with held := true } := State.qp_setQp_self
  have hwait : (u.awaitsQuiesce ⟨r, [q]⟩).onf.quiesce = [⟨r, [q]⟩] := by
    simp only [State.awaitsQuiesce, u, State.setQp_onf, hw, List.nil_append]
  refine ⟨(u.awaitsQuiesce ⟨r, [q]⟩).noQuiesce, ?_, ?_, ?_, rfl⟩
  · rw [exec_qpQuiesce_one hn hq ht ho, State.quiesceOne_quiesced hc hst,
      State.quiesceCheck_done hwait (State.notDone_quiesced (by rw [hqp, hst]) (by rw [hqp, hd]))]
  · exact congrArg QpCtx.held hqp
  · exact (congrArg QpCtx.st hqp).trans hst

/-- On an ACTIVE QP a drain starts, and the command waits for its end. -/
theorem completes_qpQuiesce_active (hn : s.namesFn r 0x0203 f) (hq : q < 65536) (ht : tmoMs ≤ 60000) (ho : (s.taken r).qpOf false f q = true)
    (hst : ((s.taken r).qp q).st = .active) (hc : ((s.taken r).qp q).contained = false) (hw : (s.taken r).onf.quiesce = []) :
    Completes (.qpQuiesce r f 1 q false tmoMs) s fun t => (t.qp q).drain.isSome = true ∧ t.onf.quiesce = [⟨r, [q]⟩] := by
  obtain ⟨c, e, hdrain, -, hce, -⟩ := (s.taken r).drainStart_spec q { fresh := false, hold := true, force := false }
  let u := ((s.taken r).setQp q c).awaitsQuiesce ⟨r, [q]⟩
  have hsome : (u.qp q).drain.isSome = true := by
    have hqp : u.qp q = c := State.qp_setQp_self
    rw [hqp, hce, Option.isSome_some]
  have hwait : u.onf.quiesce = [⟨r, [q]⟩] := by
    simp only [State.awaitsQuiesce, u, State.setQp_onf, hw, List.nil_append]
  refine ⟨u, ?_, hsome, hwait⟩
  rw [exec_qpQuiesce_one hn hq ht ho, State.quiesceOne_active hc hst, hdrain, State.quiesceCheck_open hwait (State.notDone_draining hsome)]

theorem exec_qpQuiesceTimeout {w : QuiesceWait} (hup : s.up = true) (hw : s.onf.quiesce = [w]) :
    exec (.qpQuiesceTimeout w.req.ch w.req.tag) s = .next (s.noQuiesce.reply w.req 0x0203 E.TIMEOUT
      (leBytes 2 (s.notDone w.qps).length ++ leBytes 2 ((s.notDone w.qps).headD 0))) := by
  change execQpQuiesceTimeout w.req.ch w.req.tag s = _
  rw [execQpQuiesceTimeout, State.whenUp_of_up hup]
  simp [hw, State.noQuiesce]

/-! ### QP_RESUME -/

theorem exec_qpResume_one (hn : s.namesFn r 0x0204 f) (hq : q < 65536) (ho : (s.taken r).qpOf false f q = true) :
    exec (.qpResume r f 1 q) s = .next (if ((s.taken r).qp q).sessHeld then (s.taken r).reply r 0x0204 E.BASTE_LOCKED []
      else ((s.taken r).resumeOne q).reply r 0x0204 0 []) := by
  obtain ⟨h, hf, hm⟩ := hn
  change execQpResume r f 1 q s = _
  rw [execQpResume, State.command_admits h]
  dsimp only
  rw [if_neg (by simp [qpRangeBad_one hq]), if_neg (by simp [hf]), if_neg (by simp [hm]), if_neg (by simp [qpRun_one, ho])]
  simp only [qpRun_one, List.any_cons, List.any_nil, Bool.or_false]
  rfl

theorem exec_qpResume_locked (hn : s.namesFn r 0x0204 f) (hq : q < 65536) (ho : (s.taken r).qpOf false f q = true)
    (hs : ((s.taken r).qp q).sessHeld = true) : exec (.qpResume r f 1 q) s = .next ((s.taken r).reply r 0x0204 E.BASTE_LOCKED []) := by
  rw [exec_qpResume_one hn hq ho, if_pos hs]

theorem State.activate_empty (h : (s.qp q).sqTail = (s.qp q).sqHead) : s.activate q = s.setQp q { s.qp q with st := .active, enable := true } := by
  simp only [State.activate, h, if_true]

/-- HELD falls; a ring that is enabled and has nothing exposed starts (Table 03-10). -/
theorem State.qp_resumeOne (hst : (s.qp q).st = .quiesced) (hh : (s.qp q).held = true) (hd : (s.qp q).drain = none)
    (hx : (s.qp q).enable = true → (s.qp q).sqTail = (s.qp q).sqHead) : (s.resumeOne q).qp q =
      if (s.qp q).enable then { s.qp q with held := false, st := .active } else { s.qp q with held := false } := by
  simp only [State.resumeOne, hst, hh, hd, beq_self_eq_true, Option.isNone_none, Bool.and_self, if_true]
  split
  · next he =>
    rw [State.activate_empty (by rw [State.qp_setQp_self]; exact hx he), State.qp_setQp_self, State.qp_setQp_self, he]
  · exact State.qp_setQp_self

theorem answers_qpResume (hn : s.namesFn r 0x0204 f) (hq : q < 65536) (ho : (s.taken r).qpOf false f q = true)
    (hst : ((s.taken r).qp q).st = .quiesced) (hh : ((s.taken r).qp q).held = true) (hd : ((s.taken r).qp q).drain = none)
    (hs : ((s.taken r).qp q).sessHeld = false) (hx : ((s.taken r).qp q).enable = true → ((s.taken r).qp q).sqTail = ((s.taken r).qp q).sqHead) :
    Answers (.qpResume r f 1 q) s r 0x0204 0 [] fun t => t.qp q =
      if ((s.taken r).qp q).enable then { (s.taken r).qp q with held := false, st := .active } else { (s.taken r).qp q with held := false } :=
  ⟨(s.taken r).resumeOne q, by rw [exec_qpResume_one hn hq ho, hs]; rfl, State.qp_resumeOne hst hh hd hx⟩

end

/-- Settles O27: one lemma for each command; that FN_RESET clears the enables and NumVFs is `State.fnBlank_flr` (log entry 103). -/
theorem queuePairCommands : Obligations.QueuePairCommands := by
  intro s r f q tmoMs force u c named
  refine ⟨fun hn => ?reset, fun hn hq ht ho hst hd hc hw => answers_qpQuiesce_quiesced hn hq ht ho hst hd hc hw,
    fun hn hq ht ho hst hc hw => completes_qpQuiesce_active hn hq ht ho hst hc hw,
    fun hn hq ho hst hh hd hs he => ?held, fun hn hq ho hst hh hd hs he hx => ?starts,
    fun hn hq ho hs => exec_qpResume_locked hn hq ho hs, fun hup w hw => exec_qpQuiesceTimeout hup hw⟩
  case reset =>
    obtain ⟨hmsix, -, hvfs, hevt, -⟩ := u.fnBlank_flr f
    exact ⟨_, exec_fnReset hn, hmsix, hvfs, hevt⟩
  case held =>
    refine (answers_qpResume hn hq ho hst hh hd hs fun h => absurd h (ne_true_of_eq_false he)).imp fun t ht => ?_
    rw [ht, if_neg (ne_true_of_eq_false he)]
  case starts =>
    refine (answers_qpResume hn hq ho hst hh hd hs fun _ => hx).imp fun t ht => ?_
    rw [ht, if_pos he]

end Sys2Proof.Machine
end

section
/-!
O32. The data path of a queue: SQ_ENTRY_FETCH of an entry that stands alone (`State.fetchNative_single`, `State.qp_admitReq`), COMPLETION_POST of the oldest
completion (`State.postNext_native`), the dispatch of a stitch and its end.
-/

namespace Sys2Proof.Machine

section

variable {s v w : State} {q f : Nat} {ps : List (Nat × Nat)}

/-- What a ring does outside Hold happens. -/
theorem State.whenRing_of_ready {k : State → State} (h : s.ringReady q) : s.whenRing q k = k s := by
  obtain ⟨hup, hpanel, -⟩ := h
  simp [State.whenRing, State.whenPanel, hup, hpanel]

/-! ### A request joins its ring -/

theorem State.jsend_shape (s : State) (r : Req) (kind : Nat) (body : List Nat) : ∃ galv out, s.jsend r kind body = { s with galv, out } := by
  unfold State.jsend
  split
  · exact ⟨_, _, rfl⟩
  · exact ⟨_, _, rfl⟩

theorem State.drawTokens_shape (s : State) (on : Bool) (k n : Nat) : ∃ buckets, s.drawTokens on k n = { s with qf := { s.qf with buckets } } := by
  unfold State.drawTokens
  split
  · exact ⟨_, rfl⟩
  · exact ⟨_, rfl⟩

theorem State.drawOp_shape (s : State) (f : Nat) : ∃ buckets, s.drawOp f = { s with qf := { s.qf with buckets } } := by
  obtain ⟨_, h1⟩ := s.drawTokens_shape (s.fld (R.QFAB_FSCHED1.CAP_OPS f) != 0) (bucketKey 1 f) 1000
  unfold State.drawOp
  rw [h1]
  exact State.drawTokens_shape ..

/-- The state in which a request has taken its rid and stands last in its ring. -/
def State.joined (s : State) (q : Nat) (r : Req) : State :=
  State.setQp { s with qf := { s.qf with nextRid := s.qf.nextRid + 1 }, galv := { s.galv with redo := s.galv.redo.erase (q, r.idx) } } q
    { s.qp q with reqs := (s.qp q).reqs ++ [r] }

/-- An operation is drawn and ADMIT is sent: neither touches the rings or the registers. -/
theorem State.admitted_shape (s : State) (q f : Nat) (r : Req) (body : List Nat) : ∃ buckets galv out,
    ((if isLc q then s else s.drawOp f).jsend r 1 body) = { s with qf := { s.qf with buckets }, galv, out } := by
  obtain ⟨_, hd⟩ := s.drawOp_shape f
  obtain ⟨_, _, hj⟩ := (if isLc q then s else s.drawOp f).jsend_shape r 1 body
  rw [hj]
  split
  · exact ⟨_, _, _, rfl⟩
  · rw [hd]
    exact ⟨_, _, _, rfl⟩

/-- An admitted request stands last in its ring; the next rid is one higher, and no register changes (R83). -/
theorem State.admitReq_spec {s : State} {q idx n sqhead vol : Nat} {kind : ReqKind} {e inl : List Byte} {blk : Option BlkReq} {preds : List Nat}
    {bad : Bool} {a : State × Req} (h : s.admitReq q kind idx n sqhead e inl blk preds bad vol = a) :
    a.1.qp q = { s.qp q with reqs := (s.qp q).reqs ++ [a.2] } ∧ a.1.qf.nextRid = s.qf.nextRid + 1 ∧ a.1.regs = s.regs := by
  obtain ⟨_, _, _, hs⟩ := (s.joined q a.2).admitted_shape q (s.qpFn q) a.2 [idx, n, a.2.cid, a.2.epoch, a.2.time]
  have ha : a.1 = (if isLc q then s.joined q a.2 else (s.joined q a.2).drawOp (s.qpFn q)).jsend a.2 1 [idx, n, a.2.cid, a.2.epoch, a.2.time] := by
    rw [← h]
    rfl
  rw [ha, hs]
  exact ⟨State.qp_setQp_self, congrArg QfabState.nextRid (State.setQp_qf ..), State.setQp_regs ..⟩

/-- What an admitted request carries of its entry, and of its admission epoch (R83). -/
theorem State.admitReq_req {s : State} {q idx n sqhead vol : Nat} {kind : ReqKind} {e inl : List Byte} {blk : Option BlkReq} {preds : List Nat}
    {bad : Bool} {a : State × Req} (h : s.admitReq q kind idx n sqhead e inl blk preds bad vol = a) :
    a.2.rid = s.qf.nextRid ∧ a.2.st = .fetched ∧ a.2.kind = kind ∧ a.2.sqe = e ∧ a.2.idx = idx ∧ a.2.nEnt = n ∧ a.2.epoch = s.epoch ∧ a.2.time = s.now := by
  subst h
  exact ⟨rfl, rfl, rfl, rfl, rfl, rfl, rfl, rfl⟩

/-! ### SQ_ENTRY_FETCH -/

theorem exec_sqEntryFetch_native (hr : s.ringReady q) (hp : isLc q = true ∨ s.pers (s.qpFn q) = 0) :
    exec (.sqEntryFetch q) s = .next (s.fetchRing q) := by
  change execSqEntryFetch q s = _
  rw [execSqEntryFetch, State.whenRing_of_ready hr]
  rcases hp with h | h
  · rw [if_pos h]
  · simp only [h, if_true, ite_self]

/-- The entry at which a fetch stands, without a FENCE, a chain or INLINE data, of an opcode and fields that the ring takes (Table 03-13). -/
structure State.EntryPlain (s v : State) (q : Nat) (e : List Byte) : Prop where
  fence : sqeFence e = false
  inl : sqeInline e = false
  chain : sqeChain e = false
  opc : sqeOpc e ≠ 0x30
  taken : sqeRefusal (isLc q) (s.qp q).world (isVf (v.qpFn q)) e = none

/-- The state in which the SQ head has passed one entry. -/
def State.headPast (s v : State) (q : Nat) : State :=
  let head := ((s.qp q).firstIdx + 1) % (s.qp q).sqDepth
  v.setQp q { v.qp q with sqHead := head, chain := 0, expo := dropExpo head (s.qp q).expo }

/-- An entry that stands alone is admitted, and the head passes it. -/
theorem State.fetchNative_single (hredo : s.redoNext q = none) (hchain : (s.qp q).chain = 0)
    (havail : ((s.qp q).sqTail + (s.qp q).sqDepth - (s.qp q).firstIdx) % (s.qp q).sqDepth ≠ 0)
    (hacc : s.access q ((s.qp q).sqBase.toNat + 64 * (s.qp q).firstIdx) 64 false (.fetch q) = (v, .at ps)) (he : s.EntryPlain v q (v.readPieces q ps)) :
    s.fetchNative q = ((s.headPast v q).admitReq q .native (s.qp q).firstIdx 1 (((s.qp q).firstIdx + 1) % (s.qp q).sqDepth) (v.readPieces q ps) [] none []
      false (if sqeVolume (v.readPieces q ps) < 16 then sqeVolume (v.readPieces q ps) else 0)).1 := by
  obtain ⟨hfence, hinl, hchain', hopc, htaken⟩ := he
  have hbad : inlineBad (v.readPieces q ps) = false := by simp [inlineBad, hinl]
  have hscan (h0 avail : Nat) : v.scanReq q h0 avail (v.readPieces q ps) = (v, .done 1 [] false) := by simp [State.scanReq, hinl, hchain']
  have hentry : s.ringEntry q (s.qp q).sqBase.toNat 64 (s.qp q).firstIdx = (v, .at ps) := hacc
  have hdirty (t : State) (r : Req) (hr : r.sqe = v.readPieces q ps) : t.dirtyFetched r = t := by
    simp [State.dirtyFetched, hr, hopc]
  simp only [State.fetchNative, hredo, Option.getD_none, Option.isSome_none, Option.isNone_none, Bool.false_eq_true, if_false, hchain, havail,
    decide_false, Bool.or_self, Bool.and_false, hentry, hfence, Bool.false_and, hscan, htaken, hbad]
  exact hdirty _ _ rfl

/-- A native request is fetched whole, with what its admission fixes. -/
theorem completes_sqEntryFetch (hr : s.ringReady q) (hp : isLc q = true ∨ s.pers (s.qpFn q) = 0) (hfetch : s.canFetch q = true)
    (hredo : s.redoNext q = none) (hchain : (s.qp q).chain = 0)
    (havail : ((s.qp q).sqTail + (s.qp q).sqDepth - (s.qp q).firstIdx) % (s.qp q).sqDepth ≠ 0)
    (hacc : s.access q ((s.qp q).sqBase.toNat + 64 * (s.qp q).firstIdx) 64 false (.fetch q) = (v, .at ps)) (he : s.EntryPlain v q (v.readPieces q ps)) :
    Completes (.sqEntryFetch q) s fun t => (t.qp q).sqHead = ((s.qp q).firstIdx + 1) % (s.qp q).sqDepth ∧ t.qf.nextRid = v.qf.nextRid + 1 ∧
      t.regs = v.regs ∧ ∃ y : Req, (t.qp q).reqs = (v.qp q).reqs ++ [y] ∧ y.rid = v.qf.nextRid ∧ y.st = .fetched ∧ y.kind = .native ∧
        y.sqe = v.readPieces q ps ∧ y.idx = (s.qp q).firstIdx ∧ y.nEnt = 1 ∧ y.epoch = v.epoch ∧ y.time = v.now := by
  have hfetched : exec (.sqEntryFetch q) s = .next (s.fetchNative q) := by
    rw [exec_sqEntryFetch_native hr hp, State.fetchRing, if_pos hfetch]
  rw [Completes, hfetched, State.fetchNative_single hredo hchain havail hacc he]
  generalize ha : (s.headPast v q).admitReq q .native _ 1 _ _ _ _ _ _ _ = a
  obtain ⟨hqp, hrid, hregs⟩ := State.admitReq_spec ha
  obtain ⟨hyrid, hyst, hykind, hysqe, hyidx, hyn, hyepoch, hytime⟩ := State.admitReq_req ha
  have hpast : (s.headPast v q).qp q = _ := State.qp_setQp_self
  have hpregs : (s.headPast v q).regs = v.regs := State.setQp_regs ..
  have hpqf : (s.headPast v q).qf = v.qf := State.setQp_qf ..
  refine ⟨_, rfl, ?_, ?_, hregs.trans hpregs, a.2, ?_, hyrid.trans (by rw [hpqf]), hyst, hykind, hysqe, hyidx, hyn, hyepoch.trans ?_, hytime.trans ?_⟩
  · rw [hqp, hpast]
  · rw [hrid, hpqf]
  · rw [hqp, hpast]
  · exact State.fld_of_reg (State.reg_of_regs hpregs)
  · rw [State.now, State.headPast, State.setQp_tmu, State.now]

theorem exec_sqEntryFetch_stops (hr : s.ringReady q) (hp : isLc q = true ∨ s.pers (s.qpFn q) = 0) (hfetch : s.canFetch q = false) :
    exec (.sqEntryFetch q) s = .next s := by
  rw [exec_sqEntryFetch_native hr hp, State.fetchRing, hfetch]
  rfl

/-! ### COMPLETION_POST -/

variable {c0 : Cpl} {cs : List Cpl} {r : Req}

theorem exec_completionPost (hr : s.ringReady q) : exec (.completionPost q) s = .next (s.postNext q) := by
  change execCompletionPost q s = _
  rw [execCompletionPost, State.whenRing_of_ready hr]

theorem State.postNext_empty (h : (s.qp q).cpls = []) : s.postNext q = s := by
  simp only [State.postNext, h]

/-- A full CQ takes no completion (R88). -/
theorem State.postNext_full (hc : (s.qp q).cpls = c0 :: cs) (hreq : (s.qp q).req? c0.rid = some r) (hk : r.kind = .native)
    (hfull : (s.qp q).cqFull = true) : s.postNext q = s := by
  simp [State.postNext, hc, hreq, hk, hfull]

theorem State.commitCpl_committed (h : c0.committed = true) : s.commitCpl q c0 r = s := by
  simp only [State.commitCpl, h, if_true]

/-- The oldest completion of a native ring, committed and with no journal entry to wait for, is posted to the CQ. -/
theorem State.postNext_native (hr : s.ringReady q) (hrecon : (s.qp q).recon = false) (hst : (s.qp q).st = .active) (hc : (s.qp q).cpls = c0 :: cs)
    (hreq : (s.qp q).req? c0.rid = some r) (hk : r.kind = .native) (hwait : s.waiting (.cpl q) = false) (hfull : (s.qp q).cqFull = false)
    (hcom : c0.committed = true) (hj : c0.jseq = none) (hrel : s.galv.releasing.contains q = false) :
    s.postNext q = s.postCq q c0 r (nativeCqe c0 (s.cplResult c0) (s.qp q).nextCseq (s.qp q).phase) := by
  obtain ⟨-, -, hcont⟩ := hr
  have hcpl : (s.qp q).cpl? c0.rid = some c0 := by simp [QpCtx.cpl?, hc]
  have hjd : s.jdone c0.jseq = true := by rw [hj]; rfl
  have hkeeps : q ∉ s.galv.releasing := by simpa using hrel
  simp [State.postNext, hc, hreq, hk, hcont, hrecon, hst, hwait, hfull, State.commitCpl_committed hcom, hcpl, hjd, hkeeps]

theorem State.postCq_reached {b : List Byte} (h : s.access q ((s.qp q).cqBase.toNat + 16 * (s.qp q).cqTail) 16 true (.cpl q) = (v, .at ps)) :
    s.postCq q c0 r b = ((v.cplWrite q ((s.qp q).cqBase.toNat + 16 * (s.qp q).cqTail) ps b).posted q c0 r).ringPosted q c0.irq := by
  simp only [State.postCq, h]

/-! ### Stitches -/

variable {port xid : Nat} {x : Xfer} {g : Bool} {st : Stitch} {rest : List Stitch}

theorem exec_stitchDispatch_none (hup : s.up = true) (h : s.pick port false = none) : exec (.stitchDispatch port false) s = .next s := by
  change execStitchDispatch port false s = _
  rw [execStitchDispatch, State.whenUp_of_up hup]
  simp only [Bool.false_eq_true, if_false, h]

theorem State.stitchOut_go (h : s.stitchGo x g x.stitchLen false = (w, .none)) : s.stitchOut x g = w := by
  simp only [State.stitchOut, State.stitchDo, h]

theorem exec_stitchDispatch_go (hup : s.up = true) (h : s.pick port false = some (v, x, g)) (hx : x.next < x.len)
    (hgo : v.stitchGo x g x.stitchLen false = (w, .none)) : exec (.stitchDispatch port false) s = .next w := by
  change execStitchDispatch port false s = _
  rw [execStitchDispatch, State.whenUp_of_up hup]
  simp only [Bool.false_eq_true, if_false, h, hx, if_true, State.stitchOut_go hgo]

/-- The oldest stitch of a transfer is written without poison, and the transfer has not failed: it ends with its last byte, or goes on. -/
theorem exec_stitchDataWritten (hup : s.up = true) (hx : s.xfer? xid = some x) (hp : s.panelHeld x.panel = false) (hf : x.flight = st :: rest)
    (hpoison : st.poison = false) (hst : ((s.moveData x st).stitchIn x st rest).2.st ≠ .failed) : exec (.stitchDataWritten xid) s =
      .next (State.invalSweep (let y := (s.moveData x st).stitchIn x st rest
        if rest.isEmpty && decide (y.2.len ≤ y.2.next) && y.2.tail.isNone then y.1.xferEnd y.2 else y.1)) := by
  change execStitchDataWritten xid s = _
  rw [execStitchDataWritten, State.whenUp_of_up hup]
  simp only [hx, hp, hf, hst, hpoison, Bool.false_eq_true, if_false]

theorem exec_stitchDataWritten_gone (hup : s.up = true) (hx : s.xfer? xid = none) : exec (.stitchDataWritten xid) s = .next s := by
  change execStitchDataWritten xid s = _
  rw [execStitchDataWritten, State.whenUp_of_up hup]
  simp only [hx]

end

/-- Settles O32: the fetch by `completes_sqEntryFetch`, the completion by `State.postNext_native`, the stitches by what dispatch and arrival do. -/
theorem queueData : Obligations.QueueData := by
  intro s v w q port xid ps c0 cs r x g st rest c h0 e plain
  refine ⟨fun hr hp hfetch hredo hchain havail hacc he => ?fetch, fun hr hp hfetch => exec_sqEntryFetch_stops hr hp hfetch,
    fun hr hrecon hst hc hreq hk hwait hfull hcom hj hrel hacc => ?post, fun hr hc => ?empty, fun hr hc hreq hk hfull => ?full,
    fun hup hpick hx hgo => exec_stitchDispatch_go hup hpick hx hgo, fun hup hpick => exec_stitchDispatch_none hup hpick,
    fun hup hx hp hf => ⟨fun hpoison hst hrest => ?goesOn, fun hpoison hst hrest hlen htail => ?ends⟩,
    fun hup hx => exec_stitchDataWritten_gone hup hx⟩
  case fetch =>
    obtain ⟨hfence, hinl, hech, hopc, htaken⟩ := he
    exact completes_sqEntryFetch hr hp hfetch hredo hchain havail hacc ⟨hfence, hinl, hech, hopc, htaken⟩
  case post => rw [exec_completionPost hr, State.postNext_native hr hrecon hst hc hreq hk hwait hfull hcom hj hrel, State.postCq_reached hacc]
  case empty => rw [exec_completionPost hr, State.postNext_empty hc]
  case full => rw [exec_completionPost hr, State.postNext_full hc hreq hk hfull]
  case goesOn =>
    rw [exec_stitchDataWritten hup hx hp hf hpoison hst]
    simp [hrest]
  case ends =>
    rw [exec_stitchDataWritten hup hx hp hf hpoison hst]
    subst hrest
    simp [hlen, htail]

end Sys2Proof.Machine
end

section
/-!
O29. Native requests. A fetched request whose predecessors are settled runs its opcode on a state that has not changed but in the request's own entry
(`State.start_ready`). Its flat buffers are their one segment (`State.withBuf_flat`), so its opcode comes to `launch`, `enqueue`, `putReq` or `finish`.
-/

namespace Sys2Proof.Machine

section

variable {s u : State} {q rid opc : Nat} {r r0 : Req}

/-! ### A request's entry in its ring -/

theorem State.putReq_shape (s : State) (r : Req) : ∃ qps galv out, s.putReq r = { s with qps, galv, out } := State.setQp_shape ..

@[simp] theorem State.putReq_regs (s : State) (r : Req) : (s.putReq r).regs = s.regs := State.setQp_regs ..

@[simp] theorem State.putReq_shut (s : State) (r : Req) : (s.putReq r).shut = s.shut := State.setQp_shut ..

/-- A request that stands in its ring reads what was put. -/
theorem State.req?_putReq (h : (s.qp r.q).req? r.rid = some r0) : ((s.putReq r).qp r.q).req? r.rid = some r := by
  have hsame : ((fun x : Req => x.rid == r.rid) ∘ fun x => if x.rid == r.rid then r else x) = fun x => x.rid == r.rid := by
    funext x
    dsimp only [Function.comp_apply]
    split
    · next hx => rw [hx, beq_self_eq_true]
    · rfl
  rw [State.putReq, State.qp_setQp_self, QpCtx.req?, List.find?_map, hsame]
  rw [QpCtx.req?] at h
  rw [h, Option.map_some, if_pos (List.find?_some h)]

/-! ### The end of a request -/

/-- Parked accesses decide ACTIVE or PARKED, and nothing else. -/
theorem State.refreshPark_eq (s : State) (q : Nat) : s.refreshPark q = s ∨ ∃ st, s.refreshPark q = s.setQp q { s.qp q with st := st } := by
  unfold State.refreshPark
  dsimp only
  split
  · exact .inl rfl
  split
  · exact .inr ⟨_, rfl⟩
  split
  · exact .inr ⟨_, rfl⟩
  · exact .inl rfl

theorem State.refreshPark_shape (s : State) (q : Nat) : ∃ qps galv out, s.refreshPark q = { s with qps, galv, out } := by
  rcases s.refreshPark_eq q with h | ⟨_, h⟩
  · exact ⟨_, _, _, h⟩
  · rw [h]
    exact State.setQp_shape ..

theorem State.cpls_refreshPark (s : State) (q : Nat) : ((s.refreshPark q).qp q).cpls = (s.qp q).cpls := by
  rcases s.refreshPark_eq q with h | ⟨_, h⟩
  · rw [h]
  · rw [h, State.qp_setQp_self]

/-- A request that ends leaves memory and registers alone. -/
theorem State.finish_shape (s : State) (r : Req) (status result usedLen : Nat) : ∃ shut qps galv out,
    s.finish r status result usedLen = { s with shut, qps, galv, out } := by
  unfold State.finish
  extract_lets tsOp cpl s1 c
  generalize QpCtx.mk .. = c'
  obtain ⟨_, _, _, h1⟩ := s1.setQp_shape r.q c'
  obtain ⟨_, _, _, h2⟩ := (s1.setQp r.q c').refreshPark_shape r.q
  rw [h2, h1]
  exact ⟨_, _, _, _, rfl⟩

/-- Its completion waits on its ring (R95). -/
theorem State.answered_finish (s : State) (r : Req) (status result usedLen : Nat) : (s.finish r status result usedLen).answered r.q r.rid status result := by
  unfold State.answered State.finish
  dsimp only
  rw [State.cpls_refreshPark, State.qp_setQp_self]
  exact ⟨_, List.mem_append_right _ (List.mem_singleton_self _), rfl, rfl, rfl⟩

/-! ### The start of a request -/

theorem State.start_of_starts {k : State → Req → State} (h : s.starts q rid opc r) :
    s.start q rid opc k = if r.predBad then s.finish r E.FENCE_ABORT 0 0 else k (s.putReq r) r := by
  obtain ⟨hready, hreq, -, -, hst, hkind, hopc, hpreds⟩ := h
  have hself : ({ r with st := .fetched } : Req) = r := by rw [← hst]
  rw [State.start, State.whenRing_of_ready hready]
  obtain ⟨-, -, hcont⟩ := hready
  simp only [hreq]
  rw [if_neg (by simp [hst, hcont, hkind, hopc, hpreds]), hself]

/-- A request whose FENCE found its predecessors OK runs its opcode. -/
theorem completes_started {i : Instr} {k : State → Req → State} {p : State → Prop} (hi : exec i s = .next (s.start q rid opc k))
    (h : s.starts q rid opc r) (hok : r.predBad = false) (hp : p (k (s.putReq r) r)) : Completes i s p :=
  ⟨_, by rw [hi, State.start_of_starts h, if_neg (ne_true_of_eq_false hok)], hp⟩

/-- Native requests of one segment for each buffer, without a transform, that find a channel free. -/
structure State.StartsPlain (s : State) (q rid opc : Nat) (r : Req) : Prop where
  starts : s.starts q rid opc r
  ok : r.predBad = false
  inl : sqeInline r.sqe = false
  bufmode : sqeBufmode r.sqe = 0
  xform : sqeXform r.sqe = 0
  len : 0 < sqeLen r.sqe
  channel : s.channelFree q = true

/-! ### Buffers -/

/-- A buffer that is no SGL is its one segment. -/
theorem State.withBuf_flat {b : Bool} {k : State → List (Nat × Nat) → State} (hm : sqeBufmode r.sqe = 0) (hn : 0 < sqeLen r.sqe) :
    s.withBuf r b k = k s [(if b then sqeAddr1 r.sqe else sqeAddr0 r.sqe, sqeLen r.sqe)] := by
  have hwalk (a : Nat) : segsSlice [(a, sqeLen r.sqe)] 0 (sqeLen r.sqe) = [(a, sqeLen r.sqe)] := by
    simp [segsSlice, Nat.pos_iff_ne_zero.1 hn]
  simp [State.withBuf, State.bufWalk, hm, segsLen, hwalk]

theorem State.withSrc_flat {k : State → Side → State} (hi : sqeInline r.sqe = false) (hm : sqeBufmode r.sqe = 0) (hn : 0 < sqeLen r.sqe) :
    s.withSrc r k = k s (ringSide r.q [(sqeAddr0 r.sqe, sqeLen r.sqe)]) := by
  rw [State.withSrc, if_neg (ne_true_of_eq_false hi), State.withBuf_flat hm hn]
  rfl

theorem State.keyRefusal_of_no_xform {e : List Byte} (h : sqeXform e = 0) : s.keyRefusal q e = none := by
  simp [State.keyRefusal, h, xformXts]

/-! ### Transfers -/

theorem State.channelFree_putReq (s : State) (r : Req) (q : Nat) : (s.putReq r).channelFree q = s.channelFree q := by
  obtain ⟨_, _, _, h⟩ := s.putReq_shape r
  rw [h]
  rfl

/-- A transfer for a request has taken a channel, from its first byte. -/
def State.moves (s t : State) (q rid n : Nat) (src dst : Side) (src2 : Option Side) : Prop :=
  ∃ x : Xfer, x ∈ t.shut.xfers ∧ x.xid = s.shut.nextXid ∧ x.purpose = .req q rid ∧ x.len = n ∧ x.src = src ∧ x.dst = dst ∧ x.src2 = src2 ∧
    x.st = .ready ∧ x.next = 0

theorem State.moves_launch {src dst : Side} {src2 : Option Side} {tail : Option Nat} {toHost : Bool} (h : s.StartsPlain q rid opc r) :
    s.moves ((s.putReq r).launch r src dst src2 tail toHost) q rid (sqeLen r.sqe) src dst src2 := by
  obtain ⟨-, -, hq, hrid, -⟩ := h.starts
  have hfree : (s.putReq r).channelFree r.q = true := by
    rw [State.channelFree_putReq, hq, h.channel]
  rw [State.launch, if_pos hfree]
  refine ⟨_, List.mem_append_right _ (List.mem_singleton_self _), ?_, by rw [hq, hrid], rfl, rfl, rfl, rfl, rfl, rfl⟩
  change (State.putReq (s.putReq r) _).shut.nextXid = _
  rw [State.putReq_shut, State.putReq_shut]

theorem State.startMove_plain (hx : sqeXform r.sqe = 0) (hi : sqeInline r.sqe = false) (hm : sqeBufmode r.sqe = 0) (hn : 0 < sqeLen r.sqe) :
    s.startMove r = s.launch r (ringSide r.q [(sqeAddr0 r.sqe, sqeLen r.sqe)]) (ringSide r.q [(sqeAddr1 r.sqe, sqeLen r.sqe)]) none none true := by
  simp [State.startMove, hx, State.keyRefusal_of_no_xform hx, State.withSrc_flat hi hm hn, State.withBuf_flat hm hn]

theorem State.startFill_plain (hm : sqeBufmode r.sqe = 0) (hn : 0 < sqeLen r.sqe) : s.startFill r =
    s.launch r (.pattern ((r.sqe.drop 40).take 8)) (ringSide r.q [(sqeAddr1 r.sqe, sqeLen r.sqe)]) none none true := by
  simp [State.startFill, State.withBuf_flat hm hn]

theorem State.startCompare_plain (hi : sqeInline r.sqe = false) (hm : sqeBufmode r.sqe = 0) (hn : 0 < sqeLen r.sqe) : s.startCompare r =
    s.launch r (ringSide r.q [(sqeAddr0 r.sqe, sqeLen r.sqe)]) .sink (some (ringSide r.q [(sqeAddr1 r.sqe, sqeLen r.sqe)])) none false := by
  simp [State.startCompare, State.withSrc_flat hi hm hn, State.withBuf_flat hm hn]

/-! ### Frames -/

theorem State.startNetTx_short (h : sqeLen r.sqe < 14) : s.startNetTx r = s.finish r E.PARAM 0 0 := by
  rw [State.startNetTx, if_pos h]

theorem State.startNetTx_plain (hi : sqeInline r.sqe = false) (hm : sqeBufmode r.sqe = 0) (h14 : 14 ≤ sqeLen r.sqe)
    (hmax : sqeLen r.sqe ≤ s.fld (R.SELV_VPORTA.FRAME_MAX (s.qpFn r.q))) (hturn : s.netTurn r = true) :
    s.startNetTx r = s.launch r (ringSide r.q [(sqeAddr0 r.sqe, sqeLen r.sqe)]) .sink none none false := by
  rw [State.startNetTx, if_neg (by omega), if_neg (by omega), if_pos hturn, State.withSrc_flat hi hm (by omega)]

theorem State.netHold_sendFlits (s : State) (l : List FlitPayload) : (s.sendFlits l).galv.netHold = s.galv.netHold := by
  induction l generalizing s with
  | nil => rfl
  | cons p l ih => exact ih (s.sendFlit p)

theorem State.netHold_putReq (s : State) (r : Req) : (s.putReq r).galv.netHold = s.galv.netHold := by
  unfold State.putReq State.setQp
  dsimp only
  split
  · exact State.netHold_sendFlits ..
  · rfl

/-- Whose turn it is rests on the requests of lower rids, which a put leaves alone (R155). -/
theorem State.netTurn_putReq (s : State) (r : Req) : (s.putReq r).netTurn r = s.netTurn r := by
  have hreqs : ((s.putReq r).qp r.q).reqs = (s.qp r.q).reqs.map fun x => if x.rid == r.rid then r else x := by
    rw [State.putReq, State.qp_setQp_self]
  rw [State.netTurn, State.netHold_putReq, hreqs, List.any_map, State.netTurn]
  congr 3
  funext x
  dsimp only [Function.comp_apply]
  split
  · next hx => simp [beq_iff_eq.1 hx]
  · rfl

theorem State.startNetRx_plain (hm : sqeBufmode r.sqe = 0) (hn : 0 < sqeLen r.sqe) : ∃ b, s.startNetRx r = s.putReq { r with st := .rxPosted, blk := b } := by
  rw [State.startNetRx, State.withBuf_flat hm hn]
  exact ⟨_, rfl⟩

/-! ### Block requests -/

theorem State.beq_setBeq_self {b : Nat} {x : Beq} : (s.setBeq b x).beq b = x := smGet_put_self

theorem State.startBlk_taken {k : State → State} (hx : sqeXform r.sqe = 0) (hv : sqeVolume r.sqe ≤ 15) (hvalid : r.volValid = true)
    (hon : s.beqOn r = true) : s.startBlk r k = k s := by
  rw [State.startBlk, if_neg (by omega)]
  simp [State.withVolume, hvalid, hon, State.keyRefusal_of_no_xform hx]

theorem State.startBlk_queue_full {k : State → State} (hv : sqeVolume r.sqe ≤ 15) (hvalid : r.volValid = true)
    (hoff : s.beqOn r = false) : s.startBlk r k = s.finish r E.QUEUE_FULL 0 1 := by
  rw [State.startBlk, if_neg (by omega)]
  simp [State.withVolume, hvalid, hoff]

theorem State.beqOn_putReq (s : State) (r r' : Req) : (s.putReq r).beqOn r' = s.beqOn r' :=
  State.bit_of_fld (State.fld_of_reg (State.reg_of_regs (State.putReq_regs ..)))

/-- A request's work item waits for its back-end queue, with what its admission fixed (R123, R126). -/
def State.itemOf (t : State) (r : Req) (op lba nbytes : Nat) (data : Side) : Prop :=
  ∃ i : BeqItem, i ∈ (t.beq (volBeq r.volA)).items ∧ i.rid = r.rid ∧ i.q = r.q ∧ i.op = op ∧ i.lba = lba ∧ i.nbytes = nbytes ∧ i.data = data ∧
    i.vol = getBits r.volA 0 32 ∧ i.acct = r.acct ∧ i.epoch = r.epoch

theorem State.itemOf_enqueue (s : State) (r : Req) (op flags lba nbytes : Nat) (ranges : List (Nat × Nat)) (data : Side) :
    (s.enqueue r op flags lba nbytes ranges data).itemOf r op lba nbytes data := by
  unfold State.itemOf State.enqueue
  dsimp only
  rw [State.beq_setBeq_self]
  exact ⟨_, List.mem_append_right _ (List.mem_singleton_self _), rfl, rfl, rfl, rfl, rfl, rfl, rfl, rfl, rfl⟩

theorem State.enqueue_regs (s : State) (r : Req) (op flags lba nbytes : Nat) (ranges : List (Nat × Nat)) (data : Side) :
    (s.enqueue r op flags lba nbytes ranges data).regs = s.regs := State.putReq_regs s { r with st := .running }

/-! ### The commands -/

theorem Completes.imp {i : Instr} {p p' : State → Prop} (h : Completes i s p) (hp : ∀ t, p t → p' t) : Completes i s p' := by
  obtain ⟨t, ht, hpt⟩ := h
  exact ⟨t, ht, hp t hpt⟩

theorem State.StartsPlain.q_eq (h : s.StartsPlain q rid opc r) : r.q = q := by
  obtain ⟨-, -, hq, -⟩ := h.starts
  exact hq

theorem State.StartsPlain.withSrc {k : State → Side → State} (h : s.StartsPlain q rid opc r) (u : State) :
    u.withSrc r k = k u (ringSide q [(sqeAddr0 r.sqe, sqeLen r.sqe)]) := by
  rw [State.withSrc_flat h.inl h.bufmode h.len, h.q_eq]

theorem State.starts.answered_finish (h : s.starts q rid opc r) (u : State) (status usedLen : Nat) :
    (u.finish r status 0 usedLen).answered q rid status 0 := by
  obtain ⟨-, -, rfl, rfl, -⟩ := h
  exact u.answered_finish r status 0 usedLen

theorem completes_nop (h : s.starts q rid 0 r) (hok : r.predBad = false) : Completes (.nop q rid) s fun t =>
    t.answered q rid 0 0 ∧ t.regs = s.regs ∧ t.hostMem = s.hostMem ∧ t.mem = s.mem := by
  refine completes_started rfl h hok ⟨h.answered_finish .., ?_⟩
  obtain ⟨_, _, _, h1⟩ := s.putReq_shape r
  obtain ⟨_, _, _, _, h2⟩ := (s.putReq r).finish_shape r 0 0 0
  rw [h2, h1]
  exact ⟨rfl, rfl, rfl⟩

/-- A FENCE one of whose predecessors ended otherwise than OK (R89). -/
theorem completes_nop_fenced (h : s.starts q rid 0 r) (hbad : r.predBad = true) : Completes (.nop q rid) s fun t =>
    t.answered q rid E.FENCE_ABORT 0 := by
  have hexec : exec (.nop q rid) s = .next (s.start q rid 0 fun s r => s.finish r 0 0 0) := rfl
  exact ⟨_, by rw [hexec, State.start_of_starts h, if_pos hbad], h.answered_finish ..⟩

theorem completes_move (h : s.StartsPlain q rid 1 r) : Completes (.move q rid) s fun t =>
    s.moves t q rid (sqeLen r.sqe) (ringSide q [(sqeAddr0 r.sqe, sqeLen r.sqe)]) (ringSide q [(sqeAddr1 r.sqe, sqeLen r.sqe)]) none := by
  refine completes_started rfl h.starts h.ok ?_
  rw [State.startMove_plain h.xform h.inl h.bufmode h.len, h.q_eq]
  exact State.moves_launch h

theorem completes_fill (h : s.StartsPlain q rid 2 r) : Completes (.fill q rid) s fun t =>
    s.moves t q rid (sqeLen r.sqe) (.pattern ((r.sqe.drop 40).take 8)) (ringSide q [(sqeAddr1 r.sqe, sqeLen r.sqe)]) none := by
  refine completes_started rfl h.starts h.ok ?_
  rw [State.startFill_plain h.bufmode h.len, h.q_eq]
  exact State.moves_launch h

theorem completes_compare (h : s.StartsPlain q rid 3 r) : Completes (.compare q rid) s fun t =>
    s.moves t q rid (sqeLen r.sqe) (ringSide q [(sqeAddr0 r.sqe, sqeLen r.sqe)]) .sink (some (ringSide q [(sqeAddr1 r.sqe, sqeLen r.sqe)])) := by
  refine completes_started rfl h.starts h.ok ?_
  rw [State.startCompare_plain h.inl h.bufmode h.len, h.q_eq]
  exact State.moves_launch h

theorem completes_netTx (h : s.StartsPlain q rid 0x10 r) (h14 : 14 ≤ sqeLen r.sqe) (hmax : sqeLen r.sqe ≤ s.fld (R.SELV_VPORTA.FRAME_MAX (s.qpFn q)))
    (hturn : s.netTurn r = true) : Completes (.netTx q rid) s fun t =>
      s.moves t q rid (sqeLen r.sqe) (ringSide q [(sqeAddr0 r.sqe, sqeLen r.sqe)]) .sink none := by
  have hfld (f : Fld) : (s.putReq r).fld f = s.fld f := State.fld_of_reg (State.reg_of_regs (State.putReq_regs ..))
  refine completes_started rfl h.starts h.ok ?_
  rw [State.startNetTx_plain h.inl h.bufmode h14 (by rw [h.q_eq, State.qpFn, hfld, hfld]; exact hmax) (by rw [State.netTurn_putReq, hturn]), h.q_eq]
  exact State.moves_launch h

theorem completes_netTx_short (h : s.starts q rid 0x10 r) (hok : r.predBad = false) (hn : sqeLen r.sqe < 14) :
    Completes (.netTx q rid) s fun t => t.answered q rid E.PARAM 0 := by
  refine completes_started rfl h hok ?_
  rw [State.startNetTx_short hn]
  exact h.answered_finish ..

/-- A frame buffer waits for its frame (R94). -/
theorem completes_netRxPost (h : s.StartsPlain q rid 0x11 r) : Completes (.netRxPost q rid) s fun t =>
    ((t.qp q).req? rid).map (·.st) = some .rxPosted ∧ t.regs = s.regs := by
  obtain ⟨-, hreq, rfl, rfl, -⟩ := h.starts
  refine completes_started rfl h.starts h.ok ?_
  obtain ⟨b, hb⟩ := (s.putReq r).startNetRx_plain h.bufmode h.len
  have hput : ((State.putReq (s.putReq r) { r with st := .rxPosted, blk := b }).qp r.q).req? r.rid = some { r with st := .rxPosted, blk := b } :=
    State.req?_putReq (r := { r with st := .rxPosted, blk := b }) (State.req?_putReq hreq)
  rw [hb, hput, State.putReq_regs, State.putReq_regs]
  exact ⟨rfl, rfl⟩

/-- A block request of a volume in use joins the back-end queue that its opcode's meaning names. -/
theorem completes_blk {i : Instr} {k : State → Req → State} {op lba nbytes : Nat} {data : Side} (h : s.StartsPlain q rid opc r)
    (hv : sqeVolume r.sqe ≤ 15) (hvalid : r.volValid = true) (hon : s.beqOn r = true)
    (hi : exec i s = .next (s.start q rid opc fun u r => u.startBlk r fun u => k u r))
    (hk : k (s.putReq r) r = (s.putReq r).enqueue r op 0 lba nbytes [] data) :
    Completes i s fun t => t.itemOf r op lba nbytes data ∧ t.regs = s.regs := by
  refine completes_started hi h.starts h.ok ?_
  rw [State.startBlk_taken h.xform hv hvalid (by rw [State.beqOn_putReq, hon]), hk]
  exact ⟨State.itemOf_enqueue .., (State.enqueue_regs ..).trans (State.putReq_regs ..)⟩

theorem completes_blkRead_queue_full (h : s.starts q rid 0x20 r) (hok : r.predBad = false) (hv : sqeVolume r.sqe ≤ 15) (hvalid : r.volValid = true)
    (hoff : s.beqOn r = false) : Completes (.blkRead q rid) s fun t => t.answered q rid E.QUEUE_FULL 0 := by
  refine completes_started rfl h hok ?_
  rw [State.startBlk_queue_full hv hvalid (by rw [State.beqOn_putReq, hoff])]
  exact h.answered_finish ..

end

/-- Settles O29: one lemma for each opcode. -/
theorem nativeRequests : Obligations.NativeRequests := by
  intro s q rid r a b n plain moves item blk
  have hplain {opc : Nat} (h : plain opc) : s.StartsPlain q rid opc r := by
    obtain ⟨hs, hok, hinl, hbuf, hx, hn, hfree⟩ := h
    exact ⟨hs, hok, hinl, hbuf, hx, hn, hfree⟩
  have hitem {opc op lba nbytes : Nat} {data : Side} (h : plain opc) (t : State) (ht : t.itemOf r op lba nbytes data ∧ t.regs = s.regs) :
      item op lba nbytes data t := by
    obtain ⟨⟨i, hi, hrid, hq, hop, hlba, hbytes, hdata, hvol, hacct, hepoch⟩, hregs⟩ := ht
    obtain ⟨-, -, rfl, rfl, -⟩ := (hplain h).starts
    exact ⟨i, hi, hrid, hq, hop, hlba, hbytes, hdata, hvol, hacct, hepoch, hregs⟩
  refine ⟨completes_nop, completes_nop_fenced, fun h => completes_move (hplain h), fun h => completes_fill (hplain h),
    fun h => completes_compare (hplain h), fun h h14 hmax hturn => completes_netTx (hplain h) h14 hmax hturn,
    fun h hn => completes_netTx_short (hplain h).starts (hplain h).ok hn, fun h => completes_netRxPost (hplain h),
    fun ⟨h, hv, hvalid, hon⟩ => (completes_blk (hplain h) hv hvalid hon rfl ((hplain h).withSrc _)).imp (hitem h),
    fun ⟨h, hv, hvalid, hon⟩ => (completes_blk (hplain h) hv hvalid hon rfl ((hplain h).withSrc _)).imp (hitem h),
    fun ⟨h, hv, hvalid, hon⟩ => (completes_blk (hplain h) hv hvalid hon rfl rfl).imp (hitem h),
    fun ⟨h, hv, hvalid, hon⟩ => (completes_blk (hplain h) hv hvalid hon rfl rfl).imp (hitem h),
    fun h hv hvalid hoff => completes_blkRead_queue_full (hplain h).starts (hplain h).ok hv hvalid hoff⟩

end Sys2Proof.Machine
end

section
/-!
O28. Doorbells, the queue window, vectors and shadow reads, each by the one operation that it comes to on its ring (`State.ringIndices`, `State.ringEnable`,
`State.ringDisable`, `State.unmask`); then the time-driven events. The refill of the token buckets is an induction over the functions with scheduler state:
each has buckets of its own, and is refilled once.
-/

namespace Sys2Proof.Machine

section

variable {s v : State} {f loc q tail vec : Nat} {d : W64}

/-- What a function does outside Hold happens. -/
theorem State.whenFn_of_ready {k : State → State} (h : s.fnReady f) : s.whenFn f k = k s := by
  obtain ⟨hup, hpanel, -⟩ := h
  simp [State.whenFn, State.whenPanel, hup, hpanel]

/-! ### What a doorbell does to a ring (R96, R97) -/

theorem dbTail_eq (h : d.getLsbD 32 = false) : dbTail d = some (d.toNat % 65536) := by
  rw [dbTail, getBit, h, getBits_eq_div_mod, Nat.pow_zero, Nat.div_one]
  rfl

theorem dbHead_eq_none (h : d.getLsbD 33 = true) : dbHead d = none := by
  rw [dbHead, getBit, h, if_pos rfl]

theorem State.doorbell_quiesced (hc : (s.qp q).contained = false) (hst : (s.qp q).st = .quiesced) (ht : d.getLsbD 32 = false) (hh : d.getLsbD 33 = true) :
    s.doorbell q d = s.setQp q { s.qp q with sqTail := d.toNat % 65536 } := by
  simp [State.doorbell, hc, hst, dbTail_eq ht, dbHead_eq_none hh]

theorem State.doorbell_active (hc : (s.qp q).contained = false) (hst : (s.qp q).st = .active) (ht : d.getLsbD 32 = false) (hh : d.getLsbD 33 = true) :
    s.doorbell q d = s.ringIndices q (some (d.toNat % 65536)) none := by
  simp [State.doorbell, hc, hst, dbTail_eq ht, dbHead_eq_none hh]

/-- A new tail in range exposes entries. -/
theorem State.ringIndices_tail (hlt : tail < (s.qp q).sqDepth) (hne : tail ≠ (s.qp q).sqTail) : s.ringIndices q (some tail) none = s.expose q tail := by
  simp [State.ringIndices, hlt, hne]

theorem State.ringIndices_tail_range (hle : (s.qp q).sqDepth ≤ tail) : s.ringIndices q (some tail) none = s.ringError q E.DOORBELL_RANGE false := by
  simp [State.ringIndices, hle]

/-- Exposed entries carry the next order stamp (R239). -/
theorem State.expose_spec (s : State) (q tail : Nat) :
    (s.expose q tail).qp q = { s.qp q with sqTail := tail, expo := (s.qp q).expo ++ [(tail, s.qf.stamp)] } ∧ (s.expose q tail).qf.stamp = s.qf.stamp + 1 ∧
      (s.expose q tail).regs = s.regs ∧ (s.expose q tail).hostMem = s.hostMem :=
  ⟨State.qp_setQp_self, congrArg QfabState.stamp (State.setQp_qf ..), State.setQp_regs .., State.setQp_hostMem ..⟩

theorem State.ringError_spec (s : State) (q code : Nat) : ((s.ringError q code false).qp q).st = .error ∧ ((s.ringError q code false).qp q).errcode = code := by
  obtain ⟨c, hst, hcode, hqp⟩ : ∃ c : QpCtx, c.st = .error ∧ c.errcode = code ∧ (s.ringError q code false).qp q = c :=
    ⟨_, rfl, rfl, (State.qp_of_qps rfl).trans State.qp_setQp_self⟩
  rw [hqp]
  exact ⟨hst, hcode⟩

/-! ### DOORBELL_WRITE -/

theorem exec_doorbellWrite (hr : s.fnReady f) (hl : loc < 0x1000) (hp : s.pers f = 0) :
    exec (.doorbellWrite f (8 * loc) 8 d) s = .next (s.ringDoorbell f loc d) := by
  have hoff : ¬ (!s.fnReachable f || decide (0x8000 ≤ 8 * loc) || s.pers f != 0) = true := by
    obtain ⟨-, -, hreach⟩ := hr
    simp only [hreach, hp, Bool.not_true, Bool.false_or, Bool.or_eq_true, decide_eq_true_eq, bne_self_eq_false, Bool.false_eq_true, or_false]
    omega
  have hval : dbValue (8 * loc) 8 d = some d := by simp [dbValue]
  change execDoorbellWrite f (8 * loc) 8 d s = _
  rw [execDoorbellWrite, State.whenFn_of_ready hr, if_neg hoff, hval, Nat.mul_div_cancel_left loc (by decide)]

/-- A write of another size is no doorbell (R31). -/
theorem exec_doorbellWrite_other_size {off len : Nat} (hr : s.fnReady f) (h4 : len ≠ 4) (h8 : len ≠ 8) : exec (.doorbellWrite f off len d) s = .next s := by
  have hval : dbValue off len d = none := by simp [dbValue, h4, h8]
  change execDoorbellWrite f off len d s = _
  rw [execDoorbellWrite, State.whenFn_of_ready hr, hval, ite_self]

theorem State.ringDoorbell_stray (hq : s.qpAt f loc = none) (he : (s.fn f).evtEn = false) :
    s.ringDoorbell f loc d = s.setFn f { s.fn f with strayDb := true } := by
  simp [State.ringDoorbell, hq, State.strayDb, State.fnEvent, he]

theorem State.ringDoorbell_own (hq : s.qpAt f loc = some q) (hl : s.galv.lent.contains q = false) : s.ringDoorbell f loc d = s.doorbell q d := by
  rw [State.ringDoorbell, hq]
  dsimp only
  rw [if_neg (ne_true_of_eq_false hl)]

/-! ### The queue window (R100) -/

theorem State.windowQp_native (hp : s.pers f = 0) (hq : s.qpAt f loc = some q) : s.windowQp f loc = some q := by
  rw [State.windowQp, if_pos hp, hq]

theorem exec_qpEnable (hr : s.fnReady f) (hp : s.pers f = 0) (hq : s.qpAt f loc = some q) : exec (.qpEnable f loc) s = .next (s.ringEnable q) := by
  change execQpEnable f loc s = _
  rw [execQpEnable, State.whenFn_of_ready hr, State.windowQp_native hp hq]
  obtain ⟨-, -, hreach⟩ := hr
  rw [if_neg (by simp [hreach])]

theorem State.ringEnable_starts (hst : (s.qp q).st = .quiesced) (hd : (s.qp q).drain = none) (hok : s.enableOk q = true) (hh : (s.qp q).held = false)
    (hs : (s.qp q).sessHeld = false) (hx : (s.qp q).sqTail = (s.qp q).sqHead) :
    s.ringEnable q = s.setQp q { s.qp q with st := .active, enable := true } := by
  rw [← State.activate_empty hx]
  simp [State.ringEnable, hst, hd, hok, hh, hs]

theorem State.ringEnable_bad (hst : (s.qp q).st = .quiesced) (hd : (s.qp q).drain = none) (hok : s.enableOk q = false) :
    s.ringEnable q = s.setQp q { s.qp q with enable := false, cfgErr := true } := by
  simp [State.ringEnable, hst, hd, hok]

theorem exec_qpDisable (hr : s.fnReady f) (hp : s.pers f = 0) (hq : s.qpAt f loc = some q) : exec (.qpDisable f loc) s = .next (s.ringDisable q) := by
  change execQpDisable f loc s = _
  rw [execQpDisable, State.whenFn_of_ready hr, State.windowQp_native hp hq]
  obtain ⟨-, -, hreach⟩ := hr
  rw [if_neg (by simp [hreach])]

theorem State.ringDisable_active (hc : (s.qp q).contained = false) (hst : (s.qp q).st = .active) :
    s.ringDisable q = (s.setQp q { s.qp q with enable := false }).drainStart q { fresh := true, hold := false, force := false } := by
  simp [State.ringDisable, hc, hst]

/-- ENABLE falls, and a drain to a fresh context starts (Table 03-10). -/
theorem State.ringDisable_active_spec (hc : (s.qp q).contained = false) (hst : (s.qp q).st = .active) :
    ((s.ringDisable q).qp q).enable = false ∧ ((s.ringDisable q).qp q).drain.map (·.fresh) = some true ∧ (s.ringDisable q).regs = s.regs := by
  obtain ⟨c, e, hdrain, hen, hce, hfresh⟩ :=
    (s.setQp q { s.qp q with enable := false }).drainStart_spec q { fresh := true, hold := false, force := false }
  rw [State.ringDisable_active hc hst, hdrain, State.qp_setQp_self, State.setQp_regs, State.setQp_regs, hen, State.qp_setQp_self, hce, Option.map_some,
    hfresh rfl]
  exact ⟨rfl, rfl, rfl⟩

theorem exec_queueWindowWrite {reg : QwReg} (hr : s.fnReady f) (hp : s.pers f = 0) (hq : s.qpAt f loc = some q) : exec (.queueWindowWrite f loc reg d) s =
    .next (if (s.qp q).st = .quiesced then s.setQp q ((s.qp q).setWindow reg d) else s.setQp q { s.qp q with cfgErr := true }) := by
  change execQueueWindowWrite f loc reg d s = _
  rw [execQueueWindowWrite, State.whenFn_of_ready hr, State.windowQp_native hp hq]
  obtain ⟨-, -, hreach⟩ := hr
  rw [if_neg (by simp [hreach])]

/-! ### Vectors and the function-event switch (R103, R472) -/

theorem exec_msixVectorUnmask (hr : s.fnReady f) (hv : vec < s.msixCount f) : exec (.msixVectorUnmask f vec) s = .next (s.unmask f vec) := by
  change execMsixVectorUnmask f vec s = _
  rw [execMsixVectorUnmask, State.whenFn_of_ready hr]
  obtain ⟨-, -, hreach⟩ := hr
  rw [if_pos (by simp [hv, hreach])]

/-- An entry of a function's MSI-X table. -/
def State.vecEnt (s : State) (f vec : Nat) : MsixEnt := smGet MsixEnt.reset (s.fn f).msix vec

/-- An entry of a function's MSI-X table takes a value. -/
def State.setVecEnt (s : State) (f vec : Nat) (e : MsixEnt) : State := s.setFn f { s.fn f with msix := smPut MsixEnt.reset (s.fn f).msix vec e }

/-- A message held in the PBA is sent. -/
theorem State.unmask_pending (hreach : s.fnReachable f = true) (hen : (s.fn f).msixEn = true) (hp : (s.vecEnt f vec).pend = true) :
    s.unmask f vec = (s.setVecEnt f vec { s.vecEnt f vec with masked := false, pend := false }).emit
      (.msix f vec (s.vecEnt f vec).addr (s.vecEnt f vec).data) := by
  rw [State.vecEnt] at hp
  simp [State.unmask, State.vecEnt, State.setVecEnt, hreach, hen, hp]

theorem State.unmask_idle (hp : (s.vecEnt f vec).pend = false) : s.unmask f vec = s.setVecEnt f vec { s.vecEnt f vec with masked := false } := by
  rw [State.vecEnt] at hp
  simp [State.unmask, State.vecEnt, State.setVecEnt, hp]

theorem exec_vfFstatEvtEnWrite_off (hr : s.fnReady f) (hp : s.pers f = 0) (hen : d.getLsbD 34 = false) : exec (.vfFstatEvtEnWrite f d) s =
    .next (s.setFn f { s.fn f with
      grantEvt := (s.fn f).grantEvt && !d.getLsbD 32, strayDb := (s.fn f).strayDb && !d.getLsbD 33, evtEn := false }) := by
  change execVfFstatEvtEnWrite f d s = _
  rw [execVfFstatEvtEnWrite, State.whenFn_of_ready hr]
  obtain ⟨-, -, hreach⟩ := hr
  simp only [hreach, hp, getBit, hen, Bool.not_true, bne_self_eq_false, Bool.or_self, Bool.false_and, Bool.false_eq_true, if_false]

/-! ### Shadow doorbells (R98, R99) -/

theorem exec_shadowPoll {ps : List (Nat × Nat)} (hr : s.ringReady q) (hlc : isLc q = false) (hp : s.pers (s.qpFn q) = 0) (hst : (s.qp q).st = .active)
    (hrec : (s.qp q).recon = false) (hout : (s.qp q).shadowOut = false) (hpoll : getBits (s.qp q).cfg 38 10 ≠ 0)
    (hacc : s.access q (s.qp q).shadow.toNat 8 false (.shadow q) = (v, .at ps)) :
    exec (.shadowPoll q) s = .next ((v.setQp q { v.qp q with shadowOut := true }).emit (.shadowRead q)) := by
  change execShadowPoll q s = _
  rw [execShadowPoll, State.whenRing_of_ready hr]
  obtain ⟨-, -, hcont⟩ := hr
  simp [hlc, hp, hst, hcont, hrec, hout, hpoll, hacc]

theorem exec_shadowReadResult_failed (hr : s.ringReady q) (hout : (s.qp q).shadowOut = true) :
    exec (.shadowReadResult q .failed) s = .next (s.setQp q { s.qp q with shadowOut := false }).invalSweep := by
  change execShadowReadResult q .failed s = _
  rw [execShadowReadResult, State.whenRing_of_ready hr]
  simp [hout]

/-- The state in which the shadow read of a ring is no longer outstanding. -/
def State.shadowRead (s : State) (q : Nat) : State := (s.setQp q { s.qp q with shadowOut := false }).invalSweep

theorem State.qp_shadowRead : (s.shadowRead q).qp q = { s.qp q with shadowOut := false } := (State.qp_of_qps rfl).trans State.qp_setQp_self

theorem exec_shadowReadResult_value (hr : s.ringReady q) (hout : (s.qp q).shadowOut = true) (hp : s.pers (s.qpFn q) = 0) (hst : (s.qp q).st = .active) :
    exec (.shadowReadResult q (.value d)) s =
      .next ((s.shadowRead q).ringIndices q (some (d.toNat % 65536)) (some (d.toNat / 65536 % 65536))) := by
  change execShadowReadResult q (.value d) s = _
  rw [execShadowReadResult, State.whenRing_of_ready hr]
  simp [hout, hp, hst, getBits_eq_div_mod, State.shadowRead]

theorem QpCtx.cqHeadOk_self {c : QpCtx} (h : c.cqHead < c.cqDepth) : c.cqHeadOk c.cqHead = true := by
  have hlap : (c.cqHead + c.cqDepth - c.cqHead) % c.cqDepth = 0 := by rw [Nat.add_sub_cancel_left, Nat.mod_self]
  rw [QpCtx.cqHeadOk, hlap]
  simp [h]

/-- With the CQ head as it was, the tail moves and nothing else of the window's indices. -/
theorem State.ringIndices_same_head (ht : tail < (s.qp q).sqDepth) (hh : (s.qp q).cqHead < (s.qp q).cqDepth) : ∃ expo,
    (s.ringIndices q (some tail) (some (s.qp q).cqHead)).qp q = { s.qp q with sqTail := tail, expo := expo } := by
  have hself : (s.setQp q { s.qp q with cqHead := (s.qp q).cqHead }).qp q = s.qp q := State.qp_setQp_self
  simp only [State.ringIndices, Nat.not_le.2 ht, QpCtx.cqHeadOk_self hh, decide_false, Bool.not_true, Bool.or_self, Bool.false_eq_true, if_false]
  split
  · next he => exact ⟨_, hself.trans (by rw [he])⟩
  · obtain ⟨hqp, -⟩ := (s.setQp q { s.qp q with cqHead := (s.qp q).cqHead }).expose_spec q tail
    exact ⟨_, hqp.trans (by rw [hself])⟩

theorem completes_shadowReadResult_value (hr : s.ringReady q) (hout : (s.qp q).shadowOut = true) (hp : s.pers (s.qpFn q) = 0) (hst : (s.qp q).st = .active)
    (ht : d.toNat % 65536 < (s.qp q).sqDepth) (hd : d.toNat / 65536 % 65536 = (s.qp q).cqHead) (hh : (s.qp q).cqHead < (s.qp q).cqDepth) :
    Completes (.shadowReadResult q (.value d)) s fun t =>
      (t.qp q).sqTail = d.toNat % 65536 ∧ (t.qp q).shadowOut = false ∧ (t.qp q).cqHead = (s.qp q).cqHead := by
  have hc := State.qp_shadowRead (s := s) (q := q)
  have hhead : ((s.shadowRead q).qp q).cqHead = (s.qp q).cqHead := by rw [hc]
  obtain ⟨expo, hqp⟩ := State.ringIndices_same_head (s := s.shadowRead q) (q := q) (tail := d.toNat % 65536) (by rw [hc]; exact ht) (by rw [hc]; exact hh)
  rw [hhead, ← hd] at hqp
  refine ⟨_, exec_shadowReadResult_value hr hout hp hst, ?_, ?_, ?_⟩
  · rw [hqp]
  · rw [hqp, hc]
  · rw [hqp, hc]

/-! ### Coalescing (R102) -/

theorem exec_coalTimeExpiry (hr : s.ringReady q) (ho : (s.qp q).coalOpen = true) (hi : (s.qp q).intEn (isLc q) = true)
    (ht : (s.qp q).coalTime (isLc q) ≠ 0) : exec (.coalTimeExpiry q) s = .next (s.ringSignal q) := by
  change execCoalTimeExpiry q s = _
  rw [execCoalTimeExpiry, State.whenRing_of_ready hr]
  obtain ⟨-, -, hcont⟩ := hr
  rw [if_pos (by simp [ho, hi, ht, hcont])]

/-- A signal begins the counting of completions anew, whichever way it goes out. -/
theorem State.ringSignal_spec (s : State) (q : Nat) : (s.ringSignal q).qp q = { s.qp q with coal := 0, coalOpen := false } ∧
    (s.ringSignal q).regs = s.regs ∧ (s.ringSignal q).mem = s.mem ∧ (s.ringSignal q).hostMem = s.hostMem := by
  obtain ⟨_, _, _, h⟩ := s.setQp_shape q { s.qp q with coal := 0, coalOpen := false }
  unfold State.ringSignal
  dsimp only
  split
  · refine ⟨(State.qp_of_qps (State.msi_qps ..)).trans State.qp_setQp_self, ?_⟩
    rw [State.msi_regs, State.msi_mem, State.msi_hostMem, h]
    exact ⟨rfl, rfl, rfl⟩
  · refine ⟨(State.qp_of_qps (State.ringMsix_qps ..)).trans State.qp_setQp_self, ?_⟩
    rw [State.ringMsix_regs, State.ringMsix_mem, State.ringMsix_hostMem, h]
    exact ⟨rfl, rfl, rfl⟩

/-! ### Token buckets (R105) -/

theorem State.tokens_refill_self {k n burst : Nat} : (s.refill k n burst).tokens k = min (s.tokens k + n) burst := smGet_put_self

theorem State.tokens_refill_ne {k j n burst : Nat} (h : j ≠ k) : (s.refill k n burst).tokens j = s.tokens j := smGet_put_ne h

theorem State.refillFns_cons {l : List Nat} : s.refillFns (f :: l) = (s.refillFn f).refillFns l := by
  conv_lhs => unfold State.refillFns

theorem State.refillAccts_cons {a : Nat} {l : List Nat} : s.refillAccts (a :: l) = (s.refillAcct a).refillAccts l := by
  conv_lhs => unfold State.refillAccts

/-- `t` is `s` but for the buckets. -/
def State.SameButBuckets (s t : State) : Prop := ∃ buckets, t = { s with qf := { s.qf with buckets } }

theorem State.SameButBuckets.refill {t : State} {k n burst : Nat} : s.SameButBuckets t → s.SameButBuckets (t.refill k n burst) := by
  rintro ⟨_, rfl⟩
  exact ⟨_, rfl⟩

theorem State.SameButBuckets.refillFns {t : State} {l : List Nat} (h : s.SameButBuckets t) : s.SameButBuckets (t.refillFns l) := by
  induction l generalizing t with
  | nil => exact h
  | cons f l ih =>
    rw [State.refillFns_cons]
    exact ih h.refill.refill.refill

theorem State.SameButBuckets.refillAccts {t : State} {l : List Nat} (h : s.SameButBuckets t) : s.SameButBuckets (t.refillAccts l) := by
  induction l generalizing t with
  | nil => exact h
  | cons a l ih =>
    rw [State.refillAccts_cons]
    exact ih h.refill.refill

/-- What a cap bucket of a function gains in 1 µs: of bytes (kind 0) or of operations (kind 1). -/
def State.capGain (s : State) (kind f : Nat) : Nat :=
  if kind = 0 then s.fld (R.QFAB_FSCHED1.CAP_B f) else s.fld (R.QFAB_FSCHED1.CAP_OPS f)

/-- What a cap bucket of a function holds at most. -/
def State.capBurst (s : State) (kind f : Nat) : Nat :=
  if kind = 0 then byteBurst (s.fld (R.QFAB_FSCHED1.BBURST f)) else opBurst (s.fld (R.QFAB_FSCHED1.OBURST f))

theorem State.refillFn_regs (s : State) (f : Nat) : (s.refillFn f).regs = s.regs := by
  unfold State.refillFn
  rfl

theorem State.capGain_of_regs {t : State} {kind : Nat} (h : t.regs = s.regs) : t.capGain kind f = s.capGain kind f := by
  simp only [State.capGain, State.fld_of_reg (State.reg_of_regs h)]

theorem State.capBurst_of_regs {t : State} {kind : Nat} (h : t.regs = s.regs) : t.capBurst kind f = s.capBurst kind f := by
  simp only [State.capBurst, State.fld_of_reg (State.reg_of_regs h)]

theorem bucketKey_ne {k j a b : Nat} (ha : a < 65536) (hb : b < 65536) (h : k ≠ j ∨ a ≠ b) : bucketKey k a ≠ bucketKey j b := by
  unfold bucketKey
  omega

theorem State.tokens_refillFn_self {kind : Nat} (hf : f < 65536) (hk : kind < 2) :
    (s.refillFn f).tokens (bucketKey kind f) = min (s.tokens (bucketKey kind f) + s.capGain kind f) (s.capBurst kind f) := by
  unfold State.refillFn
  dsimp only
  rw [State.tokens_refill_ne (bucketKey_ne hf hf (.inl (by omega)))]
  rcases (by omega : kind = 0 ∨ kind = 1) with rfl | rfl
  · rw [State.tokens_refill_ne (bucketKey_ne hf hf (.inl (by decide))), State.tokens_refill_self]
    rfl
  · rw [State.tokens_refill_self, State.tokens_refill_ne (bucketKey_ne hf hf (.inl (by decide)))]
    rfl

theorem State.tokens_refillFn_ne {kind g : Nat} (hf : f < 65536) (hg : g < 65536) (h : f ≠ g) :
    (s.refillFn g).tokens (bucketKey kind f) = s.tokens (bucketKey kind f) := by
  have hne (k : Nat) : bucketKey kind f ≠ bucketKey k g := bucketKey_ne hf hg (.inr h)
  unfold State.refillFn
  dsimp only
  rw [State.tokens_refill_ne (hne 2), State.tokens_refill_ne (hne 1), State.tokens_refill_ne (hne 0)]

theorem State.tokens_refillFns_other {kind : Nat} {l : List Nat} (hf : f < 65536) (hl : ∀ g ∈ l, g < 65536) (hn : f ∉ l) :
    (s.refillFns l).tokens (bucketKey kind f) = s.tokens (bucketKey kind f) := by
  induction l generalizing s with
  | nil => rfl
  | cons g l ih =>
    have hhead := State.tokens_refillFn_ne (s := s) (kind := kind) hf (hl g List.mem_cons_self) (List.ne_of_not_mem_cons hn)
    rw [State.refillFns_cons, ih (fun x hx => hl x (List.mem_cons_of_mem _ hx)) (List.not_mem_of_not_mem_cons hn), hhead]

/-- Of functions listed once each, every one is refilled once. -/
theorem State.tokens_refillFns {kind : Nat} {l : List Nat} (hf : f < 65536) (hk : kind < 2) (hl : ∀ g ∈ l, g < 65536) (hd : l.Nodup) (hm : f ∈ l) :
    (s.refillFns l).tokens (bucketKey kind f) = min (s.tokens (bucketKey kind f) + s.capGain kind f) (s.capBurst kind f) := by
  induction l generalizing s with
  | nil => exact absurd hm List.not_mem_nil
  | cons g l ih =>
    have hlt : ∀ x ∈ l, x < 65536 := fun x hx => hl x (List.mem_cons_of_mem _ hx)
    obtain ⟨hn, hd⟩ := List.nodup_cons.1 hd
    rw [State.refillFns_cons]
    by_cases he : f = g
    · subst he
      rw [State.tokens_refillFns_other hf hlt hn, State.tokens_refillFn_self hf hk]
    · have hhead := State.tokens_refillFn_ne (s := s) (kind := kind) hf (hl g List.mem_cons_self) he
      rw [ih hlt hd ((List.mem_cons.1 hm).resolve_left he), hhead, State.capGain_of_regs (State.refillFn_regs s g),
        State.capBurst_of_regs (State.refillFn_regs s g)]

theorem State.tokens_refillAccts {kind : Nat} (hf : f < 65536) (hk : kind < 2) : ∀ {l : List Nat} {s : State},
    (s.refillAccts l).tokens (bucketKey kind f) = s.tokens (bucketKey kind f)
  | [], _ => rfl
  | a :: l, s => by
    have hne (k : Nat) (h2 : 2 < k) : bucketKey kind f ≠ bucketKey k a := by unfold bucketKey; omega
    rw [State.refillAccts_cons, State.tokens_refillAccts hf hk, State.refillAcct, State.tokens_refill_ne (hne 4 (by decide)),
      State.tokens_refill_ne (hne 3 (by decide))]

theorem State.lt_of_mem_listed {base stride count i : Nat} (h : i ∈ s.listed base stride count) : i < count := by
  simp only [State.listed, List.mem_map, List.mem_filter, Bool.and_eq_true, decide_eq_true_eq] at h
  obtain ⟨e, ⟨-, ⟨hlo, hhi⟩, -⟩, rfl⟩ := h
  exact Nat.div_lt_of_lt_mul (by omega)

/-- The functions with scheduler state. -/
def State.scheduled (s : State) : List Nat := (s.listed (R.QFAB_FSCHED0.off 0) 16 0x1020 ++ s.listed (R.QFAB_FSCHED1.off 0) 16 0x1020).dedup

theorem exec_bucketRefill (hup : s.up = true) : exec .bucketRefill s =
    .next ((s.refillFns s.scheduled).refillAccts (s.listed (R.QFAB_ASCHED.off 0) 8 8192)) := by
  change execBucketRefill s = _
  rw [execBucketRefill, State.whenUp_of_up hup]
  rfl

theorem State.scheduled_lt {i : Nat} (h : i ∈ s.scheduled) : i < 65536 := by
  rw [State.scheduled, List.mem_dedup, List.mem_append] at h
  rcases h with h | h
  · exact (State.lt_of_mem_listed h).trans (by decide)
  · exact (State.lt_of_mem_listed h).trans (by decide)

theorem completes_bucketRefill (hup : s.up = true) (hf : f ∈ s.listed (R.QFAB_FSCHED1.off 0) 16 0x1020) : Completes .bucketRefill s fun t =>
    (∀ kind < 2, t.tokens (bucketKey kind f) = min (s.tokens (bucketKey kind f) + s.capGain kind f) (s.capBurst kind f)) ∧
      t.regs = s.regs ∧ t.qps = s.qps := by
  have hm : f ∈ s.scheduled := List.mem_dedup.2 (List.mem_append_right _ hf)
  have hlt : f < 65536 := State.scheduled_lt hm
  have hself : s.SameButBuckets s := ⟨s.qf.buckets, rfl⟩
  obtain ⟨_, hsame⟩ := (hself.refillFns (l := s.scheduled)).refillAccts (l := s.listed (R.QFAB_ASCHED.off 0) 8 8192)
  refine ⟨_, exec_bucketRefill hup, fun kind hk => ?_, ?_⟩
  · rw [State.tokens_refillAccts hlt hk, State.tokens_refillFns hlt hk (fun _ => State.scheduled_lt) (List.nodup_dedup _) hm]
  · rw [hsame]
    exact ⟨rfl, rfl⟩

/-! ### Dirty bitmaps (R168) -/

theorem State.dlog_setDlog_self {i : Nat} {x : DirtyLog} : (s.setDlog i x).dlog i = x := by
  unfold State.setDlog
  dsimp only
  split
  · exact smGet_put_self
  · exact smGet_put_self

@[simp] theorem State.setDlog_hostMem (s : State) (i : Nat) (x : DirtyLog) : (s.setDlog i x).hostMem = s.hostMem := by
  unfold State.setDlog
  dsimp only
  split <;> rfl

theorem State.dlogOverflow_spec {i cause : Nat} (h : (s.dlog i).on = true) :
    ((s.dlogOverflow i cause).dlog i).overflow = true ∧ (s.dlogOverflow i cause).hostMem = s.hostMem := by
  unfold State.dlogOverflow
  dsimp only
  split
  · rw [State.dlog_setDlog_self]
    exact ⟨rfl, State.setDlog_hostMem ..⟩
  · next hn => exact ⟨by simpa [h] using hn, rfl⟩

/-- Pages of the open interval alone wait: the log overflows (R168). -/
theorem exec_dirtyUpdateLate {i : Nat} (hup : s.up = true) (hp : (s.dlog i).past = []) (hc : (s.dlog i).cache ≠ []) :
    exec (.dirtyUpdateLate i) s = .next (s.dlogOverflow i 3) := by
  change execDirtyUpdateLate i s = _
  rw [execDirtyUpdateLate, State.whenUp_of_up hup]
  simp [hc, State.bitmapLost, hp]

/-! ### The end of a drain (R85) -/

theorem State.releaseAll_empty {note : Bool} (h : (s.qp q).reqs = []) (hc : (s.qp q).cpls = []) : s.releaseAll q note = s.setQp q (s.qp q) := by
  simp only [State.releaseAll, h, State.releaseList]
  congr 1
  rw [← h, ← hc]

/-- The ring that a drain leaves (Table 03-10). -/
def QpCtx.drained (c : QpCtx) (d : Drain) : QpCtx :=
  { if d.fresh then c.fresh else { c with drain := none, errcode := 0, contained := false } with st := .quiesced, held := c.held || d.hold, drain := none }

theorem State.quiesced_spec (s : State) (q : Nat) (d : Drain) : (s.quiesced q d).qp q = (s.qp q).drained d ∧ (s.quiesced q d).onf = s.onf := by
  unfold State.quiesced QpCtx.drained
  dsimp only
  split
  · exact ⟨State.qp_setQp_self, State.setQp_onf ..⟩
  · exact ⟨State.qp_setQp_self, State.setQp_onf ..⟩

theorem completes_drainComplete {d : Drain} (hr : s.ringReady q) (hd : (s.qp q).drain = some d) (hforce : d.force = false) (hreqs : (s.qp q).reqs = [])
    (hcpls : (s.qp q).cpls = []) (hw : s.onf.quiesce = []) : Completes (.drainComplete q) s fun t => t.qp q = (s.qp q).drained d := by
  obtain ⟨hqp, honf⟩ := (s.setQp q (s.qp q)).quiesced_spec q d
  refine ⟨(s.setQp q (s.qp q)).quiesced q d, ?_, hqp.trans (by rw [State.qp_setQp_self])⟩
  change execDrainComplete q s = _
  rw [execDrainComplete, State.whenRing_of_ready hr]
  obtain ⟨-, -, hcont⟩ := hr
  simp only [hd, hforce, hreqs, hcpls, hcont, Bool.false_eq_true, if_false, List.all_nil, List.isEmpty_nil, Bool.not_false, Bool.and_self, if_true,
    State.releaseAll_empty hreqs hcpls]
  rw [State.quiesceCheck_none (by rw [honf, State.setQp_onf, hw])]

end

/-- Settles O28: one lemma for each command and event, over what its operation does to the ring, the vector, the buckets or the log. -/
theorem queueRegistersAndEvents : Obligations.QueueRegistersAndEvents := by
  refine ⟨fun s v f loc q len vec d => ?registers, fun s q f v d => ?events⟩
  case registers =>
    intro c x tail
    refine ⟨fun hr hl hp => ⟨fun hq he => ?stray, fun hq hlent hc ht hh => ⟨fun hst => ?latched, fun hst hlt hne => ?exposed, fun hst hle => ?range⟩,
        fun h4 h8 => exec_doorbellWrite_other_size hr h4 h8⟩,
      fun hr hp hq => ⟨fun hst hd hok hh hs hx => ?enabled, fun hst hd hok => ?refused, fun hc hst => ⟨_, exec_qpDisable hr hp hq, ?_⟩,
        fun hst => ?window, fun reg hst => ?busy⟩,
      fun hr hv hen => ⟨fun hp => ?sent, fun hp => ?idle⟩, fun hr hp hen => exec_vfFstatEvtEnWrite_off hr hp hen,
      fun hr hlc hp hst hrec hout hpoll ps hacc => exec_shadowPoll hr hlc hp hst hrec hout hpoll hacc,
      fun hr hout => exec_shadowReadResult_failed hr hout,
      fun hr hout hp hst ht hd hh => completes_shadowReadResult_value hr hout hp hst ht hd hh⟩
    case stray => rw [exec_doorbellWrite hr hl hp, State.ringDoorbell_stray hq he]
    case latched => rw [exec_doorbellWrite hr hl hp, State.ringDoorbell_own hq hlent, State.doorbell_quiesced hc hst ht hh]
    case exposed =>
      refine ⟨_, exec_doorbellWrite hr hl hp, ?_⟩
      rw [State.ringDoorbell_own hq hlent, State.doorbell_active hc hst ht hh, State.ringIndices_tail hlt hne]
      exact s.expose_spec q tail
    case range =>
      refine ⟨_, exec_doorbellWrite hr hl hp, ?_⟩
      rw [State.ringDoorbell_own hq hlent, State.doorbell_active hc hst ht hh, State.ringIndices_tail_range hle]
      exact s.ringError_spec q _
    case enabled => rw [exec_qpEnable hr hp hq, State.ringEnable_starts hst hd hok hh hs hx]
    case refused => rw [exec_qpEnable hr hp hq, State.ringEnable_bad hst hd hok]
    case window =>
      rw [exec_queueWindowWrite hr hp hq, if_pos hst]
      rfl
    case busy => rw [exec_queueWindowWrite hr hp hq, if_neg (by rw [hst]; decide)]
    case sent =>
      obtain ⟨-, -, hreach⟩ := id hr
      rw [exec_msixVectorUnmask hr hv, State.unmask_pending hreach hen hp]
      rfl
    case idle =>
      rw [exec_msixVectorUnmask hr hv, State.unmask_idle hp]
      rfl
    exact State.ringDisable_active_spec hc hst
  case events =>
    intro c
    refine ⟨fun hr ho hi ht => ⟨_, exec_coalTimeExpiry hr ho hi ht, ?coal⟩, fun hup _ hf => ?refill,
      fun hup hon hp hc => ⟨_, exec_dirtyUpdateLate hup hp hc, State.dlogOverflow_spec hon⟩, fun hr hd hforce hreqs hcpls hw => ?drain⟩
    case coal =>
      obtain ⟨hqp, hkeeps⟩ := s.ringSignal_spec q
      rw [hqp]
      exact ⟨rfl, rfl, hkeeps⟩
    case refill =>
      refine (completes_bucketRefill hup hf).imp fun t ⟨htokens, hregs, hqps⟩ => ?_
      exact ⟨htokens 0 (by decide), htokens 1 (by decide), hregs, hqps⟩
    case drain =>
      refine (completes_drainComplete hr hd hforce hreqs hcpls hw).imp fun t ht => ?_
      rw [ht]
      refine ⟨rfl, rfl, rfl, fun hfresh => ?_, fun hkept => ?_⟩
      · simp [QpCtx.drained, hfresh, QpCtx.fresh]
      · simp [QpCtx.drained, hkept, c]

end Sys2Proof.Machine
end

section
/-!
O34. Block commands. A virtio-blk or NVMe command that its ring can take runs in the state, and as the request, that the take leaves
(`State.takeVblk_of_takes`, `State.takeNvme_of_takes`). There its volume and its checks decide between the back-end queue and a status.
-/

namespace Sys2Proof.Machine

section

variable {s t u : State} {q ty opc pers op flags invalid : Nat} {b : BlkReq} {r : Req} {i : Instr}

/-! ### Taking a command from its ring (R113) -/

theorem State.whenRing_of_takes {k : State → State} (h : s.takes q pers) : s.whenRing q k = k s := by
  obtain ⟨hup, hpanel, -⟩ := h
  simp [State.whenRing, State.whenPanel, hup, hpanel]

theorem State.takeVblk_of_takes {k : State → Req → State} (h : s.vblkTakes q) : s.takeVblk q ty b k = k (s.vblkTaken q ty b).1 (s.vblkTaken q ty b).2 := by
  obtain ⟨htakes, hsplit, hlive⟩ := h
  rw [State.takeVblk, State.whenRing_of_takes htakes]
  obtain ⟨-, -, hlc, hpers, hfetch, hredo⟩ := htakes
  simp [State.vblkTaken, hlc, hpers, hfetch, hlive, hsplit, hredo]

theorem State.ringKey_setQp {p : Nat} {c : QpCtx} : (s.setQp p c).ringKey q = s.ringKey q := by
  have hfn : (s.setQp p c).qpFn q = s.qpFn q := State.fld_of_reg (State.reg_of_regs (State.setQp_regs ..))
  rw [State.ringKey, hfn, State.ringKey]

/-- Without a Doorbell Buffer Config no EventIdx is written (R122). -/
theorem State.nvmeEventIdx_off (h : (s.fn (s.ringKey q)).nvme.dbOn = false) : s.nvmeEventIdx q = s := by
  simp [State.nvmeEventIdx, h]

theorem State.takeNvme_of_takes {k : State → Req → State} (h : s.nvmeTakes q) :
    s.takeNvme q opc b k = k (s.nvmeTaken q opc b).1 (s.nvmeTaken q opc b).2 := by
  obtain ⟨htakes, hrdy, hdb, hne⟩ := h
  rw [State.takeNvme, State.whenRing_of_takes htakes]
  obtain ⟨-, -, hlc, hpers, hfetch, hredo⟩ := htakes
  have hnext : s.redoNext q = none := by rw [State.redoNext, hredo, List.find?_nil, Option.map_none]
  have hidx (c : QpCtx) : (s.setQp q c).nvmeEventIdx q = s.setQp q c :=
    State.nvmeEventIdx_off (by rw [State.ringKey_setQp, State.fn_of_fns (State.setQp_fns ..), hdb])
  simp [State.nvmeTaken, hlc, hpers, hfetch, hrdy, hnext, hne, hidx]

/-- A row of virtio-blk does to the taken request what its meaning says. -/
theorem exec_of_takeVblk {k : State → Req → State} (hi : exec i s = .next (s.takeVblk q ty b k)) (h : s.vblkTakes q)
    (hk : k (s.vblkTaken q ty b).1 (s.vblkTaken q ty b).2 = t) : exec i s = .next t := by
  rw [hi, State.takeVblk_of_takes h, hk]

/-- A row of NVMe I/O does to the taken command what its meaning says. -/
theorem exec_of_takeNvme {k : State → Req → State} (hi : exec i s = .next (s.takeNvme q opc b k)) (h : s.nvmeTakes q)
    (hk : k (s.nvmeTaken q opc b).1 (s.nvmeTaken q opc b).2 = t) : exec i s = .next t := by
  rw [hi, State.takeNvme_of_takes h, hk]

/-! ### The volume (R126) -/

/-- A request's volume is in use, and its back-end queue accepts work. -/
def State.volReady (s : State) (r : Req) : Prop := r.volValid = true ∧ s.beqOn r = true

theorem State.withVolume_ready {k : State → State} (h : s.volReady r) : s.withVolume r invalid k = k s := by
  obtain ⟨hvalid, hon⟩ := h
  simp [State.withVolume, hvalid, hon]

theorem State.withVolume_invalid {k : State → State} (h : r.volValid = false) : s.withVolume r invalid k = s.finish r invalid 0 1 := by
  simp [State.withVolume, h]

/-- A namespace that the controller has, on a volume that takes work. -/
theorem State.nvmeVol_ready {k : State → State} (h : s.volReady r) (h1 : 1 ≤ b.nsid) (h16 : b.nsid ≤ 16) : s.nvmeVol r b k = k s := by
  have hns : ¬ (b.nsid = 0 || decide (16 < b.nsid)) = true := by simp; omega
  rw [State.nvmeVol, if_neg hns, State.withVolume_ready h]

theorem State.nvmeVol_invalid {k : State → State} (h : b.nsid = 0 ∨ 16 < b.nsid) : s.nvmeVol r b k = s.finish r 0x1000B 0 0 := by
  rw [State.nvmeVol, if_pos (by simpa using h)]
  rfl

/-! ### virtio-blk requests (R118) -/

theorem State.vblkData_ok (h : s.volReady r) (hb : vblkBad r b = false) : s.vblkData r b op =
    s.enqueue r op (b2n b.fua) (b.lba / (r.bsize / 512)) b.nbytes [] (.host (segsSlice b.segs 0 b.nbytes)) := by
  rw [State.vblkData, State.withVolume_ready h, if_neg (ne_true_of_eq_false hb)]

theorem State.vblkData_bad (h : s.volReady r) (hb : vblkBad r b = true) : s.vblkData r b op = s.finish r E.PARAM 0 1 := by
  rw [State.vblkData, State.withVolume_ready h, if_pos hb]

theorem State.vblkRanges_ok (h : s.volReady r) (hne : b.ranges ≠ []) (hlen : b.ranges.length ≤ 16) (hb : ∀ e, e ∈ b.ranges → vrangeBad r e = false) :
    s.vblkRanges r b op = s.enqueueRanges r op (if op = 4 then b2n b.unmap * 4 else 0)
      (b.ranges.map fun e => (e.1 / (r.bsize / 512), e.2 / (r.bsize / 512))) := by
  have hok : ¬ (decide (16 < b.ranges.length) || b.ranges.isEmpty || b.ranges.any (vrangeBad r)) = true := by
    simpa [hne, hlen] using hb
  rw [State.vblkRanges, State.withVolume_ready h, if_neg hok]

theorem State.vblkRanges_many (h : s.volReady r) (hlen : 16 < b.ranges.length) : s.vblkRanges r b op = s.finish r E.PARAM 0 1 := by
  rw [State.vblkRanges, State.withVolume_ready h, if_pos (by simp [hlen])]

/-! ### NVMe commands (R119) -/

/-- A transfer within MDTS and within the namespace goes to the back end. -/
theorem State.nvmeData_ok {data : Side} (h : s.volReady r) (h1 : 1 ≤ b.nsid) (h16 : b.nsid ≤ 16) (hn : op ≤ 1 → b.nbytes ≤ 16777216)
    (hcap : b.lba + b.nbytes / r.bsize ≤ r.capacity) : s.nvmeData r b op flags data = s.enqueue r op flags b.lba b.nbytes [] data := by
  have hmdts : ¬ (op ≤ 1 && 16777216 < b.nbytes) = true := by simpa using hn
  rw [State.nvmeData, State.nvmeVol_ready h h1 h16, if_neg hmdts, if_neg (by omega)]

theorem State.nvmeData_range {data : Side} (h : s.volReady r) (h1 : 1 ≤ b.nsid) (h16 : b.nsid ≤ 16) (hn : b.nbytes ≤ 16777216)
    (hcap : r.capacity < b.lba + b.nbytes / r.bsize) : s.nvmeData r b op flags data = s.finish r E.PARAM_RANGE 0 0 := by
  have hmdts : ¬ (op ≤ 1 && 16777216 < b.nbytes) = true := by simpa using fun _ => hn
  rw [State.nvmeData, State.nvmeVol_ready h h1 h16, if_neg hmdts, if_pos hcap]

/-- Dataset Management hands up to 16 ranges on when its Deallocate is set (R124). -/
theorem exec_nvmeDatasetManagement (ht : s.nvmeTakes q) (hu : s.nvmeTaken q 9 b = (u, r)) (h : u.volReady r) (h1 : 1 ≤ b.nsid) (h16 : b.nsid ≤ 16)
    (hdealloc : b.unmap = true) (hne : b.ranges ≠ []) (hlen : b.ranges.length ≤ 16) (hcap : ∀ e, e ∈ b.ranges → e.1 + e.2 ≤ r.capacity) :
    exec (.nvmeDatasetManagement q b) s = .next (u.enqueueRanges r 3 0 b.ranges) := by
  have hcount : ¬ (decide (16 < b.ranges.length) || b.ranges.isEmpty) = true := by simp [hne, hlen]
  have hrange : ¬ (b.ranges.any fun e => decide (r.capacity < e.1 + e.2)) = true := by simpa using fun a c => hcap (a, c)
  refine exec_of_takeNvme rfl ht ?_
  rw [hu]
  dsimp only
  rw [State.nvmeVol_ready h h1 h16, if_neg (by simp [hdealloc]), if_neg hcount, if_neg hrange]

end

/-- Settles O34: what each row does to the request that it takes. -/
theorem blockCommands : Obligations.BlockCommands := by
  intro s q b v n vol data ranges nv
  refine ⟨fun ht => ⟨fun hv hb => ?blkIn, fun hv hb => ?blkOut, fun hv hb => ?blkOutBad, fun hv => ?blkInNoVolume, fun hv => ?blkFlush,
      fun hv hne hlen hb => ?blkDiscard, fun hv hne hlen hb => ?blkZeroes, fun hv hlen => ?blkDiscardMany, ?blkUnsupported⟩,
    fun ht => ⟨fun ⟨hv, h1, h16⟩ hn hcap => ?read, fun ⟨hv, h1, h16⟩ hn hcap => ?write, fun ⟨hv, h1, h16⟩ hn hcap => ?writeRange,
      fun ⟨hv, h1, h16⟩ => ?flush, fun ⟨hv, h1, h16⟩ hcap => ?zeroes, fun ⟨hv, h1, h16⟩ hu hne hlen hcap => ?dataset,
      fun hns => ?noNamespace, ?invalid⟩⟩
  case blkIn => exact exec_of_takeVblk rfl ht (State.vblkData_ok hv hb)
  case blkOut => exact exec_of_takeVblk rfl ht (State.vblkData_ok hv hb)
  case blkOutBad => exact exec_of_takeVblk rfl ht (State.vblkData_bad hv hb)
  case blkInNoVolume => exact exec_of_takeVblk rfl ht (State.withVolume_invalid hv)
  case blkFlush => exact exec_of_takeVblk rfl ht (State.withVolume_ready hv)
  case blkDiscard => exact exec_of_takeVblk rfl ht (State.vblkRanges_ok hv hne hlen hb)
  case blkZeroes => exact exec_of_takeVblk rfl ht (State.vblkRanges_ok hv hne hlen hb)
  case blkDiscardMany => exact exec_of_takeVblk rfl ht (State.vblkRanges_many hv hlen)
  case blkUnsupported => exact exec_of_takeVblk rfl ht rfl
  case read => exact exec_of_takeNvme rfl ht (State.nvmeData_ok hv h1 h16 (fun _ => hn) hcap)
  case write => exact exec_of_takeNvme rfl ht (State.nvmeData_ok hv h1 h16 (fun _ => hn) hcap)
  case writeRange => exact exec_of_takeNvme rfl ht (State.nvmeData_range hv h1 h16 hn hcap)
  case flush => exact exec_of_takeNvme rfl ht (State.nvmeVol_ready hv h1 h16)
  case zeroes => exact exec_of_takeNvme rfl ht (State.nvmeData_ok hv h1 h16 (fun h => absurd h (by decide)) hcap)
  case dataset => exact exec_nvmeDatasetManagement ht rfl hv h1 h16 hu hne hlen hcap
  case noNamespace => exact exec_of_takeNvme rfl ht (State.nvmeVol_invalid hns)
  case invalid => exact exec_of_takeNvme rfl ht rfl

end Sys2Proof.Machine
end

section
/-!
O35. NVMe admin commands. A command that the admin queue gives up runs in the state, and as the request, that the take leaves
(`exec_of_takeAdmin`); what is left is one branch of each command's meaning.
-/

namespace Sys2Proof.Machine

section

variable {s t u v : State} {f cid opc q qi qid cqid qsize vector cns nsid len sqid acid : Nat} {r x : Req} {prp : W64} {b : List Byte} {i : Instr}

/-! ### Taking a command from the admin queue (R119) -/

theorem State.takeAdmin_of_takes {k : State → Req → State} (h : s.adminTakes f cid opc q u r) : s.takeAdmin f cid opc k = k u r := by
  obtain ⟨hready, hpers, hqp, htakes, hidle, htaken⟩ := h
  have hnew : ((s.qp q).reqs.find? fun y => y.kind == .nvme (0x100 + opc) && y.cid == cid && y.st == .walking) = none :=
    List.find?_eq_none.2 fun y hy => by simp [hidle y hy]
  rw [State.takeAdmin, State.whenFn_of_ready hready]
  obtain ⟨-, -, hreach⟩ := hready
  rw [if_pos (by simp [hreach, hpers]), hqp]
  dsimp only
  rw [hnew]
  dsimp only
  rw [← adminReq, State.takeNvme_of_takes htakes, htaken]

/-- An admin row does to the taken command what its meaning says. -/
theorem exec_of_takeAdmin {k : State → Req → State} (hi : exec i s = .next (s.takeAdmin f cid opc k)) (h : s.adminTakes f cid opc q u r)
    (hk : k u r = t) : exec i s = .next t := by
  rw [hi, State.takeAdmin_of_takes h, hk]

theorem State.adminTakes.q_eq (h : s.adminTakes f cid opc q u r) : r.q = q := by
  obtain ⟨-, -, -, -, -, htaken⟩ := h
  have hreq : (s.nvmeTaken q (0x100 + opc) (adminReq cid)).2 = r := by rw [htaken]
  rw [← hreq]
  rfl

/-! ### What a command returns in its buffer -/

/-- Data whose buffer is translated is written, and the command completes. -/
theorem State.adminData_at {ps : List (Nat × Nat)} (hq : r.q = q) (h : s.access q prp.toNat b.length true (.walk q r.rid) = (v, .at ps)) :
    s.adminData r prp.toNat b = ((v.writePieces q ps b).dirtyWrite q prp.toNat b.length).finish r 0 0 0 := by
  subst hq
  rw [State.adminData, h]

theorem exec_nvmeIdentify {ps : List (Nat × Nat)} (h : s.adminTakes f cid 0x06 q u r) (hb : u.identify f cns nsid = some b)
    (ha : u.drawn.access q prp.toNat b.length true (.walk q r.rid) = (v, .at ps)) :
    exec (.nvmeIdentify f cid cns nsid prp) s = .next (((v.writePieces q ps b).dirtyWrite q prp.toNat b.length).finish r 0 0 0) := by
  refine exec_of_takeAdmin rfl h ?_
  rw [hb]
  exact State.adminData_at h.q_eq ha

theorem State.identify_unknown (h : 4 ≤ cns) : s.identify f cns nsid = none := by
  rw [State.identify, if_neg (by omega), if_neg (by omega), if_neg (by omega), if_neg (by omega)]

theorem exec_nvmeIdentify_unknown (h : s.adminTakes f cid 0x06 q u r) (hcns : 4 ≤ cns) :
    exec (.nvmeIdentify f cid cns nsid prp) s = .next (u.finish r 0x10002 0 0) := by
  refine exec_of_takeAdmin rfl h ?_
  rw [State.identify_unknown hcns, if_neg (by omega)]
  rfl

/-! ### I/O queues (R110, R119) -/

/-- The ring of a queue that is to be created. -/
theorem State.ioRing_new {l : List Nat} (hn : qid ∉ l) (h : s.ioRing f qid = some qi) : (if l.contains qid then none else s.ioRing f qid) = some qi := by
  rw [if_neg (by simpa using hn), h]

/-- The ring of a queue that exists. -/
theorem State.ioRing_existing {l : List Nat} (hm : qid ∈ l) (h : s.ioRing f qid = some qi) :
    (if l.contains qid then s.ioRing f qid else none) = some qi := by
  rw [if_pos (by simpa using hm), h]

theorem exec_nvmeCreateIoCq {ien : Bool} (h : s.adminTakes f cid 0x05 q u r) (hn : qid ∉ (u.fn f).nvme.cqs) (hring : u.ioRing f qid = some qi)
    (hsize : sizeOk (qsize + 1) 65536 = true) (hvec : vector < u.msixCount f) :
    exec (.nvmeCreateIoCq f cid qid qsize vector ien prp) s = .next
      (((u.setNvme f { (u.fn f).nvme with cqs := (u.fn f).nvme.cqs ++ [qid] }).setQp qi { u.qp qi with
        cqBase := prp
        cfg := coalCfg (setBits (setBits (setBits (u.qp qi).cfg 4 4 ((qsize + 1).log2 - 1)) 8 11 vector) 19 1 (b2n ien)) (u.fn f).nvme
        cqHead := 0, cqTail := 0, phase := true }).finish r 0 0 0) := by
  refine exec_of_takeAdmin rfl h ?_
  dsimp only
  rw [State.ioRing_new hn hring]
  dsimp only
  rw [if_neg (by simp [hsize]), if_neg (by omega)]

theorem exec_nvmeCreateIoCq_size {ien : Bool} (h : s.adminTakes f cid 0x05 q u r) (hn : qid ∉ (u.fn f).nvme.cqs) (hring : u.ioRing f qid = some qi)
    (hsize : sizeOk (qsize + 1) 65536 = false) : exec (.nvmeCreateIoCq f cid qid qsize vector ien prp) s = .next (u.finish r 0x10102 0 0) := by
  refine exec_of_takeAdmin rfl h ?_
  dsimp only
  rw [State.ioRing_new hn hring]
  dsimp only
  rw [if_pos (by simp [hsize])]
  rfl

theorem exec_nvmeCreateIoSq (h : s.adminTakes f cid 0x01 q u r) (hn : qid ∉ (u.fn f).nvme.sqs) (hring : u.ioRing f qid = some qi)
    (hcq : qid ∈ (u.fn f).nvme.cqs) (hsize : sizeOk (qsize + 1) 65536 = true) :
    exec (.nvmeCreateIoSq f cid qid qid qsize prp) s = .next
      ((((u.setNvme f { (u.fn f).nvme with sqs := (u.fn f).nvme.sqs ++ [qid] }).setQp qi { u.qp qi with
        sqBase := prp, cfg := setBits (u.qp qi).cfg 0 4 ((qsize + 1).log2 - 1), sqHead := 0, sqTail := 0, expo := []
        shadow := if (u.fn f).nvme.dbOn then (u.fn f).nvme.dbShadow + BitVec.ofNat 64 (8 * qid) else 0 }).ringBegin qi).finish r 0 0 0) := by
  refine exec_of_takeAdmin rfl h ?_
  dsimp only
  rw [State.ioRing_new hn hring]
  dsimp only
  have hpair : ¬ (qid != qid || !(u.fn f).nvme.cqs.contains qid) = true := by simpa using hcq
  rw [if_neg hpair, if_neg (by simp [hsize])]

/-- A submission queue names the completion queue of its own number. -/
theorem exec_nvmeCreateIoSq_other_cq (h : s.adminTakes f cid 0x01 q u r) (hn : qid ∉ (u.fn f).nvme.sqs) (hring : u.ioRing f qid = some qi)
    (hcq : cqid ≠ qid) : exec (.nvmeCreateIoSq f cid qid cqid qsize prp) s = .next (u.finish r 0x10100 0 0) := by
  refine exec_of_takeAdmin rfl h ?_
  dsimp only
  rw [State.ioRing_new hn hring]
  dsimp only
  rw [if_pos (by simp [hcq])]
  rfl

/-- A submission queue's requests have ended, and it is no longer one of the controller's. -/
def State.ioSqGone (s : State) (f qid qi : Nat) : State :=
  ((s.setNvme f { (s.fn f).nvme with sqs := (s.fn f).nvme.sqs.filter fun y => y != qid }).releaseAll qi true).dropRingWaits qi

theorem exec_nvmeDeleteIoSq (h : s.adminTakes f cid 0x00 q u r) (hsq : qid ∈ (u.fn f).nvme.sqs) (hring : u.ioRing f qid = some qi) :
    exec (.nvmeDeleteIoSq f cid qid) s = .next (((u.ioSqGone f qid qi).setQp qi { (u.ioSqGone f qid qi).qp qi with
      st := .quiesced, enable := false, sqHead := 0, sqTail := 0, expo := [], drain := none }).finish r 0 0 0) := by
  refine exec_of_takeAdmin rfl h ?_
  dsimp only
  rw [State.ioRing_existing hsq hring]
  rfl

theorem exec_nvmeDeleteIoCq_in_use (h : s.adminTakes f cid 0x04 q u r) (hcq : qid ∈ (u.fn f).nvme.cqs) (hring : u.ioRing f qid = some qi)
    (hsq : qid ∈ (u.fn f).nvme.sqs) : exec (.nvmeDeleteIoCq f cid qid) s = .next (u.finish r 0x1010C 0 0) := by
  refine exec_of_takeAdmin rfl h ?_
  dsimp only
  rw [State.ioRing_existing hcq hring]
  dsimp only
  rw [if_pos (by simpa using hsq)]
  rfl

theorem exec_nvmeDeleteIoCq (h : s.adminTakes f cid 0x04 q u r) (hcq : qid ∈ (u.fn f).nvme.cqs) (hring : u.ioRing f qid = some qi)
    (hsq : qid ∉ (u.fn f).nvme.sqs) : exec (.nvmeDeleteIoCq f cid qid) s = .next
      (((u.setNvme f { (u.fn f).nvme with cqs := (u.fn f).nvme.cqs.filter fun y => y != qid }).setQp qi (u.qp qi).fresh.windowReset).finish r 0 0 0) := by
  refine exec_of_takeAdmin rfl h ?_
  dsimp only
  rw [State.ioRing_existing hcq hring]
  dsimp only
  rw [if_neg (by simpa using hsq), State.setNvme, State.qp_of_qps (State.setFn_qps ..)]

/-! ### Abort, events and doorbell buffers (R119, R120, R122) -/

/-- The work item of a request that has not been written leaves its back-end queue. -/
def State.unqueue (s : State) (rid : Nat) : State :=
  { s with qf := { s.qf with beqs := s.qf.beqs.map fun (e : Nat × Beq) => (e.1, e.2.cancel rid false) } }

theorem exec_nvmeAbort (h : s.adminTakes f cid 0x08 q u r) (hring : u.qpAt f (0x200 + sqid) = some qi)
    (hx : ((u.qp qi).reqs.find? fun y => y.cid == acid && y.rid != r.rid && u.unissued y.rid) = some x) :
    exec (.nvmeAbort f cid sqid acid) s = .next (((u.unqueue x.rid).finish x 0x10007 0 0).finish r 0 0 0) := by
  refine exec_of_takeAdmin rfl h ?_
  rw [hring]
  dsimp only
  rw [hx]
  rfl

theorem exec_nvmeAbort_missed (h : s.adminTakes f cid 0x08 q u r) (hring : u.qpAt f (0x200 + sqid) = some qi)
    (hx : ((u.qp qi).reqs.find? fun y => y.cid == acid && y.rid != r.rid && u.unissued y.rid) = none) :
    exec (.nvmeAbort f cid sqid acid) s = .next (u.finish r 0 1 0) := by
  refine exec_of_takeAdmin rfl h ?_
  rw [hring]
  dsimp only
  rw [hx]

theorem exec_nvmeAsyncEventRequest_waits (h : s.adminTakes f cid 0x0C q u r) (he : (u.fn f).nvme.eventsPend = []) :
    exec (.nvmeAsyncEventRequest f cid) s =
      .next ((u.putReq { r with st := .running }).setNvme f { (u.fn f).nvme with aers := (u.fn f).nvme.aers ++ [r.rid] }) := by
  refine exec_of_takeAdmin rfl h ?_
  dsimp only
  rw [he]

theorem exec_nvmeAsyncEventRequest {e : Nat} {es : List Nat} (h : s.adminTakes f cid 0x0C q u r) (he : (u.fn f).nvme.eventsPend = e :: es) :
    exec (.nvmeAsyncEventRequest f cid) s = .next ((u.setNvme f { (u.fn f).nvme with eventsPend := es }).finish r 0 e 0) := by
  refine exec_of_takeAdmin rfl h ?_
  dsimp only
  rw [he]

theorem exec_nvmeDoorbellBufferConfig {shadow ev : W64} (h : s.adminTakes f cid 0x7C q u r) (hs : shadow.toNat % 4096 = 0) (he : ev.toNat % 4096 = 0) :
    exec (.nvmeDoorbellBufferConfig f cid shadow ev) s = .next
      (((u.setNvme f { (u.fn f).nvme with dbShadow := shadow, dbEvent := ev, dbOn := true }).shadowAll f shadow (0 :: (u.fn f).nvme.sqs)).finish r 0 0 0) :=
  exec_of_takeAdmin rfl h (if_neg (by simp [hs, he]))

theorem exec_nvmeDoorbellBufferConfig_unaligned {shadow ev : W64} (h : s.adminTakes f cid 0x7C q u r) (hs : shadow.toNat % 4096 ≠ 0) :
    exec (.nvmeDoorbellBufferConfig f cid shadow ev) s = .next (u.finish r 0x10002 0 0) :=
  exec_of_takeAdmin rfl h (if_pos (by simp [hs]))

end

/-- Settles O35: one lemma for each command whose result rests on a condition; the others do the one thing that their meaning says. -/
theorem nvmeAdmin : Obligations.NvmeAdmin := by
  intro s w v f cid q qi qid cqid qsize vector cns nsid len sqid acid r x prp shadow ev dw11 ps b n set done
  refine ⟨fun h hb ha => exec_nvmeIdentify h hb ha, fun h hcns => exec_nvmeIdentify_unknown h hcns, fun h => ⟨fun ha => ?changedNs, ?unknownLog⟩,
    fun h => ?setFeatures, fun h => ?getFeatures,
    fun h hn hring => ⟨fun hsize hvec ien => exec_nvmeCreateIoCq h hn hring hsize hvec, fun hsize ien => exec_nvmeCreateIoCq_size h hn hring hsize⟩,
    fun h hn hring => ⟨fun hcq hsize => exec_nvmeCreateIoSq h hn hring hcq hsize, fun hcq => exec_nvmeCreateIoSq_other_cq h hn hring hcq⟩,
    fun h hsq hring => exec_nvmeDeleteIoSq h hsq hring,
    fun h hcq hring => ⟨fun hsq => exec_nvmeDeleteIoCq_in_use h hcq hring hsq, fun hsq => exec_nvmeDeleteIoCq h hcq hring hsq⟩,
    fun h hring => ⟨fun hx => exec_nvmeAbort h hring hx, fun hx => exec_nvmeAbort_missed h hring hx⟩,
    fun h => ⟨fun he => exec_nvmeAsyncEventRequest_waits h he, fun e es he => exec_nvmeAsyncEventRequest h he⟩,
    fun h => ⟨fun hs he => exec_nvmeDoorbellBufferConfig h hs he, fun hs => exec_nvmeDoorbellBufferConfig_unaligned h hs⟩,
    fun h => exec_of_takeAdmin rfl h rfl⟩
  case changedNs => exact exec_of_takeAdmin rfl h (State.adminData_at h.q_eq ha)
  case unknownLog => exact exec_of_takeAdmin rfl h rfl
  case setFeatures =>
    exact ⟨exec_of_takeAdmin rfl h rfl, exec_of_takeAdmin rfl h rfl, exec_of_takeAdmin rfl h rfl, exec_of_takeAdmin rfl h rfl,
      exec_of_takeAdmin rfl h rfl⟩
  case getFeatures => exact ⟨exec_of_takeAdmin rfl h rfl, exec_of_takeAdmin rfl h rfl, exec_of_takeAdmin rfl h rfl⟩

end Sys2Proof.Machine
end

section
/-!
O36. Back-end queues. A response is judged by its WID (`State.withWork_known` and its siblings); a known one starts a move, completes its request or sets
BAD_RSP.
-/

namespace Sys2Proof.Machine

section

variable {s : State} {b wid off n status : Nat} {it : BeqItem} {rest : List BeqItem} {r : BeqRsp} {w : Work} {y : Req} {toHost : Bool}

/-- A panel that is not in Hold does its work. -/
theorem State.whenPanel_of_unheld {p : Nat} {k : State → State} (hup : s.up = true) (hp : s.panelHeld p = false) : s.whenPanel p k = k s := by
  simp [State.whenPanel, hup, hp]

/-! ### Work items (R123, R124) -/

/-- An item that waits for no ISSUE (R281) is written when its ring has room for its slots. -/
theorem exec_beqWorkItem (hup : s.up = true) (hp : s.panelHeld (b / 64) = false) (hi : (s.beq b).items = it :: rest)
    (hon : s.bit (R.QFAB_BEQ_WRING.ENABLE b) = true) (hroom : it.slots ≤ s.beqRoom b) (hw : it.wid.isSome = true ∨ it.op = 0) :
    exec (.beqWorkItem b) s = .next (s.writeItem b it rest) := by
  have hgo : ¬ (!s.bit (R.QFAB_BEQ_WRING.ENABLE b) || decide (s.beqRoom b < it.slots)) = true := by simp [hon, hroom]
  change execBeqWorkItem b s = _
  rw [execBeqWorkItem, State.whenPanel_of_unheld hup hp]
  dsimp only
  rw [hi]
  dsimp only
  rw [if_neg hgo]
  rcases hw with hnote | hread
  · rw [if_neg (by simp [Option.isSome_iff_ne_none.1 hnote])]
  · split
    · rw [if_pos hread]
    · rfl

theorem exec_beqWorkItem_full (hup : s.up = true) (hp : s.panelHeld (b / 64) = false) (hi : (s.beq b).items = it :: rest)
    (hroom : s.beqRoom b < it.slots) : exec (.beqWorkItem b) s = .next s := by
  change execBeqWorkItem b s = _
  rw [execBeqWorkItem, State.whenPanel_of_unheld hup hp]
  dsimp only
  rw [hi]
  dsimp only
  rw [if_pos (by simp [hroom])]

theorem exec_beqWorkItem_none (hup : s.up = true) (hp : s.panelHeld (b / 64) = false) (hi : (s.beq b).items = []) :
    exec (.beqWorkItem b) s = .next s := by
  change execBeqWorkItem b s = _
  rw [execBeqWorkItem, State.whenPanel_of_unheld hup hp]
  dsimp only
  rw [hi]

/-! ### Which work item a response names (R128) -/

/-- A response names a work item that is outstanding on a queue that is on. -/
def State.names (s : State) (b : Nat) (r : BeqRsp) (w : Work) : Prop :=
  s.bit (R.QFAB_BEQ_WRING.ENABLE b) = true ∧ (s.beq b).cancelled.contains r.wid = false ∧ (s.beq b).works.find? (fun w => w.wid == r.wid) = some w

theorem State.withWork_known {k : State → Work → State} (h : s.names b r w) : s.withWork b r k = k s w := by
  obtain ⟨hon, hcancel, hfind⟩ := h
  simp only [State.withWork, hon, hcancel, hfind, Bool.not_true, Bool.false_eq_true, if_false]

theorem State.withWork_unknown {k : State → Work → State} (hon : s.bit (R.QFAB_BEQ_WRING.ENABLE b) = true)
    (hcancel : (s.beq b).cancelled.contains r.wid = false) (hfind : (s.beq b).works.find? (fun w => w.wid == r.wid) = none) :
    s.withWork b r k = (s.rspTaken b).setBit (R.QFAB_BEQ_RRING.BAD_RSP b) := by
  simp only [State.withWork, hon, hcancel, hfind, Bool.not_true, Bool.false_eq_true, if_false]

theorem State.withWork_cancelled {k : State → Work → State} (hon : s.bit (R.QFAB_BEQ_WRING.ENABLE b) = true)
    (hcancel : (s.beq b).cancelled.contains r.wid = true) : s.withWork b r k = s.rspTaken b := by
  simp only [State.withWork, hon, hcancel, Bool.not_true, Bool.false_eq_true, if_false, if_true]

/-! ### Moves (R125) -/

/-- A move lies within the data of a read or write that no COMPLETE has answered yet. -/
def Work.fits (w : Work) (r : BeqRsp) : Prop := w.op ≤ 1 ∧ 0 < r.bytes ∧ r.offset + r.bytes ≤ w.nbytes ∧ w.completeWith = none

theorem State.moveRsp_starts (hup : s.up = true) (hp : s.panelHeld (b / 64) = false) (hn : s.names b r w) (hf : w.fits r)
    (ha : s.beqAddrOk b r.addr r.bytes (if toHost then .read else .write) = true) : s.moveRsp b r toHost = s.moveStart b r w toHost := by
  obtain ⟨hop, hbytes, hin, hopen⟩ := hf
  rw [State.moveRsp, State.whenPanel_of_unheld hup hp, State.withWork_known hn, if_neg]
  simp only [ha, hopen, Option.isSome_none, Bool.not_true, Bool.or_false, Bool.or_eq_true, decide_eq_true_eq, beq_iff_eq]
  omega

/-- A move past the end of the item's data is refused. -/
theorem State.moveRsp_outside (hup : s.up = true) (hp : s.panelHeld (b / 64) = false) (hn : s.names b r w) (hout : w.nbytes < r.offset + r.bytes) :
    s.moveRsp b r toHost = (s.rspTaken b).setBit (R.QFAB_BEQ_RRING.BAD_RSP b) := by
  rw [State.moveRsp, State.whenPanel_of_unheld hup hp, State.withWork_known hn, if_pos (by simp [hout])]

/-- A move takes one channel. -/
theorem State.xfers_moveStart (hy : (s.qp w.q).req? w.rid = some y) (hfree : s.channelFree w.q = true) :
    (s.moveStart b r w toHost).shut.xfers.length = s.shut.xfers.length + 1 := by
  have hdrawn (c : Bool) : (if c then s.drawn else s).shut = s.shut := by split <;> rfl
  simp [State.moveStart, hy, hfree, State.rspTaken, State.addXfer, hdrawn]

/-- A move whose data has landed is told to the back end as a MOVED item. -/
theorem exec_moved (hup : s.up = true) (hp : s.panelHeld (b / 64) = false) (hw : (s.beq b).works.find? (fun w => w.wid == wid) = some w)
    (hl : (s.beq b).landed.contains (wid, off, n) = true) : exec (.moved b wid off n) s = .next (s.setBeq b { s.beq b with
      landed := (s.beq b).landed.erase (wid, off, n)
      items := (s.beq b).items ++ [{ w.item with op := 0x80, wid := some wid, lba := off, nbytes := n, data := .sink }] }) := by
  change execMoved b wid off n s = _
  rw [execMoved, State.whenPanel_of_unheld hup hp]
  dsimp only
  rw [hw]
  dsimp only
  rw [if_neg (by simp only [hl, Bool.not_true, Bool.false_eq_true, not_false_eq_true])]

theorem exec_moved_unknown (hup : s.up = true) (hp : s.panelHeld (b / 64) = false) (hw : (s.beq b).works.find? (fun w => w.wid == wid) = none) :
    exec (.moved b wid off n) s = .next s := by
  change execMoved b wid off n s = _
  rw [execMoved, State.whenPanel_of_unheld hup hp]
  dsimp only
  rw [hw]

/-! ### COMPLETE (R125) -/

theorem exec_complete (hup : s.up = true) (hp : s.panelHeld (b / 64) = false) :
    exec (.complete b r) s = .next (s.withWork b r fun s w =>
      if (s.rspTaken b).movesOpen b w.wid then (s.rspTaken b).setBeq b { (s.rspTaken b).beq b with
        works := ((s.rspTaken b).beq b).works.map fun y => if y.wid == w.wid then { y with completeWith := some r.status } else y }
      else (s.rspTaken b).workDone b w r.status) :=
  congrArg Host.Outcome.next (State.whenPanel_of_unheld hup hp)

theorem exec_complete_known (hup : s.up = true) (hp : s.panelHeld (b / 64) = false) (hn : s.names b r w)
    (hm : (s.rspTaken b).movesOpen b w.wid = false) : exec (.complete b r) s = .next ((s.rspTaken b).workDone b w r.status) := by
  rw [exec_complete hup hp, State.withWork_known hn, if_neg (ne_true_of_eq_false hm)]

/-- Only a native request has a transform that could change its outcome (R160, R161). -/
theorem Req.blkOutcome_of_not_native (h : y.kind ≠ .native) : y.blkOutcome status = (status, 0) := by
  unfold Req.blkOutcome
  split
  · contradiction
  · rfl

/-- The request that a work item served gets the back end's status. -/
theorem State.answered_workDone (hy : (s.qp w.q).req? w.rid = some y) (hst : y.st ≠ .done) (hq : y.q = w.q) (hrid : y.rid = w.rid)
    (hkind : y.kind ≠ .native) : (s.workDone b w status).answered w.q w.rid status 0 := by
  have hreq (x : Beq) : ((s.setBeq b x).qp w.q).req? w.rid = some y := hy
  simp only [State.workDone, hreq, beq_eq_false_iff_ne.2 hst, Bool.false_eq_true, if_false, Req.blkOutcome_of_not_native hkind, ite_self]
  rw [← hq, ← hrid]
  exact State.answered_finish ..

end

/-- Settles O36: a lemma for each outcome of a work item's turn and of a response. -/
theorem backEndQueues : Obligations.BackEndQueues := by
  intro s b wid off n it rest r k y hup hp x taken known fits
  refine ⟨fun hi hon hroom hw => exec_beqWorkItem hup hp hi hon hroom hw, fun hi hroom => exec_beqWorkItem_full hup hp hi hroom,
    fun hi => exec_beqWorkItem_none hup hp hi, fun hn hf ha hy hfree => ⟨?toHost, State.xfers_moveStart hy hfree⟩,
    fun hn hf ha hy hfree => ⟨?fromHost, State.xfers_moveStart hy hfree⟩, fun hn hout => ?outside, fun hon hcancel hw => ⟨?unknownMove, ?unknownComplete⟩,
    fun hon hcancel => ?cancelled, fun hn hm => exec_complete_known hup hp hn hm,
    fun hn hm hy hst hq hrid hkind => ⟨_, exec_complete_known hup hp hn hm, State.answered_workDone hy hst hq hrid hkind⟩,
    fun hw hl => exec_moved hup hp hw hl, fun hw => exec_moved_unknown hup hp hw⟩
  case toHost => exact congrArg Host.Outcome.next (State.moveRsp_starts hup hp hn hf ha)
  case fromHost => exact congrArg Host.Outcome.next (State.moveRsp_starts hup hp hn hf ha)
  case outside => exact congrArg Host.Outcome.next (State.moveRsp_outside hup hp hn hout)
  case unknownMove => exact congrArg Host.Outcome.next ((State.whenPanel_of_unheld hup hp).trans (State.withWork_unknown hon hcancel hw))
  case unknownComplete => rw [exec_complete hup hp, State.withWork_unknown hon hcancel hw]
  case cancelled => rw [exec_complete hup hp, State.withWork_cancelled hon hcancel]

end Sys2Proof.Machine
end

section
/-!
O33. The transports of virtio and NVMe, and the control virtqueue. Where a queue starts, its context is a fresh one with nothing exposed, so the start is
one update of its ring (`State.ringBegin_empty`). A control command of a running virtio-net function is acknowledged after its one change, or refused
(`State.ctrl_acked`, `State.ctrl_refused`).
-/

namespace Sys2Proof.Machine

section

variable {s v : State} {f u q len : Nat} {d : W64} {feats : BitVec 64} {aqa types : BitVec 32} {b key : List Byte} {table : List Nat}

/-! ### virtio notifications (R109) -/

/-- A function of a virtio personality. -/
def State.isVirtioFn (s : State) (f : Nat) : Prop := s.pers f = 1 ∨ s.pers f = 2

theorem State.isVirtioFn.pers_test (h : s.isVirtioFn f) : (s.pers f == 1 || s.pers f == 2) = true := by
  rcases h with h | h <;> simp [h]

/-- A row for a virtio function does what its meaning says of one that its host reaches. -/
theorem exec_of_virtioFn {i : Instr} {k : State → State} {t : State}
    (hi : exec i s = .next (s.whenFn f fun s => if !s.fnReachable f || !(s.pers f == 1 || s.pers f == 2) then s else k s)) (hr : s.fnReady f)
    (hv : s.isVirtioFn f) (hk : k s = t) : exec i s = .next t := by
  obtain ⟨-, -, hreach⟩ := id hr
  rw [hi, State.whenFn_of_ready hr, if_neg (by simp [hreach, hv.pers_test]), hk]

theorem State.readAvail_of_read (h : s.ringRead q ((s.qp q).shadow.toNat + 2) 2 = (v, .inl b)) :
    s.readAvail q = (v.setQp q { v.qp q with sqTail := leAt b 0 2, chain := 0 }).availHint q := by
  rw [State.readAvail, h]

/-- A 2-byte write of a virtqueue's own index is a notification of it. -/
theorem exec_virtioNotification (hr : s.fnReady f) (hv : s.isVirtioFn f) (hd : d.toNat % 65536 = u) :
    exec (.virtioNotification f u 2 d) s = .next (match s.qpAt f u with
      | none => s.strayDb f
      | some q => if s.galv.lent.contains q then s.sendFlit (.doorbell f u d)
          else if !((s.qp q).st == .active || (s.qp q).st == .parked) || (s.qp q).contained || s.packed q then s
          else s.readAvail q) := by
  change execVirtioNotification f u 2 d s = _
  rw [execVirtioNotification, State.whenFn_of_ready hr]
  obtain ⟨-, -, hreach⟩ := hr
  exact congrArg Host.Outcome.next (if_neg (by simp [hreach, hv.pers_test, getBits_eq_div_mod, hd]))

theorem exec_virtioNotification_split (hr : s.fnReady f) (hv : s.isVirtioFn f) (hq : s.qpAt f u = some q) (hl : s.galv.lent.contains q = false)
    (hst : (s.qp q).st = .active) (hc : (s.qp q).contained = false) (hsplit : s.packed q = false) (hd : d.toNat % 65536 = u)
    (hread : s.ringRead q ((s.qp q).shadow.toNat + 2) 2 = (v, .inl b)) :
    exec (.virtioNotification f u 2 d) s = .next ((v.setQp q { v.qp q with sqTail := leAt b 0 2, chain := 0 }).availHint q) := by
  rw [exec_virtioNotification hr hv hd, hq]
  dsimp only
  rw [if_neg (ne_true_of_eq_false hl), if_neg (by simp [hst, hc, hsplit]), State.readAvail_of_read hread]

theorem exec_virtioNotification_stray (hr : s.fnReady f) (hv : s.isVirtioFn f) (hq : s.qpAt f u = none) (hd : d.toNat % 65536 = u) :
    exec (.virtioNotification f u 2 d) s = .next (s.strayDb f) := by
  rw [exec_virtioNotification hr hv hd, hq]

theorem exec_virtioNotification_other_index (hr : s.fnReady f) (hd : d.toNat % 65536 ≠ u) : exec (.virtioNotification f u len d) s = .next s := by
  change execVirtioNotification f u len d s = _
  rw [execVirtioNotification, State.whenFn_of_ready hr]
  exact congrArg Host.Outcome.next (if_pos (by simp [getBits_eq_div_mod, hd]))

/-! ### The start of a queue (R110) -/

/-- A ring that is not held, and has nothing exposed, runs. -/
theorem State.ringBegin_empty (hh : (s.qp q).held = false) (hs : (s.qp q).sessHeld = false) (hx : (s.qp q).sqTail = (s.qp q).sqHead) :
    s.ringBegin q = s.setQp q { s.qp q with st := .active, enable := true } := by
  rw [← State.activate_empty hx]
  simp [State.ringBegin, hh, hs]

/-- The context of a virtqueue that its driver enables: a fresh one over the addresses and the size that the driver wrote. -/
def QpCtx.virtqueue (c : QpCtx) (x : VirtioState) (u : Nat) : QpCtx :=
  { c.fresh with
    sqBase := BitVec.ofNat 64 (smGet 0 x.qdesc u), shadow := BitVec.ofNat 64 (smGet 0 x.qdriver u), cqBase := BitVec.ofNat 64 (smGet 0 x.qdevice u)
    cfg := depthCfg (smGet 32768 x.qsize u) (smGet 32768 x.qsize u), st := .quiesced }

/-- A function whose driver has set queue_enable of virtqueue `u`. -/
def FnCtx.enableQueue (c : FnCtx) (u : Nat) : FnCtx := { c with virtio := { c.virtio with qen := smPut false c.virtio.qen u true } }

theorem FnCtx.qen_enableQueue (c : FnCtx) : smGet false (c.enableQueue u).virtio.qen u = true := by
  simp [FnCtx.enableQueue]

theorem exec_virtioQueueEnable (hr : s.fnReady f) (hv : s.isVirtioFn f) (hn : sizeOk (smGet 32768 (s.fn f).virtio.qsize u) 32768 = true)
    (hq : s.qpAt f u = some q) (hst : (s.qp q).st = .quiesced) (hd : (s.qp q).drain = none) : exec (.virtioQueueEnable f u) s =
      .next (((s.setFn f ((s.fn f).enableQueue u)).setQp q ((s.qp q).virtqueue (s.fn f).virtio u)).ringBegin q) := by
  refine exec_of_virtioFn rfl hr hv ?_
  dsimp only
  rw [if_neg (by simp [hn]), hq]
  dsimp only
  rw [if_neg (by simp [hst, hd])]
  rfl

theorem completes_virtioQueueEnable (hr : s.fnReady f) (hv : s.isVirtioFn f) (hn : sizeOk (smGet 32768 (s.fn f).virtio.qsize u) 32768 = true)
    (hq : s.qpAt f u = some q) (hst : (s.qp q).st = .quiesced) (hd : (s.qp q).drain = none) (hh : (s.qp q).held = false)
    (hs : (s.qp q).sessHeld = false) : Completes (.virtioQueueEnable f u) s fun t =>
      t.qp q = { (s.qp q).virtqueue (s.fn f).virtio u with st := .active, enable := true } ∧ t.fn f = (s.fn f).enableQueue u ∧ t.regs = s.regs := by
  refine ⟨_, exec_virtioQueueEnable hr hv hn hq hst hd, ?_⟩
  rw [State.ringBegin_empty (by rw [State.qp_setQp_self]; exact hh) (by rw [State.qp_setQp_self]; exact hs) (by rw [State.qp_setQp_self]; rfl)]
  simp only [State.qp_setQp_self, State.fn_of_fns (State.setQp_fns ..), State.fn_setFn_self, State.setQp_regs, State.setFn_regs, and_self]

theorem exec_virtioQueueEnable_size (hr : s.fnReady f) (hv : s.isVirtioFn f) (hn : sizeOk (smGet 32768 (s.fn f).virtio.qsize u) 32768 = false) :
    exec (.virtioQueueEnable f u) s = .next (s.needsReset f) :=
  exec_of_virtioFn rfl hr hv (if_pos (by simp [hn]))

/-! ### Feature negotiation and reset of virtio (R111, R112) -/

/-- The device takes the driver's features: both required ones, none that is not offered, and the QPs are there. -/
def State.takesFeats (s : State) (f : Nat) (feats : BitVec 64) : Prop :=
  feats.getLsbD 32 = true ∧ feats.getLsbD 33 = true ∧ feats.toNat &&& (if s.pers f = 1 then vnetFeats else vblkFeats) = feats.toNat ∧
    s.personaQps f = true

theorem State.takesFeats_iff : (getBit feats 32 && getBit feats 33 && (feats.toNat &&& (if s.pers f = 1 then vnetFeats else vblkFeats)) == feats.toNat &&
    s.personaQps f) = true ↔ s.takesFeats f feats := by
  simp [State.takesFeats, getBit, and_assoc]

theorem exec_virtioFeaturesOk (hr : s.fnReady f) (hv : s.isVirtioFn f) (hok : s.takesFeats f feats) : exec (.virtioFeaturesOk f feats) s =
    .next (s.setFn f { s.fn f with virtio := { (s.fn f).virtio with feats := feats, status := (s.fn f).virtio.status ||| 8 } }) := by
  refine exec_of_virtioFn rfl hr hv ?_
  dsimp only
  rw [if_pos (State.takesFeats_iff.2 hok)]

theorem exec_virtioFeaturesOk_refused (hr : s.fnReady f) (hv : s.isVirtioFn f) (hbad : ¬ s.takesFeats f feats) : exec (.virtioFeaturesOk f feats) s =
    .next (s.setFn f { s.fn f with virtio := { (s.fn f).virtio with status := (s.fn f).virtio.status &&& 0xF7 } }) := by
  refine exec_of_virtioFn rfl hr hv ?_
  dsimp only
  rw [if_neg (mt State.takesFeats_iff.1 hbad)]

theorem exec_virtioDeviceReset (hr : s.fnReady f) (hv : s.isVirtioFn f) :
    exec (.virtioDeviceReset f) s = .next (((s.rxFlush f).flrRings (s.ringsOf f)).personaReset f).quiesceCheck :=
  exec_of_virtioFn rfl hr hv rfl

/-! ### NVMe doorbells (R109) -/

theorem getBits_low_half (d : W64) : getBits d 0 16 = d.toNat % 65536 := by
  simp [getBits_eq_div_mod]

/-- A 4-byte write to the doorbell of the admin queue, or of an I/O queue that exists. -/
theorem State.nvmeDoorbell_own {l : List Nat} (hreach : s.fnReachable f = true) (hp : s.pers f = 3) (hu : u = 0 ∨ u ∈ l) :
    s.nvmeDoorbell f u 4 l d = s.ringDoorbell f (0x200 + u) d :=
  if_neg (by simpa [hreach, hp] using or_iff_not_imp_left.1 hu)

theorem State.nvmeDoorbell_other_queue {l : List Nat} (h0 : u ≠ 0) (hu : u ∉ l) : s.nvmeDoorbell f u len l d = s :=
  if_pos (by simp [h0, hu])

theorem State.nvmeDoorbell_other_size {l : List Nat} (hlen : len ≠ 4) : s.nvmeDoorbell f u len l d = s :=
  if_pos (by simp [hlen])

theorem exec_nvmeSqDoorbell (hr : s.fnReady f) : exec (.nvmeSqDoorbell f u len d) s =
    .next (s.nvmeDoorbell f u len (s.fn f).nvme.sqs (BitVec.ofNat 64 (d.toNat % 65536 + 2 ^ 33))) := by
  rw [← getBits_low_half]
  exact congrArg Host.Outcome.next (State.whenFn_of_ready hr)

theorem exec_nvmeCqDoorbell (hr : s.fnReady f) : exec (.nvmeCqDoorbell f u len d) s =
    .next (s.nvmeDoorbell f u len (s.fn f).nvme.cqs (BitVec.ofNat 64 (d.toNat % 65536 * 65536 + 2 ^ 32))) := by
  rw [← getBits_low_half]
  exact congrArg Host.Outcome.next (State.whenFn_of_ready hr)

/-! ### CC.EN of an NVMe controller (R110 to R112) -/

/-- The context of an admin queue that CC.EN starts, with `n` submission and `m` completion entries. -/
def QpCtx.adminQueue (c : QpCtx) (x : NvmeState) (n m : Nat) : QpCtx :=
  { c.fresh with sqBase := x.asq, cqBase := x.acq, cfg := depthCfg n m ||| maskOf 19 1, st := .quiesced }

theorem exec_nvmeEnable (hr : s.fnReady f) (hp : s.pers f = 3) (hen : (s.fn f).nvme.en = false) (hq : s.qpAt f 0x200 = some q)
    (hsq : sizeOk (aqa.toNat % 4096 + 1) 4096 = true) (hcq : sizeOk (aqa.toNat / 65536 % 4096 + 1) 4096 = true) (hst : (s.qp q).st = .quiesced) :
    exec (.nvmeEnable f aqa) s = .next (((s.setNvme f { (s.fn f).nvme with en := true, rdy := true, aqa := aqa }).setQp q
      ((s.qp q).adminQueue (s.fn f).nvme (aqa.toNat % 4096 + 1) (aqa.toNat / 65536 % 4096 + 1))).ringBegin q) := by
  change execNvmeEnable f aqa s = _
  rw [execNvmeEnable, State.whenFn_of_ready hr]
  obtain ⟨-, -, hreach⟩ := hr
  dsimp only
  rw [if_neg (by simp [hreach, hp, hen]), hq]
  dsimp only
  rw [if_neg (by simp [hsq, hcq, hst])]
  rfl

theorem completes_nvmeEnable (hr : s.fnReady f) (hp : s.pers f = 3) (hen : (s.fn f).nvme.en = false) (hq : s.qpAt f 0x200 = some q)
    (hsq : sizeOk (aqa.toNat % 4096 + 1) 4096 = true) (hcq : sizeOk (aqa.toNat / 65536 % 4096 + 1) 4096 = true) (hst : (s.qp q).st = .quiesced)
    (hh : (s.qp q).held = false) (hs : (s.qp q).sessHeld = false) : Completes (.nvmeEnable f aqa) s fun t =>
      (t.fn f).nvme = { (s.fn f).nvme with en := true, rdy := true, aqa := aqa } ∧ (t.qp q).st = .active ∧ (t.qp q).sqBase = (s.fn f).nvme.asq ∧
        (t.qp q).cqBase = (s.fn f).nvme.acq := by
  refine ⟨_, exec_nvmeEnable hr hp hen hq hsq hcq hst, ?_⟩
  rw [State.ringBegin_empty (by rw [State.qp_setQp_self]; exact hh) (by rw [State.qp_setQp_self]; exact hs) (by rw [State.qp_setQp_self]; rfl)]
  simp only [State.qp_setQp_self, State.fn_of_fns (State.setQp_fns ..), State.setNvme, State.fn_setFn_self, true_and]
  exact ⟨rfl, rfl⟩

/-- Without its admin QP the controller does not start (R112). -/
theorem exec_nvmeEnable_no_queue (hr : s.fnReady f) (hp : s.pers f = 3) (hen : (s.fn f).nvme.en = false) (hq : s.qpAt f 0x200 = none) :
    exec (.nvmeEnable f aqa) s = .next (s.setNvme f { (s.fn f).nvme with en := true, aqa := aqa, cfs := true }) := by
  change execNvmeEnable f aqa s = _
  rw [execNvmeEnable, State.whenFn_of_ready hr]
  obtain ⟨-, -, hreach⟩ := hr
  dsimp only
  rw [if_neg (by simp [hreach, hp, hen]), hq]

/-- The queues and the controller as CC.EN written 0 leaves them, but for the admin queue's registers. -/
def State.nvmeStopped (s : State) (f : Nat) : State := (s.flrRings (s.ringsOf f)).personaReset f

theorem exec_nvmeDisable (hr : s.fnReady f) (hp : s.pers f = 3) (hen : (s.fn f).nvme.en = true) : exec (.nvmeDisable f) s =
    .next ((s.nvmeStopped f).setNvme f { ((s.nvmeStopped f).fn f).nvme with
      aqa := (s.fn f).nvme.aqa, asq := (s.fn f).nvme.asq, acq := (s.fn f).nvme.acq }).quiesceCheck := by
  change execNvmeDisable f s = _
  rw [execNvmeDisable, State.whenFn_of_ready hr]
  obtain ⟨-, -, hreach⟩ := hr
  exact congrArg Host.Outcome.next (if_neg (by simp [hreach, hp, hen]))

theorem exec_nvmeDisable_off (hr : s.fnReady f) (hen : (s.fn f).nvme.en = false) : exec (.nvmeDisable f) s = .next s := by
  change execNvmeDisable f s = _
  rw [execNvmeDisable, State.whenFn_of_ready hr]
  exact congrArg Host.Outcome.next (if_pos (by simp [hen]))

/-! ### The control virtqueue (R115, R116) -/

/-- A virtio-net function whose driver runs. -/
def State.netRuns (s : State) (f : Nat) : Prop := s.fnReady f ∧ s.pers f = 1 ∧ (s.fn f).virtio.live = true

/-- A control command has changed a function's virtio state, and is acknowledged. -/
def State.ctrlAcked (s : State) (f : Nat) (x : VirtioState) : State := (s.setFn f { s.fn f with virtio := x }).emit (.ctrlAck f true)

theorem State.ctrl_acked {k : VirtioState → VirtioState} (h : s.netRuns f) : s.ctrl f true k = s.ctrlAcked f (k (s.fn f).virtio) := by
  obtain ⟨hr, hp, hlive⟩ := h
  rw [State.ctrl, State.whenFn_of_ready hr]
  obtain ⟨-, -, hreach⟩ := hr
  exact if_neg (by simp [hreach, hp, hlive])

theorem State.ctrl_refused {k : VirtioState → VirtioState} (h : s.netRuns f) : s.ctrl f false k = s.emit (.ctrlAck f false) := by
  obtain ⟨hr, hp, hlive⟩ := h
  rw [State.ctrl, State.whenFn_of_ready hr]
  obtain ⟨-, -, hreach⟩ := hr
  exact if_neg (by simp [hreach, hp, hlive])

/-- A row of the control virtqueue whose checks pass makes its change and acknowledges it. -/
theorem exec_of_ctrl_acked {i : Instr} {ok : Bool} {k : VirtioState → VirtioState} {x : VirtioState} (hi : exec i s = .next (s.ctrl f ok k))
    (h : s.netRuns f) (hok : ok = true) (hx : k (s.fn f).virtio = x) : exec i s = .next (s.ctrlAcked f x) := by
  rw [hi, hok, State.ctrl_acked h, hx]

/-- One whose checks fail changes nothing. -/
theorem exec_of_ctrl_refused {i : Instr} {ok : Bool} {k : VirtioState → VirtioState} (hi : exec i s = .next (s.ctrl f ok k)) (h : s.netRuns f)
    (hok : ok = false) : exec i s = .next (s.emit (.ctrlAck f false)) := by
  rw [hi, hok, State.ctrl_refused h]

theorem exec_vlanAdd {vid : Nat} (h : s.netRuns f) (hok : s.vlanAllowed f vid = true) (hn : vid ∉ (s.fn f).virtio.vlans) :
    exec (.vlanAdd f vid) s = .next (s.ctrlAcked f { (s.fn f).virtio with vlans := (s.fn f).virtio.vlans ++ [vid] }) := by
  refine exec_of_ctrl_acked rfl h hok ?_
  rw [if_neg (by simpa using hn)]

/-- The test by which MQ_RSS_CONFIG and MQ_HASH_CONFIG write SELV_RSS is that of the command itself. -/
theorem State.netRuns.writes (h : s.netRuns f) : (true && s.up && s.fnReachable f && s.pers f == 1 && (s.fn f).virtio.live) = true := by
  obtain ⟨⟨hup, -, hreach⟩, hp, hlive⟩ := h
  simp [hup, hreach, hp, hlive]

theorem exec_mqRssConfig {uncl : Nat} (h : s.netRuns f) (hkey : key.length = 40) (htypes : types.toNat < 64) (h1 : 1 ≤ table.length)
    (h128 : table.length ≤ 128) (htable : ∀ k, k ∈ table → k < (s.fn f).virtio.latched) (huncl : uncl < (s.fn f).virtio.latched) :
    exec (.mqRssConfig f types uncl table key) s = .next (((s.ctrlAcked f { (s.fn f).virtio with
        rssTypes := types, rssUncl := uncl, rssTable := table, rssKey := key }).rssWrite f 0
          (key ++ leBytes 2 table.length ++ leBytes 2 types.toNat)).rssWrite f 48 (table.flatMap fun k => leBytes 2 (2 * k))) := by
  have hok : (decide (1 ≤ table.length) && decide (table.length ≤ 128) && key.length == 40 && decide (types.toNat < 64) &&
      table.all (fun k => decide (k < (s.fn f).virtio.latched)) && decide (uncl < (s.fn f).virtio.latched)) = true := by
    simpa [hkey, htypes, h128, huncl] using And.intro h1 htable
  change execMqRssConfig f types uncl table key s = _
  rw [execMqRssConfig, hok, if_pos h.writes, State.ctrl_acked h]

theorem exec_mqRssConfig_refused {uncl : Nat} (h : s.netRuns f) (huncl : (s.fn f).virtio.latched ≤ uncl) :
    exec (.mqRssConfig f types uncl table key) s = .next (s.emit (.ctrlAck f false)) := by
  have hbad : decide (uncl < (s.fn f).virtio.latched) = false := by simpa using huncl
  change execMqRssConfig f types uncl table key s = _
  rw [execMqRssConfig, hbad, Bool.and_false, State.ctrl_refused h]
  rfl

theorem exec_mqHashConfig (h : s.netRuns f) (hkey : key.length = 40) (htypes : types.toNat < 64) : exec (.mqHashConfig f types key) s =
    .next (((s.ctrlAcked f { (s.fn f).virtio with hashTypes := types, rssKey := key }).rssWrite f 0 key).rssWrite f 42 (leBytes 2 types.toNat)) := by
  have hok : (key.length == 40 && decide (types.toNat < 64)) = true := by simp [hkey, htypes]
  change execMqHashConfig f types key s = _
  rw [execMqHashConfig, hok, if_pos h.writes, State.ctrl_acked h]

theorem exec_mqHashConfig_refused (h : s.netRuns f) (hkey : key.length ≠ 40) : exec (.mqHashConfig f types key) s = .next (s.emit (.ctrlAck f false)) := by
  have hbad : (key.length == 40) = false := by simpa using hkey
  change execMqHashConfig f types key s = _
  rw [execMqHashConfig, hbad, Bool.false_and, State.ctrl_refused h]
  rfl

end

/-- Settles O33: one lemma for each write of a driver, and for each control command whose change is more than one update. -/
theorem personalitiesAndNetControl : Obligations.PersonalitiesAndNetControl := by
  refine ⟨fun s v f u q len d feats aqa b => ?transports, fun s f vid pairs cls cmd uncl on uni multi types table key hr hp hlive => ?control⟩
  case transports =>
    intro x c n offered ok
    refine ⟨fun hr hv => ⟨fun hq hl hst hc hsplit hd hread => exec_virtioNotification_split hr hv hq hl hst hc hsplit hd hread,
        fun hq hd => exec_virtioNotification_stray hr hv hq hd, fun hd => exec_virtioNotification_other_index hr hd,
        fun hn hq hst hd hh hs => ?queueEnable, fun hn => exec_virtioQueueEnable_size hr hv hn, fun hok => exec_virtioFeaturesOk hr hv hok,
        fun hbad => exec_virtioFeaturesOk_refused hr hv hbad, exec_virtioDeviceReset hr hv⟩,
      fun hr hp => ⟨fun hu => ?sqDoorbell, fun hu => ?cqDoorbell, fun h0 hu => ?sqOther, fun hlen => ?cqSize,
        fun hen hq hsq hcq hst hh hs => completes_nvmeEnable hr hp hen hq hsq hcq hst hh hs, fun hen hq => exec_nvmeEnable_no_queue hr hp hen hq,
        fun hen => exec_nvmeDisable hr hp hen, fun hen => exec_nvmeDisable_off hr hen⟩⟩
    case queueEnable =>
      refine (completes_virtioQueueEnable hr hv hn hq hst hd hh hs).imp fun t ⟨hqp, hfn, hregs⟩ => ?_
      rw [hqp, hfn]
      exact ⟨rfl, rfl, rfl, rfl, rfl, rfl, rfl, FnCtx.qen_enableQueue _, hregs⟩
    case sqDoorbell =>
      obtain ⟨-, -, hreach⟩ := id hr
      rw [exec_nvmeSqDoorbell hr, State.nvmeDoorbell_own hreach hp hu]
    case cqDoorbell =>
      obtain ⟨-, -, hreach⟩ := id hr
      rw [exec_nvmeCqDoorbell hr, State.nvmeDoorbell_own hreach hp hu]
    case sqOther => rw [exec_nvmeSqDoorbell hr, State.nvmeDoorbell_other_queue h0 hu]
    case cqSize => rw [exec_nvmeCqDoorbell hr, State.nvmeDoorbell_other_size hlen]
  case control =>
    intro x v acked refused hashed
    have h : s.netRuns f := ⟨hr, hp, hlive⟩
    refine ⟨exec_of_ctrl_acked rfl h rfl rfl, exec_of_ctrl_acked rfl h rfl rfl, fun hlen huni => exec_of_ctrl_acked rfl h ?macTable rfl,
      fun hlen => exec_of_ctrl_refused rfl h ?macTableLong, fun hok hn => exec_vlanAdd h hok hn, fun hok => exec_of_ctrl_refused rfl h hok,
      fun h1 hle => exec_of_ctrl_acked rfl h ?pairs rfl, fun hbad => exec_of_ctrl_refused rfl h ?pairsRange,
      fun ⟨hkey, htypes⟩ h1 h128 htable huncl => exec_mqRssConfig h hkey htypes h1 h128 htable huncl, fun huncl => exec_mqRssConfig_refused h huncl,
      fun ⟨hkey, htypes⟩ => exec_mqHashConfig h hkey htypes, fun hkey => exec_mqHashConfig_refused h hkey, exec_of_ctrl_refused rfl h rfl⟩
    case macTable => simpa [hlen] using huni
    case macTableLong => simp [hlen]
    case pairs => simp [h1, hle, v, x]
    case pairsRange =>
      have hbad : pairs = 0 ∨ (s.fn f).virtio.latched < pairs := hbad
      rw [Bool.and_eq_false_iff, decide_eq_false_iff_not, decide_eq_false_iff_not]
      omega

end Sys2Proof.Machine
end

section
/-!
O30. DIRTY_SYNC. A fetched one runs its action in a state that has changed in the request's own entry alone (`State.start_of_starts`), so the log is still the
one that its action judges; an interval that holds no page is its own flush (`State.dlogFlush_empty`, `State.dlogFlush_ended`).
-/

namespace Sys2Proof.Machine

section

variable {s : State} {q rid act : Nat} {r : Req}

/-! ### What ending a request leaves of the logs -/

theorem State.dlog_of_shut {t : State} {v : Nat} (h : t.shut = s.shut) : t.dlog v = s.dlog v := by
  rw [State.dlog, h, State.dlog]

theorem State.dlog_putReq {v : Nat} : (s.putReq r).dlog v = s.dlog v := State.dlog_of_shut (State.putReq_shut ..)

theorem State.refreshPark_shut (s : State) (q : Nat) : (s.refreshPark q).shut = s.shut := by
  obtain ⟨_, _, _, h⟩ := s.refreshPark_shape q
  rw [h]

/-- Of the Shuttle's state a request's end drops the request's own transfers and page waits alone. -/
theorem State.finish_shut (s : State) (r : Req) (status result usedLen : Nat) : (s.finish r status result usedLen).shut = (s.dropWork r.q r.rid).shut := by
  rw [State.finish, State.refreshPark_shut, State.setQp_shut]

theorem State.dlog_finish {v status result usedLen : Nat} : (s.finish r status result usedLen).dlog v = s.dlog v := by
  rw [State.dlog, State.finish_shut]
  rfl

/-! ### Flushes (R167) -/

/-- A log without a page has nothing to write. -/
theorem State.dlogFlush_empty {v : Nat} (hc : (s.dlog v).cache = []) (hp : (s.dlog v).past = []) : s.dlogFlush v = s := by
  simp [State.dlogFlush, hc, hp, State.bitmapWrites]

/-- An ended interval without a page stands while its request does. -/
theorem State.dlogFlush_ended {v : Nat} {p : DirtyPast} (hc : (s.dlog v).cache = []) (hp : (s.dlog v).past = [p]) (hpc : p.cache = [])
    (hlive : (s.qp p.q).reqs.any (fun x => x.rid == p.rid) = true) : s.dlogFlush v = s.setDlog v (s.dlog v) := by
  have hpast : s.pastFlush v (s.dlog v) (s.dlog v).past = (s, (s.dlog v).past) := by simp [hp, State.pastFlush, State.pastPages, hpc, hlive]
  have hheld : ¬ (s.dlog v).past.isEmpty = true := by simp [hp]
  simp only [State.dlogFlush, hpast, if_neg hheld, State.dlog_setDlog_self]
  change (s.setDlog v (s.dlog v)).bitmapWrites v (s.dlog v).cache = _
  rw [hc, State.bitmapWrites]

/-! ### The actions -/

theorem QpCtx.any_rid_of_req? {c : QpCtx} (h : c.req? rid = some r) : c.reqs.any (fun x => x.rid == rid) = true :=
  List.any_eq_true.2 ⟨r, List.mem_of_find?_eq_some h, List.find?_some (p := fun x : Req => x.rid == rid) h⟩

theorem State.dsVfOk_putReq (s : State) (r r' : Req) : (s.putReq r).dsVfOk r' = s.dsVfOk r' := by
  obtain ⟨_, _, _, h⟩ := s.putReq_shape r
  rw [h]
  rfl

/-- A DIRTY_SYNC of an action is fetched and may start. -/
structure State.StartsDirty (s : State) (q rid act : Nat) (r : Req) : Prop where
  starts : s.starts q rid 0x30 r
  ok : r.predBad = false
  action : dsAction r.sqe = act

theorem State.StartsDirty.q_eq (h : s.StartsDirty q rid act r) : r.q = q := by
  obtain ⟨-, -, hq, -⟩ := h.starts
  exact hq

theorem State.StartsDirty.rid_eq (h : s.StartsDirty q rid act r) : r.rid = rid := by
  obtain ⟨-, -, -, hrid, -⟩ := h.starts
  exact hrid

/-- Its action runs on a VF of the PF's port. -/
theorem State.StartsDirty.startDirty_ok {k : State → Req → State} (h : s.StartsDirty q rid act r) (hv : s.dsVfOk r = true) :
    s.startDirty q rid act k = k (s.putReq r) r := by
  simp [State.startDirty, State.start_of_starts h.starts, h.ok, h.action, State.dsVfOk_putReq, hv]

/-- It is refused on any other (R164). -/
theorem State.StartsDirty.startDirty_refused {k : State → Req → State} (h : s.StartsDirty q rid act r) (hv : s.dsVfOk r = false) :
    s.startDirty q rid act k = (s.putReq r).finish r E.PRIVILEGE 0 0 := by
  simp [State.startDirty, State.start_of_starts h.starts, h.ok, h.action, State.dsVfOk_putReq, hv]

theorem State.StartsDirty.answered_finish (h : s.StartsDirty q rid act r) (u : State) (status result : Nat) :
    (u.finish r status result 0).answered q rid status result := by
  rw [← h.q_eq, ← h.rid_eq]
  exact u.answered_finish r status result 0

/-- The limit and the bitmaps of a DIRTY_SYNC START are in range (Table 05-12). -/
def dsInRange (e : List Byte) : Prop := 1 ≤ dsLimit e ∧ dsLimit e ≤ 16384 ∧ dsBase0 e % 4096 = 0 ∧ dsBase1 e % 4096 = 0

/-- START begins an empty log (R165). -/
theorem completes_dirtySyncStart (h : s.StartsDirty q rid 1 r) (hv : s.dsVfOk r = true) (hoff : (s.dlog (dsVf r.sqe)).on = false)
    (hrange : dsInRange r.sqe) : Completes (.dirtySyncStart q rid) s fun t => t.answered q rid 0 0 ∧
      t.dlog (dsVf r.sqe) = { DirtyLog.off with
        on := true, limit := dsLimit r.sqe, base0 := dsBase0 r.sqe, base1 := dsBase1 r.sqe, pf := (s.putReq r).qpFn r.q } := by
  obtain ⟨hlo, hhi, h0, h1⟩ := hrange
  refine ⟨_, congrArg Host.Outcome.next ((h.startDirty_ok hv).trans (if_neg ?_)), h.answered_finish .., State.dlog_finish.trans State.dlog_setDlog_self⟩
  simp [State.dlog_putReq, hoff, hhi, h0, h1]
  omega

/-- START of a log that runs is refused, and the log goes on (R165). -/
theorem completes_dirtySyncStart_running (h : s.StartsDirty q rid 1 r) (hv : s.dsVfOk r = true) (hon : (s.dlog (dsVf r.sqe)).on = true) :
    Completes (.dirtySyncStart q rid) s fun t => t.answered q rid E.PARAM 0 ∧ t.dlog (dsVf r.sqe) = s.dlog (dsVf r.sqe) :=
  ⟨_, congrArg Host.Outcome.next ((h.startDirty_ok hv).trans (if_pos (by simp [State.dlog_putReq, hon]))), h.answered_finish ..,
    State.dlog_finish.trans State.dlog_putReq⟩

/-- With nothing to write, SYNC without SWAP answers the bits of the interval so far (R167). -/
theorem completes_dirtySyncSync (h : s.StartsDirty q rid 0 r) (hv : s.dsVfOk r = true) (hswap : (dsFlags r.sqe).testBit 0 = false)
    (hon : (s.dlog (dsVf r.sqe)).on = true) (hc : (s.dlog (dsVf r.sqe)).cache = []) (hp : (s.dlog (dsVf r.sqe)).past = []) :
    Completes (.dirtySyncSync q rid) s fun t => t.answered q rid 0 (s.dlog (dsVf r.sqe)).bits := by
  have hlog : (s.putReq r).dlog (dsVf r.sqe) = s.dlog (dsVf r.sqe) := State.dlog_putReq
  have hflush : (s.putReq r).dirtyFlush r = (s.putReq r).finish r 0 (s.dlog (dsVf r.sqe)).bits 0 := by
    simp [State.dirtyFlush, hlog, hon, State.dlogFlush_empty (hlog ▸ hc) (hlog ▸ hp), hc, hp]
  exact ⟨_, congrArg Host.Outcome.next ((h.startDirty_ok hv).trans ((if_neg (ne_true_of_eq_false hswap)).trans hflush)), h.answered_finish ..⟩

/-- With nothing to write, STOP answers for the interval that its fetch ended, and the log is off (R168, R169). -/
theorem completes_dirtySyncStop {p : DirtyPast} (h : s.StartsDirty q rid 2 r) (hv : s.dsVfOk r = true) (hon : (s.dlog (dsVf r.sqe)).on = true)
    (hc : (s.dlog (dsVf r.sqe)).cache = []) (hp : (s.dlog (dsVf r.sqe)).past = [p]) (hpq : p.q = q) (hprid : p.rid = rid) (hpc : p.cache = []) :
    Completes (.dirtySyncStop q rid) s fun t =>
      t.answered q rid (if p.overflow then E.LOG_OVERFLOW else 0) p.bits ∧ (t.dlog (dsVf r.sqe)).on = false := by
  have hlog : (s.putReq r).dlog (dsVf r.sqe) = s.dlog (dsVf r.sqe) := State.dlog_putReq
  have hlive : ((s.putReq r).qp p.q).reqs.any (fun x => x.rid == p.rid) = true := by
    obtain ⟨-, hreq, rfl, rfl, -⟩ := h.starts
    rw [hpq, hprid]
    exact QpCtx.any_rid_of_req? (State.req?_putReq hreq)
  have hend : (s.putReq r).dirtyEnd r true = (((s.putReq r).setDlog (dsVf r.sqe) (s.dlog (dsVf r.sqe))).setDlog (dsVf r.sqe) DirtyLog.off).finish r
      (if p.overflow then E.LOG_OVERFLOW else 0) p.bits 0 := by
    simp [State.dirtyEnd, hlog, hon, State.dlogFlush_ended (hlog ▸ hc) (hlog ▸ hp) hpc hlive, State.dlog_setDlog_self, hp, hprid, h.rid_eq, hpc]
  refine ⟨_, congrArg Host.Outcome.next ((h.startDirty_ok hv).trans hend), h.answered_finish .., ?_⟩
  rw [State.dlog_finish, State.dlog_setDlog_self]
  rfl

end

/-- Settles O30: one lemma for each action and outcome. -/
theorem dirtyLogging : Obligations.DirtyLogging := by
  intro s q rid r v d at_
  have hstarts {act : Nat} (h : at_ act) : s.StartsDirty q rid act r ∧ s.dsVfOk r = true := by
    obtain ⟨hs, hok, hact, hv⟩ := h
    exact ⟨⟨hs, hok, hact⟩, hv⟩
  refine ⟨fun h hoff hlo hhi h0 h1 => ?start, fun h hon => ?running, fun h hswap hon hc hp => ?sync, fun p h hon hc hp hpq hprid hpc => ?stop,
    fun hs hok hact hv => ?refused⟩
  case start =>
    obtain ⟨h, hv⟩ := hstarts h
    refine (completes_dirtySyncStart h hv hoff ⟨hlo, hhi, h0, h1⟩).imp fun t ⟨hans, hlog⟩ => ?_
    rw [hlog]
    exact ⟨hans, rfl, rfl, rfl, rfl, rfl⟩
  case running =>
    obtain ⟨h, hv⟩ := hstarts h
    exact completes_dirtySyncStart_running h hv hon
  case sync =>
    obtain ⟨h, hv⟩ := hstarts h
    exact completes_dirtySyncSync h hv hswap hon hc hp
  case stop =>
    obtain ⟨h, hv⟩ := hstarts h
    exact completes_dirtySyncStop h hv hon hc hp hpq hprid hpc
  case refused =>
    have h : s.StartsDirty q rid 2 r := ⟨hs, hok, hact⟩
    exact ⟨_, congrArg Host.Outcome.next (h.startDirty_refused hv), h.answered_finish ..⟩

end Sys2Proof.Machine
end

section
/-!
O37. Translations, page requests and invalidation. A completion, a response and a time-out each settle the one request that they name: its waiter runs
on, or ends as `State.denyGroup` says. An invalidation filters the ATC; of the device's own entries by `State.iommuDrop`.
-/

namespace Sys2Proof.Machine

section

variable {s : State} {a : AtsReq} {g : Prg} {tag phys size port f prgi q addr len : Nat} {r w u : Bool}

/-! ### ATS completions (R142, R144) -/

/-- An ATS Translation Request is outstanding no more. -/
def State.withoutAts (s : State) (a : AtsReq) : State := { s with shut := { s.shut with ats := s.shut.ats.erase a } }

theorem exec_atsCompletion_granted (hup : s.up = true) (hf : s.shut.ats.find? (fun x => x.tag == tag) = some a) (hok : (if a.write then w else r) = true) :
    exec (.atsCompletion tag (.granted phys size r w u)) s = .next (((s.withoutAts a).atcGrant a phys size r w u).wakeWaiter a.by_) := by
  change execAtsCompletion tag (.granted phys size r w u) s = _
  rw [execAtsCompletion, State.whenUp_of_up hup]
  simp only [hf, hok, if_true]
  rfl

theorem exec_atsCompletion_notGranted (hup : s.up = true) (hf : s.shut.ats.find? (fun x => x.tag == tag) = some a)
    (hno : (if a.write then w else r) = false) : exec (.atsCompletion tag (.granted phys size r w u)) s = .next ((s.withoutAts a).notGranted a) := by
  change execAtsCompletion tag (.granted phys size r w u) s = _
  rw [execAtsCompletion, State.whenUp_of_up hup]
  simp only [hf, hno, Bool.false_eq_true, if_false]
  rfl

theorem exec_atsCompletion_refused (hup : s.up = true) (hf : s.shut.ats.find? (fun x => x.tag == tag) = some a) :
    exec (.atsCompletion tag .refused) s = .next (((s.withoutAts a).shutFault ((s.withoutAts a).waiterRing a.by_) 6
      ((s.withoutAts a).waitOffset a.by_ a.page) a.page).failWaiter a.by_ E.ATS_FAIL) := by
  change execAtsCompletion tag .refused s = _
  rw [execAtsCompletion, State.whenUp_of_up hup]
  simp only [hf]
  rfl

theorem exec_atsCompletion_unknown {res : AtsRes} (hup : s.up = true) (hf : s.shut.ats.find? (fun x => x.tag == tag) = none) :
    exec (.atsCompletion tag res) s = .next s := by
  change execAtsCompletion tag res s = _
  rw [execAtsCompletion, State.whenUp_of_up hup]
  simp only [hf]

/-! ### Page request groups (R145) -/

/-- A page request group is outstanding no more. -/
def State.withoutGroup (s : State) (g : Prg) : State := { s with shut := { s.shut with prgs := s.shut.prgs.erase g } }

/-- The oldest waiting group of a port goes out, and its ring parks. -/
theorem exec_pageRequestGroupSend (hup : s.up = true) (hf : s.shut.prgs.find? (fun x => x.port == port && !x.sent && !x.late) = some g)
    (hby : g.by_ = .fetch q) (hfree : s.prgFree port = true) :
    exec (.pageRequestGroupSend port) s = .next (((s.withoutGroup g).prgSend g).refreshPark q) := by
  change execPageRequestGroupSend port s = _
  rw [execPageRequestGroupSend, State.whenUp_of_up hup]
  simp only [hf, hfree, hby, Bool.not_true, Bool.false_eq_true, if_false]
  rfl

theorem exec_pageRequestGroupSend_full (hup : s.up = true) (hf : s.shut.prgs.find? (fun x => x.port == port && !x.sent && !x.late) = some g)
    (hfree : s.prgFree port = false) : exec (.pageRequestGroupSend port) s = .next s := by
  change execPageRequestGroupSend port s = _
  rw [execPageRequestGroupSend, State.whenUp_of_up hup]
  simp only [hf, hfree, Bool.not_false, if_true]

/-- The Page Request Message carries the next free PRGI of its function. -/
theorem State.mem_out_prgSend (s : State) (g : Prg) :
    .pageReq g.port g.f (s.prgiFree g.f 512 (s.fn g.f).prgiNext) g.pasid g.page g.write ∈ (s.prgSend g).out := List.mem_cons_self

/-! ### Responses and time-outs (R146) -/

/-- What waited for a group's page ends with E_PAGE_DENIED, and the fault registers show why (Table 05-15). -/
def State.denyGroup (s : State) (g : Prg) (cause : Nat) : State :=
  (s.shutFault (s.waiterRing g.by_) cause (s.waitOffset g.by_ g.page) g.page).failWaiter g.by_ E.PAGE_DENIED

/-- What a response does to the waiter of the group that it names (Table 05-4). -/
def State.settleGroup (s : State) (g : Prg) : PrgResp → State
  | .success => s.atsSend g.f g.pasid g.page g.write g.by_ g.tries
  | .invalid => s.denyGroup g 2
  | .failure => (s.setFn (0x1000 + g.port) { s.fn (0x1000 + g.port) with priStopped := true }).denyGroup g 2

theorem State.waiterRing_setFn {n : Nat} {x : FnCtx} (s : State) (b : Waiter) : (s.setFn n x).waiterRing b = s.waiterRing b := by
  obtain ⟨_, _, _, h⟩ := s.setFn_shape n x
  rw [h]
  rfl

theorem exec_pageRequestResponse {resp : PrgResp} (hup : s.up = true)
    (hf : s.shut.prgs.find? (fun x => x.f == f && x.sent && x.prgi == prgi && decide (x.port < 32)) = some g) (hres : g.reserved = false)
    (hlate : g.late = false) : exec (.pageRequestResponse f prgi resp) s = .next ((s.withoutGroup g).settleGroup g resp) := by
  change execPageRequestResponse f prgi resp s = _
  rw [execPageRequestResponse, State.whenUp_of_up hup]
  simp only [hf, hres, hlate, Bool.or_self, Bool.false_eq_true, if_false]
  cases resp with
  | success => rfl
  | invalid => rfl
  | failure =>
    rw [State.settleGroup, State.denyGroup, State.waiterRing_setFn]
    rfl

theorem exec_pageRequestResponse_late {resp : PrgResp} (hup : s.up = true)
    (hf : s.shut.prgs.find? (fun x => x.f == f && x.sent && x.prgi == prgi && decide (x.port < 32)) = none) :
    exec (.pageRequestResponse f prgi resp) s = .next s.lateResp := by
  change execPageRequestResponse f prgi resp s = _
  rw [execPageRequestResponse, State.whenUp_of_up hup]
  simp only [hf]

/-- The PRGI of a group stays taken. -/
def State.reserveGroup (s : State) (g : Prg) : State :=
  { s with shut := { s.shut with prgs := s.shut.prgs.map fun (h : Prg) => if h == g then { h with reserved := true } else h } }

theorem exec_priTimeout (hup : s.up = true)
    (hf : s.shut.prgs.find? (fun x => x.f == f && x.sent && x.prgi == prgi && decide (x.port < 32) && !x.reserved && !x.late) = some g) :
    exec (.priTimeout f prgi) s = .next ((s.reserveGroup g).denyGroup g 3) := by
  change execPriTimeout f prgi s = _
  rw [execPriTimeout, State.whenUp_of_up hup]
  simp only [hf]
  rfl

/-! ### Completion time-outs (R244) -/

/-- A ring fetch that gets no completion takes its ring to ERROR. -/
theorem exec_cplTimeout_fetch (hup : s.up = true) (hst : (s.qp q).st = .active) (hc : (s.qp q).contained = false) :
    exec (.cplTimeout (4 * q + 1)) s = .next (s.ringError q E.CPL_TIMEOUT false).invalSweep := by
  have hq : (4 * q + 1) / 4 = q := by omega
  have hkind : (4 * q + 1) % 4 = 1 := by omega
  change execCplTimeout (4 * q + 1) s = _
  rw [execCplTimeout, State.whenUp_of_up hup]
  simp [State.cplTimeout, hq, hkind, hst, State.failWaiter, hc]

/-- A shadow read that gets no completion is no longer outstanding. -/
theorem exec_cplTimeout_shadow (hup : s.up = true) : exec (.cplTimeout (4 * q + 2)) s = .next (s.shadowRead q) := by
  have hq : (4 * q + 2) / 4 = q := by omega
  have hkind : (4 * q + 2) % 4 = 2 := by omega
  change execCplTimeout (4 * q + 2) s = _
  rw [execCplTimeout, State.whenUp_of_up hup]
  simp [State.cplTimeout, hq, hkind, State.shadowRead]

/-! ### Invalidation by a host (R143) -/

/-- An invalidation removes an entry: one of the function's own that overlaps the range. -/
def AtcEnt.inRange (e : AtcEnt) (f addr len : Nat) : Bool := !e.dev && e.f == f && decide (e.base < addr + len) && decide (addr < e.base + e.size)

theorem AtcEnt.not_inRange_iff {e : AtcEnt} :
    (!e.inRange f addr len) = true ↔ e.dev = true ∨ e.f ≠ f ∨ addr + len ≤ e.base ∨ e.base + e.size ≤ addr := by
  simp only [AtcEnt.inRange, Bool.not_eq_true', Bool.and_eq_false_iff, decide_eq_false_iff_not, beq_eq_false_iff_ne, Nat.not_lt, Bool.not_eq_false',
    or_assoc]

/-- Registers, memories and rings stand as they were. -/
def State.SameOutsideShuttle (s t : State) : Prop := t.regs = s.regs ∧ t.mem = s.mem ∧ t.hostMem = s.hostMem ∧ t.qps = s.qps

/-- The stitches in flight that use what an invalidation takes away. -/
def State.invalStitches (s : State) (f addr len : Nat) : List (Nat × Nat) :=
  s.shut.xfers.flatMap fun x => ((x.flight.filter fun st => x.uses st f none addr len).map fun st => (x.xid, st.off))

/-- The rings whose shadow read in flight uses what an invalidation takes away. -/
def State.invalShadows (s : State) (f addr len : Nat) : List Nat :=
  (s.ringsOf f).filter fun q =>
    (s.qp q).shadowOut && decide ((s.qp q).shadow.toNat < addr + len) && decide (addr < (s.qp q).shadow.toNat + 8)

/-- The entries of the range have left the ATC, and the invalidation waits for what is in flight. -/
def State.invalidated (s : State) (f addr len : Nat) : State := { s with shut := { s.shut with
  atc := s.shut.atc.filter fun e => !e.inRange f addr len
  invals := s.shut.invals ++ [{ f := f, stitches := s.invalStitches f addr len, shadows := s.invalShadows f addr len }] } }

theorem exec_atsInvalidate (hup : s.up = true) : exec (.atsInvalidate f none addr len) s = .next (s.invalidated f addr len).invalSweep := by
  change execAtsInvalidate f none addr len s = _
  rw [execAtsInvalidate, State.whenUp_of_up hup]
  simp only [Option.isNone_none, Bool.true_or, Bool.and_true]
  rfl

/-- What has ended needs no ATC entry, and none goes. -/
theorem State.invalSweep_spec (s : State) : s.SameOutsideShuttle s.invalSweep ∧ s.invalSweep.shut.atc = s.shut.atc :=
  ⟨⟨rfl, rfl, rfl, rfl⟩, rfl⟩

theorem completes_atsInvalidate (hup : s.up = true) : Completes (.atsInvalidate f none addr len) s fun t =>
    s.SameOutsideShuttle t ∧ t.shut.atc = s.shut.atc.filter fun e => !e.inRange f addr len :=
  ⟨_, exec_atsInvalidate hup, State.invalSweep_spec _⟩

/-- Entries of one side that a command keeps are all there after it. -/
theorem filter_side_of_keeps {side keeps : AtcEnt → Bool} (h : ∀ e, side e = true → keeps e = true) (l : List AtcEnt) :
    (l.filter keeps).filter side = l.filter side := by
  rw [List.filter_filter]
  refine List.filter_congr fun e _ => ?_
  cases hs : side e with
  | false => rw [Bool.false_and]
  | true => rw [h e hs, Bool.and_true]

/-- An invalidation leaves the device's own entries. -/
theorem AtcEnt.not_inRange_of_dev (e : AtcEnt) (h : e.dev = true) : (!e.inRange f addr len) = true := AtcEnt.not_inRange_iff.2 (.inl h)

/-- With nothing in flight the Invalidate Completion goes out at once. -/
theorem completes_atsInvalidate_idle (hup : s.up = true) (hx : s.shut.xfers = []) (hr : s.ringsOf f = []) (hi : s.shut.invals = []) :
    Completes (.atsInvalidate f none addr len) s fun t => t.shut.invals = [] ∧ t.out = .invalidateDone f :: s.out := by
  refine ⟨_, exec_atsInvalidate hup, ?_⟩
  simp [State.invalSweep, State.invalidated, State.invalStitches, State.invalShadows, hx, hr, hi]

/-! ### Commands of the device IOMMU (R148) -/

theorem State.mem_atc_iommuDrop {hit : AtcEnt → Bool} {e : AtcEnt} :
    e ∈ (s.iommuDrop hit).shut.atc ↔ e ∈ s.shut.atc ∧ (e.dev = false ∨ hit e = false) := by
  simp only [State.iommuDrop, List.mem_filter, Bool.not_eq_true', Bool.and_eq_false_iff]

/-- Host-side entries stay. -/
theorem State.hostAtc_iommuDrop {hit : AtcEnt → Bool} :
    ((s.iommuDrop hit).shut.atc.filter fun e => !e.dev) = s.shut.atc.filter fun e => !e.dev := by
  refine filter_side_of_keeps (fun e h => ?_) s.shut.atc
  have hdev : e.dev = false := by simpa using h
  rw [hdev, Bool.false_and, Bool.not_false]

/-- A command of the device IOMMU removes the device-side entries that it names. -/
theorem completes_iommuDrop {i : Instr} {hit : AtcEnt → Bool} {keeps : AtcEnt → Prop} (hup : s.up = true)
    (hi : exec i s = .next (s.whenUp fun s => s.iommuDrop hit)) (hk : ∀ e, (e.dev = false ∨ hit e = false) ↔ keeps e) : Completes i s fun t =>
      s.SameOutsideShuttle t ∧ ((t.shut.atc.filter fun e => !e.dev) = s.shut.atc.filter fun e => !e.dev) ∧
        ∀ e, e ∈ t.shut.atc ↔ e ∈ s.shut.atc ∧ keeps e := by
  refine ⟨_, hi.trans (congrArg Host.Outcome.next (State.whenUp_of_up hup)), ⟨rfl, rfl, rfl, rfl⟩, State.hostAtc_iommuDrop, fun e => ?_⟩
  rw [State.mem_atc_iommuDrop, hk]

theorem didHits_some_eq_false {did : Nat} {e : AtcEnt} : didHits (some did) e = false ↔ did ≠ 0x100 + e.f := beq_eq_false_iff_ne

theorem addrHits_some_eq_false {x : Nat} {e : AtcEnt} : addrHits (some x) e = false ↔ x < e.base ∨ e.base + e.size ≤ x := by
  simp only [addrHits, Bool.and_eq_false_iff, decide_eq_false_iff_not, Nat.not_le, Nat.not_lt]

theorem exec_iofenceC (hup : s.up = true) {x d : W64} : exec (.iofenceC false x d) s = .next s :=
  congrArg Host.Outcome.next (State.whenUp_of_up hup)

/-- A fence with AV writes its word once the memory takes it. -/
theorem exec_iofenceC_write {x d : W64} (hup : s.up = true) (hok : s.memCheck (.queueTile 0) x.toNat 4 .write = .ok) :
    exec (.iofenceC true x d) s = .next (s.devWrite x.toNat (leBytes 4 d.toNat)) := by
  change execIofenceC true x d s = _
  rw [execIofenceC, State.whenUp_of_up hup]
  simp only [Bool.not_true, Bool.false_eq_true, if_false, hok]

end

/-- Settles O37: a lemma for each answer to a translation or page request, and for each invalidation. -/
theorem translationAndInvalidation : Obligations.TranslationAndInvalidation := by
  refine ⟨fun s tag f prgi port phys size a g r w u q hup => ?translation, fun s f addr len did pid a d hup => ?invalidation⟩
  case translation =>
    intro s1 s2 deny
    exact ⟨fun hf => ⟨fun hok => exec_atsCompletion_granted hup hf hok, fun hno => exec_atsCompletion_notGranted hup hf hno,
        exec_atsCompletion_refused hup hf⟩,
      fun hf => exec_atsCompletion_unknown hup hf,
      fun hf hby hfree => ⟨exec_pageRequestGroupSend hup hf hby hfree, s2.mem_out_prgSend g⟩,
      fun hf hfree => exec_pageRequestGroupSend_full hup hf hfree,
      fun hf hres hlate => ⟨exec_pageRequestResponse hup hf hres hlate, exec_pageRequestResponse hup hf hres hlate,
        exec_pageRequestResponse hup hf hres hlate⟩,
      fun hf => exec_pageRequestResponse_late hup hf, fun hf => exec_priTimeout hup hf,
      fun hst hc => exec_cplTimeout_fetch hup hst hc, exec_cplTimeout_shadow hup⟩
  case invalidation =>
    intro keepsHost rest
    refine ⟨(completes_atsInvalidate hup).imp fun t ⟨hrest, hatc⟩ => ?host, completes_atsInvalidate_idle hup,
      completes_iommuDrop hup rfl fun e => ?vma, completes_iommuDrop hup rfl fun e => ?gvma, completes_iommuDrop hup rfl fun e => ?ddt,
      completes_iommuDrop hup rfl fun e => ?pdt, exec_iofenceC hup, fun hok => exec_iofenceC_write hup hok⟩
    case host =>
      rw [hatc]
      refine ⟨hrest, filter_side_of_keeps AtcEnt.not_inRange_of_dev _, fun e => ?_⟩
      rw [List.mem_filter, AtcEnt.not_inRange_iff]
    case vma =>
      simp only [Bool.and_eq_false_iff, didHits_some_eq_false, addrHits_some_eq_false, Option.isNone_some, Bool.false_or, beq_eq_false_iff_ne, or_assoc,
        ne_eq]
    case gvma => rw [didHits_some_eq_false]
    case ddt => simp [didHits]
    case pdt => simp only [Bool.and_eq_false_iff, didHits_some_eq_false, beq_eq_false_iff_ne, ne_eq]

end Sys2Proof.Machine
end

section
/-!
O38. The Shuttle's registers. A write that the register's tag admits is its command's meaning (`State.regTry_of_opens`); LC_CTL.ENABLE is what the ring's
ENABLE is for a function (`State.ringEnable`, `State.ringDisable`), over the world that SHUT_LCWORLD gives the channel.
-/

namespace Sys2Proof.Machine

section

variable {s : State} {who : Agent} {n xid q : Nat} {d : W64} {x : Xfer}

theorem getBits_low (d : W64) (w : Nat) : getBits d 0 w = d.toNat % 2 ^ w := by
  rw [getBits_eq_div_mod, Nat.pow_zero, Nat.div_one]

/-! ### Parks (R150) -/

theorem exec_shutLresp (hup : s.up = true) (ho : s.opens who R.SHUT_LRESP.off) : exec (.shutLresp who d) s =
    .next ((s.lcUnpark (d.toNat % 256)).lcSettle (d.getLsbD 8) ((s.lcParks (d.toNat % 256)).map fun g => g.by_)) := by
  have hn : getBits d 0 8 = d.toNat % 256 := getBits_low d 8
  change execShutLresp who d s = _
  rw [execShutLresp, State.whenUp_of_up hup, State.regTry_of_opens ho, hn]
  rfl

/-- A parked transfer whose time is up leaves no park behind. -/
theorem exec_lfltTimeout (hup : s.up = true) (hx : s.xfer? xid = some x) (hlc : x.lc = true) (hst : x.st = .parked) : exec (.lfltTimeout xid) s =
    .next ({ s with shut := { s.shut with prgs := s.shut.prgs.filter fun (g : Prg) => g.by_ != Waiter.xfer xid } }.failXfer x E.IOMMU_FAULT) := by
  change execLfltTimeout xid s = _
  rw [execLfltTimeout, State.whenUp_of_up hup]
  simp only [hx, hlc, hst, beq_self_eq_true, Bool.and_self, if_true]

theorem exec_lfltTimeout_gone (hup : s.up = true) (hx : s.xfer? xid = none) : exec (.lfltTimeout xid) s = .next s := by
  change execLfltTimeout xid s = _
  rw [execLfltTimeout, State.whenUp_of_up hup]
  simp only [hx]

/-! ### Rings of local channels (R152) -/

theorem exec_lcDoorbell {len : Nat} (hup : s.up = true) (ho : s.opens who (R.LC_DB.off n)) : exec (.lcDoorbell who n len d) s =
    .next (if len = 8 then s.doorbell (65536 + n) d else s.topEvt R.TOP_STATUS.NARROW_WR) := by
  change execLcDoorbell who n len d s = _
  rw [execLcDoorbell, State.whenUp_of_up hup, State.regTry_of_opens ho]

/-- A ring takes the world that its channel has now (R151). -/
def State.withLcWorld (s : State) (n : Nat) : State := s.setQp (65536 + n) { s.qp (65536 + n) with world := s.lcLining n }

theorem State.qp_withLcWorld : (s.withLcWorld n).qp (65536 + n) = { s.qp (65536 + n) with world := s.lcLining n } := State.qp_setQp_self

theorem exec_lcEnable (hup : s.up = true) (ho : s.opens who (R.LC_CTL.off n)) (hst : (s.qp (65536 + n)).st = .quiesced) :
    exec (.lcEnable who n true) s = .next ((s.withLcWorld n).ringEnable (65536 + n)) := by
  change execLcEnable who n true s = _
  rw [execLcEnable, State.whenUp_of_up hup, State.regTry_of_opens ho]
  simp only [beq_iff_eq.2 hst, if_true]
  rfl

theorem exec_lcDisable (hup : s.up = true) (ho : s.opens who (R.LC_CTL.off n)) :
    exec (.lcEnable who n false) s = .next (s.ringDisable (65536 + n)) := by
  change execLcEnable who n false s = _
  rw [execLcEnable, State.whenUp_of_up hup, State.regTry_of_opens ho]
  simp only [Bool.false_eq_true, if_false]

theorem State.ringEnable_activates (hst : (s.qp q).st = .quiesced) (hd : (s.qp q).drain = none) (hok : s.enableOk q = true) (hh : (s.qp q).held = false)
    (hs : (s.qp q).sessHeld = false) : s.ringEnable q = s.activate q := by
  simp [State.ringEnable, hst, hd, hok, hh, hs]

/-- A ring that starts is ACTIVE, whatever its latched tail exposes. -/
theorem State.activate_spec (s : State) (q : Nat) : ∃ expo,
    (s.activate q).qp q = { s.qp q with st := .active, enable := true, expo := expo } ∧ (s.activate q).regs = s.regs := by
  unfold State.activate
  dsimp only
  split
  · exact ⟨(s.qp q).expo, State.qp_setQp_self, State.setQp_regs ..⟩
  · obtain ⟨hqp, -, hregs, -⟩ := (s.setQp q { s.qp q with st := .active, enable := true }).expose_spec q (s.qp q).sqTail
    rw [hqp, hregs, State.qp_setQp_self, State.setQp_regs]
    exact ⟨_, rfl, rfl⟩

theorem completes_lcEnable (hup : s.up = true) (ho : s.opens who (R.LC_CTL.off n)) (hst : (s.qp (65536 + n)).st = .quiesced)
    (hd : (s.qp (65536 + n)).drain = none) (hok : (s.withLcWorld n).enableOk (65536 + n) = true) (hh : (s.qp (65536 + n)).held = false)
    (hs : (s.qp (65536 + n)).sessHeld = false) : Completes (.lcEnable who n true) s fun t => (t.qp (65536 + n)).st = .active ∧
      (t.qp (65536 + n)).enable = true ∧ (t.qp (65536 + n)).world = s.lcLining n ∧ t.regs = s.regs := by
  obtain ⟨expo, hqp, hregs⟩ := (s.withLcWorld n).activate_spec (65536 + n)
  have hstart : (s.withLcWorld n).ringEnable (65536 + n) = (s.withLcWorld n).activate (65536 + n) :=
    State.ringEnable_activates (by rw [State.qp_withLcWorld, hst]) (by rw [State.qp_withLcWorld, hd]) hok (by rw [State.qp_withLcWorld, hh])
      (by rw [State.qp_withLcWorld, hs])
  refine ⟨_, (exec_lcEnable hup ho hst).trans (congrArg Host.Outcome.next hstart), ?_⟩
  simp only [hqp, hregs, State.qp_withLcWorld, true_and]
  exact State.setQp_regs ..

/-- A ring that fails the checks of R100 reads CFG_ERR, and does not start. -/
theorem completes_lcEnable_bad (hup : s.up = true) (ho : s.opens who (R.LC_CTL.off n)) (hst : (s.qp (65536 + n)).st = .quiesced)
    (hd : (s.qp (65536 + n)).drain = none) (hbad : (s.withLcWorld n).enableOk (65536 + n) = false) : Completes (.lcEnable who n true) s fun t =>
      t.qp (65536 + n) = { s.qp (65536 + n) with world := s.lcLining n, enable := false, cfgErr := true } ∧ t.regs = s.regs := by
  have hstop := State.ringEnable_bad (by rw [State.qp_withLcWorld, hst]) (by rw [State.qp_withLcWorld, hd]) hbad
  refine ⟨_, (exec_lcEnable hup ho hst).trans (congrArg Host.Outcome.next hstop), ?_⟩
  simp only [State.qp_setQp_self, State.qp_withLcWorld, State.setQp_regs, true_and]
  exact State.setQp_regs ..

/-- A running channel starts to drain. -/
theorem completes_lcDisable (hup : s.up = true) (ho : s.opens who (R.LC_CTL.off n)) (hst : (s.qp (65536 + n)).st = .active)
    (hc : (s.qp (65536 + n)).contained = false) : Completes (.lcEnable who n false) s fun t =>
      (t.qp (65536 + n)).enable = false ∧ (t.qp (65536 + n)).drain.isSome = true := by
  obtain ⟨hen, hfresh, -⟩ := State.ringDisable_active_spec hc hst
  obtain ⟨e, he, -⟩ := Option.map_eq_some_iff.1 hfresh
  exact ⟨_, exec_lcDisable hup ho, hen, by rw [he, Option.isSome_some]⟩

/-! ### Key slots (R162, R163) -/

/-- The 64 bytes of the key data registers. -/
def State.keyBytes (s : State) : List Byte := (List.range 8).flatMap fun i => leBytes 8 (s.shut.keyData.getD i 0).toNat

/-- A key slot takes a value, and the data registers are cleared. -/
def State.setKeySlot (s : State) (i : Nat) (k : KeySlot) : State :=
  { s with shut := { s.shut with keys := smPut KeySlot.empty s.shut.keys i k, keyData := [] } }

theorem getBits_keySlot (d : W64) : getBits d 0 12 = d.toNat % 4096 := getBits_low d 12

theorem State.keyCmd_load (ho : s.opens who R.SHUT_KEYCMD.off) (hk : s.keyBytes.take 32 ≠ s.keyBytes.drop 32) :
    s.keyCmd who d true = s.setKeySlot (d.toNat % 4096) { owner := getBits d 12 13, key := s.keyBytes } := by
  have hweak : (s.keyBytes.take 32 == s.keyBytes.drop 32) = false := beq_eq_false_iff_ne.2 hk
  rw [State.keyBytes] at hweak
  rw [State.keyCmd, State.regTry_of_opens ho]
  simp only [hweak, getBits_keySlot, Bool.and_false, Bool.not_false, Bool.and_self, Bool.false_eq_true, if_false, if_true]
  rfl

/-- A key whose halves agree is weak, and empties its slot (R163). -/
theorem State.keyCmd_weak (ho : s.opens who R.SHUT_KEYCMD.off) (hk : s.keyBytes.take 32 = s.keyBytes.drop 32) :
    s.keyCmd who d true = (s.setKeySlot (d.toNat % 4096) KeySlot.empty).setBit R.SHUT_KEYSTAT.WEAK := by
  have hweak : (s.keyBytes.take 32 == s.keyBytes.drop 32) = true := beq_iff_eq.2 hk
  rw [State.keyBytes] at hweak
  rw [State.keyCmd, State.regTry_of_opens ho]
  simp only [hweak, getBits_keySlot, Bool.and_self, Bool.not_true, Bool.and_false, Bool.false_eq_true, if_false, if_true]
  rfl

theorem State.keyCmd_clear (ho : s.opens who R.SHUT_KEYCMD.off) : s.keyCmd who d false = s.setKeySlot (d.toNat % 4096) KeySlot.empty := by
  rw [State.keyCmd, State.regTry_of_opens ho]
  simp only [getBits_keySlot, Bool.false_and, Bool.false_eq_true, if_false]
  rfl

theorem exec_keyLoad (hup : s.up = true) : exec (.keyLoad who d) s = .next (s.keyCmd who d true) := congrArg Host.Outcome.next (State.whenUp_of_up hup)

theorem exec_keyClear (hup : s.up = true) : exec (.keyClear who d) s = .next (s.keyCmd who d false) := congrArg Host.Outcome.next (State.whenUp_of_up hup)

theorem State.setKeySlot_empty_spec {i : Nat} (f : Fld) :
    smGet KeySlot.empty ((s.setKeySlot i KeySlot.empty).setBit f).shut.keys i = KeySlot.empty ∧
      ((s.setKeySlot i KeySlot.empty).setBit f).shut.keyData = [] := by
  rw [State.setBit_shut, State.setKeySlot, smGet_put_self]
  exact ⟨rfl, rfl⟩

theorem State.regTry_of_refused {k : AccKind} {off : Nat} {f : State → State} {t : RegTag} (ht : regTag off = some t)
    (hno : s.tagAdmits t off who = false) : s.regTry who k off f = s.violation who k 4 0x7F off := by
  simp only [State.regTry, ht, hno, Bool.false_eq_true, if_false]

end

/-- Settles O38: a lemma for each register and outcome. -/
theorem localChannelsAndKeys : Obligations.LocalChannelsAndKeys := by
  intro s who n xid d x hup q c key ws
  refine ⟨fun ho => exec_shutLresp hup ho, fun hx hlc hst => exec_lfltTimeout hup hx hlc hst, fun hx => exec_lfltTimeout_gone hup hx,
    fun ho => exec_lcDoorbell hup ho, fun ho => exec_lcDoorbell hup ho, fun ho _ hst hd hok hh hs => completes_lcEnable hup ho hst hd hok hh hs,
    fun ho _ hst hd hbad => completes_lcEnable_bad hup ho hst hd hbad, fun ho _ hst hc => completes_lcDisable hup ho hst hc,
    fun ho hk => ?load, fun ho hk => ⟨_, exec_keyLoad hup, ?weak⟩, fun ho => ?clear, fun t ht hno => ?violation⟩
  case load =>
    rw [exec_keyLoad hup, State.keyCmd_load ho hk]
    rfl
  case weak =>
    obtain ⟨hslot, hdata⟩ := s.setKeySlot_empty_spec (i := d.toNat % 4096) R.SHUT_KEYSTAT.WEAK
    rw [State.keyCmd_weak ho hk]
    exact ⟨hslot, State.bit_setBit_self (by decide) (by decide), hdata⟩
  case clear =>
    rw [exec_keyClear hup, State.keyCmd_clear ho]
    rfl
  case violation => rw [exec_keyClear hup, State.keyCmd, State.regTry_of_refused ht hno]

end Sys2Proof.Machine
end

section
/-!
O39. Frames of Selvedge. Each command runs in a panel that is not held (`State.whenPanel_of_unheld`), and a port's command on a port that the device
drives (`State.portRuns`). An entry of a reinject ring is read by `exec_reinjectEntry`, whatever it holds; PFC's classes are the keys of `pfcKeys`.
-/

namespace Sys2Proof.Machine

section

variable {s v : State} {port pipe idx n cls zone k : Nat} {fr key : List Byte} {p : Pkt} {c : PCtx} {x : TabEnt} {cn : Conn} {tp : TxPkt}
  {rest : List TxPkt} {classes : BitVec 8} {times : List Nat}

/-! ### Received frames (R170, R202) -/

/-- An Ethernet port exists, in a panel that runs, of a device that is neither gated nor fenced. -/
def State.portRuns (s : State) (port : Nat) : Prop :=
  s.panelHeld (macPanel port) = false ∧ s.sys.gated = false ∧ s.role ≠ 3 ∧ s.ethPort s.epoch port = true

theorem State.not_stopped_of_portRuns (h : s.portRuns port) : ¬ (s.sys.gated || s.role == 3 || !s.ethPort s.epoch port) = true := by
  obtain ⟨-, hgate, hrole, heth⟩ := h
  simp [hgate, hrole, heth]

theorem exec_frameReceive (hup : s.up = true) (h : s.portRuns port) (hlen : 60 ≤ fr.length) (hroom : cells fr ≤ s.cellsFree (s.rxPipe port fr)) :
    exec (.frameReceive port fr true) s =
      .next ((s.pipeline (s.newPkt (s.rxPipe port fr) false (0x2000 + port) fr none (outerPcp fr))).pfcUpdate port (outerPcp fr)) := by
  change execFrameReceive port fr true s = _
  rw [execFrameReceive, State.whenPanel_of_unheld hup h.1, if_neg (State.not_stopped_of_portRuns h)]
  dsimp only
  rw [if_neg (by simp [hlen]), if_neg (by omega)]

theorem exec_frameReceive_badFcs (hup : s.up = true) (h : s.portRuns port) :
    exec (.frameReceive port fr false) s = .next (s.netDrop (s.rxPipe port fr) Rsn.MAC_ERR) := by
  change execFrameReceive port fr false s = _
  rw [execFrameReceive, State.whenPanel_of_unheld hup h.1, if_neg (State.not_stopped_of_portRuns h)]
  dsimp only
  rw [if_pos (by simp)]

theorem exec_frameReceive_noPort (hup : s.up = true) (hp : s.panelHeld (macPanel port) = false) (h : s.ethPort s.epoch port = false) :
    exec (.frameReceive port fr true) s = .next s := by
  change execFrameReceive port fr true s = _
  rw [execFrameReceive, State.whenPanel_of_unheld hup hp, if_pos (by simp [h])]

/-! ### Miss buffer (R175, R182 to R185) -/

theorem State.fldE_missTake {e : Nat} {f : Fld} : (s.missTake p).fldE e f = s.fldE e f := rfl

theorem State.parseE_missTake {e : Nat} : (s.missTake p).parseE e fr = s.parseE e fr := rfl

theorem State.tabAt_missTake {e table : Nat} {loc : List Byte} : (s.missTake p).tabAt e table loc = s.tabAt e table loc := rfl

theorem State.tctClassify_missTake {e : Nat} {par : Parsed} : (s.missTake p).tctClassify e port par fr = s.tctClassify e port par fr := by
  simp only [State.tctClassify, State.tctFind, State.tabAt_missTake]

/-- Stages 1 and 2 do not look at the miss buffer. -/
theorem State.stage12_missTake {q : Pkt} : (s.missTake p).stage12 q = s.stage12 q := by
  rw [State.stage12, State.stage12]
  simp only [State.fldE_missTake, State.parseE_missTake, State.tctClassify_missTake]
  rfl

/-- The oldest packet of the buffer hits a flow entry that decides. -/
theorem exec_missLookupComplete_flow (hup : s.up = true) (hp : s.panelHeld pipe = false) (hm : s.selv.miss.find? (fun y => y.pipe == pipe) = some p)
    (h12 : (s.missTake p).stage12 p = (c, none)) (hf : (s.missTake p).flowFind p.epoch (c.tsid.getD 0) c.key = some x) (hacl : flowAcl x.image = false)
    (ht : ((s.missTake p).cacheFill pipe c.key).takeFlow c x = (v, none)) :
    exec (.missLookupComplete pipe) s = .next (v.pfcLeft p.src p.cls).histTrim := by
  change execMissLookupComplete pipe s = _
  rw [execMissLookupComplete, State.whenPanel_of_unheld hup hp]
  simp only [hm, h12, hf, hacl, Bool.false_eq_true, if_false, ht]

theorem exec_missLookupComplete_empty (hup : s.up = true) (hp : s.panelHeld pipe = false) (hm : s.selv.miss.find? (fun y => y.pipe == pipe) = none) :
    exec (.missLookupComplete pipe) s = .next s := by
  change execMissLookupComplete pipe s = _
  rw [execMissLookupComplete, State.whenPanel_of_unheld hup hp]
  simp only [hm]

/-- A packet of the buffer is dropped once it is older than 200 µs. -/
theorem exec_missAge (hup : s.up = true) (hp : s.panelHeld pipe = false) (hm : (s.selv.miss.filter fun y => y.pipe == pipe)[idx]? = some p) :
    exec (.missAge pipe idx) s = .next (if s.now - p.time ≤ 200000 then s
      else (((s.missTake p).pktReason ((s.missTake p).stage12 p).1 Rsn.MISS_AGE).pfcLeft p.src p.cls).histTrim) := by
  change execMissAge pipe idx s = _
  rw [execMissAge, State.whenPanel_of_unheld hup hp]
  simp only [hm, State.stage12_missTake]

/-! ### Ageing (R185, R187) -/

/-- Seconds after which an idle learned flow goes: LEARN_IDLE_S, or 300. -/
def State.learnIdle (s : State) : Nat := if s.fld R.SELV_CFG.LEARN_IDLE_S = 0 then 300 else s.fld R.SELV_CFG.LEARN_IDLE_S

theorem completes_learnIdleExpiry (hup : s.up = true) : Completes (.learnIdleExpiry key) s fun t => t.regs = s.regs ∧ t.selv.conns = s.selv.conns ∧
    ∀ y, y ∈ t.selv.tabs ↔ y ∈ s.selv.tabs ∧
      ¬ (y.table = 2 ∧ y.loc = key ∧ flowLearned y.image = true ∧ s.learnIdle < (s.secs + 2 ^ 32 - flowLastHit y.image) % 2 ^ 32) := by
  refine ⟨_, congrArg Host.Outcome.next (State.whenUp_of_up hup), rfl, rfl, fun y => ?_⟩
  simp only [List.mem_filter, Bool.not_eq_true', ← Bool.not_eq_true, Bool.and_eq_true, beq_iff_eq, decide_eq_true_eq, and_assoc, State.learnIdle]

theorem exec_ctTimeout (hup : s.up = true) (hc : s.selv.conns.find? (fun y => y.key == ctKey zone key) = some cn) :
    exec (.ctTimeout zone key) s = .next (if cn.expires < s.now then s.ctDrop cn.key else s) := by
  change execCtTimeout zone key s = _
  rw [execCtTimeout, State.whenUp_of_up hup]
  simp only [hc]

theorem State.ctDrop_alone (hm : s.mirrored = false) :
    s.ctDrop key = { s with selv := { s.selv with conns := s.selv.conns.filter fun y => y.key != key } } := by
  simp only [State.ctDrop, hm, Bool.false_eq_true, if_false]

/-! ### Reinjection (R209) -/

/-- Entries that queue `n`'s reinject ring holds. -/
def State.riDepth (s : State) (n : Nat) : Nat := 2 ^ (s.fld (R.SELV_EXQ_RIRING.DEPTH n) + 1)

/-- The place of its next entry, by RI_HEAD. -/
def State.riHead (s : State) (n : Nat) : Nat := s.fld (R.SELV_EXQ_DB.RI_HEAD n) % s.riDepth n

/-- The address of its next entry. -/
def State.riAddr (s : State) (n : Nat) : Nat := s.fld (R.SELV_EXQ_RIRING.BASE n) * 4096 + 32 * s.riHead n

/-- RI_HEAD moves past the next entry. -/
def State.riNext (s : State) (n : Nat) : State := s.setFld (R.SELV_EXQ_DB.RI_HEAD n) ((s.riHead n + 1) % s.riDepth n)

/-- What an entry `e` of queue `n`'s ring comes to: an entry with a bad length or address sets BAD_RI. -/
def State.riTake (s : State) (n : Nat) (e : List Byte) : State :=
  let mf := s.memCheck (.queueTile 0) (leAt e 0 8) (leAt e 8 2) .read
  if leAt e 8 2 < 14 || 9216 < leAt e 8 2 then (s.riNext n).setBit R.SELV_STATUS.BAD_RI
  else if mf ≠ .ok then ((s.riNext n).logMem (.queueTile 0) .read (leAt e 0 8) mf).setBit R.SELV_STATUS.BAD_RI
  else (s.riNext n).reinject (leAt e 10 1) (leAt e 11 1) (leAt e 12 2)
    (if (leAt e 14 2).testBit 15 then some (leAt e 14 2 % 8192) else none) (s.devRead (leAt e 0 8) (leAt e 8 2))

theorem exec_reinjectEntry (hup : s.up = true) (hp : s.panelHeld 0 = false) (hn : n < 64)
    (hne : s.riHead n ≠ s.fld (R.SELV_EXQ_DB.RI_TAIL n) % s.riDepth n) (hm : s.memCheck (.queueTile 0) (s.riAddr n) 32 .read = .ok) :
    exec (.reinjectEntry n) s = .next (s.riTake n (s.devRead (s.riAddr n) 32)) := by
  have hlive : ¬ (decide (64 ≤ n) || s.riHead n == s.fld (R.SELV_EXQ_DB.RI_TAIL n) % s.riDepth n) = true := by simp [hn, hne]
  change execReinjectEntry n s = _
  rw [execReinjectEntry, State.whenPanel_of_unheld hup hp]
  exact congrArg Host.Outcome.next ((if_neg hlive).trans (if_neg (not_not.2 hm)))

theorem State.riTake_ok {e : List Byte} (h0 : 14 ≤ leAt e 8 2) (h1 : leAt e 8 2 ≤ 9216)
    (hm : s.memCheck (.queueTile 0) (leAt e 0 8) (leAt e 8 2) .read = .ok) : s.riTake n e =
      (s.riNext n).reinject (leAt e 10 1) (leAt e 11 1) (leAt e 12 2)
        (if (leAt e 14 2).testBit 15 then some (leAt e 14 2 % 8192) else none) (s.devRead (leAt e 0 8) (leAt e 8 2)) := by
  rw [State.riTake, if_neg (by simp [h0, h1]), if_neg (not_not.2 hm)]

theorem State.riTake_long {e : List Byte} (h : 9216 < leAt e 8 2) : s.riTake n e = (s.riNext n).setBit R.SELV_STATUS.BAD_RI := by
  rw [State.riTake, if_pos (by simp [h])]

/-! ### Transmitted frames (R201) -/

theorem exec_frameTransmit_noPort (hup : s.up = true) (hp : s.panelHeld (macPanel port) = false) (h : s.ethPort s.epoch port = false) :
    exec (.frameTransmit port) s = .next s := by
  change execFrameTransmit port s = _
  rw [execFrameTransmit, State.whenPanel_of_unheld hup hp, if_pos (by simp [h])]

/-- A class's oldest frame leaves its queue, and takes its bits off the class's shaper. -/
def State.classSent (s : State) (port k : Nat) (tp : TxPkt) (rest : List TxPkt) : State :=
  { s with selv := { s.selv with
      egress := smPut [] s.selv.egress (classKey port k) rest
      shape := smPut (0, 0) s.selv.shape (classKey port k) (s.shapeNow port k - 8 * tp.frame.length, s.now) } }

theorem exec_frameTransmit (hup : s.up = true) (h : s.portRuns port) (hpick : s.etcPick port = (v, some k)) (hq : v.classQ port k = tp :: rest) :
    exec (.frameTransmit port) s = .next ((((v.classSent port k tp rest).countTx tp).emit
      (.frame port (tp.frame ++ zeros (60 - tp.frame.length)) false)).pfcLeft tp.src tp.cls) := by
  change execFrameTransmit port s = _
  rw [execFrameTransmit, State.whenPanel_of_unheld hup h.1, if_neg (State.not_stopped_of_portRuns h)]
  simp only [hpick, hq]
  rfl

/-! ### PFC (R202) -/

/-- The queues of a port's named classes for which a test holds. -/
def pfcKeys (port : Nat) (classes : BitVec 8) (f : Nat → Bool) : List Nat := ((bitList 8 classes.toNat).filter f).map fun c => classKey port c

theorem classKey_inj {c d : Nat} : classKey port c = classKey port d ↔ c = d := by
  simp only [classKey, Nat.add_left_cancel_iff]

theorem classKey_mem_pfcKeys {f : Nat → Bool} (hcls : cls < 8) (hnamed : classes.getLsbD cls = true) :
    classKey port cls ∈ pfcKeys port classes f ↔ f cls = true := by
  have hbit : classes.toNat.testBit cls = true := by rw [BitVec.testBit_toNat, hnamed]
  simp only [pfcKeys, bitList, List.mem_map, List.mem_filter, List.mem_range, classKey_inj]
  constructor
  · rintro ⟨c, ⟨-, hf⟩, rfl⟩
    exact hf
  · exact fun hf => ⟨cls, ⟨⟨hcls, hbit⟩, hf⟩, rfl⟩

/-- A PFC frame replaces the pauses of the classes that it names. -/
theorem exec_pfcReceive (hup : s.up = true) (hp : s.panelHeld (macPanel port) = false) (heth : s.ethPort s.epoch port = true)
    (hen : s.bit (R.EMAC_GCFG.PFC_EN (port / 8)) = true) :
    let on := pfcKeys port classes fun c => times.getD c 0 != 0
    let off := pfcKeys port classes fun c => times.getD c 0 == 0
    exec (.pfcReceive port classes times) s =
      .next { s with selv := { s.selv with paused := (s.selv.paused.filter fun y => !off.contains y && !on.contains y) ++ on } } := by
  intro on off
  change execPfcReceive port classes times s = _
  rw [execPfcReceive, State.whenPanel_of_unheld hup hp, if_neg (by simp [heth, hen])]
  rfl

theorem completes_pfcReceive (hup : s.up = true) (hp : s.panelHeld (macPanel port) = false) (heth : s.ethPort s.epoch port = true)
    (hen : s.bit (R.EMAC_GCFG.PFC_EN (port / 8)) = true) (hcls : cls < 8) (hnamed : classes.getLsbD cls = true) :
    Completes (.pfcReceive port classes times) s fun t => t.regs = s.regs ∧ (classKey port cls ∈ t.selv.paused ↔ times.getD cls 0 ≠ 0) := by
  refine ⟨_, exec_pfcReceive hup hp heth hen, rfl, ?_⟩
  simp only [List.mem_append, List.mem_filter, Bool.and_eq_true, Bool.not_eq_true', ← Bool.not_eq_true, List.contains_iff_mem,
    classKey_mem_pfcKeys hcls hnamed, beq_iff_eq, bne_iff_ne]
  exact ⟨fun h => h.elim (fun h => h.2.1) id, .inr⟩

theorem completes_pfcPauseEnd (hup : s.up = true) : Completes (.pfcPauseEnd port cls) s fun t =>
    t.regs = s.regs ∧ ∀ y, y ∈ t.selv.paused ↔ y ∈ s.selv.paused ∧ y ≠ classKey port cls :=
  ⟨_, congrArg Host.Outcome.next (State.whenUp_of_up hup), rfl, fun y => by rw [List.mem_filter, bne_iff_ne]⟩

end

/-- Settles O39: a lemma for each command and outcome. -/
theorem selvedgeFrames : Obligations.SelvedgeFrames := by
  intro s v port pipe idx n cls zone fr key p c x cn k tp rest classes times hup open_ s0 lim head at_ e
  refine ⟨fun ho hlen hroom => exec_frameReceive hup ho hlen hroom, fun ho => exec_frameReceive_badFcs hup ho,
    fun hp h => ⟨exec_frameReceive_noPort hup hp h, exec_frameTransmit_noPort hup hp h⟩,
    fun hp hm h12 hf hacl ht => exec_missLookupComplete_flow hup hp hm h12 hf hacl ht, fun hp hm => exec_missLookupComplete_empty hup hp hm,
    fun hp hm => ⟨fun hold => ?aged, fun hnew => ?young⟩, completes_learnIdleExpiry hup, fun hc hlate hm => ?timedOut, fun hc hlive => ?live,
    fun hp hn hne hm => ⟨fun h0 h1 hmf => ?reinject, fun hlong => ?tooLong⟩, fun ho hpick hq => exec_frameTransmit hup ho hpick hq,
    fun hp heth hen hcls hnamed => completes_pfcReceive hup hp heth hen hcls hnamed, completes_pfcPauseEnd hup⟩
  case aged => rw [exec_missAge hup hp hm, if_neg (by omega)]
  case young => rw [exec_missAge hup hp hm, if_pos hnew]
  case timedOut => rw [exec_ctTimeout hup hc, if_pos hlate, State.ctDrop_alone hm]
  case live => rw [exec_ctTimeout hup hc, if_neg (by omega)]
  case reinject => exact (exec_reinjectEntry hup hp hn hne hm).trans (congrArg Host.Outcome.next (State.riTake_ok h0 h1 hmf))
  case tooLong => exact (exec_reinjectEntry hup hp hn hne hm).trans (congrArg Host.Outcome.next (State.riTake_long hlong))

end Sys2Proof.Machine
end

section
/-!
O40. Selvedge's tables. A packet of one entry and the table window take the same judgement (`State.tabRefusal`) and stage the same change
(`State.tabStage`), so each has one lemma over the operation (add, modify, delete). SELV_READ answers what `State.tabReads` gives. A sweep keeps the
entries that no commit has removed.
-/

namespace Sys2Proof.Machine

section

variable {s : State} {r : OnfReq} {ss : Session} {who : Agent} {i : Instr} {stg : Bool} {op sess table index : Nat} {e : TabImage} {b : List Byte}

/-! ### SELV_WRITE (R205, R206) -/

/-- A packet of one entry is judged in the session as it stands. -/
theorem State.tabPlan_one : s.tabPlan table op 0 [e] [] =
    if s.tabRefusal table op e = 0 then .ok [s.tabStage table op e] else .error (0, s.tabRefusal table op e) := by
  by_cases h : s.tabRefusal table op e = 0
  · simp only [State.tabPlan, h, ne_eq, not_true_eq_false, if_false, if_true, List.nil_append]
  · simp only [State.tabPlan, h, ne_eq, not_false_eq_true, if_false, if_true]

/-- What one accepted entry of SELV_WRITE comes to, `t` being the state in its session: it is staged, or the reply names entry 0 and its code. -/
theorem State.selvWrite_one {t : State} (ht : t = (s.taken r).heard r (some sess)) (h : s.admits r 0x0A01 = true) (hch : 32 ≤ r.ch)
    (hsize : tabSize table ≠ 0) (hs : (s.taken r).stages r (some sess) ss) (hsweep : t.bit R.SELV_COMMIT.SWEEP = false) :
    s.selvWrite r op sess table [e] =
      if t.tabRefusal table op e = 0 then t.stageAnd r 0x0A01 [] [t.tabStage table op e] (leBytes 2 0xFFFF)
      else t.reply r 0x0A01 (t.tabRefusal table op e) (leBytes 2 0) := by
  subst ht
  rw [State.selvWrite, State.command_admits h]
  dsimp only
  rw [if_neg (by omega), if_neg hsize, if_neg (by simp), State.inSession_stages hs, if_neg (by simp [hsweep]), State.tabPlan_one]
  by_cases h0 : ((s.taken r).heard r (some sess)).tabRefusal table op e = 0
  · rw [if_pos h0, if_pos h0]
  · rw [if_neg h0, if_neg h0]

/-- The two outcomes of an instruction that is SELV_WRITE of one entry. -/
theorem exec_selvWrite_one {t : State} (hi : exec i s = .next (s.selvWrite r op sess table [e])) (ht : t = (s.taken r).heard r (some sess))
    (h : s.admits r 0x0A01 = true) (hch : 32 ≤ r.ch) (hsize : tabSize table ≠ 0) (hs : (s.taken r).stages r (some sess) ss)
    (hsweep : t.bit R.SELV_COMMIT.SWEEP = false) :
    (t.tabRefusal table op e = 0 → exec i s = .next (t.stageAnd r 0x0A01 [] [t.tabStage table op e] (leBytes 2 0xFFFF))) ∧
    (t.tabRefusal table op e ≠ 0 → exec i s = .next (t.reply r 0x0A01 (t.tabRefusal table op e) (leBytes 2 0))) := by
  rw [hi, State.selvWrite_one ht h hch hsize hs hsweep]
  exact ⟨fun h0 => by rw [if_pos h0], fun hne => by rw [if_neg hne]⟩

/-! ### SELV_READ (R204) -/

/-- A PF mailbox has no access to what is shared beyond its port (log entry 93, DEDUCED). -/
theorem exec_selvRead_mailbox {ents : List TabImage} (h : s.admits r 0x0A02 = true) (hch : r.ch < 32) :
    exec (.selvRead r table stg ents) s = .next ((s.taken r).reply r 0x0A02 E.PRIVILEGE []) := by
  change execSelvRead r table stg ents s = _
  rw [execSelvRead, State.command_admits h]
  rw [if_pos hch]

theorem exec_selvRead {ents : List TabImage} (h : s.admits r 0x0A02 = true) (hch : 32 ≤ r.ch) (hsize : tabSize table ≠ 0) (hne : ents ≠ [])
    (hview : stg = false ∨ (s.taken r).onf.session.isSome = true) (hb : (s.taken r).tabReads stg table ents = .ok b) :
    exec (.selvRead r table stg ents) s = .next ((s.taken r).reply r 0x0A02 0 b) := by
  have hopen : (stg && (s.taken r).onf.session.isNone) = false := by
    rcases hview with rfl | hsome
    · rfl
    · rw [Option.isNone_eq_false_iff.2 hsome, Bool.and_false]
  change execSelvRead r table stg ents s = _
  rw [execSelvRead, State.command_admits h]
  rw [if_neg (by omega), if_neg hsize, if_neg (by simp [hne]), if_neg (by simp [hopen]), hb]

/-! ### The table window -/

/-- The entry that the window stands at. -/
def State.twEntry (s : State) (table index : Nat) : TabImage := { index := index, image := s.twImage table }

/-- What the window comes to when its session takes the write and no peer mirrors it. -/
theorem State.twStage_staged (ho : s.opens who R.SELV_TW_CMD.off) (hst : s.hartStage who false = .staged) (hsize : tabSize table ≠ 0)
    (hsweep : s.bit R.SELV_COMMIT.SWEEP = false) (hm : s.mirrored = false) : s.twStage who op table index =
      if s.tabRefusal table op (s.twEntry table index) = 0 then ((s.stageTab (s.tabStage table op (s.twEntry table index))).showSession).twStatus 0
      else s.twStatus (s.tabRefusal table op (s.twEntry table index)) := by
  rw [State.twStage, State.regTry_of_opens ho]
  simp only [hst, hsize, hsweep, hm, ne_eq, Bool.false_eq_true, if_false, ite_not]
  rfl

/-- The two outcomes of an instruction that stages by the window. -/
theorem exec_twStage (hi : exec i s = .next (s.whenUp fun s => s.twStage who op table index)) (hup : s.up = true)
    (ho : s.opens who R.SELV_TW_CMD.off) (hst : s.hartStage who false = .staged) (hsize : tabSize table ≠ 0)
    (hsweep : s.bit R.SELV_COMMIT.SWEEP = false) (hm : s.mirrored = false) :
    (s.tabRefusal table op (s.twEntry table index) = 0 →
      exec i s = .next (((s.stageTab (s.tabStage table op (s.twEntry table index))).showSession).twStatus 0)) ∧
    (s.tabRefusal table op (s.twEntry table index) ≠ 0 → exec i s = .next (s.twStatus (s.tabRefusal table op (s.twEntry table index)))) := by
  rw [hi, State.whenUp_of_up hup, State.twStage_staged ho hst hsize hsweep hm]
  exact ⟨fun h0 => by rw [if_pos h0], fun hne => by rw [if_neg hne]⟩

/-- A session that does not admit the hart takes nothing from the window (R60). -/
theorem exec_selvTwAdd_foreign (hup : s.up = true) (ho : s.opens who R.SELV_TW_CMD.off) (hst : s.hartStage who false = .foreign) :
    exec (.selvTwAdd who table index) s = .next (s.setBit R.ONF_BASTE_STAT.FOREIGN_WR) := by
  change execSelvTwAdd who table index s = _
  rw [execSelvTwAdd, State.whenUp_of_up hup, State.twStage, State.regTry_of_opens ho, hst]

theorem State.twRead_ok (ho : s.opens who R.SELV_TW_CMD.off) (hsize : tabSize table ≠ 0)
    (hb : s.tabRead stg table (s.twEntry table index) = .ok b) : s.twRead who stg table index = (s.twPut b).twStatus 0 := by
  rw [State.twEntry] at hb
  rw [State.twRead, State.regTry_of_opens ho, if_neg hsize, hb]

theorem exec_selvTwReadLive (hup : s.up = true) (ho : s.opens who R.SELV_TW_CMD.off) (hsize : tabSize table ≠ 0)
    (hb : s.tabRead false table (s.twEntry table index) = .ok b) : exec (.selvTwReadLive who table index) s = .next ((s.twPut b).twStatus 0) := by
  change execSelvTwReadLive who table index s = _
  rw [execSelvTwReadLive, State.whenUp_of_up hup, State.twRead_ok ho hsize hb]

theorem exec_selvTwReadStaged (hup : s.up = true) (ho : s.opens who R.SELV_TW_CMD.off) (hsize : tabSize table ≠ 0)
    (hb : s.tabRead true table (s.twEntry table index) = .ok b) : exec (.selvTwReadStaged who table index) s = .next ((s.twPut b).twStatus 0) := by
  change execSelvTwReadStaged who table index s = _
  rw [execSelvTwReadStaged, State.whenUp_of_up hup, State.twRead_ok ho hsize hb]

/-! ### The sweep (R207) -/

/-- Pending adds are live, pending deletes are free, and one ACL epoch is left of each tenant space. -/
def State.swept (s : State) : State :=
  { s with selv := { s.selv with
      tabs := (s.selv.tabs.filter fun t => t.till.isNone).map fun t => { t with since := none }
      aclEpoch := s.selv.aclEpoch.map fun x => (x.1, x.2.take 1) } }

theorem exec_selvSweepComplete (hup : s.up = true) (hsweep : s.bit R.SELV_COMMIT.SWEEP = true)
    (hnew : ∀ p, p ∈ s.selv.miss → epochGe p.epoch (s.fld R.SELV_COMMIT.EPOCH) = true) :
    exec .selvSweepComplete s = .next (s.swept.clrBit R.SELV_COMMIT.SWEEP).histTrim := by
  have hold : (s.selv.miss.any fun p => !epochGe p.epoch (s.fld R.SELV_COMMIT.EPOCH)) = false :=
    List.any_eq_false.2 fun p hp => by simp [hnew p hp]
  change execSelvSweepComplete s = _
  rw [execSelvSweepComplete, State.whenUp_of_up hup]
  dsimp only
  rw [hsweep, hold, if_neg (by simp)]
  rfl

theorem completes_selvSweepComplete (hup : s.up = true) (hsweep : s.bit R.SELV_COMMIT.SWEEP = true)
    (hnew : ∀ p, p ∈ s.selv.miss → epochGe p.epoch (s.fld R.SELV_COMMIT.EPOCH) = true) : Completes .selvSweepComplete s fun t =>
      t.bit R.SELV_COMMIT.SWEEP = false ∧ t.selv.tabs = (s.selv.tabs.filter fun y => y.till.isNone).map (fun y => { y with since := none }) ∧
        t.mem = s.mem :=
  ⟨_, exec_selvSweepComplete hup hsweep hnew, State.bit_clrBit_self (s := s.swept) (by decide), rfl, rfl⟩

theorem exec_selvSweepComplete_idle (hup : s.up = true) (hsweep : s.bit R.SELV_COMMIT.SWEEP = false) : exec .selvSweepComplete s = .next s := by
  change execSelvSweepComplete s = _
  rw [execSelvSweepComplete, State.whenUp_of_up hup]
  dsimp only
  rw [hsweep, if_pos (by simp)]

end

/-- Settles O40: a lemma for SELV_WRITE and one for the window, over the operation; then the reads and the sweep. -/
theorem selvedgeTables : Obligations.SelvedgeTables := by
  intro s r sess table index ss e ents b who stg u hs tw write window
  refine ⟨exec_selvWrite_one rfl rfl, exec_selvWrite_one rfl rfl, exec_selvWrite_one rfl rfl,
    fun hup ho => exec_twStage rfl hup ho, fun hup ho => exec_twStage rfl hup ho, fun hup ho => exec_twStage rfl hup ho,
    fun hup ho hsize => ⟨exec_selvTwReadLive hup ho hsize, exec_selvTwReadStaged hup ho hsize⟩, exec_selvTwAdd_foreign,
    exec_selvRead, exec_selvRead_mailbox, completes_selvSweepComplete, exec_selvSweepComplete_idle⟩

end Sys2Proof.Machine
end

section
/-!
O42. A dangerous fault is recorded in registers of the SAFE block (`SafeWrites`, `Recorded`), and then its scope is parked (`Parked`) or the device is
reset (`Wiped`). The watchdog and the injection are writes of one register each.
-/

namespace Sys2Proof.Machine

/-! ### Writes of the SAFE block -/

section

variable {α : Type} {p : Nat × α → Bool} {i : Nat}

/-- A filter that never takes a key does not see it listed. -/
theorem filter_smIns (h : ∀ v, p (i, v) = false) {a : α} : ∀ {m : SMap α}, (smIns m i a).filter p = m.filter p
  | [] => by simp [smIns, h]
  | (k, v) :: m => by
    unfold smIns
    split
    · next e => subst e; simp [h]
    · split
      · simp [h]
      · simp only [List.filter_cons, filter_smIns h]

theorem filter_smDel (h : ∀ v, p (i, v) = false) : ∀ {m : SMap α}, (smDel m i).filter p = m.filter p
  | [] => rfl
  | (k, v) :: m => by
    unfold smDel
    split
    · next e => subst e; rw [List.filter_cons_of_neg (by simp [h]), filter_smDel h]
    · simp only [List.filter_cons, filter_smDel h]

theorem filter_smPut [DecidableEq α] (h : ∀ v, p (i, v) = false) {d a : α} {m : SMap α} : (smPut d m i a).filter p = m.filter p := by
  unfold smPut
  split
  · exact filter_smDel h
  · exact filter_smIns h

end

/-- `t` is `s` but for registers up to the SAFE block, reports, and the injection that waits. No filter of higher registers, such as those that name the
owners of rings, sees a difference. -/
def State.SafeWrites (s t : State) : Prop :=
  (∃ (regs : SMap W64) (onf : OnfState) (inject : Option (Nat × Nat × Nat)), t = { s with regs, onf, safe := { s.safe with inject } }) ∧
    ∀ p : Nat × W64 → Bool, (∀ off v, off ≤ R.SAFE_INJECT.off → p (off, v) = false) → t.regs.filter p = s.regs.filter p

namespace State.SafeWrites

variable {s t u : State} {fd : Fld} {v : Nat}

theorem refl : s.SafeWrites s := ⟨⟨_, _, _, rfl⟩, fun _ _ => rfl⟩

theorem setReg (h : s.SafeWrites t) {off : Nat} {w : W64} (hoff : off ≤ R.SAFE_INJECT.off) : s.SafeWrites (t.setReg off w) := by
  obtain ⟨⟨_, _, _, rfl⟩, hf⟩ := h
  exact ⟨⟨_, _, _, rfl⟩, fun p hp => (filter_smPut fun v => hp off v hoff).trans (hf p hp)⟩

theorem setFld (h : s.SafeWrites t) (hf : fd.off ≤ R.SAFE_INJECT.off) : s.SafeWrites (t.setFld fd v) := h.setReg hf

theorem event (h : s.SafeWrites t) {c : Nat} : s.SafeWrites (t.event c) := by
  obtain ⟨⟨_, _, _, rfl⟩, hf⟩ := h
  obtain ⟨_, he⟩ := State.event_shape _ c
  rw [he]
  exact ⟨⟨_, _, _, rfl⟩, hf⟩

theorem ite {c : Prop} [Decidable c] (ht : s.SafeWrites t) (hu : s.SafeWrites u) : s.SafeWrites (if c then t else u) := by
  split
  · exact ht
  · exact hu

theorem injectSeen {mech panel tile : Nat} : s.SafeWrites (s.injectSeen mech panel tile) := by
  refine .ite (.setFld ⟨⟨_, _, _, rfl⟩, fun _ _ => rfl⟩ ?_) .refl
  decide

theorem safeRecord (h : s.SafeWrites t) {mech cls panel tile unit detail : Nat} : s.SafeWrites (t.safeRecord mech cls panel tile unit detail) := by
  have hcls : s.SafeWrites ((t.bump R.SAFE_STATUS.DF_COUNT 1).setFld R.SAFE_STATUS.LAST_CLASS cls) := (h.setFld (by decide)).setFld (by decide)
  have hcap : s.SafeWrites (((t.bump R.SAFE_STATUS.DF_COUNT 1).setFld R.SAFE_STATUS.LAST_CLASS cls).safeCapture mech cls panel tile unit detail) :=
    .ite hcls ((hcls.setReg (by decide)).setReg (by decide))
  exact ((ite (hcap.setFld (by decide)) hcap).setFld (by decide)).event

/-! The owners of rings stay. -/

theorem not_qown_of_safe {off : Nat} (h : off ≤ R.SAFE_INJECT.off) : decide (R.QFAB_QOWN.off 0 ≤ off) = false := by
  have hlt : R.SAFE_INJECT.off < R.QFAB_QOWN.off 0 := by decide
  exact decide_eq_false (by omega)

theorem qpsOf (h : s.SafeWrites t) {f : Nat} : t.qpsOf f = s.qpsOf f := by
  unfold State.qpsOf
  rw [h.2 _ fun off v hoff => by simp only [not_qown_of_safe hoff, Bool.false_and]]

theorem ringsOf (h : s.SafeWrites t) {f : Nat} : t.ringsOf f = s.ringsOf f := by
  have hq := h.qpsOf (f := f)
  obtain ⟨⟨_, _, _, rfl⟩, -⟩ := h
  rw [State.ringsOf, hq]
  rfl

theorem ringsHomed (h : s.SafeWrites t) {p : Nat} : t.ringsHomed p = s.ringsHomed p := by
  unfold State.ringsHomed
  rw [h.2 _ fun off v hoff => by simp only [not_qown_of_safe hoff, Bool.false_and]]
  obtain ⟨⟨_, _, _, rfl⟩, -⟩ := h
  rfl

end State.SafeWrites

/-! ### The record (R250) -/

section

variable {s t u : State} {x : FaultInfo} {cls : Nat}

theorem State.reg_safeEvt {f : Fld} {off : Nat} : (s.safeEvt f).reg off = (s.setBit f).reg off := State.reg_of_regs (State.event_regs _ _)

theorem State.fld_safeEvt {f g : Fld} : (s.safeEvt f).fld g = (s.setBit f).fld g := State.fld_of_reg State.reg_safeEvt

theorem State.bit_safeEvt_self {f : Fld} (hf : f.lo + f.w ≤ 64) (hw : 0 < f.w) : (s.safeEvt f).bit f = true := by
  rw [State.bit_of_fld State.fld_safeEvt, State.bit_setBit_self hf hw]

theorem State.fld_bump_self {f : Fld} {n : Nat} (hf : f.lo + f.w ≤ 64) : (s.bump f n).fld f = min (s.fld f + n) (2 ^ f.w - 1) := by
  rw [State.bump, State.fld_setFld_self hf, Nat.mod_eq_of_lt]
  have := Nat.two_pow_pos f.w
  omega

/-- `t` shows a fault of a class that `s` met: it is counted, its class and the event stand in SAFE_STATUS, and the records hold it if they were empty. -/
def State.Recorded (s : State) (cls : Nat) (t : State) : Prop :=
  t.fld R.SAFE_STATUS.DF_COUNT = min (s.fld R.SAFE_STATUS.DF_COUNT + 1) (2 ^ R.SAFE_STATUS.DF_COUNT.w - 1) ∧
    t.fld R.SAFE_STATUS.LAST_CLASS = cls ∧ t.bit R.SAFE_STATUS.DF_EVT = true ∧
    (s.bit R.SAFE_REC0.VALID = false → t.bit R.SAFE_REC0.VALID = true ∧ t.reg R.SAFE_REC1.off = BitVec.ofNat 64 s.now)

theorem State.Recorded.of_regs (h : s.Recorded cls t) (hr : u.regs = t.regs) : s.Recorded cls u := by
  simpa only [State.Recorded, State.bit, State.fld, State.reg, hr] using h

section

variable {mech panel tile unit detail : Nat}

theorem State.fld_safeCapture {f : Fld} (h0 : f.off ≠ R.SAFE_REC0.off) (h1 : f.off ≠ R.SAFE_REC1.off) :
    (s.safeCapture mech cls panel tile unit detail).fld f = s.fld f := by
  unfold State.safeCapture
  split
  · rfl
  · rw [State.fld_setReg_ne h1, State.fld_setReg_ne h0]

/-- Records that are empty take the fault, with the time. -/
theorem State.safeCapture_valid (h : s.bit R.SAFE_REC0.VALID = false) : (s.safeCapture mech cls panel tile unit detail).bit R.SAFE_REC0.VALID = true ∧
    (s.safeCapture mech cls panel tile unit detail).reg R.SAFE_REC1.off = BitVec.ofNat 64 s.now := by
  unfold State.safeCapture
  rw [if_neg (by simp [h])]
  refine ⟨?_, State.reg_setReg_self⟩
  have hoff : R.SAFE_REC0.VALID.off = R.SAFE_REC0.off := rfl
  rw [State.bit, State.fld_setReg_ne (by decide), State.fld, hoff, State.reg_setReg_self, getBits_eq_div_mod, BitVec.toNat_ofNat, beq_iff_eq]
  simp only [R.SAFE_REC0.VALID]
  omega

theorem State.recorded_safeRecord (hcls : cls < 8) : s.Recorded cls (s.safeRecord mech cls panel tile unit detail) := by
  unfold State.safeRecord
  extract_lets s1 s2
  have hreg {off : Nat} (h : off ≠ R.SAFE_STATUS.off) : s2.reg off = s1.reg off := by
    dsimp only [s2]
    split
    · exact State.reg_setFld_ne h
    · rfl
  have hfld {f : Fld} (hf : R.SAFE_STATUS.WDOG_EVT.lo + R.SAFE_STATUS.WDOG_EVT.w ≤ f.lo) (h64 : f.lo + f.w ≤ 64) : s2.fld f = s1.fld f := by
    dsimp only [s2]
    split
    · exact State.fld_setFld_disj h64 (.inr hf)
    · rfl
  refine ⟨?count, ?cls, State.bit_safeEvt_self (by decide) (by decide), fun hv => ?record⟩
  case count =>
    rw [State.fld_safeEvt, State.setBit, State.fld_setFld_disj (by decide) (by decide), hfld (by decide) (by decide),
      State.fld_safeCapture (by decide) (by decide), State.fld_setFld_disj (by decide) (by decide), State.fld_bump_self (by decide)]
  case cls =>
    rw [State.fld_safeEvt, State.setBit, State.fld_setFld_disj (by decide) (by decide), hfld (by decide) (by decide),
      State.fld_safeCapture (by decide) (by decide), State.fld_setFld_self (by decide)]
    exact Nat.mod_eq_of_lt hcls
  case record =>
    have hv' : ((s.bump R.SAFE_STATUS.DF_COUNT 1).setFld R.SAFE_STATUS.LAST_CLASS cls).bit R.SAFE_REC0.VALID = false := by
      rw [State.bit, State.fld_setFld_ne (by decide), State.bump, State.fld_setFld_ne (by decide)]
      exact hv
    obtain ⟨hvalid, htime⟩ := State.safeCapture_valid hv' (mech := mech) (cls := cls) (panel := panel) (tile := tile) (unit := unit) (detail := detail)
    constructor
    · rw [← hvalid]
      exact State.bit_of_fld (State.fld_of_reg (by rw [State.reg_safeEvt, State.setBit, State.reg_setFld_ne (by decide), hreg (by decide)]))
    · rw [State.reg_safeEvt, State.setBit, State.reg_setFld_ne (by decide), hreg (by decide), htime]
      rfl

end

/-- A fault is noted under a class: an injection that waited for it is over, and it is recorded. -/
def State.noted (s : State) (x : FaultInfo) (cls : Nat) : State :=
  (s.injectSeen x.mech x.panel x.tile).safeRecord x.mech cls x.panel x.tile x.unit x.detail

theorem State.safeWrites_noted : s.SafeWrites (s.noted x cls) := State.SafeWrites.injectSeen.safeRecord

theorem State.fld_injectSeen {mech panel tile : Nat} {f : Fld} (h : f.off ≠ R.SAFE_INJECT.off) : (s.injectSeen mech panel tile).fld f = s.fld f := by
  unfold State.injectSeen
  split
  · exact State.fld_setFld_ne h
  · rfl

theorem State.bit_noted_wdog (hmech : x.mech = 10) : (s.noted x cls).bit R.SAFE_STATUS.WDOG_EVT = true := by
  rw [State.noted, State.safeRecord, State.bit_of_fld State.fld_safeEvt, State.setBit, State.bit_of_fld (State.fld_setFld_disj (by decide) (by decide)),
    if_pos hmech, State.bit_setBit_self (by decide) (by decide)]

theorem State.now_injectSeen {mech panel tile : Nat} : (s.injectSeen mech panel tile).now = s.now := by
  obtain ⟨⟨_, _, _, h⟩, -⟩ := State.SafeWrites.injectSeen (s := s) (mech := mech) (panel := panel) (tile := tile)
  rw [h]
  rfl

theorem State.recorded_noted (hcls : cls < 8) : s.Recorded cls (s.noted x cls) := by
  have h := State.recorded_safeRecord (s := s.injectSeen x.mech x.panel x.tile) (mech := x.mech) (panel := x.panel) (tile := x.tile) (unit := x.unit)
    (detail := x.detail) hcls
  rwa [State.Recorded, State.fld_injectSeen (by decide), State.bit_of_fld (State.fld_injectSeen (by decide)), State.now_injectSeen] at h

end

/-! ### Containment (R252, Table 08-8) -/

section

variable {s t u : State} {q r p : Nat} {x : FaultInfo} {qs : List Nat}

/-- A ring is parked by containment. -/
def State.Parked (t : State) (r : Nat) : Prop := (t.qp r).st = .parked ∧ (t.qp r).contained = true ∧ (t.qp r).errcode = E.POISON

theorem State.Parked.of_qps (h : s.Parked r) (hq : t.qps = s.qps) : t.Parked r := by
  rwa [State.Parked, State.qp_of_qps hq]

theorem State.contain_shape (s : State) (q : Nat) : ∃ (qps : SMap QpCtx) (galv : GalvState) (out : List OutEvent) (shut : ShuttleState),
    s.contain q = { s with qps, galv, out, shut } := by
  unfold State.contain
  dsimp only
  obtain ⟨_, _, _, h⟩ := State.setQp_shape s q { s.qp q with st := .parked, contained := true, errcode := E.POISON, drain := none, shadowOut := false }
  rw [h]
  exact ⟨_, _, _, _, rfl⟩

theorem State.parked_contain_self : (s.contain q).Parked q := by
  have h : (s.contain q).qp q = _ := (State.qp_of_qps rfl).trans State.qp_setQp_self
  rw [State.Parked, h]
  exact ⟨rfl, rfl, rfl⟩

theorem State.qp_contain_ne (h : r ≠ q) : (s.contain q).qp r = s.qp r := (State.qp_of_qps rfl).trans (State.qp_setQp_ne h)

theorem State.Parked.contain (h : s.Parked r) : (s.contain q).Parked r := by
  by_cases e : r = q
  · exact e ▸ State.parked_contain_self
  · rwa [State.Parked, State.qp_contain_ne e]

theorem State.Parked.containAll (h : s.Parked r) : (s.containAll qs).Parked r := by
  induction qs generalizing s with
  | nil => exact h
  | cons q qs ih => exact ih h.contain

/-- Every ring of the list is parked. -/
theorem State.parked_containAll (h : r ∈ qs) : (s.containAll qs).Parked r := by
  induction qs generalizing s with
  | nil => exact absurd h List.not_mem_nil
  | cons q qs ih =>
    obtain rfl | h := List.mem_cons.1 h
    · exact State.parked_contain_self.containAll
    · exact ih h

theorem State.containAll_shape (s : State) (qs : List Nat) : ∃ (qps : SMap QpCtx) (galv : GalvState) (out : List OutEvent) (shut : ShuttleState),
    s.containAll qs = { s with qps, galv, out, shut } := by
  induction qs generalizing s with
  | nil => exact ⟨_, _, _, _, rfl⟩
  | cons q qs ih =>
    obtain ⟨qps, galv, out, shut, hq⟩ := s.contain_shape q
    rw [State.containAll, List.foldl_cons, hq]
    exact ih { s with qps, galv, out, shut }

theorem State.containAll_regs : (s.containAll qs).regs = s.regs := by
  obtain ⟨_, _, _, _, h⟩ := s.containAll_shape qs
  rw [h]

theorem State.panelQuiet_shape (s : State) (p : Nat) : ∃ (links : SMap PortSt) (out : List OutEvent), s.panelQuiet p = { s with links, out } := by
  unfold State.panelQuiet
  generalize (List.range 8).map (8 * p + ·) = ns
  induction ns generalizing s with
  | nil => exact ⟨_, _, rfl⟩
  | cons n ns ih =>
    rw [List.foldl_cons]
    split
    · obtain ⟨_, _, h⟩ := ih ((s.linkDrop n).emit (.portDown n))
      exact ⟨_, _, h⟩
    · exact ih s

/-! What a scope's containment is. -/

theorem State.containFault_transfer (hcls : x.cls = 1) {k : Nat} (hscope : x.scope = .transfer k) (hx : s.xfer? k = none) : s.containFault x = s := by
  simp only [State.containFault, hcls, hscope, State.poisonXfer, hx]

theorem State.containFault_qp (hcls : x.cls = 2) (hscope : x.scope = .qp q) (hst : (s.qp q).st ≠ .free) : s.containFault x = s.contain q := by
  simp only [State.containFault, hcls, hscope, hst, if_false]

theorem State.containFault_function (hcls : x.cls = 2) {f : Nat} (hscope : x.scope = .function f) : s.containFault x = s.containAll (s.ringsOf f) := by
  simp only [State.containFault, hcls, hscope]

theorem State.containFault_block (hcls : x.cls = 3) (hscope : x.scope = .panel p) :
    s.containFault x = s.containAll (s.ringsHomed x.panel ++ (s.shut.xfers.filter fun y => y.panel == x.panel).map (·.q)) := by
  simp only [State.containFault, hcls, hscope]

/-- A panel that a class 4 fault holds. -/
def State.holdFaulted (s : State) (p : Nat) : State :=
  { s with safe := { s.safe with panelHeld := if s.safe.panelHeld.contains p then s.safe.panelHeld else p :: s.safe.panelHeld } }

theorem State.mem_panelHeld_holdFaulted : (s.holdFaulted p).safe.panelHeld.contains p = true := by
  unfold State.holdFaulted
  dsimp only
  split
  · assumption
  · simp

theorem State.containFault_panel (hcls : x.cls = 4) (hscope : x.scope = .panel p) :
    s.containFault x = ((s.panelQuiet x.panel).containAll (s.ringsHomed x.panel ++ s.ringsPorted x.panel)).holdFaulted x.panel := by
  simp only [State.containFault, hcls, hscope, State.holdFaulted]

theorem panel_eq_of_faultFits (hfit : faultFits x = true) (hcls : x.cls = 4) (hscope : x.scope = .panel p) : x.panel = p := by
  simp only [faultFits, hcls, hscope, Bool.and_eq_true, beq_iff_eq] at hfit
  exact hfit.2.symm

/-! ### After the containment -/

/-- The containment ends within 1 µs, at a free time; engines that wait for SAFE's line go on. -/
def State.containing (s : State) : State := ({ s.drawn with safe := { s.safe with contUntil := s.now + s.free % 1001 } }).endWaits

theorem State.endWaits_shape (s : State) : ∃ engs, s.endWaits = { s with engs } := by
  unfold State.endWaits
  generalize s.engs.map (·.1) = es
  induction es generalizing s with
  | nil => exact ⟨_, rfl⟩
  | cons e es ih =>
    obtain ⟨engs, he⟩ := s.endWait_shape e
    rw [List.foldl_cons, he]
    exact ih { s with engs }

theorem State.containing_shape (s : State) : ∃ (freeCtr contUntil : Nat) (engs : SMap Engine),
    s.containing = { s with freeCtr, safe := { s.safe with contUntil }, engs } := by
  obtain ⟨_, h⟩ := State.endWaits_shape { s.drawn with safe := { s.safe with contUntil := s.now + s.free % 1001 } }
  exact ⟨_, _, _, h⟩

theorem State.faultOut_containing_regs : s.faultOut.containing.regs = s.regs := by
  obtain ⟨_, _, _, h⟩ := s.faultOut.containing_shape
  rw [h]
  rfl

/-- A fault whose containment has parked rings, and left the registers: recorded, reported by TWIN_FAULT_OUT, the rings parked. -/
theorem State.contained_of {cls : Nat} (hcls : cls < 8) {rings : List Nat} (hregs : u.regs = (s.noted x cls).regs) (hp : ∀ r, r ∈ rings → u.Parked r) :
    s.Recorded cls u.faultOut.containing ∧ u.faultOut.containing.sys.faultOut = true ∧ ∀ r, r ∈ rings → u.faultOut.containing.Parked r := by
  obtain ⟨_, _, _, h⟩ := u.faultOut.containing_shape
  rw [h]
  exact ⟨(State.recorded_noted hcls).of_regs hregs, rfl, fun r hr => (hp r hr).of_qps rfl⟩

/-! ### Detection (R250, R255) -/

/-- While no other fault is being contained, a fault that does not reset the device is noted and contained. -/
theorem State.detect_contained (hrun : s.sys.phase = .running) (hcalm : s.safe.contUntil ≤ s.now) (hcls : x.cls ≠ 5) :
    s.detect x = (if 2 ≤ x.cls then ((s.noted x x.cls).containFault x).faultOut else (s.noted x x.cls).containFault x).containing := by
  unfold State.detect
  rw [if_neg (by simp [hrun]), if_neg (by simp [hrun])]
  simp only [Nat.not_lt.2 hcalm, decide_false, Bool.false_eq_true, if_false, hcls]
  rfl

theorem State.detect_dangerous (hrun : s.sys.phase = .running) (hcalm : s.safe.contUntil ≤ s.now) (h2 : 2 ≤ x.cls) (hcls : x.cls ≠ 5) :
    s.detect x = ((s.noted x x.cls).containFault x).faultOut.containing := by
  rw [State.detect_contained hrun hcalm hcls, if_pos h2]

/-- A fault that meets another's containment, and one of class 5 whose clock runs, reset the device. -/
theorem State.detect_resets (hrun : s.sys.phase = .running) (h : s.now < s.safe.contUntil ∨ x.cls = 5 ∧ x.mech ≠ 8) :
    s.detect x = (s.noted x 5).faultOut.warmReset .safe := by
  unfold State.detect
  rw [if_neg (by simp [hrun]), if_neg (by simp [hrun])]
  by_cases hagain : s.now < s.safe.contUntil
  · simp only [hagain, decide_true, if_true]
    rfl
  · obtain ⟨hcls, hmech⟩ := h.resolve_left hagain
    simp only [hagain, decide_false, Bool.false_eq_true, if_false, hcls, if_true, State.deviceFault, hmech]
    rfl

/-! ### The device's reset -/

/-- What a device that was `s` holds after a reset by a fault: no memory, rings or functions; the hosts' memory stays, and the loader starts.
That memory reads as empty is the model's choice (log entry 2). -/
def State.Wiped (s t : State) : Prop :=
  t.mem = [] ∧ t.qps = [] ∧ t.fns = [] ∧ t.sys.gated = true ∧ t.hostMem = s.hostMem ∧ (t.sys.phase = .starting ∨ ∃ c, t.sys.phase = .halted c)

/-- Whatever the form of the maps, a warm reset leaves a blank device. -/
theorem State.coreReset_blank (s : State) : s.Blank s.coreReset := by
  obtain ⟨out, hp⟩ := s.portsDown_shape
  obtain ⟨freeCtr, fuse, burn, hb⟩ := State.burnCut_shape { s with out }
  obtain ⟨regs, hr⟩ := (s.portsDown.burnCut.tapeReset).sameButRegs_regsReset
  unfold State.coreReset
  rw [hr, hp, hb]
  exact ⟨rfl, rfl, rfl, rfl, rfl, rfl, rfl, rfl, rfl, rfl, State.tapeReset_nonce⟩

theorem State.wiped_warmReset (hup : t.up = true) (hhost : t.hostMem = s.hostMem) (c : RstCause) : s.Wiped (t.warmReset c) := by
  rw [State.warmReset_of_up hup]
  obtain ⟨hmem, hfns, hqps, -, -, -, hhost', hgated, -⟩ := (State.coreReset_blank (t.setBit (causeFld c))).resetEnds
  exact ⟨hmem, hqps, hfns, hgated, hhost'.trans hhost, (State.resetEnds_booted _).1⟩

theorem State.wiped_detect (hup : s.up = true) (hrun : s.sys.phase = .running) (h : s.now < s.safe.contUntil ∨ x.cls = 5 ∧ x.mech ≠ 8) :
    s.Wiped (s.detect x) := by
  rw [State.detect_resets hrun h]
  obtain ⟨⟨_, _, _, hn⟩, -⟩ := State.safeWrites_noted (s := s) (x := x) (cls := 5)
  refine State.wiped_warmReset ?_ ?_ .safe
  · rw [hn]
    exact hup
  · rw [hn]
    rfl

end

/-! ### The commands -/

section

variable {s : State} {x : FaultInfo} {who : Agent} {d : W64} {q f p k rail : Nat} {sq : Sequencer}

theorem completes_correctedError (hup : s.up = true) : Completes .correctedError s fun t =>
    t.fld R.SAFE_STATUS.CE_COUNT = min (s.fld R.SAFE_STATUS.CE_COUNT + 1) (2 ^ R.SAFE_STATUS.CE_COUNT.w - 1) ∧
      t.bit R.SAFE_STATUS.CE_EVT = true ∧ t.mem = s.mem ∧ t.qps = s.qps ∧ t.sys = s.sys := by
  let u := (s.bump R.SAFE_STATUS.CE_COUNT 1).safeEvt R.SAFE_STATUS.CE_EVT
  obtain ⟨_, h⟩ := u.endWaits_shape
  refine ⟨u.endWaits, ?_, ?_⟩
  · change execCorrectedError s = _
    rw [execCorrectedError, State.whenUp_of_up hup]
  rw [h]
  refine ⟨?_, State.bit_safeEvt_self (by decide) (by decide), by simp [u], by simp [u], by simp [u]⟩
  change u.fld R.SAFE_STATUS.CE_COUNT = _
  rw [State.fld_safeEvt, State.setBit, State.fld_setFld_disj (by decide) (by decide), State.fld_bump_self (by decide)]

theorem exec_dangerousFaultDetect (hup : s.up = true) (hfit : faultFits x = true) : exec (.dangerousFaultDetect x) s = .next (s.detect x) := by
  change execDangerousFaultDetect x s = _
  rw [execDangerousFaultDetect, State.whenUp_of_up hup, if_pos hfit]

theorem exec_dangerousFaultDetect_misfit (hup : s.up = true) (hfit : faultFits x = false) : exec (.dangerousFaultDetect x) s = .next s := by
  change execDangerousFaultDetect x s = _
  rw [execDangerousFaultDetect, State.whenUp_of_up hup, hfit, if_neg (by simp)]

theorem completes_fault_wiped (hup : s.up = true) (hrun : s.sys.phase = .running) (hfit : faultFits x = true)
    (h : s.now < s.safe.contUntil ∨ x.cls = 5 ∧ x.mech ≠ 8) : Completes (.dangerousFaultDetect x) s s.Wiped :=
  ⟨_, exec_dangerousFaultDetect hup hfit, State.wiped_detect hup hrun h⟩

section

variable (hup : s.up = true) (hrun : s.sys.phase = .running) (hcalm : s.safe.contUntil ≤ s.now) (hfit : faultFits x = true)

include hup hrun hcalm hfit

theorem completes_fault_qp (hcls : x.cls = 2) (hscope : x.scope = .qp q) (hst : (s.qp q).st ≠ .free) : Completes (.dangerousFaultDetect x) s fun t =>
    s.Recorded 2 t ∧ t.Parked q ∧ t.sys.faultOut = true ∧ t.mem = s.mem ∧ ∀ r, r ≠ q → t.qp r = s.qp r := by
  refine ⟨_, exec_dangerousFaultDetect hup hfit, ?_⟩
  rw [State.detect_dangerous hrun hcalm (by omega) (by omega), hcls]
  obtain ⟨⟨_, _, _, hn⟩, -⟩ := State.safeWrites_noted (s := s) (x := x) (cls := 2)
  have hqp (r : Nat) : (s.noted x 2).qp r = s.qp r := by
    rw [hn]
    rfl
  rw [State.containFault_qp hcls hscope (by rw [hqp]; exact hst)]
  obtain ⟨_, _, _, _, hc⟩ := (s.noted x 2).contain_shape q
  obtain ⟨hrec, hout, hpark⟩ := State.contained_of (s := s) (x := x) (cls := 2) (u := (s.noted x 2).contain q) (rings := [q]) (by omega)
    (by rw [hc]) fun r hr => List.mem_singleton.1 hr ▸ State.parked_contain_self
  obtain ⟨_, _, _, ht⟩ := ((s.noted x 2).contain q).faultOut.containing_shape
  refine ⟨hrec, hpark q (List.mem_singleton_self q), hout, ?mem, fun r hr => ?others⟩
  case mem =>
    rw [ht, hc, hn]
    rfl
  case others =>
    rw [← hqp r, ← State.qp_contain_ne (s := s.noted x 2) hr, ht]
    rfl

theorem completes_fault_function (hcls : x.cls = 2) (hscope : x.scope = .function f) : Completes (.dangerousFaultDetect x) s fun t =>
    s.Recorded 2 t ∧ t.sys.faultOut = true ∧ ∀ r, r ∈ s.ringsOf f → t.Parked r := by
  refine ⟨_, exec_dangerousFaultDetect hup hfit, ?_⟩
  rw [State.detect_dangerous hrun hcalm (by omega) (by omega), hcls, State.containFault_function hcls hscope, State.safeWrites_noted.ringsOf]
  exact State.contained_of (by omega) State.containAll_regs fun r => State.parked_containAll

theorem completes_fault_panel (hcls : x.cls = 4) (hscope : x.scope = .panel p) : Completes (.dangerousFaultDetect x) s fun t =>
    s.Recorded 4 t ∧ t.panelHeld p = true ∧ t.sys.faultOut = true ∧ ∀ r, r ∈ s.ringsHomed p → t.Parked r := by
  obtain rfl := panel_eq_of_faultFits hfit hcls hscope
  refine ⟨_, exec_dangerousFaultDetect hup hfit, ?_⟩
  rw [State.detect_dangerous hrun hcalm (by omega) (by omega), hcls, State.containFault_panel hcls hscope, State.safeWrites_noted.ringsHomed]
  generalize hv : ((s.noted x 4).panelQuiet x.panel).containAll _ = v
  obtain ⟨_, _, hq⟩ := (s.noted x 4).panelQuiet_shape x.panel
  have hregs : v.regs = (s.noted x 4).regs := by rw [← hv, State.containAll_regs, hq]
  obtain ⟨hrec, hout, hpark⟩ := State.contained_of (u := v.holdFaulted x.panel) (rings := s.ringsHomed x.panel) (by omega) hregs fun r hr =>
    State.Parked.of_qps (s := v) (hv ▸ State.parked_containAll (List.mem_append_left _ hr)) rfl
  refine ⟨hrec, ?_, hout, hpark⟩
  obtain ⟨_, _, _, ht⟩ := (v.holdFaulted x.panel).faultOut.containing_shape
  have hheld : (v.holdFaulted x.panel).faultOut.containing.safe.panelHeld.contains x.panel = true := by
    rw [ht]
    exact State.mem_panelHeld_holdFaulted
  rw [State.panelHeld, hheld, Bool.or_true, Bool.true_or]

theorem completes_fault_transfer (hcls : x.cls = 1) (hscope : x.scope = .transfer k) (hx : s.xfer? k = none) : Completes (.dangerousFaultDetect x) s fun t =>
    s.Recorded 1 t ∧ t.sys.faultOut = s.sys.faultOut ∧ t.qps = s.qps ∧ t.shut = s.shut := by
  refine ⟨_, exec_dangerousFaultDetect hup hfit, ?_⟩
  obtain ⟨⟨_, _, _, hn⟩, -⟩ := State.safeWrites_noted (s := s) (x := x) (cls := 1)
  have hx' : (s.noted x 1).xfer? k = none := by
    rw [hn]
    exact hx
  rw [State.detect_contained hrun hcalm (by omega), if_neg (by omega), hcls, State.containFault_transfer hcls hscope hx']
  obtain ⟨_, _, _, ht⟩ := (s.noted x 1).containing_shape
  rw [ht]
  refine ⟨(State.recorded_noted (x := x) (by omega)).of_regs rfl, ?_⟩
  rw [hn]
  exact ⟨rfl, rfl, rfl⟩

end

theorem completes_sequencerWatchdogExpiry (hup : s.up = true) (hrun : s.sys.phase = .running) (hcalm : s.safe.contUntil ≤ s.now) (hp : p < 4)
    (hsq : sq ≠ .tape) : Completes (.sequencerWatchdogExpiry sq p) s fun t =>
      s.Recorded 3 t ∧ t.bit R.SAFE_STATUS.WDOG_EVT = true ∧ t.sys.faultOut = true ∧ ∀ r, r ∈ s.ringsHomed p → t.Parked r := by
  have hscope : (seqFault sq p).scope = .panel p := by cases sq with
    | tape => exact absurd rfl hsq
    | queue | shuttle | selvedge => rfl
  have hexec : exec (.sequencerWatchdogExpiry sq p) s = .next (s.detect (seqFault sq p)) := by
    change execSequencerWatchdogExpiry sq p s = _
    rw [execSequencerWatchdogExpiry, State.whenUp_of_up hup, if_pos hp]
  refine ⟨_, hexec, ?_⟩
  rw [State.detect_dangerous hrun hcalm (by decide : 2 ≤ 3) (by decide : (3 : Nat) ≠ 5), State.containFault_block rfl hscope, State.safeWrites_noted.ringsHomed]
  generalize hqs : s.ringsHomed (seqFault sq p).panel ++ _ = qs
  obtain ⟨hrec, hout, hpark⟩ := State.contained_of (cls := 3) (x := seqFault sq p) (rings := s.ringsHomed p) (by omega) State.containAll_regs
    fun r hr => State.parked_containAll (qs := qs) (hqs ▸ List.mem_append_left _ hr)
  refine ⟨hrec, ?_, hout, hpark⟩
  rw [← State.bit_noted_wdog (s := s) (x := seqFault sq p) (cls := 3) rfl]
  exact State.bit_of_fld (State.fld_of_reg (State.reg_of_regs (State.faultOut_containing_regs.trans State.containAll_regs)))

theorem exec_voltageMonitorTrip (hup : s.up = true) : exec (.voltageMonitorTrip rail) s =
    .next (if rail < 8 then s.detect { mech := 9, cls := 5, panel := 0, tile := 9, unit := rail, detail := 0, scope := .device } else s) := by
  change execVoltageMonitorTrip rail s = _
  rw [execVoltageMonitorTrip, State.whenUp_of_up hup]

theorem exec_deviceWatchdogExpiry (hup : s.up = true) :
    exec .deviceWatchdogExpiry s = .next (if s.bit R.SAFE_WDOG.ENABLE then s.faultOut.warmReset .wdog else s) := by
  change execDeviceWatchdogExpiry s = _
  rw [execDeviceWatchdogExpiry, State.whenUp_of_up hup]

theorem exec_safeWdogKick (hup : s.up = true) (ho : s.opens who R.SAFE_WDOG.off) : exec (.safeWdogKick who d) s = .next (s.wdogWrite d) := by
  change execSafeWdogKick who d s = _
  rw [execSafeWdogKick, State.whenUp_of_up hup, State.regTry_of_opens ho]

theorem exec_safeWdogEnable (hup : s.up = true) (ho : s.opens who R.SAFE_WDOG.off) : exec (.safeWdogEnable who d) s = .next (s.wdogWrite d) := by
  change execSafeWdogEnable who d s = _
  rw [execSafeWdogEnable, State.whenUp_of_up hup, State.regTry_of_opens ho]

theorem exec_safeInject (hup : s.up = true) (ho : s.opens who R.SAFE_INJECT.off) : exec (.safeInject who d) s = .next (s.injectWrite d) := by
  change execSafeInject who d s = _
  rw [execSafeInject, State.whenUp_of_up hup, State.regTry_of_opens ho]

/-! ### The two registers -/

theorem State.wdogWrite_off (hen : s.bit R.SAFE_WDOG.ENABLE = false) (hd : d.getLsbD 36 = false) :
    s.wdogWrite d = s.setFld R.SAFE_WDOG.PERIOD_MS (d.toNat / 65536 % 2 ^ 20) := by
  simp only [State.wdogWrite, hen, getBit, hd, Bool.false_eq_true, if_false, getBits_eq_div_mod, Nat.reducePow]

theorem State.wdogWrite_on (hen : s.bit R.SAFE_WDOG.ENABLE = true) (hd : d.getLsbD 36 = false) : s.wdogWrite d = s := by
  simp only [State.wdogWrite, hen, getBit, hd, Bool.false_eq_true, if_false, if_true]

theorem State.wdogWrite_enables (hd : d.getLsbD 36 = true) : (s.wdogWrite d).bit R.SAFE_WDOG.ENABLE = true ∧
    (s.bit R.SAFE_WDOG.ENABLE = true → (s.wdogWrite d).fld R.SAFE_WDOG.PERIOD_MS = s.fld R.SAFE_WDOG.PERIOD_MS) := by
  simp only [State.wdogWrite, getBit, hd, if_true]
  refine ⟨State.bit_setBit_self (by decide) (by decide), fun hen => ?_⟩
  rw [if_pos hen]
  exact State.fld_setFld_disj (by decide) (by decide)

/-- SAFE_INJECT with the three fields of a write. -/
def State.injectFlds (s : State) (d : W64) : State :=
  ((s.setFld R.SAFE_INJECT.MECH (getBits d 0 4)).setFld R.SAFE_INJECT.PANEL (getBits d 4 2)).setFld R.SAFE_INJECT.TILE (getBits d 6 4)

theorem State.fld_injectFlds : (s.injectFlds d).fld R.SAFE_INJECT.MECH = d.toNat % 16 := by
  rw [State.injectFlds, State.fld_setFld_disj (by decide) (by decide), State.fld_setFld_disj (by decide) (by decide), State.fld_setFld_self (by decide),
    getBits_low]
  exact Nat.mod_mod ..

theorem State.injectWrite_go (hd : d.getLsbD 10 = true) (h1 : 1 ≤ d.toNat % 16) (h10 : d.toNat % 16 ≤ 10) (hnone : s.safe.inject = none) :
    s.injectWrite d = { (s.injectFlds d).setBit R.SAFE_INJECT.GO with safe := { s.safe with inject := some (d.toNat % 16, getBits d 4 2, getBits d 6 4) } } := by
  have hm : getBits d 0 4 = d.toNat % 16 := getBits_low d 4
  have hc : (getBit d 10 && decide (1 ≤ getBits d 0 4) && decide (getBits d 0 4 ≤ 10) && (s.injectFlds d).safe.inject.isNone) = true := by
    simp [getBit, hd, hm, h1, h10, State.injectFlds, hnone]
  rw [← hm]
  exact if_pos hc

theorem State.injectWrite_idle (hd : d.getLsbD 10 = false) : s.injectWrite d = s.injectFlds d := by
  simp only [State.injectWrite, getBit, hd, Bool.false_and, Bool.false_eq_true, if_false, State.injectFlds]

end

/-- Settles O42: the scopes and the resets from `detect_contained` and `detect_resets`, then the writes of the two registers. -/
theorem faultHandling : Obligations.FaultHandling := by
  intro s x q f p rail k sq who d hup hrun calm recorded parked blank
  refine ⟨completes_correctedError hup, completes_fault_qp hup hrun, completes_fault_function hup hrun, completes_fault_panel hup hrun,
    completes_fault_transfer hup hrun, fun _ hfit hcls hmech => completes_fault_wiped hup hrun hfit (.inr ⟨hcls, hmech⟩),
    fun hagain hfit => completes_fault_wiped hup hrun hfit (.inl hagain), exec_dangerousFaultDetect_misfit hup,
    completes_sequencerWatchdogExpiry hup hrun, fun hrail => ?trip, fun hrail => ?exempt, fun hen => ?expiry, fun hen => ?disabled,
    fun ho hen hd => ?period, fun ho hen hd => ?kick, fun ho hd => ⟨_, exec_safeWdogEnable hup ho, State.wdogWrite_enables hd⟩,
    fun ho hd h1 h10 hnone => ?inject, fun ho hd => ?target⟩
  case trip =>
    refine ⟨_, exec_voltageMonitorTrip hup, ?_⟩
    rw [if_pos hrail]
    exact State.wiped_detect hup hrun (.inr ⟨rfl, Nat.succ_ne_self 8⟩)
  case exempt => rw [exec_voltageMonitorTrip hup, if_neg (by omega)]
  case expiry =>
    refine ⟨_, exec_deviceWatchdogExpiry hup, ?_⟩
    rw [if_pos hen]
    refine ⟨State.wiped_warmReset (t := s.faultOut) hup rfl .wdog, fun hs => ?_⟩
    obtain ⟨-, -, hcause⟩ := State.restarted_warmReset (s := s.faultOut) hup hs .wdog
    exact hcause
  case disabled => rw [exec_deviceWatchdogExpiry hup, if_neg (by simp [hen])]
  case period => rw [exec_safeWdogKick hup ho, State.wdogWrite_off hen hd]
  case kick => rw [exec_safeWdogKick hup ho, State.wdogWrite_on hen hd]
  case inject =>
    refine ⟨_, exec_safeInject hup ho, ?_⟩
    rw [State.injectWrite_go hd h1 h10 hnone]
    refine ⟨rfl, State.bit_setBit_self (s := s.injectFlds d) (by decide) (by decide), ?_⟩
    exact (State.fld_setFld_disj (s := s.injectFlds d) (by decide) (by decide)).trans State.fld_injectFlds
  case target =>
    refine ⟨_, exec_safeInject hup ho, ?_⟩
    rw [State.injectWrite_idle hd]
    exact ⟨rfl, State.fld_injectFlds⟩

end Sys2Proof.Machine
end

section
/-!
What a twin's dealings with its peer and its hosts leave alone (`TwinKept`): flits that go out, replies, events and the adoption of rings change neither the
sideband outputs nor memory, and no register but ONF_BASTE_STAT. Shared by the statements about chapter 09.
-/

namespace Sys2Proof.Machine

/-- The link's state without its traffic: the retry buffer, the journal's acknowledgements, the shadows, the rings lent and a hand-off of this twin. -/
def GalvState.settled (g : GalvState) : GalvState :=
  { g with txSeq := 0, nak := false, unacked := [], jacked := 0, shadows := [], lent := [], handoff := none }

/-- `t` is `s` but for such dealings. -/
structure State.TwinKept (s t : State) : Prop where
  sys : t.sys = s.sys
  mem : t.mem = s.mem
  reg : ∀ off, off ≠ R.ONF_BASTE_STAT.off → t.reg off = s.reg off
  galv : t.galv.settled = s.galv.settled

namespace State.TwinKept

variable {s t : State} {f q : Nat}

theorem refl : s.TwinKept s := ⟨rfl, rfl, fun _ _ => rfl, rfl⟩

/-- Other parts of the state, and the traffic of the link, take any value. -/
theorem upd (h : s.TwinKept t) {freeCtr : Nat} {out : List OutEvent} {onf : OnfState} {qps : SMap QpCtx} {fns : SMap FnCtx} {qf : QfabState}
    {shut : ShuttleState} {selv : SelvState} {tape : TapeState} {pow : PowState} {txSeq jacked : Nat} {nak : Bool}
    {unacked : List (Nat × Nat × FlitPayload)} {shadows : SMap ShadowQp} {lent : List Nat} {handoff : Option Handoff} :
    s.TwinKept { t with
      freeCtr, out, onf, qps, fns, qf, shut, selv, tape, pow, galv := { t.galv with txSeq, jacked, nak, unacked, shadows, lent, handoff } } :=
  ⟨h.sys, h.mem, h.reg, h.galv⟩

theorem ite {u : State} {c : Prop} [Decidable c] (ht : s.TwinKept t) (hu : s.TwinKept u) : s.TwinKept (if c then t else u) := by
  split
  · exact ht
  · exact hu

theorem foldl {α : Type} {k : State → α → State} {l : List α} (h : s.TwinKept t) (hk : ∀ u a, s.TwinKept u → s.TwinKept (k u a)) :
    s.TwinKept (l.foldl k t) := by
  induction l generalizing t with
  | nil => exact h
  | cons a l ih => exact ih (hk t a h)

/-! ### What is read afterwards -/

theorem fld (h : s.TwinKept t) {fd : Fld} (hf : fd.off ≠ R.ONF_BASTE_STAT.off) : t.fld fd = s.fld fd := State.fld_of_reg (h.reg _ hf)

theorem bit (h : s.TwinKept t) {fd : Fld} (hf : fd.off ≠ R.ONF_BASTE_STAT.off) : t.bit fd = s.bit fd := State.bit_of_fld (h.fld hf)

theorem peer (h : s.TwinKept t) : t.galv.peer = s.galv.peer := (congrArg GalvState.peer h.galv :)

theorem settling (h : s.TwinKept t) : t.galv.settling = s.galv.settling := (congrArg GalvState.settling h.galv :)

theorem holding (h : s.TwinKept t) : t.galv.holding = s.galv.holding := (congrArg GalvState.holding h.galv :)

theorem heartbeat (h : s.TwinKept t) : t.galv.heartbeat = s.galv.heartbeat := (congrArg GalvState.heartbeat h.galv :)

theorem pairing (h : s.TwinKept t) : t.galv.pairing = s.galv.pairing := (congrArg GalvState.pairing h.galv :)

theorem releasing (h : s.TwinKept t) : t.galv.releasing = s.galv.releasing := (congrArg GalvState.releasing h.galv :)

/-! ### Flits and what is mirrored by them -/

theorem emit (h : s.TwinKept t) {e : OutEvent} : s.TwinKept (t.emit e) := h.upd

theorem sendFlit (h : s.TwinKept t) {p : FlitPayload} : s.TwinKept (t.sendFlit p) := h.upd

theorem sendFlits (h : s.TwinKept t) {l : List FlitPayload} : s.TwinKept (t.sendFlits l) := by
  induction l generalizing t with
  | nil => exact h
  | cons p l ih => exact ih h.sendFlit

theorem setFn (h : s.TwinKept t) {c : FnCtx} : s.TwinKept (t.setFn f c) := .ite h.upd.sendFlits h.upd

theorem setQp (h : s.TwinKept t) {c : QpCtx} : s.TwinKept (t.setQp q c) := .ite h.upd.sendFlits h.upd

theorem setDlog (h : s.TwinKept t) {v : Nat} {d : DirtyLog} : s.TwinKept (t.setDlog v d) := .ite h.upd.sendFlit h.upd

/-! ### Replies (R40, R58) -/

theorem msixOf (h : s.TwinKept t) {key vec : Nat} : s.TwinKept (t.msixOf key f vec) := .ite (.ite h.setFn h.emit) h

theorem mbxSignal (h : s.TwinKept t) {ch : Nat} : s.TwinKept (t.mbxSignal ch) := .ite h.msixOf h

theorem send (h : s.TwinKept t) {ch : Nat} {p : OnfPkt} : s.TwinKept (t.send ch p) := .ite (.ite h.upd h.upd.emit.mbxSignal) h.emit

theorem sendAll (h : s.TwinKept t) {ch : Nat} {l : List OnfPkt} : s.TwinKept (t.sendAll ch l) := by
  induction l generalizing t with
  | nil => exact h
  | cons p l ih => exact ih h.send

theorem reply (h : s.TwinKept t) {r : OnfReq} {op status : Nat} {params : List Byte} : s.TwinKept (t.reply r op status params) := .ite h.upd h.sendAll

theorem ctrAck (h : s.TwinKept t) : s.TwinKept t.ctrAck := by
  unfold State.ctrAck
  split
  · exact h
  · dsimp only
    split
    · exact h.upd.sendAll
    · exact h.upd

theorem ctrAckAll (h : s.TwinKept t) {n : Nat} : s.TwinKept (State.ctrAckAll n t) := by
  induction n generalizing t with
  | zero => exact h
  | succ n ih => exact ih h.ctrAck

/-! ### Sessions -/

theorem setSession (h : s.TwinKept t) {x : Option Session} : s.TwinKept (t.setSession x) := h.upd

theorem showSession (h : s.TwinKept t) : s.TwinKept t.showSession := by
  obtain ⟨_, he⟩ := t.sameButRegs_showSession
  refine ⟨?_, ?_, fun off hoff => (State.reg_showSession_ne hoff).trans (h.reg off hoff), ?_⟩
  · rw [he]
    exact h.sys
  · rw [he]
    exact h.mem
  · rw [he]
    exact h.galv

theorem unstage (h : s.TwinKept t) {w : TwinWait} : s.TwinKept (t.unstage w) := by
  unfold State.unstage
  split
  · exact h.setSession.showSession
  · exact h

/-- A session that stays or ends. -/
theorem mirrorDrop (h : s.TwinKept t) : s.TwinKept t.mirrorDrop := by
  unfold State.mirrorDrop
  split
  · exact .ite h.setSession h
  · exact h

theorem sessionLost (h : s.TwinKept t) : s.TwinKept t.sessionLost := by
  unfold State.sessionLost
  split
  · exact .ite h.setSession h
  · exact h

/-! ### Nothing waits for the peer -/

theorem waitsFail (h : s.TwinKept t) {ws : List TwinWait} : s.TwinKept (t.waitsFail ws) := by
  induction ws generalizing t with
  | nil => exact h
  | cons w ws ih => exact ih (TwinKept.ite h h.unstage).reply

theorem waitsEnd (h : s.TwinKept t) : s.TwinKept t.waitsEnd := h.upd.waitsFail.upd.ctrAckAll

theorem handoffFail (h : s.TwinKept t) : s.TwinKept t.handoffFail := by
  unfold State.handoffFail
  split
  · exact h.upd.reply
  · exact h

/-! ### Quads and functions -/

theorem setUnit (h : s.TwinKept t) {u : Nat} {x : UnitSt} : s.TwinKept (t.setUnit u x) := h.upd

theorem quadsAuto (h : s.TwinKept t) : s.TwinKept t.quadsAuto := h.foldl fun _ _ hu => .ite (.ite hu hu.setUnit) (.ite hu hu.setUnit)

theorem refreshPark (h : s.TwinKept t) : s.TwinKept (t.refreshPark q) := .ite h (.ite h.setQp (.ite h.setQp h))

theorem finish (h : s.TwinKept t) {r : Req} {status result usedLen : Nat} : s.TwinKept (t.finish r status result usedLen) := h.upd.setQp.refreshPark

theorem nvmeEvent (h : s.TwinKept t) {ev : Nat} : s.TwinKept (t.nvmeEvent f ev) := by
  unfold State.nvmeEvent
  dsimp only
  split
  · split
    · split
      · exact h.setFn.finish
      · exact h.setFn
    · exact h
  · exact .ite h h.setFn

theorem anaSet (h : s.TwinKept t) {st : Nat} {tell : Bool} : s.TwinKept (t.anaSet st tell) := h.foldl fun _ _ hu => .ite hu.setFn.nvmeEvent hu.setFn

theorem portsTrain (h : s.TwinKept t) : s.TwinKept t.portsTrain := h.foldl fun _ _ hu => .ite hu.emit hu

/-! ### The adoption of rings (R284, R288) -/

theorem adoptRing (h : s.TwinKept t) {k : Nat} {x : ShadowQp} : s.TwinKept (t.adoptRing k x) := .ite h.setQp (.ite h h.upd.setQp)

theorem adoptAll (h : s.TwinKept t) {sync : Bool} {m : SMap ShadowQp} : s.TwinKept (t.adoptAll sync m) := by
  induction m generalizing t with
  | nil => exact h
  | cons e m ih => exact ih (.ite h.upd.adoptRing (.ite h h.setQp))

theorem logsLost (h : s.TwinKept t) {m : SMap DirtyLog} : s.TwinKept (t.logsLost m) := by
  induction m generalizing t with
  | nil => exact h
  | cons e m ih => exact ih (.ite (.ite h.setDlog h) (.ite h.setDlog h))

theorem tapeMark (h : s.TwinKept t) {bits : Nat} : s.TwinKept (t.tapeMark bits) := h.upd

theorem sasJump (h : s.TwinKept t) : s.TwinKept t.sasJump := h.upd

end State.TwinKept

end Sys2Proof.Machine
end

section
/-!
O43. The Galvel link flit by flit, its loss and its training; TWIN_PAIR from the request (`pairAsk_asks`) to the synchronisation that ends it (`pairJoined`), and
the way back to a solo device (`goSolo`).
-/

namespace Sys2Proof.Machine

/-! ### The registers of the GALV block -/

section

variable {s : State} {f g : Fld}

theorem State.reg_galvEvt {off : Nat} : (s.galvEvt f).reg off = (s.setBit f).reg off := State.reg_of_regs (State.event_regs _ _)

theorem State.fld_galvEvt : (s.galvEvt f).fld g = (s.setBit f).fld g := State.fld_of_reg State.reg_galvEvt

theorem State.bit_galvEvt_self (hf : f.lo + f.w ≤ 64) (hw : 0 < f.w) : (s.galvEvt f).bit f = true := by
  rw [State.bit_of_fld State.fld_galvEvt, State.bit_setBit_self hf hw]

theorem State.fld_galvEvt_disj (hg : g.lo + g.w ≤ 64) (hd : g.lo + g.w ≤ f.lo ∨ f.lo + f.w ≤ g.lo) : (s.galvEvt f).fld g = s.fld g := by
  rw [State.fld_galvEvt, State.setBit, State.fld_setFld_disj hg hd]

theorem State.bit_setFld_disj {v : Nat} (hg : g.lo + g.w ≤ 64) (hd : g.lo + g.w ≤ f.lo ∨ f.lo + f.w ≤ g.lo) : (s.setFld f v).bit g = s.bit g :=
  State.bit_of_fld (State.fld_setFld_disj hg hd)

theorem State.bit_setFld_ne {v : Nat} (h : g.off ≠ f.off) : (s.setFld f v).bit g = s.bit g := State.bit_of_fld (State.fld_setFld_ne h)

end

/-! ### Flits (R259) -/

section

variable {s : State} {fl : Flit} {p : FlitPayload}

/-- A sent flit waits for its acknowledgement, in a retry buffer of 512. -/
theorem State.length_unacked_sendFlit : (s.sendFlit p).galv.unacked.length = min 512 (s.galv.unacked.length + 1) := by
  simp only [State.sendFlit, List.length_drop, List.length_append, List.length_singleton]
  omega

theorem State.resendAll_shape (s : State) (l : List (Nat × Nat × FlitPayload)) : ∃ out, s.resendAll l = { s with out } := by
  induction l generalizing s with
  | nil => exact ⟨_, rfl⟩
  | cons e l ih =>
    obtain ⟨_, h⟩ := ih (s.emit (.flit { crcOk := true, seq := e.1, ack := (s.galv.rxNext + 4095) % 4096, nak := s.galv.nak, payload := e.2.2 }))
    exact ⟨_, h⟩

/-- The state in which the next expected flit has been taken: its acknowledgement is noted, and the link shows life. -/
def State.flitTaken (s : State) (fl : Flit) : State :=
  ({ s with galv := { s.galv with rxNext := (fl.seq + 1) % 4096, nak := false, heartbeat := true } }).takeAck fl.ack

/-- A good flit that is the next expected is delivered if the twin listens to its payload. -/
theorem exec_galvelFlitReceive_inOrder (hup : s.up = true) (hlink : s.linkUp = true) (hcrc : fl.crcOk = true) (hseq : fl.seq = s.galv.rxNext)
    (hnak : fl.nak = false) : exec (.galvelFlitReceive fl) s =
      .next (if (s.flitTaken fl).hears fl.payload then (s.flitTaken fl).deliver fl.payload else s.flitTaken fl) := by
  change execGalvelFlitReceive fl s = _
  simp only [execGalvelFlitReceive, State.whenUp_of_up hup, hlink, hcrc, hseq, hnak, bne_self_eq_false, Bool.not_true, Bool.or_self, Bool.false_eq_true,
    if_false, State.flitTaken]

/-- Any other flit is NAKed; only one that passes its CRC shows life (log entry 147). -/
theorem exec_galvelFlitReceive_bad (hup : s.up = true) (hlink : s.linkUp = true) (h : fl.crcOk = false ∨ fl.seq ≠ s.galv.rxNext) :
    exec (.galvelFlitReceive fl) s = .next { s with galv := { s.galv with nak := true, heartbeat := s.galv.heartbeat || fl.crcOk } } := by
  have hbad : (!fl.crcOk || fl.seq != s.galv.rxNext) = true := by simpa using h
  change execGalvelFlitReceive fl s = _
  simp only [execGalvelFlitReceive, State.whenUp_of_up hup, hlink, hbad, Bool.not_true, Bool.false_eq_true, if_false, if_true]

theorem exec_galvelFlitReceive_down (hup : s.up = true) (hlink : s.linkUp = false) : exec (.galvelFlitReceive fl) s = .next s := by
  change execGalvelFlitReceive fl s = _
  simp only [execGalvelFlitReceive, State.whenUp_of_up hup, hlink, Bool.not_false, if_true]

/-- A twin listens to everything. -/
theorem State.hears_of_role (h : s.role ≠ 0) : s.hears p = true := by
  simp [State.hears, h]

theorem exec_heartbeatSend (hup : s.up = true) :
    exec .heartbeatSend s = .next (if s.linkUp && s.role != 0 then s.sendFlit .heartbeat else s) := by
  change execHeartbeatSend s = _
  rw [execHeartbeatSend, State.whenUp_of_up hup]

end

/-! ### The link goes down and trains again (R259, R260) -/

section

variable {s : State} {lo hi : Bool}

theorem exec_galvelAckTimeout (hup : s.up = true) : exec .galvelAckTimeout s = .next (if s.galv.unacked.isEmpty then s else s.linkDown) := by
  change execGalvelAckTimeout s = _
  rw [execGalvelAckTimeout, State.whenUp_of_up hup]

/-- A link that goes down says so and is counted; the retry buffer waits for the training. -/
theorem State.linkDown_of_up (hlink : s.linkUp = true) : s.linkDown.bit R.GALV_STATUS.LINK_UP = false ∧ s.linkDown.bit R.GALV_STATUS.LINK_EVT = true ∧
    s.linkDown.fld R.GALV_LINKCNT.DOWNS = min (s.fld R.GALV_LINKCNT.DOWNS + 1) (2 ^ R.GALV_LINKCNT.DOWNS.w - 1) ∧
    s.linkDown.galv.unacked = s.galv.unacked := by
  rw [State.linkDown, if_pos hlink]
  refine ⟨?down, State.bit_galvEvt_self (by decide) (by decide), ?count, by simp⟩
  case down =>
    rw [State.bit_of_fld (State.fld_galvEvt_disj (by decide) (by decide)), State.bump, State.bit_setFld_ne (by decide),
      State.bit_setFld_disj (by decide) (by decide), State.bit_clrBit_self (by decide)]
  case count =>
    rw [State.fld_galvEvt, State.setBit, State.fld_setFld_ne (by decide), State.fld_bump_self (by decide), State.fld_setFld_ne (by decide), State.clrBit,
      State.fld_setFld_ne (by decide)]

theorem State.quadsAuto_shape (s : State) : ∃ pow, s.quadsAuto = { s with pow } := by
  have hquad (t : State) (u : Nat) : ∃ pow, t.quadAuto u = { t with pow } := by
    unfold State.quadAuto
    dsimp only
    split
    · split <;> exact ⟨_, rfl⟩
    · split <;> exact ⟨_, rfl⟩
  unfold State.quadsAuto
  generalize (List.range 32).map (20 + ·) = us
  induction us generalizing s with
  | nil => exact ⟨_, rfl⟩
  | cons u us ih =>
    obtain ⟨pow, h⟩ := hquad s u
    rw [List.foldl_cons, h]
    exact ih { s with pow }

theorem State.reg_quadsAuto {off : Nat} : s.quadsAuto.reg off = s.reg off := by
  obtain ⟨_, h⟩ := s.quadsAuto_shape
  rw [h]
  rfl

theorem State.fld_quadsAuto {f : Fld} : s.quadsAuto.fld f = s.fld f := State.fld_of_reg State.reg_quadsAuto

/-- A link that has trained on some lanes is up, says so, and sends every outstanding flit again. -/
theorem completes_galvelLinkTrained (hup : s.up = true) (hlink : s.linkUp = false) (h : lo = true ∨ hi = true) :
    Completes (.galvelLinkTrained lo hi) s fun t => t.bit R.GALV_STATUS.LINK_UP = true ∧ t.fld R.GALV_STATUS.WIDTH = (if lo && hi then 2 else 1) ∧
      t.bit R.GALV_STATUS.LINK_EVT = true ∧ t.galv.unacked.length = s.galv.unacked.length := by
  have hlanes : (s.linkUp || !(lo || hi)) = false := by obtain rfl | rfl := h <;> simp [hlink]
  let v := ((s.setBit R.GALV_STATUS.LINK_UP).setFld R.GALV_STATUS.WIDTH (if lo && hi then 2 else 1)).galvEvt R.GALV_STATUS.LINK_EVT
  let l := v.galv.unacked.map fun (e : Nat × Nat × FlitPayload) => (e.1, 1, e.2.2)
  have hexec : exec (.galvelLinkTrained lo hi) s = .next (({ v with galv := { v.galv with unacked := l } }).resendAll l).quadsAuto := by
    change execGalvelLinkTrained lo hi s = _
    rw [execGalvelLinkTrained, State.whenUp_of_up hup, hlanes]
    rfl
  obtain ⟨_, hr⟩ := State.resendAll_shape { v with galv := { v.galv with unacked := l } } l
  obtain ⟨_, hq⟩ := (({ v with galv := { v.galv with unacked := l } } : State).resendAll l).quadsAuto_shape
  refine ⟨_, hexec, ?_⟩
  rw [hq, hr]
  refine ⟨?up, ?width, State.bit_galvEvt_self (by decide) (by decide), ?length⟩
  case up =>
    change v.bit R.GALV_STATUS.LINK_UP = true
    rw [State.bit_of_fld (State.fld_galvEvt_disj (by decide) (by decide)), State.bit_setFld_disj (by decide) (by decide),
      State.bit_setBit_self (by decide) (by decide)]
  case width =>
    change v.fld R.GALV_STATUS.WIDTH = _
    rw [State.fld_galvEvt_disj (by decide) (by decide), State.fld_setFld_self (by decide)]
    split <;> rfl
  case length =>
    change l.length = _
    simp only [l, List.length_map, v, State.galvEvt_galv, State.setFld_galv, State.setBit_galv]

theorem exec_galvelLinkTrained_none (hup : s.up = true) : exec (.galvelLinkTrained false false) s = .next s := by
  change execGalvelLinkTrained false false s = _
  rw [execGalvelLinkTrained, State.whenUp_of_up hup, if_pos (by simp)]

end

/-! ### Roles -/

section

variable {s : State} {f : Fld} {r : Nat}

theorem State.fld_setRole_disj (hf : f.lo + f.w ≤ 64) (hd : R.GALV_STATUS.ROLE.lo + R.GALV_STATUS.ROLE.w ≤ f.lo) : (s.setRole r).fld f = s.fld f := by
  rw [State.setRole, State.fld_quadsAuto, State.fld_setFld_disj hf (.inr hd)]

theorem State.role_setRole (h : r < 4) : (s.setRole r).role = r := by
  rw [State.role, State.setRole, State.fld_quadsAuto, State.fld_setFld_self (by decide)]
  exact Nat.mod_eq_of_lt h

theorem State.reg_setRole_ne {off : Nat} (h : off ≠ R.GALV_STATUS.off) : (s.setRole r).reg off = s.reg off := by
  rw [State.setRole, State.reg_quadsAuto, State.reg_setFld_ne h]

theorem State.galv_setRole : (s.setRole r).galv = s.galv := by
  obtain ⟨_, hq⟩ := (s.setFld R.GALV_STATUS.ROLE r).quadsAuto_shape
  rw [State.setRole, hq]
  rfl

theorem State.sys_setRole : (s.setRole r).sys = s.sys := by
  obtain ⟨_, hq⟩ := (s.setFld R.GALV_STATUS.ROLE r).quadsAuto_shape
  rw [State.setRole, hq]
  rfl

theorem State.mem_setRole : (s.setRole r).mem = s.mem := by
  obtain ⟨_, hq⟩ := (s.setFld R.GALV_STATUS.ROLE r).quadsAuto_shape
  rw [State.setRole, hq]
  rfl

/-- A twin that goes solo forgets its peer. -/
theorem State.goSolo_solo (s : State) : s.goSolo.role = 0 ∧ s.goSolo.sync = false ∧ s.goSolo.galv.peer = .none ∧ s.goSolo.reg R.GALV_PEER.off = 0 := by
  unfold State.goSolo
  extract_lets +onlyGivenNames s1 s2 s3 g s4
  have hreg {off : Nat} (hfeat : off ≠ R.GALV_FEAT_COMMON.off) (hver : off ≠ R.GALV_VER.off) : s3.reg off = s1.reg off := by
    rw [State.reg_setReg_ne hfeat, State.reg_setFld_ne hver, State.reg_setFld_ne hver]
  have h4 {off : Nat} : s4.reg off = s3.reg off := State.reg_of_regs rfl
  refine ⟨State.role_setRole (by decide), ?sync, ?peer, ?reg⟩
  case sync =>
    rw [State.sync, State.bit_of_fld (State.fld_setRole_disj (by decide) (by decide)), State.bit_of_fld (State.fld_of_reg (h4.trans (hreg (by decide) (by decide)))),
      State.bit_of_fld (State.fld_setReg_ne (by decide)), State.bit_clrBit_self (by decide)]
  case peer => rw [State.galv_setRole]
  case reg => rw [State.reg_setRole_ne (by decide), h4, hreg (by decide) (by decide), State.reg_setReg_self]

end

/-! ### TWIN_PAIR (R268, R269, Table 09-5) -/

section

variable {s : State} {r : OnfReq} {action role : Nat} {serial pairId : W64} {roleOk : State → Bool} {p : Pairing}

theorem State.foldl_croakOut_shape (s : State) (us : List Nat) : ∃ out, us.foldl State.croakOut s = { s with out } := by
  induction us generalizing s with
  | nil => exact ⟨_, rfl⟩
  | cons u us ih =>
    rw [List.foldl_cons]
    unfold State.croakOut
    split
    · obtain ⟨out, h⟩ := ih (s.emit (.croak u))
      exact ⟨out, h⟩
    · exact ih s

/-- While the peer has said nothing, nothing is judged. -/
theorem State.pairJudge_of_silent (h : s.galv.peerInfo = none) : s.pairJudge = s := by
  unfold State.pairJudge
  rw [h]
  split
  · next hnone => exact absurd hnone nofun
  · rfl

/-- A TWIN_PAIR is under way. -/
def State.withPairing (s : State) (p : Pairing) : State := { s with galv := { s.galv with pairing := some p } }

/-- A twin asks its peer for a pairing: its four Galvel quads send the Croak pattern, and it says what it is. -/
def State.asksPeer (s : State) (p : Pairing) : State :=
  (((List.range 4).map fun k => 27 + 8 * k).foldl State.croakOut (s.withPairing p)).sendFlit (.pairAnswer ((s.withPairing p).ownInfo p))

theorem State.asksPeer_spec (s : State) (p : Pairing) : (s.asksPeer p).galv.pairing = some p ∧ (s.asksPeer p).galv.peerInfo = s.galv.peerInfo ∧
    (s.asksPeer p).role = s.role ∧ (s.asksPeer p).galv.unacked.length = min 512 (s.galv.unacked.length + 1) ∧ (s.asksPeer p).mem = s.mem := by
  unfold State.asksPeer
  obtain ⟨_, hc⟩ := State.foldl_croakOut_shape (s.withPairing p) ((List.range 4).map fun k => 27 + 8 * k)
  rw [hc]
  exact ⟨rfl, rfl, rfl, State.length_unacked_sendFlit, rfl⟩

/-- A request that meets no refusal asks the peer; while the peer has said nothing, it waits (log entry 148). -/
theorem State.pairAsk_asks (hadm : s.admits r 0x0501 = true) (hrole : role = 1 ∨ role = 2) (hpair : (s.taken r).galv.pairing = none)
    (hinfo : (s.taken r).galv.peerInfo = none) (hses : (s.taken r).openSession = none) (hidle : role = 2 → (s.taken r).qpsIdle = true)
    (hok : roleOk (s.taken r) = true) : s.pairAsk r action role serial pairId roleOk =
      (s.taken r).asksPeer { req := r, action := action, role := role, serial := serial, pairId := pairId, accepted := false } := by
  have hr : (role == 1 || role == 2) = true := by simpa using hrole
  have hbusy : (role == 2 && !(s.taken r).qpsIdle) = false := by
    obtain rfl | rfl := hrole
    · rfl
    · simp [hidle rfl]
  rw [State.pairAsk, State.command_admits hadm]
  simp only [hr, hpair, hok, hses, hbusy, Option.isSome_none, Bool.not_true, Bool.and_false, Bool.false_eq_true, if_false]
  refine State.pairJudge_of_silent (s := (s.taken r).asksPeer _) ?_
  obtain ⟨-, hsame, -⟩ := (s.taken r).asksPeer_spec
    { req := r, action := action, role := role, serial := serial, pairId := pairId, accepted := false }
  rw [hsame, hinfo]

theorem State.pairAsk_wrongRole (hadm : s.admits r 0x0501 = true) (hrole : role = 1 ∨ role = 2) (hpair : (s.taken r).galv.pairing = none)
    (hok : roleOk (s.taken r) = false) : s.pairAsk r action role serial pairId roleOk = (s.taken r).reply r 0x0501 E.TWIN_ROLE [] := by
  have hr : (role == 1 || role == 2) = true := by simpa using hrole
  rw [State.pairAsk, State.command_admits hadm]
  simp only [hr, hpair, hok, Option.isSome_none, Bool.not_true, Bool.not_false, Bool.false_eq_true, if_false, if_true]

theorem exec_twinPairPair : exec (.twinPairPair r role serial pairId) s = .next (s.pairAsk r 0 role serial pairId fun s => s.role == 0) := rfl

theorem exec_twinPairRejoin : exec (.twinPairRejoin r role serial pairId) s = .next (s.pairAsk r 2 role serial pairId fun s =>
    if role = 1 then s.role == 1 && !s.sync && s.galv.peer != .paired else s.role == 0 || s.role == 3) := rfl

theorem exec_twinPairUnpair (hadm : s.admits r 0x0501 = true) : exec (.twinPairUnpair r) s = .next (
    if (s.taken r).role != 1 then (s.taken r).reply r 0x0501 E.TWIN_ROLE []
    else (((s.taken r).sendFlit .unpair).goSolo).reply r 0x0501 0 []) := by
  change execTwinPairUnpair r s = _
  rw [execTwinPairUnpair, State.command_admits hadm]

theorem exec_twinPairTimeout_waiting (hup : s.up = true) (hpair : s.galv.pairing = some p) (hacc : p.accepted = false) :
    exec .twinPairTimeout s = .next (s.pairFail p E.TIMEOUT) := by
  change execTwinPairTimeout s = _
  simp only [execTwinPairTimeout, State.whenUp_of_up hup, hpair, hacc, Bool.false_eq_true, if_false]

theorem exec_twinPairTimeout_idle (hup : s.up = true) (hpair : s.galv.pairing = none) : exec .twinPairTimeout s = .next s := by
  change execTwinPairTimeout s = _
  simp only [execTwinPairTimeout, State.whenUp_of_up hup, hpair]

end

/-! ### Synchronisation (R270) -/

section

variable {s t : State} {p : Pairing} {i : PairInfo}

/-- A rejoining lead drives TWIN_FENCE_OUT low (R273). -/
def State.fenceLow (s : State) (p : Pairing) : State :=
  if p.role = 1 && p.action = 2 then ({ s with sys := { s.sys with fenceOut := false } }).clrBit R.GALV_STATUS.FENCE_OUT else s

theorem State.galv_fenceLow : (s.fenceLow p).galv = s.galv := by
  unfold State.fenceLow
  split <;> rfl

theorem State.reg_fenceLow_ne {off : Nat} (h : off ≠ R.GALV_STATUS.off) : (s.fenceLow p).reg off = s.reg off := by
  unfold State.fenceLow
  split
  · exact State.reg_setFld_ne h
  · rfl

theorem State.role_fenceLow : (s.fenceLow p).role = s.role := by
  unfold State.fenceLow
  split
  · exact State.fld_setFld_disj (by decide) (by decide)
  · rfl

/-- What a completed pairing leaves of a twin that was not fenced, before the copy goes out: its role, its functions' ANA state, and the peer's pins
taken as good (log entry 149). -/
def State.pairJoined (s : State) (p : Pairing) (i : PairInfo) : State :=
  (((((s.peerKnown p i).setRole p.role).anaSet (if p.role = 1 then 1 else 2) false).fenceLow p).clrBit R.GALV_STATUS.FAULT_IN).setBit R.GALV_STATUS.ALIVE_OK

/-- The registers that describe the peer take what it said. -/
def State.peerRegs (s : State) (i : PairInfo) : State :=
  (((s.setReg R.GALV_PEER.off i.serial).setReg R.GALV_FEAT_COMMON.off (s.reg R.GALV_FEAT_LOCAL.off &&& i.feat)).setFld R.GALV_VER.PEER_SCHEMA i.schema).setFld
    R.GALV_VER.USED_MINOR (min (s.fld R.GALV_VER.LOCAL_SCHEMA % 256) (i.schema % 256))

theorem State.reg_peerKnown {off : Nat} : (s.peerKnown p i).reg off = (s.peerRegs i).reg off := State.reg_of_regs rfl

theorem State.reg_peerKnown_peer : (s.peerKnown p i).reg R.GALV_PEER.off = i.serial := by
  rw [State.reg_peerKnown, State.peerRegs, State.reg_setFld_ne (by decide), State.reg_setFld_ne (by decide), State.reg_setReg_ne (by decide),
    State.reg_setReg_self]

theorem State.reg_peerKnown_status : (s.peerKnown p i).reg R.GALV_STATUS.off = s.reg R.GALV_STATUS.off := by
  rw [State.reg_peerKnown, State.peerRegs, State.reg_setFld_ne (by decide), State.reg_setFld_ne (by decide), State.reg_setReg_ne (by decide),
    State.reg_setReg_ne (by decide)]

theorem State.role_peerKnown : (s.peerKnown p i).role = s.role := State.fld_of_reg State.reg_peerKnown_status

theorem exec_twinSyncComplete_paired (hup : s.up = true) (hlink : s.linkUp = true) (hpair : s.galv.pairing = some p) (hinfo : s.galv.peerInfo = some i)
    (hacc : p.accepted = true) (hrole : s.role ≠ 3) :
    exec .twinSyncComplete s = .next (((s.pairJoined p i).synced (p.role == 1)).reply p.req 0x0501 0 []) := by
  have hne : (s.peerKnown p i).role ≠ 3 := by rwa [State.role_peerKnown]
  change execTwinSyncComplete s = _
  simp only [execTwinSyncComplete, State.whenUp_of_up hup, hlink, hpair, hinfo, hacc, hne, Bool.not_true, Bool.false_eq_true, if_false]
  rfl

theorem exec_twinSyncComplete_down (hup : s.up = true) (hlink : s.linkUp = false) : exec .twinSyncComplete s = .next s := by
  change execTwinSyncComplete s = _
  simp only [execTwinSyncComplete, State.whenUp_of_up hup, hlink, Bool.not_false, if_true]

/-- The twin that has joined has the role it asked for, knows its peer, and takes it to be alive. -/
theorem State.pairJoined_pair (hrole : p.role = 1 ∨ p.role = 2) : (s.pairJoined p i).role = p.role ∧ (s.pairJoined p i).galv.peer = .paired ∧
    (s.pairJoined p i).galv.pairing = none ∧ (s.pairJoined p i).reg R.GALV_PEER.off = i.serial ∧ (s.pairJoined p i).bit R.GALV_STATUS.ALIVE_OK = true := by
  have hkept : ((s.peerKnown p i).setRole p.role).TwinKept _ := State.TwinKept.refl.anaSet (st := if p.role = 1 then 1 else 2) (tell := false)
  refine ⟨?role, ?peer, ?pairing, ?serial, State.bit_setBit_self (by decide) (by decide)⟩
  case role =>
    rw [State.role, State.pairJoined, State.setBit, State.fld_setFld_disj (by decide) (by decide), State.clrBit, State.fld_setFld_disj (by decide) (by decide)]
    exact (State.role_fenceLow.trans (hkept.fld (by decide))).trans (State.role_setRole (by omega))
  case peer =>
    rw [State.pairJoined, State.setBit_galv, State.clrBit_galv, State.galv_fenceLow, hkept.peer, State.galv_setRole]
    rfl
  case pairing =>
    rw [State.pairJoined, State.setBit_galv, State.clrBit_galv, State.galv_fenceLow, hkept.pairing, State.galv_setRole]
    rfl
  case serial =>
    rw [State.pairJoined, State.setBit, State.reg_setFld_ne (by decide), State.clrBit, State.reg_setFld_ne (by decide), State.reg_fenceLow_ne (by decide),
      hkept.reg _ (by decide), State.reg_setRole_ne (by decide), State.reg_peerKnown_peer]

/-- SYNC becomes 1 beside what the pairing left. -/
theorem State.synced_spec (s : State) (lead : Bool) : (s.synced lead).sync = true ∧ (s.synced lead).role = s.role ∧
    (s.synced lead).galv.peer = s.galv.peer ∧ (s.synced lead).galv.pairing = s.galv.pairing ∧ (s.synced lead).galv.heartbeat = true ∧
    (s.synced lead).reg R.GALV_PEER.off = s.reg R.GALV_PEER.off ∧ (s.synced lead).bit R.GALV_STATUS.ALIVE_OK = s.bit R.GALV_STATUS.ALIVE_OK := by
  have hkept : s.TwinKept (s.syncOut lead) := State.TwinKept.refl.sendFlits
  let u : State := { s.syncOut lead with galv := { (s.syncOut lead).galv with heartbeat := true, jacked := (s.syncOut lead).galv.jseq } }
  have hu : s.synced lead = u.setBit R.GALV_STATUS.SYNC := rfl
  rw [hu]
  refine ⟨State.bit_setBit_self (by decide) (by decide), ?role, hkept.peer, hkept.pairing, rfl, ?serial, ?alive⟩
  case role => exact (State.fld_setFld_disj (s := u) (by decide) (by decide)).trans (hkept.fld (by decide))
  case serial => exact (State.reg_setFld_ne (s := u) (by decide)).trans (hkept.reg _ (by decide))
  case alive => exact (State.bit_setFld_disj (s := u) (by decide) (by decide)).trans (hkept.bit (by decide))

end

/-- Settles O43: flits by where they stand in the sequence, the link from `linkDown_of_up` and its training, pairing from `pairAsk_asks`, and its end from
`pairJoined_pair` and `synced_spec`. -/
theorem galvelAndPairing : Obligations.GalvelAndPairing := by
  intro s fl lo hi r role serial pairId p i u got asked
  have hasks {action : Nat} {roleOk : State → Bool} (hadm : s.admits r 0x0501 = true) (hrole : role = 1 ∨ role = 2) (hpair : u.galv.pairing = none)
      (hinfo : u.galv.peerInfo = none) (hses : u.openSession = none) (hidle : role = 2 → u.qpsIdle = true) (hok : roleOk u = true) :
      asked action (s.pairAsk r action role serial pairId roleOk) := by
    rw [State.pairAsk_asks hadm hrole hpair hinfo hses hidle hok]
    obtain ⟨hp, -, hr, hlen, hmem⟩ := u.asksPeer_spec { req := r, action := action, role := role, serial := serial, pairId := pairId, accepted := false }
    exact ⟨hp, hr, hlen, hmem.trans (State.taken_mem ..)⟩
  refine ⟨fun hup hlink => ⟨fun hcrc hseq hnak hrole => ?delivered, fun hcrc hseq hnak hbeat => ?beat, exec_galvelFlitReceive_bad hup hlink,
      fun hne => ?ackTimeout, fun hnil => ?acked, fun hrole => ?sends⟩,
    fun hup hlink => ⟨exec_galvelFlitReceive_down hup hlink, ?silent⟩, completes_galvelLinkTrained, exec_galvelLinkTrained_none,
    fun hadm hrole hpair hinfo hses hidle => ⟨fun hsolo => ?pair, fun h1 hlead hsync hgone => ?rejoinLead, fun h2 hfenced => ?rejoinFenced⟩,
    fun hadm hrole hpair hne => ?refused, fun hadm hlead => ?unpair, fun hadm hne => ?notLead, exec_twinPairTimeout_waiting,
    exec_twinPairTimeout_idle, fun hup hlink hpair hinfo hacc hrole hne => ?complete,
    exec_twinSyncComplete_down⟩
  case delivered => rw [exec_galvelFlitReceive_inOrder hup hlink hcrc hseq hnak, if_pos (State.hears_of_role (s := s.flitTaken fl) hrole)]; rfl
  case beat =>
    rw [exec_galvelFlitReceive_inOrder hup hlink hcrc hseq hnak, hbeat]
    exact congrArg _ (ite_self _)
  case ackTimeout =>
    refine ⟨_, exec_galvelAckTimeout hup, ?_⟩
    rw [if_neg (by simpa using hne)]
    exact State.linkDown_of_up hlink
  case acked => rw [exec_galvelAckTimeout hup, hnil]; rfl
  case sends => rw [exec_heartbeatSend hup, if_pos (by simp [hlink, hrole])]
  case silent => rw [exec_heartbeatSend hup, if_neg (by simp [hlink])]
  case pair => exact ⟨_, exec_twinPairPair, hasks hadm hrole hpair hinfo hses hidle (by simpa using hsolo)⟩
  case rejoinLead =>
    refine ⟨_, exec_twinPairRejoin, hasks hadm hrole hpair hinfo hses hidle ?_⟩
    rw [if_pos h1]
    simp [u, hlead, hsync, hgone]
  case rejoinFenced =>
    refine ⟨_, exec_twinPairRejoin, hasks hadm hrole hpair hinfo hses hidle ?_⟩
    rw [if_neg (by omega)]
    simp [u, hfenced]
  case refused => rw [exec_twinPairPair, State.pairAsk_wrongRole hadm hrole hpair (by simpa using hne)]
  case unpair =>
    refine ⟨_, ?_, State.goSolo_solo (u.sendFlit .unpair)⟩
    rw [exec_twinPairUnpair hadm, if_neg (by simpa using hlead)]
  case notLead => rw [exec_twinPairUnpair hadm, if_pos (by simpa using hne)]
  case complete =>
    refine ⟨_, exec_twinSyncComplete_paired hup hlink hpair hinfo hacc hne, ?_⟩
    obtain ⟨hr, hpeer, hnone, hserial, halive⟩ := State.pairJoined_pair (s := s) (i := i) hrole
    obtain ⟨hsync, hr', hpeer', hnone', hbeat, hserial', halive'⟩ := (s.pairJoined p i).synced_spec (p.role == 1)
    exact ⟨hsync, hr'.trans hr, hpeer'.trans hpeer, hnone'.trans hnone, hbeat, hserial'.trans hserial, halive'.trans halive⟩

end Sys2Proof.Machine
end

section
/-!
O45. What a twin decides when its peer falls silent. A takeover fences the peer (`fencesPeer`), adopts its rings, which leaves the twin's own state
(`takeover_eq`), and reports itself (`Took`); a lost link and a goodbye only end the mirroring. A fenced twin is `inHold` until it resets or rejoins.
-/

namespace Sys2Proof.Machine

/-! ### Who may decide (R283) -/

section

variable {s : State} {f : Fld} {v : Nat}

/-- A write above the role's bits leaves the role. -/
theorem State.role_setFld (hd : R.GALV_STATUS.ROLE.lo + R.GALV_STATUS.ROLE.w ≤ f.lo) : (s.setFld f v).role = s.role :=
  State.fld_setFld_disj (by decide) (.inl hd)

theorem State.paired_setFld (hd : R.GALV_STATUS.ROLE.lo + R.GALV_STATUS.ROLE.w ≤ f.lo) : (s.setFld f v).paired = s.paired := by
  rw [State.paired, State.role_setFld hd, State.paired]

theorem State.mayTake_setFld (hd : R.GALV_STATUS.ROLE.lo + R.GALV_STATUS.ROLE.w ≤ f.lo) (hin : f.lo + f.w ≤ R.GALV_STATUS.FENCE_IN.lo) :
    (s.setFld f v).mayTake = s.mayTake := by
  rw [State.mayTake, State.paired_setFld hd, State.bit_setFld_disj (by decide) (.inr hin), State.setFld_galv, State.setFld_sys, State.mayTake]

theorem State.paired_of_mayTake (h : s.mayTake = true) : s.paired = true ∧ s.galv.peer = .paired := by
  simp only [State.mayTake, Bool.and_eq_true, beq_iff_eq] at h
  obtain ⟨⟨⟨hpaired, hpeer⟩, -⟩, -⟩ := h
  exact ⟨hpaired, hpeer⟩

theorem State.phase_ne_por (hup : s.up = true) : s.sys.phase ≠ .por := by
  intro h
  simp [State.up, h] at hup

end

/-! ### Takeover (R283 to R288) -/

section

variable {s : State} {cause : Nat}

/-- The survivor's own part of a takeover: it fences its peer, leads, and keeps the record. -/
def State.fencesPeer (s : State) (cause : Nat) : State :=
  let s0 : State := { s with sys := { s.sys with fenceOut := true } }
  let s1 := ((s0.setBit R.GALV_STATUS.FENCE_OUT).setFld R.GALV_STATUS.SYNC 0).setRole 1
  (s1.setReg R.GALV_TAKEREC0.off (BitVec.ofNat 64 (cause + 4 * b2n !s.sync))).setReg R.GALV_TAKEREC1.off (BitVec.ofNat 64 s1.now)

theorem State.sys_fencesPeer : (s.fencesPeer cause).sys = { s.sys with fenceOut := true } := by
  unfold State.fencesPeer
  dsimp only
  rw [State.setReg_sys, State.setReg_sys, State.sys_setRole, State.setFld_sys, State.setBit_sys]

theorem State.reg_fencesPeer_status : (s.fencesPeer cause).reg R.GALV_STATUS.off =
    (((s.setBit R.GALV_STATUS.FENCE_OUT).setFld R.GALV_STATUS.SYNC 0).setFld R.GALV_STATUS.ROLE 1).reg R.GALV_STATUS.off := by
  unfold State.fencesPeer
  dsimp only
  rw [State.reg_setReg_ne (by decide), State.reg_setReg_ne (by decide), State.setRole, State.reg_quadsAuto]
  rfl

theorem State.fencesPeer_status : (s.fencesPeer cause).bit R.GALV_STATUS.FENCE_OUT = true ∧ (s.fencesPeer cause).role = 1 ∧
    (s.fencesPeer cause).sync = false ∧ (s.fencesPeer cause).bit R.GALV_STATUS.ALIVE_OK = s.bit R.GALV_STATUS.ALIVE_OK := by
  have hfld {g : Fld} (hg : g.off = R.GALV_STATUS.off) :
      (s.fencesPeer cause).fld g = (((s.setBit R.GALV_STATUS.FENCE_OUT).setFld R.GALV_STATUS.SYNC 0).setFld R.GALV_STATUS.ROLE 1).fld g :=
    State.fld_of_reg (hg ▸ State.reg_fencesPeer_status)
  refine ⟨?out, ?role, ?sync, ?alive⟩
  case out =>
    rw [State.bit_of_fld (hfld rfl), State.bit_setFld_disj (by decide) (by decide), State.bit_setFld_disj (by decide) (by decide),
      State.bit_setBit_self (by decide) (by decide)]
  case role =>
    rw [State.role, hfld rfl, State.fld_setFld_self (by decide)]
    rfl
  case sync =>
    rw [State.sync, State.bit_of_fld (hfld rfl), State.bit_setFld_disj (by decide) (by decide)]
    exact State.bit_clrBit_self (by decide)
  case alive =>
    rw [State.bit_of_fld (hfld rfl), State.bit_setFld_disj (by decide) (by decide), State.bit_setFld_disj (by decide) (by decide), State.setBit,
      State.bit_setFld_disj (by decide) (by decide)]

/-- The peer is fenced, and the settle interval runs. -/
def State.settles (s : State) : State :=
  { s with galv := { s.galv with
    peer := .fenced, settling := true, releasing := [], peerHandoff := none, netHold := [], redo := [], heartbeat := false } }

theorem State.sys_settles : s.settles.sys = s.sys := rfl

theorem State.fld_settles {f : Fld} : s.settles.fld f = s.fld f := rfl

theorem State.peer_settles : s.settles.galv.peer = .fenced := rfl

theorem State.settling_settles : s.settles.galv.settling = true := rfl

/-- The survivor serves the peer's rings, and their functions' hosts are told. -/
def State.adopts (s : State) (mirror sync : Bool) : State :=
  let s1 := ((s.adoptAll sync s.galv.shadows).logsLost s.galv.peerLogs).tapeMark TapeFlag.takeover
  (if mirror then s1.sasJump else s1).anaSet 1 true

theorem State.TwinKept.adopts {t : State} (h : s.TwinKept t) {mirror sync : Bool} : s.TwinKept (t.adopts mirror sync) := by
  have h1 : s.TwinKept (((t.adoptAll sync t.galv.shadows).logsLost t.galv.peerLogs).tapeMark TapeFlag.takeover) := h.adoptAll.logsLost.tapeMark
  exact (State.TwinKept.ite h1.sasJump h1).anaSet

/-- A takeover: the fencing, the end of what waits for the peer, the settle interval's start, the adoption, and the report. -/
theorem State.takeover_eq (h : s.mayTake = true) : s.takeover cause =
    (((s.fencesPeer cause).waitsEnd.sessionLost.handoffFail.settles).adopts (s.role == 2) s.sync).galvEvt R.GALV_STATUS.TAKEOVER_EVT := by
  simp only [State.takeover, h, Bool.not_true, Bool.false_eq_true, if_false, State.fencesPeer, State.settles, State.adopts]

theorem State.takeover_refused (h : s.mayTake = false) : s.takeover cause = s := by
  rw [State.takeover, if_pos (by simp [h])]

/-- What a twin shows that has taken over: the peer is fenced, this twin leads alone, and the settle interval runs. -/
def State.Took (t : State) : Prop :=
  t.sys.fenceOut = true ∧ t.bit R.GALV_STATUS.FENCE_OUT = true ∧ t.role = 1 ∧ t.sync = false ∧ t.galv.peer = .fenced ∧
    t.galv.settling = true ∧ t.bit R.GALV_STATUS.TAKEOVER_EVT = true

section

variable (h : s.mayTake = true)

include h

/-- A takeover leaves a field of GALV_STATUS below its event as the fencing wrote it. -/
theorem State.fld_takeover {f : Fld} (hf : f.off = R.GALV_STATUS.off) (h64 : f.lo + f.w ≤ 64) (hd : f.lo + f.w ≤ R.GALV_STATUS.TAKEOVER_EVT.lo) :
    (s.takeover cause).fld f = (s.fencesPeer cause).fld f := by
  have hne : f.off ≠ R.ONF_BASTE_STAT.off := hf ▸ by decide
  rw [State.takeover_eq h, State.fld_galvEvt_disj h64 (.inl hd), State.TwinKept.refl.adopts.fld hne, State.fld_settles,
    State.TwinKept.refl.waitsEnd.sessionLost.handoffFail.fld hne]

theorem State.bit_takeover_alive : (s.takeover cause).bit R.GALV_STATUS.ALIVE_OK = s.bit R.GALV_STATUS.ALIVE_OK := by
  obtain ⟨-, -, -, halive⟩ := State.fencesPeer_status (s := s) (cause := cause)
  rw [State.bit_of_fld (State.fld_takeover h rfl (by decide) (by decide)), halive]

theorem State.took_takeover : (s.takeover cause).Took := by
  obtain ⟨hout, hrole, hsync, -⟩ := State.fencesPeer_status (s := s) (cause := cause)
  refine ⟨?fence, ?out, ?role, ?sync, ?peer, ?settling, ?event⟩
  case fence =>
    rw [State.takeover_eq h, State.galvEvt_sys, State.TwinKept.refl.adopts.sys, State.sys_settles,
      State.TwinKept.refl.waitsEnd.sessionLost.handoffFail.sys, State.sys_fencesPeer]
  case out => rw [State.bit_of_fld (State.fld_takeover h rfl (by decide) (by decide)), hout]
  case role => rw [State.role, State.fld_takeover h rfl (by decide) (by decide), ← State.role, hrole]
  case sync => rw [State.sync, State.bit_of_fld (State.fld_takeover h rfl (by decide) (by decide)), ← State.sync, hsync]
  case peer => rw [State.takeover_eq h, State.galvEvt_galv, State.TwinKept.refl.adopts.peer, State.peer_settles]
  case settling => rw [State.takeover_eq h, State.galvEvt_galv, State.TwinKept.refl.adopts.settling, State.settling_settles]
  case event => rw [State.takeover_eq h, State.bit_galvEvt_self (by decide) (by decide)]

end

end

/-! ### A peer that is still there (R272, R290) -/

section

variable {s t : State}

theorem State.qps_ctrAckAll {n : Nat} : (State.ctrAckAll n s).qps = s.qps := by
  have hack (t : State) : t.ctrAck.qps = t.qps := by
    unfold State.ctrAck
    split
    · rfl
    · dsimp only
      split
      · rw [State.sendAll_qps]
      · rfl
  induction n generalizing s with
  | zero => rfl
  | succ n ih => exact ih.trans (hack s)

theorem State.qps_unstage {w : TwinWait} : (s.unstage w).qps = s.qps := by
  unfold State.unstage
  split
  · obtain ⟨_, h⟩ := State.sameButRegs_showSession (s.setSession _)
    rw [h]
    rfl
  · rfl

theorem State.qps_waitsFail {ws : List TwinWait} : (s.waitsFail ws).qps = s.qps := by
  induction ws generalizing s with
  | nil => rfl
  | cons w ws ih =>
    rw [State.waitsFail, ih, State.reply_qps]
    split
    · rfl
    · exact State.qps_unstage

/-- The rings stay as they are when nothing waits for the peer any longer. -/
theorem State.qps_waitsEnd : s.waitsEnd.qps = s.qps := State.qps_ctrAckAll.trans State.qps_waitsFail

theorem State.trailingWork_of_qps (hq : t.qps = s.qps) (hr : t.galv.releasing = s.galv.releasing) : t.trailingWork = s.trailingWork := by
  simp only [State.trailingWork, hr, State.qp_of_qps hq]

/-- A lost link without trailing work ends the mirroring and nothing else. -/
theorem State.linkLoss_eq (hpaired : s.paired = true) (hpeer : s.galv.peer = .paired) (htrail : s.trailingWork = false) :
    s.linkLoss = ((s.clrBit R.GALV_STATUS.SYNC).waitsEnd).galvEvt R.GALV_STATUS.UNSYNC_EVT := by
  have hsame : (((s.clrBit R.GALV_STATUS.SYNC).waitsEnd).galvEvt R.GALV_STATUS.UNSYNC_EVT).trailingWork = false := by
    rw [← htrail]
    refine State.trailingWork_of_qps ?_ ?_
    · rw [State.galvEvt_qps, State.qps_waitsEnd, State.clrBit_qps]
    · rw [State.galvEvt_galv]
      exact State.TwinKept.refl.waitsEnd.releasing
  unfold State.linkLoss
  rw [if_neg (by simp [hpaired, hpeer])]
  exact if_neg (by simp [hsame])

/-- Mirroring has ended: SYNC is 0, and the role stays. -/
theorem State.unsynced_of_reg {f : Fld} (h : t.reg R.GALV_STATUS.off = (s.clrBit R.GALV_STATUS.SYNC).reg R.GALV_STATUS.off)
    (hf : R.GALV_STATUS.SYNC.lo + R.GALV_STATUS.SYNC.w ≤ f.lo) : (t.galvEvt f).sync = false ∧ (t.galvEvt f).role = s.role := by
  have hsync : t.fld R.GALV_STATUS.SYNC = (s.clrBit R.GALV_STATUS.SYNC).fld R.GALV_STATUS.SYNC := State.fld_of_reg h
  have hrole : t.fld R.GALV_STATUS.ROLE = (s.clrBit R.GALV_STATUS.SYNC).fld R.GALV_STATUS.ROLE := State.fld_of_reg h
  constructor
  · rw [State.sync, State.bit_of_fld (State.fld_galvEvt_disj (by decide) (.inl hf)), State.bit_of_fld hsync, State.bit_clrBit_self (by decide)]
  · rw [State.role, State.fld_galvEvt_disj (by decide) (.inl (Nat.le_trans (by decide) hf)), hrole]
    exact State.role_setFld (by decide)

end

/-! ### The sideband pins and the heartbeat (R262, R263, Table 09-9) -/

section

variable {s : State}

theorem exec_twinFaultInRise (hup : s.up = true) : exec .twinFaultInRise s = .next ((s.setBit R.GALV_STATUS.FAULT_IN).takeover 1) := by
  change execTwinFaultInRise s = _
  rw [execTwinFaultInRise, if_neg (State.phase_ne_por hup), State.whenUp_of_up (s := s.setBit _) hup]

/-- Where the peer is there and shows no fault, the heartbeat decides on a loss of its liveness. -/
theorem exec_aliveLoss (hup : s.up = true) (hpaired : s.paired = true) (hpeer : s.galv.peer = .paired) (hfault : s.bit R.GALV_STATUS.FAULT_IN = false) :
    exec .aliveLoss s = .next (if s.galv.heartbeat then (s.clrBit R.GALV_STATUS.ALIVE_OK).galvEvt R.GALV_STATUS.SB_EVT
      else (s.clrBit R.GALV_STATUS.ALIVE_OK).takeover 2) := by
  have hpaired' : (s.clrBit R.GALV_STATUS.ALIVE_OK).paired = true := (State.paired_setFld (by decide)).trans hpaired
  have hfault' : (s.clrBit R.GALV_STATUS.ALIVE_OK).bit R.GALV_STATUS.FAULT_IN = false := (State.bit_setFld_disj (by decide) (by decide)).trans hfault
  change execAliveLoss s = _
  rw [execAliveLoss, if_neg (State.phase_ne_por hup), State.whenUp_of_up (s := s.clrBit _) hup]
  simp only [hpaired', hfault', State.clrBit_galv, hpeer, bne_self_eq_false, Bool.not_true, Bool.or_self, Bool.false_eq_true, if_false]
  rfl

/-- The heartbeat has timed out. -/
def State.beatLost (s : State) : State := { s with galv := { s.galv with heartbeat := false } }

theorem exec_heartbeatTimeout (hup : s.up = true) (hpaired : s.paired = true) (hpeer : s.galv.peer = .paired) (hfault : s.bit R.GALV_STATUS.FAULT_IN = false) :
    exec .heartbeatTimeout s = .next (if !s.bit R.GALV_STATUS.ALIVE_OK then s.beatLost.takeover 2
      else if s.galv.heartbeat then s.beatLost.linkLoss else s.beatLost) := by
  change execHeartbeatTimeout s = _
  simp only [execHeartbeatTimeout, State.whenUp_of_up hup, hpaired, hpeer, hfault, bne_self_eq_false, Bool.not_true, Bool.or_self, Bool.false_eq_true,
    if_false, State.beatLost]

theorem exec_heartbeatTimeout_unpaired (hup : s.up = true) (hpaired : s.paired = false) : exec .heartbeatTimeout s = .next s.beatLost := by
  change execHeartbeatTimeout s = _
  simp only [execHeartbeatTimeout, State.whenUp_of_up hup, hpaired, Bool.not_false, Bool.true_or, if_true, State.beatLost]

theorem exec_goodbye (hup : s.up = true) (hrole : s.role = 1) (hpeer : s.galv.peer = .paired) :
    let u := ((s.clrBit R.GALV_STATUS.SYNC).waitsEnd).handoffFail
    exec .goodbye s = .next (({ u with galv := { u.galv with peer := .gone } }).galvEvt R.GALV_STATUS.GOODBYE_EVT) := by
  change execGoodbye s = _
  simp only [execGoodbye, State.whenUp_of_up hup, hrole, hpeer, bne_self_eq_false, Bool.or_self, Bool.false_eq_true, if_false]

theorem exec_goodbye_notLead (hup : s.up = true) (hrole : s.role ≠ 1) : exec .goodbye s = .next s := by
  have hc : (s.role != 1 || s.galv.peer != .paired) = true := by simp [hrole]
  change execGoodbye s = _
  simp only [execGoodbye, State.whenUp_of_up hup, hc, if_true]

end

/-! ### Reconciliation (R284, R285) -/

section

variable {s : State} {q : Nat}

theorem exec_settleExpiry (hup : s.up = true) : exec .settleExpiry s = .next (
    if !s.galv.settling then s
    else
      let w : State := { s with galv := { s.galv with settling := false } }
      w.reconcileAll w.reconRings) := by
  change execSettleExpiry s = _
  rw [execSettleExpiry, State.whenUp_of_up hup]

theorem exec_reconcileRetry (hup : s.up = true) (hheld : s.panelHeld (ringHome q) = false) : exec (.reconcileRetry q) s = .next (
    if s.galv.settling then s
    else if (s.qp q).recon then s.reconcile q
    else if s.galv.peer == .paired && (s.qp q).st != .free then s.trailIn q
    else s) := by
  change execReconcileRetry q s = _
  rw [execReconcileRetry, State.whenRing, State.whenPanel_of_unheld hup hheld]

end

/-! ### Fencing and its end (R265, R266, R273) -/

section

variable {s : State}

theorem State.quietAll_shape (s : State) : ∃ (links : SMap PortSt) (out : List OutEvent), s.quietAll = { s with links, out } := by
  unfold State.quietAll
  generalize List.range 4 = ps
  induction ps generalizing s with
  | nil => exact ⟨_, _, rfl⟩
  | cons p ps ih =>
    obtain ⟨links, out, h⟩ := s.panelQuiet_shape p
    rw [List.foldl_cons, h]
    exact ih { s with links, out }

/-- TWIN_FENCE_IN is high, as GALV_STATUS shows it. -/
def State.fenceShown (s : State) : State :=
  (((s.setBit R.GALV_STATUS.FENCE_IN).clrBit R.GALV_STATUS.FENCE_OUT).clrBit R.GALV_STATUS.SYNC).setFld R.GALV_STATUS.ROLE 3

/-- A fenced device has its outputs off. -/
def State.fencedIn (s : State) : State :=
  { s.fenceShown with sys := { s.fenceShown.sys with gated := true, aliveOut := false, fenceOut := false } }

/-- The fenced device holds: its host links drop, and FENCE_HOLD_MS runs. -/
def State.inHold (s : State) : State := { s.fencedIn.quietAll with galv := { s.fencedIn.quietAll.galv with holding := true } }

theorem exec_fenceInRise (hup : s.up = true) :
    exec .fenceInRise s = .next (if s.inHold.fld R.GALV_CFG.FENCE_HOLD_MS = 0 then s.inHold.warmReset .safe else s.inHold) := by
  change execFenceInRise s = _
  rw [execFenceInRise, if_neg (State.phase_ne_por hup)]
  exact congrArg _ (State.whenUp_of_up (s := s.fencedIn) hup)

theorem State.inHold_shape (s : State) : ∃ (links : SMap PortSt) (out : List OutEvent),
    s.inHold = { s.fencedIn with links, out, galv := { s.galv with holding := true } } := by
  obtain ⟨_, _, h⟩ := s.fencedIn.quietAll_shape
  rw [State.inHold, h]
  exact ⟨_, _, rfl⟩

theorem State.fld_inHold {f : Fld} : s.inHold.fld f = s.fenceShown.fld f := by
  obtain ⟨_, _, h⟩ := s.inHold_shape
  rw [h]
  rfl

theorem State.up_inHold : s.inHold.up = s.up := by
  obtain ⟨_, _, h⟩ := s.inHold_shape
  rw [h]
  rfl

theorem State.fld_inHold_ne {f : Fld} (h : f.off ≠ R.GALV_STATUS.off) : s.inHold.fld f = s.fld f := by
  rw [State.fld_inHold, State.fenceShown, State.fld_setFld_ne h, State.clrBit, State.fld_setFld_ne h, State.clrBit, State.fld_setFld_ne h, State.setBit,
    State.fld_setFld_ne h]

theorem State.role_inHold : s.inHold.role = 3 := by
  rw [State.role, State.fld_inHold, State.fenceShown, State.fld_setFld_self (by decide)]
  rfl

/-- A device in Hold: fenced, out of step, with its outputs off and every panel held; memory stays. -/
theorem State.inHold_spec : s.inHold.role = 3 ∧ s.inHold.bit R.GALV_STATUS.FENCE_IN = true ∧ s.inHold.sync = false ∧ s.inHold.sys.gated = true ∧
    s.inHold.sys.aliveOut = false ∧ s.inHold.galv.holding = true ∧ (∀ p, s.inHold.panelHeld p = true) ∧ s.inHold.mem = s.mem := by
  refine ⟨State.role_inHold, ?fence, ?sync, ?gated, ?alive, rfl, fun p => ?held, ?mem⟩
  case fence =>
    rw [State.bit_of_fld State.fld_inHold, State.fenceShown, State.bit_setFld_disj (by decide) (by decide), State.clrBit,
      State.bit_setFld_disj (by decide) (by decide), State.clrBit, State.bit_setFld_disj (by decide) (by decide),
      State.bit_setBit_self (by decide) (by decide)]
  case sync =>
    rw [State.sync, State.bit_of_fld State.fld_inHold, State.fenceShown, State.bit_setFld_disj (by decide) (by decide), State.bit_clrBit_self (by decide)]
  case held => rw [State.panelHeld, State.role_inHold, beq_self_eq_true, Bool.or_true]
  case gated | alive | mem =>
    obtain ⟨_, _, h⟩ := s.inHold_shape
    rw [h]
    rfl

theorem exec_fenceHoldExpiry (hup : s.up = true) :
    exec .fenceHoldExpiry s = .next (if s.galv.holding && s.role == 3 then s.warmReset .safe else s) := by
  change execFenceHoldExpiry s = _
  rw [execFenceHoldExpiry, State.whenUp_of_up hup]

/-- The reset of a fenced device leaves memory and rings empty. That memory reads as empty is the model's choice (log entry 2). -/
theorem State.warmReset_blank (hup : s.up = true) : (s.warmReset .safe).mem = [] ∧ (s.warmReset .safe).qps = [] ∧ (s.warmReset .safe).sys.gated = true ∧
    ((s.warmReset .safe).sys.phase = .starting ∨ ∃ c, (s.warmReset .safe).sys.phase = .halted c) := by
  obtain ⟨hmem, hqps, -, hgated, -, hphase⟩ := State.wiped_warmReset (s := s) (t := s) hup rfl .safe
  exact ⟨hmem, hqps, hgated, hphase⟩

/-- A rejoined device whose fence ends, before its role changes. -/
def State.fenceEnds (s : State) : State :=
  { s.clrBit R.GALV_STATUS.FENCE_IN with sys := { s.sys with gated := false, aliveOut := true }, galv := { s.galv with holding := false } }

theorem State.fld_fenceEnds {f : Fld} : s.fenceEnds.fld f = (s.clrBit R.GALV_STATUS.FENCE_IN).fld f := State.fld_of_reg (State.reg_of_regs rfl)

theorem exec_fenceInFall (hup : s.up = true) (hrole : s.role = 3) (hsync : s.sync = true) (hpeer : s.galv.peer = .paired)
    (hopen : s.bit R.SPOOL_STATUS.UNGATED = true) : exec .fenceInFall s = .next ((s.fenceEnds.setRole 2).anaSet 2 false).portsTrain := by
  have hrole' : (s.clrBit R.GALV_STATUS.FENCE_IN).role = 3 := (State.role_setFld (by decide)).trans hrole
  have hsync' : (s.clrBit R.GALV_STATUS.FENCE_IN).sync = true := (State.bit_setFld_disj (by decide) (by decide)).trans hsync
  have hopen' : (s.clrBit R.GALV_STATUS.FENCE_IN).bit R.SPOOL_STATUS.UNGATED = true := (State.bit_setFld_ne (by decide)).trans hopen
  change execFenceInFall s = _
  rw [execFenceInFall, if_neg (State.phase_ne_por hup), State.whenUp_of_up (s := s.clrBit _) hup]
  simp only [hrole', hsync', hopen', State.clrBit_galv, State.clrBit_sys, hpeer, bne_self_eq_false, Bool.not_true, Bool.or_self, Bool.false_eq_true, if_false,
    if_true, State.fenceEnds]

theorem completes_fenceInFall (hup : s.up = true) (hrole : s.role = 3) (hsync : s.sync = true) (hpeer : s.galv.peer = .paired)
    (hopen : s.bit R.SPOOL_STATUS.UNGATED = true) : Completes .fenceInFall s fun t => t.role = 2 ∧ t.bit R.GALV_STATUS.FENCE_IN = false ∧
      t.sys.gated = false ∧ t.sys.aliveOut = true ∧ t.galv.holding = false ∧ t.mem = s.mem := by
  refine ⟨_, exec_fenceInFall hup hrole hsync hpeer hopen, ?_⟩
  have hkept : (s.fenceEnds.setRole 2).TwinKept ((s.fenceEnds.setRole 2).anaSet 2 false).portsTrain := State.TwinKept.refl.anaSet.portsTrain
  refine ⟨(hkept.fld (by decide)).trans (State.role_setRole (by decide)), ?fence, ?gated, ?alive, ?holding, hkept.mem.trans State.mem_setRole⟩
  case fence =>
    rw [hkept.bit (by decide), State.bit_of_fld (State.fld_setRole_disj (by decide) (by decide)), State.bit_of_fld State.fld_fenceEnds,
      State.bit_clrBit_self (by decide)]
  case gated => rw [hkept.sys, State.sys_setRole]; rfl
  case alive => rw [hkept.sys, State.sys_setRole]; rfl
  case holding => rw [hkept.holding, State.galv_setRole]; rfl

end

/-- Settles O45: takeovers from `took_takeover`, a lost link from `linkLoss_eq`, Hold from `inHold_spec`, and the reset of a fenced device from
`warmReset_blank`. -/
theorem takeoverAndFencing : Obligations.TakeoverAndFencing := by
  intro s q hup cut pairedUp took blank
  refine ⟨fun hmay => ?fault, fun hmay => ?noFault, fun hmay hfault hbeat => ?aliveLost, fun ⟨hpaired, hpeer⟩ hfault hbeat => ?aliveEvent,
    fun hmay hfault halive => ?silent, fun ⟨hpaired, hpeer⟩ hfault halive hbeat htrail => ?linkLost, exec_heartbeatTimeout_unpaired hup,
    fun hrole hpeer => ?goodbye, exec_goodbye_notLead hup, fun hset => ?settled, fun hset => ?notSettling, fun hheld hset hrec => ?retry,
    fun hheld hset => ?tooEarly, fun hms => ?hold, fun hms => ?reset, fun hhold hrole => ?expiry, fun hhold => ?noHold,
    completes_fenceInFall hup⟩
  case fault => exact ⟨_, exec_twinFaultInRise hup, State.took_takeover ((State.mayTake_setFld (by decide) (by decide)).trans hmay)⟩
  case noFault =>
    have hmay' : (s.setBit R.GALV_STATUS.FAULT_IN).mayTake = false := (State.mayTake_setFld (by decide) (by decide)).trans hmay
    rw [exec_twinFaultInRise hup, State.takeover_refused hmay']
  case aliveLost =>
    obtain ⟨hpaired, hpeer⟩ := State.paired_of_mayTake hmay
    refine ⟨_, exec_aliveLoss hup hpaired hpeer hfault, ?_⟩
    rw [if_neg (by simp [hbeat])]
    have hmay' : (s.clrBit R.GALV_STATUS.ALIVE_OK).mayTake = true := (State.mayTake_setFld (by decide) (by decide)).trans hmay
    exact ⟨State.took_takeover hmay', (State.bit_takeover_alive hmay').trans (State.bit_clrBit_self (by decide))⟩
  case aliveEvent => rw [exec_aliveLoss hup hpaired hpeer hfault, if_pos hbeat, State.galvEvt]
  case silent =>
    obtain ⟨hpaired, hpeer⟩ := State.paired_of_mayTake hmay
    refine ⟨_, exec_heartbeatTimeout hup hpaired hpeer hfault, ?_⟩
    rw [if_pos (by simp [halive])]
    exact State.took_takeover (s := s.beatLost) hmay
  case linkLost =>
    refine ⟨_, exec_heartbeatTimeout hup hpaired hpeer hfault, ?_⟩
    rw [if_neg (by simp [halive]), if_pos hbeat, State.linkLoss_eq (s := s.beatLost) hpaired hpeer htrail]
    have hkept : (s.beatLost.clrBit R.GALV_STATUS.SYNC).TwinKept _ := State.TwinKept.refl.waitsEnd
    obtain ⟨hsync, hrole⟩ := State.unsynced_of_reg (f := R.GALV_STATUS.UNSYNC_EVT) (hkept.reg _ (by decide)) (by decide)
    refine ⟨hsync, State.bit_galvEvt_self (by decide) (by decide), hrole, ?_, ?_, ?_⟩
    · rw [State.galvEvt_galv, hkept.peer]
      exact hpeer
    · rw [State.galvEvt_sys, hkept.sys]
      rfl
    · rw [State.galvEvt_galv, hkept.heartbeat]
      rfl
  case goodbye =>
    refine ⟨_, exec_goodbye hup hrole hpeer, ?_⟩
    let u := ((s.clrBit R.GALV_STATUS.SYNC).waitsEnd).handoffFail
    have hkept : (s.clrBit R.GALV_STATUS.SYNC).TwinKept u := State.TwinKept.refl.waitsEnd.handoffFail
    let v : State := { u with galv := { u.galv with peer := .gone } }
    obtain ⟨hsync, hrole'⟩ := State.unsynced_of_reg (t := v) (f := R.GALV_STATUS.GOODBYE_EVT) (hkept.reg _ (by decide)) (by decide)
    refine ⟨hsync, ?_, hrole'.trans hrole, ?_, State.bit_galvEvt_self (by decide) (by decide)⟩
    · rw [State.galvEvt_galv]
    · rw [State.galvEvt_sys]
      exact hkept.sys
  case settled => rw [exec_settleExpiry hup, if_neg (by simp [hset])]
  case notSettling => rw [exec_settleExpiry hup, if_pos (by simp [hset])]
  case retry => rw [exec_reconcileRetry hup hheld, if_neg (by simp [hset]), if_pos hrec]
  case tooEarly => rw [exec_reconcileRetry hup hheld, if_pos hset]
  case hold =>
    refine ⟨_, exec_fenceInRise hup, ?_⟩
    rw [if_neg (by rwa [State.fld_inHold_ne (by decide)])]
    exact State.inHold_spec
  case reset =>
    refine ⟨_, exec_fenceInRise hup, ?_⟩
    rw [if_pos (by rwa [State.fld_inHold_ne (by decide)])]
    exact State.warmReset_blank (State.up_inHold.trans hup)
  case expiry =>
    refine ⟨_, exec_fenceHoldExpiry hup, ?_⟩
    rw [if_pos (by simp [hhold, hrole])]
    exact State.warmReset_blank hup
  case noHold => rw [exec_fenceHoldExpiry hup, if_neg (by simp [hhold])]

end Sys2Proof.Machine
end

section
/-!
O4. The frame of the Bobbin register operations leaves out device memory, which one of them can write: an operation whose fetch faults enters vector 5, the
entry pushes two words through the store buffer (R364, R365), and a full buffer lets its oldest store land first.
-/

namespace Sys2Proof.Machine

/-- A word that an engine has stored in the Bobbin shared SRAM and that waits in its buffer. -/
def sharedStore : StoreEnt := { window := false, loc := memLoc 0x20010000000, words := [1] }

/-- A running device whose Pattern engine 0 has filled its store buffer and stands, its stack in local D SRAM, at an I-space address that nothing backs: no
image is placed and no DRAM is mapped. -/
def State.storesBeforeBadFetch : State :=
  { State.reset with
    sys := { State.reset.sys with phase := .running }
    engs := [(0, { Engine.reset with st := .running, pc := 0x1000, w := [(15, 0x100)], sbuf := List.replicate 4 sharedStore })] }

/-- What `MOV W0, W0` leaves of that device: vector 5 is entered, and the oldest store is in memory. -/
def State.badFetchTaken : State := State.storesBeforeBadFetch.bobFault 0 5 2 0x1000

theorem exec_bMov_storesBeforeBadFetch : exec (.bMov 0 0 0) State.storesBeforeBadFetch = .next State.badFetchTaken := by
  have hfetch : State.storesBeforeBadFetch.fetchAll 0 0x1000 [bw 0x0 0 0 0] = (State.storesBeforeBadFetch, .fault 2 0x1000) := by decide +kernel
  have hlive : State.storesBeforeBadFetch.bobLive 0 = true := by decide +kernel
  have hpc : (State.storesBeforeBadFetch.eng 0).pc = 0x1000 := rfl
  have hrun : exec (.bMov 0 0 0) State.storesBeforeBadFetch = execBMov 0 0 0 State.storesBeforeBadFetch := rfl
  rw [hrun, execBMov, State.issueReg, State.issue]
  simp only [bobWords]
  rw [State.whenUp_of_up rfl]
  simp only [hlive, hpc, hfetch, Bool.not_true, Bool.false_eq_true, if_false]
  rfl

theorem mem_badFetchTaken : State.badFetchTaken.mem = [(0x20010000000, 1)] := by decide +kernel

/-- Refutes O4: the fetch fault of a Bobbin register operation writes device memory when the engine's store buffer is full. -/
theorem not_commandFrames : ¬ Obligations.CommandFrames := by
  intro h
  obtain ⟨hbobbin, -⟩ := h (.bMov 0 0 0) State.storesBeforeBadFetch State.badFetchTaken exec_bMov_storesBeforeBadFetch
  have hmem : State.badFetchTaken.mem = State.storesBeforeBadFetch.mem := (congrArg State.mem (hbobbin rfl) :)
  rw [mem_badFetchTaken] at hmem
  exact absurd hmem (by decide)

end Sys2Proof.Machine
end

section
/-!
O46. A claim that is written changes its register and, through `worldsOff` and `debugOff`, the harts it names; what newly claimed units then do
(`State.claimEdges`) leaves memory, every register but PWR_STATUS, and the worlds and debug states of harts (`State.ClaimKept`).
-/

namespace Sys2Proof.Machine

section

variable {s t u : State} {who : Agent} {h k : Nat} {mode : Priv} {data : W64}

/-! ### mworld (R300) -/

theorem exec_mworldWrite_m (hup : s.up = true) (hh : h < 64) : exec (.mworldWrite h .m data) s = .next (
    if (s.reg R.PWR_CLAIM_HART.off).getLsbD h then s.setHart h { s.hart h with world := data.getLsbD 0 } else s) :=
  congrArg Host.Outcome.next ((State.whenUp_of_up hup).trans (if_neg (Nat.not_le_of_lt hh)))

theorem exec_mworldWrite_illegal (hup : s.up = true) (hh : h < 64) (hm : mode ≠ .m) : exec (.mworldWrite h mode data) s =
    .next (s.setHart h { s.hart h with trap := 2 }) :=
  congrArg Host.Outcome.next ((State.whenUp_of_up hup).trans ((if_neg (Nat.not_le_of_lt hh)).trans (if_neg (by simpa using hm))))

/-! ### Harts of a list -/

theorem mem_bitList {w v : Nat} : k ∈ bitList w v ↔ k < w ∧ v.testBit k = true := by
  simp [bitList]

theorem State.hart_setHart {x : Hart} : (s.setHart h x).hart k = if k = h then x else s.hart k := by
  split
  · next e => rw [e, State.hart_setHart_self]
  · next ne => exact State.hart_setHart_ne ne

/-- A function that changes each hart of a list in the same way changes nothing else. -/
theorem State.eachHart_shape {F : State → List Nat → State} {f : Hart → Hart} (hnil : ∀ s, F s [] = s)
    (hcons : ∀ s h hs, F s (h :: hs) = F (s.setHart h (f (s.hart h))) hs) (s : State) (hs : List Nat) : ∃ harts, F s hs = { s with harts } := by
  induction hs generalizing s with
  | nil => exact ⟨_, hnil s⟩
  | cons h hs ih =>
    obtain ⟨_, he⟩ := ih (s.setHart h (f (s.hart h)))
    exact ⟨_, (hcons s h hs).trans he⟩

/-- A change that is the same when made twice is made to each hart of the list, and to no other. -/
theorem State.hart_eachHart {F : State → List Nat → State} {f : Hart → Hart} (hnil : ∀ s, F s [] = s)
    (hcons : ∀ s h hs, F s (h :: hs) = F (s.setHart h (f (s.hart h))) hs) (hf : ∀ x, f (f x) = f x) (s : State) (hs : List Nat) :
    (F s hs).hart k = if k ∈ hs then f (s.hart k) else s.hart k := by
  induction hs generalizing s with
  | nil => rw [hnil]; rfl
  | cons h hs ih =>
    rw [hcons, ih, State.hart_setHart]
    by_cases hk : k = h
    · subst hk
      simp [hf]
    · simp [hk]

theorem State.worldsOff_shape (s : State) (hs : List Nat) : ∃ harts, s.worldsOff hs = { s with harts } :=
  State.eachHart_shape (F := State.worldsOff) (f := fun x => { x with world := false }) (fun _ => rfl) (fun _ _ _ => rfl) s hs

theorem State.hart_worldsOff {hs : List Nat} : (s.worldsOff hs).hart k = if k ∈ hs then { s.hart k with world := false } else s.hart k :=
  State.hart_eachHart (f := fun x => { x with world := false }) (fun _ => rfl) (fun _ _ _ => rfl) (fun _ => rfl) s hs

theorem State.debugOff_shape (s : State) (hs : List Nat) : ∃ harts, s.debugOff hs = { s with harts } :=
  State.eachHart_shape (F := State.debugOff) (f := fun x => { x with debug := false }) (fun _ => rfl) (fun _ _ _ => rfl) s hs

theorem State.hart_debugOff {hs : List Nat} : (s.debugOff hs).hart k = if k ∈ hs then { s.hart k with debug := false } else s.hart k :=
  State.hart_eachHart (f := fun x => { x with debug := false }) (fun _ => rfl) (fun _ _ _ => rfl) (fun _ => rfl) s hs

/-! ### Newly claimed units (Table 15-5) -/

/-- What the claims' effects leave: memory, every register but PWR_STATUS, the world and the debug state of each hart. -/
def State.ClaimKept (s t : State) : Prop :=
  t.mem = s.mem ∧ (∀ off, off ≠ R.PWR_STATUS.off → t.reg off = s.reg off) ∧ ∀ k, (t.hart k).world = (s.hart k).world ∧ (t.hart k).debug = (s.hart k).debug

theorem State.ClaimKept.refl : s.ClaimKept s := ⟨rfl, fun _ _ => rfl, fun _ => ⟨rfl, rfl⟩⟩

theorem State.ClaimKept.trans (hst : s.ClaimKept t) (htu : t.ClaimKept u) : s.ClaimKept u := by
  obtain ⟨hm, hr, hh⟩ := hst
  obtain ⟨hm', hr', hh'⟩ := htu
  exact ⟨hm'.trans hm, fun off ho => (hr' off ho).trans (hr off ho), fun k => ⟨(hh' k).1.trans (hh k).1, (hh' k).2.trans (hh k).2⟩⟩

theorem State.ClaimKept.ite {c : Prop} [Decidable c] (ht : s.ClaimKept t) (hu : s.ClaimKept u) : s.ClaimKept (if c then t else u) := by
  split
  · exact ht
  · exact hu

theorem State.claimKept_setUnit {x : UnitSt} : s.ClaimKept (s.setUnit h x) := State.ClaimKept.refl

theorem State.claimKept_setHart {x : Hart} (hw : x.world = (s.hart h).world) (hd : x.debug = (s.hart h).debug) : s.ClaimKept (s.setHart h x) := by
  refine ⟨rfl, fun _ _ => rfl, fun k => ?_⟩
  rw [State.hart_setHart]
  split
  · next e => exact e ▸ ⟨hw, hd⟩
  · exact ⟨rfl, rfl⟩

theorem State.claimKept_hartsDrop {refused : Bool} {hs : List Nat} : s.ClaimKept (s.hartsDrop refused hs) := by
  induction hs generalizing s with
  | nil => exact State.ClaimKept.refl
  | cons h hs ih =>
    have hstep : s.ClaimKept (s.setHart h { s.hart h with
        preqPending := false, preqRefused := (s.hart h).preqRefused || (refused && (s.hart h).preqPending) }) := State.claimKept_setHart rfl rfl
    exact hstep.trans ih

theorem State.claimKept_claimRefuse : s.ClaimKept (s.claimRefuse h) := by
  have hregs : (s.claimRefuse h).regs = ((s.setFld R.PWR_STATUS.LAST_UNIT h).setBit R.PWR_STATUS.CLAIMED).regs := State.event_regs _ 4
  refine ⟨State.event_mem _ 4, fun off ho => ?_, fun k => ?_⟩
  · rw [State.reg_of_regs hregs, State.setBit, State.reg_setFld_ne ho, State.reg_setFld_ne ho]
  · have hharts : (s.claimRefuse h).harts = s.harts := State.event_harts _ 4
    simp only [State.hart, hharts, and_self]

theorem State.claimKept_claimMeets : s.ClaimKept (s.claimMeets h) :=
  .ite (.ite State.claimKept_setUnit .refl)
    (.ite ((State.ClaimKept.ite (State.claimKept_setUnit.trans State.claimKept_hartsDrop) State.claimKept_setUnit).trans State.claimKept_claimRefuse) .refl)

theorem State.claimKept_foldl {us : List Nat} : s.ClaimKept (us.foldl State.claimMeets s) := by
  induction us generalizing s with
  | nil => exact State.ClaimKept.refl
  | cons v us ih => exact State.claimKept_claimMeets.trans ih

theorem State.claimKept_claimEdges : s.ClaimKept (s.claimEdges t) := State.claimKept_foldl

/-! ### Claims of harts (R300, R315) -/

theorem exec_claimHartWrite (hup : s.up = true) (hopen : s.opens who R.PWR_CLAIM_HART.off) :
    exec (.claimHartWrite who data) s = .next (s.claimHartSet data) :=
  congrArg Host.Outcome.next ((State.whenUp_of_up hup).trans (State.regTry_of_opens hopen))

/-- The claims are written and released harts lose WORLD. -/
def State.claimsWritten (s : State) (data : W64) : State :=
  (s.setReg R.PWR_CLAIM_HART.off data).worldsOff (bitList 64 (s.reg R.PWR_CLAIM_HART.off &&& ~~~ data).toNat)

/-- Then newly claimed harts leave Debug Mode while LI is closed. -/
def State.claimsShut (s : State) (data : W64) : State :=
  if ((s.claimsWritten data).fld R.SEAM_DEBUG.OPEN).testBit 0 then s.claimsWritten data
  else (s.claimsWritten data).debugOff (bitList 64 (data &&& ~~~ s.reg R.PWR_CLAIM_HART.off).toNat)

theorem State.claimHartSet_eq : s.claimHartSet data = (s.claimsShut data).claimEdges s := rfl

theorem mem_bitList_andNot {v w : W64} (hk : k < 64) : k ∈ bitList 64 (v &&& ~~~ w).toNat ↔ v.getLsbD k = true ∧ w.getLsbD k = false := by
  rw [mem_bitList, BitVec.testBit_toNat, BitVec.getLsbD_and, BitVec.getLsbD_not]
  simp [hk]

theorem State.claimsWritten_shape (s : State) (data : W64) : ∃ harts, s.claimsWritten data = { s.setReg R.PWR_CLAIM_HART.off data with harts } :=
  State.worldsOff_shape _ _

theorem State.claimsShut_shape (s : State) (data : W64) : ∃ harts, s.claimsShut data = { s.setReg R.PWR_CLAIM_HART.off data with harts } := by
  obtain ⟨_, hw⟩ := s.claimsWritten_shape data
  unfold State.claimsShut
  split
  · exact ⟨_, hw⟩
  · obtain ⟨_, hd⟩ := (s.claimsWritten data).debugOff_shape (bitList 64 (data &&& ~~~ s.reg R.PWR_CLAIM_HART.off).toNat)
    exact ⟨_, by rw [hd, hw]⟩

theorem State.world_claimsShut (hk : k < 64) : ((s.claimsShut data).hart k).world =
    ((s.hart k).world && (data.getLsbD k || !(s.reg R.PWR_CLAIM_HART.off).getLsbD k)) := by
  have hshut : ((s.claimsShut data).hart k).world = ((s.claimsWritten data).hart k).world := by
    unfold State.claimsShut
    split
    · rfl
    · rw [State.hart_debugOff]
      split <;> rfl
  rw [hshut, State.claimsWritten, State.hart_worldsOff]
  simp only [mem_bitList_andNot hk]
  split
  · next hrel => simp [hrel.1, hrel.2]
  · next hrel =>
    have hkeep : (data.getLsbD k || !(s.reg R.PWR_CLAIM_HART.off).getLsbD k) = true := by
      rw [not_and, Bool.not_eq_false] at hrel
      cases hold : (s.reg R.PWR_CLAIM_HART.off).getLsbD k
      · simp
      · simp [hrel hold]
    rw [hkeep, Bool.and_true]
    rfl

theorem State.debug_claimsShut (hk : k < 64) (hli : s.fld R.SEAM_DEBUG.OPEN % 2 = 0) (hnew : data.getLsbD k = true)
    (hold : (s.reg R.PWR_CLAIM_HART.off).getLsbD k = false) : ((s.claimsShut data).hart k).debug = false := by
  have hopen : ((s.claimsWritten data).fld R.SEAM_DEBUG.OPEN).testBit 0 = false := by
    obtain ⟨_, hw⟩ := s.claimsWritten_shape data
    have hfld : (s.claimsWritten data).fld R.SEAM_DEBUG.OPEN = s.fld R.SEAM_DEBUG.OPEN := by
      rw [hw]
      exact State.fld_setReg_ne (by decide)
    rw [hfld, Nat.testBit_zero, hli]
    rfl
  rw [State.claimsShut, if_neg (by rw [hopen]; exact Bool.false_ne_true), State.hart_debugOff, if_pos ((mem_bitList_andNot hk).2 ⟨hnew, hold⟩)]

/-! ### Claims of blocks (R302) -/

theorem exec_claimBlkWrite (hup : s.up = true) (hopen : s.opens who R.PWR_CLAIM_BLK.off) :
    exec (.claimBlkWrite who data) s = .next (s.claimBlkSet data) :=
  congrArg Host.Outcome.next ((State.whenUp_of_up hup).trans (State.regTry_of_opens hopen))

theorem getLsbD_engineTiles : ∀ k, k < 64 → engineTiles.getLsbD k = decide (k % 9 = 7 ∧ k < 36) := by decide

theorem getLsbD_claimBlk (hk : k < 64) : ((data &&& maskOf 0 36) ||| engineTiles).getLsbD k =
    (decide (k % 9 = 7 ∧ k < 36) || (data.getLsbD k && decide (k < 36))) := by
  rw [BitVec.getLsbD_or, BitVec.getLsbD_and, getLsbD_maskOf, getLsbD_engineTiles k hk, Bool.or_comm]
  simp [hk]

/-! ### Worlds of GPIO pins (R309) -/

theorem exec_gpioWorldWrite (hup : s.up = true) (hopen : s.opens who R.SEAM_GPIOW.off) :
    exec (.gpioWorldWrite who data) s = .next (s.gpiowWrite data) :=
  congrArg Host.Outcome.next ((State.whenUp_of_up hup).trans (State.regTry_of_opens hopen))

theorem State.fld_gpiowWrite : (s.gpiowWrite data).fld R.SEAM_GPIOW.LINING = data.toNat % 2 ^ 48 := by
  have hself : (s.gpiowWrite data).fld R.SEAM_GPIOW.LINING = getBits data 0 48 % 2 ^ 48 := State.fld_setFld_self (by decide)
  rw [hself, getBits_eq_div_mod, pow_zero, Nat.div_one, Nat.mod_mod]

/-- The pins that keep their direction: those whose world stays. -/
theorem testBit_gpioKeep {old p : Nat} (hp : p < 48) :
    ((2 ^ 48 - 1) ^^^ (old ^^^ getBits data 0 48)).testBit p = (old.testBit p == data.getLsbD p) := by
  rw [Nat.testBit_xor, Nat.testBit_xor, Nat.testBit_two_pow_sub_one, testBit_getBits, Nat.zero_add]
  cases old.testBit p <;> cases data.getLsbD p <;> simp [hp]

end

/-- Settles O46: claims by `claimsShut` and what `claimEdges` keeps, pins by `testBit_gpioKeep`. -/
theorem worldsAndClaims : Obligations.WorldsAndClaims := by
  intro s who h mode data hup old refused
  refine ⟨fun hh hold => ?claimed, fun hh hold => ?unclaimed, fun hh hm => exec_mworldWrite_illegal hup hh hm, fun hopen => ?harts, fun hopen => ?blocks,
    fun hopen => ?pins, fun ⟨_, htag, hadm⟩ => ?hartRefused, fun ⟨_, htag, hadm⟩ => ?blkRefused,
    fun ⟨_, htag, hadm⟩ => ?gpioRefused⟩
  case claimed => rw [exec_mworldWrite_m hup hh, if_pos hold]
  case unclaimed => rw [exec_mworldWrite_m hup hh, if_neg (by rw [hold]; exact Bool.false_ne_true)]
  case harts =>
    refine ⟨_, exec_claimHartWrite hup hopen, ?_⟩
    obtain ⟨hmem, hreg, hhart⟩ : (s.claimsShut data).ClaimKept (s.claimHartSet data) := State.claimKept_claimEdges
    obtain ⟨_, hshape⟩ := s.claimsShut_shape data
    refine ⟨?_, hmem.trans (by rw [hshape]; rfl), fun k hk => ⟨(hhart k).1.trans (State.world_claimsShut hk), fun hli hnew hold =>
      (hhart k).2.trans (State.debug_claimsShut hk hli hnew hold)⟩⟩
    rw [hreg _ (by decide), hshape]
    exact State.reg_setReg_self
  case blocks =>
    refine ⟨_, exec_claimBlkWrite hup hopen, ?_⟩
    obtain ⟨hmem, hreg, -⟩ : (s.setReg R.PWR_CLAIM_BLK.off ((data &&& maskOf 0 36) ||| engineTiles)).ClaimKept (s.claimBlkSet data) :=
      State.claimKept_claimEdges
    refine ⟨hmem, (hreg _ (by decide)).trans (State.reg_setReg_ne (by decide)), fun k hk => ?_⟩
    rw [hreg _ (by decide), State.reg_setReg_self, getLsbD_claimBlk hk]
  case pins =>
    refine ⟨_, exec_gpioWorldWrite hup hopen, State.fld_gpiowWrite, fun p hp => ⟨?_, ?_⟩⟩
    · exact (Nat.testBit_and _ _ _).trans (congrArg _ (testBit_gpioKeep hp))
    · exact (Nat.testBit_and _ _ _).trans (congrArg _ (testBit_gpioKeep hp))
  case hartRefused => exact congrArg Host.Outcome.next ((State.whenUp_of_up hup).trans (State.regTry_of_refused htag hadm))
  case blkRefused => exact congrArg Host.Outcome.next ((State.whenUp_of_up hup).trans (State.regTry_of_refused htag hadm))
  case gpioRefused => exact congrArg Host.Outcome.next ((State.whenUp_of_up hup).trans (State.regTry_of_refused htag hadm))

end Sys2Proof.Machine
end

section
/-!
O47. A request on a port's DOE mailbox is judged once: by the port, the connection's level and, inside a session, the session's state. What each request
answers then is its own effect.
-/

namespace Sys2Proof.Machine

section

variable {s t : State} {n sid lvl k : Nat} {f : State → State} {x : SpdmState} {key : List Byte}

/-! ### Requests (R320) -/

/-- A port that hears requests: its panel is not held, and its link is trained. -/
def State.doeReady (s : State) (n : Nat) : Prop :=
  s.up = true ∧ n < 32 ∧ s.panelHeld (n / 8) = false ∧ s.portOn false n = true ∧ (s.link n).trained = true

/-- A port in an established session. -/
def State.doeSession (s : State) (n sid : Nat) : Prop := s.doeReady n ∧ 3 ≤ (s.spdmOf n).conn ∧ smGet 0 (s.spdmOf n).sess sid = 2

theorem fnHome_pf (hn : n < 32) : fnHome (0x1000 + n) = n / 8 := by
  simp only [fnHome, isPf, Nat.le_add_right, decide_true, Bool.true_and]
  rw [if_pos (by simp; omega), Nat.add_sub_cancel_left]

theorem State.spdmReq_doeReady (h : s.doeReady n) : s.spdmReq n lvl f = if (s.spdmOf n).conn < lvl then s.spdmErr n 4 else f s := by
  obtain ⟨hup, hn, hheld, hon, hlink⟩ := h
  simp only [State.spdmReq, State.whenFn, State.whenPanel, fnHome_pf hn, hup, hheld, hn, hon, hlink, Bool.not_false, Bool.and_true, decide_true, if_true]

theorem State.spdmReq_negotiated (h : s.doeReady n) (hc : lvl ≤ (s.spdmOf n).conn) : s.spdmReq n lvl f = f s := by
  rw [State.spdmReq_doeReady h, if_neg (by omega)]

theorem State.spdmReq_early (h : s.doeReady n) (hc : (s.spdmOf n).conn < lvl) : s.spdmReq n lvl f = s.spdmErr n 4 := by
  rw [State.spdmReq_doeReady h, if_pos hc]

theorem State.spdmIn_established (h : s.doeSession n sid) : s.spdmIn n sid f = f s := by
  obtain ⟨hready, hc, hsess⟩ := h
  rw [State.spdmIn, State.spdmReq_negotiated hready hc, if_pos hsess]

theorem State.spdmIn_unknown (h : s.doeReady n) (hc : 3 ≤ (s.spdmOf n).conn) (hsess : smGet 0 (s.spdmOf n).sess sid ≠ 2) :
    s.spdmIn n sid f = s.spdmErr n 2 := by
  rw [State.spdmIn, State.spdmReq_negotiated h hc, if_neg hsess]

/-! ### The responder's state -/

@[simp] theorem State.spdmOf_setSpdm_self : (s.setSpdm n x).spdmOf n = x := smGet_put_self

theorem State.ideOf_setIde_self {v : Nat} : (s.setIde n k v).ideOf n k = v := by
  simp only [State.ideOf, State.setIde, State.spdmOf_setSpdm_self, smGet_put_self]

theorem length_freeBytes (m : Nat) : (s.freeBytes m).length = m := by
  simp [State.freeBytes]

/-! ### What is sent -/

/-- A command sends one response, leaves the registers, and its state has a property. -/
def Responds (i : Instr) (s : State) (n code : Nat) (l : List Byte) (p : State → Prop) : Prop :=
  Completes i s fun t => t.out = .spdm n code l :: s.out ∧ t.regs = s.regs ∧ p t

/-- A command that ends by sending a response does so. -/
theorem responds_of_spdmSend {i : Instr} {code : Nat} {l : List Byte} {p : State → Prop} (hi : exec i s = .next (t.spdmSend n code l))
    (hout : t.out = s.out) (hregs : t.regs = s.regs) (hp : p (t.spdmSend n code l)) : Responds i s n code l p :=
  ⟨_, hi, by rw [State.spdmSend, State.emit, hout], hregs, hp⟩

/-- The responder's state that a command leaves with its response. -/
theorem responds_of_setSpdm {i : Instr} {code : Nat} {l : List Byte} (hi : exec i s = .next ((s.setSpdm n x).spdmSend n code l)) :
    Responds i s n code l fun t => t.spdmOf n = x :=
  responds_of_spdmSend hi rfl rfl State.spdmOf_setSpdm_self

/-! ### Version, capabilities, algorithms -/

theorem exec_getVersion (h : s.doeReady n) :
    exec (.getVersion n) s = .next ((s.setSpdm n { s.spdmOf n with conn := 1, sess := [] }).spdmSend n 0x04 [0, 1, 0, 0x12]) :=
  congrArg Host.Outcome.next (State.spdmReq_negotiated h (Nat.zero_le _))

theorem exec_getCapabilities (h : s.doeReady n) (hc : 1 ≤ (s.spdmOf n).conn) : exec (.getCapabilities n) s =
    .next ((s.setSpdm n { s.spdmOf n with conn := max 2 (s.spdmOf n).conn }).spdmSend n 0x61 (leBytes 4 spdmCaps)) :=
  congrArg Host.Outcome.next (State.spdmReq_negotiated h hc)

theorem exec_negotiateAlgorithms {ok : Bool} (h : s.doeReady n) (hc : 2 ≤ (s.spdmOf n).conn) : exec (.negotiateAlgorithms n ok) s = .next (
    if ok then (s.setSpdm n { s.spdmOf n with conn := 3 }).spdmSend n 0x63 (leBytes 4 0x80 ++ leBytes 4 2 ++ leBytes 2 0x10 ++ leBytes 2 2)
    else s.spdmErr n 1) :=
  congrArg Host.Outcome.next (State.spdmReq_negotiated h hc)

/-! ### Digests, certificates, challenge, measurements -/

theorem exec_getDigests (h : s.doeReady n) (hc : 3 ≤ (s.spdmOf n).conn) :
    exec (.getDigests n) s = .next (s.spdmSend n 0x01 (1 :: sha384 (Config.spdmChain s.spool.keygen))) :=
  congrArg Host.Outcome.next (State.spdmReq_negotiated h hc)

theorem exec_getCertificate {off len : Nat} (h : s.doeReady n) (hc : 3 ≤ (s.spdmOf n).conn)
    (hoff : off < (Config.spdmChain s.spool.keygen).length) :
    let chain := Config.spdmChain s.spool.keygen
    let c := (chain.drop off).take len
    exec (.getCertificate n 0 off len) s =
      .next (s.spdmSend n 0x02 (leBytes 2 c.length ++ leBytes 2 (chain.length - off - c.length) ++ c)) :=
  congrArg Host.Outcome.next ((State.spdmReq_negotiated h hc).trans (if_neg (by simpa using hoff)))

theorem exec_challenge {nonce : List Byte} (h : s.doeReady n) (hc : 3 ≤ (s.spdmOf n).conn) (hnonce : nonce.length = 32) :
    exec (.challenge n 0 nonce) s =
      .next (s.drawn.spdmSend n 0x03 (sha384 (Config.spdmChain s.spool.keygen) ++ s.freeBytes 128)) :=
  congrArg Host.Outcome.next ((State.spdmReq_negotiated h hc).trans (if_neg (by simp [hnonce])))

theorem exec_getMeasurements {op : Nat} {sign : Bool} {nonce b : List Byte} (h : s.doeReady n) (hc : 3 ≤ (s.spdmOf n).conn)
    (hb : s.measured op = some b) : exec (.getMeasurements n op sign nonce) s =
      .next (s.drawn.spdmSend n 0x60 (leBytes 1 (if op = 0 then 7 else b.length / 49) ++ b ++ if sign then s.freeBytes 128 else [])) := by
  refine congrArg Host.Outcome.next ((State.spdmReq_negotiated h hc).trans ?_)
  simp only [hb]

theorem exec_getMeasurements_unknown {op : Nat} {sign : Bool} {nonce : List Byte} (h : s.doeReady n) (hc : 3 ≤ (s.spdmOf n).conn)
    (hb : s.measured op = none) : exec (.getMeasurements n op sign nonce) s = .next (s.spdmErr n 1) := by
  refine congrArg Host.Outcome.next ((State.spdmReq_negotiated h hc).trans ?_)
  simp only [hb]

/-! ### Sessions -/

theorem exec_keyExchange {pub : List Byte} (h : s.doeReady n) (hc : 3 ≤ (s.spdmOf n).conn) (hpub : pub.length = 96) :
    let x := s.spdmOf n
    exec (.keyExchange n pub) s =
      .next (((s.setSpdm n { x with sess := smIns x.sess x.nextSid 1, nextSid := x.nextSid + 1 }).drawn).spdmSend n 0x64
        (leBytes 2 x.nextSid ++ s.freeBytes 224)) :=
  congrArg Host.Outcome.next ((State.spdmReq_negotiated h hc).trans (if_neg (by simp [hpub])))

theorem exec_finish {ok : Bool} (h : s.doeReady n) (hc : 3 ≤ (s.spdmOf n).conn) (hsess : smGet 0 (s.spdmOf n).sess sid = 1) :
    let x := s.spdmOf n
    exec (.finish n sid ok) s = .next (
      if ok then (s.setSpdm n { x with sess := smIns x.sess sid 2 }).spdmSend n 0x65 []
      else (s.setSpdm n { x with sess := smDel x.sess sid }).spdmErr n 6) :=
  congrArg Host.Outcome.next ((State.spdmReq_negotiated h hc).trans (if_neg (not_not_intro hsess)))

theorem exec_keyUpdate {op : Nat} (h : s.doeSession n sid) (h1 : 1 ≤ op) (h3 : op ≤ 3) :
    exec (.keyUpdate n sid op) s = .next (s.spdmSend n 0x69 (leBytes 1 op)) :=
  congrArg Host.Outcome.next ((State.spdmIn_established h).trans (if_pos ⟨h1, h3⟩))

theorem exec_spdmHeartbeat (h : s.doeSession n sid) : exec (.spdmHeartbeat n sid) s = .next (s.spdmSend n 0x68 []) :=
  congrArg Host.Outcome.next (State.spdmIn_established h)

theorem exec_endSession (h : s.doeSession n sid) : exec (.endSession n sid) s =
    .next ((s.setSpdm n { s.spdmOf n with sess := smDel (s.spdmOf n).sess sid }).spdmSend n 0x6C []) :=
  congrArg Host.Outcome.next (State.spdmIn_established h)

/-! ### IDE (R321) -/

/-- What an IDE_KM request leaves: a stream's state, and the acknowledgement. -/
def State.ideTaken (s : State) (n k v obj status : Nat) : State := (s.setIde n k v).ideAck n obj k status

theorem exec_ideKm_query (h : s.doeSession n sid) : exec (.ideKm n sid k .query key) s =
    .next (s.emit (.spdm n 0x7E (1 :: (List.range 4).map fun j => BitVec.ofNat 8 (s.ideOf n j)))) :=
  congrArg Host.Outcome.next (State.spdmIn_established h)

theorem exec_ideKm_keyProg (h : s.doeSession n sid) : exec (.ideKm n sid k .keyProg key) s = .next (
    if 4 ≤ k then s.ideAck n 3 k 3 else if key.length ≠ 32 then s.ideAck n 3 k 1 else s.ideTaken n k 1 3 0) := by
  refine congrArg Host.Outcome.next ((State.spdmIn_established h).trans ?_)
  simp only [bne_iff_ne, State.ideTaken]

theorem exec_ideKm_setGo (h : s.doeSession n sid) : exec (.ideKm n sid k .setGo key) s = .next (
    if k < 4 ∧ 1 ≤ s.ideOf n k then s.ideTaken n k 2 6 0 else s.ideAck n 6 k 3) := by
  refine congrArg Host.Outcome.next ((State.spdmIn_established h).trans ?_)
  simp only [Bool.and_eq_true, decide_eq_true_eq, State.ideTaken]

theorem exec_ideKm_setStop (h : s.doeSession n sid) : exec (.ideKm n sid k .setStop key) s = .next (
    if k < 4 ∧ s.ideOf n k = 2 then s.ideTaken n k 3 6 0 else s.ideAck n 6 k 3) := by
  refine congrArg Host.Outcome.next ((State.spdmIn_established h).trans ?_)
  simp only [Bool.and_eq_true, decide_eq_true_eq, beq_iff_eq, State.ideTaken]

/-- A command acknowledges an IDE_KM request and leaves a stream in a state. -/
def IdeAcks (i : Instr) (s : State) (n k v obj status : Nat) : Prop := Completes i s fun t =>
  t.out = .spdm n 0x7E [BitVec.ofNat 8 obj, BitVec.ofNat 8 k, BitVec.ofNat 8 status] :: s.out ∧ t.ideOf n k = v ∧ t.regs = s.regs

theorem ideAcks_of_ideTaken {i : Instr} {v obj status : Nat} (hi : exec i s = .next (s.ideTaken n k v obj status)) : IdeAcks i s n k v obj status :=
  ⟨_, hi, rfl, State.ideOf_setIde_self, rfl⟩

theorem ideAcks_of_ideAck {i : Instr} {obj status : Nat} (hi : exec i s = .next (s.ideAck n obj k status)) :
    IdeAcks i s n k (s.ideOf n k) obj status :=
  ⟨_, hi, rfl, rfl, rfl⟩

theorem exec_ideIntegrityFailure_secure (hup : s.up = true) (hn : n < 32) (hk : k < 4) (hst : s.ideOf n k = 2) :
    exec (.ideIntegrityFailure n k none) s = .next (s.setIde n k 3) :=
  congrArg Host.Outcome.next ((State.whenUp_of_up hup).trans (if_pos (by simp [hn, hk, hst])))

theorem exec_ideIntegrityFailure_insecure {tag : Option Nat} (hup : s.up = true) (hst : s.ideOf n k ≠ 2) :
    exec (.ideIntegrityFailure n k tag) s = .next s :=
  congrArg Host.Outcome.next ((State.whenUp_of_up hup).trans (if_neg (by simp [hst])))

end

/-- Settles O47: each request from its `exec_` lemma. -/
theorem spdmAndIde : Obligations.SpdmAndIde := by
  refine ⟨?spdm, ?ide⟩
  case spdm =>
    intro s n op off len sid sign pub nonce b hup hn hheld hon hlink x chain bad sends as
    have hready : s.doeReady n := ⟨hup, hn, hheld, hon, hlink⟩
    refine ⟨?version, fun hc => ?caps, fun hc => ⟨?algs, ?algsBad⟩, fun hc => ⟨?early1, ?early2, ?early3⟩, fun hc =>
      ⟨?digests, fun hoff => ?cert, fun hnonce => ?challenge, fun hb => ?measure, fun hb => exec_getMeasurements_unknown hready hc hb, fun hpub => ?keyEx,
        fun hsess => ⟨?finish, ?finishBad⟩, fun hsess => ?inside, fun hsess => ?outside⟩⟩
    case version => exact responds_of_setSpdm (exec_getVersion hready)
    case caps => exact responds_of_setSpdm (exec_getCapabilities hready hc)
    case algs => exact responds_of_setSpdm (exec_negotiateAlgorithms hready hc)
    case algsBad => exact exec_negotiateAlgorithms hready hc
    case early1 => exact congrArg Host.Outcome.next (State.spdmReq_early hready hc)
    case early2 => exact congrArg Host.Outcome.next (State.spdmReq_early hready hc)
    case early3 => exact congrArg Host.Outcome.next (State.spdmReq_early hready hc)
    case digests => exact responds_of_spdmSend (exec_getDigests hready hc) rfl rfl rfl
    case cert => exact responds_of_spdmSend (exec_getCertificate hready hc hoff) rfl rfl rfl
    case challenge => exact ⟨s.freeBytes 128, length_freeBytes 128, responds_of_spdmSend (exec_challenge hready hc hnonce) rfl rfl rfl⟩
    case measure =>
      refine ⟨if sign then s.freeBytes 128 else [], ?_, responds_of_spdmSend (exec_getMeasurements hready hc hb) rfl rfl rfl⟩
      cases sign
      · rfl
      · exact length_freeBytes 128
    case keyEx =>
      exact ⟨s.freeBytes 224, length_freeBytes 224, responds_of_spdmSend (exec_keyExchange hready hc hpub) rfl rfl
        ⟨(congrArg (smGet 0 ·.sess x.nextSid) State.spdmOf_setSpdm_self).trans smGet_ins_self, congrArg SpdmState.nextSid State.spdmOf_setSpdm_self⟩⟩
    case finish =>
      exact responds_of_spdmSend (exec_finish hready hc hsess) rfl rfl ((congrArg (smGet 0 ·.sess sid) State.spdmOf_setSpdm_self).trans smGet_ins_self)
    case finishBad =>
      exact responds_of_spdmSend (exec_finish hready hc hsess) rfl rfl ((congrArg (smGet 0 ·.sess sid) State.spdmOf_setSpdm_self).trans smGet_del_self)
    case inside =>
      have hin : s.doeSession n sid := ⟨hready, hc, hsess⟩
      exact ⟨fun h1 h3 => responds_of_spdmSend (exec_keyUpdate hin h1 h3) rfl rfl rfl, responds_of_spdmSend (exec_spdmHeartbeat hin) rfl rfl rfl,
        responds_of_spdmSend (exec_endSession hin) rfl rfl ((congrArg (smGet 0 ·.sess sid) State.spdmOf_setSpdm_self).trans smGet_del_self)⟩
    case outside =>
      have hout {f : State → State} : s.spdmIn n sid f = s.spdmErr n 2 := State.spdmIn_unknown hready hc hsess
      exact ⟨congrArg Host.Outcome.next hout, congrArg Host.Outcome.next hout, congrArg Host.Outcome.next hout⟩
  case ide =>
    intro s n sid k key hup hn st acks
    refine ⟨fun hheld hon hlink hc hsess => ?inside, fun hk hst => ?failure, fun hst tag => ?insecure⟩
    case inside =>
      have hin : s.doeSession n sid := ⟨⟨hup, hn, hheld, hon, hlink⟩, hc, hsess⟩
      refine ⟨exec_ideKm_query hin, fun hk hlen => ?prog, fun hk hlen => ?wrongLen, fun hk => ⟨?noProg, ?noGo, ?noStop⟩, fun hk hst => ?go,
        fun hk hst => ?goEmpty, fun hk hst => ?stop⟩
      case prog => exact ideAcks_of_ideTaken (by rw [exec_ideKm_keyProg hin, if_neg (by omega), if_neg (not_not_intro hlen)])
      case wrongLen => exact ideAcks_of_ideAck (by rw [exec_ideKm_keyProg hin, if_neg (by omega), if_pos hlen])
      case noProg => exact ideAcks_of_ideAck (by rw [exec_ideKm_keyProg hin, if_pos hk])
      case noGo => exact ideAcks_of_ideAck (by rw [exec_ideKm_setGo hin, if_neg (by omega)])
      case noStop => exact ideAcks_of_ideAck (by rw [exec_ideKm_setStop hin, if_neg (by omega)])
      case go => exact ideAcks_of_ideTaken (by rw [exec_ideKm_setGo hin, if_pos ⟨hk, hst⟩])
      case goEmpty => exact hst ▸ ideAcks_of_ideAck (by rw [exec_ideKm_setGo hin, if_neg (by omega)])
      case stop => exact ideAcks_of_ideTaken (by rw [exec_ideKm_setStop hin, if_pos ⟨hk, hst⟩])
    case failure => exact ⟨_, exec_ideIntegrityFailure_secure hup hn hk hst, State.ideOf_setIde_self, rfl, rfl⟩
    case insecure => exact exec_ideIntegrityFailure_insecure hup hst

end Sys2Proof.Machine
end

section
/-!
O48. Each command reaches its body by `State.command_admits`; a key slot's change is written to the two boot slots one after the other, and a debug enable
by `State.debugSet`.
-/

namespace Sys2Proof.Machine

section

variable {s : State} {r : OnfReq} {slot perm sender mask i k : Nat} {wrapped key nonce : List Byte} {own : Nat × SenderKey} {x y : SenderKey}
  {okI okA : Bool} {e : Option (List Byte)}

/-! ### Stored keys (R319) -/

theorem State.store_storePut_self {b : Nat} : smGet [] (s.storePut b k e).spool.store (64 * b + k) = e.getD [] := by
  cases e with
  | none => exact smGet_del_self
  | some l => exact smGet_ins_self

theorem State.store_storePut_ne {b j : Nat} (h : j ≠ 64 * b + k) : smGet [] (s.storePut b k e).spool.store j = smGet [] s.spool.store j := by
  cases e with
  | none => exact smGet_del_ne h
  | some l => exact smGet_ins_ne h

/-- Both boot slots hold the change, the inactive one first. -/
def State.storedBoth (s : State) (k : Nat) (e : Option (List Byte)) : State := (s.storePut s.otherSlot k e).storePut s.slot k e

theorem State.slot_lt (s : State) : s.slot < 2 := State.fld_lt

theorem State.store_storedBoth {b : Nat} (hb : b < 2) : smGet [] (s.storedBoth k e).spool.store (64 * b + k) = e.getD [] := by
  have hslot := s.slot_lt
  by_cases hact : b = s.slot
  · rw [hact]
    exact State.store_storePut_self
  · have hother : b = s.otherSlot := by
      unfold State.otherSlot
      omega
    rw [State.storedBoth, State.store_storePut_ne (by omega), hother]
    exact State.store_storePut_self

theorem State.keyStore_done {effect : State → State} : s.keyStore r k e true true effect = (effect (s.storedBoth k e)).reply r 0x0901 0 [] := rfl

/-! ### KEY_SENDER -/

/-- The key that an installation makes. -/
def State.newKey (s : State) (slot perm sender : Nat) (key : List Byte) : SenderKey :=
  { sender := sender, key := key, perms := perm, revoked := false, ctr := s.startCtr slot sender s.onf.floor }

theorem exec_keySenderInstall (h : s.admits r 0x0901 = true) (h0 : 1 ≤ slot) (h63 : slot ≤ 63) (hperm : perm ≤ 63) (hsender : sender < 2 ^ 32)
    (hown : (s.taken r).keyOf r.sender = some own) (hkey : keyUnwrap own.2.key wrapped = some key) :
    let x := (s.taken r).newKey slot perm sender key
    exec (.keySenderInstall r slot perm sender wrapped okI okA) s =
      .next ((s.taken r).keyStore r slot (some (storedEntry x)) okI okA fun t => t.setKey slot x) := by
  have hok : (decide (slot = 0) || decide (63 < slot) || decide (63 < perm) || decide (2 ^ 32 ≤ sender)) = false := by
    simp only [Bool.or_eq_false_iff, decide_eq_false_iff_not]
    omega
  refine congrArg Host.Outcome.next ((State.command_admits h).trans ?_)
  simp only [hok, hown, hkey, Bool.false_eq_true, if_false]
  rfl

theorem exec_keySenderRevoke (h : s.admits r 0x0901 = true)
    (hk : (s.taken r).onf.keys.find? (fun e => e.1 == slot && !e.2.revoked) = some (slot, x)) :
    exec (.keySenderRevoke r slot okI okA) s = .next (
      if !(s.taken r).keysLeft slot then (s.taken r).reply r 0x0901 E.PARAM []
      else if slot = 0 then (s.taken r).factoryRetire r x
      else (s.taken r).keyStore r slot none okI okA fun t => t.setKey slot { x with revoked := true }) := by
  refine congrArg Host.Outcome.next ((State.command_admits h).trans ?_)
  simp only [hk]

theorem State.keys_setKey_self : smGet SenderKey.none (s.setKey k x).onf.keys k = x := smGet_put_self

/-- The burn of FACTORY_KEY_OFF is asked for. -/
def State.factoryBurn (s : State) : State := ((s.drawn.setFld R.FUSE_PROG.FIELD 6).setBit R.FUSE_PROG.GO).setBit R.FUSE_PROG.BUSY

/-- The fuse of the factory key burns, and the key is revoked. -/
def State.factoryRetired (s : State) (x : SenderKey) : State :=
  ({ s.factoryBurn with spool := { s.factoryBurn.spool with burn := some (6, 0, []) } }).setKey 0 { x with revoked := true }

theorem State.factoryRetire_burns (hbusy : s.bit R.FUSE_PROG.BUSY = false) (hvpp : Config.vppOk s.freeCtr = true) :
    s.factoryRetire r x = (s.factoryRetired x).reply r 0x0901 0 [] := by
  simp only [State.factoryRetire, hbusy, hvpp, Bool.not_true, Bool.false_eq_true, if_false]
  rfl

theorem State.factoryRetired_spec : smGet SenderKey.none (s.factoryRetired x).onf.keys 0 = { x with revoked := true } ∧
    (s.factoryRetired x).spool.burn = some (6, 0, []) ∧ (s.factoryRetired x).bit R.FUSE_PROG.BUSY = true := by
  refine ⟨State.keys_setKey_self, rfl, ?_⟩
  have hregs : (s.factoryRetired x).regs = s.factoryBurn.regs := rfl
  rw [State.bit_of_fld (State.fld_of_reg (State.reg_of_regs hregs)), State.factoryBurn, State.bit_setBit_self (by decide) (by decide)]

/-! ### ATTEST (R56) -/

theorem exec_attest {certs : Nat} (h : s.admits r 0x0902 = true) (hnonce : nonce.length = 32) (hc : certs ≤ 1) :
    let u := s.taken r
    let l := Config.attestCerts u.spool.keygen
    exec (.attest r nonce certs) s = .next (u.drawn.reply r 0x0902 0
      (u.report nonce ++ u.freeBytes 3405 ++ zeros 3 ++ if certs = 1 then leBytes 4 l.length ++ l else [])) := by
  refine congrArg Host.Outcome.next ((State.command_admits h).trans (if_neg ?_))
  simp only [hnonce, bne_self_eq_false, Bool.or_false, decide_eq_true_eq]
  omega

/-! ### DEBUG_UNLOCK (R312, R314) -/

theorem debugImplied_lt (m : Nat) : debugImplied m < 2 ^ 4 := by
  unfold debugImplied
  refine Nat.or_lt_two_pow (Nat.or_lt_two_pow (Nat.mod_lt _ (by decide)) ?_) ?_
  · split <;> decide
  · split <;> decide

theorem State.debugSet_spec {m : Nat} (hm : m < 2 ^ 4) : (s.debugSet m).fld R.SEAM_DEBUG.OPEN = m ∧ (s.debugSet m).mem = s.mem := by
  unfold State.debugSet
  split
  · next he => exact ⟨he, rfl⟩
  · refine ⟨?_, State.evtOnAll_mem ..⟩
    rw [State.fld_of_reg (State.reg_of_regs (State.evtOnAll_regs ..)), State.fld_setFld_self (by decide)]
    exact Nat.mod_eq_of_lt hm

theorem exec_debugUnlockOpen (h : s.admits r 0x0903 = true) (hm : mask ≤ 15) : exec (.debugUnlockOpen r mask Config.serial) s = .next (
    if (List.range 4).any fun i => mask.testBit i && decide (2 ≤ (s.taken r).dbgPolicy i) then (s.taken r).reply r 0x0903 E.LOCKED []
    else ((s.taken r).debugSet (debugImplied ((s.taken r).fld R.SEAM_DEBUG.OPEN ||| mask))).reply r 0x0903 0 []) :=
  congrArg Host.Outcome.next ((State.command_admits h).trans (if_neg (by simp; omega)))

theorem exec_debugUnlockClose (h : s.admits r 0x0903 = true) (hm : mask ≤ 15) : exec (.debugUnlockClose r mask Config.serial) s = .next (
    ((s.taken r).debugSet (debugImplied ((s.taken r).fld R.SEAM_DEBUG.OPEN &&& (15 ^^^ mask)))).reply r 0x0903 0 []) :=
  congrArg Host.Outcome.next ((State.command_admits h).trans (if_neg (by simp; omega)))

/-- Some enable of a mask is closed for good. -/
theorem policyLocked_iff : ((List.range 4).any fun i => mask.testBit i && decide (2 ≤ s.dbgPolicy i)) = true ↔
    ∃ j, j < 4 ∧ mask.testBit j = true ∧ 2 ≤ s.dbgPolicy j := by
  simp only [List.any_eq_true, List.mem_range, Bool.and_eq_true, decide_eq_true_eq]

/-! ### HALT_REQUEST (R312) -/

theorem exec_haltRequest_hart (hup : s.up = true) (hi : i < 64) (hrel : (s.hart i).released = true) :
    exec (.haltRequest (.hart i)) s = .next (
      if s.debugOpen (if (s.reg R.PWR_CLAIM_HART.off).getLsbD i then 0 else 2) then s.setHart i { s.hart i with debug := true, wfi := false } else s) := by
  refine congrArg Host.Outcome.next ((State.whenUp_of_up hup).trans ?_)
  simp only [hi, hrel, decide_true, Bool.true_and, Bool.and_true]

theorem exec_haltRequest_bobbin (hup : s.up = true) (hi : i < 32) (hopen : s.debugOpen (if engPriv i then 0 else 2) = true)
    (hrun : (s.eng i).st = .running) :
    exec (.haltRequest (.bobbin i)) s = .next (s.setEng i { s.eng i with st := .stopped, stopReq := false }) :=
  congrArg Host.Outcome.next ((State.whenUp_of_up hup).trans (if_pos (by simp [hi, hopen, hrun])))

end

/-- Settles O48: keys from `store_storedBoth`, debug enables from `debugSet_spec`, the rest from the `exec_` lemmas. -/
theorem keysAttestationDebug : Obligations.KeysAttestationDebug := by
  intro s r slot perm sender mask i wrapped key nonce own k ok u x stored reported certs opened
  refine ⟨fun hadm h0 h63 hperm hsender hown hkey => ⟨?install, ?noFlash, ?halfFlash⟩, fun hadm hk => ⟨fun hleft => ?lastKey, fun hleft hslot => ?revoke,
    fun hleft hslot hbusy hvpp => ?retire⟩, fun hadm hnonce => ?attest, fun hadm hm => ⟨fun hpol => ?unlock, fun hi hbit hpol => ?locked, ?close⟩,
    fun hup hi hrel => exec_haltRequest_hart hup hi hrel, fun hup hi hopen hrun => exec_haltRequest_bobbin hup hi hopen hrun⟩
  case install =>
    exact ⟨_, exec_keySenderInstall hadm h0 h63 hperm hsender hown hkey, State.keys_setKey_self, fun b hb => State.store_storedBoth hb, rfl⟩
  case noFlash => exact exec_keySenderInstall hadm h0 h63 hperm hsender hown hkey
  case halfFlash => exact ⟨_, exec_keySenderInstall hadm h0 h63 hperm hsender hown hkey, rfl⟩
  case lastKey => rw [exec_keySenderRevoke hadm hk, if_pos (by rw [hleft]; rfl)]
  case revoke =>
    refine ⟨(u.storedBoth slot none).setKey slot { k with revoked := true }, ?_, State.keys_setKey_self, fun b hb => State.store_storedBoth hb⟩
    rw [exec_keySenderRevoke hadm hk, if_neg (by rw [hleft]; exact Bool.false_ne_true), if_neg hslot, State.keyStore_done]
  case retire =>
    refine ⟨u.factoryRetired k, ?_, State.factoryRetired_spec⟩
    rw [exec_keySenderRevoke hadm hk, if_neg (by rw [hleft]; exact Bool.false_ne_true), if_pos hslot, State.factoryRetire_burns hbusy hvpp]
  case attest =>
    refine ⟨u.freeBytes 3405, length_freeBytes 3405, ?_, exec_attest hadm hnonce (le_refl 1)⟩
    rw [exec_attest hadm hnonce (Nat.zero_le 1), if_neg Nat.zero_ne_one, List.append_nil]
  case unlock =>
    have hfree : ¬ ∃ j, j < 4 ∧ mask.testBit j = true ∧ 2 ≤ u.dbgPolicy j := fun ⟨j, hj, hbit, hlock⟩ => Nat.not_lt_of_le hlock (hpol j hj hbit)
    exact ⟨_, (exec_debugUnlockOpen hadm hm).trans (by rw [if_neg (mt policyLocked_iff.1 hfree)]), State.debugSet_spec (debugImplied_lt _)⟩
  case locked => rw [exec_debugUnlockOpen hadm hm, if_pos (policyLocked_iff.2 ⟨i, hi, hbit, hpol⟩)]
  case close => exact ⟨_, exec_debugUnlockClose hadm hm, State.debugSet_spec (debugImplied_lt _)⟩

end Sys2Proof.Machine
end

section
/-!
O49. An access that a Seam checker judges (`State.memCheck`) reaches a memory; what a bus read or write then does is the checker's answer, and each
command's end follows from it.
-/

namespace Sys2Proof.Machine

section

variable {s u : State} {who : Agent} {k : AccKind} {a n h c r len : Nat} {b : List Byte} {fetch : Bool} {en : DbgEnable}

/-! ### Bus accesses to memory (R306) -/

/-- What the checker's answer makes of a read. -/
def State.readAs (s : State) (who : Agent) (k : AccKind) (a n : Nat) : MemRes → State × BusRes
  | .ok => (s.drawn, .data (s.devRead a n))
  | .refused c r => (s.violation who k c r a, .refused)
  | .poison => (s, .poison)
  | .unbacked => (s, .unbacked)

/-- A checker answers only for a memory that it guards. -/
theorem State.table_of_memCheck (hn : n ≠ 0) (h : s.memCheck who a n k ≠ .unbacked) : ∃ t, (s.physKind a).table = some t := by
  unfold State.memCheck at h
  rw [if_neg hn] at h
  split at h
  · exact absurd rfl h
  · split at h
    · next t ht => exact ⟨t, ht⟩
    · exact absurd rfl h

theorem State.busRead_memory (hn : n ≠ 0) {m : MemRes} (hm : s.memCheck who a n k = m) (hback : m ≠ .unbacked) :
    s.busRead who k a n = s.readAs who k a n m := by
  subst hm
  obtain ⟨t, ht⟩ := State.table_of_memCheck hn hback
  unfold State.busRead
  split
  · next hk => simp [hk, PhysKind.table] at ht
  · next hk => simp [hk, PhysKind.table] at ht
  · next hk => simp [hk, PhysKind.table] at ht
  · cases s.memCheck who a n k <;> rfl

/-- What the checker's answer makes of a write. -/
def State.writeAs (s : State) (who : Agent) (a : Nat) (b : List Byte) : MemRes → State × Option Bool
  | .ok => ((s.devWrite a b).unpoison a b.length, some false)
  | .refused c r => (s.violation who .write c r a, some true)
  | .poison => ((s.devWrite a b).unpoison a b.length, some false)
  | .unbacked => (s, none)

theorem State.busWrite_memory (hb : b ≠ []) {m : MemRes} (hm : s.memCheck who a b.length .write = m) (hback : m ≠ .unbacked) :
    s.busWrite who a b = s.writeAs who a b m := by
  subst hm
  obtain ⟨t, ht⟩ := State.table_of_memCheck (mt List.length_eq_zero_iff.1 hb) hback
  unfold State.busWrite
  split
  · next hk => simp [hk, PhysKind.table] at ht
  · next hk => simp [hk, PhysKind.table] at ht
  · next hk => simp [hk, PhysKind.table] at ht
  · cases s.memCheck who a b.length .write <;> rfl

/-! ### Loads and fetches -/

/-- The kind of a load's access, and the cause of its access fault. -/
def loadKind (fetch : Bool) : AccKind := if fetch then .fetch else .read
def loadCause (fetch : Bool) : Nat := if fetch then trapFetch else trapLoad

/-- A load ends as its bus read does. -/
def State.loadEnds (s : State) (h cause : Nat) : BusRes → State
  | .data b => s.emit (.readData b)
  | .unbacked => s.hartTrap h cause
  | .refused => (s.emit .readPoison).hartTrap h cause
  | .poison => (s.emit .readPoison).hartTrap h cause

theorem exec_hartLoad_reaches (hup : s.up = true) (hrun : s.hartRuns h = true) (hlen : len ≠ 0) (hfetch : fetch = true → s.cacheable a = true)
    (halign : s.cacheable a = true ∨ a % len = 0) : exec (.hartLoad h a len fetch) s =
      .next ((s.busRead (.hart h) (loadKind fetch) a len).1.loadEnds h (loadCause fetch) (s.busRead (.hart h) (loadKind fetch) a len).2) := by
  have hf : (fetch && !s.fetchable a) = false := by
    simp only [State.fetchable, Bool.and_eq_false_imp, Bool.not_eq_false']
    exact hfetch
  have ha : (!s.cacheable a && a % len != 0) = false := by
    rcases halign with hc | ha
    · simp [hc]
    · simp [ha]
  refine congrArg Host.Outcome.next ((State.whenUp_of_up hup).trans ?_)
  simp only [hrun, hf, ha, beq_eq_false_iff_ne.2 hlen, Bool.not_true, Bool.or_self, Bool.false_eq_true, if_false]
  unfold loadKind loadCause
  generalize s.busRead (.hart h) (if fetch = true then .fetch else .read) a len = p
  obtain ⟨u, x⟩ := p
  cases x <;> rfl

/-- A load of memory ends as the checker answers. -/
theorem exec_hartLoad_memory (hup : s.up = true) (hrun : s.hartRuns h = true) (hlen : len ≠ 0) (hfetch : fetch = true → s.cacheable a = true)
    (halign : s.cacheable a = true ∨ a % len = 0) {m : MemRes} (hm : s.memCheck (.hart h) a len (loadKind fetch) = m) (hback : m ≠ .unbacked) :
    exec (.hartLoad h a len fetch) s = .next (
      (s.readAs (.hart h) (loadKind fetch) a len m).1.loadEnds h (loadCause fetch) (s.readAs (.hart h) (loadKind fetch) a len m).2) := by
  rw [exec_hartLoad_reaches hup hrun hlen hfetch halign, State.busRead_memory hlen hm hback]

theorem exec_hartLoad_traps (hup : s.up = true) (hrun : s.hartRuns h = true) (hlen : len ≠ 0) (hc : s.cacheable a = false)
    (hbad : fetch = true ∨ a % len ≠ 0) : exec (.hartLoad h a len fetch) s = .next (s.hartTrap h (loadCause fetch)) := by
  refine congrArg Host.Outcome.next ((State.whenUp_of_up hup).trans ?_)
  simp only [hrun, hc, State.fetchable, beq_eq_false_iff_ne.2 hlen, Bool.not_true, Bool.not_false, Bool.or_self, Bool.and_true, Bool.true_and,
    Bool.false_eq_true, if_false, bne_iff_ne]
  rcases hbad with hf | hm
  · exact if_pos hf
  · rw [if_pos hm]
    exact ite_self _

/-! ### Stores -/

theorem exec_hartStore_reaches {o : Bool} (hup : s.up = true) (hrun : s.hartRuns h = true) (hb : b ≠ []) (halign : s.cacheable a = true ∨ a % b.length = 0)
    (hw : s.busWrite (.hart h) a b = (u, some o)) : exec (.hartStore h a b) s = .next u := by
  have ha : (!s.cacheable a && a % b.length != 0) = false := by
    rcases halign with hc | ha
    · simp [hc]
    · simp [ha]
  refine congrArg Host.Outcome.next ((State.whenUp_of_up hup).trans ?_)
  simp only [hrun, ha, hw, List.isEmpty_eq_false_iff.2 hb, Bool.not_true, Bool.or_self, Bool.false_eq_true, if_false]

theorem exec_hartStore_traps (hup : s.up = true) (hrun : s.hartRuns h = true) (hb : b ≠ []) (hc : s.cacheable a = false) (ha : a % b.length ≠ 0) :
    exec (.hartStore h a b) s = .next (s.hartTrap h trapStore) := by
  refine congrArg Host.Outcome.next ((State.whenUp_of_up hup).trans ?_)
  simp only [hrun, hc, List.isEmpty_eq_false_iff.2 hb, bne_iff_ne.2 ha, Bool.not_true, Bool.not_false, Bool.or_self, Bool.and_self, Bool.false_eq_true,
    if_false, if_true]

/-! ### Cache-block operations (R325) -/

theorem exec_cboRead {i : Instr} (hi : i = .cboClean h a ∨ i = .cboFlush h a ∨ i = .cboInval h a) (hup : s.up = true) (hrun : s.hartRuns h = true)
    (hc : s.cacheable (a / 64 * 64) = true) :
    exec i s = .next (s.logMem (.hart h) .read (a / 64 * 64) (s.memCheck (.hart h) (a / 64 * 64) 64 .read)) := by
  have hcbo : exec i s = .next (s.cboRead h a) := by
    rcases hi with rfl | rfl | rfl <;> rfl
  rw [hcbo, State.cboRead, State.whenUp_of_up hup]
  simp only [hrun, hc, Bool.and_self, if_true]
  cases s.memCheck (.hart h) (a / 64 * 64) 64 .read <;> rfl

theorem exec_cboZero_traps (hup : s.up = true) (hrun : s.hartRuns h = true) (hc : s.cacheable (a / 64 * 64) = false) :
    exec (.cboZero h a) s = .next (s.hartTrap h trapStore) := by
  refine congrArg Host.Outcome.next ((State.whenUp_of_up hup).trans ?_)
  simp only [hrun, hc, Bool.not_true, Bool.not_false, Bool.false_eq_true, if_false, if_true]

theorem exec_cboZero_ok (hup : s.up = true) (hrun : s.hartRuns h = true) (hc : s.cacheable (a / 64 * 64) = true)
    (hm : s.memCheck (.hart h) (a / 64 * 64) 64 .write = .ok) :
    exec (.cboZero h a) s = .next ((s.devWrite (a / 64 * 64) (zeros 64)).unpoison (a / 64 * 64) 64) := by
  refine congrArg Host.Outcome.next ((State.whenUp_of_up hup).trans ?_)
  simp only [hrun, hc, hm, Bool.not_true, Bool.false_eq_true, if_false]

theorem exec_cboZero_refused (hup : s.up = true) (hrun : s.hartRuns h = true) (hc : s.cacheable (a / 64 * 64) = true)
    (hm : s.memCheck (.hart h) (a / 64 * 64) 64 .write = .refused c r) :
    exec (.cboZero h a) s = .next (s.violation (.hart h) .write c r (a / 64 * 64)) := by
  refine congrArg Host.Outcome.next ((State.whenUp_of_up hup).trans ?_)
  simp only [hrun, hc, hm, Bool.not_true, Bool.false_eq_true, if_false]

/-! ### System-bus accesses of a debugger (Table 10-4) -/

theorem exec_systemBusAccess_closed {wr : Option (List Byte)} (hup : s.up = true) (hclosed : (s.fld R.SEAM_DEBUG.OPEN).testBit (dbgBit en) = false) :
    exec (.systemBusAccess en a wr n) s = .next s := by
  refine congrArg Host.Outcome.next ((State.whenUp_of_up hup).trans ?_)
  simp only [hclosed, Bool.not_false, if_true]

theorem exec_systemBusAccess_write {o : Option Bool} (hup : s.up = true) (hopen : (s.fld R.SEAM_DEBUG.OPEN).testBit (dbgBit en) = true)
    (hw : s.busWrite (.debug (en == .li)) a b = (u, o)) :
    exec (.systemBusAccess en a (some b) n) s = .next (if o == some false then u else u.emit .cmderr) := by
  refine congrArg Host.Outcome.next ((State.whenUp_of_up hup).trans ?_)
  simp only [hopen, hw, Bool.not_true, Bool.false_eq_true, if_false]

theorem exec_systemBusAccess_read (hup : s.up = true) (hopen : (s.fld R.SEAM_DEBUG.OPEN).testBit (dbgBit en) = true) (hn : n ≠ 0)
    (hm : s.memCheck (.debug (en == .li)) a n .read = .ok) :
    exec (.systemBusAccess en a none n) s = .next (s.drawn.emit (.readData (s.devRead a n))) := by
  refine congrArg Host.Outcome.next ((State.whenUp_of_up hup).trans ?_)
  simp only [hopen, Bool.not_true, Bool.false_eq_true, if_false, State.busRead_memory hn hm nofun, State.readAs]

theorem exec_systemBusAccess_readRefused (hup : s.up = true) (hopen : (s.fld R.SEAM_DEBUG.OPEN).testBit (dbgBit en) = true) (hn : n ≠ 0)
    (hm : s.memCheck (.debug (en == .li)) a n .read = .refused c r) :
    exec (.systemBusAccess en a none n) s = .next ((s.violation (.debug (en == .li)) .read c r a).emit .cmderr) := by
  refine congrArg Host.Outcome.next ((State.whenUp_of_up hup).trans ?_)
  simp only [hopen, Bool.not_true, Bool.false_eq_true, if_false, State.busRead_memory hn hm nofun, State.readAs]

end

theorem dbgBit_eq (en : DbgEnable) : (if en = .li then 0 else 2) = dbgBit en := by
  cases en <;> rfl

/-- Settles O49: each access by what the checker answers. -/
theorem hartMemory : Obligations.HartMemory := by
  intro s h a c r k b fetch en hup hb who kind len line cause trap
  have hlen : len ≠ 0 := mt List.length_eq_zero_iff.1 hb
  refine ⟨fun hrun => ⟨fun hfetch halign => ⟨fun hm => ?loadOk, fun hm => ?loadRefused, fun hm => ?loadPoison⟩, fun hc hbad => ?loadTraps,
    fun halign => ⟨fun hm => ?storeOk, fun hm => ?storeRefused⟩, fun hc ha => ?storeTraps, fun hc => ⟨fun hm => ?zeroOk, fun hm => ?zeroRefused⟩,
    fun hc => ?zeroTraps, fun i hi hc => ⟨fun hm => ?cboOk, fun hm => ?cboRefused⟩⟩, ?debug⟩
  case loadOk => exact exec_hartLoad_memory hup hrun hlen hfetch halign hm nofun
  case loadRefused => exact exec_hartLoad_memory hup hrun hlen hfetch halign hm nofun
  case loadPoison => exact exec_hartLoad_memory hup hrun hlen hfetch halign hm nofun
  case loadTraps => exact exec_hartLoad_traps hup hrun hlen hc hbad
  case storeOk => exact exec_hartStore_reaches hup hrun hb halign (State.busWrite_memory hb hm nofun)
  case storeRefused => exact exec_hartStore_reaches hup hrun hb halign (State.busWrite_memory hb hm nofun)
  case storeTraps => exact exec_hartStore_traps hup hrun hb hc ha
  case zeroOk => exact exec_cboZero_ok hup hrun hc hm
  case zeroRefused => exact exec_cboZero_refused hup hrun hc hm
  case zeroTraps => exact exec_cboZero_traps hup hrun hc
  case cboOk =>
    rw [exec_cboRead hi hup hrun hc]
    rcases hm with hm | hm <;> exact congrArg (fun m => Host.Outcome.next (s.logMem who .read line m)) hm
  case cboRefused =>
    rw [exec_cboRead hi hup hrun hc]
    exact congrArg (fun m => Host.Outcome.next (s.logMem who .read line m)) hm
  case debug =>
    rw [dbgBit_eq]
    refine ⟨fun hopen hm => ?writeOk, fun hopen hm => ?writeRefused, fun hopen hk hm => ?readOk, fun hopen hk hm => ?readRefused, fun hclosed => ?closed⟩
    case writeOk => exact exec_systemBusAccess_write hup hopen (State.busWrite_memory hb hm nofun)
    case writeRefused => exact exec_systemBusAccess_write hup hopen (State.busWrite_memory hb hm nofun)
    case readOk => exact exec_systemBusAccess_read hup hopen (Nat.ne_of_gt hk) hm
    case readRefused => exact exec_systemBusAccess_readRefused hup hopen (Nat.ne_of_gt hk) hm
    case closed => exact exec_systemBusAccess_closed hup hclosed

end Sys2Proof.Machine
end

section
/-!
O50. A custom CSR is written in its modes and traps in the others; one write of mcachectl is one update of the hart (`Hart.cacheWritten`), one write
of SC_CTL has an equation for each answer, and a timer interrupt is an update of the hart and the end of its wait.
-/

namespace Sys2Proof.Machine

section

variable {s : State} {x : Hart} {h : Nat} {mode : Priv} {data : W64} {who : Agent} {kind : TimerCmp} {sc : Bool} {i : Instr}

/-! ### Commands that change one hart -/

/-- A command that ends in one hart's new record leaves registers and memory. -/
theorem completes_setHart (hexec : exec i s = .next (s.setHart h x)) :
    Completes i s fun t => t.hart h = x ∧ t.regs = s.regs ∧ t.mem = s.mem :=
  ⟨_, hexec, State.hart_setHart_self, State.setHart_regs s h x, State.setHart_mem s h x⟩

/-- A low bit of a word is that of its remainder. -/
theorem getBit_of_mod {w v j : Nat} (hv : data.toNat % 2 ^ w = v) (hj : j < w) : getBit data j = v.testBit j := by
  rw [← hv, Nat.testBit_mod_two_pow, decide_eq_true hj, Bool.true_and, BitVec.testBit_toNat, getBit]

/-! ### Modes of the custom CSRs (R326, R327) -/

theorem State.mCsr_machine {f : State → State} (hh : h < 64) : s.mCsr h .m f = f s := by
  rw [State.mCsr, if_neg (Nat.not_le_of_lt hh)]
  rfl

theorem State.mCsr_otherMode {f : State → State} (hh : h < 64) (hmode : mode ≠ .m) : s.mCsr h mode f = s.hartTrap h trapIllegal := by
  rw [State.mCsr, if_neg (Nat.not_le_of_lt hh), if_neg (mt beq_iff_eq.1 hmode)]

theorem exec_mCsr_otherMode (hup : s.up = true) (hh : h < 64) (hmode : mode ≠ .m)
    (hi : i = .mcachectlInv h mode data ∨ i = .mcachectlWbinv h mode data ∨ i = .mcachectlEnable h mode data ∨ i = .mpowerreqWrite h mode data) :
    exec i s = .next (s.hartTrap h trapIllegal) := by
  rcases hi with rfl | rfl | rfl | rfl <;>
    exact congrArg Host.Outcome.next ((State.whenUp_of_up hup).trans (State.mCsr_otherMode hh hmode))

/-- HTAPEACCT_WRITE, by the mode of the hart. -/
def State.accountWritten (s : State) (h : Nat) (data : W64) : Priv → State
  | .m | .s => s.setHart h { s.hart h with account := data.toNat % 8192 }
  | .u => s.hartTrap h trapIllegal
  | .vs | .vu => s.hartTrap h trapVirtual

theorem exec_htapeacctWrite (hup : s.up = true) (hh : h < 64) : exec (.htapeacctWrite h mode data) s = .next (s.accountWritten h data mode) := by
  have hacct : getBits data 0 13 = data.toNat % 8192 := by simp [getBits_eq_div_mod]
  refine congrArg Host.Outcome.next ((State.whenUp_of_up hup).trans ((if_neg (Nat.not_le_of_lt hh)).trans ?_))
  rw [hacct]
  cases mode <;> rfl

/-! ### mcachectl (R336) -/

/-- A hart after one write of mcachectl, the system cache on or off. -/
def Hart.cacheWritten (x : Hart) (sc : Bool) (data : W64) : Hart :=
  let inv := x.invDone || getBit data 4 || getBit data 5
  let newPriv := (getBit data 1 && !x.dcEn) || (getBit data 2 && !x.l2En)
  let noInv := ((getBit data 0 && !x.icEn) || newPriv) && !inv
  let noSc := newPriv && !sc
  { x with
    invDone := inv
    icEn := getBit data 0 && (x.icEn || inv)
    dcEn := getBit data 1 && (x.dcEn || (inv && sc))
    l2En := getBit data 2 && (x.l2En || (inv && sc))
    noInv := (noInv || noSc) && (x.noInv || noInv)
    noSc := (noInv || noSc) && (x.noSc || noSc) }

theorem State.mcachectl_eq : s.mcachectl h data = s.setHart h ((s.hart h).cacheWritten (s.bit R.SC_CTL.EN) data) := by
  simp only [State.mcachectl, Hart.cacheWritten, Bool.or_assoc, Bool.if_false_right, Bool.decide_eq_true]

theorem exec_mcachectlEnable (hup : s.up = true) (hh : h < 64) (hsc : s.bit R.SC_CTL.EN = sc) :
    exec (.mcachectlEnable h .m data) s = .next (s.setHart h ((s.hart h).cacheWritten sc data)) := by
  subst hsc
  exact congrArg Host.Outcome.next ((State.whenUp_of_up hup).trans ((State.mCsr_machine hh).trans State.mcachectl_eq))

/-- INV and WBINV set their bit, 4 or 5, in the word written. -/
theorem exec_mcachectl_invalidate (hup : s.up = true) (hh : h < 64) (hi : i = .mcachectlInv h .m data ∨ i = .mcachectlWbinv h .m data) :
    ∃ j, (j = 4 ∨ j = 5) ∧ exec i s = .next (s.setHart h ((s.hart h).cacheWritten (s.bit R.SC_CTL.EN) (setBits data j 1 1))) := by
  rcases hi with rfl | rfl
  · exact ⟨4, .inl rfl, exec_mcachectlEnable hup hh rfl⟩
  · exact ⟨5, .inr rfl, exec_mcachectlEnable hup hh rfl⟩

theorem Hart.cacheWritten_invalidate {j : Nat} (hj : j = 4 ∨ j = 5) (hoff : data.toNat % 8 = 0) : x.cacheWritten sc (setBits data j 1 1) =
    { x with invDone := true, icEn := false, dcEn := false, l2En := false, noInv := false, noSc := false } := by
  have hlow : ∀ k, k < 3 → getBit (setBits data j 1 1) k = false := fun k hk => by
    rw [getBit_setBits_disj (by omega) (by omega), getBit_of_mod (w := 3) hoff hk, Nat.zero_testBit]
  have hinv : (x.invDone || getBit (setBits data j 1 1) 4 || getBit (setBits data j 1 1) 5) = true := by
    rcases hj with rfl | rfl <;> simp [getBit_setBits_self]
  simp [Hart.cacheWritten, hlow, hinv]

theorem Hart.cacheWritten_enables (hinv : (x.invDone || getBit data 4 || getBit data 5) = true) : x.cacheWritten true data =
    { x with invDone := true, icEn := getBit data 0, dcEn := getBit data 1, l2En := getBit data 2, noInv := false, noSc := false } := by
  simp [Hart.cacheWritten, hinv]

/-- The instruction cache asked for before any invalidation: refused with NOINV. -/
theorem Hart.cacheWritten_noInv (hinv : (x.invDone || getBit data 4 || getBit data 5) = false) (hic : x.icEn = false) (hask : data.toNat % 8 = 1) :
    x.cacheWritten sc data = { x with icEn := false, dcEn := false, l2En := false, noInv := true } := by
  have hbit : ∀ k, k < 3 → getBit data k = (1 : Nat).testBit k := fun k hk => getBit_of_mod (w := 3) hask hk
  have h0 : getBit data 0 = true := hbit 0 (by decide)
  have h1 : getBit data 1 = false := hbit 1 (by decide)
  have h2 : getBit data 2 = false := hbit 2 (by decide)
  obtain ⟨⟨hdone, h4⟩, h5⟩ : (x.invDone = false ∧ getBit data 4 = false) ∧ getBit data 5 = false := by simpa using hinv
  simp [Hart.cacheWritten, h0, h1, h2, h4, h5, hdone, hic]

/-- The data cache asked for while the system cache is off: refused with NOSC. -/
theorem Hart.cacheWritten_noSc (hdc : x.dcEn = false) (hask : getBit data 1 = true) :
    (x.cacheWritten false data).dcEn = false ∧ (x.cacheWritten false data).noSc = true := by
  simp [Hart.cacheWritten, hdc, hask]

/-! ### SC_CTL (R337) -/

theorem exec_scCtlEnable (hup : s.up = true) (hopen : s.opens who R.SC_CTL.off) : exec (.scCtlEnable who data) s = .next (s.scCtlWrite data) :=
  congrArg Host.Outcome.next ((State.whenUp_of_up hup).trans (State.regTry_of_opens hopen))

theorem exec_scCtlInv (hup : s.up = true) (hopen : s.opens who R.SC_CTL.off) :
    exec (.scCtlInv who data) s = .next (s.scCtlWrite (setBits data 1 1 1)) :=
  exec_scCtlEnable hup hopen

/-- A write that asks for the present EN and an invalidation does the invalidation alone, which is done with the command (log entry 191). -/
theorem State.scCtlWrite_invalidate (hen : getBit data 0 = s.bit R.SC_CTL.EN) (hinv : getBit data 1 = true) :
    s.scCtlWrite data = s.setBit R.SC_CTL.INV_DONE := by
  simp [State.scCtlWrite, hen, hinv]

theorem State.scCtlWrite_on (hask : data.toNat % 4 = 1) (hsc : s.bit R.SC_CTL.EN = false) : s.scCtlWrite data =
    if s.bit R.SC_CTL.INV_DONE then (s.setBit R.SC_CTL.EN).clrBit R.SC_CTL.NOINV else s.setBit R.SC_CTL.NOINV := by
  have hen : getBit data 0 = true := getBit_of_mod (w := 2) hask (by decide)
  have hinv : getBit data 1 = false := getBit_of_mod (w := 2) hask (by decide)
  simp [State.scCtlWrite, hen, hinv, hsc]

theorem State.scCtlWrite_off (hask : data.toNat % 4 = 0) (hsc : s.bit R.SC_CTL.EN = true) : s.scCtlWrite data =
    if s.harts.any fun e => e.2.dcEn || e.2.l2En then s.setBit R.SC_CTL.NOPRIV else (s.clrBit R.SC_CTL.EN).clrBit R.SC_CTL.NOPRIV := by
  have hen : getBit data 0 = false := getBit_of_mod (w := 2) hask (by decide)
  have hinv : getBit data 1 = false := getBit_of_mod (w := 2) hask (by decide)
  simp only [State.scCtlWrite, hen, hinv, hsc, Bool.not_false, Bool.not_true, Bool.and_self, Bool.false_eq_true, if_false, if_true]

/-- EN outlasts the write of a refusal's bit. -/
theorem State.scEn_clrBit {f : Fld} (hf : f = R.SC_CTL.NOINV ∨ f = R.SC_CTL.NOPRIV) : (s.clrBit f).bit R.SC_CTL.EN = s.bit R.SC_CTL.EN := by
  rcases hf with rfl | rfl <;> exact State.bit_setFld_disj (by decide) (by decide)

theorem privOff_iff {m : SMap Hart} : m.all (fun e => !e.2.dcEn && !e.2.l2En) = true ↔ m.any (fun e => e.2.dcEn || e.2.l2En) = false := by
  simp

/-! ### Timer interrupts and WFI (R323, R411) -/

/-- The hart with a timer interrupt pending. -/
def Hart.timerPending (x : Hart) (kind : TimerCmp) : Hart :=
  { x with mtip := x.mtip || kind == .mtimecmp, stip := x.stip || kind == .stimecmp, vstip := x.vstip || kind == .vstimecmp }

/-- The interrupt wakes a sleeping tile, and ends the WFI of a hart whose tile does not sleep, whatever the hart enables (log entry 192). -/
theorem exec_machineTimerInterrupt (hup : s.up = true) (hh : h < 64) : exec (.machineTimerInterrupt h kind) s = .next (
    if s.unitState (h / 4) == 1 || s.unitState (h / 4) == 2 then (s.setHart h ((s.hart h).timerPending kind)).wakeUnit (h / 4)
    else s.setHart h { (s.hart h).timerPending kind with wfi := false }) := by
  refine congrArg Host.Outcome.next ((State.whenUp_of_up hup).trans ((if_neg (Nat.not_le_of_lt hh)).trans ?_))
  cases kind <;> simp [Hart.timerPending, beq_eq_decide]

theorem exec_wfi (hup : s.up = true) (hh : h < 64) (hrel : (s.hart h).released = true) (hdbg : (s.hart h).debug = false) :
    exec (.wfi h) s = .next (s.setHart h { s.hart h with wfi := true }) :=
  congrArg Host.Outcome.next ((State.whenUp_of_up hup).trans (if_pos (by simp [hh, hrel, hdbg])))

end

/-- Settles O50: the CSRs by mode and by `Hart.cacheWritten`, SC_CTL by the answer to its write, the interrupt by whether the tile sleeps. -/
theorem hartControl : Obligations.HartControl := by
  intro s h mode data who kind hup hh x hartIs inv sc tile
  have hinv : inv ↔ (x.invDone || getBit data 4 || getBit data 5) = true := by simp [inv, getBit, or_assoc]
  refine ⟨?account, ?user, ?virtual, fun hmode i hi => ?otherMode, fun i hi hoff => ?invalidate, fun hi hsc => ?enables, fun hi hic hask => ?noInv,
    fun _ hsc hdc hask => ?noSc, fun hopen => ⟨fun hsame => ?scInv, fun hask hsc hdone => ?scOn, fun hask hsc hdone => ?scNoInv,
      fun hask hsc hpriv => ?scOff, fun hask hsc hpriv => ?scNoPriv⟩, ⟨fun hawake => ?timerAwake, fun hasleep => ?timerAsleep⟩, fun hrel hdbg => ?waits⟩
  case account => rintro (rfl | rfl) <;> exact completes_setHart (exec_htapeacctWrite hup hh)
  case user => rintro rfl; exact completes_setHart (exec_htapeacctWrite hup hh)
  case virtual => rintro (rfl | rfl) <;> exact completes_setHart (exec_htapeacctWrite hup hh)
  case otherMode => exact completes_setHart (exec_mCsr_otherMode hup hh hmode hi)
  case invalidate =>
    obtain ⟨j, hj, hexec⟩ := exec_mcachectl_invalidate hup hh hi
    rw [Hart.cacheWritten_invalidate hj hoff] at hexec
    exact completes_setHart hexec
  case enables =>
    have hexec := exec_mcachectlEnable (data := data) hup hh hsc
    rw [Hart.cacheWritten_enables (hinv.1 hi)] at hexec
    exact completes_setHart hexec
  case noInv =>
    have hexec := exec_mcachectlEnable (data := data) hup hh rfl
    rw [Hart.cacheWritten_noInv (Bool.eq_false_iff.2 (mt hinv.2 hi)) hic hask] at hexec
    exact completes_setHart hexec
  case noSc =>
    refine ⟨_, exec_mcachectlEnable hup hh hsc, ?_⟩
    simp only [State.hart_setHart_self]
    exact Hart.cacheWritten_noSc hdc hask
  case scInv =>
    rw [exec_scCtlInv hup hopen, State.scCtlWrite_invalidate ((getBit_setBits_disj (by decide) (by decide)).trans hsame) (getBit_setBits_self (by decide))]
  case scOn =>
    refine ⟨(s.setBit R.SC_CTL.EN).clrBit R.SC_CTL.NOINV, ?_, ?_, State.bit_clrBit_self (by decide), rfl⟩
    · rw [exec_scCtlEnable hup hopen, State.scCtlWrite_on hask hsc, if_pos hdone]
    · rw [State.scEn_clrBit (.inl rfl), State.bit_setBit_self (by decide) (by decide)]
  case scNoInv => rw [exec_scCtlEnable hup hopen, State.scCtlWrite_on hask hsc, if_neg (Bool.eq_false_iff.1 hdone)]
  case scOff =>
    refine ⟨(s.clrBit R.SC_CTL.EN).clrBit R.SC_CTL.NOPRIV, ?_, ?_, State.bit_clrBit_self (by decide)⟩
    · rw [exec_scCtlEnable hup hopen, State.scCtlWrite_off hask hsc, if_neg (Bool.eq_false_iff.1 (privOff_iff.1 hpriv))]
    · rw [State.scEn_clrBit (.inr rfl), State.bit_clrBit_self (by decide)]
  case scNoPriv => rw [exec_scCtlEnable hup hopen, State.scCtlWrite_off hask hsc, if_pos hpriv]
  case timerAwake =>
    have hno : ¬ (s.unitState (h / 4) == 1 || s.unitState (h / 4) == 2) = true := by
      simp only [Bool.or_eq_true, beq_iff_eq]
      omega
    exact completes_setHart ((exec_machineTimerInterrupt hup hh).trans (by rw [if_neg hno]; rfl))
  case timerAsleep =>
    have hyes : (s.unitState (h / 4) == 1 || s.unitState (h / 4) == 2) = true := by simpa using hasleep
    rw [exec_machineTimerInterrupt hup hh, if_pos hyes]
    rfl
  case waits => exact completes_setHart (exec_wfi hup hh hrel hdbg)

end Sys2Proof.Machine
end

section
/-!
O16. The Bobbin codec: the fields of a word are read back by `nib` and `lowByte`, a word is spelt by its own fields, and each group's decoder gets the
fields that were encoded.
-/

namespace Sys2Proof.Machine

section

variable {e g : Nat} {a b c : Fin 16} {w : W16}

/-! ### Fields of a word (R351) -/

theorem nib_val (w : W16) (k : Nat) : (nib w k).val = w.toNat / 16 ^ k % 16 := rfl

theorem toNat_bw (hg : g < 16) : (bw g a b c).toNat = g * 4096 + a.val * 256 + b.val * 16 + c.val := by
  simp only [bw, BitVec.toNat_ofNat]
  omega

theorem toNat_bw8 {m : BitVec 8} (hg : g < 16) : (bw8 g a m).toNat = g * 4096 + a.val * 256 + m.toNat := by
  simp only [bw8, BitVec.toNat_ofNat]
  omega

/-- The four fields of a word, the highest first. -/
def Fields (w : W16) (g : Nat) (a b c : Fin 16) : Prop := (nib w 3).val = g ∧ nib w 2 = a ∧ nib w 1 = b ∧ nib w 0 = c

/-- The fields of a word that has an 8-bit immediate. -/
def Fields8 (w : W16) (g : Nat) (a : Fin 16) (m : BitVec 8) : Prop := (nib w 3).val = g ∧ nib w 2 = a ∧ lowByte w = m

theorem fields_self (w : W16) : Fields w (nib w 3).val (nib w 2) (nib w 1) (nib w 0) := ⟨rfl, rfl, rfl, rfl⟩

theorem fields8_self (w : W16) : Fields8 w (nib w 3).val (nib w 2) (lowByte w) := ⟨rfl, rfl, rfl⟩

theorem fields_bw (hg : g < 16) : Fields (bw g a b c) g a b c := by
  simp only [Fields, Fin.ext_iff, nib_val, toNat_bw hg]
  omega

theorem fields8_bw8 {m : BitVec 8} (hg : g < 16) : Fields8 (bw8 g a m) g a m := by
  simp only [Fields8, Fin.ext_iff, BitVec.toNat_inj.symm, nib_val, lowByte, BitVec.toNat_ofNat, toNat_bw8 hg]
  omega

/-- A word is spelt by its fields. -/
theorem bw_of_fields (h : Fields w g a b c) : w = bw g a b c := by
  obtain ⟨hg, rfl, rfl, rfl⟩ := h
  have hlt : g < 16 := hg ▸ (nib w 3).isLt
  apply BitVec.eq_of_toNat_eq
  rw [toNat_bw hlt]
  simp only [nib_val] at hg ⊢
  omega

theorem bw8_of_fields8 {m : BitVec 8} (h : Fields8 w g a m) : w = bw8 g a m := by
  obtain ⟨hg, rfl, rfl⟩ := h
  have hlt : g < 16 := hg ▸ (nib w 3).isLt
  apply BitVec.eq_of_toNat_eq
  rw [toNat_bw8 hlt, lowByte, BitVec.toNat_ofNat]
  simp only [nib_val] at hg ⊢
  omega

/-- A coprocessor word is a word of four fields, the port and the form in one. -/
theorem bwc_eq {port form : Nat} {pf : Fin 16} (hpf : pf.val = 4 * (port % 4) + form) : bwc port form a b = bw 0xE pf a b := by
  simp only [bwc, bw, hpf]
  congr 1
  omega

/-! ### Each group's decoder gets the fields of the word (Table 12-6) -/

/-- What the fields of a word spell: the choice of its group's decoder. -/
def decWord (e g : Nat) (a b c : Fin 16) (m : BitVec 8) (ext : List W16) : Option Instr :=
  match g, ext with
  | 0x0, [] => decG0 e a.val b c
  | 0x1, [] => decG1 e a.val b c
  | 0x2, [] => decG2 e a.val b c
  | 0x3, [] => some (.bLdi e a m)
  | 0x4, [] => some (.bLd e a b c)
  | 0x5, [] => some (.bSt e a b c)
  | 0x6, [] => some (.bIn e a b c)
  | 0x7, [] => some (.bOut e a b c)
  | 0x8, [] => some (.bBcc e a m)
  | 0x9, x => decG9 e a.val b c x
  | 0xA, [x] => decGA e a.val b c x
  | 0xB, [] => decGB e a.val b c
  | 0xC, [] => decGC e a.val b c
  | 0xD, [] => decGD e a.val b c
  | 0xE, [] => decGE e a.val b c
  | _, _ => none

theorem bobDecode_of_fields {ext : List W16} (h : Fields w g a b c) : bobDecode e (w :: ext) = decWord e g a b c (lowByte w) ext := by
  obtain ⟨rfl, rfl, rfl, rfl⟩ := h
  rfl

theorem bobDecode_group0 (h : Fields w 0x0 a b c) : bobDecode e [w] = decG0 e a.val b c := bobDecode_of_fields h

theorem bobDecode_group1 (h : Fields w 0x1 a b c) : bobDecode e [w] = decG1 e a.val b c := bobDecode_of_fields h

theorem bobDecode_group2 (h : Fields w 0x2 a b c) : bobDecode e [w] = decG2 e a.val b c := bobDecode_of_fields h

theorem bobDecode_group3 {m : BitVec 8} (h : Fields8 w 0x3 a m) : bobDecode e [w] = some (.bLdi e a m) := by
  obtain ⟨hg, rfl, rfl⟩ := h
  exact bobDecode_of_fields ⟨hg, rfl, rfl, rfl⟩

theorem bobDecode_group4 (h : Fields w 0x4 a b c) : bobDecode e [w] = some (.bLd e a b c) := bobDecode_of_fields h

theorem bobDecode_group5 (h : Fields w 0x5 a b c) : bobDecode e [w] = some (.bSt e a b c) := bobDecode_of_fields h

theorem bobDecode_group6 (h : Fields w 0x6 a b c) : bobDecode e [w] = some (.bIn e a b c) := bobDecode_of_fields h

theorem bobDecode_group7 (h : Fields w 0x7 a b c) : bobDecode e [w] = some (.bOut e a b c) := bobDecode_of_fields h

theorem bobDecode_group8 {m : BitVec 8} (h : Fields8 w 0x8 a m) : bobDecode e [w] = some (.bBcc e a m) := by
  obtain ⟨hg, rfl, rfl⟩ := h
  exact bobDecode_of_fields ⟨hg, rfl, rfl, rfl⟩

theorem bobDecode_group9 {ext : List W16} (h : Fields w 0x9 a b c) : bobDecode e (w :: ext) = decG9 e a.val b c ext := bobDecode_of_fields h

theorem bobDecode_groupA {m : W16} (h : Fields w 0xA a b c) : bobDecode e [w, m] = decGA e a.val b c m := bobDecode_of_fields h

theorem bobDecode_groupB (h : Fields w 0xB a b c) : bobDecode e [w] = decGB e a.val b c := bobDecode_of_fields h

theorem bobDecode_groupC (h : Fields w 0xC a b c) : bobDecode e [w] = decGC e a.val b c := bobDecode_of_fields h

theorem bobDecode_groupD (h : Fields w 0xD a b c) : bobDecode e [w] = decGD e a.val b c := bobDecode_of_fields h

theorem bobDecode_groupE (h : Fields w 0xE a b c) : bobDecode e [w] = decGE e a.val b c := bobDecode_of_fields h

/-! ### Coprocessor instructions (Table 12-13) -/

variable {p n : Nat}

theorem bobDecode_cpw (hp : p < 4) : bobDecode e [bwc p 0 a b] = some (.cpw e p a b) := by
  have hpf : 4 * p < 16 := by omega
  have hport : 4 * p / 4 = p := by omega
  have hform : 4 * p % 4 = 0 := by omega
  rw [bwc_eq (pf := ⟨4 * p, hpf⟩) (by simp only; omega), bobDecode_groupE (fields_bw (by decide))]
  simp only [decGE, hport, hform]

theorem bobDecode_cpr (hp : p < 4) : bobDecode e [bwc p 1 a b] = some (.cpr e p a b) := by
  have hpf : 4 * p + 1 < 16 := by omega
  have hport : (4 * p + 1) / 4 = p := by omega
  have hform : (4 * p + 1) % 4 = 1 := by omega
  rw [bwc_eq (pf := ⟨4 * p + 1, hpf⟩) (by simp only; omega), bobDecode_groupE (fields_bw (by decide))]
  simp only [decGE, hport, hform]

theorem bobDecode_cp0 : bobDecode e [bwc 0 2 a b] = decCp0 e a.val b := by
  rw [bwc_eq (pf := 2) rfl, bobDecode_groupE (fields_bw (by decide))]
  rfl

theorem bobDecode_cp1 : bobDecode e [bwc 1 2 a b] = decCp1 e a.val b := by
  rw [bwc_eq (pf := 6) rfl, bobDecode_groupE (fields_bw (by decide))]
  rfl

theorem bobDecode_cp2 : bobDecode e [bwc 2 2 a b] = decCp2 e a.val b := by
  rw [bwc_eq (pf := 10) rfl, bobDecode_groupE (fields_bw (by decide))]
  rfl

theorem decCp0_thimble (he : e % 8 = 6) : decCp0 e 0 a = some (.shaInit e a) ∧ decCp0 e 1 a = some (.shaUpdate e a) ∧ decCp0 e 2 a = some (.shaFinal e a) := by
  simp [decCp0, he]

theorem decCp1_thimble (he : e % 8 = 6) :
    decCp1 e 0 a = some (.aesEncrypt e a) ∧ decCp1 e 1 a = some (.aesDecrypt e a) ∧ decCp1 e 2 a = some (.aesTag e a) := by
  simp [decCp1, he]

theorem decCp_other (he : e % 8 ≠ 6) : decCp0 e 0 a = some (.crcRun e a) ∧ decCp1 e 0 a = some (.descriptorParse e a) := by
  simp [decCp0, decCp1, he]

end

/-- Settles O16: a case for each instruction, by its group's decoder; a coprocessor's command by the unit that its engine has at the port. -/
theorem bobbinRoundTrip : Obligations.BobbinRoundTrip := by
  intro i e ws hws hport hthimble hother
  cases i <;> try contradiction
  all_goals cases hws
  case bMov | bAdd | bAdc | bSub | bSbc | bAnd | bOr | bXor | bCmp | bTst => exact bobDecode_group0 (fields_bw (by decide))
  case bMovi | bAddi | bAdci | bSubi | bSbci | bAndi | bOri | bXori | bCmpi | bTsti | bBset | bBclr | bBtgl | bBtst => exact bobDecode_group1 (fields_bw (by decide))
  case bNot | bNeg | bShl | bShr | bSar | bRol | bRor | bBrev | bPar | bClz | bSwapb => exact bobDecode_group2 (fields_bw (by decide))
  case bLdi => exact bobDecode_group3 (fields8_bw8 (by decide))
  case bLd => exact bobDecode_group4 (fields_bw (by decide))
  case bSt => exact bobDecode_group5 (fields_bw (by decide))
  case bIn => exact bobDecode_group6 (fields_bw (by decide))
  case bOut => exact bobDecode_group7 (fields_bw (by decide))
  case bBcc => exact bobDecode_group8 (fields8_bw8 (by decide))
  case bJmp | bJmpr | bCall | bCallr | bRet | bIret => exact bobDecode_group9 (fields_bw (by decide))
  case bLdL | bStL | bLdd | bStd | bInL | bOutL | bInd | bOutd | bLdp | bStp | bLdi16 | bAddi16 | bCmpi16 => exact bobDecode_groupA (fields_bw (by decide))
  case bCrc32c | bCrc32cb | bCrc16 | bCrc16b | bParx => exact bobDecode_groupB (fields_bw (by decide))
  case bMul | bMuls | bMull | bDiv | bDivs => exact bobDecode_groupC (fields_bw (by decide))
  case bSetf | bClrf | bEi | bDi | bWait | bMvbk | bMvkb | bTrap | bHalt | bNop | bRdf | bWrf | bSync => exact bobDecode_groupD (fields_bw (by decide))
  case cpw p r w => exact bobDecode_cpw (hport e p r w (.inl rfl))
  case cpr p r w => exact bobDecode_cpr (hport e p r w (.inr rfl))
  case shaInit w => exact bobDecode_cp0.trans (decCp0_thimble (hthimble e w (.inl rfl))).1
  case shaUpdate w => exact bobDecode_cp0.trans (decCp0_thimble (hthimble e w (.inr (.inl rfl)))).2.1
  case shaFinal w => exact bobDecode_cp0.trans (decCp0_thimble (hthimble e w (.inr (.inr (.inl rfl))))).2.2
  case aesEncrypt w => exact bobDecode_cp1.trans (decCp1_thimble (hthimble e w (.inr (.inr (.inr (.inl rfl)))))).1
  case aesDecrypt w => exact bobDecode_cp1.trans (decCp1_thimble (hthimble e w (.inr (.inr (.inr (.inr (.inl rfl))))))).2.1
  case aesTag w => exact bobDecode_cp1.trans (decCp1_thimble (hthimble e w (.inr (.inr (.inr (.inr (.inr rfl))))))).2.2
  case modmul | modexp | modinv | p384Mul | ntt | intt | polymul => exact bobDecode_cp2
  case crcRun w => exact bobDecode_cp0.trans (decCp_other (hother e w (.inl rfl))).1
  case descriptorParse w => exact bobDecode_cp1.trans (decCp_other (hother e w (.inr rfl))).2

end Sys2Proof.Machine
end

section
/-!
O17. The Bobbin codec, the other way: each group's decoder gives only instructions whose words are those that it was given.
-/

namespace Sys2Proof.Machine

section

variable {e : Nat} {a b c : Fin 16} {i : Instr}

/-! ### Each group's decoder gives back the words (Tables 12-7 to 12-13) -/

theorem bobWords_of_decG0 (h : decG0 e a.val b c = some i) : bobWords i = some (e, [bw 0x0 a b c]) := by
  fin_cases a <;> cases h <;> rfl

theorem bobWords_of_decG1 (h : decG1 e a.val b c = some i) : bobWords i = some (e, [bw 0x1 a b c]) := by
  fin_cases a <;> cases h <;> rfl

theorem bobWords_of_decG2 (h : decG2 e a.val b c = some i) : bobWords i = some (e, [bw 0x2 a b c]) := by
  fin_cases a <;> cases h <;> rfl

theorem bobWords_of_decG9 {ext : List W16} (h : decG9 e a.val b c ext = some i) : bobWords i = some (e, bw 0x9 a b c :: ext) := by
  rcases ext with _ | ⟨t, _ | ⟨m, _ | ⟨x, xs⟩⟩⟩
  · fin_cases a <;> cases h <;> rfl
  · fin_cases a <;> cases h <;> rfl
  · fin_cases a <;> cases h; rfl
  · fin_cases a <;> cases h

theorem bobWords_of_decGA {m : W16} (h : decGA e a.val b c m = some i) : bobWords i = some (e, [bw 0xA a b c, m]) := by
  fin_cases a <;> cases h <;> rfl

theorem bobWords_of_decGB (h : decGB e a.val b c = some i) : bobWords i = some (e, [bw 0xB a b c]) := by
  fin_cases a <;> cases h <;> rfl

theorem bobWords_of_decGC (h : decGC e a.val b c = some i) : bobWords i = some (e, [bw 0xC a b c]) := by
  fin_cases a <;> cases h <;> rfl

theorem bobWords_of_decGD (h : decGD e a.val b c = some i) : bobWords i = some (e, [bw 0xD a b c]) := by
  fin_cases a <;> cases h <;> rfl

theorem bobWords_of_decCp0 (h : decCp0 e a.val b = some i) : bobWords i = some (e, [bwc 0 2 a b]) := by
  unfold decCp0 at h
  split at h
  · fin_cases a <;> cases h <;> rfl
  · fin_cases a <;> cases h; rfl

theorem bobWords_of_decCp1 (h : decCp1 e a.val b = some i) : bobWords i = some (e, [bwc 1 2 a b]) := by
  unfold decCp1 at h
  split at h
  · fin_cases a <;> cases h <;> rfl
  · fin_cases a <;> cases h; rfl

theorem bobWords_of_decCp2 (h : decCp2 e a.val b = some i) : bobWords i = some (e, [bwc 2 2 a b]) := by
  fin_cases a <;> cases h <;> rfl

theorem bobWords_of_decGE (h : decGE e a.val b c = some i) : bobWords i = some (e, [bw 0xE a b c]) := by
  fin_cases a
  -- from the highest value of the field down, so that goal `n + 1` is the value `n`
  on_goal 11 => exact bobWords_of_decCp2 h
  on_goal 7 => exact bobWords_of_decCp1 h
  on_goal 3 => exact bobWords_of_decCp0 h
  all_goals cases h
  all_goals rfl

theorem bobWords_of_decWord {g : Fin 16} {w : W16} {m : BitVec 8} {ext : List W16} (h : decWord e g.val a b c m ext = some i)
    (hw : w = bw g.val a b c) (hw8 : w = bw8 g.val a m) : bobWords i = some (e, w :: ext) := by
  rcases ext with _ | ⟨x, _ | ⟨y, ys⟩⟩
  · fin_cases g
    · exact hw ▸ bobWords_of_decG0 h
    · exact hw ▸ bobWords_of_decG1 h
    · exact hw ▸ bobWords_of_decG2 h
    · cases h; rw [hw8]; rfl
    · cases h; rw [hw]; rfl
    · cases h; rw [hw]; rfl
    · cases h; rw [hw]; rfl
    · cases h; rw [hw]; rfl
    · cases h; rw [hw8]; rfl
    · exact hw ▸ bobWords_of_decG9 h
    · cases h
    · exact hw ▸ bobWords_of_decGB h
    · exact hw ▸ bobWords_of_decGC h
    · exact hw ▸ bobWords_of_decGD h
    · exact hw ▸ bobWords_of_decGE h
    · cases h
  · fin_cases g
    on_goal 11 => exact hw ▸ bobWords_of_decGA h
    on_goal 10 => exact hw ▸ bobWords_of_decG9 h
    all_goals cases h
  · fin_cases g
    on_goal 10 => exact hw ▸ bobWords_of_decG9 h
    all_goals cases h

/-- R351: words that decode are those of the instruction. -/
theorem bobWords_of_bobDecode {w : W16} {ext : List W16} (h : bobDecode e (w :: ext) = some i) : bobWords i = some (e, w :: ext) := by
  rw [bobDecode_of_fields (fields_self w)] at h
  exact bobWords_of_decWord h (bw_of_fields (fields_self w)) (bw8_of_fields8 (fields8_self w))

/-- R351: group 0xF has no instruction. -/
theorem bobDecode_groupF {w : W16} {ext : List W16} (h : 0xF000 ≤ w.toNat) : bobDecode e (w :: ext) = none := by
  have hg : (nib w 3).val = 0xF := by
    rw [nib_val]
    omega
  exact bobDecode_of_fields ⟨hg, rfl, rfl, rfl⟩

end

/-- Settles O17: a decoder for each group, each taken back to the words that it was given; the listed words, by evaluation. -/
theorem bobbinWords : Obligations.BobbinWords := by
  refine ⟨fun e w ws => ⟨bobDecode_groupF, fun i => bobWords_of_bobDecode⟩, ?_⟩
  exact ⟨rfl, rfl, rfl, rfl, rfl, rfl, rfl, rfl, rfl, rfl, rfl⟩

end Sys2Proof.Machine
end

section
/-!
The issue of a Bobbin instruction, for every statement about one. Reading the words at the PC can fill an I-cache line of the engine and changes nothing else
(`State.Refetched`), so an instruction that stands at the PC acts on what the engine held (`State.issue_of_stands`, `issues_of_issue`); one that changes
registers and flags alone is then a map of engines (`steps_of_issueReg`, `steps_of_issueIf`).
-/

namespace Sys2Proof.Machine

section

variable {s t u : State} {e : Nat} {i : Instr}

/-- Nothing has changed but the I-cache of one engine. -/
def State.Refetched (s : State) (e : Nat) (u : State) : Prop :=
  (∃ ic, u.eng e = { s.eng e with icache := ic }) ∧ (∀ n, n ≠ e → u.eng n = s.eng n) ∧ u = { s with engs := u.engs }

theorem State.eng_setEng_ne {n : Nat} {x : Engine} (h : n ≠ e) : (s.setEng e x).eng n = s.eng n := smGet_put_ne h

theorem State.Refetched.refl : s.Refetched e s := ⟨⟨_, rfl⟩, fun _ _ => rfl, rfl⟩

theorem State.Refetched.trans (h : s.Refetched e t) (h' : t.Refetched e u) : s.Refetched e u := by
  obtain ⟨⟨ic, hx⟩, hn, ht⟩ := h
  obtain ⟨⟨ic', hx'⟩, hn', hu⟩ := h'
  refine ⟨⟨ic', by rw [hx', hx]⟩, fun n hne => (hn' n hne).trans (hn n hne), ?_⟩
  rw [hu, ht]

theorem State.refetched_icPut {line : Nat} {ws : List W16} : s.Refetched e (s.setEng e ((s.eng e).icPut line ws)) :=
  ⟨⟨_, State.eng_setEng_self⟩, fun _ hne => State.eng_setEng_ne hne, rfl⟩

/-- R345: a word of I-space that is read without a fault. -/
theorem State.refetched_iSpace {a : Nat} {v : W16} (h : s.iSpace e a = (u, .ok v)) : s.Refetched e u := by
  unfold State.iSpace at h
  dsimp only at h
  split at h
  · cases h; exact .refl
  split at h
  · cases h; exact State.refetched_icPut
  split at h <;> cases h
  exact State.refetched_icPut

theorem State.refetched_fetchAll {ws : List W16} : ∀ {s : State} {a : Nat}, s.fetchAll e a ws = (u, .same) → s.Refetched e u := by
  induction ws with
  | nil =>
    intro s a h
    cases h
    exact .refl
  | cons w ws ih =>
    intro s a h
    unfold State.fetchAll at h
    dsimp only at h
    split at h
    next v hv =>
      split at h
      · exact (State.refetched_iSpace (Prod.ext rfl hv)).trans (ih h)
      · cases h
    next => cases h

theorem State.stands.refetched (h : s.stands e i u) : s.Refetched e u := by
  obtain ⟨-, -, -, ws, -, hf⟩ := h
  exact State.refetched_fetchAll hf

/-- What stands at the PC acts on an engine that differs in its I-cache alone. -/
theorem State.stands.eng (h : s.stands e i u) : ∃ ic, u.eng e = { s.eng e with icache := ic } := h.refetched.1

theorem State.stands.state (h : s.stands e i u) : u = { s with engs := u.engs } := h.refetched.2.2

theorem State.stands.up (h : s.stands e i u) : u.up = true := by
  rw [h.state]
  exact h.1

theorem State.stall_of_idle {uses : List Nat} {md : Bool} (h : (s.eng e).muldiv = []) : s.stall e uses md = s := by
  simp [State.stall, h]

theorem State.issue_of_fetched {ws : List W16} {uses : List Nat} {md : Bool} {k : Nat → State → State} (hup : s.up = true) (hlive : s.bobLive e = true)
    (hw : bobWords i = some (e, ws)) (hf : s.fetchAll e (s.eng e).pc ws = (u, .same)) : s.issue i uses md k = k ws.length (u.stall e uses md) := by
  unfold State.issue
  rw [hw]
  dsimp only
  rw [State.whenUp_of_up hup]
  simp only [hlive, Bool.not_true, Bool.false_eq_true, if_false, hf]

theorem State.issue_of_stands {ws : List W16} {uses : List Nat} {md : Bool} {k : Nat → State → State} (h : s.stands e i u)
    (hw : bobWords i = some (e, ws)) : s.issue i uses md k = k ws.length u := by
  obtain ⟨ic, hx⟩ := h.eng
  obtain ⟨hup, hlive, hmd, ws', hw', hf⟩ := h
  cases hw.symm.trans hw'
  rw [State.issue_of_fetched hup hlive hw hf, State.stall_of_idle (by rw [hx, hmd])]

/-- An instruction whose meaning is an issue. -/
theorem issues_of_issue {ws : List W16} {uses : List Nat} {md : Bool} {k : Nat → State → State} {f : State → State} (hw : bobWords i = some (e, ws))
    (hexec : exec i s = .next (s.issue i uses md k)) (hk : ∀ u, s.stands e i u → k ws.length u = f u) : Issues i s e f :=
  fun u h => hexec.trans (congrArg Host.Outcome.next ((State.issue_of_stands h hw).trans (hk u h)))

/-- An issue that maps the engine. -/
theorem steps_of_issue {ws : List W16} {n : Nat} {uses : List Nat} {md : Bool} {k : Nat → State → State} {f f' : Engine → Engine}
    (hw : bobWords i = some (e, ws)) (hn : ws.length = n) (hexec : exec i s = .next (s.issue i uses md k))
    (hk : ∀ u, s.stands e i u → k n u = u.setEng e ((f' (u.eng e)).step n))
    (hf : ∀ ic, f' { s.eng e with icache := ic } = f { s.eng e with icache := ic }) : Steps i s e n f := by
  subst hn
  refine issues_of_issue hw hexec fun u h => ?_
  obtain ⟨ic, hx⟩ := h.eng
  rw [hk u h, hx, hf]

theorem steps_of_issueReg {ws : List W16} {n : Nat} {uses : List Nat} {f f' : Engine → Engine} (hw : bobWords i = some (e, ws)) (hn : ws.length = n)
    (hexec : exec i s = .next (s.issueReg e i uses f')) (hf : ∀ ic, f' { s.eng e with icache := ic } = f { s.eng e with icache := ic }) :
    Steps i s e n f :=
  steps_of_issue hw hn hexec (fun _ _ => rfl) hf

theorem steps_of_issueIf {ws : List W16} {n : Nat} {ok : Bool} {uses : List Nat} {f f' : Engine → Engine} (hw : bobWords i = some (e, ws))
    (hn : ws.length = n) (hexec : exec i s = .next (s.issueIf e i ok uses f')) (hok : ok = true)
    (hf : ∀ ic, f' { s.eng e with icache := ic } = f { s.eng e with icache := ic }) : Steps i s e n f :=
  steps_of_issue hw hn hexec (fun _ _ => if_pos hok) hf

end

end Sys2Proof.Machine
end

section
/-!
O5. The Bobbin ALU. The model's adder gives the word, the carry, and the overflow that the tables name (`addFlags_eq`, `subFlags_eq`); a shift or rotate is
the library's; each instruction is then an issue that maps the engine.
-/

namespace Sys2Proof.Machine

section

variable {a b : W16} {x : Engine}

/-! ### The adder (R352) -/

/-- The sum with its flags; V is 1 where the signed sum does not fit. -/
theorem addFlags_eq {cin : Bool} : addFlags a b cin =
    { val := a + b + BitVec.ofNat 16 (b2n cin), c := decide (65536 ≤ a.toNat + b.toNat + b2n cin), z := decide (a + b + BitVec.ofNat 16 (b2n cin) = 0)
      n := (a + b + BitVec.ofNat 16 (b2n cin)).msb
      v := decide ((a + b + BitVec.ofNat 16 (b2n cin)).toInt ≠ a.toInt + b.toInt + b2n cin) } := by
  have hval : BitVec.ofNat 16 (a.toNat + b.toNat + b2n cin) = a + b + BitVec.ofNat 16 (b2n cin) := by
    simp [BitVec.ofNat_add]
  have hcin : b2n cin ≤ 1 := by cases cin <;> decide
  have ha := a.isLt
  have hb := b.isLt
  simp only [addFlags, hval, AluRes.mk.injEq, true_and]
  refine ⟨rfl, ?_⟩
  rw [Bool.eq_iff_iff, ← hval]
  simp only [BitVec.msb_eq_decide, BitVec.toInt_eq_toNat_cond, BitVec.toNat_ofNat, Bool.and_eq_true, beq_iff_eq, bne_iff_ne, decide_eq_true_eq, ne_eq,
    decide_eq_decide]
  omega

theorem toNat_not_word : (~~~b).toNat = 65535 - b.toNat := by
  simp

theorem toInt_not_word : (~~~b).toInt = -b.toInt - 1 := by
  have hb := b.isLt
  simp only [BitVec.toInt_eq_toNat_cond, toNat_not_word]
  omega

/-- The difference with its flags: C is 1 where nothing is borrowed. -/
theorem subFlags_eq {cin : Bool} : subFlags a b cin =
    { val := a - b - BitVec.ofNat 16 (1 - b2n cin), c := decide (b.toNat + (1 - b2n cin) ≤ a.toNat)
      z := decide (a - b - BitVec.ofNat 16 (1 - b2n cin) = 0), n := (a - b - BitVec.ofNat 16 (1 - b2n cin)).msb
      v := decide ((a - b - BitVec.ofNat 16 (1 - b2n cin)).toInt ≠ a.toInt - b.toInt - (1 - b2n cin : Nat)) } := by
  have hval : a + ~~~b + BitVec.ofNat 16 (b2n cin) = a - b - BitVec.ofNat 16 (1 - b2n cin) := by
    have hnot : ~~~b = -b - 1 := by rw [BitVec.not_eq_neg_add]; rfl
    rw [hnot]
    cases cin
    · simp only [b2n, Bool.false_eq_true, if_false]; bv_omega
    · simp only [b2n, if_true]; bv_omega
  have hb := b.isLt
  have hc : (65536 ≤ a.toNat + (~~~b).toNat + b2n cin) ↔ b.toNat + (1 - b2n cin) ≤ a.toNat := by
    rw [toNat_not_word]
    cases cin <;> simp only [b2n, Bool.false_eq_true, if_false, if_true] <;> omega
  have hv : a.toInt + (~~~b).toInt + b2n cin = a.toInt - b.toInt - (1 - b2n cin : Nat) := by
    rw [toInt_not_word]
    cases cin <;> simp [b2n] <;> ring
  rw [subFlags, addFlags_eq, hval, hv]
  simp only [hc]

theorem addFlags_false : addFlags a b false =
    { val := a + b, c := decide (65536 ≤ a.toNat + b.toNat), z := decide (a + b = 0), n := (a + b).msb
      v := decide ((a + b).toInt ≠ a.toInt + b.toInt) } := by
  simp [addFlags_eq, b2n]

theorem subFlags_true : subFlags a b true =
    { val := a - b, c := decide (b.toNat ≤ a.toNat), z := decide (a = b), n := (a - b).msb, v := decide ((a - b).toInt ≠ a.toInt - b.toInt) } := by
  have hz : a - b = 0#16 ↔ a = b := sub_eq_zero
  simp [subFlags_eq, b2n, hz]

theorem subFlags_zero : subFlags 0 a true =
    { val := -a, c := decide (a = 0), z := decide (a = 0), n := (-a).msb, v := decide (a = 0x8000) } := by
  have ha := a.isLt
  rw [subFlags_true]
  simp only [AluRes.mk.injEq, decide_eq_decide]
  refine ⟨zero_sub a, ?_, eq_comm, by rw [zero_sub], ?_⟩
  · rw [← BitVec.toNat_inj]
    simp
  · rw [← BitVec.toNat_inj]
    simp only [BitVec.toInt_eq_toNat_cond, BitVec.toNat_sub]
    simp
    omega

theorem Engine.aluZn_eq {d : Nat} : x.aluZn d a = (x.setW d a).withZn a := rfl

/-! ### Registers do not depend on the I-cache -/

theorem Engine.getW_icache {k : Nat} {ic : List ICLine} : ({ x with icache := ic } : Engine).getW k = x.getW k := rfl

/-! ### Immediates, shifts and rotates (R353) -/

theorem toNat_imm4 (m : Fin 16) : (imm4 m).toNat = m.val := by
  simp only [imm4, BitVec.toNat_ofNat]
  omega

theorem toInt_imm4 (m : Fin 16) : (imm4 m).toInt = m.val := by
  simp only [BitVec.toInt_eq_toNat_cond, toNat_imm4]
  omega

theorem one_shiftLeft (m : Fin 16) : (1 : W16) <<< m.val = BitVec.twoPow 16 m.val := rfl

theorem shiftLeft_eq_ofNat {k : Nat} : a <<< k = BitVec.ofNat 16 (a.toNat * 2 ^ k) := by
  apply BitVec.eq_of_toNat_eq
  simp [Nat.shiftLeft_eq]

theorem ushiftRight_eq_ofNat {k : Nat} : a >>> k = BitVec.ofNat 16 (a.toNat / 2 ^ k) := by
  apply BitVec.eq_of_toNat_eq
  rw [BitVec.toNat_ushiftRight, Nat.shiftRight_eq_div_pow, BitVec.toNat_ofNat, Nat.mod_eq_of_lt]
  exact (Nat.div_le_self _ _).trans_lt a.isLt

theorem sshiftRight_eq_ofInt {k : Nat} : a.sshiftRight k = BitVec.ofInt 16 (a.toInt / 2 ^ k) := by
  rw [BitVec.sshiftRight, Int.shiftRight_eq_div_pow]
  rfl

/-- The bit that a rotation to the left moves into bit 0, and one to the right into bit 15. -/
theorem rotateLeft_low (m : Fin 16) : (a.rotateLeft (m.val + 1)).getLsbD 0 = a.getLsbD (16 - (m.val + 1)) := by
  fin_cases m <;> simp

theorem rotateRight_high (m : Fin 16) : (a.rotateRight (m.val + 1)).getLsbD 15 = a.getLsbD (m.val + 1 - 1) := by
  fin_cases m <;> simp

theorem swapb16_eq : swapb16 a = a.extractLsb' 0 8 ++ a.extractLsb' 8 8 := by
  ext i hi
  rw [swapb16, ← BitVec.getLsbD_eq_getElem, ← BitVec.getLsbD_eq_getElem, BitVec.getLsbD_rotateLeft, BitVec.getLsbD_append]
  interval_cases i <;> simp

/-- The first `n` bits of a word, written down from bit 15, are a number that starts with them. -/
theorem sum_pow_down {f : Nat → Bool} {n : Nat} (hn : n ≤ 16) : ∃ q : Nat,
    ((List.range n).map fun i => if f i then 2 ^ (15 - i) else 0).sum = 2 ^ (16 - n) * q ∧ ∀ k, q.testBit k = (decide (k < n) && f (n - 1 - k)) := by
  induction n with
  | zero => exact ⟨0, by simp, by simp⟩
  | succ n ih =>
    obtain ⟨q, hsum, hq⟩ := ih (by omega)
    refine ⟨2 * q + (f n).toNat, ?_, fun k => ?_⟩
    · have hpow : 2 ^ (16 - n) = 2 * 2 ^ (15 - n) := by rw [show 16 - n = (15 - n) + 1 by omega, pow_succ']
      rw [List.range_succ, List.map_append, List.sum_append, hsum, hpow, show 16 - (n + 1) = 15 - n by omega]
      cases hf : f n
      · simp [hf]; ring
      · simp [hf]; ring
    · cases k with
      | zero => cases hf : f n <;> simp [Nat.testBit_zero, hf]
      | succ k =>
        have hdiv : (2 * q + (f n).toNat) / 2 = q := by cases f n <;> simp; omega
        rw [Nat.testBit_succ, hdiv, hq, show n + 1 - 1 - (k + 1) = n - 1 - k by omega]
        simp

theorem brev16_eq : brev16 a = a.reverse := by
  obtain ⟨q, hsum, hq⟩ := sum_pow_down (f := a.getLsbD) (le_refl 16)
  ext i hi
  rw [← BitVec.getLsbD_eq_getElem, ← BitVec.getLsbD_eq_getElem, brev16, hsum, BitVec.getLsbD_reverse, BitVec.getMsbD, BitVec.getLsbD_ofNat]
  simp [hq, hi]

end

/-- Settles O5: each instruction is an issue that maps the engine (`steps_of_issueReg`, `steps_of_issueIf`), by its row's result and flags. -/
theorem bobbinAlu : Obligations.BobbinAlu := by
  refine ⟨fun s e d x => ?_, fun s e d m => ?_, fun s e d m i8 imm => ?_⟩
  · refine ⟨?_, ?_, ?_, ?_, ?_, ?_, ?_, ?_, ?_, ?_⟩ <;> refine steps_of_issueReg rfl rfl rfl fun _ => ?_
    case refine_1 | refine_6 | refine_7 | refine_8 | refine_10 => rfl
    case refine_2 => rw [addFlags_false]; rfl
    case refine_3 => rw [addFlags_eq]; rfl
    case refine_4 | refine_9 => rw [subFlags_true]; rfl
    case refine_5 => rw [subFlags_eq]; rfl
  · refine ⟨?_, ?_, ?_, ?_, ?_, ?_, ?_, ?_, ?_, ?_, ?_, ?_, ?_, ?_⟩ <;> refine steps_of_issueReg rfl rfl rfl fun _ => ?_
    case refine_1 | refine_6 | refine_7 | refine_8 | refine_10 | refine_11 | refine_12 | refine_13 | refine_14 => rfl
    case refine_2 => rw [addFlags_false, toNat_imm4, toInt_imm4]; rfl
    case refine_3 => rw [addFlags_eq, toNat_imm4, toInt_imm4]; rfl
    case refine_4 | refine_9 => rw [subFlags_true, toNat_imm4, toInt_imm4]; rfl
    case refine_5 => rw [subFlags_eq, toNat_imm4, toInt_imm4]; rfl
  · refine ⟨?_, ?_, ?_, ?_, ?_, ?_, ?_, ?_, ?_, ?_, ?_, ?_, ?_, ?_, ?_⟩
    case refine_9 => exact steps_of_issueIf rfl rfl rfl rfl fun _ => by rw [Engine.aluZn_eq, Engine.getW_icache]
    case refine_1 | refine_10 | refine_13 => exact steps_of_issueIf rfl rfl rfl rfl fun _ => rfl
    case refine_2 => exact steps_of_issueIf rfl rfl rfl rfl fun _ => by rw [subFlags_zero]; rfl
    case refine_3 => exact steps_of_issueReg rfl rfl rfl fun _ => by rw [shlFlags, shiftLeft_eq_ofNat]; rfl
    case refine_4 => exact steps_of_issueReg rfl rfl rfl fun _ => by rw [shrFlags, ushiftRight_eq_ofNat]; rfl
    case refine_5 => exact steps_of_issueReg rfl rfl rfl fun _ => by rw [sarFlags, sshiftRight_eq_ofInt]; rfl
    case refine_6 => exact steps_of_issueReg rfl rfl rfl fun _ => by rw [rolFlags, rotateLeft_low]; rfl
    case refine_7 => exact steps_of_issueReg rfl rfl rfl fun _ => by rw [rorFlags, rotateRight_high]; rfl
    case refine_8 => exact steps_of_issueIf rfl rfl rfl rfl fun _ => by rw [brev16_eq, Engine.aluZn_eq, Engine.getW_icache]
    case refine_11 => exact steps_of_issueIf rfl rfl rfl rfl fun _ => by rw [swapb16_eq, Engine.aluZn_eq, Engine.getW_icache]
    case refine_12 => exact steps_of_issueReg rfl rfl rfl fun _ => rfl
    case refine_14 => exact steps_of_issueIf rfl rfl rfl rfl fun _ => by rw [addFlags_false]; rfl
    case refine_15 => exact steps_of_issueIf rfl rfl rfl rfl fun _ => by rw [subFlags_true]; rfl

end Sys2Proof.Machine
end

section
/-!
O6. The CRC and parity steps take the bytes of a word, low byte first; a result of the multiply and divide unit waits in `muldiv` (`steps_of_mulDiv`), and an
instruction that needs it lets it land first (`State.stall_of_waiting`).
-/

namespace Sys2Proof.Machine

section

variable {s u : State} {e : Nat} {i : Instr} {a b : W16}

/-! ### The bytes of a word -/

theorem leBytes_one {v : Nat} : leBytes 1 v = [BitVec.ofNat 8 v] := rfl

theorem leBytes_two {v : Nat} : leBytes 2 v = [BitVec.ofNat 8 v, BitVec.ofNat 8 (v / 256)] := rfl

theorem low_byte_eq : BitVec.ofNat 8 a.toNat = a.extractLsb' 0 8 := by
  apply BitVec.eq_of_toNat_eq
  simp

theorem high_byte_eq : BitVec.ofNat 8 (a.toNat / 256) = a.extractLsb' 8 8 := by
  apply BitVec.eq_of_toNat_eq
  simp [Nat.shiftRight_eq_div_pow]

/-! ### CRC-16 by its high bit (R357) -/

/-- One step, the bit tested and the word kept to 16 bits. -/
def crc16Step (v : Nat) : Nat := if v / 32768 % 2 = 1 then v * 2 % 65536 ^^^ 0x1021 else v * 2 % 65536

def crc16Steps (v : Nat) : Nat := crc16Step (crc16Step (crc16Step (crc16Step (crc16Step (crc16Step (crc16Step (crc16Step v)))))))

theorem crc16Step_lt {v : Nat} : crc16Step v < 65536 := by
  unfold crc16Step
  split
  · exact Nat.xor_lt_two_pow (n := 16) (by omega) (by decide)
  · omega

theorem crc16Steps_lt {v : Nat} : crc16Steps v < 65536 := crc16Step_lt

theorem crc16Bit_eq {v : Nat} (hv : v < 65536) : crc16Bit v = crc16Step v := by
  unfold crc16Bit crc16Step
  by_cases h : 0x8000 ≤ v
  · rw [if_pos h, if_pos (by omega), Nat.mul_comm]
  · rw [if_neg h, if_neg (by omega)]
    omega

theorem crc16Byte_eq {v : Nat} {x : Byte} (hv : v < 65536) : crc16Byte v x.toNat = crc16Steps (v ^^^ x.toNat * 256) := by
  have hx := x.isLt
  have h0 : v ^^^ x.toNat * 256 < 65536 := Nat.xor_lt_two_pow (n := 16) hv (by omega)
  unfold crc16Byte crc16Steps
  simp only [crc16Bit_eq h0, crc16Bit_eq crc16Step_lt]

/-- One byte of a run. The step stays folded: it names its argument three times for each of eight bits. -/
theorem crc16Run_cons {c : Nat} {x : Byte} {l : List Byte} : crc16Run c (x :: l) = crc16Run (crc16Byte c x.toNat) l := by
  delta crc16Run
  rfl

theorem crc16Run_nil {c : Nat} : crc16Run c [] = c := rfl

theorem crc16Run_one : crc16Run a.toNat (leBytes 1 b.toNat) = crc16Steps (a.toNat ^^^ (b.extractLsb' 0 8).toNat * 256) := by
  rw [← crc16Byte_eq a.isLt, leBytes_one, low_byte_eq, crc16Run_cons, crc16Run_nil]

theorem crc16Run_two : crc16Run a.toNat (leBytes 2 b.toNat) =
    crc16Steps (crc16Steps (a.toNat ^^^ (b.extractLsb' 0 8).toNat * 256) ^^^ (b.extractLsb' 8 8).toNat * 256) := by
  rw [← crc16Byte_eq crc16Steps_lt, ← crc16Byte_eq a.isLt, leBytes_two, low_byte_eq, high_byte_eq, crc16Run_cons, crc16Run_cons, crc16Run_nil]

/-! ### CRC-32C -/

theorem crcRunR_cons {poly c : Nat} {x : Byte} {l : List Byte} : crcRunR poly c (x :: l) = crcRunR poly (crcByteR poly c x.toNat) l := by
  delta crcRunR
  rfl

theorem crcRunR_nil {poly c : Nat} : crcRunR poly c [] = c := rfl

theorem crcRunR_one {c : Nat} : crcRunR poly32c c (leBytes 1 b.toNat) = crcByteR poly32c c (b.extractLsb' 0 8).toNat := by
  rw [leBytes_one, low_byte_eq, crcRunR_cons, crcRunR_nil]

theorem crcRunR_two {c : Nat} : crcRunR poly32c c (leBytes 2 b.toNat) =
    crcByteR poly32c (crcByteR poly32c c (b.extractLsb' 0 8).toNat) (b.extractLsb' 8 8).toNat := by
  rw [leBytes_two, low_byte_eq, high_byte_eq, crcRunR_cons, crcRunR_cons, crcRunR_nil]

/-! ### Products and quotients (R358) -/

theorem mulS_eq : mulS a b = (BitVec.ofInt 16 (a.toInt * b.toInt), BitVec.ofInt 16 (a.toInt * b.toInt / 65536)) := by
  generalize hp : a.toInt * b.toInt = p
  refine Prod.ext ?_ ?_ <;> apply BitVec.eq_of_toNat_eq <;> simp only [mulS, mulWords, hp, BitVec.toNat_ofNat, BitVec.toNat_ofInt] <;> omega

theorem divU_eq {n : Nat} : divU n b = if b = 0 ∨ 0xFFFF < n / b.toNat then (0xFFFF, 0xFFFF)
    else (BitVec.ofNat 16 (n / b.toNat), BitVec.ofNat 16 (n % b.toNat)) := by
  have hb : b.toNat = 0 ↔ b = 0 := by rw [← BitVec.toNat_inj]; rfl
  simp only [divU, hb]

theorem toSigned_of_lt {n : Nat} (hn : n < 2 ^ 32) : toSigned 32 n = if n < 2 ^ 31 then (n : Int) else (n : Int) - 2 ^ 32 := by
  unfold toSigned
  dsimp only
  rw [Nat.mod_eq_of_lt hn]
  split <;> split <;> omega

theorem divS_eq {n : Nat} {q : Int} (hq : toSigned 32 n = q) : divS n b = if b = 0 ∨ q.tdiv b.toInt < -32768 ∨ 32767 < q.tdiv b.toInt then (0x7FFF, 0)
    else (BitVec.ofInt 16 (q.tdiv b.toInt), BitVec.ofInt 16 (q.tmod b.toInt)) := by
  have hb : b.toNat = 0 ↔ b = 0 := by rw [← BitVec.toNat_inj]; rfl
  simp only [divS, hb, hq]

theorem Engine.pair_lt {x : Engine} {d : Nat} : x.pair d < 2 ^ 32 := by
  have h0 := (x.getW d).isLt
  have h1 := (x.getW (d + 1)).isLt
  unfold Engine.pair
  omega

/-! ### Results that wait -/

/-- An op of the unit issues: its result waits. -/
theorem steps_of_mulDiv {ws : List W16} {n : Nat} {ok : Bool} {uses : List Nat} {res : Engine → List (Nat × W16)} {l : List (Nat × W16)}
    (hw : bobWords i = some (e, ws)) (hn : ws.length = n) (hexec : exec i s = .next (s.mulDiv e i ok uses res)) (hok : ok = true)
    (hres : ∀ ic, res { s.eng e with icache := ic } = l) : Steps i s e n fun g => { g with muldiv := l } :=
  steps_of_issue (f' := fun x => { x with muldiv := res x }) hw hn hexec (fun _ _ => if_pos hok) fun ic => by rw [hres ic]

/-- One result under way, and an instruction that needs it. -/
theorem State.stall_of_waiting {uses : List Nat} {md : Bool} {r : Nat} {v : W16} (hmd : (u.eng e).muldiv = [(r, v)]) (hneed : md = true ∨ r ∈ uses) :
    u.stall e uses md = u.setEng e { (u.eng e).setW r v with muldiv := [] } := by
  have hland : (u.eng e).land = { (u.eng e).setW r v with muldiv := [] } := by
    rw [Engine.land, hmd]
    rfl
  simp [State.stall, hmd, hneed, hland]

theorem State.stall_of_other {uses : List Nat} {r : Nat} {v : W16} (hmd : (u.eng e).muldiv = [(r, v)]) (hr : r ∉ uses) : u.stall e uses false = u := by
  simp [State.stall, hmd, hr]

end

/-- Settles O6: the steps over bytes, the unit's results, which wait, and the two ways in which they land. -/
theorem bobbinMultiplyAndCrc : Obligations.BobbinMultiplyAndCrc := by
  refine ⟨fun s e d x => ?_, fun s e d x => ?_, fun s u e d x r v hup hlive hmd => ⟨fun hf => ⟨fun hr => ?_, fun hd hx => ?_⟩, fun hf => ?_⟩⟩
  · refine ⟨fun hd => ?_, fun hd => ?_, ?_, ?_, ?_⟩
    · exact steps_of_issueIf rfl rfl rfl (by simp [evenReg, hd]) fun _ => congrArg (fun v => Engine.setPair _ d.val (mulWords v)) crcRunR_two
    · exact steps_of_issueIf rfl rfl rfl (by simp [evenReg, hd]) fun _ => congrArg (fun v => Engine.setPair _ d.val (mulWords v)) crcRunR_one
    · exact steps_of_issueReg rfl rfl rfl fun _ => congrArg (fun v => Engine.setW _ d.val (BitVec.ofNat 16 v)) crc16Run_two
    · exact steps_of_issueReg rfl rfl rfl fun _ => congrArg (fun v => Engine.setW _ d.val (BitVec.ofNat 16 v)) crc16Run_one
    · exact steps_of_issueReg rfl rfl rfl fun _ => rfl
  · refine ⟨fun hd hd' => ?_, ?_, fun hup he hheld hmd => ?_⟩
    · have hok : mdPair d = true := by simp [mdPair, evenReg, hd, hd']
      refine ⟨steps_of_mulDiv rfl rfl rfl hok fun _ => rfl, steps_of_mulDiv rfl rfl rfl hok fun _ => congrArg (pairRes d.val) mulS_eq, ?_, ?_⟩
      · split <;> rename_i h
        · exact steps_of_mulDiv rfl rfl rfl hok fun _ => congrArg (pairRes d.val) (divU_eq.trans (if_pos h))
        · exact steps_of_mulDiv rfl rfl rfl hok fun _ => congrArg (pairRes d.val) (divU_eq.trans (if_neg h))
      · have hs : toSigned 32 (((s.eng e).getW d.val).toNat + 65536 * ((s.eng e).getW (d.val + 1)).toNat) = _ :=
          toSigned_of_lt ((s.eng e).pair_lt (d := d.val))
        rw [← hs]
        split <;> rename_i h
        · exact steps_of_mulDiv rfl rfl rfl hok fun _ => congrArg (pairRes d.val) ((divS_eq rfl).trans (if_pos h))
        · exact steps_of_mulDiv rfl rfl rfl hok fun _ => congrArg (pairRes d.val) ((divS_eq rfl).trans (if_neg h))
    · exact steps_of_mulDiv rfl rfl rfl rfl fun _ => rfl
    · have hland : (s.eng e).land = { ((s.eng e).setW d.val ((s.eng e).getW d.val)).setW (d.val + 1) ((s.eng e).getW x.val) with muldiv := [] } := by
        rw [Engine.land, hmd]
        rfl
      refine congrArg Host.Outcome.next ((State.whenUp_of_up hup).trans ?_)
      rw [hheld, decide_eq_true he, ← hland]
      rfl
  · refine congrArg Host.Outcome.next ((State.issue_of_fetched hup hlive rfl hf).trans ?_)
    rw [State.stall_of_waiting hmd (.inr (by simpa using hr))]
    rfl
  · refine congrArg Host.Outcome.next ((State.issue_of_fetched hup hlive rfl hf).trans ?_)
    rw [State.stall_of_other hmd (by simp [hd, hx])]
    rfl
  · refine congrArg Host.Outcome.next ((State.issue_of_fetched hup hlive rfl hf).trans ?_)
    rw [State.stall_of_waiting hmd (.inl rfl)]
    rfl

end Sys2Proof.Machine
end

section
/-!
O7. Loads and stores. An issued instruction runs its body in the state that its fetch left (`State.stands.exec`), and what an access answers is loaded, stored or
taken as a fault; then where a D-space word lies.
-/

namespace Sys2Proof.Machine

section

variable {s u v : State} {e n a : Nat} {i : Instr}

/-- An issued instruction runs its body in the state that its fetch left. -/
theorem State.stands.exec {ws : List W16} {uses : List Nat} {md : Bool} {k : Nat → State → State} (h : s.stands e i u) (hw : bobWords i = some (e, ws))
    (hexec : Machine.exec i s = .next (s.issue i uses md k)) : Machine.exec i s = .next (k ws.length u) :=
  hexec.trans (congrArg Host.Outcome.next (State.issue_of_stands h hw))

theorem State.stands.getW (h : s.stands e i u) (k : Nat) : (u.eng e).getW k = (s.eng e).getW k := by
  obtain ⟨ic, hx⟩ := h.eng
  rw [hx]
  rfl

theorem State.stands.addr (h : s.stands e i u) {b disp : Nat} : (u.eng e).addr b disp = (((s.eng e).getW b).toNat + disp) % 65536 := by
  rw [Engine.addr, h.getW]

/-! ### What an access answers -/

theorem State.bobLoad_ok {d : Nat} {w : W16} (h : s.dLoadAt e 1 (s.dLoc e a) = (v, .ok [w])) :
    s.bobLoad e n d a = v.setEng e (((v.eng e).setW d w).step n) := by
  rw [State.bobLoad, h]
  rfl

theorem State.bobLoad_error {d : Nat} {c b : Nat} (h : s.dLoadAt e 1 (s.dLoc e a) = (v, .error (c, b))) : s.bobLoad e n d a = v.bobFault e 3 c b := by
  rw [State.bobLoad, h]

theorem State.bobStore_ok {w : W16} (h : s.dStoreAt e [w] (s.dLoc e a) = (v, none)) : s.bobStore e n a w = v.setEng e ((v.eng e).step n) := by
  rw [State.bobStore, h]

theorem State.bobStore_error {w : W16} {c b : Nat} (h : s.dStoreAt e [w] (s.dLoc e a) = (v, some (c, b))) :
    s.bobStore e n a w = v.bobFault e 3 c b := by
  rw [State.bobStore, h]

/-! ### The body of a load or a store, in its own terms -/

section

variable {uses : List Nat} {ws : List W16} {d b disp : Nat} (h : s.stands e i u) (hw : bobWords i = some (e, ws))

include h hw

theorem exec_load (hexec : exec i s = .next (s.issue i uses false fun n s => s.bobLoad e n d ((s.eng e).addr b disp))) (v : State) :
    (∀ w, u.dLoadAt e 1 (u.dLoc e ((((s.eng e).getW b).toNat + disp) % 65536)) = (v, .ok [w]) →
      exec i s = .next (v.setEng e (((v.eng e).setW d w).step ws.length))) ∧
    ∀ c a, u.dLoadAt e 1 (u.dLoc e ((((s.eng e).getW b).toNat + disp) % 65536)) = (v, .error (c, a)) → exec i s = .next (v.bobFault e 3 c a) := by
  have hrun := h.exec hw hexec
  rw [h.addr] at hrun
  exact ⟨fun w hl => hrun.trans (congrArg Host.Outcome.next (State.bobLoad_ok hl)), fun c a hl => hrun.trans (congrArg Host.Outcome.next (State.bobLoad_error hl))⟩

theorem exec_store (hexec : exec i s = .next (s.issue i uses false fun n s => s.bobStore e n ((s.eng e).addr b disp) ((s.eng e).getW d))) (v : State) :
    (u.dStoreAt e [(s.eng e).getW d] (u.dLoc e ((((s.eng e).getW b).toNat + disp) % 65536)) = (v, none) →
      exec i s = .next (v.setEng e ((v.eng e).step ws.length))) ∧
    ∀ c a, u.dStoreAt e [(s.eng e).getW d] (u.dLoc e ((((s.eng e).getW b).toNat + disp) % 65536)) = (v, some (c, a)) →
      exec i s = .next (v.bobFault e 3 c a) := by
  have hrun := h.exec hw hexec
  rw [h.addr, h.getW] at hrun
  exact ⟨fun hl => hrun.trans (congrArg Host.Outcome.next (State.bobStore_ok hl)), fun c a hl => hrun.trans (congrArg Host.Outcome.next (State.bobStore_error hl))⟩

end

/-! ### Where a word lies (R346, R347) -/

/-- The memories that a checker guards are those that D-space can name. -/
theorem State.guarded_iff {p : Nat} : (∃ t, (s.physKind p).table = some t) ↔ p < 0x20000000000 ∧ p < s.dmc.cap ∨ 0x20000000000 ≤ p ∧ p < 0x20000400000 ∨
    0x20010000000 ≤ p ∧ p < 0x20010200000 ∨ 0x20020000000 ≤ p ∧ p < 0x20024000000 := by
  unfold State.physKind
  split
  · split
    · exact iff_of_true ⟨_, rfl⟩ (by omega)
    · exact iff_of_false (by simp [PhysKind.table]) (by omega)
  split
  · exact iff_of_true ⟨_, rfl⟩ (by omega)
  split
  · exact iff_of_false (by simp [PhysKind.table]) (by omega)
  split
  · exact iff_of_true ⟨_, rfl⟩ (by omega)
  split
  · exact iff_of_false (by simp [PhysKind.table]) (by omega)
  split
  · exact iff_of_true ⟨_, rfl⟩ (by omega)
  split
  · exact iff_of_false (by simp [PhysKind.table]) (by omega)
  split
  · exact iff_of_false (by simp [PhysKind.table]) (by omega)
  split
  · exact iff_of_false (by simp [PhysKind.table]) (by omega)
  split
  · exact iff_of_false (by simp [PhysKind.table]) (by omega)
  · exact iff_of_false (by simp [PhysKind.table]) (by omega)

theorem engPriv_of_le (h : 6 ≤ e % 8) : engPriv e = true := decide_eq_true h

theorem engPriv_of_lt (h : e % 8 < 6) : engPriv e = false := decide_eq_false (by omega)

theorem State.dLoc_window (ha : 0x8000 ≤ a) (he : 6 ≤ e % 8) :
    let p := ((s.eng e).bank0 + 65536 * (s.eng e).bank1) * 0x10000 + 2 * (a - 0x8000)
    s.dLoc e a = if p < 0x20000000000 ∧ p < s.dmc.cap ∨ 0x20000000000 ≤ p ∧ p < 0x20000400000 ∨ 0x20010000000 ≤ p ∧ p < 0x20010200000 ∨
      0x20020000000 ≤ p ∧ p < 0x20024000000 then .mem true p else .fault 2 p := by
  have hlo : ¬ a < 0x6000 := by omega
  have hhi : ¬ a < 0x8000 := by omega
  intro p
  cases ht : (s.physKind p).table with
  | some t =>
    rw [if_pos (State.guarded_iff.mp ⟨t, ht⟩)]
    simp only [p] at ht
    simp only [State.dLoc, hlo, hhi, engPriv_of_le he, ht, if_false, Bool.not_true, Bool.false_eq_true, p]
  | none =>
    rw [if_neg fun hg => by simpa [ht] using State.guarded_iff.mpr hg]
    simp only [p] at ht
    simp only [State.dLoc, hlo, hhi, engPriv_of_le he, ht, if_false, Bool.not_true, Bool.false_eq_true, p]

end

/-- Settles O7: each access, by what it answers (`exec_load`, `exec_store`); LDP and STP; and the three parts of D-space. -/
theorem bobbinMemory : Obligations.BobbinMemory := by
  refine ⟨fun s u e d b disp long => ⟨fun h => exec_load h rfl rfl, fun h => exec_load h rfl rfl, fun h => exec_store h rfl rfl,
      fun h => exec_store h rfl rfl, fun hd => ⟨fun h v => ?_, fun h v => ?_⟩⟩, fun s u e d b disp => ⟨fun h => ?_, fun h => ?_⟩,
    fun s e a ha => ⟨fun hlo => if_pos hlo, fun hlo hhi => ?_, fun hlo he => ?_, State.dLoc_window⟩⟩
  · have heven : evenReg d = true := by simp [evenReg, hd]
    have hrun := h.exec rfl rfl
    simp only [heven, Bool.not_true, Bool.false_eq_true, if_false, h.addr] at hrun
    exact ⟨fun lo hi hl => by rw [hrun, hl]; rfl, fun c a hl => by rw [hrun, hl]⟩
  · have heven : evenReg d = true := by simp [evenReg, hd]
    have hrun := h.exec rfl rfl
    simp only [heven, Bool.not_true, Bool.false_eq_true, if_false, h.addr, h.getW] at hrun
    exact ⟨fun hl => by rw [hrun, hl]; rfl, fun c a hl => by rw [hrun, hl]⟩
  · have hrun := h.exec rfl rfl
    simp only [h.addr] at hrun
    refine ⟨fun ha => ?_, fun v w hl => by rw [hrun, hl]; rfl, fun v c hl => by rw [hrun, hl]⟩
    obtain ⟨ic, hx⟩ := h.eng
    rw [hrun, State.iSpace, if_pos ha, hx]
    rfl
  · have hrun := h.exec rfl rfl
    simp only [h.addr, h.getW] at hrun
    refine ⟨fun he ha => ?_, fun he ha => ?_, fun he => ?_⟩
    · rw [hrun, engPriv_of_le he, if_neg (by decide), if_neg (by omega)]
      rfl
    · rw [hrun, engPriv_of_le he, if_neg (by decide), if_pos ha]
    · rw [hrun, engPriv_of_lt he]
      rfl
  · exact (if_neg (by omega)).trans (if_pos hhi)
  · unfold State.dLoc
    dsimp only
    rw [if_neg (by omega), if_neg (by omega), engPriv_of_lt he]
    rfl

end Sys2Proof.Machine
end

section
/-!
O8, and what the stack needs of it. A one-word load of local D SRAM gives the word of the youngest entry of the store buffer that holds it, else the memory's
(`Engine.view`, `State.dLoadAt_view`); a drain of the oldest entry changes no such word (`Engine.view_drained`).
-/

namespace Sys2Proof.Machine

section

variable {s u v : State} {e n a : Nat} {x : Engine}

/-! ### The youngest entry of a kind -/

section

variable {p : StoreEnt → Bool} {l : List StoreEnt} {t : StoreEnt}

theorem upTo_append : upTo p (l ++ [t]) = if p t then l.length + 1 else upTo p l := by
  have hle : ∀ (m : List Nat) (b k : Nat), b ≤ k → (∀ y, y ∈ m → y ≤ k) → m.foldl max b ≤ k := by
    intro m
    induction m with
    | nil => exact fun b k hb _ => hb
    | cons y m ih =>
      exact fun b k hb hm => ih _ k (max_le hb (hm y List.mem_cons_self)) fun z hz => hm z (List.mem_cons_of_mem y hz)
  have hmap : ((List.range l.length).map fun i => if ((l ++ [t])[i]?.map p).getD false then i + 1 else 0) =
      (List.range l.length).map fun i => if (l[i]?.map p).getD false then i + 1 else 0 := by
    refine List.map_congr_left fun i hi => ?_
    rw [List.getElem?_append_left (List.mem_range.mp hi)]
  unfold upTo
  rw [List.length_append, List.length_singleton, List.range_succ, List.map_append, hmap, List.foldl_append]
  cases hp : p t with
  | true =>
    have hall := hle ((List.range l.length).map fun i => if (l[i]?.map p).getD false then i + 1 else 0) 0 (l.length + 1) (by omega) (by
      intro y hy
      obtain ⟨i, hi, rfl⟩ := List.mem_map.mp hy
      have := List.mem_range.mp hi
      split <;> omega)
    simp [hp, hall]
  | false => simp [hp]

/-- Either no entry is of the kind, or the youngest one is. -/
theorem upTo_find : upTo p l = 0 ∧ l.reverse.find? p = none ∨
    ∃ t, 0 < upTo p l ∧ upTo p l ≤ l.length ∧ l[upTo p l - 1]? = some t ∧ p t = true ∧ l.reverse.find? p = some t := by
  induction l using List.reverseRecOn with
  | nil => exact .inl ⟨rfl, rfl⟩
  | append_singleton l t ih =>
    rw [upTo_append, List.reverse_append, List.reverse_singleton, List.singleton_append, List.find?_cons]
    cases hp : p t with
    | true => exact .inr ⟨t, by simp, by simp, by simp, hp, rfl⟩
    | false =>
      rcases ih with ⟨h0, hnone⟩ | ⟨y, hpos, hle, hget, hy, hfind⟩
      · exact .inl ⟨by simpa using h0, hnone⟩
      · refine .inr ⟨y, by simpa using hpos, ?_, ?_, hy, hfind⟩
        · simp only [Bool.false_eq_true, if_false, List.length_append]
          omega
        · simp only [Bool.false_eq_true, if_false]
          rw [List.getElem?_append_left (by omega), hget]

end

/-! ### What a load meets in the buffer (R364) -/

theorem StoreEnt.covers_self {t : StoreEnt} : t.covers t.loc t.words.length = true := by
  simp [StoreEnt.covers]

theorem StoreEnt.overlaps_self {t : StoreEnt} (h : t.words ≠ []) : t.overlaps t.loc t.words.length = true := by
  have := List.length_pos_iff.mpr h
  simp [StoreEnt.overlaps, this]

/-- The words of the youngest entry are met, from the buffer. -/
theorem State.bufMeet_youngest {wt win : Bool} {loc : Nat} {ws : List W16} {l : List StoreEnt} (hne : ws ≠ [])
    (hbuf : (s.eng e).sbuf = l ++ [{ window := wt, loc := loc, words := ws }]) : s.bufMeet e win loc ws.length = (s, some ws) := by
  have hk : upTo (fun y => y.overlaps loc ws.length) (l ++ [{ window := wt, loc := loc, words := ws }]) = l.length + 1 := by
    rw [upTo_append, if_pos (StoreEnt.overlaps_self (t := { window := wt, loc := loc, words := ws }) hne)]
  have hcov := StoreEnt.covers_self (t := { window := wt, loc := loc, words := ws })
  unfold State.bufMeet
  dsimp only
  rw [hbuf, hk, Nat.add_sub_cancel, List.getElem?_concat_length]
  dsimp only
  rw [if_pos ⟨Nat.succ_pos _, hcov⟩]
  simp

theorem State.sbuf_bufPut {t : StoreEnt} : ∃ l, ((s.bufPut e t).eng e).sbuf = l ++ [t] := by
  unfold State.bufPut
  dsimp only
  exact ⟨_, congrArg Engine.sbuf State.eng_setEng_self⟩

/-- What was just stored is loaded from the buffer. -/
theorem State.dLoadAt_of_dStoreAt {t : State} {ws : List W16} {l : DLoc} (hne : ws ≠ []) (h : s.dStoreAt e ws l = (t, none)) :
    t.dLoadAt e ws.length l = (t, .ok ws) := by
  cases l with
  | fault c a => simp [State.dStoreAt] at h
  | loc a =>
    cases h
    obtain ⟨l, hbuf⟩ := State.sbuf_bufPut (s := s) (e := e) (t := { window := false, loc := a, words := ws })
    unfold State.dLoadAt
    dsimp only
    rw [State.bufMeet_youngest hne hbuf]
  | mem win p =>
    have ht : t = s.bufPut e { window := win, loc := memLoc p, words := ws } := by
      unfold State.dStoreAt at h
      dsimp only at h
      split at h <;> cases h; rfl
    obtain ⟨l, hbuf⟩ := State.sbuf_bufPut (s := s) (e := e) (t := { window := win, loc := memLoc p, words := ws })
    rw [← ht] at hbuf
    unfold State.dLoadAt
    dsimp only
    rw [State.bufMeet_youngest hne hbuf]

/-! ### The words that local loads give -/

/-- The word that a load of one word of local D SRAM gives: the youngest entry's that holds it, else the memory's. -/
def Engine.view (x : Engine) (a : Nat) : W16 :=
  match x.sbuf.reverse.find? (·.overlaps a 1) with
  | some t => t.words.getD (a - t.loc) 0
  | none => x.dRead a

theorem StoreEnt.overlaps_one {t : StoreEnt} : t.overlaps a 1 = true ↔ t.loc ≤ a ∧ a < t.loc + t.words.length := by
  simp only [StoreEnt.overlaps, Bool.and_eq_true, decide_eq_true_eq]
  omega

theorem StoreEnt.covers_one {t : StoreEnt} (h : t.overlaps a 1 = true) : t.covers a 1 = true := by
  rw [StoreEnt.overlaps_one] at h
  simp only [StoreEnt.covers, Bool.and_eq_true, decide_eq_true_eq]
  omega

theorem State.dLoadAt_view : s.dLoadAt e 1 (.loc a) = (s, .ok [(s.eng e).view a]) := by
  unfold State.dLoadAt State.bufMeet Engine.view
  dsimp only
  rcases upTo_find (p := fun t => t.overlaps a 1) (l := (s.eng e).sbuf) with ⟨h0, hnone⟩ | ⟨t, hpos, -, hget, hover, hfind⟩
  · rw [h0, hnone]
    cases (s.eng e).sbuf[0 - 1]? <;> simp [State.drainN]
  · have hlt := (StoreEnt.overlaps_one.mp hover).2
    have hle := (StoreEnt.overlaps_one.mp hover).1
    have htake : (t.words.drop (a - t.loc)).take 1 = [t.words.getD (a - t.loc) 0] := by
      rw [List.take_one, List.head?_drop, List.getD_eq_getElem?_getD, List.getElem?_eq_getElem (by omega)]
      rfl
    rw [hget, hfind]
    simp only [hpos, StoreEnt.covers_one hover, and_self, if_true, htake]

/-! ### A drain -/

theorem Engine.dRead_dWrite {b : Nat} {w : W16} : (x.dWrite b w).dRead a = if a = b then w else x.dRead a := by
  split
  · next h => subst h; exact smGet_put_self
  · next h => exact smGet_put_ne h

theorem Engine.dRead_dWrites {ws : List W16} : ∀ {x : Engine} {b : Nat},
    (x.dWrites b ws).dRead a = if b ≤ a ∧ a < b + ws.length then ws.getD (a - b) 0 else x.dRead a := by
  induction ws with
  | nil =>
    intro x b
    rw [if_neg (by simp)]
    rfl
  | cons w ws ih =>
    intro x b
    rw [Engine.dWrites, ih, Engine.dRead_dWrite]
    by_cases hab : a = b
    · subst hab
      rw [if_neg (by omega), if_pos rfl, if_pos (by simp)]
      simp
    · rw [if_neg hab]
      by_cases hin : b + 1 ≤ a ∧ a < b + 1 + ws.length
      · rw [if_pos hin, if_pos (by rw [List.length_cons]; omega), show a - b = (a - (b + 1)) + 1 by omega, List.getD_cons_succ]
      · rw [if_neg hin, if_neg (by rw [List.length_cons]; omega)]

/-- Words that are written to local D SRAM change nothing else of the engine. -/
theorem Engine.dWrites_shape {ws : List W16} : ∀ {x : Engine} {b : Nat}, x.dWrites b ws = { x with dmem := (x.dWrites b ws).dmem } := by
  induction ws with
  | nil => exact rfl
  | cons w ws ih =>
    intro x b
    rw [Engine.dWrites, ih]
    rfl

/-- An engine whose oldest entry has landed: at 65,536 and above, in memory. -/
def Engine.drained (x : Engine) (t : StoreEnt) (ts : List StoreEnt) : Engine :=
  if t.loc < 65536 then { x with sbuf := ts, dmem := (x.dWrites t.loc t.words).dmem } else { x with sbuf := ts }

theorem Engine.view_drained {t : StoreEnt} {ts : List StoreEnt} (hbuf : x.sbuf = t :: ts) (ha : a < 65536) : (x.drained t ts).view a = x.view a := by
  have hread : t.overlaps a 1 = false → (x.drained t ts).dRead a = x.dRead a := by
    intro hover
    have hout : ¬ (t.loc ≤ a ∧ a < t.loc + t.words.length) := fun h => by simp [StoreEnt.overlaps_one.mpr h] at hover
    unfold Engine.drained
    split
    · exact Engine.dRead_dWrites.trans (if_neg hout)
    · rfl
  have hsb : (x.drained t ts).sbuf = ts := by
    unfold Engine.drained
    split <;> rfl
  unfold Engine.view
  rw [hsb, hbuf, List.reverse_cons, List.find?_append]
  cases hf : ts.reverse.find? (·.overlaps a 1) with
  | some y => rfl
  | none =>
    cases hover : t.overlaps a 1 with
    | false => simp [hover, hread hover]
    | true =>
      have hin := StoreEnt.overlaps_one.mp hover
      have hloc : t.loc < 65536 := by omega
      simp only [List.find?_cons, hover, Option.none_or]
      rw [Engine.drained, if_pos hloc]
      exact Engine.dRead_dWrites.trans (if_pos hin)

theorem State.eng_storeLand {t : StoreEnt} : (s.storeLand e t).eng e = if t.loc < 65536 then (s.eng e).dWrites t.loc t.words else s.eng e := by
  unfold State.storeLand
  split
  · exact State.eng_setEng_self
  · rfl

theorem State.eng_storeLand_ne {t : StoreEnt} {m : Nat} (h : m ≠ e) : (s.storeLand e t).eng m = s.eng m := by
  unfold State.storeLand
  split
  · exact State.eng_setEng_ne h
  · rfl

/-- The oldest entry lands; whether the engine then stops or goes on is judged apart. -/
theorem State.drainOne_cons {t : StoreEnt} {ts : List StoreEnt} (hbuf : (s.eng e).sbuf = t :: ts) :
    s.drainOne e = ((s.setEng e { s.eng e with sbuf := ts }).storeLand e t).engSettle e := by
  unfold State.drainOne
  dsimp only
  rw [hbuf]

theorem State.eng_landed {t : StoreEnt} {ts : List StoreEnt} :
    ((s.setEng e { s.eng e with sbuf := ts }).storeLand e t).eng e = (s.eng e).drained t ts := by
  rw [State.eng_storeLand, State.eng_setEng_self, Engine.drained]
  split
  · rw [Engine.dWrites_shape]
    congr 1
    generalize s.eng e = y
    generalize t.words = ws
    generalize t.loc = b
    have hcomm : ∀ (ws : List W16) (y : Engine) (b : Nat), (({ y with sbuf := ts } : Engine).dWrites b ws).dmem = (y.dWrites b ws).dmem := by
      intro ws
      induction ws with
      | nil => exact fun _ _ => rfl
      | cons w ws ih => exact fun y b => ih (y.dWrite b w) (b + 1)
    exact hcomm ws y b
  · rfl

theorem State.engSettle_busy (h : (s.eng e).sbuf ≠ []) : s.engSettle e = s := by
  simp [State.engSettle, h]

theorem State.engSettle_running (hst : (s.eng e).st = .running) (hstop : (s.eng e).stopReq = false) : s.engSettle e = s := by
  simp [State.engSettle, hst, hstop]

theorem State.engSettle_sync (hbuf : (s.eng e).sbuf = []) (hstop : (s.eng e).stopReq = false) (hst : (s.eng e).st = .waiting)
    (hw : (s.eng e).waitOn = some .sync) : s.engSettle e = s.setEng e { s.eng e with st := .running, waitOn := none, pc := ((s.eng e).pc + 1) % 65536 } := by
  simp [State.engSettle, hbuf, hstop, hst, hw]

theorem State.engSettle_stop (hbuf : (s.eng e).sbuf = []) (hstop : (s.eng e).stopReq = true) :
    s.engSettle e = s.setEng e { s.eng e with st := .stopped, stopReq := false, waitOn := none } := by
  simp [State.engSettle, hbuf, hstop]

/-- The last entry of the buffer lands in memory. -/
theorem State.drainOne_last {win : Bool} {w : W16} (hbuf : (s.eng e).sbuf = [{ window := win, loc := 65536 + a, words := [w] }]) :
    ∃ t : State, s.drainOne e = t.engSettle e ∧ t.eng e = { s.eng e with sbuf := [] } :=
  ⟨_, State.drainOne_cons hbuf, by rw [State.eng_landed, Engine.drained, if_neg (by simp)]⟩

theorem exec_storeBufferDrain (hup : s.up = true) (he : e < 32) : exec (.storeBufferDrain e) s = .next (s.drainOne e) :=
  congrArg Host.Outcome.next ((State.whenUp_of_up hup).trans (if_pos he))

end

/-- The bytes of a word that lands in memory. -/
theorem wordBytes_one {w : W16} : wordBytes [w] = [w.extractLsb' 0 8, w.extractLsb' 8 8] := by
  rw [wordBytes, List.flatMap_singleton, leBytes_two, low_byte_eq, high_byte_eq]

/-- Settles O8: the buffer's youngest entry is met; the oldest one lands (`State.drainOne_cons`), and an engine that waited for the last goes on or stops. -/
theorem bobbinStoreBuffer : Obligations.BobbinStoreBuffer := by
  refine ⟨fun s t e ws l => State.dLoadAt_of_dStoreAt, fun s e a w win rest hup he hst hstop => ⟨fun ha hbuf => ?_, fun hbuf => ?_, fun hbuf => ?_, fun hbuf => ?_⟩⟩
  · have hx : ((s.setEng e { s.eng e with sbuf := rest }).storeLand e { window := win, loc := a, words := [w] }).eng e =
        { s.eng e with sbuf := rest, dmem := smPut 0 (s.eng e).dmem a w } := by
      rw [State.eng_landed, Engine.drained, if_pos ha]
      rfl
    refine ⟨_, exec_storeBufferDrain hup he, ?_⟩
    rw [State.drainOne_cons hbuf, State.engSettle_running (by rw [hx]; exact hst) (by rw [hx]; exact hstop)]
    refine ⟨hx, ?_, ?_, fun i hi => (State.eng_storeLand_ne hi).trans (State.eng_setEng_ne hi)⟩
    · rw [State.storeLand, if_pos ha]
      rfl
    · rw [State.storeLand, if_pos ha]
      rfl
  · have hx : ((s.setEng e { s.eng e with sbuf := rest }).storeLand e { window := win, loc := 65536 + a, words := [w] }).eng e =
        { s.eng e with sbuf := rest } := by
      rw [State.eng_landed, Engine.drained, if_neg (by simp)]
    refine ⟨_, exec_storeBufferDrain hup he, ?_⟩
    rw [State.drainOne_cons hbuf, State.engSettle_running (by rw [hx]; exact hst) (by rw [hx]; exact hstop), hx]
    refine ⟨rfl, rfl, ?_, ?_⟩
    · rw [State.storeLand, if_neg (by simp)]
      rfl
    · rw [State.storeLand, if_neg (by simp)]
      dsimp only
      rw [State.unpoison_mem, wordBytes_one, Nat.add_sub_cancel_left]
      rfl
  · have hx' := State.eng_setEng_self (s := s) (e := e) (x := { s.eng e with st := .waiting, waitOn := some .sync })
    obtain ⟨t, hdrain, hx⟩ := State.drainOne_last (s := s.setEng e _) (e := e) ((congrArg Engine.sbuf hx').trans hbuf)
    rw [hx'] at hx
    refine ⟨_, exec_storeBufferDrain (s := s.setEng e _) hup he, ?_⟩
    rw [hdrain, State.engSettle_sync (by rw [hx]) (by rw [hx]; exact hstop) (by rw [hx]) (by rw [hx]), State.eng_setEng_self, hx]
    exact ⟨rfl, rfl, rfl, rfl⟩
  · have hx' := State.eng_setEng_self (s := s) (e := e) (x := { s.eng e with stopReq := true })
    obtain ⟨t, hdrain, hx⟩ := State.drainOne_last (s := s.setEng e _) (e := e) ((congrArg Engine.sbuf hx').trans hbuf)
    rw [hx'] at hx
    refine ⟨_, exec_storeBufferDrain (s := s.setEng e _) hup he, ?_⟩
    rw [hdrain, State.engSettle_stop (by rw [hx]) (by rw [hx]), State.eng_setEng_self, hx]
    exact ⟨rfl, rfl⟩

end Sys2Proof.Machine
end

section
/-!
O11, and what calls, faults and interrupts need of it. Words stand on the stack (`Engine.Holds`): a push puts one below the others (`State.push_spec`), a pop
takes the lowest (`State.pop_eq`), whatever the store buffer held.
-/

namespace Sys2Proof.Machine

section

variable {s : State} {e a : Nat} {x y : Engine} {w : W16} {ws : List W16} {l : List Nat}

/-! ### Words on the stack -/

/-- Words of local D SRAM, from an address up, as loads give them. -/
def Engine.Holds (x : Engine) (a : Nat) : List W16 → Prop
  | [] => True
  | w :: ws => x.view a = w ∧ x.Holds (a + 1) ws

theorem Engine.Holds.congr {b : Nat} (hv : ∀ c, a ≤ c → c < b → y.view c = x.view c) (hb : a + ws.length ≤ b) (h : x.Holds a ws) : y.Holds a ws := by
  induction ws generalizing a with
  | nil => trivial
  | cons w ws ih =>
    rw [List.length_cons] at hb
    obtain ⟨hw, hws⟩ := h
    exact ⟨(hv a (le_refl a) (by omega)).trans hw, ih (fun c hc => hv c (by omega)) (by omega) hws⟩

/-! ### A store of one word of local D SRAM -/

theorem Engine.view_stored : ({ x with sbuf := x.sbuf ++ [{ window := false, loc := a, words := [w] }] } : Engine).view = Function.update x.view a w := by
  funext b
  have hover : ({ window := false, loc := a, words := [w] } : StoreEnt).overlaps b 1 = decide (b = a) := by
    rw [Bool.eq_iff_iff, StoreEnt.overlaps_one, decide_eq_true_eq]
    change a ≤ b ∧ b < a + 1 ↔ b = a
    omega
  unfold Engine.view
  rw [List.reverse_append, List.reverse_singleton, List.singleton_append, List.find?_cons, hover, Function.update_apply]
  by_cases hb : b = a
  · subst hb
    simp
  · rw [decide_eq_false hb, if_neg hb]
    rfl

theorem State.putLocal_spec : ∃ sb dm, (s.putLocal e a w).eng e = { s.eng e with sbuf := sb, dmem := dm } ∧
    ∀ b, b < 65536 → ((s.putLocal e a w).eng e).view b = if b = a then w else (s.eng e).view b := by
  unfold State.putLocal State.bufPut
  dsimp only
  rw [State.eng_setEng_self, Engine.view_stored]
  simp only [Function.update_apply]
  split
  next hfull =>
    obtain ⟨t, ts, hbuf⟩ : ∃ t ts, (s.eng e).sbuf = t :: ts := List.exists_cons_of_length_pos (by omega)
    have hts : ts ≠ [] := by
      rintro rfl
      rw [hbuf] at hfull
      simp at hfull
    have hsb : ((s.eng e).drained t ts).sbuf = ts := by
      unfold Engine.drained
      split <;> rfl
    have hx : (s.drainOne e).eng e = (s.eng e).drained t ts := by
      rw [State.drainOne_cons hbuf, State.engSettle_busy, State.eng_landed]
      rw [State.eng_landed, hsb]
      exact hts
    rw [hx]
    refine ⟨((s.eng e).drained t ts).sbuf ++ [{ window := false, loc := a, words := [w] }], ((s.eng e).drained t ts).dmem, ?_, fun b hb => by rw [Engine.view_drained hbuf hb]⟩
    unfold Engine.drained
    split <;> rfl
  next => exact ⟨_, _, rfl, fun b _ => rfl⟩

/-! ### Push (R350) -/

theorem toNat_sub_one {p : W16} (h : 0 < p.toNat) : (p - 1).toNat = p.toNat - 1 := by
  have := p.isLt
  rw [BitVec.toNat_sub]
  simp
  omega

theorem State.push_spec (hsp : 0 < ((s.eng e).getW 15).toNat) (hws : ((s.eng e).getW 15).toNat + ws.length ≤ 65536)
    (hold : (s.eng e).Holds ((s.eng e).getW 15).toNat ws) :
    ∃ sb dm, (s.push e w).eng e = { (s.eng e).setW 15 ((s.eng e).getW 15 - 1) with sbuf := sb, dmem := dm } ∧
      ((s.push e w).eng e).Holds (((s.eng e).getW 15).toNat - 1) (w :: ws) := by
  obtain ⟨sb, dm, hx, hv⟩ := State.putLocal_spec (s := s) (e := e) (a := ((s.eng e).getW 15 - 1).toNat) (w := w)
  have hpush : (s.push e w).eng e = { (s.eng e).setW 15 ((s.eng e).getW 15 - 1) with sbuf := sb, dmem := dm } := by
    unfold State.push
    dsimp only
    rw [State.eng_setEng_self, hx]
    rfl
  have hview : ((s.push e w).eng e).view = ((s.putLocal e ((s.eng e).getW 15 - 1).toNat w).eng e).view := by
    rw [hpush, hx]
    rfl
  rw [toNat_sub_one hsp] at hview hv
  refine ⟨sb, dm, hpush, ?_, ?_⟩
  · rw [hview, hv _ (by omega), if_pos rfl]
  · rw [Nat.sub_add_cancel hsp]
    refine Engine.Holds.congr (b := 65536) (fun c hc hc' => ?_) hws hold
    rw [hview, hv c hc', if_neg (by omega)]

theorem Engine.getW_setW_self {i : Nat} : (x.setW i w).getW i = w := smGet_put_self

theorem Engine.getW_setW_ne {i j : Nat} (h : j ≠ i) : (x.setW i w).getW j = x.getW j := smGet_put_ne h

/-- What CALL saves of a register: 15 is FLAGS. -/
def Engine.saved (x : Engine) (e i : Nat) : W16 := if i = 15 then x.flags e else x.getW i

/-- An engine that differs in its stack alone: the words that wait or have landed in local D SRAM, and the stack pointer. -/
def Engine.Stacked (x y : Engine) : Prop := (∃ sb dm m, y = { x with sbuf := sb, dmem := dm, w := m }) ∧ ∀ i, i ≠ 15 → y.getW i = x.getW i

theorem Engine.Stacked.refl : x.Stacked x := ⟨⟨_, _, _, rfl⟩, fun _ _ => rfl⟩

theorem Engine.Stacked.trans {z : Engine} (h : x.Stacked y) (h' : y.Stacked z) : x.Stacked z := by
  obtain ⟨⟨sb, dm, m, hy⟩, hw⟩ := h
  obtain ⟨⟨sb', dm', m', hz⟩, hw'⟩ := h'
  exact ⟨⟨sb', dm', m', by rw [hz, hy]⟩, fun i hi => (hw' i hi).trans (hw i hi)⟩

theorem Engine.Stacked.saved (h : x.Stacked y) : y.saved e = x.saved e := by
  obtain ⟨⟨sb, dm, m, hy⟩, hw⟩ := h
  funext i
  unfold Engine.saved
  split
  · rw [hy]
    rfl
  next hi => exact hw i hi

theorem State.stacked_push (hsp : 0 < ((s.eng e).getW 15).toNat) (hws : ((s.eng e).getW 15).toNat + ws.length ≤ 65536)
    (hold : (s.eng e).Holds ((s.eng e).getW 15).toNat ws) :
    (s.eng e).Stacked ((s.push e w).eng e) ∧ ((s.push e w).eng e).getW 15 = (s.eng e).getW 15 - 1 ∧
      ((s.push e w).eng e).Holds (((s.eng e).getW 15).toNat - 1) (w :: ws) := by
  obtain ⟨sb, dm, hx, hh⟩ := State.push_spec (w := w) hsp hws hold
  refine ⟨?_, ?_, hh⟩
  · rw [hx]
    exact ⟨⟨sb, dm, _, rfl⟩, fun i hi => Engine.getW_setW_ne (x := s.eng e) hi⟩
  · rw [hx]
    exact Engine.getW_setW_self (x := s.eng e)

theorem State.stacked_pushAll : ∀ {l : List Nat} {s : State} {ws : List W16}, l.length ≤ ((s.eng e).getW 15).toNat →
    ((s.eng e).getW 15).toNat + ws.length ≤ 65536 → (s.eng e).Holds ((s.eng e).getW 15).toNat ws →
    (s.eng e).Stacked ((s.pushAll e l).eng e) ∧ (((s.pushAll e l).eng e).getW 15).toNat = ((s.eng e).getW 15).toNat - l.length ∧
      ((s.pushAll e l).eng e).Holds (((s.eng e).getW 15).toNat - l.length) ((l.map ((s.eng e).saved e)).reverse ++ ws) := by
  intro l
  induction l with
  | nil => exact fun _ _ hold => ⟨.refl, rfl, hold⟩
  | cons i l ih =>
    intro s ws hl hws hold
    rw [List.length_cons] at hl
    obtain ⟨hst, hsp, hh⟩ := State.stacked_push (w := (s.eng e).saved e i) (by omega) hws hold
    have hsp' : (((s.push e ((s.eng e).saved e i)).eng e).getW 15).toNat = ((s.eng e).getW 15).toNat - 1 := by
      rw [hsp, toNat_sub_one (by omega)]
    rw [← hsp'] at hh
    obtain ⟨hst', hsp'', hh'⟩ := ih (by omega) (by rw [List.length_cons]; omega) hh
    rw [hst.saved, hsp'] at hh'
    rw [hsp'] at hsp''
    refine ⟨hst.trans hst', ?_, ?_⟩
    · rw [List.length_cons]
      exact hsp''.trans (by omega)
    · rw [List.length_cons, List.map_cons, List.reverse_cons, List.append_assoc, List.singleton_append,
        show ((s.eng e).getW 15).toNat - (l.length + 1) = ((s.eng e).getW 15).toNat - 1 - l.length by omega]
      exact hh'

/-! ### Pop -/

theorem State.pop_eq : s.pop e = (s.setEng e ((s.eng e).setW 15 ((s.eng e).getW 15 + 1)), (s.eng e).view ((s.eng e).getW 15).toNat) := by
  unfold State.pop
  dsimp only
  rw [State.dLoadAt_view]
  rfl

/-- A register takes a word from the stack: 15 is FLAGS. -/
def Engine.restore (x : Engine) (i : Nat) (w : W16) : Engine := if i = 15 then x.setFlags w else x.setW i w

theorem Engine.view_restore {i : Nat} : (x.restore i w).view = x.view := by
  unfold Engine.restore
  split <;> rfl

theorem Engine.sp_restore {i : Nat} : (x.restore i w).getW 15 = x.getW 15 := by
  unfold Engine.restore
  split
  · rfl
  next h => exact Engine.getW_setW_ne (Ne.symm h)

theorem Engine.Holds.of_view (h : x.Holds a ws) (hv : y.view = x.view) : y.Holds a ws := by
  induction ws generalizing a with
  | nil => trivial
  | cons w ws ih => exact ⟨(congrFun hv a).trans h.1, ih h.2⟩

/-- What popping a list of registers leaves of an engine: each register of the list has its word, and the others stay. -/
structure Engine.Popped (x y : Engine) (l : List Nat) (f : Nat → W16) : Prop where
  regs : ∀ i, i ≠ 15 → y.getW i = if i ∈ l then f i else x.getW i
  flags : (y.c, y.z, y.n, y.v, y.ie) = if 15 ∈ l then ((f 15).getLsbD 0, (f 15).getLsbD 1, (f 15).getLsbD 2, (f 15).getLsbD 3, (f 15).getLsbD 4)
    else (x.c, x.z, x.n, x.v, x.ie)

theorem toNat_add_one {p : W16} (h : p.toNat + 1 < 65536) : (p + 1).toNat = p.toNat + 1 := by
  rw [BitVec.toNat_add]
  simp
  omega

theorem State.popped_popAll {f : Nat → W16} : ∀ {l : List Nat} {s : State} {ws : List W16}, ((s.eng e).getW 15).toNat + l.length < 65536 →
    (s.eng e).Holds ((s.eng e).getW 15).toNat (l.map f ++ ws) →
    (s.eng e).Popped ((s.popAll e l).eng e) l f ∧ (((s.popAll e l).eng e).getW 15).toNat = ((s.eng e).getW 15).toNat + l.length ∧
      ((s.popAll e l).eng e).Holds (((s.eng e).getW 15).toNat + l.length) ws := by
  intro l
  induction l with
  | nil => exact fun _ hold => ⟨⟨fun _ _ => rfl, rfl⟩, rfl, hold⟩
  | cons i l ih =>
    intro s ws hl hold
    rw [List.length_cons] at hl
    obtain ⟨hi, hrest⟩ := hold
    generalize hx1 : ((s.eng e).setW 15 ((s.eng e).getW 15 + 1)).restore i (f i) = x1
    have hstep : s.popAll e (i :: l) = ((s.setEng e ((s.eng e).setW 15 ((s.eng e).getW 15 + 1))).setEng e x1).popAll e l := by
      rw [State.popAll, State.pop_eq]
      dsimp only
      rw [State.eng_setEng_self, hi, ← hx1]
      rfl
    have hx : ((s.setEng e ((s.eng e).setW 15 ((s.eng e).getW 15 + 1))).setEng e x1).eng e = x1 := State.eng_setEng_self
    have hsp : (x1.getW 15).toNat = ((s.eng e).getW 15).toNat + 1 := by
      rw [← hx1, Engine.sp_restore, Engine.getW_setW_self, toNat_add_one (by omega)]
    have hview : x1.view = (s.eng e).view := by
      rw [← hx1, Engine.view_restore]
      rfl
    rw [hstep]
    obtain ⟨⟨hregs, hflags⟩, hsp', hh⟩ := ih (ws := ws) (s := (s.setEng e ((s.eng e).setW 15 ((s.eng e).getW 15 + 1))).setEng e x1)
      (by rw [hx, hsp]; omega) (by rw [hx, hsp]; exact hrest.of_view hview)
    rw [hx, hsp] at hsp' hh
    rw [hx] at hregs hflags
    refine ⟨⟨fun j hj => ?_, ?_⟩, by rw [hsp', List.length_cons]; omega, by rw [List.length_cons, show ∀ p n, p + (n + 1) = p + 1 + n by omega]; exact hh⟩
    · rw [hregs j hj]
      by_cases hjl : j ∈ l
      · rw [if_pos hjl, if_pos (List.mem_cons_of_mem i hjl)]
      · rw [if_neg hjl, ← hx1]
        by_cases hji : j = i
        · subst hji
          rw [if_pos List.mem_cons_self, Engine.restore, if_neg hj, Engine.getW_setW_self]
        · rw [if_neg (by simp [hji, hjl]), Engine.restore]
          split
          · exact Engine.getW_setW_ne hj
          · rw [Engine.getW_setW_ne hji, Engine.getW_setW_ne hj]
    · rw [hflags]
      by_cases hl15 : 15 ∈ l
      · rw [if_pos hl15, if_pos (List.mem_cons_of_mem i hl15)]
      · rw [if_neg hl15, ← hx1]
        by_cases hi15 : i = 15
        · subst hi15
          rw [if_pos List.mem_cons_self]
          rfl
        · rw [if_neg (by simp [hl15, Ne.symm hi15]), Engine.restore, if_neg hi15]
          rfl

/-- FLAGS gives back the five flags that a program can set. -/
theorem Engine.flags_bits : ((x.flags e).getLsbD 0, (x.flags e).getLsbD 1, (x.flags e).getLsbD 2, (x.flags e).getLsbD 3, (x.flags e).getLsbD 4) =
    (x.c, x.z, x.n, x.v, x.ie) := by
  unfold Engine.flags
  generalize x.c = c, x.z = z, x.n = n, x.v = v, x.ie = ie, engPriv e = p
  revert c z n v ie p
  decide

end

/-- Settles O11: what CALL pushed stands on the stack (`State.stacked_pushAll`), and RET takes each word to where it came from (`State.popped_popAll`). -/
theorem bobbinCallThenReturn : Obligations.BobbinCallThenReturn := by
  intro s e mask ret ws c z n v ie x named hroom htop t body r
  change named.length + 1 ≤ ((s.eng e).getW 15).toNat at hroom
  change ((s.eng e).getW 15).toNat ≤ 0x6000 at htop
  obtain ⟨hst1, hsp1, hh1⟩ := State.stacked_push (s := s) (e := e) (w := ret) (ws := []) (by omega) (by simp; omega) trivial
  have hsp1' : (((s.push e ret).eng e).getW 15).toNat = ((s.eng e).getW 15).toNat - 1 := by rw [hsp1, toNat_sub_one (by omega)]
  rw [← hsp1'] at hh1
  obtain ⟨hst2, hsp2, hh2⟩ := State.stacked_pushAll (l := named.reverse) (ws := [ret]) (by rw [List.length_reverse]; omega) (by simp; omega) hh1
  rw [hst1.saved, ← hsp2, List.map_reverse, List.reverse_reverse] at hh2
  rw [List.length_reverse] at hsp2
  have hbody : body.eng e = { t.eng e with w := smPut 0 ws 15 ((t.eng e).getW 15), c := c, z := z, n := n, v := v, ie := ie } := State.eng_setEng_self
  have hbsp : (body.eng e).getW 15 = (t.eng e).getW 15 := by
    rw [hbody]
    exact smGet_put_self
  have hbview : (body.eng e).view = (t.eng e).view := by
    rw [hbody]
    rfl
  obtain ⟨⟨hregs, hflags⟩, hsp3, hh3⟩ := State.popped_popAll (s := body) (e := e) (l := named) (f := x.saved e) (ws := [ret])
    (by rw [hbsp, hsp2]; omega) (by rw [hbsp]; exact hh2.of_view hbview)
  rw [hbsp, hsp2] at hsp3 hh3
  have hr : r = _ := State.pop_eq
  have hre : r.1.eng e = ((body.popAll e named).eng e).setW 15 (((body.popAll e named).eng e).getW 15 + 1) := by
    rw [hr]
    exact State.eng_setEng_self
  have hmem : ∀ i, i < 16 → mask.getLsbD i = true → i ∈ named := fun i hi hm => List.mem_filter.mpr ⟨List.mem_range.mpr hi, hm⟩
  refine ⟨?_, ?_, fun i hi hm => ?_, fun hm => ?_⟩
  · rw [hr]
    dsimp only
    rw [hsp3]
    exact hh3.1
  · rw [hre, Engine.getW_setW_self]
    apply BitVec.eq_of_toNat_eq
    rw [toNat_add_one (by omega), hsp3]
    change _ = ((s.eng e).getW 15).toNat
    omega
  · rw [hre, Engine.getW_setW_ne (by omega), hregs i (by omega), if_pos (hmem i (by omega) hm), Engine.saved, if_neg (by omega)]
  · rw [hre]
    refine hflags.trans ?_
    rw [if_pos (hmem 15 (by decide) hm), Engine.saved, if_pos rfl, Engine.flags_bits]

end Sys2Proof.Machine
end

section
/-!
O12, and what O14 needs of it. Entry to a vector pushes two words and takes the PC (`State.enter_spec`), or halts the engine (`State.enter_noRoom`); faults and illegal forms are
entries. Then the system operations, the forms that are illegal, and branches, calls and returns, each an issue.
-/

namespace Sys2Proof.Machine

section

variable {s u : State} {e v ret : Nat} {i : Instr} {x : Engine}

/-! ### Entry to a vector (R365) -/

theorem Engine.stackOk_of_room {n : Nat} (hlo : n ≤ (x.getW 15).toNat) (hhi : (x.getW 15).toNat ≤ 0x6000) : x.stackOk n = true := by
  simp [Engine.stackOk, hlo, hhi]

theorem Engine.stackOk_of_noRoom {n : Nat} (h : (x.getW 15).toNat < n ∨ 0x6000 < (x.getW 15).toNat) : x.stackOk n = false := by
  simp only [Engine.stackOk, Bool.and_eq_false_iff, decide_eq_false_iff_not]
  omega

/-- An engine that has entered a vector: the PC and FLAGS stand on its stack. -/
structure Engine.Entered (x y : Engine) (e v ret : Nat) : Prop where
  rest : ∃ sb dm m, y = { x with sbuf := sb, dmem := dm, w := m, ie := false, eiHold := false, pc := 2 * v, st := .running, waitOn := none }
  sp : y.getW 15 = x.getW 15 - 2
  ret : y.view ((x.getW 15).toNat - 1) = BitVec.ofNat 16 ret
  flags : y.view ((x.getW 15).toNat - 2) = x.flags e

theorem State.enter_spec (hlo : 2 ≤ ((s.eng e).getW 15).toNat) (hhi : ((s.eng e).getW 15).toNat ≤ 0x6000) :
    (s.eng e).Entered ((s.enter e v ret).eng e) e v ret := by
  obtain ⟨⟨⟨sb, dm, m, hx⟩, -⟩, hsp, hh⟩ := State.stacked_push (s := s) (e := e) (w := BitVec.ofNat 16 ret) (ws := []) (by omega) (by simp; omega) trivial
  have hsp1 : (((s.push e (BitVec.ofNat 16 ret)).eng e).getW 15).toNat = ((s.eng e).getW 15).toNat - 1 := by rw [hsp, toNat_sub_one (by omega)]
  rw [← hsp1] at hh
  obtain ⟨⟨⟨sb', dm', m', hx'⟩, -⟩, hsp', hh'⟩ := State.stacked_push (w := (s.eng e).flags e) (by omega) (by simp; omega) hh
  rw [hsp1] at hh'
  have hy : (s.enter e v ret).eng e = { ((s.push e (BitVec.ofNat 16 ret)).push e ((s.eng e).flags e)).eng e with
      ie := false, eiHold := false, pc := 2 * v, st := .running, waitOn := none } := by
    unfold State.enter
    dsimp only
    rw [if_pos (Engine.stackOk_of_room hlo hhi)]
    exact State.eng_setEng_self
  obtain ⟨hflags, hret, -⟩ := hh'
  generalize ((s.push e (BitVec.ofNat 16 ret)).push e ((s.eng e).flags e)).eng e = y at hy hx' hsp' hflags hret
  refine ⟨⟨sb', dm', m', ?_⟩, ?_, ?_, ?_⟩
  · rw [hy, hx', hx]
  · rw [hy]
    refine hsp'.trans ?_
    rw [hsp, sub_sub, show (1 : W16) + 1 = 2 by decide]
  · rw [hy, ← hret, show ((s.eng e).getW 15).toNat - 1 - 1 + 1 = ((s.eng e).getW 15).toNat - 1 by omega]
    rfl
  · rw [hy, ← hflags, show ((s.eng e).getW 15).toNat - 1 - 1 = ((s.eng e).getW 15).toNat - 2 by omega]
    rfl

/-! ### A halt (R344) -/

theorem State.eng_endWait_ne {n : Nat} (h : e ≠ n) : (s.endWait n).eng e = s.eng e := by
  unfold State.endWait
  dsimp only
  split
  · split
    · exact State.eng_setEng_ne h
    · rfl
  · rfl

theorem State.eng_engLine_ne {n line : Nat} (h : e ≠ n) : (s.engLine n line).eng e = s.eng e :=
  (State.eng_endWait_ne h).trans (State.eng_setEng_ne h)

theorem State.eng_engHalt {d : Bool} : (s.engHalt e d).eng e =
    { s.eng e with st := .halted, stopReq := false, waitOn := none, dfault := (s.eng e).dfault || d } := by
  unfold State.engHalt
  dsimp only
  split
  next h => exact (State.eng_engLine_ne (by unfold serviceOf; omega)).trans State.eng_setEng_self
  next h => exact (State.eng_engLine_ne (by unfold thimbleOf; omega)).trans State.eng_setEng_self

theorem State.enter_noRoom (h : ((s.eng e).getW 15).toNat < 2 ∨ 0x6000 < ((s.eng e).getW 15).toNat) :
    ((s.enter e v ret).eng e).st = .halted ∧ ((s.enter e v ret).eng e).dfault = true := by
  unfold State.enter
  dsimp only
  rw [Engine.stackOk_of_noRoom h, if_neg Bool.false_ne_true, State.eng_engHalt]
  exact ⟨rfl, Bool.or_true _⟩

/-! ### Faults -/

theorem State.bobFault_spec {cause addr : Nat} (hlo : 2 ≤ ((s.eng e).getW 15).toNat) (hhi : ((s.eng e).getW 15).toNat ≤ 0x6000) :
    ((s.eng e).note v cause addr).Entered ((s.bobFault e v cause addr).eng e) e v (s.eng e).pc := by
  have hx := State.eng_setEng_self (s := s) (e := e) (x := (s.eng e).note v cause addr)
  have h := State.enter_spec (s := s.setEng e ((s.eng e).note v cause addr)) (e := e) (v := v) (ret := (s.eng e).pc) (by rw [hx]; exact hlo)
    (by rw [hx]; exact hhi)
  rw [hx] at h
  exact h

/-- What an illegal form leaves: vector 1 is entered, with the instruction's own PC on the stack. -/
theorem State.bobIllegal_spec (hlo : 2 ≤ ((s.eng e).getW 15).toNat) (hhi : ((s.eng e).getW 15).toNat ≤ 0x6000) :
    ∃ cause addr, ((s.eng e).note 1 cause addr).Entered ((s.bobIllegal e).eng e) e 1 (s.eng e).pc :=
  ⟨_, _, State.bobFault_spec (s := s.drawn) hlo hhi⟩

/-! ### Illegal forms (R351) -/

theorem exec_issueIf_illegal {ws : List W16} {ok : Bool} {uses : List Nat} {f : Engine → Engine} (h : s.stands e i u) (hw : bobWords i = some (e, ws))
    (hexec : exec i s = .next (s.issueIf e i ok uses f)) (hok : ok = false) : exec i s = .next (u.bobIllegal e) :=
  (h.exec hw hexec).trans (congrArg Host.Outcome.next (if_neg (by simp [hok])))

theorem exec_mulDiv_illegal {ws : List W16} {ok : Bool} {uses : List Nat} {res : Engine → List (Nat × W16)} (h : s.stands e i u)
    (hw : bobWords i = some (e, ws)) (hexec : exec i s = .next (s.mulDiv e i ok uses res)) (hok : ok = false) : exec i s = .next (u.bobIllegal e) :=
  (h.exec hw hexec).trans (congrArg Host.Outcome.next (if_neg (by simp [hok])))

theorem noFields_of_ne {hi lo : Fin 16} (h : hi.val ≠ 0 ∨ lo.val ≠ 0) : noFields hi lo = false := by
  simp only [noFields, Bool.and_eq_false_iff, beq_eq_false_iff_ne]
  exact h

/-- A form that is illegal, once its issue is known to end so. -/
theorem completes_illegal (h : s.stands e i u) (hexec : exec i s = .next (u.bobIllegal e)) (hlo : 2 ≤ ((s.eng e).getW 15).toNat)
    (hhi : ((s.eng e).getW 15).toNat ≤ 0x6000) :
    Completes i s fun t => (t.eng e).pc = 2 ∧ (t.eng e).vector = 1 ∧ (t.eng e).ie = false ∧ (t.eng e).getW 15 = (s.eng e).getW 15 - 2 ∧
      (t.dLoadAt e 1 (.loc (((s.eng e).getW 15).toNat - 1))).2 = .ok [BitVec.ofNat 16 (s.eng e).pc] := by
  obtain ⟨ic, hx⟩ := h.eng
  obtain ⟨cause, addr, ⟨sb, dm, m, hy⟩, hsp, hret, -⟩ := State.bobIllegal_spec (s := u) (e := e) (by rw [h.getW]; exact hlo) (by rw [h.getW]; exact hhi)
  refine ⟨_, hexec, by rw [hy], by rw [hy]; rfl, by rw [hy], hsp.trans ?_, ?_⟩
  · rw [hx]
    rfl
  · rw [State.dLoadAt_view]
    rw [hx] at hret
    exact congrArg (fun w => Except.ok [w]) hret

/-! ### Lines of an engine that has fetched -/

theorem State.stands.regs (h : s.stands e i u) : u.regs = s.regs := (congrArg State.regs h.state :)

theorem State.stands.irqPend (h : s.stands e i u) : u.irqPend e = s.irqPend e := by
  have hbit : ∀ f, u.bit f = s.bit f := fun f => State.bit_of_fld (State.fld_of_reg (State.reg_of_regs h.regs))
  have hline : ∀ n, u.linePending e n = s.linePending e n := by
    intro n
    obtain ⟨ic, hx⟩ := h.eng
    unfold State.linePending
    simp only [hx, hbit]
  unfold State.irqPend
  simp only [hline]

theorem State.stands.waitEn (h : s.stands e i u) : (u.eng e).waitEn = (s.eng e).waitEn := by
  obtain ⟨ic, hx⟩ := h.eng
  rw [hx]

theorem State.stands.pc (h : s.stands e i u) : (u.eng e).pc = (s.eng e).pc := by
  obtain ⟨ic, hx⟩ := h.eng
  rw [hx]

end

/-- R366: the lowest line that is pending and enabled is due. -/
theorem State.lineDue_of {s : State} {e line : Nat} (hline : line < 16) (hp : s.linePending e line = true) (hen : (s.eng e).irqEn.testBit line = true)
    (hlow : ∀ k, k < line → s.linePending e k = false ∨ (s.eng e).irqEn.testBit k = false) : s.lineDue e = some line := by
  rw [State.lineDue, List.find?_range_eq_some]
  refine ⟨by simp [hp, hen], List.mem_range.mpr hline, fun k hk => ?_⟩
  rcases hlow k hk with h | h <;> simp [h]

theorem State.stands.sbuf {s u : State} {e : Nat} {i : Instr} (h : s.stands e i u) : (u.eng e).sbuf = (s.eng e).sbuf := by
  obtain ⟨ic, hx⟩ := h.eng
  rw [hx]

theorem Engine.bank_eq {x : Engine} {m : Nat} (hm : m < 4) : x.bank m = BitVec.ofNat 16 ([x.bank0, x.bank1, x.bank2, x.bank3].getD m 0) := by
  interval_cases m <;> rfl

/-- MVKB of a bank that the engine may write. -/
theorem steps_mvkb {s : State} {e : Nat} {a m : Fin 16} {f : Engine → Engine} (ha : a.val < 4) (hpriv : a.val < 3 → engPriv e = true)
    (hf : ∀ ic, ({ s.eng e with icache := ic } : Engine).setBank a.val ((s.eng e).getW m.val) = f { s.eng e with icache := ic }) :
    Steps (.bMvkb e a m) s e 1 f := by
  refine steps_of_issue (f' := fun x => x.setBank a.val (x.getW m.val)) rfl rfl rfl (fun u _ => ?_) hf
  dsimp only
  rw [if_neg (by omega), if_neg]
  rintro ⟨hlt, hfalse⟩
  simp [hpriv hlt] at hfalse

/-- Settles O12: each system operation is an issue; an event of an engine meets its condition; entry to a vector is `State.enter_spec`. -/
theorem bobbinSystem : Obligations.BobbinSystem := by
  refine ⟨fun s e a m => ?_, fun s e line v ret cause addr hup he hheld => ?_⟩
  · refine ⟨steps_of_issueIf rfl rfl rfl rfl fun _ => rfl, steps_of_issueIf rfl rfl rfl rfl fun _ => rfl, issues_of_issue rfl rfl fun u h => ?ei,
      steps_of_issueIf rfl rfl rfl rfl fun _ => rfl, fun hr => steps_of_issue (f' := fun g => { g with c := true }) rfl rfl rfl (fun u h => ?ready) fun _ => rfl,
      fun hr => issues_of_issue rfl rfl fun u h => ?wait, fun hm => steps_of_issueIf rfl rfl rfl (decide_eq_true hm) fun _ => ?mvbk,
      fun ha => ?bank3, fun he => ⟨fun ha => ?bank0, fun ha => ?bank1, fun ha => ?bank2⟩, fun he ha => issues_of_issue rfl rfl fun u h => ?priv,
      fun ha => issues_of_issue rfl rfl fun u h => if_pos ha, issues_of_issue rfl rfl fun u h => ?trap, issues_of_issue rfl rfl fun u h => rfl,
      steps_of_issueIf rfl rfl rfl rfl fun _ => rfl, steps_of_issueIf rfl rfl rfl rfl fun _ => rfl, steps_of_issueIf rfl rfl rfl rfl fun _ => rfl,
      fun hb => steps_of_issue (f' := fun g => g) rfl rfl rfl (fun u h => ?empty) fun _ => rfl, fun hb => issues_of_issue rfl rfl fun u h => ?busy⟩
    case ei =>
      obtain ⟨ic, hx⟩ := h.eng
      rw [hx]
      rfl
    case ready =>
      dsimp only
      rw [if_neg (by decide), if_pos (by rw [h.irqPend, h.waitEn]; exact hr)]
      rfl
    case wait =>
      dsimp only
      rw [if_neg (by decide), if_neg (by rw [h.irqPend, h.waitEn]; exact hr), h.getW]
    case mvbk => exact congrArg (Engine.setW _ a.val) (Engine.bank_eq hm)
    case bank3 => exact steps_mvkb (by omega) (fun hlt => absurd hlt (by omega)) fun _ => by rw [ha]; rfl
    case bank0 => exact steps_mvkb (by omega) (fun _ => engPriv_of_le he) fun _ => by rw [ha]; rfl
    case bank1 => exact steps_mvkb (by omega) (fun _ => engPriv_of_le he) fun _ => by rw [ha]; rfl
    case bank2 => exact steps_mvkb (by omega) (fun _ => engPriv_of_le he) fun _ => by rw [ha]; rfl
    case priv =>
      dsimp only
      rw [if_neg (by omega), if_pos ⟨ha, engPriv_of_lt he⟩]
    case trap =>
      dsimp only
      rw [if_neg (by decide), h.pc]
      rfl
    case empty =>
      dsimp only
      rw [if_neg (by decide), if_pos (by rw [h.sbuf, hb]; rfl)]
    case busy =>
      dsimp only
      rw [if_neg (by decide), if_neg (by rw [h.sbuf]; simpa using hb)]
  · intro x sp
    have hgo : ∀ f : State → State, s.whenUp f = f s := fun f => State.whenUp_of_up hup
    refine ⟨fun ws hw hst hne hidle => ?wait, fun hst hstop hie hei hline hp hen hlow => ?line, ?timer, fun hlo hhi => ?enter, State.enter_noRoom,
      fun hlo hhi => ?fault⟩
    case wait =>
      refine congrArg Host.Outcome.next ((hgo _).trans ?_)
      have hwait : (s.eng e).waitOn = some (.wait ws) := hw
      have hst' : (s.eng e).st = .waiting := hst
      have hidle' : s.irqPend e &&& (s.eng e).waitEn = 0 := hidle
      dsimp only
      rw [hwait]
      dsimp only
      rw [if_pos (by simp [he, hst', hne, hheld]), hidle']
      rfl
    case line =>
      refine congrArg Host.Outcome.next ((hgo _).trans (if_pos ?_))
      have hst' : (s.eng e).st = .running := hst
      have hstop' : (s.eng e).stopReq = false := hstop
      have hie' : (s.eng e).ie = true := hie
      have hei' : (s.eng e).eiHold = false := hei
      simp [he, hst', hstop', hie', hei', hheld, State.lineDue_of hline hp hen hlow]
    case timer =>
      refine ⟨_, congrArg Host.Outcome.next ((hgo _).trans (if_pos he)), ?_⟩
      unfold State.engLine
      rw [State.pend_endWait, State.eng_setEng_self]
      rfl
    case enter =>
      obtain ⟨⟨sb, dm, m, hy⟩, hsp, hret, hflags⟩ := State.enter_spec (e := e) (v := v) (ret := ret) hlo hhi
      refine ⟨by rw [hy], by rw [hy], by rw [hy], hsp, ?_, ?_⟩
      · rw [State.dLoadAt_view]
        exact congrArg (fun w => Except.ok [w]) hret
      · rw [State.dLoadAt_view]
        exact congrArg (fun w => Except.ok [w]) hflags
    case fault =>
      obtain ⟨⟨sb, dm, m, hy⟩, -, -, -⟩ := State.bobFault_spec (v := v) (cause := cause) (addr := addr) hlo hhi
      rw [hy]
      exact ⟨rfl, rfl, rfl, rfl, rfl⟩

end Sys2Proof.Machine
end

section
/-!
O14, O10. The forms that are illegal, each by its issue; then branches, jumps, calls and returns.
-/

namespace Sys2Proof.Machine

/-- Settles O14: every form of the list ends its issue in `bobIllegal`, which enters vector 1. -/
theorem bobbinIllegalForms : Obligations.BobbinIllegalForms := by
  intro s u e d z x16 i hform h hlo hhi
  refine completes_illegal h ?_ hlo hhi
  rcases hform with ⟨hz, hi⟩ | ⟨hd, hi⟩ | ⟨hd, hi⟩ | ⟨hz, rfl⟩
  · have hz0 : (z.val == 0) = false := by simpa using hz
    have hno : noFields d z = false := noFields_of_ne (.inr hz)
    have hno' : noFields z d = false := noFields_of_ne (.inl hz)
    have hand : ¬ (z.val = 0 ∧ d.val = 0) := fun hc => hz hc.1
    have hand' : ¬ (d.val = 0 ∧ z.val = 0) := fun hc => hz hc.2
    rcases hi with rfl | rfl | rfl | rfl | rfl | rfl | rfl | rfl | rfl | rfl | rfl | rfl | rfl | rfl | rfl | rfl | rfl | rfl | rfl | rfl | rfl | rfl | rfl | rfl | rfl | rfl
    · exact exec_issueIf_illegal h rfl rfl hz0
    · exact exec_issueIf_illegal h rfl rfl hz0
    · exact exec_issueIf_illegal h rfl rfl hz0
    · exact exec_issueIf_illegal h rfl rfl hz0
    · exact exec_issueIf_illegal h rfl rfl hz0
    · exact exec_issueIf_illegal h rfl rfl hz0
    · exact exec_issueIf_illegal h rfl rfl hz0
    · exact exec_issueIf_illegal h rfl rfl hz0
    · exact exec_issueIf_illegal h rfl rfl hz0
    · exact (h.exec rfl rfl).trans (congrArg Host.Outcome.next (if_neg hand))
    · exact (h.exec rfl rfl).trans (congrArg Host.Outcome.next (if_neg hand'))
    · exact (h.exec rfl rfl).trans (congrArg Host.Outcome.next (if_neg hz))
    · exact (h.exec rfl rfl).trans (congrArg Host.Outcome.next (if_neg hz))
    · exact (h.exec rfl rfl).trans (congrArg Host.Outcome.next (if_neg hand))
    · exact (h.exec rfl rfl).trans (congrArg Host.Outcome.next (if_neg hand'))
    · exact exec_issueIf_illegal h rfl rfl hz0
    · exact exec_issueIf_illegal h rfl rfl hz0
    · exact (h.exec rfl rfl).trans (congrArg Host.Outcome.next (if_neg (by simp [hno'])))
    · exact exec_issueIf_illegal h rfl rfl hno
    · exact (h.exec rfl rfl).trans (congrArg Host.Outcome.next (if_pos hz))
    · exact (h.exec rfl rfl).trans (congrArg Host.Outcome.next (if_pos hz))
    · exact (h.exec rfl rfl).trans (congrArg Host.Outcome.next (if_neg (by simp [hno])))
    · exact exec_issueIf_illegal h rfl rfl hno'
    · exact exec_issueIf_illegal h rfl rfl hz0
    · exact exec_issueIf_illegal h rfl rfl hz0
    · exact (h.exec rfl rfl).trans (congrArg Host.Outcome.next (if_pos (by simp [hno])))
  · have hodd : evenReg d = false := by simp [evenReg, hd]
    rcases hi with rfl | rfl | rfl | rfl | rfl | rfl
    · exact (h.exec rfl rfl).trans (congrArg Host.Outcome.next (if_pos (by simp [hodd])))
    · exact (h.exec rfl rfl).trans (congrArg Host.Outcome.next (if_pos (by simp [hodd])))
    · exact (h.exec rfl rfl).trans (congrArg Host.Outcome.next (if_pos (by simp [hodd])))
    · exact (h.exec rfl rfl).trans (congrArg Host.Outcome.next (if_pos (by simp [hodd])))
    · exact exec_issueIf_illegal h rfl rfl hodd
    · exact exec_issueIf_illegal h rfl rfl hodd
  · have hpair : mdPair d = false := by
      simp only [mdPair, evenReg, Bool.and_eq_false_iff, beq_eq_false_iff_ne, bne_eq_false_iff_eq]
      omega
    rcases hi with rfl | rfl | rfl | rfl
    · exact exec_mulDiv_illegal h rfl rfl hpair
    · exact exec_mulDiv_illegal h rfl rfl hpair
    · exact exec_mulDiv_illegal h rfl rfl hpair
    · exact exec_mulDiv_illegal h rfl rfl hpair
  · exact exec_issueIf_illegal h rfl rfl (decide_eq_false (by omega))

/-- R354: each condition of Table 12-9. -/
theorem condHolds_eq {c : Fin 16} {cf zf nf vf : Bool} : condHolds c.val cf zf nf vf =
    [zf, !zf, cf, !cf, nf, !nf, vf, !vf, cf && !zf, !cf || zf, nf == vf, nf != vf, !zf && nf == vf, zf || nf != vf, true].getD c.val false := by
  fin_cases c <;> rfl

/-- A branch's target, with the displacement sign-extended. -/
theorem branch_target {pc : Nat} {disp : BitVec 8} : (pc + 1 + (disp.signExtend 16).toNat) % 65536 = (((pc : Int) + 1 + disp.toInt) % 65536).toNat := by
  have h : ((disp.signExtend 16).toNat : Int) = disp.toInt % 65536 := by
    rw [BitVec.signExtend, BitVec.toNat_ofInt]
    omega
  omega

theorem maskDown_eq {m : W16} : maskDown m = ((List.range 16).filter fun i => m.getLsbD i).reverse := rfl

section

variable {s : State} {e : Nat}

theorem State.bobCall_room {ret : Nat} {t mask : W16} (hlo : ((List.range 16).filter fun i => mask.getLsbD i).length + 1 ≤ ((s.eng e).getW 15).toNat)
    (hhi : ((s.eng e).getW 15).toNat ≤ 0x6000) :
    let r := (s.push e (BitVec.ofNat 16 ret)).pushAll e ((List.range 16).filter fun i => mask.getLsbD i).reverse
    s.bobCall e ret t mask = r.setEng e { r.eng e with pc := t.toNat, eiHold := false } := by
  intro r
  unfold State.bobCall
  dsimp only
  rw [maskDown_eq, List.length_reverse]
  rw [Engine.stackOk_of_room hlo hhi]
  rfl

theorem State.bobCall_noRoom {ret : Nat} {t mask : W16}
    (h : ((s.eng e).getW 15).toNat < ((List.range 16).filter fun i => mask.getLsbD i).length + 1 ∨ 0x6000 < ((s.eng e).getW 15).toNat) :
    s.bobCall e ret t mask = s.bobFault e 3 7 (if 0x6000 < ((s.eng e).getW 15).toNat then ((s.eng e).getW 15).toNat - 1 else 0xFFFF) := by
  unfold State.bobCall
  dsimp only
  rw [maskDown_eq, List.length_reverse]
  rw [Engine.stackOk_of_noRoom h]
  rfl

theorem State.bobRet_room {l : List Nat} (h : ((s.eng e).getW 15).toNat + l.length + 1 ≤ 0x6000) :
    let r := (s.popAll e l).pop e
    s.bobRet e l = r.1.setEng e { r.1.eng e with pc := r.2.toNat, eiHold := false } := by
  intro r
  have hok : (s.eng e).popOk (l.length + 1) = true := decide_eq_true (by omega)
  unfold State.bobRet
  dsimp only
  rw [hok]
  rfl

theorem State.bobRet_noRoom {l : List Nat} (h : 0x6000 < ((s.eng e).getW 15).toNat + l.length + 1) :
    s.bobRet e l = s.bobFault e 3 7 (max 0x6000 ((s.eng e).getW 15).toNat) := by
  have hok : (s.eng e).popOk (l.length + 1) = false := decide_eq_false (by omega)
  unfold State.bobRet
  dsimp only
  rw [hok]
  rfl

end

/-- A return address is pushed as a word. -/
theorem ofNat_mod_word {n : Nat} : BitVec.ofNat 16 (n % 65536) = BitVec.ofNat 16 n := by
  apply BitVec.eq_of_toNat_eq
  simp

/-- Settles O10: a branch by its condition; a call and a return by the room that its stack has. -/
theorem bobbinControlFlow : Obligations.BobbinControlFlow := by
  refine ⟨fun s e c d disp target => ⟨fun hc => issues_of_issue rfl rfl fun u h => ?_, fun hc => issues_of_issue rfl rfl fun u h => if_pos hc,
    issues_of_issue rfl rfl fun u h => if_pos ⟨rfl, rfl⟩, issues_of_issue rfl rfl fun u h => ?_⟩,
    fun s u e d target mask => ⟨fun h => ⟨fun hlo hhi => ?_, fun hno => ?_⟩, fun h hlo hhi => ?_, fun h => ⟨fun hroom => ?_, fun hno => ?_⟩, fun h hroom => ?_⟩⟩
  · obtain ⟨ic, hx⟩ := h.eng
    dsimp only
    rw [if_neg hc, hx, condHolds_eq, branch_target]
    split <;> rfl
  · dsimp only
    rw [if_pos (Fin.val_zero 16), h.getW]
    rfl
  · refine (h.exec rfl rfl).trans (congrArg Host.Outcome.next ?_)
    dsimp only
    rw [if_pos ⟨rfl, rfl⟩, h.pc, State.bobCall_room (by rw [h.getW]; exact hlo) (by rw [h.getW]; exact hhi), ofNat_mod_word]
    rfl
  · refine (h.exec rfl rfl).trans (congrArg Host.Outcome.next ?_)
    rw [if_pos ⟨rfl, rfl⟩, State.bobCall_noRoom (by rw [h.getW]; exact hno), h.getW]
  · refine (h.exec rfl rfl).trans (congrArg Host.Outcome.next ?_)
    dsimp only
    rw [if_pos (Fin.val_zero 16), h.pc, h.getW, State.bobCall_room (by rw [h.getW]; exact hlo) (by rw [h.getW]; exact hhi), ofNat_mod_word]
    rfl
  · refine (h.exec rfl rfl).trans (congrArg Host.Outcome.next ?_)
    dsimp only
    rw [if_pos ⟨rfl, rfl⟩]
    exact State.bobRet_room (by rw [h.getW]; exact hroom)
  · refine (h.exec rfl rfl).trans (congrArg Host.Outcome.next ?_)
    rw [if_pos ⟨rfl, rfl⟩, ← h.getW]
    exact State.bobRet_noRoom (by rw [h.getW]; exact hno)
  · refine (h.exec rfl rfl).trans (congrArg Host.Outcome.next ?_)
    dsimp only
    rw [if_pos ⟨rfl, rfl⟩]
    exact State.bobRet_room (l := [15]) (by rw [h.getW]; exact hroom)

end Sys2Proof.Machine
end

section
/-!
O9. IN and OUT by what the access answers (`exec_in`, `exec_out`); the words of local I/O and the window of control space; the mailbox and the register port.
-/

namespace Sys2Proof.Machine

section

variable {s u v : State} {e n a : Nat} {i : Instr}

/-! ### IN and OUT (R348, R356) -/

section

variable {uses : List Nat} {ws : List W16} {d b disp : Nat} (h : s.stands e i u) (hw : bobWords i = some (e, ws))

include h hw

theorem exec_in (hexec : exec i s = .next (s.issue i uses false fun n s => s.bobIn e n d ((s.eng e).addr b disp))) (v : State) :
    (∀ w, u.ioIn e ((((s.eng e).getW b).toNat + disp) % 65536) = (v, .ok w) → exec i s = .next (v.setEng e (((v.eng e).setW d w).step ws.length))) ∧
    ∀ c, u.ioIn e ((((s.eng e).getW b).toNat + disp) % 65536) = (v, .error c) →
      exec i s = .next (v.bobFault e 4 c ((((s.eng e).getW b).toNat + disp) % 65536)) := by
  have hrun := h.exec hw hexec
  rw [h.addr] at hrun
  refine ⟨fun w hl => ?_, fun c hl => ?_⟩
  · rw [hrun, State.bobIn, hl]
  · rw [hrun, State.bobIn, hl]

theorem exec_out (hexec : exec i s = .next (s.issue i uses false fun n s => s.bobOut e n ((s.eng e).addr b disp) ((s.eng e).getW d))) (v : State) :
    (u.ioOut e ((((s.eng e).getW b).toNat + disp) % 65536) ((s.eng e).getW d) = (v, none) →
      exec i s = .next (v.setEng e ((v.eng e).step ws.length))) ∧
    ∀ c, u.ioOut e ((((s.eng e).getW b).toNat + disp) % 65536) ((s.eng e).getW d) = (v, some c) →
      exec i s = .next (v.bobFault e 4 c ((((s.eng e).getW b).toNat + disp) % 65536)) := by
  have hrun := h.exec hw hexec
  rw [h.addr, h.getW] at hrun
  refine ⟨fun hl => ?_, fun c hl => ?_⟩
  · rw [hrun, State.bobOut, hl]
  · rw [hrun, State.bobOut, hl]

end

/-! ### Words of local I/O (Table 12-4) -/

theorem State.ioIn_local {r : State × W16} (ha : a < 0x4000) (h : s.ioGet e a = some r) : s.ioIn e a = (r.1, .ok r.2) := by
  rw [State.ioIn, if_pos ha, h]

theorem State.ioOut_local {w : W16} (ha : a < 0x4000) (h : s.ioPut e a w = some v) : s.ioOut e a w = (v, none) := by
  rw [State.ioOut, if_pos ha, h]

/-- The addresses of local I/O that Table 12-4 leaves out. -/
def IoGap (a : Nat) : Prop :=
  0x5 ≤ a ∧ a ≤ 0x7 ∨ 0xC ≤ a ∧ a ≤ 0xF ∨ 0x14 ≤ a ∧ a ≤ 0x17 ∨ 0x19 ≤ a ∧ a ≤ 0x1F ∨ 0x24 ≤ a ∧ a ≤ 0x3F ∨ 0x4B ≤ a ∧ a ≤ 0xFF ∨ 0x10A ≤ a ∧ a < 0x4000

theorem State.ioGet_gap (h : IoGap a) : s.ioGet e a = none := by
  unfold IoGap at h
  unfold State.ioGet
  dsimp only
  rw [if_neg (by omega), if_neg (by omega), if_neg (by omega), if_neg (by omega), if_neg (by omega), if_neg (by omega), if_neg (by omega),
    if_neg (by omega), if_neg (by omega), if_neg (by omega), if_neg (by omega), if_neg (by omega), if_neg (by omega), if_neg (by omega),
    if_neg (by omega), if_neg (by omega), if_neg (by omega)]

theorem State.ioPut_gap {w : W16} (h : IoGap a) : s.ioPut e a w = none := by
  unfold IoGap at h
  unfold State.ioPut
  dsimp only
  rw [if_neg (by omega), if_neg (by omega), if_neg (by omega), if_neg (by omega), if_neg (by omega), if_neg (by omega), if_neg (by omega),
    if_neg (by omega), if_neg (by omega), if_neg (by omega), if_neg (by omega), if_neg (by omega), if_neg (by omega), if_neg (by omega)]

theorem State.io_gap {w : W16} (h : IoGap a) : s.ioIn e a = (s, .error 2) ∧ s.ioOut e a w = (s, some 2) := by
  have ha : a < 0x4000 := by
    unfold IoGap at h
    omega
  rw [State.ioIn, State.ioOut, if_pos ha, if_pos ha, State.ioGet_gap h, State.ioPut_gap h]
  exact ⟨rfl, rfl⟩

/-- An access of the window that is refused before anything drains. -/
theorem State.io_window {c : Nat} {w : W16} (ha : 0x4000 ≤ a) (h : s.ioWin e a = .error c) : s.ioIn e a = (s, .error c) ∧ s.ioOut e a w = (s, some c) := by
  rw [State.ioIn, State.ioOut, if_neg (by omega), if_neg (by omega), h]
  exact ⟨rfl, rfl⟩

theorem State.ioWin_pattern (he : e % 8 < 6) : s.ioWin e a = .error 1 := by
  rw [State.ioWin, engPriv_of_lt he]
  rfl

theorem State.ioWin_beyond (he : 6 ≤ e % 8) (h : 0xFFFFFFF < (s.eng e).bank2 * 65536 + 2 * (a - 0x4000)) : s.ioWin e a = .error 2 := by
  rw [State.ioWin, engPriv_of_le he, if_neg (by decide)]
  exact if_pos h

/-! ### The mailbox and the register port -/

theorem State.mbx_endWait : ((s.endWait e).eng e).mbx = (s.eng e).mbx := by
  unfold State.endWait
  dsimp only
  split
  · split
    · rw [State.eng_setEng_self]
      rfl
    · rfl
  · rfl

theorem State.bobLive_spec (h : s.bobLive e = true) : e < 32 ∧ s.engHeld e = false := by
  simp only [State.bobLive, Bool.and_eq_true, decide_eq_true_eq, Bool.not_eq_true'] at h
  exact ⟨h.1.1.1, h.2⟩

theorem State.rportOn_started {cmd : Nat} (h : s.bobLive e = true) (hc : (s.eng e).rpCmd = cmd) : s.rportOn e cmd = true := by
  obtain ⟨he, hheld⟩ := State.bobLive_spec h
  simp [State.rportOn, he, hheld, hc]

end

/-- Settles O9: each access by its answer, each word by its line of Table 12-4. -/
theorem bobbinInputOutput : Obligations.BobbinInputOutput := by
  refine ⟨fun s u e d b disp long => ⟨fun h => exec_in h rfl rfl, fun h => exec_in h rfl rfl, fun h => exec_out h rfl rfl, fun h => exec_out h rfl rfl,
    fun hd => ⟨fun h => ?ind, fun h => ?outd⟩⟩, fun s e v he => ?words, fun s e slot w hup hlive hslot => ?mail⟩
  case ind =>
    have heven : evenReg d = true := by simp [evenReg, hd]
    have hrun := h.exec rfl rfl
    simp only [heven, Bool.not_true, Bool.false_eq_true, if_false, h.addr] at hrun
    refine ⟨fun hodd => by rw [hrun, if_pos hodd], fun hev v z lo hi hlo hhi => ?_⟩
    rw [hrun, if_neg (by omega), hlo]
    dsimp only
    rw [hhi]
    rfl
  case outd =>
    have heven : evenReg d = true := by simp [evenReg, hd]
    have hrun := h.exec rfl rfl
    simp only [heven, Bool.not_true, Bool.false_eq_true, if_false, h.addr, h.getW] at hrun
    refine ⟨fun hodd => by rw [hrun, if_pos hodd], fun hev v z hlo hhi => ?_⟩
    rw [hrun, if_neg (by omega), hlo]
    dsimp only
    rw [hhi]
    rfl
  case words =>
    refine ⟨State.ioIn_local (a := 0) (by decide) rfl, State.ioIn_local (a := 1) (by decide) rfl, ?_, ?_, State.ioIn_local (a := 0x11) (by decide) rfl,
      State.ioOut_local (by decide) rfl, State.ioOut_local (by decide) rfl, fun a ha => State.io_gap ha,
      fun a ha _ => ⟨fun he => State.io_window ha (State.ioWin_pattern he), fun he hb => State.io_window ha (State.ioWin_beyond he hb)⟩⟩
    · refine (State.ioIn_local (by decide) rfl).trans ?_
      simp [wordOf]
    · refine (State.ioIn_local (by decide) rfl).trans ?_
      simp [wordOf]
  case mail =>
    intro dst x
    obtain ⟨he, hheld⟩ := State.bobLive_spec hlive
    have hsend : exec (.mailboxSend e slot w) s = .next (s.mboxPush e dst w) :=
      congrArg Host.Outcome.next ((State.whenUp_of_up hup).trans (if_pos (by simp [hlive, hslot])))
    refine ⟨fun hne hroom => ⟨_, hsend, ?_, ?_⟩, fun hne hfull => ?_, fun r hr => ?_, fun hr => ?_, fun hc t d ok hread => ?_, fun hc hg => ?_,
      fun hc hok t ht => ?_⟩
    · rw [State.mboxPush, if_neg (by omega), State.mbx_endWait, State.eng_setEng_self]
    · rw [State.mboxPush, if_neg (by omega), State.eng_endWait_ne hne, State.eng_setEng_ne hne]
    · rw [hsend, State.mboxPush, if_pos hfull]
    · have hmbx : (s.eng e).mbx = w :: r := hr
      have hrun : exec (.mailboxReceive e) s = .next ((s.setEng e { s.eng e with mbx := r }).emit (.readData (wordBytes [w]))) := by
        refine congrArg Host.Outcome.next ((State.whenUp_of_up hup).trans ?_)
        simp only [hlive, hmbx, Bool.not_true, Bool.false_eq_true, if_false]
      refine ⟨_, hrun, State.eng_setEng_self, ?_⟩
      rw [wordBytes_one]
      rfl
    · have hmbx : (s.eng e).mbx = [] := hr
      refine congrArg Host.Outcome.next ((State.whenUp_of_up hup).trans ?_)
      simp only [hlive, hmbx, Bool.not_true, Bool.false_eq_true, if_false]
      rfl
    · refine congrArg Host.Outcome.next ((State.whenUp_of_up hup).trans ?_)
      rw [State.rportOn_started hlive hc, if_neg (by decide)]
      dsimp only
      rw [hread]
    · obtain ⟨g, hg⟩ := hg
      have hg' : s.ctlJudge (.bobbin e) true ((s.eng e).rpOff / 8 * 8) = .refused g := hg
      refine ⟨_, congrArg Host.Outcome.next ((State.whenUp_of_up hup).trans (if_neg (by simp [State.rportOn_started hlive hc]))), ?_⟩
      dsimp only
      rw [State.eng_setEng_self, hg']
      exact ⟨rfl, rfl⟩
    · have hok' : s.ctlJudge (.bobbin e) true ((s.eng e).rpOff / 8 * 8) = .ok := hok
      refine congrArg Host.Outcome.next ((State.whenUp_of_up hup).trans ?_)
      rw [State.rportOn_started hlive hc, if_neg (by decide)]
      dsimp only
      rw [hok', ht]

end Sys2Proof.Machine
end

section
/-!
O13. Coprocessor ports. The operands of a command are judged, which leaves engines and memory alone (`State.Judged`), and the unit then starts
(`State.CopStarted`), whatever the command; what it computed waits in the unit until it is done.
-/

namespace Sys2Proof.Machine

/-! ### Two states of one engine, one after the other -/

theorem smIns_smIns {α : Type} {i : Nat} {a b : α} : ∀ {m : SMap α}, smIns (smIns m i a) i b = smIns m i b
  | [] => by simp [smIns]
  | (k, v) :: m => by
    by_cases heq : i = k
    · simp [smIns, heq]
    · by_cases hlt : i < k
      · simp [smIns, heq, hlt]
      · simp [smIns, heq, hlt, smIns_smIns]

section

variable {s t u r : State} {e port num n a : Nat} {i : Instr} {x y : Engine}

theorem Engine.ne_reset (h : x.st = .running) : x ≠ Engine.reset := by
  rintro rfl
  cases h

theorem State.setEng_setEng (hx : x.st = .running) (hy : y.st = .running) : (s.setEng e x).setEng e y = s.setEng e y := by
  simp only [State.setEng, smPut, Engine.ne_reset hx, Engine.ne_reset hy, if_false, smIns_smIns]

theorem State.stands.running (h : s.stands e i u) : (u.eng e).st = .running := by
  obtain ⟨ic, hx⟩ := h.eng
  obtain ⟨-, hlive, -⟩ := h
  simp only [State.bobLive, Bool.and_eq_true, beq_iff_eq] at hlive
  rw [hx]
  exact hlive.1.1.2

theorem State.stands.cop (h : s.stands e i u) : u.cop e port = s.cop e port := by
  obtain ⟨ic, hx⟩ := h.eng
  rw [State.cop, State.cop, hx]

/-! ### Units (Table 12-1) -/

theorem CopUnit.last_lt (un : CopUnit) : un.last < 15 := by
  cases un <;> decide

/-- The seven ports of the engines, each by its unit. -/
theorem copUnits : (e % 8 = 6 → copUnit e 0 = some .sha ∧ copUnit e 1 = some .aes ∧ copUnit e 2 = some .big) ∧ copUnit e 3 = none ∧
    (e % 8 < 6 → copUnit e 0 = some .crc ∧ copUnit e 1 = some .parse ∧ copUnit e 2 = none) ∧
    (e % 8 = 7 → copUnit e 0 = some .crc ∧ copUnit e 1 = none ∧ copUnit e 2 = none) := by
  refine ⟨fun h => by simp [copUnit, h], by simp [copUnit], fun h => ?_, fun h => by simp [copUnit, h]⟩
  have hne : e % 8 ≠ 6 := by omega
  simp [copUnit, h, hne]

/-! ### Operands and results are judged -/

/-- An access was judged: engines and memory are as they were. -/
structure State.Judged (s t : State) : Prop where
  engs : t.engs = s.engs
  mem : t.mem = s.mem

theorem State.Judged.refl : s.Judged s := ⟨rfl, rfl⟩

theorem State.Judged.trans (h : s.Judged t) (h' : t.Judged u) : s.Judged u := ⟨h'.engs.trans h.engs, h'.mem.trans h.mem⟩

theorem State.Judged.eng (h : s.Judged t) : t.eng e = s.eng e := by
  rw [State.eng, State.eng, h.engs]

theorem State.judged_violation {who : Agent} {k : AccKind} {c g p : Nat} : s.Judged (s.violation who k c g p) :=
  ⟨State.violation_engs .., State.violation_mem ..⟩

theorem State.judged_drawn : s.Judged s.drawn := ⟨rfl, rfl⟩

theorem State.judged_copIn {ptr : Nat} : s.Judged (s.copIn e ptr n).1 := by
  unfold State.copIn
  dsimp only
  split
  · exact .refl
  · split
    · exact .refl
    · exact State.judged_violation
    · exact .refl

theorem State.judged_copIns {l : List (Nat × Nat)} : ∀ {s : State}, s.Judged (s.copIns e l).1 := by
  induction l with
  | nil => exact .refl
  | cons p l ih =>
    intro s
    unfold State.copIns
    dsimp only
    split
    · exact State.judged_copIn
    · exact State.judged_copIn.trans ih

theorem State.judged_copOut {ptr : Nat} {b : List Byte} : s.Judged (s.copOut e ptr b).1 := by
  unfold State.copOut
  dsimp only
  split
  · exact .refl
  · split
    · exact State.judged_violation
    · exact .refl
    · exact .refl

/-! ### The unit starts (R360) -/

/-- The unit at a port has started, with its registers as they were; of the engine and of memory nothing else has changed. -/
structure State.CopStarted (s t : State) (e port : Nat) : Prop where
  eng : ∃ m, t.eng e = { s.eng e with cops := m }
  mem : t.mem = s.mem
  busy : (t.cop e port).busy = true
  err : (t.cop e port).err = false
  regs : (t.cop e port).regs = (s.cop e port).regs

theorem State.eng_setCop {c : CopSt} : (s.setCop e port c).eng e = { s.eng e with cops := smPut CopSt.reset (s.eng e).cops port c } :=
  State.eng_setEng_self

theorem State.cop_setCop_self {c : CopSt} : (s.setCop e port c).cop e port = c := by
  rw [State.setCop, State.cop, State.eng_setEng_self]
  exact smGet_put_self

theorem State.Judged.cop (h : s.Judged t) : t.cop e port = s.cop e port := by
  rw [State.cop, State.cop, h.eng]

theorem State.Judged.setCop (h : s.Judged t) {c : CopSt} (hb : c.busy = true) (he : c.err = false) (hr : c.regs = (t.cop e port).regs) :
    s.CopStarted (t.setCop e port c) e port := by
  refine ⟨⟨_, State.eng_setEng_self.trans (by rw [h.eng])⟩, h.mem, ?_, ?_, ?_⟩
  · rw [State.cop_setCop_self, hb]
  · rw [State.cop_setCop_self, he]
  · rw [State.cop_setCop_self, hr, h.cop]

theorem State.Judged.copStart (h : s.Judged t) {m : List (Nat × W16)} {l : List (Nat × Nat)} {b c : List Byte} :
    s.CopStarted (t.copStart e port m l b c) e port := h.setCop rfl rfl rfl

theorem State.Judged.copErr (h : s.Judged t) : s.CopStarted (t.copErr e port) e port := h.setCop rfl rfl rfl

theorem State.Judged.copWrite (h : s.Judged t) {ptr : Nat} {b c d : List Byte} : s.CopStarted (t.copWrite e port ptr b c d) e port := by
  unfold State.copWrite
  dsimp only
  split
  · exact (h.trans State.judged_copOut).copStart
  · exact (h.trans State.judged_copOut).copErr

theorem State.Judged.of_copIn {ptr : Nat} {o : Option (List Byte)} (h : s.copIn e ptr n = (t, o)) : s.Judged t := by
  have hj := State.judged_copIn (s := s) (e := e) (ptr := ptr) (n := n)
  rwa [h] at hj

theorem State.Judged.of_copIns {l : List (Nat × Nat)} {o : Option (List (List Byte))} (h : s.copIns e l = (t, o)) : s.Judged t := by
  have hj := State.judged_copIns (s := s) (e := e) (l := l)
  rwa [h] at hj

theorem State.started_shaCmd : s.CopStarted (s.shaCmd e port num) e port := by
  unfold State.shaCmd
  dsimp only
  split
  · exact State.Judged.refl.copStart
  · split
    next hr => exact (State.Judged.of_copIn hr).copStart
    next hr => exact (State.Judged.of_copIn hr).copErr
  · split
    · exact State.Judged.refl.copWrite
    · exact State.Judged.refl.copErr
  · exact State.Judged.refl.copErr

theorem State.started_aesCmd : s.CopStarted (s.aesCmd e port num) e port := by
  unfold State.aesCmd
  dsimp only
  split
  · split
    next hr =>
      split
      · exact (State.Judged.of_copIns hr).copWrite
      · exact (State.Judged.of_copIns hr).copErr
    next hr => exact (State.Judged.of_copIns hr).copErr
  · split
    · exact State.Judged.refl.copWrite
    · exact State.Judged.refl.copErr

theorem State.started_bigCmd : s.CopStarted (s.bigCmd e port num) e port := by
  unfold State.bigCmd
  dsimp only
  split
  next hr =>
    split
    · exact (State.Judged.of_copIns hr).copWrite
    · exact (State.Judged.of_copIns hr).copErr
  next hr => exact (State.Judged.of_copIns hr).copErr

theorem State.started_crcCmd : s.CopStarted (s.crcCmd e port num) e port := by
  unfold State.crcCmd
  dsimp only
  split
  next hr =>
    split
    · exact (State.Judged.of_copIn hr).copStart
    · exact (State.Judged.of_copIn hr).copErr
  next hr => exact (State.Judged.of_copIn hr).copErr

theorem State.started_parseCmd : s.CopStarted (s.parseCmd e port num) e port := by
  unfold State.parseCmd
  dsimp only
  split
  next hr =>
    have hj := State.Judged.of_copIn hr
    split
    · exact State.Judged.copWrite (hj.trans State.judged_drawn)
    · exact hj.copErr
  next hr => exact (State.Judged.of_copIn hr).copErr

theorem State.started_copCmd {un : CopUnit} : s.CopStarted (s.copCmd e port num un) e port := by
  cases un with
  | sha => exact State.started_shaCmd
  | aes => exact State.started_aesCmd
  | big => exact State.started_bigCmd
  | crc => exact State.started_crcCmd
  | parse => exact State.started_parseCmd

/-! ### A command that stands at the PC -/

/-- An instruction that runs command `num` of the unit at a port. -/
structure RunsCop (i : Instr) (e port num : Nat) (un : CopUnit) : Prop where
  unit : copUnit e port = some un
  words : ∃ w, bobWords i = some (e, [w])
  meaning : ∀ s, ∃ w, exec i s = .next (s.cpc i e port num w)

variable {un : CopUnit}

theorem RunsCop.run (hc : RunsCop i e port num un) (h : s.stands e i u) : exec i s = .next
    (if (u.cop e port).busy then u.copWait e port else if (u.cop e port).raise then u.copRaise e port
      else (u.copCmd e port num un).setEng e (((u.copCmd e port num un).eng e).step 1)) := by
  obtain ⟨w, hw⟩ := hc.words
  obtain ⟨k, hk⟩ := hc.meaning s
  refine hk.trans (congrArg Host.Outcome.next ((State.issue_of_stands h hw).trans ?_))
  dsimp only
  rw [hc.unit]
  rfl

theorem RunsCop.free (hc : RunsCop i e port num un) (h : s.stands e i u) (hb : (u.cop e port).busy = false) (hr : (u.cop e port).raise = false) :
    exec i s = .next ((u.copCmd e port num un).setEng e (((u.copCmd e port num un).eng e).step 1)) := by
  rw [hc.run h, hb, hr]
  rfl

/-- The step past the command leaves the units as the command did. -/
theorem State.cop_step : (t.setEng e ((t.eng e).step n)).cop e port = t.cop e port := by
  rw [State.cop, State.eng_setEng_self]
  rfl

theorem RunsCop.starts (hc : RunsCop i e port num un) (h : s.stands e i u) (hb : (u.cop e port).busy = false) (hr : (u.cop e port).raise = false) :
    Completes i s fun t => (t.cop e port).busy = true ∧ (t.cop e port).err = false ∧ (t.cop e port).regs = (u.cop e port).regs ∧
      (t.eng e).pc = ((u.eng e).pc + 1) % 65536 ∧ t.mem = s.mem ∧ (t.eng e).dmem = (u.eng e).dmem ∧ (t.eng e).w = (u.eng e).w := by
  obtain ⟨⟨m, hx⟩, hmem, hbusy, herr, hregs⟩ := State.started_copCmd (s := u) (e := e) (port := port) (num := num) (un := un)
  have hmem' : u.mem = s.mem := (congrArg State.mem h.state :)
  refine ⟨_, hc.free h hb hr, ?_⟩
  dsimp only
  rw [State.cop_step, State.eng_setEng_self, hx]
  exact ⟨hbusy, herr, hregs, rfl, hmem.trans hmem', rfl, rfl⟩

/-- What the unit holds after its command. -/
theorem RunsCop.leaves (hc : RunsCop i e port num un) (h : s.stands e i u) (hb : (u.cop e port).busy = false) (hr : (u.cop e port).raise = false)
    {p : CopSt → Prop} (hp : p ((u.copCmd e port num un).cop e port)) : Completes i s fun t => p (t.cop e port) :=
  ⟨_, hc.free h hb hr, by dsimp only; rw [State.cop_step]; exact hp⟩

/-- Every command of the list is one of the unit that its engine has at the port. -/
theorem runsCop_of_listed {w : Fin 16}
    (h : e % 8 = 6 ∧ port = 0 ∧ (i = .shaInit e w ∨ i = .shaUpdate e w ∨ i = .shaFinal e w) ∨
      e % 8 = 6 ∧ port = 1 ∧ (i = .aesEncrypt e w ∨ i = .aesDecrypt e w ∨ i = .aesTag e w) ∨
      e % 8 = 6 ∧ port = 2 ∧ (i = .modmul e w ∨ i = .modexp e w ∨ i = .modinv e w ∨ i = .p384Mul e w ∨ i = .ntt e w ∨ i = .intt e w ∨ i = .polymul e w) ∨
      e % 8 ≠ 6 ∧ port = 0 ∧ i = .crcRun e w ∨ e % 8 < 6 ∧ port = 1 ∧ i = .descriptorParse e w) : ∃ num un, RunsCop i e port num un := by
  obtain ⟨hthimble, -, hpattern, -⟩ := copUnits (e := e)
  rcases h with ⟨he, rfl, hi⟩ | ⟨he, rfl, hi⟩ | ⟨he, rfl, hi⟩ | ⟨he, rfl, rfl⟩ | ⟨he, rfl, rfl⟩
  · obtain ⟨hu, -, -⟩ := hthimble he
    rcases hi with rfl | rfl | rfl <;> exact ⟨_, _, hu, ⟨_, rfl⟩, fun s => ⟨_, rfl⟩⟩
  · obtain ⟨-, hu, -⟩ := hthimble he
    rcases hi with rfl | rfl | rfl <;> exact ⟨_, _, hu, ⟨_, rfl⟩, fun s => ⟨_, rfl⟩⟩
  · obtain ⟨-, -, hu⟩ := hthimble he
    rcases hi with rfl | rfl | rfl | rfl | rfl | rfl | rfl <;> exact ⟨_, _, hu, ⟨_, rfl⟩, fun s => ⟨_, rfl⟩⟩
  · exact ⟨0, .crc, by simp [copUnit, he], ⟨_, rfl⟩, fun s => ⟨_, rfl⟩⟩
  · obtain ⟨-, hu, -⟩ := hpattern he
    exact ⟨_, _, hu, ⟨_, rfl⟩, fun s => ⟨_, rfl⟩⟩

/-! ### What some commands compute -/

theorem State.shaUpdate_ok {b : List Byte} (h : s.copIn e ((s.cop e port).reg 0) ((s.cop e port).reg 1) = (t, some b)) :
    s.shaCmd e port 1 = t.copStart e port [] [] ((s.cop e port).acc ++ b) [] := by
  unfold State.shaCmd
  dsimp only
  rw [h]
  rfl

theorem State.copWrite_ok {ptr : Nat} {b c d : List Byte} {m : List (Nat × W16)} (h : s.copOut e ptr b = (t, some m)) :
    s.copWrite e port ptr b c d = t.copStart e port m [] c d := by
  unfold State.copWrite
  rw [h]

theorem State.shaFinal_384 (h : (s.cop e port).reg 2 = 1) :
    s.shaCmd e port 2 = s.copWrite e port ((s.cop e port).reg 3) (sha384 (s.cop e port).acc) (s.cop e port).acc [] := by
  unfold State.shaCmd
  dsimp only
  rw [h]
  rfl

theorem State.modmul_ok {x y m : List Byte} (h : s.copIns e [((s.cop e port).reg 0, 2 * (s.cop e port).reg 4), ((s.cop e port).reg 1, 2 * (s.cop e port).reg 4),
      ((s.cop e port).reg 2, 2 * (s.cop e port).reg 4)] = (t, some [x, y, m])) (hm : leNat m ≠ 0) :
    s.bigCmd e port 0 = t.copWrite e port ((s.cop e port).reg 3) (leBytes (2 * (s.cop e port).reg 4) (leNat x * leNat y % leNat m)) [] [] := by
  have hops : bigOperands (s.cop e port) 0 = [((s.cop e port).reg 0, 2 * (s.cop e port).reg 4), ((s.cop e port).reg 1, 2 * (s.cop e port).reg 4),
      ((s.cop e port).reg 2, 2 * (s.cop e port).reg 4)] := rfl
  have hbig : copBig 0 ((s.cop e port).reg 4) [x, y, m] = some (leBytes (2 * (s.cop e port).reg 4) (leNat x * leNat y % leNat m)) := if_neg hm
  unfold State.bigCmd
  dsimp only
  rw [hops, h]
  dsimp only
  rw [hbig]

theorem crcRegs_two {v : Nat} : crcRegs 2 v = [(3, v % 65536), (4, v / 65536 % 65536)] := by
  simp [crcRegs, List.range_succ]

theorem State.crc32c_ok {b : List Byte} (h : s.copIn e ((s.cop e port).reg 0) ((s.cop e port).reg 1) = (t, some b)) (halg : (s.cop e port).reg 2 = 0) :
    s.crcCmd e port 0 = t.copStart e port [] [(3, crcRunR poly32c ((s.cop e port).reg 3 + 65536 * (s.cop e port).reg 4) b % 65536),
      (4, crcRunR poly32c ((s.cop e port).reg 3 + 65536 * (s.cop e port).reg 4) b / 65536 % 65536)] [] [] := by
  have hstate : (s.cop e port).crcState 2 = (s.cop e port).reg 3 + 65536 * (s.cop e port).reg 4 := by
    simp [CopSt.crcState, List.range_succ, Nat.mul_comm]
  unfold State.crcCmd
  dsimp only
  rw [h, halg]
  dsimp only
  rw [if_pos rfl, if_pos rfl, if_pos (by simp), hstate, crcRegs_two]

theorem State.cop_copStart {m : List (Nat × W16)} {l : List (Nat × Nat)} {b c : List Byte} : (t.copStart e port m l b c).cop e port =
    { t.cop e port with busy := true, err := false, outMem := m, outRegs := l, outErr := false, acc := b, acc2 := c } := State.cop_setCop_self

/-! ### COPROCESSOR_DONE -/

/-- A unit whose results have landed. -/
def CopSt.done (c : CopSt) : CopSt :=
  { c.putRegs c.outRegs with busy := false, err := c.outErr, raise := c.outErr, outMem := [], outRegs := [], outErr := false }

/-- The engine that waits for the unit goes on; nothing else changes. -/
theorem State.copFree_spec : (s.copFree e port).cop e port = s.cop e port ∧ ((s.copFree e port).eng e).dmem = (s.eng e).dmem ∧
    ((s.eng e).st = .waiting → (s.eng e).waitOn = some (.cop port) →
      ((s.copFree e port).eng e).st = .running ∧ ((s.copFree e port).eng e).waitOn = none) := by
  by_cases h : ((s.eng e).st == .waiting && (s.eng e).waitOn == some (.cop port)) = true
  · have hfree : s.copFree e port = s.setEng e { s.eng e with st := .running, waitOn := none } := if_pos h
    rw [hfree, State.cop, State.eng_setEng_self]
    exact ⟨rfl, rfl, fun _ _ => ⟨rfl, rfl⟩⟩
  · have hfree : s.copFree e port = s := if_neg h
    rw [hfree]
    exact ⟨rfl, rfl, fun hst hw => absurd (by simp [hst, hw]) h⟩

end

/-- Settles O13: a port's registers, each an issue; a command by the unit that it names (`RunsCop`); and COPROCESSOR_DONE. -/
theorem bobbinCoprocessors : Obligations.BobbinCoprocessors := by
  refine ⟨fun s e port num w un hport => ?ports, fun s u e port w i hi h => ?commands, fun s u e w => ⟨?update, ?final, ?modmul, ?crc, ?done⟩⟩
  case ports =>
    intro g c
    have hp : port % 4 = port := Nat.mod_eq_of_lt hport
    refine ⟨fun hu hn => issues_of_issue rfl rfl fun u h => ?_, fun hu hn hr hb => ?_, fun hu hr => ?_, fun hu hn hb => issues_of_issue rfl rfl fun u h => ?_,
      fun hu => ⟨issues_of_issue rfl rfl fun u h => ?_, issues_of_issue rfl rfl fun u h => ?_⟩, copUnits⟩
    · dsimp only
      rw [hp, hu]
      dsimp only
      rw [if_pos hn, State.setCop, State.eng_setEng_self, State.setEng_setEng (by exact h.running) (by exact h.running), h.cop, h.getW]
      rfl
    · refine steps_of_issue (f' := fun x => x.setW w.val (BitVec.ofNat 16 (c.reg num.val))) rfl rfl rfl (fun u h => ?_) fun _ => rfl
      have hres : (un.result num.val && c.busy) = false := by
        cases hb' : c.busy with
        | false => simp
        | true => simp [hb hb']
      dsimp only
      rw [hp, hu]
      dsimp only
      rw [show u.cop e port = c from h.cop, if_neg (by simp [hres]), if_neg (by simp [hr]), if_neg (by have := un.last_lt; omega), if_pos hn]
    · refine steps_of_issue (f' := fun x => x.setW w.val (BitVec.ofNat 16 c.status)) rfl rfl rfl (fun u h => ?_) fun _ => rfl
      have hres : un.result 15 = false := by cases un <;> rfl
      dsimp only
      rw [hp, hu]
      dsimp only
      rw [show u.cop e port = c from h.cop, if_neg (by simp [hres]), if_neg (by simp [hr]), if_pos (show (15 : Fin 16).val = 15 from rfl)]
    · dsimp only
      rw [hp, hu]
      dsimp only
      rw [show u.cop e port = c from h.cop, if_pos (by simp [hn, hb])]
      rfl
    · dsimp only
      rw [hp, hu]
      rfl
    · dsimp only
      rw [hp, hu]
      rfl
  case commands =>
    obtain ⟨num, un, hc⟩ := runsCop_of_listed hi
    refine ⟨fun hb hr => hc.starts h hb hr, fun hb => ?_, fun hb hr => ?_⟩
    · rw [hc.run h, if_pos hb]
      rfl
    · rw [hc.run h, if_neg (by simp [hb]), if_pos hr, State.copRaise, State.copFault, State.setCop, State.eng_setEng_self]
  case update =>
    intro he b v c hb hr hin h
    have hc : RunsCop (.shaUpdate e w) e 0 1 .sha := ⟨(copUnits.1 he).1, ⟨_, rfl⟩, fun s => ⟨_, rfl⟩⟩
    refine hc.leaves h hb hr (p := fun d => d.acc = c.acc ++ b ∧ d.outErr = false) ?_
    rw [State.copCmd, State.shaUpdate_ok hin, State.cop_copStart]
    exact ⟨rfl, rfl⟩
  case final =>
    intro he v m c hb hr halg hout h
    have hc : RunsCop (.shaFinal e w) e 0 2 .sha := ⟨(copUnits.1 he).1, ⟨_, rfl⟩, fun s => ⟨_, rfl⟩⟩
    refine hc.leaves h hb hr (p := fun d => d.outMem = m ∧ d.outErr = false) ?_
    rw [State.copCmd, State.shaFinal_384 halg, State.copWrite_ok hout, State.cop_copStart]
    exact ⟨rfl, rfl⟩
  case modmul =>
    intro he a b m v z o c n hb hr hin hm hout h
    have hc : RunsCop (.modmul e w) e 2 0 .big := ⟨(copUnits.1 he).2.2, ⟨_, rfl⟩, fun s => ⟨_, rfl⟩⟩
    refine hc.leaves h hb hr (p := fun d => d.outMem = o) ?_
    rw [State.copCmd, State.modmul_ok hin hm, State.copWrite_ok hout, State.cop_copStart]
  case crc =>
    intro he b v c r hb hr halg hin h
    have hc : RunsCop (.crcRun e w) e 0 0 .crc := ⟨by simp [copUnit, he], ⟨_, rfl⟩, fun s => ⟨_, rfl⟩⟩
    refine hc.leaves h hb hr (p := fun d => d.outRegs = [(3, r % 65536), (4, r / 65536 % 65536)] ∧ d.outMem = []) ?_
    rw [State.copCmd, State.crc32c_ok hin halg, State.cop_copStart]
    exact ⟨rfl, rfl⟩
  case done =>
    intro port a v hup he hheld ha hb hmem hregs
    have hdw : (s.storeLand e { window := false, loc := a, words := [v] }).eng e = (s.eng e).dWrite a v := by
      rw [State.eng_storeLand, if_pos (show a < 65536 by omega)]
      rfl
    have hrun : exec (.coprocessorDone e port) s = .next (((s.storeLand e { window := false, loc := a, words := [v] }).setCop e port (s.cop e port).done).copFree
        e port) := by
      refine congrArg Host.Outcome.next ((State.whenUp_of_up hup).trans ((if_pos (by simp [he, hb, hheld])).trans ?_))
      rw [hmem, CopSt.done]
      rfl
    obtain ⟨hcop, hdmem, hgo⟩ := State.copFree_spec (s := (s.storeLand e { window := false, loc := a, words := [v] }).setCop e port (s.cop e port).done)
      (e := e) (port := port)
    rw [State.cop_setCop_self] at hcop
    rw [State.eng_setCop, hdw] at hdmem hgo
    refine ⟨_, hrun, ?_⟩
    dsimp only
    rw [hcop]
    refine ⟨rfl, rfl, ?_, hdmem, hgo⟩
    rw [CopSt.done, hregs]
    change smGet 0 (smPut 0 (s.cop e port).regs 3 7) 3 = 7
    exact smGet_put_self

end Sys2Proof.Machine
end

section
/-!
O15. A write of a BOB register that its tag admits (`State.regTry_of_opens`) starts or stops the engine, or loads four words of one of its memories.
-/

namespace Sys2Proof.Machine

section

variable {s : State} {who : Agent} {e off a : Nat} {data : W64} {x : Engine}

theorem word16_eq {k : Nat} : word16 data k = data.extractLsb' (16 * k) 16 := by
  apply BitVec.eq_of_toNat_eq
  rw [word16, getBits_eq_div_mod, BitVec.toNat_ofNat, BitVec.extractLsb'_toNat, Nat.shiftRight_eq_div_pow]
  simp

/-- Four words of local D SRAM, and of local instruction SRAM, take a value. -/
theorem Engine.dRead_four {b : Nat} {f : Nat → W16} : ((List.range 4).foldl (fun (x : Engine) k => x.dWrite (b + k) (f k)) x).dRead a =
    if b ≤ a ∧ a < b + 4 then f (a - b) else x.dRead a := by
  simp only [show List.range 4 = [0, 1, 2, 3] from rfl, List.foldl_cons, List.foldl_nil, Engine.dRead_dWrite]
  by_cases h : b ≤ a ∧ a < b + 4
  · obtain ⟨k, rfl⟩ : ∃ k, a = b + k := ⟨a - b, by omega⟩
    have hk : k < 4 := by omega
    rw [if_pos h]
    interval_cases k <;> simp
  · rw [if_neg h, if_neg (by omega), if_neg (by omega), if_neg (by omega), if_neg (by omega)]

theorem Engine.iRead_iWrite {b : Nat} {w : W16} : (x.iWrite b w).iRead a = if a = b then w else x.iRead a := by
  split
  · next h => subst h; exact smGet_put_self
  · next h => exact smGet_put_ne h

theorem Engine.iRead_four {b : Nat} {f : Nat → W16} {k : Nat} (hk : k < 4) :
    ((List.range 4).foldl (fun (x : Engine) k => x.iWrite (b + k) (f k)) x).iRead (b + k) = f k := by
  simp only [show List.range 4 = [0, 1, 2, 3] from rfl, List.foldl_cons, List.foldl_nil, Engine.iRead_iWrite]
  interval_cases k <;> simp

theorem Engine.imem_four {b : Nat} {f : Nat → W16} : ((List.range 4).foldl (fun (x : Engine) k => x.dWrite (b + k) (f k)) x).imem = x.imem := by
  simp only [show List.range 4 = [0, 1, 2, 3] from rfl, List.foldl_cons, List.foldl_nil, Engine.dWrite]

theorem Engine.dmem_four {b : Nat} {f : Nat → W16} : ((List.range 4).foldl (fun (x : Engine) k => x.iWrite (b + k) (f k)) x).dmem = x.dmem := by
  simp only [show List.range 4 = [0, 1, 2, 3] from rfl, List.foldl_cons, List.foldl_nil, Engine.iWrite]

theorem State.bobStop_active (h : (s.eng e).st = .running ∨ (s.eng e).st = .waiting) :
    s.bobStop e = (s.setEng e { s.eng e with st := .running, stopReq := true, waitOn := none }).engSettle e := by
  refine if_pos ?_
  rcases h with h | h <;> simp [h]

theorem State.bobLmemSet_dmem (h : (s.eng e).st = .stopped ∨ (s.eng e).st = .halted) (hlt : off < 0xC000) : s.bobLmemSet e off data =
    s.setEng e ((List.range 4).foldl (fun (x : Engine) k => x.dWrite (off / 8 * 4 + k) (word16 data k)) (s.eng e)) := by
  have hidle : (!((s.eng e).st == .stopped || (s.eng e).st == .halted)) = false := by rcases h with h | h <;> simp [h]
  simp only [State.bobLmemSet, hidle, hlt, Bool.false_eq_true, if_false, if_true]

theorem State.bobLmemSet_imem (h : (s.eng e).st = .stopped ∨ (s.eng e).st = .halted) (hlo : 0xC000 ≤ off) (hlt : off < 0xE000) : s.bobLmemSet e off data =
    s.setEng e ((List.range 4).foldl (fun (x : Engine) k => x.iWrite ((off - 0xC000) / 8 * 4 + k) (word16 data k)) (s.eng e)) := by
  have hidle : (!((s.eng e).st == .stopped || (s.eng e).st == .halted)) = false := by rcases h with h | h <;> simp [h]
  simp only [State.bobLmemSet, hidle, not_lt.mpr hlo, hlt, Bool.false_eq_true, if_false, if_true]

end

/-- Settles O15: each register's write is its operation, in the states that allow it. -/
theorem bobRegisters : Obligations.BobRegisters := by
  intro s who e off data hup he x
  have hgo : ∀ {o : Nat} {f : State → State}, s.opens who o → (s.whenUp fun s => if e < 32 then s.regTry who .write o f else s) = f s := fun ho =>
    (State.whenUp_of_up hup).trans ((if_pos he).trans (State.regTry_of_opens ho))
  have hload : off % 8 = 0 → off < 65536 → s.opens who (R.BOB_LMEM.off e (off / 8)) → exec (.bobLmemWrite who e off data) s = .next (s.bobLmemSet e off data) :=
    fun h8 hlt ho => congrArg Host.Outcome.next ((State.whenUp_of_up hup).trans ((if_pos ⟨he, hlt, h8⟩).trans (State.regTry_of_opens ho)))
  refine ⟨fun ho hst => ?run, fun ho hst hb => ?stop, fun ho hst hb => ?stopping, fun ho hst => ?img, fun ho hst => ?noImg, fun h8 hlt ho hst => ?dmem,
    fun h8 hlo hhi ho hst => ?imem, fun h8 hlt ho hst => ?busy⟩
  case run =>
    refine congrArg Host.Outcome.next ((hgo ho).trans (if_pos ?_))
    rcases hst with h | h <;> simp [show (s.eng e).st = _ from h]
  case stop =>
    refine ⟨_, congrArg Host.Outcome.next ((hgo ho).trans (State.bobStop_active hst)), ?_⟩
    dsimp only
    rw [State.engSettle_stop (by rw [State.eng_setEng_self]; exact hb) (by rw [State.eng_setEng_self]), State.eng_setEng_self, State.eng_setEng_self]
    exact ⟨rfl, rfl, rfl⟩
  case stopping =>
    refine ⟨_, congrArg Host.Outcome.next ((hgo ho).trans (State.bobStop_active hst)), ?_⟩
    dsimp only
    rw [State.engSettle_busy (by rw [State.eng_setEng_self]; exact hb), State.eng_setEng_self]
  case img =>
    have hset : s.bobImgSet e data = s.setFld (R.BOB_IMG.BASE e) (data.toNat % 2 ^ 44) := by
      have hst' : (s.eng e).st = .stopped := hst
      simp [State.bobImgSet, hst', getBits_eq_div_mod]
    exact congrArg Host.Outcome.next ((hgo ho).trans hset)
  case noImg => exact congrArg Host.Outcome.next ((hgo ho).trans (if_neg (by simp [show (s.eng e).st ≠ _ from hst])))
  case dmem =>
    refine ⟨_, (hload h8 (by omega) ho).trans (congrArg Host.Outcome.next (State.bobLmemSet_dmem hst hlt)), ?_⟩
    have hb : off / 8 * 4 = off / 2 := by omega
    dsimp only
    rw [State.eng_setEng_self, hb]
    refine ⟨fun k hk => ?_, fun a ha => ?_, Engine.imem_four⟩
    · rw [Engine.dRead_four, if_pos (by omega), Nat.add_sub_cancel_left, word16_eq]
    · rw [Engine.dRead_four, if_neg (by omega)]
  case imem =>
    refine ⟨_, (hload h8 (by omega) ho).trans (congrArg Host.Outcome.next (State.bobLmemSet_imem hst hlo hhi)), ?_⟩
    have hb : (off - 0xC000) / 8 * 4 = (off - 0xC000) / 2 := by omega
    dsimp only
    rw [State.eng_setEng_self, hb]
    exact ⟨fun k hk => by rw [Engine.iRead_four hk, word16_eq], Engine.dmem_four⟩
  case busy =>
    refine (hload h8 hlt ho).trans (congrArg Host.Outcome.next (if_pos ?_))
    rcases hst with h | h <;> simp [show (s.eng e).st = _ from h]

end Sys2Proof.Machine
end

section
/-!
O1. Every command's meaning is a next state, which its constructor shows: no command of the table stops.
-/

namespace Sys2Proof.Machine

/-- Every command answers a next state. -/
theorem exec_total (c : Instr) (s : State) : ∃ t, exec c s = .next t := by
  cases c <;> exact ⟨_, rfl⟩

/-- Settles O1: a step is its definition, by the queue; the table has no bits. -/
theorem stepRunsFrontCommand : Obligations.StepRunsFrontCommand := by
  intro s c cs nbits w
  refine ⟨fun h => by rw [step, h], fun h => by rw [step, h], ?_, rfl, rfl⟩
  cases h : s.pending with
  | nil => exact ⟨s, by rw [step, h]⟩
  | cons c cs =>
    obtain ⟨t, ht⟩ := exec_total c { s with pending := cs }
    exact ⟨t, by rw [step, h]; exact ht⟩

end Sys2Proof.Machine
end

section
/-!
O60. A population of no line of Table 16-1: what `offending` finds in it, and the halt that training ends in.
-/

namespace Sys2Proof.Machine

section

variable {s : State} {pop : List DimmInfo} {c : Nat}

/-! ### What a halt leaves in registers (R381) -/

/-- A halt that opens no recovery writes BOOT_CODE alone. -/
theorem State.regs_bootHalt (h : c ≠ 0x27) (h' : c ≠ 0x2E) : (s.bootHalt c).regs = (s.setFld R.TOP_STATUS.BOOT_CODE c).regs := by
  unfold State.bootHalt
  dsimp only
  rw [if_neg (by simp [h, h'])]
  rfl

theorem State.fld_bootHalt {f : Fld} (h : c ≠ 0x27) (h' : c ≠ 0x2E) : (s.bootHalt c).fld f = (s.setFld R.TOP_STATUS.BOOT_CODE c).fld f :=
  State.fld_of_reg (State.reg_of_regs (State.regs_bootHalt h h'))

theorem State.phase_bootHalt : (s.bootHalt c).sys.phase = .halted c := by
  obtain ⟨regs, keys, h, -⟩ := s.bootHalt_shape c
  rw [h]

theorem State.code_bootHalt (h : c ≠ 0x27) (h' : c ≠ 0x2E) : (s.bootHalt c).fld R.TOP_STATUS.BOOT_CODE = c % 2 ^ R.TOP_STATUS.BOOT_CODE.w := by
  rw [State.fld_bootHalt h h', State.fld_setFld_self (by decide)]

/-! ### TRAIN_FAIL of a list of controllers -/

theorem State.trainFail_foldl {v : Nat} : ∀ {l : List Nat} {s : State}, c ∈ l ∨ s.fld (R.DMC_STATUS.TRAIN_FAIL c) = v % 8 →
    (l.foldl (fun (s : State) c => s.setFld (R.DMC_STATUS.TRAIN_FAIL c) v) s).fld (R.DMC_STATUS.TRAIN_FAIL c) = v % 8 := by
  intro l
  induction l with
  | nil => exact fun h => h.resolve_left (by simp)
  | cons d l ih =>
    intro s h
    refine ih ?_
    by_cases hd : c = d
    · subst hd
      exact .inr (State.fld_setFld_self (show 11 + 3 ≤ 64 by decide))
    · have hne : (R.DMC_STATUS.TRAIN_FAIL c).off ≠ (R.DMC_STATUS.TRAIN_FAIL d).off := by
        change 0x7000008 + 1048576 * c ≠ 0x7000008 + 1048576 * d
        omega
      rw [State.fld_setFld_ne hne]
      exact h.imp_left fun hc => (List.mem_cons.mp hc).resolve_left hd

/-! ### Offending controllers (R432) -/

/-- The channels that do not fit Table 16-1 on their own, or differ from the first. -/
def oddChannels (pop : List DimmInfo) : List Nat :=
  (populated pop).filter fun c => !dimmOk (dimmAt pop c) || !sameDimms (dimmAt pop c) (dimmAt pop ((populated pop).headD 0))

theorem offending_of_odd (h : oddChannels pop ≠ []) : offending pop = oddChannels pop := by
  have hodd : (!(oddChannels pop).isEmpty) = true := by simp [h]
  exact if_pos hodd

/-- Where nothing offends, every channel is of a supported kind and like the first. -/
theorem fits_of_offending (h : offending pop = []) (hc : c ∈ populated pop) :
    dimmOk (dimmAt pop c) = true ∧ sameDimms (dimmAt pop c) (dimmAt pop ((populated pop).headD 0)) = true := by
  have hodd : oddChannels pop = [] := by
    by_contra hne
    exact hne ((offending_of_odd hne).symm.trans h)
  have := List.filter_eq_nil_iff.mp hodd c hc
  simpa using this

theorem sameDimms_iff {a b : DimmInfo} : sameDimms a b = true ↔ a.dimms = b.dimms ∧ a.ranks = b.ranks ∧ a.capGib = b.capGib ∧ a.rating = b.rating := by
  simp [sameDimms, and_assoc]

/-- A set of channels with no odd one, and every even one, is the set of the even ones. -/
theorem populated_even (hodd : ∀ c, c ∈ populated pop → c % 2 ≠ 1) (heven : ∀ c, c ∈ [0, 2, 4, 6] → c ∈ populated pop) : populated pop = [0, 2, 4, 6] := by
  have hiff : ∀ c, c ∈ List.range 8 → ((dimmAt pop c).dimms != 0) = (c % 2 == 0) := by
    intro c hc
    have hmem : c ∈ populated pop ↔ ((dimmAt pop c).dimms != 0) = true := by rw [populated, List.mem_filter, and_iff_right hc]
    rw [Bool.eq_iff_iff, ← hmem, beq_iff_eq]
    refine ⟨fun h => by have := hodd c h; omega, fun h => heven c ?_⟩
    have := List.mem_range.mp hc
    interval_cases c <;> simp_all
  rw [populated, List.filter_congr hiff]
  rfl

theorem offending_of_set (h8 : populated pop ≠ [0, 1, 2, 3, 4, 5, 6, 7]) (h4 : populated pop ≠ [0, 2, 4, 6]) : offending pop ≠ [] := by
  by_cases hodd : oddChannels pop = []
  · have hoff : offending pop = if ((populated pop).filter fun c => c % 2 == 1).isEmpty then [0, 2, 4, 6].filter fun c => !(populated pop).contains c
        else (populated pop).filter fun c => c % 2 == 1 := by
      have h8' : populated pop ≠ List.range 8 := h8
      have hnone : ¬ (!(oddChannels pop).isEmpty) = true := by simp [hodd]
      refine (if_neg hnone).trans (if_neg (by simp [h8', h4]))
    rw [hoff]
    split
    next hout =>
      intro hnil
      refine h4 (populated_even (fun c hc => ?_) fun c hc => ?_)
      · have := List.filter_eq_nil_iff.mp (List.isEmpty_iff.mp hout) c hc
        simpa using this
      · have := List.filter_eq_nil_iff.mp hnil c hc
        simpa using this
    next hout => simpa using hout
  · rw [offending_of_odd hodd]
    exact hodd

/-! ### Training that ends in a halt -/

/-- Training runs while it is due. -/
theorem exec_training (hst : s.sys.phase = .starting) (hd : s.bit R.SPOOL_STATUS.DDR_DONE = false) (hp : populated pop ≠ []) (hoff : offending pop ≠ []) :
    exec (.ddrTrainingComplete pop) s =
      .next (((offending pop).foldl (fun (s : State) c => s.setFld (R.DMC_STATUS.TRAIN_FAIL c) 3) s).bootHalt 0x24) :=
  congrArg Host.Outcome.next ((if_pos (by simp [hst, hd])).trans ((if_neg (by simpa using hp)).trans (if_pos (by simpa using hoff))))

end

/-- Settles O60: the list facts of `offending`, and the two halts. -/
theorem unsupportedPopulations : Obligations.UnsupportedPopulations := by
  intro s pop hst hd p
  refine ⟨fun hp => ?_, fun hp hoff => ⟨_, exec_training hst hd hp hoff, State.phase_bootHalt, State.code_bootHalt (by decide) (by decide), fun c hc => ?_⟩,
    fun a b ha hb hne hoff => ?_, fun _ h8 h4 => offending_of_set h8 h4, fun c hc hbad hoff => ?_⟩
  · have hp' : populated pop = [] := hp
    exact ⟨_, congrArg Host.Outcome.next ((if_pos (by simp [hst, hd])).trans (if_pos (by simp [hp']))), State.phase_bootHalt,
      State.code_bootHalt (by decide) (by decide)⟩
  · have hne : (R.DMC_STATUS.TRAIN_FAIL c).off ≠ R.TOP_STATUS.BOOT_CODE.off := by
      change 0x7000008 + 1048576 * c ≠ R.TOP_STATUS.BOOT_CODE.off
      have : R.TOP_STATUS.BOOT_CODE.off < 0x7000008 := by decide
      omega
    rw [State.fld_bootHalt (by decide) (by decide), State.fld_setFld_ne hne]
    exact State.trainFail_foldl (.inl hc)
  · obtain ⟨-, hsa⟩ := fits_of_offending hoff ha
    obtain ⟨-, hsb⟩ := fits_of_offending hoff hb
    rw [sameDimms_iff] at hsa hsb
    obtain ⟨h1, h2, h3, h4⟩ := hsa
    obtain ⟨g1, g2, g3, g4⟩ := hsb
    rw [sameDimms_iff.mpr ⟨h1.trans g1.symm, h2.trans g2.symm, h3.trans g3.symm, h4.trans g4.symm⟩] at hne
    cases hne
  · rw [(fits_of_offending hoff hc).1] at hbad
    cases hbad

end Sys2Proof.Machine
end

section
/-!
O59. The DRAM controllers: what training writes, the sweep of initialisation, and what a scrub read finds.
-/

namespace Sys2Proof.Machine

/-! ### Writes that keep one register -/

/-- `t` is `s` but for control registers other than the one at `off`. -/
def State.KeepsReg (off : Nat) (s t : State) : Prop := s.SameButRegs t ∧ t.reg off = s.reg off

namespace State.KeepsReg

variable {s t u : State} {f : Fld} {off o v : Nat} {w : W64}

theorem refl : KeepsReg off s s := ⟨⟨_, rfl⟩, rfl⟩

theorem trans (h : KeepsReg off s t) (h' : KeepsReg off t u) : KeepsReg off s u := by
  obtain ⟨⟨_, rfl⟩, hr⟩ := h
  obtain ⟨⟨_, rfl⟩, hr'⟩ := h'
  exact ⟨⟨_, rfl⟩, hr'.trans hr⟩

theorem setReg (h : KeepsReg off s t) (ho : off ≠ o) : KeepsReg off s (t.setReg o w) := ⟨h.1.setReg, (State.reg_setReg_ne ho).trans h.2⟩

theorem setFld (h : KeepsReg off s t) (hf : off ≠ f.off) : KeepsReg off s (t.setFld f v) := h.setReg hf

theorem setBit (h : KeepsReg off s t) (hf : off ≠ f.off) : KeepsReg off s (t.setBit f) := h.setReg hf

theorem clrBit (h : KeepsReg off s t) (hf : off ≠ f.off) : KeepsReg off s (t.clrBit f) := h.setReg hf

theorem ite {c : Prop} [Decidable c] (ht : KeepsReg off s t) (hu : KeepsReg off s u) : KeepsReg off s (if c then t else u) := by
  split
  · exact ht
  · exact hu

theorem foldl {α : Type} {g : State → α → State} (hg : ∀ t a, KeepsReg off t (g t a)) : ∀ {l : List α} {t : State}, KeepsReg off s t →
    KeepsReg off s (l.foldl g t) := by
  intro l
  induction l with
  | nil => exact id
  | cons a l ih => exact fun h => ih (h.trans (hg _ a))

theorem fld (h : KeepsReg off s t) (hf : f.off = off) : t.fld f = s.fld f := State.fld_of_reg (hf ▸ h.2)

theorem bit (h : KeepsReg off s t) (hf : f.off = off) : t.bit f = s.bit f := State.bit_of_fld (h.fld hf)

end State.KeepsReg

section

variable {s t : State} {pop : List DimmInfo} {c : Nat}

/-! ### Training (R434, R440) -/

theorem spoolStatus_ne_dmc {f : Fld} (hf : f.off = R.DMC_STATUS.off c) : R.SPOOL_STATUS.off ≠ f.off := by
  rw [hf]
  change 0x400000 ≠ 0x7000008 + 1048576 * c
  omega

theorem spoolStatus_ne_ppr {i : Nat} : R.SPOOL_STATUS.off ≠ (R.DMC_PPR.PEND c i).off := by
  change 0x400000 ≠ 0x7000040 + 1048576 * c + 8 * i
  omega

theorem State.pprRun_keeps {noSpare done is : List Nat} : ∀ {t : State}, State.KeepsReg R.SPOOL_STATUS.off s t →
    State.KeepsReg R.SPOOL_STATUS.off s (t.pprRun c noSpare done is) := by
  induction is generalizing done with
  | nil => exact id
  | cons i is ih =>
    intro t h
    unfold State.pprRun
    dsimp only
    have hpend := h.clrBit (f := R.DMC_PPR.PEND c i) spoolStatus_ne_ppr
    split
    · exact ih (.ite (hpend.setBit spoolStatus_ne_ppr) (hpend.setBit spoolStatus_ne_ppr))
    · exact ih h

/-- A channel that trains writes its own controller's registers and its PLL's lock. -/
theorem State.chanTrain_keeps : State.KeepsReg R.SPOOL_STATUS.off s (s.chanTrain pop c) := by
  unfold State.chanTrain
  extract_lets d s1 s2
  have h1 : State.KeepsReg R.SPOOL_STATUS.off s s1 := State.pprRun_keeps .refl
  have h2 : State.KeepsReg R.SPOOL_STATUS.off s s2 :=
    (((h1.setBit (spoolStatus_ne_dmc rfl)).setFld (spoolStatus_ne_dmc rfl)).setFld (spoolStatus_ne_dmc rfl)).setBit (spoolStatus_ne_dmc rfl)
  exact ((h2.setFld (spoolStatus_ne_dmc rfl)).setFld (spoolStatus_ne_dmc rfl)).setBit (show R.SPOOL_STATUS.off ≠ R.TOP_CLKSTAT.off by decide)

theorem State.bootGoOn_of_keys (h : s.bit R.SPOOL_STATUS.KEYS_OPEN = false) : s.bootGoOn = s := if_neg (by simp [h])

/-- The mapped capacity of a population (R433, R434). -/
def trainedCap (pop : List DimmInfo) : Nat := ((populated pop).map fun c => mappedGib (dimmAt pop c) (populated pop).length).sum * 2 ^ 30

/-- The controllers of a population have trained; Thimble may go on. -/
def State.trainedAs (s : State) (pop : List DimmInfo) : State :=
  let s1 := (populated pop).foldl (fun (s : State) c => s.chanTrain pop c) s
  ({ s1 with dmc := { s1.dmc with cap := trainedCap pop } }).setBit R.SPOOL_STATUS.DDR_DONE

theorem exec_trained (hst : s.sys.phase = .starting) (hd : s.bit R.SPOOL_STATUS.DDR_DONE = false) (hp : populated pop ≠ []) (hoff : offending pop = [])
    (hfail : ∀ c, c ∈ populated pop → (dimmAt pop c).fail = 0) : exec (.ddrTrainingComplete pop) s = .next (s.trainedAs pop).bootGoOn := by
  have hf : ((populated pop).filter fun c => (dimmAt pop c).fail != 0) = [] := List.filter_eq_nil_iff.mpr fun c hc => by simp [hfail c hc]
  exact congrArg Host.Outcome.next ((if_pos (by simp [hst, hd])).trans ((if_neg (by simpa using hp)).trans ((if_neg (by simp [hoff])).trans
    (if_neg (by rw [hf]; simp)))))

theorem State.trainedAs_spec (hk : s.bit R.SPOOL_STATUS.KEYS_OPEN = false) : (s.trainedAs pop).dmc.cap = trainedCap pop ∧
    (s.trainedAs pop).bit R.SPOOL_STATUS.DDR_DONE = true ∧ (s.trainedAs pop).sys = s.sys ∧ (s.trainedAs pop).bit R.SPOOL_STATUS.KEYS_OPEN = false := by
  have hkeep : State.KeepsReg R.SPOOL_STATUS.off s ((populated pop).foldl (fun (s : State) c => s.chanTrain pop c) s) :=
    .foldl (fun _ _ => State.chanTrain_keeps) .refl
  refine ⟨rfl, State.bit_setBit_self (by decide) (by decide), ?_, ?_⟩
  · obtain ⟨⟨_, hs⟩, -⟩ := hkeep
    have hsys := congrArg State.sys hs
    exact hsys
  · rw [State.trainedAs, State.setBit, State.bit_of_fld (State.fld_setFld_disj (by decide) (by decide))]
    exact (hkeep.bit rfl).trans hk

/-! ### Initialisation and power-down (R435, R436) -/

theorem State.dmc_powerDown {on : Bool} :
    smGet false ({ s with dmc := { s.dmc with powerDown := smPut false s.dmc.powerDown c on } } : State).dmc.powerDown c = on := by
  simp only [smGet_put_self]

/-- The sweep of a controller is at its `n`th block, and the DIMMs are out of power-down. -/
def State.initAt (s : State) (c n : Nat) : State :=
  { s with dmc := { s.dmc with initBlk := smPut 0 s.dmc.initBlk c n, powerDown := smPut false s.dmc.powerDown c false } }

theorem State.dmc_initAt {n : Nat} : smGet 0 (s.initAt c n).dmc.initBlk c = n ∧ smGet false (s.initAt c n).dmc.powerDown c = false := by
  simp only [State.initAt, smGet_put_self, and_self]

theorem exec_dramInitBlock (hup : s.up = true) (hrun : s.chanRuns c = true) (hi : s.bit (R.DMC_STATUS.INIT_DONE c) = false) :
    exec (.dramInitBlock c) s = .next
      (if s.fld (R.DMC_STATUS.CAP_GIB c) * 1024 ≤ smGet 0 s.dmc.initBlk c + 1 then
        (s.initAt c (smGet 0 s.dmc.initBlk c + 1)).setBit (R.DMC_STATUS.INIT_DONE c)
      else s.initAt c (smGet 0 s.dmc.initBlk c + 1)) :=
  congrArg Host.Outcome.next ((State.whenUp_of_up hup).trans (if_pos (by simp [hrun, hi])))

theorem completes_dramInitBlock (hup : s.up = true) (hrun : s.chanRuns c = true) (hi : s.bit (R.DMC_STATUS.INIT_DONE c) = false) :
    Completes (.dramInitBlock c) s fun t => smGet 0 t.dmc.initBlk c = smGet 0 s.dmc.initBlk c + 1 ∧ smGet false t.dmc.powerDown c = false ∧
      t.bit (R.DMC_STATUS.INIT_DONE c) = decide (s.fld (R.DMC_STATUS.CAP_GIB c) * 1024 ≤ smGet 0 s.dmc.initBlk c + 1) ∧ t.mem = s.mem := by
  refine ⟨_, exec_dramInitBlock hup hrun hi, ?_⟩
  dsimp only
  split
  next hcap =>
    have hset : ∀ {t : State}, (t.setBit (R.DMC_STATUS.INIT_DONE c)).bit (R.DMC_STATUS.INIT_DONE c) = true :=
      State.bit_setBit_self (show 7 + 1 ≤ 64 by decide) (show 0 < 1 by decide)
    exact ⟨State.dmc_initAt.1, State.dmc_initAt.2, hset.trans (decide_eq_true hcap).symm, rfl⟩
  next hcap => exact ⟨State.dmc_initAt.1, State.dmc_initAt.2, hi.trans (decide_eq_false hcap).symm, rfl⟩

/-! ### Scrub (R437–R439) -/

/-- The controller's DIMMs are out of power-down. -/
def State.awake (s : State) (c : Nat) : State := { s with dmc := { s.dmc with powerDown := smPut false s.dmc.powerDown c false } }

/-- What a scrub read does with what it met. -/
def State.scrubbed (s : State) (c a : Nat) : EccErr → State
  | .none => s
  | .corrected l => s.eccCorrected c a l
  | .uncorrectable l => s.eccUncorrectable c a l

theorem exec_scrubRead {line : Nat} {err : EccErr} (hup : s.up = true) (hrun : s.chanRuns c = true) (hi : s.bit (R.DMC_STATUS.INIT_DONE c) = true)
    (ha : line / 64 * 64 < s.dmc.cap) (hc : s.chanOf (line / 64 * 64) = c) :
    exec (.scrubRead c line err) s = .next ((s.awake c).scrubbed c (line / 64 * 64) err) := by
  cases err <;> exact congrArg Host.Outcome.next ((State.whenUp_of_up hup).trans (if_pos (by simp [hrun, hi, ha, hc])))

/-- `t` shows the event of a corrected error; memory and poison are as in `s`. -/
def State.CorrectedIn (s : State) (c : Nat) (t : State) : Prop := t.bit (R.DMC_ECC.CE_EVT c) = true ∧ t.mem = s.mem ∧ t.safe = s.safe

namespace State.CorrectedIn

theorem setReg {off : Nat} {w : W64} (h : State.CorrectedIn s c t) (ho : (R.DMC_ECC.CE_EVT c).off ≠ off) : State.CorrectedIn s c (t.setReg off w) :=
  ⟨(State.bit_of_fld (State.fld_setReg_ne ho)).trans h.1, h.2⟩

theorem threshold (h : State.CorrectedIn s c t) : State.CorrectedIn s c (t.setBit (R.DMC_ECC.THRESH_EVT c)) :=
  ⟨(State.bit_of_fld (State.fld_setFld_disj (show 32 + 1 ≤ 64 by decide) (.inl (show 32 + 1 ≤ 34 by decide)))).trans h.1, h.2⟩

theorem safeEvt {f : Fld} (h : State.CorrectedIn s c t) (hf : (R.DMC_ECC.CE_EVT c).off ≠ f.off) : State.CorrectedIn s c (t.safeEvt f) := by
  obtain ⟨hb, hm, hs⟩ := h
  refine ⟨?_, (State.safeEvt_mem ..).trans hm, (State.safeEvt_safe ..).trans hs⟩
  rw [State.bit_of_fld State.fld_safeEvt, State.setBit, State.bit_of_fld (State.fld_setFld_ne hf)]
  exact hb

theorem endWaits (h : State.CorrectedIn s c t) : State.CorrectedIn s c t.endWaits := by
  obtain ⟨_, ht⟩ := t.endWaits_shape
  rw [ht]
  exact h

theorem ite {p : Prop} [Decidable p] {u : State} (ht : State.CorrectedIn s c t) (hu : State.CorrectedIn s c u) :
    State.CorrectedIn s c (if p then t else u) := by
  split
  · exact ht
  · exact hu

end State.CorrectedIn

theorem State.eccCorrected_spec {line : Nat} {l : EccLoc} : State.CorrectedIn s c (s.eccCorrected c line l) := by
  have hlog : (R.DMC_ECC.CE_EVT c).off ≠ R.DMC_ERRLOG0.off c := by
    change 0x7000010 + 1048576 * c ≠ 0x7000018 + 1048576 * c
    omega
  have hsafe : (R.DMC_ECC.CE_EVT c).off ≠ R.SAFE_STATUS.off := by
    change 0x7000010 + 1048576 * c ≠ 0x600000
    omega
  unfold State.eccCorrected
  extract_lets k n w dmc s1 first s2 s3 s4
  have h2 : State.CorrectedIn s c s2 := ⟨State.bit_setBit_self (show 32 + 1 ≤ 64 by decide) (show 0 < 1 by decide), rfl, rfl⟩
  have h3 : State.CorrectedIn s c s3 := .ite (h2.setReg hlog) h2
  have h4 : State.CorrectedIn s c s4 := .ite (h3.setReg hlog).threshold h3
  exact ((h4.setReg hsafe).safeEvt hsafe).endWaits

theorem State.eccUncorrectable_spec {line : Nat} {l : EccLoc} :
    (s.eccUncorrectable c line l).bit (R.DMC_ECC.UE_EVT c) = true ∧ (s.eccUncorrectable c line l).poisoned line 64 = true := by
  have hlog : (R.DMC_ECC.UE_EVT c).off ≠ R.DMC_ERRLOG1.off c := by
    change 0x7000010 + 1048576 * c ≠ 0x7000020 + 1048576 * c
    omega
  unfold State.eccUncorrectable
  extract_lets first s1 s2
  have h1 : s1.bit (R.DMC_ECC.UE_EVT c) = true := State.bit_setBit_self (show 33 + 1 ≤ 64 by decide) (show 0 < 1 by decide)
  have h2 : s2.bit (R.DMC_ECC.UE_EVT c) = true := by
    change State.bit (if _ then _ else _) _ = true
    split
    · rw [State.bit_of_fld (State.fld_setReg_ne hlog), h1]
    · exact h1
  split
  next hp => exact ⟨h2, hp⟩
  next => exact ⟨h2, by simp [State.poisoned]⟩

end

/-- Settles O59: training writes registers of its controllers; the sweep and the scrub reads follow their branches. -/
theorem dram : Obligations.Dram := by
  intro s pop c line l p begun trained a n cap
  refine ⟨fun ⟨hst, hd⟩ hp hoff hfail hk => ?_, fun hb => congrArg Host.Outcome.next (if_neg (by simpa [begun] using hb)), fun hup hrun => ?_,
    fun hup hrun => ⟨congrArg Host.Outcome.next ((State.whenUp_of_up hup).trans (if_neg (by simp [hrun]))),
      congrArg Host.Outcome.next ((State.whenUp_of_up hup).trans (if_neg (by simp [hrun])))⟩⟩
  · obtain ⟨hcap, hdone, hsys, hkeys⟩ := State.trainedAs_spec (pop := pop) hk
    refine ⟨_, exec_trained hst hd hp hoff hfail, ?_⟩
    rw [State.bootGoOn_of_keys hkeys]
    exact ⟨hcap, hdone, hsys⟩
  · refine ⟨⟨_, congrArg Host.Outcome.next ((State.whenUp_of_up hup).trans (if_pos hrun)), State.dmc_powerDown, rfl, rfl⟩, completes_dramInitBlock hup hrun,
      fun hi => congrArg Host.Outcome.next ((State.whenUp_of_up hup).trans (if_neg (by simp [hi]))), fun hi ha hc => ⟨?_, ?_, ?_⟩⟩
    · exact ⟨_, exec_scrubRead hup hrun hi ha hc, rfl, rfl, State.dmc_powerDown⟩
    · obtain ⟨hb, hm, hsafe⟩ := State.eccCorrected_spec (s := s.awake c) (c := c) (line := a) (l := l)
      exact ⟨_, exec_scrubRead hup hrun hi ha hc, hb, hm, congrArg SafeState.poison hsafe⟩
    · exact ⟨_, exec_scrubRead hup hrun hi ha hc, State.eccUncorrectable_spec⟩

end Sys2Proof.Machine
end

section
/-!
O56. Timers: ticks, masks and snapshots of groups, steps of T00, and the compare: matches, writes and re-arming.
-/

namespace Sys2Proof.Machine

section

variable {s t : State} {who : Agent} {j k v : Nat} {on wrote : Bool}

/-! ### What the shared operations of the timer unit change -/

/-- Registers of one timer that lie at different places of its block differ. -/
theorem timerOff_ne {a b : Nat} (h : a ≠ b) : a + 64 * k ≠ b + 64 * k := by
  omega

theorem State.ppsRise_shape (s : State) (j : Nat) : ∃ (out : List OutEvent) (pps0 pps1 : Bool),
    s.ppsRise j = { s with out, tmu := { s.tmu with pps0, pps1 } } := by
  unfold State.ppsRise State.setPps
  split
  · by_cases hj : j = 0
    · exact ⟨_, true, s.tmu.pps1, by simp only [hj, if_true]; rfl⟩
    · exact ⟨_, s.tmu.pps0, true, by simp only [hj, if_false]; rfl⟩
  · exact ⟨_, _, _, rfl⟩

theorem State.ppsSecond_shape (s : State) : ∃ (out : List OutEvent) (pps0 pps1 : Bool), s.ppsSecond = { s with out, tmu := { s.tmu with pps0, pps1 } } := by
  have h0 : ∃ (out : List OutEvent) (pps0 pps1 : Bool), (if s.bit (R.TMU_PPS.SRC 0) then s else s.ppsRise 0) =
      { s with out, tmu := { s.tmu with pps0, pps1 } } := by
    split
    · exact ⟨_, _, _, rfl⟩
    · exact s.ppsRise_shape 0
  obtain ⟨_, _, _, h0⟩ := h0
  unfold State.ppsSecond
  rw [h0]
  dsimp only
  split
  · exact ⟨_, _, _, rfl⟩
  · obtain ⟨_, _, _, h1⟩ := State.ppsRise_shape _ 1
    exact ⟨_, _, _, h1⟩

theorem State.setT00_shape (s : State) (v : Nat) : ∃ (out : List OutEvent) (pps0 pps1 : Bool),
    s.setT00 v = { s with out, tmu := { s.tmu with t00 := v, pps0, pps1 } } := by
  unfold State.setT00
  dsimp only
  split
  · obtain ⟨_, _, _, h⟩ := State.ppsSecond_shape { s with tmu := { s.tmu with t00 := v } }
    exact ⟨_, _, _, h⟩
  · exact ⟨_, _, _, rfl⟩

/-! ### Ticks and steps of T00 (R391, R403) -/

theorem completes_tick_t00 (hp : s.sys.phase = .running) :
    Completes (.timerTick 0) s fun t => t.tmu.t00 = s.tmu.t00 + s.t00Rate ∧ t.regs = s.regs := by
  have htick : s.t00Tick = s.setT00 (s.tmu.t00 + s.t00Rate) := by
    simp only [State.t00Tick, hp]
  obtain ⟨_, _, _, hset⟩ := s.setT00_shape (s.tmu.t00 + s.t00Rate)
  refine ⟨s.t00Tick, congrArg Host.Outcome.next (if_pos rfl), ?_⟩
  rw [htick, hset]
  exact ⟨rfl, rfl⟩

/-- `t` has the T00, the memory and the session of `s`. -/
def State.SameTime (s t : State) : Prop := t.tmu.t00 = s.tmu.t00 ∧ t.mem = s.mem ∧ t.onf.session = s.onf.session

namespace State.SameTime

theorem refl : s.SameTime s := ⟨rfl, rfl, rfl⟩

theorem ite {p : Prop} [Decidable p] {u : State} (ht : s.SameTime t) (hu : s.SameTime u) : s.SameTime (if p then t else u) := by
  split
  · exact ht
  · exact hu

theorem setReg (h : s.SameTime t) {off : Nat} {w : W64} : s.SameTime (t.setReg off w) := h

theorem setBit (h : s.SameTime t) {f : Fld} : s.SameTime (t.setBit f) := h

theorem setArmed (h : s.SameTime t) : s.SameTime (t.setArmed k on) := h

theorem tapeMark (h : s.SameTime t) {bits : Nat} : s.SameTime (t.tapeMark bits) := h

theorem ppsRise (h : s.SameTime t) : s.SameTime (t.ppsRise j) := by
  obtain ⟨_, _, _, hp⟩ := t.ppsRise_shape j
  rw [hp]
  exact h

theorem tmrEval (h : s.SameTime t) : s.SameTime (t.tmrEval k wrote) := by
  refine .ite ?_ h
  unfold State.tmrMatch
  extract_lets s1 s2 reload s3
  have h1 : s.SameTime s1 := .ite h.setBit h
  have h3 : s.SameTime s3 := .ite h1.setBit.setReg h1.setBit.setArmed
  exact .ite h3.ppsRise h3

end State.SameTime

theorem State.stitchReached_none (h : s.onf.session = none) : s.stitchReached = s := by
  simp only [State.stitchReached, h]

/-- T00 after a step of `ns`: 96 bits, 32 of them a fraction of a ns. -/
def t00Stepped (t00 : Nat) (ns : W64) : Nat := (((t00 : Int) + ns.toInt * 2 ^ 32) % 2 ^ 96).toNat

theorem State.t00Step_spec {ns : W64} (hses : s.onf.session = none) :
    (s.t00Step ns).tmu.t00 = t00Stepped s.tmu.t00 ns ∧ (s.t00Step ns).mem = s.mem := by
  obtain ⟨_, _, _, hset⟩ := s.setT00_shape (t00Stepped s.tmu.t00 ns)
  unfold State.t00Step
  extract_lets d v s1 s2
  have h1 : s1 = s.setT00 (t00Stepped s.tmu.t00 ns) := rfl
  have h2 : s1.SameTime s2 := .ite (State.SameTime.tapeMark .refl) .refl
  obtain ⟨ht, hm, hs⟩ := h2.tmrEval (k := 0) (wrote := false)
  rw [h1, hset] at ht hm hs
  rw [State.stitchReached_none (hs.trans hses)]
  exact ⟨ht, hm⟩

/-! ### Groups (R392, R394) -/

theorem State.getLsbD_setRun (hk : k < 64) : ((s.setRun j on).reg R.TMU_RUN.off).getLsbD k = if k = j then on else (s.reg R.TMU_RUN.off).getLsbD k := by
  rw [State.setRun, State.reg_setReg_self, getLsbD_setBits, decide_eq_true hk, Bool.true_and]
  by_cases hkj : k = j
  · subst hkj
    cases on <;> simp [b2n]
  · rw [if_neg (by omega), if_neg hkj]

theorem State.runAll_cons {l : List Nat} : s.runAll on (j :: l) = (s.setRun j on).runAll on l := rfl

theorem State.sameBut_runAll {l : List Nat} (h : s.SameButRegs t) : s.SameButRegs (t.runAll on l) := by
  induction l generalizing t with
  | nil => exact h
  | cons j l ih => exact ih h.setReg

theorem State.reg_runAll_ne {off : Nat} (hoff : off ≠ R.TMU_RUN.off) {l : List Nat} : (s.runAll on l).reg off = s.reg off := by
  induction l generalizing s with
  | nil => rfl
  | cons j l ih => rw [State.runAll_cons, ih, State.setRun, State.reg_setReg_ne hoff]

theorem State.getLsbD_runAll (hk : k < 64) {l : List Nat} :
    ((s.runAll on l).reg R.TMU_RUN.off).getLsbD k = if k ∈ l then on else (s.reg R.TMU_RUN.off).getLsbD k := by
  induction l generalizing s with
  | nil => exact (if_neg List.not_mem_nil).symm
  | cons j l ih =>
    rw [State.runAll_cons, ih, State.getLsbD_setRun hk]
    simp only [List.mem_cons]
    by_cases hl : k ∈ l <;> by_cases hj : k = j <;> simp [hl, hj]

theorem State.mem_groupOf {mask : W64} (hk : k < 64) :
    k ∈ s.groupOf who mask ↔ (mask.getLsbD k && decide (k ≠ 0) && (s.world who == .lining || !s.tmrLining k)) = true := by
  rw [State.groupOf, List.mem_filter, mem_bitList, BitVec.testBit_toNat, and_iff_right hk]
  simp only [Bool.and_eq_true, bne_iff_ne, decide_eq_true_eq, and_assoc]

/-- A mask written to TMU_GO or TMU_HALT sets RUN of the timers that it may, and changes no count. -/
theorem State.runAll_spec {mask : W64} (hk : k < 64) :
    ((s.runAll on (s.groupOf who mask)).reg R.TMU_RUN.off).getLsbD k =
        (if (mask.getLsbD k && decide (k ≠ 0) && (s.world who == .lining || !s.tmrLining k)) = true then on else (s.reg R.TMU_RUN.off).getLsbD k) ∧
      (s.runAll on (s.groupOf who mask)).reg (R.TMR_COUNT.off k) = s.reg (R.TMR_COUNT.off k) ∧ (s.runAll on (s.groupOf who mask)).tmu = s.tmu := by
  have hoff : R.TMR_COUNT.off k ≠ R.TMU_RUN.off := by
    change 0x210008 + 64 * k ≠ 0x200020
    omega
  refine ⟨?_, State.reg_runAll_ne hoff, ?_⟩
  · rw [State.getLsbD_runAll hk]
    simp only [State.mem_groupOf hk]
  · obtain ⟨_, h⟩ := State.sameBut_runAll (on := on) (l := s.groupOf who mask) (s := s) ⟨_, rfl⟩
    rw [h]

theorem State.snapAll_cons {l : List Nat} : s.snapAll (j :: l) = (s.setReg (R.TMR_SNAP.off j) (BitVec.ofNat 64 (s.tmrCount j))).snapAll l := rfl

theorem State.reg_snapAll_ne {off : Nat} (hoff : ∀ j, off ≠ R.TMR_SNAP.off j) {l : List Nat} : (s.snapAll l).reg off = s.reg off := by
  induction l generalizing s with
  | nil => rfl
  | cons j l ih => rw [State.snapAll_cons, ih, State.reg_setReg_ne (hoff j)]

/-- A snapshot's register leaves every count. -/
theorem State.tmrCount_setReg_snap {w : W64} : (s.setReg (R.TMR_SNAP.off j) w).tmrCount k = s.tmrCount k := by
  have hoff : R.TMR_COUNT.off k ≠ R.TMR_SNAP.off j := by
    change 0x210008 + 64 * k ≠ 0x210030 + 64 * j
    omega
  unfold State.tmrCount
  rw [State.reg_setReg_ne hoff]
  rfl

theorem State.reg_snapAll {l : List Nat} : (s.snapAll l).reg (R.TMR_SNAP.off k) =
    if k ∈ l then BitVec.ofNat 64 (s.tmrCount k) else s.reg (R.TMR_SNAP.off k) := by
  induction l generalizing s with
  | nil => exact (if_neg List.not_mem_nil).symm
  | cons j l ih =>
    rw [State.snapAll_cons, ih, State.tmrCount_setReg_snap]
    simp only [List.mem_cons]
    by_cases hj : k = j
    · subst hj
      simp [State.reg_setReg_self]
    · have hoff : R.TMR_SNAP.off k ≠ R.TMR_SNAP.off j := by
        change 0x210030 + 64 * k ≠ 0x210030 + 64 * j
        omega
      rw [State.reg_setReg_ne hoff]
      simp [hj]

theorem State.tmuSnap_spec {mask : W64} (hk : k < 64) :
    (s.tmuSnap mask).reg (R.TMR_SNAP.off k) = (if mask.getLsbD k then BitVec.ofNat 64 (s.tmrCount k) else s.reg (R.TMR_SNAP.off k)) ∧
      (s.tmuSnap mask).fld R.TMU_STATUS.SNAP_SEQ = (s.fld R.TMU_STATUS.SNAP_SEQ + 1) % 2 ^ R.TMU_STATUS.SNAP_SEQ.w ∧
      (s.tmuSnap mask).reg (R.TMR_COUNT.off k) = s.reg (R.TMR_COUNT.off k) := by
  have hsnap : R.TMR_SNAP.off k ≠ R.TMU_STATUS.SNAP_SEQ.off := by
    change 0x210030 + 64 * k ≠ 0x200000
    omega
  have hcount : R.TMR_COUNT.off k ≠ R.TMU_STATUS.SNAP_SEQ.off := by
    change 0x210008 + 64 * k ≠ 0x200000
    omega
  unfold State.tmuSnap
  extract_lets s1
  refine ⟨?_, ?_, ?_⟩
  · rw [State.reg_setFld_ne hsnap, State.reg_snapAll]
    simp only [mem_bitList, BitVec.testBit_toNat, and_iff_right hk]
  · rw [State.fld_setFld_self (by decide), State.fld_of_reg (State.reg_snapAll_ne fun j => ?_)]
    change 0x200000 ≠ 0x210030 + 64 * j
    omega
  · rw [State.reg_setFld_ne hcount]
    refine State.reg_snapAll_ne fun j => ?_
    change 0x210008 + 64 * k ≠ 0x210030 + 64 * j
    omega

/-! ### Compare (R395, R396) -/

/-- `t` shows a match that `s` met: MATCH stands, and MISS if it did or MATCH did. -/
def State.Matched (s : State) (k : Nat) (t : State) : Prop :=
  t.bit (R.TMR_STAT.MATCH k) = true ∧ t.bit (R.TMR_STAT.MISS k) = (s.bit (R.TMR_STAT.MISS k) || s.bit (R.TMR_STAT.MATCH k))

/-- A match in TMR_STAT. -/
def State.matchBits (s : State) (k : Nat) : State :=
  (if s.bit (R.TMR_STAT.MATCH k) then s.setBit (R.TMR_STAT.MISS k) else s).setBit (R.TMR_STAT.MATCH k)

theorem State.matched_matchBits : s.Matched k (s.matchBits k) := by
  refine ⟨State.bit_setBit_self (show 0 + 1 ≤ 64 by decide) (show 0 < 1 by decide), ?_⟩
  rw [State.matchBits, State.setBit, State.bit_setFld_disj (show 1 + 1 ≤ 64 by decide) (.inr (show 0 + 1 ≤ 1 by decide))]
  split
  next hm => rw [State.bit_setBit_self (show 1 + 1 ≤ 64 by decide) (show 0 < 1 by decide), hm, Bool.or_true]
  next hm => simp [hm]

theorem State.reg_matchBits_ne {off : Nat} (h : off ≠ R.TMR_STAT.off k) : (s.matchBits k).reg off = s.reg off := by
  refine (State.reg_setReg_ne h).trans ?_
  split
  · exact State.reg_setReg_ne h
  · rfl

theorem State.armed_matchBits : (s.matchBits k).tmrArmed k = s.tmrArmed k := by
  unfold State.matchBits
  split <;> rfl

theorem State.tmrArmed_setArmed : (s.setArmed k on).tmrArmed k = on := by
  simp only [State.tmrArmed, State.setArmed, smGet_put_self, Bool.not_not]

/-- A match's end: the compare is armed, and TMR_CMP reads, as given. -/
def State.MatchEnds (s : State) (k : Nat) (armed : Bool) (cmp : W64) (t : State) : Prop :=
  s.Matched k t ∧ t.tmrArmed k = armed ∧ t.reg (R.TMR_CMP.off k) = cmp

theorem State.MatchEnds.ppsRise {armed : Bool} {cmp : W64} (h : s.MatchEnds k armed cmp t) : s.MatchEnds k armed cmp (t.ppsRise j) := by
  obtain ⟨_, _, _, hp⟩ := t.ppsRise_shape j
  rw [hp]
  exact h

theorem State.MatchEnds.ite {p : Prop} [Decidable p] {u : State} {armed : Bool} {cmp : W64} (ht : s.MatchEnds k armed cmp t)
    (hu : s.MatchEnds k armed cmp u) : s.MatchEnds k armed cmp (if p then t else u) := by
  split
  · exact ht
  · exact hu

/-- A match without RELOAD, or of a compare just written, disarms. -/
theorem State.tmrMatch_disarms (h : k = 0 ∨ s.fld (R.TMR_CFG.RELOAD k) = 0 ∨ wrote = true) :
    s.MatchEnds k false (s.reg (R.TMR_CMP.off k)) (s.tmrMatch k wrote) := by
  have hreload : (s.matchBits k).fld (R.TMR_CFG.RELOAD k) = s.fld (R.TMR_CFG.RELOAD k) := State.fld_of_reg (State.reg_matchBits_ne (timerOff_ne (by decide)))
  unfold State.tmrMatch
  extract_lets s1 s2 reload s3
  have h3 : s3 = (s.matchBits k).setArmed k false := by
    refine if_neg ?_
    have hr : reload = if k = 0 then 0 else s.fld (R.TMR_CFG.RELOAD k) := by
      rw [← hreload]
      rfl
    rw [hr]
    rcases h with h | h | h <;> simp [h]
  have hend : s.MatchEnds k false (s.reg (R.TMR_CMP.off k)) s3 := by
    rw [h3]
    exact ⟨State.matched_matchBits, State.tmrArmed_setArmed, State.reg_matchBits_ne (timerOff_ne (by decide))⟩
  exact .ite hend.ppsRise hend

/-- A match with RELOAD moves the compare on and leaves it armed. -/
theorem State.tmrMatch_reloads (h0 : k ≠ 0) (h : s.fld (R.TMR_CFG.RELOAD k) ≠ 0) :
    s.MatchEnds k (s.tmrArmed k) (s.reg (R.TMR_CMP.off k) + BitVec.ofNat 64 (s.fld (R.TMR_CFG.RELOAD k))) (s.tmrMatch k false) := by
  have hreload : (s.matchBits k).fld (R.TMR_CFG.RELOAD k) = s.fld (R.TMR_CFG.RELOAD k) := State.fld_of_reg (State.reg_matchBits_ne (timerOff_ne (by decide)))
  have hcmp : (s.matchBits k).reg (R.TMR_CMP.off k) = s.reg (R.TMR_CMP.off k) := State.reg_matchBits_ne (timerOff_ne (by decide))
  unfold State.tmrMatch
  extract_lets s1 s2 reload s3
  have h3 : s3 = (s.matchBits k).setReg (R.TMR_CMP.off k) (s.reg (R.TMR_CMP.off k) + BitVec.ofNat 64 (s.fld (R.TMR_CFG.RELOAD k))) := by
    have hr : reload = s.fld (R.TMR_CFG.RELOAD k) := (if_neg h0).trans hreload
    refine (if_pos (by simp [hr, h])).trans ?_
    rw [hr, ← hcmp]
    rfl
  have hend : s.MatchEnds k (s.tmrArmed k) (s.reg (R.TMR_CMP.off k) + BitVec.ofNat 64 (s.fld (R.TMR_CFG.RELOAD k))) s3 := by
    rw [h3]
    have hstat : ∀ {f : Fld} {w : W64}, f.off = R.TMR_STAT.off k → ((s.matchBits k).setReg (R.TMR_CMP.off k) w).bit f = (s.matchBits k).bit f := fun hf =>
      State.bit_of_fld (State.fld_setReg_ne (hf ▸ timerOff_ne (by decide)))
    obtain ⟨hm, hmiss⟩ := State.matched_matchBits (s := s) (k := k)
    exact ⟨⟨(hstat rfl).trans hm, (hstat rfl).trans hmiss⟩, State.armed_matchBits, State.reg_setReg_self⟩
  exact .ite hend.ppsRise hend

theorem State.tmrEval_due (ha : s.tmrArmed k = true) (hd : (s.reg (R.TMR_CMP.off k)).toNat ≤ s.tmrCount k) : s.tmrEval k wrote = s.tmrMatch k wrote :=
  if_pos (by simp [ha, State.tmrDue, hd])

theorem State.tmrEval_not_due (h : s.tmrArmed k = false ∨ s.tmrCount k < (s.reg (R.TMR_CMP.off k)).toNat) : s.tmrEval k wrote = s := by
  refine if_neg ?_
  rcases h with h | h <;> simp [State.tmrDue, h]

theorem exec_timerMatch (hup : s.up = true) (hk : k < 64) : exec (.timerMatch k) s = .next (s.tmrEval k false) :=
  congrArg Host.Outcome.next ((State.whenUp_of_up hup).trans (if_neg (by omega)))

theorem exec_tmrCmpWrite {data : W64} (hup : s.up = true) (hk : k < 64) (ho : s.opens who (R.TMR_CMP.off k)) :
    exec (.tmrCmpWrite who k data) s = .next (s.tmrCmpSet k data) :=
  congrArg Host.Outcome.next ((State.whenUp_of_up hup).trans ((if_neg (by omega)).trans (State.regTry_of_opens ho)))

theorem exec_tmrMatchClear (hup : s.up = true) (hk : k < 64) (ho : s.opens who (R.TMR_STAT.off k)) :
    exec (.tmrMatchClear who k) s = .next (s.tmrMatchOff k) :=
  congrArg Host.Outcome.next ((State.whenUp_of_up hup).trans ((if_neg (by omega)).trans (State.regTry_of_opens ho)))

/-- TMR_CMP written, and the compare armed. -/
def State.cmpArmed (s : State) (k : Nat) (data : W64) : State := (s.setReg (R.TMR_CMP.off k) data).setArmed k true

theorem State.cmpArmed_spec {data : W64} : (s.cmpArmed k data).tmrArmed k = true ∧ (s.cmpArmed k data).reg (R.TMR_CMP.off k) = data ∧
    (s.cmpArmed k data).tmrCount k = s.tmrCount k ∧
    ∀ f : Fld, f.off = R.TMR_STAT.off k → (s.cmpArmed k data).bit f = s.bit f := by
  refine ⟨State.tmrArmed_setArmed, State.reg_setReg_self, ?_, fun f hf => State.bit_of_fld (State.fld_setReg_ne (hf ▸ timerOff_ne (by decide)))⟩
  have hcount : (s.cmpArmed k data).reg (R.TMR_COUNT.off k) = s.reg (R.TMR_COUNT.off k) := State.reg_setReg_ne (timerOff_ne (by decide))
  unfold State.tmrCount
  rw [hcount]
  rfl

theorem State.tmrCmpSet_due {data : W64} (h : data.toNat ≤ s.tmrCount k) : s.MatchEnds k false data (s.tmrCmpSet k data) := by
  obtain ⟨ha, hr, hc, hb⟩ := State.cmpArmed_spec (s := s) (k := k) (data := data)
  have hset : s.tmrCmpSet k data = (s.cmpArmed k data).tmrMatch k true := State.tmrEval_due ha (hd := hr.symm ▸ hc.symm ▸ h)
  obtain ⟨⟨hm, hmiss⟩, hoff, hcmp⟩ := State.tmrMatch_disarms (s := s.cmpArmed k data) (k := k) (wrote := true) (.inr (.inr rfl))
  rw [hset]
  refine ⟨⟨hm, ?_⟩, hoff, hcmp.trans hr⟩
  rw [hmiss, hb _ rfl, hb _ rfl]

theorem State.tmrCmpSet_later {data : W64} (h : s.tmrCount k < data.toNat) : s.tmrCmpSet k data = s.cmpArmed k data := by
  obtain ⟨-, hr, hc, -⟩ := State.cmpArmed_spec (s := s) (k := k) (data := data)
  refine State.tmrEval_not_due (.inr ?_)
  change (s.cmpArmed k data).tmrCount k < ((s.cmpArmed k data).reg _).toNat
  rw [hr, hc]
  exact h

theorem State.tmrMatchOff_spec (h : s.bit (R.TMR_STAT.MATCH k) = true) : (s.tmrMatchOff k).bit (R.TMR_STAT.MATCH k) = false ∧
    (s.tmrMatchOff k).tmrArmed k = true ∧ (s.tmrMatchOff k).reg (R.TMR_CMP.off k) = s.reg (R.TMR_CMP.off k) := by
  rw [State.tmrMatchOff, if_pos h]
  exact ⟨State.bit_clrBit_self (s := s) (show 0 + 1 ≤ 64 by decide), State.tmrArmed_setArmed, State.reg_setFld_ne (s := s) (timerOff_ne (by decide))⟩

end

/-- Settles O56: the groups by their lists of timers, the compare by the two ways a match ends. -/
theorem timerCountsAndCompare : Obligations.TimerCountsAndCompare := by
  constructor
  · intro s who k mask hup hk mine runs count
    refine ⟨fun h0 hrun => ?_, fun h0 hrun => ?_, fun hp => completes_tick_t00 hp, fun ho => ?_, fun ho => ?_, fun ho => ?_, fun ho hses => ?_⟩
    · exact congrArg Host.Outcome.next ((if_neg h0).trans ((State.whenUp_of_up hup).trans
        (if_pos (by rw [State.tmrRunning, show (s.reg R.TMU_RUN.off).getLsbD k = true from hrun]; simp [hk]))))
    · exact congrArg Host.Outcome.next ((if_neg h0).trans ((State.whenUp_of_up hup).trans
        (if_neg (by rw [State.tmrRunning, show (s.reg R.TMU_RUN.off).getLsbD k = false from hrun]; simp [h0]))))
    · obtain ⟨hrun, hcount, htmu⟩ := State.runAll_spec (s := s) (who := who) (mask := mask) (on := true) hk
      refine ⟨s.tmuGo who mask, congrArg Host.Outcome.next ((State.whenUp_of_up hup).trans (State.regTry_of_opens ho)), hrun.trans ?_, hcount, htmu⟩
      change (if mine = true then true else runs) = (runs || mine)
      cases mine <;> simp
    · obtain ⟨hrun, hcount, htmu⟩ := State.runAll_spec (s := s) (who := who) (mask := mask) (on := false) hk
      refine ⟨s.tmuHalt who mask, congrArg Host.Outcome.next ((State.whenUp_of_up hup).trans (State.regTry_of_opens ho)), hrun.trans ?_, hcount, htmu⟩
      change (if mine = true then false else runs) = (runs && !mine)
      cases mine <;> simp
    · exact ⟨s.tmuSnap mask, congrArg Host.Outcome.next ((State.whenUp_of_up hup).trans (State.regTry_of_opens ho)), State.tmuSnap_spec hk⟩
    · exact ⟨s.t00Step mask, congrArg Host.Outcome.next ((State.whenUp_of_up hup).trans (State.regTry_of_opens ho)), State.t00Step_spec hses⟩
  · intro s who k data hup hk cmp reload missed
    refine ⟨fun ha hd => ⟨fun h0 => ?_, fun h0 hr => ?_⟩, fun hnot => ?_, fun ho => ⟨fun hd => ?_, fun hd => ?_⟩, fun ho hm => ?_⟩
    · refine ⟨_, exec_timerMatch hup hk, ?_⟩
      rw [State.tmrEval_due ha hd]
      exact State.tmrMatch_disarms (h0.imp_right .inl)
    · obtain ⟨hmatch, harmed, hcmp⟩ := State.tmrMatch_reloads (s := s) h0 hr
      refine ⟨_, exec_timerMatch hup hk, ?_⟩
      rw [State.tmrEval_due ha hd]
      exact ⟨hmatch, harmed.trans ha, hcmp⟩
    · rw [exec_timerMatch hup hk, State.tmrEval_not_due hnot]
    · exact ⟨_, exec_tmrCmpWrite hup hk ho, State.tmrCmpSet_due hd⟩
    · obtain ⟨ha, hr, -, hb⟩ := State.cmpArmed_spec (s := s) (k := k) (data := data)
      refine ⟨_, exec_tmrCmpWrite hup hk ho, ?_⟩
      rw [State.tmrCmpSet_later hd]
      exact ⟨hr, ha, rfl, hb _ rfl⟩
    · exact ⟨_, exec_tmrMatchClear hup hk ho, State.tmrMatchOff_spec hm⟩

end Sys2Proof.Machine
end

section
/-!
O57. Captures and their reads; PTP timestamps, PTM dialogues and the PPS pins.
-/

namespace Sys2Proof.Machine

section

variable {s : State} {who : Agent} {g j k n v : Nat} {p fall rising : Bool} {f : Fld} {m : PtpMsg}

/-! ### A bit that a condition sets -/

/-- Set a bit where a condition holds. -/
def State.setBitIf (s : State) (p : Bool) (f : Fld) : State := if p then s.setBit f else s

theorem State.reg_setBitIf_ne {off : Nat} (h : off ≠ f.off) : (s.setBitIf p f).reg off = s.reg off := by
  cases p
  · rfl
  · exact State.reg_setFld_ne h

theorem State.bit_setBitIf_self (hf : f.lo + f.w ≤ 64) (hw : 0 < f.w) : (s.setBitIf p f).bit f = (s.bit f || p) := by
  cases p
  · exact (Bool.or_false _).symm
  · exact (State.bit_setBit_self hf hw).trans (Bool.or_true _).symm

theorem State.bit_setBitIf_disj {b : Fld} (hb : b.lo + b.w ≤ 64) (hd : b.lo + b.w ≤ f.lo ∨ f.lo + f.w ≤ b.lo) : (s.setBitIf p f).bit b = s.bit b := by
  cases p
  · rfl
  · exact State.bit_setFld_disj hb hd

theorem State.copyOpen_setBitIf {off : Nat} : (s.setBitIf p f).copyOpen off = s.copyOpen off := by
  cases p <;> rfl

/-! ### Captures (R397–R401) -/

/-- TMR_STAT of a capture into TMR_RISE. -/
def State.riseStat (s : State) (k : Nat) : State :=
  (s.setBitIf (s.bit (R.TMR_STAT.NEW_R k)) (R.TMR_STAT.LOST_R k)).setBitIf (s.copyOpen (R.TMR_RISE.off k)) (R.TMR_STAT.OVR k)

/-- TMR_STAT of a capture into TMR_FALL. -/
def State.fallStat (s : State) (k : Nat) : State :=
  (s.setBitIf (s.bit (R.TMR_STAT.NEW_F k)) (R.TMR_STAT.LOST_F k)).setBitIf (s.copyOpen (R.TMR_FALL.off k) || s.copyOpen (R.TMR_WIDTH.off k)) (R.TMR_STAT.OVR k)

theorem State.capture_rise {w : W64} : s.capture k false w = ((s.riseStat k).setReg (R.TMR_RISE.off k) w).setBit (R.TMR_STAT.NEW_R k) := by
  rw [State.riseStat, ← State.copyOpen_setBitIf (p := s.bit (R.TMR_STAT.NEW_R k)) (f := R.TMR_STAT.LOST_R k)]
  rfl

theorem State.capture_fall {w : W64} : s.capture k true w =
    (((s.fallStat k).setReg (R.TMR_FALL.off k) w).setBit (R.TMR_STAT.NEW_F k)).setReg (R.TMR_WIDTH.off k)
      (w - (((s.fallStat k).setReg (R.TMR_FALL.off k) w).setBit (R.TMR_STAT.NEW_F k)).reg (R.TMR_RISE.off k)) := by
  rw [State.fallStat, ← State.copyOpen_setBitIf (p := s.bit (R.TMR_STAT.NEW_F k)) (f := R.TMR_STAT.LOST_F k) (off := R.TMR_FALL.off k),
    ← State.copyOpen_setBitIf (p := s.bit (R.TMR_STAT.NEW_F k)) (f := R.TMR_STAT.LOST_F k) (off := R.TMR_WIDTH.off k)]
  rfl

theorem State.reg_riseStat_ne {off : Nat} (h : off ≠ R.TMR_STAT.off k) : (s.riseStat k).reg off = s.reg off :=
  (State.reg_setBitIf_ne h).trans (State.reg_setBitIf_ne h)

theorem State.reg_fallStat_ne {off : Nat} (h : off ≠ R.TMR_STAT.off k) : (s.fallStat k).reg off = s.reg off :=
  (State.reg_setBitIf_ne h).trans (State.reg_setBitIf_ne h)

/-- `t` has captured `w` as a rising value. -/
def State.RoseTo (s : State) (k : Nat) (w : W64) (t : State) : Prop :=
  t.reg (R.TMR_RISE.off k) = w ∧ t.bit (R.TMR_STAT.NEW_R k) = true ∧
    t.bit (R.TMR_STAT.LOST_R k) = (s.bit (R.TMR_STAT.LOST_R k) || s.bit (R.TMR_STAT.NEW_R k)) ∧
    t.bit (R.TMR_STAT.OVR k) = (s.bit (R.TMR_STAT.OVR k) || s.copyOpen (R.TMR_RISE.off k)) ∧ t.reg (R.TMR_FALL.off k) = s.reg (R.TMR_FALL.off k)

theorem State.roseTo_capture {w : W64} : s.RoseTo k w (s.capture k false w) := by
  have hstat : ∀ {b : Fld}, b.off = R.TMR_STAT.off k → ((s.riseStat k).setReg (R.TMR_RISE.off k) w).bit b = (s.riseStat k).bit b := fun hb =>
    State.bit_of_fld (State.fld_setReg_ne (hb ▸ timerOff_ne (by decide)))
  rw [State.capture_rise]
  refine ⟨?_, State.bit_setBit_self (show 2 + 1 ≤ 64 by decide) (show 0 < 1 by decide), ?_, ?_, ?_⟩
  · exact (State.reg_setFld_ne (timerOff_ne (by decide))).trans State.reg_setReg_self
  · rw [State.setBit, State.bit_setFld_disj (show 4 + 1 ≤ 64 by decide) (.inr (show 2 + 1 ≤ 4 by decide)), hstat rfl, State.riseStat,
      State.bit_setBitIf_disj (show 4 + 1 ≤ 64 by decide) (.inl (show 4 + 1 ≤ 6 by decide)), State.bit_setBitIf_self (show 4 + 1 ≤ 64 by decide) (show 0 < 1 by decide)]
  · rw [State.setBit, State.bit_setFld_disj (show 6 + 1 ≤ 64 by decide) (.inr (show 2 + 1 ≤ 6 by decide)), hstat rfl, State.riseStat,
      State.bit_setBitIf_self (show 6 + 1 ≤ 64 by decide) (show 0 < 1 by decide), State.bit_setBitIf_disj (show 6 + 1 ≤ 64 by decide) (.inr (show 4 + 1 ≤ 6 by decide))]
  · exact (State.reg_setFld_ne (timerOff_ne (by decide))).trans ((State.reg_setReg_ne (timerOff_ne (by decide))).trans
      (State.reg_riseStat_ne (timerOff_ne (by decide))))

/-- `t` has captured `w` as a falling value, and its distance from the rising one. -/
def State.FellTo (s : State) (k : Nat) (w : W64) (t : State) : Prop :=
  t.reg (R.TMR_FALL.off k) = w ∧ t.bit (R.TMR_STAT.NEW_F k) = true ∧
    t.bit (R.TMR_STAT.LOST_F k) = (s.bit (R.TMR_STAT.LOST_F k) || s.bit (R.TMR_STAT.NEW_F k)) ∧
    t.bit (R.TMR_STAT.OVR k) = (s.bit (R.TMR_STAT.OVR k) || s.copyOpen (R.TMR_FALL.off k) || s.copyOpen (R.TMR_WIDTH.off k)) ∧
    t.reg (R.TMR_WIDTH.off k) = w - s.reg (R.TMR_RISE.off k) ∧ t.reg (R.TMR_RISE.off k) = s.reg (R.TMR_RISE.off k)

theorem State.fellTo_capture {w : W64} : s.FellTo k w (s.capture k true w) := by
  have hrise : (((s.fallStat k).setReg (R.TMR_FALL.off k) w).setBit (R.TMR_STAT.NEW_F k)).reg (R.TMR_RISE.off k) = s.reg (R.TMR_RISE.off k) :=
    (State.reg_setFld_ne (timerOff_ne (by decide))).trans ((State.reg_setReg_ne (timerOff_ne (by decide))).trans
      (State.reg_fallStat_ne (timerOff_ne (by decide))))
  have hwidth : ∀ {t : State} {b : Fld} {x : W64}, b.off = R.TMR_STAT.off k → (t.setReg (R.TMR_WIDTH.off k) x).bit b = t.bit b := fun hb =>
    State.bit_of_fld (State.fld_setReg_ne (hb ▸ timerOff_ne (by decide)))
  have hstat : ∀ {b : Fld}, b.off = R.TMR_STAT.off k → ((s.fallStat k).setReg (R.TMR_FALL.off k) w).bit b = (s.fallStat k).bit b := fun hb =>
    State.bit_of_fld (State.fld_setReg_ne (hb ▸ timerOff_ne (by decide)))
  rw [State.capture_fall, hrise]
  refine ⟨?_, ?_, ?_, ?_, State.reg_setReg_self, ?_⟩
  · exact (State.reg_setReg_ne (timerOff_ne (by decide))).trans ((State.reg_setFld_ne (timerOff_ne (by decide))).trans State.reg_setReg_self)
  · rw [hwidth rfl, State.bit_setBit_self (show 3 + 1 ≤ 64 by decide) (show 0 < 1 by decide)]
  · rw [hwidth rfl, State.setBit, State.bit_setFld_disj (show 5 + 1 ≤ 64 by decide) (.inr (show 3 + 1 ≤ 5 by decide)), hstat rfl, State.fallStat,
      State.bit_setBitIf_disj (show 5 + 1 ≤ 64 by decide) (.inl (show 5 + 1 ≤ 6 by decide)), State.bit_setBitIf_self (show 5 + 1 ≤ 64 by decide) (show 0 < 1 by decide)]
  · rw [hwidth rfl, State.setBit, State.bit_setFld_disj (show 6 + 1 ≤ 64 by decide) (.inr (show 3 + 1 ≤ 6 by decide)), hstat rfl, State.fallStat,
      State.bit_setBitIf_self (show 6 + 1 ≤ 64 by decide) (show 0 < 1 by decide), State.bit_setBitIf_disj (show 6 + 1 ≤ 64 by decide) (.inr (show 5 + 1 ≤ 6 by decide)),
      Bool.or_assoc]
  · exact (State.reg_setReg_ne (timerOff_ne (by decide))).trans hrise

/-- An accepted edge of a live source, while CAP_EN reads 1, is captured. -/
theorem exec_timerCapture {back : Nat} (hup : s.up = true) (hk : k < 64) (hen : s.bit (R.TMR_CFG.CAP_EN k) = true) (hlive : s.srcLive (s.fld (R.TMR_CFG.SRC k)) = true) :
    exec (.timerCapture k rising back) s = .next (s.capture k (rising == s.bit (R.TMR_CFG.POL k))
      (BitVec.ofNat 64 (s.tmrCount k) - BitVec.ofNat 64 (if s.fld (R.TMR_CFG.SRC k) < 16 then back else 0))) :=
  congrArg Host.Outcome.next ((State.whenUp_of_up hup).trans (if_neg (by simp [hk, hen, hlive])))

/-- The register that a capture read names. -/
def capOff (k : Nat) (fall : Bool) : Nat := if fall then R.TMR_FALL.off k else R.TMR_RISE.off k

/-- What a capture read gives and clears. -/
def State.capRead (s : State) (k : Nat) (fall : Bool) : State := (s.emit (.readData (leBytes 8 (s.reg (capOff k fall)).toNat))).newOff k fall

theorem exec_tmrCaptureRead (hup : s.up = true) (hk : k < 64) (ho : k = 0 ∨ s.opens who (capOff k fall)) :
    exec (.tmrCaptureRead who k fall) s = .next (s.capRead k fall) := by
  refine congrArg Host.Outcome.next ((State.whenUp_of_up hup).trans ((if_neg (by omega)).trans ?_))
  by_cases h0 : k = 0
  · exact if_pos h0
  · exact (if_neg h0).trans (State.regTry_of_opens (ho.resolve_left h0))

theorem State.capRead_spec : (s.capRead k fall).out = .readData (leBytes 8 (s.reg (capOff k fall)).toNat) :: s.out ∧
    (s.capRead k fall).bit (if fall then R.TMR_STAT.NEW_F k else R.TMR_STAT.NEW_R k) = false ∧ (s.capRead k fall).reg (capOff k fall) = s.reg (capOff k fall) ∧
    (s.capRead k fall).bit (if fall then R.TMR_STAT.NEW_R k else R.TMR_STAT.NEW_F k) = s.bit (if fall then R.TMR_STAT.NEW_R k else R.TMR_STAT.NEW_F k) := by
  cases fall
  · exact ⟨rfl, State.bit_clrBit_self (s := s.emit _) (show 2 + 1 ≤ 64 by decide), State.reg_setFld_ne (s := s.emit _) (timerOff_ne (by decide)),
      State.bit_setFld_disj (s := s.emit _) (show 3 + 1 ≤ 64 by decide) (.inr (show 2 + 1 ≤ 3 by decide))⟩
  · exact ⟨rfl, State.bit_clrBit_self (s := s.emit _) (show 3 + 1 ≤ 64 by decide), State.reg_setFld_ne (s := s.emit _) (timerOff_ne (by decide)),
      State.bit_setFld_disj (s := s.emit _) (show 2 + 1 ≤ 64 by decide) (.inl (show 2 + 1 ≤ 3 by decide))⟩

/-! ### PTP timestamps (R404) -/

theorem State.ptpFifo_setPtp {l : List (Nat × Nat)} : (s.setPtp g l).ptpFifo g = l := by
  simp only [State.ptpFifo, State.setPtp, smGet_put_self]

theorem exec_ptpTimestamp (hup : s.up = true) (hg : g < 6) (hen : s.bit (R.EMAC_GCFG.PTP_EN g) = true) (hm : m.msgType < 4) :
    exec (.ptpTimestamp g m) s = .next (if 64 ≤ (s.ptpFifo g).length then s.setBit ⟨R.TMU_STATUS.off, 6 + g, 1⟩
      else s.setPtp g (s.ptpFifo g ++ [(s.now % 2 ^ 64, ptpHi m)])) :=
  congrArg Host.Outcome.next ((State.whenUp_of_up hup).trans (if_neg (by simp [hg, hen, ptpEvent, hm])))

theorem exec_ptpTimestamp_other (hup : s.up = true) (hm : 4 ≤ m.msgType) : exec (.ptpTimestamp g m) s = .next s :=
  congrArg Host.Outcome.next ((State.whenUp_of_up hup).trans (if_pos (by simp [ptpEvent, hm])))

theorem exec_ptpTimestampPop (hup : s.up = true) (hg : g < 6) (ho : s.opens who (R.TMU_PTPTS_HI.off g)) :
    exec (.ptpTimestampPop who g) s = .next ((s.emit (.readData (leBytes 8 (s.ptpHead g).2))).ptpPop g) :=
  congrArg Host.Outcome.next ((State.whenUp_of_up hup).trans ((if_neg (by omega)).trans (State.regTry_of_opens ho)))

/-! ### PTM dialogues (R405) -/

/-- A port's dialogue stands at a time; 0 for none. -/
def State.ptmAt (s : State) (n v : Nat) : State := { s with tmu := { s.tmu with ptm := smPut 0 s.tmu.ptm n v } }

theorem State.ptm_ptmAt : smGet 0 (s.ptmAt n v).tmu.ptm n = v := by
  simp only [State.ptmAt, smGet_put_self]

theorem exec_ptmRequest (hup : s.up = true) (hn : n < 32) (hen : (s.fn (0x1000 + n)).ptmEn = true) (hper : s.fld (R.TMU_PTM_CTL.PERIOD_MS n) ≠ 0)
    (hgate : s.sys.gated = false) : exec (.ptmRequest n) s = .next ((s.ptmAt n (s.now + 1)).emit (.ptm n)) :=
  congrArg Host.Outcome.next ((State.whenUp_of_up hup).trans (if_neg (by simp [hn, hen, hper, hgate])))

/-- The times of a dialogue, and its count. -/
def State.ptmDone (s : State) (n t1 : Nat) (master : W64) (delay : BitVec 32) : State :=
  let s2 := ((s.ptmAt n 0).setReg (R.TMU_PTM_T1.off n) (BitVec.ofNat 64 t1)).setReg (R.TMU_PTM_T4.off n) (BitVec.ofNat 64 s.now)
  let s3 := (s2.setReg (R.TMU_PTM_MASTER.off n) master).setFld (R.TMU_PTM_STAT.PROP_DELAY n) delay.toNat
  s3.setFld (R.TMU_PTM_STAT.SEQ n) (s3.fld (R.TMU_PTM_STAT.SEQ n) + 1)

theorem exec_ptmResponse {master : W64} {delay : BitVec 32} (hup : s.up = true) (hn : n < 32) (ht : smGet 0 s.tmu.ptm n ≠ 0) :
    exec (.ptmResponse n true master delay) s = .next (s.ptmDone n (smGet 0 s.tmu.ptm n - 1) master delay) :=
  congrArg Host.Outcome.next ((State.whenUp_of_up hup).trans (if_neg (by simp [hn, ht])))

theorem State.ptmDone_spec {t1 : Nat} {master : W64} {delay : BitVec 32} :
    (s.ptmDone n t1 master delay).reg (R.TMU_PTM_T1.off n) = BitVec.ofNat 64 t1 ∧
      (s.ptmDone n t1 master delay).reg (R.TMU_PTM_T4.off n) = BitVec.ofNat 64 s.now ∧
      (s.ptmDone n t1 master delay).reg (R.TMU_PTM_MASTER.off n) = master ∧
      (s.ptmDone n t1 master delay).fld (R.TMU_PTM_STAT.PROP_DELAY n) = delay.toNat ∧ smGet 0 (s.ptmDone n t1 master delay).tmu.ptm n = 0 ∧
      (s.ptmDone n t1 master delay).fld (R.TMU_PTM_STAT.SEQ n) = (s.fld (R.TMU_PTM_STAT.SEQ n) + 1) % 2 ^ (R.TMU_PTM_STAT.SEQ n).w := by
  unfold State.ptmDone
  extract_lets s2 s3
  have h3 : ∀ {off : Nat}, off ≠ R.TMU_PTM_STAT.off n → (s3.setFld (R.TMU_PTM_STAT.SEQ n) (s3.fld (R.TMU_PTM_STAT.SEQ n) + 1)).reg off =
      (s2.setReg (R.TMU_PTM_MASTER.off n) master).reg off := fun h => (State.reg_setFld_ne h).trans (State.reg_setFld_ne h)
  refine ⟨?_, ?_, ?_, ?_, State.ptm_ptmAt, ?_⟩
  · exact (h3 (timerOff_ne (by decide))).trans ((State.reg_setReg_ne (timerOff_ne (by decide))).trans
      ((State.reg_setReg_ne (timerOff_ne (by decide))).trans State.reg_setReg_self))
  · exact (h3 (timerOff_ne (by decide))).trans ((State.reg_setReg_ne (timerOff_ne (by decide))).trans State.reg_setReg_self)
  · exact (h3 (timerOff_ne (by decide))).trans State.reg_setReg_self
  · rw [State.fld_setFld_disj (show 0 + 32 ≤ 64 by decide) (.inl (show 0 + 32 ≤ 32 by decide)), State.fld_setFld_self (show 0 + 32 ≤ 64 by decide)]
    exact Nat.mod_eq_of_lt delay.isLt
  · rw [State.fld_setFld_self (show 32 + 16 ≤ 64 by decide)]
    have hseq : s3.fld (R.TMU_PTM_STAT.SEQ n) = s.fld (R.TMU_PTM_STAT.SEQ n) := by
      refine (State.fld_setFld_disj (show 32 + 16 ≤ 64 by decide) (.inr (show 0 + 32 ≤ 32 by decide))).trans ?_
      exact (State.fld_setReg_ne (timerOff_ne (by decide))).trans ((State.fld_setReg_ne (timerOff_ne (by decide))).trans (State.fld_setReg_ne (timerOff_ne (by decide))))
    rw [hseq]

/-! ### PPS pins (R407) -/

theorem exec_ppsFall (hup : s.up = true) (hk : k < 2) (hl : s.ppsLevel k = true) : exec (.ppsFall k) s = .next (s.setPps k false) :=
  congrArg Host.Outcome.next ((State.whenUp_of_up hup).trans (if_pos (by simp [hk, hl])))

theorem State.ppsLevel_setPps {on : Bool} : (s.setPps k on).ppsLevel k = on := by
  by_cases hk : k = 0 <;> simp [State.setPps, State.ppsLevel, State.emit, hk]

end

/-- Settles O57: the captures by the register they enter, the rest by the one branch that acts. -/
theorem timerCapturesAndSync : Obligations.TimerCapturesAndSync := by
  constructor
  · intro s who k back rising fall hup hk pol src value rise off
    refine ⟨fun hen hlive => ⟨fun hr => ?_, fun hr => ?_⟩, fun hen => ?_, fun ho => ?_⟩
    · refine ⟨_, exec_timerCapture hup hk hen hlive, ?_⟩
      have hpol : (rising == s.bit (R.TMR_CFG.POL k)) = false := beq_eq_false_iff_ne.mpr hr
      rw [hpol]
      exact State.roseTo_capture
    · refine ⟨_, exec_timerCapture hup hk hen hlive, ?_⟩
      have hpol : (rising == s.bit (R.TMR_CFG.POL k)) = true := beq_iff_eq.mpr hr
      rw [hpol]
      exact State.fellTo_capture
    · exact congrArg Host.Outcome.next ((State.whenUp_of_up hup).trans (if_pos (by simp [hen])))
    · exact ⟨_, exec_tmrCaptureRead hup hk ho, State.capRead_spec⟩
  · intro s who g n k t1 m master delay hup fifo
    refine ⟨fun hg hen hm => ⟨fun hroom => ?_, fun hfull => ?_⟩, fun _ hm => exec_ptpTimestamp_other hup hm, fun hg ho => ?_, fun hn hen hper hgate => ?_,
      fun hn hper => ?_, fun hn ht => ?_, fun hk hl => ?_, fun hk hl => ?_⟩
    · refine ⟨_, exec_ptpTimestamp hup hg hen hm, ?_⟩
      rw [if_neg (Nat.not_le_of_lt hroom)]
      exact ⟨State.ptpFifo_setPtp, rfl⟩
    · rw [exec_ptpTimestamp hup hg hen hm, if_pos hfull]
    · exact ⟨_, exec_ptpTimestampPop hup hg ho, State.ptpFifo_setPtp, rfl, rfl⟩
    · exact ⟨_, exec_ptmRequest hup hn hen hper hgate, State.ptm_ptmAt, rfl, rfl⟩
    · exact congrArg Host.Outcome.next ((State.whenUp_of_up hup).trans (if_pos (by simp [hper])))
    · have ht1 : smGet 0 s.tmu.ptm n - 1 = t1 := by omega
      exact ⟨_, exec_ptmResponse hup hn (by omega), ht1 ▸ State.ptmDone_spec⟩
    · exact ⟨_, exec_ppsFall hup hk hl, State.ppsLevel_setPps, rfl, rfl⟩
    · exact congrArg Host.Outcome.next ((State.whenUp_of_up hup).trans (if_neg (by simp [hl])))

end Sys2Proof.Machine
end

section
/-!
O54. Fuse burns: how FUSE_PROG judges a GO, and what a burn's end leaves burnt.
-/

namespace Sys2Proof.Machine

section

variable {s : State} {who : Agent} {data : W64} {f i n k c : Nat} {v : List W64}

/-! ### A GO (R383) -/

/-- FUSE_PROG with the field and index of a GO. -/
def State.burnNamed (s : State) (f i : Nat) : State := (s.setFld R.FUSE_PROG.FIELD f).setFld R.FUSE_PROG.INDEX i

/-- The fields that Thimble burns (Table 13-9). -/
def thimbleField (f : Nat) : Prop := f = 2 ∨ f = 3 ∨ f = 4 ∨ f = 6

/-- A requester and a time that a field admits, and a counter's target in range. -/
def State.burnEntitled (s : State) (who : Agent) (f : Nat) : Prop :=
  (thimbleField f → isThimble who = true) ∧ (¬ thimbleField f → s.bit R.SPOOL_STATUS.UNGATED = true) ∧ (f = 3 ∨ f = 4 → (s.pdataWord 0).toNat % 128 ≤ 64)

theorem State.burnJudge_burnNamed : (s.burnNamed f i).burnJudge who n k = s.burnJudge who n k := by
  have hbit : (s.burnNamed f i).bit R.SPOOL_STATUS.UNGATED = s.bit R.SPOOL_STATUS.UNGATED :=
    (State.bit_setFld_ne (by decide)).trans (State.bit_setFld_ne (by decide))
  unfold State.burnJudge
  rw [hbit]
  rfl

theorem field_cases (h : 1 ≤ f ∧ f ≤ 6) : f = 1 ∨ f = 2 ∨ f = 3 ∨ f = 4 ∨ f = 5 ∨ f = 6 := by
  omega

theorem State.burnJudge_entitled (hf : 1 ≤ f ∧ f ≤ 6) (h : s.burnEntitled who f) :
    s.burnJudge who f i = if s.burnClears f i then E.LOCKED else if !Config.vppOk s.freeCtr then E.POWER_STATE else 0 := by
  obtain ⟨hthimble, hother, hcount⟩ := h
  obtain rfl | rfl | rfl | rfl | rfl | rfl := field_cases hf <;> simp [thimbleField] at hthimble hother hcount <;>
    simp [State.burnJudge, hthimble, hother, hcount]

theorem State.burnJudge_not_thimble (hf : thimbleField f) (h : isThimble who = false) : s.burnJudge who f i = E.PRIVILEGE := by
  obtain rfl | rfl | rfl | rfl := hf <;> simp [State.burnJudge, h]

theorem State.burnJudge_gated (hf : 1 ≤ f ∧ f ≤ 6) (hn : ¬ thimbleField f) (h : s.bit R.SPOOL_STATUS.UNGATED = false) :
    s.burnJudge who f i = E.LOCKED := by
  obtain rfl | rfl | rfl | rfl | rfl | rfl := field_cases hf <;> simp [thimbleField] at hn <;> simp [State.burnJudge, h]

/-- The write that each of the six commands is. -/
theorem exec_fuseBurn {c : Instr} (hc : (c, f) ∈ [(Instr.fuseBurnKeyhash who data, 1), (.fuseBurnRevoke who data, 2), (.fuseBurnSvnT who data, 3),
    (.fuseBurnSvnP who data, 4), (.fuseBurnDebugPolicy who data, 5), (.fuseBurnFactoryKeyOff who data, 6)]) (hup : s.up = true)
    (ho : s.opens who R.FUSE_PROG.off) :
    exec c s = .next (s.fuseProgWrite who (setBits (setBits data 0 4 f) 6 1 1)) ∧ 1 ≤ f ∧ f ≤ 6 := by
  have hexec : exec c s = .next (s.fuseGo who data f) ∧ 1 ≤ f ∧ f ≤ 6 := by
    simp only [List.mem_cons, Prod.mk.injEq, List.not_mem_nil, or_false] at hc
    obtain ⟨rfl, rfl⟩ | ⟨rfl, rfl⟩ | ⟨rfl, rfl⟩ | ⟨rfl, rfl⟩ | ⟨rfl, rfl⟩ | ⟨rfl, rfl⟩ := hc <;> exact ⟨rfl, by decide⟩
  rwa [State.fuseGo, State.whenUp_of_up hup, State.regTry_of_opens ho] at hexec

/-- A burn under way. -/
def State.burning (s : State) (f i : Nat) : State :=
  let s2 := (s.burnNamed f i).drawn
  { (s2.setBit R.FUSE_PROG.GO).setBit R.FUSE_PROG.BUSY with spool := { s2.spool with burn := some (f, i, s2.burnWords) } }

/-- A GO on the open path is judged. -/
theorem State.fuseProgWrite_go (hk : s.bit R.SPOOL_STATUS.KEYS_OPEN = true) (hb : s.bit R.FUSE_PROG.BUSY = false) (hf : f ≤ 6) :
    s.fuseProgWrite who (setBits (setBits data 0 4 f) 6 1 1) =
      if s.burnJudge who f (data.toNat / 16 % 4) = 0 then s.burning f (data.toNat / 16 % 4)
      else (s.burnNamed f (data.toNat / 16 % 4)).drawn.setFld R.FUSE_PROG.STATUS (s.burnJudge who f (data.toNat / 16 % 4)) := by
  have hfield : getBits (setBits (setBits data 0 4 f) 6 1 1) 0 4 = f := by
    rw [getBits_setBits_disj (by decide) (by decide), getBits_setBits_self (by decide), Nat.mod_eq_of_lt (by omega)]
  have hidx : getBits (setBits (setBits data 0 4 f) 6 1 1) 4 2 = data.toNat / 16 % 4 := by
    rw [getBits_setBits_disj (by decide) (by decide), getBits_setBits_disj (by decide) (by decide), getBits_eq_div_mod]
    rfl
  unfold State.fuseProgWrite
  rw [if_neg (by simp [hk]), if_neg (by simp [hb])]
  dsimp only
  rw [hfield, hidx, if_neg (by simp [getBit_setBits_self])]
  change (if (s.burnNamed f _).burnJudge who f _ = 0 then _ else (s.burnNamed f _).drawn.setFld _ ((s.burnNamed f _).burnJudge who f _)) = _
  rw [State.burnJudge_burnNamed]
  rfl

theorem State.burning_spec (hf : f ≤ 6) (hi : i < 4) : (s.burning f i).spool.burn = some (f, i, s.burnWords) ∧ (s.burning f i).bit R.FUSE_PROG.BUSY = true ∧
    (s.burning f i).fld R.FUSE_PROG.FIELD = f ∧ (s.burning f i).fld R.FUSE_PROG.INDEX = i ∧ (s.burning f i).spool.fuse = s.spool.fuse := by
  have hregs : (s.burning f i).regs = (((s.burnNamed f i).drawn.setBit R.FUSE_PROG.GO).setBit R.FUSE_PROG.BUSY).regs := rfl
  have hgo : ∀ {g : Fld}, g.lo + g.w ≤ 6 → (s.burning f i).fld g = (s.burnNamed f i).fld g := by
    intro g h
    rw [State.fld_of_reg (State.reg_of_regs hregs), State.setBit, State.fld_setFld_disj (by omega) (.inl (Nat.le_succ_of_le h)), State.setBit,
      State.fld_setFld_disj (by omega) (.inl h)]
    rfl
  refine ⟨rfl, ?_, ?_, ?_, rfl⟩
  · rw [State.bit_of_fld (State.fld_of_reg (State.reg_of_regs hregs)), State.bit_setBit_self (by decide) (by decide)]
  · rw [hgo (by decide), State.burnNamed, State.fld_setFld_disj (by decide) (by decide), State.fld_setFld_self (by decide)]
    exact Nat.mod_eq_of_lt (show f < 16 by omega)
  · rw [hgo (by decide), State.burnNamed, State.fld_setFld_self (by decide)]
    exact Nat.mod_eq_of_lt hi

theorem State.burnRefused_spec (hb : s.bit R.FUSE_PROG.BUSY = false) (hc : c < 65536) :
    ((s.burnNamed f i).drawn.setFld R.FUSE_PROG.STATUS c).fld R.FUSE_PROG.STATUS = c ∧
      ((s.burnNamed f i).drawn.setFld R.FUSE_PROG.STATUS c).bit R.FUSE_PROG.BUSY = false ∧
      ((s.burnNamed f i).drawn.setFld R.FUSE_PROG.STATUS c).spool = s.spool := by
  refine ⟨?_, ?_, rfl⟩
  · rw [State.fld_setFld_self (by decide)]
    exact Nat.mod_eq_of_lt hc
  · have hnamed : (s.burnNamed f i).bit R.FUSE_PROG.BUSY = s.bit R.FUSE_PROG.BUSY := by
      rw [State.burnNamed, State.bit_setFld_disj (by decide) (by decide), State.bit_setFld_disj (by decide) (by decide)]
    rw [State.bit_setFld_disj (by decide) (by decide)]
    exact hnamed.trans hb

/-! ### A burn's end (Table 13-9) -/

/-- What a burn reaches of a counter is not below what it was. -/
theorem burnt_svnT {x : FuseState} {took : Bool} {d : Nat} : x.svnOfT ≤ (x.burnt n k v took d).svnOfT := by
  by_cases hn : n = 3
  · subst hn
    refine le_trans ?_ (Nat.le_max_right ..)
    simp only [FuseState.burnt]
    cases took <;> simp
  · refine le_of_eq ?_
    unfold FuseState.burnt
    dsimp only
    split_ifs <;> rfl

theorem burnt_svnP {x : FuseState} {took : Bool} {d : Nat} : x.svnOfP ≤ (x.burnt n k v took d).svnOfP := by
  by_cases hn : n = 4
  · subst hn
    refine le_trans ?_ (Nat.le_max_right ..)
    simp only [FuseState.burnt]
    cases took <;> simp
  · refine le_of_eq ?_
    unfold FuseState.burnt
    dsimp only
    split_ifs <;> rfl

theorem burnt_revoke {x : FuseState} {took : Bool} {d b : Nat} (h : x.revoke.testBit b = true) : (x.burnt n k v took d).revoke.testBit b = true := by
  by_cases hn : n = 2
  · subst hn
    simp [FuseState.burnt, h]
  · have hsame : (x.burnt n k v took d).revoke = x.revoke := by
      unfold FuseState.burnt
      dsimp only
      split_ifs <;> rfl
    rw [hsame, h]

theorem burnt_factoryOff {x : FuseState} {took : Bool} {d : Nat} (h : x.factoryOff = true) : (x.burnt n k v took d).factoryOff = true := by
  by_cases hn : n = 6
  · subst hn
    simp [FuseState.burnt, h]
  · have hsame : (x.burnt n k v took d).factoryOff = x.factoryOff := by
      unfold FuseState.burnt
      dsimp only
      split_ifs <;> rfl
    rw [hsame, h]

/-- The fuse path is free again, with the code of a burn's end. -/
def State.burnEnded (s : State) (took : Bool) : State :=
  (((s.clrBit R.FUSE_PROG.BUSY).clrBit R.FUSE_PROG.GO).setFld R.FUSE_PROG.STATUS (if took then 0 else E.BIST)).debugSync

/-- The cells after a burn's end. -/
def State.burnLanded (s : State) (n k : Nat) (v : List W64) (took : Bool) : State :=
  { s.drawn with spool := { s.spool with fuse := s.spool.fuse.burnt n k v took s.freeCtr, burn := none } }

theorem exec_fuseBurnComplete {took : Bool} (hup : s.up = true) (hb : s.spool.burn = some (n, k, v)) :
    exec (.fuseBurnComplete took) s = .next ((s.burnLanded n k v took).burnEnded took) := by
  refine congrArg Host.Outcome.next ((State.whenUp_of_up hup).trans ?_)
  rw [hb]
  rfl

theorem State.burnEnded_spec {took : Bool} : (s.burnEnded took).bit R.FUSE_PROG.BUSY = false ∧ (s.burnEnded took).bit R.FUSE_PROG.GO = false ∧
    (s.burnEnded took).fld R.FUSE_PROG.STATUS = (if took then 0 else E.BIST) := by
  have hsync : ∀ {t : State} {g : Fld}, g.off ≠ R.SEAM_DEBUG.off → t.debugSync.fld g = t.fld g := fun h =>
    (State.fld_setFld_ne h).trans (State.fld_setFld_ne h)
  refine ⟨?_, ?_, ?_⟩
  · rw [State.burnEnded, State.bit_of_fld (hsync (by decide)), State.bit_setFld_disj (by decide) (by decide), State.clrBit,
      State.bit_setFld_disj (by decide) (by decide), State.bit_clrBit_self (by decide)]
  · rw [State.burnEnded, State.bit_of_fld (hsync (by decide)), State.bit_setFld_disj (by decide) (by decide), State.bit_clrBit_self (by decide)]
  · rw [State.burnEnded, hsync (by decide), State.fld_setFld_self (by decide)]
    cases took <;> rfl

end

/-- Settles O54: the judgement by the field's kind; each field's burn keeps what stood. -/
theorem fuseBurns : Obligations.FuseBurns := by
  intro s who data i f hup ho hi idx isOpen thimble counter target entitled x refused
  obtain ⟨hexec, hf⟩ := exec_fuseBurn (f := f) hi hup ho
  have hidx : idx < 4 := Nat.mod_lt _ (by decide)
  have hgo : isOpen → exec i s = .next (if s.burnJudge who f idx = 0 then s.burning f idx
      else (s.burnNamed f idx).drawn.setFld R.FUSE_PROG.STATUS (s.burnJudge who f idx)) := fun ⟨hk, hb⟩ => by
    rw [hexec, State.fuseProgWrite_go hk hb hf.2]
  have hrefuse : ∀ {c : Nat}, isOpen → s.burnJudge who f idx = c → c ≠ 0 → c < 65536 → refused c := by
    intro c hopen hc h0 hlt
    refine ⟨_, hgo hopen, ?_⟩
    rw [if_neg (hc.trans_ne h0), hc]
    exact State.burnRefused_spec hopen.2 hlt
  refine ⟨fun hopen hent hclr hvpp => ?_, fun hopen hth hwho => ?_, fun hopen hth hun => ?_, fun hopen hent hclr => ?_, fun hopen hent hclr hvpp => ?_,
    fun hk => ?_, fun hk hb => ?_, fun n k v took hburn => ?_, fun hburn took => ?_⟩
  · refine ⟨_, hgo hopen, ?_⟩
    rw [if_pos (by rw [State.burnJudge_entitled hf hent, hclr, hvpp]; rfl)]
    exact State.burning_spec hf.2 hidx
  · exact hrefuse hopen (State.burnJudge_not_thimble hth hwho) (by decide) (by decide)
  · exact hrefuse hopen (State.burnJudge_gated hf hth hun) (by decide) (by decide)
  · exact hrefuse hopen (by rw [State.burnJudge_entitled hf hent, hclr]; rfl) (by decide) (by decide)
  · exact hrefuse hopen (by rw [State.burnJudge_entitled hf hent, hclr, hvpp]; rfl) (by decide) (by decide)
  · rw [hexec, State.fuseProgWrite, if_pos (by simp [hk])]
  · rw [hexec, State.fuseProgWrite, if_neg (by simp [hk]), if_pos hb]
  · obtain ⟨hbusy, hgo, hstat⟩ := State.burnEnded_spec (s := s.burnLanded n k v took) (took := took)
    refine ⟨_, exec_fuseBurnComplete hup hburn, rfl, hbusy, hgo, hstat, fun b => burnt_revoke, burnt_svnT, burnt_svnP, burnt_factoryOff, ?_, ?_⟩
    · rintro rfl rfl
      rfl
    · rintro rfl rfl
      rfl
  · refine congrArg Host.Outcome.next ((State.whenUp_of_up hup).trans ?_)
    rw [hburn]

end Sys2Proof.Machine
end

section
/-!
O55. Firmware: what a write of boot flash leaves there, the room that a configuration block takes, and the commands that write.
-/

namespace Sys2Proof.Machine

section

variable {s : State} {slot slot' off j k n : Nat} {b : List Byte}

/-! ### Boot flash (R368) -/

theorem State.flashWrite_shape (s : State) (slot off : Nat) (b : List Byte) : ∃ flash : SMap Byte,
    s.flashWrite slot off b = { s with spool := { s.spool with flash } } := by
  induction b generalizing s off with
  | nil => exact ⟨_, rfl⟩
  | cons x b ih =>
    obtain ⟨_, h⟩ := ih { s with spool := { s.spool with flash := smPut (Config.flashByte slot off) s.spool.flash (slot * 2 ^ 28 + off) x } } (off + 1)
    exact ⟨_, h⟩

theorem State.flashByte_put (x : Byte) :
    ({ s with spool := { s.spool with flash := smPut (Config.flashByte slot off) s.spool.flash (slot * 2 ^ 28 + off) x } } : State).flashByte slot off = x := by
  simp only [State.flashByte, smGet_put_self]

theorem State.flashByte_put_ne {x : Byte} (h : slot' * 2 ^ 28 + j ≠ slot * 2 ^ 28 + off) :
    ({ s with spool := { s.spool with flash := smPut (Config.flashByte slot off) s.spool.flash (slot * 2 ^ 28 + off) x } } : State).flashByte slot' j =
      s.flashByte slot' j := by
  simp only [State.flashByte, smGet_put_ne h]

/-- A write leaves the bytes at other places of the two devices. -/
theorem State.flashByte_flashWrite_ne (h : slot' * 2 ^ 28 + j < slot * 2 ^ 28 + off ∨ slot * 2 ^ 28 + off + b.length ≤ slot' * 2 ^ 28 + j) :
    (s.flashWrite slot off b).flashByte slot' j = s.flashByte slot' j := by
  induction b generalizing s off with
  | nil => rfl
  | cons x b ih =>
    rw [List.length_cons] at h
    rw [State.flashWrite, ih (by omega), State.flashByte_put_ne (by omega)]

theorem State.flashRead_succ : s.flashRead slot off (n + 1) = s.flashByte slot off :: s.flashRead slot (off + 1) n := by
  have hshift : (fun i => s.flashByte slot (off + i)) ∘ Nat.succ = fun i => s.flashByte slot (off + 1 + i) :=
    funext fun i => congrArg (s.flashByte slot) (show off + (i + 1) = off + 1 + i by omega)
  rw [State.flashRead, List.range_succ_eq_map, List.map_cons, List.map_map, hshift]
  rfl

/-- What was written is read. -/
theorem State.flashRead_flashWrite : (s.flashWrite slot off b).flashRead slot off b.length = b := by
  induction b generalizing s off with
  | nil => rfl
  | cons x b ih =>
    rw [List.length_cons, State.flashRead_succ, State.flashWrite, ih, State.flashByte_flashWrite_ne (by omega), State.flashByte_put]

theorem State.flashRead_flashWrite_ne
    (h : slot' * 2 ^ 28 + j + n ≤ slot * 2 ^ 28 + off ∨ slot * 2 ^ 28 + off + b.length ≤ slot' * 2 ^ 28 + j) :
    (s.flashWrite slot off b).flashRead slot' j n = s.flashRead slot' j n := by
  refine List.map_congr_left fun i hi => State.flashByte_flashWrite_ne ?_
  have := List.mem_range.mp hi
  omega

/-- Ranges of the two slots do not meet. -/
theorem slots_apart (hne : slot ≠ slot') (h : off + k ≤ 2 ^ 28) (h' : j + n ≤ 2 ^ 28) :
    slot' * 2 ^ 28 + j + n ≤ slot * 2 ^ 28 + off ∨ slot * 2 ^ 28 + off + k ≤ slot' * 2 ^ 28 + j := by
  omega

theorem flashCap_le : flashCap slot ≤ 2 ^ 27 := by
  unfold flashCap
  split
  next m _ =>
    split
    next hm =>
      simp only [Bool.and_eq_true, decide_eq_true_eq] at hm
      omega
    next => exact Nat.zero_le _
  next => exact Nat.zero_le _

theorem State.regs_flashWrite : (s.flashWrite slot off b).regs = s.regs := by
  obtain ⟨_, h⟩ := s.flashWrite_shape slot off b
  rw [h]

theorem State.regs_flashPut {ok : Bool} : (s.flashPut slot off b ok).regs = s.regs := by
  cases ok
  · exact State.regs_flashWrite
  · exact State.regs_flashWrite

/-! ### The room of a configuration block (R71, R318) -/

theorem length_leBytes {v : Nat} : (leBytes n v).length = n := by
  induction n generalizing v with
  | zero => rfl
  | succ n ih => rw [leBytes, List.length_cons, ih]

theorem length_flatMap_const {α β : Type} {f : α → List β} {m : Nat} (h : ∀ x, (f x).length = m) (l : List α) : (l.flatMap f).length = m * l.length := by
  induction l with
  | nil => rfl
  | cons x l ih => rw [List.flatMap_cons, List.length_append, h, ih, List.length_cons, Nat.mul_succ, Nat.add_comm]

theorem length_shaBlocks_le {w bs m : Nat} {p : ShaPar w} {ks v : List (BitVec w)} {l : List Byte} : (shaBlocks p ks bs m v l).length ≤ v.length := by
  induction m generalizing v l with
  | zero => exact le_rfl
  | succ m ih =>
    refine ih.trans ?_
    rw [shaBlock, List.length_map, List.length_zip]
    exact Nat.min_le_left ..

theorem length_sha256_le {l : List Byte} : (sha256 l).length ≤ 32 := by
  have hwords : ∀ {v : List W32}, (wordsBe 4 v).length = 4 * v.length := fun {v} =>
    length_flatMap_const (fun x => by rw [beBytes, List.length_reverse, length_leBytes]) v
  have hblocks := length_shaBlocks_le (bs := 64) (m := (shaPad 64 8 l.length l).length / 64) (p := sha256Par) (ks := sha256K) (v := sha256Iv)
    (l := shaPad 64 8 l.length l)
  have hiv : sha256Iv.length = 8 := rfl
  rw [sha256, hwords]
  omega

/-- The header, 16 bytes to an entry, CHECK and HMAC. -/
theorem length_cfgBytes_le {ents : List (Nat × W64)} : (cfgBytes ents).length ≤ 16 * ents.length + 52 := by
  have hents : (ents.flatMap fun e => leBytes 4 e.1 ++ zeros 4 ++ leBytes 8 e.2.toNat).length = 16 * ents.length :=
    length_flatMap_const (fun e => by simp only [List.length_append, length_leBytes, zeros, List.length_replicate]) ents
  unfold cfgBytes
  extract_lets h b c
  have hb : b.length = 16 + 16 * ents.length := by
    simp only [b, h, List.length_append, length_leBytes, zeros, List.length_replicate] at hents ⊢
    omega
  have hc : c.length = 20 + 16 * ents.length := by
    simp only [c, List.length_append, length_leBytes, hb]
    omega
  have hmac : (hmacSha256 configKey c).length ≤ 32 := length_sha256_le
  rw [List.length_append, hc]
  omega

/-- A configuration block fits between its place and the next slot. -/
theorem cfg_fits {ents : List (Nat × W64)} (h : ents.length ≤ 65000) : cfgBase slot + (cfgBytes ents).length ≤ 2 ^ 28 := by
  have hcap := flashCap_le (slot := slot)
  have hlen := length_cfgBytes_le (ents := ents)
  unfold cfgBase
  omega

/-! ### The commands (R384–R386) -/

variable {r : OnfReq} {data : List Byte} {ok : Bool} {ents : List (Nat × W64)}

/-- FW_WRITE_IMAGE on a range of the slot. -/
theorem exec_fwWriteImage (hadm : s.admits r 0x0601 = true) (hr : imgRange (s.taken r).otherSlot off data.length = true) (hne : data ≠ []) :
    exec (.fwWriteImage r off data ok) s = .next ((if off < 8192 then
      ((s.taken r).flashPut (s.taken r).otherSlot off data ok).flashWrite (s.taken r).otherSlot 0 (List.replicate 4 0xFF)
        else (s.taken r).flashPut (s.taken r).otherSlot off data ok).reply r 0x0601 (if ok then 0 else E.FLASH) []) :=
  congrArg Host.Outcome.next ((State.command_admits hadm).trans (if_neg (by simp [hr, hne])))

theorem exec_fwWriteConfig (hadm : s.admits r 0x0601 = true) (hne : ents ≠ []) (hlen : ents.length ≤ 65000) :
    exec (.fwWriteConfig r ents true) s = .next ((((s.taken r).flashWrite (s.taken r).otherSlot (cfgBase (s.taken r).otherSlot) (cfgBytes ents)).flashWrite
      (s.taken r).slot (cfgBase (s.taken r).slot) (cfgBytes ents)).reply r 0x0601 0 []) := by
  change execFwWriteConfig r ents true s = _
  rw [execFwWriteConfig, State.command_admits hadm]
  dsimp only
  rw [if_neg (by simp [hne, hlen]), if_pos rfl, State.flashPut, if_pos rfl]

theorem exec_fwActivateWithdraw (hadm : s.admits r 0x0602 = true) : exec (.fwActivateWithdraw r true) s =
    .next (((s.taken r).flashWrite (s.taken r).otherSlot 0 (List.replicate 8192 0xFF)).reply r 0x0602 0 []) := by
  change execFwActivateWithdraw r true s = _
  rw [execFwActivateWithdraw, State.command_admits hadm, State.flashPut, if_pos rfl, if_pos rfl]

/-- Slot 0's ceiling and the running slot's agree in the copy; the copy's boot record is gone. -/
theorem State.dataAreaCopy_spec : (s.otherSlot = 1 → s.dataAreaCopy.onf.ceil1 = (if s.slot = 0 then s.onf.ceil0 else s.onf.ceil1) ∧ s.dataAreaCopy.spool.rec1 = []) ∧
    (s.otherSlot = 0 → s.dataAreaCopy.onf.ceil0 = (if s.slot = 0 then s.onf.ceil0 else s.onf.ceil1) ∧ s.dataAreaCopy.spool.rec0 = []) := by
  unfold State.dataAreaCopy
  extract_lets k own keep c
  refine ⟨fun hk => ?_, fun hk => ?_⟩
  · have hk1 : k = 1 := hk
    exact ⟨congrArg OnfState.ceil1 (if_neg (by omega)), if_pos hk1⟩
  · have hk0 : k = 0 := hk
    exact ⟨congrArg OnfState.ceil0 (if_pos hk0), if_pos hk0⟩

end

/-- Settles O55: each command's branch, and what the flash then reads. -/
theorem firmwareUpdate : Obligations.FirmwareUpdate := by
  intro s r off slot data ents ok u k block w
  refine ⟨fun hadm => ⟨fun hr hne hoff => ?_, fun hr hne hoff => ?_, fun hr => ?_, fun hr hne => ?_, fun hne hlen => ?_⟩,
    fun hadm hcap => ⟨fun hc => ?_, fun hc => ?_, fun hc => ?_⟩, fun hadm => ?_, ?_,
    fun hadm hrec => ?_, fun hreset => ?_, fun hreset => ?_⟩
  · refine ⟨_, exec_fwWriteImage hadm hr hne, ?_⟩
    rw [if_neg (Nat.not_lt_of_le hoff)]
    refine ⟨State.flashRead_flashWrite, State.regs_flashWrite, fun hk => State.flashRead_flashWrite_ne (slots_apart hk ?_ ?_)⟩
    all_goals
      have hle := flashCap_le (slot := k)
      simp only [imgRange, Bool.and_eq_true, decide_eq_true_eq] at hr
      omega
  · refine ⟨_, exec_fwWriteImage hadm hr hne, ?_⟩
    rw [if_pos hoff]
    exact State.flashRead_flashWrite
  · exact congrArg Host.Outcome.next ((State.command_admits hadm).trans (if_pos (by simp [show imgRange u.otherSlot off data.length = false from hr, u])))
  · refine ⟨_, exec_fwWriteImage hadm hr hne, ?_⟩
    dsimp only
    split
    · exact State.regs_flashWrite.trans State.regs_flashPut
    · exact State.regs_flashPut
  · refine ⟨_, exec_fwWriteConfig hadm hne hlen, State.flashRead_flashWrite, fun hk => ?_⟩
    exact (State.flashRead_flashWrite_ne (slots_apart (Ne.symm hk) (cfg_fits hlen) (cfg_fits hlen))).trans State.flashRead_flashWrite
  · have hexec : exec (.fwActivateSlot r true) s = .next ((u.dataAreaCopy.flashWrite k 0 (leBytes 4 imgMagic)).reply r 0x0602 0 []) :=
      congrArg Host.Outcome.next ((State.command_admits hadm).trans ((if_neg hcap).trans ((if_neg (by simpa using hc)).trans (if_neg (by simp)))))
    have hread : (u.dataAreaCopy.flashWrite k 0 (leBytes 4 imgMagic)).flashRead k 0 4 = leBytes 4 imgMagic := State.flashRead_flashWrite
    refine ⟨_, hexec, hread, ?_⟩
    obtain ⟨_, hw⟩ := State.flashWrite_shape u.dataAreaCopy k 0 (leBytes 4 imgMagic)
    rw [hw]
    exact State.dataAreaCopy_spec
  · exact congrArg Host.Outcome.next ((State.command_admits hadm).trans ((if_neg hcap).trans ((if_neg (by simpa using hc)).trans (if_pos rfl))))
  · exact congrArg Host.Outcome.next ((State.command_admits hadm).trans ((if_neg hcap).trans (if_pos hc)))
  · have hread : (u.flashWrite k 0 (List.replicate 8192 0xFF)).flashRead k 0 (List.replicate 8192 (0xFF : Byte)).length = List.replicate 8192 0xFF :=
      State.flashRead_flashWrite
    rw [List.length_replicate] at hread
    exact ⟨_, exec_fwActivateWithdraw hadm, hread⟩
  · intro hadm hslot hcap hlen hrec c
    refine ⟨fun hc => ?_, fun hc => ?_, ?_⟩
    · refine ⟨{ w with spool := { w.spool with recReset := true } }, ?_, rfl, State.flashRead_flashWrite (s := u)⟩
      exact congrArg Host.Outcome.next ((State.command_admits hadm).trans ((if_neg (by simp [u, hrec, hslot])).trans
        ((if_neg hcap).trans ((if_neg (by omega)).trans ((if_neg (by simp)).trans (if_neg (by simpa using hc)))))))
    · exact congrArg Host.Outcome.next ((State.command_admits hadm).trans ((if_neg (by simp [u, hrec, hslot])).trans
        ((if_neg hcap).trans ((if_neg (by omega)).trans ((if_neg (by simp)).trans (if_pos hc))))))
    · refine ⟨u.flashPut slot off data false, ?_, ?_⟩
      · exact congrArg Host.Outcome.next ((State.command_admits hadm).trans ((if_neg (by simp [u, hrec, hslot])).trans
          ((if_neg hcap).trans ((if_neg (by omega)).trans (if_pos rfl)))))
      · obtain ⟨_, hw⟩ := State.flashWrite_shape u.drawn slot off (u.freeBytes data.length)
        change (u.drawn.flashWrite slot off (u.freeBytes data.length)).spool.recReset = _
        rw [hw]
        rfl
  · exact congrArg Host.Outcome.next ((State.command_admits hadm).trans (if_pos (by simp [u, hrec])))
  · exact congrArg Host.Outcome.next (if_pos hreset)
  · exact congrArg Host.Outcome.next (if_neg (by simp [hreset]))

end Sys2Proof.Machine
end

section
/-!
O53. The boot: Thimble's start and verdict, BIST and the watchdog, what a halt leaves, and SPOOL_CTL.
-/

namespace Sys2Proof.Machine

section

variable {s t u : State} {f g : Fld} {j k n v c e : Nat} {data : W64}

/-! ### Fields that do not meet -/

/-- A write of `f` does not reach `g`. -/
def Fld.apart (f g : Fld) : Bool := g.off != f.off || (decide (g.lo + g.w ≤ 64) && (decide (g.lo + g.w ≤ f.lo) || decide (f.lo + f.w ≤ g.lo)))

theorem State.fld_setFld_apart (h : f.apart g = true) : (s.setFld f v).fld g = s.fld g := by
  simp only [Fld.apart, Bool.or_eq_true, Bool.and_eq_true, bne_iff_ne, decide_eq_true_eq] at h
  obtain hne | ⟨h64, hd⟩ := h
  · exact State.fld_setFld_ne hne
  · exact State.fld_setFld_disj h64 hd

theorem State.bit_setFld_apart (h : f.apart g = true) : (s.setFld f v).bit g = s.bit g := State.bit_of_fld (State.fld_setFld_apart h)

theorem State.bit_setBit_apart (h : f.apart g = true) : (s.setBit f).bit g = s.bit g := State.bit_setFld_apart h

theorem State.slot_setFld (h : f.apart R.SPOOL_STATUS.SLOT = true) : (s.setFld f v).slot = s.slot := State.fld_setFld_apart h

/-! ### Thimble's start (R373) -/

/-- An engine as RUN leaves it. -/
def Engine.started (x : Engine) : Prop := x.st = .running ∧ x.pc = 0 ∧ x.w = [] ∧ x.ie = false

theorem State.started_thimbleLoad {body : List Byte} (h : e = n ∨ (s.eng e).started) : ((s.thimbleLoad body n).eng e).started := by
  by_cases hen : e = n
  · subst hen
    rw [State.thimbleLoad, State.engRun, State.eng_setEng_self]
    exact ⟨rfl, rfl, rfl, rfl⟩
  · rw [State.thimbleLoad, State.engRun, State.eng_setEng_ne hen]
    change ((s.setEng n _).eng e).started
    rw [State.eng_setEng_ne hen]
    exact h.resolve_left hen

theorem State.started_foldl {body : List Byte} {l : List Nat} (h : e ∈ l ∨ (s.eng e).started) :
    ((l.foldl (fun (s : State) e => s.thimbleLoad body e) s).eng e).started := by
  induction l generalizing s with
  | nil => exact h.resolve_left List.not_mem_nil
  | cons n l ih =>
    refine ih ?_
    rw [List.mem_cons, or_assoc] at h
    obtain h | h | h := h
    · exact .inr (State.started_thimbleLoad (.inl h))
    · exact .inl h
    · exact .inr (State.started_thimbleLoad (.inr h))

/-- The body that lands, and the engines that run it. -/
def State.thimbleRuns (s : State) : State :=
  let body := s.imgBody s.slot 1 (s.imgHdr s.slot 1)
  thimbleEngs.foldl (fun (s : State) e => s.thimbleLoad body e) ((s.memClear liningSram liningSramLen).devWrite liningSram ((body.drop 8192).take liningSramLen))

/-- The first 4 KiB of the body has started the engines. -/
def State.thimbleUp (s : State) : State := ({ s with spool := { s.spool with loaded := true } } : State).bootCode 5

theorem State.thimbleUp_spec : s.thimbleUp.fld R.TOP_STATUS.BOOT_CODE = 5 ∧ s.thimbleUp.spool.loaded = true ∧ ∀ e, s.thimbleUp.eng e = s.eng e :=
  ⟨State.fld_setFld_self (by decide), rfl, fun _ => rfl⟩

theorem exec_thimbleStart (hp : s.sys.phase = .starting) (hc : s.fld R.TOP_STATUS.BOOT_CODE = 4) :
    exec .thimbleStart s = .next s.thimbleRuns.thimbleUp := by
  change execThimbleStart s = _
  rw [execThimbleStart, if_pos (by simp [hp, hc])]
  extract_lets +onlyGivenNames body s1 s2
  rw [show s.thimbleRuns = s2 from rfl, State.thimbleUp]

theorem completes_thimbleStart (hp : s.sys.phase = .starting) (hc : s.fld R.TOP_STATUS.BOOT_CODE = 4) :
    Completes .thimbleStart s fun t => t.fld R.TOP_STATUS.BOOT_CODE = 5 ∧ t.spool.loaded = true ∧
      ∀ e, e = 6 ∨ e = 14 ∨ e = 22 ∨ e = 30 → (t.eng e).started := by
  obtain ⟨hcode, hloaded, heng⟩ := State.thimbleUp_spec (s := s.thimbleRuns)
  refine ⟨_, exec_thimbleStart hp hc, hcode, hloaded, fun e he => ?_⟩
  rw [heng, State.thimbleRuns]
  exact State.started_foldl (.inl (by simpa [thimbleEngs] using he))

/-! ### Thimble's verdict (R374) -/

/-- The keys open, and those of the slot are loaded. -/
def State.verdictOk (s : State) : State :=
  (((s.setBit R.SPOOL_STATUS.KEYS_OPEN).setFld R.SPOOL_TIME.VERDICT_US s.bootUs).bootCode 6).loadKeys s.slot s.onf.floor

theorem State.slot_verdictOk : s.verdictOk.slot = s.slot :=
  (State.slot_setFld (f := R.TOP_STATUS.BOOT_CODE) (by decide)).trans ((State.slot_setFld (by decide)).trans (State.slot_setFld (by decide)))

theorem exec_thimbleBodyVerdict (hp : s.sys.phase = .starting) (hc : s.fld R.TOP_STATUS.BOOT_CODE = 5) :
    exec .thimbleBodyVerdict s = .next (if !s.bodyOk s.slot 1 (s.imgHdr s.slot 1) then s.excludeSlot (some 0x33)
      else if !s.verdictOk.imgOk s.slot 3 then s.verdictOk.excludeSlot (some 0x36)
      else (({ s.verdictOk with spool := { s.verdictOk.spool with ucode := true } } : State).bootCode 7).bootGoOn) := by
  have hslot : (((s.setBit R.SPOOL_STATUS.KEYS_OPEN).setFld R.SPOOL_TIME.VERDICT_US s.bootUs).bootCode 6).slot = s.slot := State.slot_verdictOk
  change execThimbleBodyVerdict s = _
  rw [execThimbleBodyVerdict, if_pos (by simp [hp, hc])]
  dsimp only
  rw [hslot]
  change Host.Outcome.next (if _ then _ else if (!s.verdictOk.imgOk s.verdictOk.slot 3) = true then _ else _) = _
  rw [State.slot_verdictOk]
  rfl

/-- The state from which Thimble goes on. -/
def State.verdictUcode (s : State) : State := ({ s.verdictOk with spool := { s.verdictOk.spool with ucode := true } } : State).bootCode 7

theorem State.keysOpen_verdictUcode : s.verdictUcode.bit R.SPOOL_STATUS.KEYS_OPEN = true := by
  rw [State.verdictUcode, State.bootCode, State.bit_setFld_apart (by decide)]
  change ((((s.setBit R.SPOOL_STATUS.KEYS_OPEN).setFld R.SPOOL_TIME.VERDICT_US s.bootUs).bootCode 6)).bit R.SPOOL_STATUS.KEYS_OPEN = true
  rw [State.bootCode, State.bit_setFld_apart (by decide), State.bit_setFld_apart (by decide), State.bit_setBit_self (by decide) (by decide)]

theorem State.ddrDone_verdictUcode : s.verdictUcode.bit R.SPOOL_STATUS.DDR_DONE = s.bit R.SPOOL_STATUS.DDR_DONE := by
  rw [State.verdictUcode, State.bootCode, State.bit_setFld_apart (by decide)]
  change ((((s.setBit R.SPOOL_STATUS.KEYS_OPEN).setFld R.SPOOL_TIME.VERDICT_US s.bootUs).bootCode 6)).bit R.SPOOL_STATUS.DDR_DONE = _
  rw [State.bootCode, State.bit_setFld_apart (by decide), State.bit_setFld_apart (by decide), State.bit_setBit_apart (by decide)]

theorem State.bootGoOn_waits (hp : s.sys.phase = .starting) (hk : s.bit R.SPOOL_STATUS.KEYS_OPEN = true) (hu : s.spool.ucode = true) (hi : s.spool.images = false)
    (hd : s.bit R.SPOOL_STATUS.DDR_DONE = false) : s.bootGoOn = s.bootCode 8 :=
  (if_pos (by simp [hp, hk, hu, hi])).trans (if_neg (by simp [hd]))

theorem State.bootGoOn_runs (hp : s.sys.phase = .starting) (hk : s.bit R.SPOOL_STATUS.KEYS_OPEN = true) (hu : s.spool.ucode = true) (hi : s.spool.images = false)
    (hd : s.bit R.SPOOL_STATUS.DDR_DONE = true) (hb : s.bit R.SPOOL_STATUS.BIST_DONE = true) : s.bootGoOn = s.runImages :=
  (if_pos (by simp [hp, hk, hu, hi])).trans (if_pos (by simp [hd, hb]))

theorem completes_verdict (hp : s.sys.phase = .starting) (hc : s.fld R.TOP_STATUS.BOOT_CODE = 5) (hbody : s.bodyOk s.slot 1 (s.imgHdr s.slot 1) = true)
    (himg : s.verdictOk.imgOk s.slot 3 = true) (hd : s.bit R.SPOOL_STATUS.DDR_DONE = false) (hi : s.spool.images = false) :
    Completes .thimbleBodyVerdict s fun t => t.bit R.SPOOL_STATUS.KEYS_OPEN = true ∧ t.fld R.TOP_STATUS.BOOT_CODE = 8 ∧ t.spool.ucode = true ∧
      t.onf = s.verdictOk.onf ∧ t.mem = s.mem := by
  refine ⟨_, exec_thimbleBodyVerdict hp hc, ?_⟩
  have hgo : s.verdictUcode.bootGoOn = s.verdictUcode.bootCode 8 :=
    State.bootGoOn_waits hp State.keysOpen_verdictUcode rfl hi (State.ddrDone_verdictUcode.trans hd)
  rw [if_neg (by simp [hbody]), if_neg (by simp [himg])]
  change State.bit s.verdictUcode.bootGoOn _ = true ∧ State.fld s.verdictUcode.bootGoOn _ = 8 ∧ s.verdictUcode.bootGoOn.spool.ucode = true ∧
    s.verdictUcode.bootGoOn.onf = _ ∧ s.verdictUcode.bootGoOn.mem = _
  rw [hgo]
  refine ⟨?_, State.fld_setFld_self (by decide), rfl, rfl, rfl⟩
  rw [State.bootCode, State.bit_setFld_apart (by decide), State.keysOpen_verdictUcode]

/-! ### BIST (R379) -/

theorem exec_bistComplete {fails : Bool} (hp : s.sys.phase = .starting) (hb : s.bit R.SPOOL_STATUS.BIST_DONE = false) :
    exec (.bistComplete fails) s = .next (if fails then s.bootHalt 0x23 else (s.setBit R.SPOOL_STATUS.BIST_DONE).bootGoOn) :=
  congrArg Host.Outcome.next (if_pos (by simp [hp, hb]))

theorem State.bistDone_runs (hp : s.sys.phase = .starting) (hk : s.bit R.SPOOL_STATUS.KEYS_OPEN = true) (hu : s.spool.ucode = true) (hi : s.spool.images = false)
    (hd : s.bit R.SPOOL_STATUS.DDR_DONE = true) : (s.setBit R.SPOOL_STATUS.BIST_DONE).bootGoOn = (s.setBit R.SPOOL_STATUS.BIST_DONE).runImages :=
  State.bootGoOn_runs hp ((State.bit_setBit_apart (by decide)).trans hk) hu hi ((State.bit_setBit_apart (by decide)).trans hd)
    (State.bit_setBit_self (by decide) (by decide))

theorem State.bistDone_waits (hk : s.bit R.SPOOL_STATUS.KEYS_OPEN = false) :
    (s.setBit R.SPOOL_STATUS.BIST_DONE).bootGoOn = s.setBit R.SPOOL_STATUS.BIST_DONE :=
  State.bootGoOn_of_keys ((State.bit_setBit_apart (by decide)).trans hk)

/-! ### A halt (R381) -/

/-- The registers that a halt writes: BOOT_CODE, and RECOVERY for the codes that open it. -/
theorem State.regs_bootHalt_cases : (s.bootHalt c).regs = (s.setFld R.TOP_STATUS.BOOT_CODE c).regs ∨
    (s.bootHalt c).regs = ((s.setFld R.TOP_STATUS.BOOT_CODE c).setBit R.SPOOL_STATUS.RECOVERY).regs := by
  unfold State.bootHalt
  dsimp only
  split
  · exact .inr rfl
  · exact .inl rfl

theorem State.fld_bootHalt_apart (h : R.TOP_STATUS.BOOT_CODE.apart g = true) (h' : R.SPOOL_STATUS.RECOVERY.apart g = true) : (s.bootHalt c).fld g = s.fld g := by
  obtain hr | hr := State.regs_bootHalt_cases (s := s) (c := c)
  · rw [State.fld_of_reg (State.reg_of_regs hr), State.fld_setFld_apart h]
  · rw [State.fld_of_reg (State.reg_of_regs hr), State.setBit, State.fld_setFld_apart h', State.fld_setFld_apart h]

theorem State.bootCode_bootHalt : (s.bootHalt c).fld R.TOP_STATUS.BOOT_CODE = c % 64 := by
  obtain hr | hr := State.regs_bootHalt_cases (s := s) (c := c)
  · rw [State.fld_of_reg (State.reg_of_regs hr), State.fld_setFld_self (by decide)]
    rfl
  · rw [State.fld_of_reg (State.reg_of_regs hr), State.setBit, State.fld_setFld_apart (by decide), State.fld_setFld_self (by decide)]
    rfl

theorem State.recovering_bootHalt (h : c = 0x27 ∨ c = 0x2E) : (s.bootHalt c).recovering = true := by
  unfold State.bootHalt
  dsimp only
  rw [if_pos (by simpa using h)]
  exact State.bit_setBit_self (s := { (s.enginesStop.hartsStop.bootCode c) with sys := _ }) (by decide) (by decide)

theorem State.stopped_bootHalt : ∀ e ∈ (s.bootHalt c).engs, e.2.st = .stopped := by
  obtain ⟨_, _, h, -⟩ := s.bootHalt_shape c
  rw [h]
  intro e he
  obtain ⟨x, -, rfl⟩ := List.mem_map.mp he
  rfl

/-! ### A slot excluded (R372, R378) -/

/-- What stands of an excluded slot `k` and of the device locked again, whichever slot is then chosen. -/
def State.Excluded (k n : Nat) (t : State) : Prop :=
  t.bit (R.SPOOL_SLOTSTAT.EXCLUDED k) = true ∧ t.bit R.SPOOL_STATUS.KEYS_OPEN = false ∧ t.engs = [] ∧ t.shut.keys = [] ∧ t.fld R.SPOOL_STATUS.RETRIES = n

namespace State.Excluded

theorem setFld (h : State.Excluded k n t) (hx : f.apart (R.SPOOL_SLOTSTAT.EXCLUDED k) = true) (hk : f.apart R.SPOOL_STATUS.KEYS_OPEN = true)
    (hr : f.apart R.SPOOL_STATUS.RETRIES = true) : State.Excluded k n (t.setFld f v) := by
  obtain ⟨h1, h2, h3, h4, h5⟩ := h
  exact ⟨(State.bit_setFld_apart hx).trans h1, (State.bit_setFld_apart hk).trans h2, h3, h4, (State.fld_setFld_apart hr).trans h5⟩

theorem apart_slotstat (h : f.off < 0x400008) : f.apart (R.SPOOL_SLOTSTAT.EXCLUDED k) = true := by
  have hne : R.SPOOL_SLOTSTAT.off k ≠ f.off := by
    unfold R.SPOOL_SLOTSTAT.off
    omega
  rw [Fld.apart, Bool.or_eq_true]
  exact .inl (bne_iff_ne.mpr hne)

theorem judge_setFld (h : State.Excluded k n t) (hjk : j ≠ k) (hf : f.off = R.SPOOL_SLOTSTAT.off j) : State.Excluded k n (t.setFld f v) := by
  have hapart : ∀ {g : Fld}, g.off ≠ f.off → f.apart g = true := fun hg => by
    rw [Fld.apart, Bool.or_eq_true]
    exact .inl (bne_iff_ne.mpr hg)
  refine h.setFld (hapart ?_) (hapart ?_) (hapart ?_) <;> rw [hf]
  · change 0x400008 + 8 * k ≠ 0x400008 + 8 * j
    omega
  · change 0x400000 ≠ 0x400008 + 8 * j
    omega
  · change 0x400000 ≠ 0x400008 + 8 * j
    omega

/-- The slot's own line is kept; the other's may be written. -/
theorem judgeSlot (h : State.Excluded k n t) : State.Excluded k n (t.judgeSlot j) := by
  unfold State.judgeSlot
  split
  next => exact h
  next hx =>
    have hjk : j ≠ k := fun e => hx (e ▸ h.1)
    split
    · exact (h.judge_setFld hjk rfl).judge_setFld hjk rfl
    · exact ((((h.judge_setFld hjk rfl).judge_setFld hjk rfl).judge_setFld hjk rfl).judge_setFld hjk rfl).judge_setFld hjk rfl

theorem bootHalt (h : State.Excluded k n t) : State.Excluded k n (t.bootHalt c) := by
  obtain ⟨h1, h2, h3, h4, h5⟩ := h
  have hx : (t.bootHalt c).bit (R.SPOOL_SLOTSTAT.EXCLUDED k) = t.bit (R.SPOOL_SLOTSTAT.EXCLUDED k) :=
    State.bit_of_fld (State.fld_bootHalt_apart (apart_slotstat (by decide)) (apart_slotstat (by decide)))
  have hk : (t.bootHalt c).bit R.SPOOL_STATUS.KEYS_OPEN = t.bit R.SPOOL_STATUS.KEYS_OPEN :=
    State.bit_of_fld (State.fld_bootHalt_apart (by decide) (by decide))
  have hr : (t.bootHalt c).fld R.SPOOL_STATUS.RETRIES = t.fld R.SPOOL_STATUS.RETRIES := State.fld_bootHalt_apart (by decide) (by decide)
  refine ⟨hx.trans h1, hk.trans h2, ?_, ?_, hr.trans h5⟩
  · obtain ⟨_, _, he, -⟩ := t.bootHalt_shape c
    rw [he, State.enginesStop, h3]
    rfl
  · obtain ⟨_, _, he, -⟩ := t.bootHalt_shape c
    rw [he]
    exact h4

theorem slotChoice (h : State.Excluded k n t) : State.Excluded k n t.slotChoice := by
  unfold State.slotChoice
  extract_lets sp t0 t1
  have h0 : State.Excluded k n t0 := h
  have h1 : State.Excluded k n t1 := h0.judgeSlot.judgeSlot
  split
  · exact h0.bootHalt
  split
  · exact h0.bootHalt
  split
  · exact (((h1.setFld (apart_slotstat (by decide)) (by decide) (by decide)).setFld (apart_slotstat (by decide)) (by decide) (by decide)).setFld
      (apart_slotstat (by decide)) (by decide) (by decide)).setFld (f := R.TOP_STATUS.BOOT_CODE) (apart_slotstat (by decide)) (by decide) (by decide)
  · exact h1.bootHalt

end State.Excluded

theorem State.regs_wipe : s.wipe.zeroKeys.regs = s.regs := rfl

theorem State.excluded_excludeSlot : State.Excluded s.slot (min (s.fld R.SPOOL_STATUS.RETRIES + 1) (2 ^ R.SPOOL_STATUS.RETRIES.w - 1)) (s.excludeSlot none) := by
  have hne : R.SPOOL_STATUS.off ≠ (R.SPOOL_SLOTSTAT.EXCLUDED s.slot).off := by
    change 0x400000 ≠ 0x400008 + 8 * s.slot
    omega
  refine State.Excluded.slotChoice ⟨?_, ?_, rfl, rfl, ?_⟩
  · rw [State.bump, State.bit_setFld_apart (State.Excluded.apart_slotstat (by decide)), State.clrBit,
      State.bit_setFld_apart (State.Excluded.apart_slotstat (by decide))]
    rw [State.bit_of_fld (State.fld_of_reg (State.reg_of_regs State.regs_wipe)), State.bit_setBit_self (show 6 + 1 ≤ 64 by decide) (show 0 < 1 by decide)]
  · rw [State.bump, State.bit_setFld_apart (by decide), State.bit_clrBit_self (by decide)]
  · rw [State.fld_bump_self (by decide), State.clrBit, State.fld_setFld_apart (by decide), State.fld_of_reg (State.reg_of_regs State.regs_wipe), State.setBit,
      State.fld_setFld_ne hne]

/-! ### SPOOL_CTL (R375, R378, R381) -/

/-- A code that FAIL can name. -/
def failNames (c : Nat) : Prop := 0x20 ≤ c ∧ c ≤ 0x29 ∨ c = 0x2E

theorem failCode_iff : failCode c = true ↔ failNames c := by
  simp [failCode, failNames]

theorem State.spoolWrite_thimble (he : e % 8 = 6) : s.spoolWrite (.bobbin e) data =
    if failCode (data.toNat / 256 % 64) then s.bootHalt (data.toNat / 256 % 64)
    else if data.getLsbD 1 && s.sys.phase = .starting && !s.bit R.SPOOL_STATUS.UNGATED then s.excludeSlot none
    else if data.getLsbD 0 && s.sys.phase = .starting && s.bit R.SPOOL_STATUS.KEYS_OPEN then s.ungate
    else s := by
  have hfail : getBits data 8 6 = data.toNat / 256 % 64 := getBits_eq_div_mod data 8 6
  have hthimble : ¬ (e % 8 != 6) = true := by simp [he]
  rw [State.spoolWrite, if_neg hthimble, hfail]
  rfl

theorem State.portsTrain_shape (s : State) : ∃ out : List OutEvent, s.portsTrain = { s with out } := by
  unfold State.portsTrain
  generalize List.range 32 = l
  induction l generalizing s with
  | nil => exact ⟨_, rfl⟩
  | cons n l ih =>
    rw [List.foldl_cons]
    split
    · obtain ⟨_, h⟩ := ih (s.emit (.portTrain n))
      exact ⟨_, h⟩
    · exact ih s

/-- The registers of an ungated device. -/
def State.ungateRegs (s : State) : State :=
  (((s.setBit R.SPOOL_STATUS.UNGATED).setFld R.SPOOL_TIME.UNGATE_US s.bootUs).bootCode 0x3F).setFld R.TOP_STATUS.BOOT_DONE 1

/-- An ungated device but for its ports. -/
def State.ungated (s : State) : State :=
  { s.ungateRegs with
    sys := { s.ungateRegs.sys with phase := .running, gated := s.role == 3, aliveOut := !(s.role == 3) }
    spool := if s.ungateRegs.slot = 0 then { s.ungateRegs.spool with rec0 := sha384 (s.imgHdr s.slot 1) }
      else { s.ungateRegs.spool with rec1 := sha384 (s.imgHdr s.slot 1) } }

theorem State.ungate_shape : ∃ out : List OutEvent, s.ungate = { s.ungated with out } := by
  have hungate : s.ungate = if s.role == 3 then s.ungated else s.ungated.portsTrain := rfl
  rw [hungate]
  split
  · exact ⟨_, rfl⟩
  · exact State.portsTrain_shape _

theorem State.slot_ungateRegs : s.ungateRegs.slot = s.slot :=
  (State.slot_setFld (by decide)).trans ((State.slot_setFld (f := R.TOP_STATUS.BOOT_CODE) (by decide)).trans
    ((State.slot_setFld (by decide)).trans (State.slot_setFld (by decide))))

theorem State.ungate_spec : s.ungate.sys.phase = .running ∧ s.ungate.bit R.SPOOL_STATUS.UNGATED = true ∧ s.ungate.fld R.TOP_STATUS.BOOT_CODE = 0x3F ∧
    s.ungate.fld R.TOP_STATUS.BOOT_DONE = 1 ∧ s.ungate.sys.gated = (s.role == 3) ∧ s.ungate.sys.aliveOut = (s.role != 3) ∧
    (s.slot = 0 → s.ungate.spool.rec0 = sha384 (s.imgHdr s.slot 1)) ∧ (s.slot = 1 → s.ungate.spool.rec1 = sha384 (s.imgHdr s.slot 1)) ∧
    s.ungate.mem = s.mem := by
  have hu : s.ungateRegs.bit R.SPOOL_STATUS.UNGATED = true := by
    rw [State.ungateRegs, State.bit_setFld_apart (by decide), State.bootCode, State.bit_setFld_apart (by decide), State.bit_setFld_apart (by decide),
      State.bit_setBit_self (by decide) (by decide)]
  have hc : s.ungateRegs.fld R.TOP_STATUS.BOOT_CODE = 0x3F := by
    rw [State.ungateRegs, State.fld_setFld_apart (by decide), State.bootCode, State.fld_setFld_self (by decide)]
    rfl
  have hd : s.ungateRegs.fld R.TOP_STATUS.BOOT_DONE = 1 := by
    rw [State.ungateRegs, State.fld_setFld_self (by decide)]
    rfl
  obtain ⟨_, hungate⟩ := s.ungate_shape
  rw [hungate]
  refine ⟨rfl, hu, hc, hd, rfl, rfl, fun h0 => ?_, fun h1 => ?_, rfl⟩
  · exact congrArg SpoolState.rec0 (if_pos (State.slot_ungateRegs.trans h0))
  · exact congrArg SpoolState.rec1 (if_neg (State.slot_ungateRegs.trans_ne (h1.trans_ne Nat.one_ne_zero)))

end

/-- Settles O53: each event of the boot by its branch; the fields of a halt and of an excluded slot that later writes do not reach. -/
theorem bootAndSpoolControl : Obligations.BootAndSpoolControl := by
  constructor
  · intro s code begun v
    refine ⟨fun hp hc => completes_thimbleStart hp hc, fun hp hc => ⟨fun hb => ?_, fun hb hi => ?_, fun hb hi hd him => completes_verdict hp hc hb hi hd him⟩,
      fun hp hb => ⟨exec_bistComplete hp hb, fun hk => ?_, fun hk hu hi hd => ?_⟩, fun hp hu => congrArg Host.Outcome.next (if_pos (by simp [hu, show s.sys.phase = .starting from hp])),
      fun hu => congrArg Host.Outcome.next (if_neg (by simp [hu])), fun hlt => ?_⟩
    · rw [exec_thimbleBodyVerdict hp hc, if_pos (by simp [hb])]
    · rw [exec_thimbleBodyVerdict hp hc, if_neg (by simp [hb]), if_pos (by simp [show s.verdictOk.imgOk s.slot 3 = false from hi])]
      rfl
    · rw [exec_bistComplete hp hb, if_neg Bool.false_ne_true, State.bistDone_waits hk]
    · rw [exec_bistComplete hp hb, if_neg Bool.false_ne_true, State.bistDone_runs hp hk hu hi hd]
    · obtain ⟨_, _, hhalt, -⟩ := s.bootHalt_shape code
      refine ⟨State.phase_bootHalt, ?_, ?_, State.bootCode_bootHalt.trans (Nat.mod_eq_of_lt hlt), ?_, State.stopped_bootHalt, State.recovering_bootHalt⟩
      all_goals rw [hhalt]
  · intro s e data hup _ he ho begun fail fails header
    have hwrite : s.whenUp (fun s => s.regTry (.bobbin e) .write R.SPOOL_CTL.off fun s => s.spoolWrite (.bobbin e) data) = s.spoolWrite (.bobbin e) data :=
      (State.whenUp_of_up hup).trans (State.regTry_of_opens ho)
    refine ⟨fun hf => congrArg Host.Outcome.next (hwrite.trans ?_), fun hf hp h1 hu => congrArg Host.Outcome.next (hwrite.trans ?_), fun hf hp h1 h0 hk => ?_, ?_⟩
    · rw [State.spoolWrite_thimble he, if_pos (failCode_iff.mpr hf)]
    · rw [State.spoolWrite_thimble he, if_neg (failCode_iff.not.mpr hf), if_pos (by simp [h1, hu, show s.sys.phase = .starting from hp])]
    · refine ⟨s.ungate, congrArg Host.Outcome.next (hwrite.trans ?_), State.ungate_spec⟩
      rw [State.spoolWrite_thimble he, if_neg (failCode_iff.not.mpr hf), if_neg (by rw [h1]; simp), if_pos (by simp [h0, hk, show s.sys.phase = .starting from hp])]
    · exact State.excluded_excludeSlot

end Sys2Proof.Machine
end

section
/-!
O52. Power units: entries, points of no return, wakes, Hold and scan reads.
-/

namespace Sys2Proof.Machine

section

variable {s : State} {u t h k m p : Nat} {sh l deep : Bool} {x : UnitSt} {hs : List Nat}

/-! ### What the shared operations change -/

theorem State.unit_setUnit_ne {y : UnitSt} (hne : k ≠ u) : (s.setUnit u y).unit k = s.unit k := smGet_put_ne hne

theorem State.unit_pwrEvt {f : Fld} : (s.pwrEvt f).unit u = s.unit u := by
  simp only [State.unit, State.pwrEvt, State.event_pow]
  rfl

theorem State.hart_pwrEvt {f : Fld} : (s.pwrEvt f).hart h = s.hart h := by
  simp only [State.hart, State.pwrEvt, State.event_harts]
  rfl

theorem State.bit_pwrEvt_self {f : Fld} (hf : f.lo + f.w ≤ 64) (hw : 0 < f.w) : (s.pwrEvt f).bit f = true := by
  rw [State.pwrEvt, State.bit_of_fld (State.fld_of_reg (State.reg_of_regs (State.event_regs _ _))), State.bit_setBit_self hf hw]

/-- Each hart of the list has lost its caches, once or again. -/
theorem State.hart_cachesLost : (s.cachesLost hs).hart h = if h ∈ hs then (s.hart h).cacheLost else s.hart h := by
  induction hs generalizing s with
  | nil => rfl
  | cons k hs ih =>
    have hstep : s.cachesLost (k :: hs) = (s.setHart k (s.hart k).cacheLost).cachesLost hs := rfl
    rw [hstep, ih]
    by_cases hk : h = k
    · subst hk
      rw [State.hart_setHart_self, if_pos List.mem_cons_self]
      exact ite_self _
    · rw [State.hart_setHart_ne hk]
      simp [hk]

theorem State.cachesLost_shape (s : State) (hs : List Nat) : ∃ harts, s.cachesLost hs = { s with harts } := by
  induction hs generalizing s with
  | nil => exact ⟨_, rfl⟩
  | cons h hs ih =>
    obtain ⟨_, he⟩ := ih (s.setHart h (s.hart h).cacheLost)
    exact ⟨_, he⟩

/-- No hart of the list still waits for its request. -/
theorem State.preqPending_hartsDrop {refused : Bool} (hh : h ∈ hs ∨ (s.hart h).preqPending = false) : ((s.hartsDrop refused hs).hart h).preqPending = false := by
  induction hs generalizing s with
  | nil => exact hh.resolve_left List.not_mem_nil
  | cons k hs ih =>
    refine ih ?_
    by_cases hk : h = k
    · subst hk
      exact .inr (by rw [State.hart_setHart_self])
    · rw [State.hart_setHart_ne hk]
      exact hh.imp_left fun hm => (List.mem_cons.mp hm).resolve_left hk

/-- A hart that goes on after its WFI, or starts at PWR_WAKEVEC. -/
def Hart.woken (y : Hart) (deep : Bool) (pc : Nat) : Hart :=
  if deep then { y with wfi := false, startPc := pc, trap := 0x8000000000000018 } else { y with wfi := false }

theorem State.wakeHarts_cons : s.wakeHarts deep (k :: hs) =
    (if (s.hart k).released then s.setHart k ((s.hart k).woken deep (s.fld R.PWR_WAKEVEC.ENTRY / 4 * 4)) else s).wakeHarts deep hs := by
  cases deep <;> rfl

theorem State.wakeHarts_shape (s : State) (deep : Bool) (hs : List Nat) : ∃ harts, s.wakeHarts deep hs = { s with harts } := by
  induction hs generalizing s with
  | nil => exact ⟨_, rfl⟩
  | cons k hs ih =>
    rw [State.wakeHarts_cons]
    split
    · obtain ⟨_, he⟩ := ih (s.setHart k ((s.hart k).woken deep (s.fld R.PWR_WAKEVEC.ENTRY / 4 * 4)))
      exact ⟨_, he⟩
    · exact ih s

theorem Hart.woken_woken {y : Hart} {pc : Nat} : (y.woken deep pc).woken deep pc = y.woken deep pc := by
  cases deep <;> rfl

theorem Hart.released_woken {y : Hart} {pc : Nat} : (y.woken deep pc).released = y.released := by
  cases deep <;> rfl

/-- Each released hart of the list has woken, once or again. -/
theorem State.hart_wakeHarts (hrel : (s.hart h).released = true) :
    (s.wakeHarts deep hs).hart h = if h ∈ hs then (s.hart h).woken deep (s.fld R.PWR_WAKEVEC.ENTRY / 4 * 4) else s.hart h := by
  induction hs generalizing s with
  | nil => rfl
  | cons k hs ih =>
    rw [State.wakeHarts_cons]
    by_cases hk : h = k
    · subst hk
      rw [if_pos hrel, ih (by rw [State.hart_setHart_self, Hart.released_woken, hrel]), State.hart_setHart_self, if_pos List.mem_cons_self]
      rw [show ∀ y : Hart, (s.setHart h y).fld R.PWR_WAKEVEC.ENTRY = s.fld R.PWR_WAKEVEC.ENTRY from fun _ => rfl, Hart.woken_woken, ite_self]
    · simp only [List.mem_cons, hk, false_or]
      split
      · rw [ih (by rw [State.hart_setHart_ne hk, hrel]), State.hart_setHart_ne hk]
        rfl
      · exact ih hrel

/-! ### Entries and points of no return (R410, Table 15-3) -/

/-- A unit that stands, in a panel that is not held. -/
def State.unitFree (s : State) (u : Nat) : Prop := (s.unit u).target = none ∧ (s.unit u).waking = false ∧ s.panelHeld (unitPanel u) = false

/-- A unit that enters a state. -/
def UnitSt.entering (x : UnitSt) (t : Nat) (sh : Bool) : UnitSt := { x with target := some t, pnr := false, shell := sh, wakeAfter := 0 }

theorem exec_powerEntryStart (hup : s.up = true) (hu : u < 52) (hfree : s.unitFree u) (hr : s.readyEntry u = some (t, sh)) (hlt : (s.unit u).st < t) :
    exec (.powerEntryStart u) s = .next (s.setUnit u ((s.unit u).entering t sh)) := by
  obtain ⟨htarget, hwaking, hheld⟩ := hfree
  have hcount : unitCount = 52 := rfl
  change execPowerEntryStart u s = _
  rw [execPowerEntryStart, State.whenUp_of_up hup]
  dsimp only
  rw [if_neg (by simp [hcount, hu, htarget, hwaking, hheld]), hr]
  dsimp only
  rw [if_pos hlt]
  rfl

theorem exec_powerEntryStart_none (hup : s.up = true) (hr : s.readyEntry u = none) : exec (.powerEntryStart u) s = .next s := by
  change execPowerEntryStart u s = _
  rw [execPowerEntryStart, State.whenUp_of_up hup]
  dsimp only
  rw [hr]
  exact congrArg Host.Outcome.next (ite_self _)

theorem tileHarts_eq : tileHarts u = [4 * u, 4 * u + 1, 4 * u + 2, 4 * u + 3] := rfl

/-- A tile's four harts that wait for one state in WFI make its entry ready. -/
theorem State.readyEntry_tile (hu : u < 16) (h1 : 1 ≤ t) (h2 : t ≤ 2)
    (hh : ∀ k, k < 4 → (s.hart (4 * u + k)).preqPending = true ∧ (s.hart (4 * u + k)).wfi = true ∧ (s.hart (4 * u + k)).preq = t) :
    ∃ sh, s.readyEntry u = some (t, sh) := by
  have hask : s.tileAsk u = t := by
    obtain ⟨p0, w0, q0⟩ := hh 0 (by decide)
    obtain ⟨p1, w1, q1⟩ := hh 1 (by decide)
    obtain ⟨p2, w2, q2⟩ := hh 2 (by decide)
    obtain ⟨p3, w3, q3⟩ := hh 3 (by decide)
    rw [Nat.add_zero] at p0 w0 q0
    have hmod : t % 3 = t := Nat.mod_eq_of_lt (by omega)
    unfold State.tileAsk
    rw [tileHarts_eq, if_pos (by simp [p0, p1, p2, p3, w0, w1, w2, w3])]
    simp only [List.foldl_cons, List.foldl_nil, q0, q1, q2, q3, hmod]
    omega
  have hready : s.readyEntry u = if s.tileAsk u = 0 then none else some (s.tileAsk u, (tileHarts u).any fun h => !(s.hart h).preqLining) :=
    if_pos (by simp [isTile, hu])
  rw [hready, hask, if_neg (by omega)]
  exact ⟨_, rfl⟩

theorem State.readyEntry_quad (hu : 20 ≤ u) (hreq : (s.unit u).req = some (t, l)) (hidle : s.quadIdle u = true) : s.readyEntry u = some (t, !l) := by
  have hpanel : isPanel u = false := by simp [isPanel, hu]
  rw [State.readyEntry, if_neg (by simp [isTile]; omega), hreq]
  dsimp only
  rw [hpanel, if_neg Bool.false_ne_true, if_pos hidle]

theorem exec_pointOfNoReturn (hup : s.up = true) (hu : u < 52) (hkind : u < 16 ∨ 20 ≤ u) (ht : (s.unit u).target = some 2) :
    exec (.pointOfNoReturn u) s = .next (s.setUnit u { s.unit u with pnr := true }) := by
  have hcount : unitCount = 52 := rfl
  have hpanel : isPanel u = false := by
    simp only [isPanel, Bool.and_eq_false_iff, decide_eq_false_iff_not]
    omega
  refine congrArg Host.Outcome.next ((State.whenUp_of_up hup).trans ((if_pos (by simp [hcount, hu, ht])).trans (if_neg ?_)))
  rw [hpanel]
  exact Bool.false_ne_true

/-- A unit that has come down. -/
def UnitSt.entered (x : UnitSt) (t : Nat) : UnitSt :=
  { x with st := t, target := none, pnr := false, req := none, waking := decide (0 < x.wakeAfter), wakeAfter := 0 }

/-- A unit comes down, and the requests of a tile's harts go. -/
def State.enterUnit (s : State) (u t : Nat) : State := (if isTile u then s.hartsDrop false (tileHarts u) else s).setUnit u ((s.unit u).entered t)

theorem State.regs_enterUnit : (s.enterUnit u t).regs = s.regs := by
  unfold State.enterUnit
  split
  · obtain ⟨_, he⟩ := s.hartsDrop_shape false (tileHarts u)
    rw [he]
    rfl
  · rfl

theorem exec_powerEntryComplete_doze (hup : s.up = true) (ht : (s.unit u).target = some 1) (hw : (s.unit u).wakeAfter = 0) :
    exec (.powerEntryComplete u) s = .next (s.enterUnit u 1) := by
  change execPowerEntryComplete u s = _
  rw [execPowerEntryComplete, State.whenUp_of_up hup]
  dsimp only
  rw [ht]
  dsimp only
  rw [if_neg (show ¬ 1 = 3 by decide), if_neg (by simp), if_neg (by rw [hw]; decide), if_neg (by rw [hw]; decide), if_neg (by simp), if_neg (by simp)]
  rfl

theorem exec_powerEntryComplete_claimed (hup : s.up = true) (hu : u < 16) (ht : (s.unit u).target = some 2) (hp : (s.unit u).pnr = true)
    (hw : (s.unit u).wakeAfter = 1) :
    exec (.powerEntryComplete u) s = .next (((s.enterUnit u 2).cachesLost (tileHarts u)).pwrEvt R.PWR_STATUS.CLAIM_WAKE) := by
  have htile : isTile u = true := by simp [isTile, hu]
  change execPowerEntryComplete u s = _
  rw [execPowerEntryComplete, State.whenUp_of_up hup]
  dsimp only
  rw [ht]
  dsimp only
  rw [if_neg (show ¬ 2 = 3 by decide), if_neg (by simp [hp]), if_pos hw, if_pos (by simp [htile])]
  rfl

theorem completes_claimedEntry (hup : s.up = true) (hu : u < 16) (ht : (s.unit u).target = some 2) (hp : (s.unit u).pnr = true)
    (hw : (s.unit u).wakeAfter = 1) :
    Completes (.powerEntryComplete u) s fun w => (w.unit u).st = 2 ∧ (w.unit u).waking = true ∧ w.bit R.PWR_STATUS.CLAIM_WAKE = true ∧
      ∀ k, k < 4 → let y := w.hart (4 * u + k); y.icEn = false ∧ y.dcEn = false ∧ y.l2En = false ∧ y.invDone = false ∧ y.preqPending = false := by
  have hunit : ((s.enterUnit u 2).cachesLost (tileHarts u)).unit u = (s.unit u).entered 2 := by
    obtain ⟨_, he⟩ := (s.enterUnit u 2).cachesLost_shape (tileHarts u)
    rw [he]
    exact State.unit_setUnit_self
  have htile : s.enterUnit u 2 = (s.hartsDrop false (tileHarts u)).setUnit u ((s.unit u).entered 2) := by
    rw [State.enterUnit, if_pos (by simp [isTile, hu])]
  refine ⟨_, exec_powerEntryComplete_claimed hup hu ht hp hw, ?_⟩
  dsimp only
  rw [State.unit_pwrEvt, hunit]
  refine ⟨rfl, by simp [UnitSt.entered, hw], State.bit_pwrEvt_self (by decide) (by decide), fun k hk => ?_⟩
  rw [State.hart_pwrEvt, State.hart_cachesLost, if_pos (mem_tileHarts hk), htile]
  exact ⟨rfl, rfl, rfl, rfl, State.preqPending_hartsDrop (.inl (mem_tileHarts hk))⟩

/-! ### Hold (R422) -/

theorem State.holdPanels_shape (s : State) (m : Nat) : ∃ (links : SMap PortSt) (out : List OutEvent),
    s.holdPanels m = { s with links, out, pow := { s.pow with enterHold := s.pow.enterHold ||| m % 16 } } := by
  unfold State.holdPanels
  extract_lets new
  generalize new = ps
  have hfold : ∀ {ps : List Nat} {w : State}, ∃ (links : SMap PortSt) (out : List OutEvent), ps.foldl State.panelQuiet w = { w with links, out } := by
    intro ps
    induction ps with
    | nil => exact ⟨_, _, rfl⟩
    | cons p ps ih =>
      intro w
      obtain ⟨_, _, hq⟩ := w.panelQuiet_shape p
      obtain ⟨_, _, he⟩ := ih (w := w.panelQuiet p)
      rw [List.foldl_cons, he, hq]
      exact ⟨_, _, rfl⟩
  exact hfold

theorem State.panelHeld_holdPanels (hp : p < 4) : (s.holdPanels m).panelHeld p = (s.panelHeld p || m.testBit p) := by
  obtain ⟨_, _, he⟩ := s.holdPanels_shape m
  have hmod : (m % 16).testBit p = m.testBit p := by
    rw [show (16 : Nat) = 2 ^ 4 from rfl, Nat.testBit_mod_two_pow, decide_eq_true hp, Bool.true_and]
  rw [he]
  change ((s.pow.enterHold ||| m % 16).testBit p || s.safe.panelHeld.contains p || s.role == 3) =
    (s.pow.enterHold.testBit p || s.safe.panelHeld.contains p || s.role == 3 || m.testBit p)
  rw [Nat.testBit_or, hmod]
  cases s.pow.enterHold.testBit p <;> cases m.testBit p <;> simp

theorem exec_powerEntryComplete_hold (hup : s.up = true) (ht : (s.unit u).target = some 3) :
    exec (.powerEntryComplete u) s = .next ((s.setUnit u { s.unit u with target := none, pnr := false }).holdPanels (2 ^ unitPanel u)) := by
  change execPowerEntryComplete u s = _
  rw [execPowerEntryComplete, State.whenUp_of_up hup]
  dsimp only
  rw [ht]
  rfl

theorem unitPanel_lt (hu : u < 52) : unitPanel u < 4 := by
  unfold unitPanel
  split
  · omega
  · split <;> omega

theorem completes_holdEntry (hup : s.up = true) (hu : u < 52) (ht : (s.unit u).target = some 3) :
    Completes (.powerEntryComplete u) s fun w => w.panelHeld (unitPanel u) = true ∧ (w.unit u).target = none ∧ w.mem = s.mem := by
  refine ⟨_, exec_powerEntryComplete_hold hup ht, ?_, ?_⟩
  · rw [State.panelHeld_holdPanels (unitPanel_lt hu), Nat.testBit_two_pow_self, Bool.or_true]
  · obtain ⟨_, _, he⟩ := (s.setUnit u { s.unit u with target := none, pnr := false }).holdPanels_shape (2 ^ unitPanel u)
    rw [he]
    exact ⟨congrArg UnitSt.target (State.unit_setUnit_self (s := s)), rfl⟩

/-! ### Wakes (R415, R416, R419) -/

theorem State.unitStir_idle (ht : (s.unit u).target = none) (hst : (s.unit u).st = 0) : s.unitStir u = s :=
  (if_neg (by simp [ht])).trans (if_neg (by simp [hst]))

theorem State.unitStir_sleeps (ht : (s.unit u).target = none) (hst : (s.unit u).st = 1 ∨ (s.unit u).st = 2) :
    s.unitStir u = (s.setUnit u { s.unit u with waking := true }).pwrEvt R.PWR_STATUS.WAKE_EVT :=
  (if_neg (by simp [ht])).trans (if_pos hst)

theorem State.unitStir_cancels (ht : (s.unit u).target.isSome = true) (hp : (s.unit u).pnr = false) :
    s.unitStir u = s.setUnit u { s.unit u with target := none } :=
  (if_pos ht).trans (if_neg (by simp [hp]))

/-- An access to a unit whose panel's engine tile is in Bask. -/
theorem exec_unitWake (hup : s.up = true) (hu : u < 52) (hheld : s.panelHeld (unitPanel u) = false) (hquad : ¬ (20 ≤ u ∧ (s.unit u).st = 2))
    (hst : (s.unit (16 + unitPanel u)).st = 0) (ht : (s.unit (16 + unitPanel u)).target = none) :
    exec (.unitWake u) s = .next (s.unitStir u) := by
  have hneg : ¬ (s.panelHeld (unitPanel u) || (isQuad u && (s.unit u).st == 2)) = true := by
    simpa [hheld, isQuad, hu] using hquad
  refine congrArg Host.Outcome.next ((State.whenUp_of_up hup).trans ((if_pos hu).trans ((if_neg hneg).trans ?_)))
  rw [State.unitStir_idle ht hst]
  exact ite_self _

theorem exec_unitWake_held (hup : s.up = true) (hu : u < 52) (hheld : s.panelHeld (unitPanel u) = true) : exec (.unitWake u) s = .next s :=
  congrArg Host.Outcome.next ((State.whenUp_of_up hup).trans ((if_pos hu).trans (if_pos (by simp [hheld]))))

/-- A unit that is ready again. -/
def State.basked (s : State) (u : Nat) : State := s.setUnit u { s.unit u with st := 0, waking := false, shell := false }

/-- What of a ready unit's harts wakes. -/
theorem State.unitReady_shape (hw : (s.unit u).waking = true) : ∃ harts, s.unitReady u = { s.basked u with harts } := by
  have hready : s.unitReady u = if isTile u then
        (if ((s.basked u).unit (16 + unitPanel u)).st = 0 then (s.basked u).wakeHarts ((s.unit u).st == 2) (tileHarts u) else s.basked u)
      else if isPanel u then (s.basked u).wakeHarts ((s.unit u).st == 2) ((panelHarts (u - 16)).filter fun h => ((s.basked u).unit (h / 4)).st == 0)
      else s.basked u := if_neg (by simp [hw])
  rw [hready]
  split
  · split
    · exact State.wakeHarts_shape ..
    · exact ⟨_, rfl⟩
  · split
    · exact State.wakeHarts_shape ..
    · exact ⟨_, rfl⟩

theorem State.hart_unitReady (hu : u < 16) (hw : (s.unit u).waking = true) (hpan : (s.unit (16 + unitPanel u)).st = 0) (hk : k < 4)
    (hrel : (s.hart (4 * u + k)).released = true) :
    (s.unitReady u).hart (4 * u + k) = (s.hart (4 * u + k)).woken ((s.unit u).st == 2) (s.fld R.PWR_WAKEVEC.ENTRY / 4 * 4) := by
  have htile : isTile u = true := by simp [isTile, hu]
  have hpan' : ((s.basked u).unit (16 + unitPanel u)).st = 0 := by
    rw [State.basked, State.unit_setUnit_ne (by omega), hpan]
  have hready : s.unitReady u = (s.basked u).wakeHarts ((s.unit u).st == 2) (tileHarts u) :=
    (if_neg (by simp [hw])).trans ((if_pos htile).trans (if_pos hpan'))
  rw [hready, State.hart_wakeHarts (s := s.basked u) hrel, if_pos (mem_tileHarts hk)]
  rfl

theorem exec_wakeReady (hup : s.up = true) (hu : u < 52) : exec (.wakeReady u) s = .next (s.unitReady u) :=
  congrArg Host.Outcome.next ((State.whenUp_of_up hup).trans (if_pos hu))

theorem State.quadWake_free (hheld : s.panelHeld (unitPanel u) = false) (ht : (s.unit u).target = none) :
    s.quadWake u = s.setUnit u { s.unit u with waking := true } :=
  if_neg (by simp [hheld, ht])

/-! ### Scan reads (R423) -/

theorem smGet_map_ide : ∀ {l : SMap SpdmState} {n : Nat}, (smGet SpdmState.reset (l.map fun e => (e.1, { e.2 with ide := [] })) n).ide = [] := by
  intro l
  induction l with
  | nil => exact fun {_} => rfl
  | cons e l ih =>
    intro n
    rw [List.map_cons, smGet]
    split
    · rfl
    · exact ih

theorem State.ideOf_zeroKeys {n : Nat} : s.zeroKeys.ideOf n k = 0 := by
  unfold State.ideOf
  rw [show (s.zeroKeys.spdmOf n).ide = [] from smGet_map_ide]
  rfl

theorem State.scanRead_held (hheld : s.panelHeld (s.fld R.PWR_SCAN_SEL.PANEL) = true) : s.scanRead = (s.zeroKeys.drawn, BitVec.ofNat 64 s.free) := if_pos hheld

theorem State.scanRead_not_held (hheld : s.panelHeld (s.fld R.PWR_SCAN_SEL.PANEL) = false) : s.scanRead = (s, 0) := if_neg (by simp [hheld])

theorem exec_scanRead {who : Agent} (hup : s.up = true) (ho : s.opens who R.PWR_SCAN_DATA.off) :
    exec (.scanRead who) s = .next (s.scanRead.1.emit (.readData (leBytes 8 s.scanRead.2.toNat))) :=
  congrArg Host.Outcome.next ((State.whenUp_of_up hup).trans (State.regTry_of_opens ho))

end

/-- Settles O52: each command by the branch that its unit's kind and state choose. -/
theorem powerTransitions : Obligations.PowerTransitions := by
  intro s u t who data sh l hup hu x free tile
  refine ⟨fun hf hr hlt => exec_powerEntryStart hup hu hf hr hlt, fun hf h16 h1 h2 hlt hh => ?_, fun hf h20 hreq hlt hidle => ?_,
    fun hr => exec_powerEntryStart_none hup hr, fun hkind ht => exec_pointOfNoReturn hup hu hkind ht, fun ht => ?_, fun ht => ?_, fun ht hw => ?_,
    fun ht hp hw h16 => completes_claimedEntry hup h16 ht hp hw, fun ht => completes_holdEntry hup hu ht,
    fun hheld hst htt => ⟨fun hkind ht hsleep => ?_, fun h16 ht hp => ?_, fun ht h0 => ?_⟩, fun hheld => exec_unitWake_held hup hu hheld, fun hw => ?_, fun hw => ?_,
    fun h20 hheld ht => ⟨fun h1 => ?_, fun h2 hq => ?_⟩, fun hkind => ⟨?_, ?_⟩, fun ho => ?_, fun ho => ⟨fun hheld => ?_, fun hheld => ?_⟩⟩
  · obtain ⟨_, hr⟩ := State.readyEntry_tile h16 h1 h2 hh
    refine ⟨_, exec_powerEntryStart hup hu hf hr hlt, ?_⟩
    dsimp only
    rw [State.unit_setUnit_self]
    exact ⟨rfl, rfl⟩
  · refine ⟨_, exec_powerEntryStart hup hu hf (State.readyEntry_quad h20 hreq hidle) hlt, ?_⟩
    dsimp only
    rw [State.unit_setUnit_self]
    exact ⟨rfl, rfl⟩
  · exact congrArg Host.Outcome.next ((State.whenUp_of_up hup).trans (if_neg (by simpa using fun _ => ht)))
  · change execPowerEntryComplete u s = _
    rw [execPowerEntryComplete, State.whenUp_of_up hup]
    dsimp only
    rw [show (s.unit u).target = none from ht]
  · refine ⟨_, exec_powerEntryComplete_doze hup ht hw, ?_⟩
    have hunit : (s.enterUnit u 1).unit u = (s.unit u).entered 1 := State.unit_setUnit_self
    dsimp only
    rw [hunit]
    exact ⟨rfl, rfl, by simp [UnitSt.entered, show (s.unit u).wakeAfter = 0 from hw], State.regs_enterUnit⟩
  · refine ⟨_, exec_unitWake hup hu hheld (by simp only [show s.unit u = x from rfl]; omega) hst htt, ?_⟩
    dsimp only
    rw [State.unitStir_sleeps ht (hsleep.imp_right And.left), State.unit_pwrEvt, State.unit_setUnit_self]
    exact ⟨rfl, State.bit_pwrEvt_self (by decide) (by decide)⟩
  · refine ⟨_, exec_unitWake hup hu hheld (fun h => by omega) hst htt, ?_⟩
    dsimp only
    rw [State.unitStir_cancels ht hp, State.unit_setUnit_self]
    exact ⟨rfl, rfl⟩
  · rw [exec_unitWake hup hu hheld (fun h => by simp only [show (s.unit u).st = 0 from h0] at h; omega) hst htt, State.unitStir_idle ht h0]
  · refine ⟨_, exec_wakeReady hup hu, ?_⟩
    obtain ⟨_, hshape⟩ := State.unitReady_shape hw
    have hunit : (s.unitReady u).unit u = { s.unit u with st := 0, waking := false, shell := false } := by
      rw [hshape]
      exact State.unit_setUnit_self
    have hregs : (s.unitReady u).regs = s.regs := by
      rw [hshape]
      rfl
    refine ⟨by rw [hunit], by rw [hunit], hregs, ?_⟩
    intro h16 hpan k hk y hrel
    refine ⟨fun h1 => ?_, fun h2 => ?_⟩
    · rw [State.hart_unitReady h16 hw hpan hk hrel, show (s.unit u).st = 1 from h1]
      rfl
    · rw [State.hart_unitReady h16 hw hpan hk hrel, show (s.unit u).st = 2 from h2]
      rfl
  · exact congrArg Host.Outcome.next ((State.whenUp_of_up hup).trans ((if_pos hu).trans (if_pos (by simp [show (s.unit u).waking = false from hw]))))
  · exact congrArg Host.Outcome.next ((State.whenUp_of_up hup).trans
      ((if_pos (by simp [isQuad, h20, hu, show (s.unit u).st = 1 from h1])).trans (State.quadWake_free hheld ht)))
  · exact congrArg Host.Outcome.next ((State.whenUp_of_up hup).trans
      ((if_pos (by simp [isQuad, h20, hu, hq, show (s.unit u).st = 2 from h2])).trans (State.quadWake_free hheld ht)))
  · refine congrArg Host.Outcome.next ((State.whenUp_of_up hup).trans (if_neg ?_))
    obtain h20 | h0 := hkind
    · simp [isQuad, h20]
    · simp [show (s.unit u).st = 0 from h0]
  · refine congrArg Host.Outcome.next ((State.whenUp_of_up hup).trans (if_neg ?_))
    obtain h20 | h0 := hkind
    · simp [isQuad, h20]
    · simp [show (s.unit u).st = 0 from h0]
  · refine ⟨s.holdSet data, congrArg Host.Outcome.next ((State.whenUp_of_up hup).trans (State.regTry_of_opens ho)), ?_, fun p hp => ?_⟩
    · obtain ⟨_, _, he⟩ := s.holdPanels_shape (getBits data 0 4)
      rw [State.holdSet, he]
    · rw [State.holdSet, State.panelHeld_holdPanels hp, testBit_getBits, decide_eq_true hp, Bool.true_and, Nat.zero_add]
  · refine ⟨_, exec_scanRead hup ho, ?_⟩
    dsimp only
    rw [State.scanRead_held hheld]
    exact ⟨rfl, rfl, fun n k => State.ideOf_zeroKeys, _, length_leBytes, rfl⟩
  · have hzeros : leBytes 8 0 = zeros 8 := by decide
    rw [exec_scanRead hup ho, State.scanRead_not_held hheld, ← hzeros]
    rfl

end Sys2Proof.Machine
end

section
/-!
O58. Moult: the start of a slice's test, its redirect and its March, and Moult's commands.
-/

namespace Sys2Proof.Machine

section

variable {s t u : State} {r : OnfReq} {x y c n k : Nat} {b : Bool} {f : Fld} {spare : Option Nat} {m : MoultTest}

/-! ### What the shared operations of Moult change -/

theorem State.unitStir_shape (s : State) (k : Nat) : ∃ (units : SMap UnitSt) (regs : SMap W64) (onf : OnfState),
    s.unitStir k = { s with regs, onf, pow := { s.pow with units } } := by
  unfold State.unitStir
  dsimp only
  split
  · split
    · exact ⟨_, _, _, rfl⟩
    · exact ⟨_, _, _, rfl⟩
  · split
    · obtain ⟨_, he⟩ := State.event_shape (s := (s.setUnit k { s.unit k with waking := true }).setBit R.PWR_STATUS.WAKE_EVT) 4
      exact ⟨_, _, _, he⟩
    · exact ⟨_, _, _, rfl⟩

theorem State.wakeUnit_shape (s : State) (k : Nat) : ∃ (units : SMap UnitSt) (regs : SMap W64) (onf : OnfState),
    s.wakeUnit k = { s with regs, onf, pow := { s.pow with units } } := by
  unfold State.wakeUnit
  split
  · exact ⟨_, _, _, rfl⟩
  split
  · exact s.unitStir_shape k
  · obtain ⟨_, _, _, h1⟩ := s.unitStir_shape (16 + unitPanel k)
    obtain ⟨_, _, _, h2⟩ := (s.unitStir (16 + unitPanel k)).unitStir_shape k
    rw [h2, h1]
    exact ⟨_, _, _, rfl⟩

theorem State.moultAnswer_shape (s : State) (x c : Nat) : ∃ (onf : OnfState) (fns : SMap FnCtx) (galv : GalvState) (out : List OutEvent),
    s.moultAnswer x c = { s with onf, fns, galv, out } := by
  have hfold : ∀ {l : List (Nat × OnfReq)} {w : State}, ∃ (onf : OnfState) (fns : SMap FnCtx) (galv : GalvState) (out : List OutEvent),
      l.foldl (fun (s : State) e => s.reply e.2 0x0801 c []) w = { w with onf, fns, galv, out } := by
    intro l
    induction l with
    | nil => exact ⟨_, _, _, _, rfl⟩
    | cons e l ih =>
      intro w
      obtain ⟨_, _, _, _, h1⟩ := State.reply_shape (s := w) e.2 0x0801 c []
      obtain ⟨_, _, _, _, h2⟩ := ih (w := w.reply e.2 0x0801 c [])
      rw [List.foldl_cons, h2, h1]
      exact ⟨_, _, _, _, rfl⟩
  unfold State.moultAnswer
  exact hfold

/-- A pass that ends writes its own fields of MOULT_STATUS. -/
theorem State.passCheck_shape (s : State) : (∃ (tested : List Nat) (regs : SMap W64) (onf : OnfState),
      s.passCheck = { s with regs, onf, pow := { s.pow with tested } }) ∧
    ∀ f : Fld, R.MOULT_STATUS.DONE.apart f = true → R.MOULT_STATUS.FULLRATE.apart f = true → R.MOULT_STATUS.PASSES.apart f = true →
      R.MOULT_STATUS.PASS_EVT.apart f = true → s.passCheck.fld f = s.fld f := by
  unfold State.passCheck
  extract_lets live
  split
  · constructor
    · obtain ⟨_, he⟩ := State.event_shape (s := (((({ s with pow := { s.pow with tested := [] } }).setFld R.MOULT_STATUS.DONE 0).clrBit
        R.MOULT_STATUS.FULLRATE).bump R.MOULT_STATUS.PASSES 1).setBit R.MOULT_STATUS.PASS_EVT) 5
      exact ⟨_, _, _, he⟩
    · intro f h1 h2 h3 h4
      rw [State.moultEvt, State.fld_of_reg (State.reg_of_regs (State.event_regs _ _)), State.setBit, State.fld_setFld_apart h4, State.bump,
        State.fld_setFld_apart h3, State.clrBit, State.fld_setFld_apart h2, State.fld_setFld_apart h1]
      rfl
  · exact ⟨⟨_, _, _, rfl⟩, fun f _ _ _ _ => rfl⟩

theorem State.isSpare_setSpare : (s.setSpare x b).isSpare x = b := by
  simp only [State.isSpare, State.setSpare, smGet_put_self]

/-! ### A test's start (R425, R427) -/

theorem State.testBegin_spec : (s.testBegin x spare).pow.tests = s.pow.tests ++ [(x, { march := s.isSpare x, spare := spare })] ∧
    (s.testBegin x spare).fld R.MOULT_STATUS.ACTIVE = (s.pow.tests.length + 1) % 2 ^ R.MOULT_STATUS.ACTIVE.w := by
  unfold State.testBegin
  extract_lets s1 s2
  have h1 : s1.pow.tests = s.pow.tests := by
    change (if _ then _ else _ : State).pow.tests = _
    split
    · obtain ⟨_, _, _, he⟩ := s.wakeUnit_shape (16 + slicePanel x)
      rw [he]
    · rfl
  have h2 : s2.fld R.MOULT_STATUS.ACTIVE = (s1.pow.tests ++ [(x, ({ march := s.isSpare x, spare := spare } : MoultTest))]).length % 2 ^ R.MOULT_STATUS.ACTIVE.w :=
    State.fld_setFld_self (by decide)
  rw [h1, List.length_append] at h2
  exact ⟨congrArg (· ++ [(x, ({ march := s.isSpare x, spare := spare } : MoultTest))]) h1, h2⟩

theorem exec_moultSliceTestStart (hup : s.up = true) (hj : s.testJudge x = (0, spare)) (ht : s.pow.tested.contains x = false) :
    exec (.moultSliceTestStart x) s = .next (s.testBegin x spare) := by
  change execMoultSliceTestStart x s = _
  rw [execMoultSliceTestStart, State.whenUp_of_up hup]
  dsimp only
  rw [hj, if_neg (by rw [ht]; exact Bool.false_ne_true), if_neg (by simp), if_pos rfl]

/-! ### The redirect (R425) -/

/-- A slice's test goes on with its March. -/
def marched (x : Nat) (e : Nat × MoultTest) : Nat × MoultTest := if e.1 == x then (e.1, { march := true, spare := none }) else e

theorem marched_fst {e : Nat × MoultTest} : (marched x e).1 = e.1 := by
  unfold marched
  split <;> rfl

theorem find?_marched {l : List (Nat × MoultTest)} (h : (l.find? fun e => e.1 == x).map (·.2) = some m) :
    ((l.map (marched x)).find? fun e => e.1 == x).map (·.2) = some { march := true, spare := none } := by
  obtain ⟨e, he, -⟩ := Option.map_eq_some_iff.mp h
  have hkey : (e.1 == x) = true := List.find?_some (p := fun e : Nat × MoultTest => e.1 == x) he
  have hcomp : (fun e : Nat × MoultTest => e.1 == x) ∘ marched x = fun e => e.1 == x := funext fun e => congrArg (· == x) marched_fst
  rw [List.find?_map, hcomp, he, Option.map_some, Option.map_some, marched, if_pos hkey]

theorem filter_marched {l : List (Nat × MoultTest)} : ((l.map (marched x)).filter fun e => e.1 != x) = l.filter fun e => e.1 != x := by
  induction l with
  | nil => rfl
  | cons e l ih =>
    rw [List.map_cons, List.filter_cons, List.filter_cons, ih, marched_fst]
    split
    next hne => rw [marched, if_neg (by simpa using hne)]
    next => rfl

theorem exec_moultRedirect (hup : s.up = true) (ht : s.sliceTest x = some m) (hm : m.march = false) (hs : m.spare = some y) :
    exec (.moultRedirect x) s = .next ((s.setSpare y false).setTests (s.pow.tests.map (marched x))) := by
  change execMoultRedirect x s = _
  rw [execMoultRedirect, State.whenUp_of_up hup, ht]
  dsimp only
  rw [hm, hs]
  rfl

theorem exec_moultRedirect_march (hup : s.up = true) (ht : s.sliceTest x = some m) (hm : m.march = true) : exec (.moultRedirect x) s = .next s := by
  change execMoultRedirect x s = _
  rw [execMoultRedirect, State.whenUp_of_up hup, ht]
  dsimp only
  rw [hm]

/-! ### The March's end (R425, R428) -/

/-- The tests but one. -/
def State.testOver (s : State) (x : Nat) : State := s.setTests (s.pow.tests.filter fun e => e.1 != x)

/-- A slice that passed is a spare, and counted. -/
def State.slicePassed (s : State) (x : Nat) : State :=
  let tested := if s.pow.tested.contains x then s.pow.tested else s.pow.tested ++ [x]
  (({ s with pow := { s.pow with tested := tested } }).setSpare x true).setFld R.MOULT_STATUS.DONE tested.length

theorem exec_moultMarchComplete {fails : Bool} (hup : s.up = true) (ht : s.sliceTest x = some m) (hm : m.march = true) :
    exec (.moultMarchComplete x fails) s = .next (if fails then ((s.testOver x).retireSlice x).passCheck
      else (((s.testOver x).slicePassed x).moultAnswer x 0).passCheck) := by
  change execMoultMarchComplete x fails s = _
  rw [execMoultMarchComplete, State.whenUp_of_up hup]
  dsimp only
  rw [ht]
  dsimp only
  rw [if_neg (by simp [hm])]
  rfl

theorem State.pow_moultAnswer : (s.moultAnswer x c).pow = s.pow := by
  obtain ⟨_, _, _, _, h⟩ := s.moultAnswer_shape x c
  rw [h]

theorem State.marchPassed_spec : ((((s.testOver x).slicePassed x).moultAnswer x 0).passCheck).isSpare x = true ∧
    ((((s.testOver x).slicePassed x).moultAnswer x 0).passCheck).pow.tests = s.pow.tests.filter (fun e => e.1 != x) ∧
    ((((s.testOver x).slicePassed x).moultAnswer x 0).passCheck).pow.retired = s.pow.retired := by
  obtain ⟨⟨_, _, _, h⟩, -⟩ := (((s.testOver x).slicePassed x).moultAnswer x 0).passCheck_shape
  rw [h]
  unfold State.isSpare
  dsimp only
  rw [State.pow_moultAnswer]
  exact ⟨State.isSpare_setSpare, rfl, rfl⟩

/-- What stands of a slice that is retired, as the `n`th. -/
def State.SliceRetired (x n : Nat) (t : State) : Prop :=
  x ∈ t.pow.retired ∧ t.isSpare x = false ∧ t.fld R.MOULT_LAST.SLICE = x % 65536 ∧ t.bit R.MOULT_STATUS.RETIRE_EVT = true ∧ t.fld R.MOULT_LAST.RETIRED = n

theorem State.SliceRetired.moultAnswer (h : State.SliceRetired x n t) : State.SliceRetired x n (t.moultAnswer k c) := by
  obtain ⟨_, _, _, _, he⟩ := t.moultAnswer_shape k c
  rw [he]
  exact h

theorem State.SliceRetired.endWaits (h : State.SliceRetired x n t) : State.SliceRetired x n t.endWaits := by
  obtain ⟨_, he⟩ := t.endWaits_shape
  rw [he]
  exact h

theorem State.SliceRetired.passCheck (h : State.SliceRetired x n t) : State.SliceRetired x n t.passCheck := by
  obtain ⟨h1, h2, h3, h4, h5⟩ := h
  obtain ⟨⟨_, _, _, he⟩, hf⟩ := t.passCheck_shape
  refine ⟨?_, ?_, (hf _ (by decide) (by decide) (by decide) (by decide)).trans h3,
    (State.bit_of_fld (hf _ (by decide) (by decide) (by decide) (by decide))).trans h4, (hf _ (by decide) (by decide) (by decide) (by decide)).trans h5⟩
  · rw [he]
    exact h1
  · rw [he]
    exact h2

/-- A slice leaves its group. -/
def State.sliceGone (s : State) (x : Nat) : State :=
  ({ s with pow := { s.pow with
    retired := s.pow.retired ++ [x], tested := s.pow.tested.filter (· != x), first := s.pow.first.filter (· != x) } } : State).setSpare x false

/-- A failed slice's capture. -/
def State.sliceCaptured (s : State) (x : Nat) : State := (s.sliceGone x).safeCapture 11 0 (slicePanel x) (sliceTile x) x 0

/-- A failed slice's record. -/
def State.sliceRecorded (s : State) (x : Nat) : State :=
  (((s.sliceCaptured x).setFld R.MOULT_LAST.SLICE x).bump R.MOULT_LAST.RETIRED 1).setFld R.MOULT_LAST.MIN_SPARES
    (((sliceKeys.map (s.sliceCaptured x).sparesLeft).min?).getD 0)

/-- A failed slice's record, with its event. -/
def State.retireRecorded (s : State) (x : Nat) : State := ((s.sliceRecorded x).safeEvt R.SAFE_STATUS.LATENT_EVT).moultEvt R.MOULT_STATUS.RETIRE_EVT

theorem State.pow_safeCapture {a d e g i j : Nat} : (s.safeCapture a d e g i j).pow = s.pow := by
  have hset : ∀ {t : State} {o : Nat} {v : W64}, (t.setReg o v).pow = t.pow := rfl
  unfold State.safeCapture
  split
  · rfl
  · dsimp only
    rw [hset, hset]

theorem State.pow_retireRecorded : (s.retireRecorded x).pow = (s.sliceGone x).pow := by
  have hset : ∀ {t : State} {g : Fld} {v : Nat}, (t.setFld g v).pow = t.pow := rfl
  rw [State.retireRecorded, State.moultEvt, State.event_pow, State.setBit, hset, State.safeEvt_pow, State.sliceRecorded, hset, State.bump, hset, hset,
    State.sliceCaptured, State.pow_safeCapture]

theorem State.retired_retireRecorded : State.SliceRetired x (min (s.fld R.MOULT_LAST.RETIRED + 1) (2 ^ R.MOULT_LAST.RETIRED.w - 1)) (s.retireRecorded x) := by
  have hcap : (s.sliceCaptured x).fld R.MOULT_LAST.RETIRED = s.fld R.MOULT_LAST.RETIRED := State.fld_safeCapture (by decide) (by decide)
  have hlast : ∀ {g : Fld}, R.MOULT_STATUS.RETIRE_EVT.apart g = true → R.SAFE_STATUS.LATENT_EVT.apart g = true →
      (s.retireRecorded x).fld g = (s.sliceRecorded x).fld g := by
    intro g h1 h2
    rw [State.retireRecorded, State.moultEvt, State.fld_of_reg (State.reg_of_regs (State.event_regs _ _)), State.setBit, State.fld_setFld_apart h1,
      State.fld_safeEvt, State.setBit, State.fld_setFld_apart h2]
  refine ⟨?_, ?_, ?_, ?_, ?_⟩
  · rw [State.pow_retireRecorded]
    exact List.mem_append_right _ List.mem_cons_self
  · rw [State.isSpare, State.pow_retireRecorded]
    exact State.isSpare_setSpare
  · rw [hlast (by decide) (by decide), State.sliceRecorded, State.fld_setFld_apart (by decide), State.bump, State.fld_setFld_apart (by decide),
      State.fld_setFld_self (by decide)]
    rfl
  · rw [State.retireRecorded, State.moultEvt, State.bit_of_fld (State.fld_of_reg (State.reg_of_regs (State.event_regs _ _))),
      State.bit_setBit_self (by decide) (by decide)]
  · rw [hlast (by decide) (by decide), State.sliceRecorded, State.fld_setFld_apart (by decide), State.fld_bump_self (by decide),
      State.fld_setFld_apart (by decide), hcap]

theorem sliceGroup_of_key : sliceKey x / 16 = sliceGroup x := by
  have hlt : slicePanel x < 4 := Nat.mod_lt _ (by decide)
  unfold sliceKey
  omega

theorem State.sparesLeft_retireRecorded (h : s.retiredOf (sliceKey x) + 1 < moultSpareCount (sliceGroup x)) :
    ((s.retireRecorded x).moultAnswer x E.MOULT_FAIL).sparesLeft (sliceKey x) ≠ 0 := by
  have hof : ((s.retireRecorded x).moultAnswer x E.MOULT_FAIL).retiredOf (sliceKey x) = s.retiredOf (sliceKey x) + 1 := by
    have hret : (s.retireRecorded x).pow.retired = s.pow.retired ++ [x] := congrArg PowState.retired State.pow_retireRecorded
    rw [State.retiredOf, State.pow_moultAnswer, hret, List.filter_append, List.length_append]
    simp [State.retiredOf]
  rw [State.sparesLeft, hof, sliceGroup_of_key]
  omega

theorem State.retireSlice_spare (h : s.retiredOf (sliceKey x) + 1 < moultSpareCount (sliceGroup x)) :
    s.retireSlice x = ((s.retireRecorded x).moultAnswer x E.MOULT_FAIL).endWaits := by
  unfold State.retireSlice
  extract_lets +onlyGivenNames pow s0 s1 s2 s3
  have h3 : s3 = (s.retireRecorded x).moultAnswer x E.MOULT_FAIL := rfl
  rw [h3, if_neg (State.sparesLeft_retireRecorded h)]

end

/-- Settles O58: each command by its branch; a retired slice's record by what later writes leave. -/
theorem moultTests : Obligations.MoultTests := by
  intro s r x y c period tile level way spare t u throttled tests
  refine ⟨fun hadm => ⟨?_, fun ht => ?_, fun ht => ?_, fun hj => ?_, fun hj hc => ?_⟩, fun hadm => ?_, fun hx => ?_, fun hup =>
    ⟨fun hj ht => ⟨_, exec_moultSliceTestStart hup hj ht, State.testBegin_spec⟩, fun ht => ?_, fun ht hm hs => ?_, fun ht hm => exec_moultRedirect_march hup ht hm,
      fun ht hm => ?_, fun ht hm hleft => ?_, fun ht fails => ⟨?_, ?_⟩, fun h16 h3 hst => ?_, fun h16 h3 hst => ?_⟩⟩
  · exact congrArg Host.Outcome.next (State.command_admits hadm)
  · exact congrArg Host.Outcome.next ((State.command_admits hadm).trans (if_pos ht))
  · refine ⟨_, congrArg Host.Outcome.next ((State.command_admits hadm).trans (if_neg (ht.trans_ne Bool.false_ne_true))), ?_, ?_, rfl, rfl⟩
    · exact State.bit_setBit_self (by decide) (by decide)
    · exact (State.fld_setFld_apart (by decide)).trans (State.fld_setFld_self (by decide))
  · have hexec : exec (.moultRunSlice r x) s =
        .next { u.testBegin x spare with onf := { (u.testBegin x spare).onf with moultWait := u.onf.moultWait ++ [(x, r)] } } := by
      change execMoultRunSlice r x s = _
      rw [execMoultRunSlice, State.command_admits hadm]
      dsimp only
      rw [hj, if_pos rfl]
    exact ⟨_, hexec, rfl, State.testBegin_spec.1⟩
  · change execMoultRunSlice r x s = _
    rw [execMoultRunSlice, State.command_admits hadm]
    dsimp only
    rw [hj, if_neg hc]
  · exact congrArg Host.Outcome.next (State.command_admits hadm)
  · exact if_pos (by simp [hx])
  · exact congrArg Host.Outcome.next ((State.whenUp_of_up hup).trans (if_pos ht))
  · exact ⟨_, exec_moultRedirect hup ht hm hs, State.isSpare_setSpare, find?_marched ht, filter_marched⟩
  · refine ⟨_, exec_moultMarchComplete hup ht hm, ?_⟩
    rw [if_neg Bool.false_ne_true]
    exact State.marchPassed_spec
  · refine ⟨_, exec_moultMarchComplete hup ht hm, ?_⟩
    have hret : (s.testOver x).fld R.MOULT_LAST.RETIRED = s.fld R.MOULT_LAST.RETIRED := State.fld_setFld_apart (by decide)
    rw [if_pos rfl, State.retireSlice_spare (s := s.testOver x) hleft, ← hret]
    exact State.retired_retireRecorded.moultAnswer.endWaits.passCheck
  · change execMoultMarchComplete x fails s = _
    rw [execMoultMarchComplete, State.whenUp_of_up hup]
    dsimp only
    rw [ht]
  · change execMoultRedirect x s = _
    rw [execMoultRedirect, State.whenUp_of_up hup, ht]
  · exact congrArg Host.Outcome.next ((State.whenUp_of_up hup).trans (if_neg (by simp [hst])))
  · exact congrArg Host.Outcome.next ((State.whenUp_of_up hup).trans (if_pos (by simp [h16, h3, hst])))

end Sys2Proof.Machine
end
